-- ==== Sys2Proof/Word.lean ====
section
/-!
DEFINITION. The word of a register (32 bits, spec/02 R33) and the byte of memory.
-/

namespace Sys2Proof

abbrev Word := BitVec 32

abbrev Byte := BitVec 8

end Sys2Proof
end

