-- ==== Sys2Proof/Syntax.lean ====
section
/-!
DEFINITION. The commands of the block: one constructor per row of spec/opcode_table.json, in the table's order, with the
operands that the row's event brings from outside, and the types of those operands. The docstring of a constructor is the
row's summary and rule.
-/

namespace Sys2Proof

/-- Levels of Table 13-1, with the VM number of a normal-world supervisor or user level (spec/13 R393). -/
inductive Level where
  | monitor
  | secure
  | hypervisor
  | vm (v : Fin 16)
  deriving DecidableEq, Repr

/-- Who makes an access: the agent identifier of Table 12-2, the level, and the width of the access in bytes (R33). -/
structure Access where
  agent : Nat
  level : Level
  size : Nat
  deriving DecidableEq, Repr

/-- What a write to a register without a row of its own goes to: a register of a page, or a register of the writing core (a word
of its send port, its world latch, VM register, a deadline timer, its execution quantum, the event that one of its counters counts; spec/12 R377, R381,
R383, spec/13 R393). -/
inductive RegTarget where
  | page (addr : Nat) (v : Word)
  | sendWord (k : Fin 16) (v : Word)
  | worldLatch (normal : Bool)
  | vmRegister (vmNo : Fin 16)
  | deadline (secure : Bool) (due : Option Nat)
  | quantum (n : Nat)
  | eventSelect (k : Fin 6) (event : Fin 256)
  deriving DecidableEq, Repr

/-- A master's priority vector as an Announce carries it (IEEE 802.1AS-2020 clause 10, spec/03 Table 03-2): priority1, clock
class, accuracy, variance, priority2, grandmaster identity, steps removed, source port identity. Lower is better. -/
structure PtpVector where
  priority1 : Nat
  clockClass : Nat
  accuracy : Nat
  variance : Nat
  priority2 : Nat
  gmIdentity : Nat
  stepsRemoved : Nat
  sourcePort : Nat
  deriving DecidableEq, Repr

/-- PTP message kinds that an instance sends at an interval (spec/03 Table 03-2). -/
inductive PtpMessage where
  | sync
  | pdelay
  | announce
  deriving DecidableEq, Repr

/-- Kinds of plate announcement (spec/03 R93, spec/10 Table 10-5). -/
inductive AnnKind where
  | boundary
  | correction
  | reindex
  deriving DecidableEq, Repr

/-- A port of a PTP instance (spec/03 R71). -/
structure PtpPort where
  inst : Fin 4
  port : Fin 31
  deriving DecidableEq, Repr

/-- When an edge at a pin falls: the clocks up to it and the sampling phase of the 250 MHz clock, one of eight, that
catches it (spec/01 R31). -/
structure Instant where
  clocks : Nat
  phase : Fin 8
  deriving DecidableEq, Repr

/-- The clocks up to an event and how long before it, in 0.25 ns units, its stamped instant lay (spec/04 R141, spec/06 R221). -/
structure Elapsed where
  clocks : Nat
  age : Nat
  deriving DecidableEq, Repr

/-- A frame as a port receives it: its octets from the destination address up to the FCS (excluded), whether the FCS and
the reassembly of fragments are good, the egress queues whose tail frame begins transmission in the clock of an
eviction (spec/05 R159), and how long ago its start delimiter crossed the MAC boundary, in 0.25 ns units (spec/04 R141). -/
structure RxFrame where
  octets : List Nat
  fcsOk : Bool
  asmOk : Bool
  starting : List Nat
  age : Nat
  deriving DecidableEq, Repr

/-- The three selection tables (spec/04 R125). -/
inductive SelKind where
  | lag
  | spl
  | gwe
  deriving DecidableEq, Repr

/-- The pages with an access window (spec/04 Table 04-9, spec/05, spec/06 Table 06-11). -/
inductive TaPage where
  | fdb (i : Fin 2)
  | strm (i : Fin 2)
  | frer
  | buf
  | gwc
  deriving DecidableEq, Repr

/-- A frame of a CAN or LIN bus: format (0 CC, 1 FD, 2 XL), extended identifier, remote request, bit-rate switch, identifier
(base and XL priority identifiers in bits 28:18; a LIN identifier in bits 5:0), data, and the XL fields. -/
structure BusFrame where
  fmt : Nat
  ide : Bool
  rtr : Bool
  brs : Bool
  ident : Nat
  data : List Nat
  sdt : Nat
  vcid : Nat
  sec : Bool
  af : Nat
  deriving DecidableEq, Repr

/-- A bus error as ISO 11898-1 classifies it: its code as CX_PSR shows it (1 stuff, 2 form, 3 ack, 4 bit 1, 5 bit 0, 6 CRC),
whether it lies in the data phase, whether the controller was transmitting, whether a receiver counts it by 8, whether the frame is a
CAN XL frame, the delay measured in a transmitted frame (1.25 ns; none where the error came before the measurement, some none where no
edge came), and the time since the start of the frame in 0.25 ns units. -/
structure CanError where
  code : Fin 7
  dataPhase : Bool
  transmitting : Bool
  heavy : Bool
  xl : Bool
  tdc : Option (Option Nat)
  age : Nat
  deriving DecidableEq, Repr

/-- Errors of a LIN frame that its octets do not show (spec/06 R214). -/
inductive LinError where
  | bit
  | framing
  | sync
  deriving DecidableEq, Repr

/-- The samples of a power die's converters at the end of a 20 µs window (spec/08 R257, R260, R607): mean currents of the
channels in µA, output voltages in mV, junction temperatures in 0.001 °C (spec/07 R245, R246), voltages of the three VBAT
tabs in mV, and the ground offset in mV. -/
structure DieSample where
  amps : List Int
  volts : List Int
  tj : List Int
  tabs : List Int
  offset : Int
  deriving DecidableEq, Repr

/-- A STATUS reply on TWC (spec/10 R331): sent by a power die, or received by the compute die. -/
inductive TwcReply where
  | send (die : Fin 2)
  | receive (octets : List Nat)
  deriving DecidableEq, Repr

/-- The three limit registers of row LSW_PROT_WRITE (spec/07 R255). -/
inductive LimitReg where
  | prot
  | i2t
  | clamp
  deriving DecidableEq, Repr

/-- What the pins hold at an index-position edge: voltages of DIN_0-DIN_47 (mV) and AIN_0-AIN_15 (µV), VBAT of the inputs
(mV), whether die P could not deliver the due captures in time (spec/09 R286), and the CAN controllers whose bus is busy at
the edge (spec/06 R208). -/
structure EdgeInputs where
  dinMv : List Int
  ainUv : List Int
  vbatMv : Nat
  late : Bool
  canBusy : List Nat
  deriving DecidableEq, Repr

/-- A pairing packet (spec/10 Table 10-5): device identity, variant code, revision, role state code, DUAL masks of dies A
and B. -/
structure PairPacket where
  identity : Nat
  variant : Nat
  revision : Nat
  role : Nat
  dualA : Nat
  dualB : Nat
  deriving DecidableEq, Repr

/-- A request over a bridge (spec/10 Table 10-5): tag, address, world, VM, originating agent. -/
structure BridgeRequest where
  tag : Fin 64
  addr : Nat
  world : Fin 3
  vmNo : Fin 16
  agent : Nat
  deriving DecidableEq, Repr

/-- A record that a retired instruction folds into the signature (spec/11 R344): a register write (class, number, value) or a
store to an aligned 8-byte word (mask, address, data). -/
inductive CalRecord where
  | reg (cls num value : Nat)
  | store (mask word data : Nat)
  deriving DecidableEq, Repr

/-- What the cores of a pair bring to a compare: the records each has folded since the last compare point, the instructions
retired since then, the largest trailing distance, and whether the two comparator copies give different verdicts (spec/11 R344, R345, R360). -/
structure CompareIn where
  lead : List CalRecord
  trail : List CalRecord
  retired : Nat
  distance : Nat
  disagree : Bool
  deriving DecidableEq, Repr

/-- An atomic read-modify-write (spec/11 R352). -/
inductive AtomicOp where
  | swap
  | add
  | and
  | or
  | xor
  | compareSwap (expected : Nat)
  deriving DecidableEq, Repr

/-- How the read of a checkpoint slot ends (spec/11 R356, R358). -/
inductive SlotCheck where
  | good
  | corrected
  | bad
  deriving DecidableEq, Repr

/-- A core-local timer of Table 12-4. -/
inductive CoreTimer where
  | secureDeadline
  | normalDeadline
  | quantum
  | tick
  deriving DecidableEq, Repr

/-- A cache error of spec/12 R376. -/
inductive CacheErr where
  | instructionParity
  | corrected
  | clean
  | dirty
  deriving DecidableEq, Repr

/-- What an access to memory does. -/
inductive MemOp where
  | read
  | write
  | fetch
  deriving DecidableEq, Repr

/-- Arrays that patrol scrubbing covers (spec/14 R426), and the on-chip arrays of Table 14-3 with the place of the error. -/
inductive ScrubArray where
  | dram
  | sram
  | ckpt
  deriving DecidableEq, Repr

inductive SramArray where
  | sram (addr : Nat)
  | tcm (n : Fin 4) (off : Nat)
  | ckpt (off : Nat)
  | packetBuffer (copy : Nat)
  | keySlot (n : Fin 64)
  | entry (page : TaPage) (table index : Nat)
  | canObject (n : Fin 12) (o : Fin 128)
  deriving DecidableEq, Repr

/-- Clock domains of the compute die whose blocks lie behind a crossing (spec/17 Table 17-6). -/
inductive ClockDomain where
  | CL
  | RT
  | PE
  | SW
  | BUS
  | NOR
  | DDR
  | TB
  | SEC
  | AOC
  deriving DecidableEq, Repr

/-- An access that waits at a crossing: by whom, address, and the data of a write. -/
structure WaitingAccess where
  a : Access
  addr : Nat
  write : Option Word
  deriving DecidableEq, Repr

/-- Why die P resets the compute die (spec/17 Table 17-9). -/
inductive ResetCause where
  | powerOn
  | vlogLow
  deriving DecidableEq, Repr

/-- What the start self-test finds beside its checks of fuses and repair log (spec/19 R548): pairs whose comparator test
fails, and posting ports whose test code does not arrive. -/
structure StartTest where
  comparators : List (Fin 6)
  paths : List (Fin 16)
  deriving DecidableEq, Repr

/-- What wakes a CAN transceiver (spec/18 R530): the wake-up pattern, a frame (IDE, FD, identifier, DLC, data), the frame error
counter at 32. -/
inductive CanWake where
  | pattern
  | frame (ide fd : Bool) (ident dlc : Nat) (data : List Nat)
  | errorCount
  deriving DecidableEq, Repr

/-- A memory failure that the shut-down self-test finds (spec/19 R552): array, bank, row, failing bit, address. -/
structure MemFailure where
  array : Fin 8
  bank : Nat
  row : Nat
  bit : Nat
  addr : Nat
  deriving DecidableEq, Repr

/-- How the shut-down self-test ends (spec/19 R551, R552): VBAT left its range, failed steps, the first 16 memory failures and
whether there were more, failing pin paths, open loads of dies A and B, retention rows held, duration in 0.1 ms. -/
structure SelfTest where
  vbatLeft : Bool
  failed : Fin 128
  failures : List MemFailure
  more : Bool
  pins : Nat
  openA : Nat
  openB : Nat
  held : Nat
  duration : Nat
  deriving DecidableEq, Repr

/-- What contradicts a channel's state (spec/19 R547). -/
inductive Implausible where
  | stuckOn
  | stuckOpen
  | converter
  deriving DecidableEq, Repr

/-- What honing reads at a sample (spec/19 Table 19-5): slack of the points measured (0.1 %), ring-oscillator drift (0.01 %),
threshold shift (mV), on-resistance ratios × 4,096 of the 32 channels, ampere-hours of the 26 tabs and land groups, gain
(2^-16) and offset (low-range LSB) of the current sense of the 32 channels, and phase spacing (ps). -/
structure Monitors where
  slack : List (Option Nat)
  ro : Int
  bti : Nat
  ron : List Nat
  charge : List Nat
  gain : List Int
  offset : List Int
  phase : Int
  deriving DecidableEq, Repr

/-- What a plan is made from (spec/19 R555, R557): the monitors, slack gained per step at each point (0.1 %), and the
phase-trim steps that the measured spacing asks for. -/
structure PlanIn where
  m : Monitors
  gain : List Nat
  steps : Int
  deriving DecidableEq, Repr


/-- The commands, one per row of spec/opcode_table.json. -/
inductive Instr where
  /-- REGISTER_WRITE (R603): A write to a register that has no row of its own sets its fields, or is refused with cause 0x0B when a field gets a value that is not valid. -/
  | registerWrite (a : Access) (t : RegTarget)
  /-- ACCESS_UNMAPPED (R57): An access to an address of no page and no memory region ends with an error response and is recorded in the SYS page. -/
  | accessUnmapped (a : Access) (addr : Nat)
  /-- MEMORY_REGION_ACCESS (R604): A core access to tightly coupled memory, checkpoint SRAM or another memory region is checked for width, alignment and access rights and performed or refused. -/
  | memoryRegionAccess (a : Access) (op : MemOp) (addr : Nat) (data : List Nat)
  /-- OWNER_WRITE (R40): A monitor-level write of OWNER sets the owner and lock, and is refused while the lock is set or from any other level. -/
  | ownerWrite (a : Access) (page : Nat) (v : Word)
  /-- SOFT_RST (R42): A write of BLK_CTRL.SOFT_RST = 1 starts a block reset after accepted accesses complete and returns registers to reset values except the kept ones. -/
  | softRst (a : Access) (page : Nat) (v : Word)
  /-- SOFT_RST_DONE (R42): The block reset finishes within 1 µs and BLK_STAT.READY returns to 1. -/
  | softRstDone (page : Nat)
  /-- FREEZE_WRITE (R43): A write of BLK_CTRL.FREEZE holds or releases counters, statistics and snapshot registers without stopping any function. -/
  | freezeWrite (a : Access) (page : Nat) (v : Word)
  /-- INT_RAW_CLEAR (R44): A write of ones to INT_RAW clears those bits unless the hardware sets the same bit in that clock. -/
  | intRawClear (a : Access) (page : Nat) (v hw : Word)
  /-- INT_SET (R37): A write of INT_SET sets the matching INT_RAW bits for test. -/
  | intSet (a : Access) (page : Nat) (v : Word)
  /-- ERR_CAP_CLR (R45): A write of ERR_CAP.CLR = 1 clears CODE, COUNT and ERR_ADDR, before an error arriving in the same clock is recorded. -/
  | errCapClr (a : Access) (page : Nat) (v : Word) (same : Option (Nat × Nat))
  /-- ERR_INJ_ARM (R47): A monitor-level write of ERR_INJ.ARM injects one error at the chosen point along the path of a real error. -/
  | errInjArm (a : Access) (page : Nat) (v : Word)
  /-- CLK_REQ_FORCE_OFF (R48): A write of CLK_REQ.POLICY = 0b10 stops the block clock once outstanding accesses have drained. -/
  | clkReqForceOff (a : Access) (page : Nat) (v : Word) (waiting : Option Nat)
  /-- FORCE_OFF_DRAIN_TIMEOUT (R48): Accesses not drained 2 µs after a force-off end with error responses, an error is recorded and DRAIN_ERR is set. -/
  | forceOffDrainTimeout (page : Nat)
  /-- SPECULATIVE_READ_REFUSED (R53): A speculative or prefetch read of a strict page receives a speculation-refused response with no effect. -/
  | speculativeReadRefused (a : Access) (addr : Nat)
  /-- STRICT_PAGE_DMA_READ (R54): A device DMA read of a strict page is refused with an error response and no effect. -/
  | strictPageDmaRead (src : Fin 17) (addr : Nat)
  /-- DEBUG_RS_READ (R54): A read by the debug agent returns the value of an RS field with no side effect. -/
  | debugRsRead (addr : Nat)
  /-- TMB_SNAP (R67): A write of TMB_SNAP.GO captures module time into the snapshot registers. -/
  | tmbSnap (a : Access) (v : Word)
  /-- TMB_RATE_WRITE (R68): A write of TMB_RATE sets the rate adjustment, or is refused when out of range or while the servo or twin following owns the time base. -/
  | tmbRateWrite (a : Access) (v : Word)
  /-- TMB_STEP_GO (R69): A write of TMB_STEP_GO requests a step of module time by the signed step registers. -/
  | tmbStepGo (a : Access) (v : Word)
  /-- STEP_DONE (R69): Within 100 ns the time base adds the step at one clock and sets STEP_DONE. -/
  | stepDone
  /-- SYNC_RECEIVE (R73): A Sync of the steering instance updates PTP_OFFSET and the servo steps or slews module time and judges lock. -/
  | syncReceive (pp : PtpPort) (offset : Int)
  /-- PDELAY_EXCHANGE (R72): A peer-delay exchange on a port updates its mean link delay and neighbour rate ratio. -/
  | pdelayExchange (port : Fin 31) (delay nrr : Nat) (asCapable : Bool)
  /-- PTP_MESSAGE_TRANSMIT (R71): An instance sends its Sync, Pdelay or Announce message at the interval configured for it. -/
  | ptpMessageTransmit (pp : PtpPort) (kind : PtpMessage) (seq : Nat) (phase : Fin 8)
  /-- SYNC_RECEIPT_TIMEOUT (R73): On syncReceiptTimeout the servo keeps the last rate, sets HOLDOVER and posts 0xE213. -/
  | syncReceiptTimeout (inst : Fin 4)
  /-- PTP_TS_NS_READ (R74): A read of PTP_TS_NS returns the head timestamp and pops it from the FIFO. -/
  | ptpTsNsRead (a : Access)
  /-- TWIN_LINK_DELAY_MEASURE (R75): Every 1 ms the link delay to the twin is measured again. -/
  | twinLinkDelayMeasure (delay : Nat)
  /-- IXP_COMMIT (R80): A write of IXP_CTRL.COMMIT = 1 copies the shadow table into a candidate, checks it, and makes it pending or refuses it with 0xE010. -/
  | ixpCommit (a : Access) (v : Word)
  /-- IXP_ENABLE (R82): A write of BLK_CTRL.EN = 1 on the IXP page arms the plate to start under the condition of its source and role. -/
  | ixpEnable (a : Access) (v : Word)
  /-- PLATE_START (R82): The plate starts at the first boundary that its start condition gives. -/
  | plateStart (io : EdgeInputs)
  /-- INDEX_EDGE (R79): The plate reaches the edge of an index position and every attached consumer acts. -/
  | indexEdge (io : EdgeInputs)
  /-- CYC_SYNC_PULSE (R91): An edge on CYC_SYNC is accepted as a reference instant or ignored when it comes too early. -/
  | cycSyncPulse (tm : Instant) (rising : Bool) (io : EdgeInputs)
  /-- GPTP_REFERENCE_INSTANT (R84): Module time reaches IXP_BASE + n × L and gives a reference instant. -/
  | gptpReferenceInstant
  /-- SYNC_LOST_FREERUN (R91): With no pulse accepted in 8 cycles the plate falls back to free-running and posts 0xE211. -/
  | syncLostFreerun
  /-- PLATE_ANNOUNCEMENT (R93): A plate announcement received by a following Tailstock sets its cycle numbers, lengths and reference instants. -/
  | plateAnnouncement (clocks : Nat) (kind : AnnKind) (cycle length crc seconds quarters : Nat)
  /-- TWIN_TABLE_MISMATCH (R93): A table CRC that differs from the Headstock's for 2 consecutive cycles posts 0xE215 and sets TWIN_TBL. -/
  | twinTableMismatch
  /-- CYC_OUT_PULSE_END (R94): The CYC_OUT pulse ends after WIDTH × 100 ns or at the next boundary. -/
  | cycOutPulseEnd
  /-- FRAME_RECEIVE (R103): A frame received on a port passes the ingress pipeline and its copies enter admission. -/
  | frameReceive (clocks : Nat) (port : Fin 33) (rx : RxFrame)
  /-- RECOVERY_TIMEOUT (R133): A recovery function that sees no frame for its recovery timeout resets its history and counts a reset. -/
  | recoveryTimeout (ix : Fin 256)
  /-- LATENT_ERROR_CHECK (R136): At each latent-error period the recovery function checks its difference and posts 0x1216 when it exceeds LAT_DIFF. -/
  | latentErrorCheck (ix : Fin 256)
  /-- MAC_ENTRY_AGE_OUT (R120): A dynamic entry not seen for SWC_AGE seconds is removed. -/
  | macEntryAgeOut (ix : Fin 16384)
  /-- PUSH_OUT_RETRY (R159): When a victim's tail frame starts transmission in the clock of eviction, step 9 is run again in the next clock. -/
  | pushOutRetry (starting : List Nat)
  /-- PAUSE_FRAME_SEND (R175): After the frame or fragment in transmission, the port sends a pause or PFC frame for the XOFF change. -/
  | pauseFrameSend (port : Fin 15)
  /-- XOFF_REPEAT (R175): While XOFF holds, the XOFF frame is repeated each time half its quanta time has passed. -/
  | xoffRepeat (port : Fin 15) (cls : Fin 8)
  /-- PAUSE_FRAME_RECEIVE (R177): A received pause or PFC frame pauses its classes for the quanta time or ends the pause. -/
  | pauseFrameReceive (clocks : Nat) (port : Fin 31) (pfc : Bool) (enable : Nat) (quanta : List Nat)
  /-- PAUSE_EXPIRY (R177): The pause time of a class runs out and the class may transmit again. -/
  | pauseExpiry (port : Fin 15) (cls : Fin 8)
  /-- PFC_WATCHDOG_TRIP (R178): A class paused without a break for PFC_WD ms stops honouring pause and posts 0x2216. -/
  | pfcWatchdogTrip (port : Fin 15) (cls : Fin 8)
  /-- PFC_WATCHDOG_RECOVER (R178): After PFC_WD ms without XOFF from the peer the port honours pause again for the class. -/
  | pfcWatchdogRecover (port : Fin 15) (cls : Fin 8)
  /-- XOFF_STORM (R179): A group held in XOFF for STORM ms posts 0x2217 and is released when STORM_ACT = 1. -/
  | xoffStorm (port : Fin 32) (cls : Fin 8)
  /-- FRAME_TRANSMIT_END (R168): At a frame boundary or preemption point the port frees cells and selects the next eligible queue to send. -/
  | frameTransmitEnd (tm : Elapsed) (port : Fin 34) (fragment : Option Nat)
  /-- HOLD_REQUEST (R171): HOLD_ADV × 10 ns before the edge of a HOLD position the port requests hold of preemptable traffic. -/
  | holdRequest (port : Fin 27)
  /-- BUF_GCL_COMMIT (R169): A write of BUF_GCL.COMMIT = 1 makes the shadow gate lists active at the next cycle boundary. -/
  | bufGclCommit (a : Access) (v : Word)
  /-- SPILL_READBACK (R164): A spill engine reads the next DRAM frame back into the on-chip part of a queue that holds fewer than SPILL_THR cells. -/
  | spillReadback (clocks : Nat) (q : Fin 272) (ecc : Bool)
  /-- PORT_LINK_DOWN (R101): A port link going down drops every frame queued and in DRAM for it and counts them. -/
  | portLinkDown (port : Fin 31)
  /-- PORT_LINK_UP (R127): A port link comes up and link-group selections return to their written members. -/
  | portLinkUp (port : Fin 31) (speed : Fin 8)
  /-- SELECTION_WRITE (R126): A write of a LAG_SEL, SPL_SEL or GWE_SEL entry sets PENDING and waits for the bucket to drain. -/
  | selectionWrite (a : Access) (kind : SelKind) (b : Fin 64) (v : Word)
  /-- SELECTION_MOVE_DONE (R126): Once no frame of the bucket is held under the old value, the new value takes effect and MOVE_DONE is set. -/
  | selectionMoveDone (kind : SelKind) (b : Fin 64)
  /-- SELECTION_MOVE_TIMEOUT (R126): After SWC_MOVE_TMO the new selection takes effect at once and 0x1018 is posted. -/
  | selectionMoveTimeout (kind : SelKind) (b : Fin 64)
  /-- TA_READ (R144): TA_CMD.OP = 0b001 reads the entry at TA_IDX into the data registers. -/
  | taRead (a : Access) (page : TaPage) (tbl : Fin 16)
  /-- TA_WRITE (R144): TA_CMD.OP = 0b010 writes the entry at TA_IDX, subject to the refusals of R145. -/
  | taWrite (a : Access) (page : TaPage) (tbl : Fin 16)
  /-- TA_LOOKUP (R144): TA_CMD.OP = 0b011 looks up a MAC entry by key. -/
  | taLookup (a : Access) (page : TaPage) (tbl : Fin 16)
  /-- TA_INSERT (R144): TA_CMD.OP = 0b100 inserts a MAC entry by key. -/
  | taInsert (a : Access) (page : TaPage) (tbl : Fin 16)
  /-- TA_DELETE (R144): TA_CMD.OP = 0b101 deletes a MAC entry by key. -/
  | taDelete (a : Access) (page : TaPage) (tbl : Fin 16)
  /-- TA_FLUSH (R144): TA_CMD.OP = 0b110 flushes MAC entries under FDB_FLUSH. -/
  | taFlush (a : Access) (page : TaPage) (tbl : Fin 16)
  /-- TA_CLEAR_COUNTERS (R144): TA_CMD.OP = 0b111 clears the counters of the entry at TA_IDX. -/
  | taClearCounters (a : Access) (page : TaPage) (tbl : Fin 16)
  /-- TA_OP_DONE (R144): A table operation completes within 2 µs, or 500 µs for a flush, giving its RESULT and clearing BUSY. -/
  | taOpDone (page : TaPage)
  /-- SWC_CNT_CLR (R145): A write of 1 to SWC_CNT_CLR clears the switch counters. -/
  | swcCntClr (a : Access) (v : Word)
  /-- PORT_CNT_CLR (R145): A write of 1 to PORT_CNT_CLR clears the port counters. -/
  | portCntClr (a : Access) (port : Fin 34) (v : Word)
  /-- PREEMPTION_ENABLE (R137): A write of PORT_PRE.EN starts verification of the MAC merge sublayer. -/
  | preemptionEnable (a : Access) (port : Fin 34) (v : Word)
  /-- PREEMPTION_VERIFY_FAIL (R138): Verification failing after its attempts sets STATUS failed, posts 0x1215 and sends without preemption. -/
  | preemptionVerifyFail (port : Fin 7)
  /-- TX_DESCRIPTOR_FETCH (R185): A host instance fetches a TX frame from its rings by deficit round robin and sends it into the ingress pipeline. -/
  | txDescriptorFetch (clocks : Nat) (starting : List Nat)
  /-- RING_TAIL_WRITE (R186): A write of RING_TAIL gives descriptors to the hardware, or is refused when it passes HEAD. -/
  | ringTailWrite (a : Access) (inst : Fin 16) (k : Fin 8) (v : Word)
  /-- RING_ENABLE (R184): A write of RING_CTRL.EN starts or stops a ring and clears a halt on 0 then 1. -/
  | ringEnable (a : Access) (inst : Fin 16) (k : Fin 8) (v : Word)
  /-- RING_IRQ_TIMER (R186): TIMER µs after the first unsignalled completion the ring line asserts. -/
  | ringIrqTimer (inst : Fin 16) (k : Fin 8)
  /-- RING_IRQ_CLEAR (R186): A write clearing RING_STAT.IRQ deasserts the ring line. -/
  | ringIrqClear (a : Access) (inst : Fin 16) (k : Fin 8) (v : Word)
  /-- SPL_CNT_CLR (R166): A write of 1 to SPL_CNT_CLR clears the spill counters and peak. -/
  | splCntClr (a : Access) (e : Fin 4) (v : Word)
  /-- CAN_FRAME_RECEIVE (R198): A received CAN frame is offered to RX objects and stored, passed to a gateway engine, or counted. -/
  | canFrameReceive (clocks : Nat) (ctl : Fin 12) (f : BusFrame) (age : Nat)
  /-- CAN_TXRQ (R200): A write of OBJ_CTRL.TXRQ = 1 requests transmission of a TX object. -/
  | canTxrq (a : Access) (ctl : Fin 12) (obj : Fin 128) (v : Word)
  /-- CAN_TX_CHOICE (R200): At the third intermission bit or bus idle the controller chooses the requested object that goes next. -/
  | canTxChoice (clocks : Nat) (ctl : Fin 12)
  /-- CAN_FRAME_TRANSMITTED (R200): A frame transmission completes and the object ends transmitted. -/
  | canFrameTransmitted (clocks : Nat) (ctl : Fin 12) (age : Nat) (tdc : Option Nat)
  /-- CAN_CANCEL (R203): A write of OBJ_CTRL.CANCEL = 1 withdraws or marks a TX object as given by its state. -/
  | canCancel (a : Access) (ctl : Fin 12) (obj : Fin 128) (v : Word) (won : Bool)
  /-- CAN_BUS_ERROR (R205): A bus error updates the error counters and states, and a failed transmission is retried or ended. -/
  | canBusError (ctl : Fin 12) (e : CanError)
  /-- CAN_BO_RECOVER (R205): A write of CX_CTRL.BO_RECOVER = 1 starts bus-off recovery. -/
  | canBoRecover (a : Access) (ctl : Fin 12) (v : Word)
  /-- CAN_RECOVERY_DONE (R205): Bus-off recovery ends after 128 occurrences of 11 recessive bits. -/
  | canRecoveryDone (ctl : Fin 12)
  /-- CAN_INIT (R206): A write of CX_CTRL.INIT stops the controller after the frame in progress or starts integration. -/
  | canInit (a : Access) (ctl : Fin 12) (v : Word)
  /-- CAN_MODE_APPLY (R204): A change of CX_CTRL.MODE takes effect at the next bus idle. -/
  | canModeApply (ctl : Fin 12)
  /-- CX_OBJ_REL_READ (R199): A read of CX_OBJ_REL returns and clears NEW and LOST of the selected object and stores a shadow frame. -/
  | cxObjRelRead (a : Access) (ctl : Fin 12)
  /-- CX_PSR_READ (R204): A read of CX_PSR returns the last error codes and sets both to 7. -/
  | cxPsrRead (a : Access) (ctl : Fin 12)
  /-- CX_WIN_SEL_WRITE (R199): A write of CX_WIN_SEL selects an object and stores any shadow frame of the previous selection. -/
  | cxWinSelWrite (a : Access) (ctl : Fin 12) (v : Word)
  /-- REF_GUARD_START (R207): CX_REF_GUARD µs before a reference edge the controller stops choosing other frames. -/
  | refGuardStart (ctl : Fin 12)
  /-- LIN_HEADER_RECEIVE (R213): A slave channel answers a header with a valid response entry or receives the frame into its FIFO. -/
  | linHeaderReceive (ch : Fin 8) (ident : Fin 64)
  /-- LIN_FRAME_COMPLETE (R213): A LIN frame completes, is checked and is stored or counted as an error. -/
  | linFrameComplete (tm : Elapsed) (ch : Fin 8) (data : List Nat) (checksum : Nat) (e : Option LinError) (collision : Bool)
  /-- LIN_FRAME_TIMEOUT (R211): A frame not complete within TFrame_Max counts a no-response error. -/
  | linFrameTimeout (ch : Fin 8)
  /-- LN_RX_POP_READ (R213): A read of LN_RX_POP returns data bytes 4–7 and removes the head entry. -/
  | lnRxPopRead (a : Access) (ch : Fin 8)
  /-- LIN_STUCK_DOMINANT (R214): A bus held dominant for 100 ms sets STUCK and posts 0x321D. -/
  | linStuckDominant (ch : Fin 8)
  /-- LIN_WAKE_PULSE (R214): A dominant pulse longer than 150 µs in PARTIAL or RUN sets INT_RAW.WAKE. -/
  | linWakePulse (ch : Fin 8)
  /-- LIN_WAKE_TX (R214): A write of LN_CTRL.WAKE_TX = 1 sends a 250 µs wake pulse. -/
  | linWakeTx (a : Access) (ch : Fin 8) (v : Word)
  /-- GATEWAY_FRAME_FROM_BUS (R215): A gateway engine routes a frame from a bus object to its CAN, LIN or Ethernet destinations or drops it. -/
  | gatewayFrameFromBus (clocks : Nat) (e : Fin 4)
  /-- GATEWAY_FRAME_FROM_ETHERNET (R221): A gateway engine unpacks each ACF message of a 1722 frame from port GW and routes it. -/
  | gatewayFrameFromEthernet (clocks : Nat) (e : Fin 4)
  /-- GATEWAY_TX_PLACE (R217): The engine places the next queued frame into a free GW TX object in identifier order, dropping it past its deadline. -/
  | gatewayTxPlace (clocks : Nat) (ctl : Fin 12)
  /-- GATEWAY_DEADLINE_EXPIRY (R218): A frame pending in a GW TX object past its DEADLINE is cancelled and posted as 0x3016. -/
  | gatewayDeadlineExpiry (clocks : Nat) (ctl : Fin 12) (obj : Fin 128)
  /-- ETHERNET_BATCH_SEND (R222): The collected 1722 frame of a stream is sent on MAX_WAIT, MAX_MSGS or MTU. -/
  | ethernetBatchSend (clocks : Nat) (stream : Fin 64)
  /-- CAPSULE_POST_RETRY (R225): Every 1 µs after a refusal the engine tries again, and after 20 µs drops the capsule and posts 0x321E. -/
  | capsulePostRetry (e : Fin 4)
  /-- CAPSULE_REPLY (R225): A message in MB_REPLY is wrapped as type 0x79 by the reply engine and sent on the reply stream. -/
  | capsuleReply (clocks : Nat)
  /-- PEG_CNT_CLR (R219): A write of 1 to PEG_CNT_CLR clears the engine counters. -/
  | pegCntClr (a : Access) (e : Fin 4) (v : Word)
  /-- LSW_ARM (R230): A write of LSW_CTRL.ARM turns the channel's command off or makes it follow its source. -/
  | lswArm (a : Access) (die : Fin 2) (ch : Fin 16) (v : Word)
  /-- LSW_ON_REQ (R230): A write of LSW_CTRL.ON_REQ gives the direct command of a channel with SRC = 1. -/
  | lswOnReq (a : Access) (die : Fin 2) (ch : Fin 16) (v : Word)
  /-- PDC_OUT_IMG_WRITE (R230): A write of PDC_OUT_IMG gives the commands of the channels of a die. -/
  | pdcOutImgWrite (a : Access) (die : Fin 2) (v : Word)
  /-- GROUP_UNDERVOLTAGE (R241): A group rail below UV for 2 µs during inrush turns the inrush channels back to WAIT and posts 0x21A. -/
  | groupUndervoltage (die : Fin 2) (g : Fin 3) (lowest : Nat)
  /-- HARD_SHORT (R242): A channel current passing ISC latches the channel off within 1.5 µs. -/
  | hardShort (clocks : Nat) (die : Fin 2) (ch : Fin 16) (peak : Int)
  /-- OVERCURRENT_TRIP (R243): A current above ILIM for longer than TLIM latches the channel off. -/
  | overcurrentTrip (clocks : Nat) (die : Fin 2) (ch : Fin 16) (current : Nat)
  /-- OVER_TEMPERATURE (R245): A switch junction reaching 175 °C latches the channel off. -/
  | overTemperature (die : Fin 2) (ch : Fin 16) (tj : Nat)
  /-- CURRENT_SAMPLE (R257): Every 20 µs window each converter delivers a current and voltage sample. -/
  | currentSample (clocks : Nat) (die : Fin 2) (io : DieSample)
  /-- TURN_OFF_COMPLETE (R235): A channel turning off reaches a current below 10 mA and enters OFF. -/
  | turnOffComplete (clocks : Nat) (die : Fin 2) (ch : Fin 16) (energy : Nat)
  /-- LSW_CLR_FAULT (R246): A write of LSW_CTRL.CLR_FAULT = 1 clears a LATCHED channel to OFF when LOAD and temperature allow. -/
  | lswClrFault (a : Access) (die : Fin 2) (ch : Fin 16) (v : Word)
  /-- LSW_PROF_WRITE (R237): A write of LSW_PROF sets the load profile or is refused outside OFF and LATCHED or with invalid values. -/
  | lswProfWrite (a : Access) (die : Fin 2) (ch : Fin 16) (v : Word)
  /-- LSW_PROT_WRITE (R255): A write of LSW_PROT, LSW_I2T or LSW_CLAMP sets protection limits or is refused. -/
  | lswProtWrite (a : Access) (die : Fin 2) (ch : Fin 16) (r : LimitReg) (v : Word)
  /-- REVERSE_CURRENT_BLOCK (R252): Reverse current above the class limit for 2 µs opens the reverse switch and sets REV_BLOCK. -/
  | reverseCurrentBlock (clocks : Nat) (die : Fin 2) (ch : Fin 16) (current : Nat)
  /-- REVERSE_BLOCK_RELEASE (R252): The tab exceeding the output by 20 mV for 10 µs closes the reverse switch. -/
  | reverseBlockRelease (die : Fin 2) (ch : Fin 16)
  /-- OPEN_LOAD_DETECT (R254): A current below OL_TH for OL_TIME in ON sets OPEN and posts 0x21B. -/
  | openLoadDetect (die : Fin 2) (ch : Fin 16) (current : Int)
  /-- SHORT_TO_BATTERY_DETECT (R254): An output above 3.0 V for 1 ms in OFF sets SHORT_BAT and posts 0x21C. -/
  | shortToBatteryDetect (die : Fin 2) (ch : Fin 16)
  /-- SHORT_TO_BATTERY_CLEAR (R254): An output at or below 3.0 V for 1 ms in OFF clears SHORT_BAT. -/
  | shortToBatteryClear (die : Fin 2) (ch : Fin 16)
  /-- LSW_CNT_CLR (R254): A write of 1 to LSW_CNT_CLR clears the channel counters. -/
  | lswCntClr (a : Access) (die : Fin 2) (ch : Fin 16) (v : Word)
  /-- LSW_SNS_CLR (R262): A write of 1 to LSW_SNS_CLR clears LSW_IPEAK. -/
  | lswSnsClr (a : Access) (die : Fin 2) (ch : Fin 16) (v : Word)
  /-- BRIDGE_SILENCE (R265): A power die whose bridge carries no CTL flit for 4 µs detects compute-die loss. -/
  | bridgeSilence (clocks : Nat) (die : Fin 2)
  /-- COMPUTE_RESET_SIGNAL (R265): Die P signals a compute-die reset and the power die detects compute-die loss. -/
  | computeResetSignal (clocks : Nat) (die : Fin 2)
  /-- LOCAL_EDGE (R269): The power die's local edge timer reaches an edge and the die acts as at a delivered edge. -/
  | localEdge (die : Fin 2) (ppm : Int)
  /-- HOLD_TIME_EXPIRY (R266): HOLD_TIME after entry the die enters SAFE and applies each channel's SAFE pattern. -/
  | holdTimeExpiry (clocks : Nat) (die : Fin 2)
  /-- TWC_TIMEOUT (R266): No SET or KEEP accepted for PDC_TWC.TMO ms takes the die from TWC to SAFE. -/
  | twcTimeout (clocks : Nat) (die : Fin 2)
  /-- PDC_RESUME (R271): A write of PDC_HOLD.RESUME = 1 compares commands, sets MATCH and returns the die to NORMAL at the next local edge. -/
  | pdcResume (a : Access) (die : Fin 2) (v : Word)
  /-- TWC_SET (R273): A TWC SET command sets the commands of enabled masked channels and enters TWC. -/
  | twcSet (clocks : Nat) (octets : List Nat)
  /-- TWC_KEEP (R273): A TWC KEEP command enters or stays in TWC without a change of command. -/
  | twcKeep (clocks : Nat) (octets : List Nat)
  /-- TWC_SAFE (R273): A TWC SAFE command enters SAFE. -/
  | twcSafe (clocks : Nat) (octets : List Nat)
  /-- TWC_CLEAR (R273): A TWC CLEAR command acts on a channel as a write of CLR_FAULT. -/
  | twcClear (clocks : Nat) (octets : List Nat)
  /-- TWC_STATUS (R273): A TWC STATUS command requests the die state, channel states and PDC_VBAT. -/
  | twcStatus (clocks : Nat) (octets : List Nat)
  /-- TWC_STATUS_REPLY (R331): 2 µs after a STATUS request the die sends its STATUS reply. -/
  | twcStatusReply (clocks : Nat) (r : TwcReply)
  /-- LIMP_ENTRY (R274): LH_EN active for 50 µs puts every mapped channel not LATCHED under limp-home control. -/
  | limpEntry (clocks : Nat) (die : Fin 2)
  /-- LIMP_INPUT_CHANGE (R274): A filtered change of LH_IN_n changes the command of its limp channels at the next local edge. -/
  | limpInputChange (clocks : Nat) (die : Fin 2) (land : Fin 8) (active : Bool)
  /-- LIMP_LATCHED_CLEAR (R275): An LH_IN change to active clears a LATCHED mapped channel and puts it in LIMP when accepted. -/
  | limpLatchedClear (clocks : Nat) (die : Fin 2) (ch : Fin 16)
  /-- LIMP_EXIT (R276): LH_EN inactive for 50 µs takes each channel out of LIMP to the state of its die state. -/
  | limpExit (clocks : Nat) (die : Fin 2)
  /-- TAB_UNDERVOLTAGE (R278): A VBAT tab below 4.5 V for 10 µs turns its group's conducting channels off fast and posts 0x225. -/
  | tabUndervoltage (clocks : Nat) (die : Fin 2) (g : Fin 3)
  /-- TAB_OVERVOLTAGE (R278): A VBAT tab above 37 V for 10 µs turns its group's conducting channels off fast and posts 0x224. -/
  | tabOvervoltage (clocks : Nat) (die : Fin 2) (g : Fin 3)
  /-- PGND_LOSS (R278): A ground offset above 1.0 V for 10 µs turns every channel off fast and posts 0x326. -/
  | pgndLoss (clocks : Nat) (die : Fin 2)
  /-- LGND_LOSS (R278): A ground offset below −0.4 V for 10 µs posts 0x227 with channels kept. -/
  | lgndLoss (clocks : Nat) (die : Fin 2)
  /-- BOARD_NET_RECOVERY (R279): After the group's conditions have held for 1 ms the die retakes the kept commands. -/
  | boardNetRecovery (clocks : Nat) (die : Fin 2) (g : Fin 3)
  /-- POWER_DIE_RESET (R608): A power-die reset from undervoltage below 4.0 V or RST_REQ turns every channel off and clears the die. -/
  | powerDieReset (clocks : Nat) (die : Fin 2)
  /-- POWER_DIE_RELEASE (R608): The power die is released within 100 µs after its reset cause ends, with trims loaded and RC running. -/
  | powerDieRelease (clocks : Nat) (die : Fin 2)
  /-- PDC_CNT_CLR (R272): A write of 1 to PDC_CNT_CLR clears PDC_CNT and PDC_TWC_STAT. -/
  | pdcCntClr (a : Access) (die : Fin 2) (v : Word)
  /-- DIN_STUCK (R292): A filtered value active for STUCK_T × 100 ms sets STUCK and posts 0x6210. -/
  | dinStuck (clocks : Nat) (m : Fin 48)
  /-- STANDBY_SCAN (R296): Every SCAN ms in STANDBY die P wets the armed inputs and wakes the module on two active scans. -/
  | standbyScan (clocks : Nat) (levels : Nat)
  /-- DIG_CNT_CLR (R289): A write of 1 to DIG_CNT_CLR clears every DIN_CNT of the page. -/
  | digCntClr (a : Access) (i : Fin 3) (v : Word)
  /-- CTL_FLIT_RECEIVE (R304): A good CTL flit returns credits and ACK count and may carry a heartbeat, NAK or RESET. -/
  | ctlFlitReceive (clocks : Nat) (br : Fin 3) (octets : List Nat)
  /-- HEARTBEAT_SEND (R304): Each 2 µs of module time a side sends a heartbeat in the next CTL slot. -/
  | heartbeatSend (slot : Fin 64)
  /-- TW_FLIT_RECEIVE (R301): A TW flit adds to its frame, and a bad TW flit drops the frame and posts 0x701B. -/
  | twFlitReceive (clocks : Nat) (ty : Fin 16) (octets : List Nat) (good : Bool)
  /-- RSV_FLIT_RECEIVE (R302): A good RSV flit is counted and added to its packet, a bad one is discarded with those after it and NAK set. -/
  | rsvFlitReceive (clocks : Nat) (br : Fin 3) (ty : Fin 16) (order : Nat) (octets : List Nat) (good : Bool)
  /-- CTL_FLIT_TIMEOUT (R303): 1.0 µs without a good CTL flit takes the Phoask link down. -/
  | ctlFlitTimeout (clocks : Nat)
  /-- BAD_FLIT_LIMIT (R303): 8 consecutive bad flits take the Phoask link down. -/
  | badFlitLimit (clocks : Nat)
  /-- LANE_LOCK_LOSS (R303): Loss of lock on every lane that carries flits takes the Phoask link down. -/
  | laneLockLoss (clocks : Nat)
  /-- TWL_RETRAIN (R303): A write of TWL_CTRL.RETRAIN = 1 starts lane training. -/
  | twlRetrain (a : Access) (v : Word)
  /-- LANE_TRAINING_DONE (R303): Training completes within 500 µs and brings the link up on two lanes or one. -/
  | laneTrainingDone (clocks : Nat) (lanes : Fin 4) (delay : Nat)
  /-- TWL_CNT_CLR (R303): A write of 1 to TWL_CNT_CLR clears the link counters. -/
  | twlCntClr (a : Access) (v : Word)
  /-- READ_REQUEST (R308): A bridge read request is executed at the target as an access of its world and VM. -/
  | readRequest (clocks : Nat) (br : Fin 3) (r : BridgeRequest)
  /-- WRITE_REQUEST (R308): A bridge write request is executed at the target, posted or non-posted. -/
  | writeRequest (clocks : Nat) (br : Fin 3) (r : BridgeRequest) (posted : Bool) (data : Word)
  /-- READ_COMPLETION (R308): A read completion returns data or status for its tag. -/
  | readCompletion (clocks : Nat) (br : Fin 3) (tag : Fin 64) (status : Nat) (data : Word)
  /-- WRITE_COMPLETION (R308): A write completion returns the status of a non-posted write. -/
  | writeCompletion (clocks : Nat) (br : Fin 3) (tag : Fin 64) (status : Nat)
  /-- POSTED_WRITE_ERROR_NOTICE (R310): A posted-write error notice is counted, logged and posted as 0x7219 or 0x0232. -/
  | postedWriteErrorNotice (clocks : Nat) (br : Fin 3) (status addr : Nat)
  /-- BRIDGE_REQUEST_TIMEOUT (R311): A request without completion after BR_CTRL.TMO ends with an error, retires its tag and posts 0x721A or 0x0231. -/
  | bridgeRequestTimeout (clocks : Nat) (br : Fin 3) (tag : Fin 64) (addr : Nat)
  /-- DIE_BRIDGE_PEER_TIMEOUT (R305): A die bridge declares its peer down after 4 µs without a CTL flit. -/
  | dieBridgePeerTimeout (clocks : Nat) (die : Fin 2)
  /-- BRIDGE_UP (R313): After four good CTL flits each way the bridge handshake completes and traffic starts. -/
  | bridgeUp (clocks : Nat) (br : Fin 3)
  /-- TBR_READ (R308): TBR_CMD with OP read and GO = 1 reads a twin address through the window. -/
  | tbrRead (a : Access) (v : Word)
  /-- TBR_WRITE (R308): TBR_CMD with OP write and GO = 1 writes a twin address through the window. -/
  | tbrWrite (a : Access) (v : Word)
  /-- BULK_WINDOW_WRITE (R310): A write to a BULK register takes effect after every posted write already issued has reached its target. -/
  | bulkWindowWrite (a : Access) (br : Fin 3) (w : Fin 8) (reg : Fin 3) (v : Word)
  /-- BR_CNT_CLR (R310): A write of 1 to BR_CNT_CLR clears the bridge counters and the posted-error log. -/
  | brCntClr (a : Access) (br : Fin 3) (v : Word)
  /-- INPUT_IMAGE_PACKET (R322): A received twin input image is written with its status word into tightly coupled memory. -/
  | inputImagePacket (clocks : Nat) (octets : List Nat)
  /-- TWIN_IMAGE_LATE (R322): A twin image not written 3.0 µs after its edge sets FRESH = 0 and posts 0x7215. -/
  | twinImageLate (clocks : Nat)
  /-- OUTPUT_IMAGE_PACKET (R323): The Tailstock compares the Headstock's output image with its own release and writes the DUAL bits into PDC_OUT_IMG. -/
  | outputImagePacket (clocks cycle pos imgA imgB : Nat)
  /-- OUTPUT_IMAGE_CUT (R323): A Headstock image not arrived IMG_CUT before the switching edge leaves the own image standing and posts 0x7214. -/
  | outputImageCut (clocks : Nat)
  /-- PAIRING_PACKET_SEND (R314): Every 100 µs until the twin's packet arrives the module sends a pairing packet. -/
  | pairingPacketSend (clocks : Nat)
  /-- PAIRING_PACKET (R314): A received pairing packet sets the side, agrees the DUAL masks and moves the role state. -/
  | pairingPacket (clocks : Nat) (p : PairPacket)
  /-- PAIR_TIMEOUT (R317): PAIR_TMO without a link takes UNPAIRED to CLAIMING or TS_ALONE. -/
  | pairTimeout (clocks : Nat)
  /-- TWIN_PEER_CHANGE (R316): TWIN_PEER low for 0.2 µs counts as asserted, and its release counts as released. -/
  | twinPeerChange (clocks : Nat) (asserted : Bool)
  /-- TWIN_LOSS_DECLARE (R324): Heartbeats missing for 8.5 µs and ALIVE frames for 8.0 µs declare twin loss. -/
  | twinLossDeclare (clocks : Nat)
  /-- CLAIM_SAMPLE (R325): 0.2 µs after asserting TWIN_CLAIM the module samples TWIN_PEER and takes the Headstock role if not asserted. -/
  | claimSample (clocks : Nat)
  /-- CLAIM_OVERRIDE (R326): 30 µs after asserting TWIN_CLAIM with TWIN_PEER still asserted the module takes the role by override. -/
  | claimOverride (clocks : Nat)
  /-- CLAIM_CONTENTION (R319): TWIN_PEER asserted within 2 µs of the own claim releases the line and backs off. -/
  | claimContention (clocks : Nat)
  /-- CLAIM_BACKOFF_END (R319): After the back-off the module claims again. -/
  | claimBackoffEnd
  /-- TS_ALONE_PEER_TIMEOUT (R317): TWIN_PEER not asserted for 30 µs takes TS_ALONE to CLAIMING. -/
  | tsAlonePeerTimeout (clocks : Nat)
  /-- HANDOVER (R320): A write of TWR_CTRL.HANDOVER = 1 in HEADSTOCK sends a handover naming the second boundary after it. -/
  | handover (a : Access) (v : Word)
  /-- HANDOVER_PACKET (R320): A received handover or end-of-rejoin packet schedules the role change at its boundary. -/
  | handoverPacket (clocks cycle : Nat) (rejoinEnds : Bool)
  /-- REJOIN_COPY (R334): The Headstock sends the real-time state and mirror range with every released store on VC 3. -/
  | rejoinCopy (area : Fin 4) (off : Nat) (len : Nat)
  /-- CHECKPOINT_MIRROR_PACKET (R334): A received checkpoint mirror packet is loaded into the rejoining module's memory. -/
  | checkpointMirrorPacket (clocks : Nat) (area : Fin 4) (off : Nat) (data : List Nat)
  /-- REJOIN_END (R335): Once everything is acknowledged and aligned, the Headstock sends end-of-rejoin naming the second boundary after it. -/
  | rejoinEnd
  /-- REJOIN_TIMEOUT (R335): A rejoin not ended within 50 ms is abandoned and 0x721F is posted. -/
  | rejoinTimeout (clocks : Nat)
  /-- ALIVE_SEND (R332): Each 4 µs in its slot a module sends an ALIVE frame on TWC. -/
  | aliveSend (clocks : Nat)
  /-- ALIVE_RECEIVE (R324): An ALIVE frame from the twin is counted and renews the twin's presence. -/
  | aliveReceive (clocks : Nat) (octets : List Nat)
  /-- KEEP_REPEAT (R333): Every 1 ms after a takeover the module repeats KEEP until the twin enters PAIRING. -/
  | keepRepeat (clocks : Nat)
  /-- TWR_TWC_CMD (R333): A write of TWR_TWC_CMD.GO sends one software TWC command in HS_ALONE or ends refused. -/
  | twrTwcCmd (a : Access) (v : Word)
  /-- TWC_REPLY_TIMEOUT (R333): No STATUS reply within 10 µs ends the software command with RESULT 0b11. -/
  | twcReplyTimeout (clocks : Nat)
  /-- TWR_CNT_CLR (R337): A write of 1 to TWR_CNT_CLR clears the twin counters. -/
  | twrCntClr (a : Access) (v : Word)
  /-- MIG_GO (R336): A write of MIG_CTRL.GO starts a migration as sender or receiver. -/
  | migGo (a : Access) (v : Word)
  /-- MIG_FINAL (R336): A write of MIG_CTRL.FINAL = 1 starts the final round. -/
  | migFinal (a : Access) (v : Word)
  /-- MIG_ABORT (R336): A write of MIG_CTRL.ABORT = 1 ends the migration on both sides and posts 0x721E. -/
  | migAbort (a : Access) (v : Word)
  /-- MIGRATION_PAGE (R336): A received migration page is written through the receiver's stage-2 tables. -/
  | migrationPage (clocks ipa : Nat) (vmNo : Fin 16) (data : List Nat)
  /-- MIGRATION_CONTROL (R336): A received migration control packet starts, ends a round, ends or aborts the migration. -/
  | migrationControl (clocks : Nat) (op : Nat) (round pages : Nat)
  /-- MIG_ROUND_DONE (R336): The sending engine completes a round and sets ROUND_DONE. -/
  | migRoundDone (clocks : Nat)
  /-- CORE_LOAD (R341): The leading core takes a load value and forwards it to the trailing core, which checks address and size. -/
  | coreLoad (a : Access) (pair : Fin 6) (addr trailAddr trailSize : Nat)
  /-- CORE_STORE (R347): A store of a compared pair enters or merges into the write-hold buffer. -/
  | coreStore (a : Access) (pair : Fin 6) (addr : Nat) (data : List Nat)
  /-- PERIPHERAL_WRITE (R347): A peripheral write of a compared pair takes one write-hold entry. -/
  | peripheralWrite (a : Access) (pair : Fin 6) (addr : Nat) (v : Word)
  /-- RS_READ (R352): An RS read closes its interval and is issued once at the checkpoint. -/
  | rsRead (a : Access) (pair : Fin 6) (addr : Nat)
  /-- ATOMIC (R352): An atomic read-modify-write closes its interval and is issued once at the checkpoint. -/
  | atomic (a : Access) (pair : Fin 6) (addr : Nat) (op : AtomicOp) (operand : Nat)
  /-- BARRIER (R350): A barrier that makes prior stores visible triggers a checkpoint. -/
  | barrier (pair : Fin 6)
  /-- PERIPHERAL_READ_CHECKPOINT (R350): A read of a peripheral page with a held write to it triggers a checkpoint before the read. -/
  | peripheralReadCheckpoint (a : Access) (pair : Fin 6) (addr : Nat)
  /-- CHECKPOINT_PERIOD (R350): CAL_CKPT.PERIOD µs since the last checkpoint triggers one on an AP pair. -/
  | checkpointPeriod (pair : Fin 6)
  /-- WRITE_HOLD_HIGH (R350): Write-hold entries reaching WH_HIGH trigger an early checkpoint. -/
  | writeHoldHigh (pair : Fin 6)
  /-- COMPARE_POINT (R345): At every 256th instruction, after 1.0 µs, or at a wait state the signatures are compared. -/
  | comparePoint (clocks : Nat) (pair : Fin 6) (c : CompareIn) (waiting : Bool)
  /-- CHECKPOINT (R353): A pair takes a checkpoint, compares signatures, writes the inactive slot and releases held entries. -/
  | checkpoint (clocks : Nat) (pair : Fin 6) (c : CompareIn) (arch : List Nat)
  /-- RELEASED_WRITE_ERROR (R349): A released write ending with an error sets REL_ERR and records 0x8210. -/
  | releasedWriteError (pair : Fin 6) (addr : Nat)
  /-- TRAIL_TIMEOUT (R355): The trailing core not reaching a compare point within CAL_TMO is a mismatch of kind 3. -/
  | trailTimeout (clocks : Nat) (pair : Fin 6)
  /-- PAIR_STALL_TIMEOUT (R355): No instruction retired for CAL_TMO at equal counts is a mismatch of kind 4. -/
  | pairStallTimeout (clocks : Nat) (pair : Fin 6)
  /-- RESTART_DONE (R356): Both cores resume from the active slot within 25 µs and RESTART_DONE is set. -/
  | restartDone (clocks : Nat) (pair : Fin 6) (slot : SlotCheck)
  /-- COMPARATOR_TEST (R361): Every 10 ms both comparator copies are tested with 65 compares and a wrong verdict causes a Caliper fault. -/
  | comparatorTest (pair : Fin 6) (wrong : Bool)
  /-- CALIPER_STORAGE_ERROR (R362): An error in delay registers, queue or write-hold is corrected or causes a Caliper fault. -/
  | caliperStorageError (pair : Fin 6) (entry : Nat) (correctable : Bool)
  /-- PAIR_INTERRUPT (R343): The leading core takes an interrupt at its count N and the trailing core takes it after instruction N. -/
  | pairInterrupt (pair : Fin 6) (n : Nat)
  /-- CAL_CNT_CLR (R365): A write of 1 to CAL_CNT_CLR clears counters, peaks and CAL_RST_TIME. -/
  | calCntClr (a : Access) (pair : Fin 6) (v : Word)
  /-- CORE_RUN (R369): A write of CORE_CTRL.RUN = 1 starts a core or compared pair at CORE_BOOT. -/
  | coreRun (a : Access) (core : Fin 13) (v : Word)
  /-- CORE_RST (R507): A write of CORE_CTRL.RST resets the core, both cores of a compared pair. -/
  | coreRst (a : Access) (core : Fin 13) (v : Word)
  /-- INTC_LINE_WRITE (R379): A write of LINE_l routes the line from the next clock, or is refused for invalid targets. -/
  | intcLineWrite (a : Access) (line : Fin 512) (v : Word)
  /-- INTC_SWRAISE (R380): A write of INTC_SWRAISE raises a software line 480–511. -/
  | intcSwraise (a : Access) (v : Word)
  /-- INTERRUPT_DELIVERY (R378): An asserted enabled line reaches its target core within 100 ns in priority order. -/
  | interruptDelivery (core : Fin 13)
  /-- INTERRUPT_ACK (R378): A core acknowledges or ends an interrupt through its interface. -/
  | interruptAck (core : Fin 13) (ends : Bool)
  /-- CORE_TIMER_EXPIRY (R377): A core deadline, quantum or cycle-tick timer asserts its core-local line. -/
  | coreTimerExpiry (clocks : Nat) (core : Fin 13) (t : CoreTimer)
  /-- COUNTER_OVERFLOW (R381): A performance counter overflow asserts IRQ_4 of its core. -/
  | counterOverflow (core : Fin 13) (k : Fin 7)
  /-- CACHE_ERROR (R376): A cache array error is corrected, refetched or poisoned and posted. -/
  | cacheError (e : CacheErr) (addr : Nat)
  /-- SPECULATIVE_LOAD_REISSUE (R373): A refused speculative load that commits is issued again as a committed load. -/
  | speculativeLoadReissue (a : Access) (addr : Nat)
  /-- MBS_GO (R384): A write of MBS_GO sends a message to a channel, tested for length, open, allow and full. -/
  | mbsGo (a : Access) (v : Word)
  /-- MB_DBG_SEND (R383): A write of MB_DBG_SEND sends a debug message to the channel. -/
  | mbDbgSend (a : Access) (ch : Fin 32) (v : Word)
  /-- MB_TAKE_READ (R387): A read of MB_TAKE returns the message header, clears FULL and sets SPACE. -/
  | mbTakeRead (a : Access) (ch : Fin 32)
  /-- MBS_WAIT (R389): A write of MBS_WAIT arms or disarms a wait for space in a channel. -/
  | mbsWait (core : Fin 13) (v : Word)
  /-- MBS_ABORT_CLEAR (R390): A write of ones to MBS_ABORT clears the aborted notices. -/
  | mbsAbortClear (core : Fin 13) (v : Word)
  /-- CROSSED_WAIT (R391): Within 5 µs of a crossed wait the block sets CROSS, asserts IRQ_7 of both receivers and posts 0x0212. -/
  | crossedWait (i j : Fin 32)
  /-- MBX_CNT_CLR (R391): A write of 1 to MBX_CNT_CLR clears the mailbox counters. -/
  | mbxCntClr (a : Access) (v : Word)
  /-- VMC_INV_PAGE (R403): VMC_INV GO with OP 0b10 invalidates one IPA page of the VM. -/
  | vmcInvPage (a : Access) (vmNo : Fin 16)
  /-- VMC_INV_VM (R403): VMC_INV GO with OP 0b01 invalidates the whole VM. -/
  | vmcInvVm (a : Access) (vmNo : Fin 16)
  /-- VMC_INV_DONE (R403): An invalidation completes, BUSY clears and INV_DONE is set. -/
  | vmcInvDone (vmNo : Fin 16)
  /-- IOM_INV_HYP (R405): IOM_INV GO with OP 0b01 invalidates the hypervisor context. -/
  | iomInvHyp (a : Access)
  /-- IOM_INV_SECURE (R405): IOM_INV GO with OP 0b10 invalidates the secure context. -/
  | iomInvSecure (a : Access)
  /-- IOM_INV_ALL (R405): IOM_INV GO with OP 0b11 invalidates all contexts. -/
  | iomInvAll (a : Access)
  /-- IOM_INV_DONE (R405): An IOTLB invalidation completes within 20 µs and sets INV_DONE. -/
  | iomInvDone
  /-- ISO_SEC_TTB_WRITE (R405): A write of ISO_SEC_TTB invalidates the secure context by itself. -/
  | isoSecTtbWrite (a : Access) (high : Bool) (v : Word)
  /-- DMA_FAULT (R405): A DMA translation fault has no effect, is captured and posts 0x9012. -/
  | dmaFault (src : Fin 17) (log : Bool) (ipa : Nat) (write : Bool)
  /-- IOM_FLT_CLR (R405): A write of 1 to IOM_FLT_CLR clears the captured DMA fault. -/
  | iomFltClr (a : Access)
  /-- VMC_CLR (R401): A write of 1 to VMC_CLR clears the captured fault and VMC_CNT. -/
  | vmcClr (a : Access) (vmNo : Fin 16)
  /-- PART_REQ_GO (R407): A monitor-level write of PART_REQ.GO = 1 starts a parting or is refused with 0x9011. -/
  | partReqGo (a : Access) (page : Nat) (v : Word)
  /-- PARTING_DRAINED (R408): When accesses have drained the block is cleared and the new owner is put in place. -/
  | partingDrained (page : Nat)
  /-- PARTING_TIMEOUT (R408): Accesses not drained within ISO_PART_TMO end with errors and the parting completes with 0x9214. -/
  | partingTimeout (page : Nat)
  /-- TM_SEND (R414): A write of SEND in a tenant–manager mailbox sets FULL and notifies, or sets REFUSED when full. -/
  | tmSend (a : Access) (inst : Fin 16) (toManager : Bool) (v : Word)
  /-- TM_ACK (R414): A write of ACK clears FULL and REFUSED of a tenant–manager mailbox. -/
  | tmAck (a : Access) (inst : Fin 16) (toManager : Bool) (v : Word)
  /-- DPL_OVF_CLEAR (R415): Clearing DPL_CTRL.OVF restarts logging with an empty filter. -/
  | dplOvfClear (a : Access) (inst : Fin 16)
  /-- HIN_QUIESCE_REQ (R416): A write of HIN_QUIESCE.REQ = 1 quiesces the instance, and REQ = 0 resumes it. -/
  | hinQuiesceReq (a : Access) (inst : Fin 16) (v : Word)
  /-- QUIESCE_DONE (R416): Within 50 µs the instance's work has drained, DONE is set and QUIESCED raised. -/
  | quiesceDone (inst : Fin 16)
  /-- DRAM_READ (R420): A DRAM read decodes the codeword and returns data, corrected data or poison. -/
  | dramRead (clocks : Nat) (a : Access) (isSpill : Bool) (addr actual : Nat) (flips : List Nat)
  /-- DRAM_WRITE (R421): A DRAM write of whole words or a read-modify-write of part of a word. -/
  | dramWrite (clocks : Nat) (a : Access) (isSpill : Bool) (addr : Nat) (data flips : List Nat)
  /-- DRAM_TRAINING_DONE (R423): Channel training completes within 20 ms, or fails with 0xA31E. -/
  | dramTrainingDone (good : Bool)
  /-- DRAM_REFRESH (R425): Every DMC_REFI ns the controller refreshes all banks. -/
  | dramRefresh
  /-- DRAM_TEMPERATURE_REPORT (R425): A die temperature report above or back below 85 °C halves or restores the refresh interval. -/
  | dramTemperatureReport (clocks : Nat) (temps : List Int) (rate : Fin 8)
  /-- SCRUB_STEP (R426): The scrubber reads the next burst or word, corrects it and writes it back. -/
  | scrubStep (array : ScrubArray) (word : Fin 16) (flips : List Nat) (check : SlotCheck)
  /-- SRAM_ERROR (R427): An on-chip SRAM error is corrected and written back, or reported as not correctable. -/
  | sramError (array : SramArray) (corrected : Bool)
  /-- DMC_CNT_CLR (R437): A write of 1 to DMC_CNT_CLR clears DMC_CNT and the error log. -/
  | dmcCntClr (a : Access) (v : Word)
  /-- NOR_PROGRAM (R430): NOR_CMD with OP program and GO programs 1–256 bytes from NOR_BUF. -/
  | norProgram (a : Access) (die : Fin 2) (v : Word)
  /-- NOR_ERASE_4K (R430): NOR_CMD with OP erase 4 KiB and GO erases a 4 KiB block. -/
  | norErase4k (a : Access) (die : Fin 2) (v : Word)
  /-- NOR_ERASE_64K (R430): NOR_CMD with OP erase 64 KiB and GO erases a 64 KiB block. -/
  | norErase64k (a : Access) (die : Fin 2) (v : Word)
  /-- NOR_CMD_DONE (R430): A NOR command ends done or failed with 0xA217. -/
  | norCmdDone (die : Fin 2) (good : Bool)
  /-- NOR_READ (R431): A read of a NOR die waits for a program or suspends an erase and is corrected or fails. -/
  | norRead (a : Access) (addr n : Nat) (check : SlotCheck)
  /-- NOR_CNT_CLR (R432): A write of 1 to NOR_CNT_CLR clears the NOR counters. -/
  | norCntClr (a : Access) (die : Fin 2) (v : Word)
  /-- FUS_PROG_GO (R435): A write of FUS_PROG_GO ORs data into a fuse word or is refused with 0xA012. -/
  | fusProgGo (a : Access) (v : Word)
  /-- FUSE_PROGRAM_DONE (R435): A fuse program completes within 50 µs and reads back set or fails. -/
  | fuseProgramDone (good : Bool)
  /-- KEY_WRITE (R445): An accepted key-update message of TYPE 0x1 writes a key and policy into a slot. -/
  | keyWrite (fail : Option (Fin 2))
  /-- KEY_ERASE (R445): An accepted key-update message of TYPE 0x2 clears a slot. -/
  | keyErase (fail : Option (Fin 2))
  /-- LIFECYCLE_ADVANCE (R448): An accepted key-update message of TYPE 0x3 advances the lifecycle fuse word. -/
  | lifecycleAdvance (fail : Option (Fin 2))
  /-- TEST_PORT_UNLOCK (R458): An accepted key-update message of TYPE 0x4 stops the cores and starts clearing for the test port. -/
  | testPortUnlock (fail : Option (Fin 2))
  /-- TEST_PORT_CLEAR_DONE (R458): Clearing of secrets completes and verification begins. -/
  | testPortClearDone
  /-- TEST_PORT_VERIFY_DONE (R458): Verification opens the test port with 0xB21D or returns it to LOCKED with 0xB319. -/
  | testPortVerifyDone (bad : Option Nat)
  /-- LCS_PROVISION (R448): A write of LCS_CTRL.PROVISION by SC advances MANUFACTURE to PROVISIONED. -/
  | lcsProvision (a : Access) (v : Word)
  /-- LCS_EXPORT (R449): A write of LCS_CTRL.EXPORT by SC in MANUFACTURE places the derived keys in LCS_EXP. -/
  | lcsExport (a : Access) (v : Word)
  /-- ATT_EXTEND (R451): A write of ATT_EXT with GO extends a measurement register. -/
  | attExtend (a : Access) (v : Word)
  /-- ATT_GO (R452): A write of ATT_CTRL.GO computes the attestation tag over challenge, identity, measurements and lifecycle. -/
  | attGo (a : Access) (v : Word)
  /-- CAPSULE_CHECK (R455): CMD_P_GO with OP check tests a capsule and advances LAST on acceptance. -/
  | capsuleCheck (clocks : Nat) (a : Access) (port : Fin 2) (v : Word)
  /-- CAPSULE_MAKE (R456): CMD_P_GO with OP MAKE builds a reply capsule with the next TX counter and tag. -/
  | capsuleMake (clocks : Nat) (a : Access) (port : Fin 2) (v : Word)
  /-- CHANNEL_UNBLOCK (R455): After BLOCK_S seconds the channel is no longer blocked. -/
  | channelUnblock (ch : Fin 16)
  /-- RELAY_OPEN (R467): A relay OPEN frame is accepted and forwarded or answered with ABORT. -/
  | relayOpen (octets : List Nat)
  /-- RELAY_MANIFEST_BLOCK (R468): A manifest block is held, and once all have arrived the manifest is verified, forwarded and the slot prepared. -/
  | relayManifestBlock (octets : List Nat)
  /-- SLOT_PREPARED (R468): Preparation of the slot completes, a RECEIVING record is written and ACK with next block 0 is sent. -/
  | slotPrepared (good : Bool)
  /-- RELAY_TRANSPORT_BLOCK (R469): A transport block is hash-checked, forwarded within the window and programmed. -/
  | relayTransportBlock (octets : List Nat)
  /-- BLOCK_PROGRAMMED (R469): A transport block's program completes and it is counted towards an ACK. -/
  | blockProgrammed (good : Bool)
  /-- RELAY_ACK (R469): A received ACK advances the window or causes a resend from the block it names. -/
  | relayAck (octets : List Nat)
  /-- ACK_TIMER (R469): 1 ms after the oldest unacknowledged block an ACK is sent. -/
  | ackTimer
  /-- RELAY_NO_PROGRESS (R469): 2 s without progress resends from the last acknowledged block, and after 5 resends sends ABORT. -/
  | relayNoProgress
  /-- RELAY_CLOSE (R470): CLOSE after the last block writes RECEIVED, completes the slot and is forwarded. -/
  | relayClose (octets : List Nat)
  /-- RELAY_ABORT (R470): ABORT is forwarded both ways and a RECEIVING slot is written REJECTED. -/
  | relayAbort (octets : List Nat)
  /-- SLOT_COMPLETE (R471): The slot's payload and component hashes are checked, after any delta patch, and COMPLETE or REJECTED written. -/
  | slotComplete (slot : Fin 2) (good : Bool)
  /-- UPDATE_STATUS (R481): A STATUS request returns the slot states, versions and counts. -/
  | updateStatus
  /-- UPDATE_TRIAL (R475): A TRIAL request puts a COMPLETE slot into TRIAL with the given tries. -/
  | updateTrial (good : Bool)
  /-- UPDATE_CONFIRM (R477): A CONFIRM request with a valid capsule makes the running trial slot CONFIRMED and the other OLD, then raises fuse counts. -/
  | updateConfirm (good : Bool)
  /-- UPDATE_REJECT (R475): A REJECT request writes REJECTED for a slot that is COMPLETE or a trial not running. -/
  | updateReject (good : Bool)
  /-- UPDATE_ABORT (R470): An ABORT request aborts the open transfer. -/
  | updateAbort
  /-- SET_WRITE (R480): A SET_WRITE request writes a settings record in the running or common format. -/
  | setWrite (good : Bool)
  /-- SET_READ (R480): A SET_READ request returns a settings record of any format. -/
  | setRead
  /-- SERVICE_REQUEST (R517): A SERVICE request with a valid capsule enters SERVICE with a time limit in RUN or DEGRADED. -/
  | serviceRequest
  /-- LOADER_START (R473): At each compute-die start the resident loader completes any journalled installation and loads a verified base copy. -/
  | loaderStart
  /-- BASE_INSTALL (R474): The loader copies the base components into both base areas under the journal. -/
  | baseInstall (good : Bool)
  /-- SLOT_CHOOSE (R476): SC chooses and boots the trial or newest confirmed slot and loads its settings. -/
  | slotChoose
  /-- KEYS_DERIVE (R439): SC derives the working keys, loads the slots from the key records and sets KEYS_READY. -/
  | keysDerive
  /-- XO_STABLE (R485): XO is judged stable, XO_STABLE is set and RCO is calibrated. -/
  | xoStable (clocks count : Nat)
  /-- XO_START_TIMEOUT (R485): XO not stable within 5.0 ms makes the PLLs use RCO / 4 and posts 0xC213. -/
  | xoStartTimeout (clocks : Nat)
  /-- XO32_STABLE (R486): XO32 is judged stable after four good windows and XO32_OK is set. -/
  | xo32Stable (clocks : Nat)
  /-- RC_TIMING_MARK (R487): Every 10,000 XO cycles a timing mark trims the power-die RC by one step. -/
  | rcTimingMark (clocks : Nat) (die : Fin 2) (count : Nat)
  /-- SUPERVISION_WINDOW (R488): A supervision entry ends its window, compares its count with E and passes, fails or discards. -/
  | supervisionWindow (clocks : Nat) (ends : List (Fin 10 × Option Nat))
  /-- PLL_LOCK_LOSS (R490): A PLL's lock detector reports loss of lock and the clock-fault action follows. -/
  | pllLockLoss (clocks : Nat) (pll : Fin 5)
  /-- CROSSING_RESET (R494): A side of a crossing entering reset flushes its FIFOs and ends outstanding requests with errors. -/
  | crossingReset (domain : ClockDomain) (outstanding : List Nat)
  /-- CROSSING_REHANDSHAKE (R495): After both sides leave reset the crossing re-handshakes and delivers waiting requests. -/
  | crossingRehandshake (domain : ClockDomain) (waiting : List WaitingAccess)
  /-- CLOCK_GATE_IDLE (R496): After 64 idle cycles the block clock stops. -/
  | clockGateIdle (page : Nat)
  /-- CLOCK_GATE_WAKE (R496): New work or an access restarts a gated clock within 20 ns. -/
  | clockGateWake (page : Nat)
  /-- PWR_DOM_FOLLOW (R500): PWR_DOM POLICY 0b00 makes the domain follow the mode. -/
  | pwrDomFollow (a : Access) (d : Fin 10) (v : Word)
  /-- PWR_DOM_WAKE_ON (R500): PWR_DOM POLICY 0b01 switches the domain off until a wake event reaches an agent in it. -/
  | pwrDomWakeOn (a : Access) (d : Fin 10) (v : Word)
  /-- PWR_DOM_OFF (R500): PWR_DOM POLICY 0b10 switches the domain off after draining, or is refused against Table 17-7. -/
  | pwrDomOff (a : Access) (d : Fin 10) (v : Word)
  /-- DOMAIN_OFF_DONE (R500): A domain switch-off completes within 10 µs and its blocks are in reset. -/
  | domainOffDone (clocks : Nat) (d : Fin 10) (left : Nat)
  /-- DOMAIN_ON_DONE (R500): A domain is on within 5 µs with its blocks at reset values. -/
  | domainOnDone (clocks : Nat) (d : Fin 10)
  /-- VFS_REQ (R503): A write of VFS_REQ sets the target operating point, capped by VFS_CEIL. -/
  | vfsReq (a : Access) (v : Word)
  /-- VFS_STEP_DONE (R505): A ramp with settling or a divider change ends and the sequencer plans its next step. -/
  | vfsStepDone (clocks : Nat)
  /-- VFS_RAIL_FAIL (R503): A rail not within ±10 mV 20 µs after the ramp sets the divider to ÷10, sets VFAIL and posts 0xC218. -/
  | vfsRailFail (clocks mv : Nat)
  /-- VFS_CLR_FAIL (R503): A write of VFS_CTRL.CLR_FAIL = 1 clears VFAIL and accepts requests again. -/
  | vfsClrFail (a : Access) (v : Word)
  /-- VFS_CEILING_CHANGE (R504): A ceiling that falls below the point in force moves the sequencer to it at once. -/
  | vfsCeilingChange
  /-- CLK_AC_DIV_WRITE (R506): On the HZ9620 a write of CLK_AC_DIV changes the cluster divider, refused on the HZ9640. -/
  | clkAcDivWrite (a : Access) (v : Word)
  /-- RST_REQ_COMPUTE (R509): A keyed monitor-level RST_REQ.COMPUTE resets the compute die. -/
  | rstReqCompute (a : Access) (v : Word)
  /-- RST_REQ_CLUSTER (R509): A keyed RST_REQ.CLUSTER resets the application cluster. -/
  | rstReqCluster (a : Access) (v : Word)
  /-- RST_REQ_RP (R509): A keyed RST_REQ.RP0 or RP1 resets a real-time pair, refused while COMPARED in the Headstock. -/
  | rstReqRp (a : Access) (v : Word)
  /-- RST_REQ_DIE (R509): A keyed RST_REQ.DIE_A or DIE_B resets a power die, refused while any channel is not OFF. -/
  | rstReqDie (a : Access) (v : Word)
  /-- WATCHDOG_ENABLE (R510): A write of RST_WDG.EN = 1 starts the watchdog until the next compute-die reset. -/
  | watchdogEnable (a : Access) (v : Word)
  /-- WATCHDOG_KICK (R510): A write of 0x5AA5 to RST_WDG_KICK restarts the time-out, any other value expires it. -/
  | watchdogKick (a : Access) (v : Word)
  /-- WATCHDOG_WARN (R510): Half of TMO without a kick sets WDG_WARN. -/
  | watchdogWarn (clocks : Nat)
  /-- WATCHDOG_EXPIRY (R510): The watchdog expiring sets RST_CAUSE.WDG and resets the compute die. -/
  | watchdogExpiry (clocks : Nat)
  /-- COMPUTE_DIE_RESET (R507): A compute-die reset clears every compute-die register, memory and the time base. -/
  | computeDieReset (clocks : Nat) (cause : ResetCause)
  /-- COMPUTE_DIE_RELEASE (R508): Die P releases the compute die, which loads fuses, runs the start self-test, locks PLLs and starts SC. -/
  | computeDieRelease (clocks : Nat) (io : StartTest)
  /-- ALWAYS_ON_RESET (R507): VBAT of die A below 3.0 V or its loss resets the always-on domain. -/
  | alwaysOnReset (clocks : Nat) (off : Bool)
  /-- POWER_ON (R514): VBAT at the die A tabs at or above 6.0 V for 1 ms starts the module from OFF. -/
  | powerOn (clocks : Nat)
  /-- REALTIME_RELEASE (R518): RP0 and RP1 are released with the real-time program and the module enters PARTIAL. -/
  | realtimeRelease (clocks : Nat) (program : List (List Nat))
  /-- CLUSTER_RELEASE (R518): The components are loaded and hashed, the application cluster is released and the module enters RUN when selected. -/
  | clusterRelease (clocks : Nat)
  /-- SLP_MODE_REQ_RUN (R514): A write of SLP_MODE_REQ.MODE = RUN moves PARTIAL or SERVICE to RUN or DEGRADED, or acts as a wake in PREP. -/
  | slpModeReqRun (a : Access) (v : Word)
  /-- SLP_MODE_REQ_PARTIAL (R514): A write of SLP_MODE_REQ.MODE = PARTIAL moves RUN or DEGRADED to PARTIAL when no application core runs. -/
  | slpModeReqPartial (a : Access) (v : Word)
  /-- DEG_CAUSE_CHANGE (R515): A change of a DEG_CAUSE condition moves RUN to DEGRADED with 0xC227 or back. -/
  | degCauseChange
  /-- SERVICE_LIMIT_EXPIRY (R517): The SERVICE time limit ends SERVICE and posts 0xC029. -/
  | serviceLimitExpiry (clocks : Nat)
  /-- SLP_VOTE_IN (R522): A write of SLP_VOTE_IN records a received vote for an enrolled node. -/
  | slpVoteIn (a : Access) (v : Word)
  /-- VOTE_TIMEOUT (R522): A node that has sent no vote for VOTE_TMO becomes SILENT and counts as ready. -/
  | voteTimeout (clocks : Nat) (node : Fin 64)
  /-- OWN_SLEEP_WRITE (R523): A write of SLP_CTRL.OWN_SLEEP sets the module's own vote and may start or abort PREP. -/
  | ownSleepWrite (a : Access) (v : Word)
  /-- PREP_EXPIRY (R525): PREP_T after entry to PREP the module enters SHUTDOWN. -/
  | prepExpiry (clocks : Nat)
  /-- SHDN_REQ (R514): A write of SLP_CTRL.SHDN_REQ = 1 enters SHUTDOWN. -/
  | shdnReq (a : Access) (v : Word)
  /-- SHDN_ACK (R525): A write of SHDN_ACK, with SC done, reaches the point of no return. -/
  | shdnAck (a : Access) (v : Word)
  /-- SHDN_TIMEOUT (R525): SHDN_TMO expiry reaches the point of no return and posts 0xC226. -/
  | shdnTimeout (clocks : Nat)
  /-- SHUTDOWN_SELF_TEST (R550): The shut-down self-test runs its enabled steps or is skipped. -/
  | shutdownSelfTest (clocks : Nat) (tj : Int)
  /-- SELF_TEST_DONE (R551): The shut-down self-test completes or is cut short and its results are written to the repair log. -/
  | selfTestDone (clocks : Nat) (io : SelfTest)
  /-- COMPUTE_RAILS_CUT (R525): Die P cuts the compute rails and the module enters STANDBY. -/
  | computeRailsCut (clocks : Nat)
  /-- WAKE_L_WAKE (R529): WAKE_L low for WK_FILT after being high for 1 ms wakes the module. -/
  | wakeLWake (clocks : Nat)
  /-- CAN_WAKE_PATTERN (R530): A wake-up pattern or selective wake frame on CX0 or CX1 wakes the module. -/
  | canWakePattern (clocks : Nat) (c : Fin 2) (w : CanWake)
  /-- WAKE_L_PULSE (R529): On a local wake, an abort or WK_TX the module drives WAKE_L low for WK_PULSE ms. -/
  | wakeLPulse (a : Access) (v : Word)
  /-- WAKE_L_PULSE_END (R529): The WAKE_L pulse ends after WK_PULSE ms. -/
  | wakeLPulseEnd (clocks : Nat)
  /-- WAKE_L_STUCK (R529): WAKE_L low for 1 s after a pulse sets WAKEL_STUCK and posts 0xC225. -/
  | wakeLStuck (clocks : Nat)
  /-- MAX_AWAKE_EXPIRY (R531): A parked node awake for MAX_AWAKE sets OVERDUE and may have its feed switched off. -/
  | maxAwakeExpiry (clocks : Nat) (node : Option (Fin 64))
  /-- COMM_OK (R532): A write of SLP_CTRL.COMM_OK = 1 marks the wake valid. -/
  | commOk (a : Access) (v : Word)
  /-- FALSE_WAKE_WINDOW_END (R532): FW_WIN after release without a valid wake advances the false-wake count and may disarm the source. -/
  | falseWakeWindowEnd (clocks : Nat)
  /-- FALSE_WAKE_HOLD_END (R532): FWK_HOLD minutes after a disarm the source is armed again. -/
  | falseWakeHoldEnd (clocks : Nat) (source : Fin 51)
  /-- SLP_CNT_CLR (R534): A write of 1 to SLP_CNT_CLR clears SLP_CNT. -/
  | slpCntClr (a : Access) (v : Word)
  /-- FAULT_CODE_POST (R536): A posted code reaches the aggregator and is counted, logged or merged, and may start a handling. -/
  | faultCodePost (clocks : Nat)
  /-- LOG_TAKE_READ (R538): A read of LOG_TAKE returns the oldest entry's word 0 and removes it. -/
  | logTakeRead (a : Access)
  /-- LOG_CLR (R538): A write of LOG_CTRL.CLR = 1 empties the log and clears OVF. -/
  | logClr (a : Access) (v : Word)
  /-- FAG_DONE (R539): A write of FAG_DONE ends the active handling and resumes the top stacked one. -/
  | fagDone (a : Access) (v : Word)
  /-- FAG_CNT_CLR (R539): A write of 1 to FAG_CNT_CLR clears FAG_CNT and FAG_SEVCNT. -/
  | fagCntClr (a : Access) (v : Word)
  /-- ESCALATION_WARN (R541): Half of ESC_TMO into a severity-4 handling sets ESC_WARN. -/
  | escalationWarn (clocks : Nat)
  /-- ESCALATION (R541): A severity-4 handling active for ESC_TMO resets the compute die and sets RST_CAUSE.FAG. -/
  | escalation (clocks : Nat)
  /-- PATH_TEST (R543): Every 10 ms each posting port sends a test code and a missing one posts 0xD31B. -/
  | pathTest (clocks : Nat) (missing : List (Fin 16))
  /-- POWER_DIE_LOGIC_DIFFER (R546): Differing power-die logic copies turn every channel off, hold them in OFF and post 0xD41C. -/
  | powerDieLogicDiffer (clocks : Nat) (die : Fin 2)
  /-- PLAUSIBILITY_FAIL (R547): A channel state and measurement disagreeing for 5 samples posts 0xD31D. -/
  | plausibilityFail (clocks : Nat) (die : Fin 2) (ch : Fin 16) (kind : Implausible)
  /-- REPAIR_LOG_LOAD (R553): At start SC loads the newest self-test run into the STS page and posts repair codes. -/
  | repairLogLoad
  /-- HONING_PLAN (R560): Honing makes a plan at start, periodically, early or on request and writes it to the ageing log. -/
  | honingPlan (io : PlanIn)
  /-- HON_PLAN_NOW (R560): A write of HON_CTRL.PLAN_NOW = 1 in SERVICE requests a plan. -/
  | honPlanNow (a : Access) (v : Word)
  /-- HONING_PERIOD (R560): After PERIOD hours of operation honing makes a periodic plan. -/
  | honingPeriod (clocks : Nat)
  /-- HONING_SAMPLE (R561): Every hour honing samples monitors 0–4 and plans early or sets OVERRUN. -/
  | honingSample (clocks : Nat) (m : Monitors)
  /-- TEMPERATURE_CEILING (R556): Every 1 ms the health block judges the junction temperature and sets the temperature ceiling. -/
  | temperatureCeiling (clocks : Nat) (tj : Int)
  /-- WETTING_PULSE_START (R283): With PULSE = 1, wetting current starts flowing WET_LEAD µs before each sampling instant of the input. -/
  | wettingPulseStart (m : Fin 48)
  /-- WETTING_PULSE_END (R283): With PULSE = 1, wetting current stops 2 µs after the sampling instant, which ends the window in which transitions count for chatter. -/
  | wettingPulseEnd (m : Fin 48)
  /-- COMPARATOR_TRANSITION (R289): A DIN comparator changes its raw level between samples, and the change is counted towards a chatter sample. -/
  | comparatorTransition (clocks : Nat) (m : Fin 48) (rising : Bool)
  /-- SEL_LAND_CHANGE (R264): A change of the SEL lands with SEL_SRC = 0 selects another channel for ISENSE, which settles within 20 µs. -/
  | selLandChange (die : Fin 2) (level : Fin 16)
  /-- TXD_DOMINANT_TIMEOUT (R191): An integrated CAN transceiver whose TXD stays dominant for the ISO 11898-2 time-out, 1.0 ms minimum, releases the bus. -/
  | txdDominantTimeout (ctl : Fin 12)
  /-- CAN_INTEGRATION_DONE (R206): After INIT = 0, or after a transceiver's power die returns, the controller has seen 11 recessive bits and is integrated into the bus. -/
  | canIntegrationDone (ctl : Fin 12)
  /-- ANNOUNCE_RECEIVE (R71): A received Announce message feeds the best master clock algorithm of its instance and may change the grandmaster and set GM_CHANGE. -/
  | announceReceive (pp : PtpPort) (vec : PtpVector)
  /-- PREEMPTION_VERIFY_RESPONSE (R137): A verify response received from the link partner ends verification with PORT_PRE.STATUS active. -/
  | preemptionVerifyResponse (port : Fin 7)
  /-- ALIVE_TIMEOUT (R324): No ALIVE frame from the twin for 8.0 µs while heartbeats still arrive posts 0x7221. -/
  | aliveTimeout (clocks : Nat)
  /-- WAKE_L_HIGH (R529): WAKE_L returning high clears WAKEL_STUCK and starts the 1 ms high time that a later wake needs. -/
  | wakeLHigh (clocks : Nat)
  /-- CHANNEL_RECORDS_WRITTEN (R525): SC finishes the exact capsule-channel records in SHUTDOWN, which reaches the point of no return when SHDN_ACK has already been written. -/
  | channelRecordsWritten
  /-- CRY_GO (R442): A write of CRY_CTRL.GO starts a SHA-256, AES-256 or SLH-DSA job with a key slot, or refuses it under its slot policy. -/
  | cryGo (a : Access) (inst : Fin 3) (v : Word)
  /-- CRY_JOB_DONE (R60): A CRY job ends with CRY_STAT done or failed, some time after it was started. -/
  | cryJobDone (inst : Fin 3) (good : Bool) (result : List Nat)
  deriving DecidableEq, Repr

end Sys2Proof
end

