-- ==== Sys2Proof/Decode.lean ====
section
/-!
DEFINITION. Commands that a word spells. The opcode table of the spec gives none of its rows bits: the block takes commands, it
has no instruction words.
-/

namespace Sys2Proof

/-- The command that the low nbits bits of w spell: none, for every word. -/
def decodeTableWord (_nbits _w : Nat) : Option Instr := none

end Sys2Proof
end

