-- ==== Sys2Proof/Config.lean ====
section
/-!
DEFINITION. What the hardware fixes and the values the spec leaves open. A constant without a body is a free value: no
proof can see what it is.
-/

namespace Sys2Proof.Config

/-- A free value of 64 bits, the n-th one taken (State.fresh is n). -/
opaque freeValue : Nat → BitVec 64

/-- Whether pages of a block type implement BLK_CTRL.FREEZE, where no chapter states it. -/
opaque freezableElse : Nat → Bool

/-- BLK_CAP.FRZ per block type (spec/02 Table 02-4): 1 where a chapter has software use FREEZE, on the pages of the switch
(spec/04 text after R145) and the LSW pages (spec/08 R262); elsewhere the spec gives no value. -/
def freezable (ty : Nat) : Bool := (0x1001 ≤ ty && ty ≤ 0x1006) || ty == 0x4001 || ty == 0x5001 || freezableElse ty

/-- E of each supervision entry (spec/17 Table 17-2); entry 3 at OP3, the point in force at reset. -/
def csvExp (s : Nat) : Nat :=
  [40000, 390625, 1562500, 25000, 25000, 20000, 25000, 20000, 20000, 20000].getD s 0

/-- Nominal voltage of an operating point, mV (spec/17 Table 17-8). -/
def opMv (p : Nat) : Nat := [900, 850, 810, 760, 720, 650].getD p 0

/-- VFS_OP_p at reset: NOM, MARGIN 0, DIV (spec/17 Tables 17-8 and 17-12). -/
def vfsOp (p : Nat) : Nat := opMv p + p * 0x1000000

/-- A reset value by channel class: die-local indices 0-2 are H, 3-9 M, 10-15 L (spec/02 Table 02-9). -/
def byClass (i h m l : Nat) : Nat := if i < 3 then h else if i < 10 then m else l

/-- A reset value by pair: CAL pages 0-3 are AP0-AP3, 4-5 RP0-RP1. -/
def byPair (i ap rp : Nat) : Nat := if i < 4 then ap else rp

/-- MAXLEN limit of a port (spec/04 Table 04-1). -/
def maxLenLimit (p : Nat) : Nat := if (15 ≤ p ∧ p ≤ 30) ∨ p = 32 then 2048 else 9216

/-- A port with preemption: U0, U1, TW, M0-M3 (spec/04 Table 04-1). -/
def preemptPort (p : Nat) : Bool := p < 7

/-- PORT_PRE at reset: fields of a type that does not support preemption read 0 (spec/04 R146). -/
def preReset (p : Nat) : Nat := if preemptPort p then 0xAFF00 else 0

/-- PORT_PHY_PLCA at reset: S ports only (spec/04 R146). -/
def plcaReset (p : Nat) : Nat := if 27 ≤ p ∧ p ≤ 30 then 0x20 else 0

/-- Longest frame at reset: 0x5F2 on the external ports, the port's limit on the internal ones (spec/04 Table 04-1). -/
def maxLenReset (p : Nat) : Nat := if p < 31 then 0x5F2 else maxLenLimit p

/-- Factory latencies of the F and S ports, which the spec does not give. -/
opaque factoryIngLat : Nat → BitVec 32
opaque factoryEgrLat : Nat → BitVec 32

def ingLat (p : Nat) : Nat := if 15 ≤ p ∧ p ≤ 30 then (factoryIngLat p).toNat else 0

def egrLat (p : Nat) : Nat := if 15 ≤ p ∧ p ≤ 30 then (factoryEgrLat p).toNat else 0

/-! By chapter. -/
/-- The module's own priority vector for a PTP instance, field by field in the order of PtpVector: the spec gives no value. -/
opaque ptpOwn : Nat → Nat → BitVec 64
/-- frerSeqRcvyLatentErrorPaths less 1 of a recovery function: spec/04 gives latent error detection no number of paths. -/
opaque latentPaths : Nat → Nat
/-- The next state of the 32-bit LFSR of WRED: spec/05 R156 gives no polynomial. -/
opaque lfsrNext : BitVec 32 → BitVec 32
/-- Source address of the frames that the gateway engines build: the spec gives none. -/
opaque gwAddr : BitVec 48
/-- Bandwidth use of the DRAM that the register at an offset of the DMC page shows at a clock: a measurement (spec/14 Table 14-6). -/
opaque dramUse : Nat → Nat → BitVec 32
/-- SLH-DSA.Verify of FIPS 205: parameter set (0 SHA2-128s, 1 SHA2-192s), public key, context, message, signature. -/
opaque slhVerify : Nat → List Nat → List Nat → List Nat → List Nat → Bool
/-- What each operation code of CRY_CTRL needs of a key slot: 0 names no slot, 1 HMAC, 2 AES, 3 WRAP. Spec/15 Table 15-13
gives the codes no meaning. -/
opaque cryKeyUse : Nat → BitVec 2

end Sys2Proof.Config
end

