-- ==== Sys2Proof/Machine/Bits.lean ====
section
/-!
DEFINITION. Bit fields of numbers, two's complement fields, saturating and wrapping counters, bytes of numbers, and the
cyclic redundancy checks the spec names.
-/

namespace Sys2Proof.Machine

/-- The field of n that starts at bit lo and is len bits wide. -/
def bitsOf (n lo len : Nat) : Nat := (n >>> lo) % 2 ^ len

/-- n with the field at lo, len bits wide, set to v (cut to len bits). -/
def putBits (n lo len v : Nat) : Nat :=
  n % 2 ^ lo + (v % 2 ^ len) * 2 ^ lo + (n >>> (lo + len)) * 2 ^ (lo + len)

/-- The two's complement reading of a field of len bits. -/
def sext (len n : Nat) : Int :=
  if n % 2 ^ len < 2 ^ (len - 1) then (n % 2 ^ len : Nat) else (n % 2 ^ len : Nat) - (2 ^ len : Nat)

/-- The two's complement field of len bits that holds i (cut to len bits). -/
def toField (len : Nat) (i : Int) : Nat := (i % (2 ^ len : Nat)).toNat

/-- A counter of len bits that stays at its greatest value. -/
def satAdd (len n d : Nat) : Nat := min (n + d) (2 ^ len - 1)

/-- A counter of len bits that wraps. -/
def wrapAdd (len n d : Nat) : Nat := (n + d) % 2 ^ len

/-- A signed value held within the range of a two's complement field of len bits. -/
def clampInt (len : Nat) (i : Int) : Int :=
  let hi : Int := (2 ^ (len - 1) : Nat) - 1
  let lo : Int := -((2 ^ (len - 1) : Nat) : Int)
  if i > hi then hi else if i < lo then lo else i

def absInt (i : Int) : Nat := i.natAbs

/-- Little-endian bytes of a number. -/
def bytesLE : Nat → Nat → List Nat
  | 0, _ => []
  | k + 1, n => n % 256 :: bytesLE k (n / 256)

/-- The number of little-endian bytes. -/
def ofBytesLE : List Nat → Nat
  | [] => 0
  | b :: bs => b % 256 + 256 * ofBytesLE bs

/-- Big-endian bytes of a number. -/
def bytesBE (k n : Nat) : List Nat := (bytesLE k n).reverse

/-- The number of big-endian bytes. -/
def ofBytesBE (l : List Nat) : Nat := ofBytesLE l.reverse

/-- k bits of n in reverse order. -/
def reflect : Nat → Nat → Nat
  | 0, _ => 0
  | k + 1, n => (n % 2) * 2 ^ k + reflect k (n / 2)

/-- One bit of a cyclic redundancy check of width w, most significant bit first. -/
def crcBit (w poly acc : Nat) : Nat :=
  if acc.testBit (w - 1) then ((acc * 2) % 2 ^ w) ^^^ poly else (acc * 2) % 2 ^ w

/-- k bits of a cyclic redundancy check. -/
def crcBits : Nat → Nat → Nat → Nat → Nat
  | 0, _, _, acc => acc
  | k + 1, w, poly, acc => crcBits k w poly (crcBit w poly acc)

/-- A byte taken into a cyclic redundancy check of width w ≥ 8. -/
def crcByte (w poly acc b : Nat) : Nat := crcBits 8 w poly (acc ^^^ ((b % 256) * 2 ^ (w - 8)))

/-- CRC over bytes, most significant bit first, no reflection. -/
def crcMsb (w poly init : Nat) (l : List Nat) : Nat := l.foldl (crcByte w poly) init

/-- CRC over bytes, least significant bit first (reflected in and out), with a final exclusive-or. -/
def crcLsb (w poly init xorOut : Nat) (l : List Nat) : Nat :=
  (reflect w ((l.map (reflect 8)).foldl (crcByte w poly) init)) ^^^ xorOut

/-- CRC-32 of IEEE 802.3. -/
def crc32 (l : List Nat) : Nat := crcLsb 32 0x04C11DB7 0xFFFFFFFF 0xFFFFFFFF l

/-- The position of the lowest set bit among bits from, from + 1, …, n of them. -/
def lowestBit : Nat → Nat → Nat → Option Nat
  | 0, _, _ => none
  | n + 1, start, v => if v.testBit start then some start else lowestBit n (start + 1) v

/-- The numbers of the set bits of v below n, in rising order. -/
def setBits (n v : Nat) : List Nat := (List.range n).filter fun i => v.testBit i

/-- The number of set bits of v below n. -/
def popCount (n v : Nat) : Nat := (setBits n v).length

/-- The mask with the given bits set. -/
def maskOf (l : List Nat) : Nat := l.foldl (fun m i => m ||| 2 ^ i) 0

/-- Element i of a list, or d. -/
def nth {α : Type} (l : List α) (i : Nat) (d : α) : α := l.getD i d

/-- A list with element i replaced (unchanged where there is none). -/
def setNth {α : Type} (l : List α) (i : Nat) (a : α) : List α := l.set i a

/-- Element i changed by f (unchanged where there is none). -/
def modNth {α : Type} (l : List α) (i : Nat) (f : α → α) : List α := l.modify i f

/-- Insertion into a list sorted by a relation. -/
def insertBy {α : Type} (le : α → α → Bool) (a : α) : List α → List α
  | [] => [a]
  | b :: t => if le a b then a :: b :: t else b :: insertBy le a t

def sortBy {α : Type} (le : α → α → Bool) (l : List α) : List α := l.foldr (insertBy le) []

end Sys2Proof.Machine
end

