-- ==== Sys2Proof/Machine/RegMap.lean ====
section
/-!
DEFINITION. The register map: for every page type the registers of its chapter's tables with their offsets, reset
values, fields, access types and valid ranges (spec/02 R33-R35, Tables 02-1 to 02-4, and the register and field tables
of the chapters), and one name per register and per field.
-/

namespace Sys2Proof.Machine

/-- A register field by place: the offset of its register in the page, its lowest bit and its width. -/
structure Fld where
  off : Nat
  lo : Nat
  len : Nat
  deriving DecidableEq, Repr

/-- Access types of Table 02-2 (R34). -/
inductive Acc where
  | ro | rw | w1c | wo | rwl | rs
  deriving DecidableEq, Repr

/-- The values a field accepts: all, or the listed ranges (R603). -/
inductive Valid where
  | any
  | ranges (l : List (Nat × Nat))
  deriving DecidableEq, Repr

def Valid.ok (v : Valid) (n : Nat) : Bool :=
  match v with
  | .any => true
  | .ranges l => l.any fun r => decide (r.1 ≤ n ∧ n ≤ r.2)

/-- One field of a register table row. -/
structure FieldSpec where
  lo : Nat
  len : Nat
  acc : Acc
  ok : Valid
  deriving DecidableEq, Repr

/-- One row of a register table: first offset, number of copies, distance, reset value of copy k on page instance i. -/
structure RegSpec where
  off : Nat
  count : Nat
  stride : Nat
  reset : Nat → Nat → Word
  fields : List FieldSpec

abbrev TMB_CTRL : Nat := 0x040
abbrev TMB_CTRL_SRC : Fld := ⟨TMB_CTRL, 0, 2⟩
abbrev TMB_CTRL_TWIN_FOLLOW : Fld := ⟨TMB_CTRL, 2, 1⟩
abbrev TMB_STAT : Nat := 0x044
abbrev TMB_STAT_LOCKED : Fld := ⟨TMB_STAT, 0, 1⟩
abbrev TMB_STAT_HOLDOVER : Fld := ⟨TMB_STAT, 1, 1⟩
abbrev TMB_STAT_TWIN_ALIGNED : Fld := ⟨TMB_STAT, 2, 1⟩
abbrev TMB_SNAP : Nat := 0x048
abbrev TMB_SNAP_GO : Fld := ⟨TMB_SNAP, 0, 1⟩
abbrev TMB_SNAP_SH : Nat := 0x04C
abbrev TMB_SNAP_SH_V : Fld := ⟨TMB_SNAP_SH, 0, 16⟩
abbrev TMB_SNAP_SL : Nat := 0x050
abbrev TMB_SNAP_SL_V : Fld := ⟨TMB_SNAP_SL, 0, 32⟩
abbrev TMB_SNAP_NS : Nat := 0x054
abbrev TMB_SNAP_NS_V : Fld := ⟨TMB_SNAP_NS, 0, 32⟩
abbrev TMB_RATE : Nat := 0x058
abbrev TMB_RATE_V : Fld := ⟨TMB_RATE, 0, 32⟩
abbrev TMB_STEP_S : Nat := 0x05C
abbrev TMB_STEP_S_V : Fld := ⟨TMB_STEP_S, 0, 32⟩
abbrev TMB_STEP_NS : Nat := 0x060
abbrev TMB_STEP_NS_V : Fld := ⟨TMB_STEP_NS, 0, 32⟩
abbrev TMB_STEP_GO : Nat := 0x064
abbrev TMB_STEP_GO_GO : Fld := ⟨TMB_STEP_GO, 0, 1⟩
abbrev TMB_TWIN_OFS : Nat := 0x068
abbrev TMB_TWIN_OFS_V : Fld := ⟨TMB_TWIN_OFS, 0, 32⟩
abbrev TMB_TWIN_DLY : Nat := 0x06C
abbrev TMB_TWIN_DLY_V : Fld := ⟨TMB_TWIN_DLY, 0, 32⟩
abbrev PTP_CTRL : Nat := 0x040
abbrev PTP_CTRL_SERVO_EN : Fld := ⟨PTP_CTRL, 0, 1⟩
abbrev PTP_CTRL_INST : Fld := ⟨PTP_CTRL, 1, 2⟩
abbrev PTP_STAT : Nat := 0x044
abbrev PTP_STAT_SYNCED : Fld := ⟨PTP_STAT, 0, 1⟩
abbrev PTP_STAT_TS_CNT : Fld := ⟨PTP_STAT, 8, 7⟩
abbrev PTP_OFFSET : Nat := 0x048
abbrev PTP_OFFSET_V : Fld := ⟨PTP_OFFSET, 0, 32⟩
abbrev PTP_KP : Nat := 0x04C
abbrev PTP_KP_V : Fld := ⟨PTP_KP, 0, 32⟩
abbrev PTP_KI : Nat := 0x050
abbrev PTP_KI_V : Fld := ⟨PTP_KI, 0, 32⟩
abbrev PTP_LOCK_THR : Nat := 0x054
abbrev PTP_LOCK_THR_V : Fld := ⟨PTP_LOCK_THR, 0, 32⟩
abbrev PTP_STEP_THR : Nat := 0x058
abbrev PTP_STEP_THR_V : Fld := ⟨PTP_STEP_THR, 0, 32⟩
abbrev PTP_TS_INFO : Nat := 0x05C
abbrev PTP_TS_INFO_PORT : Fld := ⟨PTP_TS_INFO, 0, 6⟩
abbrev PTP_TS_INFO_TYPE : Fld := ⟨PTP_TS_INFO, 8, 4⟩
abbrev PTP_TS_INFO_VALID : Fld := ⟨PTP_TS_INFO, 12, 1⟩
abbrev PTP_TS_INFO_SEQ : Fld := ⟨PTP_TS_INFO, 16, 16⟩
abbrev PTP_TS_SEC : Nat := 0x060
abbrev PTP_TS_SEC_V : Fld := ⟨PTP_TS_SEC, 0, 32⟩
abbrev PTP_TS_NS : Nat := 0x064
abbrev PTP_TS_NS_V : Fld := ⟨PTP_TS_NS, 0, 32⟩
abbrev INST_CFG (k : Nat) : Nat := 0x100 + 0x20 * k
abbrev INST_CFG_EN (k : Nat) : Fld := ⟨INST_CFG k, 0, 1⟩
abbrev INST_CFG_EXT (k : Nat) : Fld := ⟨INST_CFG k, 1, 1⟩
abbrev INST_CFG_GM_CAP (k : Nat) : Fld := ⟨INST_CFG k, 2, 1⟩
abbrev INST_CFG_DOMAIN (k : Nat) : Fld := ⟨INST_CFG k, 8, 7⟩
abbrev INST_PORTS (k : Nat) : Nat := 0x104 + 0x20 * k
abbrev INST_PORTS_LO (k : Nat) : Fld := ⟨INST_PORTS k, 0, 2⟩
abbrev INST_PORTS_HI (k : Nat) : Fld := ⟨INST_PORTS k, 3, 28⟩
abbrev INST_SLAVE (k : Nat) : Nat := 0x108 + 0x20 * k
abbrev INST_SLAVE_PORT (k : Nat) : Fld := ⟨INST_SLAVE k, 0, 6⟩
abbrev INST_SLAVE_NONE (k : Nat) : Fld := ⟨INST_SLAVE k, 8, 1⟩
abbrev INST_INTV (k : Nat) : Nat := 0x10C + 0x20 * k
abbrev INST_INTV_SYNC (k : Nat) : Fld := ⟨INST_INTV k, 0, 8⟩
abbrev INST_INTV_PDELAY (k : Nat) : Fld := ⟨INST_INTV k, 8, 8⟩
abbrev INST_INTV_ANNOUNCE (k : Nat) : Fld := ⟨INST_INTV k, 16, 8⟩
abbrev INST_GMID_HI (k : Nat) : Nat := 0x110 + 0x20 * k
abbrev INST_GMID_HI_V (k : Nat) : Fld := ⟨INST_GMID_HI k, 0, 32⟩
abbrev INST_GMID_LO (k : Nat) : Nat := 0x114 + 0x20 * k
abbrev INST_GMID_LO_V (k : Nat) : Fld := ⟨INST_GMID_LO k, 0, 32⟩
abbrev INST_RR (k : Nat) : Nat := 0x118 + 0x20 * k
abbrev INST_RR_V (k : Nat) : Fld := ⟨INST_RR k, 0, 32⟩
abbrev INST_STAT (k : Nat) : Nat := 0x11C + 0x20 * k
abbrev INST_STAT_AS_CAP (k : Nat) : Fld := ⟨INST_STAT k, 0, 1⟩
abbrev PD_DELAY (k : Nat) : Nat := 0x200 + 0x10 * k
abbrev PD_DELAY_V (k : Nat) : Fld := ⟨PD_DELAY k, 0, 26⟩
abbrev PD_DELAY_S (k : Nat) : Nat := 0x3B0 + 0x10 * k
abbrev PD_DELAY_S_V (k : Nat) : Fld := ⟨PD_DELAY_S k, 0, 26⟩
abbrev PD_NRR (k : Nat) : Nat := 0x204 + 0x10 * k
abbrev PD_NRR_V (k : Nat) : Fld := ⟨PD_NRR k, 0, 32⟩
abbrev PD_ASYM (k : Nat) : Nat := 0x208 + 0x10 * k
abbrev PD_ASYM_V (k : Nat) : Fld := ⟨PD_ASYM k, 0, 32⟩
abbrev PD_STAT (k : Nat) : Nat := 0x20C + 0x10 * k
abbrev PD_STAT_AS_CAP (k : Nat) : Fld := ⟨PD_STAT k, 0, 1⟩
abbrev IXP_CTRL : Nat := 0x040
abbrev IXP_CTRL_SRC : Fld := ⟨IXP_CTRL, 0, 2⟩
abbrev IXP_CTRL_SYNC_POL : Fld := ⟨IXP_CTRL, 2, 1⟩
abbrev IXP_CTRL_TWIN_FOLLOW : Fld := ⟨IXP_CTRL, 3, 1⟩
abbrev IXP_CTRL_COMMIT : Fld := ⟨IXP_CTRL, 16, 1⟩
abbrev IXP_CTRL_COMMIT_PEND : Fld := ⟨IXP_CTRL, 17, 1⟩
abbrev IXP_TBL : Nat := 0x044
abbrev IXP_TBL_LEN : Fld := ⟨IXP_TBL, 0, 10⟩
abbrev IXP_TBL_SAFE_IX : Fld := ⟨IXP_TBL, 16, 6⟩
abbrev IXP_ACT : Nat := 0x048
abbrev IXP_ACT_LEN : Fld := ⟨IXP_ACT, 0, 10⟩
abbrev IXP_ACT_SAFE_IX : Fld := ⟨IXP_ACT, 16, 6⟩
abbrev IXP_TBL_CRC : Nat := 0x04C
abbrev IXP_TBL_CRC_V : Fld := ⟨IXP_TBL_CRC, 0, 32⟩
abbrev IXP_STAT : Nat := 0x050
abbrev IXP_STAT_CUR_IX : Fld := ⟨IXP_STAT, 0, 6⟩
abbrev IXP_STAT_MODE : Fld := ⟨IXP_STAT, 8, 2⟩
abbrev IXP_STAT_FROZEN : Fld := ⟨IXP_STAT, 10, 1⟩
abbrev IXP_STAT_SYNC_LOST : Fld := ⟨IXP_STAT, 11, 1⟩
abbrev IXP_STAT_TWIN_LED : Fld := ⟨IXP_STAT, 12, 1⟩
abbrev IXP_CYC : Nat := 0x054
abbrev IXP_CYC_V : Fld := ⟨IXP_CYC, 0, 32⟩
abbrev IXP_ERR : Nat := 0x058
abbrev IXP_ERR_V : Fld := ⟨IXP_ERR, 0, 32⟩
abbrev IXP_CORR : Nat := 0x05C
abbrev IXP_CORR_V : Fld := ⟨IXP_CORR, 0, 32⟩
abbrev IXP_CNT : Nat := 0x060
abbrev IXP_CNT_IGNORED : Fld := ⟨IXP_CNT, 0, 16⟩
abbrev IXP_CNT_REINDEX : Fld := ⟨IXP_CNT, 16, 8⟩
abbrev IXP_CNT_FREERUN : Fld := ⟨IXP_CNT, 24, 8⟩
abbrev IXP_BASE_S : Nat := 0x064
abbrev IXP_BASE_S_V : Fld := ⟨IXP_BASE_S, 0, 32⟩
abbrev IXP_BASE_NS : Nat := 0x068
abbrev IXP_BASE_NS_V : Fld := ⟨IXP_BASE_NS, 0, 32⟩
abbrev IXP_OUT : Nat := 0x06C
abbrev IXP_OUT_EN : Fld := ⟨IXP_OUT, 0, 1⟩
abbrev IXP_OUT_POL : Fld := ⟨IXP_OUT, 1, 1⟩
abbrev IXP_OUT_WIDTH : Fld := ⟨IXP_OUT, 4, 8⟩
abbrev IXP_OUT_IX_SEL : Fld := ⟨IXP_OUT, 16, 6⟩
abbrev IXP_SYNC_S : Nat := 0x070
abbrev IXP_SYNC_S_V : Fld := ⟨IXP_SYNC_S, 0, 32⟩
abbrev IXP_SYNC_NS : Nat := 0x074
abbrev IXP_SYNC_NS_V : Fld := ⟨IXP_SYNC_NS, 0, 32⟩
abbrev SLOT_EDGE_0 : Nat := 0x100
abbrev SLOT_EDGE_0_OFS : Fld := ⟨SLOT_EDGE_0, 0, 26⟩
abbrev SLOT_EDGE (k : Nat) : Nat := 0x100 + 0x4 * k
abbrev SLOT_EDGE_OFS (k : Nat) : Fld := ⟨SLOT_EDGE k, 0, 26⟩
abbrev ACT_EDGE (k : Nat) : Nat := 0x200 + 0x4 * k
abbrev ACT_EDGE_OFS (k : Nat) : Fld := ⟨ACT_EDGE k, 0, 26⟩
abbrev IX_EVT (k : Nat) : Nat := 0x300 + 0x4 * k
abbrev IX_EVT_POS (k : Nat) : Fld := ⟨IX_EVT k, 0, 6⟩
abbrev IX_EVT_EN (k : Nat) : Fld := ⟨IX_EVT k, 8, 1⟩
abbrev IX_EVT_PEND (k : Nat) : Fld := ⟨IX_EVT k, 16, 1⟩
abbrev SWC_CTRL : Nat := 0x040
abbrev SWC_CTRL_HAIRPIN : Fld := ⟨SWC_CTRL, 0, 1⟩
abbrev SWC_CTRL_TW_FALLBACK : Fld := ⟨SWC_CTRL, 1, 1⟩
abbrev SWC_CTRL_LAG_EN : Fld := ⟨SWC_CTRL, 2, 1⟩
abbrev SWC_CTRL_AUTO_FAILOVER : Fld := ⟨SWC_CTRL, 3, 1⟩
abbrev SWC_CTRL_LL_INST : Fld := ⟨SWC_CTRL, 8, 4⟩
abbrev SWC_HASH : Nat := 0x044
abbrev SWC_HASH_L3 : Fld := ⟨SWC_HASH, 0, 1⟩
abbrev SWC_HASH_L4 : Fld := ⟨SWC_HASH, 1, 1⟩
abbrev SWC_HASH_STREAM : Fld := ⟨SWC_HASH, 2, 1⟩
abbrev SWC_COPY : Nat := 0x048
abbrev SWC_COPY_RATE : Fld := ⟨SWC_COPY, 0, 8⟩
abbrev SWC_COPY_BURST : Fld := ⟨SWC_COPY, 16, 8⟩
abbrev SWC_AGE : Nat := 0x04C
abbrev SWC_AGE_SEC : Fld := ⟨SWC_AGE, 0, 16⟩
abbrev SWC_MOVE_TMO : Nat := 0x050
abbrev SWC_MOVE_TMO_US : Fld := ⟨SWC_MOVE_TMO, 0, 16⟩
abbrev SWC_FLT_WILD : Nat := 0x054
abbrev SWC_FLT_WILD_IDX : Fld := ⟨SWC_FLT_WILD, 0, 10⟩
abbrev SWC_FLT_WILD_EN : Fld := ⟨SWC_FLT_WILD, 16, 1⟩
abbrev SWC_STAT : Nat := 0x058
abbrev SWC_STAT_LAG : Fld := ⟨SWC_STAT, 0, 2⟩
abbrev SWC_STAT_FALLBACK : Fld := ⟨SWC_STAT, 2, 1⟩
abbrev SWC_STAT_PENDING : Fld := ⟨SWC_STAT, 8, 8⟩
abbrev CNT_COPY_REF : Nat := 0x060
abbrev CNT_COPY_REF_V : Fld := ⟨CNT_COPY_REF, 0, 32⟩
abbrev CNT_LEARN_REF : Nat := 0x064
abbrev CNT_LEARN_REF_V : Fld := ⟨CNT_LEARN_REF, 0, 32⟩
abbrev CNT_STATION_MOVE : Nat := 0x068
abbrev CNT_STATION_MOVE_V : Fld := ⟨CNT_STATION_MOVE, 0, 32⟩
abbrev CNT_UNK_DROP : Nat := 0x06C
abbrev CNT_UNK_DROP_V : Fld := ⟨CNT_UNK_DROP, 0, 32⟩
abbrev SWC_CNT_CLR : Nat := 0x070
abbrev SWC_CNT_CLR_CLR : Fld := ⟨SWC_CNT_CLR, 0, 1⟩
abbrev LAG_SEL (k : Nat) : Nat := 0x100 + 0x4 * k
abbrev LAG_SEL_MEMBER (k : Nat) : Fld := ⟨LAG_SEL k, 0, 1⟩
abbrev LAG_SEL_ACTIVE (k : Nat) : Fld := ⟨LAG_SEL k, 4, 1⟩
abbrev LAG_SEL_PENDING (k : Nat) : Fld := ⟨LAG_SEL k, 8, 1⟩
abbrev SPL_SEL (k : Nat) : Nat := 0x200 + 0x4 * k
abbrev SPL_SEL_ENGINE (k : Nat) : Fld := ⟨SPL_SEL k, 0, 2⟩
abbrev SPL_SEL_ACTIVE (k : Nat) : Fld := ⟨SPL_SEL k, 4, 2⟩
abbrev SPL_SEL_PENDING (k : Nat) : Fld := ⟨SPL_SEL k, 8, 1⟩
abbrev GWE_SEL (k : Nat) : Nat := 0x300 + 0x4 * k
abbrev GWE_SEL_ENGINE (k : Nat) : Fld := ⟨GWE_SEL k, 0, 2⟩
abbrev GWE_SEL_ACTIVE (k : Nat) : Fld := ⟨GWE_SEL k, 4, 2⟩
abbrev GWE_SEL_PENDING (k : Nat) : Fld := ⟨GWE_SEL k, 8, 1⟩
abbrev TA_CMD : Nat := 0x040
abbrev TA_CMD_OP : Fld := ⟨TA_CMD, 0, 3⟩
abbrev TA_CMD_TBL : Fld := ⟨TA_CMD, 4, 4⟩
abbrev TA_CMD_BUSY : Fld := ⟨TA_CMD, 31, 1⟩
abbrev TA_IDX : Nat := 0x044
abbrev TA_IDX_IDX : Fld := ⟨TA_IDX, 0, 14⟩
abbrev TA_RES : Nat := 0x048
abbrev TA_RES_RESULT : Fld := ⟨TA_RES, 0, 2⟩
abbrev TA_RES_HIT_IDX : Fld := ⟨TA_RES, 16, 14⟩
abbrev TA_COUNT : Nat := 0x04C
abbrev TA_COUNT_V : Fld := ⟨TA_COUNT, 0, 32⟩
abbrev TA_DATA (k : Nat) : Nat := 0x050 + 0x4 * k
abbrev TA_DATA_V (k : Nat) : Fld := ⟨TA_DATA k, 0, 32⟩
abbrev FDB_FLUSH : Nat := 0x080
abbrev FDB_FLUSH_PORT : Fld := ⟨FDB_FLUSH, 0, 6⟩
abbrev FDB_FLUSH_BY_PORT : Fld := ⟨FDB_FLUSH, 8, 1⟩
abbrev FDB_FLUSH_VID : Fld := ⟨FDB_FLUSH, 16, 12⟩
abbrev FDB_FLUSH_BY_VID : Fld := ⟨FDB_FLUSH, 28, 1⟩
abbrev FDB_FLUSH_DYN_ONLY : Fld := ⟨FDB_FLUSH, 29, 1⟩
abbrev MIRR_CTRL : Nat := 0x040
abbrev MIRR_CTRL_EN : Fld := ⟨MIRR_CTRL, 0, 1⟩
abbrev MIRR_CTRL_DEST_EXT : Fld := ⟨MIRR_CTRL, 1, 1⟩
abbrev MIRR_CTRL_INST : Fld := ⟨MIRR_CTRL, 4, 4⟩
abbrev MIRR_CTRL_PORT : Fld := ⟨MIRR_CTRL, 8, 6⟩
abbrev MIRR_CTRL_VID : Fld := ⟨MIRR_CTRL, 16, 12⟩
abbrev MIRR_TRUNC : Nat := 0x044
abbrev MIRR_TRUNC_LEN : Fld := ⟨MIRR_TRUNC, 0, 14⟩
abbrev MIRR_ING_LO : Nat := 0x048
abbrev MIRR_ING_LO_MASK : Fld := ⟨MIRR_ING_LO, 0, 32⟩
abbrev MIRR_ING_HI : Nat := 0x04C
abbrev MIRR_ING_HI_MASK : Fld := ⟨MIRR_ING_HI, 0, 1⟩
abbrev MIRR_EGR_LO : Nat := 0x050
abbrev MIRR_EGR_LO_MASK : Fld := ⟨MIRR_EGR_LO, 0, 32⟩
abbrev MIRR_EGR_HI : Nat := 0x054
abbrev MIRR_EGR_HI_MASK : Fld := ⟨MIRR_EGR_HI, 0, 1⟩
abbrev MIRR_CNT_OK : Nat := 0x058
abbrev MIRR_CNT_OK_V : Fld := ⟨MIRR_CNT_OK, 0, 32⟩
abbrev MIRR_CNT_DROP : Nat := 0x05C
abbrev MIRR_CNT_DROP_V : Fld := ⟨MIRR_CNT_DROP, 0, 32⟩
abbrev PORT_CTRL : Nat := 0x040
abbrev PORT_CTRL_LEARN : Fld := ⟨PORT_CTRL, 0, 1⟩
abbrev PORT_CTRL_ACCEPT : Fld := ⟨PORT_CTRL, 1, 2⟩
abbrev PORT_CTRL_ING_FILT : Fld := ⟨PORT_CTRL, 3, 1⟩
abbrev PORT_CTRL_TRUST : Fld := ⟨PORT_CTRL, 4, 2⟩
abbrev PORT_CTRL_DEF_PCP : Fld := ⟨PORT_CTRL, 6, 3⟩
abbrev PORT_CTRL_PVID : Fld := ⟨PORT_CTRL, 16, 12⟩
abbrev PORT_CTRL_SPEED : Fld := ⟨PORT_CTRL, 28, 2⟩
abbrev PORT_STAT : Nat := 0x044
abbrev PORT_STAT_LINK : Fld := ⟨PORT_STAT, 0, 1⟩
abbrev PORT_STAT_SPEED : Fld := ⟨PORT_STAT, 1, 3⟩
abbrev PORT_MAXLEN : Nat := 0x048
abbrev PORT_MAXLEN_LEN : Fld := ⟨PORT_MAXLEN, 0, 14⟩
abbrev PORT_PCP_MAP : Nat := 0x04C
abbrev PORT_PCP_MAP_MAP : Fld := ⟨PORT_PCP_MAP, 0, 24⟩
abbrev PORT_TS : Nat := 0x050
abbrev PORT_TS_ONE_STEP : Fld := ⟨PORT_TS, 0, 1⟩
abbrev PORT_ING_LAT : Nat := 0x054
abbrev PORT_ING_LAT_V : Fld := ⟨PORT_ING_LAT, 0, 32⟩
abbrev PORT_EGR_LAT : Nat := 0x058
abbrev PORT_EGR_LAT_V : Fld := ⟨PORT_EGR_LAT, 0, 32⟩
abbrev PORT_PRE : Nat := 0x05C
abbrev PORT_PRE_EN : Fld := ⟨PORT_PRE, 0, 1⟩
abbrev PORT_PRE_VERIFY_DIS : Fld := ⟨PORT_PRE, 1, 1⟩
abbrev PORT_PRE_ADD_FRAG : Fld := ⟨PORT_PRE, 2, 2⟩
abbrev PORT_PRE_EXPRESS : Fld := ⟨PORT_PRE, 8, 8⟩
abbrev PORT_PRE_VERIFY_TIME : Fld := ⟨PORT_PRE, 16, 7⟩
abbrev PORT_PRE_STATUS : Fld := ⟨PORT_PRE, 24, 2⟩
abbrev PORT_PHY_CTRL : Nat := 0x060
abbrev PORT_PHY_CTRL_MASTER : Fld := ⟨PORT_PHY_CTRL, 0, 1⟩
abbrev PORT_PHY_CTRL_LOOPBACK : Fld := ⟨PORT_PHY_CTRL, 1, 1⟩
abbrev PORT_PHY_CTRL_PLCA_ID : Fld := ⟨PORT_PHY_CTRL, 8, 8⟩
abbrev PORT_PHY_CTRL_PLCA_CNT : Fld := ⟨PORT_PHY_CTRL, 16, 8⟩
abbrev PORT_PHY_CTRL_PLCA_EN : Fld := ⟨PORT_PHY_CTRL, 24, 1⟩
abbrev PORT_PHY_PLCA : Nat := 0x064
abbrev PORT_PHY_PLCA_TO_TIMER : Fld := ⟨PORT_PHY_PLCA, 0, 8⟩
abbrev PORT_PHY_PLCA_BURST_CNT : Fld := ⟨PORT_PHY_PLCA, 8, 8⟩
abbrev PORT_PHY_PLCA_BURST_TMR : Fld := ⟨PORT_PHY_PLCA, 16, 8⟩
abbrev PORT_PHY_STAT : Nat := 0x068
abbrev PORT_PHY_STAT_LINK : Fld := ⟨PORT_PHY_STAT, 0, 1⟩
abbrev PORT_PHY_STAT_PLCA : Fld := ⟨PORT_PHY_STAT, 1, 1⟩
abbrev PORT_PHY_STAT_SQI : Fld := ⟨PORT_PHY_STAT, 8, 3⟩
abbrev CNT_RX_OK : Nat := 0x080
abbrev CNT_RX_OK_V : Fld := ⟨CNT_RX_OK, 0, 32⟩
abbrev CNT_RX_OCT_L : Nat := 0x084
abbrev CNT_RX_OCT_L_V : Fld := ⟨CNT_RX_OCT_L, 0, 32⟩
abbrev CNT_RX_OCT_H : Nat := 0x088
abbrev CNT_RX_OCT_H_V : Fld := ⟨CNT_RX_OCT_H, 0, 32⟩
abbrev CNT_RX_FCS : Nat := 0x08C
abbrev CNT_RX_FCS_V : Fld := ⟨CNT_RX_FCS, 0, 32⟩
abbrev CNT_RX_RUNT : Nat := 0x090
abbrev CNT_RX_RUNT_V : Fld := ⟨CNT_RX_RUNT, 0, 32⟩
abbrev CNT_RX_LONG : Nat := 0x094
abbrev CNT_RX_LONG_V : Fld := ⟨CNT_RX_LONG, 0, 32⟩
abbrev CNT_RX_FILT : Nat := 0x098
abbrev CNT_RX_FILT_V : Fld := ⟨CNT_RX_FILT, 0, 32⟩
abbrev CNT_RX_ASM : Nat := 0x09C
abbrev CNT_RX_ASM_V : Fld := ⟨CNT_RX_ASM, 0, 32⟩
abbrev CNT_TX_OK : Nat := 0x0A0
abbrev CNT_TX_OK_V : Fld := ⟨CNT_TX_OK, 0, 32⟩
abbrev CNT_TX_OCT_L : Nat := 0x0A4
abbrev CNT_TX_OCT_L_V : Fld := ⟨CNT_TX_OCT_L, 0, 32⟩
abbrev CNT_TX_OCT_H : Nat := 0x0A8
abbrev CNT_TX_OCT_H_V : Fld := ⟨CNT_TX_OCT_H, 0, 32⟩
abbrev CNT_TX_FRAG : Nat := 0x0AC
abbrev CNT_TX_FRAG_V : Fld := ⟨CNT_TX_FRAG, 0, 32⟩
abbrev CNT_TX_LINKDROP : Nat := 0x0B0
abbrev CNT_TX_LINKDROP_V : Fld := ⟨CNT_TX_LINKDROP, 0, 32⟩
abbrev CNT_COPY_DROP : Nat := 0x0B4
abbrev CNT_COPY_DROP_V : Fld := ⟨CNT_COPY_DROP, 0, 32⟩
abbrev PORT_CNT_CLR : Nat := 0x0B8
abbrev PORT_CNT_CLR_CLR : Fld := ⟨PORT_CNT_CLR, 0, 1⟩
abbrev DSCP_MAP (k : Nat) : Nat := 0x100 + 0x4 * k
abbrev DSCP_MAP_MAP (k : Nat) : Fld := ⟨DSCP_MAP k, 0, 24⟩
abbrev BUF_CTRL : Nat := 0x080
abbrev BUF_CTRL_PUSH_MIN : Fld := ⟨BUF_CTRL, 0, 3⟩
abbrev BUF_FREE : Nat := 0x084
abbrev BUF_FREE_V : Fld := ⟨BUF_FREE, 0, 16⟩
abbrev BUF_POOL : Nat := 0x088
abbrev BUF_POOL_RSV : Fld := ⟨BUF_POOL, 0, 16⟩
abbrev BUF_POOL_HEAD : Fld := ⟨BUF_POOL, 16, 16⟩
abbrev BUF_SPILL : Nat := 0x08C
abbrev BUF_SPILL_BASE : Fld := ⟨BUF_SPILL, 0, 10⟩
abbrev BUF_SPILL_SIZE : Fld := ⟨BUF_SPILL, 16, 5⟩
abbrev BUF_SPILL_EN : Fld := ⟨BUF_SPILL, 31, 1⟩
abbrev BUF_PFC_GLB : Nat := 0x090
abbrev BUF_PFC_GLB_XOFF : Fld := ⟨BUF_PFC_GLB, 0, 16⟩
abbrev BUF_PFC_GLB_XON : Fld := ⟨BUF_PFC_GLB, 16, 16⟩
abbrev BUF_WRED_SEED : Nat := 0x094
abbrev BUF_WRED_SEED_V : Fld := ⟨BUF_WRED_SEED, 0, 32⟩
abbrev BUF_GCL : Nat := 0x098
abbrev BUF_GCL_COMMIT : Fld := ⟨BUF_GCL, 0, 1⟩
abbrev BUF_CNT_PUSH : Nat := 0x09C
abbrev BUF_CNT_PUSH_V : Fld := ⟨BUF_CNT_PUSH, 0, 32⟩
abbrev BUF_CNT_CRC : Nat := 0x0A0
abbrev BUF_CNT_CRC_V : Fld := ⟨BUF_CNT_CRC, 0, 32⟩
abbrev SPL_BW : Nat := 0x040
abbrev SPL_BW_WR : Fld := ⟨SPL_BW, 0, 7⟩
abbrev SPL_BW_RD : Fld := ⟨SPL_BW, 8, 7⟩
abbrev SPL_STAT : Nat := 0x044
abbrev SPL_STAT_HELD : Fld := ⟨SPL_STAT, 0, 24⟩
abbrev SPL_STAT_FULL : Fld := ⟨SPL_STAT, 31, 1⟩
abbrev SPL_PEAK : Nat := 0x048
abbrev SPL_PEAK_V : Fld := ⟨SPL_PEAK, 0, 24⟩
abbrev SPL_CNT_WR : Nat := 0x04C
abbrev SPL_CNT_WR_V : Fld := ⟨SPL_CNT_WR, 0, 32⟩
abbrev SPL_CNT_RD : Nat := 0x050
abbrev SPL_CNT_RD_V : Fld := ⟨SPL_CNT_RD, 0, 32⟩
abbrev SPL_CNT_BWREF : Nat := 0x054
abbrev SPL_CNT_BWREF_V : Fld := ⟨SPL_CNT_BWREF, 0, 32⟩
abbrev SPL_CNT_FULL : Nat := 0x058
abbrev SPL_CNT_FULL_V : Fld := ⟨SPL_CNT_FULL, 0, 32⟩
abbrev SPL_CNT_ECC : Nat := 0x05C
abbrev SPL_CNT_ECC_V : Fld := ⟨SPL_CNT_ECC, 0, 32⟩
abbrev SPL_CNT_CLR : Nat := 0x060
abbrev SPL_CNT_CLR_CLR : Fld := ⟨SPL_CNT_CLR, 0, 1⟩
abbrev HIN_CTRL : Nat := 0x040
abbrev HIN_CTRL_DIRECT_OK : Fld := ⟨HIN_CTRL, 1, 1⟩
abbrev HIN_CTRL_TX_WEIGHT : Fld := ⟨HIN_CTRL, 8, 4⟩
abbrev HIN_RX_MAP : Nat := 0x044
abbrev HIN_RX_MAP_MAP : Fld := ⟨HIN_RX_MAP, 0, 16⟩
abbrev HIN_TX_RATE : Nat := 0x048
abbrev HIN_TX_RATE_RATE : Fld := ⟨HIN_TX_RATE, 0, 28⟩
abbrev HIN_STAT : Nat := 0x04C
abbrev HIN_STAT_HALT : Fld := ⟨HIN_STAT, 0, 8⟩
abbrev RING_BASE_LO (k : Nat) : Nat := 0x100 + 0x20 * k
abbrev RING_BASE_LO_ADDR (k : Nat) : Fld := ⟨RING_BASE_LO k, 5, 27⟩
abbrev RING_BASE_HI (k : Nat) : Nat := 0x104 + 0x20 * k
abbrev RING_BASE_HI_ADDR (k : Nat) : Fld := ⟨RING_BASE_HI k, 0, 8⟩
abbrev RING_SIZE (k : Nat) : Nat := 0x108 + 0x20 * k
abbrev RING_SIZE_N (k : Nat) : Fld := ⟨RING_SIZE k, 0, 3⟩
abbrev RING_HEAD (k : Nat) : Nat := 0x10C + 0x20 * k
abbrev RING_HEAD_V (k : Nat) : Fld := ⟨RING_HEAD k, 0, 12⟩
abbrev RING_TAIL (k : Nat) : Nat := 0x110 + 0x20 * k
abbrev RING_TAIL_V (k : Nat) : Fld := ⟨RING_TAIL k, 0, 12⟩
abbrev RING_CTRL (k : Nat) : Nat := 0x114 + 0x20 * k
abbrev RING_CTRL_EN (k : Nat) : Fld := ⟨RING_CTRL k, 0, 1⟩
abbrev RING_IMOD (k : Nat) : Nat := 0x118 + 0x20 * k
abbrev RING_IMOD_COUNT (k : Nat) : Fld := ⟨RING_IMOD k, 0, 8⟩
abbrev RING_IMOD_TIMER (k : Nat) : Fld := ⟨RING_IMOD k, 8, 16⟩
abbrev RING_STAT (k : Nat) : Nat := 0x11C + 0x20 * k
abbrev RING_STAT_HALT (k : Nat) : Fld := ⟨RING_STAT k, 0, 1⟩
abbrev RING_STAT_IRQ (k : Nat) : Fld := ⟨RING_STAT k, 1, 1⟩
abbrev RING_STAT_DROP (k : Nat) : Fld := ⟨RING_STAT k, 16, 16⟩
abbrev CX_CTRL : Nat := 0x040
abbrev CX_CTRL_INIT : Fld := ⟨CX_CTRL, 0, 1⟩
abbrev CX_CTRL_MODE : Fld := ⟨CX_CTRL, 1, 2⟩
abbrev CX_CTRL_DAR : Fld := ⟨CX_CTRL, 3, 1⟩
abbrev CX_CTRL_BO_AUTO : Fld := ⟨CX_CTRL, 4, 1⟩
abbrev CX_CTRL_BO_RECOVER : Fld := ⟨CX_CTRL, 5, 1⟩
abbrev CX_CTRL_SELF_RX : Fld := ⟨CX_CTRL, 6, 1⟩
abbrev CX_CTRL_FD_EN : Fld := ⟨CX_CTRL, 7, 1⟩
abbrev CX_CTRL_XL_EN : Fld := ⟨CX_CTRL, 8, 1⟩
abbrev CX_NBT : Nat := 0x044
abbrev CX_NBT_NBRP : Fld := ⟨CX_NBT, 0, 6⟩
abbrev CX_NBT_NTSEG1 : Fld := ⟨CX_NBT, 8, 8⟩
abbrev CX_NBT_NTSEG2 : Fld := ⟨CX_NBT, 16, 7⟩
abbrev CX_NBT_NSJW : Fld := ⟨CX_NBT, 24, 7⟩
abbrev CX_DBT : Nat := 0x048
abbrev CX_DBT_DBRP : Fld := ⟨CX_DBT, 0, 4⟩
abbrev CX_DBT_DTSEG1 : Fld := ⟨CX_DBT, 8, 5⟩
abbrev CX_DBT_DTSEG2 : Fld := ⟨CX_DBT, 16, 4⟩
abbrev CX_DBT_DSJW : Fld := ⟨CX_DBT, 24, 4⟩
abbrev CX_TDC : Nat := 0x04C
abbrev CX_TDC_EN : Fld := ⟨CX_TDC, 0, 1⟩
abbrev CX_TDC_OFS : Fld := ⟨CX_TDC, 8, 10⟩
abbrev CX_TDC_MIN : Fld := ⟨CX_TDC, 20, 8⟩
abbrev CX_XL : Nat := 0x050
abbrev CX_XL_TMS : Fld := ⟨CX_XL, 0, 1⟩
abbrev CX_XL_ERRS : Fld := ⟨CX_XL, 1, 1⟩
abbrev CX_XL_PWMS : Fld := ⟨CX_XL, 8, 6⟩
abbrev CX_XL_PWML : Fld := ⟨CX_XL, 16, 6⟩
abbrev CX_XL_PWMO : Fld := ⟨CX_XL, 24, 6⟩
abbrev CX_XCVR : Nat := 0x054
abbrev CX_XCVR_XC : Fld := ⟨CX_XCVR, 0, 2⟩
abbrev CX_XCVR_WAKE_EN : Fld := ⟨CX_XCVR, 4, 1⟩
abbrev CX_XCVR_STB : Fld := ⟨CX_XCVR, 8, 1⟩
abbrev CX_STAT : Nat := 0x058
abbrev CX_STAT_ST : Fld := ⟨CX_STAT, 0, 2⟩
abbrev CX_STAT_WARN : Fld := ⟨CX_STAT, 2, 1⟩
abbrev CX_STAT_IDLE : Fld := ⟨CX_STAT, 3, 1⟩
abbrev CX_STAT_XCVR_LOST : Fld := ⟨CX_STAT, 4, 1⟩
abbrev CX_STAT_TDC_VALID : Fld := ⟨CX_STAT, 5, 1⟩
abbrev CX_ECNT : Nat := 0x05C
abbrev CX_ECNT_TEC : Fld := ⟨CX_ECNT, 0, 9⟩
abbrev CX_ECNT_REC : Fld := ⟨CX_ECNT, 16, 8⟩
abbrev CX_PSR : Nat := 0x060
abbrev CX_PSR_LEC : Fld := ⟨CX_PSR, 0, 3⟩
abbrev CX_PSR_DLEC : Fld := ⟨CX_PSR, 4, 3⟩
abbrev CX_TDC_VAL : Nat := 0x064
abbrev CX_TDC_VAL_V : Fld := ⟨CX_TDC_VAL, 0, 10⟩
abbrev CX_WIN_SEL : Nat := 0x068
abbrev CX_WIN_SEL_OBJ : Fld := ⟨CX_WIN_SEL, 0, 7⟩
abbrev CX_OBJ_REL : Nat := 0x06C
abbrev CX_OBJ_REL_OBJ : Fld := ⟨CX_OBJ_REL, 0, 7⟩
abbrev CX_OBJ_REL_NEW : Fld := ⟨CX_OBJ_REL, 8, 1⟩
abbrev CX_OBJ_REL_LOST : Fld := ⟨CX_OBJ_REL, 9, 1⟩
abbrev CX_WIN_XL : Nat := 0x070
abbrev CX_WIN_XL_SDT : Fld := ⟨CX_WIN_XL, 0, 8⟩
abbrev CX_WIN_XL_VCID : Fld := ⟨CX_WIN_XL, 8, 8⟩
abbrev CX_WIN_XL_SEC : Fld := ⟨CX_WIN_XL, 16, 1⟩
abbrev CX_WIN_AF : Nat := 0x074
abbrev CX_WIN_AF_V : Fld := ⟨CX_WIN_AF, 0, 32⟩
abbrev CX_WIN_TS_S : Nat := 0x078
abbrev CX_WIN_TS_S_V : Fld := ⟨CX_WIN_TS_S, 0, 32⟩
abbrev CX_WIN_TS_NS : Nat := 0x07C
abbrev CX_WIN_TS_NS_V : Fld := ⟨CX_WIN_TS_NS, 0, 32⟩
abbrev CX_REF_CTRL : Nat := 0x080
abbrev CX_REF_CTRL_EN : Fld := ⟨CX_REF_CTRL, 0, 1⟩
abbrev CX_REF_CTRL_HS_ONLY : Fld := ⟨CX_REF_CTRL, 1, 1⟩
abbrev CX_REF_CTRL_IDE : Fld := ⟨CX_REF_CTRL, 2, 1⟩
abbrev CX_REF_ID : Nat := 0x084
abbrev CX_REF_ID_ID : Fld := ⟨CX_REF_ID, 0, 29⟩
abbrev CX_REF_POS_LO : Nat := 0x088
abbrev CX_REF_POS_LO_MASK : Fld := ⟨CX_REF_POS_LO, 0, 32⟩
abbrev CX_REF_POS_HI : Nat := 0x08C
abbrev CX_REF_POS_HI_MASK : Fld := ⟨CX_REF_POS_HI, 0, 32⟩
abbrev CX_REF_GUARD : Nat := 0x090
abbrev CX_REF_GUARD_US : Fld := ⟨CX_REF_GUARD, 0, 16⟩
abbrev CX_REF_CNT : Nat := 0x094
abbrev CX_REF_CNT_SENT : Fld := ⟨CX_REF_CNT, 0, 16⟩
abbrev CX_REF_CNT_LATE : Fld := ⟨CX_REF_CNT, 16, 8⟩
abbrev CX_REF_CNT_DROP : Fld := ⟨CX_REF_CNT, 24, 8⟩
abbrev CX_CNT_RX : Nat := 0x098
abbrev CX_CNT_RX_V : Fld := ⟨CX_CNT_RX, 0, 32⟩
abbrev CX_CNT_TX : Nat := 0x09C
abbrev CX_CNT_TX_V : Fld := ⟨CX_CNT_TX, 0, 32⟩
abbrev CX_CNT_TDC_MISS : Nat := 0x0A0
abbrev CX_CNT_TDC_MISS_V : Fld := ⟨CX_CNT_TDC_MISS, 0, 32⟩
abbrev OBJ_ID (k : Nat) : Nat := 0x100 + 0xC * k
abbrev OBJ_ID_ID (k : Nat) : Fld := ⟨OBJ_ID k, 0, 29⟩
abbrev OBJ_ID_IDE (k : Nat) : Fld := ⟨OBJ_ID k, 29, 1⟩
abbrev OBJ_ID_FMT (k : Nat) : Fld := ⟨OBJ_ID k, 30, 2⟩
abbrev OBJ_MASK (k : Nat) : Nat := 0x104 + 0xC * k
abbrev OBJ_MASK_V (k : Nat) : Fld := ⟨OBJ_MASK k, 0, 32⟩
abbrev OBJ_CTRL (k : Nat) : Nat := 0x108 + 0xC * k
abbrev OBJ_CTRL_TYPE (k : Nat) : Fld := ⟨OBJ_CTRL k, 0, 2⟩
abbrev OBJ_CTRL_GW (k : Nat) : Fld := ⟨OBJ_CTRL k, 2, 1⟩
abbrev OBJ_CTRL_GWE (k : Nat) : Fld := ⟨OBJ_CTRL k, 3, 2⟩
abbrev OBJ_CTRL_OVERWRITE (k : Nat) : Fld := ⟨OBJ_CTRL k, 5, 1⟩
abbrev OBJ_CTRL_CAP (k : Nat) : Fld := ⟨OBJ_CTRL k, 6, 2⟩
abbrev OBJ_CTRL_BRS (k : Nat) : Fld := ⟨OBJ_CTRL k, 8, 1⟩
abbrev OBJ_CTRL_TXRQ (k : Nat) : Fld := ⟨OBJ_CTRL k, 9, 1⟩
abbrev OBJ_CTRL_CANCEL (k : Nat) : Fld := ⟨OBJ_CTRL k, 10, 1⟩
abbrev OBJ_CTRL_STATUS (k : Nat) : Fld := ⟨OBJ_CTRL k, 12, 4⟩
abbrev OBJ_CTRL_LEN (k : Nat) : Fld := ⟨OBJ_CTRL k, 16, 12⟩
abbrev OBJ_CTRL_NEW (k : Nat) : Fld := ⟨OBJ_CTRL k, 28, 1⟩
abbrev OBJ_CTRL_LOST (k : Nat) : Fld := ⟨OBJ_CTRL k, 29, 1⟩
abbrev CX_DATA (k : Nat) : Nat := 0x700 + 0x4 * k
abbrev CX_DATA_V (k : Nat) : Fld := ⟨CX_DATA k, 0, 32⟩
abbrev LN_CTRL : Nat := 0x040
abbrev LN_CTRL_EN : Fld := ⟨LN_CTRL, 0, 1⟩
abbrev LN_CTRL_MASTER : Fld := ⟨LN_CTRL, 1, 1⟩
abbrev LN_CTRL_WAKE_TX : Fld := ⟨LN_CTRL, 2, 1⟩
abbrev LN_CTRL_SCH_SEL : Fld := ⟨LN_CTRL, 3, 1⟩
abbrev LN_CTRL_BRK : Fld := ⟨LN_CTRL, 8, 5⟩
abbrev LN_BAUD : Nat := 0x044
abbrev LN_BAUD_V : Fld := ⟨LN_BAUD, 0, 16⟩
abbrev LN_STAT : Nat := 0x048
abbrev LN_STAT_STUCK : Fld := ⟨LN_STAT, 0, 1⟩
abbrev LN_STAT_XCVR_LOST : Fld := ⟨LN_STAT, 1, 1⟩
abbrev LN_STAT_OVF : Fld := ⟨LN_STAT, 8, 8⟩
abbrev LN_ERR : Nat := 0x04C
abbrev LN_ERR_BIT : Fld := ⟨LN_ERR, 0, 8⟩
abbrev LN_ERR_CHK : Fld := ⟨LN_ERR, 8, 8⟩
abbrev LN_ERR_FRAMING : Fld := ⟨LN_ERR, 16, 8⟩
abbrev LN_ERR_NORESP : Fld := ⟨LN_ERR, 24, 8⟩
abbrev LN_RX_ID : Nat := 0x050
abbrev LN_RX_ID_ID : Fld := ⟨LN_RX_ID, 0, 6⟩
abbrev LN_RX_ID_LEN : Fld := ⟨LN_RX_ID, 8, 4⟩
abbrev LN_RX_ID_VALID : Fld := ⟨LN_RX_ID, 12, 1⟩
abbrev LN_RX_D0 : Nat := 0x054
abbrev LN_RX_D0_V : Fld := ⟨LN_RX_D0, 0, 32⟩
abbrev LN_RX_POP : Nat := 0x058
abbrev LN_RX_POP_V : Fld := ⟨LN_RX_POP, 0, 32⟩
abbrev LN_SCH (k : Nat) : Nat := 0x100 + 0x8 * k
abbrev LN_SCH_ID (k : Nat) : Fld := ⟨LN_SCH k, 0, 6⟩
abbrev LN_SCH_TYPE (k : Nat) : Fld := ⟨LN_SCH k, 8, 2⟩
abbrev LN_SCH_MSEND (k : Nat) : Fld := ⟨LN_SCH k, 10, 1⟩
abbrev LN_SCH_ENH (k : Nat) : Fld := ⟨LN_SCH k, 11, 1⟩
abbrev LN_SCH_LEN (k : Nat) : Fld := ⟨LN_SCH k, 12, 4⟩
abbrev LN_SCHP (k : Nat) : Nat := 0x104 + 0x8 * k
abbrev LN_SCHP_POS (k : Nat) : Fld := ⟨LN_SCHP k, 0, 6⟩
abbrev LN_SCHP_DIV (k : Nat) : Fld := ⟨LN_SCHP k, 8, 8⟩
abbrev LN_SCHP_VALID (k : Nat) : Fld := ⟨LN_SCHP k, 16, 1⟩
abbrev LN_SCHP_COLL (k : Nat) : Fld := ⟨LN_SCHP k, 17, 1⟩
abbrev LN_RSP (k : Nat) : Nat := 0x300 + 0xC * k
abbrev LN_RSP_ID (k : Nat) : Fld := ⟨LN_RSP k, 0, 6⟩
abbrev LN_RSP_LEN (k : Nat) : Fld := ⟨LN_RSP k, 8, 4⟩
abbrev LN_RSP_ENH (k : Nat) : Fld := ⟨LN_RSP k, 12, 1⟩
abbrev LN_RSP_VALID (k : Nat) : Fld := ⟨LN_RSP k, 13, 1⟩
abbrev LN_RSP_D0 (k : Nat) : Nat := 0x304 + 0xC * k
abbrev LN_RSP_D0_V (k : Nat) : Fld := ⟨LN_RSP_D0 k, 0, 32⟩
abbrev LN_RSP_D1 (k : Nat) : Nat := 0x308 + 0xC * k
abbrev LN_RSP_D1_V (k : Nat) : Fld := ⟨LN_RSP_D1 k, 0, 32⟩
abbrev GWC_CTRL : Nat := 0x090
abbrev GWC_CTRL_EN : Fld := ⟨GWC_CTRL, 0, 4⟩
abbrev GWC_BUSMAP (k : Nat) : Nat := 0x094 + 0x4 * k
abbrev GWC_BUSMAP_LO (k : Nat) : Fld := ⟨GWC_BUSMAP k, 0, 5⟩
abbrev GWC_BUSMAP_HI (k : Nat) : Fld := ⟨GWC_BUSMAP k, 16, 5⟩
abbrev GWC_CAP : Nat := 0x0BC
abbrev GWC_CAP_MB_RP0 : Fld := ⟨GWC_CAP, 0, 5⟩
abbrev GWC_CAP_MB_RP1 : Fld := ⟨GWC_CAP, 8, 5⟩
abbrev GWC_CAP_MB_REPLY : Fld := ⟨GWC_CAP, 16, 5⟩
abbrev GWC_CAP_REPLY_ENG : Fld := ⟨GWC_CAP, 24, 2⟩
abbrev GWC_CAP_REPLY_STR : Fld := ⟨GWC_CAP, 26, 6⟩
abbrev GWC_CNT_NOROUTE : Nat := 0x0C0
abbrev GWC_CNT_NOROUTE_V : Fld := ⟨GWC_CNT_NOROUTE, 0, 32⟩
abbrev GWC_CNT_ACF_UNK : Nat := 0x0C4
abbrev GWC_CNT_ACF_UNK_V : Fld := ⟨GWC_CNT_ACF_UNK, 0, 32⟩
abbrev GWC_CNT_CAP_DROP : Nat := 0x0C8
abbrev GWC_CNT_CAP_DROP_V : Fld := ⟨GWC_CNT_CAP_DROP, 0, 32⟩
abbrev PEG_STAT : Nat := 0x040
abbrev PEG_STAT_QUEUE : Fld := ⟨PEG_STAT, 0, 9⟩
abbrev PEG_STAT_LAT : Fld := ⟨PEG_STAT, 16, 16⟩
abbrev PEG_CNT_IN : Nat := 0x044
abbrev PEG_CNT_IN_V : Fld := ⟨PEG_CNT_IN, 0, 32⟩
abbrev PEG_CNT_OUT : Nat := 0x048
abbrev PEG_CNT_OUT_V : Fld := ⟨PEG_CNT_OUT, 0, 32⟩
abbrev PEG_CNT_OVF : Nat := 0x04C
abbrev PEG_CNT_OVF_V : Fld := ⟨PEG_CNT_OVF, 0, 32⟩
abbrev PEG_CNT_CLR : Nat := 0x050
abbrev PEG_CNT_CLR_CLR : Fld := ⟨PEG_CNT_CLR, 0, 1⟩
abbrev LSW_CTRL : Nat := 0x040
abbrev LSW_CTRL_ARM : Fld := ⟨LSW_CTRL, 0, 1⟩
abbrev LSW_CTRL_SRC : Fld := ⟨LSW_CTRL, 1, 1⟩
abbrev LSW_CTRL_ON_REQ : Fld := ⟨LSW_CTRL, 2, 1⟩
abbrev LSW_CTRL_OFF_MODE : Fld := ⟨LSW_CTRL, 3, 1⟩
abbrev LSW_CTRL_SLOW_OK : Fld := ⟨LSW_CTRL, 4, 1⟩
abbrev LSW_CTRL_DUAL : Fld := ⟨LSW_CTRL, 5, 1⟩
abbrev LSW_CTRL_OL_EN : Fld := ⟨LSW_CTRL, 6, 1⟩
abbrev LSW_CTRL_PRIO : Fld := ⟨LSW_CTRL, 8, 3⟩
abbrev LSW_CTRL_CLR_FAULT : Fld := ⟨LSW_CTRL, 16, 1⟩
abbrev LSW_STAT : Nat := 0x044
abbrev LSW_STAT_ON : Fld := ⟨LSW_STAT, 0, 1⟩
abbrev LSW_STAT_FAULT : Fld := ⟨LSW_STAT, 1, 1⟩
abbrev LSW_STAT_CLAMP_LOCK : Fld := ⟨LSW_STAT, 2, 1⟩
abbrev LSW_STAT_REV_BLOCK : Fld := ⟨LSW_STAT, 3, 1⟩
abbrev LSW_STAT_OPEN : Fld := ⟨LSW_STAT, 4, 1⟩
abbrev LSW_STAT_SHORT_BAT : Fld := ⟨LSW_STAT, 5, 1⟩
abbrev LSW_STAT_REGULATING : Fld := ⟨LSW_STAT, 6, 1⟩
abbrev LSW_STAT_CAUSE : Fld := ⟨LSW_STAT, 8, 4⟩
abbrev LSW_STAT_WAIT_POS : Fld := ⟨LSW_STAT, 16, 16⟩
abbrev LSW_PROF : Nat := 0x048
abbrev LSW_PROF_PROF : Fld := ⟨LSW_PROF, 0, 2⟩
abbrev LSW_PROF_INR_PEAK : Fld := ⟨LSW_PROF, 8, 8⟩
abbrev LSW_PROF_INR_TIME : Fld := ⟨LSW_PROF, 16, 16⟩
abbrev LSW_PROT : Nat := 0x04C
abbrev LSW_PROT_ISC : Fld := ⟨LSW_PROT, 0, 8⟩
abbrev LSW_PROT_ILIM : Fld := ⟨LSW_PROT, 8, 8⟩
abbrev LSW_PROT_TLIM : Fld := ⟨LSW_PROT, 16, 8⟩
abbrev LSW_PROT_BLANK : Fld := ⟨LSW_PROT, 24, 8⟩
abbrev LSW_I2T : Nat := 0x050
abbrev LSW_I2T_WIRE : Fld := ⟨LSW_I2T, 0, 4⟩
abbrev LSW_I2T_ICONT : Fld := ⟨LSW_I2T, 8, 8⟩
abbrev LSW_I2T_TAU : Fld := ⟨LSW_I2T, 16, 16⟩
abbrev LSW_I2T_STAT : Nat := 0x054
abbrev LSW_I2T_STAT_LOAD : Fld := ⟨LSW_I2T_STAT, 0, 16⟩
abbrev LSW_CLAMP : Nat := 0x058
abbrev LSW_CLAMP_BUDGET : Fld := ⟨LSW_CLAMP, 0, 16⟩
abbrev LSW_CLAMP_TAU_C : Fld := ⟨LSW_CLAMP, 16, 8⟩
abbrev LSW_CLAMP_SLOW_T : Fld := ⟨LSW_CLAMP, 24, 8⟩
abbrev LSW_CLAMP_ACC : Nat := 0x05C
abbrev LSW_CLAMP_ACC_ACC : Fld := ⟨LSW_CLAMP_ACC, 0, 24⟩
abbrev LSW_CLAMP_LAST : Nat := 0x060
abbrev LSW_CLAMP_LAST_V : Fld := ⟨LSW_CLAMP_LAST, 0, 32⟩
abbrev LSW_OL : Nat := 0x064
abbrev LSW_OL_OL_TH : Fld := ⟨LSW_OL, 0, 8⟩
abbrev LSW_OL_OL_TIME : Fld := ⟨LSW_OL, 16, 8⟩
abbrev LSW_CNT : Nat := 0x068
abbrev LSW_CNT_LATCH : Fld := ⟨LSW_CNT, 0, 8⟩
abbrev LSW_CNT_LOCK : Fld := ⟨LSW_CNT, 8, 8⟩
abbrev LSW_CNT_OFF_REF : Fld := ⟨LSW_CNT, 16, 8⟩
abbrev LSW_CNT_REV : Fld := ⟨LSW_CNT, 24, 8⟩
abbrev LSW_CNT_CLR : Nat := 0x06C
abbrev LSW_CNT_CLR_CLR : Fld := ⟨LSW_CNT_CLR, 0, 1⟩
abbrev LSW_IMEAS : Nat := 0x080
abbrev LSW_IMEAS_CODE : Fld := ⟨LSW_IMEAS, 0, 14⟩
abbrev LSW_IMEAS_RANGE : Fld := ⟨LSW_IMEAS, 14, 1⟩
abbrev LSW_IMEAS_VALID : Fld := ⟨LSW_IMEAS, 15, 1⟩
abbrev LSW_IMEAS_SEQ : Fld := ⟨LSW_IMEAS, 16, 16⟩
abbrev LSW_IAVG : Nat := 0x084
abbrev LSW_IAVG_I : Fld := ⟨LSW_IAVG, 0, 24⟩
abbrev LSW_IPEAK : Nat := 0x088
abbrev LSW_IPEAK_I : Fld := ⟨LSW_IPEAK, 0, 16⟩
abbrev LSW_VMEAS : Nat := 0x08C
abbrev LSW_VMEAS_V : Fld := ⟨LSW_VMEAS, 0, 14⟩
abbrev LSW_VMEAS_VALID : Fld := ⟨LSW_VMEAS, 15, 1⟩
abbrev LSW_ITRIM : Nat := 0x090
abbrev LSW_ITRIM_GAIN : Fld := ⟨LSW_ITRIM, 0, 16⟩
abbrev LSW_ITRIM_OFFSET : Fld := ⟨LSW_ITRIM, 16, 16⟩
abbrev LSW_SNS_CLR : Nat := 0x094
abbrev LSW_SNS_CLR_CLR : Fld := ⟨LSW_SNS_CLR, 0, 1⟩
abbrev LSW_HOLD : Nat := 0x0A0
abbrev LSW_HOLD_SAFE : Fld := ⟨LSW_HOLD, 0, 2⟩
abbrev LSW_HOLD_TWC_EN : Fld := ⟨LSW_HOLD, 4, 1⟩
abbrev LSW_HOLD_LH_IN : Fld := ⟨LSW_HOLD, 8, 3⟩
abbrev LSW_HOLD_LH_MAP : Fld := ⟨LSW_HOLD, 11, 1⟩
abbrev PDC_HOLD : Nat := 0x040
abbrev PDC_HOLD_HOLD_TIME : Fld := ⟨PDC_HOLD, 0, 10⟩
abbrev PDC_HOLD_RESUME : Fld := ⟨PDC_HOLD, 16, 1⟩
abbrev PDC_HOLD_MATCH : Fld := ⟨PDC_HOLD, 17, 1⟩
abbrev PDC_HOLD_IMG : Nat := 0x044
abbrev PDC_HOLD_IMG_IMG : Fld := ⟨PDC_HOLD_IMG, 0, 16⟩
abbrev PDC_HOLD_IMG_LEFT : Fld := ⟨PDC_HOLD_IMG, 16, 9⟩
abbrev PDC_TWC : Nat := 0x048
abbrev PDC_TWC_EN : Fld := ⟨PDC_TWC, 0, 1⟩
abbrev PDC_TWC_TMO : Fld := ⟨PDC_TWC, 8, 8⟩
abbrev PDC_TWC_STAT : Nat := 0x04C
abbrev PDC_TWC_STAT_ACC : Fld := ⟨PDC_TWC_STAT, 0, 16⟩
abbrev PDC_TWC_STAT_REF : Fld := ⟨PDC_TWC_STAT, 16, 16⟩
abbrev PDC_LH : Nat := 0x050
abbrev PDC_LH_ARM : Fld := ⟨PDC_LH, 0, 1⟩
abbrev PDC_LH_EN_LVL : Fld := ⟨PDC_LH, 8, 1⟩
abbrev PDC_LH_IN_LVL : Fld := ⟨PDC_LH, 16, 8⟩
abbrev PDC_SNS : Nat := 0x054
abbrev PDC_SNS_EN : Fld := ⟨PDC_SNS, 0, 1⟩
abbrev PDC_SNS_SEL_SRC : Fld := ⟨PDC_SNS, 1, 1⟩
abbrev PDC_SNS_SEL : Fld := ⟨PDC_SNS, 4, 4⟩
abbrev PDC_SNS_SEL_PINS : Fld := ⟨PDC_SNS, 8, 4⟩
abbrev PDC_ADC_POS_LO : Nat := 0x058
abbrev PDC_ADC_POS_LO_MASK : Fld := ⟨PDC_ADC_POS_LO, 0, 32⟩
abbrev PDC_ADC_POS_HI : Nat := 0x05C
abbrev PDC_ADC_POS_HI_MASK : Fld := ⟨PDC_ADC_POS_HI, 0, 32⟩
abbrev PDC_VBAT : Nat := 0x060
abbrev PDC_VBAT_V : Fld := ⟨PDC_VBAT, 0, 16⟩
abbrev PDC_VBAT_OFS : Fld := ⟨PDC_VBAT, 16, 16⟩
abbrev PDC_BN_STAT : Nat := 0x064
abbrev PDC_BN_STAT_UV : Fld := ⟨PDC_BN_STAT, 0, 1⟩
abbrev PDC_BN_STAT_OV : Fld := ⟨PDC_BN_STAT, 1, 1⟩
abbrev PDC_BN_STAT_PGND_LOST : Fld := ⟨PDC_BN_STAT, 2, 1⟩
abbrev PDC_BN_STAT_LGND_LOST : Fld := ⟨PDC_BN_STAT, 3, 1⟩
abbrev PDC_CNT : Nat := 0x068
abbrev PDC_CNT_HOLD : Fld := ⟨PDC_CNT, 0, 8⟩
abbrev PDC_CNT_SAFE : Fld := ⟨PDC_CNT, 8, 8⟩
abbrev PDC_CNT_OV : Fld := ⟨PDC_CNT, 16, 8⟩
abbrev PDC_CNT_PGND : Fld := ⟨PDC_CNT, 24, 8⟩
abbrev PDC_CNT_CLR : Nat := 0x06C
abbrev PDC_CNT_CLR_CLR : Fld := ⟨PDC_CNT_CLR, 0, 1⟩
abbrev PDC_QOVF : Nat := 0x070
abbrev PDC_QOVF_LOST : Fld := ⟨PDC_QOVF, 0, 8⟩
abbrev PDC_OUT_IMG : Nat := 0x100
abbrev PDC_OUT_IMG_IMG : Fld := ⟨PDC_OUT_IMG, 0, 16⟩
abbrev PDC_INR_CTRL : Nat := 0x104
abbrev PDC_INR_CTRL_ALT : Fld := ⟨PDC_INR_CTRL, 0, 1⟩
abbrev PDC_INR_CTRL_DIE_BUDGET : Fld := ⟨PDC_INR_CTRL, 8, 8⟩
abbrev GRP_CFG (k : Nat) : Nat := 0x108 + 0x8 * k
abbrev GRP_CFG_BUDGET (k : Nat) : Fld := ⟨GRP_CFG k, 0, 8⟩
abbrev GRP_CFG_UV (k : Nat) : Fld := ⟨GRP_CFG k, 8, 8⟩
abbrev GRP_STAT (k : Nat) : Nat := 0x10C + 0x8 * k
abbrev GRP_STAT_BOOKED (k : Nat) : Fld := ⟨GRP_STAT k, 0, 10⟩
abbrev GRP_STAT_WAITING (k : Nat) : Fld := ⟨GRP_STAT k, 12, 4⟩
abbrev GRP_STAT_UV (k : Nat) : Fld := ⟨GRP_STAT k, 16, 8⟩
abbrev GRP_STAT_DEFER (k : Nat) : Fld := ⟨GRP_STAT k, 24, 8⟩
abbrev PDC_GRP_MAP : Nat := 0x120
abbrev PDC_GRP_MAP_V : Fld := ⟨PDC_GRP_MAP, 0, 32⟩
abbrev INC_CTRL : Nat := 0x040
abbrev INC_CTRL_IMG_EN : Fld := ⟨INC_CTRL, 0, 1⟩
abbrev INC_CTRL_IMG_OFS : Fld := ⟨INC_CTRL, 6, 11⟩
abbrev INC_STAT : Nat := 0x044
abbrev INC_STAT_IMG_CNT : Fld := ⟨INC_STAT, 0, 16⟩
abbrev INC_STAT_LATE : Fld := ⟨INC_STAT, 24, 8⟩
abbrev INC_WAKE : Nat := 0x048
abbrev INC_WAKE_SCAN : Fld := ⟨INC_WAKE, 0, 8⟩
abbrev INC_WAKE_WK_CHAT : Fld := ⟨INC_WAKE, 8, 8⟩
abbrev INC_WK_ARM_LO : Nat := 0x04C
abbrev INC_WK_ARM_LO_MASK : Fld := ⟨INC_WK_ARM_LO, 0, 32⟩
abbrev INC_WK_ARM_HI : Nat := 0x050
abbrev INC_WK_ARM_HI_MASK : Fld := ⟨INC_WK_ARM_HI, 0, 16⟩
abbrev INC_WK_REQ_LO : Nat := 0x054
abbrev INC_WK_REQ_LO_V : Fld := ⟨INC_WK_REQ_LO, 0, 32⟩
abbrev INC_WK_REQ_HI : Nat := 0x058
abbrev INC_WK_REQ_HI_V : Fld := ⟨INC_WK_REQ_HI, 0, 16⟩
abbrev INC_WK_LAST : Nat := 0x05C
abbrev INC_WK_LAST_DIN : Fld := ⟨INC_WK_LAST, 0, 6⟩
abbrev INC_WK_LAST_STANDBY : Fld := ⟨INC_WK_LAST, 8, 1⟩
abbrev INC_WK_LAST_WAKES : Fld := ⟨INC_WK_LAST, 16, 16⟩
abbrev DIG_POS_LO : Nat := 0x040
abbrev DIG_POS_LO_MASK : Fld := ⟨DIG_POS_LO, 0, 32⟩
abbrev DIG_POS_HI : Nat := 0x044
abbrev DIG_POS_HI_MASK : Fld := ⟨DIG_POS_HI, 0, 32⟩
abbrev DIG_LVL : Nat := 0x048
abbrev DIG_LVL_RAW : Fld := ⟨DIG_LVL, 0, 16⟩
abbrev DIG_LVL_FILT : Fld := ⟨DIG_LVL, 16, 16⟩
abbrev DIG_FLAG : Nat := 0x04C
abbrev DIG_FLAG_STUCK : Fld := ⟨DIG_FLAG, 0, 16⟩
abbrev DIG_FLAG_CHATTER : Fld := ⟨DIG_FLAG, 16, 16⟩
abbrev DIG_DIAG : Nat := 0x050
abbrev DIG_DIAG_LO : Fld := ⟨DIG_DIAG, 0, 16⟩
abbrev DIG_DIAG_HI : Fld := ⟨DIG_DIAG, 16, 16⟩
abbrev DIG_DG_TH : Nat := 0x054
abbrev DIG_DG_TH_LO0 : Fld := ⟨DIG_DG_TH, 0, 8⟩
abbrev DIG_DG_TH_HI0 : Fld := ⟨DIG_DG_TH, 8, 8⟩
abbrev DIG_DG_TH_LO1 : Fld := ⟨DIG_DG_TH, 16, 8⟩
abbrev DIG_DG_TH_HI1 : Fld := ⟨DIG_DG_TH, 24, 8⟩
abbrev DIG_CNT_CLR : Nat := 0x058
abbrev DIG_CNT_CLR_CLR : Fld := ⟨DIG_CNT_CLR, 0, 1⟩
abbrev DIN_CFG (k : Nat) : Nat := 0x100 + 0x10 * k
abbrev DIN_CFG_VTH_H (k : Nat) : Fld := ⟨DIN_CFG k, 0, 8⟩
abbrev DIN_CFG_VTH_L (k : Nat) : Fld := ⟨DIN_CFG k, 8, 8⟩
abbrev DIN_CFG_WET (k : Nat) : Fld := ⟨DIN_CFG k, 16, 3⟩
abbrev DIN_CFG_PULL (k : Nat) : Fld := ⟨DIN_CFG k, 19, 1⟩
abbrev DIN_CFG_PULSE (k : Nat) : Fld := ⟨DIN_CFG k, 20, 1⟩
abbrev DIN_CFG_RATIO (k : Nat) : Fld := ⟨DIN_CFG k, 21, 1⟩
abbrev DIN_CFG_INV (k : Nat) : Fld := ⟨DIN_CFG k, 22, 1⟩
abbrev DIN_CFG_DIAG_EN (k : Nat) : Fld := ⟨DIN_CFG k, 23, 1⟩
abbrev DIN_CFG_DG_SET (k : Nat) : Fld := ⟨DIN_CFG k, 24, 1⟩
abbrev DIN_TIME (k : Nat) : Nat := 0x104 + 0x10 * k
abbrev DIN_TIME_DEB (k : Nat) : Fld := ⟨DIN_TIME k, 0, 4⟩
abbrev DIN_TIME_STUCK_T (k : Nat) : Fld := ⟨DIN_TIME k, 8, 8⟩
abbrev DIN_TIME_CHAT_TH (k : Nat) : Fld := ⟨DIN_TIME k, 16, 4⟩
abbrev DIN_TIME_WET_LEAD (k : Nat) : Fld := ⟨DIN_TIME k, 24, 8⟩
abbrev DIN_V (k : Nat) : Nat := 0x108 + 0x10 * k
abbrev DIN_V_V (k : Nat) : Fld := ⟨DIN_V k, 0, 8⟩
abbrev DIN_V_VALID (k : Nat) : Fld := ⟨DIN_V k, 15, 1⟩
abbrev DIN_CNT (k : Nat) : Nat := 0x10C + 0x10 * k
abbrev DIN_CNT_CHAT (k : Nat) : Fld := ⟨DIN_CNT k, 0, 8⟩
abbrev DIN_CNT_STUCK (k : Nat) : Fld := ⟨DIN_CNT k, 8, 8⟩
abbrev DIN_CNT_WAKE (k : Nat) : Fld := ⟨DIN_CNT k, 16, 8⟩
abbrev DIN_CNT_WK_SUP (k : Nat) : Fld := ⟨DIN_CNT k, 24, 8⟩
abbrev ANA_POS_LO : Nat := 0x040
abbrev ANA_POS_LO_MASK : Fld := ⟨ANA_POS_LO, 0, 32⟩
abbrev ANA_POS_HI : Nat := 0x044
abbrev ANA_POS_HI_MASK : Fld := ⟨ANA_POS_HI, 0, 32⟩
abbrev ANA_FLAG : Nat := 0x048
abbrev ANA_FLAG_FAULT : Fld := ⟨ANA_FLAG, 0, 16⟩
abbrev ANA_FLAG_SAT : Fld := ⟨ANA_FLAG, 16, 16⟩
abbrev ANA_CFG (k : Nat) : Nat := 0x100 + 0x10 * k
abbrev ANA_CFG_RANGE (k : Nat) : Fld := ⟨ANA_CFG k, 0, 1⟩
abbrev ANA_CFG_SRC (k : Nat) : Fld := ⟨ANA_CFG k, 1, 2⟩
abbrev ANA_CFG_LIM_EN (k : Nat) : Fld := ⟨ANA_CFG k, 3, 1⟩
abbrev ANA_CFG_DEB (k : Nat) : Fld := ⟨ANA_CFG k, 4, 4⟩
abbrev ANA_LIM (k : Nat) : Nat := 0x104 + 0x10 * k
abbrev ANA_LIM_LO (k : Nat) : Fld := ⟨ANA_LIM k, 0, 14⟩
abbrev ANA_LIM_HI (k : Nat) : Fld := ⟨ANA_LIM k, 16, 14⟩
abbrev ANA_VAL (k : Nat) : Nat := 0x108 + 0x10 * k
abbrev ANA_VAL_CODE (k : Nat) : Fld := ⟨ANA_VAL k, 0, 14⟩
abbrev ANA_VAL_RANGE (k : Nat) : Fld := ⟨ANA_VAL k, 15, 1⟩
abbrev ANA_VAL_VALID (k : Nat) : Fld := ⟨ANA_VAL k, 16, 1⟩
abbrev ANA_VAL_FAULT_LO (k : Nat) : Fld := ⟨ANA_VAL k, 17, 1⟩
abbrev ANA_VAL_FAULT_HI (k : Nat) : Fld := ⟨ANA_VAL k, 18, 1⟩
abbrev ANA_VAL_SAT (k : Nat) : Fld := ⟨ANA_VAL k, 19, 1⟩
abbrev BR_STAT : Nat := 0x044
abbrev BR_STAT_UP : Fld := ⟨BR_STAT, 0, 1⟩
abbrev BR_STAT_PEER_DOWN : Fld := ⟨BR_STAT, 1, 1⟩
abbrev BR_STAT_TAGS : Fld := ⟨BR_STAT, 8, 7⟩
abbrev BR_STAT_DOWN_CNT : Fld := ⟨BR_STAT, 24, 8⟩
abbrev BR_CRED : Nat := 0x048
abbrev BR_CRED_VC0 : Fld := ⟨BR_CRED, 0, 8⟩
abbrev BR_CRED_VC1 : Fld := ⟨BR_CRED, 8, 8⟩
abbrev BR_CRED_VC2 : Fld := ⟨BR_CRED, 16, 8⟩
abbrev BR_CRED_VC3 : Fld := ⟨BR_CRED, 24, 8⟩
abbrev BR_PERR_ADDR : Nat := 0x04C
abbrev BR_PERR_ADDR_V : Fld := ⟨BR_PERR_ADDR, 0, 32⟩
abbrev BR_PERR_INFO : Nat := 0x050
abbrev BR_PERR_INFO_ADDR_HI : Fld := ⟨BR_PERR_INFO, 0, 4⟩
abbrev BR_PERR_INFO_CAUSE : Fld := ⟨BR_PERR_INFO, 8, 8⟩
abbrev BR_CNT_PERR : Nat := 0x054
abbrev BR_CNT_PERR_V : Fld := ⟨BR_CNT_PERR, 0, 32⟩
abbrev BR_CNT_TMO : Nat := 0x058
abbrev BR_CNT_TMO_V : Fld := ⟨BR_CNT_TMO, 0, 32⟩
abbrev BR_CNT_LATE : Nat := 0x05C
abbrev BR_CNT_LATE_V : Fld := ⟨BR_CNT_LATE, 0, 32⟩
abbrev BR_CNT_REPLAY : Nat := 0x060
abbrev BR_CNT_REPLAY_V : Fld := ⟨BR_CNT_REPLAY, 0, 32⟩
abbrev BR_CNT_CLR : Nat := 0x064
abbrev BR_CNT_CLR_CLR : Fld := ⟨BR_CNT_CLR, 0, 1⟩
abbrev BULK_BASE_LO (k : Nat) : Nat := 0x100 + 0x10 * k
abbrev BULK_BASE_LO_ADDR (k : Nat) : Fld := ⟨BULK_BASE_LO k, 12, 20⟩
abbrev BULK_BASE_HI (k : Nat) : Nat := 0x104 + 0x10 * k
abbrev BULK_BASE_HI_ADDR (k : Nat) : Fld := ⟨BULK_BASE_HI k, 0, 4⟩
abbrev BULK_SIZE (k : Nat) : Nat := 0x108 + 0x10 * k
abbrev BULK_SIZE_PAGES (k : Nat) : Fld := ⟨BULK_SIZE k, 0, 16⟩
abbrev DBR_CTRL : Nat := 0x040
abbrev DBR_CTRL_TMO : Fld := ⟨DBR_CTRL, 0, 8⟩
abbrev DBR_CTRL_REMOTE_EN : Fld := ⟨DBR_CTRL, 8, 1⟩
abbrev TBR_CTRL : Nat := 0x040
abbrev TBR_CTRL_TMO : Fld := ⟨TBR_CTRL, 0, 8⟩
abbrev TBR_CTRL_REMOTE_EN : Fld := ⟨TBR_CTRL, 8, 1⟩
abbrev TBR_ADDR_LO : Nat := 0x080
abbrev TBR_ADDR_LO_V : Fld := ⟨TBR_ADDR_LO, 0, 32⟩
abbrev TBR_ADDR_HI : Nat := 0x084
abbrev TBR_ADDR_HI_V : Fld := ⟨TBR_ADDR_HI, 0, 4⟩
abbrev TBR_WDATA : Nat := 0x088
abbrev TBR_WDATA_V : Fld := ⟨TBR_WDATA, 0, 32⟩
abbrev TBR_RDATA : Nat := 0x08C
abbrev TBR_RDATA_V : Fld := ⟨TBR_RDATA, 0, 32⟩
abbrev TBR_CMD : Nat := 0x090
abbrev TBR_CMD_OP : Fld := ⟨TBR_CMD, 0, 2⟩
abbrev TBR_CMD_GO : Fld := ⟨TBR_CMD, 16, 1⟩
abbrev TBR_CMD_BUSY : Fld := ⟨TBR_CMD, 17, 1⟩
abbrev TBR_CMD_RESULT : Fld := ⟨TBR_CMD, 18, 2⟩
abbrev TBR_CMD_CAUSE : Fld := ⟨TBR_CMD, 24, 8⟩
abbrev TWL_CTRL : Nat := 0x040
abbrev TWL_CTRL_EN : Fld := ⟨TWL_CTRL, 0, 1⟩
abbrev TWL_CTRL_SINGLE_OK : Fld := ⟨TWL_CTRL, 1, 1⟩
abbrev TWL_CTRL_RETRAIN : Fld := ⟨TWL_CTRL, 2, 1⟩
abbrev TWL_STAT : Nat := 0x044
abbrev TWL_STAT_LANES : Fld := ⟨TWL_STAT, 0, 2⟩
abbrev TWL_STAT_ST : Fld := ⟨TWL_STAT, 2, 2⟩
abbrev TWL_CNT_CRC : Nat := 0x048
abbrev TWL_CNT_CRC_V : Fld := ⟨TWL_CNT_CRC, 0, 32⟩
abbrev TWL_CNT_TWDROP : Nat := 0x04C
abbrev TWL_CNT_TWDROP_V : Fld := ⟨TWL_CNT_TWDROP, 0, 32⟩
abbrev TWL_CNT_TRAIN : Nat := 0x050
abbrev TWL_CNT_TRAIN_TRAIN : Fld := ⟨TWL_CNT_TRAIN, 0, 16⟩
abbrev TWL_CNT_TRAIN_DOWN : Fld := ⟨TWL_CNT_TRAIN, 16, 16⟩
abbrev TWL_CNT_CLR : Nat := 0x054
abbrev TWL_CNT_CLR_CLR : Fld := ⟨TWL_CNT_CLR, 0, 1⟩
abbrev TWR_CTRL : Nat := 0x040
abbrev TWR_CTRL_EN : Fld := ⟨TWR_CTRL, 0, 1⟩
abbrev TWR_CTRL_HANDOVER : Fld := ⟨TWR_CTRL, 1, 1⟩
abbrev TWR_CTRL_TWC_TAKE : Fld := ⟨TWR_CTRL, 2, 1⟩
abbrev TWR_CTRL_OVR_EN : Fld := ⟨TWR_CTRL, 3, 1⟩
abbrev TWR_CFG : Nat := 0x044
abbrev TWR_CFG_PAIR_TMO : Fld := ⟨TWR_CFG, 0, 8⟩
abbrev TWR_CFG_IMG_CUT : Fld := ⟨TWR_CFG, 8, 8⟩
abbrev TWR_STAT : Nat := 0x048
abbrev TWR_STAT_SIDE : Fld := ⟨TWR_STAT, 0, 1⟩
abbrev TWR_STAT_PEER : Fld := ⟨TWR_STAT, 1, 1⟩
abbrev TWR_STAT_CLAIM : Fld := ⟨TWR_STAT, 2, 1⟩
abbrev TWR_STAT_HB_OK : Fld := ⟨TWR_STAT, 3, 1⟩
abbrev TWR_STAT_ALIVE_OK : Fld := ⟨TWR_STAT, 4, 1⟩
abbrev TWR_STAT_TWIN_ROLE : Fld := ⟨TWR_STAT, 8, 2⟩
abbrev TWR_DUAL : Nat := 0x04C
abbrev TWR_DUAL_A : Fld := ⟨TWR_DUAL, 0, 16⟩
abbrev TWR_DUAL_B : Fld := ⟨TWR_DUAL, 16, 16⟩
abbrev TWR_CMP : Nat := 0x050
abbrev TWR_CMP_MISM : Fld := ⟨TWR_CMP, 0, 16⟩
abbrev TWR_CMP_MISS : Fld := ⟨TWR_CMP, 16, 16⟩
abbrev TWR_IMG : Nat := 0x054
abbrev TWR_IMG_LATE : Fld := ⟨TWR_IMG, 0, 16⟩
abbrev TWR_IMG_HB_MISS : Fld := ⟨TWR_IMG, 16, 16⟩
abbrev TWR_TAKE : Nat := 0x058
abbrev TWR_TAKE_TAKE : Fld := ⟨TWR_TAKE, 0, 8⟩
abbrev TWR_TAKE_OVR : Fld := ⟨TWR_TAKE, 8, 8⟩
abbrev TWR_TAKE_TIME : Fld := ⟨TWR_TAKE, 16, 16⟩
abbrev TWR_ID (k : Nat) : Nat := 0x05C + 0x4 * k
abbrev TWR_ID_V (k : Nat) : Fld := ⟨TWR_ID k, 0, 32⟩
abbrev TWR_MIR_BASE : Nat := 0x06C
abbrev TWR_MIR_BASE_OFS : Fld := ⟨TWR_MIR_BASE, 12, 12⟩
abbrev TWR_MIR_SIZE : Nat := 0x070
abbrev TWR_MIR_SIZE_PAGES : Fld := ⟨TWR_MIR_SIZE, 0, 10⟩
abbrev TWR_TWC_CMD : Nat := 0x074
abbrev TWR_TWC_CMD_CMD : Fld := ⟨TWR_TWC_CMD, 0, 4⟩
abbrev TWR_TWC_CMD_DIE : Fld := ⟨TWR_TWC_CMD, 4, 2⟩
abbrev TWR_TWC_CMD_IDX : Fld := ⟨TWR_TWC_CMD, 8, 4⟩
abbrev TWR_TWC_CMD_GO : Fld := ⟨TWR_TWC_CMD, 16, 1⟩
abbrev TWR_TWC_CMD_BUSY : Fld := ⟨TWR_TWC_CMD, 17, 1⟩
abbrev TWR_TWC_CMD_RESULT : Fld := ⟨TWR_TWC_CMD, 18, 2⟩
abbrev TWR_TWC_ARG : Nat := 0x078
abbrev TWR_TWC_ARG_MASK : Fld := ⟨TWR_TWC_ARG, 0, 16⟩
abbrev TWR_TWC_ARG_IMAGE : Fld := ⟨TWR_TWC_ARG, 16, 16⟩
abbrev TWR_TWC_RSP (k : Nat) : Nat := 0x07C + 0x4 * k
abbrev TWR_TWC_RSP_V (k : Nat) : Fld := ⟨TWR_TWC_RSP k, 0, 32⟩
abbrev TWR_TWC : Nat := 0x088
abbrev TWR_TWC_DROP : Fld := ⟨TWR_TWC, 0, 16⟩
abbrev TWR_TWC_ALIVE : Fld := ⟨TWR_TWC, 16, 16⟩
abbrev TWR_CNT_CLR : Nat := 0x08C
abbrev TWR_CNT_CLR_CLR : Fld := ⟨TWR_CNT_CLR, 0, 1⟩
abbrev MIG_CTRL : Nat := 0x040
abbrev MIG_CTRL_VM : Fld := ⟨MIG_CTRL, 0, 4⟩
abbrev MIG_CTRL_DIR : Fld := ⟨MIG_CTRL, 4, 1⟩
abbrev MIG_CTRL_GO : Fld := ⟨MIG_CTRL, 8, 1⟩
abbrev MIG_CTRL_FINAL : Fld := ⟨MIG_CTRL, 9, 1⟩
abbrev MIG_CTRL_ABORT : Fld := ⟨MIG_CTRL, 10, 1⟩
abbrev MIG_STAT : Nat := 0x044
abbrev MIG_STAT_ST : Fld := ⟨MIG_STAT, 0, 3⟩
abbrev MIG_STAT_ROUND : Fld := ⟨MIG_STAT, 8, 8⟩
abbrev MIG_INST : Nat := 0x048
abbrev MIG_INST_MASK : Fld := ⟨MIG_INST, 0, 16⟩
abbrev MIG_RATE : Nat := 0x04C
abbrev MIG_RATE_V : Fld := ⟨MIG_RATE, 0, 16⟩
abbrev MIG_THR : Nat := 0x050
abbrev MIG_THR_V : Fld := ⟨MIG_THR, 0, 24⟩
abbrev MIG_DIRTY : Nat := 0x054
abbrev MIG_DIRTY_V : Fld := ⟨MIG_DIRTY, 0, 24⟩
abbrev MIG_SENT : Nat := 0x058
abbrev MIG_SENT_V : Fld := ⟨MIG_SENT, 0, 32⟩
abbrev CALC_MODE : Nat := 0x040
abbrev CALC_MODE_PAIRED : Fld := ⟨CALC_MODE, 0, 4⟩
abbrev CALC_ACT : Nat := 0x044
abbrev CALC_ACT_CMP : Fld := ⟨CALC_ACT, 0, 6⟩
abbrev CALC_STAT : Nat := 0x048
abbrev CALC_STAT_CFAULT : Fld := ⟨CALC_STAT, 0, 6⟩
abbrev CALC_STAT_UNCMP : Fld := ⟨CALC_STAT, 8, 6⟩
abbrev CALC_STAT_HALTED : Fld := ⟨CALC_STAT, 16, 6⟩
abbrev CALC_TEST : Nat := 0x04C
abbrev CALC_TEST_PASS : Fld := ⟨CALC_TEST, 0, 16⟩
abbrev CALC_TEST_FAIL : Fld := ⟨CALC_TEST, 16, 8⟩
abbrev CAL_CTRL : Nat := 0x040
abbrev CAL_CTRL_CF_POL : Fld := ⟨CAL_CTRL, 0, 2⟩
abbrev CAL_CTRL_PER_CKPT : Fld := ⟨CAL_CTRL, 2, 1⟩
abbrev CAL_CTRL_RETRY_MAX : Fld := ⟨CAL_CTRL, 8, 4⟩
abbrev CAL_CTRL_RETRY_WIN : Fld := ⟨CAL_CTRL, 16, 8⟩
abbrev CAL_CKPT : Nat := 0x044
abbrev CAL_CKPT_PERIOD : Fld := ⟨CAL_CKPT, 0, 7⟩
abbrev CAL_CKPT_WH_HIGH : Fld := ⟨CAL_CKPT, 16, 13⟩
abbrev CAL_TMO : Nat := 0x048
abbrev CAL_TMO_US : Fld := ⟨CAL_TMO, 0, 4⟩
abbrev CAL_STAT : Nat := 0x04C
abbrev CAL_STAT_SLOT : Fld := ⟨CAL_STAT, 0, 1⟩
abbrev CAL_STAT_LAST_REASON : Fld := ⟨CAL_STAT, 4, 4⟩
abbrev CAL_STAT_TRAIL_MAX : Fld := ⟨CAL_STAT, 16, 12⟩
abbrev CAL_CNT_CKPT : Nat := 0x050
abbrev CAL_CNT_CKPT_V : Fld := ⟨CAL_CNT_CKPT, 0, 32⟩
abbrev CAL_CNT_EARLY : Nat := 0x054
abbrev CAL_CNT_EARLY_WH : Fld := ⟨CAL_CNT_EARLY, 0, 16⟩
abbrev CAL_CNT_EARLY_OTHER : Fld := ⟨CAL_CNT_EARLY, 16, 16⟩
abbrev CAL_CNT_MISM : Nat := 0x058
abbrev CAL_CNT_MISM_MISM : Fld := ⟨CAL_CNT_MISM, 0, 16⟩
abbrev CAL_CNT_MISM_WIN : Fld := ⟨CAL_CNT_MISM, 16, 8⟩
abbrev CAL_CNT_MISM_REL_ERR : Fld := ⟨CAL_CNT_MISM, 24, 8⟩
abbrev CAL_LAST : Nat := 0x05C
abbrev CAL_LAST_KIND : Fld := ⟨CAL_LAST, 0, 3⟩
abbrev CAL_LAST_SIG_L : Nat := 0x060
abbrev CAL_LAST_SIG_L_V : Fld := ⟨CAL_LAST_SIG_L, 0, 32⟩
abbrev CAL_LAST_SIG_H : Nat := 0x064
abbrev CAL_LAST_SIG_H_V : Fld := ⟨CAL_LAST_SIG_H, 0, 32⟩
abbrev CAL_LAST_TS_S : Nat := 0x068
abbrev CAL_LAST_TS_S_V : Fld := ⟨CAL_LAST_TS_S, 0, 32⟩
abbrev CAL_LAST_TS_NS : Nat := 0x06C
abbrev CAL_LAST_TS_NS_V : Fld := ⟨CAL_LAST_TS_NS, 0, 32⟩
abbrev CAL_WH : Nat := 0x070
abbrev CAL_WH_USED : Fld := ⟨CAL_WH, 0, 13⟩
abbrev CAL_WH_PEAK : Fld := ⟨CAL_WH, 16, 13⟩
abbrev CAL_RST_TIME : Nat := 0x074
abbrev CAL_RST_TIME_LAST : Fld := ⟨CAL_RST_TIME, 0, 16⟩
abbrev CAL_RST_TIME_MAX : Fld := ⟨CAL_RST_TIME, 16, 16⟩
abbrev CAL_CNT_CLR : Nat := 0x078
abbrev CAL_CNT_CLR_CLR : Fld := ⟨CAL_CNT_CLR, 0, 1⟩
abbrev SYS_VARIANT : Nat := 0x040
abbrev SYS_VARIANT_VAR : Fld := ⟨SYS_VARIANT, 0, 8⟩
abbrev SYS_VARIANT_REV : Fld := ⟨SYS_VARIANT, 8, 8⟩
abbrev SYS_CC_PART_0 : Nat := 0x044
abbrev SYS_CC_PART_0_AC : Fld := ⟨SYS_CC_PART_0, 0, 16⟩
abbrev SYS_CC_PART_0_RC : Fld := ⟨SYS_CC_PART_0, 16, 16⟩
abbrev SYS_CC_PART_1 : Nat := 0x048
abbrev SYS_CC_PART_1_DMA : Fld := ⟨SYS_CC_PART_1, 0, 16⟩
abbrev SYS_CC_PART_1_PE : Fld := ⟨SYS_CC_PART_1, 16, 16⟩
abbrev SYS_CNT_UNMAP : Nat := 0x04C
abbrev SYS_CNT_UNMAP_V : Fld := ⟨SYS_CNT_UNMAP, 0, 32⟩
abbrev INTC_SWRAISE : Nat := 0x040
abbrev INTC_SWRAISE_LINE : Fld := ⟨INTC_SWRAISE, 0, 9⟩
abbrev LINE (k : Nat) : Nat := 0x100 + 0x4 * k
abbrev LINE_TARGET (k : Nat) : Fld := ⟨LINE k, 0, 5⟩
abbrev LINE_PRIO (k : Nat) : Fld := ⟨LINE k, 8, 4⟩
abbrev LINE_WORLD (k : Nat) : Fld := ⟨LINE k, 12, 2⟩
abbrev LINE_EN (k : Nat) : Fld := ⟨LINE k, 16, 1⟩
abbrev INTC_PEND (k : Nat) : Nat := 0x900 + 0x4 * k
abbrev INTC_PEND_V (k : Nat) : Fld := ⟨INTC_PEND k, 0, 32⟩
abbrev CORE_CTRL : Nat := 0x040
abbrev CORE_CTRL_RUN : Fld := ⟨CORE_CTRL, 0, 1⟩
abbrev CORE_CTRL_RST : Fld := ⟨CORE_CTRL, 1, 1⟩
abbrev CORE_STAT : Nat := 0x044
abbrev CORE_STAT_RUNNING : Fld := ⟨CORE_STAT, 0, 1⟩
abbrev CORE_STAT_WAITING : Fld := ⟨CORE_STAT, 1, 1⟩
abbrev CORE_STAT_COMPARED : Fld := ⟨CORE_STAT, 2, 1⟩
abbrev CORE_STAT_TRAILING : Fld := ⟨CORE_STAT, 3, 1⟩
abbrev CORE_BOOT_LO : Nat := 0x048
abbrev CORE_BOOT_LO_ADDR : Fld := ⟨CORE_BOOT_LO, 2, 30⟩
abbrev CORE_BOOT_HI : Nat := 0x04C
abbrev CORE_BOOT_HI_ADDR : Fld := ⟨CORE_BOOT_HI, 0, 4⟩
abbrev CORE_CNT_SPEC : Nat := 0x050
abbrev CORE_CNT_SPEC_V : Fld := ⟨CORE_CNT_SPEC, 0, 32⟩
abbrev MBX_CTRL : Nat := 0x040
abbrev MBX_CTRL_SVC : Fld := ⟨MBX_CTRL, 0, 1⟩
abbrev MBX_DB : Nat := 0x044
abbrev MBX_DB_V : Fld := ⟨MBX_DB, 0, 32⟩
abbrev MBX_DB_MASK : Nat := 0x048
abbrev MBX_DB_MASK_V : Fld := ⟨MBX_DB_MASK, 0, 32⟩
abbrev MBX_FULL : Nat := 0x04C
abbrev MBX_FULL_V : Fld := ⟨MBX_FULL, 0, 32⟩
abbrev MBX_CROSS : Nat := 0x050
abbrev MBX_CROSS_V : Fld := ⟨MBX_CROSS, 0, 32⟩
abbrev MBX_CNT_REF : Nat := 0x054
abbrev MBX_CNT_REF_V : Fld := ⟨MBX_CNT_REF, 0, 32⟩
abbrev MBX_CNT_ABORT : Nat := 0x058
abbrev MBX_CNT_ABORT_V : Fld := ⟨MBX_CNT_ABORT, 0, 32⟩
abbrev MBX_CNT_CLR : Nat := 0x05C
abbrev MBX_CNT_CLR_CLR : Fld := ⟨MBX_CNT_CLR, 0, 1⟩
abbrev MB_CFG : Nat := 0x040
abbrev MB_CFG_RX_AGENT : Fld := ⟨MB_CFG, 0, 8⟩
abbrev MB_CFG_PEER : Fld := ⟨MB_CFG, 8, 5⟩
abbrev MB_CFG_PEER_EN : Fld := ⟨MB_CFG, 13, 1⟩
abbrev MB_ALLOW : Nat := 0x044
abbrev MB_ALLOW_AC : Fld := ⟨MB_ALLOW, 0, 8⟩
abbrev MB_ALLOW_RC : Fld := ⟨MB_ALLOW, 8, 4⟩
abbrev MB_ALLOW_SC : Fld := ⟨MB_ALLOW, 12, 1⟩
abbrev MB_ALLOW_PE : Fld := ⟨MB_ALLOW, 16, 4⟩
abbrev MB_ALLOW_DBG : Fld := ⟨MB_ALLOW, 24, 1⟩
abbrev MB_ALLOW_WORLD : Fld := ⟨MB_ALLOW, 28, 3⟩
abbrev MB_STAT : Nat := 0x048
abbrev MB_STAT_FULL : Fld := ⟨MB_STAT, 0, 1⟩
abbrev MB_STAT_SPACE_WAIT : Fld := ⟨MB_STAT, 1, 1⟩
abbrev MB_STAT_CROSS : Fld := ⟨MB_STAT, 2, 1⟩
abbrev MB_STAT_RX_RESET : Fld := ⟨MB_STAT, 3, 1⟩
abbrev MB_STAT_LEN : Fld := ⟨MB_STAT, 8, 5⟩
abbrev MB_STAMP : Nat := 0x04C
abbrev MB_STAMP_V : Fld := ⟨MB_STAMP, 0, 14⟩
abbrev MB_TAKE : Nat := 0x050
abbrev MB_TAKE_STAMP : Fld := ⟨MB_TAKE, 0, 14⟩
abbrev MB_TAKE_LEN : Fld := ⟨MB_TAKE, 16, 5⟩
abbrev MB_TAKE_FULL : Fld := ⟨MB_TAKE, 31, 1⟩
abbrev MB_TS_S : Nat := 0x054
abbrev MB_TS_S_V : Fld := ⟨MB_TS_S, 0, 32⟩
abbrev MB_TS_NS : Nat := 0x058
abbrev MB_TS_NS_V : Fld := ⟨MB_TS_NS, 0, 32⟩
abbrev MB_CNT : Nat := 0x05C
abbrev MB_CNT_ACC : Fld := ⟨MB_CNT, 0, 16⟩
abbrev MB_CNT_REF : Fld := ⟨MB_CNT, 16, 16⟩
abbrev MB_DATA (k : Nat) : Nat := 0x100 + 0x4 * k
abbrev MB_DATA_V (k : Nat) : Fld := ⟨MB_DATA k, 0, 32⟩
abbrev MB_DBG_DATA (k : Nat) : Nat := 0xF00 + 0x4 * k
abbrev MB_DBG_DATA_V (k : Nat) : Fld := ⟨MB_DBG_DATA k, 0, 32⟩
abbrev MB_DBG_SEND : Nat := 0xF40
abbrev MB_DBG_SEND_LEN : Fld := ⟨MB_DBG_SEND, 16, 5⟩
abbrev ISO_PART_TMO : Nat := 0x040
abbrev ISO_PART_TMO_US : Fld := ⟨ISO_PART_TMO, 0, 16⟩
abbrev ISO_PART_LOG : Nat := 0x044
abbrev ISO_PART_LOG_TYPE : Fld := ⟨ISO_PART_LOG, 0, 16⟩
abbrev ISO_PART_LOG_INST : Fld := ⟨ISO_PART_LOG, 16, 8⟩
abbrev ISO_PART_LOG_RESULT : Fld := ⟨ISO_PART_LOG, 24, 2⟩
abbrev ISO_PART_LOG_VALID : Fld := ⟨ISO_PART_LOG, 31, 1⟩
abbrev ISO_CNT : Nat := 0x048
abbrev ISO_CNT_REF : Fld := ⟨ISO_CNT, 0, 16⟩
abbrev ISO_CNT_PART_DROP : Fld := ⟨ISO_CNT, 16, 16⟩
abbrev ISO_SEC_TTB_LO : Nat := 0x04C
abbrev ISO_SEC_TTB_LO_BASE : Fld := ⟨ISO_SEC_TTB_LO, 13, 19⟩
abbrev ISO_SEC_TTB_HI : Nat := 0x050
abbrev ISO_SEC_TTB_HI_BASE : Fld := ⟨ISO_SEC_TTB_HI, 0, 4⟩
abbrev ISO_SEC_TTB_HI_EN : Fld := ⟨ISO_SEC_TTB_HI, 31, 1⟩
abbrev ISO_DBG : Nat := 0x054
abbrev ISO_DBG_WORLD : Fld := ⟨ISO_DBG, 0, 2⟩
abbrev ISO_DBG_VM : Fld := ⟨ISO_DBG, 4, 4⟩
abbrev ISO_TRACE : Nat := 0x058
abbrev ISO_TRACE_EN : Fld := ⟨ISO_TRACE, 0, 1⟩
abbrev SEC_RGN_BASE (k : Nat) : Nat := 0x100 + 0x8 * k
abbrev SEC_RGN_BASE_BASE (k : Nat) : Fld := ⟨SEC_RGN_BASE k, 0, 20⟩
abbrev SEC_RGN_SIZE (k : Nat) : Nat := 0x104 + 0x8 * k
abbrev SEC_RGN_SIZE_SIZE (k : Nat) : Fld := ⟨SEC_RGN_SIZE k, 0, 20⟩
abbrev SEC_RGN_SIZE_EN (k : Nat) : Fld := ⟨SEC_RGN_SIZE k, 31, 1⟩
abbrev IOM_HYP_TTB_LO : Nat := 0x040
abbrev IOM_HYP_TTB_LO_BASE : Fld := ⟨IOM_HYP_TTB_LO, 13, 19⟩
abbrev IOM_HYP_TTB_HI : Nat := 0x044
abbrev IOM_HYP_TTB_HI_BASE : Fld := ⟨IOM_HYP_TTB_HI, 0, 4⟩
abbrev IOM_HYP_TTB_HI_EN : Fld := ⟨IOM_HYP_TTB_HI, 31, 1⟩
abbrev IOM_INV : Nat := 0x048
abbrev IOM_INV_OP : Fld := ⟨IOM_INV, 0, 2⟩
abbrev IOM_INV_GO : Fld := ⟨IOM_INV, 16, 1⟩
abbrev IOM_INV_BUSY : Fld := ⟨IOM_INV, 17, 1⟩
abbrev IOM_FLT_INFO : Nat := 0x04C
abbrev IOM_FLT_INFO_SRC : Fld := ⟨IOM_FLT_INFO, 0, 5⟩
abbrev IOM_FLT_INFO_KIND : Fld := ⟨IOM_FLT_INFO, 8, 3⟩
abbrev IOM_FLT_INFO_WRITE : Fld := ⟨IOM_FLT_INFO, 11, 1⟩
abbrev IOM_FLT_INFO_LEVEL : Fld := ⟨IOM_FLT_INFO, 12, 2⟩
abbrev IOM_FLT_INFO_LOG : Fld := ⟨IOM_FLT_INFO, 15, 1⟩
abbrev IOM_FLT_INFO_VALID : Fld := ⟨IOM_FLT_INFO, 31, 1⟩
abbrev IOM_FLT_IPA : Nat := 0x050
abbrev IOM_FLT_IPA_IPA : Fld := ⟨IOM_FLT_IPA, 0, 32⟩
abbrev IOM_FLT_CLR : Nat := 0x054
abbrev IOM_FLT_CLR_CLR : Fld := ⟨IOM_FLT_CLR, 0, 1⟩
abbrev IOM_CNT_FLT : Nat := 0x058
abbrev IOM_CNT_FLT_CNT : Fld := ⟨IOM_CNT_FLT, 0, 16⟩
abbrev IOM_TM_PEND : Nat := 0x05C
abbrev IOM_TM_PEND_PEND : Fld := ⟨IOM_TM_PEND, 0, 16⟩
abbrev IOM_TM_MASK : Nat := 0x060
abbrev IOM_TM_MASK_MASK : Fld := ⟨IOM_TM_MASK, 0, 16⟩
abbrev VMC_CTRL : Nat := 0x040
abbrev VMC_CTRL_EN : Fld := ⟨VMC_CTRL, 0, 1⟩
abbrev VMC_CTRL_DIRTY_EN : Fld := ⟨VMC_CTRL, 1, 1⟩
abbrev VMC_TTB_LO : Nat := 0x044
abbrev VMC_TTB_LO_BASE : Fld := ⟨VMC_TTB_LO, 13, 19⟩
abbrev VMC_TTB_HI : Nat := 0x048
abbrev VMC_TTB_HI_BASE : Fld := ⟨VMC_TTB_HI, 0, 4⟩
abbrev VMC_INV : Nat := 0x04C
abbrev VMC_INV_OP : Fld := ⟨VMC_INV, 0, 2⟩
abbrev VMC_INV_GO : Fld := ⟨VMC_INV, 16, 1⟩
abbrev VMC_INV_BUSY : Fld := ⟨VMC_INV, 17, 1⟩
abbrev VMC_INV_IPA : Nat := 0x050
abbrev VMC_INV_IPA_IPA : Fld := ⟨VMC_INV_IPA, 0, 28⟩
abbrev VMC_STAT : Nat := 0x054
abbrev VMC_STAT_CORES : Fld := ⟨VMC_STAT, 0, 12⟩
abbrev VMC_FLT_INFO : Nat := 0x058
abbrev VMC_FLT_INFO_SRC : Fld := ⟨VMC_FLT_INFO, 0, 5⟩
abbrev VMC_FLT_INFO_KIND : Fld := ⟨VMC_FLT_INFO, 8, 3⟩
abbrev VMC_FLT_INFO_WRITE : Fld := ⟨VMC_FLT_INFO, 11, 1⟩
abbrev VMC_FLT_INFO_LEVEL : Fld := ⟨VMC_FLT_INFO, 12, 2⟩
abbrev VMC_FLT_INFO_LOG : Fld := ⟨VMC_FLT_INFO, 15, 1⟩
abbrev VMC_FLT_INFO_VALID : Fld := ⟨VMC_FLT_INFO, 31, 1⟩
abbrev VMC_FLT_IPA : Nat := 0x05C
abbrev VMC_FLT_IPA_IPA : Fld := ⟨VMC_FLT_IPA, 0, 32⟩
abbrev VMC_CNT : Nat := 0x060
abbrev VMC_CNT_FAULTS : Fld := ⟨VMC_CNT, 0, 16⟩
abbrev VMC_CNT_DIRTY : Fld := ⟨VMC_CNT, 16, 16⟩
abbrev VMC_CLR : Nat := 0x064
abbrev VMC_CLR_CLR : Fld := ⟨VMC_CLR, 0, 1⟩
abbrev TM_T2M_DATA (k : Nat) : Nat := 0x400 + 0x4 * k
abbrev TM_T2M_DATA_V (k : Nat) : Fld := ⟨TM_T2M_DATA k, 0, 32⟩
abbrev TM_T2M_CTRL : Nat := 0x440
abbrev TM_T2M_CTRL_LEN : Fld := ⟨TM_T2M_CTRL, 0, 5⟩
abbrev TM_T2M_CTRL_SEND : Fld := ⟨TM_T2M_CTRL, 8, 1⟩
abbrev TM_T2M_CTRL_ACK : Fld := ⟨TM_T2M_CTRL, 9, 1⟩
abbrev TM_T2M_CTRL_FULL : Fld := ⟨TM_T2M_CTRL, 16, 1⟩
abbrev TM_T2M_CTRL_REFUSED : Fld := ⟨TM_T2M_CTRL, 17, 1⟩
abbrev TM_M2T_DATA (k : Nat) : Nat := 0x480 + 0x4 * k
abbrev TM_M2T_DATA_V (k : Nat) : Fld := ⟨TM_M2T_DATA k, 0, 32⟩
abbrev TM_M2T_CTRL : Nat := 0x4C0
abbrev TM_M2T_CTRL_LEN : Fld := ⟨TM_M2T_CTRL, 0, 5⟩
abbrev TM_M2T_CTRL_SEND : Fld := ⟨TM_M2T_CTRL, 8, 1⟩
abbrev TM_M2T_CTRL_ACK : Fld := ⟨TM_M2T_CTRL, 9, 1⟩
abbrev TM_M2T_CTRL_FULL : Fld := ⟨TM_M2T_CTRL, 16, 1⟩
abbrev TM_M2T_CTRL_REFUSED : Fld := ⟨TM_M2T_CTRL, 17, 1⟩
abbrev DPL_BASE_LO : Nat := 0x500
abbrev DPL_BASE_LO_ADDR : Fld := ⟨DPL_BASE_LO, 12, 20⟩
abbrev DPL_BASE_HI : Nat := 0x504
abbrev DPL_BASE_HI_ADDR : Fld := ⟨DPL_BASE_HI, 0, 8⟩
abbrev DPL_SIZE : Nat := 0x508
abbrev DPL_SIZE_N : Fld := ⟨DPL_SIZE, 0, 3⟩
abbrev DPL_HEAD : Nat := 0x50C
abbrev DPL_HEAD_V : Fld := ⟨DPL_HEAD, 0, 16⟩
abbrev DPL_TAIL : Nat := 0x510
abbrev DPL_TAIL_V : Fld := ⟨DPL_TAIL, 0, 16⟩
abbrev DPL_CTRL : Nat := 0x514
abbrev DPL_CTRL_EN : Fld := ⟨DPL_CTRL, 0, 1⟩
abbrev DPL_CTRL_OVF : Fld := ⟨DPL_CTRL, 8, 1⟩
abbrev HIN_QUIESCE : Nat := 0x518
abbrev HIN_QUIESCE_REQ : Fld := ⟨HIN_QUIESCE, 0, 1⟩
abbrev HIN_QUIESCE_DONE : Fld := ⟨HIN_QUIESCE, 8, 1⟩
abbrev DPL_CNT : Nat := 0x51C
abbrev DPL_CNT_V : Fld := ⟨DPL_CNT, 0, 32⟩
abbrev DMC_STAT : Nat := 0x040
abbrev DMC_STAT_TRAINED : Fld := ⟨DMC_STAT, 0, 1⟩
abbrev DMC_STAT_HOT : Fld := ⟨DMC_STAT, 1, 1⟩
abbrev DMC_STAT_RATE : Fld := ⟨DMC_STAT, 8, 3⟩
abbrev DMC_REFI : Nat := 0x044
abbrev DMC_REFI_NS : Fld := ⟨DMC_REFI, 0, 16⟩
abbrev DMC_BW_RSV : Nat := 0x048
abbrev DMC_BW_RSV_V : Fld := ⟨DMC_BW_RSV, 0, 32⟩
abbrev DMC_USE_SPILL : Nat := 0x04C
abbrev DMC_USE_SPILL_V : Fld := ⟨DMC_USE_SPILL, 0, 32⟩
abbrev DMC_USE_HOST : Nat := 0x050
abbrev DMC_USE_HOST_V : Fld := ⟨DMC_USE_HOST, 0, 32⟩
abbrev DMC_USE_OTHER : Nat := 0x054
abbrev DMC_USE_OTHER_V : Fld := ⟨DMC_USE_OTHER, 0, 32⟩
abbrev DMC_ERR_LO : Nat := 0x058
abbrev DMC_ERR_LO_V : Fld := ⟨DMC_ERR_LO, 0, 32⟩
abbrev DMC_ERR_HI : Nat := 0x05C
abbrev DMC_ERR_HI_ADDR_HI : Fld := ⟨DMC_ERR_HI, 0, 4⟩
abbrev DMC_ERR_HI_KIND : Fld := ⟨DMC_ERR_HI, 8, 3⟩
abbrev DMC_ERR_HI_SRC : Fld := ⟨DMC_ERR_HI, 16, 8⟩
abbrev DMC_ERR_POS : Nat := 0x060
abbrev DMC_ERR_POS_FIRST : Fld := ⟨DMC_ERR_POS, 0, 7⟩
abbrev DMC_ERR_POS_SECOND_POS : Fld := ⟨DMC_ERR_POS, 8, 7⟩
abbrev DMC_ERR_POS_SECOND : Fld := ⟨DMC_ERR_POS, 15, 1⟩
abbrev DMC_CNT : Nat := 0x064
abbrev DMC_CNT_CE : Fld := ⟨DMC_CNT, 0, 16⟩
abbrev DMC_CNT_UE : Fld := ⟨DMC_CNT, 16, 16⟩
abbrev DMC_CNT_CLR : Nat := 0x068
abbrev DMC_CNT_CLR_CLR : Fld := ⟨DMC_CNT_CLR, 0, 1⟩
abbrev SCR_CTRL : Nat := 0x040
abbrev SCR_CTRL_EN : Fld := ⟨SCR_CTRL, 0, 1⟩
abbrev SCR_CTRL_DRAM_H : Fld := ⟨SCR_CTRL, 8, 8⟩
abbrev SCR_CTRL_SRAM_S : Fld := ⟨SCR_CTRL, 16, 8⟩
abbrev SCR_CTRL_CKPT_T : Fld := ⟨SCR_CTRL, 24, 8⟩
abbrev SCR_POS : Nat := 0x044
abbrev SCR_POS_V : Fld := ⟨SCR_POS, 0, 29⟩
abbrev SCR_PASS : Nat := 0x048
abbrev SCR_PASS_DRAM : Fld := ⟨SCR_PASS, 0, 16⟩
abbrev SCR_PASS_SRAM : Fld := ⟨SCR_PASS, 16, 16⟩
abbrev SCR_POISON : Nat := 0x04C
abbrev SCR_POISON_USED : Fld := ⟨SCR_POISON, 0, 9⟩
abbrev SCR_POISON_FULL : Fld := ⟨SCR_POISON, 31, 1⟩
abbrev POISON_LO (k : Nat) : Nat := 0x100 + 0x8 * k
abbrev POISON_LO_ADDR (k : Nat) : Fld := ⟨POISON_LO k, 3, 29⟩
abbrev POISON_HI (k : Nat) : Nat := 0x104 + 0x8 * k
abbrev POISON_HI_ADDR (k : Nat) : Fld := ⟨POISON_HI k, 0, 4⟩
abbrev POISON_HI_VALID (k : Nat) : Fld := ⟨POISON_HI k, 31, 1⟩
abbrev NOR_CMD : Nat := 0x040
abbrev NOR_CMD_OP : Fld := ⟨NOR_CMD, 0, 3⟩
abbrev NOR_CMD_GO : Fld := ⟨NOR_CMD, 16, 1⟩
abbrev NOR_CMD_BUSY : Fld := ⟨NOR_CMD, 17, 1⟩
abbrev NOR_CMD_RESULT : Fld := ⟨NOR_CMD, 18, 2⟩
abbrev NOR_CMD_LEN : Fld := ⟨NOR_CMD, 24, 8⟩
abbrev NOR_ADDR : Nat := 0x044
abbrev NOR_ADDR_V : Fld := ⟨NOR_ADDR, 0, 27⟩
abbrev NOR_STAT : Nat := 0x048
abbrev NOR_STAT_BUSY : Fld := ⟨NOR_STAT, 0, 1⟩
abbrev NOR_STAT_SUSPENDED : Fld := ⟨NOR_STAT, 1, 1⟩
abbrev NOR_STAT_LOADER_LOCK : Fld := ⟨NOR_STAT, 2, 1⟩
abbrev NOR_WEAR : Nat := 0x04C
abbrev NOR_WEAR_COUNT : Fld := ⟨NOR_WEAR, 0, 20⟩
abbrev NOR_WEAR_BLOCK : Fld := ⟨NOR_WEAR, 20, 11⟩
abbrev NOR_CNT : Nat := 0x050
abbrev NOR_CNT_CE : Fld := ⟨NOR_CNT, 0, 16⟩
abbrev NOR_CNT_UE : Fld := ⟨NOR_CNT, 16, 16⟩
abbrev NOR_CNT_CLR : Nat := 0x054
abbrev NOR_CNT_CLR_CLR : Fld := ⟨NOR_CNT_CLR, 0, 1⟩
abbrev NOR_BUF (k : Nat) : Nat := 0x100 + 0x4 * k
abbrev NOR_BUF_V (k : Nat) : Fld := ⟨NOR_BUF k, 0, 32⟩
abbrev FUS_STAT : Nat := 0x040
abbrev FUS_STAT_CHECK_OK : Fld := ⟨FUS_STAT, 0, 1⟩
abbrev FUS_STAT_LOADED : Fld := ⟨FUS_STAT, 1, 1⟩
abbrev FUS_STAT_LIFE : Fld := ⟨FUS_STAT, 8, 4⟩
abbrev FUS_PROG_W : Nat := 0x044
abbrev FUS_PROG_W_W : Fld := ⟨FUS_PROG_W, 0, 9⟩
abbrev FUS_PROG_DATA : Nat := 0x048
abbrev FUS_PROG_DATA_V : Fld := ⟨FUS_PROG_DATA, 0, 32⟩
abbrev FUS_PROG_GO : Nat := 0x04C
abbrev FUS_PROG_GO_GO : Fld := ⟨FUS_PROG_GO, 0, 1⟩
abbrev FUS_PROG_GO_BUSY : Fld := ⟨FUS_PROG_GO, 1, 1⟩
abbrev FUS_PROG_GO_RESULT : Fld := ⟨FUS_PROG_GO, 2, 2⟩
abbrev FUSE (k : Nat) : Nat := 0x100 + 0x4 * k
abbrev FUSE_V (k : Nat) : Fld := ⟨FUSE k, 0, 32⟩
abbrev SEC_STAT : Nat := 0x040
abbrev SEC_STAT_KEYS_READY : Fld := ⟨SEC_STAT, 0, 1⟩
abbrev SEC_STAT_BUSY : Fld := ⟨SEC_STAT, 1, 1⟩
abbrev SEC_MSG_LO : Nat := 0x044
abbrev SEC_MSG_LO_V : Fld := ⟨SEC_MSG_LO, 0, 32⟩
abbrev SEC_MSG_HI : Nat := 0x048
abbrev SEC_MSG_HI_V : Fld := ⟨SEC_MSG_HI, 0, 4⟩
abbrev SEC_MSG_LEN : Nat := 0x04C
abbrev SEC_MSG_LEN_V : Fld := ⟨SEC_MSG_LEN, 0, 16⟩
abbrev SEC_GO : Nat := 0x050
abbrev SEC_GO_GO : Fld := ⟨SEC_GO, 0, 1⟩
abbrev SEC_RES : Nat := 0x054
abbrev SEC_RES_REASON : Fld := ⟨SEC_RES, 0, 4⟩
abbrev SEC_RES_TYPE : Fld := ⟨SEC_RES, 8, 4⟩
abbrev SEC_RES_DONE : Fld := ⟨SEC_RES, 31, 1⟩
abbrev SEC_KCTR : Nat := 0x058
abbrev SEC_KCTR_V : Fld := ⟨SEC_KCTR, 0, 32⟩
abbrev SEC_ID (k : Nat) : Nat := 0x05C + 0x4 * k
abbrev SEC_ID_V (k : Nat) : Fld := ⟨SEC_ID k, 0, 32⟩
abbrev SEC_CNT : Nat := 0x06C
abbrev SEC_CNT_ACC : Fld := ⟨SEC_CNT, 0, 16⟩
abbrev SEC_CNT_REJ : Fld := ⟨SEC_CNT, 16, 16⟩
abbrev SLOT_POL (k : Nat) : Nat := 0x100 + 0x8 * k
abbrev SLOT_POL_V (k : Nat) : Fld := ⟨SLOT_POL k, 0, 32⟩
abbrev SLOT_STAT (k : Nat) : Nat := 0x104 + 0x8 * k
abbrev SLOT_STAT_VALID (k : Nat) : Fld := ⟨SLOT_STAT k, 0, 1⟩
abbrev SLOT_STAT_AUTH (k : Nat) : Fld := ⟨SLOT_STAT k, 1, 1⟩
abbrev SLOT_STAT_WRITES (k : Nat) : Fld := ⟨SLOT_STAT k, 16, 16⟩
abbrev ATT_CTRL : Nat := 0x040
abbrev ATT_CTRL_GO : Fld := ⟨ATT_CTRL, 0, 1⟩
abbrev ATT_CTRL_BUSY : Fld := ⟨ATT_CTRL, 1, 1⟩
abbrev ATT_CTRL_RESULT : Fld := ⟨ATT_CTRL, 2, 2⟩
abbrev ATT_EXT : Nat := 0x044
abbrev ATT_EXT_REG : Fld := ⟨ATT_EXT, 0, 3⟩
abbrev ATT_EXT_GO : Fld := ⟨ATT_EXT, 8, 1⟩
abbrev ATT_CHAL (k : Nat) : Nat := 0x100 + 0x4 * k
abbrev ATT_CHAL_V (k : Nat) : Fld := ⟨ATT_CHAL k, 0, 32⟩
abbrev ATT_EXT_DATA (k : Nat) : Nat := 0x120 + 0x4 * k
abbrev ATT_EXT_DATA_V (k : Nat) : Fld := ⟨ATT_EXT_DATA k, 0, 32⟩
abbrev ATT_M (k : Nat) : Nat := 0x200 + 0x4 * k
abbrev ATT_M_V (k : Nat) : Fld := ⟨ATT_M k, 0, 32⟩
abbrev ATT_TAG (k : Nat) : Nat := 0x300 + 0x4 * k
abbrev ATT_TAG_V (k : Nat) : Fld := ⟨ATT_TAG k, 0, 32⟩
abbrev LCS_STAT : Nat := 0x040
abbrev LCS_STAT_LIFE : Fld := ⟨LCS_STAT, 0, 4⟩
abbrev LCS_STAT_TEST : Fld := ⟨LCS_STAT, 8, 2⟩
abbrev LCS_STAT_EXPORTED : Fld := ⟨LCS_STAT, 16, 1⟩
abbrev LCS_CTRL : Nat := 0x044
abbrev LCS_CTRL_PROVISION : Fld := ⟨LCS_CTRL, 0, 1⟩
abbrev LCS_CTRL_EXPORT : Fld := ⟨LCS_CTRL, 1, 1⟩
abbrev LCS_CLR_ERR : Nat := 0x048
abbrev LCS_CLR_ERR_V : Fld := ⟨LCS_CLR_ERR, 0, 32⟩
abbrev LCS_EXP (k : Nat) : Nat := 0x100 + 0x4 * k
abbrev LCS_EXP_V (k : Nat) : Fld := ⟨LCS_EXP k, 0, 32⟩
abbrev CMD_ZONE : Nat := 0x040
abbrev CMD_ZONE_V : Fld := ⟨CMD_ZONE, 0, 16⟩
abbrev CMD_CFG : Nat := 0x044
abbrev CMD_CFG_FAIL_MAX : Fld := ⟨CMD_CFG, 0, 8⟩
abbrev CMD_CFG_BLOCK_S : Fld := ⟨CMD_CFG, 8, 8⟩
abbrev CMD_0_DATA (k : Nat) : Nat := 0x100 + 0x4 * k
abbrev CMD_0_DATA_V (k : Nat) : Fld := ⟨CMD_0_DATA k, 0, 32⟩
abbrev CMD_1_DATA (k : Nat) : Nat := 0x180 + 0x4 * k
abbrev CMD_1_DATA_V (k : Nat) : Fld := ⟨CMD_1_DATA k, 0, 32⟩
abbrev CMD_P_GO (k : Nat) : Nat := 0x140 + 0x80 * k
abbrev CMD_P_GO_GO (k : Nat) : Fld := ⟨CMD_P_GO k, 0, 1⟩
abbrev CMD_P_GO_OP (k : Nat) : Fld := ⟨CMD_P_GO k, 1, 1⟩
abbrev CMD_P_GO_LEN (k : Nat) : Fld := ⟨CMD_P_GO k, 16, 5⟩
abbrev CMD_P_RES (k : Nat) : Nat := 0x144 + 0x80 * k
abbrev CMD_P_RES_REASON (k : Nat) : Fld := ⟨CMD_P_RES k, 0, 4⟩
abbrev CMD_P_RES_CH (k : Nat) : Fld := ⟨CMD_P_RES k, 8, 4⟩
abbrev CMD_P_RES_LEN (k : Nat) : Fld := ⟨CMD_P_RES k, 16, 5⟩
abbrev CMD_P_RES_BUSY (k : Nat) : Fld := ⟨CMD_P_RES k, 30, 1⟩
abbrev CMD_P_RES_DONE (k : Nat) : Fld := ⟨CMD_P_RES k, 31, 1⟩
abbrev CMD_P_LAST (k : Nat) : Nat := 0x148 + 0x80 * k
abbrev CMD_P_LAST_V (k : Nat) : Fld := ⟨CMD_P_LAST k, 0, 32⟩
abbrev CMD_CH_CFG (k : Nat) : Nat := 0x300 + 0x20 * k
abbrev CMD_CH_CFG_EN (k : Nat) : Fld := ⟨CMD_CH_CFG k, 0, 1⟩
abbrev CMD_CH_CFG_SLOT (k : Nat) : Fld := ⟨CMD_CH_CFG k, 8, 6⟩
abbrev CMD_CH_CFG_PORTS (k : Nat) : Fld := ⟨CMD_CH_CFG k, 16, 2⟩
abbrev CMD_CH_LAST (k : Nat) : Nat := 0x304 + 0x20 * k
abbrev CMD_CH_LAST_V (k : Nat) : Fld := ⟨CMD_CH_LAST k, 0, 32⟩
abbrev CMD_CH_TX (k : Nat) : Nat := 0x308 + 0x20 * k
abbrev CMD_CH_TX_V (k : Nat) : Fld := ⟨CMD_CH_TX k, 0, 32⟩
abbrev CMD_CH_SVR (k : Nat) : Nat := 0x30C + 0x20 * k
abbrev CMD_CH_SVR_V (k : Nat) : Fld := ⟨CMD_CH_SVR k, 0, 32⟩
abbrev CMD_CH_SVT (k : Nat) : Nat := 0x310 + 0x20 * k
abbrev CMD_CH_SVT_V (k : Nat) : Fld := ⟨CMD_CH_SVT k, 0, 32⟩
abbrev CMD_CH_CNT (k : Nat) : Nat := 0x314 + 0x20 * k
abbrev CMD_CH_CNT_ACC (k : Nat) : Fld := ⟨CMD_CH_CNT k, 0, 16⟩
abbrev CMD_CH_CNT_TAG (k : Nat) : Fld := ⟨CMD_CH_CNT k, 16, 8⟩
abbrev CMD_CH_CNT_REJ (k : Nat) : Fld := ⟨CMD_CH_CNT k, 24, 8⟩
abbrev CRY_CTRL : Nat := 0x040
abbrev CRY_CTRL_OP : Fld := ⟨CRY_CTRL, 0, 4⟩
abbrev CRY_CTRL_SLOT : Fld := ⟨CRY_CTRL, 8, 6⟩
abbrev CRY_CTRL_GO : Fld := ⟨CRY_CTRL, 16, 1⟩
abbrev CRY_CTRL_BUSY : Fld := ⟨CRY_CTRL, 17, 1⟩
abbrev CRY_SRC_LO : Nat := 0x044
abbrev CRY_SRC_LO_V : Fld := ⟨CRY_SRC_LO, 0, 32⟩
abbrev CRY_SRC_HI : Nat := 0x048
abbrev CRY_SRC_HI_V : Fld := ⟨CRY_SRC_HI, 0, 32⟩
abbrev CRY_DST_LO : Nat := 0x04C
abbrev CRY_DST_LO_V : Fld := ⟨CRY_DST_LO, 0, 32⟩
abbrev CRY_DST_HI : Nat := 0x050
abbrev CRY_DST_HI_V : Fld := ⟨CRY_DST_HI, 0, 32⟩
abbrev CRY_LEN : Nat := 0x054
abbrev CRY_LEN_V : Fld := ⟨CRY_LEN, 0, 32⟩
abbrev CRY_STAT : Nat := 0x058
abbrev CRY_STAT_ST : Fld := ⟨CRY_STAT, 0, 2⟩
abbrev CLK_CTRL : Nat := 0x040
abbrev CLK_CTRL_XO_FAIL_POL : Fld := ⟨CLK_CTRL, 0, 1⟩
abbrev CLK_STAT : Nat := 0x044
abbrev CLK_STAT_XO_STABLE : Fld := ⟨CLK_STAT, 0, 1⟩
abbrev CLK_STAT_XO32_OK : Fld := ⟨CLK_STAT, 1, 1⟩
abbrev CLK_STAT_ON_RCO : Fld := ⟨CLK_STAT, 2, 1⟩
abbrev CLK_STAT_RCO_CAL : Fld := ⟨CLK_STAT, 3, 1⟩
abbrev CLK_AC_DIV : Nat := 0x048
abbrev CLK_AC_DIV_DIV : Fld := ⟨CLK_AC_DIV, 0, 3⟩
abbrev CLK_RCO_CAL : Nat := 0x04C
abbrev CLK_RCO_CAL_E : Fld := ⟨CLK_RCO_CAL, 0, 16⟩
abbrev CLK_CNT_SECREF : Nat := 0x050
abbrev CLK_CNT_SECREF_CNT : Fld := ⟨CLK_CNT_SECREF, 0, 16⟩
abbrev PLL_CFG : Nat := 0x040
abbrev PLL_CFG_N : Fld := ⟨PLL_CFG, 0, 12⟩
abbrev PLL_STAT : Nat := 0x044
abbrev PLL_STAT_LOCKED : Fld := ⟨PLL_STAT, 0, 1⟩
abbrev PLL_STAT_REF_RCO : Fld := ⟨PLL_STAT, 1, 1⟩
abbrev PLL_STAT_LOSSES : Fld := ⟨PLL_STAT, 8, 8⟩
abbrev CSV_FAULT : Nat := 0x040
abbrev CSV_FAULT_FAULT : Fld := ⟨CSV_FAULT, 0, 10⟩
abbrev CSV_EXP (k : Nat) : Nat := 0x100 + 0x10 * k
abbrev CSV_EXP_E (k : Nat) : Fld := ⟨CSV_EXP k, 0, 24⟩
abbrev CSV_CNT (k : Nat) : Nat := 0x104 + 0x10 * k
abbrev CSV_CNT_CNT (k : Nat) : Fld := ⟨CSV_CNT k, 0, 24⟩
abbrev CSV_STAT (k : Nat) : Nat := 0x108 + 0x10 * k
abbrev CSV_STAT_OK (k : Nat) : Fld := ⟨CSV_STAT k, 0, 1⟩
abbrev CSV_STAT_SUSPENDED (k : Nat) : Fld := ⟨CSV_STAT k, 1, 1⟩
abbrev CSV_STAT_FAILS (k : Nat) : Fld := ⟨CSV_STAT k, 8, 8⟩
abbrev CSV_STAT_WINDOWS (k : Nat) : Fld := ⟨CSV_STAT k, 16, 16⟩
abbrev RST_CAUSE : Nat := 0x040
abbrev RST_CAUSE_CAUSE : Fld := ⟨RST_CAUSE, 0, 9⟩
abbrev RST_REQ : Nat := 0x044
abbrev RST_REQ_COMPUTE : Fld := ⟨RST_REQ, 0, 1⟩
abbrev RST_REQ_CLUSTER : Fld := ⟨RST_REQ, 1, 1⟩
abbrev RST_REQ_RP0 : Fld := ⟨RST_REQ, 2, 1⟩
abbrev RST_REQ_RP1 : Fld := ⟨RST_REQ, 3, 1⟩
abbrev RST_REQ_DIE_A : Fld := ⟨RST_REQ, 8, 1⟩
abbrev RST_REQ_DIE_B : Fld := ⟨RST_REQ, 9, 1⟩
abbrev RST_REQ_KEY : Fld := ⟨RST_REQ, 16, 16⟩
abbrev RST_WDG : Nat := 0x048
abbrev RST_WDG_TMO : Fld := ⟨RST_WDG, 0, 10⟩
abbrev RST_WDG_EN : Fld := ⟨RST_WDG, 16, 1⟩
abbrev RST_WDG_KICK : Nat := 0x04C
abbrev RST_WDG_KICK_V : Fld := ⟨RST_WDG_KICK, 0, 32⟩
abbrev RST_CNT : Nat := 0x050
abbrev RST_CNT_COMPUTE : Fld := ⟨RST_CNT, 0, 8⟩
abbrev RST_CNT_CLUSTER : Fld := ⟨RST_CNT, 8, 8⟩
abbrev RST_CNT_RP : Fld := ⟨RST_CNT, 16, 8⟩
abbrev RST_CNT_DIE : Fld := ⟨RST_CNT, 24, 8⟩
abbrev PWR_STAT : Nat := 0x040
abbrev PWR_STAT_ON : Fld := ⟨PWR_STAT, 0, 10⟩
abbrev PWR_CNT_SECREF : Nat := 0x044
abbrev PWR_CNT_SECREF_CNT : Fld := ⟨PWR_CNT_SECREF, 0, 16⟩
abbrev PWR_DOM (k : Nat) : Nat := 0x100 + 0x4 * k
abbrev PWR_DOM_POLICY (k : Nat) : Fld := ⟨PWR_DOM k, 0, 2⟩
abbrev PWR_DOM_ON (k : Nat) : Fld := ⟨PWR_DOM k, 8, 1⟩
abbrev PWR_DOM_DRAIN_ERR (k : Nat) : Fld := ⟨PWR_DOM k, 9, 1⟩
abbrev VFS_REQ : Nat := 0x040
abbrev VFS_REQ_OP : Fld := ⟨VFS_REQ, 0, 3⟩
abbrev VFS_STAT : Nat := 0x044
abbrev VFS_STAT_CUR : Fld := ⟨VFS_STAT, 0, 3⟩
abbrev VFS_STAT_TARGET : Fld := ⟨VFS_STAT, 4, 3⟩
abbrev VFS_STAT_BUSY : Fld := ⟨VFS_STAT, 8, 1⟩
abbrev VFS_STAT_CAPPED : Fld := ⟨VFS_STAT, 9, 1⟩
abbrev VFS_STAT_VFAIL : Fld := ⟨VFS_STAT, 10, 1⟩
abbrev VFS_CEIL : Nat := 0x048
abbrev VFS_CEIL_OP : Fld := ⟨VFS_CEIL, 0, 3⟩
abbrev VFS_VOUT : Nat := 0x04C
abbrev VFS_VOUT_MV : Fld := ⟨VFS_VOUT, 0, 12⟩
abbrev VFS_CTRL : Nat := 0x050
abbrev VFS_CTRL_CLR_FAIL : Fld := ⟨VFS_CTRL, 0, 1⟩
abbrev VFS_CNT : Nat := 0x054
abbrev VFS_CNT_CNT : Fld := ⟨VFS_CNT, 0, 16⟩
abbrev VFS_OP (k : Nat) : Nat := 0x100 + 0x4 * k
abbrev VFS_OP_NOM (k : Nat) : Fld := ⟨VFS_OP k, 0, 12⟩
abbrev VFS_OP_MARGIN (k : Nat) : Fld := ⟨VFS_OP k, 16, 8⟩
abbrev VFS_OP_DIV (k : Nat) : Fld := ⟨VFS_OP k, 24, 3⟩
abbrev SLP_CTRL : Nat := 0x040
abbrev SLP_CTRL_OWN_SLEEP : Fld := ⟨SLP_CTRL, 0, 1⟩
abbrev SLP_CTRL_PARKED : Fld := ⟨SLP_CTRL, 1, 1⟩
abbrev SLP_CTRL_COORD : Fld := ⟨SLP_CTRL, 2, 1⟩
abbrev SLP_CTRL_COORD_HS : Fld := ⟨SLP_CTRL, 3, 1⟩
abbrev SLP_CTRL_COMM_OK : Fld := ⟨SLP_CTRL, 8, 1⟩
abbrev SLP_CTRL_SHDN_REQ : Fld := ⟨SLP_CTRL, 9, 1⟩
abbrev SLP_CTRL_SHDN_ACK : Fld := ⟨SLP_CTRL, 10, 1⟩
abbrev SLP_MODE_REQ : Nat := 0x044
abbrev SLP_MODE_REQ_MODE : Fld := ⟨SLP_MODE_REQ, 0, 3⟩
abbrev SLP_STAT : Nat := 0x048
abbrev SLP_STAT_SLEEP : Fld := ⟨SLP_STAT, 0, 3⟩
abbrev SLP_STAT_PREV : Fld := ⟨SLP_STAT, 8, 3⟩
abbrev SLP_STAT_DEG_CAUSE : Fld := ⟨SLP_STAT, 16, 6⟩
abbrev SLP_STAT_NO_STANDBY : Fld := ⟨SLP_STAT, 24, 1⟩
abbrev SLP_STAT_WAKEL_STUCK : Fld := ⟨SLP_STAT, 25, 1⟩
abbrev SLP_TIME : Nat := 0x04C
abbrev SLP_TIME_VOTE_TMO : Fld := ⟨SLP_TIME, 0, 8⟩
abbrev SLP_TIME_PREP_T : Fld := ⟨SLP_TIME, 8, 8⟩
abbrev SLP_TIME_SHDN_TMO : Fld := ⟨SLP_TIME, 16, 8⟩
abbrev SLP_TIME_MAX_AWAKE : Fld := ⟨SLP_TIME, 24, 8⟩
abbrev SLP_FWK_CFG : Nat := 0x050
abbrev SLP_FWK_CFG_FW_WIN : Fld := ⟨SLP_FWK_CFG, 0, 8⟩
abbrev SLP_FWK_CFG_FWK_MAX : Fld := ⟨SLP_FWK_CFG, 8, 4⟩
abbrev SLP_FWK_CFG_FWK_HOLD : Fld := ⟨SLP_FWK_CFG, 16, 8⟩
abbrev SLP_WAKE : Nat := 0x054
abbrev SLP_WAKE_WK_FILT : Fld := ⟨SLP_WAKE, 0, 8⟩
abbrev SLP_WAKE_WK_PULSE : Fld := ⟨SLP_WAKE, 8, 8⟩
abbrev SLP_WAKE_DRV_LOCAL : Fld := ⟨SLP_WAKE, 16, 1⟩
abbrev SLP_WAKE_WK_TX : Fld := ⟨SLP_WAKE, 17, 1⟩
abbrev SLP_WAKE_WAKEL_ARM : Fld := ⟨SLP_WAKE, 24, 1⟩
abbrev SLP_WK_MODE : Nat := 0x058
abbrev SLP_WK_MODE_RUN : Fld := ⟨SLP_WK_MODE, 0, 5⟩
abbrev SLP_WK_SRC : Nat := 0x05C
abbrev SLP_WK_SRC_SRC : Fld := ⟨SLP_WK_SRC, 0, 7⟩
abbrev SLP_WK_SRC_DIN : Fld := ⟨SLP_WK_SRC, 8, 6⟩
abbrev SLP_WK_SRC_DELAY : Fld := ⟨SLP_WK_SRC, 16, 16⟩
abbrev SLP_PART : Nat := 0x060
abbrev SLP_PART_DOM : Fld := ⟨SLP_PART, 0, 5⟩
abbrev SLP_PART_PORTS : Nat := 0x064
abbrev SLP_PART_PORTS_MASK : Fld := ⟨SLP_PART_PORTS, 0, 31⟩
abbrev SLP_SHDN_KEEP : Nat := 0x068
abbrev SLP_SHDN_KEEP_A : Fld := ⟨SLP_SHDN_KEEP, 0, 16⟩
abbrev SLP_SHDN_KEEP_B : Fld := ⟨SLP_SHDN_KEEP, 16, 16⟩
abbrev SLP_VOTE_IN : Nat := 0x06C
abbrev SLP_VOTE_IN_NODE : Fld := ⟨SLP_VOTE_IN, 0, 6⟩
abbrev SLP_VOTE_IN_KIND : Fld := ⟨SLP_VOTE_IN, 8, 4⟩
abbrev SLP_VOTE_IN_ROUND : Fld := ⟨SLP_VOTE_IN, 16, 16⟩
abbrev SLP_ROUND : Nat := 0x070
abbrev SLP_ROUND_ROUND : Fld := ⟨SLP_ROUND, 0, 16⟩
abbrev SLP_ROUND_READY : Fld := ⟨SLP_ROUND, 16, 8⟩
abbrev SLP_ROUND_ENROLLED : Fld := ⟨SLP_ROUND, 24, 8⟩
abbrev SLP_OVERDUE (k : Nat) : Nat := 0x074 + 0x4 * k
abbrev SLP_OVERDUE_V (k : Nat) : Fld := ⟨SLP_OVERDUE k, 0, 32⟩
abbrev SLP_SILENT (k : Nat) : Nat := 0x07C + 0x4 * k
abbrev SLP_SILENT_V (k : Nat) : Fld := ⟨SLP_SILENT k, 0, 32⟩
abbrev SLP_CNT : Nat := 0x084
abbrev SLP_CNT_LATE : Fld := ⟨SLP_CNT, 0, 8⟩
abbrev SLP_CNT_ABORT : Fld := ⟨SLP_CNT, 8, 8⟩
abbrev SLP_CNT_SLEEPS : Fld := ⟨SLP_CNT, 16, 8⟩
abbrev SLP_CNT_FEED_OFF : Fld := ⟨SLP_CNT, 24, 8⟩
abbrev SLP_FWK_CNT : Nat := 0x088
abbrev SLP_FWK_CNT_WAKE_L : Fld := ⟨SLP_FWK_CNT, 0, 4⟩
abbrev SLP_FWK_CNT_CX0 : Fld := ⟨SLP_FWK_CNT, 4, 4⟩
abbrev SLP_FWK_CNT_CX1 : Fld := ⟨SLP_FWK_CNT, 8, 4⟩
abbrev SLP_FWK_CNT_DIS_WAKE_L : Fld := ⟨SLP_FWK_CNT, 16, 1⟩
abbrev SLP_FWK_CNT_DIS_CX0 : Fld := ⟨SLP_FWK_CNT, 17, 1⟩
abbrev SLP_FWK_CNT_DIS_CX1 : Fld := ⟨SLP_FWK_CNT, 18, 1⟩
abbrev SLP_FWK_DIS_LO : Nat := 0x08C
abbrev SLP_FWK_DIS_LO_V : Fld := ⟨SLP_FWK_DIS_LO, 0, 32⟩
abbrev SLP_FWK_DIS_HI : Nat := 0x090
abbrev SLP_FWK_DIS_HI_V : Fld := ⟨SLP_FWK_DIS_HI, 0, 16⟩
abbrev SLP_SERVICE : Nat := 0x094
abbrev SLP_SERVICE_MAX : Fld := ⟨SLP_SERVICE, 0, 8⟩
abbrev SLP_SERVICE_LEFT : Fld := ⟨SLP_SERVICE, 16, 8⟩
abbrev SLP_CNT_CLR : Nat := 0x098
abbrev SLP_CNT_CLR_CLR : Fld := ⟨SLP_CNT_CLR, 0, 1⟩
abbrev SLP_NODE_CFG (k : Nat) : Nat := 0x100 + 0x8 * k
abbrev SLP_NODE_CFG_ENROLLED (k : Nat) : Fld := ⟨SLP_NODE_CFG k, 0, 1⟩
abbrev SLP_NODE_CFG_FEED_POL (k : Nat) : Fld := ⟨SLP_NODE_CFG k, 1, 1⟩
abbrev SLP_NODE_CFG_FEED_VALID (k : Nat) : Fld := ⟨SLP_NODE_CFG k, 2, 1⟩
abbrev SLP_NODE_CFG_FEED_DIE (k : Nat) : Fld := ⟨SLP_NODE_CFG k, 3, 1⟩
abbrev SLP_NODE_CFG_FEED_IDX (k : Nat) : Fld := ⟨SLP_NODE_CFG k, 4, 4⟩
abbrev SLP_NODE_STAT (k : Nat) : Nat := 0x104 + 0x8 * k
abbrev SLP_NODE_STAT_KIND (k : Nat) : Fld := ⟨SLP_NODE_STAT k, 0, 4⟩
abbrev SLP_NODE_STAT_SILENT (k : Nat) : Fld := ⟨SLP_NODE_STAT k, 4, 1⟩
abbrev SLP_NODE_STAT_OVERDUE (k : Nat) : Fld := ⟨SLP_NODE_STAT k, 5, 1⟩
abbrev SLP_NODE_STAT_FEED_OFF (k : Nat) : Fld := ⟨SLP_NODE_STAT k, 6, 1⟩
abbrev SLP_NODE_STAT_AWAKE_S (k : Nat) : Fld := ⟨SLP_NODE_STAT k, 16, 16⟩
abbrev SLP_CWK_CFG (k : Nat) : Nat := 0x300 + 0x20 * k
abbrev SLP_CWK_CFG_WUP_EN (k : Nat) : Fld := ⟨SLP_CWK_CFG k, 0, 1⟩
abbrev SLP_CWK_CFG_WUF_EN (k : Nat) : Fld := ⟨SLP_CWK_CFG k, 1, 1⟩
abbrev SLP_CWK_CFG_IDE (k : Nat) : Fld := ⟨SLP_CWK_CFG k, 2, 1⟩
abbrev SLP_CWK_CFG_RATE (k : Nat) : Fld := ⟨SLP_CWK_CFG k, 4, 2⟩
abbrev SLP_CWK_CFG_DLC (k : Nat) : Fld := ⟨SLP_CWK_CFG k, 8, 4⟩
abbrev SLP_CWK_ID (k : Nat) : Nat := 0x304 + 0x20 * k
abbrev SLP_CWK_ID_ID (k : Nat) : Fld := ⟨SLP_CWK_ID k, 0, 29⟩
abbrev SLP_CWK_IDMASK (k : Nat) : Nat := 0x308 + 0x20 * k
abbrev SLP_CWK_IDMASK_ID (k : Nat) : Fld := ⟨SLP_CWK_IDMASK k, 0, 29⟩
abbrev SLP_CWK_DATA_LO (k : Nat) : Nat := 0x30C + 0x20 * k
abbrev SLP_CWK_DATA_LO_V (k : Nat) : Fld := ⟨SLP_CWK_DATA_LO k, 0, 32⟩
abbrev SLP_CWK_DATA_HI (k : Nat) : Nat := 0x310 + 0x20 * k
abbrev SLP_CWK_DATA_HI_V (k : Nat) : Fld := ⟨SLP_CWK_DATA_HI k, 0, 32⟩
abbrev SLP_CWK_DMASK_LO (k : Nat) : Nat := 0x314 + 0x20 * k
abbrev SLP_CWK_DMASK_LO_V (k : Nat) : Fld := ⟨SLP_CWK_DMASK_LO k, 0, 32⟩
abbrev SLP_CWK_DMASK_HI (k : Nat) : Nat := 0x318 + 0x20 * k
abbrev SLP_CWK_DMASK_HI_V (k : Nat) : Fld := ⟨SLP_CWK_DMASK_HI k, 0, 32⟩
abbrev SLP_FWK_DIN (k : Nat) : Nat := 0x340 + 0x4 * k
abbrev SLP_FWK_DIN_V (k : Nat) : Fld := ⟨SLP_FWK_DIN k, 0, 32⟩
abbrev FAG_CTRL : Nat := 0x040
abbrev FAG_CTRL_NOTIFY_MIN : Fld := ⟨FAG_CTRL, 0, 3⟩
abbrev FAG_CTRL_ESC_EN : Fld := ⟨FAG_CTRL, 4, 1⟩
abbrev FAG_CTRL_ESC_TMO : Fld := ⟨FAG_CTRL, 8, 8⟩
abbrev FAG_ACT : Nat := 0x044
abbrev FAG_ACT_CODE : Fld := ⟨FAG_ACT, 0, 16⟩
abbrev FAG_ACT_SEV : Fld := ⟨FAG_ACT, 16, 3⟩
abbrev FAG_ACT_DEPTH : Fld := ⟨FAG_ACT, 20, 2⟩
abbrev FAG_ACT_ACTIVE : Fld := ⟨FAG_ACT, 31, 1⟩
abbrev FAG_DONE : Nat := 0x048
abbrev FAG_DONE_END : Fld := ⟨FAG_DONE, 0, 1⟩
abbrev FAG_CNT : Nat := 0x04C
abbrev FAG_CNT_NESTED : Fld := ⟨FAG_CNT, 0, 16⟩
abbrev FAG_CNT_PREEMPT : Fld := ⟨FAG_CNT, 16, 16⟩
abbrev FAG_PATH : Nat := 0x050
abbrev FAG_PATH_V : Fld := ⟨FAG_PATH, 0, 16⟩
abbrev FAG_AO_LAST : Nat := 0x054
abbrev FAG_AO_LAST_CODE : Fld := ⟨FAG_AO_LAST, 0, 16⟩
abbrev FAG_CNT_CLR : Nat := 0x058
abbrev FAG_CNT_CLR_CLR : Fld := ⟨FAG_CNT_CLR, 0, 1⟩
abbrev FAG_SEVCNT (k : Nat) : Nat := 0x060 + 0x4 * k
abbrev FAG_SEVCNT_V (k : Nat) : Fld := ⟨FAG_SEVCNT k, 0, 32⟩
abbrev FAG_STACK (k : Nat) : Nat := 0x080 + 0x4 * k
abbrev FAG_STACK_CODE (k : Nat) : Fld := ⟨FAG_STACK k, 0, 16⟩
abbrev FAG_STACK_SEV (k : Nat) : Fld := ⟨FAG_STACK k, 16, 3⟩
abbrev FAG_STACK_VALID (k : Nat) : Fld := ⟨FAG_STACK k, 31, 1⟩
abbrev LOG_CTRL : Nat := 0x040
abbrev LOG_CTRL_LOG_MIN : Fld := ⟨LOG_CTRL, 0, 3⟩
abbrev LOG_CTRL_CLR : Fld := ⟨LOG_CTRL, 8, 1⟩
abbrev LOG_STAT : Nat := 0x044
abbrev LOG_STAT_N : Fld := ⟨LOG_STAT, 0, 7⟩
abbrev LOG_STAT_OVF : Fld := ⟨LOG_STAT, 16, 16⟩
abbrev LOG_TAKE : Nat := 0x048
abbrev LOG_TAKE_V : Fld := ⟨LOG_TAKE, 0, 32⟩
abbrev LOG_E (k : Nat) : Nat := 0x100 + 0x4 * k
abbrev LOG_E_V (k : Nat) : Fld := ⟨LOG_E k, 0, 32⟩
abbrev STS_CTRL : Nat := 0x040
abbrev STS_CTRL_EN : Fld := ⟨STS_CTRL, 0, 1⟩
abbrev STS_CTRL_STEPS : Fld := ⟨STS_CTRL, 8, 7⟩
abbrev STS_RESULT : Nat := 0x044
abbrev STS_RESULT_RESULT : Fld := ⟨STS_RESULT, 0, 3⟩
abbrev STS_RESULT_FAILED : Fld := ⟨STS_RESULT, 8, 7⟩
abbrev STS_RESULT_SKIP : Fld := ⟨STS_RESULT, 16, 3⟩
abbrev STS_RESULT_RUN : Fld := ⟨STS_RESULT, 20, 12⟩
abbrev STS_TIME : Nat := 0x048
abbrev STS_TIME_V : Fld := ⟨STS_TIME, 0, 16⟩
abbrev STS_START : Nat := 0x04C
abbrev STS_START_PASSED : Fld := ⟨STS_START, 0, 1⟩
abbrev STS_START_FUSE : Fld := ⟨STS_START, 1, 1⟩
abbrev STS_START_REPAIR : Fld := ⟨STS_START, 2, 1⟩
abbrev STS_START_COMPARATOR : Fld := ⟨STS_START, 3, 1⟩
abbrev STS_START_PATH : Fld := ⟨STS_START, 4, 1⟩
abbrev STS_START_REPAIRS : Fld := ⟨STS_START, 8, 8⟩
abbrev STS_NFAIL : Nat := 0x050
abbrev STS_NFAIL_N : Fld := ⟨STS_NFAIL, 0, 8⟩
abbrev STS_NFAIL_MORE : Fld := ⟨STS_NFAIL, 8, 1⟩
abbrev STS_NFAIL_UNREP : Fld := ⟨STS_NFAIL, 16, 8⟩
abbrev STS_PIN_LO : Nat := 0x054
abbrev STS_PIN_LO_V : Fld := ⟨STS_PIN_LO, 0, 32⟩
abbrev STS_PIN_HI : Nat := 0x058
abbrev STS_PIN_HI_V : Fld := ⟨STS_PIN_HI, 0, 7⟩
abbrev STS_OL : Nat := 0x05C
abbrev STS_OL_A : Fld := ⟨STS_OL, 0, 16⟩
abbrev STS_OL_B : Fld := ⟨STS_OL, 16, 16⟩
abbrev STS_FAIL (k : Nat) : Nat := 0x100 + 0x10 * k
abbrev STS_FAIL_ARRAY (k : Nat) : Fld := ⟨STS_FAIL k, 0, 4⟩
abbrev STS_FAIL_ROW (k : Nat) : Fld := ⟨STS_FAIL k, 4, 12⟩
abbrev STS_FAIL_BANK (k : Nat) : Fld := ⟨STS_FAIL k, 16, 8⟩
abbrev STS_FAIL_SPARE (k : Nat) : Fld := ⟨STS_FAIL k, 24, 4⟩
abbrev STS_FAIL_UNREP (k : Nat) : Fld := ⟨STS_FAIL k, 31, 1⟩
abbrev STS_FAIL_ADDR (k : Nat) : Nat := 0x104 + 0x10 * k
abbrev STS_FAIL_ADDR_V (k : Nat) : Fld := ⟨STS_FAIL_ADDR k, 0, 32⟩
abbrev STS_FAIL_HI (k : Nat) : Nat := 0x108 + 0x10 * k
abbrev STS_FAIL_HI_ADDR_HI (k : Nat) : Fld := ⟨STS_FAIL_HI k, 0, 4⟩
abbrev STS_FAIL_HI_BIT (k : Nat) : Fld := ⟨STS_FAIL_HI k, 8, 8⟩
abbrev HON_CTRL : Nat := 0x040
abbrev HON_CTRL_PERIOD : Fld := ⟨HON_CTRL, 0, 8⟩
abbrev HON_CTRL_WARN_D : Fld := ⟨HON_CTRL, 8, 8⟩
abbrev HON_CTRL_PLAN_NOW : Fld := ⟨HON_CTRL, 16, 1⟩
abbrev HON_STAT : Nat := 0x044
abbrev HON_STAT_IN_FORCE : Fld := ⟨HON_STAT, 0, 1⟩
abbrev HON_STAT_BUSY : Fld := ⟨HON_STAT, 1, 1⟩
abbrev HON_STAT_EOM : Fld := ⟨HON_STAT, 2, 1⟩
abbrev HON_STAT_EXHAUSTED : Fld := ⟨HON_STAT, 3, 1⟩
abbrev HON_STAT_OVERRUN : Fld := ⟨HON_STAT, 4, 1⟩
abbrev HON_STAT_NEXT : Fld := ⟨HON_STAT, 8, 8⟩
abbrev HON_PLAN : Nat := 0x048
abbrev HON_PLAN_V : Fld := ⟨HON_PLAN, 0, 32⟩
abbrev HON_HOURS : Nat := 0x04C
abbrev HON_HOURS_V : Fld := ⟨HON_HOURS, 0, 32⟩
abbrev HON_CEIL : Nat := 0x050
abbrev HON_CEIL_TIMING : Fld := ⟨HON_CEIL, 0, 3⟩
abbrev HON_CEIL_TEMP : Fld := ⟨HON_CEIL, 4, 3⟩
abbrev HON_CEIL_TJ : Fld := ⟨HON_CEIL, 16, 8⟩
abbrev HON_MON (k : Nat) : Nat := 0x100 + 0x10 * k
abbrev HON_MON_MARGIN (k : Nat) : Fld := ⟨HON_MON k, 0, 8⟩
abbrev HON_MON_EOM (k : Nat) : Fld := ⟨HON_MON k, 8, 1⟩
abbrev HON_MON_EXHAUSTED (k : Nat) : Fld := ⟨HON_MON k, 9, 1⟩
abbrev HON_MON_OVERRUN (k : Nat) : Fld := ⟨HON_MON k, 10, 1⟩
abbrev HON_MON_DAYS (k : Nat) : Fld := ⟨HON_MON k, 16, 16⟩
abbrev HON_MON_VALUE (k : Nat) : Nat := 0x104 + 0x10 * k
abbrev HON_MON_VALUE_V (k : Nat) : Fld := ⟨HON_MON_VALUE k, 0, 32⟩
abbrev HON_MON_ALLOW (k : Nat) : Nat := 0x108 + 0x10 * k
abbrev HON_MON_ALLOW_V (k : Nat) : Fld := ⟨HON_MON_ALLOW k, 0, 8⟩
abbrev HON_MON_WORST (k : Nat) : Nat := 0x10C + 0x10 * k
abbrev HON_MON_WORST_V (k : Nat) : Fld := ⟨HON_MON_WORST k, 0, 8⟩
abbrev AGM_RON (k : Nat) : Nat := 0x100 + 0x4 * k
abbrev AGM_RON_R (k : Nat) : Fld := ⟨AGM_RON k, 0, 16⟩
abbrev AGM_Q (k : Nat) : Nat := 0x180 + 0x4 * k
abbrev AGM_Q_AH (k : Nat) : Fld := ⟨AGM_Q k, 0, 24⟩
abbrev AGM_SLACK (k : Nat) : Nat := 0x200 + 0x4 * k
abbrev AGM_SLACK_SLACK (k : Nat) : Fld := ⟨AGM_SLACK k, 0, 10⟩
abbrev AGM_SLACK_HOURS (k : Nat) : Fld := ⟨AGM_SLACK k, 16, 16⟩
abbrev AGM_RO : Nat := 0x220
abbrev AGM_RO_V : Fld := ⟨AGM_RO, 0, 16⟩
abbrev AGM_BTI : Nat := 0x224
abbrev AGM_BTI_V : Fld := ⟨AGM_BTI, 0, 16⟩
abbrev AGM_DRAM : Nat := 0x228
abbrev AGM_DRAM_H : Fld := ⟨AGM_DRAM, 0, 7⟩
abbrev AGM_NOR : Nat := 0x22C
abbrev AGM_NOR_V : Fld := ⟨AGM_NOR, 0, 20⟩

/-! Interrupt source bits (INT_RAW.SRC). -/

abbrev INT_TMB_STEP_DONE : Nat := 0
abbrev INT_TMB_HOLDOVER : Nat := 1
abbrev INT_TMB_TWIN_ALIGN : Nat := 2
abbrev INT_TMB_SRC_BACK : Nat := 3
abbrev INT_PTP_TS_AVAIL : Nat := 0
abbrev INT_PTP_TS_OVF : Nat := 1
abbrev INT_PTP_SYNC_LOST : Nat := 2
abbrev INT_PTP_SYNCED : Nat := 3
abbrev INT_PTP_GM_CHANGE : Nat := 4
abbrev INT_IXP_FREERUN : Nat := 0
abbrev INT_IXP_REINDEX : Nat := 1
abbrev INT_IXP_SYNC_IGN : Nat := 2
abbrev INT_IXP_COMMIT_DONE : Nat := 3
abbrev INT_IXP_COMMIT_REF : Nat := 4
abbrev INT_IXP_SYNC_BACK : Nat := 5
abbrev INT_IXP_TWIN_TBL : Nat := 6
abbrev INT_SWC_FAILOVER : Nat := 0
abbrev INT_SWC_BOTH_DOWN : Nat := 1
abbrev INT_SWC_MOVE_DONE : Nat := 2
abbrev INT_SWC_MOVE_TMO : Nat := 3
abbrev INT_SWC_COPY_REF : Nat := 4
abbrev INT_SWC_LEARN_REF : Nat := 5
abbrev INT_PORT_LINK_UP : Nat := 0
abbrev INT_PORT_LINK_DOWN : Nat := 1
abbrev INT_PORT_VERIFY_FAIL : Nat := 2
abbrev INT_SPL_FULL : Nat := 0
abbrev INT_SPL_BW_REF : Nat := 1
abbrev INT_SPL_ECC_DROP : Nat := 2
abbrev INT_CXC_RX_NEW : Nat := 0
abbrev INT_CXC_TX_DONE : Nat := 1
abbrev INT_CXC_STATE : Nat := 2
abbrev INT_CXC_LOST : Nat := 3
abbrev INT_CXC_REF_LATE : Nat := 4
abbrev INT_LNC_RX : Nat := 0
abbrev INT_LNC_ERR : Nat := 1
abbrev INT_LNC_COLL : Nat := 2
abbrev INT_LNC_WAKE : Nat := 3
abbrev INT_LNC_STUCK : Nat := 4
abbrev INT_LSW_ON_DONE : Nat := 0
abbrev INT_LSW_LATCH : Nat := 1
abbrev INT_LSW_LOCK : Nat := 2
abbrev INT_LSW_UNLOCK : Nat := 3
abbrev INT_LSW_OFF_REF : Nat := 4
abbrev INT_LSW_OPEN : Nat := 5
abbrev INT_LSW_SHORT_BAT : Nat := 6
abbrev INT_LSW_REV : Nat := 7
abbrev INT_PDC_HOLD : Nat := 0
abbrev INT_PDC_SAFE : Nat := 1
abbrev INT_PDC_TWC : Nat := 2
abbrev INT_PDC_RESUME : Nat := 3
abbrev INT_PDC_LIMP : Nat := 4
abbrev INT_PDC_BN : Nat := 5
abbrev INT_PDC_RES_MISMATCH : Nat := 6
abbrev INT_PDC_TWC_REF : Nat := 7
abbrev INT_PDC_UV0 : Nat := 8
abbrev INT_PDC_DEFER : Nat := 11
abbrev INT_INC_WAKE : Nat := 0
abbrev INT_INC_LATE : Nat := 1
abbrev INT_DIG_CHANGE : Nat := 0
abbrev INT_DIG_STUCK : Nat := 1
abbrev INT_DIG_CHATTER : Nat := 2
abbrev INT_DIG_DIAG : Nat := 3
abbrev INT_ANA_LIMIT : Nat := 0
abbrev INT_ANA_SAT : Nat := 1
abbrev INT_BR_PERR : Nat := 0
abbrev INT_BR_TMO : Nat := 1
abbrev INT_BR_PEER_DOWN : Nat := 2
abbrev INT_BR_PEER_UP : Nat := 3
abbrev INT_BR_REPLAY : Nat := 4
abbrev INT_BR_WIN_DONE : Nat := 5
abbrev INT_TWR_ROLE : Nat := 0
abbrev INT_TWR_TWIN_LOST : Nat := 1
abbrev INT_TWR_PAIRED : Nat := 2
abbrev INT_TWR_MISMATCH : Nat := 3
abbrev INT_TWR_IMG_MISS : Nat := 4
abbrev INT_TWR_OVERRIDE : Nat := 5
abbrev INT_TWR_TWC_DONE : Nat := 6
abbrev INT_TWR_REJOIN_DONE : Nat := 7
abbrev INT_TWL_UP : Nat := 0
abbrev INT_TWL_DOWN : Nat := 1
abbrev INT_TWL_SINGLE : Nat := 2
abbrev INT_MIG_ROUND_DONE : Nat := 0
abbrev INT_MIG_DONE : Nat := 1
abbrev INT_MIG_ABORTED : Nat := 2
abbrev INT_CALC_CFAULT : Nat := 0
abbrev INT_CALC_TEST_FAIL : Nat := 1
abbrev INT_CAL_MISMATCH : Nat := 0
abbrev INT_CAL_RESTART_DONE : Nat := 1
abbrev INT_CAL_CFAULT : Nat := 2
abbrev INT_CAL_REL_ERR : Nat := 3
abbrev INT_CAL_EARLY : Nat := 4
abbrev INT_MBC_NEW : Nat := 0
abbrev INT_MBC_SPACE : Nat := 1
abbrev INT_MBC_CROSS : Nat := 2
abbrev INT_MBC_REFUSED : Nat := 3
abbrev INT_MBX_DOORBELL : Nat := 0
abbrev INT_ISO_REFUSED : Nat := 0
abbrev INT_ISO_PART_DONE : Nat := 1
abbrev INT_IOM_FAULT : Nat := 0
abbrev INT_IOM_TM : Nat := 1
abbrev INT_IOM_INV_DONE : Nat := 2
abbrev INT_VMC_FAULT : Nat := 0
abbrev INT_VMC_INV_DONE : Nat := 1
abbrev INT_HIN_TM_MSG : Nat := 8
abbrev INT_HIN_TM_SPACE : Nat := 9
abbrev INT_HIN_QUIESCED : Nat := 10
abbrev INT_HIN_DPL_OVF : Nat := 11
abbrev INT_DMC_CE : Nat := 0
abbrev INT_DMC_UE : Nat := 1
abbrev INT_DMC_HOT : Nat := 2
abbrev INT_SCR_PASS_DONE : Nat := 0
abbrev INT_SCR_POISON : Nat := 1
abbrev INT_SCR_FULL : Nat := 2
abbrev INT_NOR_DONE : Nat := 0
abbrev INT_NOR_FAIL : Nat := 1
abbrev INT_SEC_MSG_DONE : Nat := 0
abbrev INT_LCS_TEST_CHANGE : Nat := 0
abbrev INT_CMD_PORT0_DONE : Nat := 0
abbrev INT_CMD_PORT1_DONE : Nat := 1
abbrev INT_CMD_SAVE_DUE : Nat := 2
abbrev INT_CMD_BLOCKED : Nat := 3
abbrev INT_CLK_ON_RCO : Nat := 0
abbrev INT_CLK_XO32 : Nat := 1
abbrev INT_PLL_LOCK_LOST : Nat := 0
abbrev INT_CSV_FAULT : Nat := 0
abbrev INT_CSV_RECOVERED : Nat := 1
abbrev INT_RST_WDG_WARN : Nat := 0
abbrev INT_PWR_DOMAIN_ON : Nat := 0
abbrev INT_PWR_DRAIN_ERR : Nat := 1
abbrev INT_VFS_DONE : Nat := 0
abbrev INT_VFS_CAPPED : Nat := 1
abbrev INT_VFS_VFAIL : Nat := 2
abbrev INT_SLP_MODE : Nat := 0
abbrev INT_SLP_PREP : Nat := 1
abbrev INT_SLP_ABORT : Nat := 2
abbrev INT_SLP_SHDN : Nat := 3
abbrev INT_SLP_OVERDUE : Nat := 4
abbrev INT_SLP_FEED_OFF : Nat := 5
abbrev INT_SLP_FWK_DIS : Nat := 6
abbrev INT_SLP_LATE_WAKE : Nat := 7
abbrev INT_SLP_WAKEL_STUCK : Nat := 8
abbrev INT_FAG_NEW : Nat := 0
abbrev INT_FAG_PREEMPT : Nat := 1
abbrev INT_FAG_RESUME : Nat := 2
abbrev INT_FAG_ESC_WARN : Nat := 3
abbrev INT_FAG_PATH_FAIL : Nat := 4
abbrev INT_LOG_ENTRY : Nat := 0
abbrev INT_LOG_OVF : Nat := 1
abbrev INT_STS_LOADED : Nat := 0
abbrev INT_HON_PLAN_DONE : Nat := 0
abbrev INT_HON_EOM : Nat := 1
abbrev INT_HON_EXHAUSTED : Nat := 2
abbrev INT_HON_OVERRUN : Nat := 3

def mapTMB : List RegSpec :=
  [ ⟨0x040, 1, 0x4, fun _ _ => 0x4, [⟨0, 2, .rw, .ranges [(0, 1)]⟩, ⟨2, 1, .rw, .any⟩]⟩
  , ⟨0x044, 1, 0x4, fun _ _ => 0x0, [⟨0, 1, .ro, .any⟩, ⟨1, 1, .ro, .any⟩, ⟨2, 1, .ro, .any⟩]⟩
  , ⟨0x048, 1, 0x4, fun _ _ => 0x0, [⟨0, 1, .wo, .any⟩]⟩
  , ⟨0x04C, 1, 0x4, fun _ _ => 0x0, [⟨0, 16, .ro, .any⟩]⟩
  , ⟨0x050, 1, 0x4, fun _ _ => 0x0, [⟨0, 32, .ro, .any⟩]⟩
  , ⟨0x054, 1, 0x4, fun _ _ => 0x0, [⟨0, 32, .ro, .any⟩]⟩
  , ⟨0x058, 1, 0x4, fun _ _ => 0x0, [⟨0, 32, .rw, .any⟩]⟩
  , ⟨0x05C, 1, 0x4, fun _ _ => 0x0, [⟨0, 32, .rw, .any⟩]⟩
  , ⟨0x060, 1, 0x4, fun _ _ => 0x0, [⟨0, 32, .rw, .ranges [(0, 3999999999)]⟩]⟩
  , ⟨0x064, 1, 0x4, fun _ _ => 0x0, [⟨0, 1, .wo, .any⟩]⟩
  , ⟨0x068, 1, 0x4, fun _ _ => 0x0, [⟨0, 32, .ro, .any⟩]⟩
  , ⟨0x06C, 1, 0x4, fun _ _ => 0x0, [⟨0, 32, .ro, .any⟩]⟩ ]

def mapPTP : List RegSpec :=
  [ ⟨0x040, 1, 0x4, fun _ _ => 0x0, [⟨0, 1, .rw, .any⟩, ⟨1, 2, .rw, .any⟩]⟩
  , ⟨0x044, 1, 0x4, fun _ _ => 0x0, [⟨0, 1, .ro, .any⟩, ⟨8, 7, .ro, .any⟩]⟩
  , ⟨0x048, 1, 0x4, fun _ _ => 0x0, [⟨0, 32, .ro, .any⟩]⟩
  , ⟨0x04C, 1, 0x4, fun _ _ => 0x4000, [⟨0, 32, .rw, .any⟩]⟩
  , ⟨0x050, 1, 0x4, fun _ _ => 0x400, [⟨0, 32, .rw, .any⟩]⟩
  , ⟨0x054, 1, 0x4, fun _ _ => 0x190, [⟨0, 32, .rw, .any⟩]⟩
  , ⟨0x058, 1, 0x4, fun _ _ => 0x3D0900, [⟨0, 32, .rw, .any⟩]⟩
  , ⟨0x05C, 1, 0x4, fun _ _ => 0x0, [⟨0, 6, .ro, .any⟩, ⟨8, 4, .ro, .any⟩, ⟨12, 1, .ro, .any⟩, ⟨16, 16, .ro, .any⟩]⟩
  , ⟨0x060, 1, 0x4, fun _ _ => 0x0, [⟨0, 32, .ro, .any⟩]⟩
  , ⟨0x064, 1, 0x4, fun _ _ => 0x0, [⟨0, 32, .rs, .any⟩]⟩
  , ⟨0x100, 4, 0x20, fun _ _ => 0x0, [⟨0, 1, .rw, .any⟩, ⟨1, 1, .rw, .any⟩, ⟨2, 1, .rw, .any⟩, ⟨8, 7, .rw, .any⟩]⟩
  , ⟨0x104, 4, 0x20, fun _ _ => 0x0, [⟨0, 2, .rw, .any⟩, ⟨3, 28, .rw, .any⟩]⟩
  , ⟨0x108, 4, 0x20, fun _ _ => 0x0, [⟨0, 6, .rw, .any⟩, ⟨8, 1, .rw, .any⟩]⟩
  , ⟨0x10C, 4, 0x20, fun _ _ => 0x0, [⟨0, 8, .rw, .ranges [(0, 0), (249, 255)]⟩, ⟨8, 8, .rw, .ranges [(0, 3), (253, 255)]⟩, ⟨16, 8, .rw, .ranges [(0, 3), (253, 255)]⟩]⟩
  , ⟨0x110, 4, 0x20, fun _ _ => 0x0, [⟨0, 32, .ro, .any⟩]⟩
  , ⟨0x114, 4, 0x20, fun _ _ => 0x0, [⟨0, 32, .ro, .any⟩]⟩
  , ⟨0x118, 4, 0x20, fun _ _ => 0x0, [⟨0, 32, .ro, .any⟩]⟩
  , ⟨0x11C, 4, 0x20, fun _ _ => 0x0, [⟨0, 1, .ro, .any⟩]⟩
  , ⟨0x200, 27, 0x10, fun _ _ => 0x0, [⟨0, 26, .ro, .any⟩]⟩
  , ⟨0x3B0, 4, 0x10, fun _ _ => 0x0, [⟨0, 26, .rw, .any⟩]⟩
  , ⟨0x204, 31, 0x10, fun _ _ => 0x0, [⟨0, 32, .ro, .any⟩]⟩
  , ⟨0x208, 31, 0x10, fun _ _ => 0x0, [⟨0, 32, .rw, .any⟩]⟩
  , ⟨0x20C, 31, 0x10, fun _ _ => 0x0, [⟨0, 1, .ro, .any⟩]⟩ ]

def mapIXP : List RegSpec :=
  [ ⟨0x040, 1, 0x4, fun _ _ => 0x8, [⟨0, 2, .rw, .ranges [(0, 2)]⟩, ⟨2, 1, .rw, .any⟩, ⟨3, 1, .rw, .any⟩, ⟨16, 1, .wo, .any⟩, ⟨17, 1, .ro, .any⟩]⟩
  , ⟨0x044, 1, 0x4, fun _ _ => 0x50, [⟨0, 10, .rw, .any⟩, ⟨16, 6, .rw, .any⟩]⟩
  , ⟨0x048, 1, 0x4, fun _ _ => 0x50, [⟨0, 10, .ro, .any⟩, ⟨16, 6, .ro, .any⟩]⟩
  , ⟨0x04C, 1, 0x4, fun _ _ => 0x0, [⟨0, 32, .ro, .any⟩]⟩
  , ⟨0x050, 1, 0x4, fun _ _ => 0x0, [⟨0, 6, .ro, .any⟩, ⟨8, 2, .ro, .any⟩, ⟨10, 1, .ro, .any⟩, ⟨11, 1, .ro, .any⟩, ⟨12, 1, .ro, .any⟩]⟩
  , ⟨0x054, 1, 0x4, fun _ _ => 0x0, [⟨0, 32, .ro, .any⟩]⟩
  , ⟨0x058, 1, 0x4, fun _ _ => 0x0, [⟨0, 32, .ro, .any⟩]⟩
  , ⟨0x05C, 1, 0x4, fun _ _ => 0x0, [⟨0, 32, .ro, .any⟩]⟩
  , ⟨0x060, 1, 0x4, fun _ _ => 0x0, [⟨0, 16, .ro, .any⟩, ⟨16, 8, .ro, .any⟩, ⟨24, 8, .ro, .any⟩]⟩
  , ⟨0x064, 1, 0x4, fun _ _ => 0x0, [⟨0, 32, .rw, .any⟩]⟩
  , ⟨0x068, 1, 0x4, fun _ _ => 0x0, [⟨0, 32, .rw, .any⟩]⟩
  , ⟨0x06C, 1, 0x4, fun _ _ => 0xA0, [⟨0, 1, .rw, .any⟩, ⟨1, 1, .rw, .any⟩, ⟨4, 8, .rw, .ranges [(1, 255)]⟩, ⟨16, 6, .rw, .any⟩]⟩
  , ⟨0x070, 1, 0x4, fun _ _ => 0x0, [⟨0, 32, .ro, .any⟩]⟩
  , ⟨0x074, 1, 0x4, fun _ _ => 0x0, [⟨0, 32, .ro, .any⟩]⟩
  , ⟨0x100, 1, 0x4, fun _ _ => 0x0, [⟨0, 26, .ro, .any⟩]⟩
  , ⟨0x100, 64, 0x4, fun _ k => BitVec.ofNat 32 (k * 0xF424), [⟨0, 26, .rw, .any⟩]⟩
  , ⟨0x200, 64, 0x4, fun _ k => BitVec.ofNat 32 (k * 0xF424), [⟨0, 26, .ro, .any⟩]⟩
  , ⟨0x300, 16, 0x4, fun _ _ => 0x0, [⟨0, 6, .rw, .any⟩, ⟨8, 1, .rw, .any⟩, ⟨16, 1, .w1c, .any⟩]⟩ ]

def mapSWC : List RegSpec :=
  [ ⟨0x040, 1, 0x4, fun _ _ => 0xC, [⟨0, 1, .rw, .any⟩, ⟨1, 1, .rw, .any⟩, ⟨2, 1, .rw, .any⟩, ⟨3, 1, .rw, .any⟩, ⟨8, 4, .rw, .any⟩]⟩
  , ⟨0x044, 1, 0x4, fun _ _ => 0x7, [⟨0, 1, .rw, .any⟩, ⟨1, 1, .rw, .any⟩, ⟨2, 1, .rw, .any⟩]⟩
  , ⟨0x048, 1, 0x4, fun _ _ => 0x1000C8, [⟨0, 8, .rw, .ranges [(0, 200)]⟩, ⟨16, 8, .rw, .ranges [(1, 255)]⟩]⟩
  , ⟨0x04C, 1, 0x4, fun _ _ => 0x12C, [⟨0, 16, .rw, .any⟩]⟩
  , ⟨0x050, 1, 0x4, fun _ _ => 0x3E8, [⟨0, 16, .rw, .ranges [(1, 65535)]⟩]⟩
  , ⟨0x054, 1, 0x4, fun _ _ => 0x0, [⟨0, 10, .rw, .any⟩, ⟨16, 1, .rw, .any⟩]⟩
  , ⟨0x058, 1, 0x4, fun _ _ => 0x0, [⟨0, 2, .ro, .any⟩, ⟨2, 1, .ro, .any⟩, ⟨8, 8, .ro, .any⟩]⟩
  , ⟨0x060, 1, 0x4, fun _ _ => 0x0, [⟨0, 32, .ro, .any⟩]⟩
  , ⟨0x064, 1, 0x4, fun _ _ => 0x0, [⟨0, 32, .ro, .any⟩]⟩
  , ⟨0x068, 1, 0x4, fun _ _ => 0x0, [⟨0, 32, .ro, .any⟩]⟩
  , ⟨0x06C, 1, 0x4, fun _ _ => 0x0, [⟨0, 32, .ro, .any⟩]⟩
  , ⟨0x070, 1, 0x4, fun _ _ => 0x0, [⟨0, 1, .wo, .any⟩]⟩
  , ⟨0x100, 64, 0x4, fun _ k => BitVec.ofNat 32 ((k % 2) * 0x11), [⟨0, 1, .rw, .any⟩, ⟨4, 1, .ro, .any⟩, ⟨8, 1, .ro, .any⟩]⟩
  , ⟨0x200, 64, 0x4, fun _ k => BitVec.ofNat 32 ((k % 4) * 0x11), [⟨0, 2, .rw, .any⟩, ⟨4, 2, .ro, .any⟩, ⟨8, 1, .ro, .any⟩]⟩
  , ⟨0x300, 64, 0x4, fun _ k => BitVec.ofNat 32 ((k % 4) * 0x11), [⟨0, 2, .rw, .any⟩, ⟨4, 2, .ro, .any⟩, ⟨8, 1, .ro, .any⟩]⟩ ]

def mapTAW : List RegSpec :=
  [ ⟨0x040, 1, 0x4, fun _ _ => 0x0, [⟨0, 3, .rw, .any⟩, ⟨4, 4, .rw, .any⟩, ⟨31, 1, .ro, .any⟩]⟩
  , ⟨0x044, 1, 0x4, fun _ _ => 0x0, [⟨0, 14, .rw, .any⟩]⟩
  , ⟨0x048, 1, 0x4, fun _ _ => 0x0, [⟨0, 2, .ro, .any⟩, ⟨16, 14, .ro, .any⟩]⟩
  , ⟨0x04C, 1, 0x4, fun _ _ => 0x0, [⟨0, 32, .ro, .any⟩]⟩
  , ⟨0x050, 12, 0x4, fun _ _ => 0x0, [⟨0, 32, .rw, .any⟩]⟩ ]

def mapFDBX : List RegSpec :=
  [ ⟨0x080, 1, 0x4, fun _ _ => 0x0, [⟨0, 6, .rw, .any⟩, ⟨8, 1, .rw, .any⟩, ⟨16, 12, .rw, .any⟩, ⟨28, 1, .rw, .any⟩, ⟨29, 1, .rw, .any⟩]⟩ ]

def mapMIRR : List RegSpec :=
  [ ⟨0x040, 1, 0x4, fun _ _ => 0x0, [⟨0, 1, .rw, .any⟩, ⟨1, 1, .rw, .any⟩, ⟨4, 4, .rw, .any⟩, ⟨8, 6, .rw, .ranges [(0, 30)]⟩, ⟨16, 12, .rw, .any⟩]⟩
  , ⟨0x044, 1, 0x4, fun _ _ => 0x0, [⟨0, 14, .rw, .ranges [(0, 0), (64, 9216)]⟩]⟩
  , ⟨0x048, 1, 0x4, fun _ _ => 0x0, [⟨0, 32, .rw, .any⟩]⟩
  , ⟨0x04C, 1, 0x4, fun _ _ => 0x0, [⟨0, 1, .rw, .any⟩]⟩
  , ⟨0x050, 1, 0x4, fun _ _ => 0x0, [⟨0, 32, .rw, .any⟩]⟩
  , ⟨0x054, 1, 0x4, fun _ _ => 0x0, [⟨0, 1, .rw, .any⟩]⟩
  , ⟨0x058, 1, 0x4, fun _ _ => 0x0, [⟨0, 32, .ro, .any⟩]⟩
  , ⟨0x05C, 1, 0x4, fun _ _ => 0x0, [⟨0, 32, .ro, .any⟩]⟩ ]

def mapPORT : List RegSpec :=
  [ ⟨0x040, 1, 0x4, fun _ _ => 0x10010, [⟨0, 1, .rw, .any⟩, ⟨1, 2, .rw, .ranges [(0, 2)]⟩, ⟨3, 1, .rw, .any⟩, ⟨4, 2, .rw, .ranges [(0, 2)]⟩, ⟨6, 3, .rw, .any⟩, ⟨16, 12, .rw, .ranges [(1, 4094)]⟩, ⟨28, 2, .rw, .any⟩]⟩
  , ⟨0x044, 1, 0x4, fun _ _ => 0x0, [⟨0, 1, .ro, .any⟩, ⟨1, 3, .ro, .any⟩]⟩
  , ⟨0x048, 1, 0x4, fun i _ => BitVec.ofNat 32 (Config.maxLenReset i), [⟨0, 14, .rw, .any⟩]⟩
  , ⟨0x04C, 1, 0x4, fun _ _ => 0xFAC681, [⟨0, 24, .rw, .any⟩]⟩
  , ⟨0x050, 1, 0x4, fun _ _ => 0x0, [⟨0, 1, .rw, .any⟩]⟩
  , ⟨0x054, 1, 0x4, fun i _ => BitVec.ofNat 32 (Config.ingLat i), [⟨0, 32, .rw, .any⟩]⟩
  , ⟨0x058, 1, 0x4, fun i _ => BitVec.ofNat 32 (Config.egrLat i), [⟨0, 32, .rw, .any⟩]⟩
  , ⟨0x05C, 1, 0x4, fun i _ => BitVec.ofNat 32 (Config.preReset i), [⟨0, 1, .rw, .any⟩, ⟨1, 1, .rw, .any⟩, ⟨2, 2, .rw, .any⟩, ⟨8, 8, .rw, .any⟩, ⟨16, 7, .rw, .any⟩, ⟨24, 2, .ro, .any⟩]⟩
  , ⟨0x060, 1, 0x4, fun _ _ => 0x0, [⟨0, 1, .rw, .any⟩, ⟨1, 1, .rw, .any⟩, ⟨8, 8, .rw, .any⟩, ⟨16, 8, .rw, .any⟩, ⟨24, 1, .rw, .any⟩]⟩
  , ⟨0x064, 1, 0x4, fun i _ => BitVec.ofNat 32 (Config.plcaReset i), [⟨0, 8, .rw, .any⟩, ⟨8, 8, .rw, .any⟩, ⟨16, 8, .rw, .any⟩]⟩
  , ⟨0x068, 1, 0x4, fun _ _ => 0x0, [⟨0, 1, .ro, .any⟩, ⟨1, 1, .ro, .any⟩, ⟨8, 3, .ro, .any⟩]⟩
  , ⟨0x080, 1, 0x4, fun _ _ => 0x0, [⟨0, 32, .ro, .any⟩]⟩
  , ⟨0x084, 1, 0x4, fun _ _ => 0x0, [⟨0, 32, .ro, .any⟩]⟩
  , ⟨0x088, 1, 0x4, fun _ _ => 0x0, [⟨0, 32, .ro, .any⟩]⟩
  , ⟨0x08C, 1, 0x4, fun _ _ => 0x0, [⟨0, 32, .ro, .any⟩]⟩
  , ⟨0x090, 1, 0x4, fun _ _ => 0x0, [⟨0, 32, .ro, .any⟩]⟩
  , ⟨0x094, 1, 0x4, fun _ _ => 0x0, [⟨0, 32, .ro, .any⟩]⟩
  , ⟨0x098, 1, 0x4, fun _ _ => 0x0, [⟨0, 32, .ro, .any⟩]⟩
  , ⟨0x09C, 1, 0x4, fun _ _ => 0x0, [⟨0, 32, .ro, .any⟩]⟩
  , ⟨0x0A0, 1, 0x4, fun _ _ => 0x0, [⟨0, 32, .ro, .any⟩]⟩
  , ⟨0x0A4, 1, 0x4, fun _ _ => 0x0, [⟨0, 32, .ro, .any⟩]⟩
  , ⟨0x0A8, 1, 0x4, fun _ _ => 0x0, [⟨0, 32, .ro, .any⟩]⟩
  , ⟨0x0AC, 1, 0x4, fun _ _ => 0x0, [⟨0, 32, .ro, .any⟩]⟩
  , ⟨0x0B0, 1, 0x4, fun _ _ => 0x0, [⟨0, 32, .ro, .any⟩]⟩
  , ⟨0x0B4, 1, 0x4, fun _ _ => 0x0, [⟨0, 32, .ro, .any⟩]⟩
  , ⟨0x0B8, 1, 0x4, fun _ _ => 0x0, [⟨0, 1, .wo, .any⟩]⟩
  , ⟨0x100, 8, 0x4, fun _ k => BitVec.ofNat 32 (k * 0x249249), [⟨0, 24, .rw, .any⟩]⟩ ]

def mapBUF : List RegSpec :=
  [ ⟨0x080, 1, 0x4, fun _ _ => 0x6, [⟨0, 3, .rw, .any⟩]⟩
  , ⟨0x084, 1, 0x4, fun _ _ => 0x6F00, [⟨0, 16, .ro, .any⟩]⟩
  , ⟨0x088, 1, 0x4, fun _ _ => 0x1100, [⟨0, 16, .ro, .any⟩, ⟨16, 16, .ro, .any⟩]⟩
  , ⟨0x08C, 1, 0x4, fun _ _ => 0x10200, [⟨0, 10, .rw, .ranges [(512, 575)]⟩, ⟨16, 5, .rw, .ranges [(1, 16)]⟩, ⟨31, 1, .rw, .any⟩]⟩
  , ⟨0x090, 1, 0x4, fun _ _ => 0x4000200, [⟨0, 16, .rw, .any⟩, ⟨16, 16, .rw, .any⟩]⟩
  , ⟨0x094, 1, 0x4, fun _ _ => 0x1, [⟨0, 32, .rw, .ranges [(1, 4294967295)]⟩]⟩
  , ⟨0x098, 1, 0x4, fun _ _ => 0x0, [⟨0, 1, .wo, .any⟩]⟩
  , ⟨0x09C, 1, 0x4, fun _ _ => 0x0, [⟨0, 32, .ro, .any⟩]⟩
  , ⟨0x0A0, 1, 0x4, fun _ _ => 0x0, [⟨0, 32, .ro, .any⟩]⟩ ]

def mapSPL : List RegSpec :=
  [ ⟨0x040, 1, 0x4, fun _ _ => 0x1414, [⟨0, 7, .rw, .any⟩, ⟨8, 7, .rw, .any⟩]⟩
  , ⟨0x044, 1, 0x4, fun _ _ => 0x0, [⟨0, 24, .ro, .any⟩, ⟨31, 1, .ro, .any⟩]⟩
  , ⟨0x048, 1, 0x4, fun _ _ => 0x0, [⟨0, 24, .ro, .any⟩]⟩
  , ⟨0x04C, 1, 0x4, fun _ _ => 0x0, [⟨0, 32, .ro, .any⟩]⟩
  , ⟨0x050, 1, 0x4, fun _ _ => 0x0, [⟨0, 32, .ro, .any⟩]⟩
  , ⟨0x054, 1, 0x4, fun _ _ => 0x0, [⟨0, 32, .ro, .any⟩]⟩
  , ⟨0x058, 1, 0x4, fun _ _ => 0x0, [⟨0, 32, .ro, .any⟩]⟩
  , ⟨0x05C, 1, 0x4, fun _ _ => 0x0, [⟨0, 32, .ro, .any⟩]⟩
  , ⟨0x060, 1, 0x4, fun _ _ => 0x0, [⟨0, 1, .wo, .any⟩]⟩ ]

def mapHIN : List RegSpec :=
  [ ⟨0x040, 1, 0x4, fun _ _ => 0x100, [⟨1, 1, .rwl, .any⟩, ⟨8, 4, .rwl, .ranges [(1, 15)]⟩]⟩
  , ⟨0x044, 1, 0x4, fun _ _ => 0x0, [⟨0, 16, .rw, .any⟩]⟩
  , ⟨0x048, 1, 0x4, fun _ _ => 0x0, [⟨0, 28, .rwl, .any⟩]⟩
  , ⟨0x04C, 1, 0x4, fun _ _ => 0x0, [⟨0, 8, .ro, .any⟩]⟩
  , ⟨0x100, 8, 0x20, fun _ _ => 0x0, [⟨5, 27, .rw, .any⟩]⟩
  , ⟨0x104, 8, 0x20, fun _ _ => 0x0, [⟨0, 8, .rw, .any⟩]⟩
  , ⟨0x108, 8, 0x20, fun _ _ => 0x0, [⟨0, 3, .rw, .ranges [(0, 6)]⟩]⟩
  , ⟨0x10C, 8, 0x20, fun _ _ => 0x0, [⟨0, 12, .ro, .any⟩]⟩
  , ⟨0x110, 8, 0x20, fun _ _ => 0x0, [⟨0, 12, .rw, .any⟩]⟩
  , ⟨0x114, 8, 0x20, fun _ _ => 0x0, [⟨0, 1, .rw, .any⟩]⟩
  , ⟨0x118, 8, 0x20, fun _ _ => 0x101, [⟨0, 8, .rw, .any⟩, ⟨8, 16, .rw, .any⟩]⟩
  , ⟨0x11C, 8, 0x20, fun _ _ => 0x0, [⟨0, 1, .ro, .any⟩, ⟨1, 1, .w1c, .any⟩, ⟨16, 16, .ro, .any⟩]⟩
  , ⟨0x400, 16, 0x4, fun _ _ => 0x0, [⟨0, 32, .rw, .any⟩]⟩
  , ⟨0x440, 1, 0x4, fun _ _ => 0x0, [⟨0, 5, .rw, .any⟩, ⟨8, 1, .wo, .any⟩, ⟨9, 1, .wo, .any⟩, ⟨16, 1, .ro, .any⟩, ⟨17, 1, .ro, .any⟩]⟩
  , ⟨0x480, 16, 0x4, fun _ _ => 0x0, [⟨0, 32, .rw, .any⟩]⟩
  , ⟨0x4C0, 1, 0x4, fun _ _ => 0x0, [⟨0, 5, .rw, .any⟩, ⟨8, 1, .wo, .any⟩, ⟨9, 1, .wo, .any⟩, ⟨16, 1, .ro, .any⟩, ⟨17, 1, .ro, .any⟩]⟩
  , ⟨0x500, 1, 0x4, fun _ _ => 0x0, [⟨12, 20, .rw, .any⟩]⟩
  , ⟨0x504, 1, 0x4, fun _ _ => 0x0, [⟨0, 8, .rw, .any⟩]⟩
  , ⟨0x508, 1, 0x4, fun _ _ => 0x0, [⟨0, 3, .rw, .any⟩]⟩
  , ⟨0x50C, 1, 0x4, fun _ _ => 0x0, [⟨0, 16, .ro, .any⟩]⟩
  , ⟨0x510, 1, 0x4, fun _ _ => 0x0, [⟨0, 16, .rw, .any⟩]⟩
  , ⟨0x514, 1, 0x4, fun _ _ => 0x0, [⟨0, 1, .rw, .any⟩, ⟨8, 1, .w1c, .any⟩]⟩
  , ⟨0x518, 1, 0x4, fun _ _ => 0x0, [⟨0, 1, .rw, .any⟩, ⟨8, 1, .ro, .any⟩]⟩
  , ⟨0x51C, 1, 0x4, fun _ _ => 0x0, [⟨0, 32, .ro, .any⟩]⟩ ]

def mapCXC : List RegSpec :=
  [ ⟨0x040, 1, 0x4, fun _ _ => 0x1, [⟨0, 1, .rw, .any⟩, ⟨1, 2, .rw, .any⟩, ⟨3, 1, .rw, .any⟩, ⟨4, 1, .rw, .any⟩, ⟨5, 1, .wo, .any⟩, ⟨6, 1, .rw, .any⟩, ⟨7, 1, .rw, .any⟩, ⟨8, 1, .rw, .any⟩]⟩
  , ⟨0x044, 1, 0x4, fun _ _ => 0x20207F01, [⟨0, 6, .rw, .ranges [(1, 32)]⟩, ⟨8, 8, .rw, .ranges [(2, 255)]⟩, ⟨16, 7, .rw, .ranges [(1, 127)]⟩, ⟨24, 7, .rw, .ranges [(1, 127)]⟩]⟩
  , ⟨0x048, 1, 0x4, fun _ _ => 0x4040B01, [⟨0, 4, .rw, .ranges [(1, 8)]⟩, ⟨8, 5, .rw, .ranges [(1, 31)]⟩, ⟨16, 4, .rw, .ranges [(1, 15)]⟩, ⟨24, 4, .rw, .ranges [(1, 15)]⟩]⟩
  , ⟨0x04C, 1, 0x4, fun _ _ => 0x7800, [⟨0, 1, .rw, .any⟩, ⟨8, 10, .rw, .any⟩, ⟨20, 8, .rw, .any⟩]⟩
  , ⟨0x050, 1, 0x4, fun _ _ => 0x2, [⟨0, 1, .rw, .any⟩, ⟨1, 1, .rw, .any⟩, ⟨8, 6, .rw, .any⟩, ⟨16, 6, .rw, .any⟩, ⟨24, 6, .rw, .any⟩]⟩
  , ⟨0x054, 1, 0x4, fun _ _ => 0x0, [⟨0, 2, .rw, .any⟩, ⟨4, 1, .rw, .any⟩, ⟨8, 1, .rw, .any⟩]⟩
  , ⟨0x058, 1, 0x4, fun _ _ => 0x0, [⟨0, 2, .ro, .any⟩, ⟨2, 1, .ro, .any⟩, ⟨3, 1, .ro, .any⟩, ⟨4, 1, .ro, .any⟩, ⟨5, 1, .ro, .any⟩]⟩
  , ⟨0x05C, 1, 0x4, fun _ _ => 0x0, [⟨0, 9, .ro, .any⟩, ⟨16, 8, .ro, .any⟩]⟩
  , ⟨0x060, 1, 0x4, fun _ _ => 0x77, [⟨0, 3, .rs, .any⟩, ⟨4, 3, .rs, .any⟩]⟩
  , ⟨0x064, 1, 0x4, fun _ _ => 0x0, [⟨0, 10, .ro, .any⟩]⟩
  , ⟨0x068, 1, 0x4, fun _ _ => 0x0, [⟨0, 7, .rw, .any⟩]⟩
  , ⟨0x06C, 1, 0x4, fun _ _ => 0x0, [⟨0, 7, .rs, .any⟩, ⟨8, 1, .rs, .any⟩, ⟨9, 1, .rs, .any⟩]⟩
  , ⟨0x070, 1, 0x4, fun _ _ => 0x0, [⟨0, 8, .rw, .any⟩, ⟨8, 8, .rw, .any⟩, ⟨16, 1, .rw, .any⟩]⟩
  , ⟨0x074, 1, 0x4, fun _ _ => 0x0, [⟨0, 32, .rw, .any⟩]⟩
  , ⟨0x078, 1, 0x4, fun _ _ => 0x0, [⟨0, 32, .ro, .any⟩]⟩
  , ⟨0x07C, 1, 0x4, fun _ _ => 0x0, [⟨0, 32, .ro, .any⟩]⟩
  , ⟨0x080, 1, 0x4, fun _ _ => 0x0, [⟨0, 1, .rw, .any⟩, ⟨1, 1, .rw, .any⟩, ⟨2, 1, .rw, .any⟩]⟩
  , ⟨0x084, 1, 0x4, fun _ _ => 0x0, [⟨0, 29, .rw, .any⟩]⟩
  , ⟨0x088, 1, 0x4, fun _ _ => 0x0, [⟨0, 32, .rw, .any⟩]⟩
  , ⟨0x08C, 1, 0x4, fun _ _ => 0x0, [⟨0, 32, .rw, .any⟩]⟩
  , ⟨0x090, 1, 0x4, fun _ _ => 0x100, [⟨0, 16, .rw, .any⟩]⟩
  , ⟨0x094, 1, 0x4, fun _ _ => 0x0, [⟨0, 16, .ro, .any⟩, ⟨16, 8, .ro, .any⟩, ⟨24, 8, .ro, .any⟩]⟩
  , ⟨0x098, 1, 0x4, fun _ _ => 0x0, [⟨0, 32, .ro, .any⟩]⟩
  , ⟨0x09C, 1, 0x4, fun _ _ => 0x0, [⟨0, 32, .ro, .any⟩]⟩
  , ⟨0x0A0, 1, 0x4, fun _ _ => 0x0, [⟨0, 32, .ro, .any⟩]⟩
  , ⟨0x100, 128, 0xC, fun _ _ => 0x0, [⟨0, 29, .rw, .any⟩, ⟨29, 1, .rw, .any⟩, ⟨30, 2, .rw, .any⟩]⟩
  , ⟨0x104, 128, 0xC, fun _ _ => 0x0, [⟨0, 32, .rw, .any⟩]⟩
  , ⟨0x108, 128, 0xC, fun _ _ => 0x0, [⟨0, 2, .rw, .ranges [(0, 2)]⟩, ⟨2, 1, .rw, .any⟩, ⟨3, 2, .rw, .any⟩, ⟨5, 1, .rw, .any⟩, ⟨6, 2, .rw, .any⟩, ⟨8, 1, .rw, .any⟩, ⟨9, 1, .wo, .any⟩, ⟨10, 1, .wo, .any⟩, ⟨12, 4, .ro, .any⟩, ⟨16, 12, .rw, .ranges [(0, 2048)]⟩, ⟨28, 1, .ro, .any⟩, ⟨29, 1, .ro, .any⟩]⟩
  , ⟨0x700, 512, 0x4, fun _ _ => 0x0, [⟨0, 32, .rw, .any⟩]⟩ ]

def mapLNC : List RegSpec :=
  [ ⟨0x040, 1, 0x4, fun _ _ => 0xD00, [⟨0, 1, .rw, .any⟩, ⟨1, 1, .rw, .any⟩, ⟨2, 1, .wo, .any⟩, ⟨3, 1, .rw, .any⟩, ⟨8, 5, .rw, .ranges [(13, 20)]⟩]⟩
  , ⟨0x044, 1, 0x4, fun _ _ => 0x4B00, [⟨0, 16, .rw, .ranges [(1000, 20000)]⟩]⟩
  , ⟨0x048, 1, 0x4, fun _ _ => 0x0, [⟨0, 1, .ro, .any⟩, ⟨1, 1, .ro, .any⟩, ⟨8, 8, .ro, .any⟩]⟩
  , ⟨0x04C, 1, 0x4, fun _ _ => 0x0, [⟨0, 8, .ro, .any⟩, ⟨8, 8, .ro, .any⟩, ⟨16, 8, .ro, .any⟩, ⟨24, 8, .ro, .any⟩]⟩
  , ⟨0x050, 1, 0x4, fun _ _ => 0x0, [⟨0, 6, .ro, .any⟩, ⟨8, 4, .ro, .any⟩, ⟨12, 1, .ro, .any⟩]⟩
  , ⟨0x054, 1, 0x4, fun _ _ => 0x0, [⟨0, 32, .ro, .any⟩]⟩
  , ⟨0x058, 1, 0x4, fun _ _ => 0x0, [⟨0, 32, .rs, .any⟩]⟩
  , ⟨0x100, 64, 0x8, fun _ _ => 0x0, [⟨0, 6, .rw, .any⟩, ⟨8, 2, .rw, .any⟩, ⟨10, 1, .rw, .any⟩, ⟨11, 1, .rw, .any⟩, ⟨12, 4, .rw, .any⟩]⟩
  , ⟨0x104, 64, 0x8, fun _ _ => 0x0, [⟨0, 6, .rw, .any⟩, ⟨8, 8, .rw, .any⟩, ⟨16, 1, .rw, .any⟩, ⟨17, 1, .w1c, .any⟩]⟩
  , ⟨0x300, 64, 0xC, fun _ _ => 0x0, [⟨0, 6, .rw, .any⟩, ⟨8, 4, .rw, .any⟩, ⟨12, 1, .rw, .any⟩, ⟨13, 1, .rw, .any⟩]⟩
  , ⟨0x304, 64, 0xC, fun _ _ => 0x0, [⟨0, 32, .rw, .any⟩]⟩
  , ⟨0x308, 64, 0xC, fun _ _ => 0x0, [⟨0, 32, .rw, .any⟩]⟩ ]

def mapGWC : List RegSpec :=
  [ ⟨0x090, 1, 0x4, fun _ _ => 0x0, [⟨0, 4, .rw, .any⟩]⟩
  , ⟨0x094, 10, 0x4, fun _ _ => 0x0, [⟨0, 5, .rw, .any⟩, ⟨16, 5, .rw, .any⟩]⟩
  , ⟨0x0BC, 1, 0x4, fun _ _ => 0x0, [⟨0, 5, .rw, .any⟩, ⟨8, 5, .rw, .any⟩, ⟨16, 5, .rw, .any⟩, ⟨24, 2, .rw, .any⟩, ⟨26, 6, .rw, .any⟩]⟩
  , ⟨0x0C0, 1, 0x4, fun _ _ => 0x0, [⟨0, 32, .ro, .any⟩]⟩
  , ⟨0x0C4, 1, 0x4, fun _ _ => 0x0, [⟨0, 32, .ro, .any⟩]⟩
  , ⟨0x0C8, 1, 0x4, fun _ _ => 0x0, [⟨0, 32, .ro, .any⟩]⟩ ]

def mapPEG : List RegSpec :=
  [ ⟨0x040, 1, 0x4, fun _ _ => 0x0, [⟨0, 9, .ro, .any⟩, ⟨16, 16, .ro, .any⟩]⟩
  , ⟨0x044, 1, 0x4, fun _ _ => 0x0, [⟨0, 32, .ro, .any⟩]⟩
  , ⟨0x048, 1, 0x4, fun _ _ => 0x0, [⟨0, 32, .ro, .any⟩]⟩
  , ⟨0x04C, 1, 0x4, fun _ _ => 0x0, [⟨0, 32, .ro, .any⟩]⟩
  , ⟨0x050, 1, 0x4, fun _ _ => 0x0, [⟨0, 1, .wo, .any⟩]⟩ ]

def mapLSW : List RegSpec :=
  [ ⟨0x040, 1, 0x4, fun _ _ => 0x0, [⟨0, 1, .rw, .any⟩, ⟨1, 1, .rw, .any⟩, ⟨2, 1, .rw, .any⟩, ⟨3, 1, .rw, .any⟩, ⟨4, 1, .rw, .any⟩, ⟨5, 1, .rwl, .any⟩, ⟨6, 1, .rw, .any⟩, ⟨8, 3, .rw, .any⟩, ⟨16, 1, .wo, .any⟩]⟩
  , ⟨0x044, 1, 0x4, fun _ _ => 0x0, [⟨0, 1, .ro, .any⟩, ⟨1, 1, .ro, .any⟩, ⟨2, 1, .ro, .any⟩, ⟨3, 1, .ro, .any⟩, ⟨4, 1, .ro, .any⟩, ⟨5, 1, .ro, .any⟩, ⟨6, 1, .ro, .any⟩, ⟨8, 4, .ro, .any⟩, ⟨16, 16, .ro, .any⟩]⟩
  , ⟨0x048, 1, 0x4, fun _ _ => 0x0, [⟨0, 2, .rw, .any⟩, ⟨8, 8, .rw, .any⟩, ⟨16, 16, .rw, .any⟩]⟩
  , ⟨0x04C, 1, 0x4, fun i _ => BitVec.ofNat 32 (Config.byClass i 0x0A0A78F0 0x0A0A3064 0x0A0A0C1C), [⟨0, 8, .rw, .any⟩, ⟨8, 8, .rw, .any⟩, ⟨16, 8, .rw, .ranges [(1, 255)]⟩, ⟨24, 8, .rw, .any⟩]⟩
  , ⟨0x050, 1, 0x4, fun i _ => BitVec.ofNat 32 (Config.byClass i 5 1 0), [⟨0, 4, .rw, .ranges [(0, 8)]⟩, ⟨8, 8, .rw, .any⟩, ⟨16, 16, .rw, .any⟩]⟩
  , ⟨0x054, 1, 0x4, fun _ _ => 0x800, [⟨0, 16, .ro, .any⟩]⟩
  , ⟨0x058, 1, 0x4, fun i _ => BitVec.ofNat 32 (Config.byClass i 0x0A1404B0 0x0A0F0258 0x0A0A0096), [⟨0, 16, .rw, .ranges [(1, 65535)]⟩, ⟨16, 8, .rw, .ranges [(1, 255)]⟩, ⟨24, 8, .rw, .ranges [(1, 255)]⟩]⟩
  , ⟨0x05C, 1, 0x4, fun i _ => BitVec.ofNat 32 (Config.byClass i 0x927C0 0x493E0 0x124F8), [⟨0, 24, .ro, .any⟩]⟩
  , ⟨0x060, 1, 0x4, fun _ _ => 0x0, [⟨0, 32, .ro, .any⟩]⟩
  , ⟨0x064, 1, 0x4, fun _ _ => 0xA0005, [⟨0, 8, .rw, .any⟩, ⟨16, 8, .rw, .ranges [(1, 255)]⟩]⟩
  , ⟨0x068, 1, 0x4, fun _ _ => 0x0, [⟨0, 8, .ro, .any⟩, ⟨8, 8, .ro, .any⟩, ⟨16, 8, .ro, .any⟩, ⟨24, 8, .ro, .any⟩]⟩
  , ⟨0x06C, 1, 0x4, fun _ _ => 0x0, [⟨0, 1, .wo, .any⟩]⟩
  , ⟨0x080, 1, 0x4, fun _ _ => 0x0, [⟨0, 14, .ro, .any⟩, ⟨14, 1, .ro, .any⟩, ⟨15, 1, .ro, .any⟩, ⟨16, 16, .ro, .any⟩]⟩
  , ⟨0x084, 1, 0x4, fun _ _ => 0x0, [⟨0, 24, .ro, .any⟩]⟩
  , ⟨0x088, 1, 0x4, fun _ _ => 0x0, [⟨0, 16, .ro, .any⟩]⟩
  , ⟨0x08C, 1, 0x4, fun _ _ => 0x0, [⟨0, 14, .ro, .any⟩, ⟨15, 1, .ro, .any⟩]⟩
  , ⟨0x090, 1, 0x4, fun _ _ => 0x0, [⟨0, 16, .ro, .any⟩, ⟨16, 16, .ro, .any⟩]⟩
  , ⟨0x094, 1, 0x4, fun _ _ => 0x0, [⟨0, 1, .wo, .any⟩]⟩
  , ⟨0x0A0, 1, 0x4, fun _ _ => 0x0, [⟨0, 2, .rwl, .ranges [(0, 2)]⟩, ⟨4, 1, .rwl, .any⟩, ⟨8, 3, .rwl, .any⟩, ⟨11, 1, .rwl, .any⟩]⟩ ]

def mapPDC : List RegSpec :=
  [ ⟨0x040, 1, 0x4, fun _ _ => 0x64, [⟨0, 10, .rwl, .ranges [(0, 500)]⟩, ⟨16, 1, .wo, .any⟩, ⟨17, 1, .ro, .any⟩]⟩
  , ⟨0x044, 1, 0x4, fun _ _ => 0x0, [⟨0, 16, .ro, .any⟩, ⟨16, 9, .ro, .any⟩]⟩
  , ⟨0x048, 1, 0x4, fun _ _ => 0xA00, [⟨0, 1, .rwl, .any⟩, ⟨8, 8, .rwl, .ranges [(1, 255)]⟩]⟩
  , ⟨0x04C, 1, 0x4, fun _ _ => 0x0, [⟨0, 16, .ro, .any⟩, ⟨16, 16, .ro, .any⟩]⟩
  , ⟨0x050, 1, 0x4, fun _ _ => 0x0, [⟨0, 1, .rwl, .any⟩, ⟨8, 1, .ro, .any⟩, ⟨16, 8, .ro, .any⟩]⟩
  , ⟨0x054, 1, 0x4, fun _ _ => 0x1, [⟨0, 1, .rw, .any⟩, ⟨1, 1, .rw, .any⟩, ⟨4, 4, .rw, .any⟩, ⟨8, 4, .ro, .any⟩]⟩
  , ⟨0x058, 1, 0x4, fun _ _ => 0x1, [⟨0, 32, .rw, .any⟩]⟩
  , ⟨0x05C, 1, 0x4, fun _ _ => 0x0, [⟨0, 32, .rw, .any⟩]⟩
  , ⟨0x060, 1, 0x4, fun _ _ => 0x0, [⟨0, 16, .ro, .any⟩, ⟨16, 16, .ro, .any⟩]⟩
  , ⟨0x064, 1, 0x4, fun _ _ => 0x0, [⟨0, 1, .ro, .any⟩, ⟨1, 1, .ro, .any⟩, ⟨2, 1, .ro, .any⟩, ⟨3, 1, .ro, .any⟩]⟩
  , ⟨0x068, 1, 0x4, fun _ _ => 0x0, [⟨0, 8, .ro, .any⟩, ⟨8, 8, .ro, .any⟩, ⟨16, 8, .ro, .any⟩, ⟨24, 8, .ro, .any⟩]⟩
  , ⟨0x06C, 1, 0x4, fun _ _ => 0x0, [⟨0, 1, .wo, .any⟩]⟩
  , ⟨0x070, 1, 0x4, fun _ _ => 0x0, [⟨0, 8, .ro, .any⟩]⟩
  , ⟨0x100, 1, 0x4, fun _ _ => 0x0, [⟨0, 16, .rw, .any⟩]⟩
  , ⟨0x104, 1, 0x4, fun _ _ => 0x7800, [⟨0, 1, .rw, .any⟩, ⟨8, 8, .rw, .ranges [(1, 255)]⟩]⟩
  , ⟨0x108, 3, 0x8, fun _ _ => 0x3C3C, [⟨0, 8, .rw, .ranges [(1, 255)]⟩, ⟨8, 8, .rw, .ranges [(50, 100)]⟩]⟩
  , ⟨0x10C, 3, 0x8, fun _ _ => 0x0, [⟨0, 10, .ro, .any⟩, ⟨12, 4, .ro, .any⟩, ⟨16, 8, .ro, .any⟩, ⟨24, 8, .ro, .any⟩]⟩
  , ⟨0x120, 1, 0x4, fun _ _ => 0xA50A9424, [⟨0, 32, .ro, .any⟩]⟩ ]

def mapINC : List RegSpec :=
  [ ⟨0x040, 1, 0x4, fun _ _ => 0x1FF41, [⟨0, 1, .rw, .any⟩, ⟨6, 11, .rw, .any⟩]⟩
  , ⟨0x044, 1, 0x4, fun _ _ => 0x0, [⟨0, 16, .ro, .any⟩, ⟨24, 8, .ro, .any⟩]⟩
  , ⟨0x048, 1, 0x4, fun _ _ => 0xA0A, [⟨0, 8, .rw, .ranges [(1, 255)]⟩, ⟨8, 8, .rw, .ranges [(1, 255)]⟩]⟩
  , ⟨0x04C, 1, 0x4, fun _ _ => 0x0, [⟨0, 32, .rw, .any⟩]⟩
  , ⟨0x050, 1, 0x4, fun _ _ => 0x0, [⟨0, 16, .rw, .any⟩]⟩
  , ⟨0x054, 1, 0x4, fun _ _ => 0x0, [⟨0, 32, .ro, .any⟩]⟩
  , ⟨0x058, 1, 0x4, fun _ _ => 0x0, [⟨0, 16, .ro, .any⟩]⟩
  , ⟨0x05C, 1, 0x4, fun _ _ => 0x0, [⟨0, 6, .ro, .any⟩, ⟨8, 1, .ro, .any⟩, ⟨16, 16, .ro, .any⟩]⟩ ]

def mapDIG : List RegSpec :=
  [ ⟨0x040, 1, 0x4, fun _ _ => 0x10001, [⟨0, 32, .rw, .any⟩]⟩
  , ⟨0x044, 1, 0x4, fun _ _ => 0x10001, [⟨0, 32, .rw, .any⟩]⟩
  , ⟨0x048, 1, 0x4, fun _ _ => 0x0, [⟨0, 16, .ro, .any⟩, ⟨16, 16, .ro, .any⟩]⟩
  , ⟨0x04C, 1, 0x4, fun _ _ => 0x0, [⟨0, 16, .ro, .any⟩, ⟨16, 16, .ro, .any⟩]⟩
  , ⟨0x050, 1, 0x4, fun _ _ => 0x0, [⟨0, 16, .ro, .any⟩, ⟨16, 16, .ro, .any⟩]⟩
  , ⟨0x054, 1, 0x4, fun _ _ => 0xA008A008, [⟨0, 8, .rw, .any⟩, ⟨8, 8, .rw, .any⟩, ⟨16, 8, .rw, .any⟩, ⟨24, 8, .rw, .any⟩]⟩
  , ⟨0x058, 1, 0x4, fun _ _ => 0x0, [⟨0, 1, .wo, .any⟩]⟩
  , ⟨0x100, 16, 0x10, fun _ _ => 0x23246, [⟨0, 8, .rw, .any⟩, ⟨8, 8, .rw, .any⟩, ⟨16, 3, .rw, .any⟩, ⟨19, 1, .rw, .any⟩, ⟨20, 1, .rw, .any⟩, ⟨21, 1, .rw, .any⟩, ⟨22, 1, .rw, .any⟩, ⟨23, 1, .rw, .any⟩, ⟨24, 1, .rw, .any⟩]⟩
  , ⟨0x104, 16, 0x10, fun _ _ => 0x14043203, [⟨0, 4, .rw, .ranges [(1, 15)]⟩, ⟨8, 8, .rw, .any⟩, ⟨16, 4, .rw, .ranges [(1, 15)]⟩, ⟨24, 8, .rw, .ranges [(1, 255)]⟩]⟩
  , ⟨0x108, 16, 0x10, fun _ _ => 0x0, [⟨0, 8, .ro, .any⟩, ⟨15, 1, .ro, .any⟩]⟩
  , ⟨0x10C, 16, 0x10, fun _ _ => 0x0, [⟨0, 8, .ro, .any⟩, ⟨8, 8, .ro, .any⟩, ⟨16, 8, .ro, .any⟩, ⟨24, 8, .ro, .any⟩]⟩ ]

def mapANA : List RegSpec :=
  [ ⟨0x040, 1, 0x4, fun _ _ => 0x10001, [⟨0, 32, .rw, .any⟩]⟩
  , ⟨0x044, 1, 0x4, fun _ _ => 0x10001, [⟨0, 32, .rw, .any⟩]⟩
  , ⟨0x048, 1, 0x4, fun _ _ => 0x0, [⟨0, 16, .ro, .any⟩, ⟨16, 16, .ro, .any⟩]⟩
  , ⟨0x100, 16, 0x10, fun _ _ => 0x31, [⟨0, 1, .rw, .any⟩, ⟨1, 2, .rw, .ranges [(0, 2)]⟩, ⟨3, 1, .rw, .any⟩, ⟨4, 4, .rw, .ranges [(1, 15)]⟩]⟩
  , ⟨0x104, 16, 0x10, fun _ _ => 0x3FFF0000, [⟨0, 14, .rw, .any⟩, ⟨16, 14, .rw, .any⟩]⟩
  , ⟨0x108, 16, 0x10, fun _ _ => 0x0, [⟨0, 14, .ro, .any⟩, ⟨15, 1, .ro, .any⟩, ⟨16, 1, .ro, .any⟩, ⟨17, 1, .ro, .any⟩, ⟨18, 1, .ro, .any⟩, ⟨19, 1, .ro, .any⟩]⟩ ]

def mapBR : List RegSpec :=
  [ ⟨0x044, 1, 0x4, fun _ _ => 0x0, [⟨0, 1, .ro, .any⟩, ⟨1, 1, .ro, .any⟩, ⟨8, 7, .ro, .any⟩, ⟨24, 8, .ro, .any⟩]⟩
  , ⟨0x048, 1, 0x4, fun _ _ => 0x0, [⟨0, 8, .ro, .any⟩, ⟨8, 8, .ro, .any⟩, ⟨16, 8, .ro, .any⟩, ⟨24, 8, .ro, .any⟩]⟩
  , ⟨0x04C, 1, 0x4, fun _ _ => 0x0, [⟨0, 32, .ro, .any⟩]⟩
  , ⟨0x050, 1, 0x4, fun _ _ => 0x0, [⟨0, 4, .ro, .any⟩, ⟨8, 8, .ro, .any⟩]⟩
  , ⟨0x054, 1, 0x4, fun _ _ => 0x0, [⟨0, 32, .ro, .any⟩]⟩
  , ⟨0x058, 1, 0x4, fun _ _ => 0x0, [⟨0, 32, .ro, .any⟩]⟩
  , ⟨0x05C, 1, 0x4, fun _ _ => 0x0, [⟨0, 32, .ro, .any⟩]⟩
  , ⟨0x060, 1, 0x4, fun _ _ => 0x0, [⟨0, 32, .ro, .any⟩]⟩
  , ⟨0x064, 1, 0x4, fun _ _ => 0x0, [⟨0, 1, .wo, .any⟩]⟩
  , ⟨0x100, 8, 0x10, fun _ _ => 0x0, [⟨12, 20, .rw, .any⟩]⟩
  , ⟨0x104, 8, 0x10, fun _ _ => 0x0, [⟨0, 4, .rw, .any⟩]⟩
  , ⟨0x108, 8, 0x10, fun _ _ => 0x0, [⟨0, 16, .rw, .any⟩]⟩ ]

def mapDBR : List RegSpec :=
  [ ⟨0x040, 1, 0x4, fun _ _ => 0x114, [⟨0, 8, .rw, .ranges [(1, 255)]⟩, ⟨8, 1, .ro, .any⟩]⟩ ]

def mapTBR : List RegSpec :=
  [ ⟨0x040, 1, 0x4, fun _ _ => 0x32, [⟨0, 8, .rw, .ranges [(1, 255)]⟩, ⟨8, 1, .rw, .any⟩]⟩
  , ⟨0x080, 1, 0x4, fun _ _ => 0x0, [⟨0, 32, .rw, .any⟩]⟩
  , ⟨0x084, 1, 0x4, fun _ _ => 0x0, [⟨0, 4, .rw, .any⟩]⟩
  , ⟨0x088, 1, 0x4, fun _ _ => 0x0, [⟨0, 32, .rw, .any⟩]⟩
  , ⟨0x08C, 1, 0x4, fun _ _ => 0x0, [⟨0, 32, .ro, .any⟩]⟩
  , ⟨0x090, 1, 0x4, fun _ _ => 0x0, [⟨0, 2, .rw, .ranges [(0, 2)]⟩, ⟨16, 1, .wo, .any⟩, ⟨17, 1, .ro, .any⟩, ⟨18, 2, .ro, .any⟩, ⟨24, 8, .ro, .any⟩]⟩ ]

def mapTWL : List RegSpec :=
  [ ⟨0x040, 1, 0x4, fun _ _ => 0x3, [⟨0, 1, .rw, .any⟩, ⟨1, 1, .rw, .any⟩, ⟨2, 1, .wo, .any⟩]⟩
  , ⟨0x044, 1, 0x4, fun _ _ => 0x0, [⟨0, 2, .ro, .any⟩, ⟨2, 2, .ro, .any⟩]⟩
  , ⟨0x048, 1, 0x4, fun _ _ => 0x0, [⟨0, 32, .ro, .any⟩]⟩
  , ⟨0x04C, 1, 0x4, fun _ _ => 0x0, [⟨0, 32, .ro, .any⟩]⟩
  , ⟨0x050, 1, 0x4, fun _ _ => 0x0, [⟨0, 16, .ro, .any⟩, ⟨16, 16, .ro, .any⟩]⟩
  , ⟨0x054, 1, 0x4, fun _ _ => 0x0, [⟨0, 1, .wo, .any⟩]⟩ ]

def mapTWR : List RegSpec :=
  [ ⟨0x040, 1, 0x4, fun _ _ => 0xD, [⟨0, 1, .rw, .any⟩, ⟨1, 1, .wo, .any⟩, ⟨2, 1, .rw, .any⟩, ⟨3, 1, .rw, .any⟩]⟩
  , ⟨0x044, 1, 0x4, fun _ _ => 0x1E64, [⟨0, 8, .rwl, .ranges [(1, 255)]⟩, ⟨8, 8, .rwl, .ranges [(20, 120)]⟩]⟩
  , ⟨0x048, 1, 0x4, fun _ _ => 0x0, [⟨0, 1, .ro, .any⟩, ⟨1, 1, .ro, .any⟩, ⟨2, 1, .ro, .any⟩, ⟨3, 1, .ro, .any⟩, ⟨4, 1, .ro, .any⟩, ⟨8, 2, .ro, .any⟩]⟩
  , ⟨0x04C, 1, 0x4, fun _ _ => 0x0, [⟨0, 16, .ro, .any⟩, ⟨16, 16, .ro, .any⟩]⟩
  , ⟨0x050, 1, 0x4, fun _ _ => 0x0, [⟨0, 16, .ro, .any⟩, ⟨16, 16, .ro, .any⟩]⟩
  , ⟨0x054, 1, 0x4, fun _ _ => 0x0, [⟨0, 16, .ro, .any⟩, ⟨16, 16, .ro, .any⟩]⟩
  , ⟨0x058, 1, 0x4, fun _ _ => 0x0, [⟨0, 8, .ro, .any⟩, ⟨8, 8, .ro, .any⟩, ⟨16, 16, .ro, .any⟩]⟩
  , ⟨0x05C, 4, 0x4, fun _ _ => 0x0, [⟨0, 32, .ro, .any⟩]⟩
  , ⟨0x06C, 1, 0x4, fun _ _ => 0x0, [⟨12, 12, .rwl, .any⟩]⟩
  , ⟨0x070, 1, 0x4, fun _ _ => 0x0, [⟨0, 10, .rwl, .ranges [(0, 512)]⟩]⟩
  , ⟨0x074, 1, 0x4, fun _ _ => 0x0, [⟨0, 4, .rw, .any⟩, ⟨4, 2, .rw, .any⟩, ⟨8, 4, .rw, .any⟩, ⟨16, 1, .wo, .any⟩, ⟨17, 1, .ro, .any⟩, ⟨18, 2, .ro, .any⟩]⟩
  , ⟨0x078, 1, 0x4, fun _ _ => 0x0, [⟨0, 16, .rw, .any⟩, ⟨16, 16, .rw, .any⟩]⟩
  , ⟨0x07C, 3, 0x4, fun _ _ => 0x0, [⟨0, 32, .ro, .any⟩]⟩
  , ⟨0x088, 1, 0x4, fun _ _ => 0x0, [⟨0, 16, .ro, .any⟩, ⟨16, 16, .ro, .any⟩]⟩
  , ⟨0x08C, 1, 0x4, fun _ _ => 0x0, [⟨0, 1, .wo, .any⟩]⟩ ]

def mapMIG : List RegSpec :=
  [ ⟨0x040, 1, 0x4, fun _ _ => 0x0, [⟨0, 4, .rw, .any⟩, ⟨4, 1, .rw, .any⟩, ⟨8, 1, .wo, .any⟩, ⟨9, 1, .wo, .any⟩, ⟨10, 1, .wo, .any⟩]⟩
  , ⟨0x044, 1, 0x4, fun _ _ => 0x0, [⟨0, 3, .ro, .any⟩, ⟨8, 8, .ro, .any⟩]⟩
  , ⟨0x048, 1, 0x4, fun _ _ => 0x0, [⟨0, 16, .rw, .any⟩]⟩
  , ⟨0x04C, 1, 0x4, fun _ _ => 0x0, [⟨0, 16, .rw, .any⟩]⟩
  , ⟨0x050, 1, 0x4, fun _ _ => 0x100, [⟨0, 24, .rw, .any⟩]⟩
  , ⟨0x054, 1, 0x4, fun _ _ => 0x0, [⟨0, 24, .ro, .any⟩]⟩
  , ⟨0x058, 1, 0x4, fun _ _ => 0x0, [⟨0, 32, .ro, .any⟩]⟩ ]

def mapCALC : List RegSpec :=
  [ ⟨0x040, 1, 0x4, fun _ _ => 0xF, [⟨0, 4, .rwl, .any⟩]⟩
  , ⟨0x044, 1, 0x4, fun _ _ => 0x3F, [⟨0, 6, .ro, .any⟩]⟩
  , ⟨0x048, 1, 0x4, fun _ _ => 0x0, [⟨0, 6, .ro, .any⟩, ⟨8, 6, .ro, .any⟩, ⟨16, 6, .ro, .any⟩]⟩
  , ⟨0x04C, 1, 0x4, fun _ _ => 0x0, [⟨0, 16, .ro, .any⟩, ⟨16, 8, .ro, .any⟩]⟩ ]

def mapCAL : List RegSpec :=
  [ ⟨0x040, 1, 0x4, fun i _ => BitVec.ofNat 32 (Config.byPair i 0x640306 0x640300), [⟨0, 2, .rwl, .ranges [(0, 2)]⟩, ⟨2, 1, .rwl, .any⟩, ⟨8, 4, .rwl, .ranges [(1, 15)]⟩, ⟨16, 8, .rwl, .ranges [(1, 255)]⟩]⟩
  , ⟨0x044, 1, 0x4, fun i _ => BitVec.ofNat 32 (Config.byPair i 0xE000064 0xE000000), [⟨0, 7, .rw, .any⟩, ⟨16, 13, .rw, .ranges [(1024, 4032)]⟩]⟩
  , ⟨0x048, 1, 0x4, fun _ _ => 0x8, [⟨0, 4, .rw, .ranges [(1, 8)]⟩]⟩
  , ⟨0x04C, 1, 0x4, fun _ _ => 0x0, [⟨0, 1, .ro, .any⟩, ⟨4, 4, .ro, .any⟩, ⟨16, 12, .ro, .any⟩]⟩
  , ⟨0x050, 1, 0x4, fun _ _ => 0x0, [⟨0, 32, .ro, .any⟩]⟩
  , ⟨0x054, 1, 0x4, fun _ _ => 0x0, [⟨0, 16, .ro, .any⟩, ⟨16, 16, .ro, .any⟩]⟩
  , ⟨0x058, 1, 0x4, fun _ _ => 0x0, [⟨0, 16, .ro, .any⟩, ⟨16, 8, .ro, .any⟩, ⟨24, 8, .ro, .any⟩]⟩
  , ⟨0x05C, 1, 0x4, fun _ _ => 0x0, [⟨0, 3, .ro, .any⟩]⟩
  , ⟨0x060, 1, 0x4, fun _ _ => 0x0, [⟨0, 32, .ro, .any⟩]⟩
  , ⟨0x064, 1, 0x4, fun _ _ => 0x0, [⟨0, 32, .ro, .any⟩]⟩
  , ⟨0x068, 1, 0x4, fun _ _ => 0x0, [⟨0, 32, .ro, .any⟩]⟩
  , ⟨0x06C, 1, 0x4, fun _ _ => 0x0, [⟨0, 32, .ro, .any⟩]⟩
  , ⟨0x070, 1, 0x4, fun _ _ => 0x0, [⟨0, 13, .ro, .any⟩, ⟨16, 13, .ro, .any⟩]⟩
  , ⟨0x074, 1, 0x4, fun _ _ => 0x0, [⟨0, 16, .ro, .any⟩, ⟨16, 16, .ro, .any⟩]⟩
  , ⟨0x078, 1, 0x4, fun _ _ => 0x0, [⟨0, 1, .wo, .any⟩]⟩ ]

def mapSYS : List RegSpec :=
  [ ⟨0x040, 1, 0x4, fun _ _ => 0xB040, [⟨0, 8, .ro, .any⟩, ⟨8, 8, .ro, .any⟩]⟩
  , ⟨0x044, 1, 0x4, fun _ _ => 0xFFFFFFFF, [⟨0, 16, .rw, .any⟩, ⟨16, 16, .rw, .any⟩]⟩
  , ⟨0x048, 1, 0x4, fun _ _ => 0xFFFFFFFF, [⟨0, 16, .rw, .any⟩, ⟨16, 16, .rw, .any⟩]⟩
  , ⟨0x04C, 1, 0x4, fun _ _ => 0x0, [⟨0, 32, .ro, .any⟩]⟩ ]

def mapINTC : List RegSpec :=
  [ ⟨0x040, 1, 0x4, fun _ _ => 0x0, [⟨0, 9, .wo, .any⟩]⟩
  , ⟨0x100, 512, 0x4, fun _ _ => 0x1F, [⟨0, 5, .rw, .ranges [(0, 12), (31, 31)]⟩, ⟨8, 4, .rw, .any⟩, ⟨12, 2, .rw, .any⟩, ⟨16, 1, .rw, .any⟩]⟩
  , ⟨0x900, 16, 0x4, fun _ _ => 0x0, [⟨0, 32, .ro, .any⟩]⟩ ]

def mapCORE : List RegSpec :=
  [ ⟨0x040, 1, 0x4, fun i _ => BitVec.ofNat 32 (if i = 12 then 1 else 0), [⟨0, 1, .rw, .any⟩, ⟨1, 1, .wo, .any⟩]⟩
  , ⟨0x044, 1, 0x4, fun _ _ => 0x0, [⟨0, 1, .ro, .any⟩, ⟨1, 1, .ro, .any⟩, ⟨2, 1, .ro, .any⟩, ⟨3, 1, .ro, .any⟩]⟩
  , ⟨0x048, 1, 0x4, fun _ _ => 0x10000000, [⟨2, 30, .rwl, .any⟩]⟩
  , ⟨0x04C, 1, 0x4, fun _ _ => 0x0, [⟨0, 4, .rwl, .any⟩]⟩
  , ⟨0x050, 1, 0x4, fun _ _ => 0x0, [⟨0, 32, .ro, .any⟩]⟩ ]

def mapMBX : List RegSpec :=
  [ ⟨0x040, 1, 0x4, fun _ _ => 0x0, [⟨0, 1, .rw, .any⟩]⟩
  , ⟨0x044, 1, 0x4, fun _ _ => 0x0, [⟨0, 32, .w1c, .any⟩]⟩
  , ⟨0x048, 1, 0x4, fun _ _ => 0x0, [⟨0, 32, .rw, .any⟩]⟩
  , ⟨0x04C, 1, 0x4, fun _ _ => 0x0, [⟨0, 32, .ro, .any⟩]⟩
  , ⟨0x050, 1, 0x4, fun _ _ => 0x0, [⟨0, 32, .ro, .any⟩]⟩
  , ⟨0x054, 1, 0x4, fun _ _ => 0x0, [⟨0, 32, .ro, .any⟩]⟩
  , ⟨0x058, 1, 0x4, fun _ _ => 0x0, [⟨0, 32, .ro, .any⟩]⟩
  , ⟨0x05C, 1, 0x4, fun _ _ => 0x0, [⟨0, 1, .wo, .any⟩]⟩ ]

def mapMBC : List RegSpec :=
  [ ⟨0x040, 1, 0x4, fun _ _ => 0xFF, [⟨0, 8, .rwl, .any⟩, ⟨8, 5, .rwl, .any⟩, ⟨13, 1, .rwl, .any⟩]⟩
  , ⟨0x044, 1, 0x4, fun _ _ => 0x0, [⟨0, 8, .rwl, .any⟩, ⟨8, 4, .rwl, .any⟩, ⟨12, 1, .rwl, .any⟩, ⟨16, 4, .rwl, .any⟩, ⟨24, 1, .rwl, .any⟩, ⟨28, 3, .rwl, .any⟩]⟩
  , ⟨0x048, 1, 0x4, fun _ _ => 0x0, [⟨0, 1, .ro, .any⟩, ⟨1, 1, .ro, .any⟩, ⟨2, 1, .ro, .any⟩, ⟨3, 1, .ro, .any⟩, ⟨8, 5, .ro, .any⟩]⟩
  , ⟨0x04C, 1, 0x4, fun _ _ => 0x0, [⟨0, 14, .ro, .any⟩]⟩
  , ⟨0x050, 1, 0x4, fun _ _ => 0x0, [⟨0, 14, .rs, .any⟩, ⟨16, 5, .rs, .any⟩, ⟨31, 1, .rs, .any⟩]⟩
  , ⟨0x054, 1, 0x4, fun _ _ => 0x0, [⟨0, 32, .ro, .any⟩]⟩
  , ⟨0x058, 1, 0x4, fun _ _ => 0x0, [⟨0, 32, .ro, .any⟩]⟩
  , ⟨0x05C, 1, 0x4, fun _ _ => 0x0, [⟨0, 16, .ro, .any⟩, ⟨16, 16, .ro, .any⟩]⟩
  , ⟨0x100, 16, 0x4, fun _ _ => 0x0, [⟨0, 32, .ro, .any⟩]⟩
  , ⟨0xF00, 16, 0x4, fun _ _ => 0x0, [⟨0, 32, .wo, .any⟩]⟩
  , ⟨0xF40, 1, 0x4, fun _ _ => 0x0, [⟨16, 5, .wo, .any⟩]⟩ ]

def mapISO : List RegSpec :=
  [ ⟨0x040, 1, 0x4, fun _ _ => 0x1388, [⟨0, 16, .rw, .ranges [(10, 65535)]⟩]⟩
  , ⟨0x044, 1, 0x4, fun _ _ => 0x0, [⟨0, 16, .ro, .any⟩, ⟨16, 8, .ro, .any⟩, ⟨24, 2, .ro, .any⟩, ⟨31, 1, .ro, .any⟩]⟩
  , ⟨0x048, 1, 0x4, fun _ _ => 0x0, [⟨0, 16, .ro, .any⟩, ⟨16, 16, .ro, .any⟩]⟩
  , ⟨0x04C, 1, 0x4, fun _ _ => 0x0, [⟨13, 19, .rwl, .any⟩]⟩
  , ⟨0x050, 1, 0x4, fun _ _ => 0x0, [⟨0, 4, .rwl, .any⟩, ⟨31, 1, .rwl, .any⟩]⟩
  , ⟨0x054, 1, 0x4, fun _ _ => 0x0, [⟨0, 2, .rwl, .ranges [(0, 2)]⟩, ⟨4, 4, .rwl, .any⟩]⟩
  , ⟨0x058, 1, 0x4, fun _ _ => 0x0, [⟨0, 1, .rw, .any⟩]⟩
  , ⟨0x100, 16, 0x8, fun _ _ => 0x0, [⟨0, 20, .rwl, .any⟩]⟩
  , ⟨0x104, 16, 0x8, fun _ _ => 0x0, [⟨0, 20, .rwl, .any⟩, ⟨31, 1, .rwl, .any⟩]⟩ ]

def mapIOM : List RegSpec :=
  [ ⟨0x040, 1, 0x4, fun _ _ => 0x0, [⟨13, 19, .rw, .any⟩]⟩
  , ⟨0x044, 1, 0x4, fun _ _ => 0x0, [⟨0, 4, .rw, .any⟩, ⟨31, 1, .rw, .any⟩]⟩
  , ⟨0x048, 1, 0x4, fun _ _ => 0x0, [⟨0, 2, .rw, .any⟩, ⟨16, 1, .wo, .any⟩, ⟨17, 1, .ro, .any⟩]⟩
  , ⟨0x04C, 1, 0x4, fun _ _ => 0x0, [⟨0, 5, .ro, .any⟩, ⟨8, 3, .ro, .any⟩, ⟨11, 1, .ro, .any⟩, ⟨12, 2, .ro, .any⟩, ⟨15, 1, .ro, .any⟩, ⟨31, 1, .ro, .any⟩]⟩
  , ⟨0x050, 1, 0x4, fun _ _ => 0x0, [⟨0, 32, .ro, .any⟩]⟩
  , ⟨0x054, 1, 0x4, fun _ _ => 0x0, [⟨0, 1, .wo, .any⟩]⟩
  , ⟨0x058, 1, 0x4, fun _ _ => 0x0, [⟨0, 16, .ro, .any⟩]⟩
  , ⟨0x05C, 1, 0x4, fun _ _ => 0x0, [⟨0, 16, .w1c, .any⟩]⟩
  , ⟨0x060, 1, 0x4, fun _ _ => 0x0, [⟨0, 16, .rw, .any⟩]⟩ ]

def mapVMC : List RegSpec :=
  [ ⟨0x040, 1, 0x4, fun _ _ => 0x0, [⟨0, 1, .rw, .any⟩, ⟨1, 1, .rw, .any⟩]⟩
  , ⟨0x044, 1, 0x4, fun _ _ => 0x0, [⟨13, 19, .rw, .any⟩]⟩
  , ⟨0x048, 1, 0x4, fun _ _ => 0x0, [⟨0, 4, .rw, .any⟩]⟩
  , ⟨0x04C, 1, 0x4, fun _ _ => 0x0, [⟨0, 2, .rw, .any⟩, ⟨16, 1, .wo, .any⟩, ⟨17, 1, .ro, .any⟩]⟩
  , ⟨0x050, 1, 0x4, fun _ _ => 0x0, [⟨0, 28, .rw, .any⟩]⟩
  , ⟨0x054, 1, 0x4, fun _ _ => 0x0, [⟨0, 12, .ro, .any⟩]⟩
  , ⟨0x058, 1, 0x4, fun _ _ => 0x0, [⟨0, 5, .ro, .any⟩, ⟨8, 3, .ro, .any⟩, ⟨11, 1, .ro, .any⟩, ⟨12, 2, .ro, .any⟩, ⟨15, 1, .ro, .any⟩, ⟨31, 1, .ro, .any⟩]⟩
  , ⟨0x05C, 1, 0x4, fun _ _ => 0x0, [⟨0, 32, .ro, .any⟩]⟩
  , ⟨0x060, 1, 0x4, fun _ _ => 0x0, [⟨0, 16, .ro, .any⟩, ⟨16, 16, .ro, .any⟩]⟩
  , ⟨0x064, 1, 0x4, fun _ _ => 0x0, [⟨0, 1, .wo, .any⟩]⟩ ]

def mapDMC : List RegSpec :=
  [ ⟨0x040, 1, 0x4, fun _ _ => 0x0, [⟨0, 1, .ro, .any⟩, ⟨1, 1, .ro, .any⟩, ⟨8, 3, .ro, .any⟩]⟩
  , ⟨0x044, 1, 0x4, fun _ _ => 0xF42, [⟨0, 16, .ro, .any⟩]⟩
  , ⟨0x048, 1, 0x4, fun _ _ => 0x28285050, [⟨0, 32, .ro, .any⟩]⟩
  , ⟨0x04C, 1, 0x4, fun _ _ => 0x0, [⟨0, 32, .ro, .any⟩]⟩
  , ⟨0x050, 1, 0x4, fun _ _ => 0x0, [⟨0, 32, .ro, .any⟩]⟩
  , ⟨0x054, 1, 0x4, fun _ _ => 0x0, [⟨0, 32, .ro, .any⟩]⟩
  , ⟨0x058, 1, 0x4, fun _ _ => 0x0, [⟨0, 32, .ro, .any⟩]⟩
  , ⟨0x05C, 1, 0x4, fun _ _ => 0x0, [⟨0, 4, .ro, .any⟩, ⟨8, 3, .ro, .any⟩, ⟨16, 8, .ro, .any⟩]⟩
  , ⟨0x060, 1, 0x4, fun _ _ => 0x0, [⟨0, 7, .ro, .any⟩, ⟨8, 7, .ro, .any⟩, ⟨15, 1, .ro, .any⟩]⟩
  , ⟨0x064, 1, 0x4, fun _ _ => 0x0, [⟨0, 16, .ro, .any⟩, ⟨16, 16, .ro, .any⟩]⟩
  , ⟨0x068, 1, 0x4, fun _ _ => 0x0, [⟨0, 1, .wo, .any⟩]⟩ ]

def mapSCR : List RegSpec :=
  [ ⟨0x040, 1, 0x4, fun _ _ => 0xA010801, [⟨0, 1, .rw, .any⟩, ⟨8, 8, .rw, .ranges [(1, 255)]⟩, ⟨16, 8, .rw, .ranges [(1, 255)]⟩, ⟨24, 8, .rw, .ranges [(1, 255)]⟩]⟩
  , ⟨0x044, 1, 0x4, fun _ _ => 0x0, [⟨0, 29, .ro, .any⟩]⟩
  , ⟨0x048, 1, 0x4, fun _ _ => 0x0, [⟨0, 16, .ro, .any⟩, ⟨16, 16, .ro, .any⟩]⟩
  , ⟨0x04C, 1, 0x4, fun _ _ => 0x0, [⟨0, 9, .ro, .any⟩, ⟨31, 1, .ro, .any⟩]⟩
  , ⟨0x100, 256, 0x8, fun _ _ => 0x0, [⟨3, 29, .ro, .any⟩]⟩
  , ⟨0x104, 256, 0x8, fun _ _ => 0x0, [⟨0, 4, .ro, .any⟩, ⟨31, 1, .ro, .any⟩]⟩ ]

def mapNOR : List RegSpec :=
  [ ⟨0x040, 1, 0x4, fun _ _ => 0x0, [⟨0, 3, .rw, .any⟩, ⟨16, 1, .wo, .any⟩, ⟨17, 1, .ro, .any⟩, ⟨18, 2, .ro, .any⟩, ⟨24, 8, .rw, .any⟩]⟩
  , ⟨0x044, 1, 0x4, fun _ _ => 0x0, [⟨0, 27, .rw, .any⟩]⟩
  , ⟨0x048, 1, 0x4, fun _ _ => 0x0, [⟨0, 1, .ro, .any⟩, ⟨1, 1, .ro, .any⟩, ⟨2, 1, .ro, .any⟩]⟩
  , ⟨0x04C, 1, 0x4, fun _ _ => 0x0, [⟨0, 20, .ro, .any⟩, ⟨20, 11, .ro, .any⟩]⟩
  , ⟨0x050, 1, 0x4, fun _ _ => 0x0, [⟨0, 16, .ro, .any⟩, ⟨16, 16, .ro, .any⟩]⟩
  , ⟨0x054, 1, 0x4, fun _ _ => 0x0, [⟨0, 1, .wo, .any⟩]⟩
  , ⟨0x100, 64, 0x4, fun _ _ => 0x0, [⟨0, 32, .rw, .any⟩]⟩ ]

def mapFUS : List RegSpec :=
  [ ⟨0x040, 1, 0x4, fun _ _ => 0x0, [⟨0, 1, .ro, .any⟩, ⟨1, 1, .ro, .any⟩, ⟨8, 4, .ro, .any⟩]⟩
  , ⟨0x044, 1, 0x4, fun _ _ => 0x0, [⟨0, 9, .rw, .any⟩]⟩
  , ⟨0x048, 1, 0x4, fun _ _ => 0x0, [⟨0, 32, .rw, .any⟩]⟩
  , ⟨0x04C, 1, 0x4, fun _ _ => 0x0, [⟨0, 1, .wo, .any⟩, ⟨1, 1, .ro, .any⟩, ⟨2, 2, .ro, .any⟩]⟩
  , ⟨0x100, 512, 0x4, fun _ _ => 0x0, [⟨0, 32, .ro, .any⟩]⟩ ]

def mapSEC : List RegSpec :=
  [ ⟨0x040, 1, 0x4, fun _ _ => 0x0, [⟨0, 1, .ro, .any⟩, ⟨1, 1, .ro, .any⟩]⟩
  , ⟨0x044, 1, 0x4, fun _ _ => 0x0, [⟨0, 32, .rw, .any⟩]⟩
  , ⟨0x048, 1, 0x4, fun _ _ => 0x0, [⟨0, 4, .rw, .any⟩]⟩
  , ⟨0x04C, 1, 0x4, fun _ _ => 0x0, [⟨0, 16, .rw, .any⟩]⟩
  , ⟨0x050, 1, 0x4, fun _ _ => 0x0, [⟨0, 1, .wo, .any⟩]⟩
  , ⟨0x054, 1, 0x4, fun _ _ => 0x0, [⟨0, 4, .ro, .any⟩, ⟨8, 4, .ro, .any⟩, ⟨31, 1, .ro, .any⟩]⟩
  , ⟨0x058, 1, 0x4, fun _ _ => 0x0, [⟨0, 32, .ro, .any⟩]⟩
  , ⟨0x05C, 4, 0x4, fun _ _ => 0x0, [⟨0, 32, .ro, .any⟩]⟩
  , ⟨0x06C, 1, 0x4, fun _ _ => 0x0, [⟨0, 16, .ro, .any⟩, ⟨16, 16, .ro, .any⟩]⟩ ]

def mapKEY : List RegSpec :=
  [ ⟨0x100, 32, 0x8, fun _ _ => 0x0, [⟨0, 32, .ro, .any⟩]⟩
  , ⟨0x104, 32, 0x8, fun _ _ => 0x0, [⟨0, 1, .ro, .any⟩, ⟨1, 1, .ro, .any⟩, ⟨16, 16, .ro, .any⟩]⟩ ]

def mapATT : List RegSpec :=
  [ ⟨0x040, 1, 0x4, fun _ _ => 0x0, [⟨0, 1, .wo, .any⟩, ⟨1, 1, .ro, .any⟩, ⟨2, 2, .ro, .any⟩]⟩
  , ⟨0x044, 1, 0x4, fun _ _ => 0x0, [⟨0, 3, .rw, .any⟩, ⟨8, 1, .wo, .any⟩]⟩
  , ⟨0x100, 8, 0x4, fun _ _ => 0x0, [⟨0, 32, .rw, .any⟩]⟩
  , ⟨0x120, 8, 0x4, fun _ _ => 0x0, [⟨0, 32, .rw, .any⟩]⟩
  , ⟨0x200, 64, 0x4, fun _ _ => 0x0, [⟨0, 32, .ro, .any⟩]⟩
  , ⟨0x300, 8, 0x4, fun _ _ => 0x0, [⟨0, 32, .ro, .any⟩]⟩ ]

def mapLCS : List RegSpec :=
  [ ⟨0x040, 1, 0x4, fun _ _ => 0x0, [⟨0, 4, .ro, .any⟩, ⟨8, 2, .ro, .any⟩, ⟨16, 1, .ro, .any⟩]⟩
  , ⟨0x044, 1, 0x4, fun _ _ => 0x0, [⟨0, 1, .wo, .any⟩, ⟨1, 1, .wo, .any⟩]⟩
  , ⟨0x048, 1, 0x4, fun _ _ => 0x0, [⟨0, 32, .ro, .any⟩]⟩
  , ⟨0x100, 24, 0x4, fun _ _ => 0x0, [⟨0, 32, .ro, .any⟩]⟩ ]

def mapCMD : List RegSpec :=
  [ ⟨0x040, 1, 0x4, fun _ _ => 0x0, [⟨0, 16, .rw, .any⟩]⟩
  , ⟨0x044, 1, 0x4, fun _ _ => 0x110, [⟨0, 8, .rw, .ranges [(1, 255)]⟩, ⟨8, 8, .rw, .ranges [(1, 255)]⟩]⟩
  , ⟨0x100, 16, 0x4, fun _ _ => 0x0, [⟨0, 32, .rw, .any⟩]⟩
  , ⟨0x180, 16, 0x4, fun _ _ => 0x0, [⟨0, 32, .rw, .any⟩]⟩
  , ⟨0x140, 2, 0x80, fun _ _ => 0x0, [⟨0, 1, .wo, .any⟩, ⟨1, 1, .wo, .any⟩, ⟨16, 5, .wo, .any⟩]⟩
  , ⟨0x144, 2, 0x80, fun _ _ => 0x0, [⟨0, 4, .ro, .any⟩, ⟨8, 4, .ro, .any⟩, ⟨16, 5, .ro, .any⟩, ⟨30, 1, .ro, .any⟩, ⟨31, 1, .ro, .any⟩]⟩
  , ⟨0x148, 2, 0x80, fun _ _ => 0x0, [⟨0, 32, .ro, .any⟩]⟩
  , ⟨0x300, 16, 0x20, fun _ _ => 0x0, [⟨0, 1, .rw, .any⟩, ⟨8, 6, .rw, .any⟩, ⟨16, 2, .rw, .any⟩]⟩
  , ⟨0x304, 16, 0x20, fun _ _ => 0x0, [⟨0, 32, .rw, .any⟩]⟩
  , ⟨0x308, 16, 0x20, fun _ _ => 0x0, [⟨0, 32, .rw, .any⟩]⟩
  , ⟨0x30C, 16, 0x20, fun _ _ => 0x0, [⟨0, 32, .rw, .any⟩]⟩
  , ⟨0x310, 16, 0x20, fun _ _ => 0x0, [⟨0, 32, .rw, .any⟩]⟩
  , ⟨0x314, 16, 0x20, fun _ _ => 0x0, [⟨0, 16, .ro, .any⟩, ⟨16, 8, .ro, .any⟩, ⟨24, 8, .ro, .any⟩]⟩ ]

def mapCRY : List RegSpec :=
  [ ⟨0x040, 1, 0x4, fun _ _ => 0x0, [⟨0, 4, .rw, .any⟩, ⟨8, 6, .rw, .any⟩, ⟨16, 1, .wo, .any⟩, ⟨17, 1, .ro, .any⟩]⟩
  , ⟨0x044, 1, 0x4, fun _ _ => 0x0, [⟨0, 32, .rw, .any⟩]⟩
  , ⟨0x048, 1, 0x4, fun _ _ => 0x0, [⟨0, 32, .rw, .any⟩]⟩
  , ⟨0x04C, 1, 0x4, fun _ _ => 0x0, [⟨0, 32, .rw, .any⟩]⟩
  , ⟨0x050, 1, 0x4, fun _ _ => 0x0, [⟨0, 32, .rw, .any⟩]⟩
  , ⟨0x054, 1, 0x4, fun _ _ => 0x0, [⟨0, 32, .rw, .any⟩]⟩
  , ⟨0x058, 1, 0x4, fun _ _ => 0x0, [⟨0, 2, .ro, .any⟩]⟩ ]

def mapCLK : List RegSpec :=
  [ ⟨0x040, 1, 0x4, fun _ _ => 0x0, [⟨0, 1, .rwl, .any⟩]⟩
  , ⟨0x044, 1, 0x4, fun _ _ => 0x0, [⟨0, 1, .ro, .any⟩, ⟨1, 1, .ro, .any⟩, ⟨2, 1, .ro, .any⟩, ⟨3, 1, .ro, .any⟩]⟩
  , ⟨0x048, 1, 0x4, fun _ _ => 0x3, [⟨0, 3, .rw, .ranges [(0, 5)]⟩]⟩
  , ⟨0x04C, 1, 0x4, fun _ _ => 0x9C40, [⟨0, 16, .ro, .any⟩]⟩
  , ⟨0x050, 1, 0x4, fun _ _ => 0x0, [⟨0, 16, .ro, .any⟩]⟩ ]

def mapPLL : List RegSpec :=
  [ ⟨0x040, 1, 0x4, fun i _ => BitVec.ofNat 32 ([160, 240, 128, 160, 128].getD i 0), [⟨0, 12, .ro, .any⟩]⟩
  , ⟨0x044, 1, 0x4, fun _ _ => 0x0, [⟨0, 1, .ro, .any⟩, ⟨1, 1, .ro, .any⟩, ⟨8, 8, .ro, .any⟩]⟩ ]

def mapCSV : List RegSpec :=
  [ ⟨0x040, 1, 0x4, fun _ _ => 0x0, [⟨0, 10, .ro, .any⟩]⟩
  , ⟨0x100, 10, 0x10, fun _ k => BitVec.ofNat 32 (Config.csvExp k), [⟨0, 24, .ro, .any⟩]⟩
  , ⟨0x104, 10, 0x10, fun _ _ => 0x0, [⟨0, 24, .ro, .any⟩]⟩
  , ⟨0x108, 10, 0x10, fun _ _ => 0x0, [⟨0, 1, .ro, .any⟩, ⟨1, 1, .ro, .any⟩, ⟨8, 8, .ro, .any⟩, ⟨16, 16, .ro, .any⟩]⟩ ]

def mapRST : List RegSpec :=
  [ ⟨0x040, 1, 0x4, fun _ _ => 0x0, [⟨0, 9, .w1c, .any⟩]⟩
  , ⟨0x044, 1, 0x4, fun _ _ => 0x0, [⟨0, 1, .wo, .any⟩, ⟨1, 1, .wo, .any⟩, ⟨2, 1, .wo, .any⟩, ⟨3, 1, .wo, .any⟩, ⟨8, 1, .wo, .any⟩, ⟨9, 1, .wo, .any⟩, ⟨16, 16, .wo, .any⟩]⟩
  , ⟨0x048, 1, 0x4, fun _ _ => 0x64, [⟨0, 10, .rw, .ranges [(1, 1000)]⟩, ⟨16, 1, .rw, .any⟩]⟩
  , ⟨0x04C, 1, 0x4, fun _ _ => 0x0, [⟨0, 32, .wo, .any⟩]⟩
  , ⟨0x050, 1, 0x4, fun _ _ => 0x0, [⟨0, 8, .ro, .any⟩, ⟨8, 8, .ro, .any⟩, ⟨16, 8, .ro, .any⟩, ⟨24, 8, .ro, .any⟩]⟩ ]

def mapPWR : List RegSpec :=
  [ ⟨0x040, 1, 0x4, fun _ _ => 0x3FF, [⟨0, 10, .ro, .any⟩]⟩
  , ⟨0x044, 1, 0x4, fun _ _ => 0x0, [⟨0, 16, .ro, .any⟩]⟩
  , ⟨0x100, 10, 0x4, fun _ _ => 0x100, [⟨0, 2, .rw, .ranges [(0, 2)]⟩, ⟨8, 1, .ro, .any⟩, ⟨9, 1, .w1c, .any⟩]⟩ ]

def mapVFS : List RegSpec :=
  [ ⟨0x040, 1, 0x4, fun _ _ => 0x3, [⟨0, 3, .rw, .ranges [(0, 5)]⟩]⟩
  , ⟨0x044, 1, 0x4, fun _ _ => 0x33, [⟨0, 3, .ro, .any⟩, ⟨4, 3, .ro, .any⟩, ⟨8, 1, .ro, .any⟩, ⟨9, 1, .ro, .any⟩, ⟨10, 1, .ro, .any⟩]⟩
  , ⟨0x048, 1, 0x4, fun _ _ => 0x0, [⟨0, 3, .ro, .any⟩]⟩
  , ⟨0x04C, 1, 0x4, fun _ _ => 0x0, [⟨0, 12, .ro, .any⟩]⟩
  , ⟨0x050, 1, 0x4, fun _ _ => 0x0, [⟨0, 1, .wo, .any⟩]⟩
  , ⟨0x054, 1, 0x4, fun _ _ => 0x0, [⟨0, 16, .ro, .any⟩]⟩
  , ⟨0x100, 6, 0x4, fun _ k => BitVec.ofNat 32 (Config.vfsOp k), [⟨0, 12, .ro, .any⟩, ⟨16, 8, .ro, .any⟩, ⟨24, 3, .ro, .any⟩]⟩ ]

def mapSLP : List RegSpec :=
  [ ⟨0x040, 1, 0x4, fun _ _ => 0x8, [⟨0, 1, .rw, .any⟩, ⟨1, 1, .rw, .any⟩, ⟨2, 1, .rw, .any⟩, ⟨3, 1, .rw, .any⟩, ⟨8, 1, .wo, .any⟩, ⟨9, 1, .wo, .any⟩, ⟨10, 1, .wo, .any⟩]⟩
  , ⟨0x044, 1, 0x4, fun _ _ => 0x0, [⟨0, 3, .rw, .ranges [(0, 0), (2, 3)]⟩]⟩
  , ⟨0x048, 1, 0x4, fun _ _ => 0x0, [⟨0, 3, .ro, .any⟩, ⟨8, 3, .ro, .any⟩, ⟨16, 6, .ro, .any⟩, ⟨24, 1, .ro, .any⟩, ⟨25, 1, .ro, .any⟩]⟩
  , ⟨0x04C, 1, 0x4, fun _ _ => 0x1E143232, [⟨0, 8, .rw, .ranges [(1, 255)]⟩, ⟨8, 8, .rw, .ranges [(1, 255)]⟩, ⟨16, 8, .rw, .ranges [(1, 255)]⟩, ⟨24, 8, .rw, .any⟩]⟩
  , ⟨0x050, 1, 0x4, fun _ _ => 0x3C0832, [⟨0, 8, .rw, .ranges [(1, 255)]⟩, ⟨8, 4, .rw, .ranges [(1, 15)]⟩, ⟨16, 8, .rw, .ranges [(1, 255)]⟩]⟩
  , ⟨0x054, 1, 0x4, fun _ _ => 0x1010A05, [⟨0, 8, .rw, .ranges [(1, 255)]⟩, ⟨8, 8, .rw, .ranges [(1, 255)]⟩, ⟨16, 1, .rw, .any⟩, ⟨17, 1, .wo, .any⟩, ⟨24, 1, .rw, .any⟩]⟩
  , ⟨0x058, 1, 0x4, fun _ _ => 0x1F, [⟨0, 5, .rw, .any⟩]⟩
  , ⟨0x05C, 1, 0x4, fun _ _ => 0x0, [⟨0, 7, .ro, .any⟩, ⟨8, 6, .ro, .any⟩, ⟨16, 16, .ro, .any⟩]⟩
  , ⟨0x060, 1, 0x4, fun _ _ => 0x1F, [⟨0, 5, .rw, .any⟩]⟩
  , ⟨0x064, 1, 0x4, fun _ _ => 0x7, [⟨0, 31, .rw, .any⟩]⟩
  , ⟨0x068, 1, 0x4, fun _ _ => 0x0, [⟨0, 16, .rw, .any⟩, ⟨16, 16, .rw, .any⟩]⟩
  , ⟨0x06C, 1, 0x4, fun _ _ => 0x0, [⟨0, 6, .wo, .any⟩, ⟨8, 4, .wo, .any⟩, ⟨16, 16, .wo, .any⟩]⟩
  , ⟨0x070, 1, 0x4, fun _ _ => 0x0, [⟨0, 16, .ro, .any⟩, ⟨16, 8, .ro, .any⟩, ⟨24, 8, .ro, .any⟩]⟩
  , ⟨0x074, 2, 0x4, fun _ _ => 0x0, [⟨0, 32, .ro, .any⟩]⟩
  , ⟨0x07C, 2, 0x4, fun _ _ => 0x0, [⟨0, 32, .ro, .any⟩]⟩
  , ⟨0x084, 1, 0x4, fun _ _ => 0x0, [⟨0, 8, .ro, .any⟩, ⟨8, 8, .ro, .any⟩, ⟨16, 8, .ro, .any⟩, ⟨24, 8, .ro, .any⟩]⟩
  , ⟨0x088, 1, 0x4, fun _ _ => 0x0, [⟨0, 4, .ro, .any⟩, ⟨4, 4, .ro, .any⟩, ⟨8, 4, .ro, .any⟩, ⟨16, 1, .ro, .any⟩, ⟨17, 1, .ro, .any⟩, ⟨18, 1, .ro, .any⟩]⟩
  , ⟨0x08C, 1, 0x4, fun _ _ => 0x0, [⟨0, 32, .ro, .any⟩]⟩
  , ⟨0x090, 1, 0x4, fun _ _ => 0x0, [⟨0, 16, .ro, .any⟩]⟩
  , ⟨0x094, 1, 0x4, fun _ _ => 0x3C, [⟨0, 8, .rw, .ranges [(1, 255)]⟩, ⟨16, 8, .ro, .any⟩]⟩
  , ⟨0x098, 1, 0x4, fun _ _ => 0x0, [⟨0, 1, .wo, .any⟩]⟩
  , ⟨0x100, 64, 0x8, fun _ _ => 0x0, [⟨0, 1, .rw, .any⟩, ⟨1, 1, .rw, .any⟩, ⟨2, 1, .rw, .any⟩, ⟨3, 1, .rw, .any⟩, ⟨4, 4, .rw, .any⟩]⟩
  , ⟨0x104, 64, 0x8, fun _ _ => 0x0, [⟨0, 4, .ro, .any⟩, ⟨4, 1, .ro, .any⟩, ⟨5, 1, .ro, .any⟩, ⟨6, 1, .ro, .any⟩, ⟨16, 16, .ro, .any⟩]⟩
  , ⟨0x300, 2, 0x20, fun _ _ => 0x21, [⟨0, 1, .rw, .any⟩, ⟨1, 1, .rw, .any⟩, ⟨2, 1, .rw, .any⟩, ⟨4, 2, .rw, .any⟩, ⟨8, 4, .rw, .any⟩]⟩
  , ⟨0x304, 2, 0x20, fun _ _ => 0x0, [⟨0, 29, .rw, .any⟩]⟩
  , ⟨0x308, 2, 0x20, fun _ _ => 0x0, [⟨0, 29, .rw, .any⟩]⟩
  , ⟨0x30C, 2, 0x20, fun _ _ => 0x0, [⟨0, 32, .rw, .any⟩]⟩
  , ⟨0x310, 2, 0x20, fun _ _ => 0x0, [⟨0, 32, .rw, .any⟩]⟩
  , ⟨0x314, 2, 0x20, fun _ _ => 0x0, [⟨0, 32, .rw, .any⟩]⟩
  , ⟨0x318, 2, 0x20, fun _ _ => 0x0, [⟨0, 32, .rw, .any⟩]⟩
  , ⟨0x340, 6, 0x4, fun _ _ => 0x0, [⟨0, 32, .ro, .any⟩]⟩ ]

def mapFAG : List RegSpec :=
  [ ⟨0x040, 1, 0x4, fun _ _ => 0xA11, [⟨0, 3, .rwl, .ranges [(1, 4)]⟩, ⟨4, 1, .rwl, .any⟩, ⟨8, 8, .rwl, .ranges [(1, 255)]⟩]⟩
  , ⟨0x044, 1, 0x4, fun _ _ => 0x0, [⟨0, 16, .ro, .any⟩, ⟨16, 3, .ro, .any⟩, ⟨20, 2, .ro, .any⟩, ⟨31, 1, .ro, .any⟩]⟩
  , ⟨0x048, 1, 0x4, fun _ _ => 0x0, [⟨0, 1, .wo, .any⟩]⟩
  , ⟨0x04C, 1, 0x4, fun _ _ => 0x0, [⟨0, 16, .ro, .any⟩, ⟨16, 16, .ro, .any⟩]⟩
  , ⟨0x050, 1, 0x4, fun _ _ => 0xFFFF, [⟨0, 16, .ro, .any⟩]⟩
  , ⟨0x054, 1, 0x4, fun _ _ => 0x0, [⟨0, 16, .ro, .any⟩]⟩
  , ⟨0x058, 1, 0x4, fun _ _ => 0x0, [⟨0, 1, .wo, .any⟩]⟩
  , ⟨0x060, 5, 0x4, fun _ _ => 0x0, [⟨0, 32, .ro, .any⟩]⟩
  , ⟨0x080, 3, 0x4, fun _ _ => 0x0, [⟨0, 16, .ro, .any⟩, ⟨16, 3, .ro, .any⟩, ⟨31, 1, .ro, .any⟩]⟩ ]

def mapLOG : List RegSpec :=
  [ ⟨0x040, 1, 0x4, fun _ _ => 0x1, [⟨0, 3, .rw, .ranges [(0, 4)]⟩, ⟨8, 1, .wo, .any⟩]⟩
  , ⟨0x044, 1, 0x4, fun _ _ => 0x0, [⟨0, 7, .ro, .any⟩, ⟨16, 16, .ro, .any⟩]⟩
  , ⟨0x048, 1, 0x4, fun _ _ => 0x0, [⟨0, 32, .rs, .any⟩]⟩
  , ⟨0x100, 512, 0x4, fun _ _ => 0x0, [⟨0, 32, .ro, .any⟩]⟩ ]

def mapSTS : List RegSpec :=
  [ ⟨0x040, 1, 0x4, fun _ _ => 0x7F01, [⟨0, 1, .rw, .any⟩, ⟨8, 7, .rw, .any⟩]⟩
  , ⟨0x044, 1, 0x4, fun _ _ => 0x0, [⟨0, 3, .ro, .any⟩, ⟨8, 7, .ro, .any⟩, ⟨16, 3, .ro, .any⟩, ⟨20, 12, .ro, .any⟩]⟩
  , ⟨0x048, 1, 0x4, fun _ _ => 0x0, [⟨0, 16, .ro, .any⟩]⟩
  , ⟨0x04C, 1, 0x4, fun _ _ => 0x0, [⟨0, 1, .ro, .any⟩, ⟨1, 1, .ro, .any⟩, ⟨2, 1, .ro, .any⟩, ⟨3, 1, .ro, .any⟩, ⟨4, 1, .ro, .any⟩, ⟨8, 8, .ro, .any⟩]⟩
  , ⟨0x050, 1, 0x4, fun _ _ => 0x0, [⟨0, 8, .ro, .any⟩, ⟨8, 1, .ro, .any⟩, ⟨16, 8, .ro, .any⟩]⟩
  , ⟨0x054, 1, 0x4, fun _ _ => 0x0, [⟨0, 32, .ro, .any⟩]⟩
  , ⟨0x058, 1, 0x4, fun _ _ => 0x0, [⟨0, 7, .ro, .any⟩]⟩
  , ⟨0x05C, 1, 0x4, fun _ _ => 0x0, [⟨0, 16, .ro, .any⟩, ⟨16, 16, .ro, .any⟩]⟩
  , ⟨0x100, 16, 0x10, fun _ _ => 0x0, [⟨0, 4, .ro, .any⟩, ⟨4, 12, .ro, .any⟩, ⟨16, 8, .ro, .any⟩, ⟨24, 4, .ro, .any⟩, ⟨31, 1, .ro, .any⟩]⟩
  , ⟨0x104, 16, 0x10, fun _ _ => 0x0, [⟨0, 32, .ro, .any⟩]⟩
  , ⟨0x108, 16, 0x10, fun _ _ => 0x0, [⟨0, 4, .ro, .any⟩, ⟨8, 8, .ro, .any⟩]⟩ ]

def mapHON : List RegSpec :=
  [ ⟨0x040, 1, 0x4, fun _ _ => 0x5A18, [⟨0, 8, .rwl, .ranges [(1, 255)]⟩, ⟨8, 8, .rwl, .ranges [(1, 255)]⟩, ⟨16, 1, .wo, .any⟩]⟩
  , ⟨0x044, 1, 0x4, fun _ _ => 0x0, [⟨0, 1, .ro, .any⟩, ⟨1, 1, .ro, .any⟩, ⟨2, 1, .ro, .any⟩, ⟨3, 1, .ro, .any⟩, ⟨4, 1, .ro, .any⟩, ⟨8, 8, .ro, .any⟩]⟩
  , ⟨0x048, 1, 0x4, fun _ _ => 0x0, [⟨0, 32, .ro, .any⟩]⟩
  , ⟨0x04C, 1, 0x4, fun _ _ => 0x0, [⟨0, 32, .ro, .any⟩]⟩
  , ⟨0x050, 1, 0x4, fun _ _ => 0x0, [⟨0, 3, .ro, .any⟩, ⟨4, 3, .ro, .any⟩, ⟨16, 8, .ro, .any⟩]⟩
  , ⟨0x100, 7, 0x10, fun _ _ => 0xFFFF0000, [⟨0, 8, .ro, .any⟩, ⟨8, 1, .ro, .any⟩, ⟨9, 1, .ro, .any⟩, ⟨10, 1, .ro, .any⟩, ⟨16, 16, .ro, .any⟩]⟩
  , ⟨0x104, 7, 0x10, fun _ _ => 0x0, [⟨0, 32, .ro, .any⟩]⟩
  , ⟨0x108, 7, 0x10, fun _ _ => 0x0, [⟨0, 8, .ro, .any⟩]⟩
  , ⟨0x10C, 7, 0x10, fun _ _ => 0x0, [⟨0, 8, .ro, .any⟩]⟩ ]

def mapAGM : List RegSpec :=
  [ ⟨0x100, 32, 0x4, fun _ _ => 0x1000, [⟨0, 16, .ro, .any⟩]⟩
  , ⟨0x180, 26, 0x4, fun _ _ => 0x0, [⟨0, 24, .ro, .any⟩]⟩
  , ⟨0x200, 6, 0x4, fun _ _ => 0x0, [⟨0, 10, .ro, .any⟩, ⟨16, 16, .ro, .any⟩]⟩
  , ⟨0x220, 1, 0x4, fun _ _ => 0x0, [⟨0, 16, .ro, .any⟩]⟩
  , ⟨0x224, 1, 0x4, fun _ _ => 0x0, [⟨0, 16, .ro, .any⟩]⟩
  , ⟨0x228, 1, 0x4, fun _ _ => 0x40, [⟨0, 7, .ro, .any⟩]⟩
  , ⟨0x22C, 1, 0x4, fun _ _ => 0x0, [⟨0, 20, .ro, .any⟩]⟩ ]

end Sys2Proof.Machine
end

