-- ==== Sys2Proof/Machine/Pages.lean ====
section
/-!
DEFINITION. The address map: the 238 register pages of spec/02 Table 02-9 with their types, addresses and interrupt
lines (R58, R59), their capabilities (R52, R60, R61, R409, R497), the offsets of the common header (R37, Table 02-3) and
the power domain of each page (spec/17 R499, Table 17-7).
-/

namespace Sys2Proof.Machine

/-- One row of Table 02-9: block type, address of instance 0, number of pages, first interrupt line. -/
structure PageRow where
  ty : Nat
  base : Nat
  count : Nat
  irq : Nat
  deriving DecidableEq, Repr

def pageRowsA : List PageRow :=
  [ ⟨0x0001, 0x20000000, 1, 32⟩, ⟨0x0002, 0x20001000, 1, 33⟩, ⟨0x4002, 0x20002000, 1, 34⟩, ⟨0x5002, 0x20003000, 1, 35⟩
  , ⟨0x0003, 0x20004000, 2, 36⟩, ⟨0x0004, 0x20008000, 13, 38⟩, ⟨0x0005, 0x20020000, 1, 51⟩, ⟨0x0006, 0x20021000, 32, 52⟩
  , ⟨0x1001, 0x20100000, 1, 84⟩, ⟨0x1002, 0x20101000, 2, 85⟩, ⟨0x1003, 0x20103000, 2, 87⟩, ⟨0x1004, 0x20105000, 1, 89⟩
  , ⟨0x1005, 0x20106000, 1, 90⟩, ⟨0x1006, 0x20108000, 34, 91⟩, ⟨0x2001, 0x20180000, 1, 125⟩, ⟨0x2002, 0x20181000, 4, 126⟩
  , ⟨0x2003, 0x20188000, 16, 130⟩, ⟨0x3001, 0x20200000, 1, 146⟩, ⟨0x3002, 0x20201000, 4, 147⟩, ⟨0x3003, 0x20208000, 12, 151⟩
  , ⟨0x3004, 0x20218000, 8, 163⟩, ⟨0x4001, 0x20300000, 16, 171⟩, ⟨0x5001, 0x20310000, 16, 187⟩ ]

def pageRowsB : List PageRow :=
  [ ⟨0x6001, 0x20400000, 1, 203⟩, ⟨0x6002, 0x20401000, 3, 204⟩, ⟨0x6003, 0x20404000, 1, 207⟩, ⟨0x7001, 0x20500000, 1, 208⟩
  , ⟨0x7002, 0x20501000, 1, 209⟩, ⟨0x7003, 0x20502000, 1, 210⟩, ⟨0x7004, 0x20503000, 1, 211⟩, ⟨0x8001, 0x20600000, 1, 212⟩
  , ⟨0x8002, 0x20601000, 6, 213⟩, ⟨0x9001, 0x20700000, 1, 219⟩, ⟨0x9002, 0x20701000, 1, 220⟩, ⟨0x9003, 0x20704000, 16, 221⟩
  , ⟨0xA001, 0x20800000, 1, 237⟩, ⟨0xA002, 0x20801000, 1, 238⟩, ⟨0xA003, 0x20802000, 2, 239⟩, ⟨0xA004, 0x20804000, 1, 241⟩ ]

def pageRowsC : List PageRow :=
  [ ⟨0xB001, 0x20900000, 1, 242⟩, ⟨0xB002, 0x20901000, 2, 243⟩, ⟨0xB003, 0x20904000, 3, 245⟩, ⟨0xB004, 0x20908000, 1, 248⟩
  , ⟨0xB005, 0x20909000, 1, 249⟩, ⟨0xB006, 0x2090A000, 1, 250⟩, ⟨0xC001, 0x20A00000, 1, 251⟩, ⟨0xC002, 0x20A01000, 5, 252⟩
  , ⟨0xC003, 0x20A08000, 1, 257⟩, ⟨0xC004, 0x20A09000, 1, 258⟩, ⟨0xC005, 0x20A0A000, 1, 259⟩, ⟨0xC006, 0x20A0B000, 1, 260⟩
  , ⟨0xC007, 0x20A0C000, 1, 261⟩, ⟨0xD001, 0x20B00000, 1, 262⟩, ⟨0xD002, 0x20B01000, 1, 263⟩, ⟨0xD003, 0x20B02000, 1, 264⟩
  , ⟨0xD004, 0x20B03000, 1, 265⟩, ⟨0xD005, 0x20B04000, 1, 266⟩, ⟨0xE001, 0x20C00000, 1, 267⟩, ⟨0xE002, 0x20C01000, 1, 268⟩
  , ⟨0xE003, 0x20C02000, 1, 269⟩ ]

/-- Table 02-9. -/
def pageRows : List PageRow := pageRowsA ++ (pageRowsB ++ pageRowsC)

/-! Pages by the address of their first register. -/

abbrev pSYS : Nat := 0x20000000
abbrev pINTC : Nat := 0x20001000
abbrev pPDC (d : Nat) : Nat := 0x20002000 + 0x1000 * d
abbrev pDBR (d : Nat) : Nat := 0x20004000 + 0x1000 * d
abbrev pCORE (c : Nat) : Nat := 0x20008000 + 0x1000 * c
abbrev pMBX : Nat := 0x20020000
abbrev pMBC (n : Nat) : Nat := 0x20021000 + 0x1000 * n
abbrev pSWC : Nat := 0x20100000
abbrev pFDB (i : Nat) : Nat := 0x20101000 + 0x1000 * i
abbrev pSTRM (i : Nat) : Nat := 0x20103000 + 0x1000 * i
abbrev pFRER : Nat := 0x20105000
abbrev pMIRR : Nat := 0x20106000
abbrev pPORT (p : Nat) : Nat := 0x20108000 + 0x1000 * p
abbrev pBUF : Nat := 0x20180000
abbrev pSPL (e : Nat) : Nat := 0x20181000 + 0x1000 * e
abbrev pHIN (i : Nat) : Nat := 0x20188000 + 0x1000 * i
abbrev pGWC : Nat := 0x20200000
abbrev pPEG (e : Nat) : Nat := 0x20201000 + 0x1000 * e
abbrev pCXC (n : Nat) : Nat := 0x20208000 + 0x1000 * n
abbrev pLNC (n : Nat) : Nat := 0x20218000 + 0x1000 * n
abbrev pLSW (d i : Nat) : Nat := 0x20300000 + 0x10000 * d + 0x1000 * i
abbrev pINC : Nat := 0x20400000
abbrev pDIG (i : Nat) : Nat := 0x20401000 + 0x1000 * i
abbrev pANA : Nat := 0x20404000
abbrev pTWL : Nat := 0x20500000
abbrev pTBR : Nat := 0x20501000
abbrev pTWR : Nat := 0x20502000
abbrev pMIG : Nat := 0x20503000
abbrev pCALC : Nat := 0x20600000
abbrev pCAL (k : Nat) : Nat := 0x20601000 + 0x1000 * k
abbrev pISO : Nat := 0x20700000
abbrev pIOM : Nat := 0x20701000
abbrev pVMC (v : Nat) : Nat := 0x20704000 + 0x1000 * v
abbrev pDMC : Nat := 0x20800000
abbrev pSCR : Nat := 0x20801000
abbrev pNOR (n : Nat) : Nat := 0x20802000 + 0x1000 * n
abbrev pFUS : Nat := 0x20804000
abbrev pSEC : Nat := 0x20900000
abbrev pKEY (i : Nat) : Nat := 0x20901000 + 0x1000 * i
abbrev pCRY (i : Nat) : Nat := 0x20904000 + 0x1000 * i
abbrev pATT : Nat := 0x20908000
abbrev pCMD : Nat := 0x20909000
abbrev pLCS : Nat := 0x2090A000
abbrev pCLK : Nat := 0x20A00000
abbrev pPLL (i : Nat) : Nat := 0x20A01000 + 0x1000 * i
abbrev pCSV : Nat := 0x20A08000
abbrev pRST : Nat := 0x20A09000
abbrev pPWR : Nat := 0x20A0A000
abbrev pVFS : Nat := 0x20A0B000
abbrev pSLP : Nat := 0x20A0C000
abbrev pFAG : Nat := 0x20B00000
abbrev pLOG : Nat := 0x20B01000
abbrev pSTS : Nat := 0x20B02000
abbrev pHON : Nat := 0x20B03000
abbrev pAGM : Nat := 0x20B04000
abbrev pTMB : Nat := 0x20C00000
abbrev pPTP : Nat := 0x20C01000
abbrev pIXP : Nat := 0x20C02000

/-- The page that holds an address: its type, its instance index and its interrupt line. -/
structure PageRef where
  ty : Nat
  inst : Nat
  irq : Nat
  deriving DecidableEq, Repr

def findPage (a : Nat) : List PageRow → Option PageRef
  | [] => none
  | r :: rs =>
    if r.base ≤ a ∧ a < r.base + 0x1000 * r.count then
      some ⟨r.ty, (a - r.base) / 0x1000, r.irq + (a - r.base) / 0x1000⟩
    else findPage a rs

/-- The page of an address, none where Table 02-9 has no page there. -/
def pageOf (a : Nat) : Option PageRef := findPage a pageRows

/-- BLK_ID.INST is the index of Table 02-9 (R59, R60), also where a row of the table names several types. -/
def pageInst (r : PageRef) : Nat :=
  if [0x5002, 0x1005, 0x7002, 0x9002, 0xA002, 0xB005, 0xC004, 0xD002, 0xE002].contains r.ty then 1
  else if [0x7003, 0xB006, 0xC005, 0xD003, 0xE003].contains r.ty then 2
  else if [0x7004, 0xC006, 0xD004].contains r.ty then 3
  else if r.ty = 0xC007 ∨ r.ty = 0xD005 then 4
  else r.inst

/-- The first address of the page an address lies in. -/
def pageBase (a : Nat) : Nat := a / 0x1000 * 0x1000

/-- The offset of an address in its page. -/
def pageOff (a : Nat) : Nat := a % 0x1000

/-- Block type of a page (0 where there is none). -/
def tyOf (p : Nat) : Nat := match pageOf p with | some r => r.ty | none => 0

def instOf (p : Nat) : Nat := match pageOf p with | some r => pageInst r | none => 0

/-- The subsystem of a page's error codes: the upper four bits of its type (R37, R55). -/
def subsystemOf (p : Nat) : Nat := tyOf p / 0x1000

/-- The common header (Table 02-3). -/
abbrev BLK_ID : Nat := 0x000
abbrev BLK_CAP : Nat := 0x004
abbrev BLK_CTRL : Nat := 0x008
abbrev BLK_STAT : Nat := 0x00C
abbrev OWNER : Nat := 0x010
abbrev PART_REQ : Nat := 0x014
abbrev INT_RAW : Nat := 0x018
abbrev INT_EN : Nat := 0x01C
abbrev INT_PEND : Nat := 0x020
abbrev INT_SET : Nat := 0x024
abbrev ERR_CAP : Nat := 0x028
abbrev ERR_ADDR : Nat := 0x02C
abbrev ERR_INJ : Nat := 0x030
abbrev CLK_REQ : Nat := 0x034
abbrev AGE_TRIM : Nat := 0x038
abbrev HDR_RSVD : Nat := 0x03C

/-! Fields of the common header (Table 02-4). -/

abbrev BLK_CTRL_EN : Fld := ⟨BLK_CTRL, 0, 1⟩
abbrev BLK_CTRL_SOFT_RST : Fld := ⟨BLK_CTRL, 1, 1⟩
abbrev BLK_CTRL_FREEZE : Fld := ⟨BLK_CTRL, 2, 1⟩
abbrev BLK_STAT_BUSY : Fld := ⟨BLK_STAT, 1, 1⟩
abbrev BLK_STAT_STATE : Fld := ⟨BLK_STAT, 8, 8⟩
abbrev OWNER_WORLD : Fld := ⟨OWNER, 0, 2⟩
abbrev OWNER_VM : Fld := ⟨OWNER, 4, 6⟩
abbrev OWNER_LOCK : Fld := ⟨OWNER, 31, 1⟩
abbrev PART_NEW_WORLD : Fld := ⟨PART_REQ, 0, 2⟩
abbrev PART_NEW_VM : Fld := ⟨PART_REQ, 4, 6⟩
abbrev PART_BUSY : Fld := ⟨PART_REQ, 17, 1⟩
abbrev PART_RESULT : Fld := ⟨PART_REQ, 18, 2⟩
abbrev INT_RAW_ERR : Fld := ⟨INT_RAW, 31, 1⟩
abbrev ERR_CAP_CODE : Fld := ⟨ERR_CAP, 0, 16⟩
abbrev ERR_CAP_COUNT : Fld := ⟨ERR_CAP, 16, 8⟩
abbrev ERR_INJ_POINT : Fld := ⟨ERR_INJ, 0, 8⟩
abbrev ERR_INJ_ARM : Fld := ⟨ERR_INJ, 16, 1⟩
abbrev ERR_INJ_DONE : Fld := ⟨ERR_INJ, 17, 1⟩
abbrev CLK_REQ_POLICY : Fld := ⟨CLK_REQ, 0, 2⟩
abbrev CLK_REQ_DRAIN_ERR : Fld := ⟨CLK_REQ, 8, 1⟩
abbrev AGE_TRIM_MARGIN : Fld := ⟨AGE_TRIM, 0, 8⟩
abbrev AGE_TRIM_PLAN : Fld := ⟨AGE_TRIM, 8, 8⟩
abbrev AGE_TRIM_BLOCK : Fld := ⟨AGE_TRIM, 16, 16⟩

/-- Strict pages: MBC, CXC, LNC, LOG, PTP (R52). -/
def strictTy (ty : Nat) : Bool := [0x0006, 0x3003, 0x3004, 0xD002, 0xE002].contains ty

/-- Pages that support parting (Table 13-7): HIN, MBC, CXC, LNC, PEG, LSW, DIG, ANA. -/
def partTy (ty : Nat) : Bool :=
  [0x2003, 0x0006, 0x3003, 0x3004, 0x3002, 0x4001, 0x5001, 0x6002, 0x6003].contains ty

/-- Pages that a VM may own through parting (Table 13-7). -/
def partVmTy (ty : Nat) : Bool := [0x2003, 0x0006, 0x3003, 0x3004, 0x3002].contains ty

/-- Pages whose OWNER.WORLD = 0b10 is not valid under R41: IOM and VMC (spec/13, Register pages). -/
def noVmOwnerTy (ty : Nat) : Bool := [0x9002, 0x9003].contains ty

/-- Pages that only the secure world can own: the security region but for CRY (R60), ISO (spec/13) and FUS (spec/14). -/
def secOnlyTy (ty : Nat) : Bool :=
  [0xB001, 0xB002, 0xB004, 0xB005, 0xB006, 0x9001, 0xA004].contains ty

/-- Pages with error-injection points (spec/11 and spec/13). -/
def injTy (ty : Nat) : Bool := [0x8002, 0x9002].contains ty

/-- Pages whose clock is not gated (R497). -/
def ungatedTy (ty : Nat) : Bool :=
  [0xE001, 0xE002, 0xE003, 0x8001, 0x8002, 0xD001, 0xD002, 0xC003, 0xC004, 0x0003, 0x4002, 0x5002, 0x4001, 0x5001,
   0x6001, 0x6002, 0x6003, 0x7001, 0x7003].contains ty

/-- Pages reached through a die bridge (R61), with the die: 0 is A, 1 is B. -/
def bridgeDie (ty : Nat) : Option Nat :=
  if ty = 0x4001 ∨ ty = 0x4002 then some 0 else if ty = 0x5001 ∨ ty = 0x5002 then some 1 else none

/-- BLK_CAP of a page type with its interrupt line (R37). -/
def capWord (ty irq : Nat) : Nat :=
  (strictTy ty).toNat + 2 * (partTy ty).toNat + 4 * (secOnlyTy ty).toNat + 8 * (injTy ty).toNat
    + 16 * (Config.freezable ty).toNat + 32 * (!ungatedTy ty).toNat + 64 * (bridgeDie ty).isSome.toNat + 0x10000 * irq

/-- A page that the HZ9620 does not have (R62). -/
def absentOn9620 (ty inst : Nat) : Bool :=
  ty == 0x5001 || (ty == 0x0004 && 4 ≤ inst && inst ≤ 7) || (ty == 0x8002 && (inst == 2 || inst == 3)) || ty == 0xC006

/-- The switchable power domain of a page (Table 17-7), none where it is powered whenever its die is. -/
def domainOf (ty inst : Nat) : Option Nat :=
  if ty = 0x0004 ∧ inst < 8 then some (inst / 2)
  else if [0x1001, 0x1002, 0x1003, 0x1004, 0x1005, 0x1006, 0x2001, 0x2002, 0x2003].contains ty then some 5
  else if ty = 0x3002 then some 6
  else if ty = 0xA001 ∨ ty = 0xA002 then some 7
  else if ty = 0x7001 ∨ ty = 0x7002 then some 9
  else none

end Sys2Proof.Machine
end

