-- ==== Sys2Proof/Machine/Tables.lean ====
section
/-!
DEFINITION. The tables behind access windows: numbers, sizes, writable bits, counters, valid marks and reset contents
(spec/04 Table 04-11, spec/05 Table 05-6 and R188, spec/06 Table 06-12).
-/

namespace Sys2Proof.Machine

/-! Table numbers. -/
abbrev tMAC : Nat := 0x01
abbrev tVLAN : Nat := 0x02
abbrev tGRP : Nat := 0x03
abbrev tIDENT : Nat := 0x04
abbrev tFILT : Nat := 0x05
abbrev tGATE : Nat := 0x06
abbrev tMETER : Nat := 0x07
abbrev tGEN : Nat := 0x08
abbrev tREC : Nat := 0x09
abbrev tQUEUE : Nat := 0x10
abbrev tWRED : Nat := 0x11
abbrev tIGRP : Nat := 0x12
abbrev tBPORT : Nat := 0x13
abbrev tGCL : Nat := 0x14
abbrev tCBS : Nat := 0x15
abbrev tROUTE : Nat := 0x20
abbrev tSTREAM : Nat := 0x21
/-- Payloads and XL fields of the message objects of controller n, 16 bytes an entry. -/
abbrev tCANDATA (n : Nat) : Nat := 0x60 + n
/-- XL fields, acceptance field and time stamp of the objects of controller n. -/
abbrev tCANMETA (n : Nat) : Nat := 0x70 + n

/-- A table behind an access window: entries, writable bits of each word, bits that a 0 clears, counter words, and where
the entry says that it is valid (word, lowest bit, width), none where every entry is. -/
structure TabDesc where
  id : Nat
  size : Nat
  wmask : List Nat
  w0c : List Nat
  counters : List Nat
  valid : Option (Nat × Nat × Nat)
  deriving DecidableEq, Repr

def full32 : Nat := 0xFFFFFFFF

def tabMac : TabDesc := ⟨tMAC, 16384, [full32, 0x8FFFFFFF, 0x03FF3F03, 0xFFFF], [], [], some (1, 31, 1)⟩
def tabVlan : TabDesc := ⟨tVLAN, 4096, [full32, 0xFFFF0F03, full32, 3], [], [], some (1, 8, 1)⟩
def tabGrp : TabDesc := ⟨tGRP, 1024, [full32, 0xFFFF0003], [], [], none⟩
def tabIdent : TabDesc :=
  ⟨tIDENT, 1024, [0x01FF3FF3, 0xFFFF01FF, full32, full32, full32, full32, full32, full32, full32, full32, full32, full32],
    [], [], some (0, 0, 2)⟩
def tabFilt : TabDesc := ⟨tFILT, 1024, [0x007FFF1F, 0x03FF007F], [0x00800000], [2, 3, 4, 5, 6], some (0, 0, 1)⟩
def tabGate : TabDesc := ⟨tGATE, 64, [full32, full32, 0x1F], [0, 0, 0x20], [], none⟩
def tabMeter : TabDesc :=
  ⟨tMETER, 512, [0xFFFFFF, 0xFFFFFF, 0xFFFFF, 0xFFFFF, 0xF], [0, 0, 0, 0, 0x10], [5, 6, 7], some (4, 0, 1)⟩
def tabGen : TabDesc := ⟨tGEN, 256, [0xFFFF0001, full32, 3], [], [], some (0, 0, 1)⟩
def tabRec : TabDesc := ⟨tREC, 256, [0xFFFF3F07, full32], [], [2, 3, 4, 5, 6, 7, 8, 9], some (0, 0, 1)⟩
def tabQueue : TabDesc := ⟨tQUEUE, 272, [full32, 0x011F1F1F, 0xFFFFFF, 0x3FFF], [], [6, 7, 8, 9, 10, 11], none⟩
def tabWred : TabDesc := ⟨tWRED, 32, [0xFFFFFF, 0xFFFFFF, 0xFFF], [], [], none⟩
def tabIgrp : TabDesc := ⟨tIGRP, 272, [0xFFFFFF, 0xFFFFFF, 0x7FFF], [], [5, 6], none⟩
def tabBport : TabDesc := ⟨tBPORT, 34, [0x0107FF03, 0xFFFF, full32, 0x0FFFFFFF, 0xFF01], [], [6, 7], none⟩
def tabGcl : TabDesc := ⟨tGCL, 2176, [0x1FF], [], [], none⟩
def tabCbs : TabDesc := ⟨tCBS, 272, [1, 0x0FFFFFFF], [], [], none⟩
def tabRoute : TabDesc :=
  ⟨tROUTE, 1024, [0x1FF7, 0x1FFFFFFF, 0x1FFFFFFF, 0x07FFFFFF, 0xFFFF003F], [], [5, 6], some (0, 0, 1)⟩
def tabStream : TabDesc :=
  ⟨tSTREAM, 64, [full32, 0xFFFF, 0xFFF1FFFF, full32, full32, 0xFFFFFF], [], [6], none⟩

/-- The table that TBL names on a page of a type and instance (Table 04-11, Table 05-6, Table 06-12). -/
def tabOf (ty inst tbl : Nat) : Option TabDesc :=
  match ty, inst, tbl with
  | 0x1002, 0, 0 => some tabMac
  | 0x1002, 1, 1 => some tabVlan
  | 0x1002, 1, 2 => some tabGrp
  | 0x1003, 0, 0 => some tabIdent
  | 0x1003, 1, 1 => some tabFilt
  | 0x1003, 1, 2 => some tabGate
  | 0x1003, 1, 3 => some tabMeter
  | 0x1004, 0, 0 => some tabGen
  | 0x1004, 0, 1 => some tabRec
  | 0x2001, 0, 0 => some tabQueue
  | 0x2001, 0, 1 => some tabWred
  | 0x2001, 0, 2 => some tabIgrp
  | 0x2001, 0, 3 => some tabBport
  | 0x2001, 0, 4 => some tabGcl
  | 0x2001, 0, 5 => some tabCbs
  | 0x3001, 0, 0 => some tabRoute
  | 0x3001, 0, 1 => some tabStream
  | _, _, _ => none

/-- The reset value of word w of entry i of table t (R188; 0 in every other table). -/
def tabDefault (t i w : Nat) : Word :=
  if t = tQUEUE ∧ w = 0 ∧ i < 272 then BitVec.ofNat 32 (16 + 2048 * 0x10000)
  else if t = tIGRP ∧ w = 0 ∧ i < 272 then 0x00FFFFFF#32
  else if t = tBPORT ∧ w = 1 ∧ i < 34 then 0x0000FFFF#32
  else if t = tBPORT ∧ w = 2 ∧ i < 34 then BitVec.ofNat 32 (100 + 1000 * 0x10000)
  else if t = tBPORT ∧ w = 3 ∧ i = 33 then BitVec.ofNat 32 760000
  else if t = tBPORT ∧ w = 4 ∧ i < 34 then 0x00000C00#32
  else if t = tGCL ∧ w < 2 ∧ i < 2176 then 0x000000FF#32
  else 0

end Sys2Proof.Machine
end

