-- ==== Sys2Proof/Machine/RegTable.lean ====
section
/-!
DEFINITION. The registers of each block type (spec/02 Table 02-9 and the register tables of the chapters), and the search
for the register at an offset.
-/

namespace Sys2Proof.Machine

/-- The register tables by block type. -/
def regTables : List (Nat × List RegSpec) :=
  [ (0x0001, mapSYS)
  , (0x0002, mapINTC)
  , (0x4002, mapPDC)
  , (0x5002, mapPDC)
  , (0x0003, mapBR ++ mapDBR)
  , (0x0004, mapCORE)
  , (0x0005, mapMBX)
  , (0x0006, mapMBC)
  , (0x1001, mapSWC)
  , (0x1002, mapTAW ++ mapFDBX)
  , (0x1003, mapTAW)
  , (0x1004, mapTAW)
  , (0x1005, mapMIRR)
  , (0x1006, mapPORT)
  , (0x2001, mapTAW ++ mapBUF)
  , (0x2002, mapSPL)
  , (0x2003, mapHIN)
  , (0x3001, mapTAW ++ mapGWC)
  , (0x3002, mapPEG)
  , (0x3003, mapCXC)
  , (0x3004, mapLNC)
  , (0x4001, mapLSW)
  , (0x5001, mapLSW)
  , (0x6001, mapINC)
  , (0x6002, mapDIG)
  , (0x6003, mapANA)
  , (0x7001, mapTWL)
  , (0x7002, mapBR ++ mapTBR)
  , (0x7003, mapTWR)
  , (0x7004, mapMIG)
  , (0x8001, mapCALC)
  , (0x8002, mapCAL)
  , (0x9001, mapISO)
  , (0x9002, mapIOM)
  , (0x9003, mapVMC)
  , (0xA001, mapDMC)
  , (0xA002, mapSCR)
  , (0xA003, mapNOR)
  , (0xA004, mapFUS)
  , (0xB001, mapSEC)
  , (0xB002, mapKEY)
  , (0xB003, mapCRY)
  , (0xB004, mapATT)
  , (0xB005, mapCMD)
  , (0xB006, mapLCS)
  , (0xC001, mapCLK)
  , (0xC002, mapPLL)
  , (0xC003, mapCSV)
  , (0xC004, mapRST)
  , (0xC005, mapPWR)
  , (0xC006, mapVFS)
  , (0xC007, mapSLP)
  , (0xD001, mapFAG)
  , (0xD002, mapLOG)
  , (0xD003, mapSTS)
  , (0xD004, mapHON)
  , (0xD005, mapAGM)
  , (0xE001, mapTMB)
  , (0xE002, mapPTP)
  , (0xE003, mapIXP) ]

def lookupTable (ty : Nat) : List (Nat × List RegSpec) → List RegSpec
  | [] => []
  | e :: t => if e.1 = ty then e.2 else lookupTable ty t

/-- The registers of a block type beyond the common header. -/
def regTable (ty : Nat) : List RegSpec := lookupTable ty regTables

/-- The register at offset off: its row and which copy it is. -/
def findReg (off : Nat) : List RegSpec → Option (RegSpec × Nat)
  | [] => none
  | g :: gs =>
    if g.off ≤ off ∧ (off - g.off) % g.stride = 0 ∧ (off - g.off) / g.stride < g.count then
      some (g, (off - g.off) / g.stride)
    else findReg off gs

end Sys2Proof.Machine
end

