-- ==== Sys2Proof/Machine/State.lean ====
section
/-!
DEFINITION. The state of the module as plain data: every register (one sparse register file keyed by physical address),
every table behind an access window, memory, the queues and engines of each block, the queue of waiting commands, and
State.reset.
-/

namespace Sys2Proof.Machine

/-- Stops by fault: none. Every event of the table has its effect or, where the spec lets it have none, no effect. The
constructor is never raised; the type is closed. Safe. -/
inductive Fault where
  /-- Raised by nothing. Safe. -/
  | none
  deriving DecidableEq, Repr

/-- Refusals. -/
inductive Refusal where
  /-- Raised by an arm of exec whose command has no meaning yet. Safe: the run stops. -/
  | notModelled (mnemonic : String)
  deriving DecidableEq, Repr

/-- How the last access ended (spec/02 R33, R53). -/
inductive RespStatus where
  | none | ok | error | speculationRefused
  deriving DecidableEq, Repr

/-- The answer to the last access: its status and, for a read, the data (0 where refused). -/
structure Resp where
  status : RespStatus
  data : Nat
  deriving DecidableEq, Repr

/-- An error code on its way to the fault aggregator: code, locator, type and instance of the source page, and the mark of
an injected error (spec/02 R45-R47, spec/19 R535). -/
structure Post where
  code : Nat
  locator : Nat
  srcTy : Nat
  srcInst : Nat
  injected : Bool
  deriving DecidableEq, Repr

/-- What the shells and crossings hold beside the registers: accesses that wait to drain per page, pages whose clock has
stopped by automatic gating, crossings in reset. -/
structure ShellState where
  draining : List (Nat × Nat)
  idle : List Nat
  crossed : List ClockDomain
  deriving DecidableEq, Repr

/-- An entry of the transmit timestamp FIFO (spec/03 R74, Table 03-10). -/
structure TsEntry where
  port : Nat
  msgType : Nat
  seq : Nat
  sec : Nat
  ns : Nat
  deriving DecidableEq, Repr

/-- The time base (spec/03 R65-R70) and the PTP instances (R71-R74). Module time counts units of 2 ns / 2^41, so that the
rate adjustment is exact; `clocks` counts 500 MHz clocks; `stepped` is the clock of the last step and the time before it in 0.25 ns
units (R69); `heard` is the last vector that an Announce brought to a port of an instance (instance, port, vector). -/
structure TimeState where
  time : Nat
  clocks : Nat
  stepReq : Bool
  stepped : Option (Nat × Nat)
  lockCnt : Nat
  fifo : List TsEntry
  heard : List (Nat × Nat × PtpVector)
  deriving DecidableEq, Repr

/-- A table of the indexing plate: LEN, SAFE_IX and the 64 edges (spec/03 R80). -/
structure PlateTable where
  len : Nat
  safeIx : Nat
  edges : List Nat
  deriving DecidableEq, Repr

/-- Where the jump of a re-index takes its phase from (spec/03 R88, R93, R605): a reference instant, the own phase, or the
announced time of the next boundary. -/
inductive PhaseRef where
  | instant (t : Int)
  | own
  | nextBoundary (t : Int)
  deriving DecidableEq, Repr

/-- A re-index that waits for its cycle, or runs in it until the jump (spec/03 R88). -/
structure Reindex where
  cycle : Nat
  ref : PhaseRef
  deriving DecidableEq, Repr

/-- The indexing plate beside its registers (spec/03 R79-R95). Times are module time in 0.25 ns units; a step of
module time can carry one below 0. -/
structure PlateState where
  /-- Module time of the write of EN = 1, while the plate waits to start (R82). -/
  armed : Option Int
  started : Bool
  /-- The first boundary and cycle number that an announcement names for a start (R82). -/
  startAt : Option (Int × Nat)
  /-- Module time of the boundary that began the current cycle. -/
  boundary : Int
  /-- Length L + c of the current cycle. -/
  length : Nat
  /-- Decided corrections (cycle, c) whose cycles have not ended (R86). -/
  corr : List (Nat × Int)
  /-- The next index position whose edge comes (64: the cycle boundary). -/
  next : Nat
  /-- The table that waits for the boundary (R80). -/
  pendTable : Option PlateTable
  /-- The re-index that is planned or under way (R88). -/
  reindex : Option Reindex
  /-- The re-index cycle has begun and its jump has not come. -/
  inReindex : Bool
  /-- The jump has come and the freeze lasts until a boundary is reached by running (R89). -/
  jumped : Bool
  /-- The re-index that a soft reset plans while one is under way (R605). -/
  again : Option Reindex
  /-- Reference instants that wait for the boundary nearest to them, and whether an announcement brought them (R85, R93). -/
  waiting : List (Int × Bool)
  lastPulse : Option Int
  lastGptp : Option Nat
  /-- Consecutive cycles without an accepted pulse, and whether the current cycle cannot be one of them (R91). -/
  quiet : Nat
  pulsed : Bool
  /-- Announced cycle lengths (R93). -/
  announced : List (Nat × Nat)
  /-- The last boundary announcement: cycle, time, length (R93). -/
  lastAnn : Option (Nat × Int × Nat)
  /-- Consecutive cycles whose announced table CRC differs (R93). -/
  differ : Nat
  /-- The positions of the current cycle number that consumers have acted on (R90). -/
  acted : Nat
  /-- The positions of the last 2 ms with the times they were reached, newest first (spec/04 R116). -/
  trail : List (Int × Nat)
  /-- A CYC_OUT pulse is being given (R94). -/
  pulse : Bool
  deriving DecidableEq, Repr

/-- Where the cells of a copy lie (spec/05 R149, Table 05-1). -/
inductive Place where
  | reserved
  | shared
  | headroom
  | dram (engine : Nat)
  deriving DecidableEq, Repr

/-- A copy of a frame held in a queue (spec/05 R149-R161): egress queue q, ingress port and class (its ingress group),
colour (0 green, 1 yellow, 2 red), the octets as they will be sent without FCS, the length with FCS, the receive
metadata, the flow hash, the bucket of the link group it uses, its place, whether its transmission has begun (0 no,
1 in transmission, 2 preempted), and the octets that earlier fragments have sent (spec/04 R137). -/
structure Copy where
  id : Nat
  q : Nat
  inPort : Nat
  cls : Nat
  colour : Nat
  octets : List Nat
  len : Nat
  vid : Nat
  handle : Option Nat
  hash : Nat
  sec : Nat
  ns : Nat
  insts : List Nat
  lag : Option Nat
  mirror : Bool
  place : Place
  sending : Nat
  sent : Nat
  deriving DecidableEq, Repr

/-- A copy whose push-out is run again in the next clock (spec/05 R159): what it draws from the copy bucket when it is placed, and
the cells already evicted for it. -/
structure Retry where
  copy : Copy
  cost : Nat
  freed : Nat
  deriving DecidableEq, Repr

/-- A flow meter's buckets, in 1/4,000,000 octet, and when they were last filled (spec/04 R117, RFC 2698). -/
structure Meter where
  tc : Nat
  tp : Nat
  tick : Nat
  deriving DecidableEq, Repr

/-- A vector recovery function (spec/04 Table 04-5, R135, R136): takes any number, newest number, history bits (bit 0 the
newest), and the base of the latent error test. -/
structure Recov where
  takeAny : Bool
  num : Nat
  hist : Nat
  base : Int
  deriving DecidableEq, Repr

/-- The switch core beside its registers and tables (spec/04, spec/05). -/
structure SwitchState where
  /-- Copies held, oldest first; the on-chip order of a queue is its order here. -/
  held : List Copy
  nextId : Nat
  /-- Copies whose push-out is run again in the next clock (R159). -/
  retry : List Retry
  /-- Groups (port, class) whose XOFF change waits to be sent (R175). -/
  pauseDue : List (Nat × Nat)
  /-- Groups released under STORM_ACT until their count falls to XON_TH (R179). -/
  stormed : List (Nat × Nat)
  /-- The shadow gate lists wait for the cycle boundary (R169). -/
  gclPend : Bool
  /-- Ports that hold preemptable traffic, each with the edges still to come until the position the hold is for (R171). -/
  hold : List (Nat × Nat)
  /-- Frames sent while a class ignores its pause, by queue (R178). -/
  ignored : List (Nat × Nat)
  /-- The last frame's clock and ingress port, and the clock plus 1 of the last end of a transmission (R135, R152). -/
  lastIn : Option (Nat × Nat)
  freedAt : Nat
  /-- Clock, address and VID of the last software write of a MAC key (R123). -/
  wrote : Option (Nat × Nat × Nat)
  /-- The LFSR of WRED (R156). -/
  lfsr : BitVec 32
  /-- Copy bucket in 1/500 cell, and the clock it was last filled (R130, R131). -/
  copyTok : Int
  copyAt : Nat
  meters : List (Nat × Meter)
  recov : List (Nat × Recov)
  /-- Clock plus 1 at which a MAC entry was last seen as a source (R120). -/
  macSeen : List (Nat × Nat)
  /-- Clock plus 1 of the last posting of each code that is posted at most once in a period. -/
  limited : List (Nat × Nat)
  /-- WRED average of a queue, in 2^-16 cell (R156). -/
  wredAvg : List (Nat × Nat)
  /-- Shaper credit of a queue in 10^-6 bit (R172), and per port the clock of the last update. -/
  credit : List (Nat × Int)
  creditAt : List (Nat × Nat)
  /-- Port shaper tokens in 10^-6 bit (R168), and per port the clock of the last update. -/
  portTok : List (Nat × Int)
  portTokAt : List (Nat × Nat)
  /-- Spill buckets in bits, write and read, and the clock of the last update (R163). -/
  splWr : List Nat
  splRd : List Nat
  splAt : List Nat
  /-- The engine that last read back for a queue, plus 1 (R164). -/
  splTurn : List (Nat × Nat)
  /-- Deficit round robin over the host instances (R185): the instance in turn, deficits in octets, the TX ring after the
  one served last, rate tokens in 10^-6 bit and their clock. -/
  drrCur : Nat
  drrDef : List Nat
  drrRing : List Nat
  txTok : List (Nat × Int)
  txTokAt : List (Nat × Nat)
  /-- Completions not yet signalled, by ring (R186). -/
  ringDone : List (Nat × Nat)
  deriving DecidableEq, Repr

/-- What waits in a gateway engine's input queue (spec/06 R216, R219): a frame of a bus (controller or channel), or a frame
from port GW, each with its receive timestamp. -/
inductive GwItem where
  | bus (lin : Bool) (src : Nat) (f : BusFrame) (sec ns : Nat)
  | eth (octets : List Nat) (sec ns : Nat)
  deriving DecidableEq, Repr

/-- A reference message that waits or is under way (spec/06 R207, R208): its position, the low 16 bits of its cycle, whether
it is late, whether its lateness has been counted, and its start of frame (compact timestamp, low word). -/
structure RefMsg where
  pos : Nat
  cycle : Nat
  late : Bool
  counted : Bool
  sof : Nat
  deriving DecidableEq, Repr

/-- A gateway frame in a GW TX object (R217, R218): object, engine, route, receive timestamp, and whether its deadline has
passed. -/
structure GwObj where
  obj : Nat
  engine : Nat
  route : Nat
  sec : Nat
  ns : Nat
  expired : Bool
  deriving DecidableEq, Repr

/-- A frame in an engine's queue for a controller (R217). -/
structure GwWait where
  engine : Nat
  route : Nat
  f : BusFrame
  sec : Nat
  ns : Nat
  deriving DecidableEq, Repr

/-- A CAN controller beside its registers (spec/06 R192-R209): the object in arbitration or transmission (128: a reference
message), objects with a cancel that waits, tries of objects, the one-frame shadow, integration into the bus, bus-off
recovery, the mode in force, the last valid transceiver delay, the position that the guard time runs for, the reference message that
waits and the one under way, the clock of the write of INIT = 1 while a frame may still be in progress, the gateway's frames in objects
and waiting. -/
structure CanState where
  cur : Option Nat
  cancel : List Nat
  tries : List (Nat × Nat)
  shadow : Option (BusFrame × Nat × Nat)
  integrating : Bool
  recovering : Bool
  mode : Nat
  tdcLast : Option Nat
  guard : Option Nat
  ref : Option RefMsg
  refOut : Option RefMsg
  stopAt : Option Nat
  gwObj : List GwObj
  gwWait : List GwWait
  deriving DecidableEq, Repr

/-- A LIN channel beside its registers (spec/06 R211-R214): receive FIFO (identifier, data), the frame in progress
(identifier, schedule entry, whether the channel sends its response), the schedule table in force, entries that wait for
the frame before them, late starts, and the response entries whose data has been written since it was last sent. -/
structure LinState where
  fifo : List (Nat × List Nat)
  cur : Option (Nat × Option Nat × Bool)
  sch : Nat
  waiting : List Nat
  late : Nat
  fresh : List Nat
  deriving DecidableEq, Repr

/-- A capsule that the mailbox has refused (spec/06 R225): target pair, octets, tries left. -/
structure CapWait where
  pair : Nat
  octets : List Nat
  left : Nat
  deriving DecidableEq, Repr

/-- The gateway engines (spec/06 R215-R225): input queues, capsules that wait, and per stream the collected messages, the
next transmit sequence number and the next one expected. -/
structure GatewayState where
  cap : List (List CapWait)
  batch : List (Nat × List (List Nat))
  txSeq : List (Nat × Nat)
  rxSeq : List (Nat × Nat)
  deriving DecidableEq, Repr

/-- An inrush window (spec/07 R236): profile, booking in mA, and the clocks from which the booking steps down and the window
ends. -/
structure Window where
  prof : Nat
  peak : Nat
  half : Nat
  stop : Nat
  stepped : Bool
  deriving DecidableEq, Repr

/-- A load channel beside its registers (spec/07, spec/08). `st` is the state code of Table 07-3 that the switch is in: 0
OFF, 1 WAIT, 2 INRUSH, 3 conducting (shown ON, or HOLD outside NORMAL), 4 OFF_CLAMP, 5 OFF_SLOW, 6 LATCHED; `limp` shows LIMP
in its place. `cmd` is the command that stands since clock `cmdAt`, `old` the one before it; `reg`, `regAt` and `regOld` are the same
for the command that the registers give, whatever the die state (R230, spec/08 R271). `readyAt` is the clock at which a condition that
held changes back last ended (R231), `offAt` the clock at which the last turn-off began (R232). `turning`: a turn-off whose current
flows still (1 fast, 2 slow). `x` is the wire model in µA², `acc` the clamp account in 2^-32 µJ, `prev` the last sample in µA, `evt` the
current last known in µA (a sample, or the current at an event), `volts` in mV, `tj` in 0.001 °C, `sum` and `num` the samples of the
cycle. -/
structure ChanState where
  st : Nat
  limp : Bool
  cmd : Bool
  old : Bool
  cmdAt : Nat
  reg : Bool
  regOld : Bool
  regAt : Nat
  readyAt : Nat
  offAt : Nat
  win : Option Window
  turning : Nat
  onAt : Nat
  x : Nat
  acc : Nat
  lock : Bool
  offRef : Bool
  rev : Bool
  openLoad : Bool
  shortBat : Bool
  cause : Nat
  waited : Nat
  prev : Int
  evt : Int
  volts : Int
  tj : Int
  sum : Int
  num : Nat
  deriving DecidableEq, Repr

/-- A power die beside its registers (spec/07, spec/08): die state of Table 08-3, commands of the die state, clock of HOLD
entry, clock of an accepted RESUME that waits, side, the compute die lost, the local timer (in step with delivered edges,
last position and its clock, nominal edges and length of the active table and length of the cycle in progress, in 0.25 ns
units), fault bookings of the groups in mA and groups deferred at the next edge, groups held off by a board-net turn-off,
conditions of Table 08-7 (tabs under and over voltage, PGND and LGND lost), tab voltages in mV, limp-home activation in force
and whether the entry of LH_EN's activation has been posted, codes that wait for the bridge, a STATUS request that
waits for its reply (source side, sequence number), clock of the window in progress, its oscillator judged faulty (spec/17
R490), its logic copies found to differ (spec/19 R546), and clock plus 1 of the last posting of its codes that are posted at
most once per second. -/
structure DieState where
  st : Nat
  cmds : Nat
  holdAt : Nat
  resume : Option Nat
  side : Option Nat
  lost : Bool
  synced : Bool
  pos : Option Nat
  edgeAt : Nat
  nom : List Nat
  nomLen : Nat
  curLen : Nat
  faultBook : List Nat
  defer : Nat
  blocked : Nat
  uv : Nat
  ov : Nat
  pgnd : Bool
  lgnd : Bool
  tabs : List Int
  limpOn : Bool
  limpPosted : Bool
  queue : List Post
  reply : Option (Nat × Nat)
  winAt : Nat
  rcFault : Bool
  differ : Bool
  limited : List (Nat × Nat)
  deriving DecidableEq, Repr

/-- A channel at a power-die reset, by die-local index: X is half of I_C², the account half of BUDGET (R244, R249). -/
def ChanState.init (i : Nat) : ChanState :=
  { st := 0, limp := false, cmd := false, old := false, cmdAt := 0, reg := false, regOld := false, regAt := 0
    readyAt := 0, offAt := 0, win := none, turning := 0, onAt := 0
    x := Config.byClass i 242000000000000 32000000000000 2880000000000
    acc := Config.byClass i 600000 300000 75000 * 2 ^ 32
    lock := false, offRef := false, rev := false, openLoad := false, shortBat := false, cause := 0, waited := 0, prev := 0, evt := 0
    volts := 0, tj := 25000, sum := 0, num := 0 }

/-- A power die at its reset; the reset table of R78 until edges arrive (R269). -/
def DieState.init : DieState :=
  { st := 0, cmds := 0, holdAt := 0, resume := none, side := none, lost := false, synced := false, pos := none, edgeAt := 0
    nom := (List.range 64).map fun k => k * 62500, nomLen := 4000000, curLen := 4000000, faultBook := [0, 0, 0], defer := 0
    blocked := 0, uv := 0, ov := 0, pgnd := false, lgnd := false, tabs := [0, 0, 0], limpOn := false, limpPosted := false
    queue := [], reply := none, winAt := 0, rcFault := false, differ := false, limited := [] }

/-- A DIN beside its page (spec/09 R282-R295): comparator level and its transitions since the last sample, raw level of the
last sample, debounce count, chatter samples of the cycle, consecutive samples below and not below DG_LO, above and not above
DG_HI, clock at which the filtered value became active, chatter request of the last sample, clock plus 1 of the last chatter
request, pulsed wetting current flowing, and DIN_CFG as it was at the last sample, from which on it is in force (R282). -/
structure DinState where
  comp : Bool
  trans : Nat
  raw : Bool
  count : Nat
  chat : Nat
  below : Nat
  notBelow : Nat
  above : Nat
  notAbove : Nat
  activeAt : Nat
  chatReq : Bool
  chatAt : Nat
  wet : Bool
  cfg : Word
  deriving DecidableEq, Repr

/-- An AIN beside its page (R293): consecutive samples below, not below, above and not above its limits. -/
structure AinState where
  below : Nat
  notBelow : Nat
  above : Nat
  notAbove : Nat
  deriving DecidableEq, Repr

/-- What the always-on domain takes over for the scan in STANDBY (R296): armed and inverted inputs as masks, STUCK_T per
input, inputs active in the last scan (at first: filtered active), clock plus 1 since which an input has been active in every
scan (0: not active), stuck inputs, stuck inputs that one scan has found inactive; number of scans. -/
structure ScanState where
  armed : Nat
  inv : Nat
  stuckT : List Nat
  last : Nat
  runs : List Nat
  stuck : Nat
  quiet : Nat
  scans : Nat
  deriving DecidableEq, Repr

/-- One bridge at this side (spec/10 R302-R313): good RSV flits received in order and a bad one awaited again (NAK), RSV flits
sent and acknowledged, per VC the flits sent, the flits the peer has returned and the flits freed here, packets that wait
for credits (VC, octets), the octets of the packet in reception per VC, outstanding tags with their addresses, retired
tags. -/
structure BridgeState where
  good : Nat
  nak : Bool
  sent : Nat
  acked : Nat
  vcSent : List Nat
  vcBack : List Nat
  vcFreed : List Nat
  waiting : List (Nat × List Nat)
  part : List (List Nat)
  tags : List (Nat × Nat)
  retired : List Nat
  deriving DecidableEq, Repr

/-- A released output image (R323): low 16 bits of the cycle, position, images of dies A and B. -/
structure OutImage where
  cycle : Nat
  pos : Nat
  a : Nat
  b : Nat
  deriving DecidableEq, Repr

/-- The Phoask link and the twin's presence (R301, R304, R324): own heartbeat sequence and the last 2 µs multiple served, the
twin's last sequence, clocks of the last heartbeat and ALIVE frame, frames in reception on TW (express, preemptable: length,
clock of the first flit and octets), an ALIVE loss already posted, the agent of the window access and whether it waits for a tag. -/
structure PhoaskState where
  hbSeq : Nat
  hbNext : Nat
  hbLast : Option Nat
  hbAt : Nat
  aliveAt : Nat
  aliveLost : Bool
  tw : List (Option (Nat × Nat × List Nat))
  winAgent : Nat
  winWait : Bool
  deriving DecidableEq, Repr

/-- The role machine beside its page (R314-R335): the state CLAIMING came from, clock of the own claim, clock of the last
assertion of TWIN_PEER, claim attempts, back-off under way, the twin's pairing packet arrived and the own one sent, side set since the compute
die's start, twin of another variant or revision (R5), paired once, the role change that is due (cycle, rejoin end), rejoin
under way at the Headstock and its copy begun, TWC control, TWC sequence number, the sequence number whose reply a software
STATUS awaits, the edge whose twin image is due (cycle, position), status word of the twin image, released images that wait
(own and Headstock's), images of dies A and B that this module last released, last cycle that posted 0x7213, 0x7214 and
0x7215, and DUAL bits of the last SET per die. -/
structure TwinState where
  origin : Nat
  claimAt : Option Nat
  peerAt : Nat
  attempt : Nat
  backoff : Bool
  gotPair : Bool
  sentPair : Bool
  sideSet : Bool
  differs : Bool
  paired : Bool
  roleAt : Option (Nat × Bool)
  rejoining : Bool
  copying : Bool
  control : Bool
  seq : Nat
  want : Option Nat
  imgDue : Option (Nat × Nat)
  imgStatus : Nat
  ownImg : Option OutImage
  hsImg : Option OutImage
  own : List Nat
  posted : List (Nat × Nat)
  lastSet : List (Option Nat)
  deriving DecidableEq, Repr

/-- The MIG engine beside its page (R336): pages of the round under way (IPA page numbers), heads of the dirty-page logs at
the start of the round, and at the receiver the physical pages written. -/
structure MigState where
  todo : List Nat
  heads : List Nat
  written : List Nat
  deriving DecidableEq, Repr

def BridgeState.init : BridgeState :=
  { good := 0, nak := false, sent := 0, acked := 0, vcSent := [0, 0, 0, 0], vcBack := [0, 0, 0, 0], vcFreed := [0, 0, 0, 0]
    waiting := [], part := [[], [], [], []], tags := [], retired := [] }

def PhoaskState.init : PhoaskState :=
  { hbSeq := 0, hbNext := 0, hbLast := none, hbAt := 0, aliveAt := 0, aliveLost := false, tw := [none, none], winAgent := 0
    winWait := false }

def TwinState.init : TwinState :=
  { origin := 0, claimAt := none, peerAt := 0, attempt := 0, backoff := false, gotPair := false, sentPair := false, sideSet := false
    differs := false, paired := false, roleAt := none, rejoining := false, copying := false, control := false, seq := 0
    want := none, imgDue := none, imgStatus := 0, ownImg := none, hsImg := none, own := [0, 0], posted := [], lastSet := [none, none] }

def MigState.init : MigState := { todo := [], heads := [], written := [] }

/-- An entry of a write-hold buffer (spec/11 R347, spec/12 R386): a memory word with its byte mask and the access that last stored to it, a peripheral write, or a
mailbox send. -/
inductive Held where
  | store (a : Access) (word mask data : Nat)
  | periph (a : Access) (addr : Nat) (v : Word)
  | send (a : Access) (ch len : Nat) (words : List Nat)
  deriving DecidableEq, Repr

/-- An access that waits to be issued at the closing checkpoint (spec/11 R352). -/
inductive Closing where
  | read (a : Access) (addr : Nat)
  | atomic (a : Access) (addr : Nat) (op : AtomicOp) (operand : Nat)
  deriving DecidableEq, Repr

/-- A Caliper pair beside its registers: held entries in program order, signatures, retired instructions, checkpoint
sequence number, triggers that wait, the access that closes the interval, interrupts whose delivery to the trailing core
waits (line, count), the clocks of recent mismatches and the clock of the mismatch under way. -/
structure CalState where
  held : List Held
  sigLead : Nat
  sigTrail : Nat
  retired : Nat
  seq : Nat
  due : List Nat
  closing : Option Closing
  irqs : List (Nat × Nat)
  recent : List Nat
  since : Nat
  deriving DecidableEq, Repr
/-- A core beside its CORE page (spec/12 R369-R390, spec/13 R393): world latch (true: normal), VM register, deadlines of the
two timers (0.25 ns units), VM quantum, asserted core-local lines, lines at its interrupt interface, acknowledged lines
whose end has not come, the mailbox send port (words, result, aborted notices, wait: 32 is disarmed) and the cycle and
event counters (the cycle counter first) with the event that each of the six counts (Table 12-5, 0 where it is none of these). -/
structure CoreState where
  latch : Bool
  vmReg : Nat
  secDeadline : Option Nat
  normDeadline : Option Nat
  quantum : Nat
  localLines : List Nat
  delivered : List Nat
  active : List Nat
  sendWords : List Nat
  sendResult : Nat
  aborted : Nat
  waitFor : Nat
  perf : List Nat
  perfSel : List Nat
  deriving DecidableEq, Repr
/-- A translation that a core (holder 0x100) or the IOTLB for a source (holder below that) may still use (spec/13 R402-R404): its
context (VM number, 16 hypervisor, 17 secure), its IPA page, and the leaf with its level and address. -/
structure Cached where
  holder : Nat
  ctx : Nat
  page : Nat
  level : Nat
  leafAddr : Nat
  leaf : Nat
  deriving DecidableEq, Repr

/-- The translations that may still be used, and the IPA page of the last VMC_INV of each VM (spec/13 R403). -/
structure XlatState where
  held : List Cached
  invPage : List Nat
  deriving DecidableEq, Repr
/-- A NOR command under way (spec/14 R430): operation (1 program, 2 erase 4 KiB, 3 erase 64 KiB), die offset, data. -/
structure NorOp where
  op : Nat
  off : Nat
  data : List Nat
  deriving DecidableEq, Repr
/-- The security module beside its pages (spec/15): the keys of the 64 slots ([] in an empty one), the derived keys K_KEK_V,
K_KEK_M, K_ATT and K_STO ([] before they are derived), per capsule channel the clocks of its tag failures in the last second
and its block, the half of the key-record log in use, and whether an unlock of the test port has stopped the cores. -/
structure SecState where
  slots : List (List Nat)
  derived : List (List Nat)
  fails : List (List Nat)
  blocked : List Bool
  half : Nat
  stopped : Bool
  deriving DecidableEq, Repr

def SecState.init : SecState :=
  { slots := List.replicate 64 [], derived := [], fails := List.replicate 16 [], blocked := List.replicate 16 false, half := 0
    stopped := false }

/-- An open transfer (spec/16 R466-R470): its ID, the own hop and the last hop, the chain table, the window W, manifest blocks
held, the slot, its phase (0 manifest blocks, 1 slot preparation, 2 transport blocks, 3 CLOSE received, 4 slot completed), first
missing block, blocks received and not yet programmed, blocks programmed, next block of the last ACK sent, next block that
hop h + 1 has acknowledged, the next block to send to it and the first one never sent to it, whether CLOSE has been sent to it, its final ACK (reason, hop), resends without
progress, and the own slot's result. -/
structure Relay where
  id : Nat
  hop : Nat
  last : Nat
  table : List Nat
  w : Nat
  man : List (Nat × List Nat)
  slot : Nat
  phase : Nat
  next : Nat
  queue : List (Nat × List Nat)
  prog : Nat
  acked : Nat
  down : Nat
  sent : Nat
  high : Nat
  closeSent : Bool
  downEnd : Option (Nat × Nat)
  resends : Nat
  result : Option Nat
  deriving DecidableEq, Repr

/-- Firmware update beside NOR (spec/16): the open transfer, the slot that runs, the base copy loaded and its version, the
settings loaded at the last start (key, data), the half of the settings records in use, and whether SC has chosen a slot
since the start. -/
structure UpdState where
  relay : Option Relay
  run : Option Nat
  base : Option Nat
  baseVer : Nat
  settings : List (Nat × List Nat)
  half : Nat
  chosen : Bool
  deriving DecidableEq, Repr

def UpdState.init : UpdState := { relay := none, run := none, base := none, baseVer := 0, settings := [], half := 0, chosen := false }

/-- Which parts are out of reset: the compute die, the application cluster, the real-time pairs, power dies A and B, the
always-on domain. -/
structure ResetState where
  compute : Bool
  cluster : Bool
  rp : List Bool
  die : List Bool
  alwaysOn : Bool
  deriving DecidableEq, Repr

/-- A step of the voltage-frequency sequencer (spec/17 R503): a ramp to a voltage in mV, with its settling; a change of the
divider. -/
inductive VfsStep where
  | ramp (mv : Nat)
  | divider (code : Nat)
  deriving DecidableEq, Repr

/-- Clocks beside their pages (spec/17 R484-R506): trims of the power-die oscillators in steps of 0.02 %, last verdicts of
entries 0-2, consecutive passes of a failing entry, entries whose window in progress is discarded, the last count of each entry, entry 2 has its E, clocks
judged faulty (bit 0 XO, 1 XO32, 2 RCO), the cluster rail in mV and the divider in force, the step in progress, codes
that wait for the restart of the compute die (page, code, locator), and the clock of the last start or restart of the watchdog. -/
structure ClockState where
  rcTrim : List Int
  verdict : List (Option Bool)
  passes : List Nat
  skip : Nat
  counts : List Nat
  e2set : Bool
  faulty : Nat
  rail : Nat
  div : Nat
  step : Option VfsStep
  afterStart : List (Nat × Nat × Nat)
  wdgAt : Nat
  deriving DecidableEq, Repr

def ClockState.init : ClockState :=
  { rcTrim := [0, 0], verdict := [none, none, none], passes := List.replicate 10 0, skip := 0, counts := List.replicate 10 0, e2set := false, faulty := 0
    rail := 760, div := 3, step := none, afterStart := [], wdgAt := 0 }
/-- A wake: its source (bit of SLP_WK_SRC: 0 WAKE_L, 1 CX0, 2 CX1, 3 DIN, 4 POWER_ON, 6 COMPUTE) and its DIN. -/
structure Wake where
  src : Nat
  din : Nat
  deriving DecidableEq, Repr

/-- Timing of an AWAKE vote (spec/18 R531): clocks gathered, and since when it runs. -/
structure AwakeTimer where
  node : Nat
  acc : Nat
  since : Option Nat
  deriving DecidableEq, Repr

/-- The mode machine and the sleep agreement beside the SLP page (spec/18): a start under way, its source, whether its wake was
late and the clock of its request; the mode recorded at a loss of the compute die; the mode from which SHUTDOWN was
entered; a latched late wake; capsule records written and SHDN_ACK written; the commands off that are due at the next
edge; ON_REQ bits and image bits that SHUTDOWN has cleared, per die; CX0 and CX1 armed for STANDBY; WAKE_L driven, and held
low by another node; the false-wake window open for a source (WAKE_L, CX0, CX1, then each DIN); the clock at which SERVICE
ends; AWAKE timers (64: the own vote); the shut-down self-test (0 not begun, 1 running, 2 ended); COORD at the last look; the
start under way goes on to RUN;
the clocks of the entry to PREP or QUIESCE, of the last compute-die release, and of each node's last vote. -/
structure SleepState where
  starting : Bool
  wake : Wake
  late : Bool
  wakeAt : Nat
  lossMode : Nat
  entry : Nat
  latch : Option Wake
  scDone : Bool
  ack : Bool
  offDue : Bool
  savedReq : List Nat
  savedImg : List Nat
  cxArmed : List Bool
  driving : Bool
  low : Bool
  window : Option Nat
  serviceEnd : Nat
  awake : List AwakeTimer
  test : Nat
  coordWas : Bool
  goRun : Bool
  phaseAt : Nat
  relAt : Nat
  votes : List Nat
  deriving DecidableEq, Repr

def SleepState.init : SleepState :=
  { starting := false, wake := ⟨4, 0⟩, late := false, wakeAt := 0, lossMode := 0, entry := 0, latch := none, scDone := false
    ack := false, offDue := false, savedReq := [0, 0], savedImg := [0, 0], cxArmed := [false, false], driving := false
    low := false, window := none, serviceEnd := 0, awake := [], test := 0, coordWas := false, goRun := false, phaseAt := 0, relAt := 0, votes := List.replicate 64 0 }
/-- An entry of the fault log (spec/19 Table 19-9), with the clock of its last occurrence. -/
structure LogEntry where
  code : Nat
  count : Nat
  injected : Bool
  replaced : Bool
  srcTy : Nat
  srcInst : Nat
  locator : Nat
  sec : Nat
  ns : Nat
  lastNs : Nat
  lastAt : Nat
  deriving DecidableEq, Repr

/-- Health beside its pages (spec/19): the fault log; the overflow of the log has been recorded since it last held fewer than
64 entries; the half of the repair log in use and the last run whose repaired failures have been posted; the clock
at which the active handling became active. -/
structure HealthState where
  log : List LogEntry
  ovfTold : Bool
  repairHalf : Nat
  told : Option Nat
  escAt : Nat
  deriving DecidableEq, Repr

def HealthState.init : HealthState := { log := [], ovfTold := false, repairHalf := 0, told := none, escAt := 0 }

/-- Honing beside its pages (spec/19 R554-R564): kinds of the plans that are due, the monitors at the last plan, BLOCK words
that wait for their boundary per channel, trims that wait for the next boundary per channel, the TMB phase trim that
waits, per temperature threshold whether it is exceeded and for how many judgements it has been 5 °C undercut, the refresh
interval that waits for the next refresh, the half of the ageing log in use. -/
structure HoningState where
  due : List Nat
  base : Option Monitors
  blocks : List (Option Nat)
  itrim : List (Option Nat)
  phase : Option Nat
  hot : List (Bool × Nat)
  refi : Option Nat
  half : Nat
  deriving DecidableEq, Repr

def HoningState.init : HoningState :=
  { due := [], base := none, blocks := List.replicate 32 none, itrim := List.replicate 32 none, phase := none
    hot := [(false, 0), (false, 0), (false, 0)], refi := none, half := 0 }

/-- What the module puts on its lands and links, and what it hands to agents outside the model: an output record. -/
inductive Out where
  /-- A PTP message sent on a port (spec/03 R71). -/
  | ptp (inst port : Nat) (kind : PtpMessage) (seq : Nat)
  /-- A Sync that an instance forwards on a master port (spec/03 R72); on a one-step port the correction that the module adds to
  it in flight, in 0.25 ns units (spec/04 R142), on a two-step port none. -/
  | ptpForward (inst port seq : Nat) (correction : Option Nat)
  /-- The answer to a Pdelay_Req on a port (spec/03 R71). -/
  | pdelayResp (port seq : Nat)
  /-- A plate announcement to the twin: kind, cycle, length, CRC, time (spec/03 R93). -/
  | announce (kind : AnnKind) (cycle length crc time : Nat)
  /-- CYC_OUT at its pulse level or at rest (spec/03 R94). -/
  | cycOut (high : Bool)
  /-- A frame sent on a port: its octets without FCS, padded, a Sync with the correction that the module made in flight (spec/04 R142). -/
  | frame (port : Nat) (octets : List Nat)
  /-- A frame of the MAC merge sublayer that verifies a port (spec/04 R137). -/
  | verify (port : Nat)
  /-- A pause (pfc = false) or PFC frame: classes and quanta (spec/05 R175). -/
  | pause (port : Nat) (pfc : Bool) (enable : Nat) (quanta : Nat)
  /-- A CAN frame sent by a controller (spec/06 R200). -/
  | can (ctl : Nat) (f : BusFrame)
  /-- The STB land of an external transceiver (spec/06 Table 06-8). -/
  | canStb (ctl : Nat) (level : Bool)
  /-- An integrated transceiver releases the bus (spec/06 R191). -/
  | canRelease (ctl : Nat)
  /-- A LIN channel releases its bus recessive (spec/13 Table 13-7). -/
  | linRelease (ch : Nat)
  /-- A LIN header of a master channel (spec/06 R212). -/
  | linHeader (ch ident : Nat)
  /-- A LIN response with its checksum (spec/06 R213). -/
  | linResponse (ch ident : Nat) (data : List Nat) (checksum : Nat)
  /-- A 250 µs LIN wake pulse (spec/06 R214). -/
  | linWake (ch : Nat)
  /-- A TWC frame driven by a power die (0 A, 1 B) or by the compute die through that die's transceiver (spec/10 R330). -/
  | twc (compute : Bool) (die : Nat) (octets : List Nat)
  /-- A channel's switch starts its transition (spec/07 R231): opened (0), or closed (1), or opened over the slow ramp (2). -/
  | switch (die ch kind : Nat)
  /-- The current that ISENSE of a die sources, in nA (spec/08 R263). -/
  | isense (die nanoamps : Nat)
  /-- TWIN_CLAIM driven or released (spec/10 R316). -/
  | claim (on : Bool)
  /-- A link-control flit sent on a bridge (0 die A, 1 die B, 2 Phoask): its 30 payload bytes (spec/10 Table 10-3). -/
  | ctl (br : Nat) (octets : List Nat)
  /-- A packet sent on a VC of a bridge: header and body (spec/10 Table 10-5). -/
  | rsv (br vc : Nat) (octets : List Nat)
  /-- RSV flits sent again after the acknowledged count (spec/10 R302). -/
  | replay (br ack count : Nat)
  /-- A real-time pair goes on from the state mirrored to it (spec/10 R335). -/
  | pairStart (pair : Nat)
  /-- A core starts at an address (spec/12 R369). -/
  | coreStart (core addr : Nat)
  /-- A relay frame sent to a hop of the chain: its octets after the EtherType (spec/16 Table 16-4). -/
  | relay (hop : Nat) (octets : List Nat)
  /-- WAKE_L driven low, or released (spec/18 R529). -/
  | wakeL (low : Bool)
  deriving DecidableEq, Repr

/-- The state. -/
structure State where
  /-- The commands that wait, first in first out. -/
  pending : List Instr
  /-- The variant (spec/00 R1, R2): true for the HZ9620. DESIGN CHOICE: HZ9640 at reset. -/
  hz9620 : Bool
  /-- The register file: every register that differs from its reset value, keyed by physical address (spec/02 R33, R37). -/
  regs : List (Nat × Word)
  /-- The words of the table entries behind access windows, by table, entry and word (spec/04 R144, spec/05 R188, spec/06). -/
  tabs : List (Nat × Word)
  /-- Memory bytes that differ from what an unlisted address reads as. -/
  mem : List Host.Cell
  /-- The answer to the last access. -/
  resp : Resp
  /-- What the module has put on its lands and links, oldest first. -/
  out : List Out
  /-- The number of free values taken so far (the model's own field). -/
  fresh : Nat
  /-- Error codes on their way to the aggregator, oldest first. -/
  posts : List Post
  shell : ShellState
  /-- The time base and PTP. -/
  tb : TimeState
  /-- The indexing plate. -/
  plate : PlateState
  /-- The switch core, its buffer and the host rings. -/
  sw : SwitchState
  /-- Entries treated as not valid after an uncorrectable error, as table × 2^20 + index (spec/04 R148, spec/06 Table 06-13). -/
  badEntries : List Nat
  /-- Input queues of the gateway engines. -/
  gwIn : List (List GwItem)
  /-- The CAN controllers CX0-CX11. -/
  can : List CanState
  /-- The LIN channels LN0-LN7. -/
  lin : List LinState
  /-- The gateway engines. -/
  gw : GatewayState
  /-- The load channels: die A indices 0-15, then die B. -/
  chans : List ChanState
  /-- The power dies A and B. -/
  dies : List DieState
  /-- Levels of the SEL lands of dies A and B (spec/08 R264). -/
  selLands : List Nat
  /-- TWIN_CLAIM driven by power die A (spec/10 R316). -/
  claim : Bool
  /-- The inputs DIN_0-DIN_47 and AIN_0-AIN_15. -/
  dins : List DinState
  ains : List AinState
  /-- The scan of armed inputs in STANDBY. -/
  scan : ScanState
  /-- Armed inputs that the false-wake counting has disarmed (spec/18 R532), as a mask. -/
  disarmed : Nat
  /-- The bridges: die A, die B, twin. -/
  bridges : List BridgeState
  /-- The Phoask link. -/
  phoask : PhoaskState
  /-- The role machine. -/
  twin : TwinState
  /-- The MIG engine. -/
  mig : MigState
  /-- The Caliper pairs AP0-AP3, RP0, RP1. -/
  cal : List CalState
  /-- The two copies of CFAULT (spec/11 R364): the always-on domain of die A, and die P. One bit per pair. -/
  cfaultA : Nat
  cfaultP : Nat
  /-- The cores AC0-AC7, RC0-RC3, SC. -/
  cores : List CoreState
  /-- Software-raised lines that are pending (spec/12 R380). -/
  swLines : List Nat
  /-- Cache lines poisoned by an uncorrectable error (spec/12 R376), by the address of their 32 bytes. -/
  poisonLines : List Nat
  /-- Cached translations (spec/13 R402-R405). -/
  xlat : XlatState
  /-- The last 64 logged pages of each host instance (spec/13 R415). -/
  dplFilter : List (List Nat)
  /-- Commands under way in the two NOR dies. -/
  norOps : List (Option NorOp)
  /-- Erase counts of the 64 KiB blocks, by die × 2048 + block (spec/14 R432). -/
  norWear : List (Nat × Nat)
  /-- Fuse words (spec/14 Table 14-5). DESIGN CHOICE: at reset blank but for the variant and revision of word 12. -/
  fuses : List (Nat × Nat)
  /-- A fuse program under way: word and bits. -/
  fuseOp : Option (Nat × Nat)
  /-- The refresh interval at 85 °C or below, ns (spec/14 R425). -/
  refiBase : Nat
  /-- Next words of the SRAM and checkpoint scrubs, as offsets (spec/14 R426). -/
  scrSram : Nat
  scrCkpt : Nat
  /-- Pairs whose active slot has an error that scrubbing could not correct (spec/14 R427). -/
  slotBad : List Nat
  /-- The security module. -/
  sec : SecState
  /-- Firmware update. -/
  upd : UpdState
  /-- Parts out of reset (spec/17 R507). -/
  up : ResetState
  /-- Clocks and the cluster rail. -/
  clk : ClockState
  /-- The mode machine and the sleep agreement. -/
  slp : SleepState
  /-- Faults and self-test. -/
  health : HealthState
  /-- Honing. -/
  hon : HoningState
  deriving DecidableEq, Repr

/-- The machine right after reset: the module before power-on, mode OFF (spec/18 R513), every register at its reset
value (an empty register file: see Machine/Ops.lean, State.rd). -/
def State.reset : State :=
  { pending := []
    hz9620 := false
    regs := []
    tabs := []
    mem := []
    resp := ⟨.none, 0⟩
    out := []
    fresh := 0
    posts := []
    shell := ⟨[], [], []⟩
    tb := ⟨0, 0, false, none, 0, [], []⟩
    plate := { armed := none, started := false, startAt := none, boundary := 0, length := 4000000, corr := [], next := 64, pendTable := none, reindex := none, inReindex := false, again := none, jumped := false, waiting := [], lastPulse := none, lastGptp := none, quiet := 0, pulsed := true, announced := [], lastAnn := none, differ := 0, acted := 0, trail := [], pulse := false }
    sw := { held := [], nextId := 0, retry := [], pauseDue := [], stormed := [], gclPend := false, hold := [], ignored := [], lastIn := none, freedAt := 0, wrote := none, lfsr := 1, copyTok := 512000, copyAt := 0, meters := [], recov := [], macSeen := [], limited := [], wredAvg := [], credit := [], creditAt := [], portTok := [], portTokAt := [], splWr := [65536, 65536, 65536, 65536], splRd := [65536, 65536, 65536, 65536], splAt := [0, 0, 0, 0], splTurn := [], drrCur := 0, drrDef := List.replicate 16 0, drrRing := List.replicate 16 4, txTok := [], txTokAt := [], ringDone := [] }
    badEntries := []
    gwIn := [[], [], [], []]
    can := List.replicate 12 { cur := none, cancel := [], tries := [], shadow := none, integrating := false, recovering := false, mode := 0, tdcLast := none, guard := none, ref := none, refOut := none, stopAt := none, gwObj := [], gwWait := [] }
    lin := List.replicate 8 { fifo := [], cur := none, sch := 0, waiting := [], late := 0, fresh := [] }
    gw := { cap := [[], [], [], []], batch := [], txSeq := [], rxSeq := [] }
    chans := (List.range 32).map fun k => ChanState.init (k % 16)
    dies := [DieState.init, DieState.init]
    selLands := [0, 0]
    claim := false
    dins := List.replicate 48 { comp := false, trans := 0, raw := false, count := 0, chat := 0, below := 0, notBelow := 0, above := 0, notAbove := 0, activeAt := 0, chatReq := false, chatAt := 0, wet := false, cfg := 0x23246 }
    ains := List.replicate 16 { below := 0, notBelow := 0, above := 0, notAbove := 0 }
    scan := { armed := 0, inv := 0, stuckT := [], last := 0, runs := [], stuck := 0, quiet := 0, scans := 0 }
    disarmed := 0
    bridges := [BridgeState.init, BridgeState.init, BridgeState.init]
    phoask := PhoaskState.init
    twin := TwinState.init
    mig := MigState.init
    cal := List.replicate 6 { held := [], sigLead := 2 ^ 64 - 1, sigTrail := 2 ^ 64 - 1, retired := 0, seq := 0, due := [], closing := none, irqs := [], recent := [], since := 0 }
    cfaultA := 0
    cfaultP := 0
    cores := List.replicate 13 { latch := false, vmReg := 0, secDeadline := none, normDeadline := none, quantum := 0, localLines := [], delivered := [], active := [], sendWords := List.replicate 16 0, sendResult := 0, aborted := 0, waitFor := 32, perf := List.replicate 7 0, perfSel := List.replicate 6 0 }
    swLines := []
    poisonLines := []
    xlat := ⟨[], List.replicate 16 0⟩
    dplFilter := List.replicate 16 []
    norOps := [none, none]
    norWear := []
    fuses := [(12, 0xB040)]
    fuseOp := none
    refiBase := 3906
    scrSram := 0
    scrCkpt := 0
    slotBad := []
    sec := SecState.init
    upd := UpdState.init
    up := ⟨false, false, [false, false], [false, false], false⟩
    clk := ClockState.init
    slp := SleepState.init
    health := HealthState.init
    hon := HoningState.init }

end Sys2Proof.Machine
end

