-- ==== Sys2Proof/Machine/Ops.lean ====
section
/-!
DEFINITION. The named operations over the register file, the tables, memory and the free values: sparse lists in one
canonical form (addresses strictly rising, no entry equal to what an unlisted address reads as), and the reads and writes
every meaning goes through.
-/

namespace Sys2Proof.Machine

/-- What a sparse list holds at key k; d where it lists none. -/
def sget {α : Type} (d : α) (k : Nat) : List (Nat × α) → α
  | [] => d
  | e :: t => if k = e.1 then e.2 else if k < e.1 then d else sget d k t

/-- A sparse list with v at key k; an entry equal to d is not listed. -/
def sput {α : Type} [DecidableEq α] (d : α) (k : Nat) (v : α) : List (Nat × α) → List (Nat × α)
  | [] => if v = d then [] else [(k, v)]
  | e :: t =>
    if k < e.1 then (if v = d then e :: t else (k, v) :: e :: t)
    else if k = e.1 then (if v = d then t else (k, v) :: t)
    else e :: sput d k v t

/-- The canonical form: keys strictly rising and above lo, no entry equal to its default. -/
def swf {α : Type} [DecidableEq α] (dflt : Nat → α) (lo : Nat) : List (Nat × α) → Bool
  | [] => true
  | e :: t => decide (lo ≤ e.1) && decide (e.2 ≠ dflt e.1) && swf dflt (e.1 + 1) t

/-! The register file. -/

/-- The reset value of the register at an address (spec/02 R33 and the register tables), 0 where there is none. -/
def resetVal (addr : Nat) : Word :=
  match pageOf addr with
  | none => 0
  | some r =>
    match findReg (pageOff addr) (regTable r.ty) with
    | some (g, k) => g.reset (pageInst r) k
    | none => 0

/-- The stored value of the register at offset off of page p. -/
def State.rd (s : State) (p off : Nat) : Word := sget (resetVal (p + off)) (p + off) s.regs

/-- The register at offset off of page p set to w, by the hardware. -/
def State.wr (s : State) (p off : Nat) (w : Word) : State :=
  { s with regs := sput (resetVal (p + off)) (p + off) w s.regs }

/-- A field of a register of page p. -/
def State.get (s : State) (p : Nat) (f : Fld) : Nat := bitsOf (s.rd p f.off).toNat f.lo f.len

/-- A field of a register of page p set by the hardware (cut to the field's width). -/
def State.set (s : State) (p : Nat) (f : Fld) (n : Nat) : State :=
  s.wr p f.off (BitVec.ofNat 32 (putBits (s.rd p f.off).toNat f.lo f.len n))

/-- A one-bit field as a truth value. -/
def State.on (s : State) (p : Nat) (f : Fld) : Bool := s.get p f != 0

/-- A signed field. -/
def State.geti (s : State) (p : Nat) (f : Fld) : Int := sext f.len (s.get p f)

/-- A signed field set. -/
def State.seti (s : State) (p : Nat) (f : Fld) (i : Int) : State := s.set p f (toField f.len i)

/-- A whole register set to a number. -/
def State.wrn (s : State) (p off n : Nat) : State := s.wr p off (BitVec.ofNat 32 n)

/-- The registers of page p for which keep is false put back to their reset values. -/
def State.resetPage (s : State) (p : Nat) (keep : Nat → Bool) : State :=
  { s with regs := s.regs.filter fun e => !(p ≤ e.1 && e.1 < p + 0x1000) || keep (e.1 - p) }

/-! Tables behind access windows: word w of entry i of table t. -/

def tabKey (t i w : Nat) : Nat := (t * 0x100000 + i) * 16 + w

/-- The default word of a table key. -/
def tabDefaultAt (k : Nat) : Word := tabDefault (k / 16 / 0x100000) (k / 16 % 0x100000) (k % 16)

def State.tget (s : State) (t i w : Nat) : Nat := (sget (tabDefaultAt (tabKey t i w)) (tabKey t i w) s.tabs).toNat

def State.tset (s : State) (t i w n : Nat) : State :=
  { s with tabs := sput (tabDefaultAt (tabKey t i w)) (tabKey t i w) (BitVec.ofNat 32 n) s.tabs }

/-- A field of a table entry: word, lowest bit, width. -/
structure TFld where
  w : Nat
  lo : Nat
  len : Nat
  deriving DecidableEq, Repr

def State.tf (s : State) (t i : Nat) (f : TFld) : Nat := bitsOf (s.tget t i f.w) f.lo f.len

def State.tfOn (s : State) (t i : Nat) (f : TFld) : Bool := s.tf t i f != 0

def State.tfSet (s : State) (t i : Nat) (f : TFld) (n : Nat) : State :=
  s.tset t i f.w (putBits (s.tget t i f.w) f.lo f.len n)

/-! Memory: bytes by physical address. What nothing has written reads as 0 in RAM and as 0xFF (erased) in the NOR dies
(DESIGN CHOICE: the spec gives no contents after power-on). -/

def memDefault (addr : Nat) : Byte := if 0x40000000 ≤ addr ∧ addr < 0x50000000 then 0xFF else 0

def State.byte (s : State) (addr : Nat) : Nat := (sget (memDefault addr) addr s.mem).toNat

def State.setByte (s : State) (addr n : Nat) : State :=
  { s with mem := sput (memDefault addr) addr (BitVec.ofNat 8 n) s.mem }

/-- n bytes from addr. -/
def State.bytes (s : State) (addr : Nat) : Nat → List Nat
  | 0 => []
  | n + 1 => s.byte addr :: s.bytes (addr + 1) n

/-- Bytes stored from addr on. -/
def State.setBytes (s : State) (addr : Nat) : List Nat → State
  | [] => s
  | b :: bs => (s.setByte addr b).setBytes (addr + 1) bs

/-- A little-endian number of n bytes. -/
def State.memLE (s : State) (addr n : Nat) : Nat := ofBytesLE (s.bytes addr n)

def State.setMemLE (s : State) (addr n v : Nat) : State := s.setBytes addr (bytesLE n v)

/-- Memory's canonical form. -/
def memWf (m : List Host.Cell) : Bool := swf memDefault 0 m

/-- The canonical form of the register file. -/
def regsWf (r : List (Nat × Word)) : Bool := swf resetVal 0 r

/-- The canonical form of the tables. -/
def tabsWf (r : List (Nat × Word)) : Bool := swf tabDefaultAt 0 r

/-- The canonical form of the fuses: a word that is not listed is 0. -/
def fusesWf (f : List (Nat × Nat)) : Bool := swf (fun _ => 0) 0 f

/-! Outputs and free values. -/

def State.emit (s : State) (o : Out) : State := { s with out := s.out ++ [o] }

/-- The next free value, n-th of Config.freeValue. -/
def State.free (s : State) : Nat := (Config.freeValue s.fresh).toNat

/-- The state after a free value has been taken. -/
def State.took (s : State) : State := { s with fresh := s.fresh + 1 }

/-- Apply f to each element in order. -/
def State.each {α : Type} (s : State) (l : List α) (f : State → α → State) : State := l.foldl f s

end Sys2Proof.Machine
end

