-- ==== Sys2Proof/Machine/Flags.lean ====
section
/-!
DEFINITION. Status flags: interrupt source bits (spec/02 R44), counters under FREEZE (R43), error codes and the record a
page keeps of its errors (R45, R46, R55), and the posting of codes to the fault aggregator (spec/19 R535).
-/

namespace Sys2Proof.Machine

/-- Interrupt source bit b of page p set by the hardware (R44). -/
def State.irq (s : State) (p b : Nat) : State := s.set p ⟨INT_RAW, b, 1⟩ 1

/-- INT_PEND: INT_RAW AND INT_EN (R37). -/
def State.intPend (s : State) (p : Nat) : Word := s.rd p INT_RAW &&& s.rd p INT_EN

/-- A page's interrupt line is asserted while INT_PEND is not 0 (R44), and never while its owner changes (spec/13 R397). -/
def State.lineOf (s : State) (p : Nat) : Bool := s.intPend p != 0 && !s.on p PART_BUSY

/-- BLK_CTRL.FREEZE holds counters, statistics and snapshot registers (R43). -/
def State.frozen (s : State) (p : Nat) : Bool := s.on p BLK_CTRL_FREEZE

/-- A statistic or snapshot field set by the hardware, held while the page is frozen. -/
def State.stat (s : State) (p : Nat) (f : Fld) (n : Nat) : State := if s.frozen p then s else s.set p f n

/-- A saturating counter advanced by d, held while the page is frozen. -/
def State.cnt (s : State) (p : Nat) (f : Fld) (d : Nat := 1) : State :=
  if s.frozen p then s else s.set p f (satAdd f.len (s.get p f) d)

/-- A wrapping counter advanced by d, held while the page is frozen. -/
def State.cntWrap (s : State) (p : Nat) (f : Fld) (d : Nat := 1) : State :=
  if s.frozen p then s else s.set p f (wrapAdd f.len (s.get p f) d)

/-- A whole 32-bit wrapping counter. -/
def State.cnt32 (s : State) (p off : Nat) (d : Nat := 1) : State := s.cntWrap p ⟨off, 0, 32⟩ d

/-- A wrapping counter of 64 bits in two registers, low word first. -/
def State.cnt64 (s : State) (p lo hi d : Nat) : State :=
  if s.frozen p then s
  else
    let n := (s.rd p lo).toNat + (s.rd p hi).toNat * 2 ^ 32 + d
    (s.wrn p lo (n % 2 ^ 32)).wrn p hi (n / 2 ^ 32 % 2 ^ 32)

/-- The die bridge of a power die is down, as either side sees it (spec/08 R272). -/
def State.bridgeDown (s : State) (d : Nat) : Bool :=
  !s.up.compute || !nth s.up.die d false || (nth s.dies d DieState.init).lost || !s.on (pDBR d) BR_STAT_UP

/-- A code posted to the fault aggregator with its locator, by page p (spec/19 R535). A power die whose bridge is down
queues up to 8 codes; one that finds the queue full is counted and lost (spec/08 R272). -/
def State.post (s : State) (p code loc : Nat) (injected : Bool := false) : State :=
  let x : Post := ⟨code, loc % 2 ^ 32, tyOf p, instOf p, injected⟩
  match bridgeDie (tyOf p) with
  | none => { s with posts := s.posts ++ [x] }
  | some d =>
    if !s.bridgeDown d then { s with posts := s.posts ++ [x] }
    else if (nth s.dies d DieState.init).queue.length < 8 then
      { s with dies := modNth s.dies d fun z => { z with queue := z.queue ++ [x] } }
    else s.cnt (pPDC d) PDC_QOVF_LOST

/-- Severity of a common cause (Table 02-7). -/
def causeSeverity (cause : Nat) : Nat :=
  if cause = 0x06 ∨ cause = 0x08 then 2 else if cause = 0x0A then 3 else 0

/-- The error code of a common cause in a subsystem (R55). -/
def commonCode (sub cause : Nat) : Nat := sub * 0x1000 + causeSeverity cause * 0x100 + cause

/-- What the page keeps of an error: the first code and its address, the count, INT_RAW.ERR (R45). -/
def State.capture (s : State) (p code loc : Nat) : State :=
  let s1 := if s.get p ERR_CAP_COUNT = 0 then (s.set p ERR_CAP_CODE code).wrn p ERR_ADDR loc else s
  (s1.set p ERR_CAP_COUNT (satAdd 8 (s1.get p ERR_CAP_COUNT) 1)).irq p 31

/-- An error that page p detects: captured and posted (R45); during a parting it is posted only (spec/13 R410). -/
def State.err (s : State) (p code loc : Nat) (injected : Bool := false) : State :=
  let s1 := s.post p code loc injected
  if s.on p PART_BUSY then s1 else s1.capture p code loc

/-- A page error with a common cause, at an address (R46: its 32 lowest bits). -/
def State.errCause (s : State) (p cause addr : Nat) : State :=
  s.err p (commonCode (subsystemOf p) cause) (addr % 2 ^ 32)

/-- The answer to an access. -/
def State.answer (s : State) (st : RespStatus) (data : Nat) : State := { s with resp := ⟨st, data⟩ }

def State.ok (s : State) (data : Nat := 0) : State := s.answer .ok data

/-- A refused access: error response, data 0 (R39). -/
def State.refused (s : State) : State := s.answer .error 0

end Sys2Proof.Machine
end

