-- ==== Sys2Proof/Machine/Roles.lean ====
section
/-!
DEFINITION. Modes and roles as other blocks read them: the mode code (spec/18 R513), the role state (spec/10 R317, Table
10-7) and which role a module holds (R318); and the registers of the SLP, LOG, CLK, VFS and AGM pages that show other state
(spec/17 Table 17-12, spec/18 Table 18-8, spec/19 Tables 19-8 and 19-9).
-/

namespace Sys2Proof.Machine

/-! Mode codes (spec/18 R513). -/
abbrev mOFF : Nat := 0
abbrev mSTANDBY : Nat := 1
abbrev mPARTIAL : Nat := 2
abbrev mRUN : Nat := 3
abbrev mDEGRADED : Nat := 4
abbrev mSTEADY_REST : Nat := 5
abbrev mSERVICE : Nat := 6
abbrev mSHUTDOWN : Nat := 7

/-- The mode: BLK_STAT.STATE of the SLP page. -/
def State.mode (s : State) : Nat := s.get pSLP BLK_STAT_STATE

/-! Role state codes (spec/10 Table 10-7). -/
abbrev rUNPAIRED : Nat := 0
abbrev rPAIRING : Nat := 1
abbrev rREJOIN : Nat := 2
abbrev rHEADSTOCK : Nat := 3
abbrev rTAILSTOCK : Nat := 4
abbrev rHS_ALONE : Nat := 5
abbrev rCLAIMING : Nat := 6
abbrev rTS_ALONE : Nat := 7

/-- The role machine runs: EN of the TWR page and TWR_CTRL.EN (R318). -/
def State.roleRuns (s : State) : Bool := s.up.compute && s.on pTWR BLK_CTRL_EN && s.on pTWR TWR_CTRL_EN

/-- The role state; UNPAIRED while the role machine does not run (R318). -/
def State.role (s : State) : Nat := if s.roleRuns then s.get pTWR BLK_STAT_STATE else rUNPAIRED

/-- The module holds the Headstock role (R318). -/
def State.isHeadstock (s : State) : Bool := s.roleRuns && (s.role == rHEADSTOCK || s.role == rHS_ALONE)

/-- The module holds the Tailstock role (R318). -/
def State.isTailstock (s : State) : Bool := s.roleRuns && !(s.role == rHEADSTOCK || s.role == rHS_ALONE)

/-- A heartbeat has arrived within 8.5 µs (spec/10 Table 10-15). -/
def State.hbOk (s : State) : Bool := decide (s.tb.clocks ≤ s.phoask.hbAt + 4250) && s.phoask.hbLast.isSome

/-- The time base follows the twin (spec/03 R75, R77, spec/10 R318): not in CLAIMING, and not while the time words that come with
the heartbeats are lost (DEDUCED: while TWR_STAT.HB_OK reads 0). -/
def State.followsTwinTime (s : State) : Bool :=
  s.isTailstock && s.role != rCLAIMING && s.on pTMB TMB_CTRL_TWIN_FOLLOW && s.hbOk

/-- The plate follows the Headstock's in the Tailstock role (spec/03 R93), in CLAIMING too, where it runs without announcements
(spec/10 R318). -/
def State.followsTwinPlate (s : State) : Bool := s.isTailstock && s.on pIXP IXP_CTRL_TWIN_FOLLOW

/-- The time base and the plate run in RUN, PARTIAL, DEGRADED, SERVICE and SHUTDOWN (spec/03 R66, R81). -/
def State.timeRuns (s : State) : Bool :=
  s.up.compute && [mRUN, mPARTIAL, mDEGRADED, mSERVICE, mSHUTDOWN].contains s.mode

/-! The sleep vote as the SLP page shows it (spec/18 R522, R531). -/

def State.nodeIn (s : State) (n : Nat) : Bool := s.on pSLP (SLP_NODE_CFG_ENROLLED n)

/-- The enrolled nodes. -/
def State.nodes (s : State) : List Nat := (List.range 64).filter fun n => s.nodeIn n

/-- A node is ready (R522): its last vote is SLEEP, it is SILENT, or its feed has been switched off. A SLEEP vote that reaches
the age VOTE_TMO makes the node SILENT. -/
def State.nodeReady (s : State) (n : Nat) : Bool :=
  s.get pSLP (SLP_NODE_STAT_KIND n) == 2 || s.on pSLP (SLP_NODE_STAT_SILENT n) || s.on pSLP (SLP_NODE_STAT_FEED_OFF n)

/-- The module coordinates (R523). -/
def State.coord (s : State) : Bool :=
  if s.on pSLP SLP_CTRL_COORD_HS then s.isHeadstock else s.on pSLP SLP_CTRL_COORD

/-- Seconds for which a node's AWAKE vote has been timed. -/
def State.awakeS (s : State) (n : Nat) : Nat :=
  match s.slp.awake.find? fun x => x.node == n with
  | none => 0
  | some x => min ((x.acc + (match x.since with | some c => s.tb.clocks - c | none => 0)) / 500000000) 0xFFFF

/-- Nodes whose state has a bit, as a mask of 32 from node 32 h. -/
def State.nodeMask (s : State) (h : Nat) (f : Nat → Fld) : Nat :=
  maskOf ((List.range 32).filter fun j => s.nodeIn (32 * h + j) && s.on pSLP (f (32 * h + j)))

/-- A word of the log entry at a position (spec/19 Table 19-9). -/
def LogEntry.word (e : LogEntry) (w : Nat) : Nat :=
  if w = 0 then e.code + 0x10000 * e.count + 0x1000000 * e.injected.toNat + 0x2000000 * e.replaced.toNat
  else if w = 1 then e.srcTy + 0x10000 * e.srcInst
  else if w = 2 then e.locator
  else if w = 4 then e.sec
  else if w = 5 then e.ns
  else if w = 6 then e.lastNs
  else 0

/-- The highest erase count of both NOR dies. -/
def State.maxWear (s : State) : Nat := s.norWear.foldl (fun m e => max m e.2) 0

/-- Registers that are computed. -/
def State.modeReg (s : State) (ty p off : Nat) : Option Nat :=
  let v := (s.rd p off).toNat
  if ty = 0xC007 then
    (if off = SLP_CTRL then some (putBits v 2 1 s.coord.toNat)
     else if off = SLP_ROUND then
       some (putBits (putBits v 16 8 (s.nodes.filter fun n => s.nodeReady n).length) 24 8 s.nodes.length)
     else if off = SLP_OVERDUE 0 ∨ off = SLP_OVERDUE 1 then some (s.nodeMask ((off - SLP_OVERDUE 0) / 4) SLP_NODE_STAT_OVERDUE)
     else if off = SLP_SILENT 0 ∨ off = SLP_SILENT 1 then some (s.nodeMask ((off - SLP_SILENT 0) / 4) SLP_NODE_STAT_SILENT)
     else if off = SLP_FWK_DIS_LO then some (s.disarmed % 2 ^ 32)
     else if off = SLP_FWK_DIS_HI then some (s.disarmed / 2 ^ 32 % 2 ^ 16)
     else if off = SLP_SERVICE then
       some (putBits v 16 8 (if s.mode = mSERVICE then (s.slp.serviceEnd - s.tb.clocks + 29999999999) / 30000000000 else 0))
     else if SLP_NODE_STAT 0 ≤ off ∧ off < SLP_NODE_CFG 64 ∧ off % 8 = 4 then
       some (putBits v 16 16 (s.awakeS ((off - SLP_NODE_STAT 0) / 8)))
     else none)
  else if ty = 0xD002 then
    (if off = LOG_STAT then some (putBits v 0 7 s.health.log.length)
     else if off = LOG_TAKE then some (match s.health.log with | e :: _ => e.word 0 | [] => 0)
     else if LOG_E 0 ≤ off ∧ off < LOG_E 512 then
       some (match s.health.log[(off - LOG_E 0) / 32]? with | some e => e.word ((off - LOG_E 0) / 4 % 8) | none => 0)
     else none)
  else if ty = 0xC001 ∧ off = CLK_AC_DIV then (if s.hz9620 then none else some s.clk.div)
  else if ty = 0xC006 ∧ off = VFS_VOUT then some s.clk.rail
  else if ty = 0xD005 ∧ off = AGM_NOR then some (min s.maxWear 0xFFFFF)
  else none

end Sys2Proof.Machine
end

