-- ==== Sys2Proof/Machine/Loads.lean ====
section
/-!
DEFINITION. Load channels as registers show them: classes and groups (spec/07 R227, R228), limits in force (R244, R247,
R255), state codes and status words (Tables 07-3, 07-9, 07-11, spec/08 Table 08-11).
-/

namespace Sys2Proof.Machine

/-- Clocks of 2 ns in a microsecond. -/
abbrev clocksPerUs : Nat := 500

/-- A channel. -/
def State.chan (s : State) (d i : Nat) : ChanState := nth s.chans (16 * d + i) (ChanState.init i)

def State.modChan (s : State) (d i : Nat) (f : ChanState → ChanState) : State :=
  { s with chans := modNth s.chans (16 * d + i) f }

/-- A power die. -/
def State.die (s : State) (d : Nat) : DieState := nth s.dies d DieState.init

def State.modDie (s : State) (d : Nat) (f : DieState → DieState) : State := { s with dies := modNth s.dies d f }

/-- The die is powered and out of reset. -/
def State.dieOn (s : State) (d : Nat) : Bool := nth s.up.die d false

/-- The channels that a die has (R2: die B of the HZ9620 has none). -/
def State.chanIxs (s : State) (d : Nat) : List Nat := if s.hz9620 && d == 1 then [] else List.range 16

def State.hasChan (s : State) (d : Nat) : Bool := s.dieOn d && !(s.hz9620 && d == 1)

/-- Supply group of a die-local index (Table 07-2). -/
def groupOf (i : Nat) : Nat := bitsOf 0xA50A9424 (2 * i) 2

/-- Class nominal current in µA (Table 07-1). -/
def nominalUa (i : Nat) : Nat := Config.byClass i 20000000 8000000 2000000

/-- I_CONT in µA and τ in µs of a wire profile (Table 07-7). -/
def wireProfile (w : Nat) : Nat × Nat :=
  let r := [(6, 4), (8, 6), (10, 9), (13, 12), (16, 18), (22, 28), (30, 42), (38, 60)].getD w (6, 4)
  (r.1 * 1000000, r.2 * 1000000)

/-- I_CONT and τ in force for a channel, µA and µs (R244, Table 07-9). -/
def State.wire (s : State) (d i : Nat) : Nat × Nat :=
  let p := pLSW d i
  if s.get p LSW_I2T_WIRE = 8 then (s.get p LSW_I2T_ICONT * 250000, s.get p LSW_I2T_TAU * 10000)
  else wireProfile (s.get p LSW_I2T_WIRE)

/-- 4,096 less the honing block of a channel (R247). -/
def State.honed (s : State) (d i : Nat) : Nat := 4096 - s.get (pLSW d i) AGE_TRIM_BLOCK

/-- I_C before honing, µA: the smaller of I_CONT and 1.2 times nominal (R244). -/
def State.iContUa (s : State) (d i : Nat) : Nat := min (s.wire d i).1 (nominalUa i * 12 / 10)

/-- I_C² in µA², times 4,096² (R244, R247). -/
def State.icSq (s : State) (d i : Nat) : Nat := (s.iContUa d i * s.honed d i) ^ 2

/-- X / I_C² × 4,096, saturating (R244). -/
def State.loadCode (s : State) (d i : Nat) : Nat :=
  if s.icSq d i = 0 then 0xFFFF else min ((s.chan d i).x * 4096 ^ 3 / s.icSq d i) 0xFFFF

/-- The clamp BUDGET in force, in 2^-32 µJ (R247). -/
def State.budget (s : State) (d i : Nat) : Nat := s.get (pLSW d i) LSW_CLAMP_BUDGET * 1000 * 2 ^ 32 * s.honed d i / 4096

/-- The channel state code that a channel shows (Table 07-3, spec/08 R268, R274). -/
def State.chanCode (s : State) (d i : Nat) : Nat :=
  let c := s.chan d i
  if c.limp then 8 else if c.st = 3 ∧ (s.die d).st ≠ 0 then 7 else c.st

/-- The switch conducts: it is on, or a turn-off's current flows still. -/
def ChanState.conducts (c : ChanState) : Bool := c.st == 2 || c.st == 3 || c.st == 4 || c.st == 5

/-- LSW_STAT (Table 07-9; spec/08 R274: ON reads 1 while a channel in LIMP conducts). -/
def State.lswStat (s : State) (d i : Nat) : Nat :=
  let c := s.chan d i
  let code := s.chanCode d i
  let on := code == 2 || code == 3 || (c.limp && c.conducts)
  let regulating := c.st == 2 && (match c.win with | some w => w.prof == 2 | none => false)
  on.toNat + 2 * (code == 6).toNat + 4 * c.lock.toNat + 8 * c.rev.toNat + 16 * c.openLoad.toNat + 32 * c.shortBat.toNat
    + 64 * regulating.toNat + 256 * (c.cause % 16) + 0x10000 * min c.waited 0xFFFF

/-- Booking that a window holds, mA (Table 07-5). -/
def Window.booking (w : Window) : Nat := if w.prof = 1 ∧ w.stepped then w.peak / 2 else w.peak

def ChanState.booking (c : ChanState) : Nat := match c.win with | some w => w.booking | none => 0

/-- The booking held in group g of a die, mA (R238, R241). -/
def State.groupBook (s : State) (d g : Nat) : Nat :=
  (s.chanIxs d).foldl (fun n i => if groupOf i = g then n + (s.chan d i).booking else n) (nth (s.die d).faultBook g 0)

/-- The booking held on a die, mA. -/
def State.dieBook (s : State) (d : Nat) : Nat := s.groupBook d 0 + s.groupBook d 1 + s.groupBook d 2

/-- Channels of a group in WAIT. -/
def State.groupWaiting (s : State) (d g : Nat) : Nat :=
  ((s.chanIxs d).filter fun i => groupOf i == g && (s.chan d i).st == 1).length

/-- HOLD_TIME in force, ms: 0 while the die's oscillator is judged faulty (spec/17 R490). -/
def State.holdMs (s : State) (d : Nat) : Nat := if (s.die d).rcFault then 0 else s.get (pPDC d) PDC_HOLD_HOLD_TIME

/-- Hold time left, ms, begun ones counted (Table 08-11). -/
def State.holdLeft (s : State) (d : Nat) : Nat :=
  if (s.die d).st = 1 then
    ((s.die d).holdAt + s.holdMs d * 500000 - s.tb.clocks + 499999) / 500000
  else 0

/-- An ALIVE frame has arrived within 8.0 µs. -/
def State.aliveOk (s : State) : Bool := decide (s.tb.clocks ≤ s.phoask.aliveAt + 4000) && decide (0 < s.phoask.aliveAt)

/-- Registers of the bridge and twin pages that are computed. -/
def State.twinReg (s : State) (ty p off : Nat) : Option Nat :=
  if ty = 0x7003 ∧ off = TWR_STAT then
    let v := putBits (s.rd p off).toNat 2 1 s.claim.toNat
    some (putBits (putBits v 3 1 s.hbOk.toNat) 4 1 s.aliveOk.toNat)
  else s.modeReg ty p off

/-- Registers of LSW and PDC pages whose value is computed from the channels and the die. -/
def State.loadReg (s : State) (ty p off : Nat) : Option Nat :=
  if ty = 0x4001 ∨ ty = 0x5001 then
    (let d := if ty = 0x5001 then 1 else 0
     let i := instOf p
     if off = LSW_STAT then some (s.lswStat d i)
     else if off = LSW_I2T_STAT then some (s.loadCode d i)
     else if off = LSW_CLAMP_ACC then some (min ((s.chan d i).acc / 2 ^ 32) 0xFFFFFF)
     else none)
  else if ty = 0x4002 ∨ ty = 0x5002 then
    (let d := if ty = 0x5002 then 1 else 0
     let z := s.die d
     if off = PDC_HOLD_IMG then some (putBits (s.rd p off).toNat 16 9 (s.holdLeft d))
     else if off = PDC_BN_STAT then
       some ((z.uv != 0).toNat + 2 * (z.ov != 0).toNat + 4 * z.pgnd.toNat + 8 * z.lgnd.toNat)
     else if off = PDC_SNS then some (putBits (s.rd p off).toNat 8 4 (nth s.selLands d 0))
     else if off = GRP_STAT 0 ∨ off = GRP_STAT 1 ∨ off = GRP_STAT 2 then
       (let g := (off - GRP_STAT 0) / 8
        some (putBits (putBits (s.rd p off).toNat 0 10 (min (s.groupBook d g / 500) 1023)) 12 4 (min (s.groupWaiting d g) 15)))
     else none)
  else s.twinReg ty p off

/-- BLK_STAT.STATE of an LSW or PDC page. -/
def State.loadState (s : State) (ty p : Nat) : Option Nat :=
  if ty = 0x4001 then some (s.chanCode 0 (instOf p))
  else if ty = 0x5001 then some (s.chanCode 1 (instOf p))
  else if ty = 0x4002 then some (s.die 0).st
  else if ty = 0x5002 then some (s.die 1).st
  else none

end Sys2Proof.Machine
end

