-- ==== Sys2Proof/Machine/Access.lean ====
section
/-!
DEFINITION. Register accesses: which are allowed (spec/02 R32-R41, R49, R50, R61, R62, spec/13 R396, R408, R411), the
fields a write sets (R34, R603), what a read returns, and how a refused access is answered and recorded.
-/

namespace Sys2Proof.Machine

/-- The world attribute of a level's transactions, encoded as OWNER.WORLD (spec/13 Table 13-1). -/
def lvWorld : Level → Nat
  | .monitor => 0
  | .secure => 0
  | .hypervisor => 1
  | .vm _ => 2

/-- The level whose transactions carry a world attribute and VM, without the monitor flag. -/
def levelFor (world vmNo : Nat) : Level :=
  if world = 0 then .secure else if world = 1 then .hypervisor else .vm (Fin.ofNat 16 vmNo)

def lvVm : Level → Nat
  | .vm v => v.val
  | _ => 0

def lvMonitor : Level → Bool
  | .monitor => true
  | _ => false

/-- R39: the owner's world and VM decide. -/
def ownerAllows (lv : Level) (world vmNo : Nat) : Bool :=
  match lv with
  | .monitor => true
  | .secure => world == 0
  | .hypervisor => world == 1 || world == 2
  | .vm v => world == 2 && vmNo == v.val

def State.owns (s : State) (lv : Level) (p : Nat) : Bool :=
  ownerAllows lv (s.get p OWNER_WORLD) (s.get p OWNER_VM)

/-- The die or domain that holds the page is powered and out of reset. -/
def State.pageUp (s : State) (p : Nat) : Bool :=
  match pageOf p with
  | none => false
  | some r =>
    s.up.compute &&
    (match bridgeDie r.ty with
     | some d => nth s.up.die d false && s.on (pDBR d) BR_STAT_UP
     | none => true) &&
    (match domainOf r.ty r.inst with
     | some d => s.on pPWR (PWR_DOM_ON d)
     | none => true)

/-- The power die of an F or S port (Table 04-1). -/
def phyDie (p : Nat) : Option Nat :=
  if 15 ≤ p ∧ p ≤ 20 then some 0
  else if 21 ≤ p ∧ p ≤ 26 then some 1
  else if 27 ≤ p ∧ p ≤ 28 then some 0
  else if 29 ≤ p ∧ p ≤ 30 then some 1
  else none

/-- Power die d answers over its bridge. -/
def State.dieUp (s : State) (d : Nat) : Bool := s.up.compute && nth s.up.die d false && s.on (pDBR d) BR_STAT_UP

/-- The PHYs of a power die are gone. -/
def State.restLost (s : State) (d : Nat) : State :=
  s.each ((List.range 31).filter fun p => phyDie p == some d) fun s p => (s.wrn (pPORT p) PORT_STAT 0).wrn (pPORT p) PORT_PHY_STAT 0

/-- A force-off is in effect: POLICY = 0b10 and nothing left to drain (R48). -/
def State.forcedOff (s : State) (p : Nat) : Bool :=
  s.get p CLK_REQ_POLICY == 2 && !(s.shell.draining.any fun e => e.1 == p)

/-- BLK_STAT.CLK_ON: the block clock runs (R48, R49, spec/17 R496). -/
def State.clkOn (s : State) (p : Nat) : Bool :=
  s.pageUp p && !s.forcedOff p && !s.shell.idle.contains p

/-- The clock domain of a block behind a crossing (spec/17 Table 17-6); none in the mesh domain, where the header shells are. -/
def clockDomainOf (ty inst : Nat) : Option ClockDomain :=
  if ty = 0x0004 then some (if inst < 8 then .CL else if inst < 12 then .RT else .SEC)
  else if ty = 0x3002 then some .PE
  else if [0x1001, 0x1002, 0x1003, 0x1004, 0x1005, 0x1006, 0x2001, 0x2002, 0x2003].contains ty then some .SW
  else if ty = 0x3003 ∨ ty = 0x3004 then some .BUS
  else if ty = 0xA003 then some .NOR
  else if ty = 0xA001 ∨ ty = 0xA002 then some .DDR
  else if ty = 0xE001 ∨ ty = 0xE002 ∨ ty = 0xE003 then some .TB
  else if 0xB001 ≤ ty ∧ ty ≤ 0xB006 then some .SEC
  else if ty = 0xC003 ∨ ty = 0xC004 then some .AOC
  else none

/-- The page's crossing is in reset (spec/17 R494). -/
def State.crossReset (s : State) (p : Nat) : Bool :=
  match clockDomainOf (tyOf p) (instOf p) with
  | some d => s.shell.crossed.contains d
  | none => false

/-- BLK_STAT.READY: out of reset, powered and clocked (Table 02-4); 0 while a soft reset runs (R42). A clock that automatic
gating has stopped restarts for the access (spec/17 R496). -/
def State.ready (s : State) (p : Nat) : Bool :=
  s.pageUp p && !s.forcedOff p && !s.on p BLK_CTRL_SOFT_RST && !s.crossReset p

/-- A page that this variant does not have (R62). -/
def State.absent (s : State) (p : Nat) : Bool := s.hz9620 && absentOn9620 (tyOf p) (instOf p)

/-- Fields of a page that show work under way. -/
def busyFields (ty : Nat) : List Fld :=
  (match ty with
   | 0x1002 => [TA_CMD_BUSY]
   | 0x1003 => [TA_CMD_BUSY]
   | 0x1004 => [TA_CMD_BUSY]
   | 0x2001 => [TA_CMD_BUSY]
   | 0x3001 => [TA_CMD_BUSY]
   | 0x7002 => [TBR_CMD_BUSY]
   | 0x7003 => [TWR_TWC_CMD_BUSY]
   | 0x9002 => [IOM_INV_BUSY]
   | 0x9003 => [VMC_INV_BUSY]
   | 0xA003 => [NOR_CMD_BUSY]
   | 0xA004 => [FUS_PROG_GO_BUSY]
   | 0xB001 => [SEC_STAT_BUSY]
   | 0xB004 => [ATT_CTRL_BUSY]
   | 0xB005 => [CMD_P_RES_BUSY 0, CMD_P_RES_BUSY 1]
   | 0xB003 => [CRY_CTRL_BUSY]
   | 0xC006 => [VFS_STAT_BUSY]
   | 0xD004 => [HON_STAT_BUSY]
   | _ => [])

/-- BLK_STAT.BUSY: work is under way, or an access waits to drain (Table 02-4). -/
def State.blkBusy (s : State) (p : Nat) : Bool :=
  s.on p BLK_STAT_BUSY || (s.shell.draining.any fun e => e.1 == p) || (busyFields (tyOf p)).any fun f => s.on p f

/-- What BLK_STAT reads: STATE as stored, the other bits from the state they name (Table 02-4). -/
def State.blkStat (s : State) (p : Nat) : Nat :=
  (s.ready p).toNat + 2 * (s.blkBusy p).toNat + 4 * s.get p PART_BUSY + 8 * (s.get p ERR_CAP_COUNT != 0).toNat
    + 16 * (s.clkOn p).toNat + 32 * s.get p BLK_CTRL_FREEZE + 256 * (s.loadState (tyOf p) p).getD (s.get p BLK_STAT_STATE)

/-- Bits of a word that fields of the given kinds cover. -/
def fieldMask (keep : Acc → Bool) (fs : List FieldSpec) : Nat :=
  fs.foldl (fun m f => if keep f.acc then putBits m f.lo f.len (2 ^ f.len - 1) else m) 0

/-- The field table of a header register with writable fields (Table 02-4). -/
def headerFields (ty off : Nat) : Option (List FieldSpec) :=
  if off = BLK_CTRL then some [⟨0, 1, .rw, .any⟩, ⟨1, 1, .rw, .any⟩, ⟨2, 1, if Config.freezable ty then .rw else .ro, .any⟩]
  else if off = OWNER then some [⟨0, 2, .rwl, .ranges [(0, 2)]⟩, ⟨4, 6, .rwl, .ranges [(0, 15)]⟩, ⟨31, 1, .rwl, .any⟩]
  else if off = PART_REQ then
    some [⟨0, 2, .rw, .ranges [(0, 2)]⟩, ⟨4, 6, .rw, .ranges [(0, 15)]⟩, ⟨16, 1, .wo, .any⟩, ⟨17, 1, .ro, .any⟩, ⟨18, 2, .ro, .any⟩]
  else if off = INT_RAW then some [⟨0, 32, .w1c, .any⟩]
  else if off = INT_EN then some [⟨0, 32, .rw, .any⟩]
  else if off = INT_SET then some [⟨0, 32, .wo, .any⟩]
  else if off = ERR_CAP then some [⟨0, 16, .ro, .any⟩, ⟨16, 8, .ro, .any⟩, ⟨31, 1, .wo, .any⟩]
  else if off = ERR_INJ then some [⟨0, 8, .rw, .any⟩, ⟨16, 1, .rw, .any⟩, ⟨17, 1, .w1c, .any⟩]
  else if off = CLK_REQ then some [⟨0, 2, .rw, .ranges [(0, 2)]⟩, ⟨8, 1, .w1c, .any⟩, ⟨9, 1, .ro, .any⟩]
  else if off < 0x040 then some []
  else none

/-- The fields of the register at offset off of a page of type ty; none where there is no register (R35). -/
def fieldsOf (ty off : Nat) : Option (List FieldSpec) :=
  match headerFields ty off with
  | some l => some l
  | none =>
    match findReg off (regTable ty) with
    | some (g, _) => some g.fields
    | none => none

/-- A write sets the RW and RWL fields and clears the W1C bits that are written 1; the rest stays (R34). -/
def mergeFields (old w : Nat) (fs : List FieldSpec) : Nat :=
  fs.foldl (fun m f =>
    match f.acc with
    | .rw => putBits m f.lo f.len (bitsOf w f.lo f.len)
    | .rwl => putBits m f.lo f.len (bitsOf w f.lo f.len)
    | .w1c => putBits m f.lo f.len (bitsOf old f.lo f.len &&& (2 ^ f.len - 1 - bitsOf w f.lo f.len))
    | _ => m) old

/-- Some written field gets a value it does not accept (R603). -/
def badValue (w : Nat) (fs : List FieldSpec) : Bool :=
  fs.any fun f => !f.ok.ok (bitsOf w f.lo f.len) && (f.acc == .rw || f.acc == .rwl || f.acc == .wo)

def hasRwl (fs : List FieldSpec) : Bool := fs.any fun f => f.acc == .rwl

/-- The block of a page is secure-owned: from the GO of a parting into the secure world on, and to the end of one away from it
(spec/13 R411). -/
def State.secureOwned (s : State) (p : Nat) : Bool :=
  s.get p OWNER_WORLD == 0 || (s.on p PART_BUSY && s.get p PART_NEW_WORLD == 0)

/-- The clock or power control that a normal-world write cannot change while a secure owner holds it (R50, spec/17 R501,
spec/13 R411): CLK_REQ of the page, the cluster divider, and the entry of a power domain. -/
def State.secureEntry (s : State) (p off : Nat) : Bool :=
  if off = CLK_REQ then s.secureOwned p
  else if p = pCLK ∧ off = CLK_AC_DIV then (List.range 8).any fun c => s.secureOwned (pCORE c)
  else if p = pPWR ∧ 0x100 ≤ off ∧ off < 0x128 then
    pageRows.any fun r => (List.range r.count).any fun i =>
      domainOf r.ty i == some ((off - 0x100) / 4) && s.secureOwned (r.base + 0x1000 * i)
  else false

/-- A fuse word (spec/14 Table 14-5). -/
def State.fuse (s : State) (w : Nat) : Nat := sget 0 w s.fuses

/-- The lifecycle code of fuse word 13: 0 MANUFACTURE, 1 PROVISIONED, 3 FIELD; any code with bit 2 set is RETURN, with the
canonical code 7; bit 3 is not used (Table 14-5, spec/15 R448). -/
def State.lifecycle (s : State) : Nat := if (s.fuse 13).testBit 2 then 7 else s.fuse 13 % 4

/-- LCS_STAT.TEST (spec/15 Table 15-11): in MANUFACTURE the test port is OPEN while fuse words 0-7 are not programmed (Table 15-6). -/
def State.testState (s : State) : Nat :=
  if s.lifecycle = 0 ∧ (List.range 8).all (fun w => s.fuse w == 0) then 3 else s.get pLCS LCS_STAT_TEST

/-- The level of an access (spec/13 R393, R394): a core brings its own; SC is in the secure world; the gateway engines carry
the owner of the GWC page; the debug agent carries ISO_DBG, and the monitor flag once the test port is open (spec/15 R458). -/
def State.levelOf (s : State) (a : Access) : Level :=
  if a.agent = 0x20 then .secure
  else if 0x30 ≤ a.agent ∧ a.agent < 0x34 then levelFor (s.get pGWC OWNER_WORLD) (s.get pGWC OWNER_VM)
  else if a.agent = 0x60 then
    (if s.testState = 3 then .monitor else levelFor (s.get pISO ISO_DBG_WORLD) (s.get pISO ISO_DBG_VM))
  else a.level

/-- Registers that only some instances of their page type have: FDB_FLUSH (spec/04 Table 04-9). -/
def hasReg (p off : Nat) : Bool := !(tyOf p == 0x1002 && instOf p == 1 && off == FDB_FLUSH)

/-- The common cause for which an access to offset off of page p is refused, none where it is allowed. Order: variant
(R62), reach (R61), width and alignment (R33), clock and power of a secure-owned block (R50), ownership and area (R32, R38, R39,
R47, R407), block state (R42, R49, R408), register (R35). DESIGN CHOICE: an access of the debug agent 0x60 to the area
0xF00-0xFFF must satisfy R39 too. -/
def State.accessCause (s : State) (a : Access) (p off : Nat) (write : Bool) : Option Nat :=
  if s.absent p then some 0x09
  else if (bridgeDie (tyOf p)).isSome && !s.pageUp p then some 0x08
  else if a.size ≠ 4 ∨ off % 4 ≠ 0 then some 0x03
  else if write && (lvWorld (s.levelOf a) != 0) && s.secureEntry p off then some 0x07
  else if 0xF00 ≤ off && !(lvMonitor (s.levelOf a) || a.agent == 0x60) then some 0x01
  else if write && (off == OWNER || off == PART_REQ || off == ERR_INJ) && !lvMonitor (s.levelOf a) then some 0x01
  else if !(s.owns (s.levelOf a) p) && !(off < 0x008 && !write) then some 0x01
  else if 0x040 ≤ off && !s.ready p then some 0x08
  else if write && s.on p PART_BUSY && (off == CLK_REQ || off == OWNER || off == BLK_CTRL) then some 0x08
  else if 0x040 ≤ off && s.on p PART_BUSY && !lvMonitor (s.levelOf a) then some 0x08
  else if (fieldsOf (tyOf p) off).isNone || !hasReg p off then some 0x04
  else none

/-- The page that keeps the record of a refused access: the page itself; the SYS page for a page that is absent (R62,
DEDUCED), the die-bridge page for one behind a bridge that is down (R61). -/
def State.recordPage (s : State) (p cause : Nat) : Nat :=
  if s.absent p then pSYS
  else if cause = 0x08 then
    match bridgeDie (tyOf p) with
    | some d => if s.pageUp p then p else pDBR d
    | none => p
  else p

/-- A refused access: no effect but the record, the code and the error response (R39, R45); a write refused under R50 is
counted (spec/17 R501). -/
def State.refuse (s : State) (p off cause : Nat) : State :=
  let s1 := s.errCause (s.recordPage p cause) cause (p + off)
  let s2 := if cause = 0x07 then
      (if p = pPWR then s1.cnt pPWR PWR_CNT_SECREF_CNT else s1.cnt pCLK CLK_CNT_SECREF_CNT) else s1
  s2.refused

/-! Posted writes over the die bridges (spec/10 R308, R310). -/

/-- The page of bridge b: 0 die A, 1 die B, 2 twin. -/
def pBR (b : Nat) : Nat := if b < 2 then pDBR b else pTBR

/-- A code of a bridge: subsystem 0x0 on DBR pages, 0x7 on TBR (spec/10 R337). -/
def State.brErr (s : State) (b dbr tbr loc : Nat) : State := s.err (pBR b) (if b < 2 then dbr else tbr) loc

/-- A posted write that failed (spec/10 R310). -/
def State.postedError (s : State) (b status addr : Nat) : State :=
  let p := pBR b
  let s1 := if (s.rd p BR_CNT_PERR).toNat = 0 then
      ((s.wrn p BR_PERR_ADDR (addr % 2 ^ 32)).set p BR_PERR_INFO_ADDR_HI (addr / 2 ^ 32)).set p BR_PERR_INFO_CAUSE status
    else s
  s1.cnt p BR_CNT_PERR_V

/-- The address lies in an enabled bulk window of a bridge page (spec/10 R308). -/
def State.inBulk (s : State) (b addr : Nat) : Bool :=
  (List.range 8).any fun w =>
    let p := pBR b
    let base := s.get p (BULK_BASE_LO_ADDR w) * 0x1000 + s.get p (BULK_BASE_HI_ADDR w) * 2 ^ 32
    decide (base ≤ addr) && decide (addr < base + s.get p (BULK_SIZE_PAGES w) * 0x1000)

/-- The power die that a write goes to as a posted write: its bridge is up and the address lies in a bulk window of the bridge
page (spec/10 R308). -/
def State.postedTo (s : State) (p addr : Nat) : Option Nat :=
  match bridgeDie (tyOf p) with
  | some d => if s.pageUp p && s.inBulk d addr then some d else none
  | none => none

/-- A refused write. A posted one is refused on the power die: the requester has been answered OK, and the error comes back to
the bridge page as a notice (spec/10 R310). -/
def State.refuseWrite (s : State) (p off cause : Nat) : State :=
  let s1 := s.refuse p off cause
  match s.postedTo p (p + off) with
  | some d => (((s1.postedError d cause (p + off)).irq (pBR d) INT_BR_PERR).brErr d 0x0232 0x7219 (p + off)).ok
  | none => s1

/-- Page types with the access window of Table 04-9. -/
def windowTy (ty : Nat) : Bool := [0x1002, 0x1003, 0x1004, 0x2001, 0x3001].contains ty

/-- TA_COUNT: the valid entries of a table (Table 04-9), without those treated as not valid (spec/04 R148); every entry of a table
whose entries carry no valid mark. -/
def State.validCount (s : State) (d : TabDesc) : Nat :=
  match d.valid with
  | none => d.size - (s.badEntries.filter fun e => e / 0x100000 == d.id).length
  | some (w, lo, len) =>
    (s.tabs.filter fun e =>
      decide (e.1 / 16 / 0x100000 = d.id) && decide (e.1 % 16 = w) && bitsOf e.2.toNat lo len != 0
        && !s.badEntries.contains (e.1 / 16)).length

def State.taCount (s : State) (p : Nat) : Nat :=
  match tabOf (tyOf p) (instOf p) (s.get p TA_CMD_TBL) with
  | some d => s.validCount d
  | none => 0

/-- What the window registers of a CXC page read: the selected object's (spec/06 R199, Table 06-8); data beyond CAP reads
0. -/
def State.canShow (s : State) (p off : Nat) : Option Nat :=
  let n := instOf p
  let o := s.get p CX_WIN_SEL_OBJ
  if off = CX_OBJ_REL then some (o + 256 * s.get p (OBJ_CTRL_NEW o) + 512 * s.get p (OBJ_CTRL_LOST o))
  else if off = CX_WIN_XL then some (s.tget (tCANMETA n) o 0)
  else if off = CX_WIN_AF then some (s.tget (tCANMETA n) o 1)
  else if off = CX_WIN_TS_S then some (s.tget (tCANMETA n) o 2)
  else if off = CX_WIN_TS_NS then some (s.tget (tCANMETA n) o 3)
  else if CX_DATA 0 ≤ off ∧ off < CX_DATA 0 + 2048 then
    (let w := (off - CX_DATA 0) / 4
     let cap := [8, 64, 256, 2048].getD (s.get p (OBJ_CTRL_CAP o)) 8
     some (if 4 * w < cap then s.tget (tCANDATA n) (o * 32 + w / 16) (w % 16) else 0))
  else none

/-! Cores, agents and lines as registers show them. -/

/-- The agent identifier of a core by its CORE page index (spec/12 Table 12-2). -/
def coreAgent (c : Nat) : Nat := if c < 8 then c else if c < 12 then 0x10 + (c - 8) else 0x20

/-- The core of an agent identifier. -/
def agentCore (g : Nat) : Option Nat :=
  if g < 8 then some g
  else if 0x10 ≤ g ∧ g < 0x14 then some (g - 0x10 + 8)
  else if g = 0x20 then some 12
  else none

/-- The pair of a core (spec/11 Table 11-1). -/
def pairOf (c : Nat) : Option Nat := if c < 8 then some (c / 2) else if c < 12 then some (4 + (c - 8) / 2) else none

/-- The core belongs to a pair that runs compared since the last release (spec/11 R339, CALC_ACT). -/
def State.inPair (s : State) (c : Nat) : Bool :=
  match pairOf c with
  | some k => (s.rd pCALC CALC_ACT).toNat.testBit k && !(s.hz9620 && (k == 2 || k == 3))
  | none => false

/-- The trailing core of a compared pair (R338). -/
def State.trailing (s : State) (c : Nat) : Bool := s.inPair c && c % 2 == 1

/-- A receiver is out of reset (spec/12 R384): a core that runs, SC with the compute die, an engine with its domain. -/
def State.agentUp (s : State) (g : Nat) : Bool :=
  match agentCore g with
  | some 12 => s.up.compute
  | some c => s.on (pCORE c) CORE_STAT_RUNNING
  | none => decide (0x30 ≤ g ∧ g < 0x34) && s.pageUp (pPEG (g - 0x30))

/-- A channel is open (R382). -/
def channelOpen (rx : Nat) : Bool := (agentCore rx).isSome || decide (0x30 ≤ rx ∧ rx < 0x34)

/-- Some core waits for space in a channel (R389). -/
def State.spaceWaited (s : State) (ch : Nat) : Bool := s.cores.any fun c => c.waitFor == ch

def findLinePage (l : Nat) : List PageRow → Option Nat
  | [] => none
  | r :: rs => if r.irq ≤ l ∧ l < r.irq + r.count then some (r.base + 0x1000 * (l - r.irq)) else findLinePage l rs

/-- The page whose line is l (R59). -/
def linePage (l : Nat) : Option Nat := if l < 270 then findLinePage l pageRows else none

/-- A line's world attribute is software's to set (spec/02 R64, spec/12 Table 12-8). -/
def lineWorldRw (l : Nat) : Bool := decide (l < 32) || decide (398 ≤ l ∧ l < 414) || decide (480 ≤ l)

/-- The world attribute of a line (R64). -/
def State.lineWorld (s : State) (l : Nat) : Nat :=
  if lineWorldRw l then s.get pINTC (LINE_WORLD l)
  else if 270 ≤ l ∧ l < 398 then s.get (pHIN ((l - 270) / 8)) OWNER_WORLD
  else
    match linePage l with
    | some p => s.get p OWNER_WORLD
    | none => 0

/-- A line is asserted (R44, R63, spec/03 R95, spec/05 R186, spec/12 R380, spec/13 R397); a core-local line, for some core. -/
def State.lineAsserted (s : State) (l : Nat) : Bool :=
  if l < 32 then s.cores.any fun c => c.localLines.contains l
  else if l < 270 then (match linePage l with | some p => s.lineOf p && !s.absent p | none => false)
  else if l < 398 then
    (let p := pHIN ((l - 270) / 8)
     s.on p (RING_STAT_IRQ ((l - 270) % 8)) && !s.on p PART_BUSY)
  else if l < 414 then s.on pIXP (IX_EVT_PEND (l - 398))
  else decide (480 ≤ l) && s.swLines.contains l

/-- CRC-32 of the active table: IXP_ACT then ACT_EDGE_0 to ACT_EDGE_63, most significant byte first (R93). -/
def State.tableCrc (s : State) : Nat :=
  crc32 (bytesBE 4 (s.rd pIXP IXP_ACT).toNat
    ++ ((List.range 64).map fun k => bytesBE 4 (s.rd pIXP (ACT_EDGE k)).toNat).flatten)

/-- Mismatches of a pair in the window of RETRY_WIN × 10 ms that ends now (spec/11 R358, Table 11-12). -/
def State.mismWindow (s : State) (p : Nat) : Nat :=
  match s.cal[instOf p]? with
  | some x => min (x.recent.filter fun c => decide (s.tb.clocks < c + s.get p CAL_CTRL_RETRY_WIN * 5000000)).length 255
  | none => 0

/-- Registers whose value is computed from other state. -/
def State.computedReg (s : State) (ty p off : Nat) : Option Nat :=
  if ty = 0x0001 then
    (if off = SYS_VARIANT then some (s.fuse 12 % 2 ^ 16) else none)
  else if ty = 0x0002 then
    (if LINE 0 ≤ off ∧ off < LINE 512 then
      (let l := (off - LINE 0) / 4
       some (putBits (s.rd p off).toNat 12 2 (s.lineWorld l)))
     else if INTC_PEND 0 ≤ off ∧ off < INTC_PEND 16 then
      (let w := (off - INTC_PEND 0) / 4
       some (maskOf ((List.range 32).filter fun i => s.lineAsserted (32 * w + i))))
     else none)
  else if ty = 0x0004 then
    (if off = CORE_STAT then
      (let c := instOf p
       some ((s.rd p off).toNat % 4 + 4 * (s.inPair c).toNat + 8 * (s.trailing c).toNat))
     else none)
  else if ty = 0x0005 then
    (if off = MBX_FULL then some (maskOf ((List.range 32).filter fun i => s.on (pMBC i) MB_STAT_FULL))
     else if off = MBX_CROSS then some (maskOf ((List.range 32).filter fun i => s.on (pMBC i) MB_STAT_CROSS))
     else none)
  else if ty = 0x0006 then
    (if off = MB_STAT then
      (let rx := s.get p MB_CFG_RX_AGENT
       let v := (s.rd p off).toNat
       some (putBits (putBits v 1 1 (s.spaceWaited (instOf p)).toNat) 3 1 (channelOpen rx && !s.agentUp rx).toNat))
     else if off = MB_TAKE then
      (if s.on p MB_STAT_FULL then
        some (s.get p MB_STAMP_V + 0x10000 * s.get p MB_STAT_LEN + 0x80000000)
       else some 0)
     else none)
  else if ty = 0xA001 then
    (if (off = DMC_USE_SPILL ∨ off = DMC_USE_HOST ∨ off = DMC_USE_OTHER) ∧ !s.frozen p then some (Config.dramUse off s.tb.clocks).toNat
     else none)
  else if ty = 0xA003 then
    (if off = NOR_STAT then some (putBits (s.rd p off).toNat 2 1 (s.lifecycle != 0).toNat) else none)
  else if ty = 0xA004 then
    (if off = FUS_STAT then some (putBits (s.rd p off).toNat 8 4 (s.fuse 13 % 16))
     else if FUSE 0 ≤ off ∧ off < FUSE 512 then
      (let w := (off - FUSE 0) / 4
       some (if w < 8 then 0 else s.fuse w))
     else none)
  else if ty = 0xB001 then
    (if SEC_ID 0 ≤ off ∧ off < SEC_ID 4 then some (s.fuse (8 + (off - SEC_ID 0) / 4)) else none)
  else if ty = 0xB006 then
    (if off = LCS_STAT then some (putBits (putBits (s.rd p off).toNat 0 4 s.lifecycle) 8 2 s.testState) else none)
  else if ty = 0x9003 then
    (if off = VMC_STAT then
      some (maskOf ((List.range 12).filter fun c =>
        match s.cores[c]? with
        | some k => s.on (pCORE c) CORE_STAT_RUNNING && k.latch && k.vmReg == instOf p
        | none => false))
     else none)
  else if ty = 0xE003 ∧ off = IXP_TBL_CRC then some s.tableCrc
  else if ty = 0x8002 then
    (if off = CAL_CNT_MISM ∧ !s.frozen p then some (putBits (s.rd p off).toNat 16 8 (s.mismWindow p)) else none)
  else if ty = 0x8001 then
    (if s.hz9620 && (off == CALC_MODE || off == CALC_ACT) then some ((s.rd p off).toNat &&& 0x33) else none)
  else s.loadReg ty p off

/-- What a register reads: the stored fields, computed registers, 0 for write-only and reserved bits (R34, R35). -/
def State.readReg (s : State) (p off : Nat) : Nat :=
  let ty := tyOf p
  if off = BLK_ID then ty * 0x10000 + instOf p * 0x100 + 0xB0
  else if off = BLK_CAP then capWord ty (match pageOf p with | some r => r.irq | none => 0)
  else if off = BLK_STAT then s.blkStat p
  else if off = INT_PEND then (s.intPend p).toNat
  else if off = CLK_REQ then putBits (s.rd p CLK_REQ).toNat 9 1 (s.clkOn p).toNat
  else if off = AGE_TRIM then (s.rd p AGE_TRIM).toNat
  else if off = ERR_ADDR then (s.rd p ERR_ADDR).toNat
  else if windowTy ty && off == TA_COUNT then s.taCount p
  else
    match (if ty = 0x3003 then s.canShow p off else s.computedReg ty p off) with
    | some v => v
    | none =>
      match fieldsOf ty off with
      | some fs => (s.rd p off).toNat &&& fieldMask (fun a => a != .wo) fs
      | none => 0

/-- A write's plain effect on the register: its fields merged. -/
def State.plain (s : State) (p off : Nat) (v : Word) : State :=
  match fieldsOf (tyOf p) off with
  | some fs => s.wrn p off (mergeFields (s.rd p off).toNat v.toNat fs)
  | none => s

/-- The cause for which the value of an allowed write is refused: a locked RWL field (R34, R40), a value that is not valid
(R603, R41), a force-off of an ungated page (spec/17 R497). -/
def State.valueCause (s : State) (p off : Nat) (v : Word) : Option Nat :=
  match fieldsOf (tyOf p) off with
  | none => some 0x04
  | some fs =>
    if s.on p OWNER_LOCK && hasRwl fs then some 0x02
    else if badValue v.toNat fs then some 0x0B
    else if off = OWNER ∧ bitsOf v.toNat 0 2 = 2 ∧ noVmOwnerTy (tyOf p) then some 0x0B
    else if off = CLK_REQ ∧ bitsOf v.toNat 0 2 = 2 ∧ ungatedTy (tyOf p) then some 0x0B
    else none

/-- The write of a register: refused with the first cause that applies, else its effect. `pre` gives the cause a rule of the
register adds, `eff` the effect (the plain one is `State.plain`). With the compute die in reset there is nobody to
answer: the access ends with an error and nothing else. -/
def State.regWrite (s : State) (a : Access) (p off : Nat) (v : Word) (pre : State → Option Nat)
    (eff : State → State) : State :=
  if !s.up.compute then s.refused
  else
    match s.accessCause a p off true with
    | some c => s.refuseWrite p off c
    | none =>
      match s.valueCause p off v with
      | some c => s.refuseWrite p off c
      | none =>
        match pre s with
        | some c => s.refuseWrite p off c
        | none => eff s.ok

/-- A register that shows nothing to this agent: LCS_EXP to any but SC, and outside MANUFACTURE (spec/15 R449). -/
def State.hidden (s : State) (a : Access) (p off : Nat) : Bool :=
  p == pLCS && decide (LCS_EXP 0 ≤ off) && decide (off < LCS_EXP 24) && (a.agent != 0x20 || s.lifecycle != 0)

/-- The read of a register with a side effect `eff` on the state (identity for all but RS fields). -/
def State.regRead (s : State) (a : Access) (p off : Nat) (eff : State → State) : State :=
  if !s.up.compute then s.refused
  else
    match s.accessCause a p off false with
    | some c => s.refuse p off c
    | none => (eff s).ok (if s.hidden a p off then 0 else s.readReg p off)

/-- No further cause for refusal. -/
def noCause (_ : State) : Option Nat := none

end Sys2Proof.Machine
end

