-- ==== Sys2Proof/Machine/Nor.lean ====
section
/-!
DEFINITION. The NOR dies as memory (spec/14 R429-R432): programs and erases as they act on the bytes, erase counts, and what a
read of a die that runs a command waits for.
-/

namespace Sys2Proof.Machine

abbrev norBase (die : Nat) : Nat := 0x40000000 + die * 0x8000000

/-- Length of what a NOR operation touches. -/
def norSpan (op len : Nat) : Nat := if op = 1 then len + 1 else if op = 2 then 0x1000 else 0x10000

/-- A program can only clear bits. -/
def programBytes (old new : List Nat) : List Nat := (old.zip new).map fun e => e.1 &&& e.2

/-- The bytes that the hardware programs into a die, outside a command of software. -/
def State.norProgram (s : State) (die off : Nat) (l : List Nat) : State :=
  let a := norBase die + off
  s.setBytes a (programBytes (s.bytes a l.length) l)

/-- An erase counts for its 64 KiB block; NOR_WEAR shows the highest count (R432). -/
def State.norWorn (s : State) (die off : Nat) : State :=
  let b := off / 0x10000
  let n := sget 0 (die * 2048 + b) s.norWear + 1
  let s1 := { s with norWear := sput 0 (die * 2048 + b) n s.norWear }
  if s1.get (pNOR die) NOR_WEAR_COUNT < n then
    (s1.set (pNOR die) NOR_WEAR_COUNT n).set (pNOR die) NOR_WEAR_BLOCK b else s1

/-- The bytes of a range put back to what unlisted addresses read as: 0xFF in a NOR die, 0 in RAM. -/
def clearRange (a n : Nat) (m : List Host.Cell) : List Host.Cell := m.filter fun e => !(decide (a ≤ e.1) && decide (e.1 < a + n))

/-- A block is erased. -/
def State.norEraseBlock (s : State) (die off n : Nat) : State :=
  ({ s with mem := clearRange (norBase die + off) n s.mem }).norWorn die off

/-- What an operation leaves where it ends well. -/
def State.norApply (s : State) (die : Nat) (o : NorOp) : State :=
  if o.op = 1 then s.norProgram die o.off o.data else s.norEraseBlock die o.off (norSpan o.op 0)

/-- Bytes whose contents nobody knows (R431). -/
def State.freeBytes (addr : Nat) : Nat → State → State
  | 0, s => s
  | n + 1, s => State.freeBytes (addr + 1) n ((s.setByte addr (s.free % 256)).took)

/-- The command of a die ends (R430). -/
def State.norDone (s : State) (die : Nat) (good : Bool) : State :=
  match nth s.norOps die none with
  | none => s
  | some o =>
    let p := pNOR die
    let s1 := { s with norOps := setNth s.norOps die none }
    let s2 := ((s1.set p NOR_CMD_BUSY 0).set p NOR_STAT_BUSY 0).set p NOR_STAT_SUSPENDED 0
    if good then ((s2.norApply die o).set p NOR_CMD_RESULT 1).irq p INT_NOR_DONE
    else
      let s3 := State.freeBytes (norBase die + o.off) (if o.op = 1 then o.data.length else norSpan o.op 0) s2
      ((s3.set p NOR_CMD_RESULT 3).irq p INT_NOR_FAIL).err p 0xA217 o.off

/-- A read of a die that runs a program waits until it has ended (R431). -/
def State.norSettled (s : State) (addr : Nat) : State :=
  let die := (addr - 0x40000000) / 0x8000000
  match nth s.norOps die none with
  | some o => if o.op = 1 then s.norDone die true else s
  | none => s

end Sys2Proof.Machine
end

