-- ==== Sys2Proof/Machine/Physical.lean ====
section
/-!
DEFINITION. Physical memory as agents reach it: the regions (spec/02 R58, R604), secure regions (spec/13 R395), the spill
region (spec/14 R424), poisoned words (R422), stage-2 and IOMMU translation (spec/13 R398-R406), device DMA and the
dirty-page log (R415).
-/

namespace Sys2Proof.Machine

/-- The memory regions of Table 02-8. -/
inductive Region where
  | sram
  | ckpt (off : Nat)
  | tcm (n : Nat)
  | periph
  | nor
  | dram
  | none
  deriving DecidableEq, Repr

def regionOf (a : Nat) : Region :=
  if 0x10000000 ≤ a ∧ a < 0x11000000 then .sram
  else if 0x11000000 ≤ a ∧ a < 0x11200000 then .ckpt (a - 0x11000000)
  else if 0x12000000 ≤ a ∧ a < 0x12080000 then .tcm ((a - 0x12000000) / 0x20000)
  else if 0x20000000 ≤ a ∧ a < 0x21000000 then .periph
  else if 0x40000000 ≤ a ∧ a < 0x50000000 then .nor
  else if 0x800000000 ≤ a ∧ a < 0x900000000 then .dram
  else .none

/-- First address of secure region r. -/
def State.secBase (s : State) (r : Nat) : Nat := s.get pISO (SEC_RGN_BASE_BASE r) * 0x10000

def State.secSize (s : State) (r : Nat) : Nat := s.get pISO (SEC_RGN_SIZE_SIZE r) * 0x10000

/-- An active secure region covers the address (R395). -/
def State.inSecure (s : State) (a : Nat) : Bool :=
  (List.range 16).any fun r =>
    s.on pISO (SEC_RGN_SIZE_EN r) && decide (s.secBase r ≤ a) && decide (a < s.secBase r + s.secSize r)

/-- The record of an access refused by a secure region (R395). -/
def State.secRefuse (s : State) (a : Nat) : State :=
  ((s.err pISO 0x9010 (a / 16 % 2 ^ 32)).cnt pISO ISO_CNT_REF).irq pISO INT_ISO_REFUSED

/-- The spill region (spec/05 R162). -/
def State.spillBase (s : State) : Nat := s.get pBUF BUF_SPILL_BASE * 0x4000000
def State.spillSize (s : State) : Nat := s.get pBUF BUF_SPILL_SIZE * 0x4000000

/-- The spill region is closed to agents other than spill engines (R162, R424). -/
def State.spillClosed (s : State) (a : Nat) : Bool :=
  s.on pBUF BUF_SPILL_EN && decide (s.spillBase ≤ a) && decide (a < s.spillBase + s.spillSize)

/-- DRAM answers: trained, its domain on (R423, spec/17 Table 17-7). -/
def State.dramUp (s : State) : Bool := s.pageUp pDMC && s.on pDMC DMC_STAT_TRAINED && !s.shell.crossed.contains .DDR

/-! Poison (R422). -/

/-- Address of the word in entry n of the poison table. -/
def State.poisonAddr (s : State) (n : Nat) : Nat :=
  s.get pSCR (POISON_LO_ADDR n) * 8 + s.get pSCR (POISON_HI_ADDR n) * 2 ^ 32

/-- The entry that holds the word of an address. -/
def State.poisonOf (s : State) (a : Nat) : Option Nat :=
  if s.get pSCR SCR_POISON_USED = 0 then none
  else (List.range 256).find? fun n => s.on pSCR (POISON_HI_VALID n) && s.poisonAddr n == a / 8 * 8

/-- A word is entered in the poison table, or the table is full (R422). -/
def State.poisonAdd (s : State) (a : Nat) : State :=
  if (s.poisonOf a).isSome then s
  else
    match (List.range 256).find? fun n => !s.on pSCR (POISON_HI_VALID n) with
    | some n =>
      let s1 := (s.set pSCR (POISON_LO_ADDR n) (a / 8 % 2 ^ 29)).set pSCR (POISON_HI_ADDR n) (a / 2 ^ 32)
      let s2 := (s1.set pSCR (POISON_HI_VALID n) 1).set pSCR SCR_POISON_USED (s1.get pSCR SCR_POISON_USED + 1)
      s2.irq pSCR INT_SCR_POISON
    | none => ((s.set pSCR SCR_POISON_FULL 1).irq pSCR INT_SCR_FULL).err pSCR 0xA216 (a / 16 % 2 ^ 32)

/-- A write of the whole word clears its entry (R422). -/
def State.poisonClear (s : State) (a : Nat) : State :=
  match s.poisonOf a with
  | none => s
  | some n =>
    let s1 := ((s.set pSCR (POISON_LO_ADDR n) 0).set pSCR (POISON_HI_ADDR n) 0).set pSCR (POISON_HI_VALID n) 0
    (s1.set pSCR SCR_POISON_USED (s1.get pSCR SCR_POISON_USED - 1)).set pSCR SCR_POISON_FULL 0

/-- The words that n bytes from a touch. -/
def wordsOf (a n : Nat) : List Nat := (List.range ((a + n + 7) / 8 - a / 8)).map fun i => (a / 8 + i) * 8

/-- Some word of the range is poisoned. -/
def State.poisoned (s : State) (a n : Nat) : Bool := (wordsOf a n).any fun w => (s.poisonOf w).isSome

/-- A word that the range covers only in part is poisoned. -/
def State.poisonedPart (s : State) (a n : Nat) : Bool :=
  (wordsOf a n).any fun w => (decide (w < a) || decide (a + n < w + 8)) && (s.poisonOf w).isSome

/-! Accesses to system SRAM and DRAM by physical address. -/

/-- Why memory refuses an access. -/
inductive MemStop where
  | secure
  | spill
  | off
  | unmapped
  | area
  | norOff
  | page (cause : Nat)
  deriving DecidableEq, Repr

/-- Why a device or walk access to a register page ends (R33, R54, R62). DESIGN CHOICE: one of 4 bytes to a page that is not strict
is refused by page area, since the spec gives no such access an effect. -/
def State.pageStop (s : State) (write : Bool) (a n : Nat) : MemStop :=
  match pageOf a with
  | none => .unmapped
  | some r =>
    if s.absent (pageBase a) then .page 0x09
    else if strictTy r.ty && !write then .page 0x05
    else if n ≠ 4 ∨ a % 4 ≠ 0 then .page 0x03
    else .page 0x01

/-- What stops an access of a world to n bytes of memory that does not come from a core (Table 02-8, R395, R423, R424, R604); none
where it may go on. Checkpoint SRAM and tightly coupled memory are the monitor's; the secure world may read the NOR window. -/
def State.ramStop (s : State) (world : Nat) (isSpill write : Bool) (a n : Nat) : Option MemStop :=
  let last := a + n - 1
  if world != 0 && (s.inSecure a || s.inSecure last) then some .secure
  else if regionOf a ≠ regionOf last then some .unmapped
  else
    match regionOf a with
    | .sram => none
    | .dram =>
      if !s.dramUp then some .off
      else if !isSpill && (s.spillClosed a || s.spillClosed last) then some .spill
      else none
    | .nor => if write ∨ world ≠ 0 then some .area else if s.shell.crossed.contains .NOR then some .norOff else none
    | .ckpt _ => some .area
    | .tcm _ => some .area
    | .periph => some (s.pageStop write a n)
    | .none => some .unmapped

/-- The record of a stopped access (R57, R395, R424, R604). -/
def State.recordStop (s : State) (a : Nat) : MemStop → State
  | .secure => s.secRefuse a
  | .spill => s.err pDMC 0xA010 (a / 16 % 2 ^ 32)
  | .off => s.errCause pDMC 0x08 (a / 16)
  | .unmapped => (s.errCause pSYS 0x04 a).cnt pSYS SYS_CNT_UNMAP_V
  | .area => s.errCause pSYS 0x01 a
  | .norOff => s.errCause pSYS 0x08 a
  | .page cause => s.errCause (s.recordPage (pageBase a) cause) cause a

/-- n bytes read from memory. -/
def State.ramRead (s : State) (world : Nat) (isSpill : Bool) (a n : Nat) : State × Option (List Nat) :=
  match s.ramStop world isSpill false a n with
  | some r => (s.recordStop a r, none)
  | none =>
    if s.poisoned a n then (s, none)
    else
      let s1 := if regionOf a = .nor then s.norSettled a else s
      (s1, some (s1.bytes a n))

/-- The DMC log holds the most recent error; a corrected one does not replace kinds 3 to 5 (Table 14-7). -/
def State.dmcLog (s : State) (src addr kind : Nat) (pos : List Nat) : State :=
  if kind < 3 ∧ 3 ≤ s.get pDMC DMC_ERR_HI_KIND then s
  else
    let s1 := s.wrn pDMC DMC_ERR_LO (addr % 2 ^ 32)
    let s2 := s1.wrn pDMC DMC_ERR_HI (addr / 2 ^ 32 % 16 + kind * 0x100 + src * 0x10000)
    match pos with
    | [p] => s2.wrn pDMC DMC_ERR_POS p
    | [p, q] => s2.wrn pDMC DMC_ERR_POS (p + q * 0x100 + 0x8000)
    | _ => s2

/-- A poisoned word is read: the log and an error response; no code after the first detection (R422). -/
def State.poisonRead (s : State) (src addr : Nat) : State :=
  ((s.dmcLog src addr 5 []).cnt pDMC DMC_CNT_UE).irq pDMC INT_DMC_UE

/-- The poisoned DRAM word that has stopped a read of n bytes is logged. -/
def State.poisonNoted (s : State) (src world a n : Nat) : State :=
  if regionOf a = .dram ∧ s.ramStop world false false a n = none then
    match (wordsOf a n).find? fun w => (s.poisonOf w).isSome with
    | some w => s.poisonRead src w
    | none => s
  else s

/-- n bytes read from memory by an agent. -/
def State.readBy (s : State) (src world a n : Nat) : State × Option (List Nat) :=
  match s.ramRead world false a n with
  | (s1, none) => (s1.poisonNoted src world a n, none)
  | r => r

/-- Bytes written to system SRAM or DRAM; a part write of a poisoned word ends with an error (R422). -/
def State.ramWrite (s : State) (world : Nat) (isSpill : Bool) (a : Nat) (l : List Nat) : State × Bool :=
  if l.isEmpty then (s, true)
  else
    match s.ramStop world isSpill true a l.length with
    | some r => (s.recordStop a r, false)
    | none =>
      if s.poisonedPart a l.length then (s, false)
      else ((s.each (wordsOf a l.length) fun s w => s.poisonClear w).setBytes a l, true)

/-! Translation. -/

/-- The context of a translation (R398, R404): the stage-2 tables of a VM, the hypervisor's or the secure IOMMU tables. -/
inductive Ctx where
  | vm (v : Nat)
  | hyp
  | secure
  deriving DecidableEq, Repr

/-- The world of a context's accesses (Table 13-1). -/
def Ctx.world : Ctx → Nat
  | .vm _ => 2
  | .hyp => 1
  | .secure => 0

/-- World of the walk reads: 0b01 in a VM context, 0b00 in the secure context (R399); 0b01 in the hypervisor's. -/
def Ctx.walkWorld : Ctx → Nat
  | .secure => 0
  | _ => 1

/-- A number for the context, by which cached translations name it. -/
def Ctx.code : Ctx → Nat
  | .vm v => v
  | .hyp => 16
  | .secure => 17

/-- How a translation ends: a physical address with its leaf (address, value and level; all 0 in an identity context),
or a fault of a kind at a level (Table 13-4). -/
inductive Xlat where
  | ok (pa leafAddr leaf level : Nat)
  | fault (kind level : Nat)
  deriving DecidableEq, Repr

/-- What a descriptor says at a level (Table 13-3). -/
inductive Desc where
  | bad
  | table (next : Nat)
  | leaf (base : Nat)
  deriving DecidableEq, Repr

/-- Must-be-zero bits of every descriptor are 0. -/
def descZero (d : Nat) : Bool :=
  bitsOf d 9 1 == 0 && bitsOf d 11 1 == 0 && bitsOf d 36 20 == 0 && bitsOf d 63 1 == 0

def memAttrOk (d : Nat) : Bool := bitsOf d 2 4 == 0 || bitsOf d 2 4 == 4 || bitsOf d 2 4 == 15

/-- The address bits below a leaf's size at a level: 30, 21 or 12. -/
def leafShift (level : Nat) : Nat := if level = 1 then 30 else if level = 2 then 21 else 12

def readDesc (level d : Nat) : Desc :=
  if bitsOf d 0 1 = 0 ∨ !descZero d then .bad
  else if bitsOf d 1 1 = 1 ∧ level < 3 then
    (if bitsOf d 2 7 = 0 then .table (bitsOf d 12 24 * 0x1000) else .bad)
  else if level = 3 ∧ bitsOf d 1 1 = 0 then .bad
  else if !memAttrOk d then .bad
  else if bitsOf d 12 (leafShift level - 12) ≠ 0 then .bad
  else .leaf (bitsOf d 12 24 * 0x1000)

/-- The permission bit of an access: R, W or X. -/
def permBit : MemOp → Nat
  | .read => 6
  | .write => 7
  | .fetch => 8

/-- The index of a level in an IPA (R399). -/
def levelIndex (level ipa : Nat) : Nat :=
  if level = 1 then bitsOf ipa 30 10 else if level = 2 then bitsOf ipa 21 9 else bitsOf ipa 12 9

/-- The walk from a table at a level, at most `fuel` levels. -/
def State.walkFrom (s : State) (c : Ctx) (op : MemOp) (ipa : Nat) : Nat → Nat → Nat → State × Xlat
  | 0, level, _ => (s, .fault 1 level)
  | fuel + 1, level, table =>
    let da := table + levelIndex level ipa * 8
    if c.walkWorld != 0 && s.inSecure da then (s.secRefuse da, .fault 5 level)
    else
      match s.ramRead c.walkWorld false da 8 with
      | (s1, none) => (s1, .fault 4 level)
      | (s1, some l) =>
        let d := ofBytesLE l
        match readDesc level d with
        | .bad => (s1, .fault 1 level)
        | .table next => s1.walkFrom c op ipa fuel (level + 1) next
        | .leaf base =>
          if bitsOf d (permBit op) 1 = 0 then (s1, .fault 2 level)
          else
            let pa := base + ipa % 2 ^ leafShift level
            if c.world != 0 && s1.inSecure pa then (s1.secRefuse pa, .fault 5 level) else (s1, .ok pa da d level)

/-- A translation under a table base: the address size is checked first (kind 3). -/
def State.walkTtb (s : State) (c : Ctx) (op : MemOp) (ipa ttb : Nat) : State × Xlat :=
  if 2 ^ 40 ≤ ipa then (s, .fault 3 1) else s.walkFrom c op ipa 3 1 ttb

/-- An identity context: 36-bit addresses, every permission (R404). -/
def State.identity (s : State) (c : Ctx) (a : Nat) : State × Xlat :=
  if 2 ^ 36 ≤ a then (s, .fault 3 0)
  else if c.world != 0 && s.inSecure a then (s.secRefuse a, .fault 5 0)
  else (s, .ok a 0 0 0)

/-- A table base of two registers: bits [31:13] and [35:32]. -/
def ttbOf (lo hi : Nat) : Nat := lo * 0x2000 + hi * 2 ^ 32

/-- A walk in a context by the tables as they stand (R398, R399, R404). -/
def State.walk (s : State) (c : Ctx) (op : MemOp) (ipa : Nat) : State × Xlat :=
  match c with
  | .vm v =>
    if !s.on (pVMC v) VMC_CTRL_EN then (s, .fault 6 0)
    else s.walkTtb c op ipa (ttbOf (s.get (pVMC v) VMC_TTB_LO_BASE) (s.get (pVMC v) VMC_TTB_HI_BASE))
  | .hyp =>
    if !s.on pIOM IOM_HYP_TTB_HI_EN then s.identity c ipa
    else s.walkTtb c op ipa (ttbOf (s.get pIOM IOM_HYP_TTB_LO_BASE) (s.get pIOM IOM_HYP_TTB_HI_BASE))
  | .secure =>
    if !s.on pISO ISO_SEC_TTB_HI_EN then s.identity c ipa
    else s.walkTtb c op ipa (ttbOf (s.get pISO ISO_SEC_TTB_LO_BASE) (s.get pISO ISO_SEC_TTB_HI_BASE))

/-! Cached translations (R402, R403): a change of a table, other than from not valid to valid, is certain to take effect only after
an invalidation. Until then either translation may be used: a free value decides. -/

/-- The context translates through tables. -/
def State.tabled (s : State) : Ctx → Bool
  | .vm v => s.on (pVMC v) VMC_CTRL_EN
  | .hyp => s.on pIOM IOM_HYP_TTB_HI_EN
  | .secure => s.on pISO ISO_SEC_TTB_HI_EN

/-- The holder of the translations of cores; a DMA source holds its own in the IOTLB. -/
abbrev coreHolder : Nat := 0x100

/-- The physical address under a cached leaf. -/
def Cached.pa (e : Cached) (ipa : Nat) : Nat := bitsOf e.leaf 12 24 * 0x1000 + ipa % 2 ^ leafShift e.level

/-- What an access meets that uses a cached translation: its permission and the secure regions are checked all the same. -/
def State.cachedGives (s : State) (c : Ctx) (op : MemOp) (ipa : Nat) (e : Cached) : Xlat :=
  if bitsOf e.leaf (permBit op) 1 = 0 then .fault 2 e.level
  else if c.world != 0 && s.inSecure (e.pa ipa) then .fault 5 e.level
  else .ok (e.pa ipa) e.leafAddr e.leaf e.level

/-- Two results of a translation that differ in no more than DIRTY. -/
def Xlat.same : Xlat → Xlat → Bool
  | .ok p a d l, .ok q b e m => p == q && a == b && putBits d 10 1 1 == putBits e 10 1 1 && l == m
  | .fault k l, .fault j m => k == j && l == m
  | _, _ => false

/-- The cached translations of a page that give something else than the tables. One with DIRTY = 0 serves no write of a core of a
VM that tracks dirty pages: the walker translates again (R402). -/
def State.staleXlats (s : State) (h : Nat) (c : Ctx) (op : MemOp) (ipa : Nat) (x : Xlat) : List Cached :=
  let tracks := match c with
    | .vm v => h == coreHolder && op == .write && s.on (pVMC v) VMC_CTRL_DIRTY_EN
    | _ => false
  s.xlat.held.filter fun e => e.holder == h && e.ctx == c.code && e.page == ipa / 0x1000 && !(tracks && bitsOf e.leaf 10 1 == 0)
    && !(s.cachedGives c op ipa e).same x

/-- A translation just made is held; it takes the place of one that differs in DIRTY only. -/
def State.holdXlat (s : State) (h : Nat) (c : Ctx) (ipa : Nat) (x : Xlat) : State :=
  match x with
  | .ok _ a d l =>
    let e : Cached := ⟨h, c.code, ipa / 0x1000, l, a, d⟩
    { s with xlat.held := e :: s.xlat.held.filter fun f => { f with leaf := putBits f.leaf 10 1 1 } != { e with leaf := putBits d 10 1 1 } }
  | .fault _ _ => s

/-- A cached translation is used. -/
def State.useCached (s : State) (c : Ctx) (op : MemOp) (ipa : Nat) (e : Cached) : State × Xlat :=
  match s.cachedGives c op ipa e with
  | .fault 5 l => (s.secRefuse (e.pa ipa), .fault 5 l)
  | x => (s, x)

/-- Translation in a context for a holder: by the tables, or by a cached translation that no invalidation has dropped. -/
def State.translate (s : State) (h : Nat) (c : Ctx) (op : MemOp) (ipa : Nat) : State × Xlat :=
  let r := s.walk c op ipa
  if !s.tabled c then r
  else
    match s.staleXlats h c op ipa r.2 with
    | [] => (r.1.holdXlat h c ipa r.2, r.2)
    | e :: l =>
      match (e :: l)[s.free % (l.length + 2)]? with
      | none => (r.1.took.holdXlat h c ipa r.2, r.2)
      | some f => s.took.useCached c op ipa f

/-- Cached translations are dropped. -/
def State.dropXlats (s : State) (p : Cached → Bool) : State := { s with xlat.held := s.xlat.held.filter fun e => !p e }

/-- The capture of a fault in a page with the layout of IOM_FLT_INFO (Table 13-11): the first since the last clear. -/
def faultInfo (src kind level : Nat) (write log : Bool) : Nat :=
  src % 32 + kind * 2 ^ 8 + write.toNat * 2 ^ 11 + level * 2 ^ 12 + log.toNat * 2 ^ 15 + 2 ^ 31

/-- A DMA fault (R405). The spec gives sources from 17 on no SRC: a free value stands there. -/
def State.dmaFaulted (s : State) (source : Nat) (log write : Bool) (ipa kind level : Nat) (injected : Bool := false) : State :=
  let loc := ipa / 256 % 2 ^ 32
  let src := if source ≤ 16 then source else s.free
  let s1 := if s.on pIOM IOM_FLT_INFO_VALID then s
    else ((if source ≤ 16 then s else s.took).wrn pIOM IOM_FLT_INFO (faultInfo src kind level write log)).wrn pIOM IOM_FLT_IPA loc
  let s2 := ((s1.cnt pIOM IOM_CNT_FLT_CNT).irq pIOM INT_IOM_FAULT).err pIOM 0x9012 loc injected
  if kind = 4 then s2.err pIOM 0x9316 loc injected else s2

/-- A walk-read error is to be injected into the next translation of a DMA access (ERR_INJ point 0x02 of the IOM page). -/
def State.walkInjected (s : State) : Bool := s.on pIOM ERR_INJ_ARM && s.get pIOM ERR_INJ_POINT == 2

/-- The injected error takes the path of a real one (spec/02 R47). -/
def State.injectWalk (s : State) (source : Nat) (write : Bool) (ipa : Nat) : State :=
  ((s.set pIOM ERR_INJ_ARM 0).set pIOM ERR_INJ_DONE 1).dmaFaulted source false write ipa 4 1 true

/-- A translation fault of a core access, kept by the VMC page of its VM (R401). -/
def State.coreFaulted (s : State) (v core : Nat) (write : Bool) (ipa kind level : Nat) : State :=
  let p := pVMC v
  let loc := ipa / 256 % 2 ^ 32
  let s1 := if s.on p VMC_FLT_INFO_VALID then s
    else (s.wrn p VMC_FLT_INFO (faultInfo core kind level write false)).wrn p VMC_FLT_IPA loc
  let s2 := (s1.cnt p VMC_CNT_FAULTS).irq p INT_VMC_FAULT
  if kind = 4 then s2.err p 0x9316 loc else s2

/-- A core's access at IPA of VM v: the physical address, with DIRTY set where R402 asks for it. -/
def State.coreTranslate (s : State) (v core : Nat) (op : MemOp) (ipa : Nat) : State × Option Nat :=
  match s.translate coreHolder (.vm v) op ipa with
  | (s1, .fault k l) => (s1.coreFaulted v core (op == .write) ipa k l, none)
  | (s1, .ok pa leafAddr leaf level) =>
    if op == .write && s1.on (pVMC v) VMC_CTRL_DIRTY_EN && bitsOf leaf 10 1 == 0 then
      let d := putBits leaf 10 1 1
      (((s1.setMemLE leafAddr 8 d).cntWrap (pVMC v) VMC_CNT_DIRTY).holdXlat coreHolder (.vm v) ipa (.ok pa leafAddr d level), some pa)
    else (s1, some pa)

/-! Device DMA (Table 13-5). -/

/-- The context of a page's owner. -/
def State.ownerCtx (s : State) (p : Nat) : Ctx :=
  if s.get p OWNER_WORLD = 0 then .secure
  else if s.get p OWNER_WORLD = 1 then .hyp
  else .vm (s.get p OWNER_VM % 16)

/-- The manager of instance i (R413). -/
def State.managerCtx (s : State) (i : Nat) : Ctx :=
  if s.get (pHIN i) OWNER_WORLD = 2 then .hyp else s.ownerCtx (pHIN i)

/-- Source 16 is the MIG engine; sources from 17 on are the CRY pages (spec/15 Table 15-13). -/
def State.srcCtx (s : State) (src : Nat) : Ctx :=
  if src < 16 then s.ownerCtx (pHIN src) else if src = 16 then s.ownerCtx pMIG else s.ownerCtx (pCRY (src - 17))

/-- The pieces of a range of addresses that each lie in one 4 KiB page. -/
def pieces : Nat → Nat → Nat → List (Nat × Nat)
  | 0, _, _ => []
  | fuel + 1, a, n =>
    if n = 0 then []
    else
      let k := min n (0x1000 - a % 0x1000)
      (a, k) :: pieces fuel (a + k) (n - k)

/-- One piece read by DMA. -/
def State.dmaReadPiece (s : State) (src : Nat) (a n : Nat) : State × Option (List Nat) :=
  if s.walkInjected then (s.injectWalk src false a, none)
  else
  match s.translate src (s.srcCtx src) .read a with
  | (s1, .fault k l) => (s1.dmaFaulted src false false a k l, none)
  | (s1, .ok pa _ _ _) => s1.readBy 0x50 (s1.srcCtx src).world pa n

def State.dmaReadPieces (src : Nat) : List (Nat × Nat) → State → State × Option (List Nat)
  | [], s => (s, some [])
  | (a, n) :: t, s =>
    match s.dmaReadPiece src a n with
    | (s1, none) => (s1, none)
    | (s1, some l) =>
      match State.dmaReadPieces src t s1 with
      | (s2, none) => (s2, none)
      | (s2, some m) => (s2, some (l ++ m))

/-- n bytes read by a source from address a of its context; none where the access fails. -/
def State.dmaRead (s : State) (src a n : Nat) : State × Option (List Nat) :=
  State.dmaReadPieces src (pieces (n / 0x1000 + 2) a n) s

/-- The dirty-page log stops (R415). -/
def State.dplStop (s : State) (i : Nat) : State :=
  ((s.set (pHIN i) DPL_CTRL_OVF 1).irq (pHIN i) INT_HIN_DPL_OVF).err pIOM 0x9015 0

/-- The page of a DMA write is logged (R415): ring k, wb for a descriptor write-back. -/
def State.dplLog (s : State) (i k : Nat) (wb : Bool) (ipa : Nat) : State :=
  let p := pHIN i
  let page := ipa / 0x1000
  if !s.on p DPL_CTRL_EN || s.on p DPL_CTRL_OVF || (nth s.dplFilter i []).contains page then s
  else
    let size := 2 ^ (9 + s.get p DPL_SIZE_N)
    let head := s.get p DPL_HEAD_V
    let next := (head + 1) % size
    if next = s.get p DPL_TAIL_V then s.dplStop i
    else
      let ea := s.get p DPL_BASE_LO_ADDR * 0x1000 + s.get p DPL_BASE_HI_ADDR * 2 ^ 32 + head * 8
      let entry := page % 2 ^ 28 + (k % 16) * 2 ^ 28 + wb.toNat * 2 ^ 32
      match s.translate i (s.managerCtx i) .write ea with
      | (s1, .fault kd l) => (s1.dmaFaulted i true true ea kd l).dplStop i
      | (s1, .ok pa _ _ _) =>
        match s1.ramWrite (s1.managerCtx i).world false pa (bytesLE 8 entry) with
        | (s2, false) => s2.dplStop i
        | (s2, true) =>
          let s3 := (s2.set p DPL_HEAD_V next).cntWrap p DPL_CNT_V
          { s3 with dplFilter := modNth s3.dplFilter i fun l => (l ++ [page]).drop (l.length + 1 - 64) }

/-- One piece written by DMA; a host instance logs it first (R415). -/
def State.dmaWritePiece (s : State) (src k : Nat) (wb : Bool) (a : Nat) (l : List Nat) : State × Bool :=
  if s.walkInjected then (s.injectWalk src true a, false)
  else
  match s.translate src (s.srcCtx src) .write a with
  | (s1, .fault kd lv) => (s1.dmaFaulted src false true a kd lv, false)
  | (s1, .ok pa _ _ _) =>
    let s2 := if src < 16 then s1.dplLog src k wb a else s1
    s2.ramWrite (s2.srcCtx src).world false pa l

def State.dmaWritePieces (src k : Nat) (wb : Bool) (l : List Nat) : List (Nat × Nat) → Nat → State → State × Bool
  | [], _, s => (s, true)
  | (a, n) :: t, off, s =>
    match s.dmaWritePiece src k wb a ((l.drop off).take n) with
    | (s1, false) => (s1, false)
    | (s1, true) => State.dmaWritePieces src k wb l t (off + n) s1

/-- Bytes written by a source at address a of its context: ring k, wb for a descriptor write-back. -/
def State.dmaWrite (s : State) (src k : Nat) (wb : Bool) (a : Nat) (l : List Nat) : State × Bool :=
  State.dmaWritePieces src k wb l (pieces (l.length / 0x1000 + 2) a l.length) 0 s

end Sys2Proof.Machine
end

