-- ==== Sys2Proof/Machine/Time.lean ====
section
/-!
DEFINITION. The time base and network time (spec/03 R65-R77): module time, its rate and steps, snapshots, the PTP servo,
the transmit timestamp FIFO, and twin time.
-/

namespace Sys2Proof.Machine

/-- Units of module time in 0.25 ns: one clock of 2 ns is 2^41 units (R68). -/
abbrev unitsPerQuarter : Nat := 2 ^ 38

/-- Module time in 0.25 ns units (R65). -/
def State.nowQ (s : State) : Nat := s.tb.time / unitsPerQuarter

/-- Quarter nanoseconds in one second. -/
abbrev quartersPerSecond : Nat := 4000000000

/-- What one clock adds to module time: 2 ns plus TMB_RATE × 2^-41 × 2 ns (R68). -/
def State.clockStep (s : State) : Nat := (2 ^ 41 + s.geti pTMB TMB_RATE_V).toNat

/-- n clocks of 2 ns pass. -/
def State.advance (s : State) (n : Nat) : State :=
  { s with
    tb.clocks := s.tb.clocks + n
    tb.time := if s.timeRuns then s.tb.time + n * s.clockStep else s.tb.time }

/-- Clocks pass up to the first clock at or after module time q (0.25 ns units). -/
def State.advanceTo (s : State) (q : Nat) : State :=
  if q * unitsPerQuarter ≤ s.tb.time ∨ s.clockStep = 0 then s
  else s.advance ((q * unitsPerQuarter - s.tb.time + s.clockStep - 1) / s.clockStep)

/-- Compact timestamp of a module time in quarters: low 32 bits of the seconds (Table 03-1). -/
def stampSec (q : Nat) : Nat := q / quartersPerSecond % 2 ^ 32

/-- Compact timestamp of a module time in quarters: nanoseconds and quarters (Table 03-1). -/
def stampNs (q : Nat) : Nat := q % quartersPerSecond

/-- The servo or the twin following owns the time base (R70). -/
def State.timeOwned (s : State) : Bool :=
  s.followsTwinTime || (s.on pPTP PTP_CTRL_SERVO_EN && s.get pTMB TMB_CTRL_SRC == 1)

/-- The largest magnitude of TMB_RATE: 500 ppm (R68). -/
abbrev rateMax : Nat := 1099511627

/-- Module time as a snapshot takes it: in the clock of a step, the time before the step (R69). -/
def State.snapQ (s : State) : Nat :=
  match s.tb.stepped with
  | some (c, q) => if c = s.tb.clocks then q else s.nowQ
  | none => s.nowQ

/-- Module time captured into the snapshot registers (R67). -/
def State.snapshot (s : State) : State :=
  if s.frozen pTMB then s
  else
    let sec := s.snapQ / quartersPerSecond
    let s1 := s.wrn pTMB TMB_SNAP_SH (sec / 2 ^ 32 % 2 ^ 16)
    let s2 := s1.wrn pTMB TMB_SNAP_SL (sec % 2 ^ 32)
    s2.wrn pTMB TMB_SNAP_NS (stampNs s.snapQ)

def tmbSnapEff (v : Word) (s : State) : State :=
  if v.getLsbD 0 then (s.plain pTMB TMB_SNAP v).snapshot else s

def execTmbSnap (a : Access) (v : Word) (s : State) : Host.Outcome State Fault Refusal :=
  .next (s.regWrite a pTMB TMB_SNAP v noCause (tmbSnapEff v))

/-- TMB_RATE refuses a value outside ±500 ppm (R68) and any value while the time base is owned (R70). -/
def tmbRatePre (v : Word) (s : State) : Option Nat :=
  if rateMax < (sext 32 v.toNat).natAbs ∨ s.timeOwned then some 0x0B else none

def execTmbRateWrite (a : Access) (v : Word) (s : State) : Host.Outcome State Fault Refusal :=
  .next (s.regWrite a pTMB TMB_RATE v (tmbRatePre v) fun s => s.plain pTMB TMB_RATE v)

/-- Any write of TMB_STEP_GO is refused while the time base is owned (R70). -/
def tmbStepPre (s : State) : Option Nat := if s.timeOwned then some 0x0B else none

/-- A step is requested (R69). -/
def tmbStepEff (v : Word) (s : State) : State :=
  if v.getLsbD 0 then { s with tb.stepReq := true } else s

def execTmbStepGo (a : Access) (v : Word) (s : State) : Host.Outcome State Fault Refusal :=
  .next (s.regWrite a pTMB TMB_STEP_GO v tmbStepPre (tmbStepEff v))

/-- The signed step of the step registers, in 0.25 ns units (R69, Table 03-7). -/
def State.stepSize (s : State) : Int :=
  s.geti pTMB TMB_STEP_S_V * quartersPerSecond + s.get pTMB TMB_STEP_NS_V

/-- A re-index reference d later. -/
def PhaseRef.shift (d : Int) : PhaseRef → PhaseRef
  | .instant t => .instant (t + d)
  | .own => .own
  | .nextBoundary t => .nextBoundary (t + d)

/-- The plate keeps its place when module time moves by d (text after R70): its own instants move with the time. The reference
instants of a gPTP schedule do not, so that a plate that follows one meets the step as an offset (R92). -/
def PlateState.shift (p : PlateState) (d : Int) : PlateState :=
  { p with
    armed := p.armed.map fun t => t + d
    startAt := p.startAt.map fun e => (e.1 + d, e.2)
    boundary := p.boundary + d
    reindex := p.reindex.map fun r => { r with ref := r.ref.shift d }
    again := p.again.map fun r => { r with ref := r.ref.shift d }
    waiting := p.waiting.map fun e => (e.1 + d, e.2)
    trail := p.trail.map fun e => (e.1 + d, e.2)
    lastPulse := p.lastPulse.map fun t => t + d
    lastGptp := none
    lastAnn := p.lastAnn.map fun e => (e.1, e.2.1 + d, e.2.2) }

/-- Module time moved by a signed amount of 0.25 ns units. DESIGN CHOICE: a step that would take it below 0 stops at 0. -/
def State.moveTime (s : State) (d : Int) : State :=
  let s1 := { s with tb.time := ((s.tb.time : Int) + d * (unitsPerQuarter : Nat)).toNat }
  { s1 with plate := s.plate.shift ((s1.nowQ : Int) - s.nowQ) }

/-- The step takes place (R69). DESIGN CHOICE: the step registers are read now, not at the write of GO. -/
def execStepDone (s : State) : Host.Outcome State Fault Refusal :=
  .next (if s.tb.stepReq && s.timeRuns then
    (({ s.moveTime s.stepSize with tb.stepReq := false, tb.stepped := some (s.tb.clocks, s.nowQ) }).irq pTMB INT_TMB_STEP_DONE)
  else s)

/-- A rate within the valid range, taken from the free values: the servo's law is not stated (R73, R75). -/
def State.freeRate (s : State) : State :=
  (s.seti pTMB TMB_RATE_V ((s.free % (2 * rateMax + 1) : Nat) - (rateMax : Int))).took

/-- The servo's act on a Sync of the steering instance (R73): step, or slew with a rate the spec does not compute. -/
def State.servoSteer (s : State) (offset : Int) : State :=
  if (s.rd pPTP PTP_STEP_THR).toNat < offset.natAbs then s.moveTime (-offset) else s.freeRate

/-- Lock judged over 8 consecutive Syncs (R73). DESIGN CHOICE: a Sync beyond the threshold clears SYNCED. -/
def State.servoLock (s : State) (offset : Int) : State :=
  if offset.natAbs ≤ (s.rd pPTP PTP_LOCK_THR).toNat then
    let s1 := { s with tb.lockCnt := min 8 (s.tb.lockCnt + 1) }
    let s2 := s1.set pTMB TMB_STAT_LOCKED 1
    if s2.tb.lockCnt = 8 ∧ !s2.on pPTP PTP_STAT_SYNCED then
      (s2.set pPTP PTP_STAT_SYNCED 1).irq pPTP INT_PTP_SYNCED
    else s2
  else
    (({ s with tb.lockCnt := 0 }).set pTMB TMB_STAT_LOCKED 0).set pPTP PTP_STAT_SYNCED 0

/-- A port of an instance: its bit in INST_PORTS (Table 03-11; bit 2, TW, reads 0). -/
def State.instHasPort (s : State) (inst port : Nat) : Bool :=
  port != 2 && (s.rd pPTP (INST_PORTS inst)).toNat.testBit port

/-- S ports are master only and measure no delay (Table 03-2). -/
def sPort (p : Nat) : Bool := decide (27 ≤ p ∧ p < 31)

/-! Port states: the best master clock algorithm of IEEE 802.1AS-2020 clause 10, or external port configuration (Table 03-2). -/

/-- Lexicographic order of two lists of numbers. -/
def lexLess : List Nat → List Nat → Bool
  | [], [] => false
  | [], _ :: _ => true
  | _ :: _, [] => false
  | a :: as, b :: bs => if a < b then true else if b < a then false else lexLess as bs

/-- The fields of a priority vector in the order in which they are compared. -/
def vectorKey (v : PtpVector) : List Nat :=
  [v.priority1, v.clockClass, v.accuracy, v.variance, v.priority2, v.gmIdentity, v.stepsRemoved, v.sourcePort]

/-- The module's own vector for an instance: the spec gives its values nowhere (free values); it is 0 steps away. -/
def ownVector (inst : Nat) : PtpVector :=
  let f (k : Nat) : Nat := (Config.ptpOwn inst k).toNat
  ⟨f 0, f 1, f 2, f 3, f 4, f 5, 0, f 6⟩

/-- The better of two (port, vector). -/
def betterHeard (a b : Nat × PtpVector) : Nat × PtpVector := if lexLess (vectorKey b.2) (vectorKey a.2) then b else a

/-- The best vector heard on the ports of an instance, with its port. -/
def State.bestHeard (s : State) (inst : Nat) : Option (Nat × PtpVector) :=
  (s.tb.heard.filter fun e => e.1 == inst && s.instHasPort inst e.2.1 && !sPort e.2.1).foldl
    (fun m e => match m with | none => some e.2 | some b => some (betterHeard b e.2)) none

/-- The slave port of an instance, none where the module is grandmaster or no master is known (Table 03-11). -/
def State.slavePort (s : State) (inst : Nat) : Option Nat :=
  if s.on pPTP (INST_CFG_EXT inst) then
    (if s.on pPTP (INST_SLAVE_NONE inst) then none else some (s.get pPTP (INST_SLAVE_PORT inst)))
  else
    match s.bestHeard inst with
    | none => none
    | some b => if s.on pPTP (INST_CFG_GM_CAP inst) && lexLess (vectorKey (ownVector inst)) (vectorKey b.2) then none else some b.1

/-- The module is grandmaster of an instance. -/
def State.isGm (s : State) (inst : Nat) : Bool :=
  (s.slavePort inst).isNone
    && (if s.on pPTP (INST_CFG_EXT inst) then s.on pPTP (INST_SLAVE_NONE inst) else s.on pPTP (INST_CFG_GM_CAP inst))

/-- The vector that an instance sends on its master ports: the grandmaster's, one step further away. -/
def State.sentVector (s : State) (inst : Nat) : PtpVector :=
  match s.slavePort inst with
  | none => ownVector inst
  | some p =>
    match s.tb.heard.find? fun e => e.1 == inst && e.2.1 == p with
    | some e => { e.2.2 with stepsRemoved := e.2.2.stepsRemoved + 1, sourcePort := (ownVector inst).sourcePort }
    | none => ownVector inst

/-- A port of an instance on which the best master clock algorithm hears a better vector than it would send: passive. -/
def State.passivePort (s : State) (inst port : Nat) : Bool :=
  !s.on pPTP (INST_CFG_EXT inst) && !sPort port
    && s.tb.heard.any fun e => e.1 == inst && e.2.1 == port && lexLess (vectorKey e.2.2) (vectorKey (s.sentVector inst))

/-- The port is a master port of a running instance that has a grandmaster, and its link is up. -/
def State.masterPort (s : State) (inst port : Nat) : Bool :=
  s.on pPTP (INST_CFG_EN inst) && s.instHasPort inst port && s.on (pPORT port) PORT_STAT_LINK
    && ((s.slavePort inst).isSome || s.isGm inst) && s.slavePort inst != some port && !s.passivePort inst port

/-- INST_GMID shows the current grandmaster; a change sets GM_CHANGE (Tables 03-10 and 03-11). -/
def State.showGm (s : State) (inst : Nat) : State :=
  let id := match s.slavePort inst with
    | some p => (s.tb.heard.find? fun e => e.1 == inst && e.2.1 == p).map fun e => e.2.2.gmIdentity
    | none => if s.isGm inst then some (ownVector inst).gmIdentity else none
  match id with
  | none => s
  | some g =>
    let hi := BitVec.ofNat 32 (g / 2 ^ 32)
    let lo := BitVec.ofNat 32 g
    if s.rd pPTP (INST_GMID_HI inst) = hi ∧ s.rd pPTP (INST_GMID_LO inst) = lo then s
    else ((s.wr pPTP (INST_GMID_HI inst) hi).wr pPTP (INST_GMID_LO inst) lo).irq pPTP INT_PTP_GM_CHANGE

/-- An Announce on a port: its vector is held for the port and the instance's port states follow (R71). -/
def execAnnounceReceive (pp : PtpPort) (vec : PtpVector) (s : State) : Host.Outcome State Fault Refusal :=
  .next (
    if s.timeRuns && s.on pPTP (INST_CFG_EN pp.inst.val) && s.instHasPort pp.inst.val pp.port.val && !sPort pp.port.val then
      ({ s with tb.heard := (s.tb.heard.filter fun (e : Nat × Nat × PtpVector) => !(e.1 == pp.inst.val && e.2.1 == pp.port.val)) ++ [(pp.inst.val, pp.port.val, vec)] }).showGm
        pp.inst.val
    else s)

/-- A Sync arrives on a port with its offset from the master (0.25 ns units): one on the slave port of the steering instance
acts (R71, R73). DESIGN CHOICE: an offset beyond the 32-bit range saturates. -/
def execSyncReceive (pp : PtpPort) (offset : Int) (s : State) : Host.Outcome State Fault Refusal :=
  .next (
    if s.timeRuns && s.on pPTP (INST_CFG_EN pp.inst.val) && s.get pPTP PTP_CTRL_INST == pp.inst.val
        && s.slavePort pp.inst.val == some pp.port.val then
      let s1 := ((s.seti pPTP PTP_OFFSET_V (clampInt 32 offset)).wrn pPTP (INST_RR pp.inst.val) (s.free % 2 ^ 32)).took
      if s1.on pPTP PTP_CTRL_SERVO_EN && s1.get pTMB TMB_CTRL_SRC == 1 && !s1.followsTwinTime then
        let s2 := if s1.on pTMB TMB_STAT_HOLDOVER then
            (s1.set pTMB TMB_STAT_HOLDOVER 0).irq pTMB INT_TMB_SRC_BACK else s1
        (s2.servoSteer offset).servoLock offset
      else s1
    else s)

/-- INST_STAT.AS_CAP: at least one port of the instance is asCapable (Table 03-11). -/
def State.refreshAsCap (s : State) (inst : Nat) : State :=
  s.set pPTP (INST_STAT_AS_CAP inst)
    ((List.range 31).any fun p => s.instHasPort inst p && s.on pPTP (PD_STAT_AS_CAP p)).toNat

/-- A peer-delay exchange on a port with full-duplex links (Table 03-2: U, M, G and F ports). -/
def execPdelayExchange (port : Fin 31) (delay nrr : Nat) (asCapable : Bool) (s : State) :
    Host.Outcome State Fault Refusal :=
  .next (
    if s.timeRuns && port.val != 2 && port.val < 27 &&
        ((List.range 4).any fun i => s.on pPTP (INST_CFG_EN i) && s.instHasPort i port.val) then
      let s1 := s.set pPTP (PD_DELAY_V port.val) delay
      let s2 := s1.set pPTP (PD_NRR_V port.val) nrr
      let s3 := s2.set pPTP (PD_STAT_AS_CAP port.val) asCapable.toNat
      s3.each [0, 1, 2, 3] fun s i => s.refreshAsCap i
    else s)

/-- The head of the timestamp FIFO shown in the PTP page (Table 03-9). -/
def State.showFifo (s : State) : State :=
  let s1 := s.set pPTP PTP_STAT_TS_CNT s.tb.fifo.length
  match s.tb.fifo with
  | [] => ((s1.wrn pPTP PTP_TS_INFO 0).wrn pPTP PTP_TS_SEC 0).wrn pPTP PTP_TS_NS 0
  | e :: _ =>
    let info := putBits (putBits (putBits (putBits 0 0 6 e.port) 8 4 e.msgType) 12 1 1) 16 16 e.seq
    ((s1.wrn pPTP PTP_TS_INFO info).wrn pPTP PTP_TS_SEC e.sec).wrn pPTP PTP_TS_NS e.ns

/-- The egress timestamp of a frame that leaves at a module time (spec/04 R141). -/
def State.egressTime (s : State) (port q : Nat) : Nat := ((q : Int) + s.geti (pPORT port) PORT_EGR_LAT_V).toNat

/-- A transmit timestamp of an event message (R74). -/
def State.pushStamp (s : State) (port msgType seq q : Nat) : State :=
  if 64 ≤ s.tb.fifo.length then (s.irq pPTP INT_PTP_TS_OVF).err pPTP 0xE216 0
  else
    (({ s with tb.fifo := s.tb.fifo ++ [TsEntry.mk port msgType (seq % 2 ^ 16) (stampSec q) (stampNs q)] }).showFifo).irq pPTP INT_PTP_TS_AVAIL

/-- An instance sends a message of its interval on one of its ports in a sampling phase of the clock: Sync and Announce on its
master ports, Pdelay_Req on any port that measures delay; Sync and Pdelay_Req are event messages and leave a transmit
timestamp (R65, R71, R74, spec/04 R141). -/
def execPtpMessageTransmit (pp : PtpPort) (kind : PtpMessage) (seq : Nat) (phase : Fin 8) (s : State) :
    Host.Outcome State Fault Refusal :=
  .next (
    let may := match kind with
      | .pdelay => s.on pPTP (INST_CFG_EN pp.inst.val) && s.instHasPort pp.inst.val pp.port.val && s.on (pPORT pp.port.val) PORT_STAT_LINK && !sPort pp.port.val
      | _ => s.masterPort pp.inst.val pp.port.val
    if s.timeRuns && may then
      let s1 := s.emit (.ptp pp.inst.val pp.port.val kind (seq % 2 ^ 16))
      match kind with
      | .sync => s1.pushStamp pp.port.val 0 seq (s1.egressTime pp.port.val (s1.nowQ + phase.val))
      | .pdelay => s1.pushStamp pp.port.val 2 seq (s1.egressTime pp.port.val (s1.nowQ + phase.val))
      | .announce => s1
    else s)

/-- A PTP message in a frame, as far as the module acts on it: messageType, domainNumber, sequenceId. -/
def ptpHeader (octets : List Nat) : Option (Nat × Nat × Nat) :=
  if octets.getD 12 0 = 0x88 ∧ octets.getD 13 0 = 0xF7 ∧ 48 ≤ octets.length then
    some (octets.getD 14 0 % 16, octets.getD 18 0, octets.getD 44 0 * 256 + octets.getD 45 0)
  else none

/-- A Sync is forwarded on a master port within 10 µs, which is all the spec says of the time (R72): on a one-step port the
module adds the residence in flight, on a two-step port a Follow_Up carries it. `q` is the ingress timestamp. -/
def State.forwardSync (s : State) (inst port seq q : Nat) : State :=
  let out := s.egressTime port (s.nowQ + s.free % 40001)
  let s1 := s.took.emit (.ptpForward inst port seq (if s.on (pPORT port) PORT_TS_ONE_STEP then some (out - q) else none))
  s1.pushStamp port 0 seq out

/-- A PTP message received on a port (R71, R72): a Sync on the slave port of an instance is forwarded on its master ports, a
Pdelay_Req on a port that measures delay is answered. -/
def State.ptpIn (s : State) (port q : Nat) (octets : List Nat) : State :=
  match ptpHeader octets with
  | none => s
  | some (ty, dom, seq) =>
    if !s.timeRuns then s
    else if ty = 0 then
      s.each [0, 1, 2, 3] fun s i =>
        if s.on pPTP (INST_CFG_EN i) && s.get pPTP (INST_CFG_DOMAIN i) == dom && s.slavePort i == some port then
          s.each ((List.range 31).filter fun p => s.masterPort i p) fun s p => s.forwardSync i p seq q
        else s
    else if ty = 2 ∧ port ≠ 2 ∧ port < 27 ∧ ([0, 1, 2, 3].any fun i => s.on pPTP (INST_CFG_EN i) && s.instHasPort i port) then
      ((s.took.emit (.pdelayResp port seq)).pushStamp port 3 seq (s.egressTime port (s.nowQ + s.free)))
    else s

/-- syncReceiptTimeout of the steering instance: the rate is kept, holdover (R73). DESIGN CHOICE: SYNCED clears. -/
def execSyncReceiptTimeout (inst : Fin 4) (s : State) : Host.Outcome State Fault Refusal :=
  .next (
    if s.timeRuns && s.on pPTP (INST_CFG_EN inst.val) && s.get pPTP PTP_CTRL_INST == inst.val
        && s.on pPTP PTP_CTRL_SERVO_EN && s.get pTMB TMB_CTRL_SRC == 1 && !s.followsTwinTime then
      let s1 := (s.set pTMB TMB_STAT_HOLDOVER 1).irq pTMB INT_TMB_HOLDOVER
      let s2 := ({ s1 with tb.lockCnt := 0 }).set pTMB TMB_STAT_LOCKED 0
      let s3 := (s2.set pPTP PTP_STAT_SYNCED 0).irq pPTP INT_PTP_SYNC_LOST
      s3.err pTMB 0xE213 0
    else s)

/-- The read of PTP_TS_NS pops the head (R74, Table 03-10). -/
def ptpPop (s : State) : State := ({ s with tb.fifo := s.tb.fifo.tail }).showFifo

def execPtpTsNsRead (a : Access) (s : State) : Host.Outcome State Fault Refusal :=
  .next (s.regRead a pPTP PTP_TS_NS ptpPop)

/-- The link delay to the twin is measured again (R75). -/
def execTwinLinkDelayMeasure (delay : Nat) (s : State) : Host.Outcome State Fault Refusal :=
  .next (if s.timeRuns && 2 ≤ s.get pTWL TWL_STAT_ST then s.wrn pTMB TMB_TWIN_DLY delay else s)

/-- A time word of the twin with the offset it shows, 0.25 ns units (R75, R76). DESIGN CHOICE: an offset beyond the 32-bit range
saturates. -/
def State.twinTimeWord (s : State) (offset : Int) : State :=
  if s.followsTwinTime && s.timeRuns then
    let s1 := s.seti pTMB TMB_TWIN_OFS_V (clampInt 32 offset)
    let s2 := s1.freeRate
    if 8 < offset.natAbs then
      ((s2.set pTMB TMB_STAT_TWIN_ALIGNED 0).irq pTMB INT_TMB_TWIN_ALIGN).err pTMB 0xE214 0
    else s2.set pTMB TMB_STAT_TWIN_ALIGNED 1
  else s

end Sys2Proof.Machine
end

