-- ==== Sys2Proof/Machine/Buffers.lean ====
section
/-!
DEFINITION. The cell buffer (spec/05 R149-R179): pools, admission with WRED, spill, headroom and push-out, flow control
groups, and the tables it reads.
-/

namespace Sys2Proof.Machine

/-! Fields of the BUF tables (Table 05-6). -/
abbrev qMIN : TFld := ⟨0, 0, 15⟩
abbrev qSPILL_THR : TFld := ⟨0, 16, 15⟩
abbrev qSPILL_EN : TFld := ⟨0, 31, 1⟩
abbrev qWRED (colour : Nat) : TFld := ⟨1, 8 * colour, 5⟩
abbrev qLOSSLESS : TFld := ⟨1, 24, 1⟩
abbrev qDRAM_MAX : TFld := ⟨2, 0, 24⟩
abbrev qMAX_SDU : TFld := ⟨3, 0, 14⟩
abbrev wMIN_TH : TFld := ⟨0, 0, 24⟩
abbrev wMAX_TH : TFld := ⟨1, 0, 24⟩
abbrev wMAX_P : TFld := ⟨2, 0, 8⟩
abbrev wWEIGHT : TFld := ⟨2, 8, 4⟩
abbrev gXOFF_TH : TFld := ⟨0, 0, 24⟩
abbrev gXON_TH : TFld := ⟨1, 0, 24⟩
abbrev gHDRM : TFld := ⟨2, 0, 15⟩
abbrev bFC : TFld := ⟨0, 0, 2⟩
abbrev bPFC_EN : TFld := ⟨0, 8, 8⟩
abbrev bPGRP : TFld := ⟨0, 16, 3⟩
abbrev bSTORM_ACT : TFld := ⟨0, 24, 1⟩
abbrev bQUANTA : TFld := ⟨1, 0, 16⟩
abbrev bPFC_WD : TFld := ⟨2, 0, 16⟩
abbrev bSTORM : TFld := ⟨2, 16, 16⟩
abbrev bRATE : TFld := ⟨3, 0, 28⟩
abbrev bTAS_EN : TFld := ⟨4, 0, 1⟩
abbrev bHOLD_ADV : TFld := ⟨4, 8, 8⟩
abbrev bPAUSED (c : Nat) : TFld := ⟨5, c, 1⟩
abbrev bXOFF (c : Nat) : TFld := ⟨5, 8 + c, 1⟩
abbrev bTRIPPED (c : Nat) : TFld := ⟨5, 16 + c, 1⟩
abbrev cEN : TFld := ⟨0, 0, 1⟩
abbrev cIDLE : TFld := ⟨1, 0, 28⟩

/-- A 32-bit wrapping counter word of a table entry, held while its page is frozen (R145, spec/02 R43). -/
def State.tcnt (s : State) (p t i w : Nat) (d : Nat := 1) : State :=
  if s.frozen p then s else s.tset t i w ((s.tget t i w + d) % 2 ^ 32)

/-- An error that is posted and captured at most once in `period` clocks; key names its kind and place. -/
def State.errLimited (s : State) (key period p code loc : Nat) : State :=
  let last := sget 0 key s.sw.limited
  if last = 0 ∨ last - 1 + period ≤ s.tb.clocks then
    { s with sw.limited := sput 0 key (s.tb.clocks + 1) s.sw.limited }.err p code loc
  else s

/-- Clocks in 1 ms and 1 s. -/
abbrev clocksPerMs : Nat := 500000
abbrev clocksPerS : Nat := 500000000

/-- Cells of a copy (R149). -/
def Copy.cells (c : Copy) : Nat := (c.len + 127) / 128

def Copy.onChip (c : Copy) : Bool :=
  match c.place with
  | .dram _ => false
  | _ => true

def cellsWhere (l : List Copy) (f : Copy → Bool) : Nat := (l.filter f).foldl (fun n c => n + Copy.cells c) 0

/-- On-chip cells of queue q. -/
def State.qOn (s : State) (q : Nat) : Nat := cellsWhere s.sw.held fun c => c.q == q && Copy.onChip c

/-- DRAM cells of queue q. -/
def State.qDram (s : State) (q : Nat) : Nat := cellsWhere s.sw.held fun c => c.q == q && !Copy.onChip c

/-- Size of the shared pool (R150). -/
def State.sharedSize (s : State) : Nat := 32768 - s.get pBUF BUF_POOL_RSV - s.get pBUF BUF_POOL_HEAD

def State.sharedFree (s : State) : Nat :=
  s.sharedSize - cellsWhere s.sw.held fun c => c.place == .shared

/-- Pool totals from the tables (Table 05-1). -/
def State.poolTotals (s : State) : Nat × Nat :=
  (List.range 272).foldl (fun a i => (a.1 + s.tf tQUEUE i qMIN, a.2 + s.tf tIGRP i gHDRM)) (0, 0)

/-- Ports with pause and PFC: U, TW, M, G (Table 04-1, R173). -/
def fcPort (p : Nat) : Bool := p < 15

/-- The class whose group counts a copy of port p and class c, none where the port has no flow control for it (R173, R180):
with pause, group 8 × p counts all classes. -/
def State.fcClass (s : State) (p c : Nat) : Option Nat :=
  if p = 31 then (if (s.tf tBPORT 31 bPFC_EN).testBit c then some c else none)
  else if !fcPort p then none
  else if s.tf tBPORT p bFC = 1 then some 0
  else if s.tf tBPORT p bFC = 2 ∧ (s.tf tBPORT p bPFC_EN).testBit c then some c
  else none

/-- Cells that an ingress group counts (R154, R173). -/
def State.groupCount (s : State) (p c : Nat) : Nat :=
  if fcPort p && s.tf tBPORT p bFC == 1 then
    (if c = 0 then cellsWhere s.sw.held fun x => x.inPort == p else 0)
  else cellsWhere s.sw.held fun x => x.inPort == p && x.cls == c

/-- Headroom cells in use by a group (R176). -/
def State.headUsed (s : State) (p c : Nat) : Nat :=
  cellsWhere s.sw.held fun x => x.inPort == p && s.fcClass p x.cls == some c && x.place == .headroom

/-- Groups under flow control now. -/
def State.fcGroups (s : State) : List (Nat × Nat) :=
  ((31 :: List.range 15).map fun p =>
    ((List.range 8).filter fun c => s.fcClass p c == some c).map fun c => (p, c)).flatten

/-- A group's XOFF state changes; ports that send pause frames owe one (R174, R175, R180). -/
def State.setXoff (s : State) (p c : Nat) (x : Bool) : State :=
  if s.tfOn tBPORT p (bXOFF c) = x then s
  else
    let s1 := s.tfSet tBPORT p (bXOFF c) x.toNat
    if p = 31 then s1
    else { s1 with sw.pauseDue := (s1.sw.pauseDue.filter fun e => e != (p, c)) ++ [(p, c)] }

/-- XOFF and release of one group (R174, R179). -/
def State.judgeGroup (s : State) (g : Nat × Nat) : State :=
  let (p, c) := g
  let i := 8 * p + c
  let n := s.groupCount p c
  let s1 := if n ≤ s.tf tIGRP i gXON_TH then
      { s with sw.stormed := s.sw.stormed.filter fun e => e != g } else s
  let free := s1.sharedFree
  let full := decide (s1.tf tIGRP i gXOFF_TH ≤ n) ||
    (decide (free ≤ s1.get pBUF BUF_PFC_GLB_XOFF) && decide (s1.tf tQUEUE i qMIN < n))
  if s1.tfOn tBPORT p (bXOFF c) then
    if n ≤ s1.tf tIGRP i gXON_TH ∧ s1.get pBUF BUF_PFC_GLB_XON < free then s1.setXoff p c false else s1
  else if full && !s1.sw.stormed.contains g then s1.setXoff p c true
  else s1

/-- The readings that follow from what is held: free cells, and flow control (R150, R174). -/
def State.settle (s : State) : State :=
  (s.set pBUF BUF_FREE_V s.sharedFree).each s.fcGroups fun s g => s.judgeGroup g

/-- Spill buckets of engine e filled up to now (R163): Gbit/s is 2 bits a clock, up to 64 cells of 1,024 bits. -/
def State.splFill (s : State) (e : Nat) : State :=
  let d := s.tb.clocks - nth s.sw.splAt e 0
  { s with
    sw.splWr := setNth s.sw.splWr e (min 65536 (nth s.sw.splWr e 0 + d * 2 * s.get (pSPL e) SPL_BW_WR))
    sw.splRd := setNth s.sw.splRd e (min 65536 (nth s.sw.splRd e 0 + d * 2 * s.get (pSPL e) SPL_BW_RD))
    sw.splAt := setNth s.sw.splAt e s.tb.clocks }

/-- Cells an engine's quarter of the region holds (R162). -/
def State.splQuarter (s : State) : Nat := s.get pBUF BUF_SPILL_SIZE * 131072

/-- The engine of a copy: the active SPL_SEL entry of its hash (R125, R160). -/
def State.engineOf (s : State) (c : Copy) : Nat := s.get pSWC (SPL_SEL_ACTIVE (bitsOf c.hash 6 6))

/-- Queue q is spilling on engine e (R160). -/
def State.spilling (s : State) (q e : Nat) : Bool := s.sw.held.any fun x => x.q == q && x.place == .dram e

/-- Port link: internal ports always work; the PHYs of F and S ports are reached over their die bridge (R100). -/
def State.linkUp (s : State) (p : Nat) : Bool :=
  31 ≤ p || (s.on (pPORT p) PORT_STAT_LINK && (match phyDie p with | some d => s.dieUp d | none => true))

/-! What a port is doing: rate, gates, the frame in transmission, credits and tokens (R168-R172). -/

/-- Port rate in Mbit/s (Table 04-1, Table 04-15). -/
def State.portRate (s : State) (p : Nat) : Nat :=
  if p = 31 then 40000
  else if p = 32 then 2000
  else if p = 33 then 40000
  else [0, 10, 100, 1000, 2500, 5000, 10000, 20000].getD (s.get (pPORT p) PORT_STAT_SPEED) 0

/-- Ports with gate lists and credit shapers (Table 05-3). -/
def tasPort (p : Nat) : Bool := p < 27

/-- The active gate entry of a port at an index position (R169). -/
def State.gclAt (s : State) (p pos : Nat) : Nat := s.tget tGCL (64 * p + pos) 1

/-- The class gate at a position. -/
def State.gateAt (s : State) (p c pos : Nat) : Bool :=
  !(tasPort p && s.tfOn tBPORT p bTAS_EN) || (s.gclAt p pos).testBit c

def State.curPos (s : State) : Nat := s.get pIXP IXP_STAT_CUR_IX

def State.gateOpen (s : State) (p c : Nat) : Bool := s.gateAt p c s.curPos

/-- The class of port p has a frame in transmission. -/
def State.sendingOn (s : State) (p : Nat) : Option Copy := s.sw.held.find? fun c => c.q / 8 == p && c.sending == 1

/-- Credit of queue q after d clocks (R172): idleSlope and sendSlope in 10^-6 bit a clock, bounds with PORT_MAXLEN as the
largest frame. -/
def State.creditAfter (s : State) (pos p c d : Nat) : Int :=
  let q := 8 * p + c
  let cr := sget 0 q s.sw.credit
  let idle := s.tf tCBS q cIDLE
  let rate := s.portRate p * 1000
  let bits := s.get (pPORT p) PORT_MAXLEN_LEN * 8 * 1000000
  let hi : Int := (bits * idle / max 1 rate : Nat)
  let lo : Int := -((bits * (rate - idle) / max 1 rate : Nat) : Int)
  let mine := match s.sendingOn p with | some x => x.q == q | none => false
  let empty := !(s.sw.held.any fun x => x.q == q)
  if mine then max lo (cr + 2 * d * ((idle : Int) - rate))
  else if empty && decide (0 ≤ cr) then 0
  else if !s.gateAt p c pos then cr
  else
    let n := cr + 2 * d * idle
    if empty then min 0 n else min hi n

/-- Class c of port p has a credit-based shaper in use: on the ports of Table 05-3 only (R172). -/
def State.cbsOn (s : State) (p c : Nat) : Bool := tasPort p && s.tfOn tCBS (8 * p + c) cEN

/-- Credits of a port brought up to now, with the gates of a position since the last update. -/
def State.creditRunAt (s : State) (pos p : Nat) : State :=
  let l := (List.range 8).filter fun c => s.cbsOn p c
  if l.isEmpty then s
  else
    let d := s.tb.clocks - sget 0 p s.sw.creditAt
    { s with
      sw.credit := l.foldl (fun m c => sput 0 (8 * p + c) (s.creditAfter pos p c d) m) s.sw.credit
      sw.creditAt := sput 0 p s.tb.clocks s.sw.creditAt }

def State.creditRun (s : State) (p : Nat) : State := s.creditRunAt s.curPos p

/-- The port shaper's tokens now, 10^-6 bit; depth one PORT_MAXLEN (R168). -/
def State.portTokens (s : State) (p : Nat) : Int :=
  let cap : Int := (s.get (pPORT p) PORT_MAXLEN_LEN * 8 * 1000000 : Nat)
  let d := s.tb.clocks - sget 0 p s.sw.portTokAt
  min cap (sget cap p s.sw.portTok + (d * 2 * s.tf tBPORT p bRATE : Nat))

/-- A list of pairs with the pair of a key replaced, in rising order of keys. -/
def putPair {α : Type} (k : Nat) (v : α) : List (Nat × α) → List (Nat × α)
  | [] => [(k, v)]
  | e :: t => if k < e.1 then (k, v) :: e :: t else if k = e.1 then (k, v) :: t else e :: putPair k v t

def State.setSending (s : State) (id n : Nat) : State :=
  { s with sw.held := s.sw.held.map fun c => if c.id = id then { c with sending := n } else c }

/-- A frame starts: its length is taken from the port shaper. -/
def State.startFrame (s : State) (x : Copy) : State :=
  let p := x.q / 8
  let s1 := s.setSending x.id 1
  if s.tf tBPORT p bRATE = 0 then s1
  else
    { s1 with
      sw.portTok := putPair p (s.portTokens p - (x.len * 8 * 1000000 : Nat)) s1.sw.portTok
      sw.portTokAt := sput 0 p s.tb.clocks s1.sw.portTokAt }

/-- A copy is placed and counted; the credits of its port run up to its arrival (R172). -/
def State.hold1 (s : State) (c : Copy) (pl : Place) : State :=
  let s1 := s.creditRun (c.q / 8)
  (({ s1 with
    sw.held := s1.sw.held ++ [{ c with id := s1.sw.nextId, place := pl }]
    sw.nextId := s1.sw.nextId + 1 }).tcnt pBUF tQUEUE c.q 6)

/-- What becomes of a copy offered to admission: placed, dropped, or waiting for its push-out in the next clock (R159). -/
inductive Admit where
  | placed
  | dropped
  | waits
  deriving DecidableEq, Repr

/-- Step 7: placed in DRAM, or the reason it fails is counted (R161). -/
def State.trySpill (s : State) (c : Copy) : State × Bool :=
  let e := s.engineOf c
  let p := pSPL e
  if !s.on pBUF BUF_SPILL_EN || !s.tfOn tQUEUE c.q qSPILL_EN || decide (s.tf tQUEUE c.q qDRAM_MAX < s.qDram c.q + c.cells) then
    (s, false)
  else
    let s1 := s.splFill e
    if s1.splQuarter < s1.get p SPL_STAT_HELD + c.cells then
      ((((s1.cnt32 p SPL_CNT_FULL).irq p INT_SPL_FULL).set p SPL_STAT_FULL 1).errLimited (0x100 + e) clocksPerMs p 0x2215 0, false)
    else if nth s1.sw.splWr e 0 < c.cells * 1024 then ((s1.cnt32 p SPL_CNT_BWREF).irq p INT_SPL_BW_REF, false)
    else
      let s2 := { s1 with sw.splWr := setNth s1.sw.splWr e (nth s1.sw.splWr e 0 - c.cells * 1024) }
      let s3 := ((s2.set p SPL_STAT_HELD (s2.get p SPL_STAT_HELD + c.cells)).set p SPL_STAT_FULL 0).cnt32 p SPL_CNT_WR
      let s4 := if s3.frozen p then s3 else s3.set p SPL_PEAK_V (max (s3.get p SPL_PEAK_V) (s3.get p SPL_STAT_HELD))
      ((s4.hold1 c (.dram e)).tcnt pBUF tQUEUE c.q 10, true)

/-- WRED (R156, R157): the state with the new average, and whether the copy is dropped. Each draw takes the next state of the LFSR,
whose polynomial the spec does not give. -/
def State.wred (s : State) (c : Copy) : State × Bool :=
  let prof := s.tf tQUEUE c.q (qWRED c.colour)
  let n : Nat := (s.qOn c.q + s.qDram c.q) * 2 ^ 16
  let a : Nat := sget 0 c.q s.sw.wredAvg
  let w := s.tf tWRED prof wWEIGHT
  let a1 := ((a : Int) + ((n : Int) - a) / (2 ^ w : Nat)).toNat
  let s1 := { s with sw.wredAvg := sput 0 c.q a1 s.sw.wredAvg }
  let pfc := s.tf tBPORT c.inPort bFC == 2 && (s.tf tBPORT c.inPort bPFC_EN).testBit c.cls && fcPort c.inPort
  let lo := s.tf tWRED prof wMIN_TH * 2 ^ 16
  let hi := s.tf tWRED prof wMAX_TH * 2 ^ 16
  if prof = 0 ∨ s.tfOn tQUEUE c.q qLOSSLESS ∨ pfc then (s1, false)
  else if a1 < lo then (s1, false)
  else if hi ≤ a1 then (s1, true)
  else
    let r := Config.lfsrNext s1.sw.lfsr
    ({ s1 with sw.lfsr := r }, decide (r.toNat * 256 * (hi - lo) < s.tf tWRED prof wMAX_P * (a1 - lo) * 2 ^ 32))

/-! Push-out (R158, R159). -/

/-- The evictable tail frames of a victim, tail first: whole frames above MIN whose transmission has not begun. -/
def tailFrames (min : Nat) : Nat → List Copy → List Copy
  | _, [] => []
  | occ, c :: t =>
    if c.sending = 0 ∧ min + Copy.cells c ≤ occ then c :: tailFrames min (occ - Copy.cells c) t else []

def State.evictable (s : State) (q : Nat) : List Copy :=
  tailFrames (s.tf tQUEUE q qMIN) (s.qOn q) (s.sw.held.filter fun c => c.q == q && c.onChip).reverse

/-- The victims of a copy in the order of R159. -/
def State.victims (s : State) (c : Copy) : List Nat :=
  let grp := s.tf tBPORT (c.q / 8) bPGRP
  let l := (List.range 272).filter fun q =>
    s.tf tBPORT (q / 8) bPGRP == grp && decide (q % 8 < c.q % 8) && !s.tfOn tQUEUE q qLOSSLESS
      && decide (0 < s.qOn q) && s.qDram q == 0
  sortBy (fun a b =>
    decide (a % 8 < b % 8) || (a % 8 == b % 8 && (decide (s.qOn b < s.qOn a) || (s.qOn a == s.qOn b && decide (a ≤ b))))) l

/-- A held copy is removed; positive credit falls to 0 when its queue empties (R172). -/
def State.dropHeld (s : State) (c : Copy) : State :=
  let l := s.sw.held.filter fun x => x.id != c.id
  let cr := s.sw.credit
  { s with sw.held := l, sw.credit := if (l.any fun x => x.q == c.q) || decide (sget 0 c.q cr ≤ 0) then cr else sput 0 c.q 0 cr }

/-- Frames evicted until those evicted for the copy cover its `need` cells (DESIGN CHOICE for "until the copy fits", where SPILL_THR
alone kept it out too); a tail frame that starts transmission in this clock on an idle port stays and stops it. Answers the cells
evicted so far and whether the copy may be placed. -/
def State.evict (need : Nat) (starting : List Nat) : Nat → List Copy → State → State × Nat × Bool
  | freed, [], s => (s, freed, decide (need ≤ freed))
  | freed, v :: t, s =>
    if need ≤ freed then (s, freed, true)
    else if starting.contains v.q && (s.sendingOn (v.q / 8)).isNone then (s.startFrame v, freed, false)
    else
      State.evict need starting (freed + v.cells) t (((s.dropHeld v).tcnt pBUF tQUEUE v.q 9).cnt32 pBUF BUF_CNT_PUSH)

/-- Step 9, with the cells already evicted for the copy. Where a tail frame starts in the clock of the eviction, the copy waits for
the next clock (PUSH_OUT_RETRY) with what it draws from the copy bucket when it is placed. -/
def State.pushOut (s : State) (r : Retry) (starting : List Nat) : State × Admit :=
  let c := r.copy
  if c.mirror || decide (c.q % 8 < s.get pBUF BUF_CTRL_PUSH_MIN) || s.tfOn tQUEUE c.q qLOSSLESS then (s, .dropped)
  else
    let frames := ((s.victims c).map s.evictable).flatten
    let cover := frames.foldl (fun n x => n + Copy.cells x) 0
    if r.freed + cover < c.cells then (s, .dropped)
    else
      match s.evict c.cells starting r.freed frames with
      | (s1, _, true) => (s1.hold1 c .shared, .placed)
      | (s1, n, false) => ({ s1 with sw.retry := s1.sw.retry ++ [{ r with freed := n }] }, .waits)

/-- Step 10: the tail drop, counted for the queue and for the group whose headroom was full. -/
def State.tailDrop (s : State) (c : Copy) : State :=
  let s1 := match s.fcClass c.inPort c.cls with
    | some g => s.tcnt pBUF tIGRP (8 * c.inPort + g) 6
    | none => s
  s1.tcnt pBUF tQUEUE c.q 8

/-- Step 8: the group has headroom for the copy (R176). -/
def State.hasHeadroom (s : State) (c : Copy) : Bool :=
  match s.fcClass c.inPort c.cls with
  | some g => decide (s.headUsed c.inPort g + c.cells ≤ s.tf tIGRP (8 * c.inPort + g) gHDRM)
  | none => false

/-- Steps 8 to 10. -/
def State.admitLate (s : State) (c : Copy) (cost : Nat) (starting : List Nat) : State × Admit :=
  if s.hasHeadroom c then (s.hold1 c .headroom, .placed)
  else
    match s.pushOut ⟨c, cost, 0⟩ starting with
    | (s1, .dropped) => (s1.tailDrop c, .dropped)
    | r => r

/-- Steps 5 to 10. -/
def State.admitOnChip (s : State) (c : Copy) (cost : Nat) (starting : List Nat) : State × Admit :=
  let occ := s.qOn c.q + c.cells
  if occ ≤ s.tf tQUEUE c.q qMIN then (s.hold1 c .reserved, .placed)
  else if occ ≤ s.tf tQUEUE c.q qSPILL_THR ∧ c.cells ≤ s.sharedFree then (s.hold1 c .shared, .placed)
  else
    match s.trySpill c with
    | (s1, true) => (s1, .placed)
    | (s1, false) => s1.admitLate c cost starting

/-- Admission (Table 05-2) of a copy that draws `cost` from the copy bucket when it is placed. -/
def State.offerCopy (s : State) (c : Copy) (cost : Nat) (starting : List Nat) : State × Admit :=
  let p := c.q / 8
  let sdu := s.tf tQUEUE c.q qMAX_SDU
  if !s.linkUp p then (s.cnt32 (pPORT p) CNT_TX_LINKDROP, .dropped)
  else if (if sdu = 0 then s.get (pPORT p) PORT_MAXLEN_LEN else sdu) < c.len then (s.tcnt pBUF tQUEUE c.q 11, .dropped)
  else
    match s.wred c with
    | (s1, true) => (s1.tcnt pBUF tQUEUE c.q 7, .dropped)
    | (s1, false) =>
      if s1.spilling c.q (s1.engineOf c) then
        match s1.trySpill c with
        | (s2, true) => (s2, .placed)
        | (s2, false) => s2.admitLate c cost starting
      else s1.admitOnChip c cost starting

/-- What a copy holds in DRAM is freed. -/
def State.freeDram (s : State) (c : Copy) : State :=
  match c.place with
  | .dram e => (s.set (pSPL e) SPL_STAT_HELD (s.get (pSPL e) SPL_STAT_HELD - c.cells)).set (pSPL e) SPL_STAT_FULL 0
  | _ => s

/-- A copy leaves the buffer. -/
def State.release (s : State) (c : Copy) : State := (s.dropHeld c).freeDram c

/-- Every frame queued on a port is dropped and counted, those that wait for their push-out too (R101, R166). -/
def State.dropPort (s : State) (p : Nat) : State :=
  let l := s.sw.held.filter fun c => c.q / 8 == p
  let w := s.sw.retry.filter fun r => r.copy.q / 8 == p
  let s1 := (s.each l fun s c => (s.release c).cnt32 (pPORT p) CNT_TX_LINKDROP).cnt32 (pPORT p) CNT_TX_LINKDROP w.length
  ({ s1 with
    sw.retry := s1.sw.retry.filter fun r => r.copy.q / 8 != p
    sw.pauseDue := s1.sw.pauseDue.filter fun (e : Nat × Nat) => e.1 != p }).settle

/-- Frames of one clock are taken in ascending order of ingress port, and before the cells that a transmission frees in that clock
(spec/04 R135, R152). DESIGN CHOICE: a frame that stands in the queue after one of a higher port, or after the end of a transmission,
of the same clock arrives in the next clock. -/
def State.ingressTurn (s : State) (p : Nat) : State :=
  let late := match s.sw.lastIn with
    | some (c, q) => c == s.tb.clocks && decide (p ≤ q)
    | none => false
  let s1 := if late || s.sw.freedAt == s.tb.clocks + 1 then s.advance 1 else s
  { s1 with sw.lastIn := some (s1.tb.clocks, p) }

end Sys2Proof.Machine
end

