-- ==== Sys2Proof/Machine/Plate.lean ====
section
/-!
DEFINITION. The indexing plate (spec/03 R78-R95, R605): its table and commits, starts, edges, corrections, re-indexes,
following of CYC_SYNC, of a gPTP schedule and of the Headstock, CYC_OUT and index events.
-/

namespace Sys2Proof.Machine

/-- Nominal cycle length of the active table, 0.25 ns units: LEN × 12.5 µs (R78). -/
def State.plateL (s : State) : Nat := s.get pIXP IXP_ACT_LEN * 50000

/-- The greatest magnitude of a correction: min(L / 100, 5 µs) (R86). -/
def State.plateCmax (s : State) : Nat := min (s.plateL / 100) 20000

def clampAbs (m : Nat) (i : Int) : Int := if (m : Int) < i then m else if i < -(m : Int) then -(m : Int) else i

/-- The scaled offset of edge k in the current cycle: floor(SLOT_EDGE_k × (L + c) / L) (R87). -/
def State.edgeOffset (s : State) (k : Nat) : Nat :=
  s.get pIXP (ACT_EDGE_OFS k) * s.plate.length / s.plateL

/-- The shadow table as a candidate (R80). -/
def State.shadowTable (s : State) : PlateTable :=
  { len := s.get pIXP IXP_TBL_LEN
    safeIx := s.get pIXP IXP_TBL_SAFE_IX
    edges := (List.range 64).map fun k => s.get pIXP (SLOT_EDGE_OFS k) }

/-- Each edge lies at least 1.0 µs (4,000 units) after the one before it. -/
def edgesRise : List Nat → Bool
  | a :: b :: t => decide (a + 4000 ≤ b) && edgesRise (b :: t)
  | _ => true

/-- R80: LEN in 8 to 800, every position at least 1.0 µs long, the last one too. -/
def PlateTable.valid (t : PlateTable) : Bool :=
  decide (8 ≤ t.len) && decide (t.len ≤ 800) && edgesRise t.edges
    && decide (t.edges.getD 63 0 + 4000 ≤ t.len * 50000)

/-- The effect of a COMMIT (R80). -/
def State.commitTable (s : State) : State :=
  let t := s.shadowTable
  if PlateTable.valid t then
    ({ s with plate.pendTable := some t }).set pIXP IXP_CTRL_COMMIT_PEND 1
  else (s.irq pIXP INT_IXP_COMMIT_REF).err pIXP 0xE010 0

/-- A change of SRC ends the waiting for boundaries of the old source's instants, and the cycle it falls in is no whole cycle without
a pulse (R91). -/
def ixpCtrlEff (v : Word) (s : State) : State :=
  let s0 := s.plain pIXP IXP_CTRL v
  let s1 := if s0.get pIXP IXP_CTRL_SRC = s.get pIXP IXP_CTRL_SRC then s0
    else { s0 with plate.waiting := s0.plate.waiting.filter fun e => e.2, plate.quiet := 0, plate.pulsed := true }
  if v.getLsbD 16 then s1.commitTable else s1

def execIxpCommit (a : Access) (v : Word) (s : State) : Host.Outcome State Fault Refusal :=
  .next (s.regWrite a pIXP IXP_CTRL v noCause (ixpCtrlEff v))

/-- Once the plate has started, EN = 0 is refused (R82). -/
def ixpEnPre (v : Word) (s : State) : Option Nat :=
  if s.plate.started && !v.getLsbD 0 then some 0x0B else none

/-- EN = 1 arms the plate, EN = 0 before the start disarms it (R82). DESIGN CHOICE: a repeated write of EN = 1 keeps the instant
of the first. -/
def State.armPlate (s : State) (en : Bool) : State :=
  if s.plate.started then s
  else if en then { s with plate.armed := some (s.plate.armed.getD (s.nowQ : Int)) }
  else { s with plate.armed := none, plate.startAt := none }

/-- IXP_STAT.MODE (Table 03-13). -/
def State.plateMode (s : State) (c : Int) : Nat :=
  if s.plate.inReindex then 3
  else if c ≠ 0 then 2
  else if s.followsTwinPlate then 1
  else if s.get pIXP IXP_CTRL_SRC = 0 ∨ (s.get pIXP IXP_CTRL_SRC = 1 ∧ s.on pIXP IXP_STAT_SYNC_LOST) then 0
  else 1

/-- Cycle number a lies before b or is b: numbers wrap at 2^32 and are compared round the nearer way (DESIGN CHOICE). -/
def cycleLe (a b : Nat) : Bool := decide ((b + 2 ^ 32 - a % 2 ^ 32) % 2 ^ 32 < 2 ^ 31)

/-- The number of the cycle that comes n after the current one. -/
def State.cycleOn (s : State) (n : Nat) : Nat := ((s.rd pIXP IXP_CYC).toNat + n) % 2 ^ 32

/-- A plate announcement of the Headstock (R93). -/
def State.sendAnnounce (s : State) (kind : AnnKind) (cycle length time : Nat) : State :=
  if s.isHeadstock then s.emit (.announce kind cycle length s.tableCrc time) else s

/-- The pending table becomes active (R15, R80). -/
def State.activateTable (s : State) : State :=
  match s.plate.pendTable with
  | none => s
  | some t =>
    let s1 := (s.set pIXP IXP_ACT_LEN t.len).set pIXP IXP_ACT_SAFE_IX t.safeIx
    let s2 := s1.each (List.range 64) fun s k => s.set pIXP (ACT_EDGE_OFS k) (t.edges.getD k 0)
    (({ s2 with plate.pendTable := none }).set pIXP IXP_CTRL_COMMIT_PEND 0).irq pIXP INT_IXP_COMMIT_DONE

/-- Index position k is reached at module time te; the trail keeps the positions of the last 2 ms (spec/04 R116). -/
def State.reachPos (s : State) (k : Nat) (te : Int) : State :=
  ({ s with plate.trail := (te, k) :: s.plate.trail.takeWhile fun e => te - e.1 ≤ 8000000 }).set pIXP IXP_STAT_CUR_IX k

/-- The index position at module time q: the last one reached by then. -/
def State.posAt (s : State) (q : Int) : Nat :=
  match s.plate.trail.find? fun e => e.1 ≤ q with
  | some e => e.2
  | none => s.get pIXP IXP_STAT_CUR_IX

def lookupCycle {α : Type} (c : Nat) : List (Nat × α) → Option α
  | [] => none
  | e :: t => if e.1 = c then some e.2 else lookupCycle c t

/-- Sum of the decided corrections whose cycles have not ended (R86). -/
def State.corrSum (s : State) : Int := s.plate.corr.foldl (fun a e => a + e.2) 0

/-- The first cycle that begins at least 2 µs after module time tm (R86, R88). -/
def State.cycleAfter (s : State) (tm : Int) : Nat :=
  if tm + 8000 ≤ s.plate.boundary + s.plate.length then s.cycleOn 1 else s.cycleOn 2

/-- The table of the coming cycles: the one that waits for the boundary, else the active one. -/
def State.comingTable (s : State) : PlateTable :=
  s.plate.pendTable.getD
    { len := s.get pIXP IXP_ACT_LEN, safeIx := s.get pIXP IXP_ACT_SAFE_IX
      edges := (List.range 64).map fun k => s.get pIXP (ACT_EDGE_OFS k) }

/-- The module time at which a coming cycle begins, at nominal lengths after the next boundary. -/
def State.cycleStart (s : State) (cycle : Nat) : Int :=
  s.plate.boundary + s.plate.length + (((cycle + 2 ^ 32 - s.cycleOn 1) % 2 ^ 32 * (s.comingTable.len * 50000) : Nat) : Int)

/-- How far the phase moves forward (0 to L − 1) to reach the reference phase of the instant r (R88). -/
def State.phaseShift (s : State) (r : Int) : Nat :=
  ((s.plate.boundary - r) % ((max 1 s.plateL : Nat) : Int)).toNat

/-- The first instant of the reference phase r after module time t, for a cycle length L. -/
def nextInstant (L : Nat) (r t : Int) : Int := t + (L : Int) - (t - r) % ((max 1 L : Nat) : Int)

/-- A re-index is planned for a coming cycle; every pending correction is dropped (R88). It is announced with the first boundary
after its jump (R93). -/
def State.planReindex (s : State) (cycle : Nat) (ref : PhaseRef) : State :=
  let s1 := { s with plate.reindex := some ⟨cycle, ref⟩, plate.corr := [] }
  let x := s1.comingTable
  let b := s1.cycleStart cycle
  let r := match ref with
    | .own => b
    | .instant t => t
    | .nextBoundary t => t
  s1.sendAnnounce .reindex cycle (x.len * 50000) (nextInstant (x.len * 50000) r (b + (x.edges.getD x.safeIx 0 : Nat))).toNat

/-- A correction is decided: added to one its cycle already carries, the sum limited to Cmax (R86). -/
def State.decideCorrection (s : State) (cycle : Nat) (c : Int) : State :=
  let cur := (lookupCycle cycle s.plate.corr).getD 0
  let sum := clampAbs s.plateCmax (cur + clampAbs s.plateCmax c)
  let s1 := { s with plate.corr := (s.plate.corr.filter fun (e : Nat × Int) => e.1 != cycle) ++ [(cycle, sum)] }
  s1.sendAnnounce .correction cycle ((s1.plateL : Int) + sum).toNat 0

/-- CYC_SYNC pulses act: SRC = 0b01, the plate not following the Headstock (R91). -/
def State.syncActs (s : State) : Bool :=
  s.timeRuns && s.get pIXP IXP_CTRL_SRC == 1 && !s.followsTwinPlate

/-- The offset of the boundary nearest to a reference instant, from one boundary p: another boundary lies whole cycle lengths from
it, so that the magnitude never exceeds L/2 (R85). -/
def State.nearOffset (s : State) (ref p : Int) : Int :=
  let L : Int := (max 1 s.plateL : Nat)
  if 2 * (p - ref).natAbs ≤ s.plateL then p - ref else (p - ref + L / 2) % L - L / 2

/-- The offset e = P − reference is measured and judged (R85, R86, R88). While a re-index waits for its jump, nothing is decided and
the reference phase is replaced, but for one that the Headstock announced (R93). After a fall-back to free-running no
correction is decided until following restarts (R91). DESIGN CHOICE: an offset beyond the 32-bit range saturates. -/
def State.measure (s : State) (ref p : Int) : State :=
  let e := s.nearOffset ref p
  let s1 := s.seti pIXP IXP_ERR_V (clampInt 32 e)
  match s1.plate.reindex with
  | some ⟨_, .nextBoundary _⟩ => s1
  | some r => { s1 with plate.reindex := some { r with ref := .instant ref } }
  | none =>
    if s1.syncActs && s1.on pIXP IXP_STAT_SYNC_LOST then s1
    else
      let w := e + s1.corrSum
      let cycle := s1.cycleAfter s1.nowQ
      if 4 * w.natAbs ≤ s1.plateL then (if w = 0 then s1 else s1.decideCorrection cycle (-w))
      else s1.planReindex cycle (.instant ref)

/-- A reference instant: paired with the nearest boundary; measured now, or at that boundary when it is yet to come (R85). -/
def State.reference (s : State) (ref : Int) (announced : Bool) : State :=
  let b := s.plate.boundary
  let n := b + s.plate.length
  if ref ≤ b ∨ ref - b ≤ n - ref then s.measure ref b
  else { s with plate.waiting := s.plate.waiting ++ [(ref, announced)] }

/-- An instant that waited for boundary t: measured there, unless its source no longer acts; one that lies nearer to a later
boundary waits on (R85). -/
def State.waited (s : State) (t : Int) (r : Int × Bool) : State :=
  if r.2 != s.followsTwinPlate then s
  else if 2 * (r.1 - t) ≤ s.plate.length then s.measure r.1 t
  else { s with plate.waiting := s.plate.waiting ++ [r] }

/-- The cycle that begins at module time t is given its number and length; a pending table becomes active, a planned re-index
begins, a freeze ends, instants that waited for the boundary are measured, the boundary is announced (R15, R80, R86-R93).
byJump: the boundary was produced by a jump (R88, R89). A cycle counts as one without a pulse when pulses acted at both its ends and
none was accepted in it (R91). DESIGN CHOICE: the cycle number wraps from 2^32 − 1 to 0. -/
def State.beginCycle (s : State) (t : Int) (cycle : Nat) (byJump : Bool) : State :=
  let cyc := cycle % 2 ^ 32
  let s1 := (s.wrn pIXP IXP_CYC cyc).activateTable
  let s2 := { s1 with
    plate.boundary := t
    plate.next := 1
    plate.acted := 0
    plate.corr := s1.plate.corr.filter fun e => cycleLe cyc e.1
    plate.announced := s1.plate.announced.filter fun e => cycleLe cyc e.1
    plate.quiet := if s1.plate.pulsed || !s1.syncActs then 0 else s1.plate.quiet + 1
    plate.pulsed := !s1.syncActs
    plate.pulse := false }
  let s3 := if s.plate.pulse then s2.emit (.cycOut (s2.on pIXP IXP_OUT_POL)) else s2
  let s4 := if s3.plate.jumped && !byJump then
      ({ s3 with plate.jumped := false }).set pIXP IXP_STAT_FROZEN 0 else s3
  let starts := match s4.plate.reindex with
    | some r => !byJump && cycleLe r.cycle cyc
    | none => false
  let s5 := if starts then ({ s4 with plate.inReindex := true }).set pIXP IXP_STAT_FROZEN 1 else s4
  let own := (lookupCycle cyc s5.plate.corr).getD 0
  let fromAnn : Int := match lookupCycle cyc s5.plate.announced with
    | some l => if s5.followsTwinPlate then (l : Int) - s5.plateL else 0
    | none => 0
  let c := if s5.plate.inReindex || byJump then 0 else clampAbs s5.plateCmax (own + fromAnn)
  let s6 := { s5 with plate.length := ((s5.plateL : Int) + c).toNat }
  let s6a := s6.seti pIXP IXP_CORR_V c
  let s7 := if byJump then s6a else s6a.reachPos 0 t
  let s8 := (s7.set pIXP IXP_STAT_MODE (s7.plateMode c)).set pIXP IXP_STAT_TWIN_LED s7.followsTwinPlate.toNat
  let s9 := s8.sendAnnounce .boundary cyc s8.plate.length t.toNat
  ({ s9 with plate.waiting := [] }).each s9.plate.waiting fun s r => s.waited t r

/-- What happened at an edge, for the consumers of Table 03-5: the position reached, whether it began a cycle, whether it is
the edge that a jump counts as, and whether consumers that act once per position and cycle number act (R90). -/
structure EdgeEvent where
  pos : Nat
  boundary : Bool
  jump : Bool
  act : Bool
  deriving DecidableEq, Repr

/-- The position that holds phase φ: the last edge at or before it. -/
def State.positionAt (s : State) (phase : Nat) : Nat :=
  (List.range 64).foldl (fun m k => if s.edgeOffset k ≤ phase then k else m) 0

/-- A consumer that acts once per position and cycle number acts at position k only the first time (R90). -/
def State.firstAct (s : State) (k : Nat) : State × Bool :=
  if s.plate.acted.testBit k then (s, false)
  else ({ s with plate.acted := s.plate.acted ||| 2 ^ k }, true)

/-- The jump at the edge of IX_SAFE_IX in the re-index cycle, at module time te (R88, R93, R605). -/
def State.plateJump (s : State) (te : Int) : State × List EdgeEvent :=
  match s.plate.reindex with
  | none => (s, [])
  | some r =>
    let L := s.plateL
    let f := match r.ref with
      | .own => 0
      | .instant t => s.phaseShift t
      | .nextBoundary t => s.phaseShift t
    let forward := decide (2 * f ≤ L)
    let phase : Int := te - s.plate.boundary + (if forward then (f : Int) else (f : Int) - L)
    let s1 := { s with plate.reindex := s.plate.again, plate.again := none, plate.inReindex := false, plate.jumped := true, plate.length := L }
    let s2 := ((s1.irq pIXP INT_IXP_REINDEX).err pIXP 0xE212 0).cnt pIXP IXP_CNT_REINDEX
    let newPhase := if (L : Int) ≤ phase then phase - L else if phase < 0 then phase + L else phase
    let b := te - newPhase
    let s3 := if (L : Int) ≤ phase then s2.beginCycle b ((s2.rd pIXP IXP_CYC).toNat + 1) true
      else { s2 with plate.boundary := b }
    let k := s3.positionAt newPhase.toNat
    let s4 := ({ s3 with plate.next := k + 1 }).reachPos k te
    let landed := f != 0 && decide ((s4.edgeOffset k : Int) = newPhase)
    let r := if landed then s4.firstAct k else (s4, false)
    (r.1, [⟨k, decide ((L : Int) ≤ phase), true, r.2⟩])

/-- The plate reaches its next edge (R79): the time base runs up to it; the edge of position 64 is the cycle boundary. -/
def State.plateEdge (s : State) : State × List EdgeEvent :=
  if !s.plate.started || !s.timeRuns then (s, [])
  else
    let isB := decide (64 ≤ s.plate.next)
    let te : Int := s.plate.boundary + (if isB then s.plate.length else s.edgeOffset s.plate.next : Nat)
    let k := if isB then 0 else s.plate.next
    let s1 := s.advanceTo te.toNat
    let s2 := if isB then s1.beginCycle te ((s1.rd pIXP IXP_CYC).toNat + 1) false
      else ({ s1 with plate.next := k + 1 }).reachPos k te
    let r := s2.firstAct k
    let j := if r.1.plate.inReindex && k == r.1.get pIXP IXP_ACT_SAFE_IX then r.1.plateJump te else (r.1, [])
    (j.1, ⟨k, isB, false, r.2⟩ :: j.2)

/-- The plate starts with a boundary at module time t (R82). -/
def State.startPlate (s : State) (t : Int) (cycle : Nat) : State × List EdgeEvent :=
  let s1 := { s with plate.started := true, plate.armed := none, plate.startAt := none, plate.pulsed := true }
  let (s2, act) := (s1.beginCycle t cycle false).firstAct 0
  (s2, [⟨0, true, false, act⟩])

/-- IXP_BASE as module time (Table 03-12). -/
def State.ixpBase (s : State) : Nat := (s.rd pIXP IXP_BASE_S).toNat * quartersPerSecond + (s.rd pIXP IXP_BASE_NS).toNat

/-- The first reference instant IXP_BASE + n × L at or after module time t (R84). -/
def State.gptpAt (s : State) (t : Nat) : Nat :=
  let L := max 1 s.plateL
  t + (((s.ixpBase : Int) - (t : Int)) % (L : Int)).toNat

/-- The start under the condition of the role and source in force (R82); none where the condition does not hold. -/
def State.plateStarting (s : State) : Option (State × List EdgeEvent) :=
  match s.plate.armed with
  | none => none
  | some t0 =>
    if s.plate.started || !s.timeRuns then none
    else if s.followsTwinPlate then
      match s.plate.startAt with
      | some (t, c) => some ((s.advanceTo t.toNat).startPlate t c)
      | none => none
    else if s.get pIXP IXP_CTRL_SRC = 0 then
      let s1 := s.advanceTo (t0 + 8000).toNat
      some (s1.startPlate s1.nowQ 0)
    else if s.get pIXP IXP_CTRL_SRC = 2 then
      let t := s.gptpAt (max s.nowQ (t0 + 8000).toNat)
      some ((s.advanceTo t).startPlate t 0)
    else none

/-- CYC_OUT and index events at the edge of a position (R94, R95). -/
def State.plateConsumers (s : State) (e : EdgeEvent) : State :=
  if !e.act then s
  else
    let s1 := if s.on pIXP IXP_OUT_EN && s.get pIXP IXP_OUT_IX_SEL == e.pos then
        ({ s with plate.pulse := true }).emit (.cycOut (!s.on pIXP IXP_OUT_POL)) else s
    s1.each (List.range 16) fun s j =>
      if s.on pIXP (IX_EVT_EN j) && s.get pIXP (IX_EVT_POS j) == e.pos then s.set pIXP (IX_EVT_PEND j) 1 else s

/-- The edge of CYC_SYNC that SYNC_POL selects comes at module time `now` and is accepted or ignored (R91); a start it gives is
answered with its edge. DESIGN CHOICE: while the plate has neither started nor been armed, a pulse is not captured or counted. -/
def State.cycSync (s : State) (now : Nat) : State × List EdgeEvent :=
  let early := match s.plate.lastPulse with
    | some t => decide (2 * ((now : Int) - t) < s.plateL)
    | none => false
  if !s.plate.started && s.plate.armed.isNone then (s, [])
  else if early then ((s.irq pIXP INT_IXP_SYNC_IGN).cnt pIXP IXP_CNT_IGNORED, [])
  else
    let s1 := { s with plate.lastPulse := some (now : Int), plate.quiet := 0, plate.pulsed := true }
    let s2 := (s1.wrn pIXP IXP_SYNC_S (stampSec now)).wrn pIXP IXP_SYNC_NS (stampNs now)
    if !s2.plate.started then s2.startPlate now 0
    else
      let s3 := if s2.on pIXP IXP_STAT_SYNC_LOST then
          (s2.set pIXP IXP_STAT_SYNC_LOST 0).irq pIXP INT_IXP_SYNC_BACK else s2
      (s3.reference now false, [])

/-- Module time reaches the next reference instant of the gPTP schedule (R84): the one after the last, or after a step of module
time the first at or after the present. -/
def execGptpReferenceInstant (s : State) : Host.Outcome State Fault Refusal :=
  .next (
    if s.plate.started && s.timeRuns && s.get pIXP IXP_CTRL_SRC == 2 && !s.followsTwinPlate then
      let t := s.gptpAt (match s.plate.lastGptp with | some l => max s.nowQ (l + 1) | none => s.nowQ)
      ({ s.advanceTo t with plate.lastGptp := some t }).reference t false
    else s)

/-- No pulse accepted within 8 cycles: free-running (R91). -/
def execSyncLostFreerun (s : State) : Host.Outcome State Fault Refusal :=
  .next (
    if s.plate.started && s.syncActs && decide (8 ≤ s.plate.quiet) && !s.on pIXP IXP_STAT_SYNC_LOST then
      let s1 := (s.irq pIXP INT_IXP_FREERUN).set pIXP IXP_STAT_SYNC_LOST 1
      (s1.cnt pIXP IXP_CNT_FREERUN).err pIXP 0xE211 0
    else s)

/-- A boundary announcement of the Headstock (R93). -/
def State.annBoundary (s : State) (cycle length crc : Nat) (t : Int) : State :=
  let s1 := { s with
    plate.announced := (s.plate.announced.filter fun (e : Nat × Nat) => e.1 != cycle) ++ [(cycle, length)]
    plate.lastAnn := some (cycle, t, length)
    plate.differ := if crc = s.tableCrc then 0 else s.plate.differ + 1 }
  if s1.plate.started then
    let near := decide (t ≤ s1.plate.boundary ∨ t - s1.plate.boundary ≤ s1.plate.boundary + s1.plate.length - t)
    let cur := if near then cycle % 2 ^ 32 else (cycle + 2 ^ 32 - 1) % 2 ^ 32
    let s2 := if cycleLe (s1.cycleOn 1) cur then s1.wrn pIXP IXP_CYC cur else s1
    s2.reference t true
  else
    match s1.plate.armed with
    | some t0 => if t0 + 8000 ≤ s1.nowQ then { s1 with plate.startAt := some (t + length, cycle + 1) } else s1
    | none => s1

/-- A plate announcement is received `clocks` clocks after the command before it (R93). Only a plate that follows the
Headstock acts on it. -/
def execPlateAnnouncement (clocks : Nat) (kind : AnnKind) (cycle length crc seconds quarters : Nat) (s : State) :
    Host.Outcome State Fault Refusal :=
  .next (
    let s1 := s.advance clocks
    if s1.followsTwinPlate && s1.timeRuns then
      let t : Int := (seconds * quartersPerSecond + quarters : Nat)
      match kind with
      | .boundary => s1.annBoundary cycle length crc t
      | .correction =>
        { s1 with plate.announced := (s1.plate.announced.filter fun (e : Nat × Nat) => e.1 != cycle) ++ [(cycle, length)] }
      | .reindex =>
        if s1.plate.started then
          { s1 with plate.reindex := some ⟨cycle, .nextBoundary t⟩, plate.corr := [] }
        else s1
    else s1)

/-- The table CRC has differed from the Headstock's for 2 consecutive cycles (R93). -/
def execTwinTableMismatch (s : State) : Host.Outcome State Fault Refusal :=
  .next (
    if s.followsTwinPlate && decide (2 ≤ s.plate.differ) then
      (({ s with plate.differ := 0 }).irq pIXP INT_IXP_TWIN_TBL).err pIXP 0xE215 0
    else s)

/-- The CYC_OUT pulse ends (R94). -/
def execCycOutPulseEnd (s : State) : Host.Outcome State Fault Refusal :=
  .next (
    if s.plate.pulse then ({ s with plate.pulse := false }).emit (.cycOut (s.on pIXP IXP_OUT_POL)) else s)

/-- Registers of the IXP page that a soft reset of a started plate leaves: those of R42, and what shows the running plate: the
active table, the cycle number, the correction of the current cycle, the state, and EN, since the plate runs on (R605). -/
def plateKept (off : Nat) : Bool :=
  off == OWNER || off == PART_REQ || off == ERR_CAP || off == ERR_ADDR || off == CLK_REQ || off == AGE_TRIM || off == BLK_CTRL
    || off == IXP_ACT || off == IXP_STAT || off == IXP_CYC || off == IXP_CORR || decide (0x200 ≤ off ∧ off < 0x300)

/-- The soft reset of a started plate (R605): settings to reset values, the reset table pends, the first cycle that begins at
least 2 µs later is a re-index cycle to the phase the plate follows. A re-index whose cycle has begun runs to its jump, which then
takes that phase too (DESIGN CHOICE); the later one follows it. -/
def State.plateSoftReset (s : State) : State :=
  let s1 := ((s.resetPage pIXP plateKept).set pIXP BLK_CTRL_FREEZE 0).set pIXP IXP_STAT_SYNC_LOST 0
  let t : PlateTable := ⟨80, 0, (List.range 64).map fun k => k * 62500⟩
  let s2 := ({ s1 with plate.pendTable := some t, plate.waiting := [], plate.quiet := 0, plate.pulsed := true }).set pIXP
    IXP_CTRL_COMMIT_PEND 1
  let ref : PhaseRef := if s2.followsTwinPlate then
      (match s2.plate.lastAnn with | some (_, tm, _) => .instant tm | none => .own) else .own
  let cycle := s2.cycleAfter s2.nowQ
  if s2.plate.inReindex then
    { s2 with plate.reindex := s2.plate.reindex.map fun r => { r with ref := ref }, plate.again := some ⟨cycle, ref⟩, plate.corr := [] }
  else s2.planReindex cycle ref

end Sys2Proof.Machine
end

