-- ==== Sys2Proof/Machine/Channels.lean ====
section
/-!
DEFINITION. The load channels (spec/07): commands and switching instants (R230-R233), states (R234, R235), profiles and
admission (R236-R241), protection (R242-R247), turn-offs and the clamp account (R248-R251), reverse blocking and the
diagnostics (R252-R254), and the current converters (spec/08 R257-R262).
-/

namespace Sys2Proof.Machine

/-- Error code of a power die: subsystem 0x4 or 0x5 (R256). -/
def dieCode (d low : Nat) : Nat := (4 + d) * 0x1000 + low

/-- Locator of a channel error: index and current in 0.1 A (R256). -/
def chanLoc (i : Nat) (ua : Int) : Nat := i + 0x10000 * min (ua.natAbs / 100000) 0xFFFF

/-- A channel error with the channel's last current. -/
def State.chanErr (s : State) (d i low : Nat) : State := s.err (pLSW d i) (dieCode d low) (chanLoc i (s.chan d i).evt)

/-- A code that a die posts at most once per second (R252, spec/08 R273). -/
def State.dieLimited (s : State) (d key p low loc : Nat) : State :=
  let last := sget 0 key (s.die d).limited
  if last = 0 ∨ last - 1 + clocksPerS ≤ s.tb.clocks then
    (s.modDie d fun z => { z with limited := sput 0 key (s.tb.clocks + 1) z.limited }).err p (dieCode d low) loc
  else s

/-! Commands (R230, R231). -/

/-- The command that LSW_CTRL and PDC_OUT_IMG give (R230). -/
def State.lswCmd (s : State) (d i : Nat) : Bool :=
  let p := pLSW d i
  s.on p LSW_CTRL_ARM &&
    (if s.on p LSW_CTRL_SRC then s.on p LSW_CTRL_ON_REQ else (s.get (pPDC d) PDC_OUT_IMG_IMG).testBit i)

/-- The command that stands for a channel: its limp-home land (spec/08 R274), LSW_CTRL and PDC_OUT_IMG in NORMAL, the
die state's command otherwise (R267-R270). -/
def State.chanCmd (s : State) (d i : Nat) : Bool :=
  if (s.chan d i).limp then (s.get (pPDC d) PDC_LH_IN_LVL).testBit (s.get (pLSW d i) LSW_HOLD_LH_IN)
  else if (s.die d).st = 0 then s.lswCmd d i
  else (s.die d).cmds.testBit i

/-- The command that an edge at clock `now` takes: one that the die has had for 1.0 µs (R231). -/
def ChanState.force (c : ChanState) (now : Nat) : Bool := if c.cmdAt + clocksPerUs ≤ now then c.cmd else c.old

/-- A new command is noted with the clock at which the die has it. -/
def ChanState.note (c : ChanState) (now : Nat) (b : Bool) : ChanState :=
  if b = c.cmd then c else { c with old := c.force now, cmd := b, cmdAt := now }

/-- The same for the command that the registers give. -/
def ChanState.noteReg (c : ChanState) (now : Nat) (b : Bool) : ChanState :=
  if b = c.reg then c else { c with regOld := if c.regAt + clocksPerUs ≤ now then c.reg else c.regOld, reg := b, regAt := now }

/-- The commands of a die are looked at again after anything they depend on has changed. -/
def State.noteCmds (s : State) (d : Nat) : State :=
  s.each (s.chanIxs d) fun s i =>
    s.modChan d i fun c => (c.note s.tb.clocks (s.chanCmd d i)).noteReg s.tb.clocks (s.lswCmd d i)

/-- At the edge at which a RESUME takes effect the commands are those that the registers give, each with the clock since which the die
has it (R231, spec/08 R271); a channel in LIMP keeps its own. -/
def State.takeRegs (s : State) (d : Nat) : State :=
  s.each (s.chanIxs d) fun s i =>
    s.modChan d i fun c => if c.limp then c else { c with cmd := c.reg, old := c.regOld, cmdAt := c.regAt }

/-- A LATCHED channel under limp-home control while LH_EN is honoured (spec/08 R275). -/
def State.limpHeld (s : State) (d i : Nat) : Bool := (s.die d).limpOn && s.on (pLSW d i) LSW_HOLD_LH_MAP

/-! Turn-offs (R248-R250). -/

/-- The causes of a turn-off of R248. -/
inductive OffKind where
  | protection
  | boardNet
  | groupUv
  | disarm
  | command
  deriving DecidableEq, Repr

def OffKind.forced : OffKind → Bool
  | .protection => true
  | .boardNet => true
  | .groupUv => true
  | _ => false

/-- A commanded fast turn-off of a locked channel with SLOW_OK = 0 is refused (R248). -/
def State.offRefused (s : State) (d i : Nat) (k : OffKind) : Bool :=
  let p := pLSW d i
  k == .command && (s.chan d i).lock && !s.on p LSW_CTRL_OFF_MODE && !s.on p LSW_CTRL_SLOW_OK

/-- The turn-off is fast (R248). -/
def State.offFast (s : State) (d i : Nat) (k : OffKind) : Bool :=
  if k.forced then true
  else if k == .disarm then !(s.chan d i).lock
  else !s.on (pLSW d i) LSW_CTRL_OFF_MODE && !(s.chan d i).lock

/-- The refusal is recorded once per command (R248). -/
def State.refuseOff (s : State) (d i : Nat) : State :=
  if (s.chan d i).offRef then s
  else
    let p := pLSW d i
    ((((s.modChan d i fun c => { c with offRef := true }).irq p INT_LSW_OFF_REF).cnt p LSW_CNT_OFF_REF).chanErr d i 0x010)

/-- State that a turn-off leads to (Tables 07-4 and 07-3). -/
def offState (k : OffKind) (fast : Bool) : Nat :=
  match k with
  | .protection => 6
  | .groupUv => 1
  | _ => if fast then 4 else 5

/-- A turn-off begins (R248). OFF_SLOW gives way to a protection trip and to a board-net turn-off. -/
def State.turnOff (s : State) (d i : Nat) (k : OffKind) : State :=
  let c := s.chan d i
  if !(c.st == 2 || c.st == 3 || (c.st == 5 && (k == .protection || k == .boardNet))) then s
  else if s.offRefused d i k then s.refuseOff d i
  else
    let fast := s.offFast d i k
    let s1 := if k.forced && c.lock then s.chanErr d i 0x219 else s
    let s2 := s1.modChan d i fun c =>
      { c with
        st := offState k fast, offAt := s1.tb.clocks, win := none, turning := if fast then 1 else 2, rev := false, offRef := false
        waited := if k == .groupUv then 0 else c.waited }
    s2.emit (.switch d i (if fast then 0 else 2))

/-- Latch causes of LSW_STAT.CAUSE with their codes (Tables 07-9 and 07-12). -/
def latchCode (cause : Nat) : Nat := 0x212 + cause

/-- A channel that a protection trip acts on: conducting, or turned off in this very clock, where the trip takes effect (R232). -/
def ChanState.trips (c : ChanState) (now : Nat) : Bool := c.st == 2 || c.st == 3 || c.st == 5 || (c.st == 4 && c.offAt == now)

/-- A protection trip (R235, R242-R245). -/
def State.latch (s : State) (d i cause : Nat) : State :=
  let c := s.chan d i
  if c.trips s.tb.clocks then
    let p := pLSW d i
    let s0 := if c.st == 4 then s.modChan d i fun c => { c with st := 6 } else s.turnOff d i .protection
    let s1 := s0.modChan d i fun c => { c with limp := false, cause := cause }
    ((s1.irq p INT_LSW_LATCH).cnt p LSW_CNT_LATCH).chanErr d i (latchCode cause)
  else s

/-- CLR_FAULT (R246): true where the channel has gone to OFF. -/
def State.clearFault (s : State) (d i : Nat) : State × Bool :=
  let c := s.chan d i
  if c.st ≠ 6 then (s, false)
  else if s.loadCode d i ≤ 2048 ∧ c.tj ≤ 150000 then
    (s.modChan d i fun c => { c with st := 0, readyAt := s.tb.clocks }, true)
  else (s.chanErr d i 0x012, false)

/-- CLR_FAULT of a write or of TWC CLEAR. While LH_EN is honoured a mapped channel stays LATCHED (spec/08 R275). DESIGN CHOICE, log
entry 112: that clear counts as refused and records code 0x012. -/
def State.clearCmd (s : State) (d i : Nat) : State :=
  if (s.chan d i).st == 6 && s.limpHeld d i then s.chanErr d i 0x012 else (s.clearFault d i).1

/-! Turn-ons and admission (R232, R236-R239). -/

/-- The channel's switch closes at the edge: into ON. -/
def State.turnOn (s : State) (d i : Nat) : State :=
  ((s.modChan d i fun c => { c with st := 3, onAt := s.tb.clocks, shortBat := false }).irq (pLSW d i) INT_LSW_ON_DONE).emit
    (.switch d i 1)

/-- The booking of a channel at turn-on, mA (Table 07-5). -/
def State.wantBook (s : State) (d i : Nat) : Nat := s.get (pLSW d i) LSW_PROF_INR_PEAK * 500

/-- A waiting channel is admitted: into INRUSH with its window (R236). -/
def State.admitChan (s : State) (d i : Nat) : State :=
  let p := pLSW d i
  let now := s.tb.clocks
  let len := s.get p LSW_PROF_INR_TIME * clocksPerUs
  let w : Window := ⟨s.get p LSW_PROF_PROF, s.wantBook d i, now + len / 2, now + len, false⟩
  (s.modChan d i fun c => { c with st := 2, win := some w, onAt := now }).emit (.switch d i 1)

/-- Group g admits no turn-on after a board-net turn-off (spec/08 R279), nor a die whose logic copies differ (spec/19 R546). -/
def State.groupHeld (s : State) (d g : Nat) : Bool := (s.die d).blocked.testBit g || (s.die d).differ

/-- Admission order: priority, edges waited, die-local index (R238). -/
def State.before (s : State) (d a b : Nat) : Bool :=
  let pa := s.get (pLSW d a) LSW_CTRL_PRIO
  let pb := s.get (pLSW d b) LSW_CTRL_PRIO
  let wa := (s.chan d a).waited
  let wb := (s.chan d b).waited
  decide (pb < pa) || (pa == pb && (decide (wb < wa) || (wa == wb && decide (a < b))))

/-- The waiting channels in admission order. -/
def State.waitList (s : State) (d : Nat) : List Nat :=
  sortBy (s.before d) ((s.chanIxs d).filter fun i => (s.chan d i).st == 1)

/-- The admission loop of R238 over the channels that wait: the die blocked, the groups blocked or deferred. -/
def State.admitLoop (d : Nat) : List Nat → Bool → Nat → State → State
  | [], _, _, s => s
  | i :: t, dieBlocked, groups, s =>
    let g := groupOf i
    if dieBlocked || groups.testBit g || s.groupHeld d g then State.admitLoop d t dieBlocked groups s
    else
      let b := s.groupBook d g
      let all := s.dieBook d
      let p := s.wantBook d i
      let dieMax := s.get (pPDC d) PDC_INR_CTRL_DIE_BUDGET * 1000
      if (b + p ≤ s.get (pPDC d) (GRP_CFG_BUDGET g) * 1000 ∨ b = 0) ∧ (all + p ≤ dieMax ∨ all = 0) then
        State.admitLoop d t dieBlocked groups (s.admitChan d i)
      else if dieMax < all + p ∧ 0 < all then State.admitLoop d t true groups s
      else State.admitLoop d t dieBlocked (groups ||| 2 ^ g) s

/-- Admission at an edge of position pos, with groups deferred (R238, R241). -/
def State.admission (s : State) (d pos deferred : Nat) : State :=
  if s.on (pPDC d) PDC_INR_CTRL_ALT && pos % 2 != d then s
  else State.admitLoop d (s.waitList d) false deferred s

/-- Step 1 of R232 for a channel: its command off is taken. -/
def State.stepOff (s : State) (d i : Nat) : State :=
  let c := s.chan d i
  if c.force s.tb.clocks then s.modChan d i fun c => { c with offRef := false }
  else
    let disarm := (s.die d).st == 0 && !c.limp && !s.on (pLSW d i) LSW_CTRL_ARM
    if c.st = 1 then s.modChan d i fun c => { c with st := 0, readyAt := s.tb.clocks }
    else if c.st = 6 then
      (if disarm && decide (c.offAt < s.tb.clocks) && !s.limpHeld d i then
        s.modChan d i fun c => { c with st := 0, readyAt := s.tb.clocks }
       else s)
    else if c.offRef && !decide (c.readyAt + clocksPerUs ≤ s.tb.clocks) then s
    else s.turnOff d i (if disarm then .disarm else .command)

/-- Step 2 of R232 for a channel: its booking steps down, its window ends with its check (R236). -/
def State.stepWindow (s : State) (d i : Nat) : State :=
  let c := s.chan d i
  match c.win with
  | none => s
  | some w =>
    if w.stop ≤ s.tb.clocks then
      let rail := nth (s.die d).tabs (groupOf i) 0
      if w.prof = 2 ∧ c.volts * 10 < rail * 9 then s.latch d i 5
      else (s.modChan d i fun c => { c with st := 3, win := none }).irq (pLSW d i) INT_LSW_ON_DONE
    else if w.half ≤ s.tb.clocks then s.modChan d i fun c => { c with win := some { w with stepped := true } }
    else s

/-- A channel in OFF takes a command on (Table 07-4, R231, spec/08 R279). -/
def State.takesOn (s : State) (d i : Nat) : Bool :=
  let c := s.chan d i
  c.st == 0 && c.force s.tb.clocks && decide (c.readyAt + clocksPerUs ≤ s.tb.clocks) && !s.groupHeld d (groupOf i)

/-- Fault bookings are released and their groups deferred (R241). -/
def State.releaseFaults (s : State) (d : Nat) : State :=
  (List.range 3).foldl (fun s g =>
    if (s.die d).defer.testBit g then
      ((s.modDie d fun z => { z with faultBook := setNth z.faultBook g 0, defer := z.defer ^^^ 2 ^ g }).cnt (pPDC d)
        (GRP_STAT_DEFER g)).irq (pPDC d) INT_PDC_DEFER
    else s) s

/-- The acts of a die at an edge in the order of R232; under an output freeze only bookings end, and the commands present are taken at
the first edge after it (R233). -/
def State.channelEdge (s : State) (d pos : Nat) (frozen : Bool) : State :=
  let ix := s.chanIxs d
  let deferred := (s.die d).defer
  let s2 := if frozen then s else s.each ix fun s i => s.stepOff d i
  let s3 := (s2.releaseFaults d).each ix fun s i => s.stepWindow d i
  let plainOn := ix.filter fun i => s3.takesOn d i && s3.get (pLSW d i) LSW_PROF_PROF == 0
  let s4 := if frozen then s3
    else
      let s5 := s3.each ix fun s i =>
        if s.takesOn d i && s.get (pLSW d i) LSW_PROF_PROF != 0 then
          s.modChan d i fun c => { c with st := 1, waited := 0, shortBat := false }
        else s
      s5.admission d pos deferred
  let s6 := s4.each ix fun s i =>
    if (s.chan d i).st = 1 then s.modChan d i fun c => { c with waited := min (c.waited + 1) 0xFFFF } else s
  if frozen then s6 else s6.each plainOn fun s i => s.turnOn d i

/-! The converters (spec/08 R257-R262). -/

/-- LSB of the high and of the low range in µA (Table 08-1). -/
def hiLsb (i : Nat) : Nat := Config.byClass i 20000 8000 2000
def loLsb (i : Nat) : Nat := Config.byClass i 160 64 16

/-- Division by n > 0 rounded to nearest, halves away from zero. -/
def roundDiv (x : Int) (n : Nat) : Int :=
  let m : Int := ((2 * x.natAbs + n) / (2 * n) : Nat)
  if x < 0 then -m else m

/-- Code and range of a current (R257): the low range while it is not saturated. -/
def iCode (i : Nat) (ua : Int) : Int × Nat :=
  let lo := roundDiv ua (loLsb i)
  if -8192 ≤ lo ∧ lo ≤ 8191 then (lo, 1) else (clampInt 14 (roundDiv ua (hiLsb i)), 0)

/-- The current that a code stands for, µA. -/
def codeUa (i : Nat) (c : Int × Nat) : Int := c.1 * (if c.2 = 1 then (loLsb i : Int) else (hiLsb i : Int))

/-- Clocks in a converter's window of 20 µs (R257). -/
abbrev windowClocks : Nat := 10000

/-- e^(-t/τ) of the clamp account over t clocks, τ in 10 ms units, in 2^-48 (R249): four terms of the series. -/
def clampDecay (tauC t : Nat) : Nat :=
  let q := 2 ^ 48
  let n := 5000000 * max 1 tauC
  q - q * t / n + q * t ^ 2 / (2 * n ^ 2) - q * t ^ 3 / (6 * n ^ 3)

/-- The account decays over t clocks, and the lock is released at half of BUDGET (R249, R250). -/
def State.clampStep (s : State) (d i t : Nat) : State :=
  let p := pLSW d i
  let s1 := s.modChan d i fun c => { c with acc := c.acc * clampDecay (s.get p LSW_CLAMP_TAU_C) t / 2 ^ 48 }
  let c := s1.chan d i
  if c.lock && decide (2 * c.acc ≤ s1.budget d i) then
    ((s1.modChan d i fun c => { c with lock := false, readyAt := s1.tb.clocks }).irq p INT_LSW_UNLOCK).chanErr d i 0x011
  else s1

/-- One step of the wire model with current ua, and the trip at I_C² (R244). The model sees 0 while the switch is open or
REV_BLOCK = 1 (R252). -/
def State.wireStep (s : State) (d i : Nat) (ua : Int) : State :=
  let c := s.chan d i
  let u : Nat := if c.rev || !(c.conducts || c.turning != 0) then 0 else ua.natAbs
  let tau := max 1 (s.wire d i).2
  let x : Int := (c.x : Int) + ((u * u : Nat) - (c.x : Int)) * 20 / tau
  let s1 := s.modChan d i fun c => { c with x := x.toNat }
  if s1.icSq d i ≤ x.toNat * 4096 ^ 2 then s1.latch d i 3 else s1

/-- The sample of a channel is taken into its registers (R257, R260, R262; R43 holds IPEAK). -/
def State.showSample (s : State) (d i : Nat) (ua mv : Int) : State :=
  let p := pLSW d i
  let code := iCode i ua
  let seq := wrapAdd 16 (s.get p LSW_IMEAS_SEQ) 1
  let s1 := ((s.seti p LSW_IMEAS_CODE code.1).set p LSW_IMEAS_RANGE code.2).set p LSW_IMEAS_VALID 1
  let s2 := ((s1.set p LSW_IMEAS_SEQ seq).seti p LSW_VMEAS_V (clampInt 14 (roundDiv mv 5))).set p LSW_VMEAS_VALID 1
  let mag := min ((codeUa i code).natAbs / 10000) 0xFFFF
  let s3 := if s2.frozen p then s2 else s2.set p LSW_IPEAK_I (max mag (s2.get p LSW_IPEAK_I))
  s3.modChan d i fun c =>
    { c with
      prev := codeUa i code, evt := codeUa i code, volts := mv, sum := c.sum + codeUa i code, num := c.num + 1
      openLoad := c.openLoad && !decide ((s3.get p LSW_OL_OL_TH * 10000 : Nat) < (if c.rev then 0 else codeUa i code)) }

/-- One channel's 20 µs window ends. -/
def State.sampleChan (s : State) (d i : Nat) (ua mv tj : Int) : State :=
  let s1 := (s.modChan d i fun c => { c with tj := tj }).showSample d i ua mv
  (s1.clampStep d i windowClocks).wireStep d i (s1.chan d i).prev

/-! Sense lands (spec/08 R263, R264). -/

/-- The channel that ISENSE shows. -/
def State.senseIx (s : State) (d : Nat) : Nat :=
  if s.on (pPDC d) PDC_SNS_SEL_SRC then s.get (pPDC d) PDC_SNS_SEL else nth s.selLands d 0

/-- The current of ISENSE in nA: the selected channel's forward current over the mirror ratio (spec/08 Table 08-2). -/
def State.senseNa (s : State) (d : Nat) : Nat :=
  let i := s.senseIx d
  if s.hasChan d && s.on (pPDC d) PDC_SNS_EN then (s.chan d i).evt.toNat * 1000 / Config.byClass i 40000 16000 4000 else 0

/-- ISENSE follows its current where that differs from what it was. -/
def State.senseFrom (s : State) (d was : Nat) : State :=
  if s.senseNa d = was then s else s.emit (.isense d (s.senseNa d))

/-- PDC_VBAT takes the lowest tab voltage and the offset (spec/08 R607); conditions that no longer hold end (R278). -/
def State.measureTabs (s : State) (d : Nat) (tabs : List Int) (offset : Int) : State :=
  let low := tabs.foldl (fun a b => if b < a then b else a) (nth tabs 0 0)
  let v := if low < 0 then 0 else min (2 * low.toNat / 5) 0xFFFF
  let s1 := (s.set (pPDC d) PDC_VBAT_V v).seti (pPDC d) PDC_VBAT_OFS (clampInt 16 offset)
  s1.modDie d fun z =>
    { z with
      tabs := tabs
      uv := maskOf ((setBits 3 z.uv).filter fun g => decide (nth tabs g 0 < 4500))
      ov := maskOf ((setBits 3 z.ov).filter fun g => decide (37000 < nth tabs g 0))
      pgnd := z.pgnd && decide (1000 < offset)
      lgnd := z.lgnd && decide (offset < -400) }

/-- Every converter of the die delivers its sample at the end of its 20 µs window (R257), with the wire model, the clamp
account and the tab voltages (R244, R249, R607). -/
def execCurrentSample (clocks : Nat) (die : Fin 2) (io : DieSample) (s : State) : Host.Outcome State Fault Refusal :=
  .next (
    let d := die.val
    let s1 := s.advance clocks
    if s1.dieOn d then
      let s2 := (s1.measureTabs d io.tabs io.offset).modDie d fun z => { z with winAt := s1.tb.clocks }
      (s2.each (s2.chanIxs d) fun s i => s.sampleChan d i (nth io.amps i 0) (nth io.volts i 0) (nth io.tj i 25000)).senseFrom d (s1.senseNa d)
    else s1)

/-- The converters restart at a set position (R258). A window that is cut short delivers no sample; the wire model takes the
previous one for that step, and the clamp account decays over the time that the window had run (R249). -/
def State.converterRestart (s : State) (d pos : Nat) : State :=
  let p := pPDC d
  let hit := if pos < 32 then (s.get p PDC_ADC_POS_LO_MASK).testBit pos else (s.get p PDC_ADC_POS_HI_MASK).testBit (pos - 32)
  if hit then
    let run := min windowClocks (s.tb.clocks - (s.die d).winAt)
    let s1 := s.modDie d fun z => { z with winAt := s.tb.clocks }
    if 0 < run then s1.each (s1.chanIxs d) fun s i => (s.clampStep d i run).wireStep d i (s.chan d i).prev else s1
  else s

/-- LSW_IAVG at a cycle boundary (R262), in 0.1 mA. -/
def State.averages (s : State) (d : Nat) : State :=
  s.each (s.chanIxs d) fun s i =>
    let c := s.chan d i
    let p := pLSW d i
    let s1 := if c.num = 0 ∨ s.frozen p then s else s.seti p LSW_IAVG_I (clampInt 24 (roundDiv c.sum (c.num * 100)))
    s1.modChan d i fun c => { c with sum := 0, num := 0 }

/-! Rows of register writes. -/

/-- Effect of a write of LSW_CTRL (R230, R246). -/
def lswCtrlEff (d i : Nat) (v : Word) (s : State) : State :=
  let s1 := s.plain (pLSW d i) LSW_CTRL v
  let s2 := if v.getLsbD 16 then s1.clearCmd d i else s1
  s2.noteCmds d

def State.lswCtrlWrite (s : State) (a : Access) (d i : Nat) (v : Word) : State :=
  s.regWrite a (pLSW d i) LSW_CTRL v noCause (lswCtrlEff d i v)

def execLswArm (a : Access) (die : Fin 2) (ch : Fin 16) (v : Word) (s : State) : Host.Outcome State Fault Refusal :=
  .next (s.lswCtrlWrite a die.val ch.val v)

def execLswOnReq (a : Access) (die : Fin 2) (ch : Fin 16) (v : Word) (s : State) : Host.Outcome State Fault Refusal :=
  .next (s.lswCtrlWrite a die.val ch.val v)

def execLswClrFault (a : Access) (die : Fin 2) (ch : Fin 16) (v : Word) (s : State) : Host.Outcome State Fault Refusal :=
  .next (s.lswCtrlWrite a die.val ch.val v)

/-- The image is also the one that this module has released (spec/10 R323). -/
def pdcOutImgEff (d : Nat) (v : Word) (s : State) : State :=
  let s1 := (s.plain (pPDC d) PDC_OUT_IMG v).noteCmds d
  { s1 with twin.own := setNth s1.twin.own d (s1.get (pPDC d) PDC_OUT_IMG_IMG) }

def execPdcOutImgWrite (a : Access) (die : Fin 2) (v : Word) (s : State) : Host.Outcome State Fault Refusal :=
  .next (s.regWrite a (pPDC die.val) PDC_OUT_IMG v noCause (pdcOutImgEff die.val v))

/-- R237. -/
def lswProfPre (d i : Nat) (v : Word) (s : State) : Option Nat :=
  let code := s.chanCode d i
  if (code ≠ 0 ∧ code ≠ 6) ∨ s.get (pLSW d i) LSW_PROT_ISC ≤ bitsOf v.toNat 8 8
      ∨ (bitsOf v.toNat 0 2 ≠ 0 ∧ bitsOf v.toNat 16 16 = 0) then some 0x0B
  else none

def execLswProfWrite (a : Access) (die : Fin 2) (ch : Fin 16) (v : Word) (s : State) :
    Host.Outcome State Fault Refusal :=
  .next (s.regWrite a (pLSW die.val ch.val) LSW_PROF v (lswProfPre die.val ch.val v) fun s => s.plain (pLSW die.val ch.val) LSW_PROF v)

/-- R255 for LSW_PROT: ISC at most the class maximum, above ILIM and above the INR_PEAK in force. -/
def lswProtPre (d i : Nat) (v : Word) (s : State) : Option Nat :=
  let isc := bitsOf v.toNat 0 8
  if Config.byClass i 240 100 28 < isc ∨ 2 * isc ≤ bitsOf v.toNat 8 8 ∨ isc ≤ s.get (pLSW d i) LSW_PROF_INR_PEAK then some 0x0B
  else none

/-- R255 for LSW_I2T: a custom profile has ICONT and TAU. -/
def lswI2tPre (v : Word) (_ : State) : Option Nat :=
  if bitsOf v.toNat 0 4 = 8 ∧ (bitsOf v.toNat 8 8 = 0 ∨ bitsOf v.toNat 16 16 = 0) then some 0x0B else none

def execLswProtWrite (a : Access) (die : Fin 2) (ch : Fin 16) (r : LimitReg) (v : Word) (s : State) :
    Host.Outcome State Fault Refusal :=
  .next (
    let p := pLSW die.val ch.val
    match r with
    | .prot => s.regWrite a p LSW_PROT v (lswProtPre die.val ch.val v) fun s => s.plain p LSW_PROT v
    | .i2t => s.regWrite a p LSW_I2T v (lswI2tPre v) fun s => s.plain p LSW_I2T v
    | .clamp => s.regWrite a p LSW_CLAMP v noCause fun s => s.plain p LSW_CLAMP v)

def lswCntClrEff (d i : Nat) (v : Word) (s : State) : State := if v.getLsbD 0 then s.wrn (pLSW d i) LSW_CNT 0 else s

def execLswCntClr (a : Access) (die : Fin 2) (ch : Fin 16) (v : Word) (s : State) : Host.Outcome State Fault Refusal :=
  .next (s.regWrite a (pLSW die.val ch.val) LSW_CNT_CLR v noCause (lswCntClrEff die.val ch.val v))

def lswSnsClrEff (d i : Nat) (v : Word) (s : State) : State := if v.getLsbD 0 then s.wrn (pLSW d i) LSW_IPEAK 0 else s

def execLswSnsClr (a : Access) (die : Fin 2) (ch : Fin 16) (v : Word) (s : State) : Host.Outcome State Fault Refusal :=
  .next (s.regWrite a (pLSW die.val ch.val) LSW_SNS_CLR v noCause (lswSnsClrEff die.val ch.val v))

/-- A soft reset of an LSW page (R42, R235, R251), or its parting, with the reset of its registers: OFF through a turn-off, from LIMP
too (Table 07-4); LOAD (X over the I_C² in force) and the account take their reset values only where those are higher, and a change of
I_C does not lower LOAD; the clamp lock follows the account. -/
def State.lswSoftReset (s : State) (d i : Nat) (regs : State → State) : State :=
  let s1 := regs (s.turnOff d i .disarm)
  let ic := s1.icSq d i
  let was := max 1 (s.icSq d i)
  let s2 := s1.modChan d i fun c =>
    { c with
      st := if c.st = 1 ∨ c.st = 6 then 0 else c.st, readyAt := if c.st = 1 ∨ c.st = 6 then s1.tb.clocks else c.readyAt
      limp := false, x := max c.x (max (ic / 2 / 4096 ^ 2) ((c.x * ic + was - 1) / was)), acc := max c.acc (s1.budget d i / 2)
      rev := false, openLoad := false, shortBat := false, cause := 0, waited := 0, sum := 0, num := 0 }
  s2.noteCmds d

/-! Rows of protection and diagnostics. -/

/-- The limit ISC or ILIM in force, in mA × 4,096 (R247). -/
def State.iscMa (s : State) (d i : Nat) : Nat := s.get (pLSW d i) LSW_PROT_ISC * 500 * s.honed d i
def State.ilimMa (s : State) (d i : Nat) : Nat := s.get (pLSW d i) LSW_PROT_ILIM * 250 * s.honed d i

/-- The current at an event, mA, is the channel's last known one: its error record and ISENSE show it. -/
def State.atCurrent (s : State) (d i : Nat) (ma : Int) : State :=
  (s.modChan d i fun c => { c with evt := ma * 1000 }).senseFrom d (s.senseNa d)

/-- A rail (`lowest`, 10 mV) below UV (0.1 V) for 2 µs while a channel of its group is in INRUSH (R241). -/
def execGroupUndervoltage (die : Fin 2) (g : Fin 3) (lowest : Nat) (s : State) : Host.Outcome State Fault Refusal :=
  .next (
    let d := die.val
    let hit := (s.chanIxs d).filter fun i => groupOf i == g.val && s.chanCode d i == 2
    if s.dieOn d && !hit.isEmpty && decide (lowest < s.get (pPDC d) (GRP_CFG_UV g.val) * 10) then
      let s1 := s.each hit fun s i => s.turnOff d i .groupUv
      ((s1.cnt (pPDC d) (GRP_STAT_UV g.val)).irq (pPDC d) (INT_PDC_UV0 + g.val)).err (pPDC d) (dieCode d 0x21A)
        (g.val * 0x10000 + min lowest 0xFFFF)
    else s)

/-- The current's magnitude passes ISC (R242): latched, the measured peak (mA, negative where the current is reverse) booked and the
group deferred (R241). -/
def execHardShort (clocks : Nat) (die : Fin 2) (ch : Fin 16) (peak : Int) (s : State) : Host.Outcome State Fault Refusal :=
  .next (
    let d := die.val
    let i := ch.val
    let s1 := s.advance clocks
    let c := s1.chan d i
    if s1.hasChan d && c.trips s1.tb.clocks && decide (s1.iscMa d i < peak.natAbs * 4096) then
      let s2 := (s1.atCurrent d i peak).latch d i 1
      s2.modDie d fun z =>
        { z with
          faultBook := modNth z.faultBook (groupOf i) (· + peak.natAbs)
          defer := z.defer ||| 2 ^ groupOf i }
    else s1)

/-- The current (mA) has stayed above ILIM for longer than TLIM, outside blanking (R243). -/
def execOvercurrentTrip (clocks : Nat) (die : Fin 2) (ch : Fin 16) (current : Nat) (s : State) :
    Host.Outcome State Fault Refusal :=
  .next (
    let d := die.val
    let i := ch.val
    let p := pLSW d i
    let s1 := s.advance clocks
    let c := s1.chan d i
    let judged := c.onAt + s1.get p LSW_PROT_BLANK * 500000 + s1.get p LSW_PROT_TLIM * 50000
    if s1.hasChan d && !c.rev && decide (s1.ilimMa d i < current * 4096) && decide (judged ≤ s1.tb.clocks) then
      (s1.atCurrent d i current).latch d i 2
    else s1)

/-- The junction (0.001 °C) reaches 175 °C (R245). -/
def execOverTemperature (die : Fin 2) (ch : Fin 16) (tj : Nat) (s : State) : Host.Outcome State Fault Refusal :=
  .next (
    if s.hasChan die.val && decide (175000 ≤ tj) then
      (s.modChan die.val ch.val fun c => { c with tj := (tj : Int) }).latch die.val ch.val 4
    else s)

/-- A turn-off's current has fallen below 10 mA (R235); a fast turn-off has put `energy` µJ into the switch (R249, R250). -/
def State.turnOffDone (s : State) (d i energy : Nat) : State :=
  let c := s.chan d i
  let p := pLSW d i
  let s1 := s.modChan d i fun c =>
    { c with
      turning := 0
      st := if c.st = 4 ∨ c.st = 5 then 0 else c.st
      readyAt := if c.st = 4 ∨ c.st = 5 then s.tb.clocks else c.readyAt }
  if c.turning = 1 then
    let s2 := (s1.wrn p LSW_CLAMP_LAST energy).modChan d i fun c => { c with acc := c.acc + energy * 2 ^ 32 }
    if !c.lock && decide (s2.budget d i < (s2.chan d i).acc) then
      (((s2.modChan d i fun c => { c with lock := true }).irq p INT_LSW_LOCK).cnt p LSW_CNT_LOCK).chanErr d i 0x218
    else s2
  else s1

def execTurnOffComplete (clocks : Nat) (die : Fin 2) (ch : Fin 16) (energy : Nat) (s : State) :
    Host.Outcome State Fault Refusal :=
  .next (
    let s1 := s.advance clocks
    if s1.hasChan die.val && (s1.chan die.val ch.val).turning != 0 then s1.turnOffDone die.val ch.val energy else s1)

/-- Reverse current (mA) above 1.0, 0.4 or 0.1 A for 2 µs in a conducting channel (R252). -/
def execReverseCurrentBlock (clocks : Nat) (die : Fin 2) (ch : Fin 16) (current : Nat) (s : State) :
    Host.Outcome State Fault Refusal :=
  .next (
    let d := die.val
    let i := ch.val
    let p := pLSW d i
    let s1 := s.advance clocks
    let c := s1.chan d i
    if s1.hasChan d && (c.st == 2 || c.st == 3) && !c.rev && decide (Config.byClass i 1000 400 100 < current) then
      let s2 := (((s1.atCurrent d i (-(current : Int))).modChan d i fun c => { c with rev := true }).irq p INT_LSW_REV).cnt p LSW_CNT_REV
      s2.dieLimited d (16 + i) p 0x01D (chanLoc i (current * 1000 : Nat))
    else s1)

/-- The tab has been more than 20 mV above the output for 10 µs (R252). -/
def execReverseBlockRelease (die : Fin 2) (ch : Fin 16) (s : State) : Host.Outcome State Fault Refusal :=
  .next (
    if s.hasChan die.val && (s.chan die.val ch.val).rev then
      s.modChan die.val ch.val fun c => { c with rev := false }
    else s)

/-- The current (mA) of a channel in ON has stayed below OL_TH for OL_TIME with OL_EN = 1 (R254). -/
def execOpenLoadDetect (die : Fin 2) (ch : Fin 16) (current : Int) (s : State) : Host.Outcome State Fault Refusal :=
  .next (
    let d := die.val
    let i := ch.val
    let p := pLSW d i
    if s.hasChan d && s.on p LSW_CTRL_OL_EN && s.chanCode d i == 3 && decide (current < (s.get p LSW_OL_OL_TH * 10 : Nat))
        && !(s.chan d i).openLoad then
      (((s.atCurrent d i current).modChan d i fun c => { c with openLoad := true }).irq p INT_LSW_OPEN).chanErr d i 0x21B
    else s)

/-- The output of a channel in OFF with DUAL = 0 has stayed above 3.0 V for 1 ms (R253, R254). -/
def execShortToBatteryDetect (die : Fin 2) (ch : Fin 16) (s : State) : Host.Outcome State Fault Refusal :=
  .next (
    let d := die.val
    let i := ch.val
    let p := pLSW d i
    if s.hasChan d && s.chanCode d i == 0 && !s.on p LSW_CTRL_DUAL && !(s.chan d i).shortBat then
      ((s.modChan d i fun c => { c with shortBat := true }).irq p INT_LSW_SHORT_BAT).chanErr d i 0x21C
    else s)

/-- The output has stayed at or below 3.0 V for 1 ms in OFF (R254). -/
def execShortToBatteryClear (die : Fin 2) (ch : Fin 16) (s : State) : Host.Outcome State Fault Refusal :=
  .next (
    if s.hasChan die.val && s.chanCode die.val ch.val == 0 then
      s.modChan die.val ch.val fun c => { c with shortBat := false }
    else s)

end Sys2Proof.Machine
end

