-- ==== Sys2Proof/Machine/Hold.lean ====
section
/-!
DEFINITION. Output holding and board-net events (spec/08): loss of the compute die and the die states (R265-R272), local edges
(R269), commands over TWC at a power die (R273, spec/10 R331), limp-home (R274-R277), supply events (R278, R279, R607), the
sense lands (R263, R264) and power-die resets (R608).
-/

namespace Sys2Proof.Machine

/-- A holding or board-net code of a die: ERR_ADDR holds PDC_VBAT (R280). -/
def State.pdcErr (s : State) (d low : Nat) : State := s.err (pPDC d) (dieCode d low) (s.rd (pPDC d) PDC_VBAT).toNat

/-! Die states (R266-R271). -/

/-- The commands of a die as a mask, by a function of the die-local index. -/
def State.cmdMask (s : State) (d : Nat) (f : Nat → Bool) : Nat := maskOf ((s.chanIxs d).filter f)

/-- SAFE is entered (R266, R270). -/
def State.enterSafe (s : State) (d : Nat) : State :=
  let old := (s.die d).cmds
  let m := s.cmdMask d fun i =>
    let c := s.get (pLSW d i) LSW_HOLD_SAFE
    c == 1 || (c == 2 && old.testBit i)
  let s1 := s.modDie d fun z => { z with st := 3, cmds := m }
  ((((s1.irq (pPDC d) INT_PDC_SAFE).cnt (pPDC d) PDC_CNT_SAFE).pdcErr d 0x221).noteCmds d)

/-- HOLD is entered with the commands given at that moment; with HOLD_TIME = 0 SAFE follows in the same clock (R266, R267). -/
def State.enterHold (s : State) (d : Nat) : State :=
  let m := s.cmdMask d fun i => s.lswCmd d i
  let s1 := s.modDie d fun z => { z with st := 1, cmds := m, holdAt := s.tb.clocks }
  let s2 := s1.set (pPDC d) PDC_HOLD_IMG_IMG m
  let s3 := ((s2.irq (pPDC d) INT_PDC_HOLD).cnt (pPDC d) PDC_CNT_HOLD).pdcErr d 0x220
  if s3.holdMs d = 0 then s3.enterSafe d else s3

/-- TWC control is entered, or goes on (R266, Table 08-6). -/
def State.enterTwc (s : State) (d : Nat) : State :=
  if (s.die d).st = 2 then s
  else ((s.modDie d fun z => { z with st := 2 }).irq (pPDC d) INT_PDC_TWC).pdcErr d 0x222

/-- Power die A drives or releases TWIN_CLAIM (spec/10 R316). -/
def State.driveClaim (s : State) (on : Bool) : State :=
  let go := on && s.dieOn 0
  if s.claim = go then s else ({ s with claim := go }).emit (.claim go)

/-- The die detects the loss of the compute die (R265): from NORMAL it enters HOLD; die A releases TWIN_CLAIM. -/
def State.computeLost (s : State) (d : Nat) : State :=
  let s1 := s.modDie d fun z => { z with lost := true, synced := false }
  let s2 := if d = 0 then s1.driveClaim false else s1
  if (s2.die d).st = 0 then s2.enterHold d else s2

/-- No link-control flit for 4 µs (R265). -/
def execBridgeSilence (clocks : Nat) (die : Fin 2) (s : State) : Host.Outcome State Fault Refusal :=
  .next (
    let s1 := s.advance clocks
    if s1.dieOn die.val && !(s1.die die.val).lost then s1.computeLost die.val else s1)

/-- Die P's signal of a compute-die reset (R265). -/
def execComputeResetSignal (clocks : Nat) (die : Fin 2) (s : State) : Host.Outcome State Fault Refusal :=
  .next (
    let s1 := s.advance clocks
    if s1.dieOn die.val && !s1.up.compute && !(s1.die die.val).lost then s1.computeLost die.val else s1)

/-- HOLD_TIME has passed in HOLD, and no RESUME waits (R266, R271). -/
def execHoldTimeExpiry (clocks : Nat) (die : Fin 2) (s : State) : Host.Outcome State Fault Refusal :=
  .next (
    let s1 := s.advance clocks
    if s1.dieOn die.val && (s1.die die.val).st == 1 && (s1.die die.val).resume.isNone then s1.enterSafe die.val else s1)

/-- No SET or KEEP for TMO ms in TWC, and no RESUME waits (R266, R271). -/
def execTwcTimeout (clocks : Nat) (die : Fin 2) (s : State) : Host.Outcome State Fault Refusal :=
  .next (
    let s1 := s.advance clocks
    if s1.dieOn die.val && (s1.die die.val).st == 2 && (s1.die die.val).resume.isNone then s1.enterSafe die.val else s1)

/-- RESUME in HOLD, TWC or SAFE compares the commands (R271); in NORMAL it is ignored and recorded with cause 0x0B. -/
def State.resumeDie (s : State) (d : Nat) : State :=
  if (s.die d).st = 0 then s.errCause (pPDC d) 0x0B (pPDC d + PDC_HOLD)
  else
    let m := s.cmdMask d fun i => s.lswCmd d i
    let same := m == s.cmdMask d fun i => (s.die d).cmds.testBit i
    let s1 := (s.modDie d fun z => { z with resume := some (z.resume.getD s.tb.clocks) }).set (pPDC d) PDC_HOLD_MATCH same.toNat
    if same then s1 else (s1.irq (pPDC d) INT_PDC_RES_MISMATCH).pdcErr d 0x01E

def pdcHoldEff (d : Nat) (v : Word) (s : State) : State :=
  let s1 := s.plain (pPDC d) PDC_HOLD v
  if v.getLsbD 16 then s1.resumeDie d else s1

def execPdcResume (a : Access) (die : Fin 2) (v : Word) (s : State) : Host.Outcome State Fault Refusal :=
  .next (s.regWrite a (pPDC die.val) PDC_HOLD v noCause (pdcHoldEff die.val v))

/-- An accepted RESUME takes effect at an edge (R271): NORMAL, with the commands of R230, each taken from the edge that R231 allows. With the compute
die lost meanwhile, the die enters HOLD again. -/
def State.resumeEdge (s : State) (d : Nat) : State :=
  match (s.die d).resume with
  | none => s
  | some t =>
    if t + clocksPerUs ≤ s.tb.clocks then
      let s1 := ((s.modDie d fun z => { z with st := 0, resume := none }).irq (pPDC d) INT_PDC_RESUME).takeRegs d
      if (s1.die d).lost then s1.enterHold d else s1
    else s

/-! Edges at a die (R231-R233, R258, R262, R269). -/

/-- What a die does at an edge of position pos. -/
def State.dieEdge (s : State) (d pos : Nat) (boundary frozen : Bool) : State :=
  let s1 := (s.resumeEdge d).converterRestart d pos
  let s2 := if boundary then s1.averages d else s1
  s2.channelEdge d pos frozen

/-- An edge of the plate is delivered to a die over its bridge (R231, R269): the local timer keeps in step; outside NORMAL the
die takes the phase of the first boundary delivered. A position acts once per cycle number (spec/03 R90). -/
def State.deliverEdge (s : State) (e : EdgeEvent) (d : Nat) : State :=
  if !s.dieOn d || s.bridgeDown d then s
  else
    let z := s.die d
    if z.st ≠ 0 ∧ !z.synced ∧ !e.boundary then s
    else
      let s1 := s.modDie d fun z =>
        { z with
          synced := z.synced || e.boundary, pos := some e.pos, edgeAt := s.tb.clocks
          nom := if e.boundary then (List.range 64).map fun k => s.get pIXP (ACT_EDGE_OFS k) else z.nom
          nomLen := if e.boundary then s.plateL else z.nomLen
          curLen := if e.boundary then s.plate.length else z.curLen }
      if e.act then s1.dieEdge d e.pos e.boundary (s1.on pIXP IXP_STAT_FROZEN) else s1

/-- Offset of edge k in the cycle in progress (spec/03 R87). -/
def DieState.edgeOff (z : DieState) (k : Nat) : Nat := nth z.nom k 0 * z.curLen / max 1 z.nomLen

/-- The next local edge: its position and the time to it from the last one, in 0.25 ns units (R269). -/
def DieState.nextLocal (z : DieState) : Nat × Nat :=
  match z.pos with
  | none => (0, 0)
  | some p => if 63 ≤ p then (0, z.curLen - z.edgeOff 63) else (p + 1, z.edgeOff (p + 1) - z.edgeOff p)

/-- A local edge in HOLD, TWC or SAFE, while no boundary has been delivered since the loss (R269); the RC oscillator runs
`ppm` parts per million slow, within ±0.5 %. -/
def execLocalEdge (die : Fin 2) (ppm : Int) (s : State) : Host.Outcome State Fault Refusal :=
  .next (
    let d := die.val
    let z := s.die d
    if s.dieOn d && z.st != 0 && !z.synced then
      let (pos, dt) := z.nextLocal
      let wait := (((dt : Int) * (1000000 + clampAbs 5000 ppm) + 7999999) / 8000000).toNat
      let base := if z.pos.isNone then s.tb.clocks else z.edgeAt
      let s1 := s.advance (base + wait - s.tb.clocks)
      let s2 := s1.modDie d fun z =>
        { z with pos := some pos, edgeAt := base + wait, curLen := if pos = 0 then z.nomLen else z.curLen }
      s2.dieEdge d pos (pos == 0) false
    else s)

/-! TWC frames (spec/10 R331, Table 10-10). -/

/-- Length of a frame by its CMD, 0 for one that is not valid. -/
def twcLen (cmd : Nat) : Nat :=
  match cmd with
  | 1 => 7
  | 2 => 3
  | 3 => 3
  | 4 => 4
  | 5 => 3
  | 8 => 14
  | 9 => 2
  | _ => 0

/-- CRC-8, polynomial 0x07, initial value 0. -/
def crc8 (l : List Nat) : Nat := crcMsb 8 0x07 0 l

/-- A frame with its CRC. -/
def twcSeal (l : List Nat) : List Nat := l ++ [crc8 l]

def twcCmd (l : List Nat) : Nat := nth l 0 0 % 16
def twcSrc (l : List Nat) : Nat := bitsOf (nth l 0 0) 7 1
def twcDst (l : List Nat) : Nat := bitsOf (nth l 0 0) 6 1
def twcDest (l : List Nat) : Nat := bitsOf (nth l 0 0) 4 2

/-- The frame passes the checks: CMD valid, length that fits it, CRC good. -/
def twcGood (l : List Nat) : Bool :=
  twcLen (twcCmd l) != 0 && l.length == twcLen (twcCmd l) && crc8 (l.take (l.length - 1)) == nth l (l.length - 1) 0

/-- The frame is for power die d (R273). -/
def State.twcFor (s : State) (d : Nat) (l : List Nat) : Bool :=
  s.dieOn d && (twcDest l).testBit d &&
    (match (s.die d).side with
     | some side => twcDst l == side && twcSrc l == 1 - side
     | none => false)

/-- A frame that fails its checks is dropped: counted by each power die that it is for (R273) and by the compute die, which posts 0x701F
at most once per second. -/
def State.twcDrop (s : State) (l : List Nat) : State :=
  let s1 := s.each [0, 1] fun s d => if s.twcFor d l then s.cnt (pPDC d) PDC_TWC_STAT_REF else s
  if s1.up.compute then (s1.cntWrap pTWR TWR_TWC_DROP).errLimited 0xB00 clocksPerS pTWR 0x701F 0 else s1

/-- A command is refused (R273). -/
def State.twcRefuse (s : State) (d : Nat) : State :=
  let p := pPDC d
  ((s.cnt p PDC_TWC_STAT_REF).irq p INT_PDC_TWC_REF).dieLimited d 0 p 0x01F (s.rd p PDC_VBAT).toNat

/-- The die takes commands: EN = 1, outside NORMAL, no RESUME accepted (R271, R273). -/
def State.twcOpen (s : State) (d : Nat) : Bool :=
  s.on (pPDC d) PDC_TWC_EN && (s.die d).st != 0 && (s.die d).resume.isNone

/-- A frame reaches the power dies: dropped, or acted on by each die that it is for. -/
def State.twcReceive (s : State) (cmd : Nat) (l : List Nat) (ok : Nat → State → Bool) (act : Nat → State → State) : State :=
  if !twcGood l then s.twcDrop l
  else if twcCmd l ≠ cmd then s
  else
    s.each [0, 1] fun s d =>
      if s.twcFor d l then
        (if ok d s then act d (s.cnt (pPDC d) PDC_TWC_STAT_ACC) else s.twcRefuse d)
      else s

/-- SET (Table 08-6). -/
def State.twcSetAct (l : List Nat) (d : Nat) (s : State) : State :=
  let mask := ofBytesBE ((l.drop 2).take 2)
  let image := ofBytesBE ((l.drop 4).take 2)
  let m := s.cmdMask d fun i =>
    if mask.testBit i && s.on (pLSW d i) LSW_HOLD_TWC_EN then image.testBit i else (s.die d).cmds.testBit i
  ((s.modDie d fun z => { z with cmds := m }).enterTwc d).noteCmds d

def execTwcSet (clocks : Nat) (octets : List Nat) (s : State) : Host.Outcome State Fault Refusal :=
  .next ((s.advance clocks).twcReceive 1 octets (fun d s => s.twcOpen d) (State.twcSetAct octets))

def execTwcKeep (clocks : Nat) (octets : List Nat) (s : State) : Host.Outcome State Fault Refusal :=
  .next ((s.advance clocks).twcReceive 2 octets (fun d s => s.twcOpen d) fun d s => s.enterTwc d)

def execTwcSafe (clocks : Nat) (octets : List Nat) (s : State) : Host.Outcome State Fault Refusal :=
  .next ((s.advance clocks).twcReceive 3 octets (fun d s => s.twcOpen d && (s.die d).st != 3) fun d s => s.enterSafe d)

/-- CLEAR (i): as a write of CLR_FAULT = 1 (R246); a die without channels has none to clear. -/
def execTwcClear (clocks : Nat) (octets : List Nat) (s : State) : Host.Outcome State Fault Refusal :=
  .next ((s.advance clocks).twcReceive 4 octets (fun d s => s.twcOpen d) fun d s =>
    if s.hasChan d then (s.clearCmd d (nth octets 2 0 % 16)).noteCmds d else s)

/-- STATUS: answered in every state with EN = 1, refused when it names both dies (R273, spec/10 R331). -/
def execTwcStatus (clocks : Nat) (octets : List Nat) (s : State) : Host.Outcome State Fault Refusal :=
  .next ((s.advance clocks).twcReceive 5 octets
    (fun d s => s.on (pPDC d) PDC_TWC_EN && twcDest octets != 3)
    fun d s => s.modDie d fun z => { z with reply := some (twcSrc octets, nth octets 1 0) })

/-- Pairs of 4-bit codes as bytes, the first in [7:4]. -/
def nibbles : List Nat → List Nat
  | a :: b :: t => (a * 16 + b) :: nibbles t
  | _ => []

/-- The STATUS reply of a die (Table 10-10): its side, the requester's, the sequence number of the request. -/
def State.statusFrame (s : State) (d side src seq : Nat) : List Nat :=
  twcSeal ([side * 128 + src * 64 + 8, seq, (s.die d).st]
    ++ nibbles ((List.range 16).map fun i => if s.hasChan d then s.chanCode d i else 0)
    ++ bytesBE 2 (s.get (pPDC d) PDC_VBAT_V))

/-- 2 µs after the request the die sends its reply (spec/10 R331). -/
def State.sendStatus (s : State) (d : Nat) : State :=
  match (s.die d).reply, (s.die d).side with
  | some (src, seq), some side =>
    if s.dieOn d then
      (s.modDie d fun z => { z with reply := none }).emit (.twc false d (s.statusFrame d side src seq))
    else s
  | _, _ => s

/-! Limp-home (R274-R276). -/

/-- A channel enters LIMP, which ends SHORT_BAT (spec/07 R254); the first entry of an activation of LH_EN is posted (R274). -/
def State.limpIn (s : State) (d i : Nat) : State :=
  let s1 := s.modChan d i fun c => { c with limp := true, shortBat := false }
  if (s1.die d).limpPosted then s1
  else ((s1.modDie d fun z => { z with limpPosted := true }).irq (pPDC d) INT_PDC_LIMP).pdcErr d 0x223

/-- A channel leaves LIMP to the state that its switch has (R276). -/
def State.limpOut (s : State) (d i : Nat) : State :=
  if (s.chan d i).limp then
    s.modChan d i fun c => { c with limp := false, st := if c.st = 1 then 0 else c.st, readyAt := s.tb.clocks }
  else s

/-- A channel enters LIMP where it is mapped and not LATCHED while LH_EN is honoured, and leaves it otherwise (R274, R276). -/
def State.limpJudge (s : State) (d i : Nat) : State :=
  if s.limpHeld d i then (if (s.chan d i).st != 6 && !(s.chan d i).limp then s.limpIn d i else s) else s.limpOut d i

/-- LH_EN as the die honours it: filtered level with ARM = 1 (R274, R276). -/
def State.limpEval (s : State) (d : Nat) : State :=
  let on := s.on (pPDC d) PDC_LH_ARM && s.on (pPDC d) PDC_LH_EN_LVL
  if (s.die d).limpOn = on then s
  else
    let s1 := s.modDie d fun z => { z with limpOn := on }
    (s1.each (s1.chanIxs d) fun s i => s.limpJudge d i).noteCmds d

/-- LH_EN has been active for 50 µs: an activation begins, in which nothing has been posted (R274). -/
def execLimpEntry (clocks : Nat) (die : Fin 2) (s : State) : Host.Outcome State Fault Refusal :=
  .next (
    let s1 := s.advance clocks
    if s1.dieOn die.val && !s1.on (pPDC die.val) PDC_LH_EN_LVL then
      ((s1.modDie die.val fun z => { z with limpPosted := false }).set (pPDC die.val) PDC_LH_EN_LVL 1).limpEval die.val
    else s1)

/-- LH_EN has been inactive for 50 µs (R276). -/
def execLimpExit (clocks : Nat) (die : Fin 2) (s : State) : Host.Outcome State Fault Refusal :=
  .next (
    let s1 := s.advance clocks
    if s1.dieOn die.val then (s1.set (pPDC die.val) PDC_LH_EN_LVL 0).limpEval die.val else s1)

/-- The filtered level of LH_IN_n changes: limp channels follow it (R274); a change to active clears mapped channels that
are LATCHED while LH_EN is honoured (R275). -/
def State.landChange (s : State) (d n : Nat) (active : Bool) : State :=
  let m := s.get (pPDC d) PDC_LH_IN_LVL
  if m.testBit n = active then s
  else
    let s1 := s.set (pPDC d) PDC_LH_IN_LVL (m ^^^ 2 ^ n)
    let s2 := if active && (s1.die d).limpOn then
        s1.each (s1.chanIxs d) fun s i =>
          if s.on (pLSW d i) LSW_HOLD_LH_MAP && s.get (pLSW d i) LSW_HOLD_LH_IN == n && (s.chan d i).st == 6 then
            (match s.clearFault d i with
             | (s', true) => s'.limpIn d i
             | (s', false) => s')
          else s
      else s1
    s2.noteCmds d

def execLimpInputChange (clocks : Nat) (die : Fin 2) (land : Fin 8) (active : Bool) (s : State) :
    Host.Outcome State Fault Refusal :=
  .next (
    let s1 := s.advance clocks
    if s1.dieOn die.val then s1.landChange die.val land.val active else s1)

/-- The land of a LATCHED mapped channel becomes active (R275). -/
def execLimpLatchedClear (clocks : Nat) (die : Fin 2) (ch : Fin 16) (s : State) : Host.Outcome State Fault Refusal :=
  .next (
    let d := die.val
    let i := ch.val
    let s1 := s.advance clocks
    if s1.hasChan d && s1.on (pLSW d i) LSW_HOLD_LH_MAP && (s1.chan d i).st == 6 && (s1.die d).limpOn then
      s1.landChange d (s1.get (pLSW d i) LSW_HOLD_LH_IN) true
    else s1)

def pdcLhEff (d : Nat) (v : Word) (s : State) : State := (s.plain (pPDC d) PDC_LH v).limpEval d

/-- A write of LSW_HOLD: LH_MAP puts the channel under limp-home control while LH_EN is honoured (Table 08-9). -/
def lswHoldEff (d i : Nat) (v : Word) (s : State) : State := ((s.plain (pLSW d i) LSW_HOLD v).limpJudge d i).noteCmds d

/-! Board-net events (R278, R279). -/

/-- Every conducting channel of a group turns off fast; commands are kept and the group is held off (R278, R279). -/
def State.groupOff (s : State) (d g : Nat) : State :=
  let s1 := s.modDie d fun z => { z with blocked := z.blocked ||| 2 ^ g }
  s1.each ((s1.chanIxs d).filter fun i => groupOf i == g) fun s i => s.turnOff d i .boardNet

def execTabUndervoltage (clocks : Nat) (die : Fin 2) (g : Fin 3) (s : State) : Host.Outcome State Fault Refusal :=
  .next (
    let d := die.val
    let s1 := s.advance clocks
    if s1.dieOn d && !(s1.die d).uv.testBit g.val then
      let s2 := (s1.modDie d fun z => { z with uv := z.uv ||| 2 ^ g.val }).groupOff d g.val
      (s2.irq (pPDC d) INT_PDC_BN).pdcErr d 0x225
    else s1)

def execTabOvervoltage (clocks : Nat) (die : Fin 2) (g : Fin 3) (s : State) : Host.Outcome State Fault Refusal :=
  .next (
    let d := die.val
    let s1 := s.advance clocks
    if s1.dieOn d && !(s1.die d).ov.testBit g.val then
      let s2 := (s1.modDie d fun z => { z with ov := z.ov ||| 2 ^ g.val }).groupOff d g.val
      ((s2.irq (pPDC d) INT_PDC_BN).cnt (pPDC d) PDC_CNT_OV).pdcErr d 0x224
    else s1)

def execPgndLoss (clocks : Nat) (die : Fin 2) (s : State) : Host.Outcome State Fault Refusal :=
  .next (
    let d := die.val
    let s1 := s.advance clocks
    if s1.dieOn d && !(s1.die d).pgnd then
      let s2 := (s1.modDie d fun z => { z with pgnd := true }).each [0, 1, 2] fun s g => s.groupOff d g
      ((s2.irq (pPDC d) INT_PDC_BN).cnt (pPDC d) PDC_CNT_PGND).pdcErr d 0x326
    else s1)

def execLgndLoss (clocks : Nat) (die : Fin 2) (s : State) : Host.Outcome State Fault Refusal :=
  .next (
    let d := die.val
    let s1 := s.advance clocks
    if s1.dieOn d && !(s1.die d).lgnd then
      ((s1.modDie d fun z => { z with lgnd := true }).irq (pPDC d) INT_PDC_BN).pdcErr d 0x227
    else s1)

/-- The conditions of R279 have held for 1 ms for a group: its kept commands are taken again from the next edge. -/
def execBoardNetRecovery (clocks : Nat) (die : Fin 2) (g : Fin 3) (s : State) : Host.Outcome State Fault Refusal :=
  .next (
    let d := die.val
    let s1 := s.advance clocks
    if s1.dieOn d && (s1.die d).blocked.testBit g.val then
      let s2 := s1.modDie d fun z =>
        { z with
          blocked := z.blocked ^^^ 2 ^ g.val, pgnd := false
          uv := maskOf ((setBits 3 z.uv).filter (· != g.val)), ov := maskOf ((setBits 3 z.ov).filter (· != g.val)) }
      s2.each ((s2.chanIxs d).filter fun i => groupOf i == g.val) fun s i =>
        s.modChan d i fun c => { c with readyAt := max c.readyAt s.tb.clocks }
    else s1)

/-! Sense lands (R263, R264). -/

def execSelLandChange (die : Fin 2) (level : Fin 16) (s : State) : Host.Outcome State Fault Refusal :=
  .next (
    let s1 := { s with selLands := setNth s.selLands die.val level.val }
    if s1.dieOn die.val && !s1.on (pPDC die.val) PDC_SNS_SEL_SRC then s1.emit (.isense die.val (s1.senseNa die.val)) else s1)

def pdcSnsEff (d : Nat) (v : Word) (s : State) : State :=
  let s1 := s.plain (pPDC d) PDC_SNS v
  s1.emit (.isense d (s1.senseNa d))

/-! Power-die resets (R608, spec/17 Table 17-9). -/

/-- A power die enters reset: every channel opens, its pages and its state are cleared, its queue is lost. -/
def State.dieReset (s : State) (d : Nat) : State :=
  let s1 := s.each (s.chanIxs d) fun s i => if (s.chan d i).conducts then s.emit (.switch d i 0) else s
  let s2 := { s1 with
    up.die := setNth s1.up.die d false
    chans := (List.range 32).map fun k => if k / 16 = d then ChanState.init (k % 16) else nth s1.chans k (ChanState.init (k % 16))
    dies := setNth s1.dies d DieState.init }
  let s3 := s2.each (List.range 16) fun s i => s.resetPage (pLSW d i) fun _ => false
  let s4 := s3.resetPage (pPDC d) fun _ => false
  let s5 := (if d = 0 then s4.driveClaim false else s4).senseFrom d (s.senseNa d)
  if s5.up.compute && s5.on (pDBR d) BR_STAT_UP then s5 else s5.restLost d

/-- A power die leaves reset with its trims loaded (R261, R608; fuse words 64-95 of spec/14 Table 14-5). DESIGN CHOICE: the
always-on domain, lost with die A "until the next start" (spec/01 Table 01-5), returns with die A's release; CFAULT comes back to it from die P's copy (spec/11 R364). -/
def State.dieRelease (s : State) (d : Nat) : State :=
  let s1 := { s with
    up.die := setNth s.up.die d true, up.alwaysOn := s.up.alwaysOn || d == 0
    cfaultA := if d = 0 ∧ !s.up.alwaysOn then s.cfaultP else s.cfaultA }
  let s2 := s1.modDie d fun z => { z with winAt := s1.tb.clocks }
  s2.each (s2.chanIxs d) fun s i => s.wrn (pLSW d i) LSW_ITRIM (s.fuse (64 + 16 * d + i))

/-- The highest tab falls below 4.0 V (R278, R608). -/
def execPowerDieReset (clocks : Nat) (die : Fin 2) (s : State) : Host.Outcome State Fault Refusal :=
  .next (
    let s1 := s.advance clocks
    if s1.dieOn die.val then
      let s2 := s1.dieReset die.val
      if s2.up.compute then s2.cnt pRST RST_CNT_DIE else s2
    else s1)

/-- A die is held in reset in OFF, and die B in STANDBY, until a start is under way (spec/18 R514, Table 18-5). -/
def State.dieHeld (s : State) (d : Nat) : Bool := !s.slp.starting && (s.mode == mOFF || (s.mode == mSTANDBY && d == 1))

def execPowerDieRelease (clocks : Nat) (die : Fin 2) (s : State) : Host.Outcome State Fault Refusal :=
  .next (
    let s1 := s.advance clocks
    if !s1.dieOn die.val && !s1.dieHeld die.val then s1.dieRelease die.val else s1)

def pdcCntClrEff (d : Nat) (v : Word) (s : State) : State :=
  if v.getLsbD 0 then (s.wrn (pPDC d) PDC_CNT 0).wrn (pPDC d) PDC_TWC_STAT 0 else s

def execPdcCntClr (a : Access) (die : Fin 2) (v : Word) (s : State) : Host.Outcome State Fault Refusal :=
  .next (s.regWrite a (pPDC die.val) PDC_CNT_CLR v noCause (pdcCntClrEff die.val v))

/-- A soft reset of a PDC page, after its registers: what they show of the die is shown again (R42), and commands and
limp-home are judged anew, and ISENSE follows its selection. `old` is the state before it. -/
def State.pdcSoftReset (s old : State) (d : Nat) : State :=
  let p := pPDC d
  let s1 := ((s.wr p PDC_HOLD_IMG (old.rd p PDC_HOLD_IMG)).wr p PDC_VBAT (old.rd p PDC_VBAT)).set p PDC_LH_EN_LVL (old.get p PDC_LH_EN_LVL)
  (((s1.set p PDC_LH_IN_LVL (old.get p PDC_LH_IN_LVL)).limpEval d).noteCmds d).senseFrom d (old.senseNa d)

end Sys2Proof.Machine
end

