-- ==== Sys2Proof/Machine/Inputs.lean ====
section
/-!
DEFINITION. The discrete and analog inputs (spec/09): sampling (R281-R287), the steps of a DIN sample (R288-R292), analog limits
(R293), wake requests (R294, R295), the local input image (R286), and the rows about inputs.
-/

namespace Sys2Proof.Machine

/-- A flag bit that is set or cleared. -/
def putFlag (m i : Nat) (b : Bool) : Nat := if m.testBit i = b then m else m ^^^ 2 ^ i

/-- Bit n of a mask field of page p. -/
def State.bit (s : State) (p : Nat) (f : Fld) (n : Nat) : Bool := (s.get p f).testBit n

def State.setBit (s : State) (p : Nat) (f : Fld) (n : Nat) (b : Bool) : State := s.set p f (putFlag (s.get p f) n b)

/-- The page and the input number of DIN_m (R281). -/
abbrev dinPage (m : Nat) : Nat := pDIG (m / 16)
abbrev dinIx (m : Nat) : Nat := m % 16

def State.din (s : State) (m : Nat) : DinState :=
  nth s.dins m ⟨false, 0, false, 0, 0, 0, 0, 0, 0, 0, false, 0, false, 0x23246⟩

def State.modDin (s : State) (m : Nat) (f : DinState → DinState) : State := { s with dins := modNth s.dins m f }

/-! Flags of a DIN as its page shows them (Table 09-7). -/
def State.dinActive (s : State) (m : Nat) : Bool := s.bit (dinPage m) DIG_LVL_FILT (dinIx m)
def State.dinStuck (s : State) (m : Nat) : Bool := s.bit (dinPage m) DIG_FLAG_STUCK (dinIx m)
def State.dinChatter (s : State) (m : Nat) : Bool := s.bit (dinPage m) DIG_FLAG_CHATTER (dinIx m)
def State.dinLo (s : State) (m : Nat) : Bool := s.bit (dinPage m) DIG_DIAG_LO (dinIx m)
def State.dinHi (s : State) (m : Nat) : Bool := s.bit (dinPage m) DIG_DIAG_HI (dinIx m)

/-- A level is active with INV taken into account (R282). -/
def State.levelActive (s : State) (m : Nat) (level : Bool) : Bool := level != s.on (dinPage m) (DIN_CFG_INV (dinIx m))

/-- A threshold code in mV (Table 09-1). -/
def State.threshold (s : State) (m code vbatMv : Nat) : Int :=
  if s.on (dinPage m) (DIN_CFG_RATIO (dinIx m)) then (vbatMv * code / 256 : Nat) else (code * 100 : Nat)

/-- The comparator with its hysteresis (R282). -/
def State.comparator (s : State) (m : Nat) (level : Bool) (mv : Int) (vbatMv : Nat) : Bool :=
  let p := dinPage m
  if s.threshold m (s.get p (DIN_CFG_VTH_H (dinIx m))) vbatMv < mv then true
  else if mv < s.threshold m (s.get p (DIN_CFG_VTH_L (dinIx m))) vbatMv then false
  else level

/-- Wetting current of an input is pulsed: PULSE = 1 and a current selected in the DIN_CFG in force (R282, R283). -/
def DinState.pulsed (x : DinState) : Bool := x.cfg.getLsbD 20 && bitsOf x.cfg.toNat 16 3 != 0

/-- Transitions count for chatter (R289): with PULSE = 1 only while wetting current flows. -/
def State.chatterCounts (s : State) (m : Nat) : Bool :=
  !(s.din m).cfg.getLsbD 20 || ((s.din m).wet && (s.din m).pulsed)

/-- Steps of two counters of consecutive samples on a side and off it, and the flag that they set and clear (R291, R293). -/
def sideStep (deb : Nat) (hit : Bool) (on off : Nat) (flag : Bool) : Nat × Nat × Bool :=
  let on' := if hit then min (on + 1) 255 else 0
  let off' := if hit then 0 else min (off + 1) 255
  (on', off', if deb ≤ on' then true else if deb ≤ off' then false else flag)

/-- Step 1, the chatter test (R289): whether the sample is a chatter sample. -/
def State.chatterStep (s : State) (m : Nat) : State × Bool :=
  let p := dinPage m
  let n := dinIx m
  if (s.din m).trans < 2 then (s, false)
  else
    let s1 := (s.cnt p (DIN_CNT_CHAT n)).modDin m fun x => { x with chat := x.chat + 1 }
    if s1.get p (DIN_TIME_CHAT_TH n) ≤ (s1.din m).chat ∧ !s1.dinChatter m then
      (((s1.setBit p DIG_FLAG_CHATTER n true).irq p INT_DIG_CHATTER).err p 0x6211 m, true)
    else (s1, true)

/-- Step 2, the diagnostic test (R291). With DIAG_EN = 0 no fault holds (DESIGN CHOICE). -/
def State.diagStep (s : State) (m v : Nat) : State :=
  let p := dinPage m
  let n := dinIx m
  if !s.on p (DIN_CFG_DIAG_EN n) then
    (s.setBit p DIG_DIAG_LO n false).setBit p DIG_DIAG_HI n false
      |>.modDin m fun x => { x with below := 0, notBelow := 0, above := 0, notAbove := 0 }
  else
    let set1 := s.on p (DIN_CFG_DG_SET n)
    let lo := s.get p (if set1 then DIG_DG_TH_LO1 else DIG_DG_TH_LO0)
    let hi := s.get p (if set1 then DIG_DG_TH_HI1 else DIG_DG_TH_HI0)
    let deb := s.get p (DIN_TIME_DEB n)
    let x := s.din m
    let a := sideStep deb (decide (v < lo)) x.below x.notBelow (s.dinLo m)
    let b := sideStep deb (decide (hi < v)) x.above x.notAbove (s.dinHi m)
    let s1 := s.modDin m fun x => { x with below := a.1, notBelow := a.2.1, above := b.1, notAbove := b.2.1 }
    let newLo := a.2.2 && !s.dinLo m
    let newHi := b.2.2 && !s.dinHi m
    let s2 := (s1.setBit p DIG_DIAG_LO n a.2.2).setBit p DIG_DIAG_HI n b.2.2
    let s3 := if newLo then (s2.irq p INT_DIG_DIAG).err p 0x6212 m else s2
    if newHi then (s3.irq p INT_DIG_DIAG).err p 0x6213 m else s3

/-- Step 3, the debounce (R290). -/
def State.debounceStep (s : State) (m : Nat) (chatter raw : Bool) : State :=
  let p := dinPage m
  let n := dinIx m
  let x := s.din m
  let count := if chatter then 0 else if raw = x.raw then min (x.count + 1) 255 else 1
  let s1 := s.modDin m fun x => { x with count := count, raw := raw }
  let act := s1.levelActive m raw
  if s1.dinChatter m || s1.dinLo m || s1.dinHi m || decide (count < s1.get p (DIN_TIME_DEB n)) || act == s1.dinActive m then s1
  else
    let s2 := (s1.setBit p DIG_LVL_FILT n act).irq p INT_DIG_CHANGE
    if act then s2.modDin m fun x => { x with activeAt := s2.tb.clocks } else s2.setBit p DIG_FLAG_STUCK n false

/-- Step 4, the stuck timer (R292). -/
def State.stuckStep (s : State) (m : Nat) : State :=
  let p := dinPage m
  let n := dinIx m
  let t := s.get p (DIN_TIME_STUCK_T n)
  if s.dinActive m && t != 0 && !s.dinStuck m && decide ((s.din m).activeAt + t * 50000000 ≤ s.tb.clocks) then
    (((s.setBit p DIG_FLAG_STUCK n true).irq p INT_DIG_STUCK).cnt p (DIN_CNT_STUCK n)).err p 0x6210 m
  else s

/-- The input is armed as a wake source (R294). -/
def State.dinArmed (s : State) (m : Nat) : Bool :=
  (if m < 32 then s.bit pINC INC_WK_ARM_LO_MASK m else s.bit pINC INC_WK_ARM_HI_MASK (m - 32)) && !s.disarmed.testBit m

/-- Step 5 for a chatter sample (R295): a request for this sample, or a suppressed one. -/
def State.chatterRequest (s : State) (m : Nat) (chatter raw : Bool) : State :=
  let x := s.din m
  let wants := chatter && s.dinChatter m && s.dinArmed m && s.levelActive m raw
  let free := x.chatAt = 0 ∨ x.chatAt - 1 + s.get pINC INC_WAKE_WK_CHAT * clocksPerS ≤ s.tb.clocks
  if !wants then s.modDin m fun x => { x with chatReq := false }
  else if free then s.modDin m fun x => { x with chatReq := true, chatAt := s.tb.clocks + 1 }
  else (s.modDin m fun x => { x with chatReq := false }).cnt (dinPage m) (DIN_CNT_WK_SUP (dinIx m))

/-- A sample of DIN_m (R285, R288, Table 09-4), with which a written DIN_CFG takes effect (R282). -/
def State.sampleDin (s : State) (m : Nat) (mv : Int) (vbatMv : Nat) : State :=
  let p := dinPage m
  let n := dinIx m
  let raw := s.comparator m (s.din m).comp mv vbatMv
  let implied := raw != (s.din m).comp && s.chatterCounts m
  let s1 := s.modDin m fun x => { x with comp := raw, trans := x.trans + implied.toNat, cfg := s.rd p (DIN_CFG n) }
  let v := min ((max (roundDiv mv 125) 0).toNat) 255
  let s2 := ((s1.set p (DIN_V_V n) v).set p (DIN_V_VALID n) 1).setBit p DIG_LVL_RAW n raw
  let (s3, chatter) := s2.chatterStep m
  let s4 := ((s3.diagStep m v).debounceStep m chatter raw).stuckStep m
  (s4.chatterRequest m chatter raw).modDin m fun x => { x with trans := 0 }

/-- A DIN makes a wake request (R294, R295). -/
def State.dinRequests (s : State) (m : Nat) : Bool :=
  s.dinArmed m && ((s.dinActive m && !s.dinStuck m && !s.dinLo m && !s.dinHi m) || (s.din m).chatReq)

/-- INC_WK_REQ as one mask. -/
def State.wakeReq (s : State) : Nat := s.get pINC INC_WK_REQ_LO_V + s.get pINC INC_WK_REQ_HI_V * 2 ^ 32

/-- INC_WK_REQ is formed again (R294): a change from 0 to not 0 sets WAKE, counts a wake of the inputs concerned and updates
INC_WK_LAST with the lowest of them. Whether there was such a change. -/
def State.wakeEval (s : State) : State × Bool :=
  let old := s.wakeReq
  let new := maskOf ((List.range 48).filter fun m => s.dinRequests m)
  let s1 := (s.set pINC INC_WK_REQ_LO_V (new % 2 ^ 32)).set pINC INC_WK_REQ_HI_V (new / 2 ^ 32)
  if old = 0 ∧ new ≠ 0 then
    let s2 := (s1.irq pINC INT_INC_WAKE).each (setBits 48 new) fun s m => s.cnt (dinPage m) (DIN_CNT_WAKE (dinIx m))
    let s3 := (s2.set pINC INC_WK_LAST_DIN ((setBits 48 new).headD 0)).set pINC INC_WK_LAST_STANDBY 0
    (s3.set pINC INC_WK_LAST_WAKES (wrapAdd 16 (s3.get pINC INC_WK_LAST_WAKES) 1), true)
  else (s1, false)

/-- CHATTER is judged at a cycle boundary (R289). -/
def State.chatterBoundary (s : State) : State :=
  s.each (List.range 48) fun s m =>
    let s1 := if (s.din m).chat = 0 then s.setBit (dinPage m) DIG_FLAG_CHATTER (dinIx m) false else s
    s1.modDin m fun x => { x with chat := 0 }

/-! Analog inputs. -/

/-- Code of a voltage and whether it lies above full scale (R284, Table 09-1). -/
def ainCode (range : Nat) (uv : Int) : Nat × Bool :=
  let c := (max (if range = 1 then roundDiv uv 2500 else roundDiv (2 * uv) 625) 0).toNat
  if 0x3FFF < c then (0x3FFF, true) else (c, false)

/-- ANA_FLAG follows the flags of the inputs. -/
def State.anaFlags (s : State) (n : Nat) : State :=
  let s1 := s.setBit pANA ANA_FLAG_FAULT n (s.on pANA (ANA_VAL_FAULT_LO n) || s.on pANA (ANA_VAL_FAULT_HI n))
  s1.setBit pANA ANA_FLAG_SAT n (s.on pANA (ANA_VAL_SAT n))

/-- A sample of AIN_n with its limit check (R284, R285, R293). With LIM_EN = 0 no fault holds (DESIGN CHOICE). -/
def State.sampleAin (s : State) (n : Nat) (uv : Int) : State :=
  let r := s.get pANA (ANA_CFG_RANGE n)
  let c := ainCode r uv
  let s1 := ((s.set pANA (ANA_VAL_CODE n) c.1).set pANA (ANA_VAL_RANGE n) r).set pANA (ANA_VAL_VALID n) 1
  let s2 := (s1.set pANA (ANA_VAL_SAT n) c.2.toNat)
  let s3 := if c.2 then s2.irq pANA INT_ANA_SAT else s2
  let x := nth s3.ains n ⟨0, 0, 0, 0⟩
  if !s3.on pANA (ANA_CFG_LIM_EN n) then
    (({ s3 with ains := setNth s3.ains n ⟨0, 0, 0, 0⟩ }).set pANA (ANA_VAL_FAULT_LO n) 0).set pANA (ANA_VAL_FAULT_HI n) 0 |>.anaFlags n
  else
    let deb := s3.get pANA (ANA_CFG_DEB n)
    let oldLo := s3.on pANA (ANA_VAL_FAULT_LO n)
    let oldHi := s3.on pANA (ANA_VAL_FAULT_HI n)
    let a := sideStep deb (decide (c.1 < s3.get pANA (ANA_LIM_LO n))) x.below x.notBelow oldLo
    let b := sideStep deb (decide (s3.get pANA (ANA_LIM_HI n) < c.1)) x.above x.notAbove oldHi
    let s4 := { s3 with ains := setNth s3.ains n ⟨a.1, a.2.1, b.1, b.2.1⟩ }
    let s5 := (s4.set pANA (ANA_VAL_FAULT_LO n) a.2.2.toNat).set pANA (ANA_VAL_FAULT_HI n) b.2.2.toNat
    let s6 := if a.2.2 && !oldLo then (s5.irq pANA INT_ANA_LIMIT).err pANA 0x6214 (0x10000 + n) else s5
    let s7 := if b.2.2 && !oldHi then (s6.irq pANA INT_ANA_LIMIT).err pANA 0x6214 (0x10000 + n) else s6
    s7.anaFlags n

/-! An edge (R285, R286). -/

/-- A page samples at position pos. -/
def samplesAt (lo hi pos : Nat) : Bool := if pos < 32 then lo.testBit pos else hi.testBit (pos - 32)

def State.digSamples (s : State) (i pos : Nat) : Bool := samplesAt (s.get (pDIG i) DIG_POS_LO_MASK) (s.get (pDIG i) DIG_POS_HI_MASK) pos

def State.anaSamples (s : State) (pos : Nat) : Bool := samplesAt (s.get pANA ANA_POS_LO_MASK) (s.get pANA ANA_POS_HI_MASK) pos

/-- Bytes of a mask, least significant first. -/
def maskBytes (k : Nat) (l : List Nat) : List Nat := bytesLE k (maskOf l)

/-- The local input image of Table 09-2 for an edge at position pos and time q (0.25 ns). -/
def State.inputImage (s : State) (pos q : Nat) (dinNew ainNew late : Bool) : List Nat :=
  let ms := List.range 48
  let ns := List.range 16
  bytesLE 2 ((s.rd pIXP IXP_CYC).toNat % 0x10000)
    ++ [pos + 64 * dinNew.toNat + 128 * ainNew.toNat, late.toNat]
    ++ maskBytes 6 (ms.filter fun m => s.dinActive m)
    ++ maskBytes 6 (ms.filter fun m => s.bit (dinPage m) DIG_LVL_RAW (dinIx m))
    ++ maskBytes 6 (ms.filter fun m => s.dinStuck m || s.dinChatter m || s.dinLo m || s.dinHi m)
    ++ maskBytes 2 (ns.filter fun n => s.bit pANA ANA_FLAG_FAULT n || s.bit pANA ANA_FLAG_SAT n)
    ++ (ns.map fun n => bytesLE 2 (s.get pANA (ANA_VAL_CODE n) + 0x8000 * s.get pANA (ANA_VAL_RANGE n))).flatten
    ++ bytesLE 4 (stampNs q) ++ bytesLE 4 (stampSec q)

/-- Address of the image of RCn, and of the items after it (R286). -/
def State.imageAddr (s : State) (n : Nat) : Nat := 0x12000000 + n * 0x20000 + s.get pINC INC_CTRL_IMG_OFS * 64

/-- Bytes written into the tightly coupled memory of RC0-RC3 at an offset from the image. -/
def State.toCores (s : State) (off : Nat) (l : List Nat) : State :=
  s.each [0, 1, 2, 3] fun s n => s.setBytes (s.imageAddr n + off) l

/-- The image of an edge is written (R286). -/
def State.writeImage (s : State) (l : List Nat) (late : Bool) : State :=
  if s.on pINC INC_CTRL_IMG_EN then
    let s1 := (s.toCores 0 l).set pINC INC_STAT_IMG_CNT (wrapAdd 16 (s.get pINC INC_STAT_IMG_CNT) 1)
    if late then ((s1.cnt pINC INC_STAT_LATE).irq pINC INT_INC_LATE).err pINC 0x6215 0 else s1
  else s

/-- What the inputs do at an edge: CHATTER judged at a boundary, the samples that are due at a position that acts, and wake
requests (R285, R288, R294); and the image (R286). -/
def State.inputsAtEdge (s : State) (e : EdgeEvent) (q : Nat) (io : EdgeInputs) : State × List Nat × Bool :=
  let s1 := if e.boundary then s.chatterBoundary else s
  let pages := if e.act then (List.range 3).filter fun i => s1.digSamples i e.pos else []
  let ain := e.act && s1.anaSamples e.pos
  let s2 := s1.each pages fun s i =>
    s.each ((List.range 16).map fun n => 16 * i + n) fun s m => s.sampleDin m (nth io.dinMv m 0) io.vbatMv
  let s3 := if ain then s2.each (List.range 16) fun s n => s.sampleAin n (nth io.ainUv n 0) else s2
  let w := s3.wakeEval
  let image := w.1.inputImage e.pos q (!pages.isEmpty) ain io.late
  (w.1.writeImage image io.late, image, w.2)

/-! Rows. -/

/-- The filtered value has been active for STUCK_T × 100 ms (R292). -/
def execDinStuck (clocks : Nat) (m : Fin 48) (s : State) : Host.Outcome State Fault Refusal :=
  .next (
    let s1 := s.advance clocks
    if s1.up.compute then ((s1.stuckStep m.val).wakeEval).1 else s1)

def digCntClrEff (i : Nat) (v : Word) (s : State) : State :=
  if v.getLsbD 0 then s.each (List.range 16) fun s n => s.wrn (pDIG i) (DIN_CNT n) 0 else s

def execDigCntClr (a : Access) (i : Fin 3) (v : Word) (s : State) : Host.Outcome State Fault Refusal :=
  .next (s.regWrite a (pDIG i.val) DIG_CNT_CLR v noCause (digCntClrEff i.val v))

/-- Pulsed wetting current starts to flow (R283). -/
def execWettingPulseStart (m : Fin 48) (s : State) : Host.Outcome State Fault Refusal :=
  .next (
    if s.up.compute && (s.din m.val).pulsed then
      s.modDin m.val fun x => { x with wet := true }
    else s)

/-- Pulsed wetting current stops (R283). -/
def execWettingPulseEnd (m : Fin 48) (s : State) : Host.Outcome State Fault Refusal :=
  .next (s.modDin m.val fun x => { x with wet := false })

/-- The comparator changes its raw level between samples (R282, R289). -/
def execComparatorTransition (clocks : Nat) (m : Fin 48) (rising : Bool) (s : State) : Host.Outcome State Fault Refusal :=
  .next (
    let s1 := s.advance clocks
    if (s1.din m.val).comp = rising then s1
    else
      let n := (s1.up.compute && s1.chatterCounts m.val).toNat
      s1.modDin m.val fun x => { x with comp := rising, trans := x.trans + n })

/-! Register rules. -/

/-- R282. -/
def dinCfgPre (v : Word) (_ : State) : Option Nat := if bitsOf v.toNat 0 8 ≤ bitsOf v.toNat 8 8 then some 0x0B else none

/-- Table 09-7. -/
def digThPre (v : Word) (_ : State) : Option Nat :=
  if bitsOf v.toNat 8 8 ≤ bitsOf v.toNat 0 8 ∨ bitsOf v.toNat 24 8 ≤ bitsOf v.toNat 16 8 then some 0x0B else none

/-- Table 09-8. -/
def anaLimPre (v : Word) (_ : State) : Option Nat := if bitsOf v.toNat 16 14 < bitsOf v.toNat 0 14 then some 0x0B else none

/-- R286: IMG_OFS at or below 0x1_FF40. -/
def incCtrlPre (v : Word) (_ : State) : Option Nat := if 0x1FF40 < bitsOf v.toNat 6 11 * 64 then some 0x0B else none

/-- R294: at most 16 armed inputs. -/
def wkArmPre (hi : Bool) (v : Word) (s : State) : Option Nat :=
  let n := if hi then popCount 32 (s.rd pINC INC_WK_ARM_LO).toNat + popCount 16 v.toNat
    else popCount 32 v.toNat + popCount 16 (s.rd pINC INC_WK_ARM_HI).toNat
  if 16 < n then some 0x0B else none

end Sys2Proof.Machine
end

