-- ==== Sys2Proof/Machine/Frames.lean ====
section
/-!
DEFINITION. What the switch reads in an Ethernet frame (spec/04 R102-R112, R124, R134): addresses, VLAN tag, EtherType,
redundancy tag, IP and port fields, the PTP header, and the flow hash.
-/

namespace Sys2Proof.Machine

/-- The parts of a frame: addresses, the tag (PCP, DEI, VID) if TPID 0x8100 stands there, and the rest from the EtherType
on. -/
structure Parsed where
  dst : Nat
  src : Nat
  tag : Option (Nat × Nat × Nat)
  body : List Nat
  deriving DecidableEq, Repr

/-- Big-endian number of n octets from offset o. -/
def be (l : List Nat) (o n : Nat) : Nat := ofBytesBE ((l.drop o).take n)

def parseFrame (l : List Nat) : Parsed :=
  let dst := be l 0 6
  let src := be l 6 6
  if be l 12 2 = 0x8100 then
    let tci := be l 14 2
    ⟨dst, src, some (bitsOf tci 13 3, bitsOf tci 12 1, bitsOf tci 0 12), l.drop 16⟩
  else ⟨dst, src, none, l.drop 12⟩

/-- A frame put together: the tag where there is one. -/
def buildFrame (dst src : Nat) (tag : Option (Nat × Nat × Nat)) (body : List Nat) : List Nat :=
  bytesBE 6 dst ++ bytesBE 6 src ++
    (match tag with
     | some (pcp, dei, vid) => bytesBE 2 0x8100 ++ bytesBE 2 (pcp * 0x2000 + dei * 0x1000 + vid)
     | none => []) ++ body

/-- Length of a frame with FCS, at least 64 octets (R102). -/
def frameLen (octets : List Nat) : Nat := max 64 (octets.length + 4)

/-- Octets padded so that the frame with its FCS has 64 (R102). -/
def padFrame (octets : List Nat) : List Nat := octets ++ List.replicate (60 - octets.length) 0

/-- A group (multicast or broadcast) address: the first octet's lowest bit. -/
def isGroupAddr (a : Nat) : Bool := a.testBit 40

/-- The link-local addresses 01-80-C2-00-00-00 to 01-80-C2-00-00-0F (R107). -/
def isLinkLocal (a : Nat) : Bool := a / 16 == 0x0180C200000

/-- The sequence number of a redundancy tag (EtherType 0xF1C1) at the head of the body. -/
def rtagSeq (body : List Nat) : Option Nat := if be body 0 2 = 0xF1C1 then some (be body 4 2) else none

/-- The body without a redundancy tag. -/
def stripRtag (body : List Nat) : List Nat := if be body 0 2 = 0xF1C1 then body.drop 6 else body

/-- The body with a redundancy tag of a number. -/
def addRtag (seq : Nat) (body : List Nat) : List Nat := bytesBE 2 0xF1C1 ++ bytesBE 2 0 ++ bytesBE 2 seq ++ body

/-- What is read of an IP packet (Table 04-3, R124): version, addresses, protocol octet, DSCP, and the ports where the
datagram is unfragmented TCP or UDP. -/
structure IpInfo where
  v6 : Bool
  src : List Nat
  dst : List Nat
  proto : Nat
  dscp : Nat
  ports : Option (Nat × Nat)
  deriving DecidableEq, Repr

/-- IP information of a body, seen through a redundancy tag. -/
def ipOf (body : List Nat) : Option IpInfo :=
  let b := stripRtag body
  let p := b.drop 2
  if be b 0 2 = 0x0800 then
    let ihl := nth p 0 0 % 16 * 4
    let frag := be p 6 2 % 0x4000
    let proto := nth p 9 0
    some ⟨false, (p.drop 12).take 4, (p.drop 16).take 4, proto, nth p 1 0 / 4,
      if frag = 0 ∧ (proto = 6 ∨ proto = 17) then some (be p ihl 2, be p (ihl + 2) 2) else none⟩
  else if be b 0 2 = 0x86DD then
    let proto := nth p 6 0
    some ⟨true, (p.drop 8).take 16, (p.drop 24).take 16, proto, be p 0 2 / 64 % 64,
      if proto = 6 ∨ proto = 17 then some (be p 40 2, be p 42 2) else none⟩
  else none

/-- CRC-16 of R124: polynomial 0x1021, initial value 0xFFFF. -/
def crc16 (l : List Nat) : Nat := crcMsb 16 0x1021 0xFFFF l

/-- A PTP event message (EtherType 0x88F7, messageType 0 to 3): its type and sequence number (spec/03 R74). -/
def ptpEvent (body : List Nat) : Option (Nat × Nat) :=
  if be body 0 2 = 0x88F7 ∧ nth body 2 0 % 16 < 4 then some (nth body 2 0 % 16, be body 32 2) else none

end Sys2Proof.Machine
end

