-- ==== Sys2Proof/Machine/Hosts.lean ====
section
/-!
DEFINITION. The host instances (spec/05 R181-R187): descriptor rings, deliveries to RX rings, the choice of the next TX
frame by deficit round robin, ring registers and ring interrupts.
-/

namespace Sys2Proof.Machine

/-- Entries of ring k of instance i (Table 05-8). -/
def State.ringSize (s : State) (i k : Nat) : Nat := 2 ^ (6 + s.get (pHIN i) (RING_SIZE_N k))

/-- Address of descriptor d of a ring. -/
def State.descAddr (s : State) (i k d : Nat) : Nat :=
  s.get (pHIN i) (RING_BASE_LO_ADDR k) * 32 + s.get (pHIN i) (RING_BASE_HI_ADDR k) * 2 ^ 32 + d * 32

/-- Descriptors given and not yet consumed (R186). -/
def State.ringAvail (s : State) (i k : Nat) : Nat :=
  (s.get (pHIN i) (RING_TAIL_V k) + s.ringSize i k - s.get (pHIN i) (RING_HEAD_V k)) % s.ringSize i k

/-- A ring halts (R184). -/
def State.ringHalt (s : State) (i k addr : Nat) : State :=
  let p := pHIN i
  ((s.set p (RING_STAT_HALT k) 1).set p HIN_STAT_HALT (s.get p HIN_STAT_HALT ||| 2 ^ k)).err p 0x2218 (addr % 2 ^ 32)

/-- The ring may work: enabled, not halted. -/
def State.ringLive (s : State) (i k : Nat) : Bool :=
  s.on (pHIN i) (RING_CTRL_EN k) && !s.on (pHIN i) (RING_STAT_HALT k)

/-- A completion of a ring: the line asserts when COUNT of them have accumulated (R186). -/
def State.ringComplete (s : State) (i k : Nat) : State :=
  let r := 8 * i + k
  let n := sget 0 r s.sw.ringDone + 1
  if s.get (pHIN i) (RING_IMOD_COUNT k) ≤ n then
    ({ s with sw.ringDone := sput 0 r 0 s.sw.ringDone }).set (pHIN i) (RING_STAT_IRQ k) 1
  else { s with sw.ringDone := sput 0 r n s.sw.ringDone }

/-- A delivery is dropped for want of descriptors (R183). -/
def State.ringDrop (s : State) (i k : Nat) : State :=
  (s.cnt (pHIN i) (RING_STAT_DROP k)).errLimited (0x200 + 8 * i + k) clocksPerMs (pHIN i) 0x2011 0

/-- How descriptors for n octets were found. -/
inductive Descs where
  | found (l : List (Nat × Nat × Nat))
  | short
  | fault (addr : Nat)
  deriving DecidableEq, Repr

/-- Descriptors from index d on, `fuel` of them at most, until their buffers hold n octets: (descriptor address, buffer
address, buffer length). -/
def State.rxDescs (i k n : Nat) : Nat → Nat → Nat → State → State × Descs
  | 0, _, _, s => (s, .short)
  | fuel + 1, d, got, s =>
    let da := s.descAddr i k (d % s.ringSize i k)
    match s.dmaRead i da 16 with
    | (s1, none) => (s1, .fault da)
    | (s1, some b) =>
      if (ofBytesLE (b.drop 12)).testBit 31 then
        let addr := ofBytesLE (b.take 8)
        let len := ofBytesLE ((b.drop 8).take 2)
        if 2 ^ 40 ≤ addr then (s1, .fault da)
        else if n ≤ got + len then (s1, .found [(da, addr, len)])
        else
          match State.rxDescs i k n fuel (d + 1) (got + len) s1 with
          | (s2, .found l) => (s2, .found ((da, addr, len) :: l))
          | r => r
      else (s1, .short)

/-- STATUS of an RX descriptor at write-back (Table 05-4). -/
def rxStatus (c : Copy) (sop eop : Bool) : Nat :=
  sop.toNat + 2 * eop.toNat + 8 * (c.q % 8) + 64 * c.colour + 256 * c.inPort + 0x8000 + 0x10000 * c.vid

/-- The octets of an RX descriptor from byte 10 on, at write-back. -/
def rxWriteBack (c : Copy) (len : Nat) (sop eop : Bool) : List Nat :=
  let tail := if sop then
      bytesLE 4 c.ns ++ bytesLE 4 c.sec
        ++ bytesLE 2 (match c.handle with | some h => h + 0x8000 | none => 0) ++ bytesLE 2 c.hash ++ bytesLE 4 0
    else bytesLE 16 0
  bytesLE 2 len ++ bytesLE 4 (rxStatus c sop eop) ++ tail

/-- The frame written into its buffers, each descriptor written back (R187); the failing address where a write faults. -/
def State.rxFill (i k : Nat) (c : Copy) : List (Nat × Nat × Nat) → List Nat → Bool → State → State × Option Nat
  | [], _, _, s => (s, none)
  | (da, addr, len) :: t, data, sop, s =>
    let part := data.take len
    match s.dmaWrite i k false addr part with
    | (s1, false) => (s1, some da)
    | (s1, true) =>
      match s1.dmaWrite i k true (da + 10) (rxWriteBack c part.length sop t.isEmpty) with
      | (s2, false) => (s2, some da)
      | (s2, true) => State.rxFill i k c t (data.drop len) false s2

/-- The octets of a copy with its FCS. -/
def Copy.withFcs (c : Copy) : List Nat := c.octets ++ bytesLE 4 (crc32 c.octets)

/-- A delivery to RX ring k of instance i (R182-R184). -/
def State.ringDeliver (s : State) (i k : Nat) (c : Copy) : State :=
  if !s.ringLive i k then s.ringDrop i k
  else
    let data := Copy.withFcs c
    match s.rxDescs i k data.length (s.ringAvail i k) (s.get (pHIN i) (RING_HEAD_V k)) 0 with
    | (s1, .short) => s1.ringDrop i k
    | (s1, .fault da) => s1.ringHalt i k da
    | (s1, .found l) =>
      match s1.rxFill i k c l data true with
      | (s2, some da) => s2.ringHalt i k da
      | (s2, none) =>
        (s2.set (pHIN i) (RING_HEAD_V k) ((s2.get (pHIN i) (RING_HEAD_V k) + l.length) % s2.ringSize i k)).ringComplete i k

/-- A loaded update setting as a big-endian number; 0 where none is loaded (spec/16 R479, R480). -/
def State.settingVal (s : State) (key : Nat) : Nat := ofBytesBE ((s.upd.settings.lookup key).getD [])

/-- The host instance that carries relay frames to SC, while the relay is enabled (spec/16 R466). -/
def State.relayHost (s : State) : Option Nat :=
  if s.settingVal 0xFF00 % 2 = 1 then some (bitsOf (s.settingVal 0xFF00) 8 4) else none

/-- The EtherType of a frame, behind its VLAN tags. -/
def etherTypeAt : Nat → List Nat → Nat
  | 0, l => ofBytesBE (l.take 2)
  | n + 1, l => if ofBytesBE (l.take 2) = 0x8100 ∨ ofBytesBE (l.take 2) = 0x88A8 then etherTypeAt n (l.drop 4) else ofBytesBE (l.take 2)

def etherType (octets : List Nat) : Nat := etherTypeAt 2 (octets.drop 12)

/-- A delivery of the HOST copy to instance i (R182); a parting or a quiesced instance drops it (spec/13 R409, R416). -/
def State.hostDeliver (s : State) (i : Nat) (c : Copy) : State :=
  let k := bitsOf (s.get (pHIN i) HIN_RX_MAP_MAP) (2 * (c.q % 8)) 2
  if s.on (pHIN i) PART_BUSY then s.cnt pISO ISO_CNT_PART_DROP
  else if s.relayHost == some i && etherType c.octets != 0x88B5 then s.cnt (pHIN i) (RING_STAT_DROP k)
  else if s.on (pHIN i) HIN_QUIESCE_REQ then s.cnt (pHIN i) (RING_STAT_DROP k)
  else s.ringDeliver i k c

/-! Transmit rings. -/

/-- A TX frame read from its descriptors: descriptor addresses, octets, CLASS, DIRECT and DEST of the first. -/
structure TxFrame where
  descs : List Nat
  octets : List Nat
  cls : Nat
  direct : Bool
  dest : Nat
  deriving DecidableEq, Repr

/-- How the next frame of a TX ring was found. -/
inductive TxPeek where
  | none
  | fault (addr : Nat)
  | frame (f : TxFrame)
  deriving DecidableEq, Repr

/-- The frame that starts at descriptor d: descriptors from SOP to EOP with OWN = 1 (R187). -/
def State.txRead (i k : Nat) : Nat → Nat → State → State × TxPeek
  | 0, _, s => (s, .none)
  | fuel + 1, d, s =>
    let da := s.descAddr i k (d % s.ringSize i k)
    match s.dmaRead i da 16 with
    | (s1, none) => (s1, .fault da)
    | (s1, some b) =>
      let flags := nth b 11 0
      if flags.testBit 7 then
        let addr := ofBytesLE (b.take 8)
        if 2 ^ 40 ≤ addr then (s1, .fault da)
        else
          match s1.dmaRead i addr (ofBytesLE ((b.drop 8).take 2)) with
          | (s2, none) => (s2, .fault da)
          | (s2, some data) =>
            let f : TxFrame := ⟨[da], data, nth b 10 0 % 8, flags.testBit 2, nth b 12 0 % 64⟩
            if flags.testBit 1 then (s2, .frame f)
            else
              match State.txRead i k fuel (d + 1) s2 with
              | (s3, .frame g) => (s3, .frame { f with descs := da :: g.descs, octets := data ++ g.octets })
              | r => r
      else (s1, .none)

/-- Octets that the instance's rate lets it send now, in 10^-6 bit; no limit where RATE is 0 (R185). -/
def State.txTokens (s : State) (i : Nat) : Int :=
  let cap : Int := 9216 * 8 * 1000000
  let d := s.tb.clocks - sget 0 i s.sw.txTokAt
  min cap (sget cap i s.sw.txTok + d * 2 * s.get (pHIN i) HIN_TX_RATE_RATE)

/-- The class of the next frame of a TX ring is held by a HOST group in XOFF (R180). -/
def State.hostHeld (s : State) (c : Nat) : Bool := s.fcClass 31 c == some c && s.tfOn tBPORT 31 (bXOFF c)

/-- The TX ring in turn of an instance that has a frame: (ring, what was found). -/
def State.txCandidate (s : State) (i : Nat) : Option (Nat × TxPeek) :=
  if s.on (pHIN i) PART_BUSY || s.on (pHIN i) HIN_QUIESCE_REQ then none
  else
    let start := nth s.sw.drrRing i 4
    ((List.range 4).map fun j => 4 + (start - 4 + j) % 4).findSome? fun k =>
      if !s.ringLive i k || s.ringAvail i k == 0 then none
      else
        match (s.txRead i k (s.ringAvail i k) (s.get (pHIN i) (RING_HEAD_V k))).2 with
        | .none => none
        | .fault a => some (k, .fault a)
        | .frame f =>
          if s.hostHeld f.cls then none
          else if s.get (pHIN i) HIN_TX_RATE_RATE ≠ 0 ∧ s.txTokens i < (min 9216 f.octets.length * 8 * 1000000 : Nat) then none
          else some (k, .frame f)

/-- Octets that deficit round robin counts for a candidate; a fault is taken at once. -/
def peekCost : TxPeek → Nat
  | .frame f => f.octets.length
  | _ => 0

/-- Deficit round robin from the instance in turn (R185): instance, ring and frame, with the new deficits. Each visit to an
instance adds its quantum; one without a frame loses its deficit. -/
def State.drr (s : State) (cand : List (Option (Nat × TxPeek))) : Nat → Nat → List Nat → Option (Nat × Nat × TxPeek × List Nat)
  | 0, _, _ => none
  | fuel + 1, i, deficits =>
    match nth cand i none with
    | some (k, pk) =>
      if peekCost pk ≤ nth deficits i 0 then
        some (i, k, pk, setNth deficits i (nth deficits i 0 - peekCost pk))
      else
        let j := (i + 1) % 16
        s.drr cand fuel j (setNth deficits j (nth deficits j 0 + s.get (pHIN j) HIN_CTRL_TX_WEIGHT * 1024))
    | none =>
      let j := (i + 1) % 16
      let d := setNth deficits i 0
      s.drr cand fuel j (setNth d j (nth d j 0 + s.get (pHIN j) HIN_CTRL_TX_WEIGHT * 1024))

/-- The TX write-back of a frame's descriptors: OWN cleared, DONE, and the reason of an error (Table 05-4). -/
def State.txWriteBack (i k reason : Nat) : List Nat → State → State
  | [], s => s
  | da :: t, s =>
    match s.dmaRead i (da + 11) 1 with
    | (s1, none) => s1.ringHalt i k da
    | (s1, some b) =>
      match s1.dmaWrite i k true (da + 11) [nth b 0 0 % 128] with
      | (s2, false) => s2.ringHalt i k da
      | (s2, true) =>
        match s2.dmaWrite i k true (da + 16) (bytesLE 8 (1 + 2 * (reason != 0).toNat + 16 * reason)) with
        | (s3, false) => s3.ringHalt i k da
        | (s3, true) => State.txWriteBack i k reason t s3

/-- A fetched frame is done: descriptors written back, HEAD advanced, a completion (R186). -/
def State.txDone (s : State) (i k reason : Nat) (f : TxFrame) : State :=
  let s1 := State.txWriteBack i k reason f.descs s
  (s1.set (pHIN i) (RING_HEAD_V k)
    ((s1.get (pHIN i) (RING_HEAD_V k) + f.descs.length) % s1.ringSize i k)).ringComplete i k

/-! Ring registers (R184, R186). -/

/-- RING_BASE and RING_SIZE refuse writes while EN = 1 (Table 05-8). -/
def ringSetupPre (i k : Nat) (s : State) : Option Nat := if s.on (pHIN i) (RING_CTRL_EN k) then some 0x0B else none

/-- TAIL is refused beyond the ring size and where it would pass HEAD (R186). -/
def ringTailPre (i k : Nat) (v : Word) (s : State) : Option Nat :=
  let n := s.ringSize i k
  let t := bitsOf v.toNat 0 12
  let head := s.get (pHIN i) (RING_HEAD_V k)
  let old := s.get (pHIN i) (RING_TAIL_V k)
  if n ≤ t then some 0x0B
  else if (t + n - old) % n + (old + n - head) % n < n then none
  else some 0x0B

def execRingTailWrite (a : Access) (inst : Fin 16) (k : Fin 8) (v : Word) (s : State) : Host.Outcome State Fault Refusal :=
  let p := pHIN inst.val
  .next (s.regWrite a p (RING_TAIL k.val) v (ringTailPre inst.val k.val v) fun s => s.plain p (RING_TAIL k.val) v)

/-- EN: 0 then 1 clears a halt (R184). -/
def ringCtrlEff (i k : Nat) (v : Word) (s : State) : State :=
  let p := pHIN i
  let s1 := s.plain p (RING_CTRL k) v
  if v.getLsbD 0 && !s.on p (RING_CTRL_EN k) then
    (s1.set p (RING_STAT_HALT k) 0).set p HIN_STAT_HALT (maskOf ((setBits 8 (s1.get p HIN_STAT_HALT)).filter fun j => j != k))
  else s1

def execRingEnable (a : Access) (inst : Fin 16) (k : Fin 8) (v : Word) (s : State) : Host.Outcome State Fault Refusal :=
  .next (s.regWrite a (pHIN inst.val) (RING_CTRL k.val) v noCause (ringCtrlEff inst.val k.val v))

/-- TIMER µs after the first unsignalled completion the line asserts (R186). -/
def execRingIrqTimer (inst : Fin 16) (k : Fin 8) (s : State) : Host.Outcome State Fault Refusal :=
  .next (
    let r := 8 * inst.val + k.val
    if 0 < sget 0 r s.sw.ringDone then
      ({ s with sw.ringDone := sput 0 r 0 s.sw.ringDone }).set (pHIN inst.val) (RING_STAT_IRQ k.val) 1
    else s)

def execRingIrqClear (a : Access) (inst : Fin 16) (k : Fin 8) (v : Word) (s : State) : Host.Outcome State Fault Refusal :=
  let p := pHIN inst.val
  .next (s.regWrite a p (RING_STAT k.val) v noCause fun s => s.plain p (RING_STAT k.val) v)

/-- SPL_CNT_CLR clears the counters and the peak (Table 05-7). -/
def splCntClrEff (e : Nat) (v : Word) (s : State) : State :=
  if v.getLsbD 0 then
    let p := pSPL e
    [SPL_PEAK, SPL_CNT_WR, SPL_CNT_RD, SPL_CNT_BWREF, SPL_CNT_FULL, SPL_CNT_ECC].foldl (fun s o => s.wr p o 0) s
  else s

def execSplCntClr (a : Access) (e : Fin 4) (v : Word) (s : State) : Host.Outcome State Fault Refusal :=
  .next (s.regWrite a (pSPL e.val) SPL_CNT_CLR v noCause (splCntClrEff e.val v))

/-- The sum of WR or of RD over the engines stays at most 80 (R163). -/
def splBwPre (e : Nat) (v : Word) (s : State) : Option Nat :=
  let sum (f : Fld) (new : Nat) := (List.range 4).foldl (fun n j => n + if j = e then new else s.get (pSPL j) f) 0
  if 80 < sum SPL_BW_WR (bitsOf v.toNat 0 7) ∨ 80 < sum SPL_BW_RD (bitsOf v.toNat 8 7) then some 0x0B else none

/-- BASE and SIZE of the spill region (R162). -/
def bufSpillPre (v : Word) (s : State) : Option Nat :=
  let base := bitsOf v.toNat 0 10
  let size := bitsOf v.toNat 16 5
  let changed := base != s.get pBUF BUF_SPILL_BASE || size != s.get pBUF BUF_SPILL_SIZE
  if 0x240 < base + size then some 0x0B
  else if changed && (s.on pBUF BUF_SPILL_EN || (List.range 4).any fun e => 0 < s.get (pSPL e) SPL_STAT_HELD) then some 0x0B
  else none

end Sys2Proof.Machine
end

