-- ==== Sys2Proof/Machine/Transmit.lean ====
section
/-!
DEFINITION. Transmission selection (spec/05 R167-R172): gates, shapers, preemption, what a port does with a frame it has
sent, pause frames (R175-R179) and read-back from spill (R164-R166).
-/

namespace Sys2Proof.Machine

/-- A frame enters a gateway engine's input queue of 256 (spec/06 R219). -/
def State.gwPush (s : State) (e : Nat) (it : GwItem) : State :=
  let p := pPEG e
  let q := nth s.gwIn e []
  if 256 ≤ q.length then (s.cnt32 p PEG_CNT_OVF).errLimited (0x400 + e) clocksPerMs p 0x321F 0
  else
    (({ s with gwIn := setNth s.gwIn e (q ++ [it]) }).cnt32 p PEG_CNT_IN).set p PEG_STAT_QUEUE (q.length + 1)

/-- Module time of the edge n positions after the current one; the cycles to come have the table that waits for the boundary. -/
def State.edgeTime (s : State) (n : Nat) : Nat :=
  let k := s.curPos + n
  let x := s.comingTable
  let off := if k < 64 then s.edgeOffset k else s.plate.length + (k / 64 - 1) * (x.len * 50000) + x.edges.getD (k % 64) 0
  (s.plate.boundary + (off : Nat)).toNat

/-- The class gate n positions after the current one: from the next cycle boundary on the shadow lists count if a COMMIT waits
(R169, R170). -/
def State.gateSoon (s : State) (p c n : Nat) : Bool :=
  let k := s.curPos + n
  !(tasPort p && s.tfOn tBPORT p bTAS_EN)
    || (s.tget tGCL (64 * p + k % 64) (if 64 ≤ k ∧ s.sw.gclPend then 0 else 1)).testBit c

/-- When the class gate next closes, none where it does not within three cycles (R170). -/
def State.gateCloses (s : State) (p c : Nat) : Option Nat :=
  if !s.plate.started then none
  else
    match (List.range 192).find? fun n => !s.gateSoon p c (n + 1) with
    | some n => some (s.edgeTime (n + 1))
    | none => none

/-- Time of a frame with 20 octets of preamble and gap at the port rate, 0.25 ns units. -/
def State.sendTime (s : State) (p len : Nat) : Nat :=
  let r := max 1 (s.portRate p)
  ((len + 20) * 8 * 4000 + r - 1) / r

/-- Preemption is active on the port (R137, R138). -/
def State.preempting (s : State) (p : Nat) : Bool := p < 7 && s.get (pPORT p) PORT_PRE_STATUS == 2

def State.expressCls (s : State) (p c : Nat) : Bool := (s.get (pPORT p) PORT_PRE_EXPRESS).testBit c

/-- Length of index position j at nominal length. -/
def State.posLength (s : State) (j : Nat) : Nat :=
  (if j = 63 then s.plateL else s.get pIXP (ACT_EDGE_OFS (j + 1))) - s.get pIXP (ACT_EDGE_OFS j)

/-- The longest contiguous open window of a class in the active list; none where the gate is always open (R170). -/
def State.longestWindow (s : State) (p c : Nat) : Option Nat :=
  if (List.range 64).all fun j => s.gateAt p c j then none
  else
    some ((List.range 128).foldl (fun (a : Nat × Nat) j =>
      if s.gateAt p c (j % 64) then
        let n := a.1 + s.posLength (j % 64)
        (n, max a.2 n)
      else (0, a.2)) (0, 0)).2

/-- The head frame of a queue that may start: the first on-chip copy not yet begun (R167, R168). -/
def State.headOf (s : State) (q : Nat) : Option Copy :=
  s.sw.held.find? fun c => c.q == q && c.onChip && c.sending == 0

/-- Exempt from R170: preemptable frames on a port with preemption active. -/
def State.exempt (s : State) (p c : Nat) : Bool := s.preempting p && !s.expressCls p c

/-- The frame passes R170. -/
def State.fitsWindow (s : State) (p c len : Nat) : Bool :=
  if !(tasPort p && s.tfOn tBPORT p bTAS_EN) || s.exempt p c then true
  else
    match s.gateCloses p c with
    | none => true
    | some t => decide (s.nowQ + s.sendTime p len ≤ t)

/-- The head is longer than any window of its class, and some position is open (R170). -/
def State.tooLong (s : State) (p c len : Nat) : Bool :=
  tasPort p && s.tfOn tBPORT p bTAS_EN && !s.exempt p c &&
    (match s.longestWindow p c with
     | none => false
     | some w => decide (0 < w) && decide (w < s.sendTime p len))

/-- Heads longer than any window are dropped (R170), at most `fuel` of them. -/
def State.dropLong (p : Nat) : Nat → State → State
  | 0, s => s
  | fuel + 1, s =>
    match (List.range 8).findSome? fun c =>
        (s.headOf (8 * p + c)).bind fun x => if s.tooLong p c x.len then some x else none with
    | none => s
    | some x =>
      State.dropLong p fuel
        (((s.release x).tcnt pBUF tQUEUE x.q 11).errLimited (0x1000 + x.q) clocksPerMs pBUF 0x2019 x.q)

/-! Selection. -/

def State.shaperPermits (s : State) (p len : Nat) : Bool :=
  s.tf tBPORT p bRATE == 0 || decide (((len * 8 * 1000000 : Nat) : Int) ≤ s.portTokens p)

def State.paused (s : State) (p c : Nat) : Bool := s.tfOn tBPORT p (bPAUSED c) && !s.tfOn tBPORT p (bTRIPPED c)

/-- The port holds its preemptable traffic (R171). -/
def State.holding (s : State) (p : Nat) : Bool := s.sw.hold.any fun e => e.1 == p

/-- Class c of port p may start its head frame (R168). -/
def State.mayStart (s : State) (p c : Nat) (x : Copy) : Bool :=
  s.linkUp p && s.gateOpen p c && s.fitsWindow p c x.len && !s.paused p c
    && !(s.cbsOn p c && decide (sget 0 x.q s.sw.credit < 0)) && s.shaperPermits p x.len
    && !(s.exempt p c && s.holding p)

/-- The frame chosen among the classes that satisfy f: the highest class first. -/
def State.choose (s : State) (p : Nat) (f : Nat → Bool) : Option Copy :=
  [7, 6, 5, 4, 3, 2, 1, 0].findSome? fun c =>
    if f c then (s.headOf (8 * p + c)).bind fun x => if s.mayStart p c x then some x else none else none

/-- The port chooses what to send next (R168): an express frame, else the frame it had preempted, else a preemptable one. -/
def State.selectNext (s : State) (p : Nat) : State :=
  let s1 := s.dropLong p s.sw.held.length
  match s1.choose p fun c => s1.expressCls p c with
  | some x => s1.startFrame x
  | none =>
    match s1.sw.held.find? fun c => c.q / 8 == p && c.sending == 2 with
    | some x => if s1.holding p then s1 else s1.setSending x.id 1
    | none =>
      match s1.choose p fun c => !s1.expressCls p c with
      | some x => s1.startFrame x
      | none => s1

/-! What a sent frame does. -/

/-- A PTP message with an amount in 0.25 ns units added to its correctionField, which counts 2^-16 ns (R142). -/
def addCorrection (octets : List Nat) (d : Nat) : List Nat :=
  let pp := if be octets 12 2 = 0x8100 then 26 else 22
  octets.take pp ++ bytesBE 8 ((be octets pp 8 + d * 16384) % 2 ^ 64) ++ octets.drop (pp + 8)

/-- PTP timestamps and one-step (spec/03 R74, spec/04 R141, R142, Table 04-1): no timestamps on TW and the internal ports. A Sync on a
one-step port gets the time from its ingress to its egress added in flight. `q` is when its start delimiter, or the SMD of its first
fragment, crossed the MAC boundary. Answers the octets as sent. -/
def State.ptpSent (s : State) (c : Copy) (q : Nat) : State × List Nat :=
  let p := c.q / 8
  let octets := padFrame c.octets
  if p = 2 ∨ 31 ≤ p then (s, octets)
  else
    match ptpEvent (parseFrame octets).body with
    | none => (s, octets)
    | some (ty, seq) =>
      let out := s.egressTime p q
      let stay := (stampSec out + 2 ^ 32 - c.sec) % 2 ^ 32 * quartersPerSecond + stampNs out - c.ns
      (s.pushStamp p ty seq out, if ty = 0 ∧ s.on (pPORT p) PORT_TS_ONE_STEP then addCorrection octets stay else octets)

/-- A mirror copy reaches its destination (R143): a host instance, or an external port, with a tag where VID is not 0. -/
def State.mirrorOut (s : State) (c : Copy) : State :=
  if !s.on pMIRR MIRR_CTRL_DEST_EXT then
    (s.cnt32 pMIRR MIRR_CNT_OK).hostDeliver (s.get pMIRR MIRR_CTRL_INST) { c with octets := padFrame c.octets }
  else
    let vid := s.get pMIRR MIRR_CTRL_VID
    let pr := parseFrame c.octets
    let octets := if vid = 0 then c.octets else buildFrame pr.dst pr.src (some (0, 0, vid)) (c.octets.drop 12)
    let x := { c with q := 8 * s.get pMIRR MIRR_CTRL_PORT, octets := octets, len := frameLen octets, sending := 0 }
    match s.offerCopy x 0 [] with
    | (s1, .dropped) => s1.cnt32 pMIRR MIRR_CNT_DROP
    | (s1, _) => s1.cnt32 pMIRR MIRR_CNT_OK

/-- Frames sent while their class ignores the peer's pause are counted (R178). DESIGN CHOICE: the spec gives this count no register,
so it stands in State. -/
def State.countIgnored (s : State) (q : Nat) : State :=
  if s.tfOn tBPORT (q / 8) (bPAUSED (q % 8)) && s.tfOn tBPORT (q / 8) (bTRIPPED (q % 8)) then
    { s with sw.ignored := sput 0 q (sget 0 q s.sw.ignored + 1) s.sw.ignored }
  else s

/-- A frame has been sent on its port, padded (R102); its cells are free from the next clock on (R152). `q` is when its start
delimiter crossed the MAC boundary. -/
def State.sent (s : State) (c : Copy) (q : Nat) : State :=
  let p := c.q / 8
  let s0 := ({ s with sw.freedAt := s.tb.clocks + 1 }.release c).countIgnored c.q
  let s1 := (s0.cnt32 (pPORT p) CNT_TX_OK).cnt64 (pPORT p) CNT_TX_OCT_L CNT_TX_OCT_H c.len
  if p = 31 then s1.each c.insts fun s i => s.hostDeliver i { c with octets := padFrame c.octets }
  else if p = 32 then
    s1.gwPush (s1.get pSWC (GWE_SEL_ACTIVE (bitsOf c.hash 10 6))) (.eth (padFrame c.octets) c.sec c.ns)
  else if p = 33 then s1.mirrorOut c
  else
    let r := s1.ptpSent c q
    r.1.emit (.frame p r.2)

/-- The switch's die, domain and clocks work (spec/17 Table 17-7). -/
def State.switchUp (s : State) : Bool := s.pageUp pSWC

/-! Pause and priority flow control. -/

/-- The pause or PFC frame that a port owes for its groups goes out (R175): QUANTA for XOFF, 0 for release. -/
def State.sendPause (s : State) (p c : Nat) : State :=
  let pfc := s.tf tBPORT p bFC == 2
  let q := if s.tfOn tBPORT p (bXOFF c) then s.tf tBPORT p bQUANTA else 0
  let s1 := (s.emit (.pause p pfc (if pfc then 2 ^ c else 0) q)).tcnt pBUF tBPORT p 6
  if q = 0 then s1 else s1.tcnt pBUF tIGRP (8 * p + c) 5

/-- Pause frames go out on a port that runs flow control and has its link. -/
def State.pauses (s : State) (p : Nat) : Bool :=
  s.switchUp && s.linkUp p && (s.tf tBPORT p bFC == 1 || s.tf tBPORT p bFC == 2)

/-- The pause frames that a port owes go out after the frame or fragment in transmission (R175). -/
def State.pausesDue (s : State) (p : Nat) : State :=
  if s.pauses p then
    ({ s with sw.pauseDue := s.sw.pauseDue.filter fun (e : Nat × Nat) => e.1 != p }).each
      (s.sw.pauseDue.filter fun (e : Nat × Nat) => e.1 == p) fun s e => s.sendPause p e.2
  else s

/-- A frame may be cut after n octets of its fragment: the fragment with its check has 64 × (1 + ADD_FRAG) octets at least, and 64 are
left for the rest (R137; IEEE 802.3br). -/
def State.mayCut (s : State) (p : Nat) (x : Copy) (n : Nat) : Bool :=
  s.exempt p (x.q % 8) && decide (64 * (1 + s.get (pPORT p) PORT_PRE_ADD_FRAG) ≤ n + 4) && decide (x.sent + n + 64 ≤ x.len)

/-- The frame in transmission is cut after n octets of its fragment. -/
def State.cutFrame (s : State) (p : Nat) (x : Copy) (n : Nat) : State :=
  ({ s with sw.held := s.sw.held.map fun (c : Copy) => if c.id = x.id then { c with sending := 2, sent := c.sent + n } else c }).cnt32
    (pPORT p) CNT_TX_FRAG

/-- A preemption point after n octets of the fragment: an express frame that may start, owed pause frames, or hold cut the frame. -/
def State.preemptAt (s : State) (p : Nat) (x : Copy) (n : Nat) : State :=
  if !s.mayCut p x n then s
  else
    match s.choose p fun c => s.expressCls p c with
    | some y => ((s.cutFrame p x n).pausesDue p).startFrame y
    | none =>
      if s.holding p then (s.cutFrame p x n).pausesDue p
      else if s.sw.pauseDue.any fun e => e.1 == p then ((s.cutFrame p x n).pausesDue p).setSending x.id 1
      else s

/-- The frame boundary of a port: what it sent is done with, owed pause frames go out, the next frame is selected. -/
def State.frameEnd (s : State) (p : Nat) (age : Nat) : State :=
  let s1 := match s.sendingOn p with
    | none => s
    | some x => if 0 < x.sent then (s.sent x (s.nowQ - age)).cnt32 (pPORT p) CNT_TX_FRAG else s.sent x (s.nowQ - age)
  ((s1.pausesDue p).selectNext p).settle

/-- A frame boundary, or a preemption point after some octets of the fragment, of a port `clocks` clocks after the command before it
(R168). At a frame boundary `age` is the time since the start delimiter of the frame, or the SMD of its first fragment, in 0.25 ns
units (R141). -/
def execFrameTransmitEnd (tm : Elapsed) (port : Fin 34) (fragment : Option Nat) (s : State) :
    Host.Outcome State Fault Refusal :=
  .next (
    let p := port.val
    let s1 := (s.advance tm.clocks).creditRun p
    if !s.switchUp then s1
    else
      match fragment, s1.sendingOn p with
      | none, _ => s1.frameEnd p tm.age
      | some _, none => s1
      | some n, some x => (s1.preemptAt p x n).settle)

/-- The next position to hold for, as edges to come: the edge of the first position with HOLD = 1 behind one with HOLD = 0 lies at
most HOLD_ADV × 10 ns ahead (R171). -/
def State.holdAhead (s : State) (p : Nat) : Option Nat :=
  let hold (n : Nat) : Bool := (s.tget tGCL (64 * p + (s.curPos + n) % 64) (if 64 ≤ s.curPos + n ∧ s.sw.gclPend then 0 else 1)).testBit 8
  ((List.range 3).map fun n => n + 1).find? fun n =>
    hold n && !hold (n - 1) && decide (s.edgeTime n ≤ s.nowQ + 40 * s.tf tBPORT p bHOLD_ADV)

/-- HOLD_ADV before the edge of a position with HOLD = 1 that follows one with HOLD = 0 the port requests hold (R171). -/
def execHoldRequest (port : Fin 27) (s : State) : Host.Outcome State Fault Refusal :=
  .next (
    let p := port.val
    if s.switchUp && s.plate.started && s.tfOn tBPORT p bTAS_EN && !s.holding p then
      match s.holdAhead p with
      | some n => { s with sw.hold := s.sw.hold ++ [(p, n)] }
      | none => s
    else s)

/-- Entries of a table of which some word is listed. -/
def State.tabListed (s : State) (t : Nat) : List Nat :=
  (s.tabs.filter fun e => e.1 / 16 / 0x100000 == t).map fun e => e.1 / 16 % 0x100000

/-- The shadow gate lists become active (R169). -/
def State.gclActivate (s : State) : State :=
  ({ s with sw.gclPend := false }).each (s.tabListed tGCL) fun s i => s.tset tGCL i 1 (s.tget tGCL i 0)

/-- Ports in hold after an edge: a hold requested ahead counts the edges down, and one whose position has come stays while HOLD = 1; a
jump ends the waiting. A position with HOLD = 1 that follows one with HOLD = 0 holds at its edge at the latest. -/
def State.holdAtEdge (s : State) (was : Nat → Bool) (e : EdgeEvent) : State :=
  let now (p : Nat) : Bool := (s.gclAt p e.pos).testBit 8
  let kept := (s.sw.hold.map fun (x : Nat × Nat) => (x.1, if e.jump then 0 else x.2 - 1)).filter fun x => decide (0 < x.2) || now x.1
  let new := (List.range 27).filter fun p => now p && !was p && s.tfOn tBPORT p bTAS_EN && !kept.any fun x => x.1 == p
  { s with sw.hold := kept ++ new.map fun p => (p, 0) }

/-- At an index-position edge credits are brought up to the change of gates (R172; pos is the position before it), shadow
gate lists become active at a cycle boundary (R169), and the ports hold or release (R171). -/
def State.gatesAtEdge (s : State) (pos : Nat) (e : EdgeEvent) : State :=
  let s1 := if (s.tabListed tCBS).isEmpty then s else s.each (List.range 27) fun s p => s.creditRunAt pos p
  let was (p : Nat) : Bool := (s1.gclAt p pos).testBit 8
  let s2 := if e.boundary && s1.sw.gclPend then s1.gclActivate else s1
  if (s2.tabListed tGCL).isEmpty then s2 else s2.holdAtEdge was e

/-- BUF_GCL.COMMIT (R169). -/
def gclCommitEff (v : Word) (s : State) : State := if v.getLsbD 0 then { s with sw.gclPend := true } else s

def execBufGclCommit (a : Access) (v : Word) (s : State) : Host.Outcome State Fault Refusal :=
  .next (s.regWrite a pBUF BUF_GCL v noCause (gclCommitEff v))

/-! Pause and priority flow control, continued. -/

/-- An owed pause frame goes out when no frame is in transmission; behind one it goes out at the boundary (R175). -/
def execPauseFrameSend (port : Fin 15) (s : State) : Host.Outcome State Fault Refusal :=
  .next (
    match s.sw.pauseDue.find? fun e => e.1 == port.val with
    | none => s
    | some e =>
      if s.pauses port.val && (s.sendingOn port.val).isNone then
        ({ s with sw.pauseDue := s.sw.pauseDue.filter fun x => x != e }).sendPause port.val e.2
      else s)

/-- Half the quanta time has passed while XOFF holds: the frame is sent, or owed behind the frame in transmission (R175). -/
def execXoffRepeat (port : Fin 15) (cls : Fin 8) (s : State) : Host.Outcome State Fault Refusal :=
  .next (
    let g := (port.val, cls.val)
    if s.pauses port.val && s.tfOn tBPORT port.val (bXOFF cls.val) then
      (if (s.sendingOn port.val).isNone then s.sendPause port.val cls.val
       else if s.sw.pauseDue.contains g then s
       else { s with sw.pauseDue := s.sw.pauseDue ++ [g] })
    else s)

/-- Classes that a received pause or PFC frame names, with their quanta. -/
def pausedClasses (pfc : Bool) (enable : Nat) (quanta : List Nat) : List (Nat × Nat) :=
  if pfc then (setBits 8 enable).map fun c => (c, nth quanta c 0)
  else (List.range 8).map fun c => (c, nth quanta 0 0)

/-- A pause or PFC frame is received (R177): quanta 0 ends the pause. The MAC consumes it; a port without that kind of flow
control honours nothing. -/
def State.pauseReceived (s : State) (p : Nat) (pfc : Bool) (enable : Nat) (quanta : List Nat) : State :=
  if fcPort p && s.tf tBPORT p bFC == (if pfc then 2 else 1) then
    let s1 := s.tcnt pBUF tBPORT p 7
    s1.each (pausedClasses pfc enable quanta) fun s cq =>
      if pfc && !(s.tf tBPORT p bPFC_EN).testBit cq.1 then s
      else s.tfSet tBPORT p (bPAUSED cq.1) (if cq.2 = 0 then 0 else 1)
  else s

def execPauseFrameReceive (clocks : Nat) (port : Fin 31) (pfc : Bool) (enable : Nat) (quanta : List Nat) (s : State) :
    Host.Outcome State Fault Refusal :=
  .next (
    let s1 := s.advance clocks
    if s1.switchUp && s1.linkUp port.val then s1.pauseReceived port.val pfc enable quanta else s1)

def execPauseExpiry (port : Fin 15) (cls : Fin 8) (s : State) : Host.Outcome State Fault Refusal :=
  .next (if s.switchUp then s.tfSet tBPORT port.val (bPAUSED cls.val) 0 else s)

/-- PFC_WD ms of unbroken pause (R178). -/
def execPfcWatchdogTrip (port : Fin 15) (cls : Fin 8) (s : State) : Host.Outcome State Fault Refusal :=
  .next (
    if s.switchUp && s.tf tBPORT port.val bPFC_WD != 0 && s.tfOn tBPORT port.val (bPAUSED cls.val)
        && !s.tfOn tBPORT port.val (bTRIPPED cls.val) then
      (s.tfSet tBPORT port.val (bTRIPPED cls.val) 1).err pBUF 0x2216 (0x10000 + 8 * port.val + cls.val)
    else s)

/-- PFC_WD ms without XOFF from the peer (R178). -/
def execPfcWatchdogRecover (port : Fin 15) (cls : Fin 8) (s : State) : Host.Outcome State Fault Refusal :=
  .next (
    if s.switchUp && s.tfOn tBPORT port.val (bTRIPPED cls.val) then
      (s.tfSet tBPORT port.val (bTRIPPED cls.val) 0).tfSet tBPORT port.val (bPAUSED cls.val) 0
    else s)

/-- A group held in XOFF for STORM ms (R179), a HOST group too (R180). -/
def execXoffStorm (port : Fin 32) (cls : Fin 8) (s : State) : Host.Outcome State Fault Refusal :=
  .next (
    let p := port.val
    let c := cls.val
    if s.switchUp && s.tf tBPORT p bSTORM != 0 && s.tfOn tBPORT p (bXOFF c) then
      let s1 := s.err pBUF 0x2217 (0x10000 + 8 * p + c)
      if s1.tfOn tBPORT p bSTORM_ACT then
        ({ s1 with sw.stormed := s1.sw.stormed ++ [(p, c)] }).setXoff p c false
      else s1
    else s)

/-! Read-back from spill. -/

/-- The engine whose turn it is to read back for a queue (R164). -/
def State.readEngine (s : State) (q : Nat) : Option Nat :=
  let last := sget 0 q s.sw.splTurn
  ((List.range 4).map fun j => (last + j) % 4).find? fun e => s.spilling q e

/-- The next DRAM frame of a queue returns on-chip at the tail, or is dropped where it cannot be corrected (R164, R166). -/
def execSpillReadback (clocks : Nat) (q : Fin 272) (ecc : Bool) (s : State) : Host.Outcome State Fault Refusal :=
  .next (
    let s0 := s.advance clocks
    match s0.readEngine q.val with
    | none => s0
    | some e =>
      let s1 := s0.splFill e
      match s1.sw.held.find? fun c => c.q == q.val && c.place == .dram e with
      | none => s1
      | some x =>
        if s1.switchUp && s1.dramUp && decide (s1.qOn q.val < s1.tf tQUEUE q.val qSPILL_THR) && decide (x.cells ≤ s1.sharedFree)
            && decide (x.cells * 1024 ≤ nth s1.sw.splRd e 0) then
          let s2 := { s1.freeDram x with
            sw.held := s1.sw.held.filter fun c => c.id != x.id
            sw.splRd := setNth s1.sw.splRd e (nth s1.sw.splRd e 0 - x.cells * 1024)
            sw.splTurn := sput 0 q.val (e + 1) s1.sw.splTurn }
          if ecc then
            (((s2.cnt32 (pSPL e) SPL_CNT_ECC).irq (pSPL e) INT_SPL_ECC_DROP).err (pSPL e) 0x231B 0).settle
          else
            (({ s2 with sw.held := s2.sw.held ++ [{ x with place := .shared }] }).cnt32 (pSPL e) SPL_CNT_RD).settle
        else s1)

end Sys2Proof.Machine
end

