-- ==== Sys2Proof/Machine/Forward.lean ====
section
/-!
DEFINITION. The ingress pipeline (spec/04 R102-R143): acceptance, classes, stream identification, filters, gates and
meters, sequence recovery and generation, learning and lookup, the flow hash and its selections, the copy budget and
mirroring.
-/

namespace Sys2Proof.Machine

/-! Fields of the FDB, STRM and FRER tables (Table 04-11). -/
abbrev mADDR_LO : TFld := ⟨0, 0, 32⟩
abbrev mADDR_HI : TFld := ⟨1, 0, 16⟩
abbrev mVID : TFld := ⟨1, 16, 12⟩
abbrev mVALID : TFld := ⟨1, 31, 1⟩
abbrev mSTATIC : TFld := ⟨2, 0, 1⟩
abbrev mGROUP : TFld := ⟨2, 1, 1⟩
abbrev mPORT : TFld := ⟨2, 8, 6⟩
abbrev mGROUP_IX : TFld := ⟨2, 16, 10⟩
abbrev mINST : TFld := ⟨3, 0, 16⟩
abbrev vVALID : TFld := ⟨1, 8, 1⟩
abbrev vLEARN : TFld := ⟨1, 9, 1⟩
abbrev vUC_DROP : TFld := ⟨1, 10, 1⟩
abbrev vMC_DROP : TFld := ⟨1, 11, 1⟩
abbrev vINST : TFld := ⟨1, 16, 16⟩
abbrev iMODE : TFld := ⟨0, 0, 2⟩
abbrev iHANDLE : TFld := ⟨0, 4, 10⟩
abbrev iGEN_IX : TFld := ⟨0, 16, 8⟩
abbrev iGEN_EN : TFld := ⟨0, 24, 1⟩
abbrev iREC_IX : TFld := ⟨1, 0, 8⟩
abbrev iREC_EN : TFld := ⟨1, 8, 1⟩
abbrev iVID : TFld := ⟨1, 16, 12⟩
abbrev iVID_ANY : TFld := ⟨1, 28, 1⟩
abbrev iSRC_ANY : TFld := ⟨1, 29, 1⟩
abbrev iDSCP_ANY : TFld := ⟨1, 30, 1⟩
abbrev iPORT_ANY : TFld := ⟨1, 31, 1⟩
abbrev fVALID : TFld := ⟨0, 0, 1⟩
abbrev fPRIO : TFld := ⟨0, 1, 3⟩
abbrev fPRIO_ANY : TFld := ⟨0, 4, 1⟩
abbrev fMAX_SDU : TFld := ⟨0, 8, 14⟩
abbrev fBLOCK_EN : TFld := ⟨0, 22, 1⟩
abbrev fBLOCKED : TFld := ⟨0, 23, 1⟩
abbrev fGATE : TFld := ⟨1, 0, 6⟩
abbrev fGATE_EN : TFld := ⟨1, 6, 1⟩
abbrev fMETER : TFld := ⟨1, 16, 9⟩
abbrev fMETER_EN : TFld := ⟨1, 25, 1⟩
abbrev sIPV : TFld := ⟨2, 0, 3⟩
abbrev sIPV_EN : TFld := ⟨2, 3, 1⟩
abbrev sCLOSE_INV_RX : TFld := ⟨2, 4, 1⟩
abbrev sCLOSED_INV : TFld := ⟨2, 5, 1⟩
abbrev fmCIR : TFld := ⟨0, 0, 24⟩
abbrev fmPIR : TFld := ⟨1, 0, 24⟩
abbrev fmCBS : TFld := ⟨2, 0, 20⟩
abbrev fmPBS : TFld := ⟨3, 0, 20⟩
abbrev fmVALID : TFld := ⟨4, 0, 1⟩
abbrev fmAWARE : TFld := ⟨4, 1, 1⟩
abbrev fmDROP_YELLOW : TFld := ⟨4, 2, 1⟩
abbrev fmMARK_RED_EN : TFld := ⟨4, 3, 1⟩
abbrev fmMARK_RED : TFld := ⟨4, 4, 1⟩
abbrev gnVALID : TFld := ⟨0, 0, 1⟩
abbrev gnSEQ : TFld := ⟨0, 16, 16⟩
abbrev rVALID : TFld := ⟨0, 0, 1⟩
abbrev rKEEP_TAG : TFld := ⟨0, 1, 1⟩
abbrev rLAT_EN : TFld := ⟨0, 2, 1⟩
abbrev rHIST : TFld := ⟨0, 8, 6⟩
abbrev rTMO : TFld := ⟨0, 16, 16⟩
abbrev rLAT_DIFF : TFld := ⟨1, 0, 16⟩
abbrev rLAT_PERIOD : TFld := ⟨1, 16, 16⟩

/-- A 34-bit port mask: word w and the two lowest bits of word w + 1. -/
def State.mask34 (s : State) (t i w : Nat) : Nat := s.tget t i w + bitsOf (s.tget t i (w + 1)) 0 2 * 2 ^ 32

/-- An entry treated as not valid (R148). -/
def State.badEntry (s : State) (t i : Nat) : Bool := s.badEntries.contains (t * 0x100000 + i)

/-- The 48-bit address of an entry whose words w and w + 1 hold it as in the MAC table. -/
def State.entryAddr (s : State) (t i w : Nat) : Nat := bitsOf (s.tget t i (w + 1)) 0 16 * 2 ^ 32 + s.tget t i w

/-- ERR_ADDR of a table error: table number and entry index (R147). -/
def tabLoc (tbl i : Nat) : Nat := tbl * 0x10000 + i

/-! The frame in the pipeline. -/

/-- A frame in the pipeline: where it came in and its ingress timestamp (0.25 ns units), its parts, and what the steps have found. -/
structure Pipe where
  port : Nat
  inst : Option Nat
  raw : List Nat
  fr : Parsed
  len : Nat
  at_ : Nat
  vid : Nat
  cls : Nat
  handle : Option Nat
  ident : Option Nat
  colour : Nat
  dests : List Nat
  lg : Bool
  insts : Nat
  gen : Bool
  deriving DecidableEq, Repr

/-! Classes (R108, R110). -/

/-- Class of a PCP on a port. -/
def State.pcpClass (s : State) (p pcp : Nat) : Nat := bitsOf (s.get (pPORT p) PORT_PCP_MAP_MAP) (3 * pcp) 3

/-- The frame's VID (R108). -/
def State.vidOf (s : State) (p : Nat) (f : Parsed) : Nat :=
  match f.tag with
  | some (_, _, v) => if v = 0 then s.get (pPORT p) PORT_CTRL_PVID else v
  | none => s.get (pPORT p) PORT_CTRL_PVID

/-- Tagged for ACCEPT: a priority-tagged frame counts as untagged. -/
def isTagged (f : Parsed) : Bool := match f.tag with | some (_, _, v) => v != 0 | none => false

/-- The PCP of a frame, DEF_PCP where it carries no tag. -/
def State.pcpOf (s : State) (p : Nat) (f : Parsed) : Nat :=
  match f.tag with
  | some (pcp, _, _) => pcp
  | none => s.get (pPORT p) PORT_CTRL_DEF_PCP

def State.classOf (s : State) (p : Nat) (f : Parsed) : Nat :=
  let trust := s.get (pPORT p) PORT_CTRL_TRUST
  if trust = 0 then s.pcpClass p (s.get (pPORT p) PORT_CTRL_DEF_PCP)
  else
    match trust, ipOf f.body with
    | 2, some ip => bitsOf (s.get (pPORT p) (DSCP_MAP_MAP (ip.dscp / 8))) (3 * (ip.dscp % 8)) 3
    | _, _ => s.pcpClass p (s.pcpOf p f)

/-- Step 3: accepted and member (R108, R109); none where the frame is refused. -/
def State.vlanAccepts (s : State) (x : Pipe) : Bool :=
  let acc := s.get (pPORT x.port) PORT_CTRL_ACCEPT
  let tagOk := acc == 0 || (acc == 1 && isTagged x.fr) || (acc == 2 && !isTagged x.fr)
  tagOk && s.tfOn tVLAN x.vid vVALID && !s.badEntry tVLAN x.vid
    && (!s.on (pPORT x.port) PORT_CTRL_ING_FILT || (s.mask34 tVLAN x.vid 0).testBit x.port)

/-! Stream identification (R112, R113). -/

/-- The four words of an IP address of an entry, as octets: IPv4 in the last word. -/
def State.entryIp (s : State) (i w : Nat) (v6 : Bool) : List Nat :=
  if v6 then ((List.range 4).map fun j => bytesBE 4 (s.tget tIDENT i (w + j))).flatten else bytesBE 4 (s.tget tIDENT i (w + 3))

def State.identMatches (s : State) (x : Pipe) (i : Nat) : Bool :=
  let vidOk := s.tfOn tIDENT i iVID_ANY || s.tf tIDENT i iVID == x.vid
  vidOk &&
    (match s.tf tIDENT i iMODE with
     | 1 => s.entryAddr tIDENT i 2 == x.fr.dst
     | 2 => s.entryAddr tIDENT i 2 == x.fr.src
     | 3 =>
       (match ipOf x.fr.body with
        | none => false
        | some ip =>
          let w3 := s.tget tIDENT i 3
          (bitsOf w3 30 1 == 1) == ip.v6 && s.entryIp i 4 ip.v6 == ip.dst
            && (s.tfOn tIDENT i iSRC_ANY || s.entryIp i 8 ip.v6 == ip.src)
            && (s.tfOn tIDENT i iDSCP_ANY || bitsOf w3 24 6 == ip.dscp)
            && bitsOf w3 16 8 == ip.proto
            && (s.tfOn tIDENT i iPORT_ANY || (match ip.ports with | some (_, d) => d == bitsOf w3 0 16 | none => false)))
     | _ => false)

/-- The matching entry of lowest index (R113); a frame whose entry has failed is one without a handle (R148). -/
def State.identify (s : State) (x : Pipe) : Option Nat :=
  ((s.tabListed tIDENT).find? fun i => s.identMatches x i).bind fun i => if s.badEntry tIDENT i then none else some i

/-! Filters, gates and meters (R114-R117). -/

/-- The buckets of a meter filled up to now (RFC 2698): 1 kbit/s is one unit of 1/4,000,000 octet in a clock. -/
def State.meterFill (s : State) (m : Nat) : Meter :=
  let full : Meter := ⟨s.tf tMETER m fmCBS * 4000000, s.tf tMETER m fmPBS * 4000000, s.tb.clocks⟩
  match sget (none : Option Meter) m (s.sw.meters.map fun e => (e.1, some e.2)) with
  | none => full
  | some b =>
    let d := s.tb.clocks - b.tick
    ⟨min full.tc (b.tc + d * s.tf tMETER m fmCIR), min full.tp (b.tp + d * s.tf tMETER m fmPIR), s.tb.clocks⟩

/-- The two-rate three-colour marker (R117): the colour, and the state with the buckets. -/
def State.meterColour (s : State) (m len : Nat) (dei : Bool) : State × Nat :=
  let b := s.meterFill m
  let n := len * 4000000
  let pre := if s.tfOn tMETER m fmAWARE && dei then 1 else 0
  if s.tfOn tMETER m fmMARK_RED then (s, 2)
  else
    let col := if b.tp < n then 2 else if pre = 1 ∨ b.tc < n then 1 else 0
    let b1 := if col = 2 then b else { b with tp := b.tp - n, tc := if col = 0 then b.tc - n else b.tc }
    let s1 := { s with sw.meters := putPair m b1 s.sw.meters }
    let s2 := if col = 2 ∧ s1.tfOn tMETER m fmMARK_RED_EN then s1.tfSet tMETER m fmMARK_RED 1 else s1
    (s2, col)

/-- Step 6: the frame after its filter, or none where it is dropped (R114-R117). -/
def State.streamFilter (s : State) (x : Pipe) : State × Option Pipe :=
  let fi := match x.handle with
    | some h => some h
    | none => if s.on pSWC SWC_FLT_WILD_EN then some (s.get pSWC SWC_FLT_WILD_IDX) else none
  match fi with
  | none => (s, some x)
  | some f =>
    if !s.tfOn tFILT f fVALID || s.badEntry tFILT f || !(s.tfOn tFILT f fPRIO_ANY || s.tf tFILT f fPRIO == x.cls) then
      (s, some x)
    else
      let p1 := pSTRM 1
      let s1 := s.tcnt p1 tFILT f 2
      let sdu := s1.tf tFILT f fMAX_SDU
      if s1.tfOn tFILT f fBLOCKED then (s1.tcnt p1 tFILT f 4, none)
      else if sdu ≠ 0 ∧ sdu < x.len then
        let s2 := s1.tcnt p1 tFILT f 4
        (if s2.tfOn tFILT f fBLOCK_EN then (s2.tfSet tFILT f fBLOCKED 1).err p1 0x1217 (tabLoc 1 f) else s2, none)
      else
        let s2 := s1.tcnt p1 tFILT f 3
        let g := s2.tf tFILT f fGATE
        let gated := s2.tfOn tFILT f fGATE_EN && !s2.badEntry tGATE g
        let openNow := !s2.tfOn tGATE g sCLOSED_INV && (s2.tget tGATE g 0 + s2.tget tGATE g 1 * 2 ^ 32).testBit (s2.posAt x.at_)
        if gated && !openNow then
          let s3 := s2.tcnt p1 tFILT f 5
          (if s3.tfOn tGATE g sCLOSE_INV_RX then s3.tfSet tGATE g sCLOSED_INV 1 else s3, none)
        else
          let x1 := if gated && s2.tfOn tGATE g sIPV_EN then { x with cls := s2.tf tGATE g sIPV } else x
          let m := s2.tf tFILT f fMETER
          if s2.tfOn tFILT f fMETER_EN && s2.tfOn tMETER m fmVALID && !s2.badEntry tMETER m then
            let dei := match x.fr.tag with | some (_, d, _) => d == 1 | none => false
            let (s3, col) := s2.meterColour m x.len dei
            let s4 := s3.tcnt p1 tMETER m (5 + col)
            if col = 2 then (s4.tcnt p1 tFILT f 6, none)
            else if col = 1 ∧ s4.tfOn tMETER m fmDROP_YELLOW then (s4, none)
            else (s4, some { x1 with colour := col })
          else (s2, some x1)

/-! Sequence recovery (R133, R135, R136): the vector recovery algorithm of IEEE 802.1CB. -/

def recovReset : Recov := ⟨true, 0xFFFF, 0, 0⟩

def State.recovOf (s : State) (r : Nat) : Recov :=
  (sget (none : Option Recov) r (s.sw.recov.map fun e => (e.1, some e.2))).getD recovReset

/-- The history shifted d times, numbers not seen counted as lost; the new one last (bit 0). -/
def shiftHist (len : Nat) : Nat → Nat → Nat → Nat × Nat
  | 0, h, lost => (h, lost)
  | d + 1, h, lost =>
    let lost1 := if h.testBit (len - 1) then lost else lost + 1
    shiftHist len d ((h * 2 + (if d = 0 then 1 else 0)) % 2 ^ len) lost1

/-- Step 7 for a sequence number: whether the frame passes. Counter words: passed 2, discarded 3, out of order 4, rogue 5,
lost 6. -/
def State.recoverSeq (s : State) (r seq : Nat) : State × Bool :=
  let v := s.recovOf r
  let len := s.tf tREC r rHIST
  let put (s : State) (n : Recov) : State := { s with sw.recov := putPair r n s.sw.recov }
  let delta := sext 16 ((seq + 0x10000 - v.num) % 0x10000)
  if v.takeAny then ((put s ⟨false, seq, 1, v.base⟩).tcnt pFRER tREC r 2, true)
  else if (len : Int) ≤ delta ∨ delta ≤ -(len : Int) then ((s.tcnt pFRER tREC r 5).tcnt pFRER tREC r 3, false)
  else if delta ≤ 0 then
    if v.hist.testBit (-delta).toNat then (s.tcnt pFRER tREC r 3, false)
    else (((put s { v with hist := v.hist ||| 2 ^ (-delta).toNat }).tcnt pFRER tREC r 4).tcnt pFRER tREC r 2, true)
  else
    let (h, lost) := shiftHist len delta.toNat v.hist 0
    let s1 := put s { v with hist := h, num := seq }
    let s2 := if delta = 1 then s1 else s1.tcnt pFRER tREC r 4
    ((s2.tcnt pFRER tREC r 6 lost).tcnt pFRER tREC r 2, true)

/-- Step 7. -/
def State.recovery (s : State) (x : Pipe) : State × Option Pipe :=
  match x.ident with
  | none => (s, some x)
  | some i =>
    let r := s.tf tIDENT i iREC_IX
    if !s.tfOn tIDENT i iREC_EN || !s.tfOn tREC r rVALID || s.badEntry tREC r then (s, some x)
    else
      match rtagSeq x.fr.body with
      | none => (s.tcnt pFRER tREC r 7, some x)
      | some seq =>
        match s.recoverSeq r seq with
        | (s1, false) => (s1, none)
        | (s1, true) =>
          if s1.tfOn tREC r rKEEP_TAG then (s1, some x)
          else (s1, some { x with fr := { x.fr with body := stripRtag x.fr.body } })

/-! The MAC table (R118-R121). -/

/-- Bucket of a key: bits [11:0] of the CRC-16 over address and VID. -/
def macBucket (addr vid : Nat) : Nat := crc16 (bytesBE 6 addr ++ bytesBE 2 vid) % 4096

def State.macFind (s : State) (addr vid : Nat) : Option Nat :=
  let b := macBucket addr vid
  ([0, 1, 2, 3].map fun w => 4 * b + w).find? fun i =>
    s.tfOn tMAC i mVALID && !s.badEntry tMAC i && s.entryAddr tMAC i 0 == addr && s.tf tMAC i mVID == vid

/-- The lowest free way of a key's bucket. A way that has failed stays so until software writes it (R148). -/
def State.macFree (s : State) (addr vid : Nat) (byWrite : Bool) : Option Nat :=
  let b := macBucket addr vid
  ([0, 1, 2, 3].map fun w => 4 * b + w).find? fun i => if s.badEntry tMAC i then byWrite else !s.tfOn tMAC i mVALID

/-- An entry has been seen as a source now (R120). -/
def State.macSee (s : State) (i : Nat) : State := { s with sw.macSeen := sput 0 i (s.tb.clocks + 1) s.sw.macSeen }

/-- Whole seconds since an entry was seen (Table 04-11, AGE). -/
def State.macAge (s : State) (i : Nat) : Nat :=
  let t := sget 0 i s.sw.macSeen
  if t = 0 then 0 else min 0xFFFF ((s.tb.clocks - (t - 1)) / clocksPerS)

def instMask (inst : Option Nat) : Nat := match inst with | some i => 2 ^ i | none => 0

/-- Software has written this key in this clock (R123). -/
def State.justWritten (s : State) (addr vid : Nat) : Bool := s.sw.wrote == some (s.tb.clocks, addr, vid)

/-- Learning (R119), dropped where software writes the same key in the same clock (R123). Group source addresses are not learned. -/
def State.learn (s : State) (x : Pipe) : State :=
  let addr := x.fr.src
  if !s.on (pPORT x.port) PORT_CTRL_LEARN || !s.tfOn tVLAN x.vid vLEARN || isGroupAddr addr || s.justWritten addr x.vid then s
  else
    match s.macFind addr x.vid with
    | some i =>
      if s.tfOn tMAC i mSTATIC then s
      else
        let s1 := s.macSee i
        let s2 := if s1.tf tMAC i mPORT = x.port then s1
          else (s1.tfSet tMAC i mPORT x.port).cnt32 pSWC CNT_STATION_MOVE
        s2.tfSet tMAC i mINST (instMask x.inst)
    | none =>
      match s.macFree addr x.vid false with
      | none => ((s.cnt32 pSWC CNT_LEARN_REF).irq pSWC INT_SWC_LEARN_REF).err pSWC 0x1011 (tabLoc 0 (4 * macBucket addr x.vid))
      | some i =>
        let s1 := ((s.tset tMAC i 0 (addr % 2 ^ 32)).tset tMAC i 1 (addr / 2 ^ 32 + x.vid * 0x10000 + 2 ^ 31)).tset tMAC i 2 (x.port * 0x100)
        (s1.tset tMAC i 3 (instMask x.inst)).macSee i

/-- Step 8: ports and host instances of the lookup (R121); none where UC_DROP or MC_DROP drops the frame. -/
def State.lookupDests (s : State) (x : Pipe) : Option (Nat × Nat) :=
  let flood := (s.mask34 tVLAN x.vid 0, s.tf tVLAN x.vid vINST)
  match s.macFind x.fr.dst x.vid with
  | some i =>
    if s.tfOn tMAC i mGROUP then
      let g := s.tf tMAC i mGROUP_IX
      if s.badEntry tGRP g then some flood else some (s.mask34 tGRP g 0, bitsOf (s.tget tGRP g 1) 16 16)
    else some (2 ^ s.tf tMAC i mPORT, s.tf tMAC i mINST)
  | none =>
    if isGroupAddr x.fr.dst then (if s.tfOn tVLAN x.vid vMC_DROP then none else some flood)
    else (if s.tfOn tVLAN x.vid vUC_DROP then none else some flood)

/-- Reduction of the destination set (R122). -/
def State.reduce (s : State) (x : Pipe) (ports insts : Nat) : Pipe :=
  let lag := s.on pSWC SWC_CTRL_LAG_EN
  let uplink := ports.testBit 0 || ports.testBit 1
  let lg := lag && uplink && !(decide (x.port < 2))
  let others := (setBits 34 ports).filter fun p => !(lag && decide (p < 2)) && p != x.port && p != 31
  let hostInsts := match x.inst with
    | some i => if s.on pSWC SWC_CTRL_HAIRPIN then maskOf ((setBits 16 insts).filter fun j => j != i) else 0
    | none => insts
  let host := ports.testBit 31 && (x.inst.isNone || hostInsts != 0)
  { x with dests := others ++ (if host then [31] else []), lg := lg, insts := hostInsts }

/-! Sequence generation (R134) and the flow hash (R124, R125). -/

/-- Step 9. A frame received on TW never leaves on TW (R128). -/
def State.generate (s : State) (x : Pipe) : State × Pipe :=
  match x.ident with
  | none => (s, x)
  | some i =>
    let g := s.tf tIDENT i iGEN_IX
    if !s.tfOn tIDENT i iGEN_EN || !s.tfOn tGEN g gnVALID || s.badEntry tGEN g then (s, x)
    else
      let seq := s.tf tGEN g gnSEQ
      (s.tfSet tGEN g gnSEQ ((seq + 1) % 0x10000),
        { x with fr := { x.fr with body := addRtag seq x.fr.body }
                 dests := (setBits 34 (s.mask34 tGEN g 1)).filter fun p => !(p == 2 && x.port == 2)
                 lg := false
                 gen := true })

/-- The key of a frame without a stream handle. -/
def State.flowKey (s : State) (x : Pipe) : List Nat :=
  let l2 := bytesBE 6 x.fr.dst ++ bytesBE 6 x.fr.src ++ bytesBE 2 x.vid
  match ipOf x.fr.body with
  | none => l2
  | some ip =>
    let l3 := if s.on pSWC SWC_HASH_L3 then ip.src ++ ip.dst ++ [ip.proto] else []
    let l4 := match ip.ports with
      | some (a, b) => if s.on pSWC SWC_HASH_L4 then bytesBE 2 a ++ bytesBE 2 b else []
      | none => []
    l2 ++ l3 ++ l4

/-- The key of the flow hash (R124). -/
def State.hashKey (s : State) (x : Pipe) : List Nat :=
  match x.handle with
  | some h => if s.on pSWC SWC_HASH_STREAM then bytesBE 2 h ++ bytesBE 2 x.vid else s.flowKey x
  | none => s.flowKey x

/-- The port that the link group uses for a bucket: its active member, TW where both uplinks are down and TW_FALLBACK = 1;
none for a frame from TW then (R127, R128). -/
def State.lagPort (s : State) (x : Pipe) (b : Nat) : Option Nat :=
  if !s.linkUp 0 && !s.linkUp 1 && s.on pSWC SWC_CTRL_TW_FALLBACK then (if x.port = 2 then none else some 2)
  else some (s.get pSWC (LAG_SEL_ACTIVE b))

/-! Copies (R129-R131, R143). -/

/-- The copy of a frame for egress port p, edited for it (R111, R149). -/
def State.makeCopy (s : State) (x : Pipe) (hash p : Nat) (lag : Option Nat) : Copy :=
  let untag := (s.mask34 tVLAN x.vid 2).testBit p
  let dei := match x.fr.tag with | some (_, d, _) => d | none => 0
  let octets := buildFrame x.fr.dst x.fr.src (if untag then none else some (s.pcpOf x.port x.fr, dei, x.vid)) x.fr.body
  { id := 0, q := 8 * p + x.cls, inPort := x.port, cls := x.cls, colour := x.colour, octets := octets
    len := frameLen octets, vid := x.vid, handle := x.handle, hash := hash, sec := stampSec x.at_, ns := stampNs x.at_
    insts := setBits 16 x.insts, lag := lag, mirror := false, place := .shared, sending := 0, sent := 0 }

/-- The copy bucket filled up to now (R130): RATE × 10^6 cells/s is RATE units of 1/500 cell in a clock. -/
def State.copyFill (s : State) : State :=
  let cap : Int := (s.get pSWC SWC_COPY_BURST * 64 * 500 : Nat)
  let d := s.tb.clocks - s.sw.copyAt
  { s with sw.copyTok := min cap (s.sw.copyTok + (d * s.get pSWC SWC_COPY_RATE : Nat)), sw.copyAt := s.tb.clocks }

/-- A copy that has been placed draws its tokens; replication copies may drive the bucket down to −BURST × 64 cells (R131). -/
def State.drawTokens (s : State) (cost : Nat) : State :=
  let lo : Int := -((s.get pSWC SWC_COPY_BURST * 64 * 500 : Nat) : Int)
  { s with sw.copyTok := max lo (s.sw.copyTok - cost) }

/-- A copy that draws on the budget (R130, R131). -/
def State.budgetCopy (s : State) (gen : Bool) (starting : List Nat) (c : Copy) : State × Admit :=
  let need := Copy.cells c * 500
  if !gen && decide (s.sw.copyTok < (need : Int)) then
    (((((s.cnt32 pSWC CNT_COPY_REF).cnt32 (pPORT (c.q / 8)) CNT_COPY_DROP).irq pSWC INT_SWC_COPY_REF).errLimited 1 clocksPerMs
      pSWC 0x1012 0), .dropped)
  else
    match s.offerCopy c need starting with
    | (s1, .placed) => (s1.drawTokens need, .placed)
    | r => r

/-- Mirror copy of octets on queue 264, MIR at the lowest priority (R143). -/
def State.mirrorCopy (s : State) (starting : List Nat) (c : Copy) (octets : List Nat) : State :=
  let n := s.get pMIRR MIRR_TRUNC_LEN
  let o := if n = 0 then octets else octets.take (n - 4)
  match s.budgetCopy false starting { c with q := 264, octets := o, len := frameLen o, mirror := true, lag := none } with
  | (s1, .dropped) => s1.cnt32 pMIRR MIRR_CNT_DROP
  | (s1, _) => s1

def State.mirrors (s : State) (lo hi : Fld) (p : Nat) : Bool :=
  s.on pMIRR MIRR_CTRL_EN && (s.get pMIRR lo + s.get pMIRR hi * 2 ^ 32).testBit p

/-- The egress mirror copy of a copy that has been placed (R143). -/
def State.mirrorEgress (s : State) (starting : List Nat) (c : Copy) : State :=
  if s.mirrors MIRR_EGR_LO_MASK MIRR_EGR_HI_MASK (c.q / 8) then s.mirrorCopy starting c c.octets else s

/-- One copy of a frame: the first is free of budget. Keeps the copies placed, whether the next is the first, and whether some copy was
not dropped. -/
def State.copyStep (gen : Bool) (starting : List Nat) (acc : State × List Copy × Bool × Bool) (c : Copy) :
    State × List Copy × Bool × Bool :=
  match acc with
  | (s, done, first, some_) =>
    match (if first then s.offerCopy c 0 starting else s.budgetCopy gen starting c) with
    | (s1, .placed) => (s1, done ++ [c], false, true)
    | (s1, .waits) => (s1, done, false, true)
    | (s1, .dropped) => (s1, done, false, some_)

/-- Steps 10 to 12: the copies in ascending order of port, the first free of budget, then the mirror copies. Answers whether
some copy was placed or waits for its push-out. -/
def State.copies (s : State) (x : Pipe) (starting : List Nat) : State × Bool :=
  let hash := crc16 (s.hashKey x)
  let b := bitsOf hash 0 6
  let lagDest := if x.lg then (match s.lagPort x b with | some p => [(p, some b)] | none => []) else []
  let dests := sortBy (fun (a c : Nat × Option Nat) => decide (a.1 ≤ c.1)) (lagDest ++ x.dests.map fun p => (p, none))
  let cs := dests.map fun d => s.makeCopy x hash d.1 d.2
  let (s2, done, _, some_) := cs.foldl (State.copyStep x.gen starting) (s.copyFill, [], true, false)
  let base := s.makeCopy x hash 33 none
  let s3 := if s2.mirrors MIRR_ING_LO_MASK MIRR_ING_HI_MASK x.port then s2.mirrorCopy starting base x.raw else s2
  ((s3.each done fun s c => s.mirrorEgress starting c).settle, some_)

/-! The pipeline (Table 04-2). -/

/-- Steps 4 to 12 of a frame that has a VID; link-local frames go to HOST (R107). -/
def State.pipeFrom4 (s : State) (x : Pipe) (starting : List Nat) : State × Bool :=
  let ident := s.identify x
  let handle := ident.map fun i => s.tf tIDENT i iHANDLE
  match s.streamFilter { x with ident := ident, handle := handle } with
  | (s1, none) => (s1, false)
  | (s1, some x1) =>
    match s1.recovery x1 with
    | (s2, none) => (s2, false)
    | (s2, some x2) =>
      let s3 := s2.learn x2
      match s3.lookupDests x2 with
      | none => (s3.cnt32 pSWC CNT_UNK_DROP, false)
      | some (ports, insts) =>
        let (s4, x3) := s3.generate (s3.reduce x2 ports insts)
        s4.copies x3 starting

/-- A frame in the pipeline at its start. -/
def State.pipeStart (s : State) (port : Nat) (inst : Option Nat) (raw : List Nat) (q : Nat) : Pipe :=
  let fr := parseFrame raw
  { port := port, inst := inst, raw := raw, fr := fr, len := raw.length + 4, at_ := q
    vid := s.vidOf port fr, cls := s.classOf port fr, handle := none, ident := none, colour := 0, dests := [], lg := false
    insts := 0, gen := false }

/-- Steps 3 to 12. -/
def State.pipeFrom3 (s : State) (x : Pipe) (starting : List Nat) : State × Bool :=
  if !s.vlanAccepts x then (s.cnt32 (pPORT x.port) CNT_RX_FILT, false)
  else if isLinkLocal x.fr.dst then (s, false)
  else s.pipeFrom4 x starting

/-- A link-local frame goes to HOST, to the instance LL_INST, with its ingress timestamp (R107). -/
def State.linkLocal (s : State) (x : Pipe) (starting : List Nat) : State :=
  (s.copies { x with dests := [31], insts := 2 ^ s.get pSWC SWC_CTRL_LL_INST } starting).1

/-- Pause and PFC frames (EtherType 0x8808) that the MAC consumes (R107). -/
def macControl (raw : List Nat) : Option (Bool × Nat × List Nat) :=
  let f := parseFrame raw
  if f.dst = 0x0180C2000001 ∧ be f.body 0 2 = 0x8808 then
    if be f.body 2 2 = 1 then some (false, 0, [be f.body 4 2])
    else if be f.body 2 2 = 0x0101 then
      some (true, be f.body 4 2 % 256, (List.range 8).map fun c => be f.body (6 + 2 * c) 2)
    else none
  else none

/-- Step 1: MAC receive checks (R102, R140); the internal ports check only PORT_MAXLEN. -/
def State.macReceive (s : State) (p : Nat) (rx : RxFrame) : State × Bool :=
  let len := rx.octets.length + 4
  if p < 31 ∧ !rx.asmOk then (s.cnt32 (pPORT p) CNT_RX_ASM, false)
  else if p < 31 ∧ !rx.fcsOk then (s.cnt32 (pPORT p) CNT_RX_FCS, false)
  else if p < 31 ∧ len < 64 then (s.cnt32 (pPORT p) CNT_RX_RUNT, false)
  else if s.get (pPORT p) PORT_MAXLEN_LEN < len then (s.cnt32 (pPORT p) CNT_RX_LONG, false)
  else ((s.cnt32 (pPORT p) CNT_RX_OK).cnt64 (pPORT p) CNT_RX_OCT_L CNT_RX_OCT_H len, true)

/-- Ingress timestamp on port p of a frame whose start delimiter crossed the MAC boundary `age` ago (R141). -/
def State.ingressTime (s : State) (p age : Nat) : Nat := ((s.nowQ : Int) - age + s.geti (pPORT p) PORT_ING_LAT_V).toNat

/-- A frame is received on a port (Table 04-2). The MAC consumes pause and PFC frames; PTP messages among the link-local frames go to
HOST and to the PTP instances (spec/03 R71, R72). -/
def State.receive (s : State) (p : Nat) (rx : RxFrame) : State :=
  let s0 := s.ingressTurn p
  match s0.macReceive p rx with
  | (s1, false) => s1
  | (s1, true) =>
    match macControl rx.octets with
    | some (pfc, en, q) => s1.pauseReceived p pfc en q
    | none =>
      let t := s1.ingressTime p rx.age
      let x := s1.pipeStart p none rx.octets t
      if isLinkLocal x.fr.dst then (s1.linkLocal x rx.starting).ptpIn p t rx.octets else (s1.pipeFrom3 x rx.starting).1

/-- A frame arrives on a port `clocks` clocks after the command before it. HOST frames come from the TX rings; a port whose
link is down receives nothing. -/
def execFrameReceive (clocks : Nat) (port : Fin 33) (rx : RxFrame) (s : State) : Host.Outcome State Fault Refusal :=
  .next (
    let s1 := s.advance clocks
    if s1.switchUp && s1.linkUp port.val && port.val != 31 then s1.receive port.val rx else s1)

/-- A host instance's next TX frame enters the pipeline at step 3, or goes to port DEST where DIRECT = 1 (R185). Its class is step
4's; the descriptor's CLASS decides what R180 holds back. DESIGN CHOICE: a frame whose copy waits for its push-out is written back as
admitted. -/
def execTxDescriptorFetch (clocks : Nat) (starting : List Nat) (s : State) : Host.Outcome State Fault Refusal :=
  .next (
    let s0 := (s.advance clocks).ingressTurn 31
    if !s0.switchUp then s0
    else
      match s0.drr ((List.range 16).map fun i => s0.txCandidate i) 320 s0.sw.drrCur s0.sw.drrDef with
      | none => s0
      | some (i, k, pk, deficits) =>
        let s1 := { s0 with
          sw.drrCur := i, sw.drrDef := deficits, sw.drrRing := setNth s0.sw.drrRing i (4 + (k - 3) % 4)
          sw.txTok := putPair i (s0.txTokens i - (peekCost pk * 8 * 1000000 : Nat)) s0.sw.txTok
          sw.txTokAt := putPair i s0.tb.clocks s0.sw.txTokAt }
        match pk with
        | .none => s1
        | .fault a => ((s1.dmaRead i a 16).1).ringHalt i k a
        | .frame f =>
          let raw := f.octets.take (f.octets.length - 4)
          let x := s1.pipeStart 31 (some i) raw (s1.ingressTime 31 0)
          if s1.get (pPORT 31) PORT_MAXLEN_LEN < f.octets.length then
            (s1.cnt32 (pPORT 31) CNT_RX_LONG).txDone i k 3 f
          else
            let s2 := (s1.cnt32 (pPORT 31) CNT_RX_OK).cnt64 (pPORT 31) CNT_RX_OCT_L CNT_RX_OCT_H f.octets.length
            if f.direct then
              if !s2.on (pHIN i) HIN_CTRL_DIRECT_OK then s2.txDone i k 2 f
              else if !s2.vlanAccepts x then (s2.cnt32 (pPORT 31) CNT_RX_FILT).txDone i k 1 f
              else
                let (s3, ok) := s2.copies { x with dests := if f.dest < 33 then [f.dest] else [] } starting
                s3.txDone i k (if ok then 0 else 1) f
            else
              let (s3, ok) := s2.pipeFrom3 x starting
              s3.txDone i k (if ok then 0 else 1) f)

/-- Step 9 of admission is run again for a copy in the clock after the eviction (spec/05 R159); once placed it draws its tokens and its
egress mirror copy is made (R130, R143). -/
def execPushOutRetry (starting : List Nat) (s : State) : Host.Outcome State Fault Refusal :=
  .next (
    match s.sw.retry with
    | [] => s
    | r :: t =>
      match ({ s with sw.retry := t }).pushOut r starting with
      | (s2, .placed) => ((s2.drawTokens r.cost).mirrorEgress starting r.copy).settle
      | (s2, .waits) => s2.settle
      | (s2, .dropped) => (s2.tailDrop r.copy).settle)

end Sys2Proof.Machine
end

