-- ==== Sys2Proof/Machine/Windows.lean ====
section
/-!
DEFINITION. Table access windows (spec/04 R144, R145, spec/05 R151, R172-R174, spec/06), selection moves (R126-R128), port
links (R101, R127), recovery timers, ageing, preemption verification and the counters of the switch pages.
-/

namespace Sys2Proof.Machine

def taAddr : TaPage → Nat
  | .fdb i => pFDB i.val
  | .strm i => pSTRM i.val
  | .frer => pFRER
  | .buf => pBUF
  | .gwc => pGWC

/-- Word w of entry i as a read shows it: the words that follow from the state are computed (Tables 04-11, 05-6). -/
def State.tabShow (s : State) (t i w : Nat) : Nat :=
  if t = tMAC ∧ w = 3 then bitsOf (s.tget t i 3) 0 16 + s.macAge i * 0x10000
  else if t = tQUEUE ∧ w = 4 then min 0xFFFF (s.qOn i)
  else if t = tQUEUE ∧ w = 5 then s.qDram i
  else if t = tIGRP ∧ w = 3 then s.groupCount (i / 8) (i % 8)
  else if t = tIGRP ∧ w = 4 then s.headUsed (i / 8) (i % 8)
  else if t = tCBS ∧ w = 2 then toField 32 (sget 0 i s.sw.credit / 1000000)
  else s.tget t i w

/-- Data register n of a window. -/
def State.taData (s : State) (p n : Nat) : Nat := (s.rd p (TA_DATA n)).toNat

/-- The words that a write would store: writable bits from the data registers, bits that a 0 clears, the rest kept. -/
def State.newWord (s : State) (d : TabDesc) (p i w : Nat) : Nat :=
  let m := nth d.wmask w 0
  let c := nth d.w0c w 0
  let old := s.tget d.id i w
  let new := s.taData p w
  (new &&& m) ||| (old &&& new &&& c) ||| (old &&& (full32 - (m ||| c)))

/-- Stores an entry from the data registers; it is valid again after an error (R148). -/
def State.storeEntry (s : State) (d : TabDesc) (p i : Nat) : State :=
  let ws := (List.range 12).map fun w => s.newWord d p i w
  let s1 := (List.range d.wmask.length).foldl (fun t w => t.tset d.id i w (nth ws w 0)) s
  { s1 with badEntries := s1.badEntries.filter fun e => e != d.id * 0x100000 + i }

/-- The key of a stream identification entry: what its MODE compares, and no field that a wildcard or the mode leaves out (R113,
Table 04-11). -/
def State.identKey (s : State) (i : Nat) : List Nat :=
  let mode := s.tf tIDENT i iMODE
  let w3 := s.tget tIDENT i 3
  let opt (any : TFld) (v : List Nat) : List Nat := if s.tfOn tIDENT i any then [2 ^ 32] else v
  let v6 := bitsOf w3 30 1 == 1
  let what := if mode = 3 then
      [v6.toNat, bitsOf w3 16 8] ++ s.entryIp i 4 v6 ++ opt iSRC_ANY (s.entryIp i 8 v6) ++ opt iDSCP_ANY [bitsOf w3 24 6]
        ++ opt iPORT_ANY [bitsOf w3 0 16]
    else [s.entryAddr tIDENT i 2]
  mode :: opt iVID_ANY [s.tf tIDENT i iVID] ++ what

/-- Two valid entries with one key (R113); an entry that has failed is not valid (R148). -/
def State.identRepeats (s : State) (i : Nat) : Bool :=
  s.tf tIDENT i iMODE != 0 &&
    (s.tabListed tIDENT).any fun j => j != i && s.tf tIDENT j iMODE != 0 && !s.badEntry tIDENT j && s.identKey j == s.identKey i

/-- idleSlopes of a port, kbit/s (R172). -/
def State.slopeSum (s : State) (p : Nat) : Nat :=
  (List.range 8).foldl (fun n c => n + if s.tfOn tCBS (8 * p + c) cEN then s.tf tCBS (8 * p + c) cIDLE else 0) 0

/-- Why a state with the written entry is refused: the code recorded (R145, R151, R172, R173, R174; field ranges of Tables
04-11, 05-6 and 06-12). -/
def State.entryRefused (s : State) (t i : Nat) : Option Nat :=
  if t = tMETER then
    (if s.tf t i fmPIR < s.tf t i fmCIR ∨ s.tf t i fmCBS < 64 ∨ s.tf t i fmPBS < 64 then some 0x100B else none)
  else if t = tREC then
    (if s.tf t i rHIST < 2 ∨ 32 < s.tf t i rHIST ∨ s.tf t i rTMO = 0 then some 0x100B else none)
  else if t = tIDENT then (if s.identRepeats i then some 0x100B else none)
  else if t = tWRED then (if i = 0 then some 0x200B else none)
  else if t = tQUEUE then
    (let (r, h) := s.poolTotals
     if 32768 < r + h + 4096 then some 0x2010 else none)
  else if t = tIGRP then
    (if s.tf t i gXOFF_TH ≤ s.tf t i gXON_TH then some 0x200B
     else
       let (r, h) := s.poolTotals
       if 32768 < r + h + 4096 then some 0x2010 else none)
  else if t = tBPORT then (if s.tf t i bFC = 3 then some 0x200B else none)
  else if t = tCBS then
    (if s.portRate (i / 8) * 1000 < s.slopeSum (i / 8) then some 0x200B else none)
  else if t = tSTREAM then
    (let mtu := bitsOf (s.tget t i 2) 20 12
     if mtu < 128 ∨ 1500 < mtu then some 0x300B else none)
  else none

/-- Buckets and credits run up to now at the old settings before an entry that sets their rates is written (R168, R172). -/
def State.settleRates (s : State) (t i : Nat) : State :=
  if t = tBPORT then
    { s with
      sw.portTok := if s.tf tBPORT i bRATE = 0 then s.sw.portTok.filter fun e => e.1 != i else putPair i (s.portTokens i) s.sw.portTok
      sw.portTokAt := sput 0 i s.tb.clocks s.sw.portTokAt }
  else if t = tCBS then
    (let s1 := s.creditRun (i / 8)
     { s1 with sw.creditAt := sput 0 (i / 8) s1.tb.clocks s1.sw.creditAt })
  else s

/-- The reset of latent error detection: the difference counts from here (Table 04-5). DESIGN CHOICE: a write of the entry and the
clearing of its counters reset it, since the entry has no other field for it. -/
def State.latentReset (s : State) (r : Nat) : State :=
  let v : Recov := { s.recovOf r with base := (s.tget tREC r 2 * Config.latentPaths r : Nat) - (s.tget tREC r 3 : Nat) }
  { s with sw.recov := putPair r v s.sw.recov }

/-- The MAC key of entry i counts as written by software in this clock (R123). -/
def State.macWrote (s : State) (i : Nat) : State :=
  { s with sw.wrote := some (s.tb.clocks, s.entryAddr tMAC i 0, s.tf tMAC i mVID) }

/-- A meter starts full, a recovery function keeps the history it has room for, a written dynamic MAC entry counts as seen now, a
shaper that is off has no credit, the pools follow their tables. -/
def State.entryWritten (s : State) (t i : Nat) : State :=
  if t = tMETER then { s with sw.meters := s.sw.meters.filter fun e => e.1 != i }
  else if t = tREC then
    (let v := s.recovOf i
     let h : Recov := { v with hist := v.hist % 2 ^ s.tf tREC i rHIST }
     State.latentReset { s with sw.recov := putPair i h s.sw.recov } i)
  else if t = tMAC then (s.macSee i).macWrote i
  else if t = tCBS then (if s.tfOn tCBS i cEN then s else { s with sw.credit := sput 0 i 0 s.sw.credit })
  else if t = tQUEUE ∨ t = tIGRP ∨ t = tBPORT then
    (let (r, h) := s.poolTotals
     ((s.set pBUF BUF_POOL_RSV r).set pBUF BUF_POOL_HEAD h).settle)
  else s

/-- The end of a table operation: RESULT, HIT_IDX, BUSY cleared (R144). -/
def State.taEnd (s : State) (p result hit : Nat) : State :=
  ((s.set p TA_RES_RESULT result).set p TA_RES_HIT_IDX hit).set p TA_CMD_BUSY 0

/-- A refused operation (R144): RESULT 0b11 and the code. -/
def State.taRefuse (s : State) (p code loc : Nat) : State := (s.err p code loc).taEnd p 3 0

def State.taReadOp (s : State) (d : TabDesc) (p i : Nat) : State :=
  ((List.range 12).foldl (fun (t : State) w => t.wrn p (TA_DATA w) (s.tabShow d.id i w)) s).taEnd p 0 0

def State.taWriteOp (s : State) (d : TabDesc) (p i : Nat) : State :=
  let s1 := (s.settleRates d.id i).storeEntry d p i
  match s1.entryRefused d.id i with
  | some code => s.taRefuse p code (if code / 0x1000 = 2 then (if d.id = tIGRP then 0x10000 + i else i)
      else tabLoc (s.get p TA_CMD_TBL) i)
  | none => (s1.entryWritten d.id i).taEnd p 0 0

/-- The key in the data registers: address and VID. -/
def State.taKey (s : State) (p : Nat) : Nat × Nat :=
  (bitsOf (s.taData p 1) 0 16 * 2 ^ 32 + s.taData p 0, bitsOf (s.taData p 1) 16 12)

def State.taLookupOp (s : State) (p : Nat) : State :=
  match s.macFind (s.taKey p).1 (s.taKey p).2 with
  | some i => s.taEnd p 0 i
  | none => s.taEnd p 1 0

def State.taInsertOp (s : State) (p : Nat) : State :=
  let (a, v) := s.taKey p
  let put (i : Nat) := (((s.storeEntry tabMac p i).tfSet tMAC i mVALID 1).entryWritten tMAC i).taEnd p 0 i
  match s.macFind a v with
  | some i => put i
  | none =>
    match s.macFree a v true with
    | some i => put i
    | none => s.taEnd p 2 0

def State.clearEntry (s : State) (t i : Nat) : State := (List.range 12).foldl (fun s w => s.tset t i w 0) s

def State.taDeleteOp (s : State) (p : Nat) : State :=
  match s.macFind (s.taKey p).1 (s.taKey p).2 with
  | some i => ((s.macWrote i).clearEntry tMAC i).taEnd p 0 i
  | none => s.taEnd p 1 0

/-- Entries that FDB_FLUSH selects. -/
def State.flushes (s : State) (i : Nat) : Bool :=
  let p := pFDB 0
  s.tfOn tMAC i mVALID
    && (!s.on p FDB_FLUSH_BY_PORT || (!s.tfOn tMAC i mGROUP && s.tf tMAC i mPORT == s.get p FDB_FLUSH_PORT))
    && (!s.on p FDB_FLUSH_BY_VID || s.tf tMAC i mVID == s.get p FDB_FLUSH_VID)
    && !(s.on p FDB_FLUSH_DYN_ONLY && s.tfOn tMAC i mSTATIC)

def State.taFlushOp (s : State) (p : Nat) : State :=
  (s.each ((s.tabListed tMAC).filter fun i => s.flushes i) fun s i => s.clearEntry tMAC i).taEnd p 0 0

def State.taClearOp (s : State) (d : TabDesc) (p i : Nat) : State :=
  let s1 := d.counters.foldl (fun s w => s.tset d.id i w 0) s
  (if d.id = tREC then s1.latentReset i else s1).taEnd p 0 0

/-- The operation that TA_CMD names, at its completion (R144, Table 04-10). -/
def State.taRun (s : State) (p : Nat) : State :=
  let op := s.get p TA_CMD_OP
  let tbl := s.get p TA_CMD_TBL
  let i := s.get p TA_IDX_IDX
  let bad := subsystemOf p * 0x1000 + 0x0B
  match tabOf (tyOf p) (instOf p) tbl with
  | none => s.taRefuse p bad (tabLoc tbl i)
  | some d =>
    if op = 3 ∨ op = 4 ∨ op = 5 ∨ op = 6 then
      if d.id ≠ tMAC then s.taRefuse p bad (tabLoc tbl i)
      else if op = 3 then s.taLookupOp p
      else if op = 4 then s.taInsertOp p
      else if op = 5 then s.taDeleteOp p
      else s.taFlushOp p
    else if d.size ≤ i then s.taRefuse p bad (tabLoc tbl i)
    else if op = 1 then s.taReadOp d p i
    else if op = 2 then s.taWriteOp d p i
    else s.taClearOp d p i

/-- A table operation ends (R144). -/
def execTaOpDone (page : TaPage) (s : State) : Host.Outcome State Fault Refusal :=
  .next (if s.pageUp (taAddr page) && s.on (taAddr page) TA_CMD_BUSY then s.taRun (taAddr page) else s)

/-- A write of TA_CMD: OP not 0 starts the operation; while BUSY it has no effect, records 0x1010 (R144) and ends with an error (spec/02
R603). -/
def taCmdEff (p : Nat) (v : Word) (s : State) : State :=
  if s.on p TA_CMD_BUSY then (s.err p 0x1010 0).refused
  else
    let s1 := s.plain p TA_CMD v
    if bitsOf v.toNat 0 3 = 0 then s1 else s1.set p TA_CMD_BUSY 1

/-- A write of TA_CMD with an operation and a table. -/
def State.taStart (s : State) (a : Access) (page : TaPage) (op tbl : Nat) : State :=
  let v := BitVec.ofNat 32 (op + tbl * 16)
  s.regWrite a (taAddr page) TA_CMD v noCause (taCmdEff (taAddr page) v)

def execTaRead (a : Access) (page : TaPage) (tbl : Fin 16) (s : State) : Host.Outcome State Fault Refusal :=
  .next (s.taStart a page 1 tbl.val)

def execTaWrite (a : Access) (page : TaPage) (tbl : Fin 16) (s : State) : Host.Outcome State Fault Refusal :=
  .next (s.taStart a page 2 tbl.val)

def execTaLookup (a : Access) (page : TaPage) (tbl : Fin 16) (s : State) : Host.Outcome State Fault Refusal :=
  .next (s.taStart a page 3 tbl.val)

def execTaInsert (a : Access) (page : TaPage) (tbl : Fin 16) (s : State) : Host.Outcome State Fault Refusal :=
  .next (s.taStart a page 4 tbl.val)

def execTaDelete (a : Access) (page : TaPage) (tbl : Fin 16) (s : State) : Host.Outcome State Fault Refusal :=
  .next (s.taStart a page 5 tbl.val)

def execTaFlush (a : Access) (page : TaPage) (tbl : Fin 16) (s : State) : Host.Outcome State Fault Refusal :=
  .next (s.taStart a page 6 tbl.val)

def execTaClearCounters (a : Access) (page : TaPage) (tbl : Fin 16) (s : State) : Host.Outcome State Fault Refusal :=
  .next (s.taStart a page 7 tbl.val)

/-! Selections (R125-R128). -/

def selOff : SelKind → Nat → Nat
  | .lag, b => LAG_SEL b
  | .spl, b => SPL_SEL b
  | .gwe, b => GWE_SEL b

/-- The written value of an entry: MEMBER or ENGINE. -/
def selWant : SelKind → Nat → Fld
  | .lag, b => LAG_SEL_MEMBER b
  | .spl, b => SPL_SEL_ENGINE b
  | .gwe, b => GWE_SEL_ENGINE b

def selActive : SelKind → Nat → Fld
  | .lag, b => LAG_SEL_ACTIVE b
  | .spl, b => SPL_SEL_ACTIVE b
  | .gwe, b => GWE_SEL_ACTIVE b

def selPend : SelKind → Nat → Fld
  | .lag, b => LAG_SEL_PENDING b
  | .spl, b => SPL_SEL_PENDING b
  | .gwe, b => GWE_SEL_PENDING b

/-- SWC_STAT.PENDING: entries with PENDING = 1. -/
def State.countPending (s : State) : State :=
  let n := [SelKind.lag, .spl, .gwe].foldl (fun n k => n + ((List.range 64).filter fun b => s.on pSWC (selPend k b)).length) 0
  s.set pSWC SWC_STAT_PENDING (min 255 n)

/-- SWC_STAT.LAG and FALLBACK (Table 04-8, R128). -/
def State.lagStat (s : State) : State :=
  let u0 := s.linkUp 0
  let u1 := s.linkUp 1
  let v := if u0 && u1 then 0 else if u0 then 1 else if u1 then 2 else 3
  (s.set pSWC SWC_STAT_LAG v).set pSWC SWC_STAT_FALLBACK (v == 3 && s.on pSWC SWC_CTRL_TW_FALLBACK).toNat

/-- A frame of the bucket is held under the old value (R126, spec/05 R165). -/
def State.bucketHeld (s : State) (k : SelKind) (b : Nat) : Bool :=
  s.sw.held.any fun c =>
    match k with
    | .lag => c.lag == some b
    | .spl => bitsOf c.hash 6 6 == b && !c.onChip
    | .gwe => bitsOf c.hash 10 6 == b && c.q / 8 == 32

/-- The entry waits for its bucket when its written value differs from the one in use (R126). -/
def State.requestMove (s : State) (k : SelKind) (b : Nat) : State :=
  if s.get pSWC (selWant k b) = s.get pSWC (selActive k b) ∧ !s.on pSWC (selPend k b) then s
  else (s.set pSWC (selPend k b) 1).countPending

def selectionEff (k : SelKind) (b : Nat) (v : Word) (s : State) : State :=
  (s.plain pSWC (selOff k b) v).requestMove k b

def execSelectionWrite (a : Access) (kind : SelKind) (b : Fin 64) (v : Word) (s : State) : Host.Outcome State Fault Refusal :=
  .next (s.regWrite a pSWC (selOff kind b.val) v noCause (selectionEff kind b.val v))

/-- The new value takes effect (R126). -/
def State.moveTakes (s : State) (k : SelKind) (b : Nat) : State :=
  let s1 := (s.set pSWC (selActive k b) (s.get pSWC (selWant k b))).set pSWC (selPend k b) 0
  (s1.irq pSWC INT_SWC_MOVE_DONE).countPending

def execSelectionMoveDone (kind : SelKind) (b : Fin 64) (s : State) : Host.Outcome State Fault Refusal :=
  .next (if s.switchUp && s.on pSWC (selPend kind b.val) && !s.bucketHeld kind b.val then s.moveTakes kind b.val else s)

def execSelectionMoveTimeout (kind : SelKind) (b : Fin 64) (s : State) : Host.Outcome State Fault Refusal :=
  .next (
    if s.switchUp && s.on pSWC (selPend kind b.val) then
      ((s.moveTakes kind b.val).irq pSWC INT_SWC_MOVE_TMO).err pSWC 0x1018 0
    else s)

/-! Links. -/

/-- A port's link goes down (R101, R127, R128). -/
def State.linkLost (s : State) (p : Nat) : State :=
  if !s.on (pPORT p) PORT_STAT_LINK then s
  else
    let s1 := ((s.set (pPORT p) PORT_STAT_LINK 0).set (pPORT p) PORT_STAT_SPEED 0).set (pPORT p) PORT_PHY_STAT_LINK 0
    let s2 := (s1.irq (pPORT p) INT_PORT_LINK_DOWN).dropPort p
    if 2 ≤ p then s2
    else
      let other := 1 - p
      let s3 := if s2.on pSWC SWC_CTRL_AUTO_FAILOVER then
          let moved := s2.each ((List.range 64).filter fun b =>
              s2.get pSWC (LAG_SEL_ACTIVE b) == p || s2.get pSWC (LAG_SEL_MEMBER b) == p) fun s b =>
            (s.set pSWC (LAG_SEL_ACTIVE b) other).set pSWC (LAG_SEL_PENDING b) 0
          ((moved.countPending).irq pSWC INT_SWC_FAILOVER).err pSWC 0x1213 0
        else s2
      let s4 := s3.lagStat
      if !s4.linkUp 0 && !s4.linkUp 1 then (s4.irq pSWC INT_SWC_BOTH_DOWN).err pSWC 0x1214 0 else s4

/-- The PHY of an F or S port on a running power die while the compute die is in reset (spec/01 Table 01-6, STEADY_REST). -/
def State.restPhy (s : State) (p : Nat) : Bool :=
  !s.up.compute && s.mode == mSTEADY_REST && (match phyDie p with | some d => nth s.up.die d false | none => false)

/-- The link of a PHY at rest shows in the port's registers only. -/
def State.restLink (s : State) (p code : Nat) : State :=
  let up := if code = 0 then 0 else 1
  ((s.set (pPORT p) PORT_STAT_LINK up).set (pPORT p) PORT_STAT_SPEED code).set (pPORT p) PORT_PHY_STAT_LINK up

def execPortLinkDown (port : Fin 31) (s : State) : Host.Outcome State Fault Refusal :=
  .next (if s.switchUp then s.linkLost port.val else if s.restPhy port.val then s.restLink port.val 0 else s)

/-- Speed code of a port whose link is up (R99, Table 04-1): M ports take the forced rate, or the negotiated one; TW the rate
of its link; the others have one. -/
def State.speedCode (s : State) (p negotiated : Nat) : Nat :=
  if p < 2 then 6
  else if p = 2 then negotiated
  else if p < 7 then
    (let f := s.get (pPORT p) PORT_CTRL_SPEED
     if f = 0 then negotiated else 3 + f)
  else if p < 15 then 3
  else if p < 27 then 2
  else 1

/-- The port's lines are powered: its SerDes domain is on (spec/17 R499), and in PARTIAL the port is selected (spec/18 R519). -/
def State.portPowered (s : State) (p : Nat) : Bool :=
  (!(p < 2 || (3 ≤ p && p ≤ 14)) || s.on pPWR (PWR_DOM_ON 8)) && (p != 2 || s.on pPWR (PWR_DOM_ON 9)) &&
    (s.mode != mPARTIAL || (s.get pSLP SLP_PART_PORTS_MASK).testBit p)

/-- Whether a port may have its link up: it is powered, its power die answers (R100); M3 has none while the trace function is on
(spec/13 R396). -/
def State.linkMay (s : State) (p : Nat) : Bool :=
  s.portPowered p && (match phyDie p with | some d => s.dieUp d | none => true) && !(p == 6 && s.on pISO ISO_TRACE_EN)

/-- PORT_PHY_STAT with the link up: the PHY's signal quality (F) and PLCA status (S) are free values (R100). -/
def State.phyUp (s : State) (p : Nat) : State :=
  if phyDie p = none then s
  else
    let f := pPORT p
    let s1 := (s.set f PORT_PHY_STAT_LINK 1).took
    if p < 27 then s1.set f PORT_PHY_STAT_SQI (s.free % 8)
    else s1.set f PORT_PHY_STAT_PLCA (if s.on f PORT_PHY_CTRL_PLCA_EN then s.free % 2 else 0)

def execPortLinkUp (port : Fin 31) (speed : Fin 8) (s : State) : Host.Outcome State Fault Refusal :=
  .next (
    let p := port.val
    if s.restPhy p then s.restLink p (s.speedCode p speed.val)
    else if s.switchUp && s.linkMay p && !s.on (pPORT p) PORT_STAT_LINK then
      let s1 := (s.set (pPORT p) PORT_STAT_LINK 1).set (pPORT p) PORT_STAT_SPEED (s.speedCode p speed.val)
      let s2 := (s1.phyUp p).irq (pPORT p) INT_PORT_LINK_UP
      if 2 ≤ p then s2
      else
        (s2.each ((List.range 64).filter fun b => s2.get pSWC (LAG_SEL_MEMBER b) == p) fun s b => s.requestMove .lag b).lagStat
    else s)

/-! Timers and verification. -/

/-- The recovery timeout (R133, Table 04-5): the history is reset and a reset counted (word 8). -/
def execRecoveryTimeout (ix : Fin 256) (s : State) : Host.Outcome State Fault Refusal :=
  .next (
    let r := ix.val
    let v := s.recovOf r
    if s.switchUp && s.tfOn tREC r rVALID && !v.takeAny then
      ({ s with sw.recov := putPair r { recovReset with base := v.base } s.sw.recov }).tcnt pFRER tREC r 8
    else s)

/-- The latent error test (R136): discarded frames against what the further paths should have brought. -/
def execLatentErrorCheck (ix : Fin 256) (s : State) : Host.Outcome State Fault Refusal :=
  .next (
    let r := ix.val
    if s.switchUp && s.tfOn tREC r rVALID && s.tfOn tREC r rLAT_EN then
      let diff : Int := (s.recovOf r).base
        - ((s.tget tREC r 2 * Config.latentPaths r : Nat) - (s.tget tREC r 3 : Nat))
      if s.tf tREC r rLAT_DIFF < diff.natAbs then (s.tcnt pFRER tREC r 9).err pFRER 0x1216 (tabLoc 1 r) else s
    else s)

/-- A dynamic entry that has not been seen for SWC_AGE seconds is removed (R120). -/
def execMacEntryAgeOut (ix : Fin 16384) (s : State) : Host.Outcome State Fault Refusal :=
  .next (
    if s.switchUp && s.get pSWC SWC_AGE_SEC != 0 && s.tfOn tMAC ix.val mVALID && !s.tfOn tMAC ix.val mSTATIC
        && decide (s.get pSWC SWC_AGE_SEC ≤ s.macAge ix.val) then
      s.clearEntry tMAC ix.val
    else s)

/-- A write of PORT_PRE: EN = 1 starts verification, VERIFY_DIS or the TW port has preemption without it; EN = 0 ends it (R137, R138,
R301, Table 04-15). Types
without preemption ignore the write (R146). -/
def portPreEff (p : Nat) (v : Word) (s : State) : State :=
  if !Config.preemptPort p then s
  else
    let s0 := s.plain (pPORT p) PORT_PRE v
    let st := if v.getLsbD 1 || (v.getLsbD 0 && p == 2) then 2 else if v.getLsbD 0 then 1 else 0
    let s1 := if st = 1 then s0.emit (.verify p) else s0
    s1.set (pPORT p) PORT_PRE_STATUS st

def execPreemptionEnable (a : Access) (port : Fin 34) (v : Word) (s : State) : Host.Outcome State Fault Refusal :=
  .next (s.regWrite a (pPORT port.val) PORT_PRE v noCause (portPreEff port.val v))

def execPreemptionVerifyFail (port : Fin 7) (s : State) : Host.Outcome State Fault Refusal :=
  .next (
    let p := pPORT port.val
    if s.switchUp && s.get p PORT_PRE_STATUS == 1 then
      ((s.set p PORT_PRE_STATUS 3).irq p INT_PORT_VERIFY_FAIL).err p 0x1215 0
    else s)

def execPreemptionVerifyResponse (port : Fin 7) (s : State) : Host.Outcome State Fault Refusal :=
  .next (
    let p := pPORT port.val
    if s.switchUp && s.get p PORT_PRE_STATUS == 1 then s.set p PORT_PRE_STATUS 2 else s)

/-! Counters. -/

def swcCntClrEff (v : Word) (s : State) : State :=
  if v.getLsbD 0 then
    [CNT_COPY_REF, CNT_LEARN_REF, CNT_STATION_MOVE, CNT_UNK_DROP].foldl (fun s o => s.wr pSWC o 0) s
  else s

def execSwcCntClr (a : Access) (v : Word) (s : State) : Host.Outcome State Fault Refusal :=
  .next (s.regWrite a pSWC SWC_CNT_CLR v noCause (swcCntClrEff v))

def portCntClrEff (p : Nat) (v : Word) (s : State) : State :=
  if v.getLsbD 0 then ((List.range 14).map fun j => CNT_RX_OK + 4 * j).foldl (fun s o => s.wr (pPORT p) o 0) s else s

def execPortCntClr (a : Access) (port : Fin 34) (v : Word) (s : State) : Host.Outcome State Fault Refusal :=
  .next (s.regWrite a (pPORT port.val) PORT_CNT_CLR v noCause (portCntClrEff port.val v))

/-! Other registers of the switch pages. -/

/-- PORT_MAXLEN up to the limit of Table 04-1. -/
def portMaxlenPre (p : Nat) (v : Word) (_ : State) : Option Nat :=
  if Config.maxLenLimit p < bitsOf v.toNat 0 14 then some 0x0B else none

/-- The PHY registers of a port whose power die is lost (R100). -/
def portPhyPre (p : Nat) (s : State) : Option Nat :=
  match phyDie p with
  | some d => if s.dieUp d then none else some 0x08
  | none => none

/-- Bits of a PORT register that the type supports (R146). -/
def portMask (p off : Nat) : Nat :=
  if off = PORT_CTRL then (if 3 ≤ p ∧ p ≤ 6 then full32 else full32 - 0x30000000)
  else if off = PORT_TS then (if p < 2 ∨ (3 ≤ p ∧ p ≤ 14) then full32 else 0)
  else if off = PORT_PHY_CTRL then
    (if 15 ≤ p ∧ p ≤ 26 then 0x3 else if 27 ≤ p ∧ p ≤ 30 then 0x01FFFF02 else 0)
  else if off = PORT_PHY_PLCA then (if 27 ≤ p ∧ p ≤ 30 then full32 else 0)
  else full32

/-- A write of a PORT register: unsupported fields stay as they are (R146). DESIGN CHOICE: a rate forced by SPEED while the link is up
takes hold at the next link-up (R99). -/
def portPlain (p off : Nat) (v : Word) (s : State) : State :=
  let m := portMask p off
  let old := (s.rd (pPORT p) off).toNat
  s.plain (pPORT p) off (BitVec.ofNat 32 ((v.toNat &&& m) ||| (old &&& (full32 - m))))

/-- The copy bucket fills at the old rate up to the write of its new one (R130). -/
def swcCopyEff (v : Word) (s : State) : State := s.copyFill.plain pSWC SWC_COPY v

/-- The spill buckets fill at the old rates up to the write of new ones (R163). -/
def splBwEff (e : Nat) (v : Word) (s : State) : State := (s.splFill e).plain (pSPL e) SPL_BW v

/-- A host instance's tokens fill at the old rate up to the write of its new one (R185). -/
def hinTxRateEff (i : Nat) (v : Word) (s : State) : State :=
  State.plain { s with sw.txTok := putPair i (s.txTokens i) s.sw.txTok, sw.txTokAt := putPair i s.tb.clocks s.sw.txTokAt }
    (pHIN i) HIN_TX_RATE v

/-- The seed of the WRED LFSR (R156). -/
def bufWredSeedEff (v : Word) (s : State) : State := { s.plain pBUF BUF_WRED_SEED v with sw.lfsr := v }

/-- SWC_CTRL acts on FALLBACK at once. -/
def swcCtrlEff (v : Word) (s : State) : State := (s.plain pSWC SWC_CTRL v).lagStat

/-- ISO_TRACE.EN = 1 takes the link of M3 down (spec/13 R396). -/
def isoTraceEff (v : Word) (s : State) : State :=
  let s1 := s.plain pISO ISO_TRACE v
  if v.getLsbD 0 then s1.linkLost 6 else s1

end Sys2Proof.Machine
end

