-- ==== Sys2Proof/Machine/Can.lean ====
section
/-!
DEFINITION. The CAN controllers (spec/06 R190-R210): message objects, reception, requests, cancellation, errors, modes,
transceivers and reference messages.
-/

namespace Sys2Proof.Machine

/-! Objects. -/

def CanState.initial : CanState :=
  { cur := none, cancel := [], tries := [], shadow := none, integrating := false, recovering := false, mode := 0
    tdcLast := none, guard := none, ref := none, refOut := none, stopAt := none, gwObj := [], gwWait := [] }

def State.canSt (s : State) (n : Nat) : CanState := nth s.can n CanState.initial

def State.canMod (s : State) (n : Nat) (f : CanState → CanState) : State := { s with can := modNth s.can n f }

/-- Bytes of capacity CAP (Table 06-9). -/
def capBytes (c : Nat) : Nat := [8, 64, 256, 2048].getD c 8

def State.objCap (s : State) (n o : Nat) : Nat := capBytes (s.get (pCXC n) (OBJ_CTRL_CAP o))

/-- Payload word w (4 bytes) of an object. -/
def objWord (n o w : Nat) : Nat × Nat × Nat := (tCANDATA n, o * 32 + w / 16, w % 16)

def State.objWordGet (s : State) (n o w : Nat) : Nat := s.tget (tCANDATA n) (o * 32 + w / 16) (w % 16)

def State.objWordSet (s : State) (n o w v : Nat) : State := s.tset (tCANDATA n) (o * 32 + w / 16) (w % 16) v

/-- The first k payload bytes of an object. -/
def State.objData (s : State) (n o k : Nat) : List Nat :=
  (((List.range ((k + 3) / 4)).map fun w => bytesLE 4 (s.objWordGet n o w)).flatten).take k

/-- Payload bytes stored, up to the object's capacity. -/
def State.objStore (s : State) (n o : Nat) (data : List Nat) : State :=
  let d := data.take (s.objCap n o)
  (List.range ((d.length + 3) / 4)).foldl (fun t w =>
    let part := (d.drop (4 * w)).take 4
    let old := bytesLE 4 (t.objWordGet n o w)
    t.objWordSet n o w (ofBytesLE (part ++ old.drop part.length))) s

/-- XL fields, acceptance field and time stamp of an object: words 0 to 3 of its meta entry. -/
def State.objMeta (s : State) (n o w : Nat) : Nat := s.tget (tCANMETA n) o w

/-- The frame that a TX object holds. -/
def State.objFrame (s : State) (n o : Nat) : BusFrame :=
  let p := pCXC n
  let x := s.objMeta n o 0
  { fmt := s.get p (OBJ_ID_FMT o), ide := s.on p (OBJ_ID_IDE o), rtr := false, brs := s.on p (OBJ_CTRL_BRS o)
    ident := s.get p (OBJ_ID_ID o), data := s.objData n o (min (s.get p (OBJ_CTRL_LEN o)) (s.objCap n o))
    sdt := bitsOf x 0 8, vcid := bitsOf x 8 8, sec := x.testBit 16, af := s.objMeta n o 1 }

/-- A received frame is stored in an object (R198): data up to the capacity, LEN in full, SOF time, NEW. -/
def State.objReceive (s : State) (n o : Nat) (f : BusFrame) (sec ns : Nat) : State :=
  let p := pCXC n
  let s1 := s.objStore n o f.data
  let s2 := (s1.tset (tCANMETA n) o 0 (f.sdt % 256 + f.vcid % 256 * 256 + f.sec.toNat * 0x10000)).tset (tCANMETA n) o 1 f.af
  let s3 := (s2.tset (tCANMETA n) o 2 sec).tset (tCANMETA n) o 3 ns
  ((s3.set p (OBJ_CTRL_LEN o) (min 2048 f.data.length)).set p (OBJ_CTRL_NEW o) 1).irq p INT_CXC_RX_NEW

/-- An entry or object treated as not valid after a message memory error (Table 06-13). -/
def State.objBad (s : State) (n o : Nat) : Bool := s.badEntry (tCANDATA n) o

/-- Object o matches a frame (R198). -/
def State.objMatches (s : State) (n : Nat) (f : BusFrame) (o : Nat) : Bool :=
  let p := pCXC n
  s.get p (OBJ_CTRL_TYPE o) == 2 && !s.objBad n o
    && (s.get p (OBJ_ID_FMT o) == 3 || s.get p (OBJ_ID_FMT o) == f.fmt)
    && s.on p (OBJ_ID_IDE o) == f.ide
    && ((f.ident ^^^ s.get p (OBJ_ID_ID o)) &&& bitsOf (s.rd p (OBJ_MASK o)).toNat 0 29) == 0

/-- A frame offered to the RX objects (R198, R199). -/
def State.canOffer (s : State) (n : Nat) (f : BusFrame) (sec ns : Nat) : State :=
  let p := pCXC n
  let ms := (List.range 128).filter fun o => s.objMatches n f o
  match ms.find? fun o => s.on p (OBJ_CTRL_GW o) || !s.on p (OBJ_CTRL_NEW o) || s.on p (OBJ_CTRL_OVERWRITE o) with
  | some o =>
    if s.on p (OBJ_CTRL_GW o) then s.gwPush (s.get p (OBJ_CTRL_GWE o)) (.bus false n f sec ns)
    else if s.on p (OBJ_CTRL_OVERWRITE o) && s.get p CX_WIN_SEL_OBJ == o then
      let s1 := if (s.canSt n).shadow.isSome then (s.set p (OBJ_CTRL_LOST o) 1).irq p INT_CXC_LOST else s
      s1.canMod n fun c => { c with shadow := some (f, sec, ns) }
    else s.objReceive n o f sec ns
  | none =>
    match ms with
    | [] => s
    | o :: _ => ((s.set p (OBJ_CTRL_LOST o) 1).irq p INT_CXC_LOST).err p 0x3017 o

/-- The shadow frame of the selected object is stored (R199). -/
def State.shadowStore (s : State) (n : Nat) : State :=
  match (s.canSt n).shadow with
  | none => s
  | some (f, sec, ns) =>
    (s.canMod n fun c => { c with shadow := none }).objReceive n (s.get (pCXC n) CX_WIN_SEL_OBJ) f sec ns

/-! Bus state. -/

/-- The power die of an integrated transceiver (Table 06-2). -/
def xcvrDie (n : Nat) : Option Nat := if n < 4 then some 0 else if n < 8 then some 1 else none

/-- The controller takes part in the bus but for INIT: integrated, transceiver there, not bus-off. -/
def State.canThere (s : State) (n : Nat) : Bool :=
  s.pageUp (pCXC n) && !(s.canSt n).integrating && !s.on (pCXC n) CX_STAT_XCVR_LOST && s.get (pCXC n) CX_STAT_ST != 2

/-- The controller takes part in the bus: out of INIT, integrated, transceiver there. -/
def State.canLive (s : State) (n : Nat) : Bool := s.canThere n && !s.on (pCXC n) CX_CTRL_INIT

/-- The controller handles a frame that began `age` (0.25 ns units) ago: INIT = 1 stops it after the frame in progress (R206). -/
def State.canTakes (s : State) (n age : Nat) : Bool :=
  s.canThere n && (!s.on (pCXC n) CX_CTRL_INIT ||
    (match (s.canSt n).stopAt with | some t => decide (s.tb.clocks ≤ t + age / 8) | none => false))

/-- The bus is idle after a frame, unless the controller has stopped. -/
def State.canIdle (s : State) (n : Nat) : State := s.set (pCXC n) CX_STAT_IDLE (!s.on (pCXC n) CX_CTRL_INIT).toNat

/-- The formats the controller takes part in (CX_CTRL.FD_EN, XL_EN). -/
def State.canFmt (s : State) (n fmt : Nat) : Bool :=
  fmt == 0 || (fmt == 1 && s.on (pCXC n) CX_CTRL_FD_EN) || (fmt == 2 && s.on (pCXC n) CX_CTRL_XL_EN)

/-- Error states from the counters (R205, ISO 11898-1): bus-off above 255, passive above 127, warning from 96. -/
def State.canStates (s : State) (n : Nat) : State :=
  let p := pCXC n
  let tec := s.get p CX_ECNT_TEC
  let rec' := s.get p CX_ECNT_REC
  let old := s.get p CX_STAT_ST
  let new := if old = 2 ∨ 255 < tec then 2 else if 127 < tec ∨ 127 < rec' then 1 else 0
  let warn := decide (96 ≤ tec) || decide (96 ≤ rec')
  let s1 := if warn && !s.on p CX_STAT_WARN then (s.irq p INT_CXC_STATE).err p 0x3012 0 else s
  let s2 := (s1.set p CX_STAT_WARN warn.toNat).set p CX_STAT_ST new
  if new = old then s2
  else
    let s3 := s2.irq p INT_CXC_STATE
    if new = 2 then
      let s4 := s3.err p 0x321B 0
      s4.canMod n fun c => { c with recovering := s4.on p CX_CTRL_BO_AUTO, cur := none }
    else if new = 1 ∧ old = 0 then s3.err p 0x321A 0
    else s3

/-- Error code of the last frame shown in CX_PSR. -/
def State.canLec (s : State) (n code : Nat) (dataPhase : Bool) : State :=
  s.set (pCXC n) (if dataPhase then CX_PSR_DLEC else CX_PSR_LEC) code

/-- Outcome of an object's try. -/
def State.objStatus (s : State) (n o v : Nat) : State := s.set (pCXC n) (OBJ_CTRL_STATUS o) v

def State.tryCount (s : State) (n o : Nat) : Nat := sget 0 o (s.canSt n).tries

def State.uncancel (s : State) (n o : Nat) : State :=
  s.canMod n fun c => { c with cancel := c.cancel.filter fun x => x != o }

/-- The controller sends reference messages now: EN, and not held back as a Tailstock (R207, R209). -/
def State.refOn (s : State) (n : Nat) : Bool :=
  s.on (pCXC n) CX_REF_CTRL_EN && !(s.on (pCXC n) CX_REF_CTRL_HS_ONLY && s.isTailstock)

/-- The positions of a controller's reference messages. -/
def State.refMask (s : State) (n : Nat) : Nat := (s.rd (pCXC n) CX_REF_POS_LO).toNat + (s.rd (pCXC n) CX_REF_POS_HI).toNat * 2 ^ 32

/-- A waiting reference message is dropped, counted and posted, where `drop` says so and one waits (R208). -/
def State.refDrop (s : State) (n : Nat) (drop : Bool) : State :=
  if drop && (s.canSt n).ref.isSome then
    ((s.canMod n fun c => { c with ref := none }).cnt (pCXC n) CX_REF_CNT_DROP).err (pCXC n) 0x3215 0
  else s

/-- The time from a compact timestamp to now, in 0.25 ns units; a timestamp that lies ahead (module time was stepped back) counts as
now. -/
def State.ageQ (s : State) (sec ns : Nat) : Nat :=
  let d := (((s.nowQ : Int) - ((sec * quartersPerSecond + ns : Nat) : Int)) % ((2 ^ 32 * quartersPerSecond : Nat) : Int)).toNat
  if d < 2 ^ 31 * quartersPerSecond then d else 0

/-- A gateway frame is late (R218): counted in its route (word 6) and posted at most once per millisecond. -/
def State.gwLate (s : State) (route : Nat) : State :=
  (s.tcnt pGWC tROUTE route 6).errLimited (0x10000 + route) clocksPerMs pGWC 0x3016 (0x10000 + route)

/-- An object is withdrawn (Table 06-3); a gateway frame past its deadline is counted (R218). -/
def State.objWithdraw (s : State) (n o : Nat) : State :=
  let s1 := (s.objStatus n o 5).uncancel n o
  match (s.canSt n).gwObj.find? fun g => g.obj == o && g.expired with
  | some g => (s1.gwLate g.route).canMod n fun c => { c with gwObj := c.gwObj.filter fun x => x.obj != o }
  | none => s1.canMod n fun c => { c with gwObj := c.gwObj.filter fun x => x.obj != o }

/-- Arbitration is lost to another frame (R203, R208): a reference message waits for its next chance; one that waited before it has
missed its own and is dropped. -/
def State.arbLost (s : State) (n : Nat) : State :=
  match (s.canSt n).cur with
  | none => s
  | some o =>
    let s1 := s.canMod n fun c => { c with cur := none }
    if o = 128 then
      (s1.refDrop n (s.canSt n).refOut.isSome).canMod n fun c =>
        { c with ref := match c.refOut with | some r => some { r with late := true } | none => c.ref
                 refOut := none }
    else if (s.canSt n).cancel.contains o then s1.objWithdraw n o
    else s1.objStatus n o 1

/-- REC after a good reception (ISO 11898-1): 1 less, and into 119 to 127 from error passive. -/
def recGood (r : Nat) : Nat := if 127 < r then 119 else r - 1

/-- A controller has heard a good frame: arbitration is lost to it, it is counted, REC falls (not in listen-only), CX_PSR
shows no error, the bus is idle (R203-R205). -/
def State.canHeard (s : State) (n : Nat) : State :=
  let s1 := (s.arbLost n).cnt32 (pCXC n) CX_CNT_RX
  let s2 := if (s.canSt n).mode = 1 then s1
    else (s1.set (pCXC n) CX_ECNT_REC (recGood (s1.get (pCXC n) CX_ECNT_REC))).canStates n
  (s2.canLec n 0 false).canIdle n

/-- An error seen as a receiver (R203-R205, ISO 11898-1): a frame in arbitration has lost to the one that failed; REC counts 1, or 8.
In listen-only the counters hold; so they do for a CAN XL frame with error signalling off (CX_XL.ERRS; PRESUMED from ISO 11898-1). -/
def State.canRxError (s : State) (n code : Nat) (dataPhase heavy xl : Bool) : State :=
  let s1 := (s.canLec n code dataPhase).arbLost n
  if (s.canSt n).mode = 1 ∨ (xl && !s.on (pCXC n) CX_XL_ERRS) then s1
  else (s1.set (pCXC n) CX_ECNT_REC (min 255 (s1.get (pCXC n) CX_ECNT_REC + if heavy then 8 else 1))).canStates n

/-- A frame received on the bus of a controller; `age` is the time since its start of frame in 0.25 ns units (R198). A frame in
arbitration has lost to it. A remote request in FD or XL form is a form error (Table 06-1). -/
def execCanFrameReceive (clocks : Nat) (ctl : Fin 12) (f : BusFrame) (age : Nat) (s : State) :
    Host.Outcome State Fault Refusal :=
  .next (
    let n := ctl.val
    let s0 := s.advance clocks
    if !s0.canTakes n age || (s0.canSt n).mode == 2 || !s0.canFmt n f.fmt then s0
    else if f.rtr && f.fmt != 0 then s0.canRxError n 2 false false (f.fmt == 2)
    else
      let q := s0.nowQ - age
      (s0.canHeard n).canOffer n f (stampSec q) (stampNs q))

/-! Requests. -/

/-- Arbitration order of an identifier (R200): the lower key wins. -/
def arbKey (f : BusFrame) : Nat :=
  f.ident / 2 ^ 18 * 2 ^ 19 + (if f.ide then 2 ^ 18 + f.ident % 2 ^ 18 else 0)

/-- The next object: lowest key, then lowest number. -/
def State.canPick (s : State) (n : Nat) : Option Nat :=
  let l := (List.range 128).filter fun o =>
    s.get (pCXC n) (OBJ_CTRL_TYPE o) == 1 && s.get (pCXC n) (OBJ_CTRL_STATUS o) == 1 && !s.objBad n o
      && s.canFmt n (s.get (pCXC n) (OBJ_ID_FMT o))
  l.foldl (fun best o =>
    match best with
    | none => some o
    | some b => if arbKey (s.objFrame n o) < arbKey (s.objFrame n b) then some o else some b) none

/-- A late reference message begins (R208): counted and posted the first time. -/
def State.refLateStart (s : State) (n : Nat) (r : RefMsg) : State :=
  let p := pCXC n
  let s1 := s.canMod n fun c =>
    { c with cur := some 128, ref := none, refOut := some { r with counted := true, sof := stampNs s.nowQ } }
  if r.counted then s1 else ((s1.cnt p CX_REF_CNT_LATE).irq p INT_CXC_REF_LATE).err p 0x3014 0

/-- The guard time of a reference position runs (R207): not once the position or the sending has been taken out. -/
def State.guarding (s : State) (n : Nat) : Bool :=
  match (s.canSt n).guard with
  | some g => s.refOn n && (s.refMask n).testBit g
  | none => false

/-- The controller chooses the object that goes next (R200); a late reference message goes first, and during the guard time
nothing else is chosen (R207). -/
def execCanTxChoice (clocks : Nat) (ctl : Fin 12) (s : State) : Host.Outcome State Fault Refusal :=
  .next (
    let n := ctl.val
    let s0 := s.advance clocks
    let c := s0.canSt n
    if !s0.canLive n || c.cur.isSome || c.mode == 1 || s0.on (pCXC n) PART_BUSY then s0
    else
      match c.ref with
      | some r => s0.refLateStart n r
      | none =>
        if s0.guarding n then s0
        else
          match s0.canPick n with
          | none => s0
          | some o =>
            ((s0.objStatus n o 2).canMod n fun c => { c with cur := some o }).set (pCXC n) CX_STAT_IDLE 0)

/-- Transceiver-delay compensation of a transmitted frame with a data phase (R195, R196). DEDUCED: CX_TDC_VAL has 10 bits, so an edge
counts as arrived within 1,280 ns below 1,024 counts. -/
def State.tdcMeasure (s : State) (n : Nat) (f : BusFrame) (tdc : Option Nat) : State :=
  let p := pCXC n
  if f.fmt = 0 ∨ !s.on p CX_TDC_EN then s
  else
    let min := s.get p CX_TDC_MIN
    let ok := match tdc with
      | some d => if min ≤ d ∧ d < 1024 then some d else none
      | none => none
    match ok with
    | some d => ((s.canMod n fun c => { c with tdcLast := some d }).set p CX_TDC_VAL_V d).set p CX_STAT_TDC_VALID 1
    | none =>
      ((s.cnt32 p CX_CNT_TDC_MISS).errLimited (0x600 + n) clocksPerS p 0x3013 0).set p CX_TDC_VAL_V
        ((s.canSt n).tdcLast.getD min)

/-- The data of a reference message (Table 06-4). -/
def State.refData (s : State) (r : RefMsg) : List Nat :=
  [0x10 + 4 * (s.on pPTP PTP_STAT_SYNCED).toNat + r.late.toNat, r.pos] ++ bytesBE 2 (r.cycle % 0x10000) ++ bytesBE 4 r.sof

def State.refFrame (s : State) (n : Nat) (r : RefMsg) : BusFrame :=
  { fmt := 0, ide := s.on (pCXC n) CX_REF_CTRL_IDE, rtr := false, brs := false, ident := s.get (pCXC n) CX_REF_ID_ID
    data := s.refData r, sdt := 0, vcid := 0, sec := false, af := 0 }

/-- A frame is sent (on the bus, or internally in loopback), counted, and offered to the own objects where SELF_RX or
loopback asks for it (R198, R204). -/
def State.canSent (s : State) (n : Nat) (f : BusFrame) (age : Nat) : State :=
  let p := pCXC n
  let loop := (s.canSt n).mode == 2
  let s1 := if loop then s else s.emit (.can n f)
  let s2 := (s1.cnt32 p CX_CNT_TX).set p CX_ECNT_TEC (s1.get p CX_ECNT_TEC - 1)
  let s3 := ((s2.canStates n).canLec n 0 false).canIdle n
  let q := s3.nowQ - age
  if loop || s3.on p CX_CTRL_SELF_RX then (s3.cnt32 p CX_CNT_RX).canOffer n f (stampSec q) (stampNs q) else s3

/-- The transmission under way completes; `age` is the time since its start of frame in 0.25 ns units, tdc the delay measured in it
(1.25 ns), none where no edge came (R195, R200, R203, R207). -/
def execCanFrameTransmitted (clocks : Nat) (ctl : Fin 12) (age : Nat) (tdc : Option Nat) (s : State) :
    Host.Outcome State Fault Refusal :=
  .next (
    let n := ctl.val
    let s0 := s.advance clocks
    let c := s0.canSt n
    match c.cur with
    | none => s0
    | some o =>
      let s1 := s0.canMod n fun c => { c with cur := none }
      if o = 128 then
        match c.refOut with
        | none => s1
        | some r =>
          let s2 := (s1.canMod n fun c => { c with refOut := none }).canSent n (s1.refFrame n r) age
          if r.late then s2 else s2.cnt (pCXC n) CX_REF_CNT_SENT
      else
        let f := s1.objFrame n o
        let s2 := (s1.tdcMeasure n f tdc).canSent n f age
        let s3 := s2.objStatus n o (if c.cancel.contains o then 6 else 4)
        let s4 := s3.canMod n fun c =>
          { c with cancel := c.cancel.filter (fun x => x != o), tries := sput 0 o 0 c.tries
                   gwObj := c.gwObj.filter fun x => x.obj != o }
        s4.irq (pCXC n) INT_CXC_TX_DONE)

/-- Why a write of OBJ_CTRL is refused (R194, R197): capacity outside INIT, more than 64 TX objects, more than 64 KiB, any
format on any but an RX object. -/
def objCtrlPre (n o : Nat) (v : Word) (s : State) : Option Nat :=
  let p := pCXC n
  let ty := bitsOf v.toNat 0 2
  let cap := bitsOf v.toNat 6 2
  let tx := ((List.range 128).filter fun j => (if j = o then ty else s.get p (OBJ_CTRL_TYPE j)) == 1).length
  let sum := (List.range 128).foldl (fun t j => t + capBytes (if j = o then cap else s.get p (OBJ_CTRL_CAP j))) 0
  if cap ≠ s.get p (OBJ_CTRL_CAP o) ∧ !s.on p CX_CTRL_INIT then some 0x0B
  else if 64 < tx ∨ 65536 < sum then some 0x0B
  else if ty ≠ 2 ∧ s.get p (OBJ_ID_FMT o) = 3 then some 0x0B
  else none

/-- Pending, in arbitration or transmitting (R201). -/
def State.objBusy (s : State) (n o : Nat) : Bool :=
  let st := s.get (pCXC n) (OBJ_CTRL_STATUS o)
  1 ≤ st && st ≤ 3

/-- TXRQ = 1 requests a TX object (R200). -/
def State.objRequest (s : State) (n o : Nat) : State :=
  if s.get (pCXC n) (OBJ_CTRL_TYPE o) = 1 ∧ !s.objBusy n o then
    (s.objStatus n o 1).canMod n fun c => { c with tries := sput 0 o 0 c.tries }
  else s

/-- CANCEL = 1 (Table 06-3); `won`: arbitration is already won. -/
def State.objCancel (s : State) (n o : Nat) (won : Bool) : State :=
  let st := s.get (pCXC n) (OBJ_CTRL_STATUS o)
  if st = 1 then s.objWithdraw n o
  else if st = 2 ∨ st = 3 then
    let s1 := s.canMod n fun c => { c with cancel := c.cancel.filter (fun x => x != o) ++ [o] }
    if won then s1.objStatus n o 3 else s1
  else s

def objCtrlEff (n o : Nat) (v : Word) (won : Bool) (s : State) : State :=
  let s0 := s.plain (pCXC n) (OBJ_CTRL o) v
  let s1 := { s0 with badEntries := s0.badEntries.filter fun e => e != tCANDATA n * 0x100000 + o }
  let s2 := if v.getLsbD 9 then s1.objRequest n o else s1
  if v.getLsbD 10 then s2.objCancel n o won else s2

def execCanTxrq (a : Access) (ctl : Fin 12) (obj : Fin 128) (v : Word) (s : State) : Host.Outcome State Fault Refusal :=
  .next (s.regWrite a (pCXC ctl.val) (OBJ_CTRL obj.val) v (objCtrlPre ctl.val obj.val v) (objCtrlEff ctl.val obj.val v false))

def execCanCancel (a : Access) (ctl : Fin 12) (obj : Fin 128) (v : Word) (won : Bool) (s : State) :
    Host.Outcome State Fault Refusal :=
  .next (s.regWrite a (pCXC ctl.val) (OBJ_CTRL obj.val) v (objCtrlPre ctl.val obj.val v) (objCtrlEff ctl.val obj.val v won))

/-! Errors, bus-off, INIT and modes. -/

/-- The frame under way fails (R202, R203, R208): the tries of an object are those that ended in an error. -/
def State.txFailed (s : State) (n : Nat) : State :=
  let p := pCXC n
  match (s.canSt n).cur with
  | none => s
  | some o =>
    let s1 := s.canMod n fun c => { c with cur := none }
    if o = 128 then s1.canMod n fun c => { c with refOut := none }
    else
      let retry := bitsOf (s.rd p (OBJ_MASK o)).toNat 0 8
      if (s.canSt n).cancel.contains o then
        ((s1.objStatus n o 7).uncancel n o).canMod n fun c => { c with gwObj := c.gwObj.filter fun x => x.obj != o }
      else if s.on p CX_CTRL_DAR ∨ (retry ≠ 0 ∧ retry ≤ s.tryCount n o) then
        (s1.objStatus n o 8).canMod n fun c => { c with gwObj := c.gwObj.filter fun x => x.obj != o }
      else (s1.objStatus n o 1).canMod n fun c => { c with tries := sput 0 o (sget 0 o c.tries + 1) c.tries }

/-- The frame that a failing transmission was sending. -/
def State.curFrame (s : State) (n : Nat) : Option BusFrame :=
  match (s.canSt n).cur with
  | none => none
  | some o => if o = 128 then none else some (s.objFrame n o)

/-- A bus error (R205, ISO 11898-1): a transmitter counts 8, but for an acknowledge error when error passive; a receiver 1,
or 8. In listen-only the counters hold (R204), and for a CAN XL frame with error signalling off (CX_XL.ERRS; PRESUMED). The delay
measured before the error counts (R195, R196). -/
def execCanBusError (ctl : Fin 12) (e : CanError) (s : State) : Host.Outcome State Fault Refusal :=
  .next (
    let n := ctl.val
    let p := pCXC n
    if !s.canTakes n e.age && !(s.canThere n && e.transmitting && (s.canSt n).cur.isSome) then s
    else if (s.canSt n).mode != 1 && e.transmitting && (s.canSt n).cur.isSome then
      let s0 := match e.tdc, s.curFrame n with
        | some d, some f => s.tdcMeasure n f d
        | _, _ => s
      let s1 := s0.canLec n e.code.val e.dataPhase
      let keep := (decide (e.code.val = 3) && s.get p CX_STAT_ST == 1) || (e.xl && !s.on p CX_XL_ERRS)
      let s2 := if keep then s1 else s1.set p CX_ECNT_TEC (min 511 (s1.get p CX_ECNT_TEC + 8))
      (s2.txFailed n).canStates n
    else s.canRxError n e.code.val e.dataPhase e.heavy e.xl)

/-- Why a write of CX_CTRL is refused: MODE 0b11 (R204). -/
def cxCtrlPre (v : Word) (_ : State) : Option Nat := if bitsOf v.toNat 1 2 = 3 then some 0x0B else none

/-- A write of CX_CTRL (R204-R206): INIT = 1 stops the controller after the frame in progress, INIT = 0 starts integration, MODE takes effect at once while INIT = 1, BO_RECOVER starts
recovery from bus-off. -/
def cxCtrlEff (n : Nat) (v : Word) (s : State) : State :=
  let p := pCXC n
  let s1 := s.plain p CX_CTRL v
  let s2 := if s.on p CX_CTRL_INIT && !v.getLsbD 0 then
      (s1.set p CX_STAT_IDLE 0).canMod n fun c => { c with integrating := true, tdcLast := none, stopAt := none }
    else if !s.on p CX_CTRL_INIT && v.getLsbD 0 then s1.canMod n fun c => { c with stopAt := some s.tb.clocks }
    else s1
  let s3 := if s2.on p CX_CTRL_INIT || s.on p CX_CTRL_INIT then
      s2.canMod n fun c => { c with mode := s2.get p CX_CTRL_MODE } else s2
  let bo := s3.get p CX_STAT_ST == 2
  let s4 := if bo && (v.getLsbD 5 || (v.getLsbD 4 && !s.on p CX_CTRL_BO_AUTO)) then
      s3.canMod n fun c => { c with recovering := true } else s3
  if s4.on p CX_CTRL_INIT then s4.set p CX_STAT_IDLE 0 else s4

def execCanBoRecover (a : Access) (ctl : Fin 12) (v : Word) (s : State) : Host.Outcome State Fault Refusal :=
  .next (s.regWrite a (pCXC ctl.val) CX_CTRL v (cxCtrlPre v) (cxCtrlEff ctl.val v))

def execCanInit (a : Access) (ctl : Fin 12) (v : Word) (s : State) : Host.Outcome State Fault Refusal :=
  .next (s.regWrite a (pCXC ctl.val) CX_CTRL v (cxCtrlPre v) (cxCtrlEff ctl.val v))

/-- Recovery ends after 128 occurrences of 11 recessive bits (R205). -/
def execCanRecoveryDone (ctl : Fin 12) (s : State) : Host.Outcome State Fault Refusal :=
  .next (
    let p := pCXC ctl.val
    if s.pageUp p && (s.canSt ctl.val).recovering && s.get p CX_STAT_ST == 2 then
      let s1 := ((s.set p CX_STAT_ST 0).set p CX_STAT_WARN 0).wrn p CX_ECNT 0
      ((s1.canMod ctl.val fun c => { c with recovering := false }).set p CX_STAT_IDLE 1).irq p INT_CXC_STATE
    else s)

/-- The bus is idle: a change of MODE takes effect (R204). -/
def execCanModeApply (ctl : Fin 12) (s : State) : Host.Outcome State Fault Refusal :=
  .next (
    if s.pageUp (pCXC ctl.val) && (s.canSt ctl.val).cur.isNone then
      s.canMod ctl.val fun c => { c with mode := s.get (pCXC ctl.val) CX_CTRL_MODE }
    else s)

/-- 11 recessive bits have been seen: the controller is integrated (R192, R206). -/
def execCanIntegrationDone (ctl : Fin 12) (s : State) : Host.Outcome State Fault Refusal :=
  .next (
    let p := pCXC ctl.val
    if s.pageUp p && (s.canSt ctl.val).integrating && !s.on p CX_CTRL_INIT && !s.on p CX_STAT_XCVR_LOST then
      (s.canMod ctl.val fun c => { c with integrating := false }).set p CX_STAT_IDLE 1
    else s)

/-- An integrated transceiver whose TXD stays dominant releases the bus (R191). -/
def execTxdDominantTimeout (ctl : Fin 12) (s : State) : Host.Outcome State Fault Refusal :=
  .next (if ctl.val < 8 && !s.on (pCXC ctl.val) CX_STAT_XCVR_LOST then s.emit (.canRelease ctl.val) else s)

/-- The power die of a transceiver is lost (R192). -/
def State.canXcvrLost (s : State) (n : Nat) : State :=
  let p := pCXC n
  if s.on p CX_STAT_XCVR_LOST then s
  else
    let s1 := match (s.canSt n).cur with
      | some o => if o = 128 then s.canMod n (fun c => { c with cur := none, refOut := none })
        else (s.objStatus n o 1).canMod n fun c => { c with cur := none }
      | none => s
    ((s1.set p CX_STAT_XCVR_LOST 1).set p CX_STAT_IDLE 0).err p 0x321C 0

/-- The power die returns: the controller integrates again (R192). -/
def State.canXcvrBack (s : State) (n : Nat) : State :=
  let p := pCXC n
  if s.on p CX_STAT_XCVR_LOST then
    (s.set p CX_STAT_XCVR_LOST 0).canMod n fun c => { c with integrating := true }
  else s

/-! Register reads and writes. -/

/-- The read of CX_OBJ_REL releases the selected object and stores a shadow frame (R199). -/
def objRelEff (n : Nat) (s : State) : State :=
  let p := pCXC n
  let o := s.get p CX_WIN_SEL_OBJ
  ((s.set p (OBJ_CTRL_NEW o) 0).set p (OBJ_CTRL_LOST o) 0).shadowStore n

def execCxObjRelRead (a : Access) (ctl : Fin 12) (s : State) : Host.Outcome State Fault Refusal :=
  .next (s.regRead a (pCXC ctl.val) CX_OBJ_REL (objRelEff ctl.val))

/-- The read of CX_PSR sets both codes to 7 (Table 06-8). -/
def psrEff (n : Nat) (s : State) : State := (s.set (pCXC n) CX_PSR_LEC 7).set (pCXC n) CX_PSR_DLEC 7

def execCxPsrRead (a : Access) (ctl : Fin 12) (s : State) : Host.Outcome State Fault Refusal :=
  .next (s.regRead a (pCXC ctl.val) CX_PSR (psrEff ctl.val))

/-- The selection moves: a shadow frame of the object selected before is stored (R199). -/
def winSelEff (n : Nat) (v : Word) (s : State) : State :=
  let s1 := if bitsOf v.toNat 0 7 = s.get (pCXC n) CX_WIN_SEL_OBJ then s else s.shadowStore n
  s1.plain (pCXC n) CX_WIN_SEL v

def execCxWinSelWrite (a : Access) (ctl : Fin 12) (v : Word) (s : State) : Host.Outcome State Fault Refusal :=
  .next (s.regWrite a (pCXC ctl.val) CX_WIN_SEL v noCause (winSelEff ctl.val v))

/-- Writes taken only while INIT = 1, and the limits of bit timing (R194). -/
def cxTimingPre (n off : Nat) (v : Word) (s : State) : Option Nat :=
  let w := v.toNat
  if !s.on (pCXC n) CX_CTRL_INIT then some 0x0B
  else if off = CX_NBT ∧ bitsOf w 16 7 < bitsOf w 24 7 then some 0x0B
  else if off = CX_DBT ∧ (bitsOf w 16 4 < bitsOf w 24 4 ∨ 1 + bitsOf w 8 5 + bitsOf w 16 4 < 5) then some 0x0B
  else if off = CX_XL ∧ w.testBit 0 ∧ w.testBit 1 then some 0x0B
  else none

/-- CX_XCVR is refused while the transceiver's die is lost (R192), and mode 0b11 of an integrated one (Table 06-8). -/
def cxXcvrPre (n : Nat) (v : Word) (s : State) : Option Nat :=
  if s.on (pCXC n) CX_STAT_XCVR_LOST then some 0x08 else if n < 8 ∧ bitsOf v.toNat 0 2 = 3 then some 0x0B else none

/-- The CX_XCVR fields of a controller: mode with an integrated transceiver, WAKE_EN on CX0 and CX1, STB with an external one (Table
06-8). The STB land follows its bit. -/
def xcvrMask (n : Nat) : Nat := if n < 2 then 0x13 else if n < 8 then 0x03 else 0x100

def cxXcvrEff (n : Nat) (v : Word) (s : State) : State :=
  let s1 := s.plain (pCXC n) CX_XCVR (BitVec.ofNat 32 (v.toNat &&& xcvrMask n))
  if 8 ≤ n ∧ s1.on (pCXC n) CX_XCVR_STB ≠ s.on (pCXC n) CX_XCVR_STB then s1.emit (.canStb n (v.getLsbD 8)) else s1

/-- Writes of an object that is pending or under way (R201), and of the any format to any but an RX object (R197). -/
def objIdPre (n o : Nat) (v : Word) (s : State) : Option Nat :=
  if s.objBusy n o then some 0x0B
  else if bitsOf v.toNat 30 2 = 3 ∧ s.get (pCXC n) (OBJ_CTRL_TYPE o) ≠ 2 then some 0x0B
  else none

def objBusyPre (n o : Nat) (s : State) : Option Nat := if s.objBusy n o then some 0x0B else none

/-- A write of CX_WIN_XL, CX_WIN_AF or a data word goes to the selected object; data beyond CAP is ignored (Table 06-8). -/
def winWriteEff (n off : Nat) (v : Word) (s : State) : State :=
  let o := s.get (pCXC n) CX_WIN_SEL_OBJ
  if off = CX_WIN_XL then s.tset (tCANMETA n) o 0 (v.toNat % 0x20000)
  else if off = CX_WIN_AF then s.tset (tCANMETA n) o 1 v.toNat
  else
    let w := (off - CX_DATA 0) / 4
    if 4 * w < s.objCap n o then s.objWordSet n o w v.toNat else s

/-- A soft reset clears every object and the counters (R206). What the engines hold for the controller stays theirs. -/
def State.canClear (s : State) (n : Nat) : State :=
  { s with
    can := setNth s.can n { CanState.initial with gwWait := (s.canSt n).gwWait }
    tabs := s.tabs.filter fun e => !(e.1 / 16 / 0x100000 == tCANDATA n || e.1 / 16 / 0x100000 == tCANMETA n) }

/-! Reference messages. -/

/-- The next reference position in the cycle or the one after, in edges from now. -/
def State.refAhead (s : State) (n : Nat) : Option Nat :=
  ((List.range 64).map fun j => j + 1).find? fun j => (s.refMask n).testBit ((s.curPos + j) % 64)

/-- The guard time before a reference edge begins: CX_REF_GUARD µs before it (R207). -/
def execRefGuardStart (ctl : Fin 12) (s : State) : Host.Outcome State Fault Refusal :=
  .next (
    let n := ctl.val
    match s.refAhead n with
    | some j =>
      if s.canLive n && s.refOn n && s.plate.started
          && decide (s.edgeTime j ≤ s.nowQ + 4000 * (s.rd (pCXC n) CX_REF_GUARD).toNat) then
        s.canMod n fun c => { c with guard := some ((s.curPos + j) % 64) }
      else s
    | none => s)

/-- The guard time ends at the edge it runs for, and at a jump, which may skip that position (R207, R209). -/
def State.guardEnds (s : State) (n pos : Nat) (jump : Bool) : State :=
  if (s.canSt n).guard.isSome && (jump || (s.canSt n).guard == some pos) then s.canMod n fun c => { c with guard := none } else s

/-- The edge of a reference position (R207-R209): a message that still waits has missed its chance. -/
def State.refEdge (s : State) (n pos : Nat) (busy : Bool) : State :=
  let p := pCXC n
  if !s.pageUp p || !s.refOn n || !(s.refMask n).testBit pos then s
  else
    let s1 := s.refDrop n true
    let c := s1.canSt n
    if c.mode = 1 ∨ s1.get p CX_STAT_ST = 2 then s1.cnt p CX_REF_CNT_DROP
    else if !s1.canLive n then s1
    else
      let free := !busy && c.cur.isNone
      let r : RefMsg := ⟨pos, (s1.rd pIXP IXP_CYC).toNat % 0x10000, !free, false, stampNs s1.nowQ⟩
      s1.canMod n fun c => if free then { c with refOut := some r, cur := some 128 } else { c with ref := some r }

end Sys2Proof.Machine
end

