-- ==== Sys2Proof/Machine/Lin.lean ====
section
/-!
DEFINITION. The LIN channels (spec/06 R211-R214): schedules, headers and responses, checksums, the receive FIFO, errors and
wake pulses.
-/

namespace Sys2Proof.Machine

def LinState.initial : LinState := { fifo := [], cur := none, sch := 0, waiting := [], late := 0, fresh := [] }

def State.linSt (s : State) (n : Nat) : LinState := nth s.lin n LinState.initial

def State.linMod (s : State) (n : Nat) (f : LinState → LinState) : State := { s with lin := modNth s.lin n f }

/-- The channel works: enabled, its transceiver there (R192, R214). -/
def State.linLive (s : State) (n : Nat) : Bool :=
  s.pageUp (pLNC n) && s.on (pLNC n) LN_CTRL_EN && !s.on (pLNC n) LN_STAT_XCVR_LOST

/-- The head of the receive FIFO in the page (Table 06-10). -/
def State.linShow (s : State) (n : Nat) : State :=
  let p := pLNC n
  match (s.linSt n).fifo with
  | [] => ((s.wrn p LN_RX_ID 0).wrn p LN_RX_D0 0).wrn p LN_RX_POP 0
  | (i, d) :: _ =>
    ((s.wrn p LN_RX_ID (i + d.length * 256 + 0x1000)).wrn p LN_RX_D0 (ofBytesLE (d.take 4))).wrn p LN_RX_POP
      (ofBytesLE ((d.drop 4).take 4))

/-- A frame is received into the FIFO of 16 (R213). -/
def State.linStore (s : State) (n i : Nat) (d : List Nat) : State :=
  if 16 ≤ (s.linSt n).fifo.length then s.cnt (pLNC n) LN_STAT_OVF
  else ((s.linMod n fun c => { c with fifo := c.fifo ++ [(i, d)] }).linShow n).irq (pLNC n) INT_LNC_RX

/-- The identifier with its parity bits (ISO 17987-3). -/
def protectedId (i : Nat) : Nat :=
  let b (k : Nat) := (i / 2 ^ k) % 2
  i % 64 + 64 * ((b 0 + b 1 + b 2 + b 4) % 2) + 128 * ((1 + b 1 + b 3 + b 4 + b 5) % 2)

/-- Sum with carry of the octets, inverted (ISO 17987-3): enhanced takes in the protected identifier. -/
def linChecksum (enh : Bool) (i : Nat) (d : List Nat) : Nat :=
  let l := if enh then protectedId i :: d else d
  255 - l.foldl (fun a b => let t := a + b; if 255 < t then t - 255 else t) 0

/-- The response entry of an identifier that is valid (R213). -/
def State.linRsp (s : State) (n i : Nat) : Option Nat :=
  (List.range 64).find? fun k => s.on (pLNC n) (LN_RSP_VALID k) && s.get (pLNC n) (LN_RSP_ID k) == i

/-- The first len data bytes of response entry k, 8 at most. -/
def State.linRspBytes (s : State) (n k len : Nat) : List Nat :=
  (bytesLE 4 (s.rd (pLNC n) (LN_RSP_D0 k)).toNat ++ bytesLE 4 (s.rd (pLNC n) (LN_RSP_D1 k)).toNat).take len

def State.linRspData (s : State) (n k : Nat) : List Nat := s.linRspBytes n k (s.get (pLNC n) (LN_RSP_LEN k))

/-- The data of response entry k has been written (R211, sporadic frames). -/
def State.linFresh (s : State) (n k : Nat) : State :=
  s.linMod n fun c => { c with fresh := if c.fresh.contains k then c.fresh else c.fresh ++ [k] }

def State.linSpent (s : State) (n k : Nat) : State :=
  s.linMod n fun c => { c with fresh := c.fresh.filter fun x => x != k }

/-- The response entry whose data word lies at an offset of an LNC page (Table 06-10). -/
def lnRspData (off : Nat) : Option Nat :=
  (List.range 64).find? fun k => decide (off = LN_RSP_D0 k ∨ off = LN_RSP_D1 k)

/-- A write of a data word of response entry k. -/
def lnRspEff (n off k : Nat) (v : Word) (s : State) : State := (s.plain (pLNC n) off v).linFresh n k

/-- A response goes out (R213). -/
def State.linAnswer (s : State) (n i k : Nat) : State :=
  let d := s.linRspData n k
  (s.linSpent n k).emit (.linResponse n i d (linChecksum (s.on (pLNC n) (LN_RSP_ENH k)) i d))

/-- A slave channel receives a header (R213); while its page is parted it begins no frame (spec/13 Table 13-7). -/
def execLinHeaderReceive (ch : Fin 8) (ident : Fin 64) (s : State) : Host.Outcome State Fault Refusal :=
  .next (
    let n := ch.val
    if !s.linLive n || s.on (pLNC n) LN_CTRL_MASTER || s.on (pLNC n) PART_BUSY then s
    else
      let s1 := s.set (pLNC n) LN_STAT_STUCK 0
      match s1.linRsp n ident.val with
      | some k => (s1.linAnswer n ident.val k).linMod n fun c => { c with cur := some (ident.val, none, true) }
      | none => s1.linMod n fun c => { c with cur := some (ident.val, none, false) })

/-- The type of schedule entry k: 0 unconditional, 1 event-triggered, 2 sporadic, 3 diagnostic (DEDUCED, log entry 107: the order of
Table 06-5; the spec lists no codes). -/
def State.linType (s : State) (n k : Nat) : Nat := s.get (pLNC n) (LN_SCH_TYPE k)

/-- A sporadic entry is sent only where the response entry of its identifier has been written since it was last sent (R211, ISO
17987-3). -/
def State.linWanted (s : State) (n k : Nat) : Bool :=
  s.linType n k != 2 ||
    match s.linRsp n (s.get (pLNC n) (LN_SCH_ID k)) with
    | some r => (s.linSt n).fresh.contains r
    | none => false

/-- A master channel starts the header of schedule entry k (R212); the response comes from the response entry of its
identifier where the master sends, at the length of the schedule entry (Table 06-10). -/
def State.linStart (s : State) (n k : Nat) : State :=
  let p := pLNC n
  let i := s.get p (LN_SCH_ID k)
  let s1 := s.emit (.linHeader n i)
  let own := s.on p (LN_SCH_MSEND k)
  let s2 := s1.linMod n fun c => { c with cur := some (i, some k, own) }
  if !own then s2
  else
    match s2.linRsp n i with
    | some r =>
      let d := s2.linRspBytes n r (s2.get p (LN_SCH_LEN k))
      (s2.linSpent n r).emit (.linResponse n i d (linChecksum (s2.on p (LN_SCH_ENH k)) i d))
    | none => s2

/-- A master channel starts headers: it works, and no parting of its page has stopped it (R212, spec/13 Table 13-7). -/
def State.linSends (s : State) (n : Nat) : Bool :=
  s.linLive n && s.on (pLNC n) LN_CTRL_MASTER && !s.on (pLNC n) PART_BUSY

/-- The next waiting entry starts once the frame before it is finished (R212). -/
def State.linNext (s : State) (n : Nat) : State :=
  match (s.linSt n).waiting with
  | [] => s
  | k :: t =>
    if s.linSends n && (s.linSt n).cur.isNone then
      (s.linMod n fun c => { c with waiting := t }).linStart n k
    else s

/-- The edge of an index position on a master channel (R212): at a boundary SCH_SEL takes effect; entries due at the position
start, or wait and count as late. -/
def State.linEdge (s : State) (n pos : Nat) (boundary : Bool) : State :=
  let p := pLNC n
  let s1 := if boundary then s.linMod n fun c => { c with sch := s.get p LN_CTRL_SCH_SEL } else s
  if !s1.linSends n then s1
  else
    let base := 32 * (s1.linSt n).sch
    let cyc := (s1.rd pIXP IXP_CYC).toNat
    let due := ((List.range 32).map fun j => base + j).filter fun k =>
      s1.on p (LN_SCHP_VALID k) && s1.get p (LN_SCHP_POS k) == pos && cyc % max 1 (s1.get p (LN_SCHP_DIV k)) == 0
    s1.each due fun s k =>
      if !s.linWanted n k then s
      else if (s.linSt n).cur.isNone then s.linStart n k
      else s.linMod n fun c => { c with waiting := c.waiting ++ [k], late := c.late + 1 }

/-- A frame that a LIN channel receives goes to engine n mod 4 while that engine is enabled (R215). DESIGN CHOICE, log entry 66: R216
names the engine of a CAN frame (OBJ_CTRL.GWE) and of a frame from port GW, not of a LIN frame. -/
def State.linToGateway (s : State) (n i : Nat) (d : List Nat) (age : Nat) : State :=
  if s.pageUp (pPEG (n % 4)) && (s.rd pGWC GWC_CTRL).toNat.testBit (n % 4) then
    s.gwPush (n % 4) (.bus true n
      { fmt := 0, ide := false, rtr := false, brs := false, ident := i, data := d, sdt := 0, vcid := 0, sec := false, af := 0 }
      (stampSec (s.nowQ - age)) (stampNs (s.nowQ - age)))
  else s

/-- A saturating count of LN_ERR with the interrupt (R214). -/
def State.linErr (s : State) (n : Nat) (f : Fld) : State := (s.cnt (pLNC n) f).irq (pLNC n) INT_LNC_ERR

/-- The checksum of a received frame is good: by its schedule entry, classic for diagnostic frames, else either. -/
def State.linCheck (s : State) (n i : Nat) (k : Option Nat) (d : List Nat) (cs : Nat) : Bool :=
  if i = 0x3C ∨ i = 0x3D then linChecksum false i d == cs
  else
    match k with
    | some e => linChecksum (s.on (pLNC n) (LN_SCH_ENH e)) i d == cs
    | none => linChecksum false i d == cs || linChecksum true i d == cs

/-- A LIN frame ends: its octets and checksum, an error its octets do not show, a collision in an event-triggered slot, and the time
since its start in 0.25 ns units (R212-R214). An error is counted also where no header was received. -/
def execLinFrameComplete (tm : Elapsed) (ch : Fin 8) (data : List Nat) (checksum : Nat) (e : Option LinError)
    (collision : Bool) (s : State) : Host.Outcome State Fault Refusal :=
  .next (
    let n := ch.val
    let s0 := s.advance tm.clocks
    match (s0.linSt n).cur with
    | none =>
      if !s0.linLive n then s0
      else
        match e with
        | some .bit => s0.linErr n LN_ERR_BIT
        | some _ => s0.linErr n LN_ERR_FRAMING
        | none => s0
    | some (i, k, own) =>
      if !s0.linLive n then s0
      else
        let p := pLNC n
        let s1 := (s0.set p LN_STAT_STUCK 0).linMod n fun c => { c with cur := none }
        let s2 :=
          match e with
          | some .bit => s1.linErr n LN_ERR_BIT
          | some _ => s1.linErr n LN_ERR_FRAMING
          | none =>
            match collision, k with
            | true, some j => if s1.linType n j = 1 then (s1.set p (LN_SCHP_COLL j) 1).irq p INT_LNC_COLL else s1
            | _, _ =>
              if own then s1
              else if !s1.linCheck n i k data checksum then s1.linErr n LN_ERR_CHK
              else
                let d := data.take 8
                (s1.linStore n i d).linToGateway n i d tm.age
        s2.linNext n)

/-- No complete frame within TFrame_Max (R211, R214). -/
def execLinFrameTimeout (ch : Fin 8) (s : State) : Host.Outcome State Fault Refusal :=
  .next (
    let n := ch.val
    if s.linLive n && (s.linSt n).cur.isSome then
      ((s.linMod n fun c => { c with cur := none }).linErr n LN_ERR_NORESP).linNext n
    else s)

/-- The read of LN_RX_POP removes the head entry (R213). -/
def rxPopEff (n : Nat) (s : State) : State := (s.linMod n fun c => { c with fifo := c.fifo.tail }).linShow n

def execLnRxPopRead (a : Access) (ch : Fin 8) (s : State) : Host.Outcome State Fault Refusal :=
  .next (s.regRead a (pLNC ch.val) LN_RX_POP (rxPopEff ch.val))

/-- The bus is held dominant for 100 ms (R214). -/
def execLinStuckDominant (ch : Fin 8) (s : State) : Host.Outcome State Fault Refusal :=
  .next (
    let p := pLNC ch.val
    if s.linLive ch.val && !s.on p LN_STAT_STUCK then
      ((s.set p LN_STAT_STUCK 1).irq p INT_LNC_STUCK).err p 0x321D 0
    else s)

/-- A dominant pulse longer than 150 µs in PARTIAL or RUN (R214). -/
def execLinWakePulse (ch : Fin 8) (s : State) : Host.Outcome State Fault Refusal :=
  .next (
    if s.pageUp (pLNC ch.val) && !s.on (pLNC ch.val) LN_STAT_XCVR_LOST && (s.mode == mPARTIAL || s.mode == mRUN) then
      s.irq (pLNC ch.val) INT_LNC_WAKE
    else s)

/-- A write of LN_CTRL; WAKE_TX = 1 sends a wake pulse (R214). -/
def lnCtrlEff (n : Nat) (v : Word) (s : State) : State :=
  let s1 := s.plain (pLNC n) LN_CTRL v
  if v.getLsbD 2 && !s1.on (pLNC n) LN_STAT_XCVR_LOST then s1.emit (.linWake n) else s1

def execLinWakeTx (a : Access) (ch : Fin 8) (v : Word) (s : State) : Host.Outcome State Fault Refusal :=
  .next (s.regWrite a (pLNC ch.val) LN_CTRL v noCause (lnCtrlEff ch.val v))

/-- The power die of a LIN transceiver (Table 06-5). -/
def linDie (n : Nat) : Nat := if n < 4 then 0 else 1

def State.linXcvrLost (s : State) (n : Nat) : State :=
  let p := pLNC n
  if s.on p LN_STAT_XCVR_LOST then s
  else ((s.linMod n fun c => { c with cur := none }).set p LN_STAT_XCVR_LOST 1).err p 0x321C 0

/-- The power die of a transceiver returns: the entries that waited go on (R192). -/
def State.linXcvrBack (s : State) (n : Nat) : State := (s.set (pLNC n) LN_STAT_XCVR_LOST 0).linNext n

def State.linClear (s : State) (n : Nat) : State := { s with lin := setNth s.lin n LinState.initial }

end Sys2Proof.Machine
end

