-- ==== Sys2Proof/Machine/Bridges.lean ====
section
/-!
DEFINITION. The bridging rules that the die bridges and the twin bridge share (spec/10 R302, R305-R313): replay, credits,
packets that wait for them, peers that are down and come back, and what the loss of a power die takes away (spec/01 R23).
-/

namespace Sys2Proof.Machine

def State.bridge (s : State) (b : Nat) : BridgeState := nth s.bridges b BridgeState.init

def State.modBridge (s : State) (b : Nat) (f : BridgeState → BridgeState) : State := { s with bridges := modNth s.bridges b f }

/-- The link of a bridge is there: the Phoask link up, the power die powered. -/
def State.brLink (s : State) (b : Nat) : Bool :=
  s.up.compute && (if b < 2 then s.dieOn b else decide (2 ≤ s.get pTWL TWL_STAT_ST))

/-- The handshake of a bridge is complete (R313). -/
def State.brUp (s : State) (b : Nat) : Bool := s.brLink b && s.on (pBR b) BR_STAT_UP

/-- Receive buffers per VC, in flits (Table 10-4). -/
def brBuffers (b : Nat) : List Nat := if b < 2 then [32, 32, 0, 0] else [64, 64, 128, 512]

/-- Credits that the sender holds on a VC (R306). -/
def State.credits (s : State) (b vc : Nat) : Nat :=
  let z := s.bridge b
  (nth (brBuffers b) vc 0 + nth z.vcBack vc 0 + 65536 - nth z.vcSent vc 0) % 65536

def crFld (vc : Nat) : Fld := ⟨BR_CRED, 8 * vc, 8⟩

/-- BR_CRED and BR_STAT.TAGS show the bridge's credits and tags. -/
def State.showBridge (s : State) (b : Nat) : State :=
  (s.each [0, 1, 2, 3] fun s vc => s.set (pBR b) (crFld vc) (min 255 (s.credits b vc))).set (pBR b) BR_STAT_TAGS
    (s.bridge b).tags.length

/-- Flits that a packet takes: 30 payload bytes each (Table 10-2). -/
def flitsOf (l : List Nat) : Nat := (l.length + 29) / 30

/-- A packet may go: credits for its flits, and room in the replay buffer of 1,024 flits (R302, R306). -/
def State.mayGo (s : State) (b vc : Nat) (l : List Nat) : Bool :=
  decide (flitsOf l ≤ s.credits b vc) && decide (((s.bridge b).sent + 65536 - (s.bridge b).acked) % 65536 + flitsOf l ≤ 1024)

/-- A packet goes onto its VC. -/
def State.packetGoes (s : State) (b vc : Nat) (l : List Nat) : State :=
  (s.modBridge b fun z =>
    { z with sent := (z.sent + flitsOf l) % 65536, vcSent := modNth z.vcSent vc fun n => (n + flitsOf l) % 65536 }).emit
      (.rsv b vc l)

/-- Waiting packets of a VC go while they may; the first that may not holds those behind it. -/
def State.drainVc (b vc : Nat) : Nat → State → State
  | 0, s => s
  | n + 1, s =>
    match (s.bridge b).waiting.find? fun w => w.1 == vc with
    | none => s
    | some w =>
      if s.mayGo b vc w.2 then
        State.drainVc b vc n ((s.modBridge b fun z => { z with waiting := z.waiting.erase w }).packetGoes b vc w.2)
      else s

/-- Waiting packets go in the priority of Table 10-4. -/
def State.drain (s : State) (b : Nat) : State :=
  (s.each [2, 1, 0, 3] fun s vc => State.drainVc b vc (s.bridge b).waiting.length s).showBridge b

/-- A packet is sent on VC vc of bridge b: header (VC, kind, POSTED, tag, body length) and body (Table 10-5). -/
def State.sendRsv (s : State) (b vc kind : Nat) (body : List Nat) (posted : Bool := false) (tag : Nat := 0) : State :=
  if s.brUp b then
    let l := [vc * 64 + kind, posted.toNat * 128 + tag] ++ bytesBE 2 body.length ++ body
    (s.modBridge b fun z => { z with waiting := z.waiting ++ [(vc, l)] }).drain b
  else s

/-! Counters and errors of a bridge. -/

/-- NAK: the flits after the acknowledged count are sent again (R302). The flits of a die bridge are not held one by one: one
is counted. -/
def State.replayFlits (s : State) (b ack : Nat) : State :=
  let n := if b < 2 then 1 else ((s.bridge b).sent + 65536 - ack) % 65536
  if n = 0 then s
  else
    let s1 := ((s.cnt (pBR b) BR_CNT_REPLAY_V n).irq (pBR b) INT_BR_REPLAY).emit (.replay b ack n)
    s1.errLimited (0xC00 + b) clocksPerS (pBR b) (if b < 2 then 0x0130 else 0x7112) 0

/-! The window of the TBR page (Table 10-12). -/

/-- The window access ends. -/
def State.windowEnds (s : State) (result cause : Nat) : State :=
  let s1 := ((s.set pTBR TBR_CMD_BUSY 0).set pTBR TBR_CMD_RESULT result).set pTBR TBR_CMD_CAUSE cause
  { s1.irq pTBR INT_BR_WIN_DONE with phoask.winWait := false }

/-! Peers (R311-R313). -/

/-- A power die is lost as the compute side sees it: its transceivers and ports go with it (spec/01 R23, spec/06 R192). -/
def State.powerDieLost (s : State) (d : Nat) : State :=
  let s1 := s.each ((List.range 12).filter fun n => xcvrDie n == some d) fun s n => s.canXcvrLost n
  let s2 := s1.each ((List.range 8).filter fun n => linDie n == d) fun s n => s.linXcvrLost n
  s2.each ((List.range 31).filter fun p => phyDie p == some d) fun s p => (s.linkLost p).wrn (pPORT p) PORT_PHY_STAT 0

/-- A posted write that has not been sent is discarded (Table 10-6): its address. -/
def postedAddr (l : List Nat) : Option Nat :=
  if nth l 0 0 = 2 ∧ 128 ≤ nth l 1 0 then some (ofBytesBE ((l.drop 4).take 5)) else none

/-- A side declares its peer down (R312, Table 10-6). -/
def State.peerDown (s : State) (b : Nat) : State :=
  let p := pBR b
  if !s.on p BR_STAT_UP then s
  else
    let lost := ((s.bridge b).waiting.filterMap fun w => postedAddr w.2)
    let s1 := s.each lost fun s a => s.postedError b 0x08 a
    let s2 := s1.modBridge b fun z =>
      { BridgeState.init with retired := z.retired ++ z.tags.map (·.1) }
    let s3 := ((s2.set p BR_STAT_UP 0).set p BR_STAT_PEER_DOWN 1).cnt p BR_STAT_DOWN_CNT
    let s4 := ((s3.wrn p BR_CRED 0).set p BR_STAT_TAGS 0).irq p INT_BR_PEER_DOWN
    if b < 2 then (s4.err p 0x0233 0).powerDieLost b
    else if s4.on pTBR TBR_CMD_BUSY then s4.windowEnds 1 0x08 else s4

/-- The module writes its side into a power die whose bridge is up, once pairing has set it (R314). -/
def State.writeSide (s : State) (d : Nat) : State :=
  if s.twin.sideSet && s.dieOn d && s.on (pDBR d) BR_STAT_UP then
    s.modDie d fun z => { z with side := some (s.get pTWR TWR_STAT_SIDE) }
  else s

/-- Codes that the die queued are posted in order (spec/08 R272). -/
def State.postQueued (s : State) (d : Nat) : State :=
  { s.modDie d fun z => { z with queue := [] } with posts := s.posts ++ (s.die d).queue }

/-- TWIN_CLAIM is driven in HEADSTOCK, HS_ALONE and CLAIMING (R316). -/
def State.claimWanted (s : State) : Bool := s.roleRuns && (s.isHeadstock || s.role == rCLAIMING)

/-- A claim that die A drives again in CLAIMING starts then (R327, Table 10-7). -/
def State.claimStarts (s : State) : State :=
  if s.role = rCLAIMING ∧ s.claim ∧ s.twin.claimAt.isNone then { s with twin.claimAt := some s.tb.clocks } else s

/-- The handshake of a bridge completes (R313). -/
def State.bridgeComesUp (s : State) (b : Nat) : State :=
  let p := pBR b
  if s.on p BR_STAT_UP || !s.brLink b then s
  else
    let s1 := s.modBridge b fun _ => BridgeState.init
    let s2 := (((s1.set p BR_STAT_UP 1).set p BR_STAT_PEER_DOWN 0).irq p INT_BR_PEER_UP).showBridge b
    if b < 2 then
      let s3 := ((s2.modDie b fun z => { z with lost := false }).postQueued b).writeSide b
      let s4 := s3.each ((List.range 12).filter fun n => xcvrDie n == some b) fun s n => s.canXcvrBack n
      let s5 := s4.each ((List.range 8).filter fun n => linDie n == b) fun s n => s.linXcvrBack n
      if b = 0 then (s5.driveClaim s5.claimWanted).claimStarts else s5
    else s2

def execBridgeUp (clocks : Nat) (br : Fin 3) (s : State) : Host.Outcome State Fault Refusal :=
  .next ((s.advance clocks).bridgeComesUp br.val)

/-- No CTL flit on a die bridge for 4 µs (R305). -/
def execDieBridgePeerTimeout (clocks : Nat) (die : Fin 2) (s : State) : Host.Outcome State Fault Refusal :=
  .next (
    let s1 := s.advance clocks
    if s1.up.compute then s1.peerDown die.val else s1)

/-! Completions (R308-R311). -/

/-- The lowest tag that is neither outstanding nor retired. -/
def State.freeTag (s : State) (b : Nat) : Option Nat :=
  (List.range 64).find? fun t => !(s.bridge b).tags.any (fun e => e.1 == t) && !(s.bridge b).retired.contains t

/-- The address of the window (36 bits). -/
def State.windowAddr (s : State) : Nat := (s.rd pTBR TBR_ADDR_LO).toNat + s.get pTBR TBR_ADDR_HI_V * 2 ^ 32

/-- Body of a request (Table 10-5): address, world and VM, agent, reserved byte, data. -/
def requestBody (addr world vmNo agent : Nat) (data : List Nat) : List Nat :=
  bytesBE 5 addr ++ [world + 16 * vmNo, agent % 256, 0] ++ data

/-- The window's request goes out with a tag, or as a posted write, or waits for a tag (R308, R311, Table 10-6). -/
def State.issueWindow (s : State) : State :=
  let addr := s.windowAddr
  let world := s.get pTBR OWNER_WORLD
  let vmNo := s.get pTBR OWNER_VM % 16
  let agent := s.phoask.winAgent
  let write := s.get pTBR TBR_CMD_OP == 2
  let data := if write then bytesBE 4 (s.rd pTBR TBR_WDATA).toNat else []
  let body := requestBody addr world vmNo agent data
  if !s.brUp 2 then s.windowEnds 1 0x08
  else if write && s.inBulk 2 addr then (s.sendRsv 2 0 2 body true 0).windowEnds 0 0
  else
    match s.freeTag 2 with
    | none => { s with phoask.winWait := true }
    | some t =>
      let s1 := s.modBridge 2 fun z => { z with tags := z.tags ++ [(t, addr)] }
      ({ s1 with phoask.winWait := false }).sendRsv 2 0 (if write then 2 else 1) body false t

/-- A write of TBR_CMD (Table 10-12): GO starts the access; while BUSY = 1 the write is refused with 0x7010 (spec/02 R603). -/
def tbrCmdEff (agent : Nat) (v : Word) (s : State) : State :=
  if v.getLsbD 16 then
    (if s.on pTBR TBR_CMD_BUSY then (s.err pTBR 0x7010 (s.windowAddr % 2 ^ 32)).refused
     else
      let s1 := ((s.plain pTBR TBR_CMD v).set pTBR TBR_CMD_BUSY 1).set pTBR TBR_CMD_RESULT 0
      ({ s1.set pTBR TBR_CMD_CAUSE 0 with phoask.winAgent := agent }).issueWindow)
  else if s.on pTBR TBR_CMD_BUSY then s
  else s.plain pTBR TBR_CMD v

/-- GO needs a valid operation. -/
def tbrCmdPre (v : Word) (_ : State) : Option Nat :=
  if v.getLsbD 16 && (bitsOf v.toNat 0 2 == 0 || bitsOf v.toNat 0 2 == 3) then some 0x0B else none

def execTbrRead (a : Access) (v : Word) (s : State) : Host.Outcome State Fault Refusal :=
  .next (s.regWrite a pTBR TBR_CMD v (tbrCmdPre v) (tbrCmdEff a.agent v))

def execTbrWrite (a : Access) (v : Word) (s : State) : Host.Outcome State Fault Refusal :=
  .next (s.regWrite a pTBR TBR_CMD v (tbrCmdPre v) (tbrCmdEff a.agent v))

/-- A tag is given back; a window access that waits for one goes out. -/
def State.tagFreed (s : State) (b : Nat) (t : Nat) : State :=
  let s1 := (s.modBridge b fun z =>
    { z with tags := z.tags.filter fun (e : Nat × Nat) => e.1 != t, retired := z.retired.filter fun n => n != t }).showBridge b
  if b = 2 ∧ s1.phoask.winWait then s1.issueWindow else s1

/-- A completion for tag t (R308, R311): of an outstanding tag it ends the access; of a retired tag it is late. -/
def State.completion (s : State) (b t status : Nat) (data : Option Nat) : State :=
  let z := s.bridge b
  if z.tags.any fun e => e.1 == t then
    let s1 := s.tagFreed b t
    if b = 2 then
      (if status = 0 then
        (match data with
         | some d => s1.wrn pTBR TBR_RDATA d
         | none => s1).windowEnds 0 0
       else s1.windowEnds 1 status)
    else s1
  else if z.retired.contains t then (s.cnt (pBR b) BR_CNT_LATE_V).tagFreed b t
  else s

def execReadCompletion (clocks : Nat) (br : Fin 3) (tag : Fin 64) (status : Nat) (data : Word) (s : State) :
    Host.Outcome State Fault Refusal :=
  .next (
    let s1 := s.advance clocks
    if s1.brUp br.val then s1.completion br.val tag.val status (some data.toNat) else s1)

def execWriteCompletion (clocks : Nat) (br : Fin 3) (tag : Fin 64) (status : Nat) (s : State) :
    Host.Outcome State Fault Refusal :=
  .next (
    let s1 := s.advance clocks
    if s1.brUp br.val then s1.completion br.val tag.val status none else s1)

/-- A posted-write error notice (R310). -/
def execPostedWriteErrorNotice (clocks : Nat) (br : Fin 3) (status addr : Nat) (s : State) :
    Host.Outcome State Fault Refusal :=
  .next (
    let s1 := s.advance clocks
    let b := br.val
    if s1.brUp b then ((s1.postedError b status addr).irq (pBR b) INT_BR_PERR).brErr b 0x0232 0x7219 addr else s1)

/-- TMO µs without a completion (R311): the access ends with an error and its tag is retired. Accesses over the die bridges
are whole in the model, so `tag` and `addr` are those of the one that got no answer. -/
def execBridgeRequestTimeout (clocks : Nat) (br : Fin 3) (tag : Fin 64) (addr : Nat) (s : State) :
    Host.Outcome State Fault Refusal :=
  .next (
    let s1 := s.advance clocks
    let b := br.val
    let out := (s1.bridge b).tags.find? fun e => e.1 == tag.val
    if s1.brUp b && (b < 2 || out.isSome) then
      let loc := match out with | some e => e.2 | none => addr
      let s2 := (s1.modBridge b fun z =>
        { z with tags := z.tags.filter fun (e : Nat × Nat) => e.1 != tag.val
                 retired := (z.retired.filter fun n => n != tag.val) ++ [tag.val] }).showBridge b
      let s3 := ((s2.cnt (pBR b) BR_CNT_TMO_V).irq (pBR b) INT_BR_TMO).brErr b 0x0231 0x721A loc
      if b < 2 then s3.refused else s3.windowEnds 2 0
    else s1)

/-- A bulk window register: BASE_LO, BASE_HI or SIZE (R308, R310). -/
def bulkOff (w reg : Nat) : Nat := BULK_BASE_LO 0 + 16 * w + 4 * reg

def execBulkWindowWrite (a : Access) (br : Fin 3) (w : Fin 8) (reg : Fin 3) (v : Word) (s : State) :
    Host.Outcome State Fault Refusal :=
  .next (
    let p := pBR br.val
    let off := bulkOff w.val reg.val
    s.regWrite a p off v noCause fun s => s.plain p off v)

def brCntClrEff (b : Nat) (v : Word) (s : State) : State :=
  if v.getLsbD 0 then
    s.each [BR_CNT_PERR, BR_CNT_TMO, BR_CNT_LATE, BR_CNT_REPLAY, BR_PERR_ADDR, BR_PERR_INFO] fun s off => s.wrn (pBR b) off 0
  else s

def execBrCntClr (a : Access) (br : Fin 3) (v : Word) (s : State) : Host.Outcome State Fault Refusal :=
  .next (s.regWrite a (pBR br.val) BR_CNT_CLR v noCause (brCntClrEff br.val v))

end Sys2Proof.Machine
end

