-- ==== Sys2Proof/Machine/Cores.lean ====
section
/-!
DEFINITION. Cores, interrupts and mailboxes (spec/12 R367-R392): starting and resetting cores, routing and delivery of
interrupt lines, core-local lines, cache errors, and the 32 mailbox channels with their send tests.
-/

namespace Sys2Proof.Machine

/-! Pair states (spec/11 Table 11-8). -/
abbrev cDOWN : Nat := 0
abbrev cSPLIT : Nat := 1
abbrev cCOMPARED : Nat := 2
abbrev cRESTART : Nat := 3
abbrev cUNCOMPARED : Nat := 4
abbrev cHALTED : Nat := 5

def State.pairState (s : State) (k : Nat) : Nat := s.get (pCAL k) BLK_STAT_STATE

def State.setPair (s : State) (k st : Nat) : State :=
  let s1 := s.set (pCAL k) BLK_STAT_STATE st
  let s2 := s1.set pCALC ⟨CALC_STAT, 8 + k, 1⟩ (st == cUNCOMPARED).toNat
  s2.set pCALC ⟨CALC_STAT, 16 + k, 1⟩ (st == cHALTED).toNat

def CalState.init : CalState :=
  { held := [], sigLead := 2 ^ 64 - 1, sigTrail := 2 ^ 64 - 1, retired := 0, seq := 0, due := [], closing := none
    irqs := [], recent := [], since := 0 }

def State.calOf (s : State) (k : Nat) : CalState := nth s.cal k CalState.init

def State.setCal (s : State) (k : Nat) (c : CalState) : State := { s with cal := setNth s.cal k c }

def CoreState.init : CoreState :=
  { latch := false, vmReg := 0, secDeadline := none, normDeadline := none, quantum := 0, localLines := [], delivered := []
    active := [], sendWords := List.replicate 16 0, sendResult := 0, aborted := 0, waitFor := 32
    perf := List.replicate 7 0, perfSel := List.replicate 6 0 }

def State.core (s : State) (c : Nat) : CoreState := nth s.cores c CoreState.init

def State.modCore (s : State) (c : Nat) (f : CoreState → CoreState) : State := { s with cores := modNth s.cores c f }

def insertLine (l : Nat) (ls : List Nat) : List Nat := if ls.contains l then ls else ls ++ [l]

/-- A core-local line of a core is asserted (R377). -/
def State.coreLocal (s : State) (c l : Nat) : State :=
  s.modCore c fun k => { k with localLines := insertLine l k.localLines }

/-- A wake event reaches an agent in a domain that waits for one: POLICY reads 0b00 again (spec/17 R500). -/
def State.wakeDomain (s : State) (d : Nat) : State :=
  if s.get pPWR (PWR_DOM_POLICY d) = 1 then s.set pPWR (PWR_DOM_POLICY d) 0 else s

/-- A core leaves its wait state; its clock and its domain come on (R388). -/
def State.wakeCore (s : State) (c : Nat) : State :=
  let s1 := s.set (pCORE c) CORE_STAT_WAITING 0
  let s2 := { s1 with shell.idle := s1.shell.idle.filter fun p => p != pCORE c }
  if c < 8 then s2.wakeDomain (c / 2) else s2

/-- A mailbox wake event to an agent (R388); a gateway engine has no core-local line. -/
def State.wakeEvent (s : State) (g : Nat) : State :=
  match agentCore g with
  | some c => (s.coreLocal c 5).wakeCore c
  | none =>
    if 0x30 ≤ g ∧ g < 0x34 then
      { s.wakeDomain 6 with shell.idle := (s.wakeDomain 6).shell.idle.filter fun p => p != pPEG (g - 0x30) }
    else s

/-! Mailbox channels. -/

/-- CROSS of a channel and of its peer clears when FULL clears (R391); cores that wait for its space are woken (R389). -/
def State.channelEmptied (s : State) (ch : Nat) : State :=
  let p := pMBC ch
  let s1 := if s.on p MB_STAT_CROSS then
      (s.set p MB_STAT_CROSS 0).set (pMBC (s.get p MB_CFG_PEER)) MB_STAT_CROSS 0 else s
  s1.each (List.range 13) fun s c =>
    if (s.core c).waitFor = ch then (s.modCore c fun k => { k with waitFor := 32 }).wakeEvent (coreAgent c) else s

/-- A receiver reset of a channel (R390). -/
def State.receiverReset (s : State) (ch : Nat) : State :=
  let p := pMBC ch
  if s.on p MB_STAT_FULL then
    let sender := s.get p MB_STAMP_V % 256
    let s1 := (s.set p MB_STAT_FULL 0).set p MB_STAT_LEN 0
    let s2 := s1.each (List.range 16) fun s k => s.wr p (MB_DATA k) 0
    let s3 := (s2.wr p MB_STAMP 0).channelEmptied ch
    let s4 := match agentCore sender with
      | some c => (s3.modCore c fun k => { k with aborted := k.aborted ||| 2 ^ ch }).coreLocal c 6
      | none => s3
    (s4.cnt pMBX ⟨MBX_CNT_ABORT, 0, 32⟩).err pMBX 0x0011 ch
  else
    let s1 := s.each (List.range 16) fun s k => s.wr p (MB_DATA k) 0
    s1.wr p MB_STAMP 0

/-- The receiver resets of every channel of an agent. -/
def State.agentReset (s : State) (g : Nat) : State :=
  s.each (List.range 32) fun s ch => if s.get (pMBC ch) MB_CFG_RX_AGENT = g then s.receiverReset ch else s

/-- The permission bit of a sending agent in MB_ALLOW (Table 12-10). -/
def State.allowsAgent (s : State) (p g : Nat) : Bool :=
  let a := (s.rd p MB_ALLOW).toNat
  if g < 8 then a.testBit g
  else if 0x10 ≤ g ∧ g < 0x14 then a.testBit (8 + (g - 0x10))
  else if g = 0x20 then a.testBit 12
  else if 0x30 ≤ g ∧ g < 0x34 then a.testBit (16 + (g - 0x30))
  else g == 0x60 && a.testBit 24

/-- The result of the tests of Table 12-6, in their order; 0 is accepted. -/
def State.sendTest (s : State) (g world ch len : Nat) : Nat :=
  let p := pMBC ch
  let rx := s.get p MB_CFG_RX_AGENT
  if len = 0 ∨ 16 < len then 5
  else if !channelOpen rx || !s.agentUp rx then 4
  else if !s.allowsAgent p g || !(s.rd p MB_ALLOW).toNat.testBit (28 + world) then 3
  else if s.on p MB_STAT_FULL then 2
  else 0

/-- The receiver is told of a message (R388). -/
def State.notifyReceiver (s : State) (ch : Nat) : State :=
  let s1 := s.set pMBX ⟨MBX_DB, ch, 1⟩ 1
  if s1.on pMBX MBX_CTRL_SVC then s1.wakeEvent (s1.get (pMBC ch) MB_CFG_RX_AGENT)
  else if (s1.rd pMBX MBX_DB_MASK).toNat.testBit ch then s1.irq pMBX INT_MBX_DOORBELL
  else s1

/-- A message is accepted: words copied, words beyond LEN 0, stamp, arrival time, FULL (R384, R385). -/
def State.acceptMessage (s : State) (g world vmNo ch len : Nat) (words : List Nat) : State :=
  let p := pMBC ch
  let s1 := s.each (List.range 16) fun s k => s.wrn p (MB_DATA k) (if k < len then nth words k 0 else 0)
  let s2 := s1.wrn p MB_STAMP (world * 0x1000 + (vmNo % 16) * 0x100 + g % 256)
  let s3 := (s2.wrn p MB_TS_S (stampSec s.nowQ)).wrn p MB_TS_NS (stampNs s.nowQ)
  let s4 := (s3.set p MB_STAT_LEN len).set p MB_STAT_FULL 1
  ((s4.cnt p MB_CNT_ACC).irq p INT_MBC_NEW).notifyReceiver ch

/-- A send: its tests, its effect and its result (R384). -/
def State.mailSend (s : State) (g world vmNo ch len : Nat) (words : List Nat) : State × Nat :=
  let r := s.sendTest g world ch len
  if r = 0 then (s.acceptMessage g world vmNo ch len words, 0)
  else (((s.cnt (pMBC ch) MB_CNT_REF).cnt pMBX ⟨MBX_CNT_REF, 0, 32⟩).irq (pMBC ch) INT_MBC_REFUSED, r)

/-! Performance counters (R381, spec/13 R412). -/

/-- The counters of a core count: it runs in the normal world, and not as the trailing core of a compared pair. -/
def State.counts (s : State) (c : Nat) : Bool := s.agentUp (coreAgent c) && !s.trailing c && (s.core c).latch

/-- Event counters that count a module event advance by 1, modulo 2^64. -/
def CoreState.countEvent (k : CoreState) (code : Nat) : CoreState :=
  { k with perf := nth k.perf 0 0 :: (List.range 6).map fun j =>
      (nth k.perf (j + 1) 0 + (nth k.perfSel j 0 == code).toNat) % 2 ^ 64 }

/-- Some counter of the event is at its last value. -/
def CoreState.wraps (k : CoreState) (code : Nat) : Bool :=
  (List.range 6).any fun j => nth k.perfSel j 0 == code && nth k.perf (j + 1) 0 == 2 ^ 64 - 1

/-- A module event of Table 12-5 at a core, caused in a world; one of the secure world is not counted (spec/13 R412). -/
def State.countEvent (s : State) (c world code : Nat) : State :=
  if s.counts c && world != 0 then
    let s1 := s.modCore c fun k => k.countEvent code
    if (s.core c).wraps code then s1.coreLocal c 4 else s1
  else s

/-- What a read of counter k of a core shows (spec/13 R412): 0 to the normal world, and to the debug agent with ISO_DBG.WORLD not 0b00,
while the core runs in the secure world. No row of the table reads a system register of a core. -/
def State.counterShown (s : State) (a : Access) (c k : Nat) : Nat :=
  if lvWorld (s.levelOf a) != 0 && !(s.core c).latch then 0 else nth (s.core c).perf k 0

/-- A send of a core leaves it: the result stands in MBS_STAT (R384). -/
def State.coreSend (s : State) (a : Access) (ch len : Nat) (words : List Nat) : State :=
  let (s1, r) := s.mailSend a.agent (lvWorld (s.levelOf a)) (lvVm (s.levelOf a)) ch len words
  match agentCore a.agent with
  | some c =>
    (s1.modCore c fun k => { k with sendResult := r }).countEvent c (lvWorld (s.levelOf a)) (if r = 0 then 0x86 else 0x87)
  | none => s1

/-- An entry of a pair's write-hold buffer is taken, if one of the 4,096 is free (spec/11 R347). -/
def State.holdEntry (s : State) (k : Nat) (h : Held) : State :=
  let c := s.calOf k
  if 4096 ≤ c.held.length then s
  else
    let s1 := s.setCal k { c with held := c.held ++ [h] }
    let s2 := s1.set (pCAL k) CAL_WH_USED (c.held.length + 1)
    s2.stat (pCAL k) CAL_WH_PEAK (max (s2.get (pCAL k) CAL_WH_PEAK) (c.held.length + 1))

/-- A trigger of Table 11-2 waits for the pair's next checkpoint (spec/11 R350, R351). -/
def State.trigger (s : State) (k code : Nat) : State :=
  let c := s.calOf k
  if c.due.contains code then s else s.setCal k { c with due := c.due ++ [code] }

/-- The pair that a core leads while it runs compared or uncompared: what leaves it is held. -/
def State.leads (s : State) (c : Nat) : Option Nat :=
  if s.inPair c && c % 2 == 0 then pairOf c else none

/-- A write of MBS_GO (R383, R386). The agents that have a send port are the cores. -/
def execMbsGo (a : Access) (v : Word) (s : State) : Host.Outcome State Fault Refusal :=
  .next (
    match agentCore a.agent with
    | none => s
    | some c =>
      if !s.agentUp a.agent then s
      else
        let ch := bitsOf v.toNat 0 5
        let len := bitsOf v.toNat 16 5
        let words := (s.core c).sendWords
        match s.leads c with
        | none => s.coreSend a ch len words
        | some k =>
          if s.pairState k = cCOMPARED ∨ s.pairState k = cUNCOMPARED then
            if 4096 ≤ (s.calOf k).held.length then s
            else
              let s1 := (s.holdEntry k (.send a ch len words)).modCore c fun x => { x with sendResult := 1 }
              if s1.on (pCAL k) CAL_CTRL_PER_CKPT then s1.trigger k 8 else s1
          else s)

/-- A debug send: the words of the debug window, stamped world 0b00, VM 0, agent 0x60 (R383, R385). -/
def mbDbgSendEff (ch : Nat) (v : Word) (s : State) : State :=
  let words := (List.range 16).map fun k => (s.rd (pMBC ch) (MB_DBG_DATA k)).toNat
  (s.mailSend 0x60 0 0 ch (bitsOf v.toNat 16 5) words).1

def execMbDbgSend (a : Access) (ch : Fin 32) (v : Word) (s : State) : Host.Outcome State Fault Refusal :=
  .next (s.regWrite a (pMBC ch.val) MB_DBG_SEND v noCause (mbDbgSendEff ch.val v))

/-- A debug send word is written; it reads 0 (Table 12-9). -/
def mbDbgDataEff (p off : Nat) (v : Word) (s : State) : State := s.wr p off v

/-- The take (R387). -/
def takeEff (ch : Nat) (s : State) : State :=
  if s.on (pMBC ch) MB_STAT_FULL then
    let s1 := (s.set (pMBC ch) MB_STAT_FULL 0).set (pMBC ch) MB_STAT_LEN 0
    (s1.irq (pMBC ch) INT_MBC_SPACE).channelEmptied ch
  else s

def execMbTakeRead (a : Access) (ch : Fin 32) (s : State) : Host.Outcome State Fault Refusal :=
  .next (s.regRead a (pMBC ch.val) MB_TAKE (takeEff ch.val))

/-- A core arms or disarms its wait for space (R389) and, arming it, enters its wait state. -/
def execMbsWait (core : Fin 13) (v : Word) (s : State) : Host.Outcome State Fault Refusal :=
  .next (
    if !s.agentUp (coreAgent core.val) then s
    else if v.toNat < 32 then
      (s.modCore core.val fun k => { k with waitFor := v.toNat }).set (pCORE core.val) CORE_STAT_WAITING 1
    else if v.toNat = 32 then
      (s.modCore core.val fun k => { k with waitFor := 32 }).set (pCORE core.val) CORE_STAT_WAITING 0
    else s)

/-- Writing ones to MBS_ABORT clears the notices; without any, IRQ_6 falls (R390). -/
def execMbsAbortClear (core : Fin 13) (v : Word) (s : State) : Host.Outcome State Fault Refusal :=
  .next (
    if !s.agentUp (coreAgent core.val) then s
    else s.modCore core.val fun k =>
      let left := k.aborted &&& (2 ^ 32 - 1 - v.toNat)
      { k with
        aborted := left
        localLines := if left = 0 then k.localLines.filter fun l => l != 6 else k.localLines })

/-- Channels i and j form a pair (R391). -/
def State.paired (s : State) (i j : Nat) : Bool :=
  s.on (pMBC i) MB_CFG_PEER_EN && s.on (pMBC j) MB_CFG_PEER_EN
    && s.get (pMBC i) MB_CFG_PEER == j && s.get (pMBC j) MB_CFG_PEER == i

/-- The receiver of a channel waits for space in another. -/
def State.receiverWaits (s : State) (i j : Nat) : Bool :=
  match agentCore (s.get (pMBC i) MB_CFG_RX_AGENT) with
  | some c => (s.core c).waitFor == j
  | none => false

/-- A crossed wait holds (R391). -/
def State.crossed (s : State) (i j : Nat) : Bool :=
  s.paired i j && s.on (pMBC i) MB_STAT_FULL && s.on (pMBC j) MB_STAT_FULL && s.receiverWaits i j && s.receiverWaits j i

/-- What a crossed wait does at one of its channels. -/
def State.crossOne (s : State) (i : Nat) : State :=
  let s1 := (s.set (pMBC i) MB_STAT_CROSS 1).irq (pMBC i) INT_MBC_CROSS
  match agentCore (s1.get (pMBC i) MB_CFG_RX_AGENT) with
  | some c => ((s1.modCore c fun k => { k with waitFor := 32 }).coreLocal c 7).wakeCore c
  | none => s1

def execCrossedWait (i j : Fin 32) (s : State) : Host.Outcome State Fault Refusal :=
  .next (
    if s.crossed i.val j.val && !s.on (pMBC i.val) MB_STAT_CROSS then
      ((s.crossOne i.val).crossOne j.val).err pMBX 0x0212 0
    else s)

def mbxCntClrEff (v : Word) (s : State) : State :=
  if v.getLsbD 0 then (s.wr pMBX MBX_CNT_REF 0).wr pMBX MBX_CNT_ABORT 0 else s

def execMbxCntClr (a : Access) (v : Word) (s : State) : Host.Outcome State Fault Refusal :=
  .next (s.regWrite a pMBX MBX_CNT_CLR v noCause (mbxCntClrEff v))

/-! Cores. -/

/-- The reset of one core (spec/17 Table 17-9): the core, its interrupt interface and send port, and the messages it should
have received. -/
def State.clearCore (s : State) (c : Nat) : State :=
  let s1 := (s.set (pCORE c) CORE_STAT_RUNNING 0).set (pCORE c) CORE_STAT_WAITING 0
  let s2 := (s1.set (pCORE c) CORE_CTRL_RUN 0).modCore c fun _ => CoreState.init
  s2.agentReset (coreAgent c)

/-- The reset of the cores of a pair takes its pair state to DOWN (spec/11 Table 11-8). -/
def State.pairDown (s : State) (k : Nat) : State :=
  ((s.setPair k cDOWN).setCal k CalState.init).set (pCAL k) CAL_WH_USED 0

/-- CORE_CTRL.RST: the core, both cores of a compared pair (R507). -/
def State.resetCore (s : State) (c : Nat) : State :=
  let s1 := match s.leads c with
    | some _ => (s.clearCore c).clearCore (c + 1)
    | none => s.clearCore c
  match pairOf c with
  | some k => s1.pairDown k
  | none => s1

/-- The state of a pair at reset release (Table 11-8). -/
def State.pairRelease (s : State) (k : Nat) : State :=
  if s.pairState k = cDOWN then
    (if (s.get pCALC CALC_STAT_CFAULT).testBit k then s.setPair k cHALTED
     else if (s.get pCALC CALC_ACT_CMP).testBit k then s.setPair k cCOMPARED
     else s.setPair k cSPLIT)
  else s

/-- Cores stand still: an unlock of the test port has stopped them, or its clearing and verification run (spec/15 R458,
R459). -/
def State.coresHeld (s : State) : Bool := s.sec.stopped || s.get pLCS LCS_STAT_TEST == 1 || s.get pLCS LCS_STAT_TEST == 2

/-- The reset domain of a core is out of reset. -/
def State.coreReleased (s : State) (c : Nat) : Bool :=
  !s.coresHeld && (if c < 8 then s.up.cluster else if c < 12 then nth s.up.rp ((c - 8) / 2) false else s.up.compute)

/-- CORE_BOOT (R369). -/
def State.bootOf (s : State) (c : Nat) : Nat :=
  s.get (pCORE c) CORE_BOOT_LO_ADDR * 4 + s.get (pCORE c) CORE_BOOT_HI_ADDR * 2 ^ 32

/-- A core begins at its start address. -/
def State.startOne (s : State) (c boot : Nat) : State :=
  (s.set (pCORE c) CORE_STAT_RUNNING 1).emit (.coreStart c boot)

/-- RUN = 1 starts a core, or both cores of a compared pair together (R369). A halted pair does not start. -/
def State.startCore (s : State) (c : Nat) : State :=
  if !s.coreReleased c || s.on (pCORE c) CORE_STAT_RUNNING then s
  else
    let s1 := match pairOf c with | some k => s.pairRelease k | none => s
    match pairOf c with
    | some k =>
      if s1.pairState k = cHALTED then s1
      else if s1.inPair c then (s1.startOne c (s1.bootOf c)).startOne (c + 1) (s1.bootOf c)
      else s1.startOne c (s1.bootOf c)
    | none => s1.startOne c (s1.bootOf c)

/-- CORE_CTRL of SC, and the control registers of a trailing core, refuse writes (R340, R369). -/
def coreCtrlPre (c : Nat) (s : State) : Option Nat := if c = 12 ∨ s.trailing c then some 0x0B else none

/-- The other control registers of a trailing core's page (R340). -/
def coreBootPre (c : Nat) (s : State) : Option Nat := if s.trailing c then some 0x0B else none

def coreCtrlEff (c : Nat) (v : Word) (s : State) : State :=
  let s1 := if v.getLsbD 1 then s.resetCore c else s
  let s2 := s1.set (pCORE c) CORE_CTRL_RUN (bitsOf v.toNat 0 1)
  if v.getLsbD 0 then s2.startCore c else s2

def execCoreRun (a : Access) (core : Fin 13) (v : Word) (s : State) : Host.Outcome State Fault Refusal :=
  .next (s.regWrite a (pCORE core.val) CORE_CTRL v (coreCtrlPre core.val) (coreCtrlEff core.val v))

def execCoreRst (a : Access) (core : Fin 13) (v : Word) (s : State) : Host.Outcome State Fault Refusal :=
  .next (s.regWrite a (pCORE core.val) CORE_CTRL v (coreCtrlPre core.val) (coreCtrlEff core.val v))

/-! Interrupts. -/

/-- The world that a line has after a write of its entry. -/
def State.lineWorldAfter (s : State) (l : Nat) (v : Word) : Nat :=
  if lineWorldRw l then bitsOf v.toNat 12 2 else s.lineWorld l

/-- What a write of a line entry may not name (R378); the target of a core-local line is ignored (R377). -/
def linePre (l : Nat) (v : Word) (s : State) : Option Nat :=
  let t := bitsOf v.toNat 0 5
  if lineWorldRw l && bitsOf v.toNat 12 2 == 3 then some 0x0B
  else if l < 32 ∨ t = 0x1F then none
  else if s.hz9620 && decide (4 ≤ t ∧ t < 8) then some 0x09
  else if s.trailing t || (t == 12 && s.lineWorldAfter l v != 0) then some 0x0B
  else none

/-- The new entry; the old target loses the line unless it has acknowledged it (R379). -/
def lineEff (l : Nat) (v : Word) (s : State) : State :=
  let s1 := s.plain pINTC (LINE l) v
  let s2 := if lineWorldRw l then s1 else s1.set pINTC (LINE_WORLD l) (s.get pINTC (LINE_WORLD l))
  { s2 with cores := s2.cores.map fun k => { k with delivered := k.delivered.filter fun x => x != l } }

def execIntcLineWrite (a : Access) (line : Fin 512) (v : Word) (s : State) : Host.Outcome State Fault Refusal :=
  .next (s.regWrite a pINTC (LINE line.val) v (linePre line.val v) (lineEff line.val v))

def swraisePre (v : Word) (_ : State) : Option Nat :=
  if decide (480 ≤ v.toNat ∧ v.toNat ≤ 511) then none else some 0x0B

def swraiseEff (v : Word) (s : State) : State := { s with swLines := insertLine v.toNat s.swLines }

def execIntcSwraise (a : Access) (v : Word) (s : State) : Host.Outcome State Fault Refusal :=
  .next (s.regWrite a pINTC INTC_SWRAISE v (swraisePre v) (swraiseEff v))

/-- A line is asserted for a core: its own core-local line, or a line whose entry names it. -/
def State.lineFor (s : State) (c l : Nat) : Bool :=
  s.on pINTC (LINE_EN l) &&
    (if l < 32 then (s.core c).localLines.contains l else s.get pINTC (LINE_TARGET l) == c && s.lineAsserted l)

/-- The order in which a core receives lines: PRIO, then line number (R378). -/
def State.lineKey (s : State) (l : Nat) : Nat := s.get pINTC (LINE_PRIO l) * 512 + l

def minBy (f : Nat → Nat) : List Nat → Option Nat
  | [] => none
  | x :: xs =>
    match minBy f xs with
    | none => some x
    | some y => if f y < f x then some y else some x

/-- The line that a core receives next. -/
def State.nextLine (s : State) (c : Nat) : Option Nat :=
  let k := s.core c
  minBy s.lineKey ((List.range 512).filter fun l => s.lineFor c l && !k.delivered.contains l && !k.active.contains l)

/-- A core's interrupt interface takes lines while the core runs; a pair that restarts or is halted leaves them pending
(R343, Table 11-7). -/
def State.takesLines (s : State) (c : Nat) : Bool :=
  s.agentUp (coreAgent c) && !s.trailing c &&
    (match s.leads c with
     | some k => s.pairState k == cCOMPARED || s.pairState k == cUNCOMPARED
     | none => true)

def execInterruptDelivery (core : Fin 13) (s : State) : Host.Outcome State Fault Refusal :=
  .next (
    if s.takesLines core.val then
      match s.nextLine core.val with
      | some l => s.modCore core.val fun k => { k with delivered := k.delivered ++ [l] }
      | none => s
    else s)

/-- A core acknowledges a line: a software-raised line and a core-local line stop pending (R380); IRQ_6 stays asserted while MBS_ABORT
holds a notice (R390). -/
def State.ackLine (s : State) (c l : Nat) : State :=
  let s1 := s.modCore c fun k =>
    { k with
      active := k.active ++ [l]
      delivered := k.delivered.filter fun x => x != l
      localLines := k.localLines.filter fun x => x != l || (l == 6 && k.aborted != 0) }
  { s1 with swLines := s1.swLines.filter fun x => x != l }

/-- Lines delivered to a core that are still asserted for it, in the order of R378. -/
def State.presented (s : State) (c : Nat) : Option Nat :=
  minBy s.lineKey ((s.core c).delivered.filter fun l => s.lineFor c l)

def execInterruptAck (core : Fin 13) (ends : Bool) (s : State) : Host.Outcome State Fault Refusal :=
  .next (
    if !s.takesLines core.val then s
    else if ends then s.modCore core.val fun k => { k with active := k.active.dropLast }
    else
      match s.presented core.val with
      | some l => s.ackLine core.val l
      | none => s.modCore core.val fun k => { k with delivered := [] })

/-- The deadline has come. -/
def State.deadlineDue (s : State) (d : Option Nat) : Bool :=
  match d with
  | some t => decide (t ≤ s.nowQ)
  | none => false

/-- A core-local timer asserts its line (R377, Table 12-4). -/
def execCoreTimerExpiry (clocks : Nat) (core : Fin 13) (t : CoreTimer) (s : State) : Host.Outcome State Fault Refusal :=
  .next (
    let c := core.val
    let s1 := s.advance clocks
    if !s1.agentUp (coreAgent c) || s1.trailing c then s1
    else
      match t with
      | .secureDeadline =>
        if s1.deadlineDue (s1.core c).secDeadline then
          (s1.modCore c fun k => { k with secDeadline := none }).coreLocal c 0 else s1
      | .normalDeadline =>
        if s1.deadlineDue (s1.core c).normDeadline then
          (s1.modCore c fun k => { k with normDeadline := none }).coreLocal c 1 else s1
      | .quantum => if (s1.core c).quantum != 0 && (s1.core c).latch then s1.coreLocal c 2 else s1
      | .tick => if s1.plate.started && decide (s1.plate.acted < 2) then s1.coreLocal c 3 else s1)

/-- The cycle tick: the plate's boundary is delivered to every core (Table 12-4). -/
def State.cycleTick (s : State) : State :=
  s.each (List.range 13) fun s c => if s.agentUp (coreAgent c) && !s.trailing c then s.coreLocal c 3 else s

/-- A counter overflows: it wraps and IRQ_4 of its core is asserted, on the leading core of a pair (R381). In the secure world the
counters hold and raise none (spec/13 R412). -/
def execCounterOverflow (core : Fin 13) (k : Fin 7) (s : State) : Host.Outcome State Fault Refusal :=
  .next (
    if s.counts core.val then
      (s.modCore core.val fun c => { c with perf := setNth c.perf k.val 0 }).coreLocal core.val 4
    else s)

/-- A cache error (R376); ERR_ADDR of the SYS page holds bits [31:0] of the line's address. -/
def execCacheError (e : CacheErr) (addr : Nat) (s : State) : Host.Outcome State Fault Refusal :=
  .next (
    let line := addr / 32 * 32
    if !s.up.compute then s
    else
      match e with
      | .instructionParity => s.err pSYS 0x0113 (line % 2 ^ 32)
      | .corrected => s.err pSYS 0x0113 (line % 2 ^ 32)
      | .clean => s.err pSYS 0x0114 (line % 2 ^ 32)
      | .dirty => { s.err pSYS 0x0315 (line % 2 ^ 32) with poisonLines := insertLine line s.poisonLines })

end Sys2Proof.Machine
end

