-- ==== Sys2Proof/Machine/Isolation.lean ====
section
/-!
DEFINITION. Commands of isolation (spec/13 R401-R417): invalidations, captured faults, the tenant-manager mailboxes, the
dirty-page log and the quiesce of a host instance.
-/

namespace Sys2Proof.Machine

/-! Invalidation (R403, R405). -/

def vmcInvPre (n : Nat) (v : Word) (s : State) : Option Nat :=
  if v.getLsbD 16 && (s.on (pVMC n) VMC_INV_BUSY || bitsOf v.toNat 0 2 == 0 || bitsOf v.toNat 0 2 == 3) then some 0x0B
  else none

def vmcInvEff (n : Nat) (v : Word) (s : State) : State :=
  let s1 := s.plain (pVMC n) VMC_INV v
  if v.getLsbD 16 then
    { s1.set (pVMC n) VMC_INV_BUSY 1 with xlat.invPage := setNth s1.xlat.invPage n (s1.get (pVMC n) VMC_INV_IPA_IPA) }
  else s1

/-- A write of VMC_INV with GO and an operation. -/
def State.vmcInv (s : State) (a : Access) (n op : Nat) : State :=
  let v : Word := BitVec.ofNat 32 (0x10000 + op)
  s.regWrite a (pVMC n) VMC_INV v (vmcInvPre n v) (vmcInvEff n v)

def execVmcInvPage (a : Access) (vmNo : Fin 16) (s : State) : Host.Outcome State Fault Refusal :=
  .next (s.vmcInv a vmNo.val 2)

def execVmcInvVm (a : Access) (vmNo : Fin 16) (s : State) : Host.Outcome State Fault Refusal :=
  .next (s.vmcInv a vmNo.val 1)

def execVmcInvDone (vmNo : Fin 16) (s : State) : Host.Outcome State Fault Refusal :=
  let p := pVMC vmNo.val
  .next (
    if s.on p VMC_INV_BUSY then
      ((s.dropXlats fun e => e.ctx == vmNo.val && (s.get p VMC_INV_OP == 1 || e.page == nth s.xlat.invPage vmNo.val 0)).set p
        VMC_INV_BUSY 0).irq p INT_VMC_INV_DONE
    else s)

def iomInvPre (v : Word) (s : State) : Option Nat :=
  if v.getLsbD 16 && (s.on pIOM IOM_INV_BUSY || bitsOf v.toNat 0 2 == 0) then some 0x0B else none

def iomInvEff (v : Word) (s : State) : State :=
  let s1 := s.plain pIOM IOM_INV v
  if v.getLsbD 16 then s1.set pIOM IOM_INV_BUSY 1 else s1

def State.iomInv (s : State) (a : Access) (op : Nat) : State :=
  let v : Word := BitVec.ofNat 32 (0x10000 + op)
  s.regWrite a pIOM IOM_INV v (iomInvPre v) (iomInvEff v)

def execIomInvHyp (a : Access) (s : State) : Host.Outcome State Fault Refusal := .next (s.iomInv a 1)

def execIomInvSecure (a : Access) (s : State) : Host.Outcome State Fault Refusal := .next (s.iomInv a 2)

def execIomInvAll (a : Access) (s : State) : Host.Outcome State Fault Refusal := .next (s.iomInv a 3)

/-- IOM_INV drops what the IOTLB holds of its contexts: 1 hypervisor, 2 secure, 3 all. -/
def execIomInvDone (s : State) : Host.Outcome State Fault Refusal :=
  let op := s.get pIOM IOM_INV_OP
  .next (
    if s.on pIOM IOM_INV_BUSY then
      ((s.dropXlats fun e => decide (e.holder < coreHolder) && (op == 3 || e.ctx == 15 + op)).set pIOM IOM_INV_BUSY 0).irq pIOM
        INT_IOM_INV_DONE
    else s)

def secTtbEff (off : Nat) (v : Word) (s : State) : State := (s.plain pISO off v).dropXlats fun e => e.ctx == 17

/-- ISO_SEC_TTB: the new base holds for every walk from now on, and the secure context is invalidated (R405). -/
def execIsoSecTtbWrite (a : Access) (high : Bool) (v : Word) (s : State) : Host.Outcome State Fault Refusal :=
  let off := if high then ISO_SEC_TTB_HI else ISO_SEC_TTB_LO
  .next (s.regWrite a pISO off v noCause (secTtbEff off v))

/-- VMC_TTB refuses writes while EN = 1 (Table 13-11). -/
def vmcTtbPre (n : Nat) (s : State) : Option Nat := if s.on (pVMC n) VMC_CTRL_EN then some 0x0B else none

/-- A secure region may not reach outside system SRAM and DRAM (R395); a region of size 0 covers nothing. -/
def rgnFits (base size : Nat) : Bool :=
  size == 0 || (decide (0x10000000 ≤ base ∧ base + size ≤ 0x11000000))
    || (decide (0x800000000 ≤ base ∧ base + size ≤ 0x900000000))

def secBasePre (r : Nat) (v : Word) (s : State) : Option Nat :=
  if rgnFits (bitsOf v.toNat 0 20 * 0x10000) (s.secSize r) then none else some 0x0B

def secSizePre (r : Nat) (v : Word) (s : State) : Option Nat :=
  if rgnFits (s.secBase r) (bitsOf v.toNat 0 20 * 0x10000) then none else some 0x0B

/-! Faults (R401, R405). -/

/-- A DMA access meets a translation fault: captured, counted and posted; a log write that faults stops the log (R415). -/
def execDmaFault (src : Fin 17) (log : Bool) (ipa : Nat) (write : Bool) (s : State) : Host.Outcome State Fault Refusal :=
  .next (
    let isLog := log && decide (src.val < 16)
    let c := if isLog then s.managerCtx src.val else s.srcCtx src.val
    match s.translate src.val c (if write then .write else .read) ipa with
    | (s1, .fault k l) =>
      let s2 := s1.dmaFaulted src.val isLog write ipa k l
      if isLog then s2.dplStop src.val else s2
    | (_, .ok _ _ _ _) => s)

def iomFltClrEff (v : Word) (s : State) : State :=
  if v.getLsbD 0 then (s.wr pIOM IOM_FLT_INFO 0).wr pIOM IOM_FLT_IPA 0 else s

def execIomFltClr (a : Access) (s : State) : Host.Outcome State Fault Refusal :=
  .next (s.regWrite a pIOM IOM_FLT_CLR 1 noCause (iomFltClrEff 1))

def vmcClrEff (n : Nat) (v : Word) (s : State) : State :=
  if v.getLsbD 0 then ((s.wr (pVMC n) VMC_FLT_INFO 0).wr (pVMC n) VMC_FLT_IPA 0).wr (pVMC n) VMC_CNT 0 else s

def execVmcClr (a : Access) (vmNo : Fin 16) (s : State) : Host.Outcome State Fault Refusal :=
  .next (s.regWrite a (pVMC vmNo.val) VMC_CLR 1 noCause (vmcClrEff vmNo.val 1))

/-! Roles of a host instance (R413). The monitor level may act in both roles. -/

def isVm : Level → Bool
  | .vm _ => true
  | _ => false

def isHyp : Level → Bool
  | .hypervisor => true
  | _ => false

def State.tenantRole (s : State) (i : Nat) (a : Access) : Bool :=
  s.get (pHIN i) OWNER_WORLD != 2 || isVm (s.levelOf a) || lvMonitor (s.levelOf a)

def State.managerRole (s : State) (i : Nat) (a : Access) : Bool :=
  s.get (pHIN i) OWNER_WORLD != 2 || isHyp (s.levelOf a) || lvMonitor (s.levelOf a)

def rolePre (tenant : Bool) (i : Nat) (a : Access) (s : State) : Option Nat :=
  if (if tenant then s.tenantRole i a else s.managerRole i a) then none else some 0x01

/-! Tenant-manager mailboxes (R414). -/

/-- Registers of a direction: control register and its fields. -/
def tmCtrl (toManager : Bool) : Nat := if toManager then TM_T2M_CTRL else TM_M2T_CTRL

def tmFULL (toManager : Bool) : Fld := ⟨tmCtrl toManager, 16, 1⟩

def tmREFUSED (toManager : Bool) : Fld := ⟨tmCtrl toManager, 17, 1⟩

def tmLEN (toManager : Bool) : Fld := ⟨tmCtrl toManager, 0, 5⟩

/-- SEND and LEN are the sender's, ACK the receiver's: a write that has no ACK writes LEN. SEND needs LEN 1 to 16. -/
def tmPre (i : Nat) (toManager : Bool) (a : Access) (v : Word) (s : State) : Option Nat :=
  let sender := if toManager then s.tenantRole i a else s.managerRole i a
  let receiver := if toManager then s.managerRole i a else s.tenantRole i a
  let len := bitsOf v.toNat 0 5
  if (v.getLsbD 8 && !sender) || (v.getLsbD 9 && !receiver) || (!v.getLsbD 8 && !v.getLsbD 9 && !sender) then some 0x01
  else if v.getLsbD 8 && (len == 0 || decide (16 < len)) then some 0x0B
  else none

def State.tmAcked (s : State) (i : Nat) (toManager : Bool) : State :=
  let s1 := (s.set (pHIN i) (tmFULL toManager) 0).set (pHIN i) (tmREFUSED toManager) 0
  if toManager then s1.irq (pHIN i) INT_HIN_TM_SPACE else s1

def State.tmSent (s : State) (i : Nat) (toManager : Bool) (len : Nat) : State :=
  if s.on (pHIN i) (tmFULL toManager) then s.set (pHIN i) (tmREFUSED toManager) 1
  else
    let s1 := (s.set (pHIN i) (tmLEN toManager) len).set (pHIN i) (tmFULL toManager) 1
    if toManager then
      let s2 := s1.set pIOM ⟨IOM_TM_PEND, i, 1⟩ 1
      if (s2.rd pIOM IOM_TM_MASK).toNat.testBit i then s2.irq pIOM INT_IOM_TM else s2
    else s1.irq (pHIN i) INT_HIN_TM_MSG

def tmEff (i : Nat) (toManager : Bool) (a : Access) (v : Word) (s : State) : State :=
  let len := bitsOf v.toNat 0 5
  let sender := if toManager then s.tenantRole i a else s.managerRole i a
  let s1 := if v.getLsbD 9 then s.tmAcked i toManager else s
  if v.getLsbD 8 then s1.tmSent i toManager len
  else if sender && !v.getLsbD 9 then s1.set (pHIN i) (tmLEN toManager) len
  else s1

def execTmSend (a : Access) (inst : Fin 16) (toManager : Bool) (v : Word) (s : State) : Host.Outcome State Fault Refusal :=
  .next (s.regWrite a (pHIN inst.val) (tmCtrl toManager) v (tmPre inst.val toManager a v) (tmEff inst.val toManager a v))

def execTmAck (a : Access) (inst : Fin 16) (toManager : Bool) (v : Word) (s : State) : Host.Outcome State Fault Refusal :=
  .next (s.regWrite a (pHIN inst.val) (tmCtrl toManager) v (tmPre inst.val toManager a v) (tmEff inst.val toManager a v))

/-! Dirty-page log and quiesce (R415, R416). -/

/-- DPL_BASE and DPL_SIZE refuse writes while logging is enabled. -/
def dplSetupPre (i : Nat) (a : Access) (s : State) : Option Nat :=
  match rolePre false i a s with
  | some c => some c
  | none => if s.on (pHIN i) DPL_CTRL_EN then some 0x0B else none

def dplTailPre (i : Nat) (a : Access) (v : Word) (s : State) : Option Nat :=
  match rolePre false i a s with
  | some c => some c
  | none => if 2 ^ (9 + s.get (pHIN i) DPL_SIZE_N) ≤ bitsOf v.toNat 0 16 then some 0x0B else none

/-- Clearing OVF starts logging again with an empty filter. -/
def dplCtrlEff (i : Nat) (v : Word) (s : State) : State :=
  let s1 := s.plain (pHIN i) DPL_CTRL v
  if v.getLsbD 8 && s.on (pHIN i) DPL_CTRL_OVF then { s1 with dplFilter := setNth s1.dplFilter i [] } else s1

def execDplOvfClear (a : Access) (inst : Fin 16) (s : State) : Host.Outcome State Fault Refusal :=
  let v : Word := BitVec.ofNat 32 (0x100 + s.get (pHIN inst.val) DPL_CTRL_EN)
  .next (s.regWrite a (pHIN inst.val) DPL_CTRL v (rolePre false inst.val a) (dplCtrlEff inst.val v))

/-- REQ quiesces or resumes; DONE follows (Table 13-8). -/
def quiesceEff (i : Nat) (v : Word) (s : State) : State :=
  let s1 := s.plain (pHIN i) HIN_QUIESCE v
  if v.getLsbD 0 && s.on (pHIN i) HIN_QUIESCE_REQ then s1 else s1.set (pHIN i) HIN_QUIESCE_DONE 0

def execHinQuiesceReq (a : Access) (inst : Fin 16) (v : Word) (s : State) : Host.Outcome State Fault Refusal :=
  .next (s.regWrite a (pHIN inst.val) HIN_QUIESCE v (rolePre false inst.val a) (quiesceEff inst.val v))

def execQuiesceDone (inst : Fin 16) (s : State) : Host.Outcome State Fault Refusal :=
  let p := pHIN inst.val
  .next (
    if s.on p HIN_QUIESCE_REQ && !s.on p HIN_QUIESCE_DONE then (s.set p HIN_QUIESCE_DONE 1).irq p INT_HIN_QUIESCED
    else s)

end Sys2Proof.Machine
end

