-- ==== Sys2Proof/Machine/Memory.lean ====
section
/-!
DEFINITION. Memory (spec/14 R418-R437, spec/02 R604): the DRAM codeword and its decoding, scrubbing, on-chip errors, core
accesses to the memory regions, the NOR dies and the fuse array.
-/

namespace Sys2Proof.Machine

/-! The DRAM codeword (R419, Table 14-1): D[63:0] at positions 0-63, C[13:0] at 64-77, C[14] at 78, C[15] at 79. -/

/-- XOR of the bits of n below k. -/
def parityOf (k n : Nat) : Nat := popCount k n % 2

/-- F: the XOR of address bits [35:3]. -/
def foldOf (a : Nat) : Nat := parityOf 33 (a / 8)

/-- Degree of a codeword position in the BCH polynomial; none for the overall parity. -/
def bchDegree (pos : Nat) : Option Nat :=
  if pos < 64 then some (14 + pos) else if pos < 78 then some (pos - 64) else if pos = 79 then some 78 else none

/-- x^k modulo the generator 0x4377. -/
def bchPower : Nat → Nat
  | 0 => 1
  | k + 1 => let t := bchPower k * 2
             if t.testBit 14 then t ^^^ 0x4377 else t

/-- Syndrome of an error at one position: the remainder, and the overall parity in bit 14. -/
def bchColumn (pos : Nat) : Nat :=
  match bchDegree pos with
  | some d => bchPower d + 2 ^ 14
  | none => 2 ^ 14

def bchColumns : List (Nat × Nat) := (List.range 80).map fun p => (p, bchColumn p)

/-- Syndrome of a set of flipped positions. -/
def bchSyndrome (flips : List Nat) : Nat := flips.foldl (fun s p => s ^^^ bchColumn p) 0

/-- C[13:0] of a word and its fold bit: the remainder of the 65-bit message. -/
def bchCheck (d f : Nat) : Nat :=
  ((setBits 64 d).map fun i => bchPower (14 + i)).foldl (fun s x => s ^^^ x) (if f = 0 then 0 else bchPower 78)

/-- The 80-bit codeword of a word at address a (R419). -/
def codeword (a d : Nat) : Nat :=
  let f := foldOf a
  let w := d + bchCheck d f * 2 ^ 64 + f * 2 ^ 79
  w + parityOf 80 w * 2 ^ 78

/-- How a codeword with flipped positions decodes: the positions the code corrects, none where it cannot (R419). -/
def bchDecode (flips : List Nat) : Option (List Nat) :=
  let s := bchSyndrome flips
  if s = 0 then some []
  else
    match bchColumns.find? fun c => c.2 == s with
    | some c => some [c.1]
    | none =>
      bchColumns.findSome? fun c =>
        match bchColumns.find? fun e => c.1 < e.1 && (c.2 ^^^ e.2) == s with
        | some e => some [c.1, e.1]
        | none => none

/-- A bit of the word inverted. -/
def flipBit (n p : Nat) : Nat := n ^^^ 2 ^ p

/-- The word after decoding: data bits that were flipped and not corrected, or corrected wrongly, stay inverted. -/
def decodedWord (d : Nat) (flips fixed : List Nat) : Nat :=
  ((flips ++ fixed).filter fun p => p < 64).foldl flipBit d

/-- The fold bit after decoding. -/
def decodedFold (f : Nat) (flips fixed : List Nat) : Nat := (f + ((flips ++ fixed).filter fun p => p == 79).length) % 2

/-! Reads and writes of the DRAM (R420-R424). -/

/-- A corrected error. -/
def State.dmcCorrected (s : State) (src addr : Nat) (pos : List Nat) : State :=
  (((s.dmcLog src addr pos.length pos).cnt pDMC DMC_CNT_CE).irq pDMC INT_DMC_CE).err pDMC 0xA113 (addr / 16 % 2 ^ 32)

/-- An error that leaves the word poisoned: kind 3 or 4. -/
def State.dmcPoisoned (s : State) (src addr kind : Nat) : State :=
  let s1 := ((s.dmcLog src addr kind []).cnt pDMC DMC_CNT_UE).irq pDMC INT_DMC_UE
  (s1.err pDMC (if kind = 4 then 0xA31A else 0xA319) (addr / 16 % 2 ^ 32)).poisonAdd addr

/-- The read of an aligned word through the decoder (Table 14-2): `actual` is the address that the array answers for. A corrected
word is written back to the address read (R421). -/
def State.decodeWord (s : State) (src addr actual : Nat) (flips : List Nat) : State × Option Nat :=
  match bchDecode flips with
  | none => (s.dmcPoisoned src addr 3, none)
  | some fixed =>
    if decodedFold (foldOf actual) flips fixed ≠ foldOf addr then (s.dmcPoisoned src addr 4, none)
    else
      let d := decodedWord (s.memLE actual 8) flips fixed
      if fixed.isEmpty then (s, some d) else ((s.dmcCorrected src addr fixed).setMemLE addr 8 d, some d)

/-- A cause for which DRAM does not answer, recorded. -/
def State.dramStopped (s : State) (a : Access) (isSpill write : Bool) (addr n : Nat) : Option State :=
  if regionOf addr ≠ .dram then some s
  else (s.ramStop (lvWorld (s.levelOf a)) isSpill write addr n).map fun r => s.recordStop addr r

/-- The read of the aligned word of an address (R420). -/
def execDramRead (clocks : Nat) (a : Access) (isSpill : Bool) (addr actual : Nat) (flips : List Nat) (s : State) :
    Host.Outcome State Fault Refusal :=
  .next (
    let s1 := s.advance clocks
    let w := addr / 8 * 8
    if !s1.up.compute then s1.refused
    else
      match s1.dramStopped a isSpill false w 8 with
      | some s2 => s2.refused
      | none =>
        if (s1.poisonOf w).isSome then (s1.poisonRead a.agent w).refused
        else
          match s1.decodeWord a.agent w (actual / 8 * 8) flips with
          | (s2, some d) => s2.ok d
          | (s2, none) => s2.refused)

/-- A write: whole words without a read, a part of a word as a read-modify-write whose read may meet an error (R421). -/
def execDramWrite (clocks : Nat) (a : Access) (isSpill : Bool) (addr : Nat) (data flips : List Nat) (s : State) :
    Host.Outcome State Fault Refusal :=
  .next (
    let s1 := s.advance clocks
    let n := data.length
    if !s1.up.compute || n == 0 then s1.refused
    else
      match s1.dramStopped a isSpill true addr n with
      | some s2 => s2.refused
      | none =>
        let part := (wordsOf addr n).filter fun w => decide (w < addr) || decide (addr + n < w + 8)
        let s2 := match part with
          | w :: _ => if (s1.poisonOf w).isSome then s1 else (s1.decodeWord a.agent w w flips).1
          | [] => s1
        match s2.ramWrite (lvWorld (s.levelOf a)) isSpill addr data with
        | (s3, true) => s3.ok
        | (s3, false) => s3.refused)

def execDramTrainingDone (good : Bool) (s : State) : Host.Outcome State Fault Refusal :=
  .next (
    if !s.pageUp pDMC || s.on pDMC DMC_STAT_TRAINED then s
    else if good then s.set pDMC DMC_STAT_TRAINED 1
    else s.err pDMC 0xA31E 0)

/-- A temperature report of the LPDDR5 dies, in °C (R425). -/
def execDramTemperatureReport (clocks : Nat) (temps : List Int) (rate : Fin 8) (s : State) :
    Host.Outcome State Fault Refusal :=
  .next (
    let s0 := s.advance clocks
    if !s0.pageUp pDMC then s0
    else
      let hot := temps.any fun t => decide (85 < t)
      let s1 := s0.set pDMC DMC_STAT_RATE rate.val
      if hot && !s1.on pDMC DMC_STAT_HOT then
        let s2 := (s1.set pDMC DMC_STAT_HOT 1).wrn pDMC DMC_REFI (s1.refiBase / 2)
        (s2.irq pDMC INT_DMC_HOT).errLimited 0xA00 clocksPerS pDMC 0xA218 0
      else if !hot && s1.on pDMC DMC_STAT_HOT then (s1.set pDMC DMC_STAT_HOT 0).wrn pDMC DMC_REFI s1.refiBase
      else s1)

/-- The interval that honing sets is in force, halved while the DRAM is hot (R425). -/
def State.setRefi (s : State) (ns : Nat) : State :=
  { s with refiBase := ns }.wrn pDMC DMC_REFI (if s.on pDMC DMC_STAT_HOT then ns / 2 else ns)

/-- All banks are refreshed: what the DRAM holds stays (R425). An interval that a plan has set takes effect (spec/19 R558). -/
def execDramRefresh (s : State) : Host.Outcome State Fault Refusal :=
  .next (
    match s.hon.refi with
    | some n => if s.pageUp pDMC then { s.setRefi n with hon.refi := none } else s
    | none => s)

/-! On-chip errors (R427). -/

/-- The pair whose active slot holds an offset of checkpoint SRAM (spec/11 R354). -/
def State.activeSlotAt (s : State) (off : Nat) : Option Nat :=
  let k := off / 0x40000
  if k < 6 ∧ off % 0x40000 / 0x8000 = s.get (pCAL k) CAL_STAT_SLOT then some k else none

/-- An error of an on-chip word, corrected or not. -/
def State.sramFault (s : State) (addr : Nat) (corrected : Bool) : State :=
  s.err pSCR (if corrected then 0xA114 else 0xA31B) (addr % 2 ^ 32)

def State.ckptFault (s : State) (off : Nat) (corrected : Bool) : State :=
  let s1 := s.sramFault (0x11000000 + off) corrected
  match corrected, s1.activeSlotAt off with
  | false, some k => { s1 with slotBad := insertLine k s1.slotBad }
  | _, _ => s1

/-- The table that an error of table memory names: its number, the codes for an error corrected and one not correctable, and
ERR_ADDR (spec/04 R147, R148, spec/06 R226). The buffer's tables have no such codes. -/
def entryFaulted (page : TaPage) (table i : Nat) : Option (Nat × Nat × Nat × Nat) :=
  match page, tabOf (tyOf (taAddr page)) (instOf (taAddr page)) table with
  | .buf, _ => none
  | _, none => none
  | .gwc, some d => if table = 0 ∧ i < d.size then some (d.id, 0x3119, 0x3320, 0x10000 + i) else none
  | _, some d => if i < d.size then some (d.id, 0x1119, 0x131A, table * 0x10000 + i) else none

/-- An entry of a table that cannot be corrected is treated as not valid until it is written. -/
def State.entryFault (s : State) (p t i c u loc : Nat) (corrected : Bool) : State :=
  if corrected then s.err p c loc
  else { s.err p u loc with badEntries := insertLine (t * 0x100000 + i) s.badEntries }

def execSramError (array : SramArray) (corrected : Bool) (s : State) : Host.Outcome State Fault Refusal :=
  .next (
    if !s.up.compute then s
    else
      match array with
      | .sram addr =>
        let s1 := s.sramFault addr corrected
        if corrected then s1 else s1.poisonAdd addr
      | .tcm n off => s.sramFault (0x12000000 + n.val * 0x20000 + off) corrected
      | .ckpt off => s.ckptFault off corrected
      | .keySlot n =>
        if corrected then s.err (pKEY (n.val / 32)) 0xB114 0
        else (s.set (pKEY (n.val / 32)) (SLOT_STAT_VALID (n.val % 32)) 0).err (pKEY (n.val / 32)) 0xB31A 0
      | .entry page table i =>
        match entryFaulted page table i with
        | some (t, c, u, loc) => s.entryFault (taAddr page) t i c u loc corrected
        | none => s
      | .canObject n o => s.entryFault (pCXC n.val) (tCANDATA n.val) o.val 0x3119 0x3320 o.val corrected
      | .packetBuffer id =>
        if corrected then s.err pBUF 0x2112 0
        else
          match s.sw.held.find? fun c => c.id == id with
          | some c => (((s.release c).cnt32 pBUF BUF_CNT_CRC 1).err pBUF 0x231A 0).settle
          | none => s)

/-! Scrubbing (R426). -/

/-- The DRAM address of the next burst: before the first step, the first burst. -/
def State.scrubBurst (s : State) : Nat :=
  let a := s.get pSCR SCR_POS_V * 128
  if 0x800000000 ≤ a ∧ a < 0x900000000 then a else 0x800000000

def State.scrubPassed (s : State) (f : Fld) : State := (s.cntWrap pSCR f).irq pSCR INT_SCR_PASS_DONE

/-- One scrub step: a burst of the DRAM with an error in one of its words, or a word of an on-chip array. -/
def execScrubStep (array : ScrubArray) (word : Fin 16) (flips : List Nat) (check : SlotCheck) (s : State) :
    Host.Outcome State Fault Refusal :=
  .next (
    if !s.pageUp pSCR || !s.on pSCR SCR_CTRL_EN then s
    else
      match array with
      | .dram =>
        if !s.dramUp then s
        else
          let b := s.scrubBurst
          let w := b + word.val * 8
          let s1 := if (s.poisonOf w).isSome then s else (s.decodeWord 0xFE w w flips).1
          let next := b + 128
          let s2 := s1.set pSCR SCR_POS_V ((if next = 0x900000000 then 0x800000000 else next) / 128)
          if next = 0x900000000 then s2.scrubPassed SCR_PASS_DRAM else s2
      | .sram =>
        let a := 0x10000000 + s.scrSram
        let s1 := match check with
          | .good => s
          | .corrected => s.sramFault a true
          | .bad => (s.sramFault a false).poisonAdd a
        if s1.scrSram + 8 = 0x1000000 then { s1 with scrSram := 0 }.scrubPassed SCR_PASS_SRAM
        else { s1 with scrSram := s1.scrSram + 8 }
      | .ckpt =>
        let s1 := match check with
          | .good => s
          | .corrected => s.ckptFault s.scrCkpt true
          | .bad => s.ckptFault s.scrCkpt false
        let next := s1.scrCkpt + 8
        -- both slots of a pair lie in the first 64 KiB of its region
        let at' := if next % 0x40000 = 0x10000 then next / 0x40000 * 0x40000 + 0x40000 else next
        { s1 with scrCkpt := if at' = 0x180000 then 0 else at' })

def dmcCntClrEff (v : Word) (s : State) : State :=
  if v.getLsbD 0 then
    (((s.wr pDMC DMC_CNT 0).wr pDMC DMC_ERR_LO 0).wr pDMC DMC_ERR_HI 0).wr pDMC DMC_ERR_POS 0 else s

def execDmcCntClr (a : Access) (v : Word) (s : State) : Host.Outcome State Fault Refusal :=
  .next (s.regWrite a pDMC DMC_CNT_CLR v noCause (dmcCntClrEff v))

/-! Fuses (R433-R436). -/

def State.inManufacture (s : State) : Bool := s.lifecycle == 0

/-- What a fuse program may do (R435). -/
def State.fuseAllowed (s : State) (agent w : Nat) : Bool :=
  if w < 8 then agent == 0x20 && s.inManufacture
  else s.inManufacture || (agent == 0x20 && (w == 13 || decide (32 ≤ w ∧ w < 64)))

def fusProgEff (a : Access) (v : Word) (s : State) : State :=
  if !v.getLsbD 0 then s
  else
    let w := s.get pFUS FUS_PROG_W_W
    if s.fuseAllowed a.agent w && s.fuseOp.isNone then
      ({ s with fuseOp := some (w, (s.rd pFUS FUS_PROG_DATA).toNat) }.set pFUS FUS_PROG_GO_BUSY 1).set pFUS
        FUS_PROG_GO_RESULT 0
    else (s.set pFUS FUS_PROG_GO_RESULT 2).err pFUS 0xA012 0

def execFusProgGo (a : Access) (v : Word) (s : State) : Host.Outcome State Fault Refusal :=
  .next (s.regWrite a pFUS FUS_PROG_GO v noCause (fusProgEff a v))

/-- Bits ORed into a fuse word. -/
def State.burn (s : State) (w bits : Nat) : State :=
  { s with fuses := sput 0 w (sget 0 w s.fuses ||| bits) s.fuses }

/-- A fuse program ends: the bits are set, or some do not read back set and which are is not known (R435). -/
def execFuseProgramDone (good : Bool) (s : State) : Host.Outcome State Fault Refusal :=
  .next (
    match s.fuseOp with
    | none => s
    | some (w, bits) =>
      let s1 := { s with fuseOp := none }.set pFUS FUS_PROG_GO_BUSY 0
      if good then (s1.burn w bits).set pFUS FUS_PROG_GO_RESULT 1
      else ((s1.burn w (bits &&& s1.free)).took).set pFUS FUS_PROG_GO_RESULT 3)

/-! NOR flash (R429-R432). -/

/-- A command that R430 refuses. -/
def State.norRefused (s : State) (die op off len : Nat) : Bool :=
  let n := norSpan op len
  let last := off + n - 1
  (decide (off < 0x10000) && !s.inManufacture)
    || (decide (off < 0x200000) && decide (0x1E0000 ≤ last))
    || (if op = 1 then decide (0x100 < off % 0x100 + n) else off % n != 0)
    || s.on (pNOR die) NOR_CMD_BUSY

/-- The bytes of NOR_BUF. -/
def State.norBuf (s : State) (die n : Nat) : List Nat :=
  (((List.range 64).map fun k => bytesLE 4 (s.rd (pNOR die) (NOR_BUF k)).toNat).flatten).take n

/-- An operation other than those of Table 14-9 is not valid. -/
def norPre (v : Word) (_ : State) : Option Nat :=
  if bitsOf v.toNat 0 3 == 0 || decide (3 < bitsOf v.toNat 0 3) then some 0x0B else none

def norEff (die : Nat) (v : Word) (s : State) : State :=
  let p := pNOR die
  let op := bitsOf v.toNat 0 3
  let len := bitsOf v.toNat 24 8
  if !v.getLsbD 16 then s.plain p NOR_CMD v
  else
    let off := s.get p NOR_ADDR_V
    if s.norRefused die op off len then (s.set p NOR_CMD_RESULT 2).err p 0xA011 off
    else
      let s1 := s.plain p NOR_CMD v
      let s2 := { s1 with norOps := setNth s1.norOps die (some ⟨op, off, if op = 1 then s1.norBuf die (len + 1) else []⟩) }
      ((s2.set p NOR_CMD_BUSY 1).set p NOR_CMD_RESULT 0).set p NOR_STAT_BUSY 1

def State.norWrite (s : State) (a : Access) (die : Nat) (v : Word) : State :=
  s.regWrite a (pNOR die) NOR_CMD v (norPre v) (norEff die v)

def execNorProgram (a : Access) (die : Fin 2) (v : Word) (s : State) : Host.Outcome State Fault Refusal :=
  .next (s.norWrite a die.val v)

def execNorErase4k (a : Access) (die : Fin 2) (v : Word) (s : State) : Host.Outcome State Fault Refusal :=
  .next (s.norWrite a die.val v)

def execNorErase64k (a : Access) (die : Fin 2) (v : Word) (s : State) : Host.Outcome State Fault Refusal :=
  .next (s.norWrite a die.val v)

def execNorCmdDone (die : Fin 2) (good : Bool) (s : State) : Host.Outcome State Fault Refusal :=
  .next (s.norDone die.val good)

/-- A refusal of a memory region access (R604): recorded on the SYS page. -/
def State.regionRefuse (s : State) (addr cause : Nat) : State := (s.errCause pSYS cause addr).refused

/-- A read in the NOR window (R431, R432): a program is waited for, an erase suspended. -/
def State.norReadAt (s : State) (world addr n : Nat) (check : SlotCheck) : State :=
  if world ≠ 0 then s.regionRefuse addr 0x01
  else if s.shell.crossed.contains .NOR then s.regionRefuse addr 0x08
  else
    let die := (addr - 0x40000000) / 0x8000000
    let off := (addr - 0x40000000) % 0x8000000
    let s1 := s.norSettled addr
    match check with
    | .good => s1.ok (s1.memLE addr n)
    | .corrected => ((s1.cnt (pNOR die) NOR_CNT_CE).err (pNOR die) 0xA115 off).ok (s1.memLE addr n)
    | .bad => ((s1.cnt (pNOR die) NOR_CNT_UE).err (pNOR die) 0xA31C off).refused

def execNorRead (a : Access) (addr n : Nat) (check : SlotCheck) (s : State) : Host.Outcome State Fault Refusal :=
  .next (
    if !s.up.compute then s.refused
    else if regionOf addr = .nor then s.norReadAt (lvWorld (s.levelOf a)) addr n check
    else s.regionRefuse addr 0x04)

def norCntClrEff (die : Nat) (v : Word) (s : State) : State := if v.getLsbD 0 then s.wr (pNOR die) NOR_CNT 0 else s

def execNorCntClr (a : Access) (die : Fin 2) (v : Word) (s : State) : Host.Outcome State Fault Refusal :=
  .next (s.regWrite a (pNOR die.val) NOR_CNT_CLR v noCause (norCntClrEff die.val v))

/-! Core accesses to the memory regions (spec/02 R604). -/

/-- Widths of tightly coupled memory and checkpoint SRAM. -/
def smallWidth (n addr : Nat) : Bool := (n == 1 || n == 2 || n == 4 || n == 8) && addr % n == 0

/-- The 32-byte lines that a range touches hold a poisoned line (spec/12 R376). -/
def State.linePoisoned (s : State) (addr n : Nat) : Bool :=
  s.poisonLines.any fun l => decide (l < addr + n) && decide (addr < l + 32)

/-- Lines written whole are no longer poisoned. -/
def State.lineHeal (s : State) (addr n : Nat) : State :=
  { s with poisonLines := s.poisonLines.filter fun l => !(decide (addr ≤ l) && decide (l + 32 ≤ addr + n)) }

/-- A real-time core reaches its own memory directly (R604). -/
def ownTcm (agent addr : Nat) : Bool :=
  match agentCore agent with
  | some c => decide (8 ≤ c ∧ c < 12) && regionOf addr == .tcm (c - 8)
  | none => false

/-- The memories a store to the tightly coupled memory of a compared pair goes to: both cores' (spec/12 R368). -/
def State.tcmTargets (s : State) (n : Nat) : List Nat := if s.inPair (8 + n) then [n / 2 * 2, n / 2 * 2 + 1] else [n]

/-- Bytes read or written in tightly coupled memory. -/
def State.tcmAccess (s : State) (n : Nat) (op : MemOp) (addr : Nat) (data : List Nat) : State :=
  if op == .write then
    (s.each (s.tcmTargets n) fun s m => s.setBytes (0x12000000 + m * 0x20000 + addr % 0x20000) data).ok
  else s.ok (s.memLE addr data.length)

/-- A monitor-level access to checkpoint SRAM (R428). -/
def State.ckptAccess (s : State) (op : MemOp) (addr : Nat) (data : List Nat) : State :=
  let off := addr - 0x11000000
  if 0x180000 ≤ off then (if op == .write then s.regionRefuse addr 0x04 else s.ok 0)
  else if op == .write then
    let st := s.pairState (off / 0x40000)
    if st = cCOMPARED ∨ st = cRESTART then s.regionRefuse addr 0x01 else (s.setBytes addr data).ok
  else s.ok (s.memLE addr data.length)

/-- An access to an address of no page and no memory region (spec/02 R57, R58). -/
def State.unmapped (s : State) (addr : Nat) : State := ((s.errCause pSYS 0x04 addr).cnt pSYS SYS_CNT_UNMAP_V).refused

/-- An access by physical address: its width is that of `data`, whose bytes a write stores. -/
def State.physAccess (s : State) (a : Access) (op : MemOp) (addr : Nat) (data : List Nat) : State :=
  let n := data.length
  let world := lvWorld (s.levelOf a)
  match regionOf addr with
  | .none => s.unmapped addr
  | .periph => s.unmapped addr
  | .nor => if op == .write then s.regionRefuse addr 0x01 else s.norReadAt world addr n .good
  | .tcm k =>
    if world != 0 && s.inSecure addr && !ownTcm a.agent addr then (s.secRefuse addr).refused
    else if !(ownTcm a.agent addr || lvMonitor (s.levelOf a) || a.agent == 0x60) then s.regionRefuse addr 0x01
    else if !smallWidth n addr then s.regionRefuse addr 0x03
    else s.tcmAccess k op addr data
  | .ckpt _ =>
    if !lvMonitor (s.levelOf a) then s.regionRefuse addr 0x01
    else if !smallWidth n addr then s.regionRefuse addr 0x03
    else s.ckptAccess op addr data
  | _ =>
    if op == .write then
      match s.ramWrite world false addr data with
      | (s1, true) => (s1.lineHeal addr n).ok
      | (s1, false) => s1.refused
    else if s.linePoisoned addr n then s.refused
    else
      match s.readBy a.agent world addr n with
      | (s1, some l) => s1.ok (ofBytesLE l)
      | (s1, none) => s1.refused

end Sys2Proof.Machine
end

