-- ==== Sys2Proof/Machine/Migration.lean ====
section
/-!
DEFINITION. Live migration of the memory of a virtual machine (spec/10 R336): rounds, the dirty state they take, pages and
control packets, and the end of a migration.
-/

namespace Sys2Proof.Machine

/-- A leaf of stage-2 tables: first IPA page, pages, address and value of its descriptor. -/
structure Leaf where
  page : Nat
  count : Nat
  addr : Nat
  desc : Nat
  deriving DecidableEq, Repr

/-- Leaves below a table of a level; `fuel` levels are left. -/
def State.leavesOf (s : State) : Nat → Nat → Nat → Nat → List Leaf
  | 0, _, _, _ => []
  | fuel + 1, level, table, page =>
    ((List.range (if level = 1 then 1024 else 512)).map fun i =>
      let da := table + 8 * i
      let d := s.memLE da 8
      let n := 2 ^ (leafShift level - 12)
      match readDesc level d with
      | .bad => []
      | .table next => s.leavesOf fuel (level + 1) next (page + i * n)
      | .leaf _ => [⟨page + i * n, n, da, d⟩]).flatten

/-- The leaves of the stage-2 space of VM v; none in a context that is off. -/
def State.leaves (s : State) (v : Nat) : List Leaf :=
  if s.on (pVMC v) VMC_CTRL_EN then
    s.leavesOf 3 1 (ttbOf (s.get (pVMC v) VMC_TTB_LO_BASE) (s.get (pVMC v) VMC_TTB_HI_BASE)) 0
  else []

def Leaf.pages (l : Leaf) : List Nat := (List.range l.count).map (l.page + ·)

def Leaf.dirty (l : Leaf) : Bool := bitsOf l.desc 10 1 == 1

/-- The pages that instance i has logged since its log's head was `from` (spec/13 R415). -/
def State.loggedPages (s : State) (i start : Nat) : List Nat :=
  let p := pHIN i
  let size := 2 ^ (9 + s.get p DPL_SIZE_N)
  let n := (s.get p DPL_HEAD_V + size - start % size) % size
  (List.range n).map fun k =>
    let ea := s.get p DPL_BASE_LO_ADDR * 0x1000 + s.get p DPL_BASE_HI_ADDR * 2 ^ 32 + (start + k) % size * 8
    match s.walk (s.managerCtx i) .read ea with
    | (s1, .ok pa _ _ _) => s1.memLE pa 8 % 2 ^ 28
    | (_, .fault _ _) => 0

/-- Instances of MIG_INST. -/
def State.migInst (s : State) : List Nat := setBits 16 (s.get pMIG MIG_INST_MASK)

/-- Pages of the VM that are dirty since the round before (R336): stage-2 dirty state and logs; every page while a log has
overflowed (spec/13 R415). -/
def State.dirtyPages (s : State) : List Nat :=
  let ls := s.leaves (s.get pMIG MIG_CTRL_VM)
  if s.migInst.any fun i => s.on (pHIN i) DPL_CTRL_OVF then (ls.map Leaf.pages).flatten
  else
    let d := ((ls.filter Leaf.dirty).map Leaf.pages).flatten
    let logged := (s.migInst.map fun i => s.loggedPages i (nth s.mig.heads i 0)).flatten
    d ++ (logged.eraseDups.filter fun pg => !d.contains pg)

/-- A round takes its pages: the dirty state is cleared and the logs are noted. -/
def State.takeRound (s : State) (pages : List Nat) : State :=
  let ls := (s.leaves (s.get pMIG MIG_CTRL_VM)).filter Leaf.dirty
  let s1 := s.each ls fun s l => s.setMemLE l.addr 8 (putBits l.desc 10 1 0)
  { s1 with mig.todo := pages, mig.heads := (List.range 16).map fun i => s1.get (pHIN i) DPL_HEAD_V }

/-- A migration control packet (Table 10-5). -/
def State.sendMigControl (s : State) (op round pages : Nat) : State :=
  s.sendRsv 2 3 0x31 ([op, round] ++ bytesBE 4 pages ++ [0, 0])

/-- A migration is under way: copying or in its final round. -/
def State.migRuns (s : State) : Bool := s.get pMIG MIG_STAT_ST == 1 || s.get pMIG MIG_STAT_ST == 2

/-- The migration ends (R336). The receiver discards the partial copy: what its pages then hold is not known. -/
def State.migEnds (s : State) (tell : Bool) : State :=
  if !s.migRuns then s
  else
    let s1 := if tell then s.sendMigControl 4 (s.get pMIG MIG_STAT_ROUND) 0 else s
    let s2 := s1.each s1.mig.written fun s pg => State.freeBytes (pg * 0x1000) 0x1000 s
    (({ s2 with mig := MigState.init }.set pMIG MIG_STAT_ST 4).irq pMIG INT_MIG_ABORTED).err pMIG 0x721E 0

/-- GO: the sender begins its first round with every page, the receiver waits for pages. Without the link it ends at once. -/
def State.migBegins (s : State) : State :=
  if s.migRuns then s
  else
    let s1 := ({ s with mig := MigState.init }.set pMIG MIG_STAT_ST 1).set pMIG MIG_STAT_ROUND 0
    if !s1.brUp 2 then s1.migEnds false
    else if s1.on pMIG MIG_CTRL_DIR then s1
    else
      let all := ((s1.leaves (s1.get pMIG MIG_CTRL_VM)).map Leaf.pages).flatten
      (((s1.wrn pMIG MIG_SENT 0).wrn pMIG MIG_DIRTY 0).takeRound all).sendMigControl 1 0 all.length

/-- A write of MIG_CTRL (R336). -/
def migCtrlEff (v : Word) (s : State) : State :=
  let s1 := s.plain pMIG MIG_CTRL v
  let s2 := if v.getLsbD 10 then s1.migEnds true else s1
  let s3 := if v.getLsbD 8 then s2.migBegins else s2
  if v.getLsbD 9 && s3.get pMIG MIG_STAT_ST == 1 && !s3.on pMIG MIG_CTRL_DIR then
    let d := s3.dirtyPages
    (s3.takeRound (s3.mig.todo ++ d.filter fun pg => !s3.mig.todo.contains pg)).set pMIG MIG_STAT_ST 2
  else s3

def execMigGo (a : Access) (v : Word) (s : State) : Host.Outcome State Fault Refusal :=
  .next (s.regWrite a pMIG MIG_CTRL v noCause (migCtrlEff v))

def execMigFinal (a : Access) (v : Word) (s : State) : Host.Outcome State Fault Refusal :=
  .next (s.regWrite a pMIG MIG_CTRL v noCause (migCtrlEff v))

def execMigAbort (a : Access) (v : Word) (s : State) : Host.Outcome State Fault Refusal :=
  .next (s.regWrite a pMIG MIG_CTRL v noCause (migCtrlEff v))

/-- Pages are read through the VM's tables and sent (Table 10-5); false where one could not be read. -/
def State.sendPages (v : Nat) : List Nat → State → State × Bool
  | [], s => (s, true)
  | pg :: t, s =>
    let ipa := pg * 0x1000
    match s.translate 16 (.vm v) .read ipa with
    | (s1, .fault k l) => (s1.dmaFaulted 16 false false ipa k l, false)
    | (s1, .ok pa _ _ _) =>
      match s1.readBy 0x50 2 pa 0x1000 with
      | (s2, none) => (s2, false)
      | (s2, some data) =>
        State.sendPages v t
          ((s2.sendRsv 2 3 0x30 (bytesBE 5 ipa ++ [v, 0, 0] ++ data)).cnt32 pMIG MIG_SENT)

/-- The sending engine completes a round (R336). -/
def execMigRoundDone (clocks : Nat) (s : State) : Host.Outcome State Fault Refusal :=
  .next (
    let s1 := s.advance clocks
    if !s1.migRuns || s1.on pMIG MIG_CTRL_DIR || !s1.brUp 2 then s1
    else
      let round := s1.get pMIG MIG_STAT_ROUND
      let n := s1.mig.todo.length
      match State.sendPages (s1.get pMIG MIG_CTRL_VM) s1.mig.todo s1 with
      | (s2, false) => s2.migEnds true
      | (s2, true) =>
        if s2.get pMIG MIG_STAT_ST = 2 then
          ((({ s2 with mig := MigState.init }).sendMigControl 3 round n).set pMIG MIG_STAT_ST 3).irq pMIG INT_MIG_DONE
        else
          let d := s2.dirtyPages
          let s3 := ((s2.sendMigControl 2 round n).takeRound d).set pMIG MIG_DIRTY_V (min d.length 0xFFFFFF)
          (s3.set pMIG MIG_STAT_ROUND (min 255 (round + 1))).irq pMIG INT_MIG_ROUND_DONE)

/-- A page arrives: written through the stage-2 tables of the receiver's own VM (R336). -/
def execMigrationPage (clocks ipa : Nat) (vmNo : Fin 16) (data : List Nat) (s : State) : Host.Outcome State Fault Refusal :=
  .next (
    let s1 := s.advance clocks
    if s1.migRuns && s1.on pMIG MIG_CTRL_DIR && s1.brUp 2 && data.length == 0x1000 && vmNo.val < 16 then
      match s1.translate 16 (.vm (s1.get pMIG MIG_CTRL_VM)) .write ipa with
      | (s2, .fault k l) => (s2.dmaFaulted 16 false true ipa k l).migEnds true
      | (s2, .ok pa _ _ _) =>
        match s2.ramWrite 2 false pa data with
        | (s3, true) => { s3 with mig.written := s3.mig.written ++ [pa / 0x1000] }
        | (s3, false) => s3.migEnds true
    else s1)

/-- A control packet: start, round end, final end, abort (Table 10-5). -/
def execMigrationControl (clocks op round pages : Nat) (s : State) : Host.Outcome State Fault Refusal :=
  .next (
    let s1 := s.advance clocks
    if !s1.migRuns || !s1.brUp 2 then s1
    else if op = 4 then s1.migEnds false
    else if !s1.on pMIG MIG_CTRL_DIR then s1
    else if op = 3 then (({ s1 with mig := MigState.init }).set pMIG MIG_STAT_ST 3).irq pMIG INT_MIG_DONE
    else if op = 2 then (s1.set pMIG MIG_STAT_ROUND (min 255 (round + 1))).set pMIG MIG_DIRTY_V pages
    else s1)

end Sys2Proof.Machine
end

