-- ==== Sys2Proof/Machine/Twin.lean ====
section
/-!
DEFINITION. The twin pair (spec/10 R314-R335): pairing, sides, roles and the claim lines, takeover, TWC traffic, input and
output images, handover, rejoin and checkpoint mirroring.
-/

namespace Sys2Proof.Machine

def State.modTwin (s : State) (f : TwinState → TwinState) : State := { s with twin := f s.twin }

/-- The Phoask link is up. -/
def State.phoaskUp (s : State) : Bool := s.up.compute && decide (2 ≤ s.get pTWL TWL_STAT_ST)

/-- No valid heartbeat for 8.5 µs, no valid ALIVE frame for 8.0 µs (R324). -/
def State.hbLate (s : State) : Bool := decide (s.phoask.hbAt + 4250 ≤ s.tb.clocks)
def State.aliveLate (s : State) : Bool := decide (s.phoask.aliveAt + 4000 ≤ s.tb.clocks)

/-- TWIN_PEER as the role machine takes it: asserted while power die A is lost (R327). -/
def State.peerAsserted (s : State) : Bool := s.on pTWR TWR_STAT_PEER || !s.dieUp 0

def State.side (s : State) : Nat := s.get pTWR TWR_STAT_SIDE

/-! TWC (R330-R333). -/

/-- The compute die sends through the transceiver of die A, or of die B while die A is lost (R330). -/
def State.twcDie (s : State) : Option Nat := if s.dieUp 0 then some 0 else if s.dieUp 1 then some 1 else none

/-- First byte of a frame of this module (Table 10-10). -/
def State.twcHead (s : State) (dest cmd : Nat) : Nat := s.side * 128 + (1 - s.side) * 64 + dest * 16 + cmd

def State.twcSend (s : State) (l : List Nat) : State :=
  match s.twcDie with
  | some d => s.emit (.twc true d (twcSeal l))
  | none => s

/-- A command frame with the next sequence number. -/
def State.twcCommand (s : State) (dest cmd : Nat) (body : List Nat) : State :=
  let n := (s.twin.seq + 1) % 256
  (s.modTwin fun z => { z with seq := n }).twcSend ([s.twcHead dest cmd, n] ++ body)

/-- KEEP to both dies of the twin (R333). -/
def State.sendKeep (s : State) : State := s.twcCommand 3 2 []

/-- The agreed DUAL mask of die d (R314). -/
def State.dualMask (s : State) (d : Nat) : Nat := s.get pTWR (if d = 0 then TWR_DUAL_A else TWR_DUAL_B)

/-- SET to each of the twin's dies whose DUAL bits the release has changed (R333). DEDUCED from the worked example of spec/10:
the first release after the takeover counts as a change. -/
def State.dualSets (s : State) : State :=
  s.each [0, 1] fun s d =>
    let m := s.dualMask d
    let img := s.get (pPDC d) PDC_OUT_IMG_IMG
    if m = 0 ∨ nth s.twin.lastSet d none = some (img &&& m) then s
    else
      (s.modTwin fun z => { z with lastSet := setNth z.lastSet d (some (img &&& m)) }).twcCommand (2 ^ d) 1
        (bytesBE 2 m ++ bytesBE 2 img)

/-- TWC control after a takeover (R333). -/
def State.takeControl (s : State) : State :=
  if s.on pTWR TWR_CTRL_TWC_TAKE then (s.modTwin fun z => { z with control := true, lastSet := [none, none] }).sendKeep else s

/-! Role states (Table 10-7). -/

/-- A role state is entered; TWIN_CLAIM follows (R316). ROLE is set where the Headstock role is taken or left (R328). -/
def State.setRole (s : State) (r : Nat) : State :=
  let was := s.isHeadstock
  let old := s.role
  let s1 := s.set pTWR BLK_STAT_STATE r
  let s2 := s1.driveClaim (s1.claimWanted && s1.dieUp 0)
  let s3 := s2.modTwin fun z =>
    { z with
      claimAt := if r = rCLAIMING ∧ s2.claim then some s2.tb.clocks else none
      attempt := if r = rUNPAIRED ∨ r = rCLAIMING then z.attempt else 0
      backoff := false, roleAt := none, rejoining := false, copying := false
      control := z.control && r == rHS_ALONE
      paired := z.paired || r == rHEADSTOCK || r == rTAILSTOCK || r == rREJOIN || (old == rPAIRING && r == rHS_ALONE)
      ownImg := none, hsImg := none }
  if s3.isHeadstock != was then s3.irq pTWR INT_TWR_ROLE else s3

def State.enterPairing (s : State) : State := (s.setRole rPAIRING).modTwin fun z => { z with gotPair := false, sentPair := false }

/-- UNPAIRED; with the link up, PAIRING follows (Table 10-7), unless the twin there is of another variant or revision (R5). -/
def State.enterUnpaired (s : State) : State :=
  let s1 := s.setRole rUNPAIRED
  if s1.phoaskUp && !s1.twin.differs then s1.enterPairing else s1

def State.enterClaiming (s : State) : State :=
  let r := s.role
  (s.modTwin fun z => { z with origin := r }).setRole rCLAIMING

/-- CLAIMING or TS_ALONE, by TWIN_PEER. -/
def State.enterAlone (s : State) : State := if s.peerAsserted then s.setRole rTS_ALONE else s.enterClaiming

/-- Port TW has its link up once the twins have passed the check of R5 (R301, R303). -/
def State.twPortUp (s : State) : State :=
  if s.phoaskUp && s.switchUp && s.portPowered 2 && !s.on (pPORT 2) PORT_STAT_LINK then
    let s1 := (s.set (pPORT 2) PORT_STAT_LINK 1).set (pPORT 2) PORT_STAT_SPEED (if s.get pTWL TWL_STAT_ST = 2 then 7 else 5)
    s1.irq (pPORT 2) INT_PORT_LINK_UP
  else s

/-- A heartbeat or ALIVE frame from the twin ends CLAIMING (R326, R327): the state it came from, from which a link that is up leads to
PAIRING (Table 10-7). A twin counted as lost under R5 does not end it. -/
def State.heard (s : State) : State :=
  if s.role = rCLAIMING ∧ !s.twin.differs then
    (if s.twin.origin = rUNPAIRED then s.enterUnpaired
     else
      let s1 := s.setRole s.twin.origin
      if s1.role = rTS_ALONE ∧ s1.phoaskUp then s1.enterPairing else s1.twPortUp)
  else s

/-- The Headstock role is taken from CLAIMING (R326-R328). -/
def State.takeRole (s : State) (byOverride : Bool) : State :=
  let takeover := s.twin.origin == rTAILSTOCK || s.twin.origin == rREJOIN
  let s1 := if byOverride then
      (((s.irq pTWR INT_TWR_OVERRIDE).cnt pTWR TWR_TAKE_OVR).err pTWR 0x7218 0)
    else s
  let s2 := if takeover then
      let t := min 0xFFFF ((s1.tb.clocks - s1.phoask.hbAt) / 50)
      let s2 := (s1.irq pTWR INT_TWR_TWIN_LOST).cnt pTWR TWR_TAKE_TAKE
      let s3 := if s2.frozen pTWR then s2 else s2.set pTWR TWR_TAKE_TIME t
      s3.err pTWR 0x7217 0
    else s1
  let s3 := s2.setRole rHS_ALONE
  if takeover then s3.takeControl else s3

/-- The role machine starts or stops with BLK_CTRL.EN and TWR_CTRL.EN (R318); `was`: it ran before. -/
def State.roleEnable (s : State) (was : Bool) : State :=
  if s.roleRuns && !was then s.enterUnpaired
  else if !s.roleRuns && was then
    let s1 := (s.set pTWR BLK_STAT_STATE rUNPAIRED).driveClaim false
    s1.modTwin fun z =>
      { TwinState.init with sideSet := z.sideSet, paired := z.paired, differs := z.differs, seq := z.seq, own := z.own
                            imgStatus := z.imgStatus }
  else s

/-! Pairing (R314, R321). -/

/-- The device identity: fuse words 8 to 11, byte 0 in [31:24] of word 8 (spec/14 Table 14-5). -/
def State.identityNat (s : State) : Nat :=
  ((s.fuse 8 * 2 ^ 32 + s.fuse 9) * 2 ^ 32 + s.fuse 10) * 2 ^ 32 + s.fuse 11

def State.variantCode (s : State) : Nat := s.fuse 12 % 256

/-- Revision B0 (spec/00). -/
abbrev revisionCode : Nat := 0xB0

/-- Channels of die d with LSW_CTRL.DUAL = 1. -/
def State.ownDual (s : State) (d : Nat) : Nat := s.cmdMask d fun i => s.on (pLSW d i) LSW_CTRL_DUAL

/-- A pairing packet of this module (Table 10-5). -/
def State.sendPairing (s : State) : State :=
  (s.modTwin fun z => { z with sentPair := true }).sendRsv 2 2 0x13 (bytesBE 16 s.identityNat ++ [s.variantCode, revisionCode, s.role, 0]
    ++ bytesBE 2 (s.ownDual 0) ++ bytesBE 2 (s.ownDual 1))

/-- Every 100 µs until the twin's packet has arrived (R314). -/
def execPairingPacketSend (clocks : Nat) (s : State) : Host.Outcome State Fault Refusal :=
  .next (
    let s1 := s.advance clocks
    if (s1.role == rPAIRING || s1.isHeadstock) && s1.phoaskUp && !s1.twin.gotPair then s1.sendPairing else s1)

/-- What the twin's packet tells beside its role: its identity; the side and the DUAL masks (R314). -/
def State.learnTwin (s : State) (p : PairPacket) : State :=
  let own := s.side
  let side := if s.identityNat < p.identity % 2 ^ 128 then 0 else 1
  let s1 := (s.set pTWR TWR_STAT_SIDE side).modTwin fun z => { z with sideSet := true, differs := false }
  let s2 := (s1.set pTWR TWR_DUAL_A (s1.ownDual 0 &&& p.dualA)).set pTWR TWR_DUAL_B (s1.ownDual 1 &&& p.dualB)
  let s3 := if own = side ∧ s.twin.sideSet then s2 else s2.each [0, 1] fun s d => s.writeSide d
  s3.twPortUp

/-- A pairing packet of the twin is acted on (R5, R314, R321, Table 10-7). PAIRING is left once packets are exchanged: an own packet that
has not gone out yet goes out now (DESIGN CHOICE, log entry 113: R314 ends the sending every 100 µs at the twin's packet). -/
def State.pairWith (s : State) (p : PairPacket) : State :=
  let s0 := if s.twin.sentPair then s else s.sendPairing
  let s1 := s0.each [0, 1, 2, 3] fun s k => s.wrn pTWR (TWR_ID k) (p.identity / 2 ^ (32 * (3 - k)) % 2 ^ 32)
  let s2 := s1.modTwin fun z => { z with gotPair := true, control := z.control && p.role != rPAIRING }
  if p.variant ≠ s2.variantCode ∨ p.revision ≠ revisionCode then
    let s3 := (s2.modTwin fun z => { z with differs := true }).err pTWR 0x721C 0
    if s3.role = rPAIRING then s3.enterAlone else s3
  else
    let s3 := s2.learnTwin p
    let fresh := p.role == rPAIRING
    let twinHs := p.role == rHEADSTOCK || p.role == rHS_ALONE
    if s3.role = rPAIRING then
      (if twinHs || (fresh && s3.side == 1) then (s3.irq pTWR INT_TWR_PAIRED).setRole rREJOIN
       else if fresh || p.role == rREJOIN then
        ((s3.irq pTWR INT_TWR_PAIRED).setRole rHS_ALONE).modTwin fun z => { z with rejoining := true }
       else s3.modTwin fun z => { z with gotPair := false })
    else if fresh then
      (s3.modTwin fun z => { z with rejoining := z.rejoining || s3.role == rHS_ALONE }).sendPairing
    else if p.role == rREJOIN && s3.role == rHS_ALONE then s3.modTwin fun z => { z with rejoining := true }
    else if twinHs && s3.role == rHS_ALONE && s3.side == 1 then (s3.err pTWR 0x721D 0).enterUnpaired
    else s3

def execPairingPacket (clocks : Nat) (p : PairPacket) (s : State) : Host.Outcome State Fault Refusal :=
  .next (
    let s1 := s.advance clocks
    if s1.brUp 2 && (s1.role == rPAIRING || s1.isHeadstock) then s1.pairWith p else s1)

/-- PAIR_TMO without a link (Table 10-7). -/
def execPairTimeout (clocks : Nat) (s : State) : Host.Outcome State Fault Refusal :=
  .next (
    let s1 := s.advance clocks
    if s1.roleRuns && s1.role == rUNPAIRED && !s1.phoaskUp && !s1.twin.backoff then s1.enterAlone else s1)

/-! Claim lines and takeover (R316-R328). -/

/-- TWIN_PEER as power die A senses it (R316, R327). -/
def execTwinPeerChange (clocks : Nat) (asserted : Bool) (s : State) : Host.Outcome State Fault Refusal :=
  .next (
    let s1 := s.advance clocks
    if s1.dieUp 0 then
      let s2 := s1.set pTWR TWR_STAT_PEER asserted.toNat
      if asserted then s2.modTwin fun z => { z with peerAt := s2.tb.clocks } else s2
    else s1)

/-- Twin loss (R324, R325). -/
def execTwinLossDeclare (clocks : Nat) (s : State) : Host.Outcome State Fault Refusal :=
  .next (
    let s1 := s.advance clocks
    if s1.hbLate && s1.aliveLate then
      (if s1.role = rHEADSTOCK then (s1.err pTWR 0x7222 0).setRole rHS_ALONE
       else if s1.role = rTAILSTOCK ∨ s1.role = rREJOIN then s1.enterClaiming
       else s1)
    else s1)

/-- TWIN_PEER is sampled 0.2 µs after the own claim (R325). -/
def execClaimSample (clocks : Nat) (s : State) : Host.Outcome State Fault Refusal :=
  .next (
    let s1 := s.advance clocks
    if s1.role = rCLAIMING ∧ s1.twin.claimAt.isSome ∧ !s1.peerAsserted then s1.takeRole false else s1)

/-- The claim override (R326, R327). -/
def execClaimOverride (clocks : Nat) (s : State) : Host.Outcome State Fault Refusal :=
  .next (
    let s1 := s.advance clocks
    if s1.role = rCLAIMING ∧ s1.peerAsserted ∧ s1.on pTWR TWR_CTRL_OVR_EN then s1.takeRole true else s1)

/-- Nibble k of the device identity (R319). -/
def State.identityNibble (s : State) (k : Nat) : Nat := bitsOf s.identityNat (4 * (k % 32)) 4

/-- Both modules claim within 2 µs: the line is released and a back-off runs (R319). -/
def execClaimContention (clocks : Nat) (s : State) : Host.Outcome State Fault Refusal :=
  .next (
    let s1 := s.advance clocks
    match s1.twin.claimAt with
    | some t =>
      if s1.role = rCLAIMING ∧ s1.on pTWR TWR_STAT_PEER ∧ t ≤ s1.twin.peerAt ∧ s1.twin.peerAt ≤ t + 1000 then
        let k := s1.twin.attempt
        (s1.setRole rUNPAIRED).modTwin fun z => { z with attempt := k + 1, backoff := true }
      else s1
    | none => s1)

/-- Time of the back-off after attempt k: 4 µs × (nibble k + 1), in clocks (R319). -/
def State.backoffClocks (s : State) (k : Nat) : Nat := 2000 * (s.identityNibble k + 1)

/-- The back-off ends, at the earliest when its time has passed: the module claims again, under Table 10-7 (R319). -/
def execClaimBackoffEnd (s : State) : Host.Outcome State Fault Refusal :=
  .next (
    if s.twin.backoff && s.roleRuns && s.role == rUNPAIRED then
      (s.advance (s.backoffClocks (s.twin.attempt - 1))).enterAlone
    else s)

/-- TWIN_PEER not asserted for 30 µs in TS_ALONE (Table 10-7). -/
def execTsAlonePeerTimeout (clocks : Nat) (s : State) : Host.Outcome State Fault Refusal :=
  .next (
    let s1 := s.advance clocks
    if s1.role = rTS_ALONE ∧ !s1.peerAsserted then s1.enterClaiming else s1)

/-! ALIVE, KEEP and software commands (R324, R331-R333). -/

def execAliveSend (clocks : Nat) (s : State) : Host.Outcome State Fault Refusal :=
  .next (
    let s1 := s.advance clocks
    if [rHEADSTOCK, rTAILSTOCK, rREJOIN, rHS_ALONE, rCLAIMING].contains s1.role then s1.twcSend [s1.twcHead 0 9] else s1)

/-- The frame is for this compute die, from the twin (Table 10-10). -/
def State.twcMine (s : State) (l : List Nat) : Bool :=
  s.up.compute && twcDest l == 0 && twcDst l == s.side && twcSrc l == 1 - s.side

def execAliveReceive (clocks : Nat) (octets : List Nat) (s : State) : Host.Outcome State Fault Refusal :=
  .next (
    let s1 := s.advance clocks
    if !twcGood octets then s1.twcDrop octets
    else if twcCmd octets = 9 ∧ s1.twcMine octets then
      let s2 := { s1 with phoask.aliveAt := s1.tb.clocks, phoask.aliveLost := false }
      (s2.cntWrap pTWR TWR_TWC_ALIVE).heard
    else s1)

/-- ALIVE frames missing while heartbeats arrive (R324); posted once until one arrives. -/
def execAliveTimeout (clocks : Nat) (s : State) : Host.Outcome State Fault Refusal :=
  .next (
    let s1 := s.advance clocks
    if [rHEADSTOCK, rTAILSTOCK, rREJOIN].contains s1.role && s1.aliveLate && !s1.hbLate && !s1.phoask.aliveLost then
      { s1.err pTWR 0x7221 0 with phoask.aliveLost := true }
    else s1)

/-- KEEP is repeated every 1 ms until the twin enters PAIRING (R333). -/
def execKeepRepeat (clocks : Nat) (s : State) : Host.Outcome State Fault Refusal :=
  .next (
    let s1 := s.advance clocks
    if s1.twin.control && s1.role == rHS_ALONE then s1.sendKeep else s1)

/-- The software command ends with a RESULT. -/
def State.twcEnds (s : State) (result : Nat) : State :=
  let s1 := ((s.set pTWR TWR_TWC_CMD_BUSY 0).set pTWR TWR_TWC_CMD_RESULT result).irq pTWR INT_TWR_TWC_DONE
  s1.modTwin fun z => { z with want := none }

/-- GO of TWR_TWC_CMD (R333, Table 10-15): SET, KEEP, SAFE, CLEAR or STATUS, in HS_ALONE until the twin has entered PAIRING (R332);
STATUS waits for its reply. -/
def State.twcGo (s : State) : State :=
  let cmd := s.get pTWR TWR_TWC_CMD_CMD
  let dest := s.get pTWR TWR_TWC_CMD_DIE
  let valid := decide (1 ≤ cmd ∧ cmd ≤ 5) && dest != 0 && !(cmd == 5 && dest == 3) && s.twcDie.isSome
  if s.role ≠ rHS_ALONE ∨ s.twin.rejoining ∨ !valid then s.twcEnds 2
  else
    let body := if cmd = 1 then
        bytesBE 2 (s.get pTWR TWR_TWC_ARG_MASK) ++ bytesBE 2 (s.get pTWR TWR_TWC_ARG_IMAGE)
      else if cmd = 4 then [s.get pTWR TWR_TWC_CMD_IDX] else []
    let s1 := s.twcCommand dest cmd body
    if cmd = 5 then
      ((s1.set pTWR TWR_TWC_CMD_BUSY 1).set pTWR TWR_TWC_CMD_RESULT 0).modTwin fun z => { z with want := some z.seq }
    else s1.twcEnds 1

/-- A write of TWR_TWC_CMD. While a STATUS waits for its reply, another GO is refused and the fields stay. -/
def twrTwcCmdEff (v : Word) (s : State) : State :=
  if s.on pTWR TWR_TWC_CMD_BUSY then
    (if v.getLsbD 16 then (s.set pTWR TWR_TWC_CMD_RESULT 2).irq pTWR INT_TWR_TWC_DONE else s)
  else
    let s1 := s.plain pTWR TWR_TWC_CMD v
    if v.getLsbD 16 then s1.twcGo else s1

def execTwrTwcCmd (a : Access) (v : Word) (s : State) : Host.Outcome State Fault Refusal :=
  .next (s.regWrite a pTWR TWR_TWC_CMD v noCause (twrTwcCmdEff v))

def execTwcReplyTimeout (clocks : Nat) (s : State) : Host.Outcome State Fault Refusal :=
  .next (
    let s1 := s.advance clocks
    if s1.on pTWR TWR_TWC_CMD_BUSY then s1.twcEnds 3 else s1)

/-- A STATUS reply: a power die sends its own, or the compute die receives the one it waits for (R331, Table 10-14). -/
def execTwcStatusReply (clocks : Nat) (r : TwcReply) (s : State) : Host.Outcome State Fault Refusal :=
  .next (
    let s1 := s.advance clocks
    match r with
    | .send die => s1.sendStatus die.val
    | .receive octets =>
      if !twcGood octets then s1.twcDrop octets
      else if twcCmd octets = 8 ∧ s1.twcMine octets ∧ s1.twin.want = some (nth octets 1 0) then
        (s1.each [0, 1, 2] fun s k => s.wrn pTWR (TWR_TWC_RSP k) (ofBytesBE ((octets.drop (2 + 4 * k)).take 4))).twcEnds 1
      else s1)

def twrCntClrEff (v : Word) (s : State) : State :=
  if v.getLsbD 0 then s.each [TWR_CMP, TWR_IMG, TWR_TAKE, TWR_TWC] fun s off => s.wrn pTWR off 0 else s

def execTwrCntClr (a : Access) (v : Word) (s : State) : Host.Outcome State Fault Refusal :=
  .next (s.regWrite a pTWR TWR_CNT_CLR v noCause (twrCntClrEff v))

/-! Handover and rejoin (R320, R334, R335). -/

/-- HANDOVER is refused outside HEADSTOCK (R320). -/
def twrCtrlPre (v : Word) (s : State) : Option Nat :=
  if v.getLsbD 1 && s.role != rHEADSTOCK then some 0x0B else none

/-- A handover or end-of-rejoin packet that names the second boundary after now (R320, R335). -/
def State.nameBoundary (s : State) (ends : Bool) : State :=
  let cycle := ((s.rd pIXP IXP_CYC).toNat + 2) % 2 ^ 32
  (s.sendRsv 2 2 0x14 (bytesBE 4 cycle ++ [ends.toNat, 0, 0, 0])).modTwin fun z => { z with roleAt := some (cycle, ends) }

def twrCtrlEff (v : Word) (s : State) : State :=
  let was := s.roleRuns
  let s1 := (s.plain pTWR TWR_CTRL v).roleEnable was
  if v.getLsbD 1 && s1.role == rHEADSTOCK then s1.nameBoundary false else s1

def execHandover (a : Access) (v : Word) (s : State) : Host.Outcome State Fault Refusal :=
  .next (s.regWrite a pTWR TWR_CTRL v (twrCtrlPre v) (twrCtrlEff v))

def execHandoverPacket (clocks cycle : Nat) (rejoinEnds : Bool) (s : State) : Host.Outcome State Fault Refusal :=
  .next (
    let s1 := s.advance clocks
    if s1.brUp 2 && s1.role == (if rejoinEnds then rREJOIN else rTAILSTOCK) then
      s1.modTwin fun z => { z with roleAt := some (cycle % 2 ^ 32, rejoinEnds) }
    else s1)

/-- The real-time pairs go on from the state mirrored to them (R335). -/
def State.pairsFromMirror (s : State) : State :=
  s.each [4, 5] fun s k =>
    let c := 8 + 2 * (k - 4)
    if s.coreReleased c then
      let s1 := (s.pairRelease k).set (pCORE c) CORE_STAT_RUNNING 1
      (s1.set (pCORE (c + 1)) CORE_STAT_RUNNING 1).emit (.pairStart k)
    else s

/-- A cycle boundary that begins a cycle: the role change that names it (R320, R335, Table 10-7). -/
def State.roleBoundary (s : State) : State :=
  match s.twin.roleAt with
  | none => s
  | some (c, ends) =>
    if 2 ^ 31 ≤ ((s.rd pIXP IXP_CYC).toNat + 2 ^ 32 - c) % 2 ^ 32 then s
    else if ends then
      (if s.role = rREJOIN then ((s.setRole rTAILSTOCK).pairsFromMirror).irq pTWR INT_TWR_REJOIN_DONE
       else if s.role = rHS_ALONE then (s.setRole rHEADSTOCK).irq pTWR INT_TWR_REJOIN_DONE
       else s)
    else if s.role = rHEADSTOCK then s.setRole rTAILSTOCK
    else if s.role = rTAILSTOCK then s.setRole rHEADSTOCK
    else s

/-- The areas of a checkpoint mirror packet: first address and size (Table 10-5, R334); area 3 holds the slots of RP0 and
RP1 in checkpoint SRAM. -/
def State.mirrorArea (s : State) (area : Nat) : Nat × Nat :=
  if area = 0 then (0x12000000, 0x20000)
  else if area = 1 then (0x12040000, 0x20000)
  else if area = 2 then (0x10000000 + s.get pTWR TWR_MIR_BASE_OFS * 0x1000, s.get pTWR TWR_MIR_SIZE_PAGES * 0x1000)
  else (0x11100000, 0x80000)

def State.sendMirror (s : State) (area off : Nat) (data : List Nat) : State :=
  s.sendRsv 2 3 0x20 (bytesBE 4 off ++ [area, 0, 0, 0] ++ data)

/-- The Headstock sends the next piece of the copy (R334): 4 to 256 bytes of an area. -/
def execRejoinCopy (area : Fin 4) (off : Nat) (len : Nat) (s : State) : Host.Outcome State Fault Refusal :=
  .next (
    let (base, size) := s.mirrorArea area.val
    if s.role = rHS_ALONE ∧ s.twin.rejoining ∧ s.brUp 2 ∧ 4 ≤ len ∧ len ≤ 256 ∧ off + len ≤ size then
      (s.modTwin fun z => { z with copying := true }).sendMirror area.val off (s.bytes (base + off) len)
    else s)

/-- From the first flit of the copy on, every store that a real-time pair releases into the areas is sent too (R334). -/
def State.mirrorStore (s : State) (addr : Nat) (data : List Nat) : State :=
  if !s.twin.copying || s.role != rHS_ALONE then s
  else
    match [0, 1, 2].find? fun a =>
        let (base, size) := s.mirrorArea a
        decide (base ≤ addr) && decide (addr + data.length ≤ base + (if a < 2 then 2 * size else size)) with
    | some a =>
      let (base, size) := s.mirrorArea a
      s.sendMirror a ((addr - base) % (max 1 size)) data
    | none => s

/-- The rejoining module loads a piece of the copy or a store (R334): the memory of both cores of a pair, the mirror range,
the slots. -/
def execCheckpointMirrorPacket (clocks : Nat) (area : Fin 4) (off : Nat) (data : List Nat) (s : State) :
    Host.Outcome State Fault Refusal :=
  .next (
    let s1 := s.advance clocks
    let (base, size) := s1.mirrorArea area.val
    -- a slot is written only while its pair is DOWN (spec/14 R428)
    let open' := area.val != 3 || s1.pairState (4 + off / 0x40000) == cDOWN
    if s1.role = rREJOIN ∧ s1.brUp 2 ∧ off + data.length ≤ size ∧ open' then
      let s2 := s1.setBytes (base + off) data
      if area.val < 2 then s2.setBytes (base + 0x20000 + off) data else s2
    else s1)

/-- Every copy and store is acknowledged (no packet waits, and the twin has acknowledged every flit) and the twin's time aligned: the
end of the rejoin is named (R335). -/
def execRejoinEnd (s : State) : Host.Outcome State Fault Refusal :=
  .next (
    if s.role = rHS_ALONE ∧ s.twin.copying ∧ s.twin.roleAt.isNone ∧ s.brUp 2 ∧
        ((s.bridge 2).waiting.all fun w => w.1 != 3) ∧ (s.bridge 2).acked = (s.bridge 2).sent then s.nameBoundary true
    else s)

/-- A rejoin is abandoned (R335, Table 10-7). -/
def State.rejoinDropped (s : State) : State :=
  if s.role = rREJOIN then (s.err pTWR 0x721F 0).enterUnpaired
  else s.modTwin fun z =>
    { z with rejoining := false, copying := false
             roleAt := match z.roleAt with | some (_, true) => none | r => r }

def execRejoinTimeout (clocks : Nat) (s : State) : Host.Outcome State Fault Refusal :=
  .next (
    let s1 := s.advance clocks
    if s1.role = rREJOIN ∨ s1.twin.rejoining then s1.rejoinDropped else s1)

/-! Images (R322, R323). -/

/-- The twins exchange images: paired (R5, R335), the link up and not counted down (R324). -/
def State.exchanging (s : State) : Bool :=
  (s.role == rHEADSTOCK || s.role == rTAILSTOCK) && s.brUp 2 && !s.hbLate && !s.twin.differs

/-- A code that is posted at most once per cycle. -/
def State.oncePerCycle (s : State) (code : Nat) : State :=
  let cyc := (s.rd pIXP IXP_CYC).toNat + 1
  if sget 0 code s.twin.posted = cyc then s
  else { s with twin.posted := sput 0 code cyc s.twin.posted }.err pTWR code 0

/-- The status word of the twin image is written (R322). -/
def State.writeImgStatus (s : State) (v : Nat) : State :=
  (s.modTwin fun z => { z with imgStatus := v }).toCores 0x80 (bytesLE 4 v)

/-- FRESH falls to 0, the last image stays. -/
def State.imgStale (s : State) : State :=
  if s.twin.imgStatus.testBit 0 then s.writeImgStatus (putBits s.twin.imgStatus 0 1 0) else s

/-- At an edge the local input image goes to the twin, and the twin's is due (R322). -/
def State.twinImageAtEdge (s : State) (pos : Nat) (image : List Nat) : State :=
  if s.exchanging then
    (s.sendRsv 2 2 0x10 image).modTwin fun z => { z with imgDue := some ((s.rd pIXP IXP_CYC).toNat % 0x10000, pos) }
  else (s.modTwin fun z => { z with imgDue := none }).imgStale

/-- The twin's input image of the edge arrives (R322). One that comes after its 3.0 µs is not written. -/
def execInputImagePacket (clocks : Nat) (octets : List Nat) (s : State) : Host.Outcome State Fault Refusal :=
  .next (
    let s1 := s.advance clocks
    if s1.exchanging && s1.twin.imgDue.isSome && octets.length == 64 then
      let s2 := (s1.modTwin fun z => { z with imgDue := none }).toCores 0x40 octets
      s2.writeImgStatus (1 + 2 * (1 - s2.side) + 0x10000 * ofBytesLE (octets.take 2))
    else s1)

def execTwinImageLate (clocks : Nat) (s : State) : Host.Outcome State Fault Refusal :=
  .next (
    let s1 := s.advance clocks
    if s1.exchanging && s1.twin.imgDue.isSome then
      let s2 := (s1.modTwin fun z => { z with imgDue := none }).imgStale
      (s2.cnt pTWR TWR_IMG_LATE).oncePerCycle 0x7215
    else s1)

/-- The combined image is written into a die's PDC_OUT_IMG (R323). -/
def State.writeOutImg (s : State) (d img : Nat) : State :=
  if s.dieUp d then (s.set (pPDC d) PDC_OUT_IMG_IMG img).noteCmds d else s

/-- (own AND NOT DUAL) OR (Headstock AND DUAL). -/
def combineImg (own hs m : Nat) : Nat := (own &&& (0xFFFF - m)) ||| (hs &&& m)

/-- Both images of a position are there: compared and combined (R323). -/
def State.combine (s : State) : State :=
  match s.twin.ownImg, s.twin.hsImg with
  | some o, some h =>
    if o.cycle = h.cycle ∧ o.pos = h.pos then
      let ma := s.dualMask 0
      let mb := s.dualMask 1
      let s1 := s.modTwin fun z => { z with ownImg := none, hsImg := none }
      let s2 := if (o.a ^^^ h.a) &&& ma ≠ 0 ∨ (o.b ^^^ h.b) &&& mb ≠ 0 then
          ((s1.cnt pTWR TWR_CMP_MISM).irq pTWR INT_TWR_MISMATCH).oncePerCycle 0x7213
        else s1
      (s2.writeOutImg 0 (combineImg o.a h.a ma)).writeOutImg 1 (combineImg o.b h.b mb)
    else s
  | _, _ => s

/-- A real-time pair has released its checkpoint (R323, R333): the Headstock sends the released images, the Tailstock takes
them as its own and waits for the Headstock's image of that position, whether the link is up or not, a Headstock with TWC control sends what has changed. -/
def State.outputsReleased (s : State) : State :=
  let cyc := (s.rd pIXP IXP_CYC).toNat % 0x10000
  let pos := s.get pIXP IXP_STAT_CUR_IX
  if s.role = rHEADSTOCK then
    (if s.exchanging then
      s.sendRsv 2 2 0x11 (bytesBE 2 cyc ++ [pos, 0] ++ bytesBE 2 (s.get (pPDC 0) PDC_OUT_IMG_IMG)
        ++ bytesBE 2 (s.get (pPDC 1) PDC_OUT_IMG_IMG) ++ bytesBE 2 (s.ownDual 0) ++ bytesBE 2 (s.ownDual 1))
     else s)
  else if s.role = rTAILSTOCK then
    (s.modTwin fun z => { z with ownImg := some ⟨cyc, pos, nth z.own 0 0, nth z.own 1 0⟩ }).combine
  else if s.role = rHS_ALONE ∧ s.twin.control then s.dualSets
  else s

def execOutputImagePacket (clocks cycle pos imgA imgB : Nat) (s : State) : Host.Outcome State Fault Refusal :=
  .next (
    let s1 := s.advance clocks
    if s1.role = rTAILSTOCK ∧ s1.exchanging then
      (s1.modTwin fun z =>
        { z with hsImg := some ⟨cycle % 0x10000, pos % 64, imgA % 0x10000, imgB % 0x10000⟩ }).combine
    else s1)

/-- IMG_CUT before the switching edge the Headstock's image has not arrived: the own released image stands (R323). -/
def execOutputImageCut (clocks : Nat) (s : State) : Host.Outcome State Fault Refusal :=
  .next (
    let s1 := s.advance clocks
    if s1.role = rTAILSTOCK ∧ s1.twin.ownImg.isSome then
      let s2 := s1.modTwin fun z => { z with ownImg := none }
      ((s2.cnt pTWR TWR_CMP_MISS).irq pTWR INT_TWR_IMG_MISS).oncePerCycle 0x7214
    else s1)

end Sys2Proof.Machine
end

