-- ==== Sys2Proof/Machine/Phoask.lean ====
section
/-!
DEFINITION. The Phoask link (spec/10 R298-R304): training, link-downs, link-control flits with heartbeats, TW flits, and
the flits that carry packets.
-/

namespace Sys2Proof.Machine

/-- The link is enabled: BLK_CTRL.EN of the TWL page (R303) and TWL_CTRL.EN. -/
def State.twlEnabled (s : State) : Bool := s.up.compute && s.on pTWL BLK_CTRL_EN && s.on pTWL TWL_CTRL_EN

/-- Training begins (R303). -/
def State.startTraining (s : State) : State :=
  if s.twlEnabled then (s.set pTWL TWL_STAT_ST 1).cnt pTWL TWL_CNT_TRAIN_TRAIN else s.set pTWL TWL_STAT_ST 0

/-- What the loss of the link means to the roles (Table 10-7). -/
def State.roleLinkDown (s : State) : State :=
  if s.role = rPAIRING then s.setRole rUNPAIRED
  else if s.role = rREJOIN ∨ s.twin.rejoining then s.rejoinDropped
  else s

/-- The link goes down and trains again at once (R303). DESIGN CHOICE: a twin found to be of another variant or revision counts as lost
(spec/00 R5) until then; the next pairing packet judges anew. -/
def State.phoaskDown (s : State) : State :=
  if !s.phoaskUp then s
  else
    let s1 := ((s.set pTWL TWL_STAT_LANES 0).cnt pTWL TWL_CNT_TRAIN_DOWN).irq pTWL INT_TWL_DOWN
    let s2 := (s1.err pTWL 0x7216 0).startTraining
    let s3 := ((s2.peerDown 2).linkLost 2).migEnds false
    let s4 := { s3 with phoask.tw := [none, none], phoask.hbLast := none }
    ((s4.modTwin fun z => { z with differs := false, imgDue := none }).imgStale).roleLinkDown

def execCtlFlitTimeout (clocks : Nat) (s : State) : Host.Outcome State Fault Refusal := .next (s.advance clocks).phoaskDown

def execBadFlitLimit (clocks : Nat) (s : State) : Host.Outcome State Fault Refusal := .next (s.advance clocks).phoaskDown

def execLaneLockLoss (clocks : Nat) (s : State) : Host.Outcome State Fault Refusal := .next (s.advance clocks).phoaskDown

/-- The enables or RETRAIN have been written (R303). -/
def State.twlWritten (s : State) (retrain : Bool) : State :=
  if !s.twlEnabled then s.phoaskDown.startTraining
  else if s.phoaskUp then (if retrain then s.phoaskDown else s)
  else if retrain || s.get pTWL TWL_STAT_ST == 0 then s.startTraining
  else s

def twlCtrlEff (v : Word) (s : State) : State := (s.plain pTWL TWL_CTRL v).twlWritten (v.getLsbD 2)

def execTwlRetrain (a : Access) (v : Word) (s : State) : Host.Outcome State Fault Refusal :=
  .next (s.regWrite a pTWL TWL_CTRL v noCause (twlCtrlEff v))

/-- The link comes up: pairing begins (Table 10-7), the link delay is taken over (R75). -/
def State.phoaskComesUp (s : State) (st lanes delay : Nat) : State :=
  let s1 := (((s.set pTWL TWL_STAT_ST st).set pTWL TWL_STAT_LANES lanes).irq pTWL INT_TWL_UP).wrn pTMB TMB_TWIN_DLY delay
  let s2 := { s1 with phoask.hbAt := s1.tb.clocks, phoask.hbLast := none }
  if s2.role = rTS_ALONE ∨ (s2.roleRuns ∧ s2.role = rUNPAIRED) then s2.enterPairing
  else if s2.role = rHS_ALONE then s2.modTwin fun z => { z with gotPair := false, sentPair := false }
  else if [rHEADSTOCK, rTAILSTOCK, rREJOIN].contains s2.role then s2.twPortUp
  else s2

/-- A training attempt ends with the lanes that trained (R303); one that brings no link up is followed by another. -/
def execLaneTrainingDone (clocks : Nat) (lanes : Fin 4) (delay : Nat) (s : State) : Host.Outcome State Fault Refusal :=
  .next (
    let s1 := s.advance clocks
    if !s1.twlEnabled || s1.get pTWL TWL_STAT_ST != 1 then s1
    else if lanes.val = 3 then s1.phoaskComesUp 2 3 delay
    else if lanes.val ≠ 0 ∧ s1.on pTWL TWL_CTRL_SINGLE_OK then
      ((s1.phoaskComesUp 3 lanes.val delay).irq pTWL INT_TWL_SINGLE).err pTWL 0x7220 0
    else s1.startTraining)

def twlCntClrEff (v : Word) (s : State) : State :=
  if v.getLsbD 0 then s.each [TWL_CNT_CRC, TWL_CNT_TWDROP, TWL_CNT_TRAIN] fun s off => s.wrn pTWL off 0 else s

def execTwlCntClr (a : Access) (v : Word) (s : State) : Host.Outcome State Fault Refusal :=
  .next (s.regWrite a pTWL TWL_CNT_CLR v noCause (twlCntClrEff v))

/-! Link-control flits (R304, Table 10-3). -/

/-- ROLE as a CTL flit shows it. -/
def State.roleField (s : State) : Nat :=
  if s.isHeadstock then 1 else if s.role = rTAILSTOCK then 2 else if s.role = rREJOIN then 3 else 0

/-- Bytes 0 to 11 of a CTL flit: kind, sequence, role bits (twin bridge), NAK, ACK and credits. -/
def State.ctlHead (s : State) (b kind seq : Nat) : List Nat :=
  let z := s.bridge b
  let bits := if b = 2 then s.roleField * 64 + s.claim.toNat * 32 + s.side * 8 else 0
  [kind * 16 + seq, bits + z.nak.toNat * 16] ++ bytesBE 2 z.good
    ++ ((List.range 4).map fun vc => bytesBE 2 (nth z.vcFreed vc 0)).flatten

/-- NAK has gone out in a CTL flit (R302). -/
def State.nakSent (s : State) (b : Nat) : State := s.modBridge b fun z => { z with nak := false }

/-- An ACK flit. -/
def State.sendAck (s : State) (b : Nat) : State := (s.emit (.ctl b (s.ctlHead b 2 0 ++ List.replicate 18 0))).nakSent b

/-- Module time in the 80-bit format of Table 03-1. -/
def time80 (q : Nat) : List Nat := bytesBE 6 (q / quartersPerSecond) ++ bytesBE 4 (q % quartersPerSecond)

/-- A heartbeat flit of module time q. -/
def State.heartbeat (s : State) (q : Nat) : List Nat :=
  s.ctlHead 2 1 s.phoask.hbSeq ++ time80 q ++ bytesBE 2 ((s.rd pIXP IXP_CYC).toNat % 0x10000)
    ++ [s.get pIXP IXP_STAT_CUR_IX] ++ List.replicate 5 0

/-- In the first CTL slot at or after each 2 µs of module time a heartbeat goes out; `slot` clocks from the multiple. -/
def execHeartbeatSend (slot : Fin 64) (s : State) : Host.Outcome State Fault Refusal :=
  .next (
    if s.phoaskUp && s.timeRuns then
      let m := max s.phoask.hbNext ((s.nowQ + 7999) / 8000)
      let s1 := (s.advanceTo (m * 8000)).advance slot.val
      { (s1.emit (.ctl 2 (s1.heartbeat s1.nowQ))).nakSent 2 with
        phoask.hbSeq := (s1.phoask.hbSeq + 1) % 16, phoask.hbNext := m + 1 }
    else s)

/-- A big-endian field of a flit. -/
def flitField (l : List Nat) (start n : Nat) : Nat := ofBytesBE ((l.drop start).take n)

/-- Credits, acknowledgement and NAK of a CTL flit (R302, R306). -/
def State.ctlCredits (s : State) (b : Nat) (l : List Nat) : State :=
  if !s.brUp b then s
  else
    let ack := flitField l 2 2
    let s1 := (s.modBridge b fun z =>
      { z with acked := ack, vcBack := (List.range 4).map fun vc => flitField l (4 + 2 * vc) 2 }).drain b
    if (nth l 1 0).testBit 4 then s1.replayFlits b ack else s1

/-- A heartbeat of the twin (R75, R304, R324). -/
def State.heartbeatIn (s : State) (l : List Nat) : State :=
  let seq := nth l 0 0 % 16
  let role := bitsOf (nth l 1 0) 6 2
  let missed := match s.phoask.hbLast with | some n => (seq + 31 - n) % 16 | none => 0
  let s1 := if missed = 0 then s else s.cnt pTWR TWR_IMG_HB_MISS missed
  let s2 := ({ s1 with phoask.hbAt := s1.tb.clocks, phoask.hbLast := some seq }).set pTWR TWR_STAT_TWIN_ROLE role
  let s3 := s2.heard
  let t := flitField l 12 6 * quartersPerSecond + flitField l 18 4
  if role = 1 then s3.twinTimeWord ((s3.nowQ : Int) - (t + (s3.rd pTMB TMB_TWIN_DLY).toNat : Nat)) else s3

/-- A good CTL flit arrives on a bridge: its 30 payload bytes. One whose KIND is not valid is discarded. -/
def execCtlFlitReceive (clocks : Nat) (br : Fin 3) (octets : List Nat) (s : State) : Host.Outcome State Fault Refusal :=
  .next (
    let s1 := s.advance clocks
    let b := br.val
    let kind := nth octets 0 0 / 16
    if !s1.brLink b || octets.length != 30 || kind == 0 || 4 < kind then s1
    else
      let s2 := s1.ctlCredits b octets
      if kind = 4 ∧ b = 2 then s2.peerDown b
      else if kind = 1 ∧ b = 2 then s2.heartbeatIn octets
      else s2)

/-! TW flits (R300, R301). -/

/-- A bad TW flit drops its frame (R301). -/
def State.twBad (s : State) (k : Nat) : State :=
  let s1 := ({ s with phoask.tw := setNth s.phoask.tw k none }.cnt32 pTWL TWL_CNT_CRC).cnt32 pTWL TWL_CNT_TWDROP
  s1.errLimited 0xD00 clocksPerMs pTWL 0x701B 0

/-- The octets of a frame grow; a whole frame goes into the ingress pipeline of port TW. `start` is the clock of its first flit
(spec/04 R141). -/
def State.twGrow (s : State) (k len start : Nat) (l : List Nat) : State :=
  if l.length < len then { s with phoask.tw := setNth s.phoask.tw k (some (len, start, l)) }
  else
    let f := l.take len
    let body := f.take (len - 4)
    let s1 := { s with phoask.tw := setNth s.phoask.tw k none }
    if s1.switchUp && s1.linkUp 2 then s1.receive 2 ⟨body, crc32 body == ofBytesLE (f.drop (len - 4)), true, [], 8 * (s1.tb.clocks - start)⟩ else s1

/-- A TW flit: types 0x2, 0x3 express, 0x6, 0x7 preemptable; first and next (Table 10-2). -/
def execTwFlitReceive (clocks : Nat) (ty : Fin 16) (octets : List Nat) (good : Bool) (s : State) :
    Host.Outcome State Fault Refusal :=
  .next (
    let s1 := s.advance clocks
    let k := ty.val / 4
    if !s1.phoaskUp || !(ty.val == 2 || ty.val == 3 || ty.val == 6 || ty.val == 7) then s1
    else if !good || octets.length != 30 then s1.twBad k
    else if ty.val % 2 = 0 then s1.twGrow k (flitField octets 0 2) s1.tb.clocks (octets.drop 2)
    else
      match nth s1.phoask.tw k none with
      | some (len, start, l) => s1.twGrow k len start (l ++ octets)
      | none => s1)

/-! RSV flits (R302, R306, Table 10-2). -/

/-- A good RSV flit in its order joins the packet of its VC and frees its buffer; a packet that is whole is answered. -/
def State.rsvGrow (s : State) (b ty : Nat) (octets : List Nat) : State × Option (List Nat) :=
  let vc := ty % 4
  let l := if ty < 12 then octets else nth (s.bridge b).part vc [] ++ octets
  let whole := decide (4 ≤ l.length) && decide (4 + flitField l 2 2 ≤ l.length)
  let s1 := s.modBridge b fun z =>
    { z with good := (z.good + 1) % 65536, nak := false
             vcFreed := modNth z.vcFreed vc fun n => (n + 1) % 65536
             part := setNth z.part vc (if whole then [] else l) }
  (s1, if whole && !(ty ≥ 12 && (nth (s.bridge b).part vc []).isEmpty) then some (l.take (4 + flitField l 2 2)) else none)

/-- An RSV flit arrives: a bad one is discarded with those after it, and NAK goes out in the next CTL flit (R302). `order` is
the flit's place in the sender's order. -/
def State.rsvFlit (s : State) (b ty order : Nat) (octets : List Nat) (good : Bool) : State × Option (List Nat) :=
  if !s.brUp b then (s, none)
  else if !good || ty < 8 || octets.length != 30 then
    let s1 := if b = 2 then s.cnt32 pTWL TWL_CNT_CRC else s
    ((s1.modBridge b fun z => { z with nak := true }).sendAck b, none)
  else if order % 65536 ≠ (s.bridge b).good then (s, none)
  else s.rsvGrow b ty octets

end Sys2Proof.Machine
end

