-- ==== Sys2Proof/Machine/Crypto.lean ====
section
/-!
DEFINITION. The functions that spec/15 names: SHA-256 and HMAC-SHA-256, the counter-mode derivation of SP 800-108 (R439),
AES-256, AES-CMAC of SP 800-38B (R454) and the key wrap of RFC 3394 (R443), all over lists of bytes. What these standards
compute is taken from the standards (PRESUMED); SLH-DSA.Verify of FIPS 205 is the uninterpreted Config.slhVerify.
-/

namespace Sys2Proof.Machine

/-! SHA-256. -/

def sha256K : List Nat :=
  [0x428a2f98, 0x71374491, 0xb5c0fbcf, 0xe9b5dba5, 0x3956c25b, 0x59f111f1, 0x923f82a4, 0xab1c5ed5] ++
  [0xd807aa98, 0x12835b01, 0x243185be, 0x550c7dc3, 0x72be5d74, 0x80deb1fe, 0x9bdc06a7, 0xc19bf174] ++
  [0xe49b69c1, 0xefbe4786, 0x0fc19dc6, 0x240ca1cc, 0x2de92c6f, 0x4a7484aa, 0x5cb0a9dc, 0x76f988da] ++
  [0x983e5152, 0xa831c66d, 0xb00327c8, 0xbf597fc7, 0xc6e00bf3, 0xd5a79147, 0x06ca6351, 0x14292967] ++
  [0x27b70a85, 0x2e1b2138, 0x4d2c6dfc, 0x53380d13, 0x650a7354, 0x766a0abb, 0x81c2c92e, 0x92722c85] ++
  [0xa2bfe8a1, 0xa81a664b, 0xc24b8b70, 0xc76c51a3, 0xd192e819, 0xd6990624, 0xf40e3585, 0x106aa070] ++
  [0x19a4c116, 0x1e376c08, 0x2748774c, 0x34b0bcb5, 0x391c0cb3, 0x4ed8aa4a, 0x5b9cca4f, 0x682e6ff3] ++
  [0x748f82ee, 0x78a5636f, 0x84c87814, 0x8cc70208, 0x90befffa, 0xa4506ceb, 0xbef9a3f7, 0xc67178f2]

def sha256H : List Nat :=
  [0x6a09e667, 0xbb67ae85, 0x3c6ef372, 0xa54ff53a, 0x510e527f, 0x9b05688c, 0x1f83d9ab, 0x5be0cd19]

abbrev w32 : Nat := 2 ^ 32

def rotr32 (x n : Nat) : Nat := x >>> n ||| x <<< (32 - n) % w32

def shaS0 (x : Nat) : Nat := rotr32 x 2 ^^^ rotr32 x 13 ^^^ rotr32 x 22
def shaS1 (x : Nat) : Nat := rotr32 x 6 ^^^ rotr32 x 11 ^^^ rotr32 x 25
def shaG0 (x : Nat) : Nat := rotr32 x 7 ^^^ rotr32 x 18 ^^^ x >>> 3
def shaG1 (x : Nat) : Nat := rotr32 x 17 ^^^ rotr32 x 19 ^^^ x >>> 10

/-- The message schedule, newest word first: n more words after those of l. -/
def shaExtend : Nat → List Nat → List Nat
  | 0, l => l
  | n + 1, l => shaExtend n ((shaG1 (nth l 1 0) + nth l 6 0 + shaG0 (nth l 14 0) + nth l 15 0) % w32 :: l)

/-- The eight working words. -/
structure ShaWords where
  a : Nat
  b : Nat
  c : Nat
  d : Nat
  e : Nat
  f : Nat
  g : Nat
  h : Nat
  deriving DecidableEq, Repr

def shaRound (v : ShaWords) (kw : Nat × Nat) : ShaWords :=
  let t1 := v.h + shaS1 v.e + ((v.e &&& v.f) ^^^ ((w32 - 1 - v.e) &&& v.g)) + kw.1 + kw.2
  let t2 := shaS0 v.a + ((v.a &&& v.b) ^^^ (v.a &&& v.c) ^^^ (v.b &&& v.c))
  ⟨(t1 + t2) % w32, v.a, v.b, v.c, (v.d + t1) % w32, v.e, v.f, v.g⟩

def ShaWords.ofList (l : List Nat) : ShaWords :=
  ⟨nth l 0 0, nth l 1 0, nth l 2 0, nth l 3 0, nth l 4 0, nth l 5 0, nth l 6 0, nth l 7 0⟩

def ShaWords.toList (v : ShaWords) : List Nat := [v.a, v.b, v.c, v.d, v.e, v.f, v.g, v.h]

/-- A list cut into n pieces of k elements. -/
def chunks {α : Type} (k : Nat) : Nat → List α → List (List α)
  | 0, _ => []
  | n + 1, l => l.take k :: chunks k n (l.drop k)

def shaBlock (h : List Nat) (block : List Nat) : List Nat :=
  let w := (shaExtend 48 ((chunks 4 16 block).map ofBytesBE).reverse).reverse
  let v := (sha256K.zip w).foldl shaRound (ShaWords.ofList h)
  (h.zip v.toList).map fun e => (e.1 + e.2) % w32

def shaPad (l : List Nat) : List Nat :=
  l ++ 0x80 :: List.replicate ((119 - l.length % 64) % 64) 0 ++ bytesBE 8 (8 * l.length)

/-- SHA-256: 32 bytes. -/
def sha256 (l : List Nat) : List Nat :=
  let m := shaPad l
  (((chunks 64 (m.length / 64) m).foldl shaBlock sha256H).map (bytesBE 4)).flatten

def xorBytes (a b : List Nat) : List Nat := (a.zip b).map fun e => e.1 ^^^ e.2

/-- HMAC-SHA-256 under a key of at most 64 bytes. -/
def hmacSha256 (key l : List Nat) : List Nat :=
  let k := key ++ List.replicate (64 - key.length) 0
  let pad (b : Nat) := k.map fun x => x ^^^ b
  sha256 (pad 0x5C ++ sha256 (pad 0x36 ++ l))

/-- The first block of the counter-mode derivation (R439). -/
def kdf256 (root label context : List Nat) : List Nat :=
  hmacSha256 root (bytesBE 4 1 ++ label ++ 0 :: context ++ bytesBE 4 256)

/-! AES-256. -/

/-- Multiplication by x in GF(2^8) modulo x^8 + x^4 + x^3 + x + 1. -/
def xtime (a : Nat) : Nat := if a < 128 then 2 * a else (2 * a % 256) ^^^ 0x1B

/-- Product in GF(2^8), over the n lowest bits of b. -/
def gfMul : Nat → Nat → Nat → Nat
  | 0, _, _ => 0
  | n + 1, a, b => (if b % 2 = 1 then a else 0) ^^^ gfMul n (xtime a) (b / 2)

def gfSq (a : Nat) : Nat := gfMul 8 a a

/-- a^254, the inverse of a ≠ 0: squares times a, seven times, then a last square. -/
def gfInvAcc : Nat → Nat → Nat → Nat
  | 0, _, acc => gfSq acc
  | n + 1, a, acc => gfInvAcc n a (gfMul 8 (gfSq acc) a)

def gfInv (a : Nat) : Nat := gfInvAcc 6 a a

def rotl8 (x n : Nat) : Nat := (x * 2 ^ n ||| x / 2 ^ (8 - n)) % 256

def sboxOf (a : Nat) : Nat :=
  let b := gfInv a
  b ^^^ rotl8 b 1 ^^^ rotl8 b 2 ^^^ rotl8 b 3 ^^^ rotl8 b 4 ^^^ 0x63

/-- The inverse substitution: the inverse of the affine part, then of the field. -/
def invSboxOf (a : Nat) : Nat := gfInv (rotl8 a 1 ^^^ rotl8 a 3 ^^^ rotl8 a 6 ^^^ 0x05)

/-- The substitution as a table, 16 to a row: Laws/Crypto.lean shows that it is sboxOf. -/
def aesRows : List (List Nat) :=
  [ [0x63, 0x7c, 0x77, 0x7b, 0xf2, 0x6b, 0x6f, 0xc5, 0x30, 0x01, 0x67, 0x2b, 0xfe, 0xd7, 0xab, 0x76]
  , [0xca, 0x82, 0xc9, 0x7d, 0xfa, 0x59, 0x47, 0xf0, 0xad, 0xd4, 0xa2, 0xaf, 0x9c, 0xa4, 0x72, 0xc0]
  , [0xb7, 0xfd, 0x93, 0x26, 0x36, 0x3f, 0xf7, 0xcc, 0x34, 0xa5, 0xe5, 0xf1, 0x71, 0xd8, 0x31, 0x15]
  , [0x04, 0xc7, 0x23, 0xc3, 0x18, 0x96, 0x05, 0x9a, 0x07, 0x12, 0x80, 0xe2, 0xeb, 0x27, 0xb2, 0x75] ] ++
  [ [0x09, 0x83, 0x2c, 0x1a, 0x1b, 0x6e, 0x5a, 0xa0, 0x52, 0x3b, 0xd6, 0xb3, 0x29, 0xe3, 0x2f, 0x84]
  , [0x53, 0xd1, 0x00, 0xed, 0x20, 0xfc, 0xb1, 0x5b, 0x6a, 0xcb, 0xbe, 0x39, 0x4a, 0x4c, 0x58, 0xcf]
  , [0xd0, 0xef, 0xaa, 0xfb, 0x43, 0x4d, 0x33, 0x85, 0x45, 0xf9, 0x02, 0x7f, 0x50, 0x3c, 0x9f, 0xa8]
  , [0x51, 0xa3, 0x40, 0x8f, 0x92, 0x9d, 0x38, 0xf5, 0xbc, 0xb6, 0xda, 0x21, 0x10, 0xff, 0xf3, 0xd2] ] ++
  [ [0xcd, 0x0c, 0x13, 0xec, 0x5f, 0x97, 0x44, 0x17, 0xc4, 0xa7, 0x7e, 0x3d, 0x64, 0x5d, 0x19, 0x73]
  , [0x60, 0x81, 0x4f, 0xdc, 0x22, 0x2a, 0x90, 0x88, 0x46, 0xee, 0xb8, 0x14, 0xde, 0x5e, 0x0b, 0xdb]
  , [0xe0, 0x32, 0x3a, 0x0a, 0x49, 0x06, 0x24, 0x5c, 0xc2, 0xd3, 0xac, 0x62, 0x91, 0x95, 0xe4, 0x79]
  , [0xe7, 0xc8, 0x37, 0x6d, 0x8d, 0xd5, 0x4e, 0xa9, 0x6c, 0x56, 0xf4, 0xea, 0x65, 0x7a, 0xae, 0x08] ] ++
  [ [0xba, 0x78, 0x25, 0x2e, 0x1c, 0xa6, 0xb4, 0xc6, 0xe8, 0xdd, 0x74, 0x1f, 0x4b, 0xbd, 0x8b, 0x8a]
  , [0x70, 0x3e, 0xb5, 0x66, 0x48, 0x03, 0xf6, 0x0e, 0x61, 0x35, 0x57, 0xb9, 0x86, 0xc1, 0x1d, 0x9e]
  , [0xe1, 0xf8, 0x98, 0x11, 0x69, 0xd9, 0x8e, 0x94, 0x9b, 0x1e, 0x87, 0xe9, 0xce, 0x55, 0x28, 0xdf]
  , [0x8c, 0xa1, 0x89, 0x0d, 0xbf, 0xe6, 0x42, 0x68, 0x41, 0x99, 0x2d, 0x0f, 0xb0, 0x54, 0xbb, 0x16] ]

/-- The inverse substitution as a table: invSboxOf. -/
def aesInvRows : List (List Nat) :=
  [ [0x52, 0x09, 0x6a, 0xd5, 0x30, 0x36, 0xa5, 0x38, 0xbf, 0x40, 0xa3, 0x9e, 0x81, 0xf3, 0xd7, 0xfb]
  , [0x7c, 0xe3, 0x39, 0x82, 0x9b, 0x2f, 0xff, 0x87, 0x34, 0x8e, 0x43, 0x44, 0xc4, 0xde, 0xe9, 0xcb]
  , [0x54, 0x7b, 0x94, 0x32, 0xa6, 0xc2, 0x23, 0x3d, 0xee, 0x4c, 0x95, 0x0b, 0x42, 0xfa, 0xc3, 0x4e]
  , [0x08, 0x2e, 0xa1, 0x66, 0x28, 0xd9, 0x24, 0xb2, 0x76, 0x5b, 0xa2, 0x49, 0x6d, 0x8b, 0xd1, 0x25] ] ++
  [ [0x72, 0xf8, 0xf6, 0x64, 0x86, 0x68, 0x98, 0x16, 0xd4, 0xa4, 0x5c, 0xcc, 0x5d, 0x65, 0xb6, 0x92]
  , [0x6c, 0x70, 0x48, 0x50, 0xfd, 0xed, 0xb9, 0xda, 0x5e, 0x15, 0x46, 0x57, 0xa7, 0x8d, 0x9d, 0x84]
  , [0x90, 0xd8, 0xab, 0x00, 0x8c, 0xbc, 0xd3, 0x0a, 0xf7, 0xe4, 0x58, 0x05, 0xb8, 0xb3, 0x45, 0x06]
  , [0xd0, 0x2c, 0x1e, 0x8f, 0xca, 0x3f, 0x0f, 0x02, 0xc1, 0xaf, 0xbd, 0x03, 0x01, 0x13, 0x8a, 0x6b] ] ++
  [ [0x3a, 0x91, 0x11, 0x41, 0x4f, 0x67, 0xdc, 0xea, 0x97, 0xf2, 0xcf, 0xce, 0xf0, 0xb4, 0xe6, 0x73]
  , [0x96, 0xac, 0x74, 0x22, 0xe7, 0xad, 0x35, 0x85, 0xe2, 0xf9, 0x37, 0xe8, 0x1c, 0x75, 0xdf, 0x6e]
  , [0x47, 0xf1, 0x1a, 0x71, 0x1d, 0x29, 0xc5, 0x89, 0x6f, 0xb7, 0x62, 0x0e, 0xaa, 0x18, 0xbe, 0x1b]
  , [0xfc, 0x56, 0x3e, 0x4b, 0xc6, 0xd2, 0x79, 0x20, 0x9a, 0xdb, 0xc0, 0xfe, 0x78, 0xcd, 0x5a, 0xf4] ] ++
  [ [0x1f, 0xdd, 0xa8, 0x33, 0x88, 0x07, 0xc7, 0x31, 0xb1, 0x12, 0x10, 0x59, 0x27, 0x80, 0xec, 0x5f]
  , [0x60, 0x51, 0x7f, 0xa9, 0x19, 0xb5, 0x4a, 0x0d, 0x2d, 0xe5, 0x7a, 0x9f, 0x93, 0xc9, 0x9c, 0xef]
  , [0xa0, 0xe0, 0x3b, 0x4d, 0xae, 0x2a, 0xf5, 0xb0, 0xc8, 0xeb, 0xbb, 0x3c, 0x83, 0x53, 0x99, 0x61]
  , [0x17, 0x2b, 0x04, 0x7e, 0xba, 0x77, 0xd6, 0x26, 0xe1, 0x69, 0x14, 0x63, 0x55, 0x21, 0x0c, 0x7d] ]

def subByte (b : Nat) : Nat := nth (nth aesRows (b / 16) []) (b % 16) 0

def invSubByte (b : Nat) : Nat := nth (nth aesInvRows (b / 16) []) (b % 16) 0

def subBytes (l : List Nat) : List Nat := l.map subByte

def invSubBytes (l : List Nat) : List Nat := l.map invSubByte

/-- The key schedule, newest word first: word i from the words before it. -/
def aesExpand : Nat → Nat → Nat → List (List Nat) → List (List Nat)
  | 0, _, _, l => l
  | n + 1, i, rcon, l =>
    let t := nth l 0 []
    let u :=
      if i % 8 = 0 then xorBytes (subBytes (t.drop 1 ++ t.take 1)) [rcon, 0, 0, 0]
      else if i % 8 = 4 then subBytes t
      else t
    aesExpand n (i + 1) (if i % 8 = 0 then xtime rcon else rcon) (xorBytes (nth l 7 []) u :: l)

/-- The 15 round keys of a 256-bit key. -/
def aesKeys (key : List Nat) : List (List Nat) :=
  chunks 16 15 (aesExpand 52 8 1 (chunks 4 8 key).reverse).reverse.flatten

/-- Byte r of column c of the state is byte 4c + r. -/
def shiftRows (l : List Nat) : List Nat := (List.range 16).map fun i => nth l ((i + 4 * (i % 4)) % 16) 0

def invShiftRows (l : List Nat) : List Nat := (List.range 16).map fun i => nth l ((i + 12 * (i % 4)) % 16) 0

def mixColumn (m : List Nat) (c : List Nat) : List Nat :=
  (List.range 4).map fun r => (List.range 4).foldl (fun x j => x ^^^ gfMul 4 (nth c j 0) (nth m ((j + 4 - r) % 4) 0)) 0

def mixColumns (m l : List Nat) : List Nat := ((chunks 4 4 l).map (mixColumn m)).flatten

/-- The AES-256 cipher on one block of 16 bytes. -/
def aesEncrypt (key block : List Nat) : List Nat :=
  let ks := aesKeys key
  let s := (ks.drop 1).take 13 |>.foldl (fun s k => xorBytes (mixColumns [2, 3, 1, 1] (shiftRows (subBytes s))) k)
    (xorBytes block (nth ks 0 []))
  xorBytes (shiftRows (subBytes s)) (nth ks 14 [])

/-- The inverse cipher. -/
def aesDecrypt (key block : List Nat) : List Nat :=
  let ks := aesKeys key
  let s := invSubBytes (invShiftRows (xorBytes block (nth ks 14 [])))
  let s1 := ((ks.drop 1).take 13).reverse.foldl
    (fun s k => invSubBytes (invShiftRows (mixColumns [14, 11, 13, 9] (xorBytes s k)))) s
  xorBytes s1 (nth ks 0 [])

/-- Doubling in GF(2^128), big-endian. -/
def cmacDouble (l : List Nat) : List Nat :=
  let n := ofBytesBE l
  bytesBE 16 (if n.testBit 127 then (2 * n % 2 ^ 128) ^^^ 0x87 else 2 * n)

/-- AES-CMAC under a 256-bit key. -/
def aesCmac (key msg : List Nat) : List Nat :=
  let k1 := cmacDouble (aesEncrypt key (List.replicate 16 0))
  let blocks := (msg.length - 1) / 16
  let last := msg.drop (16 * blocks)
  let tail := if last.length = 16 then xorBytes last k1
    else xorBytes (last ++ 0x80 :: List.replicate (15 - last.length) 0) (cmacDouble k1)
  let x := (chunks 16 blocks msg).foldl (fun x b => aesEncrypt key (xorBytes x b)) (List.replicate 16 0)
  aesEncrypt key (xorBytes x tail)

/-! Key wrap (RFC 3394) of a key of four 64-bit parts. -/

def kwIv : List Nat := List.replicate 8 0xA6

/-- One wrap step at counter t on (A, R), R[t mod 4] in front. -/
def wrapStep (key : List Nat) (x : List Nat × List (List Nat)) (t : Nat) : List Nat × List (List Nat) :=
  match x.2 with
  | [] => x
  | r :: rs =>
    let b := aesEncrypt key (x.1 ++ r)
    (xorBytes (b.take 8) (bytesBE 8 t), rs ++ [b.drop 8])

/-- A 32-byte key wrapped: 40 bytes. -/
def keyWrap (kek key : List Nat) : List Nat :=
  let x := ((List.range 24).map (· + 1)).foldl (wrapStep kek) (kwIv, chunks 8 4 key)
  x.1 ++ x.2.flatten

def unwrapStep (key : List Nat) (x : List Nat × List (List Nat)) (t : Nat) : List Nat × List (List Nat) :=
  match x.2.getLast? with
  | none => x
  | some r =>
    let b := aesDecrypt key (xorBytes x.1 (bytesBE 8 t) ++ r)
    (b.take 8, b.drop 8 :: x.2.dropLast)

/-- 40 bytes unwrapped; none where the integrity check fails. -/
def keyUnwrap (kek l : List Nat) : Option (List Nat) :=
  let x := ((List.range 24).map (· + 1)).reverse.foldl (unwrapStep kek) (l.take 8, chunks 8 4 (l.drop 8))
  if x.1 = kwIv then some x.2.flatten else none

end Sys2Proof.Machine
end

