-- ==== Sys2Proof/Machine/Keys.lean ====
section
/-!
DEFINITION. Keys, attestation and authenticated commands (spec/15 R438-R460): derived keys, key slots and their records,
key-update messages, the lifecycle, attestation, capsules, CRY jobs and the test port.
-/

namespace Sys2Proof.Machine

/-! Keys. -/

/-- The bytes of fuse words from w on, byte 0 in [31:24] (Table 14-5). -/
def State.fuseBytes (s : State) (w n : Nat) : List Nat := ((List.range n).map fun k => bytesBE 4 (s.fuse (w + k))).flatten

/-- The device identity (R438). -/
def State.deviceId (s : State) : List Nat := s.fuseBytes 8 4

/-- Labels of Table 15-1. -/
def keyLabels : List (List Nat) :=
  [ [0x48, 0x5A, 0x2D, 0x4B, 0x45, 0x4B, 0x2D, 0x56], [0x48, 0x5A, 0x2D, 0x4B, 0x45, 0x4B, 0x2D, 0x4D]
  , [0x48, 0x5A, 0x2D, 0x41, 0x54, 0x54], [0x48, 0x5A, 0x2D, 0x53, 0x54, 0x4F] ]

/-- The derived keys (R439). -/
def State.deriveKeys (s : State) : List (List Nat) := keyLabels.map fun l => kdf256 (s.fuseBytes 0 8) l s.deviceId

def State.kek (s : State) (auth : Nat) : List Nat := nth s.sec.derived auth []
def State.kAtt (s : State) : List Nat := nth s.sec.derived 2 []
def State.kSto (s : State) : List Nat := nth s.sec.derived 3 []

def State.keysReady (s : State) : Bool := s.on pSEC SEC_STAT_KEYS_READY

/-! Slots (R441). -/

def State.slotPolicy (s : State) (j : Nat) : Nat := (s.rd (pKEY (j / 32)) (SLOT_POL (j % 32))).toNat

def State.slotValid (s : State) (j : Nat) : Bool := s.on (pKEY (j / 32)) (SLOT_STAT_VALID (j % 32))

def State.slotAuth (s : State) (j : Nat) : Nat := s.get (pKEY (j / 32)) (SLOT_STAT_AUTH (j % 32))

/-- A slot's key, policy and authority set. -/
def State.slotPut (s : State) (j : Nat) (key : List Nat) (policy auth : Nat) : State :=
  let p := pKEY (j / 32)
  let k := j % 32
  let s1 := { s with sec.slots := setNth s.sec.slots j key }.wrn p (SLOT_POL k) policy
  (s1.set p (SLOT_STAT_VALID k) 1).set p (SLOT_STAT_AUTH k) auth

/-- A message writes a slot: its count of writes advances. -/
def State.slotSet (s : State) (j : Nat) (key : List Nat) (policy auth : Nat) : State :=
  (s.slotPut j key policy auth).cntWrap (pKEY (j / 32)) (SLOT_STAT_WRITES (j % 32))

/-- A slot is cleared. -/
def State.slotClear (s : State) (j : Nat) : State :=
  let p := pKEY (j / 32)
  let k := j % 32
  (({ s with sec.slots := setNth s.sec.slots j [] }.wrn p (SLOT_POL k) 0).set p (SLOT_STAT_VALID k) 0).set p
    (SLOT_STAT_AUTH k) 0

/-- A policy is valid (Table 15-2). -/
def policyOk (policy : Nat) : Bool := policy % 16 != 0 && policy &&& 0xFFFFFCF0 == 0

/-! Key records (R446, R447, Table 15-7). -/

/-- A key record: type, slot or channel, authority, EXACT, counter, policy, wrapped key, LAST and TX. -/
structure KeyRec where
  ty : Nat
  idx : Nat
  auth : Nat
  exact : Nat
  ctr : Nat
  policy : Nat
  wrapped : List Nat
  last : Nat
  tx : Nat
  deriving DecidableEq, Repr

def KeyRec.body (r : KeyRec) : List Nat :=
  [0x48, 0x5A, 0x4B, 0x52, r.ty, r.idx, r.auth, r.exact] ++ bytesBE 4 r.ctr ++ bytesBE 4 r.policy ++
    (if r.ty = 1 then r.wrapped else List.replicate 40 0) ++ bytesBE 4 r.last ++ bytesBE 4 r.tx ++ List.replicate 176 0

/-- The NOR page of a record, with its CMAC. -/
def KeyRec.page (kSto : List Nat) (r : KeyRec) : List Nat := r.body ++ aesCmac kSto r.body

/-- n bytes of a field. -/
def slice (l : List Nat) (i n : Nat) : List Nat := (l.drop i).take n

def beAt (l : List Nat) (i n : Nat) : Nat := ofBytesBE (slice l i n)

/-- The record of a page; none where its magic or CMAC does not check. -/
def readKeyRec (kSto l : List Nat) : Option KeyRec :=
  if slice l 0 4 = [0x48, 0x5A, 0x4B, 0x52] ∧ aesCmac kSto (slice l 0 240) = slice l 240 16 then
    some ⟨nth l 4 0, nth l 5 0, nth l 6 0, nth l 7 0 % 2, beAt l 8 4, beAt l 12 4, slice l 16 40, beAt l 56 4, beAt l 60 4⟩
  else none

/-- The log: the first 64 KiB of the settings store, two halves of 32 KiB. -/
abbrev keyLogBase : Nat := 0x20000

abbrev keyHalfSize : Nat := 0x8000

abbrev keyPageOff (half page : Nat) : Nat := keyLogBase + half * keyHalfSize + page * 256

/-- The pages of a half that are not erased on a die, in rising order. -/
def State.keyPages (s : State) (die half : Nat) : List Nat :=
  let a := norBase die + keyPageOff half 0
  (s.mem.filter fun e => decide (a ≤ e.1) && decide (e.1 < a + keyHalfSize)).foldl
    (fun l e => let k := (e.1 - a) / 256
                if l.contains k then l else l ++ [k]) []

def State.keyPageBytes (s : State) (die half page : Nat) : List Nat := s.bytes (norBase die + keyPageOff half page) 256

/-- The page after the last one used on either die. -/
def State.keyNext (s : State) (half : Nat) : Nat :=
  (s.keyPages 0 half ++ s.keyPages 1 half).foldl (fun m k => max m (k + 1)) 0

/-- The valid records, oldest first: the half before the one in use, then that one. A record counts once, whichever dies
hold it. -/
def State.keyRecords (s : State) : List KeyRec :=
  [1 - s.sec.half, s.sec.half].flatMap fun h =>
    (List.range (s.keyNext h)).filterMap fun k =>
      match readKeyRec s.kSto (s.keyPageBytes 0 h k) with
      | some r => some r
      | none => readKeyRec s.kSto (s.keyPageBytes 1 h k)

/-- The record with the highest counter of those that f selects; of equal ones the newest. -/
def newestRec (f : KeyRec → Bool) (l : List KeyRec) : Option KeyRec :=
  (l.filter f).foldl (fun b r =>
    match b with
    | some x => if x.ctr ≤ r.ctr then some r else b
    | none => some r) none

def slotRec (j : Nat) (r : KeyRec) : Bool := (r.ty == 1 || r.ty == 2) && r.idx == j

def chanRec (c : Nat) (r : KeyRec) : Bool := r.ty == 5 && r.idx == c

/-- A page programmed at the next place of the half in use, on die 0 and then die 1. A die whose command fails holds bytes
that nobody knows (R431), and the program goes no further. -/
def State.keyProgram (s : State) (l : List Nat) (fail : Option (Fin 2)) : State :=
  let off := keyPageOff s.sec.half (s.keyNext s.sec.half)
  match fail with
  | none => (s.norProgram 0 off l).norProgram 1 off l
  | some d =>
    let s1 := if d.val = 1 then s.norProgram 0 off l else s
    (State.freeBytes (norBase d.val + off) 256 s1).err (pNOR d.val) 0xA217 off

/-- A half erased on both dies, 4 KiB at a time. -/
def State.keyErase (s : State) (half : Nat) : State :=
  s.each [0, 1] fun s die => s.each (List.range 8) fun s k => s.norEraseBlock die (keyPageOff half 0 + k * 0x1000) 0x1000

/-- The half in use is full: the other one is erased and takes the newest record of each slot and channel, with the current
counter (R446). -/
def State.keyCompact (s : State) : State :=
  let recs := s.keyRecords
  let keep := ((List.range 64).filterMap fun j => newestRec (slotRec j) recs) ++
    ((List.range 16).filterMap fun c => newestRec (chanRec c) recs)
  let s1 := s.keyErase (1 - s.sec.half)
  let s2 := { s1 with sec.half := 1 - s1.sec.half }
  let ctr := (s2.rd pSEC SEC_KCTR).toNat
  s2.each keep fun s r => s.keyProgram ({ r with ctr := ctr }.page s.kSto) none

/-- A record is written (R446). -/
def State.keyStore (s : State) (r : KeyRec) (fail : Option (Fin 2)) : State :=
  let s1 := if 128 ≤ s.keyNext s.sec.half then s.keyCompact else s
  s1.keyProgram (r.page s1.kSto) fail

/-- A channel-counter record (R457). -/
def State.chanStore (s : State) (c exact last tx : Nat) : State :=
  s.keyStore ⟨5, c, 0xFF, exact, (s.rd pSEC SEC_KCTR).toNat, 0, [], last, tx⟩ none

/-! Deriving and loading (R439, R447, R457). -/

/-- A record valid on one die only is copied to the other: to the same page where that is erased, else as a new record. A
page with no valid copy on a die, and not erased there, is skipped with 0xB217. -/
def State.keyMend (s : State) (half page : Nat) : State :=
  let b0 := s.keyPageBytes 0 half page
  let b1 := s.keyPageBytes 1 half page
  let blank (l : List Nat) := l.all fun x => x == 255
  let s1 := (s.each [b0, b1] fun s b =>
    if blank b || (readKeyRec s.kSto b).isSome then s else s.err pSEC 0xB217 0)
  let off := keyPageOff half page
  match readKeyRec s.kSto b0, readKeyRec s.kSto b1 with
  | some r, none => if blank b1 then s1.norProgram 1 off b0 else s1.keyStore r none
  | none, some r => if blank b0 then s1.norProgram 0 off b1 else s1.keyStore r none
  | _, _ => s1

/-- Slot j as its newest record has it. -/
def State.slotLoad (s : State) (recs : List KeyRec) (j : Nat) : State :=
  match newestRec (slotRec j) recs with
  | none => s
  | some r =>
    if r.ty = 2 then s.slotClear j
    else
      match keyUnwrap s.kSto r.wrapped with
      | some k => s.slotPut j k r.policy r.auth
      | none => s.slotClear j

/-- The counters of a channel at start, and its new record with EXACT = 0. -/
def State.chanLoad (s : State) (recs : List KeyRec) (c : Nat) : State :=
  let (last, tx) := match newestRec (chanRec c) recs with
    | some r => if r.exact = 1 then (r.last, r.tx) else (min (r.last + 131072) 0xFFFFFFFF, min (r.tx + 131072) 0xFFFFFFFF)
    | none => (0, 0)
  let s1 := (s.wrn pCMD (CMD_CH_LAST c) last).wrn pCMD (CMD_CH_TX c) tx
  ((s1.wrn pCMD (CMD_CH_SVR c) last).wrn pCMD (CMD_CH_SVT c) tx).chanStore c 0 last tx

/-- A partly programmed RETURN code is completed, and in RETURN the port's clearing begins (R448, R459). -/
def State.returnStart (s : State) : State :=
  if s.lifecycle = 7 ∧ s.get pLCS LCS_STAT_TEST = 0 then
    ((s.burn 13 7).set pLCS LCS_STAT_TEST 1).irq pLCS INT_LCS_TEST_CHANGE
  else s

def execKeysDerive (s : State) : Host.Outcome State Fault Refusal :=
  .next (
    if !s.up.compute || s.keysReady || s.sec.stopped then s
    else
      let s0 := s.returnStart
      if s0.lifecycle = 7 || !s0.on pFUS FUS_STAT_CHECK_OK then s0
      else
        let s1 := { s0 with sec.derived := s0.deriveKeys }
        let s2 := s1.each [1 - s1.sec.half, s1.sec.half] fun s h => s.each (List.range (s.keyNext h)) fun s k => s.keyMend h k
        let recs := s2.keyRecords
        let s3 := s2.wrn pSEC SEC_KCTR (recs.foldl (fun m r => max m r.ctr) 0)
        let s4 := s3.each (List.range 64) fun s j => s.slotLoad recs j
        let s5 := s4.each (List.range 16) fun s c => s.chanLoad recs c
        s5.set pSEC SEC_STAT_KEYS_READY 1)

/-! Key-update messages (R443-R446, R448, R450, R458). -/

/-- Length of a public key and of a message under an authority's parameter set. -/
def State.authSet (s : State) (auth : Nat) : Nat := bitsOf (s.fuse 30) (2 + auth) 1

def pkLen (set : Nat) : Nat := if set = 0 then 32 else 48

def messageLen (set : Nat) : Nat := if set = 0 then 7956 else 16340

/-- The authority's hash is fused, and is the SHA-256 of a public key. -/
def State.authKey (s : State) (auth : Nat) (pk : List Nat) : Bool :=
  (s.fuse 30).testBit auth && sha256 pk == s.fuseBytes (14 + 8 * auth) 8

/-- Format, type, slot range, reserved bytes and length (test 2). -/
def messageForm (m : List Nat) (len set : Nat) : Bool :=
  let ty := nth m 0 0 % 16
  let zero (i n : Nat) := (slice m i n).all fun x => x == 0
  nth m 0 0 / 16 == 1 && decide (1 ≤ ty ∧ ty ≤ 4) && decide (nth m 1 0 < 2) && nth m 3 0 == 0 &&
    ((ty != 1 && ty != 2) || decide (nth m 2 0 < 64)) && (ty != 4 || nth m 2 0 == 0) &&
    (ty == 1 || (zero 24 4 && zero 28 40)) && decide (len = messageLen set)

/-- Lifecycle and mode permit the type (Table 15-6, R458). -/
def State.typeAllowed (s : State) (ty auth target : Nat) : Bool :=
  (s.lifecycle == 1 || s.lifecycle == 3) &&
    (if ty = 3 then (target == 3 && s.lifecycle == 1 && auth == 1) || (target == 7 && auth == 0)
     else if ty = 4 then s.mode == mSERVICE && !s.isHeadstock
     else true)

/-- The context string "HZKU". -/
def ctxHZKU : List Nat := [0x48, 0x5A, 0x4B, 0x55]

/-- The first failing test of Table 15-4, 0 where all pass; the last two look at the record. -/
def State.messageReason (s : State) (m : List Nat) (len : Nat) : Nat :=
  let ty := nth m 0 0 % 16
  let auth := nth m 1 0 % 2
  let set := s.authSet auth
  let j := nth m 2 0
  let pk := slice m 68 (pkLen set)
  let sig := m.drop (68 + pkLen set)
  if !s.keysReady then 0xA
  else if !messageForm m len set then 2
  else if slice m 4 16 ≠ s.deviceId then 3
  else if !s.authKey auth pk then 5
  else if !Config.slhVerify set pk ctxHZKU (slice m 0 68) sig then 6
  else if beAt m 20 4 ≠ (s.rd pSEC SEC_KCTR).toNat + 1 then 4
  else if !s.typeAllowed ty auth j then 9
  else if ty = 1 ∧ (keyUnwrap (s.kek auth) (slice m 28 40)).isNone then 7
  else if (ty = 1 ∨ ty = 2) ∧ s.slotValid j ∧ (s.slotPolicy j).testBit 9 ∧ s.slotAuth j ≠ auth then 8
  else if ty = 1 ∧ !policyOk (beAt m 24 4) then 8
  else 0

/-- Counters of every channel that names a slot go to 0 (R445). -/
def State.chansZero (s : State) (j : Nat) : State :=
  s.each (List.range 16) fun s c =>
    if s.get pCMD (CMD_CH_CFG_SLOT c) = j then
      (((s.wrn pCMD (CMD_CH_LAST c) 0).wrn pCMD (CMD_CH_TX c) 0).wrn pCMD (CMD_CH_SVR c) 0).wrn pCMD (CMD_CH_SVT c) 0
    else s

/-- Entry to RETURN: records and slots go, and no key is derived any more (R450). -/
def State.enterReturn (s : State) : State :=
  let s1 := (s.keyErase 0).keyErase 1
  let s2 := s1.each (List.range 64) fun s j => s.slotClear j
  { s2 with sec.derived := [] }.set pSEC SEC_STAT_KEYS_READY 0

/-- Every core, SC and the gateway engines stop (Table 15-11). -/
def State.stopCores (s : State) : State :=
  ({ s with sec.stopped := true }).each (List.range 13) fun s c => s.set (pCORE c) CORE_STAT_RUNNING 0

/-- The effect of an accepted message (R445). -/
def State.messageApply (s : State) (m : List Nat) (key : List Nat) : State :=
  let ty := nth m 0 0 % 16
  let j := nth m 2 0
  let s1 := s.wrn pSEC SEC_KCTR (beAt m 20 4)
  if ty = 1 then (s1.slotSet j key (beAt m 24 4) (nth m 1 0 % 2)).chansZero j
  else if ty = 2 then (s1.slotClear j).chansZero j
  else if ty = 3 then
    (let s2 := (s1.burn 13 j).err pLCS 0xB01C 0
     if j = 7 then s2.enterReturn else s2)
  else (s1.stopCores.set pLCS LCS_STAT_TEST 1).irq pLCS INT_LCS_TEST_CHANGE

/-- The record of a message; a key is wrapped again under K_STO. -/
def State.messageRecord (s : State) (m key : List Nat) : KeyRec :=
  let ty := nth m 0 0 % 16
  ⟨ty, nth m 2 0, nth m 1 0, 0, beAt m 20 4, beAt m 24 4, if ty = 1 then keyWrap s.kSto key else [], 0, 0⟩

/-- A message ends with a reason. -/
def State.messageEnd (s : State) (ty reason ctr : Nat) : State :=
  let s1 := (((s.set pSEC SEC_STAT_BUSY 0).set pSEC SEC_RES_REASON reason).set pSEC SEC_RES_TYPE ty).set pSEC SEC_RES_DONE 1
  let s2 := s1.irq pSEC INT_SEC_MSG_DONE
  if reason = 0 then s2.cnt pSEC SEC_CNT_ACC else (s2.cnt pSEC SEC_CNT_REJ).err pSEC 0xB011 ctr

/-- The message under SEC_GO is tested and acted on, where it is of the row's type or of no valid type. -/
def State.keyMessage (s : State) (row : Nat) (fail : Option (Fin 2)) : State :=
  if !s.up.compute || !s.on pSEC SEC_STAT_BUSY || s.sec.stopped then s
  else
    let addr := (s.rd pSEC SEC_MSG_LO).toNat + s.get pSEC SEC_MSG_HI_V * 2 ^ 32
    let len := s.get pSEC SEC_MSG_LEN_V
    let (s1, got) := s.ramRead 0 false addr (max len 1)
    let m := (got.getD []).take len
    let ty := nth m 0 0 % 16
    if 1 ≤ ty ∧ ty ≤ 4 ∧ ty ≠ row then s
    else
      let ctr := beAt m 20 4
      let reason := s1.messageReason m len
      if reason ≠ 0 then s1.messageEnd ty reason ctr
      else
        let key := (keyUnwrap (s1.kek (nth m 1 0 % 2)) (slice m 28 40)).getD []
        let s2 := s1.keyStore (s1.messageRecord m key) fail
        if fail.isSome then s2.messageEnd ty 0xB ctr else (s2.messageApply m key).messageEnd ty 0 ctr

def execKeyWrite (fail : Option (Fin 2)) (s : State) : Host.Outcome State Fault Refusal := .next (s.keyMessage 1 fail)

def execKeyErase (fail : Option (Fin 2)) (s : State) : Host.Outcome State Fault Refusal := .next (s.keyMessage 2 fail)

def execLifecycleAdvance (fail : Option (Fin 2)) (s : State) : Host.Outcome State Fault Refusal :=
  .next (s.keyMessage 3 fail)

def execTestPortUnlock (fail : Option (Fin 2)) (s : State) : Host.Outcome State Fault Refusal :=
  .next (s.keyMessage 4 fail)

/-- SEC_GO while BUSY = 1 is refused (R443). -/
def secGoPre (s : State) : Option Nat := if s.on pSEC SEC_STAT_BUSY then some 0x0B else none

def secGoEff (v : Word) (s : State) : State :=
  if v.getLsbD 0 then (s.set pSEC SEC_STAT_BUSY 1).set pSEC SEC_RES_DONE 0 else s

/-! The test port (R458, R459). -/

def State.clearRam (s : State) (a n : Nat) : State := { s with mem := clearRange a n s.mem }

/-- Poisoned words in a range are written whole. -/
def State.healRange (s : State) (a n : Nat) : State :=
  s.each (List.range 256) fun s k =>
    let w := s.poisonAddr k
    if s.on pSCR (POISON_HI_VALID k) && decide (a ≤ w) && decide (w < a + n) then s.poisonClear w else s

/-- Zeros written to key slots, derived keys, checkpoint SRAM, tightly coupled memory and the active secure regions. SC
private memory holds nothing that the model keeps but the keys. -/
def State.clearSecrets (s : State) : State :=
  let s1 := s.each (List.range 64) fun s j => s.slotClear j
  let s2 := { s1 with sec.derived := [] }.set pSEC SEC_STAT_KEYS_READY 0
  let s3 := (s2.clearRam 0x11000000 0x180000).clearRam 0x12000000 0x80000
  s3.each (List.range 16) fun s r =>
    if s.on pISO (SEC_RGN_SIZE_EN r) then (s.clearRam (s.secBase r) (s.secSize r)).healRange (s.secBase r) (s.secSize r)
    else s

def execTestPortClearDone (s : State) : Host.Outcome State Fault Refusal :=
  .next (
    if s.get pLCS LCS_STAT_TEST = 1 then
      (s.clearSecrets.set pLCS LCS_STAT_TEST 2).irq pLCS INT_LCS_TEST_CHANGE else s)

def execTestPortVerifyDone (bad : Option Nat) (s : State) : Host.Outcome State Fault Refusal :=
  .next (
    if s.get pLCS LCS_STAT_TEST ≠ 2 then s
    else
      match bad with
      | none => ((s.set pLCS LCS_STAT_TEST 3).irq pLCS INT_LCS_TEST_CHANGE).err pLCS 0xB21D 0
      | some a =>
        (((s.set pLCS LCS_STAT_TEST 0).wrn pLCS LCS_CLR_ERR a).irq pLCS INT_LCS_TEST_CHANGE).err pLCS 0xB319 0)

/-! Lifecycle control (R448, R449). -/

def scOnly (a : Access) (_ : State) : Option Nat := if a.agent = 0x20 then none else some 0x01

def State.provision (s : State) : State :=
  if s.lifecycle = 0 && s.on pFUS FUS_STAT_CHECK_OK && (s.fuse 30).testBit 0 then (s.burn 13 1).err pLCS 0xB01C 0 else s

def State.exportKeys (s : State) : State :=
  if s.lifecycle = 0 && s.keysReady then
    (s.each (List.range 24) fun s k => s.wrn pLCS (LCS_EXP k) (beAt (nth s.sec.derived (k / 8) []) (k % 8 * 4) 4)).set pLCS
      LCS_STAT_EXPORTED 1
  else s

def lcsCtrlEff (v : Word) (s : State) : State :=
  let s1 := if v.getLsbD 1 then s.exportKeys else s
  if v.getLsbD 0 then s1.provision else s1

def execLcsProvision (a : Access) (v : Word) (s : State) : Host.Outcome State Fault Refusal :=
  .next (s.regWrite a pLCS LCS_CTRL v (scOnly a) (lcsCtrlEff v))

def execLcsExport (a : Access) (v : Word) (s : State) : Host.Outcome State Fault Refusal :=
  .next (s.regWrite a pLCS LCS_CTRL v (scOnly a) (lcsCtrlEff v))

/-! Attestation (R451, R452). -/

def State.regBytes (s : State) (p : Nat) (off : Nat → Nat) (n : Nat) : List Nat :=
  ((List.range n).map fun k => bytesBE 4 (s.rd p (off k)).toNat).flatten

def State.setRegBytes (s : State) (p : Nat) (off : Nat → Nat) (l : List Nat) : State :=
  s.each (List.range (l.length / 4)) fun s k => s.wrn p (off k) (beAt l (4 * k) 4)

/-- M_r takes SHA-256 of itself and 32 bytes (R451). -/
def State.extend (s : State) (r : Nat) (l : List Nat) : State :=
  s.setRegBytes pATT (fun k => ATT_M (8 * r + k)) (sha256 (s.regBytes pATT (fun k => ATT_M (8 * r + k)) 8 ++ l))

def attExtPre (a : Access) (v : Word) (_ : State) : Option Nat :=
  if v.getLsbD 8 && decide (bitsOf v.toNat 0 3 < 4) && a.agent != 0x20 then some 0x01 else none

def attExtEff (v : Word) (s : State) : State :=
  let s1 := s.plain pATT ATT_EXT v
  if v.getLsbD 8 then s1.extend (bitsOf v.toNat 0 3) (s1.regBytes pATT ATT_EXT_DATA 8) else s1

def execAttExtend (a : Access) (v : Word) (s : State) : Host.Outcome State Fault Refusal :=
  .next (s.regWrite a pATT ATT_EXT v (attExtPre a v) (attExtEff v))

/-- The 305 bytes under the tag. -/
def State.attBytes (s : State) : List Nat :=
  s.regBytes pATT ATT_CHAL 8 ++ s.deviceId ++ s.regBytes pATT ATT_M 64 ++ [s.lifecycle]

def attCtrlEff (v : Word) (s : State) : State :=
  let s1 := s.plain pATT ATT_CTRL v
  if !v.getLsbD 0 then s1
  else if !s1.keysReady then (s1.set pATT ATT_CTRL_RESULT 2).err pATT 0xB012 0
  else (s1.setRegBytes pATT ATT_TAG (hmacSha256 s1.kAtt s1.attBytes)).set pATT ATT_CTRL_RESULT 1

def execAttGo (a : Access) (v : Word) (s : State) : Host.Outcome State Fault Refusal :=
  .next (s.regWrite a pATT ATT_CTRL v noCause (attCtrlEff v))

/-! Capsules (R454-R457). -/

def capData (port k : Nat) : Nat := if port = 0 then CMD_0_DATA k else CMD_1_DATA k

/-- Ports refuse new words while they are busy (Table 15-13). -/
def capDataPre (port : Nat) (s : State) : Option Nat := if s.on pCMD (CMD_P_RES_BUSY port) then some 0x0B else none

/-- The first failing test of Table 15-10 but for the tag, the counter and the count of MAKE; 0 where tests 1-6 pass. -/
def State.capForm (s : State) (port len extra : Nat) (b : List Nat) : Nat :=
  let n := nth b 4 0
  let c := nth b 1 0 % 16
  let j := s.get pCMD (CMD_CH_CFG_SLOT c)
  if nth b 0 0 ≠ 0x10 ∨ nth b 1 0 / 16 ≠ 0 ∨ nth b 5 0 / 2 ≠ 0 then 1
  else if 44 < n ∨ n % 4 ≠ 0 ∨ len ≠ (n + extra) / 4 then 2
  else if !s.on pCMD (CMD_CH_CFG_EN c) || !(s.get pCMD (CMD_CH_CFG_PORTS c)).testBit port then 3
  else if nth s.sec.blocked c false then 9
  else if beAt b 6 2 ≠ s.get pCMD CMD_ZONE_V then 4
  else if !s.keysReady || !s.slotValid j || !(s.slotPolicy j).testBit 0 then 5
  else 0

/-- The tag of the bytes before it, under a channel's slot. -/
def State.capTag (s : State) (c : Nat) (l : List Nat) : List Nat :=
  (aesCmac (nth s.sec.slots (s.get pCMD (CMD_CH_CFG_SLOT c)) []) l).take 8

/-- The first failing test of a check (Table 15-10). -/
def State.capReason (s : State) (port len : Nat) (b : List Nat) : Nat :=
  let n := nth b 4 0
  let c := nth b 1 0 % 16
  let last := (s.rd pCMD (CMD_CH_LAST c)).toNat
  let ctr := beAt b (n + 8) 4
  let f := s.capForm port len 20 b
  if f ≠ 0 then f
  else if s.capTag c (b.take (n + 12)) ≠ slice b (n + 12) 8 then 6
  else if ctr ≤ last then 7
  else if last + 65536 < ctr then 8
  else if (s.rd pCMD (CMD_CH_SVR c)).toNat + 131072 < ctr then 0xA
  else 0

/-- A tag failure: with FAIL_MAX of them within a second the channel is blocked (R455). -/
def State.tagFailed (s : State) (c : Nat) : State :=
  let recent := (nth s.sec.fails c []).filter fun t => decide (s.tb.clocks < t + clocksPerS)
  let l := recent ++ [s.tb.clocks]
  let s1 := { s with sec.fails := setNth s.sec.fails c l }.cnt pCMD (CMD_CH_CNT_TAG c)
  if s1.get pCMD CMD_CFG_FAIL_MAX ≤ l.length then
    (({ s1 with sec.fails := setNth s1.sec.fails c [], sec.blocked := setNth s1.sec.blocked c true }).irq pCMD
      INT_CMD_BLOCKED).err pCMD 0xB215 (c + 6 * 256)
  else s1

/-- A rejection: counted, and posted at most once per millisecond and channel, or with the code of its own (Table 15-10). -/
def State.capRejected (s : State) (c reason : Nat) : State :=
  let s1 := if reason = 6 then s.tagFailed c else s.cnt pCMD (CMD_CH_CNT_REJ c)
  let loc := c + reason * 256
  if reason = 0xA then s1.err pCMD 0xB216 loc else s1.errLimited (0xE00 + c) clocksPerMs pCMD 0xB010 loc

/-- SAVE_DUE when a counter runs 65,536 ahead of its saved value (R457). -/
def State.saveDue (s : State) (c : Nat) : State :=
  let r (off : Nat → Nat) := (s.rd pCMD (off c)).toNat
  if r CMD_CH_SVR + 65536 ≤ r CMD_CH_LAST ∨ r CMD_CH_SVT + 65536 ≤ r CMD_CH_TX then s.irq pCMD INT_CMD_SAVE_DUE else s

/-- The result of a port. -/
def State.capEnd (s : State) (port c reason len : Nat) : State :=
  let p := pCMD
  let s1 := ((s.set p (CMD_P_RES_REASON port) reason).set p (CMD_P_RES_CH port) c).set p (CMD_P_RES_LEN port) len
  let s2 := (s1.set p (CMD_P_RES_BUSY port) 0).set p (CMD_P_RES_DONE port) 1
  (s2.wr p (CMD_P_LAST port) (s2.rd p (CMD_CH_LAST c))).irq p (if port = 0 then INT_CMD_PORT0_DONE else INT_CMD_PORT1_DONE)

/-- A capsule in the words of a port is checked (R455). -/
def State.capCheck (s : State) (port len : Nat) : State :=
  let b := s.regBytes pCMD (capData port) 16
  let c := nth b 1 0 % 16
  let reason := s.capReason port len b
  let s1 := if reason = 0 then
      ((s.wrn pCMD (CMD_CH_LAST c) (beAt b (nth b 4 0 + 8) 4)).cnt pCMD (CMD_CH_CNT_ACC c)).saveDue c
    else s.capRejected c reason
  s1.capEnd port c reason len

/-- A reply capsule is built (R456). -/
def State.capMake (s : State) (port len : Nat) : State :=
  let b := s.regBytes pCMD (capData port) 16
  let n := nth b 4 0
  let c := nth b 1 0 % 16
  let tx := (s.rd pCMD (CMD_CH_TX c)).toNat + 1
  let f := s.capForm port len 8 b
  let reason := if f ≠ 0 then f else if (s.rd pCMD (CMD_CH_SVT c)).toNat + 131072 < tx then 0xA else 0
  if reason ≠ 0 then (s.capRejected c reason).capEnd port c reason len
  else
    let l := b.take (n + 8) ++ bytesBE 4 tx
    let s1 := s.setRegBytes pCMD (capData port) (l ++ s.capTag c l)
    ((s1.wrn pCMD (CMD_CH_TX c) tx).saveDue c).capEnd port c 0 ((n + 20) / 4)

def capGoEff (port : Nat) (v : Word) (s : State) : State :=
  let len := bitsOf v.toNat 16 5
  if !v.getLsbD 0 then s else if v.getLsbD 1 then s.capMake port len else s.capCheck port len

def execCapsuleCheck (clocks : Nat) (a : Access) (port : Fin 2) (v : Word) (s : State) : Host.Outcome State Fault Refusal :=
  .next ((s.advance clocks).regWrite a pCMD (CMD_P_GO port.val) v noCause (capGoEff port.val v))

def execCapsuleMake (clocks : Nat) (a : Access) (port : Fin 2) (v : Word) (s : State) : Host.Outcome State Fault Refusal :=
  .next ((s.advance clocks).regWrite a pCMD (CMD_P_GO port.val) v noCause (capGoEff port.val v))

/-- A channel is no longer blocked: BLOCK_S seconds are over. -/
def execChannelUnblock (ch : Fin 16) (s : State) : Host.Outcome State Fault Refusal :=
  .next { s with sec.blocked := setNth s.sec.blocked ch.val false }

/-- SLOT changes only while EN = 0 (Table 15-13). -/
def capCfgPre (c : Nat) (v : Word) (s : State) : Option Nat :=
  if s.on pCMD (CMD_CH_CFG_EN c) && bitsOf v.toNat 8 6 != s.get pCMD (CMD_CH_CFG_SLOT c) then some 0x0B else none

/-- SC saves a counter: SVR or SVT is written, and with it the channel's record (R457). -/
def capSaveEff (c off : Nat) (v : Word) (s : State) : State :=
  let s1 := s.plain pCMD off v
  if s1.keysReady then s1.chanStore c 0 (s1.rd pCMD (CMD_CH_SVR c)).toNat (s1.rd pCMD (CMD_CH_SVT c)).toNat else s1

/-- SC writes LAST or TX (R457). -/
def capCtrEff (c off : Nat) (v : Word) (s : State) : State := (s.plain pCMD off v).saveDue c

/-- SHUTDOWN: the exact values of each enabled channel are recorded (R457). -/
def State.chansExact (s : State) : State :=
  if !s.keysReady then s
  else
    s.each (List.range 16) fun s c =>
      if s.on pCMD (CMD_CH_CFG_EN c) then
        s.chanStore c 1 (s.rd pCMD (CMD_CH_LAST c)).toNat (s.rd pCMD (CMD_CH_TX c)).toNat else s

/-! CRY jobs (R442, R60). -/

/-- The policy bit that an operation needs, none where it names no slot. -/
def cryBit (op : Nat) : Option Nat :=
  let u := (Config.cryKeyUse op).toNat
  if u = 0 then none else some u

/-- A job is refused under its slot's policy (R442). -/
def State.cryRefused (s : State) (p : Nat) (v : Word) : Bool :=
  match cryBit (bitsOf v.toNat 0 4) with
  | none => false
  | some bit =>
    let j := bitsOf v.toNat 8 6
    !s.slotValid j || !(s.slotPolicy j).testBit bit || (s.get p OWNER_WORLD != 0 && !(s.slotPolicy j).testBit 8)

/-- A refused job ends the write with cause 0x0B and shows in CRY_STAT. -/
def cryCtrlEff (i : Nat) (v : Word) (s : State) : State :=
  let p := pCRY i
  if !v.getLsbD 16 then s.plain p CRY_CTRL v
  else if s.on p CRY_CTRL_BUSY then s
  else if s.cryRefused p v then (s.refuse p CRY_CTRL 0x0B).set p CRY_STAT_ST 2
  else ((s.plain p CRY_CTRL v).set p CRY_CTRL_BUSY 1).set p CRY_STAT_ST 0

def execCryGo (a : Access) (inst : Fin 3) (v : Word) (s : State) : Host.Outcome State Fault Refusal :=
  .next (s.regWrite a (pCRY inst.val) CRY_CTRL v noCause (cryCtrlEff inst.val v))

/-- A job ends: its source is read and its result written through the context of the page's owner; `result` is what the
engine has computed. -/
def execCryJobDone (inst : Fin 3) (good : Bool) (result : List Nat) (s : State) : Host.Outcome State Fault Refusal :=
  .next (
    let p := pCRY inst.val
    if !s.on p CRY_CTRL_BUSY then s
    else
      let addr (lo hi : Nat) := (s.rd p lo).toNat + (s.rd p hi).toNat * 2 ^ 32
      let (s1, src) := s.dmaRead (17 + inst.val) (addr CRY_SRC_LO CRY_SRC_HI) (s.rd p CRY_LEN).toNat
      let (s2, wrote) := if good && src.isSome then s1.dmaWrite (17 + inst.val) 0 false (addr CRY_DST_LO CRY_DST_HI) result
        else (s1, false)
      (s2.set p CRY_CTRL_BUSY 0).set p CRY_STAT_ST (if wrote then 1 else 3))

end Sys2Proof.Machine
end

