-- ==== Sys2Proof/Machine/Update.lean ====
section
/-!
DEFINITION. Firmware and configuration update (spec/16 R461-R483): image slots and their states, manifests, the hash tree, the
relay along the chain, delta patches, settings records, and the update service's requests.
-/

namespace Sys2Proof.Machine

/-! Slots and their parts (R461, R462). -/

abbrev slotBase : Nat := 0x200000
abbrev slotSize : Nat := 0x7E00000
abbrev manOff : Nat := 0x100000
abbrev statusOff : Nat := 0x108000
abbrev blocksOff : Nat := 0x110000
abbrev blockLen : Nat := 1408

/-- n bytes at an offset of a slot. -/
def State.slotBytes (s : State) (k off n : Nat) : List Nat := s.bytes (norBase k + slotBase + off) n

def State.slotProgram (s : State) (k off : Nat) (l : List Nat) : State := s.norProgram k (slotBase + off) l

/-- Bytes of a slot whose NOR command failed (R431). -/
def State.slotSpoil (s : State) (k off n : Nat) : State :=
  (State.freeBytes (norBase k + slotBase + off) n s).err (pNOR k) 0xA217 (slotBase + off)

/-! The manifest (R463). -/

/-- The manifest of a slot, or of a base area (its first 640 bytes, key and signature behind them). -/
def State.manifestAt (s : State) (k off : Nat) : List Nat := s.slotBytes k off 16912

def State.manifest (s : State) (k : Nat) : List Nat := s.manifestAt k manOff

def mAuth (m : List Nat) : Nat := nth m 5 0 % 2
def mDelta (m : List Nat) : Bool := nth m 4 0 % 16 == 2
def mVersion (m : List Nat) : Nat := beAt m 8 4
def mSvnApp (m : List Nat) : Nat := beAt m 12 2
def mSvnBase (m : List Nat) : Nat := beAt m 14 2
def mBaseMin (m : List Nat) : Nat := beAt m 16 4
def mFmt (m : List Nat) : Nat := beAt m 20 2
def mLevels (m : List Nat) : Nat := nth m 22 0
def mComps (m : List Nat) : Nat := nth m 23 0
def mT (m : List Nat) : Nat := beAt m 24 4
def mP (m : List Nat) : Nat := beAt m 28 4
def mRoot (m : List Nat) : List Nat := slice m 32 32
def mPayloadHash (m : List Nat) : List Nat := slice m 64 32
def mCompOfs (m : List Nat) : Nat := beAt m 132 4 * 0x10000

/-- A component: type, offset and length in the payload, load address, SHA-256. -/
structure Comp where
  ty : Nat
  off : Nat
  len : Nat
  load : Nat
  hash : List Nat
  deriving DecidableEq, Repr

def mComp (m : List Nat) (i : Nat) : Comp :=
  let e := slice m (256 + 48 * i) 48
  ⟨nth e 0 0, beAt e 4 4, beAt e 8 4, beAt e 12 4 * 16, slice e 16 32⟩

def mCompList (m : List Nat) : List Comp := (List.range (mComps m)).map (mComp m)

def isBase (c : Comp) : Bool := c.ty == 1 || c.ty == 2

def mHasBase (m : List Nat) : Bool := (mCompList m).any isBase

/-- Blocks of the data and of each level above it, level 1 first. -/
def levelSizes : Nat → Nat → List Nat
  | 0, _ => []
  | l + 1, n => (n + 43) / 44 :: levelSizes l ((n + 43) / 44)

def mData (m : List Nat) : Nat := (mP m + blockLen - 1) / blockLen

/-- Blocks from the top: level L first, the data blocks last. -/
def mTree (m : List Nat) : List Nat := (levelSizes (mLevels m) (mData m)).reverse ++ [mData m]

/-- Where a block stands: index in its part of the tree and the parts before it. -/
def blockPlace (b : Nat) : List Nat → Nat → Option (Nat × Nat)
  | [], _ => none
  | n :: t, part => if b < n then some (part, b) else blockPlace (b - n) t (part + 1)

/-- The parent of a block and the place of the hash in it (R465). -/
def mParent (m : List Nat) (b : Nat) : Option (Nat × Nat) :=
  match blockPlace b (mTree m) 0 with
  | some (part + 1, i) => some (((mTree m).take part).foldl (· + ·) 0 + i / 44, i % 44)
  | _ => none

def allZero (l : List Nat) : Bool := l.all fun x => x == 0

/-- A component entry's form: type, BASE bit, reserved bytes, and its place in the payload of a full set. -/
def compForm (m : List Nat) (i : Nat) : Bool :=
  let e := slice m (256 + 48 * i) 48
  let c := mComp m i
  if i < mComps m then
    decide (1 ≤ c.ty ∧ c.ty ≤ 4) && nth e 1 0 == (isBase c).toNat && allZero (slice e 2 2) &&
      (c.ty == 3 || allZero (slice e 12 4)) && (mDelta m || decide (c.off + c.len ≤ mP m))
  else allZero e

/-- Manifest test 1: form, and L, C, T and P consistent (R463, R465). -/
def manifestForm (m : List Nat) : Bool :=
  slice m 0 4 == [0x48, 0x5A, 0x4D, 0x46] && nth m 4 0 / 16 == 1 && (nth m 4 0 % 16 == 1 || mDelta m) &&
    decide (nth m 5 0 < 2) && decide (mSvnApp m ≤ 512) && decide (mSvnBase m ≤ 512) &&
    decide (1 ≤ mFmt m ∧ mFmt m ≤ 0xFFFE) && decide (1 ≤ mLevels m ∧ mLevels m ≤ 4) &&
    decide (1 ≤ mComps m ∧ mComps m ≤ 8) && decide (0 < mP m) && (mTree m).head? == some 1 &&
    decide (mT m = (mTree m).foldl (· + ·) 0) && (mDelta m || allZero (slice m 96 40)) && allZero (slice m 136 120) &&
    (List.range 8).all (compForm m)

/-- The fused counts (R478): SVN_BASE in words 32-47, SVN_APP in words 48-63. -/
def State.fuseCount (s : State) (w : Nat) : Nat := (List.range 16).foldl (fun n k => n + popCount 32 (s.fuse (w + k))) 0

/-- The context string "HZMF". -/
def ctxHZMF : List Nat := [0x48, 0x5A, 0x4D, 0x46]

/-- Length of a manifest (R463). -/
def manifestLen (set : Nat) : Nat := if set = 0 then 8528 else 16912

def State.manLen (s : State) (m : List Nat) : Nat := manifestLen (s.authSet (mAuth m))

/-- Manifest tests 1-5 (Table 16-3). -/
def State.manifestTests5 (s : State) (m : List Nat) : Nat :=
  let set := s.authSet (mAuth m)
  let pk := slice m 640 (pkLen set)
  let sig := slice m (640 + pkLen set) (manifestLen set - 640 - pkLen set)
  if !manifestForm m then 1
  else if nth m 6 0 ≠ s.variantCode ∨ nth m 7 0 ≠ revisionCode then 2
  else if !s.authKey (mAuth m) pk then 3
  else if !Config.slhVerify set pk ctxHZMF (slice m 0 640) sig then 4
  else if mSvnApp m < s.fuseCount 48 ∨ mSvnBase m < s.fuseCount 32 then 5
  else 0

/-- The set fits a slot (R462). -/
def manifestFits (m : List Nat) : Bool :=
  decide (mT m ≤ 93044) &&
    (!mDelta m || (decide (blocksOff + mT m * blockLen ≤ mCompOfs m) && decide (mCompOfs m < slotSize)))

/-- All manifest tests (R464). -/
def State.manifestReason (s : State) (m : List Nat) : Nat :=
  let r := s.manifestTests5 m
  if r ≠ 0 then r
  else if s.upd.baseVer < mBaseMin m ∧ !mHasBase m then 6
  else if !manifestFits m then 7
  else 0

/-! Status records (R475). -/

abbrev sEMPTY : Nat := 0
abbrev sRECEIVING : Nat := 1
abbrev sRECEIVED : Nat := 2
abbrev sCOMPLETE : Nat := 3
abbrev sTRIAL : Nat := 4
abbrev sCONFIRMED : Nat := 5
abbrev sOLD : Nat := 6
abbrev sREJECTED : Nat := 7

/-- A slot's state: code, tries left, confirm count. -/
structure SlotInfo where
  st : Nat
  tries : Nat
  count : Nat
  deriving DecidableEq, Repr

def statusRecord (st tries count : Nat) (root : List Nat) : List Nat :=
  let l := [0x48, 0x5A, 0x53, 0x53, st, tries, 0, 0] ++ bytesBE 4 count ++ root.take 16
  l ++ bytesBE 4 (crc32 l)

/-- Records of the status area that are not erased: one above the last. -/
def State.statusNext (s : State) (k : Nat) : Nat :=
  let a := norBase k + slotBase + statusOff
  (s.mem.filter fun e => decide (a ≤ e.1) && decide (e.1 < a + 0x8000)).foldl (fun n e => max n ((e.1 - a) / 32 + 1)) 0

/-- The state of a slot: that of its last valid record (R475). -/
def State.slotInfo (s : State) (k : Nat) : SlotInfo :=
  let root := (mRoot (s.manifest k)).take 16
  (List.range (s.statusNext k)).foldl (fun b i =>
    let r := s.slotBytes k (statusOff + 32 * i) 32
    if slice r 0 4 = [0x48, 0x5A, 0x53, 0x53] ∧ slice r 28 4 = bytesBE 4 (crc32 (r.take 28)) ∧ slice r 12 16 = root then
      ⟨nth r 4 0, nth r 5 0, beAt r 8 4⟩
    else b) ⟨sEMPTY, 0, 0⟩

def State.slotState (s : State) (k : Nat) : Nat := (s.slotInfo k).st

/-- A status record is appended; where the program fails its bytes are unknown. -/
def State.slotRecord (s : State) (k st tries count : Nat) (good : Bool := true) : State :=
  let i := s.statusNext k
  if 1024 ≤ i then s
  else if good then s.slotProgram k (statusOff + 32 * i) (statusRecord st tries count (mRoot (s.manifest k)))
  else s.slotSpoil k (statusOff + 32 * i) 32

/-- A new state of a slot, its count kept. -/
def State.slotTo (s : State) (k st : Nat) (good : Bool := true) : State :=
  s.slotRecord k st 0 (s.slotInfo k).count good

/-! Payloads (R462, R465, R471). -/

/-- Slot offset of the payload: behind the hash blocks in a full set, at COMP_OFS in a delta set. -/
def payloadOff (m : List Nat) : Nat := if mDelta m then mCompOfs m else blocksOff + (mT m - mData m) * blockLen

/-- A component's bytes. -/
def State.compBytes (s : State) (k : Nat) (m : List Nat) (c : Comp) : List Nat := s.slotBytes k (payloadOff m + c.off) c.len

def State.compOk (s : State) (k : Nat) (m : List Nat) (c : Comp) : Bool := sha256 (s.compBytes k m c) == c.hash

/-- What a delta patch says of itself: old version, old hash, new length. -/
def patchForm (l : List Nat) : Bool := slice l 0 8 == [0x48, 0x5A, 0x44, 0x50, 1, 0, 0, 0]

/-- The commands of a patch run in order (Table 16-6): old payload, new length, output so far in reverse pieces. -/
def patchRun (old : List Nat) (newLen : Nat) : Nat → List Nat → List Nat → Option (List Nat)
  | 0, _, _ => none
  | fuel + 1, out, l =>
    match l with
    | 0 :: _ => if out.length = newLen then some out else none
    | 1 :: t =>
      let n := beAt t 0 4
      let src := beAt t 4 4
      if t.length < 8 ∨ old.length < src + n ∨ newLen < out.length + n then none
      else patchRun old newLen fuel (out ++ slice old src n) (t.drop 8)
    | 2 :: t =>
      let n := beAt t 0 4
      if t.length < 4 + n ∨ newLen < out.length + n then none
      else patchRun old newLen fuel (out ++ slice t 4 n) (t.drop (4 + n))
    | _ => none

/-- Length of the payload of the running set: for a full set P, for a delta set the new length of its patch. -/
def State.payloadLen (s : State) (k : Nat) (m : List Nat) : Nat :=
  if mDelta m then ofBytesBE (s.slotBytes k (blocksOff + (mT m - mData m) * blockLen + 44) 4) else mP m

def State.payload (s : State) (k : Nat) (m : List Nat) : List Nat := s.slotBytes k (payloadOff m) (s.payloadLen k m)

/-- A delta patch is applied (R472): the state with the new payload, or the reason why not. -/
def State.patchApply (s : State) (k : Nat) (m : List Nat) : State × Nat :=
  let patch := s.slotBytes k (blocksOff + (mT m - mData m) * blockLen) (mP m)
  match s.upd.run with
  | none => (s, 0xB)
  | some r =>
    let rm := s.manifest r
    if s.slotState r ≠ sCONFIRMED ∨ r = k ∨ beAt patch 8 4 ≠ mVersion rm ∨ beAt m 96 4 ≠ mVersion rm
        ∨ slice patch 12 32 ≠ mPayloadHash rm ∨ slice m 100 32 ≠ mPayloadHash rm then (s, 0xB)
    else
      let newLen := beAt patch 44 4
      if !patchForm patch || decide (slotSize < mCompOfs m + newLen) then (s, 0xC)
      else
        match patchRun (s.payload r rm) newLen (patch.length + 1) [] (patch.drop 48) with
        | some out => (s.slotProgram k (mCompOfs m) out, 0)
        | none => (s, 0xC)

/-- The checks of R471: the state, and the reason. -/
def State.slotCheck (s : State) (k : Nat) : State × Nat :=
  let m := s.manifest k
  let (s1, r) := if mDelta m then s.patchApply k m else (s, 0)
  if r ≠ 0 then (s1, r)
  else
    let pay := s1.payload k m
    if sha256 pay ≠ mPayloadHash m then (s1, 0xA)
    else if (mCompList m).all fun c => decide (c.off + c.len ≤ pay.length) && s1.compOk k m c then (s1, 0)
    else (s1, 0xA)

/-- A slot in RECEIVED is completed (R471): COMPLETE, or REJECTED with its reason. -/
def State.slotCompleted (s : State) (k : Nat) (good : Bool := true) : State × Nat :=
  let (s1, r0) := s.slotCheck k
  let r := if r0 = 0 && !good then 0xD else r0
  let id := match s.upd.relay with | some x => x.id | none => 0
  let loc := id * 0x10000 + r
  if r = 0 then ((s1.slotTo k sCOMPLETE).err pSEC 0xB023 loc, 0)
  else
    let s2 := s1.slotTo k sREJECTED good
    (if r = 0xB ∨ r = 0xC then s2.err pSEC 0xB227 loc else s2, r)

/-! The relay (R466-R470). -/

def State.setRelay (s : State) (r : Relay) : State := { s with upd.relay := some r }

/-- A relay frame of this module: type, ID, block or next number, three fields and what follows. -/
def Relay.frame (r : Relay) (ty num a b c : Nat) (rest : List Nat) : List Nat :=
  [0x10 + ty, r.hop] ++ bytesBE 2 r.id ++ bytesBE 4 num ++ [a, b] ++ bytesBE 2 c ++ rest

def State.ackUp (s : State) (r : Relay) (next reason hop : Nat) : State :=
  (s.emit (.relay (r.hop - 1) (r.frame 3 next reason hop r.w []))).setRelay { r with acked := next }

/-- ABORT to the neighbours other than the one it came from. -/
def State.abortTo (s : State) (r : Relay) (reason hop : Nat) (up down : Bool) : State :=
  let f := r.frame 5 0 reason hop 0 []
  let s1 := if up then s.emit (.relay (r.hop - 1) f) else s
  if down && decide (r.hop < r.last) then s1.emit (.relay (r.hop + 1) f) else s1

/-- The transfer ends by ABORT (R470): a slot still RECEIVING is written REJECTED. -/
def State.abortRelay (s : State) (r : Relay) (reason hop : Nat) (up down : Bool) : State :=
  let s1 := s.abortTo r reason hop up down
  let s2 := if s1.slotState r.slot = sRECEIVING ∧ 2 ≤ r.phase then s1.slotTo r.slot sREJECTED else s1
  { s2 with upd.relay := none }.err pSEC 0xB226 (r.id * 0x10000 + reason)

def Relay.manifest (r : Relay) : List Nat :=
  ((List.range r.man.length).map fun i => (r.man.lookup i).getD []).flatten

/-- A block's bytes: as received, or from the slot. -/
def State.relayBlock (s : State) (r : Relay) (b : Nat) : List Nat :=
  match r.queue.lookup b with
  | some l => l
  | none => s.slotBytes r.slot (blocksOff + b * blockLen) blockLen

/-- Blocks go to hop h + 1 while they are held and lie in the window it has acknowledged, one sent before only once it is programmed
(R469); CLOSE goes after the last. -/
def relayPush : Nat → Nat → State → State
  | 0, _, s => s
  | fuel + 1, t, s =>
    match s.upd.relay with
    | none => s
    | some r =>
      if r.last ≤ r.hop then s
      else if r.sent < r.next ∧ r.sent < r.down + r.w ∧ (r.high ≤ r.sent ∨ r.sent < r.prog) then
        relayPush fuel t
          ((s.emit (.relay (r.hop + 1) (r.frame 2 r.sent 1 0 blockLen (s.relayBlock r r.sent)))).setRelay
            { r with sent := r.sent + 1, high := max r.high (r.sent + 1) })
      else if 3 ≤ r.phase ∧ r.sent = t ∧ !r.closeSent then
        (s.emit (.relay (r.hop + 1) (r.frame 4 0 0 0 0 []))).setRelay { r with closeSent := true }
      else s

def State.push (s : State) : State :=
  match s.upd.relay with
  | none => s
  | some r => relayPush (r.next + 2) (mT r.manifest) s

/-- The final ACK (R470): after the own slot's result and hop h + 1's final ACK. -/
def State.relayFinish (s : State) : State :=
  match s.upd.relay with
  | none => s
  | some r =>
    match r.result with
    | none => s
    | some own =>
      let t := mT r.manifest
      let fin (reason hop : Nat) := { s.ackUp r t reason hop with upd.relay := none }
      if r.last ≤ r.hop then fin own r.hop
      else
        match r.downEnd with
        | none => s
        | some (reason, hop) => if own ≠ 0 then fin own r.hop else fin reason hop

/-- A malformed relay frame is dropped. -/
def State.relayBad (s : State) (octets : List Nat) : State := s.err pSEC 0xB020 (beAt octets 2 2 * 0x10000)

/-- The header of a relay frame of a type has its form. -/
def relayHead (ty : Nat) (l : List Nat) : Bool := nth l 0 0 == 0x10 + ty && decide (12 ≤ l.length)

/-- SC runs and hears the relay. -/
def State.scUp (s : State) : Bool := s.up.compute && !s.sec.stopped

/-- The slot that may be written (R467): the one not running, and none while the running slot is TRIAL. -/
def State.writableSlot (s : State) : Option Nat :=
  match s.upd.run with
  | none => some 0
  | some k => if s.slotState k = sTRIAL then none else some (1 - k)

def State.relayEnabled (s : State) : Bool := s.settingVal 0xFF00 % 2 == 1

def execRelayOpen (octets : List Nat) (s : State) : Host.Outcome State Fault Refusal :=
  .next (
    if !s.scUp then s
    else
      let h := nth octets 1 0 + 1
      let last := nth octets 8 0
      let w := beAt octets 10 2
      let tab := octets.drop 12
      if !relayHead 1 octets || !(allZero (slice octets 4 4)) || nth octets 9 0 != 0 || decide (w < 1 ∨ 256 < w)
          || decide (last < 1 ∨ 16 < last) || tab.length != 24 * last then s.relayBad octets
      else
        let r : Relay :=
          { id := beAt octets 2 2, hop := h, last := last, table := tab, w := w, man := [], slot := 0, phase := 0, next := 0
            queue := [], prog := 0, acked := 0, down := 0, sent := 0, high := 0, closeSent := false, downEnd := none, resends := 0
            result := none }
        match s.writableSlot with
        | some k =>
          if slice tab (24 * (h - 1)) 16 = s.deviceId ∧ h ≤ last ∧ s.relayEnabled ∧ s.upd.relay.isNone then
            let s1 := s.setRelay { r with slot := k }
            if h < last then s1.emit (.relay (h + 1) (r.frame 1 0 last 0 w tab)) else s1
          else s.abortTo r 8 h true false
        | none => s.abortTo r 8 h true false)

/-- A frame of the open transfer from hop h - 1 (true) or h + 1. -/
def State.relayFrom (s : State) (up : Bool) (octets : List Nat) : Option Relay :=
  match s.upd.relay with
  | some r => if beAt octets 2 2 = r.id ∧ nth octets 1 0 = (if up then r.hop - 1 else r.hop + 1) then some r else none
  | none => none

/-- The form of a BLOCK frame of a kind. -/
def relayBlockOk (kind : Nat) (octets : List Nat) : Bool :=
  relayHead 2 octets && nth octets 8 0 == kind && nth octets 9 0 == 0 && decide (1 ≤ beAt octets 10 2) &&
    decide (beAt octets 10 2 ≤ blockLen) && octets.length == 12 + beAt octets 10 2

/-- All manifest blocks have arrived: the manifest is tested, forwarded, and the slot's preparation begins (R468). -/
def State.manifestArrived (s : State) (r : Relay) : State :=
  let m := r.manifest
  let reason := s.manifestReason m
  if reason ≠ 0 then
    { s.abortTo r reason r.hop true true with upd.relay := none }.err pSEC 0xB021 (r.id * 0x10000 + reason)
  else
    let s1 := s.each (if r.hop < r.last then r.man.map (·.1) else []) fun s i =>
      let l := (r.man.lookup i).getD []
      s.emit (.relay (r.hop + 1) (r.frame 2 i 0 0 l.length l))
    s1.setRelay { r with phase := 1 }

/-- Manifest blocks of a set, once block 0 tells the authority. -/
def State.manBlocks (s : State) (r : Relay) : Nat :=
  match r.man.lookup 0 with
  | some l => (s.manLen l + blockLen - 1) / blockLen
  | none => 13

def execRelayManifestBlock (octets : List Nat) (s : State) : Host.Outcome State Fault Refusal :=
  .next (
    if !s.scUp then s
    else if !relayBlockOk 0 octets then s.relayBad octets
    else
      match s.relayFrom true octets with
      | none => s
      | some r =>
        let b := beAt octets 4 4
        if r.phase ≠ 0 ∨ 13 ≤ b then s
        else
          let man := if (r.man.lookup b).isSome then r.man else sortBy (fun x y => decide (x.1 ≤ y.1)) (r.man ++ [(b, octets.drop 12)])
          let r1 := { r with man := man }
          let n := s.manBlocks r1
          if (List.range n).all fun i => (man.lookup i).isSome then
            s.manifestArrived { r1 with man := man.filter fun e => decide (e.1 < n) }
          else s.setRelay r1)

/-- The blocks of 64 KiB that a set needs are erased: manifest and status areas, transport blocks, and for a delta set the
slot from COMP_OFS on (R462). -/
def State.slotErase (s : State) (k : Nat) (m : List Nat) : State :=
  let n := (mT m * blockLen + 0xFFFF) / 0x10000
  let l := manOff :: ((List.range n).map fun i => blocksOff + i * 0x10000)
  let d := if mDelta m then
      (List.range ((slotSize - mCompOfs m) / 0x10000)).map fun i => mCompOfs m + i * 0x10000 else []
  s.each (l ++ d.filter fun o => !l.contains o) fun s o => s.norEraseBlock k (slotBase + o) 0x10000

def execSlotPrepared (good : Bool) (s : State) : Host.Outcome State Fault Refusal :=
  .next (
    match s.upd.relay with
    | none => s
    | some r =>
      if r.phase ≠ 1 then s
      else
        let m := r.manifest
        let s1 := (s.slotErase r.slot m).slotProgram r.slot manOff m
        let r1 := { r with phase := 2 }
        if good then (s1.slotRecord r.slot sRECEIVING 0 0).ackUp r1 0 0 r.hop
        else (s1.slotRecord r.slot sRECEIVING 0 0 false).abortRelay r1 0xD r.hop true true)

/-- SHA-256 of a block agrees with its parent, or for block 0 with ROOT (R465). -/
def State.blockOk (s : State) (r : Relay) (b : Nat) (l : List Nat) : Bool :=
  let m := r.manifest
  if b = 0 then sha256 l == mRoot m
  else
    match mParent m b with
    | some (p, i) => sha256 l == slice (s.relayBlock r p) (32 * i) 32
    | none => false

def execRelayTransportBlock (octets : List Nat) (s : State) : Host.Outcome State Fault Refusal :=
  .next (
    if !s.scUp then s
    else if !relayBlockOk 1 octets || octets.length != 12 + blockLen then s.relayBad octets
    else
      match s.relayFrom true octets with
      | none => s
      | some r =>
        let b := beAt octets 4 4
        let l := octets.drop 12
        if r.phase ≠ 2 then s
        else if b ≠ r.next ∨ mT r.manifest ≤ b then s.ackUp r r.next 9 r.hop
        else if !s.blockOk r b l then (s.err pSEC 0xB022 b).ackUp r r.next 9 r.hop
        else (s.setRelay { r with next := b + 1, queue := r.queue ++ [(b, l)] }).push)

/-- The slot has all blocks and CLOSE: RECEIVED is written (R470). -/
def State.relayReceived (s : State) (r : Relay) : State :=
  if r.phase = 3 ∧ r.prog = mT r.manifest ∧ s.slotState r.slot = sRECEIVING then s.slotTo r.slot sRECEIVED else s

def execBlockProgrammed (good : Bool) (s : State) : Host.Outcome State Fault Refusal :=
  .next (
    match s.upd.relay with
    | none => s
    | some r =>
      match r.queue with
      | [] => s
      | (b, l) :: q =>
        let off := blocksOff + b * blockLen
        if !good then (s.slotSpoil r.slot off blockLen).abortRelay r 0xD r.hop true true
        else
          let r1 := { r with queue := q, prog := b + 1 }
          let s1 := (s.slotProgram r.slot off l).setRelay r1
          let s2 := if r1.acked + 16 ≤ r1.prog ∧ r1.prog < mT r1.manifest then s1.ackUp r1 r1.prog 0 r1.hop else s1
          (s2.relayReceived r1).push)

def execAckTimer (s : State) : Host.Outcome State Fault Refusal :=
  .next (
    match s.upd.relay with
    | none => s
    | some r => if r.phase = 2 ∧ r.acked < r.prog ∧ r.prog < mT r.manifest then s.ackUp r r.prog 0 r.hop else s)

def execRelayAck (octets : List Nat) (s : State) : Host.Outcome State Fault Refusal :=
  .next (
    if !s.scUp then s
    else if !relayHead 3 octets then s.relayBad octets
    else
      match s.relayFrom false octets with
      | none => s
      | some r =>
        let next := beAt octets 4 4
        let reason := nth octets 8 0
        if next = mT r.manifest ∧ r.closeSent then
          (s.setRelay { r with down := next, downEnd := some (reason, nth octets 9 0) }).relayFinish
        else
          let r1 := if r.down < next then { r with down := next, resends := 0 } else r
          let r2 := if reason = 9 ∧ next < r1.sent then { r1 with sent := next } else r1
          (s.setRelay r2).push)

def execRelayNoProgress (s : State) : Host.Outcome State Fault Refusal :=
  .next (
    match s.upd.relay with
    | none => s
    | some r =>
      if r.last ≤ r.hop ∨ r.phase < 2 ∨ r.downEnd.isSome ∨ r.sent = r.down then s
      else if 5 ≤ r.resends then s.abortRelay r 0xE r.hop true true
      else (s.setRelay { r with sent := r.down, closeSent := false, resends := r.resends + 1 }).push)

def execRelayClose (octets : List Nat) (s : State) : Host.Outcome State Fault Refusal :=
  .next (
    if !s.scUp then s
    else if !relayHead 4 octets || !(allZero (octets.drop 4)) then s.relayBad octets
    else
      match s.relayFrom true octets with
      | none => s
      | some r =>
        if r.phase ≠ 2 then s
        else if r.next < mT r.manifest then s.ackUp r r.next 9 r.hop
        else
          let r1 := { r with phase := 3 }
          ((s.setRelay r1).relayReceived r1).push)

def execRelayAbort (octets : List Nat) (s : State) : Host.Outcome State Fault Refusal :=
  .next (
    if !s.scUp then s
    else if !relayHead 5 octets then s.relayBad octets
    else
      match s.relayFrom true octets, s.relayFrom false octets with
      | some r, _ => s.abortRelay r (nth octets 8 0) (nth octets 9 0) false true
      | none, some r => s.abortRelay r (nth octets 8 0) (nth octets 9 0) true false
      | none, none => s)

def execSlotComplete (slot : Fin 2) (good : Bool) (s : State) : Host.Outcome State Fault Refusal :=
  .next (
    if !s.scUp || s.slotState slot.val != sRECEIVED then s
    else
      let (s1, reason) := s.slotCompleted slot.val good
      match s1.upd.relay with
      | some r =>
        if r.slot = slot.val ∧ r.phase = 3 then
          (s1.setRelay { r with phase := 4, result := some reason }).relayFinish else s1
      | none => s1)

/-! Settings (R479, R480). -/

/-- A settings record: key, format, sequence number, data. -/
structure SetRec where
  key : Nat
  fmt : Nat
  seq : Nat
  data : List Nat
  deriving DecidableEq, Repr

def pad16 (n : Nat) : Nat := (n + 15) / 16 * 16

def SetRec.body (r : SetRec) : List Nat :=
  [0x48, 0x5A, 0x53, 0x54] ++ bytesBE 2 r.key ++ bytesBE 2 r.fmt ++ bytesBE 2 r.data.length ++ [0, 0] ++ bytesBE 4 r.seq ++
    r.data ++ List.replicate (pad16 r.data.length - r.data.length) 0

def SetRec.octets (kSto : List Nat) (r : SetRec) : List Nat := r.body ++ aesCmac kSto r.body

abbrev setLogBase : Nat := 0x30000
abbrev setHalfSize : Nat := 0x78000

/-- Bytes used of a half on a die, in units of 16. -/
def State.setUsed (s : State) (die half : Nat) : Nat :=
  let a := norBase die + setLogBase + half * setHalfSize
  (s.mem.filter fun e => decide (a ≤ e.1) && decide (e.1 < a + setHalfSize)).foldl (fun n e => max n ((e.1 - a) / 16 + 1)) 0

/-- The record that begins at 16-byte unit u of a half: its length in units and, where its CMAC checks, the record; none where
none begins there. -/
def State.setRecAt (s : State) (die half u : Nat) : Option (Nat × Option SetRec) :=
  let a := norBase die + setLogBase + half * setHalfSize + 16 * u
  let h := s.bytes a 16
  let d := beAt h 8 2
  if slice h 0 4 ≠ [0x48, 0x5A, 0x53, 0x54] ∨ 4072 < d then none
  else
    let body := s.bytes a (16 + pad16 d)
    let n := pad16 d / 16 + 2
    if aesCmac s.kSto body = s.bytes (a + 16 + pad16 d) 16 then
      some (n, some ⟨beAt h 4 2, beAt h 6 2, beAt h 12 4, slice body 16 d⟩)
    else some (n, none)

/-- The records of a half of a die over n units from u on, each with its unit and length; `skip` units belong to the record
before. An invalid one is none. -/
def State.setScan (s : State) (die half : Nat) : Nat → Nat → Nat → List (Nat × Nat × Option SetRec)
  | 0, _, _ => []
  | n + 1, u, skip + 1 => s.setScan die half n (u + 1) skip
  | n + 1, u, 0 =>
    match s.setRecAt die half u with
    | some (k, some r) => (u, k, some r) :: s.setScan die half n (u + 1) (k - 1)
    | some (k, none) => (u, k, none) :: s.setScan die half n (u + 1) 0
    | none => s.setScan die half n (u + 1) 0

def State.setRecs (s : State) (die half : Nat) : List (Nat × Nat × Option SetRec) :=
  s.setScan die half (s.setUsed die half) 0 0

/-- Every valid record in the store. -/
def State.setAll (s : State) : List SetRec :=
  [0, 1].flatMap fun h => [0, 1].flatMap fun d => (s.setRecs d h).filterMap fun e => e.2.2

/-- The newest record of those that f selects. -/
def newestSet (f : SetRec → Bool) (l : List SetRec) : Option SetRec :=
  (l.filter f).foldl (fun b r => match b with
    | some x => if x.seq < r.seq then some r else b
    | none => some r) none

/-- Bytes of a record programmed after the last used unit of the half in use, on die 0 and then die 1. -/
def State.setProgram (s : State) (l : List Nat) (good : Bool) : State :=
  let off := setLogBase + s.upd.half * setHalfSize + 16 * max (s.setUsed 0 s.upd.half) (s.setUsed 1 s.upd.half)
  if good then (s.norProgram 0 off l).norProgram 1 off l
  else (State.freeBytes (norBase 0 + off) l.length s).err (pNOR 0) 0xA217 off

/-- Keys and formats of a list of records, each once. -/
def setKinds (l : List SetRec) : List (Nat × Nat) :=
  l.foldl (fun k r => if k.contains (r.key, r.fmt) then k else k ++ [(r.key, r.fmt)]) []

/-- The other half is erased and takes the newest record of each key in format 0 and in the formats of slots in TRIAL or
CONFIRMED (R480). -/
def State.setCompact (s : State) : State :=
  let all := s.setAll
  let fmts := 0 :: ([0, 1].filter fun k => s.slotState k == sTRIAL || s.slotState k == sCONFIRMED).map fun k => mFmt (s.manifest k)
  let keep := ((setKinds all).filter fun e => fmts.contains e.2).filterMap fun e =>
    newestSet (fun r => r.key == e.1 && r.fmt == e.2) all
  let h := 1 - s.upd.half
  let s1 := s.each [0, 1] fun s die => s.each (List.range (setHalfSize / 0x1000)) fun s i =>
    s.norEraseBlock die (setLogBase + h * setHalfSize + i * 0x1000) 0x1000
  ({ s1 with upd.half := h }).each keep fun s r => s.setProgram (r.octets s.kSto) true

/-- A settings record is written. -/
def State.setStore (s : State) (key fmt : Nat) (data : List Nat) (good : Bool) : State :=
  let r : SetRec := ⟨key, fmt, s.setAll.foldl (fun m x => max m x.seq) 0 + 1, data⟩
  let l := r.octets s.kSto
  let used := max (s.setUsed 0 s.upd.half) (s.setUsed 1 s.upd.half)
  let s1 := if setHalfSize < 16 * used + l.length then s.setCompact else s
  s1.setProgram l good

/-- Records valid on one die only are copied to the other, where its bytes are erased; invalid ones are skipped with 0xB228
(R479). -/
def State.setMend (s : State) (half : Nat) : State :=
  let l0 := s.setRecs 0 half
  let l1 := s.setRecs 1 half
  let good (l : List (Nat × Nat × Option SetRec)) := l.filter fun e => e.2.2.isSome
  let s1 := s.each ((l0 ++ l1).filter fun e => e.2.2.isNone) fun s _ => s.err pSEC 0xB228 0
  let copy (src dst : Nat) (s : State) (e : Nat × Nat × Option SetRec) : State :=
    let off := setLogBase + half * setHalfSize + 16 * e.1
    if (s.bytes (norBase dst + off) (16 * e.2.1)).all fun x => x == 255 then
      s.norProgram dst off (s.bytes (norBase src + off) (16 * e.2.1))
    else s
  (s1.each (good l0) (copy 0 1)).each (good l1) (copy 1 0)

/-- SetRec keys in rising order, each with the newest record in the booted format or format 0. -/
def State.setLoaded (s : State) (fmt : Nat) : List SetRec :=
  let all := s.setAll.filter fun r => r.fmt == fmt || r.fmt == 0
  let keys := sortBy (fun x y => decide (x ≤ y)) (all.map (·.key)).eraseDups
  keys.filterMap fun k => newestSet (fun r => r.key == k) all

/-! Requests (R481). -/

/-- The request that waits in MB_31, where SC may take it and its operation is op: its words. -/
def State.request (s : State) (op : Nat) : Option (List Nat) :=
  let p := pMBC 31
  let w := (List.range 16).map fun k => (s.rd p (MB_DATA k)).toNat
  if s.scUp && s.on p MB_STAT_FULL && s.get p MB_CFG_RX_AGENT == 0x20 && nth w 0 0 / 2 ^ 24 == op then some w else none

/-- The request is taken and answered: status and words (R481). A reply that the channel refuses is lost. -/
def State.reply (s : State) (w : List Nat) (status : Nat) (rest : List Nat) : State :=
  let s1 := takeEff 31 s
  let w0 := nth w 0 0
  let head := (w0 / 2 ^ 24 % 128 + 128) * 2 ^ 24 + bitsOf w0 16 8 * 2 ^ 16 + status
  (s1.mailSend 0x20 0 0 (bitsOf w0 8 5) (1 + rest.length) (head :: rest)).1

/-- Slot words of a STATUS reply. -/
def State.statusWord (s : State) (k : Nat) : Nat :=
  let i := s.slotInfo k
  i.st % 16 * 2 ^ 28 + i.tries % 16 * 2 ^ 24 + (if i.st = sEMPTY then 0 else mSvnApp (s.manifest k))

def execUpdateStatus (s : State) : Host.Outcome State Fault Refusal :=
  .next (
    match s.request 1 with
    | none => s
    | some w =>
      let v (k : Nat) := if s.slotState k = sEMPTY then 0 else mVersion (s.manifest k)
      s.reply w 0 [s.statusWord 0, s.statusWord 1, v 0, v 1, s.upd.baseVer, s.fuseCount 32 * 2 ^ 16 + s.fuseCount 48])

/-- A slot that is not running, in one of some states. -/
def State.idleSlot (s : State) (f : Nat → Bool) : Option Nat :=
  [0, 1].find? fun k => s.upd.run != some k && f (s.slotState k)

def execUpdateTrial (good : Bool) (s : State) : Host.Outcome State Fault Refusal :=
  .next (
    match s.request 2 with
    | none => s
    | some w =>
      let tries := nth w 0 0 % 256
      if tries < 1 ∨ 7 < tries then s.reply w 4 []
      else
        match s.idleSlot fun st => st == sCOMPLETE with
        | none => s.reply w 2 []
        | some k => (s.slotRecord k sTRIAL tries (s.slotInfo k).count good).reply w (if good then 0 else 5) [])

/-- A fuse count is raised to n, bits in ascending order (R478). -/
def State.raiseCount (s : State) (w n : Nat) : State :=
  if n ≤ s.fuseCount w then s else s.each (List.range n) fun s b => s.burn (w + b / 32) (2 ^ (b % 32))

/-- Counts follow a CONFIRMED set; the base count only where its base is the one installed. -/
def State.raiseCounts (s : State) (k : Nat) : State :=
  let m := s.manifest k
  let s1 := s.raiseCount 48 (mSvnApp m)
  if s1.upd.baseVer = mVersion m ∧ mHasBase m then s1.raiseCount 32 (mSvnBase m) else s1

/-- Steps 2 and 3 of R477 for a CONFIRMED slot. -/
def State.confirmRest (s : State) (k : Nat) : State :=
  let s1 := if s.slotState (1 - k) = sCONFIRMED then s.slotTo (1 - k) sOLD else s
  s1.raiseCounts k

/-- A capsule of seven words is checked on CMD port 0 (R477, R517): the state, its REASON, its bytes. A capsule of another
channel than the one set is rejected as not enabled. -/
def State.capsuleWords (s : State) (words : List Nat) (channel : Nat) : State × Nat × List Nat :=
  let b := (words.map (bytesBE 4)).flatten
  let s1 := (s.setRegBytes pCMD (capData 0) b).capCheck 0 words.length
  let reason := s1.get pCMD (CMD_P_RES_REASON 0)
  (s1, if reason = 0 ∧ nth b 1 0 % 16 ≠ channel then 3 else reason, b)

def execUpdateConfirm (good : Bool) (s : State) : Host.Outcome State Fault Refusal :=
  .next (
    match s.request 3 with
    | none => s
    | some w =>
      let (s1, reason, b) := s.capsuleWords (slice w 1 7) (s.settingVal 0xFF02)
      if reason ≠ 0 then s1.reply w 3 [reason]
      else if beAt b 2 2 ≠ 0xFFC1 ∨ nth b 4 0 ≠ 8 ∨ !(allZero (slice b 13 3)) then s1.reply w 4 [0]
      else
        match s1.upd.run with
        | none => s1.reply w 2 [0]
        | some k =>
          if s1.slotState k ≠ sTRIAL then s1.reply w 2 [0]
          else if beAt b 8 4 ≠ mVersion (s1.manifest k) ∨ nth b 12 0 ≠ k then s1.reply w 4 [0]
          else
            let count := max (s1.slotInfo 0).count (s1.slotInfo 1).count + 1
            let s2 := s1.slotRecord k sCONFIRMED 0 count good
            if good then (s2.confirmRest k).reply w 0 [0] else s2.reply w 5 [0])

def execUpdateReject (good : Bool) (s : State) : Host.Outcome State Fault Refusal :=
  .next (
    match s.request 4 with
    | none => s
    | some w =>
      match s.idleSlot fun st => st == sCOMPLETE || st == sTRIAL with
      | none => s.reply w 2 []
      | some k => (s.slotTo k sREJECTED good).reply w (if good then 0 else 5) [])

def execUpdateAbort (s : State) : Host.Outcome State Fault Refusal :=
  .next (
    match s.request 5 with
    | none => s
    | some w =>
      match s.upd.relay with
      | none => s.reply w 2 []
      | some r => (s.abortRelay r 0xE r.hop true true).reply w 0 [])

def execSetWrite (good : Bool) (s : State) : Host.Outcome State Fault Refusal :=
  .next (
    match s.request 6 with
    | none => s
    | some w =>
      let key := nth w 1 0 / 2 ^ 16
      let fmt := nth w 1 0 % 2 ^ 16
      let addr := nth w 2 0 + nth w 3 0 % 16 * 2 ^ 32
      let d := nth w 4 0
      let cur := match s.upd.run with | some k => mFmt (s.manifest k) | none => 0
      if 4072 < d ∨ (fmt ≠ 0 ∧ fmt ≠ cur) then s.reply w 4 []
      else if !s.keysReady then s.reply w 2 []
      else
        match s.ramRead 0 false addr (max d 1) with
        | (s1, none) => s1.reply w 4 []
        | (s1, some l) => (s1.setStore key fmt (l.take d) good).reply w (if good then 0 else 5) [])

def execSetRead (s : State) : Host.Outcome State Fault Refusal :=
  .next (
    match s.request 7 with
    | none => s
    | some w =>
      let key := nth w 1 0 / 2 ^ 16
      let fmt := nth w 1 0 % 2 ^ 16
      let addr := nth w 2 0 + nth w 3 0 % 16 * 2 ^ 32
      let d := nth w 4 0
      if !s.keysReady then s.reply w 2 []
      else
        match newestSet (fun r => r.key == key && r.fmt == fmt) s.setAll with
        | none => s.reply w 0 [0]
        | some r =>
          let l := r.data.take d
          match s.ramWrite 0 false addr l with
          | (s1, true) => s1.reply w 0 [l.length]
          | (s1, false) => s1.reply w 4 [])

end Sys2Proof.Machine
end

