-- ==== Sys2Proof/Machine/SelfTest.lean ====
section
/-!
DEFINITION. The repair log and the shut-down self-test (spec/19 R550-R553): records on both NOR dies, spare rows, results, and
what SC loads of them at a start.
-/

namespace Sys2Proof.Machine

/-! Repair log records (Table 19-4), as their 32 bytes. -/

abbrev repBase : Nat := 0x120000
abbrev repHalfSize : Nat := 0x20000
abbrev repMagic : List Nat := [0x48, 0x5A, 0x52, 0x50]

def repSeal (l : List Nat) : List Nat := l ++ bytesBE 4 (crc32 l)

def repValid (l : List Nat) : Bool := slice l 0 4 == repMagic && crc32 (l.take 28) == beAt l 28 4

def repFailure (l : List Nat) : Bool := nth l 4 0 == 1
def repRun (l : List Nat) : Nat := beAt l 24 4
def repArray (l : List Nat) : Nat := nth l 5 0
def repBank (l : List Nat) : Nat := beAt l 6 2
def repRow (l : List Nat) : Nat := beAt l 8 2
def repSpare (l : List Nat) : Nat := nth l 10 0 % 16
def repBit (l : List Nat) : Nat := nth l 11 0
def repAddr (l : List Nat) : Nat := beAt l 12 5 % 2 ^ 36

/-- Records of a half on a die that have been programmed. -/
def State.repUsed (s : State) (die half : Nat) : Nat :=
  let a := norBase die + repBase + half * repHalfSize
  (s.mem.filter fun e => decide (a ≤ e.1) && decide (e.1 < a + repHalfSize)).foldl (fun n e => max n ((e.1 - a) / 32 + 1)) 0

/-- The valid records of a half, those of die 0 before those that only die 1 holds. -/
def State.repHalfRecs (s : State) (half : Nat) : List (List Nat) :=
  ([0, 1].flatMap fun die => ((List.range (s.repUsed die half)).map fun i =>
    s.bytes (norBase die + repBase + half * repHalfSize + 32 * i) 32).filter repValid).eraseDups

def State.repAll (s : State) : List (List Nat) := s.repHalfRecs 0 ++ s.repHalfRecs 1

/-- The number of the newest run, 0 where there is none. -/
def State.repNewest (s : State) : Nat := s.repAll.foldl (fun m l => max m (repRun l)) 0

/-- The failures in the log. -/
def State.repFailures (s : State) : List (List Nat) := s.repAll.filter repFailure

/-- A record is programmed after the last one of the half in use, on die 0 and then on die 1 (R552). -/
def State.repAppend (s : State) (l : List Nat) : State :=
  let h := s.health.repairHalf
  let off := repBase + h * repHalfSize + 32 * max (s.repUsed 0 h) (s.repUsed 1 h)
  (s.norProgram 0 off l).norProgram 1 off l

/-- A full half is left: every failure record is copied into the other half, and the full one is erased (R553). -/
def State.repCompact (s : State) : State :=
  let h := s.health.repairHalf
  let keep := (s.repHalfRecs h).filter repFailure
  let s1 := ({ s with health.repairHalf := 1 - h }).each keep fun s l => s.repAppend l
  s1.each [0, 1] fun s die => s.each (List.range (repHalfSize / 0x10000)) fun s i =>
    s.norEraseBlock die (repBase + h * repHalfSize + i * 0x10000) 0x10000

/-- The records of a run are written. -/
def State.repWrite (s : State) (l : List (List Nat)) : State :=
  let h := s.health.repairHalf
  let s1 := if repHalfSize / 32 < max (s.repUsed 0 h) (s.repUsed 1 h) + l.length then s.repCompact else s
  s1.each l fun s r => s.repAppend r

/-! Spare rows (R552, spec/14 R434). -/

/-- A fuse repair entry that is valid: array, row, spare row; it names no bank. -/
def State.fuseRepairs (s : State) : List (Nat × Nat × Nat) :=
  ((List.range 256).map fun i => s.fuse (192 + i)).filterMap fun w =>
    if w.testBit 0 then some (bitsOf w 1 3, bitsOf w 4 12, bitsOf w 16 4) else none

/-- Spare rows of a bank that are in use, among the log's and those given. -/
def State.sparesUsed (s : State) (arr bank : Nat) (recs : List (List Nat)) : List Nat :=
  ((s.fuseRepairs.filter fun e => e.1 == arr).map fun e => e.2.2) ++
    (((s.repFailures ++ recs).filter fun l => repArray l == arr && repBank l == bank).map repSpare)

/-- The next free spare row of a bank: 0-3, or 0xF with none left; none for DRAM (array 7). -/
def State.spareFor (s : State) (arr bank : Nat) (recs : List (List Nat)) : Nat :=
  if arr = 7 then 0xF
  else ((List.range 4).find? fun i => !((s.sparesUsed arr bank recs).contains i)).getD 0xF

def failureRec (f : MemFailure) (spare run : Nat) : List Nat :=
  repSeal (repMagic ++ [1, f.array.val] ++ bytesBE 2 f.bank ++ bytesBE 2 f.row ++ [spare, f.bit % 256] ++
    bytesBE 5 (f.addr % 2 ^ 36) ++ List.replicate 7 0 ++ bytesBE 4 run)

/-- Failure records of a run, each spare row taken once. -/
def State.failureRecs (s : State) (run : Nat) (l : List MemFailure) : List (List Nat) :=
  l.foldl (fun recs f => recs ++ [failureRec f (s.spareFor f.array.val f.bank recs) run]) []

/-- What a summary record holds: RESULT, SKIP reason, failed steps, duration, failures found, rows held, pins, open loads. -/
structure RunSummary where
  result : Nat
  skip : Nat
  failed : Nat
  duration : Nat
  found : Nat
  held : Nat
  pins : Nat
  openA : Nat
  openB : Nat
  deriving DecidableEq, Repr

def RunSummary.octets (x : RunSummary) (run : Nat) : List Nat :=
  repSeal (repMagic ++ [2, x.result % 8 + x.skip % 8 * 16] ++ bytesBE 2 (x.failed % 64) ++ bytesBE 2 (x.duration % 2 ^ 16) ++
    [min x.found 255, x.held % 256] ++ bytesBE 4 (x.pins % 2 ^ 32) ++ [x.pins / 2 ^ 32 % 256] ++ bytesBE 2 (x.openA % 2 ^ 16) ++
    [0] ++ bytesBE 2 (x.openB % 2 ^ 16) ++ [0, 0] ++ bytesBE 4 run)

/-- A run's results leave it: the STS page, the log, and the codes of a run that was skipped or cut short (R550, R551). -/
def State.recordRun (s : State) (x : RunSummary) (fails : List MemFailure) : State :=
  let run := s.repNewest + 1
  let s1 := ((s.set pSTS STS_RESULT_RESULT x.result).set pSTS STS_RESULT_SKIP x.skip).set pSTS STS_RESULT_FAILED x.failed
  let s2 := (s1.set pSTS STS_RESULT_RUN run).wrn pSTS STS_TIME (x.duration % 2 ^ 16)
  let s3 := s2.repWrite (s2.failureRecs run fails ++ [x.octets run])
  if x.result = 3 then s3.err pSTS 0xD010 run else if x.result = 4 then s3.err pSTS 0xD011 run else s3

/-! The shut-down self-test. -/

/-- Sleep states of SLP_STAT (spec/18 Table 18-8). -/
abbrev zAWAKE : Nat := 0
abbrev zREADY : Nat := 1
abbrev zPREP : Nat := 2
abbrev zQUIESCE : Nat := 3
abbrev zCUTTING : Nat := 4

def State.sleep (s : State) : Nat := s.get pSLP SLP_STAT_SLEEP

/-- The point of no return has passed and the rails are not cut (spec/18 R525). -/
def State.cutting (s : State) : Bool := s.up.compute && s.mode == mSHUTDOWN && s.sleep == zCUTTING

/-- The first failing condition of R550, as a SKIP reason; a test that is not enabled is skipped with reason 0. -/
def State.skipReason (s : State) (tj : Int) : Option Nat :=
  let v := s.get (pPDC 0) PDC_VBAT_V
  if !s.on pSTS STS_CTRL_EN then some 0
  else if !s.on pCLK CLK_STAT_XO_STABLE || s.on pCLK CLK_STAT_ON_RCO then some 1
  else if v < 3600 ∨ 6400 < v then some 2
  else if tj < -40 ∨ 125 < tj then some 3
  else none

/-- The test starts with every core and SC stopped, or is skipped (R550). -/
def execShutdownSelfTest (clocks : Nat) (tj : Int) (s : State) : Host.Outcome State Fault Refusal :=
  .next (
    let s1 := s.advance clocks
    if s1.cutting && s1.slp.test == 0 then
      match s1.skipReason tj with
      | some r => ({ s1 with slp.test := 2 }).recordRun ⟨3, r, 0, 0, 0, s1.get pAGM AGM_DRAM_H, 0, 0, 0⟩ []
      | none =>
        let s2 := s1.each (List.range 13) fun s c => s.set (pCORE c) CORE_STAT_RUNNING 0
        { s2 with slp.test := 1, sec.stopped := true }
    else s1)

/-- Channels that step 4 skips (Table 19-3). -/
def State.openSkipped (s : State) (d : Nat) : Nat :=
  s.cmdMask d fun i => s.on (pLSW d i) LSW_CTRL_DUAL || s.on (pLSW d i) LSW_HOLD_LH_MAP

/-- The test ends or is cut short (R551, R552). Steps that are not enabled find nothing. -/
def execSelfTestDone (clocks : Nat) (io : SelfTest) (s : State) : Host.Outcome State Fault Refusal :=
  .next (
    let s1 := s.advance clocks
    if s1.cutting && s1.slp.test == 1 then
      let steps := s1.get pSTS STS_CTRL_STEPS
      let ran (k : Nat) : Bool := steps.testBit (k - 1)
      let late := s1.slp.latch.isSome
      let found := (io.failures.filter fun f => if f.array.val = 7 then ran 6 else ran 5)
      let fails := found.take 16
      let more := io.more || decide (16 < found.length)
      let failed := io.failed.val &&& steps
      let pins := if ran 1 || ran 2 || ran 3 then io.pins else 0
      let skip := if late then 4 else if io.vbatLeft then 5 else 0
      let result := if skip ≠ 0 then 4 else if failed ≠ 0 ∨ fails ≠ [] then 2 else 1
      let held := if ran 6 then io.held else s1.get pAGM AGM_DRAM_H
      let openA := if ran 4 then io.openA &&& (0xFFFF - s1.openSkipped 0) else 0
      let openB := if ran 4 then io.openB &&& (0xFFFF - s1.openSkipped 1) else 0
      let s2 := s1.set pSTS STS_NFAIL_MORE more.toNat
      ({ s2 with slp.test := 2 }).recordRun
        ⟨result, skip, failed, io.duration, fails.length + (more && decide (fails.length < 255)).toNat, held, pins, openA, openB⟩ fails
    else s1)

/-! At the next start (R553). -/

/-- The failures of a run into the STS page. -/
def State.loadFailures (s : State) (l : List (List Nat)) : State :=
  let s1 := s.each ((List.range 16).zip l) fun s e =>
    let k := e.1
    let r := e.2
    let s1 := ((s.set pSTS (STS_FAIL_ARRAY k) (repArray r)).set pSTS (STS_FAIL_ROW k) (repRow r)).set pSTS (STS_FAIL_BANK k) (repBank r)
    let s2 := (s1.set pSTS (STS_FAIL_SPARE k) (repSpare r)).set pSTS (STS_FAIL_UNREP k) (repSpare r == 0xF).toNat
    let s3 := s2.wrn pSTS (STS_FAIL_ADDR k) (repAddr r % 2 ^ 32)
    (s3.set pSTS (STS_FAIL_HI_ADDR_HI k) (repAddr r / 2 ^ 32)).set pSTS (STS_FAIL_HI_BIT k) (repBit r)
  let s2 := s1.set pSTS STS_NFAIL_N (min l.length 255)
  s2.set pSTS STS_NFAIL_UNREP (l.filter fun r => repSpare r == 0xF).length

def State.loadSummary (s : State) (r : List Nat) : State :=
  let s1 := ((s.set pSTS STS_RESULT_RESULT (nth r 5 0)).set pSTS STS_RESULT_SKIP (nth r 5 0 / 16)).set pSTS STS_RESULT_FAILED (beAt r 6 2)
  let s2 := (s1.wrn pSTS STS_TIME (beAt r 8 2)).wrn pSTS STS_PIN_LO (beAt r 12 4)
  let s3 := (s2.wrn pSTS STS_PIN_HI (nth r 16 0 % 128)).wrn pSTS STS_OL (beAt r 17 2 + beAt r 20 2 * 2 ^ 16)
  s3.set pAGM AGM_DRAM_H (nth r 11 0)

/-- SC loads the newest run. Its repaired failures are posted once, the unrepaired ones at every start. -/
def execRepairLogLoad (s : State) : Host.Outcome State Fault Refusal :=
  .next (
    if !s.scUp || s.on pSTS ⟨INT_RAW, INT_STS_LOADED, 1⟩ then s
    else
      let run := s.repNewest
      let recs := s.repAll.filter fun l => repRun l == run
      let fails := recs.filter repFailure
      let s1 := match recs.find? fun l => !repFailure l with
        | some r =>
          let s2 := s.loadSummary r
          s2.set pSTS STS_NFAIL_MORE (decide (fails.length < nth r 10 0)).toNat
        | none => s
      let s3 := ((s1.set pSTS STS_RESULT_RUN run).loadFailures fails).irq pSTS INT_STS_LOADED
      let s4 := if s3.health.told = some run then s3
        else s3.each (fails.filter fun r => repSpare r != 0xF) fun s _ => s.err pSTS 0xD214 run
      ({ s4 with health.told := some run }).each (fails.filter fun r => repSpare r == 0xF) fun s _ => s.err pSTS 0xD319 run)

end Sys2Proof.Machine
end

