-- ==== Sys2Proof/Machine/Resets.lean ====
section
/-!
DEFINITION. The mode register and DEG_CAUSE (spec/18 R513-R515), starts and the scan in STANDBY (spec/18 R514, spec/09 R296), and
resets (spec/17 R507-R511): what each clears and keeps, RST_REQ, the watchdog, the compute die's reset and release with the
start self-test (spec/19 R548, R549), and the always-on reset.
-/

namespace Sys2Proof.Machine

/-! Modes. -/

/-- Conditions of DEG_CAUSE that hold (R515; a twin of another variant or revision counts as lost, spec/00 R5). -/
def State.degNow (s : State) : Nat :=
  let pair := (List.range 6).any fun k => s.pairState k == cUNCOMPARED || s.pairState k == cHALTED
  let lost (d : Nat) : Bool := s.on (pDBR d) BR_STAT_PEER_DOWN
  let twin := s.twin.differs || (s.twin.paired && [rHS_ALONE, rTS_ALONE, rUNPAIRED].contains s.role)
  let out := [0, 1].any fun d => s.dieOn d && (s.die d).st != 0
  maskOf (((List.range 6).zip [pair, lost 0, lost 1, twin, s.on pCLK CLK_STAT_ON_RCO, out]).filterMap fun e =>
    if e.2 then some e.1 else none)

/-- The cluster goes into reset with its domains. -/
def State.clusterOff (s : State) : State :=
  let s1 := ({ s with up.cluster := false }).each (List.range 8) fun s c => s.clearCore c
  s1.each (List.range 4) fun s k => s.pairDown k

/-- The mode changes; in PARTIAL, ports that are not selected lose their links and the cluster is off (R519). -/
def State.setMode (s : State) (m : Nat) : State :=
  if s.mode = m then s
  else
    let s1 := (s.set pSLP BLK_STAT_STATE m).irq pSLP INT_SLP_MODE
    if m = mPARTIAL then
      (s1.each ((List.range 31).filter fun p => !s1.portPowered p) fun s p => s.linkLost p).clusterOff
    else s1

/-- DEG_CAUSE is judged; it takes RUN to DEGRADED and back (R515). -/
def State.degEval (s : State) : State :=
  let d := s.degNow
  let s1 := s.set pSLP SLP_STAT_DEG_CAUSE d
  if s1.mode = mRUN ∧ d ≠ 0 then (s1.setMode mDEGRADED).err pSLP 0xC227 0
  else if s1.mode = mDEGRADED ∧ d = 0 then s1.setMode mRUN
  else s1

def execDegCauseChange (s : State) : Host.Outcome State Fault Refusal := .next (if s.up.compute then s.degEval else s)

/-! Starts. -/

/-- A start is requested (R514). -/
def State.startWake (s : State) (w : Wake) (late : Bool) (at_ : Nat) : State :=
  { s with slp.starting := true, slp.wake := w, slp.late := late, slp.wakeAt := at_, slp.latch := none }

/-- A pulse on WAKE_L begins, if die A can drive it (R529). -/
def State.wakePulse (s : State) : State :=
  if s.dieOn 0 && !s.slp.driving then ({ s with slp.driving := true }).emit (.wakeL true) else s

/-- The pulse that a local wake or an abort drives (R529). -/
def State.localPulse (s : State) : State := if s.on pSLP SLP_WAKE_DRV_LOCAL then s.wakePulse else s

/-! The scan of armed inputs (spec/09 R296). -/

def State.scanSetup (s : State) : ScanState :=
  let ms := List.range 48
  let act := maskOf (ms.filter fun m => s.dinActive m)
  { armed := s.get pINC INC_WK_ARM_LO_MASK + s.get pINC INC_WK_ARM_HI_MASK * 2 ^ 32
    inv := maskOf (ms.filter fun m => s.on (dinPage m) (DIN_CFG_INV (dinIx m)))
    stuckT := ms.map fun m => s.get (dinPage m) (DIN_TIME_STUCK_T (dinIx m))
    last := act
    runs := ms.map fun m => if act.testBit m then (s.din m).activeAt + 1 else 0
    stuck := maskOf (ms.filter fun m => s.dinStuck m)
    quiet := 0
    scans := 0 }

/-- One input in a scan. -/
def ScanState.look (x : ScanState) (now m : Nat) (act : Bool) : ScanState :=
  if x.stuck.testBit m then
    (if x.scans % 16 ≠ 0 then x
     else if act then { x with quiet := putFlag x.quiet m false }
     else if x.quiet.testBit m then
       { x with stuck := putFlag x.stuck m false, quiet := putFlag x.quiet m false, last := putFlag x.last m false
                runs := setNth x.runs m 0 }
     else { x with quiet := putFlag x.quiet m true })
  else if !act then { x with last := putFlag x.last m false, runs := setNth x.runs m 0 }
  else
    let since := if nth x.runs m 0 = 0 then now + 1 else nth x.runs m 0
    let t := nth x.stuckT m 0
    let y := { x with last := putFlag x.last m true, runs := setNth x.runs m since }
    if t ≠ 0 ∧ since + t * 50000000 ≤ now + 1 then { y with stuck := putFlag y.stuck m true } else y

/-- A scan in STANDBY with the levels it takes. -/
def execStandbyScan (clocks levels : Nat) (s : State) : Host.Outcome State Fault Refusal :=
  .next (
    let s1 := s.advance clocks
    if s1.mode != mSTANDBY || s1.slp.starting || !s1.up.alwaysOn then s1
    else
      let x := { s1.scan with scans := s1.scan.scans + 1 }
      let ms := (List.range 48).filter fun m => x.armed.testBit m && !s1.disarmed.testBit m
      let act (m : Nat) : Bool := levels.testBit m != x.inv.testBit m
      let hits := ms.filter fun m => act m && x.last.testBit m && !x.stuck.testBit m
      let y := ms.foldl (fun y m => y.look s1.tb.clocks m (act m)) x
      let s2 := { s1 with scan := y }
      match hits with
      | [] => s2
      | m :: _ =>
        let s3 := (s2.set pINC INC_WK_LAST_DIN m).set pINC INC_WK_LAST_STANDBY 1
        let s4 := s3.set pINC INC_WK_LAST_WAKES (wrapAdd 16 (s3.get pINC INC_WK_LAST_WAKES) 1)
        (s4.startWake ⟨3, m⟩ false s4.tb.clocks).localPulse)

/-! What a compute-die reset keeps (Table 17-9, spec/18 R533, spec/09 R287). -/

/-- Registers of the SLP page that the always-on domain holds (R533). -/
def keptSlp (off : Nat) : Bool :=
  off == SLP_WAKE || off == SLP_WK_MODE || off == SLP_FWK_CFG || off == SLP_WK_SRC || off == SLP_FWK_CNT
    || decide (0x300 ≤ off ∧ off < 0x358)

/-- Input states that hold while the compute die is in reset (spec/09 R287). -/
def keptInput (p off : Nat) : Bool :=
  if tyOf p = 0x6002 then
    off == DIG_LVL || off == DIG_FLAG || off == DIG_DIAG || (decide (0x100 ≤ off) && (off % 16 == 8 || off % 16 == 12))
  else if p = pANA then off == ANA_FLAG || (decide (0x100 ≤ off) && off % 16 == 8)
  else p == pINC && off == INC_WK_LAST

/-- The link of a PHY on a power die (spec/01 Table 01-6). -/
def keptPhy (p off : Nat) : Bool :=
  tyOf p == 0x1006 && (phyDie (instOf p)).isSome && (off == PORT_STAT || off == PORT_PHY_STAT)

def keptReg (addr : Nat) : Bool :=
  let p := pageBase addr
  let off := pageOff addr
  keptPhy p off || (bridgeDie (tyOf p)).isSome || (p == pRST && (off == RST_CAUSE || off == RST_CNT)) || (p == pFAG && off == FAG_AO_LAST)
    || (p == pSLP && keptSlp off) || keptInput p off

/-- The compute die in reset: what lies outside it keeps its state. -/
def State.computeCleared (s : State) : State :=
  let m := s.mode
  let s1 := (s.norDone 0 false).norDone 1 false
  let r := State.reset
  let s2 := { r with
    pending := s.pending
    hz9620 := s.hz9620
    regs := s.regs.filter fun e => keptReg e.1
    mem := s1.mem.filter fun e => decide (0x40000000 ≤ e.1 ∧ e.1 < 0x50000000)
    resp := s.resp
    out := s.out
    fresh := s1.fresh
    posts := s.posts.filter fun x => (bridgeDie x.srcTy).isSome
    tb := { r.tb with clocks := s.tb.clocks }
    chans := s.chans
    dies := s.dies
    selLands := s.selLands
    claim := s.claim
    dins := s.dins
    ains := s.ains
    scan := s.scan
    disarmed := s.disarmed
    cfaultA := s.cfaultA
    cfaultP := s.cfaultP
    norWear := s1.norWear
    fuses := s.fuses
    sec := { r.sec with half := s.sec.half }
    upd := { r.upd with half := s.upd.half }
    up := { r.up with die := s.up.die, alwaysOn := s.up.alwaysOn }
    clk := { r.clk with rcTrim := s.clk.rcTrim, afterStart := s.clk.afterStart }
    slp := { r.slp with starting := s.slp.starting, wake := s.slp.wake, late := s.slp.late, wakeAt := s.slp.wakeAt
                        lossMode := s.slp.lossMode, latch := s.slp.latch, cxArmed := s.slp.cxArmed, driving := s.slp.driving
                        low := s.slp.low }
    health := { r.health with repairHalf := s.health.repairHalf, told := s.health.told }
    hon := { r.hon with half := s.hon.half } }
  s2.set pSLP BLK_STAT_STATE m

/-- STANDBY is entered (spec/18 Table 18-5): die B is held in reset, die A has no compute die and keeps its channels off; a
latched late wake starts the module at once (R526). -/
def State.enterStandby (s : State) : State :=
  let scan := s.scanSetup
  let s1 := (({ s.computeCleared with scan := scan }).restLost 0).dieReset 1
  let s2 := ((s1.modDie 0 fun z => { z with lost := true, synced := false }).driveClaim false).set pSLP BLK_STAT_STATE mSTANDBY
  match s2.slp.latch with
  | some w => s2.startWake w true s2.slp.wakeAt
  | none => s2

/-- The compute die goes into reset: STEADY_REST, or STANDBY past the point of no return (Table 18-1). Without a powered die
the module is off. -/
def State.computeDown (s : State) : State :=
  let m := s.mode
  if s.cutting then s.enterStandby
  else if [mPARTIAL, mRUN, mDEGRADED, mSERVICE, mSHUTDOWN].contains m then
    let s1 := { s.computeCleared with slp.lossMode := if m = mPARTIAL then mPARTIAL else mRUN }
    s1.set pSLP BLK_STAT_STATE (if s1.dieOn 0 || s1.dieOn 1 then mSTEADY_REST else mOFF)
  else s.computeCleared

/-- A reset of the compute die with its RST_CAUSE bit (R507, R511). A RESET flit tells the twin (spec/10 Table 10-3). -/
def State.computeReset (s : State) (bit : Nat) : State :=
  let s1 := s.set pRST RST_CAUSE_CAUSE (s.get pRST RST_CAUSE_CAUSE ||| 2 ^ bit)
  let s2 := s1.set pRST RST_CNT_COMPUTE (satAdd 8 (s1.get pRST RST_CNT_COMPUTE) 1)
  if !s2.up.compute then s2
  else
    let s3 := if s2.phoaskUp then s2.emit (.ctl 2 (s2.ctlHead 2 4 0 ++ List.replicate 18 0)) else s2
    s3.computeDown

/-- A code that is posted after the restart (R490, R510, spec/19 R541). -/
def State.holdCode (s : State) (p code loc : Nat) : State :=
  { s with clk.afterStart := s.clk.afterStart ++ [(p, code, loc)] }

def execComputeDieReset (clocks : Nat) (cause : ResetCause) (s : State) : Host.Outcome State Fault Refusal :=
  .next (
    let s1 := s.advance clocks
    if s1.up.compute then s1.computeReset (match cause with | .powerOn => 0 | .vlogLow => 1) else s1)

/-! Smaller resets (Table 17-9). -/

/-- Voltage of the cluster rail at a point, mV (R502). -/
def State.opVolts (s : State) (p : Nat) : Nat := ((s.get pVFS (VFS_OP_NOM p) : Int) + 5 * s.geti pVFS (VFS_OP_MARGIN p)).toNat

/-- E of entry 3 by divider code (Table 17-2). -/
def clusterExp (code : Nat) : Nat := [50000, 40000, 33333, 25000, 20000, 10000].getD code 25000

/-- The divider changes; entry 3 discards the window in progress (R489). -/
def State.setDivider (s : State) (code : Nat) : State :=
  { s.set pCSV (CSV_EXP_E 3) (clusterExp code) with clk.div := code, clk.skip := putFlag s.clk.skip 3 true }

/-- The cluster starts at OP3 (R502); on the HZ9620 at the divider of CLK_AC_DIV (R506). -/
def State.atOp3 (s : State) : State :=
  if s.hz9620 then s.setDivider s.clk.div
  else if s.on pVFS VFS_STAT_VFAIL then s
  else
    let s1 := ((s.set pVFS VFS_STAT_CUR 3).set pVFS VFS_STAT_TARGET 3).set pVFS VFS_STAT_BUSY 0
    { s1.setDivider 3 with clk.step := none, clk.rail := s1.opVolts 3 }

/-- The pairing of the application pairs is taken at each release of the cluster (spec/11 R339). -/
def State.takePairing (s : State) : State :=
  s.set pCALC ⟨CALC_ACT, 0, 4⟩ (if s.hz9620 then s.get pCALC CALC_MODE_PAIRED % 4 else s.get pCALC CALC_MODE_PAIRED)

def State.clusterReset (s : State) : State :=
  let s1 := s.each (List.range 8) fun s c => (s.clearCore c).resetPage (pCORE c) fun _ => false
  let s2 := s1.each (List.range 4) fun s k => (s.resetPage (pCAL k) fun _ => false).pairDown k
  ((s2.cnt pRST RST_CNT_CLUSTER).atOp3).takePairing

def State.rpReset (s : State) (k : Nat) : State :=
  let s1 := (s.clearCore (8 + 2 * k)).clearCore (9 + 2 * k)
  ((s1.resetPage (pCAL (4 + k)) fun _ => false).pairDown (4 + k)).cnt pRST RST_CNT_RP

/-- RST_REQ is the monitor's, and without the key a write is ignored and recorded (R509); R603 gives it an error response. -/
def rstReqPre (a : Access) (v : Word) (s : State) : Option Nat :=
  if !lvMonitor (s.levelOf a) then some 0x01 else if bitsOf v.toNat 16 16 ≠ 0xA55A then some 0x0B else none

/-- A request that is refused: error response and 0xC011 with the value written (R509, R512). -/
def State.rstRefused (s : State) (v : Word) : State := (s.err pRST 0xC011 v.toNat).refused

def State.rstDie (s : State) (v : Word) (d : Nat) : State :=
  if !v.getLsbD (8 + d) then s
  else if (s.chanIxs d).any fun i => s.chanCode d i != 0 then s.rstRefused v
  else if s.dieOn d then (s.dieReset d).cnt pRST RST_CNT_DIE
  else s

def State.rstRp (s : State) (v : Word) (k : Nat) : State :=
  if !v.getLsbD (2 + k) then s
  else if s.pairState (4 + k) = cCOMPARED ∧ s.isHeadstock then s.rstRefused v
  else s.rpReset k

/-- A write of RST_REQ with its key (R507, R509): the largest reset acts. -/
def rstReqEff (v : Word) (s : State) : State :=
  let s1 := (s.rstDie v 0).rstDie v 1
  if v.getLsbD 0 then s1.computeReset 2
  else
    let s2 := if v.getLsbD 1 then s1.clusterReset else s1
    (s2.rstRp v 0).rstRp v 1

def execRstReqCompute (a : Access) (v : Word) (s : State) : Host.Outcome State Fault Refusal :=
  .next (s.regWrite a pRST RST_REQ v (rstReqPre a v) (rstReqEff v))

def execRstReqCluster (a : Access) (v : Word) (s : State) : Host.Outcome State Fault Refusal :=
  .next (s.regWrite a pRST RST_REQ v (rstReqPre a v) (rstReqEff v))

def execRstReqRp (a : Access) (v : Word) (s : State) : Host.Outcome State Fault Refusal :=
  .next (s.regWrite a pRST RST_REQ v (rstReqPre a v) (rstReqEff v))

def execRstReqDie (a : Access) (v : Word) (s : State) : Host.Outcome State Fault Refusal :=
  .next (s.regWrite a pRST RST_REQ v (rstReqPre a v) (rstReqEff v))

/-! The watchdog (R510). -/

/-- EN, once set, stays. -/
def rstWdgEff (v : Word) (s : State) : State :=
  let was := s.on pRST RST_WDG_EN
  let s1 := s.plain pRST RST_WDG v
  if was then s1.set pRST RST_WDG_EN 1
  else if s1.on pRST RST_WDG_EN then { s1 with clk.wdgAt := s1.tb.clocks }
  else s1

def execWatchdogEnable (a : Access) (v : Word) (s : State) : Host.Outcome State Fault Refusal :=
  .next (s.regWrite a pRST RST_WDG v noCause (rstWdgEff v))

def State.wdgExpires (s : State) : State := (s.holdCode pRST 0xC219 0).computeReset 3

def rstKickEff (v : Word) (s : State) : State :=
  if !s.on pRST RST_WDG_EN then s
  else if v = 0x5AA5 then { s with clk.wdgAt := s.tb.clocks }
  else s.wdgExpires

def execWatchdogKick (a : Access) (v : Word) (s : State) : Host.Outcome State Fault Refusal :=
  .next (s.regWrite a pRST RST_WDG_KICK v noCause (rstKickEff v))

/-- n half time-outs have passed since the watchdog was started or kicked. -/
def State.wdgPast (s : State) (n : Nat) : Bool :=
  s.up.compute && s.on pRST RST_WDG_EN && decide (s.clk.wdgAt + n * s.get pRST RST_WDG_TMO * 250000 ≤ s.tb.clocks)

def execWatchdogWarn (clocks : Nat) (s : State) : Host.Outcome State Fault Refusal :=
  .next (
    let s1 := s.advance clocks
    if s1.wdgPast 1 then s1.irq pRST INT_RST_WDG_WARN else s1)

def execWatchdogExpiry (clocks : Nat) (s : State) : Host.Outcome State Fault Refusal :=
  .next (
    let s1 := s.advance clocks
    if s1.wdgPast 2 then s1.wdgExpires else s1)

/-! The release of the compute die (R508). -/

/-- A round of the path test with the ports whose test code does not arrive (spec/19 R543). Ports 4 and 5 are not tested while
their die bridge has its peer down. -/
def State.pathRound (s : State) (missing : List Nat) : State :=
  s.each ((List.range 16).filter fun k => !((k == 4 && s.on (pDBR 0) BR_STAT_PEER_DOWN) || (k == 5 && s.on (pDBR 1) BR_STAT_PEER_DOWN)))
    fun s k =>
      if missing.contains k then ((s.set pFAG ⟨FAG_PATH, k, 1⟩ 0).irq pFAG INT_FAG_PATH_FAIL).err pFAG 0xD31B k
      else s.set pFAG ⟨FAG_PATH, k, 1⟩ 1

/-- The pair that uses the memory of an unrepaired failure: checkpoint SRAM or tightly coupled memory (spec/19 R548). -/
def repPair (l : List Nat) : Option Nat :=
  if repArray l = 1 then some ((repAddr l - 0x11000000) / 0x40000)
  else if repArray l = 2 then some (4 + (repAddr l - 0x12000000) / 0x40000)
  else none

/-- The fuse array is loaded and checked (spec/14 R436). -/
def State.fuseLoad (s : State) : State × Bool :=
  let good := crc32 (((List.range 31).map fun w => bytesBE 4 (s.fuse w)).flatten) == s.fuse 31
  let s1 := (s.set pFUS FUS_STAT_LOADED 1).set pFUS FUS_STAT_CHECK_OK good.toNat
  (if good then s1 else s1.err pFUS 0xA41D 0, good)

/-- The start self-test (spec/19 R548, R549); `fresh` says that the start came from OFF or STANDBY. -/
def State.startTest (s : State) (io : StartTest) (fresh : Bool) : State :=
  let (s1, fuse) := s.fuseLoad
  let unrep := s1.repFailures.filter fun l => repSpare l == 0xF
  let s2 := s1.each (unrep.filter fun l => repArray l == 7) fun s l => s.poisonAdd (repAddr l)
  let repair := !(unrep.any fun l => repArray l != 7)
  let s3 := s2.pathRound (io.paths.map (·.val))
  let passed := fuse && repair && io.comparators.isEmpty && io.paths.isEmpty
  let s4 := ((s3.set pSTS STS_START_PASSED passed.toNat).set pSTS STS_START_FUSE (!fuse).toNat).set pSTS STS_START_REPAIR (!repair).toNat
  let s5 := (s4.set pSTS STS_START_COMPARATOR (!io.comparators.isEmpty).toNat).set pSTS STS_START_PATH (!io.paths.isEmpty).toNat
  let s6 := s5.set pSTS STS_START_REPAIRS (min (s5.repFailures.filter fun l => repSpare l != 0xF).length 255)
  let s7 := if passed then s6 else s6.err pSTS 0xD31F s6.repNewest
  let old := if passed && fresh then 0 else s7.cfaultA ||| s7.cfaultP
  let cf := (old ||| maskOf (io.comparators.map (·.val) ++ unrep.filterMap repPair)) % 64
  ({ s7 with cfaultA := cf, cfaultP := cf }).set pCALC CALC_STAT_CFAULT cf

/-- SLP_WK_SRC of a start (spec/18 Table 18-8). -/
def State.wakeShown (s : State) : State :=
  let w := s.slp.wake
  let s1 := s.set pSLP SLP_WK_SRC_SRC (2 ^ w.src ||| (if s.slp.late then 32 else 0))
  (s1.set pSLP SLP_WK_SRC_DIN w.din).set pSLP SLP_WK_SRC_DELAY (min ((s.tb.clocks - s.slp.wakeAt) / 5000) 0xFFFF)

/-- A late wake is counted and posted after the start, which ends at PARTIAL (spec/18 R526). -/
def State.lateShown (s : State) : State :=
  if s.slp.late then ((s.cnt pSLP SLP_CNT_LATE).irq pSLP INT_SLP_LATE_WAKE).err pSLP 0xC020 (s.rd pSLP SLP_WK_SRC).toNat else s

/-- Die P releases the compute die, at a start or from STEADY_REST (R508, spec/18 Table 18-1). -/
def execComputeDieRelease (clocks : Nat) (io : StartTest) (s : State) : Host.Outcome State Fault Refusal :=
  .next (
    let s0 := s.advance clocks
    if s0.up.compute || !(s0.slp.starting || s0.mode == mSTEADY_REST) then s0
    else
      let s1 := if s0.slp.starting then s0 else s0.startWake ⟨6, 0⟩ false s0.tb.clocks
      let fresh := s1.slp.wake.src != 6
      let s2 := if fresh then
          (s1.set pRST RST_CAUSE_CAUSE (s1.get pRST RST_CAUSE_CAUSE ||| 1)).set pRST RST_CNT_COMPUTE
            (satAdd 8 (s1.get pRST RST_CNT_COMPUTE) 1)
        else s1
      let s3 := { s2 with up.compute := true, slp.relAt := s2.tb.clocks, hon.due := [0]
                          slp.window := if s2.slp.wake.src < 3 then some s2.slp.wake.src
                            else if s2.slp.wake.src = 3 then some (3 + s2.slp.wake.din) else none }
      let s4 := s3.set pSLP SLP_STAT_PREV s3.mode
      let s5 := (s4.startTest io fresh).each (List.range 5) fun s i => s.set (pPLL i) PLL_STAT_LOCKED 1
      let s6 := ((s5.set (pCORE 12) CORE_STAT_RUNNING 1).wakeShown).returnStart
      let codes := s6.clk.afterStart
      ({ s6 with clk.afterStart := [] }).each codes fun s c => s.err c.1 c.2.1 c.2.2)

/-! The always-on domain. -/

/-- Registers that an always-on reset returns to their reset values (R507, spec/18 R533, spec/19 R542). -/
def aoReg (addr : Nat) : Bool :=
  let p := pageBase addr
  let off := pageOff addr
  (p == pRST && (off == RST_CAUSE || off == RST_CNT)) || (p == pFAG && off == FAG_AO_LAST) || (p == pSLP && keptSlp off)

/-- What an always-on reset clears: its registers, the false-wake disarms, the latched wake, the mode record; CFAULT comes back
from die P's copy (spec/11 R364). -/
def State.aoCleared (s : State) : State :=
  let s1 := { s with
    regs := s.regs.filter fun e => !aoReg e.1
    disarmed := 0
    cfaultA := s.cfaultP
    slp := { s.slp with latch := none, cxArmed := [false, false], window := none } }
  (s1.set pSLP SLP_STAT_PREV 0).set pRST RST_CAUSE_CAUSE 256

/-- The always-on reset (R507): at a VBAT of die A below 3.0 V the module is OFF; at the loss of die A alone it goes on, without XO32
until that is judged stable again (R486). -/
def execAlwaysOnReset (clocks : Nat) (off : Bool) (s : State) : Host.Outcome State Fault Refusal :=
  .next (
    let s1 := s.advance clocks
    if off || s1.mode = mOFF || s1.mode = mSTANDBY then
      let s2 := if s1.up.compute then s1.computeCleared else s1
      let s3 := ((s2.aoCleared.dieReset 0).dieReset 1).set pSLP BLK_STAT_STATE mOFF
      { s3 with up.alwaysOn := false, slp := SleepState.init }
    else { (s1.aoCleared.dieReset 0).set pCLK CLK_STAT_XO32_OK 0 with up.alwaysOn := false, slp.driving := false })

end Sys2Proof.Machine
end

