-- ==== Sys2Proof/Machine/Clocks.lean ====
section
/-!
DEFINITION. Clocks (spec/17): start-up of the oscillators, supervision and its votes (R484-R492), crossings (R494), clock gating
(R496), power domains (R499, R500) and the voltage-frequency sequencer (R502-R506).
-/

namespace Sys2Proof.Machine

/-! Oscillators (R485-R487). -/

/-- XO is stable; RCO is calibrated with the count of the next window. -/
def execXoStable (clocks count : Nat) (s : State) : Host.Outcome State Fault Refusal :=
  .next (
    let s1 := s.advance clocks
    if s1.up.compute && !s1.on pCLK CLK_STAT_XO_STABLE then
      let s2 := (s1.set pCLK CLK_STAT_XO_STABLE 1).set pCLK CLK_STAT_RCO_CAL 1
      (s2.set pCLK CLK_RCO_CAL_E count).set pCSV (CSV_EXP_E 0) count
    else s1)

/-- The PLLs take RCO / 4 as reference; their windows in progress are discarded (R490, R492). -/
def State.onRco (s : State) : State :=
  let s1 := s.each (List.range 5) fun s i => s.set (pPLL i) PLL_STAT_REF_RCO 1
  { (s1.set pCLK CLK_STAT_ON_RCO 1).irq pCLK INT_CLK_ON_RCO with clk.skip := s1.clk.skip ||| 0xF8 }

/-- XO has not been judged stable within 5.0 ms of the start. -/
def execXoStartTimeout (clocks : Nat) (s : State) : Host.Outcome State Fault Refusal :=
  .next (
    let s1 := s.advance clocks
    if s1.up.compute && !s1.on pCLK CLK_STAT_XO_STABLE && !s1.on pCLK CLK_STAT_ON_RCO then s1.onRco.err pCLK 0xC213 0 else s1)

def execXo32Stable (clocks : Nat) (s : State) : Host.Outcome State Fault Refusal :=
  .next (
    let s1 := s.advance clocks
    if s1.up.compute && s1.dieOn 0 then s1.set pCLK CLK_STAT_XO32_OK 1 else s1)

/-- A timing mark moves a power die's trim by one step of 0.02 % towards 20,000 counts (R487), unless its oscillator is judged
faulty (Table 17-4). -/
def execRcTimingMark (clocks : Nat) (die : Fin 2) (count : Nat) (s : State) : Host.Outcome State Fault Refusal :=
  .next (
    let s1 := s.advance clocks
    if s1.dieUp die.val && !(s1.die die.val).rcFault then
      { s1 with clk.rcTrim := modNth s1.clk.rcTrim die.val fun t => if count < 20000 then t + 1 else if 20000 < count then t - 1 else t }
    else s1)

/-! Supervision (R488-R490). -/

/-- A PLL has failed: PLL_A takes the cluster with it, the others the compute die (Table 17-4). -/
def State.pllFault (s : State) (i : Nat) : State :=
  if i = 0 then s.clusterReset.err pCSV 0xC216 3
  else (s.holdCode pCSV 0xC41A (3 + i)).computeReset 5

/-- An oscillator is judged faulty: 0 XO, 1 XO32, 2 RCO (Table 17-4); e is the entry that failed. -/
def State.oscFault (s : State) (k e : Nat) : State :=
  if s.clk.faulty.testBit k then s
  else
    let s1 := { s with clk.faulty := putFlag s.clk.faulty k true }
    if k = 0 then
      (if s1.on pCLK CLK_CTRL_XO_FAIL_POL then (s1.holdCode pCSV 0xC41B e).computeReset 5
       else (s1.onRco.err pCSV 0xC213 e).degEval)
    else if k = 1 then (s1.irq pCLK INT_CLK_XO32).err pCSV 0xC214 e
    else s1.err pCSV 0xC215 e

/-- Table 17-3: the clock that the last verdicts of entries 0, 1 and 2 name. -/
def oscVote (v : List (Option Bool)) : Option Nat :=
  match nth v 0 none, nth v 1 none, nth v 2 none with
  | some false, some true, some false => some 2
  | some false, _, _ => some 0
  | some true, some false, some false => some 1
  | some true, some false, some true => some 0
  | some true, some true, some false => some 2
  | _, _, _ => none

/-- An entry's window has no verdict (R485, R486, R489). -/
def State.windowDiscarded (s : State) (e : Nat) (count : Option Nat) : Bool :=
  count.isNone || s.clk.skip.testBit e || (e == 0 && !s.on pCLK CLK_STAT_RCO_CAL) || ((e == 1 || e == 2) && !s.on pCLK CLK_STAT_XO32_OK)
    || (decide (8 ≤ e) && !s.dieUp (e - 8))

/-- An entry fails a window: its fault is set; entries 3-9 name their clock themselves. -/
def State.entryFails (s : State) (e : Nat) : State :=
  let f : Fld := ⟨CSV_FAULT, e, 1⟩
  let s1 := { s with clk.passes := setNth s.clk.passes e 0 }
  if s1.on pCSV f then s1
  else
    let s2 := (s1.set pCSV f 1).irq pCSV INT_CSV_FAULT
    if e < 3 then s2
    else if e < 8 then s2.pllFault (e - 3)
    else (s2.modDie (e - 8) fun z => { z with rcFault := true }).err pCSV 0xC217 e

/-- An entry passes a window: the fourth in a row clears its fault. -/
def State.entryPasses (s : State) (e : Nat) : State :=
  let f : Fld := ⟨CSV_FAULT, e, 1⟩
  let n := nth s.clk.passes e 0 + 1
  if s.on pCSV f ∧ 4 ≤ n then
    let s1 : State := { (s.set pCSV f 0).irq pCSV INT_CSV_RECOVERED with clk.passes := setNth s.clk.passes e 0 }
    let s2 := if s1.get pCSV CSV_FAULT_FAULT % 8 = 0 then { s1 with clk.faulty := 0 } else s1
    if 8 ≤ e then s2.modDie (e - 8) fun z => { z with rcFault := false } else s2
  else { s with clk.passes := setNth s.clk.passes e n }

/-- The window of an entry ends with a count, or without one. -/
def State.entryWindow (s : State) (e : Nat) (count : Option Nat) : State :=
  let c := count.getD 0
  if s.windowDiscarded e count then
    { s.set pCSV (CSV_STAT_SUSPENDED e) 1 with clk.skip := putFlag s.clk.skip e false }
  else if e = 2 ∧ !s.clk.e2set then
    { (s.set pCSV (CSV_EXP_E 2) c).stat pCSV (CSV_CNT_CNT 2) c with clk.e2set := true, clk.counts := setNth s.clk.counts 2 c }
  else
    let x := s.get pCSV (CSV_EXP_E e)
    let bad := decide (x / 500 < absInt ((c : Int) - (x : Int)))
    let s0 := { s with clk.counts := setNth s.clk.counts e c }
    let s1 := ((s0.stat pCSV (CSV_CNT_CNT e) c).set pCSV (CSV_STAT_SUSPENDED e) 0).cntWrap pCSV (CSV_STAT_WINDOWS e)
    let s2 := s1.set pCSV (CSV_STAT_OK e) (!bad).toNat
    let s3 := if e < 3 then { s2 with clk.verdict := setNth s2.clk.verdict e (some !bad) } else s2
    if bad then (s3.cnt pCSV (CSV_STAT_FAILS e)).entryFails e else s3.entryPasses e

/-- Entries 0 and 2 follow the drift of RCO when all three pass (R489). -/
def State.followDrift (s : State) : State :=
  if s.clk.verdict = [some true, some true, some true] then
    let c := nth s.clk.counts 0 0
    ((s.set pCSV (CSV_EXP_E 0) c).set pCLK CLK_RCO_CAL_E c).set pCSV (CSV_EXP_E 2) (nth s.clk.counts 2 0)
  else s

/-- Windows of entries end in one clock; the vote judges their verdicts. -/
def execSupervisionWindow (clocks : Nat) (ends : List (Fin 10 × Option Nat)) (s : State) : Host.Outcome State Fault Refusal :=
  .next (
    let s1 := s.advance clocks
    if !s1.up.compute then s1
    else
      let s2 := s1.each ends fun s e => if s.up.compute then s.entryWindow e.1.val e.2 else s
      let osc := (ends.map fun e => e.1.val).filter fun e => e < 3
      if !s2.up.compute || osc.isEmpty then s2
      else
        match oscVote s2.clk.verdict, osc.find? fun e => nth s2.clk.verdict e none == some false with
        | some k, some e => s2.oscFault k e
        | _, _ => s2.followDrift)

/-- A PLL's lock detector reports a loss. -/
def execPllLockLoss (clocks : Nat) (pll : Fin 5) (s : State) : Host.Outcome State Fault Refusal :=
  .next (
    let s1 := s.advance clocks
    if s1.up.compute then ((s1.cnt (pPLL pll.val) PLL_STAT_LOSSES).irq (pPLL pll.val) INT_PLL_LOCK_LOST).pllFault pll.val else s1)

/-! Crossings and gating (R494, R496). -/

/-- One side of a crossing enters reset: what is outstanding ends with errors of cause 0x08. -/
def execCrossingReset (domain : ClockDomain) (outstanding : List Nat) (s : State) : Host.Outcome State Fault Refusal :=
  .next (
    if !s.up.compute || s.shell.crossed.contains domain then s
    else
      ({ s with shell.crossed := s.shell.crossed ++ [domain] }).each outstanding fun s a =>
        if (pageOf a).isSome then s.refuse (pageBase a) (pageOff a) 0x08 else s.regionRefuse a 0x08)

/-- A block's clock stops after 64 idle cycles under automatic gating. -/
def execClockGateIdle (page : Nat) (s : State) : Host.Outcome State Fault Refusal :=
  .next (
    let p := pageBase page
    if s.pageUp p && s.get p CLK_REQ_POLICY == 0 && !ungatedTy (tyOf p) && !s.shell.idle.contains p &&
        !(s.shell.draining.any fun e => e.1 == p) then
      { s with shell.idle := s.shell.idle ++ [p] }
    else s)

def execClockGateWake (page : Nat) (s : State) : Host.Outcome State Fault Refusal :=
  .next { s with shell.idle := s.shell.idle.filter fun p => p != pageBase page }

/-! Power domains (R499, R500). -/

/-- What the mode asks of a domain (spec/18 R519, Table 18-5). -/
def State.modeWants (s : State) (d : Nat) : Bool :=
  if s.mode = mPARTIAL then decide (5 ≤ d) && (s.get pSLP SLP_PART_DOM).testBit (d - 5)
  else if s.cutting then d == 5 || d == 7
  else true

def State.domainWanted (s : State) (d : Nat) : Bool := s.get pPWR (PWR_DOM_POLICY d) == 0 && s.modeWants d

/-- A switch-off against Table 17-7. -/
def State.domainNeeded (s : State) (d : Nat) : Bool :=
  let ap := (List.range (if s.hz9620 then 2 else 4)).any fun k => s.on pPWR (PWR_DOM_ON k)
  (d == 4 && ap) || (d == 7 && (ap || s.on pBUF BUF_SPILL_EN))

def pwrDomPre (d : Nat) (s : State) : Option Nat := if s.hz9620 && (d == 2 || d == 3) then some 0x09 else none

/-- A write of a domain entry; one that would switch off a domain that is needed is refused, with 0xC011. -/
def pwrDomEff (d : Nat) (v : Word) (s : State) : State :=
  if bitsOf v.toNat 0 2 ≠ 0 ∧ s.domainNeeded d then (s.refuse pPWR (PWR_DOM d) 0x0B).err pPWR 0xC011 v.toNat
  else s.plain pPWR (PWR_DOM d) v

def execPwrDomFollow (a : Access) (d : Fin 10) (v : Word) (s : State) : Host.Outcome State Fault Refusal :=
  .next (s.regWrite a pPWR (PWR_DOM d.val) v (pwrDomPre d.val) (pwrDomEff d.val v))

def execPwrDomWakeOn (a : Access) (d : Fin 10) (v : Word) (s : State) : Host.Outcome State Fault Refusal :=
  .next (s.regWrite a pPWR (PWR_DOM d.val) v (pwrDomPre d.val) (pwrDomEff d.val v))

def execPwrDomOff (a : Access) (d : Fin 10) (v : Word) (s : State) : Host.Outcome State Fault Refusal :=
  .next (s.regWrite a pPWR (PWR_DOM d.val) v (pwrDomPre d.val) (pwrDomEff d.val v))

/-- The pages of a domain. -/
def domainPages (d : Nat) : List Nat :=
  pageRows.flatMap fun r => ((List.range r.count).filter fun i => domainOf r.ty i == some d).map fun i => r.base + 0x1000 * i

/-- The blocks of a domain lose what they hold beside their registers. -/
def State.domainLost (s : State) (d : Nat) : State :=
  if d < 4 then ((s.clearCore (2 * d)).clearCore (2 * d + 1)).pairDown d
  else if d = 5 then
    let s1 := s.each (List.range 31) fun s p => s.linkLost p
    { s1 with sw := State.reset.sw, tabs := s1.tabs.filter fun e => decide (tCBS < e.1 / 16 / 0x100000)
              badEntries := s1.badEntries.filter fun k => decide (tCBS < k / 0x100000), dplFilter := State.reset.dplFilter }
  else if d = 6 then
    let s1 := s.each (List.range 4) fun s e => s.agentReset (0x30 + e)
    { s1 with gw := State.reset.gw, gwIn := State.reset.gwIn, can := s1.can.map fun c => { c with gwObj := [], gwWait := [] } }
  else if d = 7 then { s with mem := s.mem.filter fun e => decide (e.1 < 0x800000000), refiBase := 3906 }
  else if d = 8 then s.each ((List.range 15).filter fun p => p != 2) fun s p => s.linkLost p
  else if d = 9 then { s.phoaskDown with bridges := setNth s.phoaskDown.bridges 2 BridgeState.init }
  else s

/-- A switch-off is complete; `left` accesses had not drained. -/
def execDomainOffDone (clocks : Nat) (d : Fin 10) (left : Nat) (s : State) : Host.Outcome State Fault Refusal :=
  .next (
    let s1 := s.advance clocks
    let k := d.val
    if s1.up.compute && s1.on pPWR (PWR_DOM_ON k) && !s1.domainWanted k then
      let s2 := (s1.domainLost k).each (domainPages k) fun s p => s.resetPage p fun _ => false
      let s3 := (s2.set pPWR (PWR_DOM_ON k) 0).set pPWR ⟨PWR_STAT, k, 1⟩ 0
      if left = 0 then s3
      else ((s3.set pPWR (PWR_DOM_DRAIN_ERR k) 1).irq pPWR INT_PWR_DRAIN_ERR).errCause pPWR 0x08 (pPWR + PWR_DOM k)
    else s1)

/-- A domain is on, its blocks at their reset values. -/
def execDomainOnDone (clocks : Nat) (d : Fin 10) (s : State) : Host.Outcome State Fault Refusal :=
  .next (
    let s1 := s.advance clocks
    let k := d.val
    if s1.up.compute && !s1.on pPWR (PWR_DOM_ON k) && s1.domainWanted k then
      let s2 := ((s1.set pPWR (PWR_DOM_ON k) 1).set pPWR ⟨PWR_STAT, k, 1⟩ 1).irq pPWR INT_PWR_DOMAIN_ON
      if k = 9 then s2.twlWritten false else s2
    else s1)

/-! The voltage-frequency sequencer (R502-R506). -/

/-- The next step towards a point: rail first to a faster one, divider first to a slower one. -/
def State.vfsNext (s : State) (t : Nat) : Option VfsStep :=
  let mv := s.opVolts t
  if s.clk.div < t then some (.divider t)
  else if t < s.clk.div then (if s.clk.rail < mv then some (.ramp mv) else some (.divider t))
  else if s.clk.rail ≠ mv then some (.ramp mv)
  else none

/-- The sequencer plans towards the lower of request and ceiling, unless a step is in progress (R504, R505). -/
def State.vfsPlan (s : State) : State :=
  if s.on pVFS VFS_STAT_VFAIL then s
  else
    let t := max (s.get pVFS VFS_REQ_OP) (s.get pVFS VFS_CEIL_OP)
    let s1 := s.set pVFS VFS_STAT_TARGET t
    if s1.clk.step.isSome then s1
    else
      match s1.vfsNext t with
      | some x => { s1.set pVFS VFS_STAT_BUSY 1 with clk.step := some x }
      | none =>
        if s1.on pVFS VFS_STAT_BUSY then
          (((s1.set pVFS VFS_STAT_CUR t).set pVFS VFS_STAT_BUSY 0).irq pVFS INT_VFS_DONE).cntWrap pVFS VFS_CNT_CNT
        else s1

def vfsReqEff (v : Word) (s : State) : State :=
  let s1 := s.plain pVFS VFS_REQ v
  if s1.on pVFS VFS_STAT_VFAIL then s1
  else
    let capped := decide (s1.get pVFS VFS_REQ_OP < s1.get pVFS VFS_CEIL_OP)
    let s2 := s1.set pVFS VFS_STAT_CAPPED capped.toNat
    (if capped then (s2.irq pVFS INT_VFS_CAPPED).err pVFS 0xC010 v.toNat else s2).vfsPlan

def execVfsReq (a : Access) (v : Word) (s : State) : Host.Outcome State Fault Refusal :=
  .next (s.regWrite a pVFS VFS_REQ v noCause (vfsReqEff v))

def execVfsStepDone (clocks : Nat) (s : State) : Host.Outcome State Fault Refusal :=
  .next (
    let s1 := s.advance clocks
    if !s1.up.compute then s1
    else
      match s1.clk.step with
      | none => s1
      | some (.ramp mv) => ({ s1 with clk.rail := mv, clk.step := none }).vfsPlan
      | some (.divider c) => ({ s1.setDivider c with clk.step := none }).vfsPlan)

/-- The rail is not within ±10 mV of the target 20 µs after the ramp. -/
def execVfsRailFail (clocks mv : Nat) (s : State) : Host.Outcome State Fault Refusal :=
  .next (
    let s1 := s.advance clocks
    match s1.up.compute, s1.clk.step with
    | true, some (.ramp t) =>
      if 10 < absInt ((mv : Int) - (t : Int)) then
        let s2 := { s1.setDivider 5 with clk.step := none, clk.rail := mv }
        let s3 := ((s2.set pVFS VFS_STAT_VFAIL 1).set pVFS VFS_STAT_BUSY 0).set pVFS VFS_STAT_CUR 5
        (s3.irq pVFS INT_VFS_VFAIL).err pVFS 0xC218 0
      else s1
    | _, _ => s1)

def vfsCtrlEff (v : Word) (s : State) : State := if v.getLsbD 0 then s.set pVFS VFS_STAT_VFAIL 0 else s

def execVfsClrFail (a : Access) (v : Word) (s : State) : Host.Outcome State Fault Refusal :=
  .next (s.regWrite a pVFS VFS_CTRL v noCause (vfsCtrlEff v))

/-- The sequencer follows the ceiling (R504); on the HZ9620 the divider changes at once when it is faster (spec/19 Table 19-7). -/
def execVfsCeilingChange (s : State) : Host.Outcome State Fault Refusal :=
  .next (
    if !s.up.compute then s
    else if s.hz9620 then
      (let c := s.get pVFS VFS_CEIL_OP
       if s.clk.div < c then (s.setDivider c).set pCLK CLK_AC_DIV_DIV c else s)
    else
      (let s1 := if s.get pVFS VFS_CEIL_OP ≤ s.get pVFS VFS_REQ_OP then s.set pVFS VFS_STAT_CAPPED 0 else s
       s1.vfsPlan))

/-- CLK_AC_DIV shows the divider on the HZ9640; on the HZ9620 software sets it, not faster than the ceiling (R506, spec/19
Table 19-7). -/
def clkAcDivPre (v : Word) (s : State) : Option Nat :=
  if !s.hz9620 ∨ bitsOf v.toNat 0 3 < s.get pVFS VFS_CEIL_OP then some 0x0B else none

def clkAcDivEff (v : Word) (s : State) : State := (s.plain pCLK CLK_AC_DIV v).setDivider (bitsOf v.toNat 0 3)

def execClkAcDivWrite (a : Access) (v : Word) (s : State) : Host.Outcome State Fault Refusal :=
  .next (s.regWrite a pCLK CLK_AC_DIV v (clkAcDivPre v) (clkAcDivEff v))

end Sys2Proof.Machine
end

