-- ==== Sys2Proof/Machine/Modes.lean ====
section
/-!
DEFINITION. Modes, network sleep and wake (spec/18 R513-R534): mode requests and SERVICE, the sleep vote with PREP and aborts,
SHUTDOWN up to the cut of the compute rails, wake sources and WAKE_L, parked nodes, and the counting of false wakes.
-/

namespace Sys2Proof.Machine

def State.setSleep (s : State) (z : Nat) : State := s.set pSLP SLP_STAT_SLEEP z

/-- The modes in which a sleep can begin (R514, R523). -/
def State.awakeMode (s : State) : Bool := s.mode == mRUN || s.mode == mPARTIAL || s.mode == mDEGRADED

/-- The module's own vote; AWAKE in SERVICE (R517). -/
def State.ownSleep (s : State) : Bool := s.on pSLP SLP_CTRL_OWN_SLEEP && s.mode != mSERVICE

/-! Channels in SHUTDOWN (R525, R526). -/

/-- The channels that SLP_SHDN_KEEP names (kept) or does not name receive the command off: the bit that commands them is
cleared and remembered. -/
def State.channelsOff (s : State) (kept : Bool) : State :=
  s.each [0, 1] fun s d =>
    if !s.dieOn d then s
    else
      let keep := s.get pSLP (if d = 0 then SLP_SHDN_KEEP_A else SLP_SHDN_KEEP_B)
      let ix := (s.chanIxs d).filter fun i => keep.testBit i == kept && s.lswCmd d i
      let req := ix.filter fun i => s.on (pLSW d i) LSW_CTRL_SRC
      let img := ix.filter fun i => !s.on (pLSW d i) LSW_CTRL_SRC
      let s1 := s.each req fun s i => s.set (pLSW d i) LSW_CTRL_ON_REQ 0
      let s2 := s1.set (pPDC d) PDC_OUT_IMG_IMG (s1.get (pPDC d) PDC_OUT_IMG_IMG &&& (0xFFFF - maskOf img))
      let s3 := { s2 with
        slp.savedReq := modNth s2.slp.savedReq d fun m => m ||| maskOf req
        slp.savedImg := modNth s2.slp.savedImg d fun m => m ||| maskOf img }
      s3.each ix fun s i => s.modChan d i fun c => { c with cmd := s.chanCmd d i, old := s.chanCmd d i }

/-- The commands that SHUTDOWN has cleared stand again (R526). -/
def State.channelsBack (s : State) : State :=
  let s1 := s.each [0, 1] fun s d =>
    if !s.dieOn d then s
    else
      let req := nth s.slp.savedReq d 0
      let s1 := s.each ((s.chanIxs d).filter fun i => req.testBit i) fun s i => s.set (pLSW d i) LSW_CTRL_ON_REQ 1
      (s1.set (pPDC d) PDC_OUT_IMG_IMG (s1.get (pPDC d) PDC_OUT_IMG_IMG ||| nth s.slp.savedImg d 0)).noteCmds d
  { s1 with slp.savedReq := [0, 0], slp.savedImg := [0, 0], slp.offDue := false }

/-- The channels of SLP_SHDN_KEEP turn off past the point of no return (Table 18-5). -/
def State.keptOff (s : State) : State :=
  (s.channelsOff true).each [0, 1] fun s d =>
    if s.dieOn d then s.each (s.chanIxs d) fun s i => if s.chanCmd d i then s else s.turnOff d i .command else s

/-! Wakes and aborts (R524, R526, R527). -/

/-- PREP, or QUIESCE by a wake, is left (R524, R526). -/
def State.sleepAbort (s : State) : State :=
  let s1 := if s.sleep = zQUIESCE then s.channelsBack.setMode s.slp.entry else s
  ((((s1.setSleep zAWAKE).irq pSLP INT_SLP_ABORT).cnt pSLP SLP_CNT_ABORT).err pSLP 0xC021 0).localPulse

/-- A wake (R514, R524, R526): it starts the module from STANDBY, is latched past the point of no return, and ends PREP and
QUIESCE. A local wake drives WAKE_L (R529). -/
def State.wakeIn (s : State) (w : Wake) : State :=
  if s.slp.starting || s.mode == mOFF || s.mode == mSTEADY_REST then s
  else if s.mode = mSTANDBY then
    (if s.up.alwaysOn then
      (let s1 := s.startWake w false s.tb.clocks
       if w.src = 0 then s1 else s1.localPulse)
     else s)
  else if s.cutting then
    (if s.slp.latch.isSome then s
     else
      (let s1 := { s with slp.latch := some w, slp.wakeAt := s.tb.clocks }
       if w.src = 0 then s1 else s1.localPulse))
  else if s.sleep = zPREP ∨ s.sleep = zQUIESCE then s.sleepAbort
  else s

/-- INC_WK_REQ is formed again; a change from 0 to not 0 is a wake of source DIN (spec/09 R294, R526). -/
def State.dinWake (s : State) : State :=
  let w := s.wakeEval
  if w.2 then w.1.wakeIn ⟨3, w.1.get pINC INC_WK_LAST_DIN⟩ else w.1

/-! The sleep vote (R521-R524). -/

def State.enterPrep (s : State) (round : Nat) : State :=
  { ((s.setSleep zPREP).set pSLP SLP_ROUND_ROUND round).irq pSLP INT_SLP_PREP with slp.phaseAt := s.tb.clocks }

/-- The agreement that takes the coordinator to PREP (R523). -/
def State.agreed (s : State) : Bool :=
  s.up.compute && s.coord && s.sleep == zAWAKE && s.awakeMode && s.ownSleep && (s.nodes.all fun n => s.nodeReady n)
    && s.wakeReq == 0 && !s.slp.low && !s.slp.driving

def State.sleepCheck (s : State) : State :=
  if s.agreed then s.enterPrep (wrapAdd 16 (s.get pSLP SLP_ROUND_ROUND) 1) else s

/-- The coordinator role has moved since the last look: PREP is aborted (R524). -/
def State.coordLook (s : State) : State :=
  if s.coord = s.slp.coordWas then s
  else
    let s1 := { s with slp.coordWas := s.coord }
    if s1.sleep = zPREP then s1.sleepAbort else s1

/-! AWAKE timers (R531); node 64 is the own vote. -/

def State.awakeDrop (s : State) (n : Nat) : State := { s with slp.awake := s.slp.awake.filter fun x => x.node != n }

/-- The timer of a node runs on. -/
def State.awakeRun (s : State) (n : Nat) : State :=
  let now := s.tb.clocks
  if s.slp.awake.any fun x => x.node == n then
    { s with slp.awake := s.slp.awake.map fun x => if x.node = n ∧ x.since.isNone then { x with since := some now } else x }
  else { s with slp.awake := s.slp.awake ++ [⟨n, 0, some now⟩] }

/-- Clocks for which a vote has been timed. -/
def State.awakeFor (s : State) (n : Nat) : Nat :=
  match s.slp.awake.find? fun x => x.node == n with
  | some x => x.acc + (match x.since with | some c => s.tb.clocks - c | none => 0)
  | none => 0

/-- The timer of a node stands still: its last vote is neither AWAKE nor SLEEP. -/
def State.awakePause (s : State) (n : Nat) : State :=
  let t := s.awakeFor n
  { s with slp.awake := s.slp.awake.map fun x => if x.node = n then { x with acc := t, since := none } else x }

/-- PARKED has been written: timers start for the votes that are AWAKE, or all restart at 0. -/
def State.parkedWritten (s : State) (was : Bool) : State :=
  let is := s.on pSLP SLP_CTRL_PARKED
  if was && !is then
    ({ s with slp.awake := [] }).each s.nodes fun s n => s.set pSLP (SLP_NODE_STAT_OVERDUE n) 0
  else if !was && is then
    let s1 := s.each (s.nodes.filter fun n => s.get pSLP (SLP_NODE_STAT_KIND n) == 1) fun s n => s.awakeRun n
    if s1.ownSleep then s1 else s1.awakeRun 64
  else s

/-! False wakes (R532): sources 0 WAKE_L, 1 CX0, 2 CX1, 3 + m DIN_m. -/

def fwkField (src : Nat) : Fld :=
  if src < 3 then ⟨SLP_FWK_CNT, 4 * src, 4⟩ else ⟨SLP_FWK_DIN ((src - 3) / 8), 4 * ((src - 3) % 8), 4⟩

def State.fwkDisarmed (s : State) (src : Nat) : Bool :=
  if src < 3 then s.on pSLP ⟨SLP_FWK_CNT, 16 + src, 1⟩ else s.disarmed.testBit (src - 3)

def State.fwkSet (s : State) (src : Nat) (off : Bool) : State :=
  if src < 3 then s.set pSLP ⟨SLP_FWK_CNT, 16 + src, 1⟩ off.toNat
  else ({ s with disarmed := putFlag s.disarmed (src - 3) off }).dinWake

/-- The wake is valid: the counts of its sources clear. -/
def State.validWake (s : State) : State :=
  match s.slp.window with
  | some src => { s.set pSLP (fwkField src) 0 with slp.window := none }
  | none => s

/-! Modes on request (R514-R517). -/

/-- RUN, or DEGRADED if DEG_CAUSE is not 0. -/
def State.toRun (s : State) : State :=
  let d := s.degNow
  let s1 := (s.set pSLP SLP_STAT_NO_STANDBY 0).set pSLP SLP_STAT_DEG_CAUSE d
  if d = 0 then s1.setMode mRUN else (s1.setMode mDEGRADED).err pSLP 0xC227 0

/-- SERVICE is left; with the test port not LOCKED the compute die is reset (R517). -/
def State.leaveService (s : State) : State :=
  if s.testState ≠ 0 then s.computeReset 2 else s.toRun

/-- A request that Table 18-1 does not allow (R516). -/
def State.modeRefused (s : State) (off : Nat) (v : Word) : State := (s.refuse pSLP off 0x0B).err pSLP 0xC012 v.toNat

def slpModeReqEff (v : Word) (s : State) : State :=
  let m := bitsOf v.toNat 0 3
  let s1 := s.plain pSLP SLP_MODE_REQ v
  if m = mRUN then
    (if s.sleep = zPREP ∨ s.sleep = zQUIESCE then s1.sleepAbort
     else if s.mode = mPARTIAL then s1.toRun
     else if s.mode = mSERVICE then s1.leaveService
     else s.modeRefused SLP_MODE_REQ v)
  else if m = mPARTIAL then
    (if (s.mode = mRUN ∨ s.mode = mDEGRADED) ∧ !((List.range 8).any fun c => s.on (pCORE c) CORE_STAT_RUNNING) then
      { s1.setMode mPARTIAL with slp.goRun := false }
     else s.modeRefused SLP_MODE_REQ v)
  else s1

def execSlpModeReqRun (a : Access) (v : Word) (s : State) : Host.Outcome State Fault Refusal :=
  .next (s.regWrite a pSLP SLP_MODE_REQ v noCause (slpModeReqEff v))

def execSlpModeReqPartial (a : Access) (v : Word) (s : State) : Host.Outcome State Fault Refusal :=
  .next (s.regWrite a pSLP SLP_MODE_REQ v noCause (slpModeReqEff v))

/-- SERVICE is entered for some minutes; its own vote is AWAKE, which ends PREP. -/
def State.enterService (s : State) (minutes : Nat) : State :=
  let n := min minutes (s.get pSLP SLP_SERVICE_MAX)
  let s1 := ({ s with slp.serviceEnd := s.tb.clocks + n * 30000000000 }).setMode mSERVICE
  let s2 := if s1.on pSLP SLP_CTRL_PARKED then s1.awakeRun 64 else s1
  if s2.sleep = zPREP then s2.sleepAbort else s2

/-- The request 0x08 in MB_31 (R517, spec/16 R481): its capsule is checked on CMD port 0. -/
def execServiceRequest (s : State) : Host.Outcome State Fault Refusal :=
  .next (
    match s.request 8 with
    | none => s
    | some w =>
      let (s1, reason, b) := s.capsuleWords (slice w 1 6) (s.settingVal 0xFF02)
      let minutes := beAt b 8 4
      if reason ≠ 0 then s1.reply w 3 [reason]
      else if beAt b 2 2 ≠ 0xFFC2 ∨ nth b 4 0 ≠ 4 ∨ minutes < 1 ∨ 255 < minutes then s1.reply w 4 [0]
      else if s1.mode ≠ mRUN ∧ s1.mode ≠ mDEGRADED then s1.reply w 2 [0]
      else (s1.enterService minutes).reply w 0 [0])

def execServiceLimitExpiry (clocks : Nat) (s : State) : Host.Outcome State Fault Refusal :=
  .next (
    let s1 := s.advance clocks
    if s1.up.compute && s1.mode == mSERVICE && decide (s1.slp.serviceEnd ≤ s1.tb.clocks) then
      (s1.err pSLP 0xC029 0).leaveService
    else s1)

/-! Votes. -/

/-- A vote of a node that is not enrolled, or with a KIND that Table 18-4 does not have. -/
def slpVotePre (v : Word) (s : State) : Option Nat :=
  let k := bitsOf v.toNat 8 4
  if !s.nodeIn (bitsOf v.toNat 0 6) || k == 0 || decide (4 < k) then some 0x0B else none

/-- What a vote does to its node (R522, R531). -/
def State.voteTaken (s : State) (n kind : Nat) : State :=
  let s1 := ((s.set pSLP (SLP_NODE_STAT_KIND n) kind).set pSLP (SLP_NODE_STAT_SILENT n) 0).set pSLP (SLP_NODE_STAT_FEED_OFF n) 0
  let s2 := ({ s1 with slp.votes := setNth s1.slp.votes n s1.tb.clocks }).validWake
  if kind = 2 then (s2.set pSLP (SLP_NODE_STAT_OVERDUE n) 0).awakeDrop n
  else if kind = 1 then (if s2.on pSLP SLP_CTRL_PARKED then s2.awakeRun n else s2)
  else s2.awakePause n

def slpVoteEff (v : Word) (s : State) : State :=
  let kind := bitsOf v.toNat 8 4
  let round := bitsOf v.toNat 16 16
  let s1 := s.voteTaken (bitsOf v.toNat 0 6) kind
  let own := s1.get pSLP SLP_ROUND_ROUND
  let s2 :=
    if s1.sleep = zPREP then
      (if kind = 1 ∨ (kind = 4 ∧ round = own) then s1.sleepAbort else s1)
    else if kind = 3 ∧ s1.sleep = zAWAKE ∧ !s1.coord ∧ (round + 65536 - own) % 65536 < 32768 then
      (if s1.ownSleep && s1.awakeMode then s1.enterPrep round else s1.irq pSLP INT_SLP_PREP)
    else s1
  s2.sleepCheck

def execSlpVoteIn (a : Access) (v : Word) (s : State) : Host.Outcome State Fault Refusal :=
  .next (s.regWrite a pSLP SLP_VOTE_IN v (slpVotePre v) (slpVoteEff v))

/-- Clocks of 10 ms. -/
abbrev tenMs : Nat := 5000000

def execVoteTimeout (clocks : Nat) (node : Fin 64) (s : State) : Host.Outcome State Fault Refusal :=
  .next (
    let s1 := s.advance clocks
    let n := node.val
    if s1.up.compute && s1.nodeIn n && decide (nth s1.slp.votes n 0 + s1.get pSLP SLP_TIME_VOTE_TMO * tenMs ≤ s1.tb.clocks) then
      (s1.set pSLP (SLP_NODE_STAT_SILENT n) 1).sleepCheck
    else s1)

/-- A node entry is written: a change of ENROLLED begins its state anew. -/
def slpNodeCfgEff (n : Nat) (v : Word) (s : State) : State :=
  let was := s.nodeIn n
  let s1 := s.plain pSLP (SLP_NODE_CFG n) v
  let s2 := if s1.nodeIn n = was then s1
    else ({ s1.wrn pSLP (SLP_NODE_STAT n) 0 with slp.votes := setNth s1.slp.votes n s1.tb.clocks }).awakeDrop n
  s2.sleepCheck

/-! SHUTDOWN (R525). -/

def State.enterShutdown (s : State) : State :=
  let s1 := { s with slp.entry := s.mode, slp.scDone := false, slp.ack := false, slp.offDue := true, slp.savedReq := [0, 0]
                     slp.savedImg := [0, 0], slp.phaseAt := s.tb.clocks, slp.test := 0 }
  ((s1.setMode mSHUTDOWN).setSleep zQUIESCE).irq pSLP INT_SLP_SHDN

/-- The point of no return. With power die A lost it ends in PARTIAL (R520). -/
def State.noReturn (s : State) : State :=
  if !s.dieOn 0 || s.on (pDBR 0) BR_STAT_PEER_DOWN then
    ((({ s with slp.offDue := false, slp.goRun := false }).setSleep zAWAKE).set pSLP SLP_STAT_NO_STANDBY 1).setMode mPARTIAL |>.err pSLP 0xC228 0
  else
    let s1 := (s.setSleep zCUTTING).cnt pSLP SLP_CNT_SLEEPS
    ({ s1 with slp.cxArmed := [0, 1].map fun c => s.on (pCXC c) CX_XCVR_WAKE_EN, slp.latch := none, slp.test := 0
               slp.offDue := false }).keptOff

def execPrepExpiry (clocks : Nat) (s : State) : Host.Outcome State Fault Refusal :=
  .next (
    let s1 := s.advance clocks
    if s1.up.compute && s1.sleep == zPREP && s1.awakeMode &&
        decide (s1.slp.phaseAt + s1.get pSLP SLP_TIME_PREP_T * tenMs ≤ s1.tb.clocks) then s1.enterShutdown
    else s1)

/-- SC has written the exact capsule-channel records (spec/15 R457). -/
def execChannelRecordsWritten (s : State) : Host.Outcome State Fault Refusal :=
  .next (
    if s.up.compute && s.sleep == zQUIESCE && !s.slp.scDone then
      let s1 := { s.chansExact with slp.scDone := true }
      if s1.slp.ack then s1.noReturn else s1
    else s)

def execShdnTimeout (clocks : Nat) (s : State) : Host.Outcome State Fault Refusal :=
  .next (
    let s1 := s.advance clocks
    if s1.up.compute && s1.sleep == zQUIESCE &&
        decide (s1.slp.phaseAt + s1.get pSLP SLP_TIME_SHDN_TMO * tenMs ≤ s1.tb.clocks) then (s1.err pSLP 0xC226 0).noReturn
    else s1)

/-- Die P cuts the compute rails. -/
def execComputeRailsCut (clocks : Nat) (s : State) : Host.Outcome State Fault Refusal :=
  .next (
    let s1 := s.advance clocks
    if s1.cutting && s1.slp.test == 2 then s1.enterStandby else s1)

/-- SLP_CTRL (R514, R516, R523-R525, R531, R532). -/
def slpCtrlEff (v : Word) (s : State) : State :=
  if v.getLsbD 9 && !s.awakeMode then s.modeRefused SLP_CTRL v
  else
    let parked := s.on pSLP SLP_CTRL_PARKED
    let own := s.ownSleep
    let s1 := s.plain pSLP SLP_CTRL v
    let s2 := if s.on pSLP SLP_CTRL_COORD_HS then s1.set pSLP SLP_CTRL_COORD (s.get pSLP SLP_CTRL_COORD) else s1
    let s3 := s2.parkedWritten parked
    let s4 := if own && !s3.ownSleep then
        (let s5 := if s3.on pSLP SLP_CTRL_PARKED then s3.awakeRun 64 else s3
         if s5.sleep = zPREP then s5.sleepAbort else s5)
      else if s3.ownSleep then s3.awakeDrop 64
      else s3
    let s6 := (if v.getLsbD 8 then s4.validWake else s4).coordLook
    let s7 := if v.getLsbD 9 && s6.awakeMode then s6.enterShutdown
      else if v.getLsbD 10 && s6.sleep == zQUIESCE then
        (let s8 := { s6 with slp.ack := true }
         if s8.slp.scDone then s8.noReturn else s8)
      else s6
    s7.sleepCheck

def execOwnSleepWrite (a : Access) (v : Word) (s : State) : Host.Outcome State Fault Refusal :=
  .next (s.regWrite a pSLP SLP_CTRL v noCause (slpCtrlEff v))

def execShdnReq (a : Access) (v : Word) (s : State) : Host.Outcome State Fault Refusal :=
  .next (s.regWrite a pSLP SLP_CTRL v noCause (slpCtrlEff v))

def execShdnAck (a : Access) (v : Word) (s : State) : Host.Outcome State Fault Refusal :=
  .next (s.regWrite a pSLP SLP_CTRL v noCause (slpCtrlEff v))

def execCommOk (a : Access) (v : Word) (s : State) : Host.Outcome State Fault Refusal :=
  .next (s.regWrite a pSLP SLP_CTRL v noCause (slpCtrlEff v))

/-! Wake sources (R514, R529, R530). -/

/-- VBAT at the die A tabs at or above 6.0 V for 1 ms. -/
def execPowerOn (clocks : Nat) (s : State) : Host.Outcome State Fault Refusal :=
  .next (
    let s1 := s.advance clocks
    if s1.mode == mOFF && !s1.slp.starting && !s1.up.compute then s1.startWake ⟨4, 0⟩ false s1.tb.clocks else s1)

/-- WAKE_L low for WK_FILT after 1 ms high. The module's own pulse is no wake. -/
def execWakeLWake (clocks : Nat) (s : State) : Host.Outcome State Fault Refusal :=
  .next (
    let s1 := s.advance clocks
    if s1.slp.driving || s1.slp.low || !s1.dieOn 0 then s1
    else
      let s2 := { s1 with slp.low := true }
      if s2.on pSLP SLP_WAKE_WAKEL_ARM && !s2.fwkDisarmed 0 then s2.wakeIn ⟨0, 0⟩ else s2)

/-- A frame meets SLP_CWK_c (R530). -/
def State.wakeFrame (s : State) (c : Nat) (ide fd : Bool) (ident dlc : Nat) (data : List Nat) : Bool :=
  let want := bytesBE 4 (s.rd pSLP (SLP_CWK_DATA_LO c)).toNat ++ bytesBE 4 (s.rd pSLP (SLP_CWK_DATA_HI c)).toNat
  let mask := bytesBE 4 (s.rd pSLP (SLP_CWK_DMASK_LO c)).toNat ++ bytesBE 4 (s.rd pSLP (SLP_CWK_DMASK_HI c)).toNat
  !fd && ide == s.on pSLP (SLP_CWK_CFG_IDE c) && dlc == s.get pSLP (SLP_CWK_CFG_DLC c)
    && (ident ^^^ s.get pSLP (SLP_CWK_ID_ID c)) &&& s.get pSLP (SLP_CWK_IDMASK_ID c) == 0
    && (List.range (min dlc 8)).all fun i => (nth data i 0 ^^^ nth want i 0) &&& nth mask i 0 == 0

/-- What a controller's wake detection takes (R530). -/
def State.wakeDetected (s : State) (c : Nat) (w : CanWake) : Bool :=
  match w with
  | .pattern => s.on pSLP (SLP_CWK_CFG_WUP_EN c)
  | .frame ide fd ident dlc data => s.on pSLP (SLP_CWK_CFG_WUF_EN c) && s.wakeFrame c ide fd ident dlc data
  | .errorCount => s.on pSLP (SLP_CWK_CFG_WUF_EN c)

/-- The controller is a wake source: armed at the point of no return, or WAKE_EN while the compute die runs. -/
def State.wakeArmed (s : State) (c : Nat) : Bool :=
  (if s.cutting || !s.up.compute then nth s.slp.cxArmed c false else s.on (pCXC c) CX_XCVR_WAKE_EN) && !s.fwkDisarmed (1 + c)

def execCanWakePattern (clocks : Nat) (c : Fin 2) (w : CanWake) (s : State) : Host.Outcome State Fault Refusal :=
  .next (
    let s1 := s.advance clocks
    if s1.dieOn 0 && s1.wakeArmed c.val && s1.wakeDetected c.val w then s1.wakeIn ⟨1 + c.val, 0⟩ else s1)

def slpWakeEff (v : Word) (s : State) : State :=
  let s1 := s.plain pSLP SLP_WAKE v
  if v.getLsbD 17 then s1.wakePulse else s1

def execWakeLPulse (a : Access) (v : Word) (s : State) : Host.Outcome State Fault Refusal :=
  .next (s.regWrite a pSLP SLP_WAKE v noCause (slpWakeEff v))

def execWakeLPulseEnd (clocks : Nat) (s : State) : Host.Outcome State Fault Refusal :=
  .next (
    let s1 := s.advance clocks
    if s1.slp.driving then (({ s1 with slp.driving := false }).emit (.wakeL false)).sleepCheck else s1)

/-- The line stays low for 1 s after a pulse has ended. -/
def execWakeLStuck (clocks : Nat) (s : State) : Host.Outcome State Fault Refusal :=
  .next (
    let s1 := s.advance clocks
    if s1.slp.driving || !s1.dieOn 0 then s1
    else
      let s2 := { s1 with slp.low := true }
      if s2.up.compute && !s2.on pSLP SLP_STAT_WAKEL_STUCK then
        ((s2.set pSLP SLP_STAT_WAKEL_STUCK 1).irq pSLP INT_SLP_WAKEL_STUCK).err pSLP 0xC225 (s2.rd pSLP SLP_WK_SRC).toNat
      else s2)

def execWakeLHigh (clocks : Nat) (s : State) : Host.Outcome State Fault Refusal :=
  .next (
    let s1 := s.advance clocks
    (({ s1 with slp.low := false }).set pSLP SLP_STAT_WAKEL_STUCK 0).sleepCheck)

/-- Ports in PARTIAL change at once (R519). -/
def slpPartPortsEff (v : Word) (s : State) : State :=
  let s1 := s.plain pSLP SLP_PART_PORTS v
  s1.each ((List.range 31).filter fun p => !s1.portPowered p) fun s p => s.linkLost p

/-! Keeping nodes honest (R531, R532). -/

/-- The feed of a node is switched off. -/
def State.feedOff (s : State) (n : Nat) : State :=
  let d := s.get pSLP (SLP_NODE_CFG_FEED_DIE n)
  let i := s.get pSLP (SLP_NODE_CFG_FEED_IDX n)
  if s.on pSLP (SLP_NODE_CFG_FEED_POL n) && s.on pSLP (SLP_NODE_CFG_FEED_VALID n) && s.dieUp d && (s.chanIxs d).contains i then
    let s1 := (s.set (pLSW d i) LSW_CTRL_ARM 0).noteCmds d
    let s2 := ((s1.set pSLP (SLP_NODE_STAT_FEED_OFF n) 1).cnt pSLP SLP_CNT_FEED_OFF).irq pSLP INT_SLP_FEED_OFF
    (s2.err pSLP 0xC223 n).sleepCheck
  else s

/-- An AWAKE vote has been timed for MAX_AWAKE minutes; none names the own vote, which is only reported (locator 64). -/
def execMaxAwakeExpiry (clocks : Nat) (node : Option (Fin 64)) (s : State) : Host.Outcome State Fault Refusal :=
  .next (
    let s1 := s.advance clocks
    let n := match node with | some n => n.val | none => 64
    let max := s1.get pSLP SLP_TIME_MAX_AWAKE
    if !s1.up.compute || !s1.on pSLP SLP_CTRL_PARKED || max == 0 || decide (s1.awakeFor n < max * 30000000000) then s1
    else if n = 64 then ((s1.awakeDrop 64).irq pSLP INT_SLP_OVERDUE).err pSLP 0xC222 64
    else if s1.on pSLP (SLP_NODE_STAT_OVERDUE n) then s1
    else (((s1.set pSLP (SLP_NODE_STAT_OVERDUE n) 1).irq pSLP INT_SLP_OVERDUE).err pSLP 0xC222 n).feedOff n)

/-- FW_WIN has passed without a valid wake. -/
def execFalseWakeWindowEnd (clocks : Nat) (s : State) : Host.Outcome State Fault Refusal :=
  .next (
    let s1 := s.advance clocks
    match s1.up.compute, s1.slp.window with
    | true, some src =>
      if s1.tb.clocks < s1.slp.relAt + s1.get pSLP SLP_FWK_CFG_FW_WIN * tenMs then s1
      else
        let n := min (s1.get pSLP (fwkField src) + 1) 15
        let s2 := { s1.set pSLP (fwkField src) n with slp.window := none }
        if n < s2.get pSLP SLP_FWK_CFG_FWK_MAX then s2
        else ((s2.fwkSet src true).irq pSLP INT_SLP_FWK_DIS).err pSLP 0xC224 (s2.rd pSLP SLP_WK_SRC).toNat
    | _, _ => s1)

/-- FWK_HOLD minutes after a disarm the source is armed again. -/
def execFalseWakeHoldEnd (clocks : Nat) (source : Fin 51) (s : State) : Host.Outcome State Fault Refusal :=
  .next (
    let s1 := s.advance clocks
    if s1.fwkDisarmed source.val then (s1.set pSLP (fwkField source.val) 0).fwkSet source.val false else s1)

def slpCntClrEff (v : Word) (s : State) : State := if v.getLsbD 0 then s.wrn pSLP SLP_CNT 0 else s

def execSlpCntClr (a : Access) (v : Word) (s : State) : Host.Outcome State Fault Refusal :=
  .next (s.regWrite a pSLP SLP_CNT_CLR v noCause (slpCntClrEff v))

/-- The start source selects RUN (R519); a start of source COMPUTE goes back to RUN unless PARTIAL was lost. -/
def State.wantsRun (s : State) : Bool :=
  if s.slp.wake.src = 6 then s.slp.lossMode != mPARTIAL else (s.rd pSLP SLP_WK_MODE).toNat.testBit s.slp.wake.src

/-- The real-time program stands in the tightly coupled memory and RP0 and RP1 are released: PARTIAL (Table 18-3). -/
def execRealtimeRelease (clocks : Nat) (program : List (List Nat)) (s : State) : Host.Outcome State Fault Refusal :=
  .next (
    let s1 := s.advance clocks
    if s1.scUp && s1.slp.starting && s1.upd.run.isSome then
      let s2 := s1.each ((List.range 4).zip program) fun s e => s.setBytes (0x12000000 + e.1 * 0x20000) (e.2.take 0x20000)
      (({ s2 with up.rp := [true, true], slp.starting := false, slp.goRun := s2.wantsRun }).setMode mPARTIAL).lateShown
    else s1)

end Sys2Proof.Machine
end

