-- ==== Sys2Proof/Machine/Health.lean ====
section
/-!
DEFINITION. The fault aggregator and the fault log (spec/19 R535-R542, R606), the path test (R543), differing power-die logic
(R546) and plausibility (R547).
-/

namespace Sys2Proof.Machine

/-- Severity and subsystem of a code (spec/02 R55). -/
def codeSev (code : Nat) : Nat := bitsOf code 8 4
def codeSub (code : Nat) : Nat := bitsOf code 12 4

/-! Handling (R539, R540). -/

/-- A code becomes the active handling. -/
def State.handle (s : State) (code sev : Nat) : State :=
  let s1 := ((s.set pFAG FAG_ACT_CODE code).set pFAG FAG_ACT_SEV sev).set pFAG FAG_ACT_ACTIVE 1
  { s1 with health.escAt := s.tb.clocks }

/-- The active handling moves onto the stack. -/
def State.pushHandling (s : State) : State :=
  let s1 := (s.wr pFAG (FAG_STACK 2) (s.rd pFAG (FAG_STACK 1))).wr pFAG (FAG_STACK 1) (s.rd pFAG (FAG_STACK 0))
  let s2 := ((s1.set pFAG (FAG_STACK_CODE 0) (s.get pFAG FAG_ACT_CODE)).set pFAG (FAG_STACK_SEV 0) (s.get pFAG FAG_ACT_SEV)).set
    pFAG (FAG_STACK_VALID 0) 1
  s2.set pFAG FAG_ACT_DEPTH (s.get pFAG FAG_ACT_DEPTH + 1)

/-- A logged code starts a handling, pre-empts one of lower severity, or is nested. -/
def State.faultNotify (s : State) (code : Nat) : State :=
  let sev := codeSev code
  if sev < s.get pFAG FAG_CTRL_NOTIFY_MIN then s
  else if !s.on pFAG FAG_ACT_ACTIVE then (s.handle code sev).irq pFAG INT_FAG_NEW
  else if s.get pFAG FAG_ACT_SEV < sev then
    ((s.pushHandling.handle code sev).irq pFAG INT_FAG_PREEMPT).cnt pFAG FAG_CNT_PREEMPT
  else s.cnt pFAG FAG_CNT_NESTED

/-! The log (R536-R538). -/

/-- A code of its severity is counted. -/
def State.sevCount (s : State) (code : Nat) : State :=
  if codeSev code ≤ 4 then s.cnt32 pFAG (FAG_SEVCNT (codeSev code)) else s

/-- The newest entry takes a further occurrence of the code. -/
def LogEntry.takes (e : LogEntry) (x : Post) (now : Nat) : Bool :=
  e.code == x.code && e.srcTy == x.srcTy && e.srcInst == x.srcInst && e.locator == x.locator && decide (now ≤ e.lastAt + 500000)

/-- The log takes a code: whether it found the log full for the first time. -/
def State.logTake (s : State) (x : Post) : State × Bool :=
  let now := s.tb.clocks
  let ns := stampNs s.nowQ
  let log := s.health.log
  match log.getLast? with
  | some e =>
    if e.takes x now then
      ({ s with health.log := log.dropLast ++ [{ e with count := min (e.count + 1) 255, lastNs := ns, lastAt := now }] }, false)
    else
      let new : LogEntry := ⟨x.code, 1, x.injected, decide (64 ≤ log.length), x.srcTy, x.srcInst, x.locator, stampSec s.nowQ, ns, ns, now⟩
      if log.length < 64 then (({ s with health.log := log ++ [new] }).irq pLOG INT_LOG_ENTRY, false)
      else
        let s1 := (({ s with health.log := log.take 63 ++ [new] }).cnt pLOG LOG_STAT_OVF).irq pLOG INT_LOG_ENTRY
        ({ s1 with health.ovfTold := true }, !s.health.ovfTold)
  | none =>
    (({ s with health.log := [⟨x.code, 1, x.injected, false, x.srcTy, x.srcInst, x.locator, stampSec s.nowQ, ns, ns, now⟩] }).irq
      pLOG INT_LOG_ENTRY, false)

/-- The log has overflowed: 0xD216 is recorded, counted and notified, never logged (R537). -/
def State.logOverflow (s : State) : State :=
  (((s.capture pLOG 0xD216 0).irq pLOG INT_LOG_OVF).sevCount 0xD216).faultNotify 0xD216

/-- A code reaches the aggregator (R536, R542). -/
def State.faultTaken (s : State) (x : Post) : State :=
  let sev := codeSev x.code
  let s1 := s.sevCount x.code
  let s2 := if 3 ≤ sev ∧ s1.dieUp 0 then s1.set pFAG FAG_AO_LAST_CODE x.code else s1
  if sev < s2.get pLOG LOG_CTRL_LOG_MIN then s2
  else
    let (s3, full) := s2.logTake x
    let s4 := s3.faultNotify x.code
    if full then s4.logOverflow else s4

/-- The order in which codes are taken (spec/01 R17): descending severity, ascending subsystem. -/
def Post.before (x y : Post) : Bool :=
  decide (codeSev y.code < codeSev x.code) || (codeSev x.code == codeSev y.code && decide (codeSub x.code < codeSub y.code))

/-- Position of the code that is taken next. -/
def firstPost : List Post → Nat → Option (Nat × Post)
  | [], _ => none
  | x :: xs, i =>
    match firstPost xs (i + 1) with
    | some (j, y) => if y.before x then some (j, y) else some (i, x)
    | none => some (i, x)

/-- The next code that waits reaches the aggregator; not while its pages' soft reset runs (R606). -/
def execFaultCodePost (clocks : Nat) (s : State) : Host.Outcome State Fault Refusal :=
  .next (
    let s1 := s.advance clocks
    if !s1.up.compute || s1.on pFAG BLK_CTRL_SOFT_RST || s1.on pLOG BLK_CTRL_SOFT_RST then s1
    else
      match firstPost s1.posts 0 with
      | some (i, x) => ({ s1 with posts := s1.posts.eraseIdx i }).faultTaken x
      | none => s1)

/-- A read of LOG_TAKE removes the entry at position 0. -/
def logTakeEff (s : State) : State := { s with health.log := s.health.log.tail, health.ovfTold := false }

def execLogTakeRead (a : Access) (s : State) : Host.Outcome State Fault Refusal :=
  .next (s.regRead a pLOG LOG_TAKE logTakeEff)

/-- The log empties. -/
def State.logEmpty (s : State) : State := { s.set pLOG LOG_STAT_OVF 0 with health.log := [], health.ovfTold := false }

def logCtrlEff (v : Word) (s : State) : State :=
  let s1 := s.plain pLOG LOG_CTRL v
  if v.getLsbD 8 then s1.logEmpty else s1

def execLogClr (a : Access) (v : Word) (s : State) : Host.Outcome State Fault Refusal :=
  .next (s.regWrite a pLOG LOG_CTRL v noCause (logCtrlEff v))

/-- The active handling ends; the top of the stack becomes active again. -/
def State.endHandling (s : State) : State :=
  if s.on pFAG (FAG_STACK_VALID 0) then
    let s1 := s.handle (s.get pFAG (FAG_STACK_CODE 0)) (s.get pFAG (FAG_STACK_SEV 0))
    let s2 := (s1.set pFAG FAG_ACT_DEPTH (s.get pFAG FAG_ACT_DEPTH - 1)).wr pFAG (FAG_STACK 0) (s.rd pFAG (FAG_STACK 1))
    ((s2.wr pFAG (FAG_STACK 1) (s.rd pFAG (FAG_STACK 2))).wr pFAG (FAG_STACK 2) 0).irq pFAG INT_FAG_RESUME
  else s.wr pFAG FAG_ACT 0

/-- FAG_DONE while no handling is active is ignored and recorded (R539); R603 gives such a write an error response. -/
def fagDonePre (s : State) : Option Nat := if s.on pFAG FAG_ACT_ACTIVE then none else some 0x0B

def fagDoneEff (v : Word) (s : State) : State := if v.getLsbD 0 then s.endHandling else s

def execFagDone (a : Access) (v : Word) (s : State) : Host.Outcome State Fault Refusal :=
  .next (s.regWrite a pFAG FAG_DONE v fagDonePre (fagDoneEff v))

def State.fagCounters (s : State) : State := (s.wr pFAG FAG_CNT 0).each (List.range 5) fun s k => s.wr pFAG (FAG_SEVCNT k) 0

def fagCntClrEff (v : Word) (s : State) : State := if v.getLsbD 0 then s.fagCounters else s

def execFagCntClr (a : Access) (v : Word) (s : State) : Host.Outcome State Fault Refusal :=
  .next (s.regWrite a pFAG FAG_CNT_CLR v noCause (fagCntClrEff v))

/-! Escalation (R541). -/

/-- A handling of severity 4 has been active for n halves of ESC_TMO. -/
def State.escPast (s : State) (n : Nat) : Bool :=
  s.up.compute && s.on pFAG FAG_CTRL_ESC_EN && s.on pFAG FAG_ACT_ACTIVE && s.get pFAG FAG_ACT_SEV == 4
    && decide (s.health.escAt + n * s.get pFAG FAG_CTRL_ESC_TMO * 250000 ≤ s.tb.clocks)

def execEscalationWarn (clocks : Nat) (s : State) : Host.Outcome State Fault Refusal :=
  .next (
    let s1 := s.advance clocks
    if s1.escPast 1 then s1.irq pFAG INT_FAG_ESC_WARN else s1)

def execEscalation (clocks : Nat) (s : State) : Host.Outcome State Fault Refusal :=
  .next (
    let s1 := s.advance clocks
    if s1.escPast 2 then (s1.holdCode pFAG 0xD41E (s1.get pFAG FAG_ACT_CODE)).computeReset 6 else s1)

/-! Path test, power-die logic, plausibility. -/

def execPathTest (clocks : Nat) (missing : List (Fin 16)) (s : State) : Host.Outcome State Fault Refusal :=
  .next (
    let s1 := s.advance clocks
    if s1.up.compute then s1.pathRound (missing.map (·.val)) else s1)

/-- The die's logic copies differ (R546): every channel goes off and stays off; the health block posts 0xD41C when the die
bridge carries the report. -/
def execPowerDieLogicDiffer (clocks : Nat) (die : Fin 2) (s : State) : Host.Outcome State Fault Refusal :=
  .next (
    let s1 := s.advance clocks
    let d := die.val
    if !s1.dieOn d || (s1.die d).differ then s1
    else
      let s2 := (s1.modDie d fun z => { z with differ := true }).each (s1.chanIxs d) fun s i =>
        (s.turnOff d i .boardNet).modChan d i fun c => if c.st = 1 then { c with st := 0, waited := 0 } else c
      if s2.dieUp d then s2.err pFAG 0xD41C d
      else if (s2.die d).queue.length < 8 then
        s2.modDie d fun z => { z with queue := z.queue ++ [⟨0xD41C, d, tyOf pFAG, 0, false⟩] }
      else s2.cnt (pPDC d) PDC_QOVF_LOST)

/-- The state in which a contradiction counts (R547). -/
def State.implausible (s : State) (d i : Nat) (k : Implausible) : Bool :=
  let st := (s.chan d i).st
  match k with
  | .stuckOn => st == 0 || st == 1 || st == 6
  | .stuckOpen => (st == 2 || st == 3) && !s.on (pLSW d i) LSW_CTRL_DUAL && !(s.chan d i).rev
  | .converter => st != 4 && st != 5

def execPlausibilityFail (clocks : Nat) (die : Fin 2) (ch : Fin 16) (kind : Implausible) (s : State) :
    Host.Outcome State Fault Refusal :=
  .next (
    let s1 := s.advance clocks
    let d := die.val
    let i := ch.val
    if s1.dieUp d && s1.hasChan d && s1.implausible d i kind then s1.err pFAG 0xD31D (chanLoc i (s1.chan d i).evt) else s1)

/-! Soft resets of the FAG and LOG pages, beside their registers (R606). -/

def State.logSoftReset (s : State) : State := s.logEmpty

end Sys2Proof.Machine
end

