-- ==== Sys2Proof/Machine/Honing.lean ====
section
/-!
DEFINITION. Honing (spec/19 R554-R564): the ageing log, the margins of the seven monitors, plans and when they take effect, hourly
samples with their allowances, and the temperature ceiling.
-/

namespace Sys2Proof.Machine

/-! Ageing-log records (Table 19-6), as their 256 bytes. -/

abbrev ageBase : Nat := 0x160000
abbrev ageHalfSize : Nat := 0x40000

def ageValid (l : List Nat) : Bool := slice l 0 4 == [0x48, 0x5A, 0x41, 0x47] && crc32 (l.take 252) == beAt l 252 4

def agePlan (l : List Nat) : Nat := beAt l 4 4
def ageHours (l : List Nat) : Nat := beAt l 8 4
def ageKind (l : List Nat) : Nat := nth l 12 0
def ageEom (l : List Nat) : Nat := nth l 13 0 % 128
def ageMargin (l : List Nat) (p : Nat) : Int := sext 8 (nth l (14 + p) 0)
def ageMonitor (l : List Nat) (m : Nat) : Nat := nth l (24 + m) 0

/-- Records of a half on a die that have been programmed. -/
def State.ageUsed (s : State) (die half : Nat) : Nat :=
  let a := norBase die + ageBase + half * ageHalfSize
  (s.mem.filter fun e => decide (a ≤ e.1) && decide (e.1 < a + ageHalfSize)).foldl (fun n e => max n ((e.1 - a) / 256 + 1)) 0

/-- The valid records of a half, of either die. -/
def State.ageHalfRecs (s : State) (half : Nat) : List (List Nat) :=
  ([0, 1].flatMap fun die => ((List.range (s.ageUsed die half)).map fun i =>
    s.bytes (norBase die + ageBase + half * ageHalfSize + 256 * i) 256).filter ageValid).eraseDups

/-- Every valid record, by rising plan number. -/
def State.ageRecs (s : State) : List (List Nat) :=
  sortBy (fun x y => decide (agePlan x ≤ agePlan y)) (s.ageHalfRecs 0 ++ s.ageHalfRecs 1).eraseDups

def State.ageNewest (s : State) : Option (List Nat) := s.ageRecs.getLast?

def State.ageAppend (s : State) (l : List Nat) : State :=
  let h := s.hon.half
  let off := ageBase + h * ageHalfSize + 256 * max (s.ageUsed 0 h) (s.ageUsed 1 h)
  (s.norProgram 0 off l).norProgram 1 off l

/-- The active half is full: the other is erased and takes the newest 8 records of kinds 0 and 1 (R564). -/
def State.ageTurn (s : State) : State :=
  let keep := s.ageRecs.filter fun l => ageKind l < 2
  let h := 1 - s.hon.half
  let s1 := s.each [0, 1] fun s die => s.each (List.range (ageHalfSize / 0x10000)) fun s i =>
    s.norEraseBlock die (ageBase + h * ageHalfSize + i * 0x10000) 0x10000
  ({ s1 with hon.half := h }).each (keep.drop (keep.length - 8)) fun s l => s.ageAppend l

def State.ageWrite (s : State) (l : List Nat) : State :=
  let h := s.hon.half
  (if ageHalfSize / 256 ≤ max (s.ageUsed 0 h) (s.ageUsed 1 h) then s.ageTurn else s).ageAppend l

/-! Margins (Table 19-5), in %. -/

/-- A fraction num / den as whole percent, 0 to 100, rounded up: 0 only where nothing remains. -/
def percent (num : Int) (den : Nat) : Nat := if num ≤ 0 ∨ den = 0 then 0 else min ((num.toNat * 100 + den - 1) / den) 100

def marginTiming (op0 : Int) : Nat := percent (40 - op0) 40

/-- On-resistance ratio r × 4,096. -/
def marginRon (r : Nat) : Nat := percent (49152 - 10 * (r : Int)) 8192

/-- Rated charge of a tab or land group, Ah. -/
def ratedAh (t : Nat) : Nat := if t < 12 then 2500000 else 1000000

def marginCharge (t q : Nat) : Nat := percent ((ratedAh t : Int) - (q : Int)) (ratedAh t)

/-- Gain in 2^-16 and offset in low-range LSB. -/
def marginSense (g o : Int) : Nat := min (percent (65536 - 100 * (absInt g : Int)) 65536) (percent (64 - (absInt o : Int)) 64)

def marginPhase (steps : Int) : Nat := percent (32 - (absInt steps : Int)) 32

def marginDram (h : Nat) : Nat := percent ((h : Int) - 56) 8

def marginNor (n : Nat) : Nat := percent (100000 - (n : Int)) 100000

/-- The position with the least value. -/
def leastAt (l : List Nat) : Nat := l.idxOf (l.foldl min (l.headD 0))

/-! Operating points (R555). -/

/-- Steps that a measured point asks for: slack in 0.1 %, gain per step. -/
def slackStep (slack gain : Nat) : Int :=
  if slack < 100 then (if gain = 0 then 61 else (((100 - slack) + gain - 1) / gain : Nat)) else if 120 < slack then -1 else 0

/-- The margins that the points need, before the bound of +40. -/
def marginsWanted (old : List Int) (slack : List (Option Nat)) (gain : List Nat) : List Int :=
  let step (p : Nat) : Option Int := (nth slack p none).map fun x => slackStep x (nth gain p 0)
  let most := (List.range 6).foldl (fun m p => match step p with | some x => max m x | none => m) 0
  (List.range 6).map fun p => nth old p 0 + (step p).getD most

def marginHeld (m : Int) : Int := max (-20) (min m 40)

/-- The fastest point that needs no more than +40 (R555). -/
def timingCeiling (wanted : List Int) : Nat := ((List.range 6).find? fun p => decide (nth wanted p 0 ≤ 40)).getD 5

/-! BLOCK of a channel (R557). -/

/-- The tab of a channel's group and its own H tab or M land group. -/
def chargeTabs (d i : Nat) : List Nat :=
  (3 * d + groupOf i) :: (if i < 3 then [6 + 3 * d + i] else if i < 10 then [12 + 7 * d + (i - 3)] else [])

def ronTerm (r : Nat) : Nat := if r ≤ 4096 then 0 else (4096 * (r - 4096) + r - 1) / r

def chargeTerm (t q : Nat) : Nat :=
  let n := 10 * q - 8 * ratedAh t
  (512 * n + ratedAh t - 1) / ratedAh t

/-- BLOCK, and whether the bound of INR_PEAK + 1.0 A has held it down. -/
def State.blockOf (s : State) (d i : Nat) (m : Monitors) : Nat × Bool :=
  let terms := ronTerm (nth m.ron (16 * d + i) 4096) :: (chargeTabs d i).map fun t => chargeTerm t (nth m.charge t 0)
  let want := min (terms.foldl max 0) 1024
  let isc := s.get (pLSW d i) LSW_PROT_ISC * 500
  let floor := s.get (pLSW d i) LSW_PROF_INR_PEAK * 500 + 1000
  if floor * 4096 < isc * (4096 - want) then (want, false)
  else (if floor < isc then (4096 * (isc - floor) - 1) / isc else 0, true)

/-- Margin that governs an LSW page: the least of on-resistance, charge and current sense of the channel, the monitors whose plan
output is on that page (Table 19-5). -/
def lswMargin (d i : Nat) (m : Monitors) : Nat :=
  let c := 16 * d + i
  ((chargeTabs d i).map fun t => marginCharge t (nth m.charge t 0)).foldl min
    (min (marginRon (nth m.ron c 4096)) (marginSense (nth m.gain c 0) (nth m.offset c 0)))

/-! The projection (R563). -/

/-- Days left until a margin reaches 0, fitted over points (hours, margin); 0xFFFF where it does not fall or 3 are not held. -/
def daysLeft (pts : List (Nat × Nat)) : Nat :=
  let n := pts.length
  let sx := (pts.map (·.1)).sum
  let sy := (pts.map (·.2)).sum
  let sxx := (pts.map fun e => e.1 * e.1).sum
  let sxy := (pts.map fun e => e.1 * e.2).sum
  let den := n * sxx - sx * sx
  let fall := sx * sy - n * sxy
  match pts.getLast? with
  | none => 0xFFFF
  | some e => if n < 3 ∨ fall = 0 ∨ den = 0 then 0xFFFF else min (e.2 * den / (fall * 24)) 0xFFFE

/-! Plans (R554, R558, R560). -/

/-- What a plan finds: margins wanted, trims, per monitor its margin, value and governing index. -/
structure PlanOut where
  wanted : List Int
  monitors : List (Nat × Nat × Nat)
  deriving DecidableEq, Repr

/-- The channels that honing checks: index 16 d + i (Table 19-7). -/
def State.honedChans (s : State) : List Nat := List.range (if s.hz9620 then 16 else 32)

/-- The tabs and land groups of the variant. -/
def State.honedTabs (s : State) : List Nat :=
  (List.range 26).filter fun t => !s.hz9620 || t < 3 || (6 ≤ t && t < 9) || (12 ≤ t && t < 19)

def State.judge (s : State) (io : PlanIn) : PlanOut :=
  let old := (List.range 6).map fun p => s.geti pVFS (VFS_OP_MARGIN p)
  let wanted := marginsWanted old io.m.slack io.gain
  let op0 := marginHeld (nth wanted 0 0)
  let slacks := (List.range 6).map fun p => (nth io.m.slack p none).getD 1023
  let worst0 := leastAt slacks
  let cs := s.honedChans
  let rons := cs.map fun c => marginRon (nth io.m.ron c 4096)
  let c1 := nth cs (leastAt rons) 0
  let ts := s.honedTabs
  let chs := ts.map fun t => marginCharge t (nth io.m.charge t 0)
  let t2 := nth ts (leastAt chs) 0
  let sens := cs.map fun c => marginSense (nth io.m.gain c 0) (nth io.m.offset c 0)
  let c3 := nth cs (leastAt sens) 0
  let h := s.get pAGM AGM_DRAM_H
  { wanted := wanted
    monitors :=
      [ (marginTiming op0, if s.hz9620 then toField 32 op0 else nth slacks worst0 0, if s.hz9620 then 0 else worst0)
      , (marginRon (nth io.m.ron c1 4096), nth io.m.ron c1 4096, c1)
      , (marginCharge t2 (nth io.m.charge t2 0), nth io.m.charge t2 0, t2)
      , (nth sens (leastAt sens) 0, absInt (nth io.m.gain c3 0), c3)
      , (marginPhase io.steps, toField 32 io.steps, 0)
      , (marginDram h, h, 0)
      , (marginNor s.maxWear, s.maxWear, 0) ] }

/-- AGE_TRIM.MARGIN and PLAN of a page. -/
def State.ageTrim (s : State) (p margin plan : Nat) : State :=
  (s.set p AGE_TRIM_MARGIN (1 + margin)).set p AGE_TRIM_PLAN plan

/-- VFS_CEIL is the slower of the two ceilings (R556). -/
def State.ceilings (s : State) : State :=
  s.set pVFS VFS_CEIL_OP (max (s.get pHON HON_CEIL_TIMING) (s.get pHON HON_CEIL_TEMP))

/-- Interval and BLOCK of DMC for the rows that hold (R559). -/
def refiOf (h : Nat) : Nat × Nat := if 60 ≤ h then (3906, 0) else if 56 ≤ h then (1953, 1) else (976, 2)

/-- A channel's measuring trim that waits takes effect. -/
def State.trimDue (s : State) (c : Nat) : State :=
  match nth s.hon.itrim c none with
  | some w => { s.wrn (pLSW (c / 16) (c % 16)) LSW_ITRIM w with hon.itrim := setNth s.hon.itrim c none }
  | none => s

/-- A channel's BLOCK that waits takes effect while the channel is not in WAIT or INRUSH. -/
def State.blockDue (s : State) (c : Nat) : State :=
  match nth s.hon.blocks c none with
  | some b =>
    if (s.chan (c / 16) (c % 16)).st = 1 ∨ (s.chan (c / 16) (c % 16)).st = 2 then s
    else { s.set (pLSW (c / 16) (c % 16)) AGE_TRIM_BLOCK b with hon.blocks := setNth s.hon.blocks c none }
  | none => s

/-- The time base's BLOCK that waits takes effect. -/
def State.phaseDue (s : State) : State :=
  match s.hon.phase with
  | some w => { s.set pTMB AGE_TRIM_BLOCK w with hon.phase := none }
  | none => s

/-- Blocks and trims that wait take effect at a cycle boundary (R558). -/
def State.honBoundary (s : State) : State :=
  (s.each (List.range 32) fun s c => (s.trimDue c).blockDue c).phaseDue

/-- The plan's effect on a channel: its page, BLOCK and trims. -/
def State.planChan (s : State) (m : Monitors) (plan c : Nat) : State :=
  let d := c / 16
  let i := c % 16
  if !s.dieUp d then s
  else
    let s1 := s.ageTrim (pLSW d i) (lswMargin d i m) plan
    let w := toField 16 (nth m.gain c 0) + toField 16 (nth m.offset c 0) * 0x10000
    { s1 with hon.blocks := setNth s1.hon.blocks c (some (s1.blockOf d i m).1), hon.itrim := setNth s1.hon.itrim c (some w) }

/-- Monitors that a channel's bound has exhausted (R557): 1 where on-resistance asks for more, else 2. -/
def State.boundMonitors (s : State) (m : Monitors) : List Nat :=
  (s.honedChans.filter fun c => (s.blockOf (c / 16) (c % 16) m).2).map fun c =>
    if (chargeTabs (c / 16) (c % 16)).all fun t => chargeTerm t (nth m.charge t 0) ≤ ronTerm (nth m.ron c 4096) then 1 else 2

/-- Locator of a monitor code (R565). -/
def State.monLoc (s : State) (m : Nat) : Nat := m + 0x100 * (s.get pHON (HON_MON_WORST_V m) % 256)

/-- A monitor's result of a plan: margin, value, exhaustion, and at start and periodic plans the projection. -/
def State.planMonitor (s : State) (m : Nat) (e : Nat × Nat × Nat) (bound fit : Bool) (pts : List (Nat × Nat)) (wasEom : Bool) : State :=
  let ex := bound || e.1 == 0
  let was := s.on pHON (HON_MON_EXHAUSTED m)
  let s1 := ((s.set pHON (HON_MON_MARGIN m) e.1).wrn pHON (HON_MON_VALUE m) e.2.1).set pHON (HON_MON_WORST_V m) e.2.2
  let s2 := ((s1.set pHON (HON_MON_EXHAUSTED m) ex.toNat).set pHON (HON_MON_OVERRUN m) 0).set pHON (HON_MON_ALLOW_V m) 0
  let s3 := if ex && !was then (s2.irq pHON INT_HON_EXHAUSTED).err pHON 0xD31A (s2.monLoc m) else s2
  if !fit then s3
  else
    let days := daysLeft pts
    let eom := days != 0xFFFF && decide (days ≤ s3.get pHON HON_CTRL_WARN_D)
    let s4 := (s3.set pHON (HON_MON_DAYS m) days).set pHON (HON_MON_EOM m) eom.toNat
    if eom && !wasEom then (s4.irq pHON INT_HON_EOM).err pHON 0xD215 (s4.monLoc m) else s4

/-- Some monitor has a flag. -/
def State.anyMon (s : State) (f : Nat → Fld) : Nat := ((List.range 7).any fun m => s.on pHON (f m)).toNat

/-- The record of a plan. -/
def State.planRecord (s : State) (plan kind : Nat) (steps : Int) (mons : List (Nat × Nat × Nat)) : List Nat :=
  let cs := List.range 32
  let block (c : Nat) : Nat := (nth s.hon.blocks c none).getD (s.get (pLSW (c / 16) (c % 16)) AGE_TRIM_BLOCK)
  let trim (c : Nat) : Nat := (nth s.hon.itrim c none).getD (s.rd (pLSW (c / 16) (c % 16)) LSW_ITRIM).toNat
  let body := [0x48, 0x5A, 0x41, 0x47] ++ bytesBE 4 plan ++ bytesBE 4 (s.rd pHON HON_HOURS).toNat ++
    [kind, maskOf ((List.range 7).filter fun m => s.on pHON (HON_MON_EOM m))] ++
    ((List.range 6).map fun p => s.get pVFS (VFS_OP_MARGIN p)) ++
    [s.get pVFS VFS_CEIL_OP + 16 * s.get pDMC AGE_TRIM_BLOCK, s.get pAGM AGM_DRAM_H] ++ bytesBE 2 (toField 16 steps) ++
    (mons.map fun e => e.1) ++ [0] ++ (cs.map fun c => bytesBE 2 (block c)).flatten ++ (cs.map fun c => bytesBE 4 (trim c)).flatten ++
    List.replicate 28 0
  body ++ bytesBE 4 (crc32 body)

/-- At start, honing takes over what the newest record holds (R560). -/
def State.honStart (s : State) (m : Monitors) : State :=
  let s1 := s.each (List.range 26) fun s t => s.set pAGM (AGM_Q_AH t) (nth m.charge t 0)
  match s1.ageNewest with
  | none => s1
  | some r =>
    (s1.wrn pHON HON_HOURS (ageHours r)).each (List.range 6) fun s p => s.seti pVFS (VFS_OP_MARGIN p) (ageMargin r p)

/-- A plan is made (R554, R560). -/
def State.makePlan (s0 : State) (kind : Nat) (io : PlanIn) : State :=
  let s := if kind = 0 then s0.honStart io.m else s0
  let before := s.ageNewest
  let plan := (match before with | some r => max (agePlan r) (s.rd pHON HON_PLAN).toNat | none => (s.rd pHON HON_PLAN).toNat) + 1
  let out := s.judge io
  -- operating points and ceilings
  let s1 := s.each (List.range 6) fun s p => s.seti pVFS (VFS_OP_MARGIN p) (marginHeld (nth out.wanted p 0))
  let s2 := (s1.set pHON HON_CEIL_TIMING (timingCeiling out.wanted)).ceilings
  let s3 := if s2.hz9620 then s2 else s2.vfsPlan
  -- pages and what waits for its moment
  let s4 := s3.each s3.honedChans fun s c => s.planChan io.m plan c
  let (refi, code) := refiOf (s4.get pAGM AGM_DRAM_H)
  let s5 := ((s4.ageTrim pVFS (nth out.monitors 0 (0, 0, 0)).1 plan).ageTrim pTMB (nth out.monitors 4 (0, 0, 0)).1 plan).ageTrim
    (pNOR 0) (nth out.monitors 6 (0, 0, 0)).1 plan
  let s6 := (s5.ageTrim (pNOR 1) (nth out.monitors 6 (0, 0, 0)).1 plan).ageTrim pDMC (nth out.monitors 5 (0, 0, 0)).1 plan
  let s7 := { s6.set pDMC AGE_TRIM_BLOCK code with hon.refi := some refi, hon.phase := some (toField 16 io.steps) }
  -- monitors
  let bound := s7.boundMonitors io.m
  let olds := (s7.ageRecs.filter fun l => ageKind l < 2)
  let last := olds.drop (olds.length - 7)
  let hours := (s7.rd pHON HON_HOURS).toNat
  let s8 := s7.each ((List.range 7).zip out.monitors) fun s e =>
    s.planMonitor e.1 e.2 (bound.contains e.1) (decide (kind < 2))
      ((last.map fun l => (ageHours l, ageMonitor l e.1)) ++ [(hours, e.2.1)])
      (match before with | some r => (ageEom r).testBit e.1 | none => false)
  let s9 := ((s8.set pHON HON_STAT_EOM (s8.anyMon HON_MON_EOM)).set pHON HON_STAT_EXHAUSTED (s8.anyMon HON_MON_EXHAUSTED)).set
    pHON HON_STAT_OVERRUN 0
  let s10 := ((s9.set pHON HON_STAT_IN_FORCE 1).set pHON HON_STAT_BUSY 0).wrn pHON HON_PLAN plan
  let s11 := if kind < 2 then s10.set pHON HON_STAT_NEXT (s10.get pHON HON_CTRL_PERIOD) else s10
  let s12 := { s11.ageWrite (s11.planRecord plan kind io.steps out.monitors) with hon.base := some io.m }
  let s13 := (s12.irq pHON INT_HON_PLAN_DONE).err pHON 0xD012 0
  if s13.plate.started then s13 else s13.honBoundary

/-- The plan that is due is made. -/
def execHoningPlan (io : PlanIn) (s : State) : Host.Outcome State Fault Refusal :=
  .next (
    match s.scUp, s.hon.due with
    | true, kind :: rest => ({ s with hon.due := rest }).makePlan kind io
    | _, _ => s)

/-- A plan of a kind becomes due. -/
def State.planDue (s : State) (kind : Nat) : State :=
  if s.hon.due.contains kind then s else { s.set pHON HON_STAT_BUSY 1 with hon.due := s.hon.due ++ [kind] }

def honCtrlPre (v : Word) (s : State) : Option Nat := if v.getLsbD 16 && s.mode != mSERVICE then some 0x0B else none

def honCtrlEff (v : Word) (s : State) : State :=
  let s1 := s.plain pHON HON_CTRL v
  if v.getLsbD 16 then s1.planDue 3 else s1

def execHonPlanNow (a : Access) (v : Word) (s : State) : Host.Outcome State Fault Refusal :=
  .next (s.regWrite a pHON HON_CTRL v (honCtrlPre v) (honCtrlEff v))

/-- The modes in which hours of operation count (R560). -/
def State.operating (s : State) : Bool :=
  s.scUp && (s.mode == mRUN || s.mode == mPARTIAL || s.mode == mDEGRADED || s.mode == mSERVICE)

/-- PERIOD hours of operation have passed since the last start or periodic plan. -/
def execHoningPeriod (clocks : Nat) (s : State) : Host.Outcome State Fault Refusal :=
  .next (
    let s1 := s.advance clocks
    if s1.operating && s1.on pHON HON_STAT_IN_FORCE && s1.get pHON HON_STAT_NEXT == 0 then s1.planDue 1 else s1)

/-! Samples (R561). -/

/-- Percent of the 24 h allowance that monitor m has used since the last plan, and where. -/
def allowUsed (m : Nat) (base now : Monitors) : Nat × Nat :=
  let most (l : List Nat) : Nat × Nat := (l.foldl max 0, l.idxOf (l.foldl max 0))
  let diff (x y : Int) : Nat := absInt (y - x)
  if m = 0 then
    most ((List.range 6).map fun p => match nth base.slack p none, nth now.slack p none with
      | some x, some y => (x - y) * 20
      | _, _ => 0)
  else if m = 1 then most ((List.range 32).map fun c => diff (nth base.ron c 4096 : Nat) (nth now.ron c 4096 : Nat) * 10000 / 4096)
  else if m = 3 then
    most ((List.range 32).map fun c => max (diff (nth base.gain c 0) (nth now.gain c 0) * 100000 / 65536)
      (diff (nth base.offset c 0) (nth now.offset c 0) * 25))
  else if m = 4 then (diff base.phase now.phase, 0)
  else (0, 0)

/-- One monitor judged against its allowance. -/
def State.judgeAllowance (s : State) (m : Nat) (used : Nat × Nat) : State :=
  let s1 := s.set pHON (HON_MON_ALLOW_V m) (min used.1 255)
  if 100 ≤ used.1 then
    (if s1.on pHON (HON_MON_OVERRUN m) then s1
     else
      (let s2 := ((s1.set pHON (HON_MON_WORST_V m) used.2).set pHON (HON_MON_OVERRUN m) 1).set pHON HON_STAT_OVERRUN 1
       ((s2.irq pHON INT_HON_OVERRUN).err pHON 0xD218 (s2.monLoc m)).planDue 2))
  else if 50 ≤ used.1 then s1.planDue 2
  else s1

/-- The AGM page shows a sample. -/
def State.showMonitors (s : State) (m : Monitors) : State :=
  let s1 := s.each s.honedChans fun s c => s.set pAGM (AGM_RON_R c) (nth m.ron c 4096)
  let s2 := s1.each s1.honedTabs fun s t => s.set pAGM (AGM_Q_AH t) (nth m.charge t 0)
  let s3 := s2.each (List.range 6) fun s p =>
    match nth m.slack p none with
    | some x => (s.set pAGM (AGM_SLACK_SLACK p) x).set pAGM (AGM_SLACK_HOURS p) 0
    | none => s.set pAGM (AGM_SLACK_HOURS p) (satAdd 16 (s.get pAGM (AGM_SLACK_HOURS p)) 1)
  (s3.wrn pAGM AGM_RO (toField 16 m.ro)).wrn pAGM AGM_BTI (m.bti % 2 ^ 16)

/-- An hour of operation has passed: monitors 0-4 are sampled. -/
def execHoningSample (clocks : Nat) (m : Monitors) (s : State) : Host.Outcome State Fault Refusal :=
  .next (
    let s1 := s.advance clocks
    if !s1.operating then s1
    else
      let s2 := (s1.cnt32 pHON HON_HOURS).set pHON HON_STAT_NEXT (s1.get pHON HON_STAT_NEXT - 1)
      let s3 := s2.showMonitors m
      match s3.hon.base with
      | none => s3
      | some b => s3.each [0, 1, 3, 4] fun s k => s.judgeAllowance k (allowUsed k b m))

/-! The temperature ceiling (R556). -/

/-- A threshold judged: exceeded, or undercut by 5 °C for 100 judgements of 1 ms. -/
def hotStep (t : Int) (tj : Int) (h : Bool × Nat) : Bool × Nat :=
  if t < tj then (true, 0)
  else if !h.1 then (false, 0)
  else if tj ≤ t - 5 then (if 100 ≤ h.2 + 1 then (false, 0) else (true, h.2 + 1))
  else (true, 0)

def execTemperatureCeiling (clocks : Nat) (tj : Int) (s : State) : Host.Outcome State Fault Refusal :=
  .next (
    let s1 := s.advance clocks
    if !s1.up.compute then s1
    else
      let hot := (s1.hon.hot.zip [105, 115, 125]).map fun e => hotStep e.2 tj e.1
      let ceil := if (nth hot 2 (false, 0)).1 then 5 else if (nth hot 1 (false, 0)).1 then 3 else if (nth hot 0 (false, 0)).1 then 1 else 0
      let s2 := ({ s1 with hon.hot := hot }).seti pHON HON_CEIL_TJ (clampInt 8 tj)
      (s2.set pHON HON_CEIL_TEMP ceil).ceilings)

end Sys2Proof.Machine
end

