-- ==== Sys2Proof/Machine/Boot.lean ====
section
/-!
DEFINITION. The start of the firmware (spec/16 R473-R476, R479; spec/18 R518): the resident loader with its journal and the base
areas, the choice of the slot, and the release of the application cluster.
-/

namespace Sys2Proof.Machine

/-! The loader's journal (Table 16-7), one copy on each die. -/

abbrev jnlBase : Nat := 0x10000

/-- A journal record: kind (1 START, 2 BEGIN, 3 DONE, 4 END), die, block, source slot. -/
structure JnlRec where
  kind : Nat
  die : Nat
  block : Nat
  slot : Nat
  deriving DecidableEq, Repr

def JnlRec.octets (r : JnlRec) (root : List Nat) : List Nat :=
  let l := [0x48, 0x5A, 0x4A, 0x4C, r.kind, r.die, r.block, r.slot] ++ root.take 16 ++ [0, 0, 0, 0]
  l ++ bytesBE 4 (crc32 l)

def jnlParse (l : List Nat) : Option JnlRec :=
  if slice l 0 4 = [0x48, 0x5A, 0x4A, 0x4C] ∧ beAt l 28 4 = crc32 (l.take 28) then
    some ⟨nth l 4 0, nth l 5 0, nth l 6 0, nth l 7 0⟩
  else none

/-- Records of a journal copy that are not erased: one above the last. -/
def State.jnlNext (s : State) (die : Nat) : Nat :=
  let a := norBase die + jnlBase
  (s.mem.filter fun e => decide (a ≤ e.1) && decide (e.1 < a + 0x10000)).foldl (fun n e => max n ((e.1 - a) / 32 + 1)) 0

/-- The records, in order: copy 0's where it is valid, else copy 1's. -/
def State.journal (s : State) : List JnlRec :=
  (List.range (max (s.jnlNext 0) (s.jnlNext 1))).filterMap fun i =>
    let at_ (die : Nat) := jnlParse (s.bytes (norBase die + jnlBase + 32 * i) 32)
    match at_ 0 with
    | some r => some r
    | none => at_ 1

/-- A record is written to copy 0, then to copy 1. -/
def State.jnlWrite (s : State) (r : JnlRec) : State :=
  let i := max (s.jnlNext 0) (s.jnlNext 1)
  let l := r.octets (mRoot (s.manifest r.slot))
  (s.norProgram 0 (jnlBase + 32 * i) l).norProgram 1 (jnlBase + 32 * i) l

def State.jnlErase (s : State) : State :=
  (s.norEraseBlock 0 jnlBase 0x10000).norEraseBlock 1 jnlBase 0x10000

/-- The slot of an installation that the journal records and that has not ended. -/
def State.installing (s : State) : Option Nat :=
  let j := s.journal
  if j.any fun r => r.kind == 4 then none else (j.find? fun r => r.kind == 1).map (·.slot)

/-! The base areas (R461, R473, R474). -/

/-- A base area of a set: its manifest, then its base components in table order from 0x8000; the rest erased. -/
def State.baseImage (s : State) (slot : Nat) : List Nat :=
  let m := s.manifest slot
  let man := m.take (s.manLen m)
  let comps := ((mCompList m).filter isBase).map (s.compBytes slot m)
  let l := man ++ List.replicate (0x8000 - man.length) 0xFF ++ comps.flatten
  (l ++ List.replicate (0x100000 - l.length) 0xFF).take 0x100000

/-- Block j of base area k is installed under the journal; where NOR fails, the block's bytes are unknown and the block is not
done. -/
def State.installBlock (s : State) (slot k j : Nat) (good : Bool) : State :=
  let off := slotBase + 0x10000 * j
  let s1 := (s.jnlWrite ⟨2, k, j, slot⟩).norEraseBlock k off 0x10000
  if good then (s1.norProgram k off (slice (s1.baseImage slot) (0x10000 * j) 0x10000)).jnlWrite ⟨3, k, j, slot⟩
  else (State.freeBytes (norBase k + off) 0x10000 s1).err (pNOR k) 0xA217 off

/-- The blocks of both areas that the journal does not record as DONE. -/
def State.blocksLeft (s : State) : List (Nat × Nat) :=
  let j := s.journal
  ([0, 1].flatMap fun k => (List.range 16).map fun b => (k, b)).filter fun e =>
    !(j.any fun r => r.kind == 3 && r.die == e.1 && r.block == e.2)

/-- An installation is completed, or goes as far as its first block that fails (R474). -/
def State.install (s : State) (slot : Nat) (good : Bool) : State :=
  if good then (s.each s.blocksLeft fun s e => s.installBlock slot e.1 e.2 true).jnlWrite ⟨4, 0, 0, slot⟩
  else
    match s.blocksLeft with
    | [] => s
    | e :: _ => s.installBlock slot e.1 e.2 false

def execBaseInstall (good : Bool) (s : State) : Host.Outcome State Fault Refusal :=
  .next (
    if s.up.compute && s.upd.base.isNone then
      match s.installing with
      | some slot => s.install slot good
      | none => s
    else s)

/-- The base components of a base area with their place in it. -/
def basePlaces : Nat → List Comp → List (Nat × Comp)
  | _, [] => []
  | off, c :: t => (off, c) :: basePlaces (off + c.len) t

/-- A base copy may be loaded: its manifest verifies, each component matches, SVN_BASE is at or above the fused count (R473). -/
def State.baseGood (s : State) (k : Nat) : Bool :=
  let m := s.manifestAt k 0
  let t := s.manifestTests5 m
  (t == 0 || t == 5) && decide (s.fuseCount 32 ≤ mSvnBase m) &&
    (basePlaces 0x8000 ((mCompList m).filter isBase)).all fun e => sha256 (s.slotBytes k e.1 e.2.len) == e.2.hash

/-- The base copy is loaded: M0 takes the SC firmware's hash, M1 the microcode's. -/
def State.baseLoad (s : State) (k : Nat) : State :=
  let m := s.manifestAt k 0
  let ext (s : State) (r ty : Nat) : State :=
    match (mCompList m).find? fun c => c.ty == ty with
    | some c => s.extend r c.hash
    | none => s
  let s1 := ext (ext s 0 1) 1 2
  { s1 with upd.base := some k, upd.baseVer := mVersion m }

def execLoaderStart (s : State) : Host.Outcome State Fault Refusal :=
  .next (
    if s.up.compute && s.upd.base.isNone then
      let s1 := if s.journal.any fun r => r.kind == 4 then s.jnlErase
        else match s.installing with
          | some slot => s.install slot true
          | none => s
      if s1.baseGood 0 then s1.baseLoad 0 else (s1.err pSEC 0xB225 0).baseLoad 1
    else s)

/-! The choice of the slot (R476). -/

/-- What a start finds in a slot: nothing it can boot, or a slot on trial, or a confirmed one. -/
inductive SlotFound where
  | none
  | trial (k : Nat)
  | confirmed (k : Nat)
  deriving DecidableEq, Repr

def State.slotFound (s : State) : SlotFound :=
  match [0, 1].find? fun k => s.slotState k == sTRIAL with
  | some k => .trial k
  | Option.none =>
    let c (k : Nat) : Bool := s.slotState k == sCONFIRMED
    if c 0 && (!c 1 || decide ((s.slotInfo 1).count ≤ (s.slotInfo 0).count)) then .confirmed 0
    else if c 1 then .confirmed 1
    else .none

/-- The manifest verifies under tests 1-5 and every component matches its hash. -/
def State.slotLoads (s : State) (k : Nat) : Bool :=
  let m := s.manifest k
  s.manifestTests5 m == 0 && (mCompList m).all fun c => s.compOk k m c

/-- The set's base is to be installed before it is booted (R474). -/
def State.wantsInstall (s : State) (k : Nat) : Bool :=
  let m := s.manifest k
  mHasBase m && decide (s.upd.baseVer < mVersion m) && s.manifestReason m == 0

/-- A slot is rejected at start, with its code. -/
def State.slotRejected (s : State) (k code : Nat) : State := (s.slotTo k sREJECTED).err pSEC code k

/-- The settings of a format are loaded, M3 takes their hash, and the update service opens MB_31 (R479, R481). -/
def State.settingsLoad (s : State) (fmt : Nat) : State :=
  let s1 := (s.setMend 0).setMend 1
  let l := s1.setLoaded fmt
  let s2 := { s1 with upd.settings := l.map fun r : SetRec => (r.key, r.data), upd.chosen := true }
  let s3 := s2.extend 3 (sha256 (l.flatMap fun r : SetRec => r.octets s2.kSto))
  (s3.set (pMBC 31) MB_CFG_RX_AGENT 0x20).wrn (pMBC 31) MB_ALLOW (s3.settingVal 0xFF03)

/-- The slot is booted. -/
def State.slotBoot (s : State) (k : Nat) : State :=
  ({ s with upd.run := some k }).settingsLoad (mFmt (s.manifest k))

/-- The choice; each rejection leaves one slot less. -/
def slotPick : Nat → State → State
  | 0, s => s
  | fuel + 1, s =>
    match s.slotFound with
    | .trial k =>
      let i := s.slotInfo k
      if s.wantsInstall k then (s.jnlWrite ⟨1, 0, 0, k⟩).computeReset 7
      else if s.manifestTests5 (s.manifest k) ≠ 0 ∨ i.tries = 0 then slotPick fuel (s.slotRejected k 0xB224)
      else
        let s1 := s.slotRecord k sTRIAL (i.tries - 1) i.count
        if s1.slotLoads k then s1.slotBoot k else slotPick fuel (s1.slotRejected k 0xB224)
    | .confirmed k =>
      if s.slotLoads k then (s.confirmRest k).slotBoot k else slotPick fuel (s.slotRejected k 0xB329)
    | .none => (s.settingsLoad 0).err pSEC 0xB42A 0

def execSlotChoose (s : State) : Host.Outcome State Fault Refusal :=
  .next (
    if s.scUp && s.upd.base.isSome && !s.upd.chosen then
      let s1 := s.each [0, 1] fun s k => if s.slotState k = sRECEIVED then (s.slotCompleted k).1 else s
      slotPick 3 s1
    else s)

/-! The cluster (R518, R519). -/

/-- The application image is loaded into DRAM; the first time since the start, M2 takes the payload's hash. -/
def State.appLoad (s : State) (k : Nat) : State :=
  let m := s.manifest k
  let s1 := s.each ((mCompList m).filter fun c => c.ty == 3) fun s c => (s.ramWrite 0 false c.load (s.compBytes k m c)).1
  if (s1.regBytes pATT (fun j => ATT_M (16 + j)) 8).all (fun b => b == 0) then s1.extend 2 (mPayloadHash m) else s1

/-- The application cluster is released once DRAM is trained: at a start whose source selects RUN, the module enters RUN; after a
request for RUN, the cluster follows. -/
def execClusterRelease (clocks : Nat) (s : State) : Host.Outcome State Fault Refusal :=
  .next (
    let s1 := s.advance clocks
    match s1.upd.run with
    | none => s1
    | some k =>
      if s1.scUp && !s1.up.cluster && !s1.slp.starting && s1.on pDMC DMC_STAT_TRAINED then
        (if s1.mode == mPARTIAL && s1.slp.goRun then
          ({ s1.appLoad k with up.cluster := true, slp.goRun := false }).atOp3.takePairing.toRun
         else if s1.mode == mRUN || s1.mode == mDEGRADED then ({ s1.appLoad k with up.cluster := true }).atOp3.takePairing
         else s1)
      else s1)

end Sys2Proof.Machine
end

