-- ==== Sys2Proof/Machine/Caliper.lean ====
section
/-!
DEFINITION. The Caliper (spec/11 R338-R366) as far as no access leaves a pair: signatures, compares, mismatches, Caliper faults
and their policies, the restart, errors in its storage and their injection.
-/

namespace Sys2Proof.Machine

/-- The leading core of a pair (R338). -/
def leadOf (k : Nat) : Nat := 2 * k

/-- The pair runs under the Caliper, compared or alone. -/
def State.pairRuns (s : State) (k : Nat) : Bool :=
  s.on (pCORE (leadOf k)) CORE_STAT_RUNNING && (s.pairState k == cCOMPARED || s.pairState k == cUNCOMPARED)

def State.modCal (s : State) (k : Nat) (f : CalState → CalState) : State := s.setCal k (f (s.calOf k))

/-! Signatures (R344). -/

/-- The 16 bytes of a record. -/
def CalRecord.octets : CalRecord → List Nat
  | .reg cls num value => [1, cls % 256] ++ bytesLE 2 num ++ [0, 0, 0, 0] ++ bytesLE 8 value
  | .store mask word data => [2, mask % 256] ++ bytesLE 5 word ++ [0] ++ bytesLE 8 data

def signature (sig : Nat) (l : List CalRecord) : Nat := crcMsb 64 0x42F0E1EBA9EA3693 sig (l.flatMap CalRecord.octets)

/-- The records of a compare are folded. -/
def State.fold (s : State) (k : Nat) (c : CompareIn) : State :=
  let s1 := s.modCal k fun x =>
    { x with sigLead := signature x.sigLead c.lead, sigTrail := signature x.sigTrail c.trail, retired := x.retired + c.retired
             irqs := x.irqs.filter fun e => decide (x.retired + c.retired < e.2) }
  if s1.pairState k = cCOMPARED then
    s1.stat (pCAL k) CAL_STAT_TRAIL_MAX (max (s1.get (pCAL k) CAL_STAT_TRAIL_MAX) (min c.distance 2048))
  else s1

/-- The open entries, the queue and the delay registers are discarded, with the triggers of the interval (R351, R356). -/
def State.calDiscard (s : State) (k : Nat) : State :=
  (s.modCal k fun x => { x with held := [], due := [], closing := none, irqs := [] }).set (pCAL k) CAL_WH_USED 0

/-! Caliper faults (R363). -/

/-- The policy of Table 11-7. -/
def State.calPolicy (s : State) (k : Nat) : State :=
  let p := pCAL k
  let lead := leadOf k
  match s.get p CAL_CTRL_CF_POL with
  | 0 => s.computeReset 4
  | 1 => ((s.setPair k cUNCOMPARED).set (pCORE (lead + 1)) CORE_STAT_RUNNING 0).err p 0x8215 0
  | 2 =>
    let s1 := (((s.setPair k cHALTED).set (pCORE lead) CORE_STAT_RUNNING 0).set (pCORE (lead + 1)) CORE_STAT_RUNNING 0).calDiscard k
    let s2 := s1.err p 0x8216 0
    if 4 ≤ k ∧ s2.role = rHEADSTOCK then s2.nameBoundary false else s2
  | _ => s

/-- A Caliper fault: CFAULT in both copies (R364), the interrupt, the policy. -/
def State.caliperFault (s : State) (k : Nat) : State :=
  let s1 := s.set pCALC ⟨CALC_STAT, k, 1⟩ 1
  let s2 := { s1 with cfaultA := if s1.up.alwaysOn then putFlag s1.cfaultA k true else s1.cfaultA, cfaultP := putFlag s1.cfaultP k true }
  ((s2.irq (pCAL k) INT_CAL_CFAULT).irq pCALC INT_CALC_CFAULT).calPolicy k

/-! Mismatches (R355, R356, R358). -/

/-- Clocks of RETRY_WIN × 10 ms. -/
def State.retryWin (s : State) (k : Nat) : Nat := s.get (pCAL k) CAL_CTRL_RETRY_WIN * 5000000

def State.mismatch (s : State) (k kind : Nat) (injected : Bool := false) : State :=
  let p := pCAL k
  let x := s.calOf k
  let now := s.tb.clocks
  let recent := (x.recent.filter fun c => decide (now < c + s.retryWin k)) ++ [now]
  let s1 := (s.set p CAL_LAST_KIND kind).irq p INT_CAL_MISMATCH
  let s2 := if kind = 1 then
      (let d := x.sigLead ^^^ x.sigTrail
       (s1.wrn p CAL_LAST_SIG_L (d % 2 ^ 32)).wrn p CAL_LAST_SIG_H (d / 2 ^ 32))
    else s1
  let s3 := (s2.wrn p CAL_LAST_TS_S (stampSec s.nowQ)).wrn p CAL_LAST_TS_NS (stampNs s.nowQ)
  let s4 := s3.cnt p CAL_CNT_MISM_MISM
  let s6 := ((s4.calDiscard k).modCal k fun y => { y with recent := recent, since := now }).setPair k cRESTART
  let s7 := s6.err p 0x8112 (x.retired % 2 ^ 32) injected
  if s.get p CAL_CTRL_RETRY_MAX ≤ recent.length then (s7.err p 0x841B 0).caliperFault k else s7

/-- An error is injected: ARM clears, DONE is set (spec/02 R47). -/
def State.injDone (s : State) (p : Nat) : State := (s.set p ERR_INJ_ARM 0).set p ERR_INJ_DONE 1

def State.injArmed (s : State) (p point : Nat) : Bool := s.on p ERR_INJ_ARM && s.get p ERR_INJ_POINT == point

/-- Both comparator copies judge a compare (R345, R360): the state, and whether the pair goes on. An uncompared pair is not
judged. -/
def State.compare (s : State) (k : Nat) (c : CompareIn) : State × Bool :=
  let s1 := s.fold k c
  let p := pCAL k
  if s1.pairState k ≠ cCOMPARED then (s1, true)
  else if s1.injArmed p 2 then (((s1.injDone p).err p 0x8419 0 true).caliperFault k, false)
  else if c.disagree then ((s1.err p 0x8419 0).caliperFault k, false)
  else if s1.injArmed p 1 then ((s1.injDone p).mismatch k 1 true, false)
  else if (s1.calOf k).sigLead ≠ (s1.calOf k).sigTrail then (s1.mismatch k 1, false)
  else (s1, true)

def execComparePoint (clocks : Nat) (pair : Fin 6) (c : CompareIn) (waiting : Bool) (s : State) :
    Host.Outcome State Fault Refusal :=
  .next (
    let s1 := s.advance clocks
    let k := pair.val
    if !s1.pairRuns k then s1
    else
      match s1.compare k c with
      | (s2, true) => if waiting then s2.set (pCORE (leadOf k)) CORE_STAT_WAITING 1 else s2
      | (s2, false) => s2)

/-- The leading core takes an interrupt at its count N, and the trailing core gets the same line after its instruction N (R343). -/
def execPairInterrupt (pair : Fin 6) (n : Nat) (s : State) : Host.Outcome State Fault Refusal :=
  .next (
    let k := pair.val
    match (s.core (leadOf k)).delivered.head? with
    | some l => if s.pairRuns k && s.pairState k == cCOMPARED then s.modCal k fun x => { x with irqs := x.irqs ++ [(l, n)] } else s
    | none => s)

/-- The trailing core has not reached a compare point in time. -/
def execTrailTimeout (clocks : Nat) (pair : Fin 6) (s : State) : Host.Outcome State Fault Refusal :=
  .next (
    let s1 := s.advance clocks
    if s1.pairRuns pair.val && s1.pairState pair.val == cCOMPARED then s1.mismatch pair.val 3 else s1)

/-- No instruction has retired while neither core waits. -/
def execPairStallTimeout (clocks : Nat) (pair : Fin 6) (s : State) : Host.Outcome State Fault Refusal :=
  .next (
    let s1 := s.advance clocks
    let k := pair.val
    if s1.pairRuns k && s1.pairState k == cCOMPARED && !s1.on (pCORE (leadOf k)) CORE_STAT_WAITING then s1.mismatch k 4 else s1)

/-! Checkpoint slots (R354). -/

/-- The slot that is active, in checkpoint SRAM. -/
def slotAddr (k slot : Nat) : Nat := 0x11000000 + k * 0x40000 + slot * 0x8000

/-- The pair resumes at the active slot (R356); a slot that cannot be corrected, now or when it was scrubbed, is a Caliper fault (R358,
spec/14 R427). -/
def execRestartDone (clocks : Nat) (pair : Fin 6) (slot : SlotCheck) (s : State) : Host.Outcome State Fault Refusal :=
  .next (
    let s1 := s.advance clocks
    let k := pair.val
    let p := pCAL k
    if s1.pairState k ≠ cRESTART || !s1.up.compute then s1
    else
      if slot = .bad ∨ s1.slotBad.contains k then (s1.err p 0x8318 0).caliperFault k
      else
        let s2 := if slot = .corrected then s1.err p 0x8113 0 else s1
        let a := slotAddr k (s2.get p CAL_STAT_SLOT)
        let t := min ((s2.tb.clocks - (s2.calOf k).since) / 5) 0xFFFF
        let s3 := (s2.stat p CAL_RST_TIME_LAST t).stat p CAL_RST_TIME_MAX (max t (s2.get p CAL_RST_TIME_MAX))
        let s4 := s3.modCal k fun x =>
          { x with sigLead := 2 ^ 64 - 1, sigTrail := 2 ^ 64 - 1, retired := s3.memLE (a + 8) 8, seq := s3.memLE a 8 }
        (s4.setPair k cCOMPARED).irq p INT_CAL_RESTART_DONE)

/-! The comparator test and storage errors (R361, R362). -/

def execComparatorTest (pair : Fin 6) (wrong : Bool) (s : State) : Host.Outcome State Fault Refusal :=
  .next (
    let k := pair.val
    if s.pairState k ≠ cCOMPARED || !s.up.compute then s
    else if wrong then
      (((s.cnt pCALC CALC_TEST_FAIL).irq pCALC INT_CALC_TEST_FAIL).err (pCAL k) 0x841A 0).caliperFault k
    else s.cntWrap pCALC CALC_TEST_PASS)

/-- An error in the delay registers, the queue or the write-hold buffer, with the entry's number. -/
def State.calStorage (s : State) (k entry : Nat) (correctable injected : Bool) : State :=
  if correctable then s.err (pCAL k) 0x8111 entry injected
  else
    let s1 := s.err (pCAL k) 0x8317 entry injected
    if s1.pairState k = cCOMPARED then s1.caliperFault k else s1

def execCaliperStorageError (pair : Fin 6) (entry : Nat) (correctable : Bool) (s : State) : Host.Outcome State Fault Refusal :=
  .next (if s.pairRuns pair.val then s.calStorage pair.val entry correctable false else s)

/-- ERR_INJ of a CAL page: points 3 to 5 are errors in a delay register, which act at once; DEC-TED corrects the first two. -/
def State.calInject (s : State) (k : Nat) : State :=
  let p := pCAL k
  if !s.pairRuns k then s
  else if s.injArmed p 3 || s.injArmed p 4 then (s.injDone p).calStorage k 0 true true
  else if s.injArmed p 5 then (s.injDone p).calStorage k 0 false true
  else s

/-! Registers. -/

/-- PERIOD is 10 to 100 on the AP pages (Table 11-12). -/
def calCkptPre (k : Nat) (v : Word) (_ : State) : Option Nat :=
  let n := bitsOf v.toNat 0 7
  if k < 4 ∧ (n < 10 ∨ 100 < n) then some 0x0B else none

/-- On RP pages PERIOD reads 0 (Table 11-12). -/
def calCkptEff (k : Nat) (v : Word) (s : State) : State :=
  let s1 := s.plain (pCAL k) CAL_CKPT v
  if 4 ≤ k then s1.set (pCAL k) CAL_CKPT_PERIOD 0 else s1

/-- Counters, peaks and CAL_RST_TIME are cleared (Table 11-11). DESIGN CHOICE, log entry 114: with CAL_CNT_MISM.WIN the mismatches that
R358 counts are forgotten too. -/
def calCntClrEff (k : Nat) (v : Word) (s : State) : State :=
  if v.getLsbD 0 then
    let p := pCAL k
    let s1 := [CAL_CNT_CKPT, CAL_CNT_EARLY, CAL_CNT_MISM, CAL_RST_TIME].foldl (fun s o => s.wr p o 0) s
    ((s1.set p CAL_WH_PEAK (s1.get p CAL_WH_USED)).set p CAL_STAT_TRAIL_MAX 0).modCal k fun x => { x with recent := [] }
  else s

def execCalCntClr (a : Access) (pair : Fin 6) (v : Word) (s : State) : Host.Outcome State Fault Refusal :=
  .next (s.regWrite a (pCAL pair.val) CAL_CNT_CLR v noCause (calCntClrEff pair.val v))

end Sys2Proof.Machine
end

