-- ==== Sys2Proof/Machine/Gateway.lean ====
section
/-!
DEFINITION. The gateway engines (spec/06 R215-R225): routes, destinations on CAN and LIN, the IEEE 1722 mapping, capsules.
-/

namespace Sys2Proof.Machine

/-! Fields of the tables of Table 06-12. -/
abbrev gVALID : TFld := ⟨0, 0, 1⟩
abbrev gKIND : TFld := ⟨0, 1, 2⟩
abbrev gSRC : TFld := ⟨0, 4, 5⟩
abbrev gFMT : TFld := ⟨0, 9, 2⟩
abbrev gIDE : TFld := ⟨0, 11, 1⟩
abbrev gLATEST : TFld := ⟨0, 12, 1⟩
abbrev gID : TFld := ⟨1, 0, 29⟩
abbrev gMASK : TFld := ⟨2, 0, 29⟩
abbrev gSTREAM : TFld := ⟨3, 20, 6⟩
abbrev gSTREAM_EN : TFld := ⟨3, 26, 1⟩
abbrev gLIN_ENTRY : TFld := ⟨4, 0, 6⟩
abbrev gDEADLINE : TFld := ⟨4, 16, 16⟩
abbrev tVID : TFld := ⟨2, 0, 12⟩
abbrev tPCP : TFld := ⟨2, 12, 3⟩
abbrev tTSCF : TFld := ⟨2, 15, 1⟩
abbrev tBRIEF : TFld := ⟨2, 16, 1⟩
abbrev tMTU : TFld := ⟨2, 20, 12⟩
abbrev tMAX_MSGS : TFld := ⟨5, 0, 8⟩
abbrev tMAX_WAIT : TFld := ⟨5, 8, 16⟩

/-- Where a frame comes from, as routes name it (Table 06-12): kind, number, and whether it is a LIN frame. -/
structure GwSrc where
  kind : Nat
  num : Nat
  lin : Bool
  deriving DecidableEq, Repr

/-- A route matches (R215); the format of a LIN frame is not compared. -/
def State.routeMatches (s : State) (src : GwSrc) (f : BusFrame) (r : Nat) : Bool :=
  s.tfOn tROUTE r gVALID && !s.badEntry tROUTE r && s.tf tROUTE r gKIND == src.kind && s.tf tROUTE r gSRC == src.num
    && (src.lin || ((s.tf tROUTE r gFMT == 3 || s.tf tROUTE r gFMT == f.fmt) && s.tfOn tROUTE r gIDE == f.ide))
    && ((f.ident ^^^ s.tf tROUTE r gID) &&& s.tf tROUTE r gMASK) == 0

/-- The lowest matching route. -/
def State.routeOf (s : State) (src : GwSrc) (f : BusFrame) : Option Nat :=
  minBy id ((s.tabListed tROUTE).filter fun r => s.routeMatches src f r)

/-! IEEE 1722 messages (Table 06-6, Table 06-7). -/

/-- Octets padded to a whole quadlet. -/
def padQuad (l : List Nat) : List Nat := l ++ List.replicate ((4 - l.length % 4) % 4) 0

def padOf (l : List Nat) : Nat := (4 - l.length % 4) % 4

/-- An ACF message of a type: the header names its length in quadlets. -/
def acfMessage (type : Nat) (rest : List Nat) : List Nat :=
  bytesBE 2 (type * 512 + (rest.length + 2) / 4) ++ rest

/-- gPTP nanoseconds of a compact timestamp. -/
def stampNanos (sec ns : Nat) : Nat := sec * 1000000000 + ns / 4

/-- The identifier as an ACF CAN message carries it: base identifiers in the low 11 bits. -/
def acfIdent (f : BusFrame) : Nat := if f.ide then f.ident else f.ident / 2 ^ 18

/-- The ACF message of a bus frame with its bus ID. -/
def acfOf (lin brief : Bool) (bus : Nat) (f : BusFrame) (sec ns : Nat) : List Nat :=
  let t := bytesBE 8 (stampNanos sec ns)
  if lin then
    acfMessage 0x03 ([padOf f.data * 64 + 0x20 + bus % 32, f.ident % 64] ++ t ++ padQuad f.data)
  else if f.fmt = 2 then
    acfMessage 0x78 ([0x80 + f.sec.toNat * 64 + f.rtr.toNat * 32 + bus % 32, f.sdt % 256] ++ t
      ++ bytesBE 2 (f.ident / 2 ^ 18) ++ [f.vcid % 256, 0] ++ bytesBE 4 f.af ++ bytesBE 2 (f.data.length - 1) ++ [0, 0]
      ++ padQuad f.data)
  else
    let flags := padOf f.data * 64 + f.rtr.toNat * 16 + f.ide.toNat * 8 + f.brs.toNat * 4 + f.fmt * 2
    if brief then acfMessage 0x02 ([flags, bus % 32] ++ bytesBE 4 (acfIdent f) ++ padQuad f.data)
    else acfMessage 0x01 ([flags + 0x20, bus % 32] ++ t ++ bytesBE 4 (acfIdent f) ++ padQuad f.data)

/-- The bus ID of a controller or channel (Table 06-11, GWC_BUSMAP). -/
def State.busId (s : State) (lin : Bool) (n : Nat) : Nat :=
  let w := (if lin then 6 else 0) + n / 2
  if n % 2 = 0 then s.get pGWC (GWC_BUSMAP_LO w) else s.get pGWC (GWC_BUSMAP_HI w)

/-! Streams towards Ethernet (R222). -/

def State.batchOf (s : State) (st : Nat) : List (List Nat) := sget [] st s.gw.batch

def State.setBatch (s : State) (st : Nat) (l : List (List Nat)) : State :=
  { s with gw.batch := sput [] st l s.gw.batch }

/-- Octets of the AVTP header before the messages: NTSCF or TSCF. -/
def State.avtpHeader (s : State) (st : Nat) : Nat := if s.tfOn tSTREAM st tTSCF then 24 else 12

/-- The collected frame of a stream (R221): header with the stream's identifier and sequence number, then the messages. -/
def State.avtpBody (s : State) (st : Nat) (data : List Nat) : List Nat :=
  let seq := sget 0 st s.gw.txSeq
  let id := bytesBE 4 (s.tget tSTREAM st 4) ++ bytesBE 4 (s.tget tSTREAM st 3)
  if s.tfOn tSTREAM st tTSCF then
    [0x05, 0x80, seq, 0] ++ id ++ List.replicate 8 0 ++ bytesBE 2 data.length ++ [0, 0] ++ data
  else [0x82, 0x80 + data.length / 256 % 8, data.length % 256, seq] ++ id ++ data

/-- The collected frame enters the switch on port GW and is classified there. -/
def State.batchSend (s : State) (st : Nat) : State :=
  match s.batchOf st with
  | [] => s
  | ms =>
    let body := bytesBE 2 0x22F0 ++ s.avtpBody st ms.flatten
    let octets := buildFrame (s.entryAddr tSTREAM st 0) Config.gwAddr.toNat
      (some (s.tf tSTREAM st tPCP, 0, s.tf tSTREAM st tVID)) body
    let s1 := { s.setBatch st [] with gw.txSeq := sput 0 st ((sget 0 st s.gw.txSeq + 1) % 256) s.gw.txSeq }
    if s1.switchUp then s1.receive 32 { octets := padFrame octets, fcsOk := true, asmOk := true, starting := [], age := 0 } else s1

/-- A message is added to its stream (R222). -/
def State.batchAdd (s : State) (st : Nat) (m : List Nat) : State :=
  let held := (s.batchOf st).flatten.length
  let s1 := if s.tf tSTREAM st tMTU < s.avtpHeader st + held + m.length then s.batchSend st else s
  let s2 := s1.setBatch st (s1.batchOf st ++ [m])
  let n := (s2.batchOf st).length
  if s2.tf tSTREAM st tMAX_WAIT = 0 ∨ (s2.tf tSTREAM st tMAX_MSGS ≠ 0 ∧ s2.tf tSTREAM st tMAX_MSGS ≤ n) then
    s2.batchSend st
  else s2

def execEthernetBatchSend (clocks : Nat) (stream : Fin 64) (s : State) : Host.Outcome State Fault Refusal :=
  .next ((s.advance clocks).batchSend stream.val)

/-! Destinations. -/

/-- A frame for a CAN destination waits in the engine's queue for the controller (R217); LATEST_ONLY replaces the route's
older frame, counted (R219). -/
def State.gwToCan (s : State) (e r n : Nat) (f : BusFrame) (sec ns : Nat) : State :=
  let old := (s.canSt n).gwWait
  let stale := s.tfOn tROUTE r gLATEST && old.any fun w => w.route == r && w.engine == e
  let s1 := if stale then s.cnt32 (pPEG e) PEG_CNT_OVF else s
  s1.canMod n fun c =>
    { c with gwWait := (if stale then c.gwWait.filter fun w => !(w.route == r && w.engine == e) else c.gwWait)
        ++ [⟨e, r, f, sec, ns⟩] }

/-- A frame for a LIN destination updates the entry the route names (R217). -/
def State.gwToLin (s : State) (r ch : Nat) (f : BusFrame) : State :=
  let k := s.tf tROUTE r gLIN_ENTRY
  let p := pLNC ch
  let d := f.data.take 8
  let w := d ++ List.replicate (8 - d.length) 0
  let s1 := (s.wrn p (LN_RSP_D0 k) (ofBytesLE (w.take 4))).wrn p (LN_RSP_D1 k) (ofBytesLE (w.drop 4))
  (s1.linFresh ch k).set p (LN_RSP_LEN k) d.length

/-- The frame that a CAN destination sends: a LIN frame becomes a classical one with its identifier. -/
def canForm (lin : Bool) (f : BusFrame) : BusFrame := if lin then { f with ident := f.ident * 2 ^ 18 } else f

/-- A frame goes to every destination of its route. -/
def State.gwForward (s : State) (e r : Nat) (lin : Bool) (bus : Nat) (f : BusFrame) (sec ns : Nat) : State :=
  let dests := s.tget tROUTE r 3
  let s1 := (s.tcnt pGWC tROUTE r 5).cnt32 (pPEG e) PEG_CNT_OUT
  let s2 := s1.each (setBits 12 dests) fun s n => s.gwToCan e r n (canForm lin f) sec ns
  let s3 := s2.each (setBits 8 (dests / 2 ^ 12)) fun s ch => s.gwToLin r ch f
  if s3.tfOn tROUTE r gSTREAM_EN then
    let st := s3.tf tROUTE r gSTREAM
    s3.batchAdd st (acfOf lin (s3.tfOn tSTREAM st tBRIEF) bus f sec ns)
  else s3

/-- A frame is past its route's deadline: more than DEADLINE µs since its receive timestamp (R218). -/
def State.pastDeadline (s : State) (route sec ns : Nat) : Bool :=
  let d := s.tf tROUTE route gDEADLINE
  d != 0 && decide (d * 4000 < s.ageQ sec ns)

/-- A frame is routed, or dropped without a route (R215), or past its deadline for every destination (R218). -/
def State.gwRoute (s : State) (e : Nat) (src : GwSrc) (bus : Nat) (f : BusFrame) (sec ns : Nat) : State :=
  match s.routeOf src f with
  | some r => if s.pastDeadline r sec ns then s.gwLate r else s.gwForward e r src.lin bus f sec ns
  | none => (s.cnt32 pGWC GWC_CNT_NOROUTE).errLimited 0x900 clocksPerMs pGWC 0x3011 0

/-- An engine runs (Table 06-11). -/
def State.engineOn (s : State) (e : Nat) : Bool :=
  s.pageUp (pPEG e) && !s.coresHeld && (s.rd pGWC GWC_CTRL).toNat.testBit e

/-- The head of an engine's queue is taken; its highest latency is kept. -/
def State.gwTake (s : State) (e sec ns : Nat) : State :=
  let q := (nth s.gwIn e []).tail
  let s1 := ({ s with gwIn := setNth s.gwIn e q }).set (pPEG e) PEG_STAT_QUEUE q.length
  if s1.frozen (pPEG e) then s1
  else s1.set (pPEG e) PEG_STAT_LAT (max (s1.get (pPEG e) PEG_STAT_LAT) (min 0xFFFF (s1.ageQ sec ns / 4000)))

def execGatewayFrameFromBus (clocks : Nat) (e : Fin 4) (s : State) : Host.Outcome State Fault Refusal :=
  .next (
    let s1 := s.advance clocks
    match nth s1.gwIn e.val [] with
    | .bus lin n f sec ns :: _ =>
      if s1.engineOn e.val then
        let s2 := s1.gwTake e.val sec ns
        s2.gwRoute e.val ⟨lin.toNat, n, lin⟩ (s2.busId lin n) f sec ns
      else s1
    | _ => s1)

/-! Capsules (R224, R225). -/

/-- The words of a capsule: four octets each, the first the lowest. -/
def capWords (l : List Nat) : List Nat :=
  (List.range 16).map fun k => ofBytesLE ((l.drop (4 * k)).take 4)

/-- A capsule is posted to the channel of its pair as a message of the engine. -/
def State.capPost (s : State) (e pair : Nat) (l : List Nat) : State × Nat :=
  let ch := if pair = 0 then s.get pGWC GWC_CAP_MB_RP0 else s.get pGWC GWC_CAP_MB_RP1
  s.mailSend (0x30 + e) (s.get pGWC OWNER_WORLD) (s.get pGWC OWNER_VM) ch ((l.length + 3) / 4) (capWords l)

def State.capWaits (s : State) (e : Nat) : List CapWait := nth s.gw.cap e []

def State.setCapWaits (s : State) (e : Nat) (l : List CapWait) : State := { s with gw.cap := setNth s.gw.cap e l }

/-- A capsule arrives: too long it is dropped and counted; refused, or behind another of its pair, it waits. -/
def State.capArrive (s : State) (e pair : Nat) (l : List Nat) : State :=
  if 64 < l.length then s.cnt32 pGWC GWC_CNT_CAP_DROP
  else if (s.capWaits e).any fun w => w.pair == pair then s.setCapWaits e (s.capWaits e ++ [⟨pair, l, 20⟩])
  else
    match s.capPost e pair l with
    | (s1, 0) => s1
    | (s1, _) => s1.setCapWaits e (s1.capWaits e ++ [⟨pair, l, 20⟩])

/-- One more try of the capsules that wait, oldest first; `kept` are those that still wait. -/
def State.capRetry (e : Nat) : List CapWait → List CapWait → State → State
  | [], kept, s => s.setCapWaits e kept
  | w :: ws, kept, s =>
    let behind := kept.any fun k => k.pair == w.pair
    let (s1, r) := if behind then (s, 2) else s.capPost e w.pair w.octets
    if r = 0 then State.capRetry e ws kept s1
    else if w.left ≤ 1 then
      State.capRetry e ws kept ((s1.cnt32 pGWC GWC_CNT_CAP_DROP).err (pPEG e) 0x321E 0)
    else State.capRetry e ws (kept ++ [{ w with left := w.left - 1 }]) s1

def execCapsulePostRetry (e : Fin 4) (s : State) : Host.Outcome State Fault Refusal :=
  .next (if s.engineOn e.val then State.capRetry e.val (s.capWaits e.val) [] s else s)

/-- A reply of a real-time pair leaves on the reply stream (R225). -/
def execCapsuleReply (clocks : Nat) (s : State) : Host.Outcome State Fault Refusal :=
  .next (
    let s1 := s.advance clocks
    let ch := s1.get pGWC GWC_CAP_MB_REPLY
    let e := s1.get pGWC GWC_CAP_REPLY_ENG
    let sender := s1.get (pMBC ch) MB_STAMP_V % 256
    if s1.engineOn e && s1.on (pMBC ch) MB_STAT_FULL && s1.get (pMBC ch) MB_CFG_RX_AGENT == 0x30 + e
        && (sender == 0x10 || sender == 0x12) then
      let words := (List.range (s1.get (pMBC ch) MB_STAT_LEN)).map fun k => (s1.rd (pMBC ch) (MB_DATA k)).toNat
      let octets := (words.map (bytesLE 4)).flatten
      ((takeEff ch s1).cnt32 (pPEG e) PEG_CNT_OUT).batchAdd (s1.get pGWC GWC_CAP_REPLY_STR)
        (acfMessage 0x79 ([(sender - 0x10) / 2, 0] ++ octets))
    else s1)

/-! Messages from Ethernet (R221). -/

/-- One ACF message, whole with its header. -/
def State.acfReceive (s : State) (e : Nat) (m : List Nat) (sec ns : Nat) : State :=
  let type := be m 0 2 / 512
  let b2 := nth m 2 0
  let b3 := nth m 3 0
  let cut (o : Nat) : List Nat := (m.take (m.length - b2 / 64)).drop o
  let canF (o : Nat) (idw : Nat) : BusFrame :=
    { fmt := bitsOf b2 1 1, ide := b2.testBit 3, rtr := b2.testBit 4, brs := b2.testBit 2
      ident := if b2.testBit 3 then idw % 2 ^ 29 else idw % 2 ^ 11 * 2 ^ 18
      data := cut o, sdt := 0, vcid := 0, sec := false, af := 0 }
  if type = 0x01 then s.gwRoute e ⟨2, b3 % 32, false⟩ (b3 % 32) (canF 16 (be m 12 4)) sec ns
  else if type = 0x02 then s.gwRoute e ⟨2, b3 % 32, false⟩ (b3 % 32) (canF 8 (be m 4 4)) sec ns
  else if type = 0x03 then
    s.gwRoute e ⟨2, b2 % 32, true⟩ (b2 % 32)
      { fmt := 0, ide := false, rtr := false, brs := false, ident := b3 % 64, data := cut 12, sdt := 0, vcid := 0
        sec := false, af := 0 } sec ns
  else if type = 0x78 then
    s.gwRoute e ⟨2, b2 % 32, false⟩ (b2 % 32)
      { fmt := 2, ide := false, rtr := b2.testBit 5, brs := false, ident := be m 12 2 % 2 ^ 11 * 2 ^ 18
        data := (m.drop 24).take (be m 20 2 % 2 ^ 11 + 1), sdt := b3, vcid := nth m 14 0, sec := b2.testBit 6
        af := be m 16 4 } sec ns
  else if type = 0x79 then s.capArrive e (b2 % 2) (m.drop 4)
  else (s.cnt32 pGWC GWC_CNT_ACF_UNK).errLimited 0x901 clocksPerS pGWC 0x3018 0

/-- The messages of a frame in turn. -/
def State.acfAll (e sec ns : Nat) : Nat → List Nat → State → State
  | 0, _, s => s
  | fuel + 1, l, s =>
    let n := 4 * (be l 0 2 % 512)
    if l.length < 4 ∨ n = 0 ∨ l.length < n then s
    else State.acfAll e sec ns fuel (l.drop n) (s.acfReceive e (l.take n) sec ns)

/-- The stream entry whose stream identifier a received frame carries. -/
def State.streamOf (s : State) (id : Nat) : Option Nat :=
  (s.tabListed tSTREAM).find? fun st => s.tget tSTREAM st 3 + s.tget tSTREAM st 4 * 2 ^ 32 == id

/-- A gap in the sequence numbers of a stream is counted in its entry (word 6). -/
def State.seqCheck (s : State) (id seq : Nat) : State :=
  match s.streamOf id with
  | none => s
  | some st =>
    let want := sget 0 st s.gw.rxSeq
    let s1 := if want ≠ 0 ∧ want - 1 ≠ seq then s.tcnt pGWC tSTREAM st 6 else s
    { s1 with gw.rxSeq := sput 0 st ((seq + 1) % 256 + 1) s1.gw.rxSeq }

/-- A 1722 frame: NTSCF or TSCF (R221); other subtypes and EtherTypes are not supported and do nothing. -/
def State.avtpReceive (s : State) (e : Nat) (octets : List Nat) (sec ns : Nat) : State :=
  let b := (parseFrame octets).body
  let x := b.drop 2
  if be b 0 2 ≠ 0x22F0 then s
  else if nth x 0 0 = 0x82 then
    State.acfAll e sec ns 512 ((x.drop 12).take (be x 1 2 % 2048)) (s.seqCheck (be x 4 8) (nth x 3 0))
  else if nth x 0 0 = 0x05 then
    State.acfAll e sec ns 512 ((x.drop 24).take (be x 20 2)) (s.seqCheck (be x 4 8) (nth x 2 0))
  else s

def execGatewayFrameFromEthernet (clocks : Nat) (e : Fin 4) (s : State) : Host.Outcome State Fault Refusal :=
  .next (
    let s1 := s.advance clocks
    match nth s1.gwIn e.val [] with
    | .eth octets sec ns :: _ =>
      if s1.engineOn e.val then (s1.gwTake e.val sec ns).avtpReceive e.val octets sec ns else s1
    | _ => s1)

/-! Placing frames into TX objects (R217, R218). -/

/-- A frame with an equal identifier is pending in a GW object. -/
def State.equalPending (s : State) (n : Nat) (f : BusFrame) : Bool :=
  (s.canSt n).gwObj.any fun g =>
    s.objBusy n g.obj && s.get (pCXC n) (OBJ_ID_ID g.obj) == f.ident && s.on (pCXC n) (OBJ_ID_IDE g.obj) == f.ide

/-- The waiting frame that goes next: lowest arbitration key, then oldest. -/
def pickWait (best : Option GwWait) (w : GwWait) : Option GwWait :=
  match best with
  | none => some w
  | some b => if arbKey w.f < arbKey b.f then some w else best

/-- A free GW TX object with the room for a length. -/
def State.gwObject (s : State) (n len : Nat) : Option Nat :=
  (List.range 128).find? fun o =>
    s.get (pCXC n) (OBJ_CTRL_TYPE o) == 1 && s.on (pCXC n) (OBJ_CTRL_GW o) && !s.objBusy n o && !s.objBad n o
      && decide (len ≤ s.objCap n o)

/-- The frame is put into an object and requested. -/
def State.gwFill (s : State) (n o : Nat) (w : GwWait) : State :=
  let p := pCXC n
  let s1 := ((s.set p (OBJ_ID_ID o) w.f.ident).set p (OBJ_ID_IDE o) w.f.ide.toNat).set p (OBJ_ID_FMT o) w.f.fmt
  let s2 := ((s1.set p (OBJ_CTRL_BRS o) w.f.brs.toNat).set p (OBJ_CTRL_LEN o) w.f.data.length).objStore n o w.f.data
  let s3 := (s2.tset (tCANMETA n) o 0 (w.f.sdt % 256 + w.f.vcid % 256 * 256 + w.f.sec.toNat * 0x10000)).tset
    (tCANMETA n) o 1 w.f.af
  (s3.objRequest n o).canMod n fun c =>
    { c with gwObj := (c.gwObj.filter fun g => g.obj != o) ++ [⟨o, w.engine, w.route, w.sec, w.ns, false⟩] }

/-- The next frame of a controller's queues is placed; frames found past their deadline are dropped on the way. -/
def State.gwPlace (n : Nat) : Nat → State → State
  | 0, s => s
  | fuel + 1, s =>
    match ((s.canSt n).gwWait.filter fun w => !s.equalPending n w.f).foldl pickWait none with
    | none => s
    | some w =>
      if s.pastDeadline w.route w.sec w.ns then
        State.gwPlace n fuel ((s.gwLate w.route).canMod n fun c => { c with gwWait := c.gwWait.erase w })
      else
        match s.gwObject n w.f.data.length with
        | none => s
        | some o => (s.gwFill n o w).canMod n fun c => { c with gwWait := c.gwWait.erase w }

def execGatewayTxPlace (clocks : Nat) (ctl : Fin 12) (s : State) : Host.Outcome State Fault Refusal :=
  .next (
    let s1 := s.advance clocks
    if s1.pageUp (pCXC ctl.val) then State.gwPlace ctl.val ((s1.canSt ctl.val).gwWait.length + 1) s1 else s1)

/-- A pending frame passes its deadline: the engine cancels it (R218). -/
def execGatewayDeadlineExpiry (clocks : Nat) (ctl : Fin 12) (obj : Fin 128) (s : State) :
    Host.Outcome State Fault Refusal :=
  .next (
    let s1 := s.advance clocks
    match (s1.canSt ctl.val).gwObj.find? fun g => g.obj == obj.val && !g.expired with
    | some g =>
      if s1.pastDeadline g.route g.sec g.ns && s1.objBusy ctl.val obj.val then
        let s2 := s1.canMod ctl.val fun c =>
          { c with gwObj := c.gwObj.map fun x => if x.obj == obj.val then { x with expired := true } else x }
        s2.objCancel ctl.val obj.val false
      else s1
    | none => s1)

def pegCntClrEff (e : Nat) (v : Word) (s : State) : State :=
  if v.getLsbD 0 then
    let p := pPEG e
    (((s.wr p PEG_CNT_IN 0).wr p PEG_CNT_OUT 0).wr p PEG_CNT_OVF 0).set p PEG_STAT_LAT 0
  else s

def execPegCntClr (a : Access) (e : Fin 4) (v : Word) (s : State) : Host.Outcome State Fault Refusal :=
  .next (s.regWrite a (pPEG e.val) PEG_CNT_CLR v noCause (pegCntClrEff e.val v))

/-- A reset of an engine (Table 13-7, spec/17 Table 17-9): its queues are empty. -/
def State.gwClear (s : State) (e : Nat) : State :=
  let s1 := ({ s with gwIn := setNth s.gwIn e [] }).setCapWaits e []
  s1.each (List.range 12) fun s n => s.canMod n fun c => { c with gwWait := c.gwWait.filter fun w => w.engine != e }

end Sys2Proof.Machine
end

