-- ==== Sys2Proof/Machine/Parting.lean ====
section
/-!
DEFINITION. Resets of single blocks: what a block clears beside its registers, the soft reset of every page (spec/02 R42) and parting
(spec/13 R407-R411).
-/

namespace Sys2Proof.Machine

/-! What the blocks hold beside their registers. -/

/-- Filter states of the inputs of a DIG or ANA page (spec/13 Table 13-7). -/
def State.dinClear (s : State) (i : Nat) : State :=
  { s with dins := s.dins.zipIdx.map fun e => if e.2 / 16 = i then nth State.reset.dins e.2 e.1 else e.1 }

def State.ainClear (s : State) : State := { s with ains := State.reset.ains }

/-- Rings and the log filter of a host instance. -/
def State.hinClear (s : State) (i : Nat) : State :=
  { s with
    sw.ringDone := s.sw.ringDone.filter fun e => e.1 / 8 != i
    sw.drrDef := setNth s.sw.drrDef i 0
    dplFilter := setNth s.dplFilter i [] }

/-- The trims of a channel from the fuses, and the losses of a transceiver, show what lies outside the block. -/
def shownOutside (ty off : Nat) : Bool :=
  ((ty == 0x4001 || ty == 0x5001) && off == LSW_ITRIM)
    || (ty == 0x0003 && (off == BR_STAT || off == BR_CRED)) || (ty == 0x7002 && (off == BR_STAT || off == BR_CRED))
    || (ty == 0x2001 && (off == BUF_FREE || off == BUF_POOL)) || (ty == 0x2002 && off == SPL_STAT)
    || (ty == 0x8001 && (off == CALC_ACT || off == CALC_STAT))
    || (ty == 0x8002 && (off == BLK_STAT || off == CAL_STAT || off == CAL_WH))
    || (ty == 0xA001 && (off == DMC_STAT || off == DMC_REFI)) || (ty == 0xA003 && off == NOR_WEAR)
    || (ty == 0xA004 && off == FUS_STAT) || (ty == 0xB001 && (off == SEC_STAT || off == SEC_KCTR)) || (ty == 0xB002 && decide (0x040 ≤ off))
    || (ty == 0xB004 && decide (0x200 ≤ off ∧ off < 0x300)) || (ty == 0xB006 && off == LCS_STAT)
    || (ty == 0xC001 && (off == CLK_STAT || off == CLK_RCO_CAL)) || (ty == 0xC002 && off == PLL_STAT)
    || (ty == 0xC004 && (off == RST_CAUSE || off == RST_CNT))
    || (ty == 0xC005 && decide (0x100 ≤ off)) || (ty == 0xC006 && (off == VFS_STAT || off == VFS_CEIL || decide (0x100 ≤ off)))
    || (ty == 0xC007 && (off == BLK_STAT || off == SLP_STAT || keptSlp off))
    || (ty == 0xD001 && off == FAG_AO_LAST)
    || ((ty == 0x3003 && off == CX_STAT) || (ty == 0x3004 && off == LN_STAT) || (ty == 0x1006 && off == PORT_STAT)
        || (ty == 0x1006 && off == PORT_PHY_STAT) || (ty == 0x7003 && off == BLK_STAT))

/-- The header registers that a soft reset keeps (R42). -/
def headerKept (off : Nat) : Bool :=
  off == OWNER || off == PART_REQ || off == ERR_CAP || off == ERR_ADDR || off == CLK_REQ || off == AGE_TRIM

/-- The registers of a page return to their reset values, and SOFT_RST reads 1 (R42). -/
def State.softRegs (s : State) (p : Nat) : State :=
  (s.resetPage p fun off => headerKept off || shownOutside (tyOf p) off).set p BLK_CTRL_SOFT_RST 1

/-- The state bits of a controller that are not the transceiver's: OFF and error-active (spec/06 R206). -/
def State.canRegs (s : State) (n : Nat) : State :=
  let lost := s.get (pCXC n) CX_STAT_XCVR_LOST
  (s.wrn (pCXC n) CX_STAT 0).set (pCXC n) CX_STAT_XCVR_LOST lost

/-- The STB land rests with its bit at 0; `was` is the bit before. -/
def State.stbRest (s : State) (n : Nat) (was : Bool) : State :=
  if 8 ≤ n ∧ was then s.emit (.canStb n false) else s

def State.linRegs (s : State) (n : Nat) : State :=
  let lost := s.get (pLNC n) LN_STAT_XCVR_LOST
  (s.wrn (pLNC n) LN_STAT 0).set (pLNC n) LN_STAT_XCVR_LOST lost

/-- A soft reset of a page begins (R42 and the chapters' own rules). The TMB page's registers return at the end (spec/03 R66). -/
def State.softReset (s : State) (p : Nat) : State :=
  let ty := tyOf p
  let i := instOf p
  let s1 := s.softRegs p
  match ty with
  | 0x0002 => { s1 with swLines := [] }
  | 0x0004 => if i = 12 then s1.set p CORE_STAT_RUNNING 1 else (s.resetCore i).softRegs p
  | 0x0006 => (s.receiverReset i).softRegs p
  | 0x1001 => ((s.copyFill.softRegs p).lagStat).countPending
  | 0x2001 => { s1 with sw.lfsr := 1 }
  | 0x2002 => (s.splFill i).softRegs p
  | 0x2003 => s1.hinClear i
  | 0x3002 => s1.gwClear i
  | 0x3003 => ((s1.canClear i).canRegs i).stbRest i (s.on (pCXC i) CX_XCVR_STB)
  | 0x3004 => (s1.linClear i).linRegs i
  | 0x4001 => s.lswSoftReset 0 i fun s => s.softRegs p
  | 0x5001 => s.lswSoftReset 1 i fun s => s.softRegs p
  | 0x4002 => s1.pdcSoftReset s 0
  | 0x5002 => s1.pdcSoftReset s 1
  | 0x6001 => s1.dinWake
  | 0x6002 => (s1.dinClear i).dinWake
  | 0x6003 => s1.ainClear
  | 0x7001 => s1.twlWritten false
  | 0x7003 => s1.roleEnable s.roleRuns
  | 0x7004 => { s1 with mig := MigState.init }
  | 0xA003 => (s.norDone i false).softRegs p
  | 0xC004 => s1.set p RST_WDG_EN (s.get p RST_WDG_EN)
  | 0xC005 => s1.each (List.range 10) fun s d => (s.set pPWR (PWR_DOM_POLICY d) 0).set pPWR ⟨PWR_DOM d, 9, 1⟩ 0
  | 0xD001 => { s1 with health.escAt := 0 }
  | 0xD002 => s1.logSoftReset
  | 0xE001 => s.set p BLK_CTRL_SOFT_RST 1
  | 0xE002 => ({ s1 with tb.fifo := [] }).showFifo
  | 0xE003 =>
    if s.plate.started then s.plateSoftReset.set p BLK_CTRL_SOFT_RST 1
    else { s1 with plate.armed := none, plate.startAt := none, plate.pendTable := none }
  | _ => s1

/-- A soft reset is complete. -/
def State.softResetDone (s : State) (p : Nat) : State :=
  if p = pTMB then
    (({ s with tb.stepReq := false, tb.lockCnt := 0 }).softRegs p).set p BLK_CTRL_SOFT_RST 0
  else s.set p BLK_CTRL_SOFT_RST 0

/-! Parting. -/

/-- BLK_ID of a page. -/
def blkId (p : Nat) : Nat := tyOf p * 0x10000 + instOf p * 0x100 + 0xB0

/-- GO with a new owner is refused (R407). -/
def State.partRefused (s : State) (p : Nat) (v : Word) : Bool :=
  let w := bitsOf v.toNat 0 2
  let ty := tyOf p
  !partTy ty || w == 3 || decide (15 < bitsOf v.toNat 4 6) || (secOnlyTy ty && w != 0) || (w == 2 && !partVmTy ty)
    || s.on p PART_BUSY

/-- The block's own stop (Table 13-7). -/
def State.partStop (s : State) (p : Nat) : State :=
  let i := instOf p
  match tyOf p with
  | 0x0006 => s.receiverReset i
  | 0x3002 => (s.cnt32 p PEG_CNT_OVF (nth s.gwIn i []).length).gwClear i
  | 0x4001 => s.turnOff 0 i .disarm
  | 0x5001 => s.turnOff 1 i .disarm
  | _ => s

/-- A monitor-level write of PART_REQ with GO = 1. -/
def State.partStart (s : State) (p : Nat) (v : Word) : State :=
  if s.partRefused p v then ((s.set p PART_RESULT 2).err pISO 0x9011 (blkId p)).refused
  else
    let s1 := (s.set p PART_NEW_WORLD (bitsOf v.toNat 0 2)).set p PART_NEW_VM (bitsOf v.toNat 4 6)
    (((s1.set p PART_RESULT 0).set p PART_BUSY 1).partStop p).ok

/-- A write of PART_REQ: with GO this rule takes the place of R41 and R603 (R407). DESIGN CHOICE: a write without GO while a parting
runs sets NEW_WORLD and NEW_VM, which the end of the parting then takes. -/
def State.partWrite (s : State) (a : Access) (p : Nat) (v : Word) : State :=
  if v.getLsbD 16 then
    (if !s.up.compute then s.refused
     else
      match s.accessCause a p PART_REQ true with
      | some c => s.refuseWrite p PART_REQ c
      | none => s.partStart p v)
  else s.regWrite a p PART_REQ v noCause fun s => s.plain p PART_REQ v

def execPartReqGo (a : Access) (page : Nat) (v : Word) (s : State) : Host.Outcome State Fault Refusal :=
  .next (s.partWrite a (pageBase page) v)

/-- Every register but AGE_TRIM takes its reset value, and the storage is emptied (Tables 13-6 and 13-7). -/
def State.partClear (s : State) (p : Nat) : State :=
  let i := instOf p
  let keep (off : Nat) : Bool := off == AGE_TRIM || ((tyOf p == 0x4001 || tyOf p == 0x5001) && off == LSW_ITRIM)
    || (tyOf p == 0x3003 && off == CX_STAT) || (tyOf p == 0x3004 && off == LN_STAT)
  let regs (s : State) := s.resetPage p keep
  match tyOf p with
  | 0x0006 => regs (s.receiverReset i)
  | 0x2003 => (regs s).hinClear i
  | 0x3002 => (regs s).gwClear i
  | 0x3003 => (((regs s).canClear i).canRegs i).stbRest i (s.on (pCXC i) CX_XCVR_STB)
  | 0x3004 => ((regs s).linClear i).linRegs i
  | 0x4001 => s.lswSoftReset 0 i regs
  | 0x5001 => s.lswSoftReset 1 i regs
  | 0x6002 => ((regs s).dinClear i).dinWake
  | 0x6003 => (regs s).ainClear
  | _ => regs s

/-- What the IOTLB holds for the DMA source of a page is dropped (R404, Table 13-5, spec/15 Table 15-13). -/
def State.dropSource (s : State) (p : Nat) : State :=
  s.dropXlats fun e =>
    (tyOf p == 0x2003 && e.holder == instOf p) || (p == pMIG && e.holder == 16) || (tyOf p == 0xB003 && e.holder == 17 + instOf p)

/-- The parting ends: the new owner is in place (Table 13-6), and what the IOTLB held for a host instance is dropped (R404). -/
def State.partEnd (s : State) (p result : Nat) : State :=
  let w := s.get p PART_NEW_WORLD
  let m := s.get p PART_NEW_VM
  let s1 := ((s.partClear p).set p OWNER_WORLD w).set p OWNER_VM m
  let s2 := s1.set p PART_RESULT result
  let s3 := s2.dropSource p
  (s3.wrn pISO ISO_PART_LOG (tyOf p + instOf p * 0x10000 + result * 2 ^ 24 + 2 ^ 31)).irq pISO INT_ISO_PART_DONE

/-- The turn-off of a channel, which no time-out cuts short, is over (R409). -/
def State.partOff (s : State) (p : Nat) : Bool :=
  match bridgeDie (tyOf p) with
  | some d => [0, 1, 6].contains (s.chan d (instOf p)).st
  | none => true

/-- The stop of Table 13-7 is complete: the channel is OFF, no frame is in progress on the bus. -/
def State.partIdle (s : State) (p : Nat) : Bool :=
  match tyOf p with
  | 0x3003 => (s.canSt (instOf p)).cur.isNone
  | 0x3004 => (s.linSt (instOf p)).cur.isNone
  | _ => s.partOff p

def execPartingDrained (page : Nat) (s : State) : Host.Outcome State Fault Refusal :=
  .next (
    let p := pageBase page
    if s.up.compute && s.on p PART_BUSY && s.partIdle p then s.partEnd p 1 else s)

/-- A controller with a frame in progress releases its bus recessive (Table 13-7). -/
def State.busRelease (s : State) (p : Nat) : State :=
  if s.partIdle p then s
  else
    match tyOf p with
    | 0x3003 => s.emit (.canRelease (instOf p))
    | 0x3004 => s.emit (.linRelease (instOf p))
    | _ => s

/-- At the time-out a controller releases the bus (Table 13-7); the turn-off of a channel is waited for (R409). -/
def execPartingTimeout (page : Nat) (s : State) : Host.Outcome State Fault Refusal :=
  .next (
    let p := pageBase page
    if s.up.compute && s.on p PART_BUSY && s.partOff p then
      ((s.busRelease p).partEnd p 3).err pISO 0x9214 (blkId p)
    else s)

end Sys2Proof.Machine
end

