-- ==== Sys2Proof/Machine/Route.lean ====
section
/-!
DEFINITION. The rules that registers have beyond their fields, by page type and offset: why a write is refused and what it
does. A write to any register goes through `State.writeReg`, a read through `State.fetchReg`, whoever makes it.
-/

namespace Sys2Proof.Machine

/-- What a register adds to R603: a cause for refusing a write, and the effect of an accepted one. -/
structure Hook where
  pre : State → Option Nat
  eff : State → State

/-- A register with an effect of its own. -/
def does (f : State → State) : Hook := ⟨noCause, f⟩

/-- The position of off in an array of n registers from base on. -/
def inArray (off base stride n : Nat) : Option Nat :=
  if base ≤ off ∧ off < base + stride * n ∧ (off - base) % stride = 0 then some ((off - base) / stride) else none

/-! The common header (R37-R48). -/

/-- The measured registers of the DMC page are held when FREEZE is set (R43). -/
def State.holdMeasures (s : State) (p : Nat) : State :=
  if p ≠ pDMC then (if tyOf p = 0x8002 then s.set p CAL_CNT_MISM_WIN (s.mismWindow p) else s)
  else [DMC_USE_SPILL, DMC_USE_HOST, DMC_USE_OTHER].foldl (fun s o => s.wr pDMC o (Config.dramUse o s.tb.clocks)) s

/-- A write of BLK_CTRL: EN, a soft reset, FREEZE (R42, R43; spec/03 R82; spec/10 R303, R318). -/
def blkCtrlEff (p : Nat) (v : Word) (s : State) : State :=
  let running := s.on p BLK_CTRL_SOFT_RST
  let s1 := s.plain p BLK_CTRL v
  let s2 := if running then s1.set p BLK_CTRL_SOFT_RST 1 else s1
  let s3 := if p = pIXP then s2.armPlate (v.getLsbD 0)
    else if p = pTWL ∧ s2.on p BLK_CTRL_EN ≠ s.on p BLK_CTRL_EN then s2.twlWritten false
    else if p = pTWR then s2.roleEnable s.roleRuns
    else if s2.frozen p ∧ !s.frozen p then s2.holdMeasures p
    else s2
  if v.getLsbD 1 && !running then s3.softReset p else s3

def blkCtrlPre (p : Nat) (v : Word) (s : State) : Option Nat :=
  if p = pIXP then ixpEnPre v s
  else if tyOf p = 0x0004 then coreBootPre (instOf p) s
  else none

/-- On a page that only the secure world can own, WORLD stays 0b00 (R41). A new owner's DMA source starts with an empty IOTLB (spec/13
R404). -/
def ownerEff (p : Nat) (v : Word) (s : State) : State :=
  let s1 := (s.plain p OWNER v).dropSource p
  if secOnlyTy (tyOf p) then s1.set p OWNER_WORLD 0 else s1

def intSetEff (p : Nat) (v : Word) (s : State) : State := s.wr p INT_RAW (s.rd p INT_RAW ||| v)

/-- CLR clears CODE, COUNT and ERR_ADDR (R45). -/
def errCapEff (p : Nat) (v : Word) (s : State) : State :=
  if v.getLsbD 31 then (s.wr p ERR_CAP 0).wr p ERR_ADDR 0 else s

/-- ARM = 1 injects at the point (R47; spec/11 Table 11-6, spec/13). Pages without injection points ignore the write. -/
def errInjEff (p : Nat) (v : Word) (s : State) : State :=
  if !injTy (tyOf p) then s
  else
    let s1 := s.plain p ERR_INJ v
    if !s1.on p ERR_INJ_ARM then s1
    else if tyOf p = 0x8002 then s1.calInject (instOf p)
    else if s1.get p ERR_INJ_POINT = 1 then ((s1.set p ERR_INJ_ARM 0).set p ERR_INJ_DONE 1).err p 0x9113 0 true
    else s1

/-- A policy other than force-off ends the force-off; POLICY = 0b01 keeps the clock running (R48, spec/17 R496). -/
def clkReqEff (p : Nat) (v : Word) (s : State) : State :=
  let s1 := s.plain p CLK_REQ v
  let pol := s1.get p CLK_REQ_POLICY
  { s1 with
    shell.draining := if pol = 2 then s1.shell.draining else s1.shell.draining.filter fun e => e.1 != p
    shell.idle := if pol = 1 then s1.shell.idle.filter fun q => q != p else s1.shell.idle }

def headerHook (p off : Nat) (v : Word) : Hook :=
  if off = BLK_CTRL then ⟨blkCtrlPre p v, blkCtrlEff p v⟩
  else if off = OWNER then does (ownerEff p v)
  else if off = INT_SET then does (intSetEff p v)
  else if off = ERR_CAP then does (errCapEff p v)
  else if off = ERR_INJ then does (errInjEff p v)
  else if off = CLK_REQ then does (clkReqEff p v)
  else does fun s => s.plain p off v

/-! Pages. The default of each is the plain effect. -/

/-- SYS, INTC, cores and mailboxes (spec/12). -/
def coreHook (ty p off : Nat) (v : Word) : Hook :=
  let d := does fun s => s.plain p off v
  let i := instOf p
  match ty with
  | 0x0002 =>
    match inArray off (LINE 0) 4 512 with
    | some l => ⟨linePre l v, lineEff l v⟩
    | none => if off = INTC_SWRAISE then ⟨swraisePre v, swraiseEff v⟩ else d
  | 0x0004 =>
    if off = CORE_CTRL then ⟨coreCtrlPre i, coreCtrlEff i v⟩
    else { d with pre := coreBootPre i }
  | 0x0005 => if off = MBX_CNT_CLR then does (mbxCntClrEff v) else d
  | 0x0006 =>
    if off = MB_DBG_SEND then does (mbDbgSendEff i v)
    else if (inArray off (MB_DBG_DATA 0) 4 16).isSome then does (mbDbgDataEff p off v)
    else d
  | _ => d

/-- The selection table that holds an offset of the SWC page (spec/04 R125, R126). -/
def selectionOf (off : Nat) : Option (SelKind × Nat) :=
  match inArray off (LAG_SEL 0) 4 64 with
  | some b => some (.lag, b)
  | none =>
    match inArray off (SPL_SEL 0) 4 64 with
    | some b => some (.spl, b)
    | none => (inArray off (GWE_SEL 0) 4 64).map fun b => (.gwe, b)

/-- The switch (spec/04) and its buffers (spec/05). -/
def switchHook (ty p off : Nat) (v : Word) : Hook :=
  let d := does fun s => s.plain p off v
  let i := instOf p
  if windowTy ty && off == TA_CMD then does (taCmdEff p v)
  else
    match ty with
    | 0x1001 =>
      if off = SWC_CTRL then does (swcCtrlEff v)
      else if off = SWC_CNT_CLR then does (swcCntClrEff v)
      else if off = SWC_COPY then does (swcCopyEff v)
      else
        match selectionOf off with
        | some (k, b) => does (selectionEff k b v)
        | none => d
    | 0x1006 =>
      if off = PORT_PRE then does (portPreEff i v)
      else if off = PORT_CNT_CLR then does (portCntClrEff i v)
      else if off = PORT_MAXLEN then ⟨portMaxlenPre i v, portPlain i off v⟩
      else if off = PORT_PHY_CTRL ∨ off = PORT_PHY_PLCA then ⟨portPhyPre i, portPlain i off v⟩
      else does (portPlain i off v)
    | 0x2001 =>
      if off = BUF_GCL then does (gclCommitEff v)
      else if off = BUF_SPILL then { d with pre := bufSpillPre v }
      else if off = BUF_WRED_SEED then does (bufWredSeedEff v)
      else d
    | 0x2002 =>
      if off = SPL_BW then ⟨splBwPre i v, splBwEff i v⟩
      else if off = SPL_CNT_CLR then does (splCntClrEff i v)
      else d
    | _ => d

/-- Rings of a host instance (spec/05 Table 05-8). -/
def ringHook (p i off : Nat) (v : Word) : Hook :=
  let d := does fun s => s.plain p off v
  let k := (off - RING_BASE_LO 0) / 0x20
  let r := RING_BASE_LO 0 + (off - RING_BASE_LO 0) % 0x20
  if r = RING_BASE_LO 0 ∨ r = RING_BASE_HI 0 ∨ r = RING_SIZE 0 then { d with pre := ringSetupPre i k }
  else if r = RING_TAIL 0 then { d with pre := ringTailPre i k v }
  else if r = RING_CTRL 0 then does (ringCtrlEff i k v)
  else d

/-- Host instances: rings, and the registers of Table 13-12 with their roles. -/
def hostHook (a : Access) (p off : Nat) (v : Word) : Hook :=
  let d := does fun s => s.plain p off v
  let i := instOf p
  if RING_BASE_LO 0 ≤ off ∧ off < RING_BASE_LO 8 then ringHook p i off v
  else if off = HIN_TX_RATE then does (hinTxRateEff i v)
  else if (inArray off (TM_T2M_DATA 0) 4 16).isSome then { d with pre := rolePre true i a }
  else if (inArray off (TM_M2T_DATA 0) 4 16).isSome then { d with pre := rolePre false i a }
  else if off = TM_T2M_CTRL then ⟨tmPre i true a v, tmEff i true a v⟩
  else if off = TM_M2T_CTRL then ⟨tmPre i false a v, tmEff i false a v⟩
  else if off = DPL_BASE_LO ∨ off = DPL_BASE_HI ∨ off = DPL_SIZE then { d with pre := dplSetupPre i a }
  else if off = DPL_TAIL then { d with pre := dplTailPre i a v }
  else if off = DPL_CTRL then ⟨rolePre false i a, dplCtrlEff i v⟩
  else if off = HIN_QUIESCE then ⟨rolePre false i a, quiesceEff i v⟩
  else d

/-- The object registers of a CAN controller (spec/06 Table 06-8). -/
def objHook (n off : Nat) (v : Word) : Hook :=
  let p := pCXC n
  let o := (off - OBJ_ID 0) / 12
  let r := (off - OBJ_ID 0) % 12
  if r = 0 then ⟨objIdPre n o v, fun s => s.plain p off v⟩
  else if r = 4 then ⟨objBusyPre n o, fun s => s.plain p off v⟩
  else ⟨objCtrlPre n o v, objCtrlEff n o v false⟩

/-- The gateway, CAN and LIN (spec/06). -/
def busHook (ty p off : Nat) (v : Word) : Hook :=
  let d := does fun s => s.plain p off v
  let i := instOf p
  if windowTy ty && off == TA_CMD then does (taCmdEff p v)
  else
    match ty with
    | 0x3002 => if off = PEG_CNT_CLR then does (pegCntClrEff i v) else d
    | 0x3003 =>
      if off = CX_CTRL then ⟨cxCtrlPre v, cxCtrlEff i v⟩
      else if off = CX_NBT ∨ off = CX_DBT ∨ off = CX_XL then { d with pre := cxTimingPre i off v }
      else if off = CX_XCVR then ⟨cxXcvrPre i v, cxXcvrEff i v⟩
      else if off = CX_WIN_SEL then does (winSelEff i v)
      else if off = CX_WIN_XL ∨ off = CX_WIN_AF ∨ (CX_DATA 0 ≤ off ∧ off < CX_DATA 0 + 2048) then
        ⟨fun s => objBusyPre i (s.get p CX_WIN_SEL_OBJ) s, winWriteEff i off v⟩
      else if OBJ_ID 0 ≤ off ∧ off < OBJ_ID 128 then objHook i off v
      else d
    | 0x3004 =>
      if off = LN_CTRL then does (lnCtrlEff i v)
      else
        match lnRspData off with
        | some k => does (lnRspEff i off k v)
        | none => d
    | _ => d

/-- Load channels and power dies (spec/07, spec/08). -/
def loadHook (ty p off : Nat) (v : Word) : Hook :=
  let d := does fun s => s.plain p off v
  if ty = 0x4001 ∨ ty = 0x5001 then
    (let z := if ty = 0x5001 then 1 else 0
     let i := instOf p
     if off = LSW_CTRL then does (lswCtrlEff z i v)
     else if off = LSW_PROF then { d with pre := lswProfPre z i v }
     else if off = LSW_PROT then { d with pre := lswProtPre z i v }
     else if off = LSW_I2T then { d with pre := lswI2tPre v }
     else if off = LSW_HOLD then does (lswHoldEff z i v)
     else if off = LSW_CNT_CLR then does (lswCntClrEff z i v)
     else if off = LSW_SNS_CLR then does (lswSnsClrEff z i v)
     else d)
  else
    let z := if ty = 0x5002 then 1 else 0
    if off = PDC_OUT_IMG then does (pdcOutImgEff z v)
    else if off = PDC_HOLD then does (pdcHoldEff z v)
    else if off = PDC_LH then does (pdcLhEff z v)
    else if off = PDC_SNS then does (pdcSnsEff z v)
    else if off = PDC_CNT_CLR then does (pdcCntClrEff z v)
    else d

/-- Inputs (spec/09). -/
def inputHook (ty p off : Nat) (v : Word) : Hook :=
  let d := does fun s => s.plain p off v
  let i := instOf p
  match ty with
  | 0x6001 =>
    if off = INC_CTRL then { d with pre := incCtrlPre v }
    else if off = INC_WK_ARM_LO then ⟨wkArmPre false v, fun s => (s.plain p off v).dinWake⟩
    else if off = INC_WK_ARM_HI then ⟨wkArmPre true v, fun s => (s.plain p off v).dinWake⟩
    else d
  | 0x6002 =>
    if (inArray off (DIN_CFG 0) 0x10 16).isSome then { d with pre := dinCfgPre v }
    else if off = DIG_DG_TH then { d with pre := digThPre v }
    else if off = DIG_CNT_CLR then does (digCntClrEff i v)
    else d
  | _ => if (inArray off (ANA_LIM 0) 0x10 16).isSome then { d with pre := anaLimPre v } else d

/-- Bridges, the Phoask link, the role machine and migration (spec/10). -/
def twinHook (a : Access) (ty p off : Nat) (v : Word) : Hook :=
  let d := does fun s => s.plain p off v
  match ty with
  | 0x0003 => if off = BR_CNT_CLR then does (brCntClrEff (instOf p) v) else d
  | 0x7001 => if off = TWL_CTRL then does (twlCtrlEff v) else if off = TWL_CNT_CLR then does (twlCntClrEff v) else d
  | 0x7002 =>
    if off = TBR_CMD then ⟨tbrCmdPre v, tbrCmdEff a.agent v⟩
    else if off = BR_CNT_CLR then does (brCntClrEff 2 v)
    else d
  | 0x7003 =>
    if off = TWR_CTRL then ⟨twrCtrlPre v, twrCtrlEff v⟩
    else if off = TWR_TWC_CMD then does (twrTwcCmdEff v)
    else if off = TWR_CNT_CLR then does (twrCntClrEff v)
    else d
  | _ => if off = MIG_CTRL then does (migCtrlEff v) else d

/-- The Caliper and isolation (spec/11, spec/13). -/
def guardHook (ty p off : Nat) (v : Word) : Hook :=
  let d := does fun s => s.plain p off v
  let i := instOf p
  match ty with
  | 0x8002 =>
    if off = CAL_CKPT then ⟨calCkptPre i v, calCkptEff i v⟩
    else if off = CAL_CNT_CLR then does (calCntClrEff i v)
    else d
  | 0x9001 =>
    if off = ISO_TRACE then does (isoTraceEff v)
    else if off = ISO_SEC_TTB_LO ∨ off = ISO_SEC_TTB_HI then does (secTtbEff off v)
    else
      match inArray off (SEC_RGN_BASE 0) 4 32 with
      | some k => { d with pre := if k % 2 = 0 then secBasePre (k / 2) v else secSizePre (k / 2) v }
      | none => d
  | 0x9002 =>
    if off = IOM_INV then ⟨iomInvPre v, iomInvEff v⟩
    else if off = IOM_FLT_CLR then does (iomFltClrEff v)
    else d
  | 0x9003 =>
    if off = VMC_TTB_LO ∨ off = VMC_TTB_HI then { d with pre := vmcTtbPre i }
    else if off = VMC_INV then ⟨vmcInvPre i v, vmcInvEff i v⟩
    else if off = VMC_CLR then does (vmcClrEff i v)
    else d
  | _ => d

/-- Memory and fuses (spec/14). -/
def memoryHook (a : Access) (ty p off : Nat) (v : Word) : Hook :=
  let d := does fun s => s.plain p off v
  let i := instOf p
  match ty with
  | 0xA001 => if off = DMC_CNT_CLR then does (dmcCntClrEff v) else d
  | 0xA003 =>
    if off = NOR_CMD then ⟨norPre v, norEff i v⟩
    else if off = NOR_CNT_CLR then does (norCntClrEff i v)
    else d
  | 0xA004 => if off = FUS_PROG_GO then does (fusProgEff a v) else d
  | _ => d

/-- The registers of a capsule channel or port (spec/15 Table 15-13). -/
def capHook (a : Access) (p off : Nat) (v : Word) : Hook :=
  let d := does fun s => s.plain p off v
  if (inArray off (CMD_0_DATA 0) 4 16).isSome then { d with pre := capDataPre 0 }
  else if (inArray off (CMD_1_DATA 0) 4 16).isSome then { d with pre := capDataPre 1 }
  else if off = CMD_P_GO 0 then does (capGoEff 0 v)
  else if off = CMD_P_GO 1 then does (capGoEff 1 v)
  else if CMD_CH_CFG 0 ≤ off ∧ off < CMD_CH_CFG 16 then
    (let c := (off - CMD_CH_CFG 0) / 0x20
     let r := (off - CMD_CH_CFG 0) % 0x20
     if r = 0 then { d with pre := capCfgPre c v }
     else if a.agent ≠ 0x20 then ⟨fun _ => some 0x01, id⟩
     else if r = 0x04 ∨ r = 0x08 then does (capCtrEff c off v)
     else if r = 0x0C ∨ r = 0x10 then does (capSaveEff c off v)
     else d)
  else d

/-- The security region (spec/15). -/
def secureHook (a : Access) (ty p off : Nat) (v : Word) : Hook :=
  let d := does fun s => s.plain p off v
  match ty with
  | 0xB001 => if off = SEC_GO then ⟨secGoPre, secGoEff v⟩ else d
  | 0xB003 => if off = CRY_CTRL then does (cryCtrlEff (instOf p) v) else d
  | 0xB004 => if off = ATT_EXT then ⟨attExtPre a v, attExtEff v⟩ else if off = ATT_CTRL then does (attCtrlEff v) else d
  | 0xB005 => capHook a p off v
  | 0xB006 => if off = LCS_CTRL then ⟨scOnly a, lcsCtrlEff v⟩ else d
  | _ => d

/-- Clocks, resets, power, modes (spec/17, spec/18). -/
def clockHook (a : Access) (ty p off : Nat) (v : Word) : Hook :=
  let d := does fun s => s.plain p off v
  match ty with
  | 0xC001 => if off = CLK_AC_DIV then ⟨clkAcDivPre v, clkAcDivEff v⟩ else d
  | 0xC004 =>
    if off = RST_REQ then ⟨rstReqPre a v, rstReqEff v⟩
    else if off = RST_WDG then does (rstWdgEff v)
    else if off = RST_WDG_KICK then does (rstKickEff v)
    else d
  | 0xC005 =>
    match inArray off (PWR_DOM 0) 4 10 with
    | some k => ⟨pwrDomPre k, pwrDomEff k v⟩
    | none => d
  | 0xC006 => if off = VFS_REQ then does (vfsReqEff v) else if off = VFS_CTRL then does (vfsCtrlEff v) else d
  | 0xC007 =>
    if off = SLP_CTRL then does (slpCtrlEff v)
    else if off = SLP_MODE_REQ then does (slpModeReqEff v)
    else if off = SLP_VOTE_IN then ⟨slpVotePre v, slpVoteEff v⟩
    else if off = SLP_WAKE then does (slpWakeEff v)
    else if off = SLP_CNT_CLR then does (slpCntClrEff v)
    else if off = SLP_PART_PORTS then does (slpPartPortsEff v)
    else
      match inArray off (SLP_NODE_CFG 0) 8 64 with
      | some n => does (slpNodeCfgEff n v)
      | none => d
  | _ => d

/-- Health, time and the plate (spec/19, spec/03). -/
def healthHook (ty p off : Nat) (v : Word) : Hook :=
  let d := does fun s => s.plain p off v
  match ty with
  | 0xD001 => if off = FAG_DONE then ⟨fagDonePre, fagDoneEff v⟩ else if off = FAG_CNT_CLR then does (fagCntClrEff v) else d
  | 0xD002 => if off = LOG_CTRL then does (logCtrlEff v) else d
  | 0xD004 => if off = HON_CTRL then ⟨honCtrlPre v, honCtrlEff v⟩ else d
  | 0xE001 =>
    if off = TMB_SNAP then does (tmbSnapEff v)
    else if off = TMB_RATE then { d with pre := tmbRatePre v }
    else if off = TMB_STEP_GO then ⟨tmbStepPre, tmbStepEff v⟩
    else d
  | 0xE003 => if off = IXP_CTRL then does (ixpCtrlEff v) else d
  | _ => d

/-- The rule of the register at offset off of page p. -/
def regHook (a : Access) (p off : Nat) (v : Word) : Hook :=
  let ty := tyOf p
  if off < 0x040 then headerHook p off v
  else if ty < 0x1000 ∧ ty ≠ 0x0003 then coreHook ty p off v
  else if ty = 0x2003 then hostHook a p off v
  else if 0x1000 ≤ ty ∧ ty < 0x3000 then switchHook ty p off v
  else if ty / 0x1000 = 3 then busHook ty p off v
  else if ty / 0x1000 = 4 ∨ ty / 0x1000 = 5 then loadHook ty p off v
  else if ty / 0x1000 = 6 then inputHook ty p off v
  else if ty / 0x1000 = 7 ∨ ty = 0x0003 then twinHook a ty p off v
  else if ty / 0x1000 = 8 ∨ ty / 0x1000 = 9 then guardHook ty p off v
  else if ty / 0x1000 = 0xA then memoryHook a ty p off v
  else if ty / 0x1000 = 0xB then secureHook a ty p off v
  else if ty / 0x1000 = 0xC then clockHook a ty p off v
  else healthHook ty p off v

/-- A write to a register, whoever makes it (R603, spec/13 R407). -/
def State.writeReg (s : State) (a : Access) (p off : Nat) (v : Word) : State :=
  if off = PART_REQ then s.partWrite a p v
  else s.regWrite a p off v (regHook a p off v).pre (regHook a p off v).eff

/-- The side effect of reading a register with RS fields (R34, R52): on strict pages only. -/
def rsEff (p off : Nat) (s : State) : State :=
  let i := instOf p
  match tyOf p with
  | 0x0006 => if off = MB_TAKE then takeEff i s else s
  | 0x3003 => if off = CX_OBJ_REL then objRelEff i s else if off = CX_PSR then psrEff i s else s
  | 0x3004 => if off = LN_RX_POP then rxPopEff i s else s
  | 0xD002 => if off = LOG_TAKE then logTakeEff s else s
  | 0xE002 => if off = PTP_TS_NS then ptpPop s else s
  | _ => s

/-- A read of a register; the debug agent's read has no side effect (R54). -/
def State.fetchReg (s : State) (a : Access) (p off : Nat) : State :=
  s.regRead a p off (if a.agent = 0x60 then id else rsEff p off)

end Sys2Proof.Machine
end

