-- ==== Sys2Proof/Machine/Header.lean ====
section
/-!
DEFINITION. Accesses to pages, to memory regions and to a core's own registers, and the commands of the common header (spec/02
R37-R58, R603, R604).
-/

namespace Sys2Proof.Machine

/-- A core access reaches its physical address: at a VM level the address is an IPA (spec/13 R398), except in the core's own
tightly coupled memory. -/
def State.reach (s : State) (a : Access) (op : MemOp) (addr : Nat) : State × Option Nat :=
  match s.levelOf a with
  | .vm v => if ownTcm a.agent addr then (s, some addr) else s.coreTranslate v.val ((agentCore a.agent).getD 0) op addr
  | _ => (s, some addr)

/-- An access by physical address of the width of `data`, to a page or a memory region; a write stores `data`. -/
def State.accessAt (s : State) (a : Access) (op : MemOp) (pa : Nat) (data : List Nat) : State :=
  if (pageOf pa).isSome then
    (let b := { a with size := data.length }
     if op == .write then s.writeReg b (pageBase pa) (pageOff pa) (BitVec.ofNat 32 (ofBytesLE data))
     else s.fetchReg b (pageBase pa) (pageOff pa))
  else s.physAccess a op pa data

/-- A core access by the address that the core uses. -/
def State.memAccess (s : State) (a : Access) (op : MemOp) (addr : Nat) (data : List Nat) : State :=
  if !s.up.compute || data.isEmpty then s.refused
  else
    match s.reach a op addr with
    | (s1, some pa) => s1.accessAt a op pa data
    | (s1, none) => s1.refused

def execMemoryRegionAccess (a : Access) (op : MemOp) (addr : Nat) (data : List Nat) (s : State) :
    Host.Outcome State Fault Refusal :=
  .next (s.memAccess a op addr data)

/-! Registers without a row of their own. -/

/-- A write to a register of the core itself: the world latch is the monitor's (spec/13 R393), the VM register and the
normal-world timers the hypervisor's, the secure timer the secure world's (spec/12 Table 12-4). -/
def ownWriteAllowed (lv : Level) (core : Nat) : RegTarget → Bool
  | .page _ _ => true
  | .sendWord _ _ => true
  | .worldLatch _ => lvMonitor lv && core != 12
  | .vmRegister _ => (lvMonitor lv || lvWorld lv == 1) && core != 12
  | .deadline secure _ => if secure then lvWorld lv == 0 else (lvMonitor lv || lvWorld lv == 1) && core != 12
  | .quantum _ => (lvMonitor lv || lvWorld lv == 1) && core != 12
  | .eventSelect _ _ => true

/-- The register of the core after the write. -/
def ownWrite (t : RegTarget) (k : CoreState) : CoreState :=
  match t with
  | .page _ _ => k
  | .sendWord i v => { k with sendWords := setNth k.sendWords i.val v.toNat }
  | .worldLatch n => { k with latch := n }
  | .vmRegister v => { k with vmReg := v.val }
  | .deadline secure d => if secure then { k with secDeadline := d } else { k with normDeadline := d }
  | .quantum n => { k with quantum := n }
  | .eventSelect j e => { k with perfSel := setNth k.perfSel j.val e.val }

/-- A write to a register of its own by a core that runs. -/
def State.writeOwn (s : State) (a : Access) (t : RegTarget) : State :=
  match agentCore a.agent with
  | none => s.refused
  | some c =>
    if s.agentUp a.agent && ownWriteAllowed (s.levelOf a) c t then (s.modCore c (ownWrite t)).ok else s.refused

def execRegisterWrite (a : Access) (t : RegTarget) (s : State) : Host.Outcome State Fault Refusal :=
  .next (
    match t with
    | .page addr v =>
      if !s.up.compute then s.refused
      else if (pageOf addr).isSome then s.writeReg a (pageBase addr) (pageOff addr) v
      else s.unmapped addr
    | _ => s.writeOwn a t)

/-- An access to an address of no page and no memory region (R57). -/
def execAccessUnmapped (_ : Access) (addr : Nat) (s : State) : Host.Outcome State Fault Refusal :=
  .next (
    if !s.up.compute then s.refused
    else if (pageOf addr).isSome then s
    else
      match regionOf addr with
      | .none => s.unmapped addr
      | .periph => s.unmapped addr
      | _ => s)

/-! The common header. -/

def execOwnerWrite (a : Access) (page : Nat) (v : Word) (s : State) : Host.Outcome State Fault Refusal :=
  .next (s.writeReg a (pageBase page) OWNER v)

def execSoftRst (a : Access) (page : Nat) (v : Word) (s : State) : Host.Outcome State Fault Refusal :=
  .next (s.writeReg a (pageBase page) BLK_CTRL v)

def execSoftRstDone (page : Nat) (s : State) : Host.Outcome State Fault Refusal :=
  .next (
    let p := pageBase page
    if s.pageUp p && s.on p BLK_CTRL_SOFT_RST then s.softResetDone p else s)

def execFreezeWrite (a : Access) (page : Nat) (v : Word) (s : State) : Host.Outcome State Fault Refusal :=
  .next (s.writeReg a (pageBase page) BLK_CTRL v)

/-- A write of ones to INT_RAW clears those bits; `hw` are the bits that the hardware sets in the same clock: they end set
(R44). -/
def execIntRawClear (a : Access) (page : Nat) (v hw : Word) (s : State) : Host.Outcome State Fault Refusal :=
  .next (
    let p := pageBase page
    let s1 := s.writeReg a p INT_RAW v
    if s1.pageUp p then s1.wr p INT_RAW (s1.rd p INT_RAW ||| hw) else s1)

def execIntSet (a : Access) (page : Nat) (v : Word) (s : State) : Host.Outcome State Fault Refusal :=
  .next (s.writeReg a (pageBase page) INT_SET v)

/-- CLR, and an error (code, locator) that the page detects in the same clock: it is recorded after the clear (R45). -/
def execErrCapClr (a : Access) (page : Nat) (v : Word) (same : Option (Nat × Nat)) (s : State) :
    Host.Outcome State Fault Refusal :=
  .next (
    let p := pageBase page
    let s1 := s.writeReg a p ERR_CAP v
    match same with
    | some (code, loc) => if s1.pageUp p then s1.err p (code % 0x10000) loc else s1
    | none => s1)

def execErrInjArm (a : Access) (page : Nat) (v : Word) (s : State) : Host.Outcome State Fault Refusal :=
  .next (s.writeReg a (pageBase page) ERR_INJ v)

/-- POLICY = 0b10; `waiting` is the address of an access that has not drained (R48). -/
def execClkReqForceOff (a : Access) (page : Nat) (v : Word) (waiting : Option Nat) (s : State) :
    Host.Outcome State Fault Refusal :=
  .next (
    let p := pageBase page
    let s1 := s.writeReg a p CLK_REQ v
    match waiting with
    | some addr =>
      if s1.resp.status = .ok ∧ s.get p CLK_REQ_POLICY ≠ 2 ∧ s1.get p CLK_REQ_POLICY = 2 ∧ pageBase addr = p then
        { s1 with shell.draining := s1.shell.draining ++ [(p, addr)] }
      else s1
    | none => s1)

/-- 2 µs after a force-off the accesses that have not drained end with error responses (R48). -/
def execForceOffDrainTimeout (page : Nat) (s : State) : Host.Outcome State Fault Refusal :=
  .next (
    let p := pageBase page
    match s.shell.draining.find? fun e => e.1 == p with
    | some e =>
      let s1 := { s with shell.draining := s.shell.draining.filter fun e => e.1 != p }
      ((s1.errCause p 0x06 e.2).set p CLK_REQ_DRAIN_ERR 1).refused
    | none => s)

/-! Strict pages (R52-R54). -/

/-- A speculative or prefetch read of a strict page; the refusal is counted by the core (spec/12 R373). -/
def execSpeculativeReadRefused (a : Access) (addr : Nat) (s : State) : Host.Outcome State Fault Refusal :=
  .next (
    if !s.up.compute || !strictTy (tyOf addr) then s
    else
      let s1 := match agentCore a.agent with
        | some c => (s.cnt (pCORE c) CORE_CNT_SPEC_V).countEvent c (lvWorld (s.levelOf a)) 0x83
        | none => s
      s1.answer .speculationRefused 0)

def ctxLevel : Ctx → Level
  | .vm v => .vm (Fin.ofNat 16 v)
  | .hyp => .hypervisor
  | .secure => .secure

/-- A device DMA read of a strict page: cause 0x05 on the page. -/
def execStrictPageDmaRead (src : Fin 17) (addr : Nat) (s : State) : Host.Outcome State Fault Refusal :=
  .next (
    if !s.up.compute || !strictTy (tyOf addr) then s
    else
      let p := pageBase addr
      let allowed := s.owns (ctxLevel (s.srcCtx src.val)) p
      if allowed then (s.errCause p 0x05 addr).refused else (s.errCause p 0x01 addr).refused)

/-- The debug agent reads a register: an RS field has no side effect. -/
def execDebugRsRead (addr : Nat) (s : State) : Host.Outcome State Fault Refusal :=
  .next (
    if !s.up.compute then s.refused
    else if (pageOf addr).isSome then s.fetchReg ⟨0x60, .secure, 4⟩ (pageBase addr) (pageOff addr)
    else s.unmapped addr)

end Sys2Proof.Machine
end

