-- ==== Sys2Proof/Machine/Requests.lean ====
section
/-!
DEFINITION. Requests that arrive over bridges and crossings: read and write requests of the twin and what they answer (spec/10
R308-R310, spec/13 R406), packets rebuilt from RSV flits (R302, Table 10-5), and accesses that a crossing has made wait
(spec/17 R495).
-/

namespace Sys2Proof.Machine

/-! Why an access fails, as a common cause of Table 02-7. -/

/-- The cause for a register. -/
def State.regStatus (s : State) (a : Access) (p off : Nat) (write : Bool) (v : Word) : Nat :=
  match s.accessCause a p off write with
  | some c => c
  | none =>
    if write then
      match s.valueCause p off v with
      | some c => c
      | none => ((regHook a p off v).pre s).getD 0x0B
    else 0x0B

/-- The cause for an address outside the pages. Table 02-7 has none for a word that cannot be corrected: a free value. -/
def State.memStatus (s : State) (a : Access) (op : MemOp) (pa n : Nat) : Nat :=
  match regionOf pa with
  | .none => 0x04
  | .periph => 0x04
  | .sram => (match s.ramStop (lvWorld (s.levelOf a)) false (op == .write) pa n with
      | some .unmapped => 0x04
      | some .off => 0x08
      | some _ => 0x01
      | none => s.free % 256)
  | .dram => (match s.ramStop (lvWorld (s.levelOf a)) false (op == .write) pa n with
      | some .unmapped => 0x04
      | some .off => 0x08
      | some _ => 0x01
      | none => s.free % 256)
  | .nor => if op == .write || lvWorld (s.levelOf a) != 0 then 0x01 else s.free % 256
  | _ => if (s.levelOf a) = .monitor then 0x03 else 0x01

/-- One 32-bit access for a request at a physical address: the state after it and its status, 0 when it is done. -/
def State.serve (s : State) (a : Access) (pa : Nat) (w : Option Word) : State × Nat :=
  let op := if w.isSome then MemOp.write else MemOp.read
  let v := w.getD 0
  let s1 := s.accessAt a op pa (bytesLE 4 v.toNat)
  if s1.resp.status = .ok then (s1, 0)
  else if (pageOf pa).isSome then (s1, s.regStatus a (pageBase pa) (pageOff pa) w.isSome v)
  else (s1.took, s.memStatus a op pa 4)

/-! The twin bridge. -/

/-- A request of the twin: agent 0x40, never monitor level; one of a VM carries an IPA, translated here as device DMA (R309,
spec/13 R406). The spec gives a failed translation no common cause: a free value. -/
def State.twinRequest (s : State) (r : BridgeRequest) (w : Option Word) : State × Nat :=
  let a : Access := ⟨0x40, levelFor r.world.val r.vmNo.val, 4⟩
  if !s.on pTBR TBR_CTRL_REMOTE_EN then (s.refused, 0x01)
  else if r.world.val = 2 then
    match s.translate 0x40 (.vm r.vmNo.val) (if w.isSome then .write else .read) r.addr with
    | (s1, .ok pa _ _ _) => s1.serve a pa w
    | (s1, .fault k l) => (((s1.dmaFaulted 0x40 false w.isSome r.addr k l).took).refused, s1.free % 256)
  else if 2 ^ 36 ≤ r.addr then (s.unmapped r.addr, 0x04)
  else s.serve a r.addr w

/-- A request over a die bridge is one of the compute die to a page of that die. -/
def State.dieRequest (s : State) (d : Nat) (r : BridgeRequest) (w : Option Word) : State × Nat :=
  if bridgeDie (tyOf r.addr) = some d then s.serve ⟨r.agent, levelFor r.world.val r.vmNo.val, 4⟩ r.addr w
  else (s.unmapped r.addr, 0x04)

def State.serveFor (s : State) (b : Nat) (r : BridgeRequest) (w : Option Word) : State × Nat :=
  if b < 2 then s.dieRequest b r w else s.twinRequest r w

/-- A read request: its completion carries the data (Table 10-5). -/
def State.readIn (s : State) (b : Nat) (r : BridgeRequest) : State :=
  if !s.brUp b then s
  else
    let (s1, st) := s.serveFor b r none
    s1.sendRsv b 1 3 (st :: bytesBE 4 (if st = 0 then s1.resp.data else 0)) false r.tag.val

/-- A write request: a completion, or for a posted write a notice where it fails (R310). -/
def State.writeIn (s : State) (b : Nat) (r : BridgeRequest) (posted : Bool) (data : Word) : State :=
  if !s.brUp b then s
  else
    let (s1, st) := s.serveFor b r (some data)
    if !posted then s1.sendRsv b 1 4 [st] false r.tag.val
    else if st = 0 then s1
    else s1.sendRsv b 1 5 (st :: bytesBE 5 r.addr)

def execReadRequest (clocks : Nat) (br : Fin 3) (r : BridgeRequest) (s : State) : Host.Outcome State Fault Refusal :=
  .next ((s.advance clocks).readIn br.val r)

def execWriteRequest (clocks : Nat) (br : Fin 3) (r : BridgeRequest) (posted : Bool) (data : Word) (s : State) :
    Host.Outcome State Fault Refusal :=
  .next ((s.advance clocks).writeIn br.val r posted data)

/-! Packets rebuilt from flits. -/

/-- The state of an outcome. -/
def after (s : State) : Host.Outcome State Fault Refusal → State
  | .next t => t
  | _ => s

/-- The request in a packet: tag of the header, body (Table 10-5). A world that does not exist makes none. -/
def requestOf (l : List Nat) : Option BridgeRequest :=
  let w := nth l 9 0 % 4
  if h : w < 3 then
    some { tag := Fin.ofNat 64 (nth l 1 0), addr := ofBytesBE ((l.drop 4).take 5), world := ⟨w, h⟩
           vmNo := Fin.ofNat 16 (nth l 9 0 / 16), agent := nth l 10 0 }
  else none

/-- Kinds of Table 10-5 on VC 0 and VC 1. -/
def State.accessPacket (s : State) (b kind : Nat) (l : List Nat) : State :=
  let tag : Fin 64 := Fin.ofNat 64 (nth l 1 0)
  let br : Fin 3 := Fin.ofNat 3 b
  match kind with
  | 1 => (match requestOf l with | some r => s.readIn b r | none => s)
  | 2 =>
    (match requestOf l with
     | some r => s.writeIn b r (decide (128 ≤ nth l 1 0)) (BitVec.ofNat 32 (flitField l 12 4))
     | none => s)
  | 3 => after s (execReadCompletion 0 br tag (nth l 4 0) (BitVec.ofNat 32 (flitField l 5 4)) s)
  | 4 => after s (execWriteCompletion 0 br tag (nth l 4 0) s)
  | 5 => after s (execPostedWriteErrorNotice 0 br (nth l 4 0) (flitField l 5 5) s)
  | _ => s

/-- Kinds of Table 10-5 on VC 2 and VC 3. -/
def State.twinPacket (s : State) (kind : Nat) (l : List Nat) : State :=
  let body := l.drop 4
  match kind with
  | 0x10 => after s (execInputImagePacket 0 body s)
  | 0x11 => after s (execOutputImagePacket 0 (flitField body 0 2) (nth body 2 0 % 64) (flitField body 4 2) (flitField body 6 2) s)
  | 0x12 =>
    let k := nth body 22 0 % 4
    let kind := if k = 1 then AnnKind.correction else if k = 2 then AnnKind.reindex else AnnKind.boundary
    if k = 3 then s
    else after s (execPlateAnnouncement 0 kind (flitField body 0 4) (flitField body 4 4) (flitField body 8 4) (flitField body 12 6)
      (flitField body 18 4) s)
  | 0x13 =>
    after s (execPairingPacket 0 ⟨flitField body 0 16, nth body 16 0, nth body 17 0, nth body 18 0 % 8, flitField body 20 2,
      flitField body 22 2⟩ s)
  | 0x14 => after s (execHandoverPacket 0 (flitField body 0 4) ((nth body 4 0).testBit 0) s)
  | 0x20 => after s (execCheckpointMirrorPacket 0 (Fin.ofNat 4 (nth body 4 0)) (flitField body 0 4) (body.drop 8) s)
  | 0x30 => after s (execMigrationPage 0 (flitField body 0 5) (Fin.ofNat 16 (nth body 5 0)) (body.drop 8) s)
  | 0x31 => after s (execMigrationControl 0 (nth body 0 0) (nth body 1 0) (flitField body 2 4) s)
  | _ => s

/-- A whole packet: a kind acts on its own VC only. -/
def State.packetIn (s : State) (b : Nat) (l : List Nat) : State :=
  let vc := nth l 0 0 / 64
  let kind := nth l 0 0 % 64
  if (vc = 0 ∧ (kind = 1 ∨ kind = 2)) ∨ (vc = 1 ∧ 3 ≤ kind ∧ kind ≤ 5) then s.accessPacket b kind l
  else if b = 2 ∧ ((vc = 2 ∧ kind / 16 = 1) ∨ (vc = 3 ∧ 0x20 ≤ kind)) then s.twinPacket kind l
  else s

/-- An RSV flit arrives; the packet that it completes acts. -/
def execRsvFlitReceive (clocks : Nat) (br : Fin 3) (ty : Fin 16) (order : Nat) (octets : List Nat) (good : Bool) (s : State) :
    Host.Outcome State Fault Refusal :=
  .next (
    match (s.advance clocks).rsvFlit br.val ty.val order octets good with
    | (s1, some l) => s1.packetIn br.val l
    | (s1, none) => s1)

/-! Crossings. -/

/-- Both sides are out of reset and the re-handshake is over: what waited is delivered without error (R495). -/
def execCrossingRehandshake (domain : ClockDomain) (waiting : List WaitingAccess) (s : State) :
    Host.Outcome State Fault Refusal :=
  .next (
    if !s.up.compute || !s.shell.crossed.contains domain then s
    else
      ({ s with shell.crossed := s.shell.crossed.filter fun d => d != domain }).each waiting fun s x =>
        match x.write with
        | some v => s.memAccess x.a .write x.addr (bytesLE x.a.size v.toNat)
        | none => s.memAccess x.a .read x.addr (bytesLE x.a.size 0))

end Sys2Proof.Machine
end

