-- ==== Sys2Proof/Machine/Release.lean ====
section
/-!
DEFINITION. What leaves a Caliper pair (spec/11 R341, R347-R354): loads and their forwarding, the write-hold buffer, checkpoint
triggers, and the checkpoint with its slot and the release of held entries.
-/

namespace Sys2Proof.Machine

/-- The access comes from the leading core of a pair that runs under the Caliper. -/
def State.ledBy (s : State) (k : Nat) (a : Access) : Bool := s.pairRuns k && a.agent == coreAgent (leadOf k)

/-- The peripheral region. -/
def isPeriph (pa : Nat) : Bool := decide (0x20000000 ≤ pa) && decide (pa < 0x21000000)

/-- A register with RS fields (spec/02 R52). -/
def isRs (p off : Nat) : Bool :=
  match tyOf p with
  | 0x0006 => off == MB_TAKE
  | 0x3003 => off == CX_OBJ_REL || off == CX_PSR
  | 0x3004 => off == LN_RX_POP
  | 0xD002 => off == LOG_TAKE
  | 0xE002 => off == PTP_TS_NS
  | _ => false

/-- The held entry is a write to the page of an address. -/
def heldTo (pa : Nat) : Held → Bool
  | .periph _ addr _ => pageBase addr == pageBase pa
  | .store _ _ _ _ => false
  | .send _ _ _ _ => false

/-! Stores (R347). -/

/-- The bytes of a store that fall into the aligned word w: mask and data. -/
def wordPart (addr : Nat) (data : List Nat) (w : Nat) : Nat × Nat :=
  (List.range 8).foldl (fun m i =>
    if addr ≤ w + i ∧ w + i < addr + data.length then
      (m.1 + 2 ^ i, m.2 + nth data (w + i - addr) 0 * 256 ^ i) else m) (0, 0)

/-- Bytes of `new` where the mask has a one, of `old` elsewhere. -/
def maskMerge (mask old new : Nat) : Nat :=
  (List.range 8).foldl (fun n i => putBits n (8 * i) 8 (bitsOf (if mask.testBit i then new else old) (8 * i) 8)) 0

/-- The store of one word merges into the entry that the open interval holds for it. -/
def mergeHeld (a : Access) (w mask data : Nat) : List Held → Option (List Held)
  | [] => none
  | .store b w' m d :: t =>
    if w' = w then some (.store a w (m ||| mask) (maskMerge mask d data) :: t)
    else (mergeHeld a w mask data t).map fun l => .store b w' m d :: l
  | h :: t => (mergeHeld a w mask data t).map fun l => h :: l

def State.holdWord (s : State) (k : Nat) (a : Access) (w mask data : Nat) : State :=
  match mergeHeld a w mask data (s.calOf k).held with
  | some l => s.modCal k fun x => { x with held := l }
  | none => s.holdEntry k (.store a w mask data)

/-- The aligned words that n bytes from addr touch. -/
def wordsTouched (addr n : Nat) : List Nat := (List.range ((addr % 8 + n + 7) / 8)).map fun j => addr / 8 * 8 + 8 * j

/-- A store to memory: one entry for each word that has none; with too few free the core stalls. -/
def State.holdStore (s : State) (k : Nat) (a : Access) (pa : Nat) (data : List Nat) : State :=
  let held := (s.calOf k).held
  let new := (wordsTouched pa data.length).filter fun w => (mergeHeld a w 0 0 held).isNone
  if 4096 < held.length + new.length then s
  else
    (s.each (wordsTouched pa data.length) fun s w => s.holdWord k a w (wordPart pa data w).1 (wordPart pa data w).2).ok

/-- A peripheral write takes an entry of its own (R347), and with PER_CKPT = 1 a checkpoint (Table 11-2). -/
def State.holdPeriph (s : State) (k : Nat) (a : Access) (pa : Nat) (v : Word) : State :=
  if 4096 ≤ (s.calOf k).held.length then s
  else
    let s1 := s.holdEntry k (.periph a pa v)
    (if s1.on (pCAL k) CAL_CTRL_PER_CKPT then s1.trigger k 8 else s1).ok

/-- A store leaves the leading core: translation and the width rules of its own memories come first (spec/02 R604). -/
def State.pairStore (s : State) (k : Nat) (a : Access) (addr : Nat) (data : List Nat) : State :=
  match s.reach a .write addr with
  | (s1, none) => s1.refused
  | (s1, some pa) =>
    if isPeriph pa then s1.holdPeriph k { a with size := data.length } pa (BitVec.ofNat 32 (ofBytesLE data))
    else
      match regionOf pa with
      | .tcm _ => if smallWidth data.length pa then s1.holdStore k a pa data else s1.regionRefuse pa 0x03
      | .ckpt _ => if smallWidth data.length pa then s1.holdStore k a pa data else s1.regionRefuse pa 0x03
      | _ => s1.holdStore k a pa data

def execCoreStore (a : Access) (pair : Fin 6) (addr : Nat) (data : List Nat) (s : State) : Host.Outcome State Fault Refusal :=
  .next (if s.ledBy pair.val a && !data.isEmpty then s.pairStore pair.val a addr data else s)

def execPeripheralWrite (a : Access) (pair : Fin 6) (addr : Nat) (v : Word) (s : State) : Host.Outcome State Fault Refusal :=
  .next (if s.ledBy pair.val a then s.pairStore pair.val a addr (bytesLE a.size v.toNat) else s)

/-! Loads (R341, R347). -/

/-- The held byte at an address. -/
def heldByte (pa : Nat) : List Held → Option Nat
  | [] => none
  | .store _ w m d :: t =>
    if w ≤ pa ∧ pa < w + 8 ∧ m.testBit (pa - w) then some (bitsOf d (8 * (pa - w)) 8) else heldByte pa t
  | _ :: t => heldByte pa t

/-- The held data where the buffer holds it, memory elsewhere. -/
def State.overlay (s : State) (k pa n : Nat) : Nat :=
  ofBytesLE ((List.range n).map fun i => (heldByte (pa + i) (s.calOf k).held).getD (bitsOf s.resp.data (8 * i) 8))

/-- A closing access waits for its checkpoint (R352). -/
def State.close (s : State) (k code : Nat) (c : Closing) : State :=
  if (s.calOf k).closing.isSome then s else (s.modCal k fun x => { x with closing := some c }).trigger k code

/-- A load of the leading core. An RS register closes the interval; a page with a held write asks for a checkpoint first. -/
def State.pairLoad (s : State) (k : Nat) (a : Access) (addr : Nat) : State :=
  match s.reach a .read addr with
  | (s1, none) => s1.refused
  | (s1, some pa) =>
    if isPeriph pa then
      (if isRs (pageBase pa) (pageOff pa) then s1.close k 4 (.read a pa)
       else if (s1.calOf k).held.any (heldTo pa) then s1.trigger k 7
       else s1.accessAt a .read pa (bytesLE a.size 0))
    else
      let n := a.size
      let whole := (List.range n).all fun i => (heldByte (pa + i) (s1.calOf k).held).isSome
      let s2 := if whole then s1.ok else s1.accessAt a .read pa (bytesLE n 0)
      if s2.resp.status = .ok then s2.ok (s2.overlay k pa n) else s2

/-- The value is forwarded to the trailing core, which checks its own address and size (R341). -/
def execCoreLoad (a : Access) (pair : Fin 6) (addr trailAddr trailSize : Nat) (s : State) :
    Host.Outcome State Fault Refusal :=
  .next (
    let k := pair.val
    if !s.ledBy k a then s
    else
      let s1 := s.pairLoad k a addr
      if s1.pairState k = cCOMPARED ∧ (trailAddr ≠ addr ∨ trailSize ≠ a.size) then s1.mismatch k 2 else s1)

def execRsRead (a : Access) (pair : Fin 6) (addr : Nat) (s : State) : Host.Outcome State Fault Refusal :=
  .next (
    let k := pair.val
    if s.ledBy k a then
      match s.reach a .read addr with
      | (s1, some pa) => if isPeriph pa && isRs (pageBase pa) (pageOff pa) then s1.close k 4 (.read a pa) else s1
      | (s1, none) => s1.refused
    else s)

def execAtomic (a : Access) (pair : Fin 6) (addr : Nat) (op : AtomicOp) (operand : Nat) (s : State) :
    Host.Outcome State Fault Refusal :=
  .next (
    let k := pair.val
    if s.ledBy k a then
      match s.reach a .write addr with
      | (s1, some pa) => s1.close k 5 (.atomic a pa op operand)
      | (s1, none) => s1.refused
    else s)

/-! Other triggers (Table 11-2). -/

def execBarrier (pair : Fin 6) (s : State) : Host.Outcome State Fault Refusal :=
  .next (if s.pairRuns pair.val then s.trigger pair.val 6 else s)

def execPeripheralReadCheckpoint (a : Access) (pair : Fin 6) (addr : Nat) (s : State) : Host.Outcome State Fault Refusal :=
  .next (
    let k := pair.val
    if s.ledBy k a then
      match s.reach a .read addr with
      | (s1, some pa) => if (s1.calOf k).held.any (heldTo pa) then s1.trigger k 7 else s1
      | (s1, none) => s1.refused
    else s)

/-- PERIOD µs since the last checkpoint of an AP pair. -/
def execCheckpointPeriod (pair : Fin 6) (s : State) : Host.Outcome State Fault Refusal :=
  .next (if s.pairRuns pair.val && pair.val < 4 then s.trigger pair.val 2 else s)

def execWriteHoldHigh (pair : Fin 6) (s : State) : Host.Outcome State Fault Refusal :=
  .next (
    let k := pair.val
    if s.pairRuns k && decide (s.get (pCAL k) CAL_CKPT_WH_HIGH ≤ (s.calOf k).held.length) then s.trigger k 3 else s)

/-! Release (R348, R349). -/

/-- A released write has ended with an error response. -/
def State.releaseError (s : State) (k addr : Nat) : State :=
  ((s.irq (pCAL k) INT_CAL_REL_ERR).err (pCAL k) 0x8210 (addr % 2 ^ 32)).cnt (pCAL k) CAL_CNT_MISM_REL_ERR

def execReleasedWriteError (pair : Fin 6) (addr : Nat) (s : State) : Host.Outcome State Fault Refusal :=
  .next (if s.pairRuns pair.val then s.releaseError pair.val addr else s)

/-- The bytes of a held word, by runs without a gap. -/
def maskRuns (mask : Nat) : List (Nat × Nat) :=
  (List.range 8).filterMap fun i =>
    if mask.testBit i && !(decide (0 < i) && mask.testBit (i - 1)) then
      some (i, (((List.range (8 - i)).takeWhile fun j => mask.testBit (i + j)).length))
    else none

/-- A run of bytes is stored; stores of a real-time pair go to the rejoining twin too (spec/10 R334). -/
def State.releaseRun (s : State) (k : Nat) (a : Access) (addr : Nat) (data : List Nat) : State :=
  let bytewise := match regionOf addr with
    | .tcm _ => true
    | .ckpt _ => true
    | _ => false
  let s1 := if bytewise then
      data.zipIdx.foldl (fun (s : State) (e : Nat × Nat) =>
        if e.2 = 0 ∨ s.resp.status = .ok then s.physAccess a .write (addr + e.2) [e.1] else s) s
    else s.physAccess a .write addr data
  if s1.resp.status = .ok then (if 4 ≤ k then s1.mirrorStore addr data else s1) else s1.releaseError k addr

/-- One entry leaves the pair. -/
def State.releaseEntry (s : State) (k : Nat) : Held → State
  | .store a w m d =>
    s.each (maskRuns m) fun s r => s.releaseRun k a (w + r.1) ((List.range r.2).map fun i => bitsOf d (8 * (r.1 + i)) 8)
  | .periph a addr v =>
    let s1 := if (pageOf addr).isSome then s.writeReg a (pageBase addr) (pageOff addr) v else s.unmapped addr
    if s1.resp.status = .ok then s1 else s1.releaseError k addr
  | .send a ch len words => s.coreSend a ch len words

/-- The entries of the closed interval, in program order. -/
def State.releaseAll (s : State) (k : Nat) : State :=
  let held := (s.calOf k).held
  let s1 := (s.modCal k fun x => { x with held := [] }).set (pCAL k) CAL_WH_USED 0
  let s2 := s1.each held fun s h => s.releaseEntry k h
  if 4 ≤ k then s2.outputsReleased else s2

/-! The access that closes an interval (R352). -/

def atomicNew (op : AtomicOp) (old operand n : Nat) : Nat :=
  match op with
  | .swap => operand
  | .add => (old + operand) % 256 ^ n
  | .and => old &&& operand
  | .or => old ||| operand
  | .xor => old ^^^ operand
  | .compareSwap e => if old = e then operand else old

/-- The access is issued once; its result is what it has read. -/
def State.issueClosing (s : State) : Closing → State
  | .read a pa => s.accessAt a .read pa (bytesLE a.size 0)
  | .atomic a pa op operand =>
    let s1 := s.accessAt a .read pa (bytesLE a.size 0)
    if s1.resp.status ≠ .ok then s1
    else
      let old := s1.resp.data
      let s2 := s1.accessAt a .write pa (bytesLE a.size (atomicNew op old operand a.size))
      if s2.resp.status = .ok then s2.ok old else s2

/-! The checkpoint (R350-R354). -/

/-- The code recorded: that of the closing access, else that of the oldest trigger. -/
def CalState.reason (x : CalState) : Nat :=
  match x.closing with
  | some (.read _ _) => 4
  | some (.atomic _ _ _ _) => 5
  | none => x.due.headD 0

/-- The header of Table 11-4. -/
def State.slotHeader (s : State) (k code : Nat) (result : Option Nat) : List Nat :=
  let x := s.calOf k
  bytesLE 8 x.seq ++ bytesLE 8 x.retired ++ bytesLE 8 (stampSec s.nowQ * 2 ^ 32 + stampNs s.nowQ)
    ++ bytesLE 2 ((s.rd pIXP IXP_CYC).toNat % 0x10000) ++ [s.get pIXP IXP_STAT_CUR_IX, code] ++ bytesLE 8 (result.getD 0)
    ++ [1 + 2 * result.isSome.toNat] ++ List.replicate 27 0

/-- The state goes to the inactive slot, which becomes the active one. -/
def State.writeSlot (s : State) (k code : Nat) (result : Option Nat) (arch : List Nat) : State :=
  let p := pCAL k
  let slot := 1 - s.get p CAL_STAT_SLOT
  let s1 := s.modCal k fun x => { x with seq := (x.seq + 1) % 2 ^ 64 }
  let s2 := s1.setBytes (slotAddr k slot) (s1.slotHeader k code result ++ arch.take (0x8000 - 0x40))
  let s3 := (s2.set p CAL_STAT_SLOT slot).set p CAL_STAT_LAST_REASON code
  let s4 := s3.cntWrap p CAL_CNT_CKPT_V
  let s5 := if code < 3 then s4
    else (if code = 3 then s4.cntWrap p CAL_CNT_EARLY_WH else s4.cntWrap p CAL_CNT_EARLY_OTHER).irq p INT_CAL_EARLY
  ({ s5 with slotBad := s5.slotBad.filter fun j => j != k }.modCal k fun x => { x with due := [], closing := none, sigLead := 2 ^ 64 - 1, sigTrail := 2 ^ 64 - 1 }).countEvent (2 * k) 1 0x82

/-- A checkpoint that has compared equal, or of a pair that runs alone. A released write may reset the pair itself. -/
def State.takeCheckpoint (s : State) (k : Nat) (arch : List Nat) : State :=
  let x := s.calOf k
  let s1 := s.releaseAll k
  if !s1.pairRuns k then s1
  else
  match x.closing with
  | some c =>
    let s2 := s1.issueClosing c
    s2.writeSlot k x.reason (if s2.resp.status = .ok then some s2.resp.data else none) arch
  | none => s1.writeSlot k x.reason none arch

def execCheckpoint (clocks : Nat) (pair : Fin 6) (c : CompareIn) (arch : List Nat) (s : State) :
    Host.Outcome State Fault Refusal :=
  .next (
    let s1 := s.advance clocks
    let k := pair.val
    if !s1.pairRuns k || (s1.calOf k).due.isEmpty then s1
    else
      match s1.compare k c with
      | (s2, true) => s2.takeCheckpoint k arch
      | (s2, false) => s2)

/-- A refused speculative load commits and is issued again (spec/12 R373); the leading core of a pair issues it under R352. -/
def execSpeculativeLoadReissue (a : Access) (addr : Nat) (s : State) : Host.Outcome State Fault Refusal :=
  .next (
    match (agentCore a.agent).bind s.leads with
    | some k => if s.ledBy k a then s.pairLoad k a addr else s
    | none => s.memAccess a .read addr (bytesLE a.size 0))

end Sys2Proof.Machine
end

