-- ==== Sys2Proof/Machine/Edge.lean ====
section
/-!
DEFINITION. The edges of the indexing plate and the blocks attached to it (spec/03 R79, R82, R83, R90, R91, Table 03-5).
-/

namespace Sys2Proof.Machine

/-- The instant of an edge in module time: the table's for a position that is reached by running, now for a jump. -/
def State.edgeInstant (s : State) (e : EdgeEvent) : Nat :=
  if e.jump then s.nowQ else (s.plate.boundary + (if e.pos = 0 then 0 else s.edgeOffset e.pos : Nat)).toNat

/-- The consumers on the buses: reference messages and LIN schedules (spec/06 R207, R212). Position 64 stands for a boundary whose
IX_0 does not act. -/
def State.busEdge (s : State) (e : EdgeEvent) (io : EdgeInputs) : State :=
  let s0 := s.each (List.range 12) fun s n => s.guardEnds n e.pos e.jump
  let s1 := if e.act then s0.each (List.range 12) fun s n => s.refEdge n e.pos (io.canBusy.contains n) else s0
  if e.act || e.boundary then s1.each (List.range 8) fun s n => s.linEdge n (if e.act then e.pos else 64) e.boundary else s1

/-- Output switching on the power dies; channels that SHUTDOWN turns off go at the first edge outside a freeze (spec/18
R525). -/
def State.outputEdge (s : State) (e : EdgeEvent) : State :=
  let s1 := if s.slp.offDue && e.act && !s.on pIXP IXP_STAT_FROZEN then { s.channelsOff false with slp.offDue := false } else s
  (s1.deliverEdge e 0).deliverEdge e 1

/-- Inputs are sampled, the image is written and goes to the twin; a wake of an input acts (spec/09 R285-R294, spec/10 R322). -/
def State.inputEdge (s : State) (e : EdgeEvent) (io : EdgeInputs) : State :=
  let r := s.inputsAtEdge e (s.edgeInstant e) io
  let s2 := r.1.twinImageAtEdge e.pos r.2.1
  if r.2.2 then s2.wakeIn ⟨3, s2.get pINC INC_WK_LAST_DIN⟩ else s2

/-- The real-time pairs take a checkpoint (spec/11 Table 11-2). -/
def State.pairEdge (s : State) : State := s.each [4, 5] fun s k => if s.pairRuns k then s.trigger k 1 else s

/-- A cycle begins: the cycle tick, role changes, trims and the sleep vote. -/
def State.cycleEdge (s : State) (e : EdgeEvent) : State :=
  if e.boundary then (((s.cycleTick.roleBoundary).coordLook).honBoundary).sleepCheck else s

/-- Every consumer of Table 03-5 at one edge; `pos` is the position before it. -/
def State.edgeActs (s : State) (pos : Nat) (e : EdgeEvent) (io : EdgeInputs) : State :=
  let s1 := ((s.plateConsumers e).gatesAtEdge pos e).busEdge e io
  (((s1.outputEdge e).inputEdge e io).pairEdge).cycleEdge e

def State.edgesAct (io : EdgeInputs) : List EdgeEvent → Nat → State → State
  | [], _, s => s
  | e :: t, pos, s => State.edgesAct io t e.pos (s.edgeActs pos e io)

/-- EN of the IXP page arms or disarms the plate (R82). -/
def execIxpEnable (a : Access) (v : Word) (s : State) : Host.Outcome State Fault Refusal :=
  .next (s.writeReg a pIXP BLK_CTRL v)

/-- The plate starts. -/
def execPlateStart (io : EdgeInputs) (s : State) : Host.Outcome State Fault Refusal :=
  .next (
    match s.plateStarting with
    | some (s1, evs) => State.edgesAct io evs 63 s1
    | none => s)

/-- The next edge of the plate. -/
def execIndexEdge (io : EdgeInputs) (s : State) : Host.Outcome State Fault Refusal :=
  .next (
    let pos := s.get pIXP IXP_STAT_CUR_IX
    let (s1, evs) := s.plateEdge
    State.edgesAct io evs pos s1)

/-- An edge on CYC_SYNC in a sampling phase of the clock (R65); the plate takes the one that SYNC_POL selects (R91). -/
def execCycSyncPulse (tm : Instant) (rising : Bool) (io : EdgeInputs) (s : State) :
    Host.Outcome State Fault Refusal :=
  .next (
    let s1 := s.advance tm.clocks
    if s1.syncActs && rising != s1.on pIXP IXP_CTRL_SYNC_POL then
      let (s2, evs) := s1.cycSync (s1.nowQ + tm.phase.val)
      State.edgesAct io evs 63 s2
    else s1)

end Sys2Proof.Machine
end

