-- ==== Sys2Proof/Machine/Dispatch.lean ====
section
/-!
DEFINITION. The effect of each command: one direct call of its meaning.
-/

namespace Sys2Proof.Machine

def exec (i : Instr) (s : State) : Host.Outcome State Fault Refusal :=
  match i with
  | .registerWrite a t => Sys2Proof.Machine.execRegisterWrite a t s
  | .accessUnmapped a addr => Sys2Proof.Machine.execAccessUnmapped a addr s
  | .memoryRegionAccess a op addr data => Sys2Proof.Machine.execMemoryRegionAccess a op addr data s
  | .ownerWrite a page v => Sys2Proof.Machine.execOwnerWrite a page v s
  | .softRst a page v => Sys2Proof.Machine.execSoftRst a page v s
  | .softRstDone page => Sys2Proof.Machine.execSoftRstDone page s
  | .freezeWrite a page v => Sys2Proof.Machine.execFreezeWrite a page v s
  | .intRawClear a page v hw => Sys2Proof.Machine.execIntRawClear a page v hw s
  | .intSet a page v => Sys2Proof.Machine.execIntSet a page v s
  | .errCapClr a page v same => Sys2Proof.Machine.execErrCapClr a page v same s
  | .errInjArm a page v => Sys2Proof.Machine.execErrInjArm a page v s
  | .clkReqForceOff a page v waiting => Sys2Proof.Machine.execClkReqForceOff a page v waiting s
  | .forceOffDrainTimeout page => Sys2Proof.Machine.execForceOffDrainTimeout page s
  | .speculativeReadRefused a addr => Sys2Proof.Machine.execSpeculativeReadRefused a addr s
  | .strictPageDmaRead src addr => Sys2Proof.Machine.execStrictPageDmaRead src addr s
  | .debugRsRead addr => Sys2Proof.Machine.execDebugRsRead addr s
  | .tmbSnap a v => Sys2Proof.Machine.execTmbSnap a v s
  | .tmbRateWrite a v => Sys2Proof.Machine.execTmbRateWrite a v s
  | .tmbStepGo a v => Sys2Proof.Machine.execTmbStepGo a v s
  | .stepDone => Sys2Proof.Machine.execStepDone s
  | .syncReceive pp offset => Sys2Proof.Machine.execSyncReceive pp offset s
  | .pdelayExchange port delay nrr asCapable => Sys2Proof.Machine.execPdelayExchange port delay nrr asCapable s
  | .ptpMessageTransmit pp kind seq phase => Sys2Proof.Machine.execPtpMessageTransmit pp kind seq phase s
  | .syncReceiptTimeout inst => Sys2Proof.Machine.execSyncReceiptTimeout inst s
  | .ptpTsNsRead a => Sys2Proof.Machine.execPtpTsNsRead a s
  | .twinLinkDelayMeasure delay => Sys2Proof.Machine.execTwinLinkDelayMeasure delay s
  | .ixpCommit a v => Sys2Proof.Machine.execIxpCommit a v s
  | .ixpEnable a v => Sys2Proof.Machine.execIxpEnable a v s
  | .plateStart io => Sys2Proof.Machine.execPlateStart io s
  | .indexEdge io => Sys2Proof.Machine.execIndexEdge io s
  | .cycSyncPulse tm rising io => Sys2Proof.Machine.execCycSyncPulse tm rising io s
  | .gptpReferenceInstant => Sys2Proof.Machine.execGptpReferenceInstant s
  | .syncLostFreerun => Sys2Proof.Machine.execSyncLostFreerun s
  | .plateAnnouncement clocks kind cycle length crc seconds quarters => Sys2Proof.Machine.execPlateAnnouncement clocks kind cycle length crc seconds quarters s
  | .twinTableMismatch => Sys2Proof.Machine.execTwinTableMismatch s
  | .cycOutPulseEnd => Sys2Proof.Machine.execCycOutPulseEnd s
  | .frameReceive clocks port rx => Sys2Proof.Machine.execFrameReceive clocks port rx s
  | .recoveryTimeout ix => Sys2Proof.Machine.execRecoveryTimeout ix s
  | .latentErrorCheck ix => Sys2Proof.Machine.execLatentErrorCheck ix s
  | .macEntryAgeOut ix => Sys2Proof.Machine.execMacEntryAgeOut ix s
  | .pushOutRetry starting => Sys2Proof.Machine.execPushOutRetry starting s
  | .pauseFrameSend port => Sys2Proof.Machine.execPauseFrameSend port s
  | .xoffRepeat port cls => Sys2Proof.Machine.execXoffRepeat port cls s
  | .pauseFrameReceive clocks port pfc enable quanta => Sys2Proof.Machine.execPauseFrameReceive clocks port pfc enable quanta s
  | .pauseExpiry port cls => Sys2Proof.Machine.execPauseExpiry port cls s
  | .pfcWatchdogTrip port cls => Sys2Proof.Machine.execPfcWatchdogTrip port cls s
  | .pfcWatchdogRecover port cls => Sys2Proof.Machine.execPfcWatchdogRecover port cls s
  | .xoffStorm port cls => Sys2Proof.Machine.execXoffStorm port cls s
  | .frameTransmitEnd tm port fragment => Sys2Proof.Machine.execFrameTransmitEnd tm port fragment s
  | .holdRequest port => Sys2Proof.Machine.execHoldRequest port s
  | .bufGclCommit a v => Sys2Proof.Machine.execBufGclCommit a v s
  | .spillReadback clocks q ecc => Sys2Proof.Machine.execSpillReadback clocks q ecc s
  | .portLinkDown port => Sys2Proof.Machine.execPortLinkDown port s
  | .portLinkUp port speed => Sys2Proof.Machine.execPortLinkUp port speed s
  | .selectionWrite a kind b v => Sys2Proof.Machine.execSelectionWrite a kind b v s
  | .selectionMoveDone kind b => Sys2Proof.Machine.execSelectionMoveDone kind b s
  | .selectionMoveTimeout kind b => Sys2Proof.Machine.execSelectionMoveTimeout kind b s
  | .taRead a page tbl => Sys2Proof.Machine.execTaRead a page tbl s
  | .taWrite a page tbl => Sys2Proof.Machine.execTaWrite a page tbl s
  | .taLookup a page tbl => Sys2Proof.Machine.execTaLookup a page tbl s
  | .taInsert a page tbl => Sys2Proof.Machine.execTaInsert a page tbl s
  | .taDelete a page tbl => Sys2Proof.Machine.execTaDelete a page tbl s
  | .taFlush a page tbl => Sys2Proof.Machine.execTaFlush a page tbl s
  | .taClearCounters a page tbl => Sys2Proof.Machine.execTaClearCounters a page tbl s
  | .taOpDone page => Sys2Proof.Machine.execTaOpDone page s
  | .swcCntClr a v => Sys2Proof.Machine.execSwcCntClr a v s
  | .portCntClr a port v => Sys2Proof.Machine.execPortCntClr a port v s
  | .preemptionEnable a port v => Sys2Proof.Machine.execPreemptionEnable a port v s
  | .preemptionVerifyFail port => Sys2Proof.Machine.execPreemptionVerifyFail port s
  | .txDescriptorFetch clocks starting => Sys2Proof.Machine.execTxDescriptorFetch clocks starting s
  | .ringTailWrite a inst k v => Sys2Proof.Machine.execRingTailWrite a inst k v s
  | .ringEnable a inst k v => Sys2Proof.Machine.execRingEnable a inst k v s
  | .ringIrqTimer inst k => Sys2Proof.Machine.execRingIrqTimer inst k s
  | .ringIrqClear a inst k v => Sys2Proof.Machine.execRingIrqClear a inst k v s
  | .splCntClr a e v => Sys2Proof.Machine.execSplCntClr a e v s
  | .canFrameReceive clocks ctl f age => Sys2Proof.Machine.execCanFrameReceive clocks ctl f age s
  | .canTxrq a ctl obj v => Sys2Proof.Machine.execCanTxrq a ctl obj v s
  | .canTxChoice clocks ctl => Sys2Proof.Machine.execCanTxChoice clocks ctl s
  | .canFrameTransmitted clocks ctl age tdc => Sys2Proof.Machine.execCanFrameTransmitted clocks ctl age tdc s
  | .canCancel a ctl obj v won => Sys2Proof.Machine.execCanCancel a ctl obj v won s
  | .canBusError ctl e => Sys2Proof.Machine.execCanBusError ctl e s
  | .canBoRecover a ctl v => Sys2Proof.Machine.execCanBoRecover a ctl v s
  | .canRecoveryDone ctl => Sys2Proof.Machine.execCanRecoveryDone ctl s
  | .canInit a ctl v => Sys2Proof.Machine.execCanInit a ctl v s
  | .canModeApply ctl => Sys2Proof.Machine.execCanModeApply ctl s
  | .cxObjRelRead a ctl => Sys2Proof.Machine.execCxObjRelRead a ctl s
  | .cxPsrRead a ctl => Sys2Proof.Machine.execCxPsrRead a ctl s
  | .cxWinSelWrite a ctl v => Sys2Proof.Machine.execCxWinSelWrite a ctl v s
  | .refGuardStart ctl => Sys2Proof.Machine.execRefGuardStart ctl s
  | .linHeaderReceive ch ident => Sys2Proof.Machine.execLinHeaderReceive ch ident s
  | .linFrameComplete tm ch data checksum e collision => Sys2Proof.Machine.execLinFrameComplete tm ch data checksum e collision s
  | .linFrameTimeout ch => Sys2Proof.Machine.execLinFrameTimeout ch s
  | .lnRxPopRead a ch => Sys2Proof.Machine.execLnRxPopRead a ch s
  | .linStuckDominant ch => Sys2Proof.Machine.execLinStuckDominant ch s
  | .linWakePulse ch => Sys2Proof.Machine.execLinWakePulse ch s
  | .linWakeTx a ch v => Sys2Proof.Machine.execLinWakeTx a ch v s
  | .gatewayFrameFromBus clocks e => Sys2Proof.Machine.execGatewayFrameFromBus clocks e s
  | .gatewayFrameFromEthernet clocks e => Sys2Proof.Machine.execGatewayFrameFromEthernet clocks e s
  | .gatewayTxPlace clocks ctl => Sys2Proof.Machine.execGatewayTxPlace clocks ctl s
  | .gatewayDeadlineExpiry clocks ctl obj => Sys2Proof.Machine.execGatewayDeadlineExpiry clocks ctl obj s
  | .ethernetBatchSend clocks stream => Sys2Proof.Machine.execEthernetBatchSend clocks stream s
  | .capsulePostRetry e => Sys2Proof.Machine.execCapsulePostRetry e s
  | .capsuleReply clocks => Sys2Proof.Machine.execCapsuleReply clocks s
  | .pegCntClr a e v => Sys2Proof.Machine.execPegCntClr a e v s
  | .lswArm a die ch v => Sys2Proof.Machine.execLswArm a die ch v s
  | .lswOnReq a die ch v => Sys2Proof.Machine.execLswOnReq a die ch v s
  | .pdcOutImgWrite a die v => Sys2Proof.Machine.execPdcOutImgWrite a die v s
  | .groupUndervoltage die g lowest => Sys2Proof.Machine.execGroupUndervoltage die g lowest s
  | .hardShort clocks die ch peak => Sys2Proof.Machine.execHardShort clocks die ch peak s
  | .overcurrentTrip clocks die ch current => Sys2Proof.Machine.execOvercurrentTrip clocks die ch current s
  | .overTemperature die ch tj => Sys2Proof.Machine.execOverTemperature die ch tj s
  | .currentSample clocks die io => Sys2Proof.Machine.execCurrentSample clocks die io s
  | .turnOffComplete clocks die ch energy => Sys2Proof.Machine.execTurnOffComplete clocks die ch energy s
  | .lswClrFault a die ch v => Sys2Proof.Machine.execLswClrFault a die ch v s
  | .lswProfWrite a die ch v => Sys2Proof.Machine.execLswProfWrite a die ch v s
  | .lswProtWrite a die ch r v => Sys2Proof.Machine.execLswProtWrite a die ch r v s
  | .reverseCurrentBlock clocks die ch current => Sys2Proof.Machine.execReverseCurrentBlock clocks die ch current s
  | .reverseBlockRelease die ch => Sys2Proof.Machine.execReverseBlockRelease die ch s
  | .openLoadDetect die ch current => Sys2Proof.Machine.execOpenLoadDetect die ch current s
  | .shortToBatteryDetect die ch => Sys2Proof.Machine.execShortToBatteryDetect die ch s
  | .shortToBatteryClear die ch => Sys2Proof.Machine.execShortToBatteryClear die ch s
  | .lswCntClr a die ch v => Sys2Proof.Machine.execLswCntClr a die ch v s
  | .lswSnsClr a die ch v => Sys2Proof.Machine.execLswSnsClr a die ch v s
  | .bridgeSilence clocks die => Sys2Proof.Machine.execBridgeSilence clocks die s
  | .computeResetSignal clocks die => Sys2Proof.Machine.execComputeResetSignal clocks die s
  | .localEdge die ppm => Sys2Proof.Machine.execLocalEdge die ppm s
  | .holdTimeExpiry clocks die => Sys2Proof.Machine.execHoldTimeExpiry clocks die s
  | .twcTimeout clocks die => Sys2Proof.Machine.execTwcTimeout clocks die s
  | .pdcResume a die v => Sys2Proof.Machine.execPdcResume a die v s
  | .twcSet clocks octets => Sys2Proof.Machine.execTwcSet clocks octets s
  | .twcKeep clocks octets => Sys2Proof.Machine.execTwcKeep clocks octets s
  | .twcSafe clocks octets => Sys2Proof.Machine.execTwcSafe clocks octets s
  | .twcClear clocks octets => Sys2Proof.Machine.execTwcClear clocks octets s
  | .twcStatus clocks octets => Sys2Proof.Machine.execTwcStatus clocks octets s
  | .twcStatusReply clocks r => Sys2Proof.Machine.execTwcStatusReply clocks r s
  | .limpEntry clocks die => Sys2Proof.Machine.execLimpEntry clocks die s
  | .limpInputChange clocks die land active => Sys2Proof.Machine.execLimpInputChange clocks die land active s
  | .limpLatchedClear clocks die ch => Sys2Proof.Machine.execLimpLatchedClear clocks die ch s
  | .limpExit clocks die => Sys2Proof.Machine.execLimpExit clocks die s
  | .tabUndervoltage clocks die g => Sys2Proof.Machine.execTabUndervoltage clocks die g s
  | .tabOvervoltage clocks die g => Sys2Proof.Machine.execTabOvervoltage clocks die g s
  | .pgndLoss clocks die => Sys2Proof.Machine.execPgndLoss clocks die s
  | .lgndLoss clocks die => Sys2Proof.Machine.execLgndLoss clocks die s
  | .boardNetRecovery clocks die g => Sys2Proof.Machine.execBoardNetRecovery clocks die g s
  | .powerDieReset clocks die => Sys2Proof.Machine.execPowerDieReset clocks die s
  | .powerDieRelease clocks die => Sys2Proof.Machine.execPowerDieRelease clocks die s
  | .pdcCntClr a die v => Sys2Proof.Machine.execPdcCntClr a die v s
  | .dinStuck clocks m => Sys2Proof.Machine.execDinStuck clocks m s
  | .standbyScan clocks levels => Sys2Proof.Machine.execStandbyScan clocks levels s
  | .digCntClr a k v => Sys2Proof.Machine.execDigCntClr a k v s
  | .ctlFlitReceive clocks br octets => Sys2Proof.Machine.execCtlFlitReceive clocks br octets s
  | .heartbeatSend slot => Sys2Proof.Machine.execHeartbeatSend slot s
  | .twFlitReceive clocks ty octets good => Sys2Proof.Machine.execTwFlitReceive clocks ty octets good s
  | .rsvFlitReceive clocks br ty order octets good => Sys2Proof.Machine.execRsvFlitReceive clocks br ty order octets good s
  | .ctlFlitTimeout clocks => Sys2Proof.Machine.execCtlFlitTimeout clocks s
  | .badFlitLimit clocks => Sys2Proof.Machine.execBadFlitLimit clocks s
  | .laneLockLoss clocks => Sys2Proof.Machine.execLaneLockLoss clocks s
  | .twlRetrain a v => Sys2Proof.Machine.execTwlRetrain a v s
  | .laneTrainingDone clocks lanes delay => Sys2Proof.Machine.execLaneTrainingDone clocks lanes delay s
  | .twlCntClr a v => Sys2Proof.Machine.execTwlCntClr a v s
  | .readRequest clocks br r => Sys2Proof.Machine.execReadRequest clocks br r s
  | .writeRequest clocks br r posted data => Sys2Proof.Machine.execWriteRequest clocks br r posted data s
  | .readCompletion clocks br tag status data => Sys2Proof.Machine.execReadCompletion clocks br tag status data s
  | .writeCompletion clocks br tag status => Sys2Proof.Machine.execWriteCompletion clocks br tag status s
  | .postedWriteErrorNotice clocks br status addr => Sys2Proof.Machine.execPostedWriteErrorNotice clocks br status addr s
  | .bridgeRequestTimeout clocks br tag addr => Sys2Proof.Machine.execBridgeRequestTimeout clocks br tag addr s
  | .dieBridgePeerTimeout clocks die => Sys2Proof.Machine.execDieBridgePeerTimeout clocks die s
  | .bridgeUp clocks br => Sys2Proof.Machine.execBridgeUp clocks br s
  | .tbrRead a v => Sys2Proof.Machine.execTbrRead a v s
  | .tbrWrite a v => Sys2Proof.Machine.execTbrWrite a v s
  | .bulkWindowWrite a br w reg v => Sys2Proof.Machine.execBulkWindowWrite a br w reg v s
  | .brCntClr a br v => Sys2Proof.Machine.execBrCntClr a br v s
  | .inputImagePacket clocks octets => Sys2Proof.Machine.execInputImagePacket clocks octets s
  | .twinImageLate clocks => Sys2Proof.Machine.execTwinImageLate clocks s
  | .outputImagePacket clocks cycle pos imgA imgB => Sys2Proof.Machine.execOutputImagePacket clocks cycle pos imgA imgB s
  | .outputImageCut clocks => Sys2Proof.Machine.execOutputImageCut clocks s
  | .pairingPacketSend clocks => Sys2Proof.Machine.execPairingPacketSend clocks s
  | .pairingPacket clocks p => Sys2Proof.Machine.execPairingPacket clocks p s
  | .pairTimeout clocks => Sys2Proof.Machine.execPairTimeout clocks s
  | .twinPeerChange clocks asserted => Sys2Proof.Machine.execTwinPeerChange clocks asserted s
  | .twinLossDeclare clocks => Sys2Proof.Machine.execTwinLossDeclare clocks s
  | .claimSample clocks => Sys2Proof.Machine.execClaimSample clocks s
  | .claimOverride clocks => Sys2Proof.Machine.execClaimOverride clocks s
  | .claimContention clocks => Sys2Proof.Machine.execClaimContention clocks s
  | .claimBackoffEnd => Sys2Proof.Machine.execClaimBackoffEnd s
  | .tsAlonePeerTimeout clocks => Sys2Proof.Machine.execTsAlonePeerTimeout clocks s
  | .handover a v => Sys2Proof.Machine.execHandover a v s
  | .handoverPacket clocks cycle rejoinEnds => Sys2Proof.Machine.execHandoverPacket clocks cycle rejoinEnds s
  | .rejoinCopy area off len => Sys2Proof.Machine.execRejoinCopy area off len s
  | .checkpointMirrorPacket clocks area off data => Sys2Proof.Machine.execCheckpointMirrorPacket clocks area off data s
  | .rejoinEnd => Sys2Proof.Machine.execRejoinEnd s
  | .rejoinTimeout clocks => Sys2Proof.Machine.execRejoinTimeout clocks s
  | .aliveSend clocks => Sys2Proof.Machine.execAliveSend clocks s
  | .aliveReceive clocks octets => Sys2Proof.Machine.execAliveReceive clocks octets s
  | .keepRepeat clocks => Sys2Proof.Machine.execKeepRepeat clocks s
  | .twrTwcCmd a v => Sys2Proof.Machine.execTwrTwcCmd a v s
  | .twcReplyTimeout clocks => Sys2Proof.Machine.execTwcReplyTimeout clocks s
  | .twrCntClr a v => Sys2Proof.Machine.execTwrCntClr a v s
  | .migGo a v => Sys2Proof.Machine.execMigGo a v s
  | .migFinal a v => Sys2Proof.Machine.execMigFinal a v s
  | .migAbort a v => Sys2Proof.Machine.execMigAbort a v s
  | .migrationPage clocks ipa vmNo data => Sys2Proof.Machine.execMigrationPage clocks ipa vmNo data s
  | .migrationControl clocks op round pages => Sys2Proof.Machine.execMigrationControl clocks op round pages s
  | .migRoundDone clocks => Sys2Proof.Machine.execMigRoundDone clocks s
  | .coreLoad a pair addr trailAddr trailSize => Sys2Proof.Machine.execCoreLoad a pair addr trailAddr trailSize s
  | .coreStore a pair addr data => Sys2Proof.Machine.execCoreStore a pair addr data s
  | .peripheralWrite a pair addr v => Sys2Proof.Machine.execPeripheralWrite a pair addr v s
  | .rsRead a pair addr => Sys2Proof.Machine.execRsRead a pair addr s
  | .atomic a pair addr op operand => Sys2Proof.Machine.execAtomic a pair addr op operand s
  | .barrier pair => Sys2Proof.Machine.execBarrier pair s
  | .peripheralReadCheckpoint a pair addr => Sys2Proof.Machine.execPeripheralReadCheckpoint a pair addr s
  | .checkpointPeriod pair => Sys2Proof.Machine.execCheckpointPeriod pair s
  | .writeHoldHigh pair => Sys2Proof.Machine.execWriteHoldHigh pair s
  | .comparePoint clocks pair c waiting => Sys2Proof.Machine.execComparePoint clocks pair c waiting s
  | .checkpoint clocks pair c arch => Sys2Proof.Machine.execCheckpoint clocks pair c arch s
  | .releasedWriteError pair addr => Sys2Proof.Machine.execReleasedWriteError pair addr s
  | .trailTimeout clocks pair => Sys2Proof.Machine.execTrailTimeout clocks pair s
  | .pairStallTimeout clocks pair => Sys2Proof.Machine.execPairStallTimeout clocks pair s
  | .restartDone clocks pair slot => Sys2Proof.Machine.execRestartDone clocks pair slot s
  | .comparatorTest pair wrong => Sys2Proof.Machine.execComparatorTest pair wrong s
  | .caliperStorageError pair entry correctable => Sys2Proof.Machine.execCaliperStorageError pair entry correctable s
  | .pairInterrupt pair n => Sys2Proof.Machine.execPairInterrupt pair n s
  | .calCntClr a pair v => Sys2Proof.Machine.execCalCntClr a pair v s
  | .coreRun a core v => Sys2Proof.Machine.execCoreRun a core v s
  | .coreRst a core v => Sys2Proof.Machine.execCoreRst a core v s
  | .intcLineWrite a line v => Sys2Proof.Machine.execIntcLineWrite a line v s
  | .intcSwraise a v => Sys2Proof.Machine.execIntcSwraise a v s
  | .interruptDelivery core => Sys2Proof.Machine.execInterruptDelivery core s
  | .interruptAck core ends => Sys2Proof.Machine.execInterruptAck core ends s
  | .coreTimerExpiry clocks core t => Sys2Proof.Machine.execCoreTimerExpiry clocks core t s
  | .counterOverflow core k => Sys2Proof.Machine.execCounterOverflow core k s
  | .cacheError e addr => Sys2Proof.Machine.execCacheError e addr s
  | .speculativeLoadReissue a addr => Sys2Proof.Machine.execSpeculativeLoadReissue a addr s
  | .mbsGo a v => Sys2Proof.Machine.execMbsGo a v s
  | .mbDbgSend a ch v => Sys2Proof.Machine.execMbDbgSend a ch v s
  | .mbTakeRead a ch => Sys2Proof.Machine.execMbTakeRead a ch s
  | .mbsWait core v => Sys2Proof.Machine.execMbsWait core v s
  | .mbsAbortClear core v => Sys2Proof.Machine.execMbsAbortClear core v s
  | .crossedWait k l => Sys2Proof.Machine.execCrossedWait k l s
  | .mbxCntClr a v => Sys2Proof.Machine.execMbxCntClr a v s
  | .vmcInvPage a vmNo => Sys2Proof.Machine.execVmcInvPage a vmNo s
  | .vmcInvVm a vmNo => Sys2Proof.Machine.execVmcInvVm a vmNo s
  | .vmcInvDone vmNo => Sys2Proof.Machine.execVmcInvDone vmNo s
  | .iomInvHyp a => Sys2Proof.Machine.execIomInvHyp a s
  | .iomInvSecure a => Sys2Proof.Machine.execIomInvSecure a s
  | .iomInvAll a => Sys2Proof.Machine.execIomInvAll a s
  | .iomInvDone => Sys2Proof.Machine.execIomInvDone s
  | .isoSecTtbWrite a high v => Sys2Proof.Machine.execIsoSecTtbWrite a high v s
  | .dmaFault src log ipa write => Sys2Proof.Machine.execDmaFault src log ipa write s
  | .iomFltClr a => Sys2Proof.Machine.execIomFltClr a s
  | .vmcClr a vmNo => Sys2Proof.Machine.execVmcClr a vmNo s
  | .partReqGo a page v => Sys2Proof.Machine.execPartReqGo a page v s
  | .partingDrained page => Sys2Proof.Machine.execPartingDrained page s
  | .partingTimeout page => Sys2Proof.Machine.execPartingTimeout page s
  | .tmSend a inst toManager v => Sys2Proof.Machine.execTmSend a inst toManager v s
  | .tmAck a inst toManager v => Sys2Proof.Machine.execTmAck a inst toManager v s
  | .dplOvfClear a inst => Sys2Proof.Machine.execDplOvfClear a inst s
  | .hinQuiesceReq a inst v => Sys2Proof.Machine.execHinQuiesceReq a inst v s
  | .quiesceDone inst => Sys2Proof.Machine.execQuiesceDone inst s
  | .dramRead clocks a isSpill addr actual flips => Sys2Proof.Machine.execDramRead clocks a isSpill addr actual flips s
  | .dramWrite clocks a isSpill addr data flips => Sys2Proof.Machine.execDramWrite clocks a isSpill addr data flips s
  | .dramTrainingDone good => Sys2Proof.Machine.execDramTrainingDone good s
  | .dramRefresh => Sys2Proof.Machine.execDramRefresh s
  | .dramTemperatureReport clocks temps rate => Sys2Proof.Machine.execDramTemperatureReport clocks temps rate s
  | .scrubStep array word flips check => Sys2Proof.Machine.execScrubStep array word flips check s
  | .sramError array corrected => Sys2Proof.Machine.execSramError array corrected s
  | .dmcCntClr a v => Sys2Proof.Machine.execDmcCntClr a v s
  | .norProgram a die v => Sys2Proof.Machine.execNorProgram a die v s
  | .norErase4k a die v => Sys2Proof.Machine.execNorErase4k a die v s
  | .norErase64k a die v => Sys2Proof.Machine.execNorErase64k a die v s
  | .norCmdDone die good => Sys2Proof.Machine.execNorCmdDone die good s
  | .norRead a addr n check => Sys2Proof.Machine.execNorRead a addr n check s
  | .norCntClr a die v => Sys2Proof.Machine.execNorCntClr a die v s
  | .fusProgGo a v => Sys2Proof.Machine.execFusProgGo a v s
  | .fuseProgramDone good => Sys2Proof.Machine.execFuseProgramDone good s
  | .keyWrite fail => Sys2Proof.Machine.execKeyWrite fail s
  | .keyErase fail => Sys2Proof.Machine.execKeyErase fail s
  | .lifecycleAdvance fail => Sys2Proof.Machine.execLifecycleAdvance fail s
  | .testPortUnlock fail => Sys2Proof.Machine.execTestPortUnlock fail s
  | .testPortClearDone => Sys2Proof.Machine.execTestPortClearDone s
  | .testPortVerifyDone bad => Sys2Proof.Machine.execTestPortVerifyDone bad s
  | .lcsProvision a v => Sys2Proof.Machine.execLcsProvision a v s
  | .lcsExport a v => Sys2Proof.Machine.execLcsExport a v s
  | .attExtend a v => Sys2Proof.Machine.execAttExtend a v s
  | .attGo a v => Sys2Proof.Machine.execAttGo a v s
  | .capsuleCheck clocks a port v => Sys2Proof.Machine.execCapsuleCheck clocks a port v s
  | .capsuleMake clocks a port v => Sys2Proof.Machine.execCapsuleMake clocks a port v s
  | .channelUnblock ch => Sys2Proof.Machine.execChannelUnblock ch s
  | .relayOpen octets => Sys2Proof.Machine.execRelayOpen octets s
  | .relayManifestBlock octets => Sys2Proof.Machine.execRelayManifestBlock octets s
  | .slotPrepared good => Sys2Proof.Machine.execSlotPrepared good s
  | .relayTransportBlock octets => Sys2Proof.Machine.execRelayTransportBlock octets s
  | .blockProgrammed good => Sys2Proof.Machine.execBlockProgrammed good s
  | .relayAck octets => Sys2Proof.Machine.execRelayAck octets s
  | .ackTimer => Sys2Proof.Machine.execAckTimer s
  | .relayNoProgress => Sys2Proof.Machine.execRelayNoProgress s
  | .relayClose octets => Sys2Proof.Machine.execRelayClose octets s
  | .relayAbort octets => Sys2Proof.Machine.execRelayAbort octets s
  | .slotComplete slot good => Sys2Proof.Machine.execSlotComplete slot good s
  | .updateStatus => Sys2Proof.Machine.execUpdateStatus s
  | .updateTrial good => Sys2Proof.Machine.execUpdateTrial good s
  | .updateConfirm good => Sys2Proof.Machine.execUpdateConfirm good s
  | .updateReject good => Sys2Proof.Machine.execUpdateReject good s
  | .updateAbort => Sys2Proof.Machine.execUpdateAbort s
  | .setWrite good => Sys2Proof.Machine.execSetWrite good s
  | .setRead => Sys2Proof.Machine.execSetRead s
  | .serviceRequest => Sys2Proof.Machine.execServiceRequest s
  | .loaderStart => Sys2Proof.Machine.execLoaderStart s
  | .baseInstall good => Sys2Proof.Machine.execBaseInstall good s
  | .slotChoose => Sys2Proof.Machine.execSlotChoose s
  | .keysDerive => Sys2Proof.Machine.execKeysDerive s
  | .xoStable clocks count => Sys2Proof.Machine.execXoStable clocks count s
  | .xoStartTimeout clocks => Sys2Proof.Machine.execXoStartTimeout clocks s
  | .xo32Stable clocks => Sys2Proof.Machine.execXo32Stable clocks s
  | .rcTimingMark clocks die count => Sys2Proof.Machine.execRcTimingMark clocks die count s
  | .supervisionWindow clocks ends => Sys2Proof.Machine.execSupervisionWindow clocks ends s
  | .pllLockLoss clocks pll => Sys2Proof.Machine.execPllLockLoss clocks pll s
  | .crossingReset domain outstanding => Sys2Proof.Machine.execCrossingReset domain outstanding s
  | .crossingRehandshake domain waiting => Sys2Proof.Machine.execCrossingRehandshake domain waiting s
  | .clockGateIdle page => Sys2Proof.Machine.execClockGateIdle page s
  | .clockGateWake page => Sys2Proof.Machine.execClockGateWake page s
  | .pwrDomFollow a d v => Sys2Proof.Machine.execPwrDomFollow a d v s
  | .pwrDomWakeOn a d v => Sys2Proof.Machine.execPwrDomWakeOn a d v s
  | .pwrDomOff a d v => Sys2Proof.Machine.execPwrDomOff a d v s
  | .domainOffDone clocks d left => Sys2Proof.Machine.execDomainOffDone clocks d left s
  | .domainOnDone clocks d => Sys2Proof.Machine.execDomainOnDone clocks d s
  | .vfsReq a v => Sys2Proof.Machine.execVfsReq a v s
  | .vfsStepDone clocks => Sys2Proof.Machine.execVfsStepDone clocks s
  | .vfsRailFail clocks mv => Sys2Proof.Machine.execVfsRailFail clocks mv s
  | .vfsClrFail a v => Sys2Proof.Machine.execVfsClrFail a v s
  | .vfsCeilingChange => Sys2Proof.Machine.execVfsCeilingChange s
  | .clkAcDivWrite a v => Sys2Proof.Machine.execClkAcDivWrite a v s
  | .rstReqCompute a v => Sys2Proof.Machine.execRstReqCompute a v s
  | .rstReqCluster a v => Sys2Proof.Machine.execRstReqCluster a v s
  | .rstReqRp a v => Sys2Proof.Machine.execRstReqRp a v s
  | .rstReqDie a v => Sys2Proof.Machine.execRstReqDie a v s
  | .watchdogEnable a v => Sys2Proof.Machine.execWatchdogEnable a v s
  | .watchdogKick a v => Sys2Proof.Machine.execWatchdogKick a v s
  | .watchdogWarn clocks => Sys2Proof.Machine.execWatchdogWarn clocks s
  | .watchdogExpiry clocks => Sys2Proof.Machine.execWatchdogExpiry clocks s
  | .computeDieReset clocks cause => Sys2Proof.Machine.execComputeDieReset clocks cause s
  | .computeDieRelease clocks io => Sys2Proof.Machine.execComputeDieRelease clocks io s
  | .alwaysOnReset clocks off => Sys2Proof.Machine.execAlwaysOnReset clocks off s
  | .powerOn clocks => Sys2Proof.Machine.execPowerOn clocks s
  | .realtimeRelease clocks program => Sys2Proof.Machine.execRealtimeRelease clocks program s
  | .clusterRelease clocks => Sys2Proof.Machine.execClusterRelease clocks s
  | .slpModeReqRun a v => Sys2Proof.Machine.execSlpModeReqRun a v s
  | .slpModeReqPartial a v => Sys2Proof.Machine.execSlpModeReqPartial a v s
  | .degCauseChange => Sys2Proof.Machine.execDegCauseChange s
  | .serviceLimitExpiry clocks => Sys2Proof.Machine.execServiceLimitExpiry clocks s
  | .slpVoteIn a v => Sys2Proof.Machine.execSlpVoteIn a v s
  | .voteTimeout clocks node => Sys2Proof.Machine.execVoteTimeout clocks node s
  | .ownSleepWrite a v => Sys2Proof.Machine.execOwnSleepWrite a v s
  | .prepExpiry clocks => Sys2Proof.Machine.execPrepExpiry clocks s
  | .shdnReq a v => Sys2Proof.Machine.execShdnReq a v s
  | .shdnAck a v => Sys2Proof.Machine.execShdnAck a v s
  | .shdnTimeout clocks => Sys2Proof.Machine.execShdnTimeout clocks s
  | .shutdownSelfTest clocks tj => Sys2Proof.Machine.execShutdownSelfTest clocks tj s
  | .selfTestDone clocks io => Sys2Proof.Machine.execSelfTestDone clocks io s
  | .computeRailsCut clocks => Sys2Proof.Machine.execComputeRailsCut clocks s
  | .wakeLWake clocks => Sys2Proof.Machine.execWakeLWake clocks s
  | .canWakePattern clocks c w => Sys2Proof.Machine.execCanWakePattern clocks c w s
  | .wakeLPulse a v => Sys2Proof.Machine.execWakeLPulse a v s
  | .wakeLPulseEnd clocks => Sys2Proof.Machine.execWakeLPulseEnd clocks s
  | .wakeLStuck clocks => Sys2Proof.Machine.execWakeLStuck clocks s
  | .maxAwakeExpiry clocks node => Sys2Proof.Machine.execMaxAwakeExpiry clocks node s
  | .commOk a v => Sys2Proof.Machine.execCommOk a v s
  | .falseWakeWindowEnd clocks => Sys2Proof.Machine.execFalseWakeWindowEnd clocks s
  | .falseWakeHoldEnd clocks source => Sys2Proof.Machine.execFalseWakeHoldEnd clocks source s
  | .slpCntClr a v => Sys2Proof.Machine.execSlpCntClr a v s
  | .faultCodePost clocks => Sys2Proof.Machine.execFaultCodePost clocks s
  | .logTakeRead a => Sys2Proof.Machine.execLogTakeRead a s
  | .logClr a v => Sys2Proof.Machine.execLogClr a v s
  | .fagDone a v => Sys2Proof.Machine.execFagDone a v s
  | .fagCntClr a v => Sys2Proof.Machine.execFagCntClr a v s
  | .escalationWarn clocks => Sys2Proof.Machine.execEscalationWarn clocks s
  | .escalation clocks => Sys2Proof.Machine.execEscalation clocks s
  | .pathTest clocks missing => Sys2Proof.Machine.execPathTest clocks missing s
  | .powerDieLogicDiffer clocks die => Sys2Proof.Machine.execPowerDieLogicDiffer clocks die s
  | .plausibilityFail clocks die ch kind => Sys2Proof.Machine.execPlausibilityFail clocks die ch kind s
  | .repairLogLoad => Sys2Proof.Machine.execRepairLogLoad s
  | .honingPlan io => Sys2Proof.Machine.execHoningPlan io s
  | .honPlanNow a v => Sys2Proof.Machine.execHonPlanNow a v s
  | .honingPeriod clocks => Sys2Proof.Machine.execHoningPeriod clocks s
  | .honingSample clocks m => Sys2Proof.Machine.execHoningSample clocks m s
  | .temperatureCeiling clocks tj => Sys2Proof.Machine.execTemperatureCeiling clocks tj s
  | .wettingPulseStart m => Sys2Proof.Machine.execWettingPulseStart m s
  | .wettingPulseEnd m => Sys2Proof.Machine.execWettingPulseEnd m s
  | .comparatorTransition clocks m rising => Sys2Proof.Machine.execComparatorTransition clocks m rising s
  | .selLandChange die level => Sys2Proof.Machine.execSelLandChange die level s
  | .txdDominantTimeout ctl => Sys2Proof.Machine.execTxdDominantTimeout ctl s
  | .canIntegrationDone ctl => Sys2Proof.Machine.execCanIntegrationDone ctl s
  | .announceReceive pp vec => Sys2Proof.Machine.execAnnounceReceive pp vec s
  | .preemptionVerifyResponse port => Sys2Proof.Machine.execPreemptionVerifyResponse port s
  | .aliveTimeout clocks => Sys2Proof.Machine.execAliveTimeout clocks s
  | .wakeLHigh clocks => Sys2Proof.Machine.execWakeLHigh clocks s
  | .channelRecordsWritten => Sys2Proof.Machine.execChannelRecordsWritten s
  | .cryGo a inst v => Sys2Proof.Machine.execCryGo a inst v s
  | .cryJobDone inst good result => Sys2Proof.Machine.execCryJobDone inst good result s

end Sys2Proof.Machine
end

