-- ==== Sys2Proof/WellFormed.lean ====
section
/-!
DEFINITION. Well-formed commands: operands in the ranges that the formats of the spec give them. Every meaning is total; an
ill-formed command is one that no sender of the block can form.
-/

namespace Sys2Proof

/-- Addresses have 36 bits, intermediate ones 40 (spec/02 R58, spec/13 R398). -/
def addressOk (a : Nat) : Bool := decide (a < 2 ^ 40)

/-- Octets. -/
def bytesOk (l : List Nat) : Bool := l.all fun b => decide (b < 256)

/-- Bits of a stored word with its check bits and its fold (spec/14 R418-R420). -/
def flipsOk (l : List Nat) : Bool := l.all fun b => decide (b < 80)

/-- The agents of spec/12 Table 12-2. -/
def agentOk (g : Nat) : Bool :=
  decide (g < 8) || (decide (0x10 ≤ g) && decide (g < 0x14)) || g == 0x20 || (decide (0x30 ≤ g) && decide (g < 0x34))
    || g == 0x40 || g == 0x50 || g == 0x60

/-- An agent of Table 12-2, and a width in bytes (spec/02 R33, R604). -/
def Access.wf (a : Access) : Bool := agentOk a.agent && [1, 2, 4, 8, 16, 32].contains a.size

def RegTarget.wf : RegTarget → Bool
  | .page addr _ => addressOk addr
  | .sendWord _ _ => true
  | .worldLatch _ => true
  | .vmRegister _ => true
  | .deadline _ _ => true
  | .quantum _ => true
  | .eventSelect _ _ => true

/-- At least the two addresses and the type. -/
def RxFrame.wf (f : RxFrame) : Bool := bytesOk f.octets && decide (14 ≤ f.octets.length)

/-- The widths of the fields that an Announce carries (spec/03 Table 03-2). -/
def PtpVector.wf (v : PtpVector) : Bool :=
  decide (v.priority1 < 256) && decide (v.clockClass < 256) && decide (v.accuracy < 256) && decide (v.variance < 65536)
    && decide (v.priority2 < 256) && decide (v.gmIdentity < 2 ^ 64) && decide (v.stepsRemoved < 65536)
    && decide (v.sourcePort < 2 ^ 80)

/-- Formats 0 to 2, 29 bits of identifier, octets of data (spec/06 R197). -/
def BusFrame.wf (f : BusFrame) : Bool :=
  decide (f.fmt < 3) && decide (f.ident < 2 ^ 29) && bytesOk f.data && decide (f.data.length ≤ 2048)

def EdgeInputs.wf (e : EdgeInputs) : Bool :=
  e.dinMv.length == 48 && e.ainUv.length == 16 && e.canBusy.all fun n => decide (n < 12)

def DieSample.wf (d : DieSample) : Bool :=
  d.amps.length == 16 && d.volts.length == 16 && d.tj.length == 16 && d.tabs.length == 3

def BridgeRequest.wf (r : BridgeRequest) : Bool := addressOk r.addr && decide (r.agent < 256)

def PairPacket.wf (p : PairPacket) : Bool :=
  decide (p.identity < 2 ^ 128) && decide (p.variant < 256) && decide (p.revision < 256) && decide (p.role < 8)
    && decide (p.dualA < 65536) && decide (p.dualB < 65536)

/-- A record of spec/11 R344. -/
def CalRecord.wf : CalRecord → Bool
  | .reg cls num value => decide (cls < 3) && decide (num < 65536) && decide (value < 2 ^ 64)
  | .store mask word data => decide (mask < 256) && decide (word < 2 ^ 40) && decide (data < 2 ^ 64)

def CompareIn.wf (c : CompareIn) : Bool := c.lead.all CalRecord.wf && c.trail.all CalRecord.wf

def WaitingAccess.wf (w : WaitingAccess) : Bool := w.a.wf && addressOk w.addr

/-- The operands of a command lie in their ranges; operands of types that have no other values are not named. -/
def Instr.wf : Instr → Bool
  | .registerWrite a t => a.wf && t.wf
  | .accessUnmapped a addr => a.wf && addressOk addr
  | .memoryRegionAccess a _ addr data => a.wf && addressOk addr && bytesOk data
  | .ownerWrite a page _ => a.wf && addressOk page
  | .softRst a page _ => a.wf && addressOk page
  | .softRstDone page => addressOk page
  | .freezeWrite a page _ => a.wf && addressOk page
  | .intRawClear a page _ _ => a.wf && addressOk page
  | .intSet a page _ => a.wf && addressOk page
  | .errCapClr a page _ _ => a.wf && addressOk page
  | .errInjArm a page _ => a.wf && addressOk page
  | .clkReqForceOff a page _ _ => a.wf && addressOk page
  | .forceOffDrainTimeout page => addressOk page
  | .speculativeReadRefused a addr => a.wf && addressOk addr
  | .strictPageDmaRead _ addr => addressOk addr
  | .debugRsRead addr => addressOk addr
  | .tmbSnap a _ => a.wf
  | .tmbRateWrite a _ => a.wf
  | .tmbStepGo a _ => a.wf
  | .stepDone => true
  | .syncReceive _ _ => true
  | .pdelayExchange _ _ _ _ => true
  | .ptpMessageTransmit _ _ _ _ => true
  | .syncReceiptTimeout _ => true
  | .ptpTsNsRead a => a.wf
  | .twinLinkDelayMeasure _ => true
  | .ixpCommit a _ => a.wf
  | .ixpEnable a _ => a.wf
  | .plateStart io => io.wf
  | .indexEdge io => io.wf
  | .cycSyncPulse _ _ io => io.wf
  | .gptpReferenceInstant => true
  | .syncLostFreerun => true
  | .plateAnnouncement _ _ _ _ _ _ _ => true
  | .twinTableMismatch => true
  | .cycOutPulseEnd => true
  | .frameReceive _ _ rx => rx.wf
  | .recoveryTimeout _ => true
  | .latentErrorCheck _ => true
  | .macEntryAgeOut _ => true
  | .pushOutRetry _ => true
  | .pauseFrameSend _ => true
  | .xoffRepeat _ _ => true
  | .pauseFrameReceive _ _ _ _ _ => true
  | .pauseExpiry _ _ => true
  | .pfcWatchdogTrip _ _ => true
  | .pfcWatchdogRecover _ _ => true
  | .xoffStorm _ _ => true
  | .frameTransmitEnd _ _ _ => true
  | .holdRequest _ => true
  | .bufGclCommit a _ => a.wf
  | .spillReadback _ _ _ => true
  | .portLinkDown _ => true
  | .portLinkUp _ _ => true
  | .selectionWrite a _ _ _ => a.wf
  | .selectionMoveDone _ _ => true
  | .selectionMoveTimeout _ _ => true
  | .taRead a _ _ => a.wf
  | .taWrite a _ _ => a.wf
  | .taLookup a _ _ => a.wf
  | .taInsert a _ _ => a.wf
  | .taDelete a _ _ => a.wf
  | .taFlush a _ _ => a.wf
  | .taClearCounters a _ _ => a.wf
  | .taOpDone _ => true
  | .swcCntClr a _ => a.wf
  | .portCntClr a _ _ => a.wf
  | .preemptionEnable a _ _ => a.wf
  | .preemptionVerifyFail _ => true
  | .txDescriptorFetch _ _ => true
  | .ringTailWrite a _ _ _ => a.wf
  | .ringEnable a _ _ _ => a.wf
  | .ringIrqTimer _ _ => true
  | .ringIrqClear a _ _ _ => a.wf
  | .splCntClr a _ _ => a.wf
  | .canFrameReceive _ _ f _ => f.wf
  | .canTxrq a _ _ _ => a.wf
  | .canTxChoice _ _ => true
  | .canFrameTransmitted _ _ _ _ => true
  | .canCancel a _ _ _ _ => a.wf
  | .canBusError _ _ => true
  | .canBoRecover a _ _ => a.wf
  | .canRecoveryDone _ => true
  | .canInit a _ _ => a.wf
  | .canModeApply _ => true
  | .cxObjRelRead a _ => a.wf
  | .cxPsrRead a _ => a.wf
  | .cxWinSelWrite a _ _ => a.wf
  | .refGuardStart _ => true
  | .linHeaderReceive _ _ => true
  | .linFrameComplete _ _ data _ _ _ => bytesOk data
  | .linFrameTimeout _ => true
  | .lnRxPopRead a _ => a.wf
  | .linStuckDominant _ => true
  | .linWakePulse _ => true
  | .linWakeTx a _ _ => a.wf
  | .gatewayFrameFromBus _ _ => true
  | .gatewayFrameFromEthernet _ _ => true
  | .gatewayTxPlace _ _ => true
  | .gatewayDeadlineExpiry _ _ _ => true
  | .ethernetBatchSend _ _ => true
  | .capsulePostRetry _ => true
  | .capsuleReply _ => true
  | .pegCntClr a _ _ => a.wf
  | .lswArm a _ _ _ => a.wf
  | .lswOnReq a _ _ _ => a.wf
  | .pdcOutImgWrite a _ _ => a.wf
  | .groupUndervoltage _ _ _ => true
  | .hardShort _ _ _ _ => true
  | .overcurrentTrip _ _ _ _ => true
  | .overTemperature _ _ _ => true
  | .currentSample _ _ io => io.wf
  | .turnOffComplete _ _ _ _ => true
  | .lswClrFault a _ _ _ => a.wf
  | .lswProfWrite a _ _ _ => a.wf
  | .lswProtWrite a _ _ _ _ => a.wf
  | .reverseCurrentBlock _ _ _ _ => true
  | .reverseBlockRelease _ _ => true
  | .openLoadDetect _ _ _ => true
  | .shortToBatteryDetect _ _ => true
  | .shortToBatteryClear _ _ => true
  | .lswCntClr a _ _ _ => a.wf
  | .lswSnsClr a _ _ _ => a.wf
  | .bridgeSilence _ _ => true
  | .computeResetSignal _ _ => true
  | .localEdge _ _ => true
  | .holdTimeExpiry _ _ => true
  | .twcTimeout _ _ => true
  | .pdcResume a _ _ => a.wf
  | .twcSet _ octets => bytesOk octets
  | .twcKeep _ octets => bytesOk octets
  | .twcSafe _ octets => bytesOk octets
  | .twcClear _ octets => bytesOk octets
  | .twcStatus _ octets => bytesOk octets
  | .twcStatusReply _ _ => true
  | .limpEntry _ _ => true
  | .limpInputChange _ _ _ _ => true
  | .limpLatchedClear _ _ _ => true
  | .limpExit _ _ => true
  | .tabUndervoltage _ _ _ => true
  | .tabOvervoltage _ _ _ => true
  | .pgndLoss _ _ => true
  | .lgndLoss _ _ => true
  | .boardNetRecovery _ _ _ => true
  | .powerDieReset _ _ => true
  | .powerDieRelease _ _ => true
  | .pdcCntClr a _ _ => a.wf
  | .dinStuck _ _ => true
  | .standbyScan _ _ => true
  | .digCntClr a _ _ => a.wf
  | .ctlFlitReceive _ _ octets => bytesOk octets
  | .heartbeatSend _ => true
  | .twFlitReceive _ _ octets _ => bytesOk octets
  | .rsvFlitReceive _ _ _ _ octets _ => bytesOk octets
  | .ctlFlitTimeout _ => true
  | .badFlitLimit _ => true
  | .laneLockLoss _ => true
  | .twlRetrain a _ => a.wf
  | .laneTrainingDone _ _ _ => true
  | .twlCntClr a _ => a.wf
  | .readRequest _ _ r => r.wf
  | .writeRequest _ _ r _ _ => r.wf
  | .readCompletion _ _ _ status _ => decide (status < 256)
  | .writeCompletion _ _ _ status => decide (status < 256)
  | .postedWriteErrorNotice _ _ status addr => decide (status < 256) && addressOk addr
  | .bridgeRequestTimeout _ _ _ addr => addressOk addr
  | .dieBridgePeerTimeout _ _ => true
  | .bridgeUp _ _ => true
  | .tbrRead a _ => a.wf
  | .tbrWrite a _ => a.wf
  | .bulkWindowWrite a _ _ _ _ => a.wf
  | .brCntClr a _ _ => a.wf
  | .inputImagePacket _ octets => bytesOk octets
  | .twinImageLate _ => true
  | .outputImagePacket _ _ _ imgA imgB => decide (imgA < 65536) && decide (imgB < 65536)
  | .outputImageCut _ => true
  | .pairingPacketSend _ => true
  | .pairingPacket _ p => p.wf
  | .pairTimeout _ => true
  | .twinPeerChange _ _ => true
  | .twinLossDeclare _ => true
  | .claimSample _ => true
  | .claimOverride _ => true
  | .claimContention _ => true
  | .claimBackoffEnd => true
  | .tsAlonePeerTimeout _ => true
  | .handover a _ => a.wf
  | .handoverPacket _ _ _ => true
  | .rejoinCopy _ _ _ => true
  | .checkpointMirrorPacket _ _ _ data => bytesOk data
  | .rejoinEnd => true
  | .rejoinTimeout _ => true
  | .aliveSend _ => true
  | .aliveReceive _ octets => bytesOk octets
  | .keepRepeat _ => true
  | .twrTwcCmd a _ => a.wf
  | .twcReplyTimeout _ => true
  | .twrCntClr a _ => a.wf
  | .migGo a _ => a.wf
  | .migFinal a _ => a.wf
  | .migAbort a _ => a.wf
  | .migrationPage _ ipa _ data => addressOk ipa && bytesOk data
  | .migrationControl _ op round _ => decide (op < 256) && decide (round < 256)
  | .migRoundDone _ => true
  | .coreLoad a _ addr trailAddr _ => a.wf && addressOk addr && addressOk trailAddr
  | .coreStore a _ addr data => a.wf && addressOk addr && bytesOk data
  | .peripheralWrite a _ addr _ => a.wf && addressOk addr
  | .rsRead a _ addr => a.wf && addressOk addr
  | .atomic a _ addr _ _ => a.wf && addressOk addr
  | .barrier _ => true
  | .peripheralReadCheckpoint a _ addr => a.wf && addressOk addr
  | .checkpointPeriod _ => true
  | .writeHoldHigh _ => true
  | .comparePoint _ _ c _ => c.wf
  | .checkpoint _ _ c arch => c.wf && bytesOk arch
  | .releasedWriteError _ addr => addressOk addr
  | .trailTimeout _ _ => true
  | .pairStallTimeout _ _ => true
  | .restartDone _ _ _ => true
  | .comparatorTest _ _ => true
  | .caliperStorageError _ _ _ => true
  | .pairInterrupt _ _ => true
  | .calCntClr a _ _ => a.wf
  | .coreRun a _ _ => a.wf
  | .coreRst a _ _ => a.wf
  | .intcLineWrite a _ _ => a.wf
  | .intcSwraise a _ => a.wf
  | .interruptDelivery _ => true
  | .interruptAck _ _ => true
  | .coreTimerExpiry _ _ _ => true
  | .counterOverflow _ _ => true
  | .cacheError _ addr => addressOk addr
  | .speculativeLoadReissue a addr => a.wf && addressOk addr
  | .mbsGo a _ => a.wf
  | .mbDbgSend a _ _ => a.wf
  | .mbTakeRead a _ => a.wf
  | .mbsWait _ _ => true
  | .mbsAbortClear _ _ => true
  | .crossedWait _ _ => true
  | .mbxCntClr a _ => a.wf
  | .vmcInvPage a _ => a.wf
  | .vmcInvVm a _ => a.wf
  | .vmcInvDone _ => true
  | .iomInvHyp a => a.wf
  | .iomInvSecure a => a.wf
  | .iomInvAll a => a.wf
  | .iomInvDone => true
  | .isoSecTtbWrite a _ _ => a.wf
  | .dmaFault _ _ ipa _ => addressOk ipa
  | .iomFltClr a => a.wf
  | .vmcClr a _ => a.wf
  | .partReqGo a page _ => a.wf && addressOk page
  | .partingDrained page => addressOk page
  | .partingTimeout page => addressOk page
  | .tmSend a _ _ _ => a.wf
  | .tmAck a _ _ _ => a.wf
  | .dplOvfClear a _ => a.wf
  | .hinQuiesceReq a _ _ => a.wf
  | .quiesceDone _ => true
  | .dramRead _ a _ addr actual flips => a.wf && addressOk addr && addressOk actual && flipsOk flips
  | .dramWrite _ a _ addr data flips => a.wf && addressOk addr && bytesOk data && flipsOk flips
  | .dramTrainingDone _ => true
  | .dramRefresh => true
  | .dramTemperatureReport _ _ _ => true
  | .scrubStep _ _ flips _ => flipsOk flips
  | .sramError _ _ => true
  | .dmcCntClr a _ => a.wf
  | .norProgram a _ _ => a.wf
  | .norErase4k a _ _ => a.wf
  | .norErase64k a _ _ => a.wf
  | .norCmdDone _ _ => true
  | .norRead a addr _ _ => a.wf && addressOk addr
  | .norCntClr a _ _ => a.wf
  | .fusProgGo a _ => a.wf
  | .fuseProgramDone _ => true
  | .keyWrite _ => true
  | .keyErase _ => true
  | .lifecycleAdvance _ => true
  | .testPortUnlock _ => true
  | .testPortClearDone => true
  | .testPortVerifyDone _ => true
  | .lcsProvision a _ => a.wf
  | .lcsExport a _ => a.wf
  | .attExtend a _ => a.wf
  | .attGo a _ => a.wf
  | .capsuleCheck _ a _ _ => a.wf
  | .capsuleMake _ a _ _ => a.wf
  | .channelUnblock _ => true
  | .relayOpen octets => bytesOk octets
  | .relayManifestBlock octets => bytesOk octets
  | .slotPrepared _ => true
  | .relayTransportBlock octets => bytesOk octets
  | .blockProgrammed _ => true
  | .relayAck octets => bytesOk octets
  | .ackTimer => true
  | .relayNoProgress => true
  | .relayClose octets => bytesOk octets
  | .relayAbort octets => bytesOk octets
  | .slotComplete _ _ => true
  | .updateStatus => true
  | .updateTrial _ => true
  | .updateConfirm _ => true
  | .updateReject _ => true
  | .updateAbort => true
  | .setWrite _ => true
  | .setRead => true
  | .serviceRequest => true
  | .loaderStart => true
  | .baseInstall _ => true
  | .slotChoose => true
  | .keysDerive => true
  | .xoStable _ _ => true
  | .xoStartTimeout _ => true
  | .xo32Stable _ => true
  | .rcTimingMark _ _ _ => true
  | .supervisionWindow _ _ => true
  | .pllLockLoss _ _ => true
  | .crossingReset _ outstanding => outstanding.all addressOk
  | .crossingRehandshake _ waiting => waiting.all WaitingAccess.wf
  | .clockGateIdle page => addressOk page
  | .clockGateWake page => addressOk page
  | .pwrDomFollow a _ _ => a.wf
  | .pwrDomWakeOn a _ _ => a.wf
  | .pwrDomOff a _ _ => a.wf
  | .domainOffDone _ _ _ => true
  | .domainOnDone _ _ => true
  | .vfsReq a _ => a.wf
  | .vfsStepDone _ => true
  | .vfsRailFail _ _ => true
  | .vfsClrFail a _ => a.wf
  | .vfsCeilingChange => true
  | .clkAcDivWrite a _ => a.wf
  | .rstReqCompute a _ => a.wf
  | .rstReqCluster a _ => a.wf
  | .rstReqRp a _ => a.wf
  | .rstReqDie a _ => a.wf
  | .watchdogEnable a _ => a.wf
  | .watchdogKick a _ => a.wf
  | .watchdogWarn _ => true
  | .watchdogExpiry _ => true
  | .computeDieReset _ _ => true
  | .computeDieRelease _ _ => true
  | .alwaysOnReset _ _ => true
  | .powerOn _ => true
  | .realtimeRelease _ _ => true
  | .clusterRelease _ => true
  | .slpModeReqRun a _ => a.wf
  | .slpModeReqPartial a _ => a.wf
  | .degCauseChange => true
  | .serviceLimitExpiry _ => true
  | .slpVoteIn a _ => a.wf
  | .voteTimeout _ _ => true
  | .ownSleepWrite a _ => a.wf
  | .prepExpiry _ => true
  | .shdnReq a _ => a.wf
  | .shdnAck a _ => a.wf
  | .shdnTimeout _ => true
  | .shutdownSelfTest _ _ => true
  | .selfTestDone _ _ => true
  | .computeRailsCut _ => true
  | .wakeLWake _ => true
  | .canWakePattern _ _ _ => true
  | .wakeLPulse a _ => a.wf
  | .wakeLPulseEnd _ => true
  | .wakeLStuck _ => true
  | .maxAwakeExpiry _ _ => true
  | .commOk a _ => a.wf
  | .falseWakeWindowEnd _ => true
  | .falseWakeHoldEnd _ _ => true
  | .slpCntClr a _ => a.wf
  | .faultCodePost _ => true
  | .logTakeRead a => a.wf
  | .logClr a _ => a.wf
  | .fagDone a _ => a.wf
  | .fagCntClr a _ => a.wf
  | .escalationWarn _ => true
  | .escalation _ => true
  | .pathTest _ _ => true
  | .powerDieLogicDiffer _ _ => true
  | .plausibilityFail _ _ _ _ => true
  | .repairLogLoad => true
  | .honingPlan _ => true
  | .honPlanNow a _ => a.wf
  | .honingPeriod _ => true
  | .honingSample _ _ => true
  | .temperatureCeiling _ _ => true
  | .wettingPulseStart _ => true
  | .wettingPulseEnd _ => true
  | .comparatorTransition _ _ _ => true
  | .selLandChange _ _ => true
  | .txdDominantTimeout _ => true
  | .canIntegrationDone _ => true
  | .announceReceive _ vec => vec.wf
  | .preemptionVerifyResponse _ => true
  | .aliveTimeout _ => true
  | .wakeLHigh _ => true
  | .channelRecordsWritten => true
  | .cryGo a _ _ => a.wf
  | .cryJobDone _ _ result => bytesOk result

end Sys2Proof
end

