-- ==== Sys2Proof/Safety.lean ====
section
/-!
DEFINITION. The terms in which claims are stated: a state whose sparse lists are in their canonical form, an access that the
rules of spec/02 accept, and a command that completes.
-/

namespace Sys2Proof.Machine

/-- Registers, tables, memory and fuses are in canonical form: equal contents are equal data. -/
abbrev State.Canonical (s : State) : Prop :=
  regsWf s.regs = true ∧ tabsWf s.tabs = true ∧ memWf s.mem = true ∧ fusesWf s.fuses = true

/-- A write of v to offset off of page p by access a is accepted: the compute die answers, no rule of spec/02 R32-R50, R61, R62
refuses the access, and the value is one that the register takes (R34, R41, R603). -/
abbrev State.Accepts (s : State) (a : Access) (p off : Nat) (v : Word) : Prop :=
  s.up.compute = true ∧ s.accessCause a p off true = none ∧ s.valueCause p off v = none

/-- A read of offset off of page p is accepted. -/
abbrev State.Shows (s : State) (a : Access) (p off : Nat) : Prop :=
  s.up.compute = true ∧ s.accessCause a p off false = none

/-- Every list that holds one entry per unit has as many entries as the chip has units: CAN controllers, LIN channels, gateway
engines, load channels, power dies (and whether each is out of reset), digital and analog inputs, bridges, caliper units and cores (spec/01 R2, R5). -/
abbrev State.Sized (s : State) : Prop :=
  s.can.length = 12 ∧ s.lin.length = 8 ∧ s.gwIn.length = 4 ∧ s.chans.length = 32 ∧ s.dies.length = 2 ∧ s.dins.length = 48 ∧
    s.ains.length = 16 ∧ s.bridges.length = 3 ∧ s.cal.length = 6 ∧ s.cores.length = 13 ∧ s.up.die.length = 2

/-- The command answers a next state, and that state has the property. -/
def Completes (i : Instr) (s : State) (q : State → Prop) : Prop := ∃ t, exec i s = .next t ∧ q t

/-- Interrupt source bit b of page p reads 1 in INT_RAW (spec/02 R44). -/
abbrev State.Irq (s : State) (p b : Nat) : Prop := s.on p ⟨INT_RAW, b, 1⟩ = true

/-- A code of page p with its locator waits for the aggregator (spec/19 R535). -/
abbrev State.Posted (s : State) (p code loc : Nat) : Prop := ⟨code, loc % 2 ^ 32, tyOf p, instOf p, false⟩ ∈ s.posts

/-- The registers at these offsets of page p, by address. -/
abbrev Offs (p : Nat) (os : List Nat) : Nat → Prop := fun addr => addr ∈ os.map (p + ·)

/-- The registers at these addresses. -/
abbrev Regs (as : List Nat) : Nat → Prop := fun addr => addr ∈ as

/-- The registers of these pages. -/
abbrev Pages (ps : List Nat) : Nat → Prop := fun addr => pageBase addr ∈ ps

/-- What an error record writes on its page (spec/02 R45). -/
abbrev errRegs : List Nat := [ERR_CAP, ERR_ADDR, INT_RAW]

/-- The registers at offsets of a page of power die d, those of an error record, and the counter of codes that the die has lost
while its bridge is down (spec/08 R272). -/
abbrev DieErrs (d p : Nat) (os : List Nat) : Nat → Prop :=
  fun addr => addr ∈ (os ++ errRegs).map (p + ·) ++ [pPDC d + PDC_QOVF]

/-- The state after n steps; none where a step stops. -/
def steps : Nat → State → Option State
  | 0, s => some s
  | n + 1, s =>
    match step s with
    | .next t => steps n t
    | _ => none

/-- The state without the register file and without the answer to the last access. -/
def State.rest (s : State) : State := { s with regs := [], resp := ⟨.ok, 0⟩ }

/-- The frame of a step from s to t: outside the registers `m` every register reads in t as in s, and every other field of the
state but the answer of an access is that of u (tables, memory, fuses, queues, posted codes, outputs, modes and the rest). -/
structure Frame (m : Nat → Prop) (u s t : State) : Prop where
  regs : ∀ addr, ¬ m addr → t.rd addr 0 = s.rd addr 0
  rest : t.rest = u.rest

/-- The frame of a step that writes other fields as well: outside the registers `m` every register reads in t as in s, and fuses,
tables and memory are those of s. -/
structure RegFrame (m : Nat → Prop) (s t : State) : Prop where
  regs : ∀ addr, ¬ m addr → t.rd addr 0 = s.rd addr 0
  fuses : t.fuses = s.fuses
  tabs : t.tabs = s.tabs
  mem : t.mem = s.mem

/-- A key-update message waits under SEC_GO, and l is what its address and length name (spec/15 R443). -/
abbrev State.MessageIs (s : State) (l : List Nat) : Prop :=
  let r := s.ramRead 0 false ((s.rd pSEC SEC_MSG_LO).toNat + s.get pSEC SEC_MSG_HI_V * 2 ^ 32) (max (s.get pSEC SEC_MSG_LEN_V) 1)
  s.up.compute = true ∧ s.on pSEC SEC_STAT_BUSY = true ∧ s.sec.stopped = false ∧ r.1 = s ∧
    (r.2.getD []).take (s.get pSEC SEC_MSG_LEN_V) = l

/-- SC's reply of n words to a request w passes the tests of its channel (spec/16 R481, spec/12 R384). -/
abbrev State.CanReply (s : State) (w : List Nat) (n : Nat) : Prop :=
  (takeEff 31 s).sendTest 0x20 0 (bitsOf (nth w 0 0) 8 5) n = 0

/-- SC's reply to a request w stands in the channel that the request names: status and words (spec/16 R481). -/
abbrev State.Replied (t : State) (w : List Nat) (status : Nat) (rest : List Nat) : Prop :=
  let p := pMBC (bitsOf (nth w 0 0) 8 5)
  t.on p MB_STAT_FULL = true ∧ t.get p MB_STAT_LEN = 1 + rest.length ∧
    (t.rd p (MB_DATA 0)).toNat = (nth w 0 0 / 2 ^ 24 % 128 + 128) * 2 ^ 24 + bitsOf (nth w 0 0) 16 8 * 2 ^ 16 + status ∧
    ∀ k : Fin 15, k.val < rest.length → t.rd p (MB_DATA (k.val + 1)) = BitVec.ofNat 32 (nth rest k.val 0)

/-- A bit of a fuse word is programmed (spec/14 R433). -/
abbrev State.FuseSet (s : State) (w bit : Nat) : Prop := (s.fuse w).testBit bit = true

end Sys2Proof.Machine
end

