-- ==== Sys2Proof/Certificates/Slice0/Obligations.lean ====
section
/-!
DEFINITION. The statements for the provers. Each docstring says what the statement claims and which rules it rests on; a choice
of the model is named with its log entry.
-/

open Sys2Proof Sys2Proof.Machine

/-- An accepted TMB_SNAP captures module time in its three registers (in the clock of a step the time before it), TMB_RATE takes a rate within ±500 ppm while nobody owns the time base, TMB_STEP_GO requests a step, STEP_DONE moves time by the step registers, moves the plate's own instants with it, keeps the time before the step for a snapshot of this clock and raises its interrupt, and a measured link delay is shown while the twin link is up. Each changes nothing else. Concludes that exec answers the next state for: tmbSnap, tmbRateWrite, tmbStepGo, stepDone, twinLinkDelayMeasure. -/
def Obligations.TimeBaseCommandsComplete : Prop :=
  (∀ (a : Access) (v : Word) (s : State),
    s.Canonical → s.Accepts a pTMB TMB_SNAP v → v.getLsbD 0 = true → s.frozen pTMB = false → 
    Completes (.tmbSnap a v) s fun t => (t.rd pTMB TMB_SNAP_NS).toNat = s.snapQ % 4000000000 ∧
      (t.rd pTMB TMB_SNAP_SL).toNat = s.snapQ / 4000000000 % 2 ^ 32 ∧
      (t.rd pTMB TMB_SNAP_SH).toNat = s.snapQ / 4000000000 / 2 ^ 32 % 2 ^ 16 ∧
      (∀ c q, s.tb.stepped = some (c, q) → s.snapQ = if c = s.tb.clocks then q else s.nowQ) ∧ (s.tb.stepped = none → s.snapQ = s.nowQ) ∧
      Frame (Offs pTMB [TMB_SNAP, TMB_SNAP_NS, TMB_SNAP_SL, TMB_SNAP_SH]) s s t) ∧
  (∀ (a : Access) (v : Word) (s : State),
    s.Canonical → s.Accepts a pTMB TMB_RATE v → (sext 32 v.toNat).natAbs ≤ 1099511627 → s.timeOwned = false → 
    Completes (.tmbRateWrite a v) s fun t => t.rd pTMB TMB_RATE = v ∧ Frame (Offs pTMB [TMB_RATE]) s s t) ∧
  (∀ (a : Access) (v : Word) (s : State),
    s.Canonical → s.Accepts a pTMB TMB_STEP_GO v → v.getLsbD 0 = true → s.timeOwned = false → 
    Completes (.tmbStepGo a v) s fun t => t.tb.stepReq = true ∧ Frame (Offs pTMB []) { s with tb.stepReq := true } s t) ∧
  (∀ (s : State),
    s.Canonical → s.tb.stepReq = true → s.timeRuns = true → 
    Completes (.stepDone) s fun t => t.tb = { s.tb with time := ((s.tb.time : Int) + s.stepSize * 2 ^ 38).toNat, stepReq := false, stepped := some (s.tb.clocks, s.nowQ) } ∧
      t.plate = s.plate.shift ((t.nowQ : Int) - s.nowQ) ∧ t.Irq pTMB INT_TMB_STEP_DONE ∧
      Frame (Offs pTMB [INT_RAW]) { s with tb := t.tb, plate := t.plate } s t) ∧
  (∀ (delay : Nat) (s : State),
    s.Canonical → s.timeRuns = true → 2 ≤ s.get pTWL TWL_STAT_ST → 
    Completes (.twinLinkDelayMeasure delay) s fun t => t.rd pTMB TMB_TWIN_DLY = BitVec.ofNat 32 delay ∧ Frame (Offs pTMB [TMB_TWIN_DLY]) s s t)

/-- For an enabled instance: a Sync on the slave port of the steering instance with the servo on shows its offset and, beyond the step and lock thresholds, moves time (and the plate's own instants) against it and clears SYNCED (that it clears is a choice of the model, named in its log); a peer-delay exchange stores delay, rate ratio and asCapable of its port; a Sync on a master port and a Pdelay_Req leave on the link with a transmit timestamp of their sampling phase plus PORT_EGR_LAT, an Announce without one; the read of PTP_TS_NS takes the head of the timestamp FIFO; a missed Sync enters holdover with interrupt and code 0xE213; an Announce is held for its port, and where that port is the slave port then, its grandmaster is shown with GM_CHANGE when it is another. Concludes that exec answers the next state for: syncReceive, pdelayExchange, ptpMessageTransmit, ptpTsNsRead, syncReceiptTimeout, announceReceive. -/
def Obligations.NetworkTimeCommandsComplete : Prop :=
  (∀ (inst : Fin 4) (port : Fin 31) (offset : Int) (s : State),
    s.Canonical → s.timeRuns = true → s.on pPTP (INST_CFG_EN inst.val) = true → s.get pPTP PTP_CTRL_INST = inst.val → s.slavePort inst.val = some port.val → s.on pPTP PTP_CTRL_SERVO_EN = true → s.get pTMB TMB_CTRL_SRC = 1 → s.followsTwinTime = false → s.on pTMB TMB_STAT_HOLDOVER = false → (s.rd pPTP PTP_STEP_THR).toNat < offset.natAbs → (s.rd pPTP PTP_LOCK_THR).toNat < offset.natAbs → 
    Completes (.syncReceive ⟨inst, port⟩ offset) s fun t => t.rd pPTP PTP_OFFSET = BitVec.ofNat 32 (toField 32 (clampInt 32 offset)) ∧ t.tb = { s.tb with time := ((s.tb.time : Int) - offset * 2 ^ 38).toNat, lockCnt := 0 } ∧
      t.plate = s.plate.shift ((t.nowQ : Int) - s.nowQ) ∧ t.fresh = s.fresh + 1 ∧ t.on pTMB TMB_STAT_LOCKED = false ∧ t.on pPTP PTP_STAT_SYNCED = false ∧
      Frame (Regs [pPTP + PTP_OFFSET, pPTP + INST_RR inst.val, pPTP + PTP_STAT, pTMB + TMB_STAT]) { s with tb := t.tb, plate := t.plate, fresh := t.fresh } s t) ∧
  (∀ (inst : Fin 4) (port : Fin 31) (delay nrr : Nat) (asCapable : Bool) (s : State),
    s.Canonical → s.timeRuns = true → port.val ≠ 2 → port.val < 27 → s.on pPTP (INST_CFG_EN inst.val) = true → s.instHasPort inst.val port.val = true → 
    Completes (.pdelayExchange port delay nrr asCapable) s fun t => t.get pPTP (PD_DELAY_V port.val) = delay % 2 ^ 26 ∧ (t.rd pPTP (PD_NRR port.val)).toNat = nrr % 2 ^ 32 ∧
      t.on pPTP (PD_STAT_AS_CAP port.val) = asCapable ∧ (asCapable = true → t.on pPTP (INST_STAT_AS_CAP inst.val) = true) ∧
      Frame (Offs pPTP [PD_DELAY port.val, PD_NRR port.val, PD_STAT port.val, INST_STAT 0, INST_STAT 1, INST_STAT 2, INST_STAT 3]) s s t) ∧
  (∀ (inst : Fin 4) (port : Fin 31) (seq q : Nat) (phase : Fin 8) (s : State),
    s.Canonical → s.timeRuns = true → s.masterPort inst.val port.val = true → s.tb.fifo.length < 64 → q = ((s.nowQ + phase.val : Nat) + s.geti (pPORT port.val) PORT_EGR_LAT_V : Int).toNat → 
    Completes (.ptpMessageTransmit ⟨inst, port⟩ .sync seq phase) s fun t => t.out = s.out ++ [.ptp inst.val port.val .sync (seq % 2 ^ 16)] ∧
      t.tb = { s.tb with fifo := s.tb.fifo ++ [⟨port.val, 0, seq % 2 ^ 16, stampSec q, stampNs q⟩] } ∧ t.Irq pPTP INT_PTP_TS_AVAIL ∧
      Frame (Offs pPTP [PTP_STAT, PTP_TS_INFO, PTP_TS_SEC, PTP_TS_NS, INT_RAW]) { s with out := t.out, tb := t.tb } s t) ∧
  (∀ (inst : Fin 4) (port : Fin 31) (seq q : Nat) (phase : Fin 8) (s : State),
    s.Canonical → s.timeRuns = true → s.on pPTP (INST_CFG_EN inst.val) = true → s.instHasPort inst.val port.val = true → s.on (pPORT port.val) PORT_STAT_LINK = true → port.val < 27 → s.tb.fifo.length < 64 → q = ((s.nowQ + phase.val : Nat) + s.geti (pPORT port.val) PORT_EGR_LAT_V : Int).toNat → 
    Completes (.ptpMessageTransmit ⟨inst, port⟩ .pdelay seq phase) s fun t => t.out = s.out ++ [.ptp inst.val port.val .pdelay (seq % 2 ^ 16)] ∧
      t.tb = { s.tb with fifo := s.tb.fifo ++ [⟨port.val, 2, seq % 2 ^ 16, stampSec q, stampNs q⟩] } ∧ t.Irq pPTP INT_PTP_TS_AVAIL ∧
      Frame (Offs pPTP [PTP_STAT, PTP_TS_INFO, PTP_TS_SEC, PTP_TS_NS, INT_RAW]) { s with out := t.out, tb := t.tb } s t) ∧
  (∀ (inst : Fin 4) (port : Fin 31) (seq : Nat) (phase : Fin 8) (s : State),
    s.Canonical → s.timeRuns = true → s.masterPort inst.val port.val = true → 
    Completes (.ptpMessageTransmit ⟨inst, port⟩ .announce seq phase) s fun t => t.out = s.out ++ [.ptp inst.val port.val .announce (seq % 2 ^ 16)] ∧ Frame (Offs 0 []) { s with out := t.out } s t) ∧
  (∀ (a : Access) (s : State),
    s.Canonical → s.Shows a pPTP PTP_TS_NS → 
    Completes (.ptpTsNsRead a) s fun t => t.tb.fifo = s.tb.fifo.tail ∧ t.resp = ⟨.ok, s.readReg pPTP PTP_TS_NS⟩ ∧
      Frame (Offs pPTP [PTP_STAT, PTP_TS_INFO, PTP_TS_SEC, PTP_TS_NS]) { s with tb := t.tb } s t) ∧
  (∀ (inst : Fin 4) (s : State),
    s.Canonical → s.timeRuns = true → s.on pPTP (INST_CFG_EN inst.val) = true → s.get pPTP PTP_CTRL_INST = inst.val → s.on pPTP PTP_CTRL_SERVO_EN = true → s.get pTMB TMB_CTRL_SRC = 1 → s.followsTwinTime = false → 
    Completes (.syncReceiptTimeout inst) s fun t => t.Irq pTMB INT_TMB_HOLDOVER ∧ t.Irq pPTP INT_PTP_SYNC_LOST ∧ t.on pPTP PTP_STAT_SYNCED = false ∧ t.Posted pTMB 0xE213 0 ∧
      t.rd pTMB TMB_RATE = s.rd pTMB TMB_RATE ∧
      Frame (Regs [pTMB + TMB_STAT, pTMB + INT_RAW, pTMB + ERR_CAP, pTMB + ERR_ADDR, pPTP + PTP_STAT, pPTP + INT_RAW]) { s with tb.lockCnt := 0, posts := t.posts } s t) ∧
  (∀ (inst : Fin 4) (port : Fin 31) (vec : PtpVector) (h : List (Nat × Nat × PtpVector)) (s : State),
    s.Canonical → s.timeRuns = true → s.on pPTP (INST_CFG_EN inst.val) = true → s.instHasPort inst.val port.val = true → port.val < 27 → h = (s.tb.heard.filter fun e => !(e.1 == inst.val && e.2.1 == port.val)) ++ [(inst.val, port.val, vec)] → 
    Completes (.announceReceive ⟨inst, port⟩ vec) s fun t => t.tb = { s.tb with heard := h } ∧
      (({ s with tb.heard := h } : State).slavePort inst.val = some port.val →
        t.rd pPTP (INST_GMID_HI inst.val) = BitVec.ofNat 32 (vec.gmIdentity / 2 ^ 32) ∧ t.rd pPTP (INST_GMID_LO inst.val) = BitVec.ofNat 32 vec.gmIdentity ∧
        (s.rd pPTP (INST_GMID_HI inst.val) ≠ BitVec.ofNat 32 (vec.gmIdentity / 2 ^ 32) ∨ s.rd pPTP (INST_GMID_LO inst.val) ≠ BitVec.ofNat 32 vec.gmIdentity →
          t.Irq pPTP INT_PTP_GM_CHANGE)) ∧
      Frame (Offs pPTP [INST_GMID_HI inst.val, INST_GMID_LO inst.val, INT_RAW]) { s with tb.heard := h } s t)

/-- For any page p that accepts the access: OWNER takes world and VM (world 0 on pages only the secure world can own), a soft reset returns the registers it does not keep and reads 1 until it is done, BLK_CTRL takes EN and, where the block can freeze, FREEZE, INT_RAW clears the written bits but those set in the same clock, INT_SET sets bits, CLR clears the error record, an armed IOM point 1 injects 0x9113, a force-off is taken, and its drain time-out ends waiting accesses with an error. Nothing else changes. Concludes that exec answers the next state for: ownerWrite, softRst, softRstDone, freezeWrite, intRawClear, intSet, errCapClr, errInjArm, clkReqForceOff, forceOffDrainTimeout. -/
def Obligations.HeaderCommandsComplete : Prop :=
  (∀ (a : Access) (page : Nat) (v : Word) (s : State),
    s.Canonical → s.Accepts a (pageBase page) OWNER v → 
    Completes (.ownerWrite a page v) s fun t => t.get (pageBase page) OWNER_WORLD = (if secOnlyTy (tyOf (pageBase page)) then 0 else bitsOf v.toNat 0 2) ∧
      t.get (pageBase page) OWNER_VM = bitsOf v.toNat 4 6 ∧ t.on (pageBase page) OWNER_LOCK = v.getLsbD 31 ∧
      Frame (Offs (pageBase page) [OWNER]) (s.dropSource (pageBase page)) s t) ∧
  (∀ (a : Access) (page : Nat) (v : Word) (s : State),
    s.Canonical → s.Accepts a (pageBase page) BLK_CTRL v → v.getLsbD 1 = true → s.on (pageBase page) BLK_CTRL_SOFT_RST = false → tyOf (pageBase page) ∈ [0x1002, 0x1003, 0x1004, 0x1005, 0x2001, 0x3001] → 
    Completes (.softRst a page v) s fun t => t.on (pageBase page) BLK_CTRL_SOFT_RST = true ∧
      (∀ off, off < 0x1000 → headerKept off = true ∨ shownOutside (tyOf (pageBase page)) off = true →
        t.rd (pageBase page) off = s.rd (pageBase page) off) ∧
      (∀ off, off < 0x1000 → headerKept off = false → shownOutside (tyOf (pageBase page)) off = false → off ≠ BLK_CTRL →
        t.rd (pageBase page) off = resetVal (pageBase page + off)) ∧
      Frame (Pages [pageBase page]) (if tyOf (pageBase page) = 0x2001 then { s with sw.lfsr := 1 } else s) s t) ∧
  (∀ (page : Nat) (s : State),
    s.Canonical → pageBase page ≠ pTMB → s.pageUp (pageBase page) = true → s.on (pageBase page) BLK_CTRL_SOFT_RST = true → 
    Completes (.softRstDone page) s fun t => t.on (pageBase page) BLK_CTRL_SOFT_RST = false ∧ Frame (Offs (pageBase page) [BLK_CTRL]) s s t) ∧
  (∀ (a : Access) (page : Nat) (v : Word) (s : State),
    s.Canonical → s.Accepts a (pageBase page) BLK_CTRL v → v.getLsbD 1 = false → s.on (pageBase page) BLK_CTRL_SOFT_RST = false → tyOf (pageBase page) ∉ [0x0004, 0x7001, 0x7003, 0xE003] → 
    Completes (.freezeWrite a page v) s fun t => t.on (pageBase page) BLK_CTRL_EN = v.getLsbD 0 ∧
      (Config.freezable (tyOf (pageBase page)) = true → t.on (pageBase page) BLK_CTRL_FREEZE = v.getLsbD 2) ∧
      Frame (Offs (pageBase page) (BLK_CTRL :: ((if tyOf (pageBase page) = 0x8002 then [CAL_CNT_MISM] else []) ++
        if pageBase page = pDMC then [DMC_USE_SPILL, DMC_USE_HOST, DMC_USE_OTHER] else []))) s s t) ∧
  (∀ (a : Access) (page : Nat) (v hw : Word) (s : State),
    s.Canonical → s.Accepts a (pageBase page) INT_RAW v → s.pageUp (pageBase page) = true → 
    Completes (.intRawClear a page v hw) s fun t => t.rd (pageBase page) INT_RAW = (s.rd (pageBase page) INT_RAW &&& ~~~v) ||| hw ∧ Frame (Offs (pageBase page) [INT_RAW]) s s t) ∧
  (∀ (a : Access) (page : Nat) (v : Word) (s : State),
    s.Canonical → s.Accepts a (pageBase page) INT_SET v → 
    Completes (.intSet a page v) s fun t => t.rd (pageBase page) INT_RAW = s.rd (pageBase page) INT_RAW ||| v ∧ Frame (Offs (pageBase page) [INT_RAW]) s s t) ∧
  (∀ (a : Access) (page : Nat) (v : Word) (s : State),
    s.Canonical → s.Accepts a (pageBase page) ERR_CAP v → v.getLsbD 31 = true → 
    Completes (.errCapClr a page v none) s fun t => t.rd (pageBase page) ERR_CAP = 0 ∧ t.rd (pageBase page) ERR_ADDR = 0 ∧ Frame (Offs (pageBase page) [ERR_CAP, ERR_ADDR]) s s t) ∧
  (∀ (a : Access) (page : Nat) (v : Word) (s : State),
    s.Canonical → s.Accepts a (pageBase page) ERR_INJ v → pageBase page = pIOM → bitsOf v.toNat 0 8 = 1 → v.getLsbD 16 = true → 
    Completes (.errInjArm a page v) s fun t => t.on pIOM ERR_INJ_ARM = false ∧ t.on pIOM ERR_INJ_DONE = true ∧ ⟨0x9113, 0, 0x9002, 1, true⟩ ∈ t.posts ∧
      Frame (Offs pIOM (ERR_INJ :: errRegs)) { s with posts := t.posts } s t) ∧
  (∀ (a : Access) (page : Nat) (v : Word) (s : State),
    s.Canonical → s.Accepts a (pageBase page) CLK_REQ v → bitsOf v.toNat 0 2 = 2 → 
    Completes (.clkReqForceOff a page v none) s fun t => t.get (pageBase page) CLK_REQ_POLICY = 2 ∧ Frame (Offs (pageBase page) [CLK_REQ]) s s t) ∧
  (∀ (page addr : Nat) (s : State),
    s.Canonical → s.shell.draining = [(pageBase page, addr)] → bridgeDie (tyOf (pageBase page)) = none → 
    Completes (.forceOffDrainTimeout page) s fun t => t.resp = ⟨.error, 0⟩ ∧ t.shell.draining = [] ∧ t.on (pageBase page) CLK_REQ_DRAIN_ERR = true ∧
      t.Posted (pageBase page) (commonCode (subsystemOf (pageBase page)) 0x06) (addr % 2 ^ 32) ∧
      Frame (Offs (pageBase page) (CLK_REQ :: errRegs)) { s with shell.draining := [], posts := t.posts } s t)

/-- A running core writes its own registers where its level may (send words, world latch, VM register, deadlines, quantum, event selection); a page write to INT_EN sets it; an access to no page and no region answers with an error and posts 0x0004; the monitor stores and loads tightly coupled memory; a speculative read of a strict page is refused and counted; an allowed device DMA read of a strict page is refused with cause 0x05; the debug agent reads a register without its side effect. Concludes that exec answers the next state for: registerWrite, accessUnmapped, memoryRegionAccess, speculativeReadRefused, strictPageDmaRead, debugRsRead. -/
def Obligations.AccessCommandsComplete : Prop :=
  (∀ (a : Access) (addr : Nat) (v : Word) (s : State),
    s.Canonical → s.Accepts a (pageBase addr) INT_EN v → pageOff addr = INT_EN → (pageOf addr).isSome = true → 
    Completes (.registerWrite a (.page addr v)) s fun t => t.rd (pageBase addr) INT_EN = v ∧ t.resp = ⟨.ok, 0⟩ ∧ Frame (Offs (pageBase addr) [INT_EN]) s s t) ∧
  (∀ (a : Access) (k : Fin 16) (w : Word) (c : Nat) (s : State),
    s.Canonical → agentCore a.agent = some c → s.agentUp a.agent = true → 
    Completes (.registerWrite a (.sendWord k w)) s fun t => t.cores = (s.modCore c fun x => { x with sendWords := setNth x.sendWords k.val w.toNat }).cores ∧ t.resp = ⟨.ok, 0⟩ ∧ Frame (Offs 0 []) { s with cores := t.cores } s t) ∧
  (∀ (a : Access) (u : RegTarget) (c : Nat) (s : State),
    s.Canonical → agentCore a.agent = some c → s.agentUp a.agent = true → ∀ addr v, u ≠ .page addr v → ownWriteAllowed (s.levelOf a) c u = true → 
    Completes (.registerWrite a u) s fun t => t.cores = (s.modCore c (ownWrite u)).cores ∧ t.resp = ⟨.ok, 0⟩ ∧ Frame (Offs 0 []) { s with cores := t.cores } s t) ∧
  (∀ (a : Access) (addr : Nat) (s : State),
    s.Canonical → s.up.compute = true → pageOf addr = none → regionOf addr = .none → s.frozen pSYS = false → 
    Completes (.accessUnmapped a addr) s fun t => t.resp = ⟨.error, 0⟩ ∧ t.Posted pSYS 0x0004 (addr % 2 ^ 32) ∧
      t.get pSYS SYS_CNT_UNMAP_V = satAdd SYS_CNT_UNMAP_V.len (s.get pSYS SYS_CNT_UNMAP_V) 1 ∧
      Frame (Offs pSYS (SYS_CNT_UNMAP :: errRegs)) { s with posts := t.posts } s t) ∧
  (∀ (a : Access) (addr : Nat) (data : List Nat) (k : Nat) (s : State),
    s.Canonical → s.up.compute = true → data ≠ [] → s.levelOf a = .monitor → pageOf addr = none → regionOf addr = .tcm k → smallWidth data.length addr = true → 
    Completes (.memoryRegionAccess a .write addr data) s fun t => t.resp = ⟨.ok, 0⟩ ∧ t.mem = (s.each (s.tcmTargets k) fun s m => s.setBytes (0x12000000 + m * 0x20000 + addr % 0x20000) data).mem ∧ Frame (Offs 0 []) { s with mem := t.mem } s t) ∧
  (∀ (a : Access) (addr : Nat) (data : List Nat) (k : Nat) (s : State),
    s.Canonical → s.up.compute = true → data ≠ [] → s.levelOf a = .monitor → pageOf addr = none → regionOf addr = .tcm k → smallWidth data.length addr = true → 
    Completes (.memoryRegionAccess a .read addr data) s fun t => t.resp = ⟨.ok, s.memLE addr data.length⟩ ∧ Frame (Offs 0 []) s s t) ∧
  (∀ (a : Access) (addr c : Nat) (s : State),
    s.Canonical → s.up.compute = true → strictTy (tyOf addr) = true → agentCore a.agent = some c → s.frozen (pCORE c) = false → 
    Completes (.speculativeReadRefused a addr) s fun t => t.resp = ⟨.speculationRefused, 0⟩ ∧ t.get (pCORE c) CORE_CNT_SPEC_V = satAdd CORE_CNT_SPEC_V.len (s.get (pCORE c) CORE_CNT_SPEC_V) 1 ∧
      Frame (Offs (pCORE c) [CORE_CNT_SPEC]) (s.countEvent c (lvWorld (s.levelOf a)) 0x83) s t) ∧
  (∀ (src : Fin 17) (addr : Nat) (s : State),
    s.Canonical → s.up.compute = true → strictTy (tyOf addr) = true → s.owns (ctxLevel (s.srcCtx src.val)) (pageBase addr) = true → 
    Completes (.strictPageDmaRead src addr) s fun t => t.resp = ⟨.error, 0⟩ ∧ t.Posted (pageBase addr) (commonCode (subsystemOf (pageBase addr)) 0x05) (addr % 2 ^ 32) ∧
      Frame (Offs (pageBase addr) errRegs) { s with posts := t.posts } s t) ∧
  (∀ (addr : Nat) (s : State),
    s.Canonical → s.Shows ⟨0x60, .secure, 4⟩ (pageBase addr) (pageOff addr) → (pageOf addr).isSome = true → s.hidden ⟨0x60, .secure, 4⟩ (pageBase addr) (pageOff addr) = false → 
    Completes (.debugRsRead addr) s fun t => t.resp = ⟨.ok, s.readReg (pageBase addr) (pageOff addr)⟩ ∧ Frame (Offs 0 []) s s t)

/-- A valid table is taken by COMMIT and pends, another is refused with 0xE010; EN arms a plate that has not started; a start, free-running, on the gPTP schedule or after the Headstock, begins its first cycle at position 0 and hands its edge to the consumers; an edge moves the plate to the next position, or past the last one to the next cycle, and hands it to them, and in a re-index cycle the edge of SAFE_IX jumps with 0xE212; an accepted CYC_SYNC pulse is captured with its phase and ends a fall-back, one that comes too early is counted, the other edge does nothing; a gPTP reference is measured against the boundary or waits for the next; 8 quiet cycles free-run with code 0xE211; announcements of the Headstock are kept; a table that differs from its is reported with 0xE215; the CYC_OUT pulse ends. Concludes that exec answers the next state for: ixpCommit, ixpEnable, plateStart, indexEdge, cycSyncPulse, gptpReferenceInstant, syncLostFreerun, plateAnnouncement, twinTableMismatch, cycOutPulseEnd. -/
def Obligations.PlateCommandsComplete : Prop :=
  (∀ (a : Access) (v : Word) (s : State),
    s.Canonical → s.Accepts a pIXP IXP_CTRL v → v.getLsbD 16 = true → PlateTable.valid s.shadowTable = true → 
    Completes (.ixpCommit a v) s fun t => t.plate = (if t.get pIXP IXP_CTRL_SRC = s.get pIXP IXP_CTRL_SRC then { s.plate with pendTable := some s.shadowTable } else
        { s.plate with pendTable := some s.shadowTable, waiting := s.plate.waiting.filter fun e => e.2, quiet := 0, pulsed := true }) ∧
      t.on pIXP IXP_CTRL_COMMIT_PEND = true ∧ Frame (Offs pIXP [IXP_CTRL]) { s with plate := t.plate } s t) ∧
  (∀ (a : Access) (v : Word) (s : State),
    s.Canonical → s.Accepts a pIXP IXP_CTRL v → v.getLsbD 16 = true → PlateTable.valid s.shadowTable = false → bitsOf v.toNat 0 2 = s.get pIXP IXP_CTRL_SRC → 
    Completes (.ixpCommit a v) s fun t => t.Irq pIXP INT_IXP_COMMIT_REF ∧ t.Posted pIXP 0xE010 0 ∧ Frame (Offs pIXP (IXP_CTRL :: errRegs)) { s with posts := t.posts } s t) ∧
  (∀ (a : Access) (v : Word) (s : State),
    s.Canonical → s.Accepts a pIXP BLK_CTRL v → v.getLsbD 0 = true → v.getLsbD 1 = false → s.on pIXP BLK_CTRL_SOFT_RST = false → s.plate.started = false → s.plate.armed = none → 
    Completes (.ixpEnable a v) s fun t => t.on pIXP BLK_CTRL_EN = true ∧ Frame (Offs pIXP [BLK_CTRL]) { s with plate.armed := some (s.nowQ : Int) } s t) ∧
  (∀ (io : EdgeInputs) (t0 : Int) (u s1 : State) (s : State),
    s.Canonical → s.plate.armed = some t0 → s.plate.started = false → s.timeRuns = true → s.followsTwinPlate = false → s.get pIXP IXP_CTRL_SRC = 0 → u = s.advanceTo (t0 + 8000).toNat → s1 = (u.startPlate u.nowQ 0).1 → 
    Completes (.plateStart io) s fun t => t = s1.edgeActs 63 ⟨0, true, false, true⟩ io ∧ s1.plate.started = true ∧ s1.get pIXP IXP_STAT_CUR_IX = 0 ∧ s1.plate.next = 1 ∧ s1.plate.armed = none ∧ s1.plate.boundary = u.nowQ ∧ s1.rd pIXP IXP_CYC = 0 ∧ s1.tb = u.tb) ∧
  (∀ (io : EdgeInputs) (t0 : Int) (q : Nat) (s1 : State) (s : State),
    s.Canonical → s.plate.armed = some t0 → s.plate.started = false → s.timeRuns = true → s.followsTwinPlate = false → s.get pIXP IXP_CTRL_SRC = 2 → q = s.gptpAt (max s.nowQ (t0 + 8000).toNat) → s1 = ((s.advanceTo q).startPlate q 0).1 → 
    Completes (.plateStart io) s fun t => t = s1.edgeActs 63 ⟨0, true, false, true⟩ io ∧ s1.plate.started = true ∧ s1.get pIXP IXP_STAT_CUR_IX = 0 ∧ s1.plate.next = 1 ∧ s1.plate.armed = none ∧ s1.plate.boundary = q ∧ s1.rd pIXP IXP_CYC = 0 ∧ s1.tb = (s.advanceTo q).tb) ∧
  (∀ (io : EdgeInputs) (t0 q : Int) (c : Nat) (s1 : State) (s : State),
    s.Canonical → s.plate.armed = some t0 → s.plate.started = false → s.timeRuns = true → s.followsTwinPlate = true → s.plate.startAt = some (q, c) → s1 = ((s.advanceTo q.toNat).startPlate q c).1 → 
    Completes (.plateStart io) s fun t => t = s1.edgeActs 63 ⟨0, true, false, true⟩ io ∧ s1.plate.started = true ∧ s1.get pIXP IXP_STAT_CUR_IX = 0 ∧ s1.plate.next = 1 ∧ s1.plate.armed = none ∧ s1.plate.boundary = q ∧ s1.rd pIXP IXP_CYC = BitVec.ofNat 32 c ∧ s1.tb = (s.advanceTo q.toNat).tb) ∧
  (∀ (io : EdgeInputs) (k : Nat) (te : Int) (s1 : State) (s : State),
    s.Canonical → s.plate.started = true → s.timeRuns = true → s.plate.next = k → k < 64 → s.plate.inReindex = false → te = s.plate.boundary + (s.edgeOffset k : Nat) → s1 = ((({ s.advanceTo te.toNat with plate.next := k + 1 } : State).reachPos k te).firstAct k).1 → 
    Completes (.indexEdge io) s fun t => t = s1.edgeActs (s.get pIXP IXP_STAT_CUR_IX) ⟨k, false, false, !s.plate.acted.testBit k⟩ io ∧ s1.get pIXP IXP_STAT_CUR_IX = k ∧
      s1.plate.next = k + 1 ∧ s1.plate.acted.testBit k = true ∧
      Frame (Offs pIXP [IXP_STAT]) { s with tb := (s.advanceTo te.toNat).tb, plate := s1.plate } s s1) ∧
  (∀ (io : EdgeInputs) (te : Int) (s1 : State) (s : State),
    s.Canonical → s.plate.started = true → s.timeRuns = true → 64 ≤ s.plate.next → s.plate.inReindex = false → s.plate.reindex = none → te = s.plate.boundary + (s.plate.length : Nat) → s1 = (((s.advanceTo te.toNat).beginCycle te ((s.rd pIXP IXP_CYC).toNat + 1) false).firstAct 0).1 → 
    Completes (.indexEdge io) s fun t => t = s1.edgeActs (s.get pIXP IXP_STAT_CUR_IX) ⟨0, true, false, true⟩ io ∧ s1.rd pIXP IXP_CYC = s.rd pIXP IXP_CYC + 1 ∧ s1.get pIXP IXP_STAT_CUR_IX = 0 ∧
      s1.plate.boundary = te ∧ s1.plate.next = 1 ∧ s1.plate.started = true ∧ s1.tb = (s.advanceTo te.toNat).tb) ∧
  (∀ (io : EdgeInputs) (k : Nat) (te : Int) (r : Reindex) (s1 : State) (s : State),
    s.Canonical → s.plate.started = true → s.timeRuns = true → s.plate.next = k → k < 64 → s.plate.inReindex = true → s.get pIXP IXP_ACT_SAFE_IX = k → s.plate.reindex = some r → te = s.plate.boundary + (s.edgeOffset k : Nat) → s1 = ((({ s.advanceTo te.toNat with plate.next := k + 1 } : State).reachPos k te).firstAct k).1 → 
    Completes (.indexEdge io) s fun t => t = State.edgesAct io (⟨k, false, false, !s.plate.acted.testBit k⟩ :: (s1.plateJump te).2) (s.get pIXP IXP_STAT_CUR_IX) (s1.plateJump te).1 ∧
      (s1.plateJump te).1.Irq pIXP INT_IXP_REINDEX ∧ (s1.plateJump te).1.Posted pIXP 0xE212 0 ∧ (s1.plateJump te).1.plate.inReindex = false ∧
      (s1.plateJump te).1.plate.jumped = true ∧ s1.get pIXP IXP_STAT_CUR_IX = k) ∧
  (∀ (clocks q : Nat) (phase : Fin 8) (rising : Bool) (io : EdgeInputs) (s : State),
    s.Canonical → (s.advance clocks).syncActs = true → rising ≠ s.on pIXP IXP_CTRL_SYNC_POL → s.plate.started = true → q = (s.advance clocks).nowQ + phase.val → ∀ t, s.plate.lastPulse = some t → (s.plateL : Int) ≤ 2 * (q - t) → 
    Completes (.cycSyncPulse ⟨clocks, phase⟩ rising io) s fun t => t.rd pIXP IXP_SYNC_S = BitVec.ofNat 32 (stampSec q) ∧ t.rd pIXP IXP_SYNC_NS = BitVec.ofNat 32 (stampNs q) ∧
      t.plate.lastPulse = some (q : Int) ∧ t.plate.quiet = 0 ∧ t.plate.pulsed = true ∧ t.on pIXP IXP_STAT_SYNC_LOST = false ∧ t.tb = (s.advance clocks).tb ∧
      (s.on pIXP IXP_STAT_SYNC_LOST = true → t.Irq pIXP INT_IXP_SYNC_BACK) ∧
      RegFrame (Offs pIXP [IXP_SYNC_S, IXP_SYNC_NS, IXP_ERR, IXP_STAT, INT_RAW]) s t) ∧
  (∀ (clocks : Nat) (phase : Fin 8) (rising : Bool) (io : EdgeInputs) (t0 : Int) (s : State),
    s.Canonical → (s.advance clocks).syncActs = true → rising ≠ s.on pIXP IXP_CTRL_SYNC_POL → s.plate.started = true → s.plate.lastPulse = some t0 → 2 * (((s.advance clocks).nowQ + phase.val : Nat) - t0) < (s.plateL : Int) → s.frozen pIXP = false → 
    Completes (.cycSyncPulse ⟨clocks, phase⟩ rising io) s fun t => t.Irq pIXP INT_IXP_SYNC_IGN ∧ t.get pIXP IXP_CNT_IGNORED = satAdd IXP_CNT_IGNORED.len (s.get pIXP IXP_CNT_IGNORED) 1 ∧
      Frame (Offs pIXP [IXP_CNT, INT_RAW]) (s.advance clocks) s t) ∧
  (∀ (clocks : Nat) (phase : Fin 8) (rising : Bool) (io : EdgeInputs) (s : State),
    s.Canonical → rising = s.on pIXP IXP_CTRL_SYNC_POL → 
    Completes (.cycSyncPulse ⟨clocks, phase⟩ rising io) s fun t => t = s.advance clocks) ∧
  (∀ (clocks q : Nat) (phase : Fin 8) (rising : Bool) (io : EdgeInputs) (t0 : Int) (s1 : State) (s : State),
    s.Canonical → (s.advance clocks).syncActs = true → rising ≠ s.on pIXP IXP_CTRL_SYNC_POL → s.plate.started = false → s.plate.armed = some t0 → s.plate.lastPulse = none → q = (s.advance clocks).nowQ + phase.val → s1 = (((({ s.advance clocks with plate.lastPulse := some (q : Int), plate.quiet := 0, plate.pulsed := true } : State).wrn pIXP IXP_SYNC_S (stampSec q)).wrn pIXP IXP_SYNC_NS (stampNs q)).startPlate q 0).1 → 
    Completes (.cycSyncPulse ⟨clocks, phase⟩ rising io) s fun t => t = s1.edgeActs 63 ⟨0, true, false, true⟩ io ∧ s1.plate.started = true ∧ s1.get pIXP IXP_STAT_CUR_IX = 0 ∧ s1.plate.next = 1 ∧ s1.plate.armed = none ∧ s1.plate.boundary = q ∧ s1.rd pIXP IXP_CYC = 0 ∧ s1.tb = (s.advance clocks).tb) ∧
  (∀ (ref : Nat) (s : State),
    s.Canonical → s.plate.started = true → s.timeRuns = true → s.get pIXP IXP_CTRL_SRC = 2 → s.followsTwinPlate = false → s.plate.lastGptp = none → ref = s.gptpAt s.nowQ → s.plate.boundary ≤ ref → 2 * (ref - s.plate.boundary) ≤ s.plate.length → 2 * (ref - s.plate.boundary) ≤ s.plateL → s.plate.reindex = none → 
    Completes (.gptpReferenceInstant) s fun t => t.plate.lastGptp = some ref ∧ t.rd pIXP IXP_ERR = BitVec.ofNat 32 (toField 32 (clampInt 32 (s.plate.boundary - (ref : Int)))) ∧
      t.tb = (s.advanceTo ref).tb ∧ RegFrame (Offs pIXP [IXP_ERR]) s t) ∧
  (∀ (ref l : Nat) (s : State),
    s.Canonical → s.plate.started = true → s.timeRuns = true → s.get pIXP IXP_CTRL_SRC = 2 → s.followsTwinPlate = false → s.plate.lastGptp = some l → ref = s.gptpAt (max s.nowQ (l + 1)) → s.plate.boundary < ref → s.plate.length < 2 * (ref - s.plate.boundary) → 
    Completes (.gptpReferenceInstant) s fun t => t = { s.advanceTo ref with plate.lastGptp := some ref, plate.waiting := s.plate.waiting ++ [((ref : Int), false)] }) ∧
  (∀ (s : State),
    s.Canonical → s.plate.started = true → s.syncActs = true → 8 ≤ s.plate.quiet → s.on pIXP IXP_STAT_SYNC_LOST = false → s.frozen pIXP = false → 
    Completes (.syncLostFreerun) s fun t => t.Irq pIXP INT_IXP_FREERUN ∧ t.on pIXP IXP_STAT_SYNC_LOST = true ∧ t.get pIXP IXP_CNT_FREERUN = satAdd 8 (s.get pIXP IXP_CNT_FREERUN) 1 ∧
      t.Posted pIXP 0xE211 0 ∧ Frame (Offs pIXP ([IXP_STAT, IXP_CNT] ++ errRegs)) { s with posts := t.posts } s t) ∧
  (∀ (clocks cycle length crc seconds quarters : Nat) (s : State),
    s.Canonical → (s.advance clocks).followsTwinPlate = true → (s.advance clocks).timeRuns = true → 
    Completes (.plateAnnouncement clocks .correction cycle length crc seconds quarters) s fun t => t.plate.announced = (s.plate.announced.filter fun e => e.1 != cycle) ++ [(cycle, length)] ∧ t.tb.clocks = s.tb.clocks + clocks ∧
      Frame (Offs 0 []) { s with tb := t.tb, plate.announced := t.plate.announced } s t) ∧
  (∀ (clocks cycle length crc seconds quarters : Nat) (s : State),
    s.Canonical → (s.advance clocks).followsTwinPlate = true → (s.advance clocks).timeRuns = true → s.plate.started = true → 
    Completes (.plateAnnouncement clocks .reindex cycle length crc seconds quarters) s fun t => t = { s.advance clocks with plate.reindex := some ⟨cycle, .nextBoundary ((seconds * quartersPerSecond + quarters : Nat) : Int)⟩, plate.corr := [] }) ∧
  (∀ (clocks cycle length crc seconds quarters : Nat) (s : State),
    s.Canonical → (s.advance clocks).followsTwinPlate = true → (s.advance clocks).timeRuns = true → 
    Completes (.plateAnnouncement clocks .boundary cycle length crc seconds quarters) s fun t => t.plate.lastAnn = some (cycle, ((seconds * quartersPerSecond + quarters : Nat) : Int), length) ∧
      t.plate.announced = (s.plate.announced.filter fun e => e.1 != cycle) ++ [(cycle, length)] ∧
      t.plate.differ = (if crc = s.tableCrc then 0 else s.plate.differ + 1) ∧ t.tb = (s.advance clocks).tb ∧
      RegFrame (Offs pIXP [IXP_CYC, IXP_ERR]) s t) ∧
  (∀ (s : State),
    s.Canonical → s.followsTwinPlate = true → 2 ≤ s.plate.differ → 
    Completes (.twinTableMismatch) s fun t => t.Irq pIXP INT_IXP_TWIN_TBL ∧ t.Posted pIXP 0xE215 0 ∧ t.plate.differ = 0 ∧ Frame (Offs pIXP errRegs) { s with plate.differ := 0, posts := t.posts } s t) ∧
  (∀ (s : State),
    s.Canonical → s.plate.pulse = true → 
    Completes (.cycOutPulseEnd) s fun t => t.plate.pulse = false ∧ t.out = s.out ++ [.cycOut (s.on pIXP IXP_OUT_POL)] ∧ Frame (Offs 0 []) { s with plate.pulse := false, out := t.out } s t)

/-- A frame on a port whose link is up is counted as bad (assembly, FCS, runt, long) and dropped, or as good: then a MAC control frame acts on flow control, a link-local frame goes to HOST, another enters the pipeline at the VLAN check; a frame of a TX ring that is not DIRECT enters at step 3 and its descriptors are written back, one longer than PORT_MAXLEN is written back with reason 3; a sequence recovery function times out to its reset history; the latent error test posts 0x1216; a dynamic MAC entry older than SWC_AGE is cleared; a waiting copy tries push-out again and is placed, waits on or is dropped at the tail. Concludes that exec answers the next state for: frameReceive, txDescriptorFetch, recoveryTimeout, latentErrorCheck, macEntryAgeOut, pushOutRetry. -/
def Obligations.SwitchReceptionCommandsComplete : Prop :=
  (∀ (clocks : Nat) (port : Fin 33) (rx : RxFrame) (u s1 : State) (s : State),
    s.Canonical → (s.advance clocks).switchUp = true → port.val ≠ 31 → s.linkUp port.val = true → u = (s.advance clocks).ingressTurn port.val → port.val < 31 → rx.fcsOk = true ∧ rx.asmOk = true ∧ 60 ≤ rx.octets.length → rx.octets.length + 4 ≤ s.get (pPORT port.val) PORT_MAXLEN_LEN → macControl rx.octets = none → isLinkLocal (parseFrame rx.octets).dst = false → s1 = (u.cnt32 (pPORT port.val) CNT_RX_OK).cnt64 (pPORT port.val) CNT_RX_OCT_L CNT_RX_OCT_H (rx.octets.length + 4) → 
    Completes (.frameReceive clocks port rx) s fun t => t = (s1.pipeFrom3 (s1.pipeStart port.val none rx.octets (s1.ingressTime port.val rx.age)) rx.starting).1) ∧
  (∀ (clocks : Nat) (port : Fin 33) (rx : RxFrame) (u : State) (s : State),
    s.Canonical → (s.advance clocks).switchUp = true → port.val ≠ 31 → s.linkUp port.val = true → u = (s.advance clocks).ingressTurn port.val → port.val < 31 → rx.asmOk = false → 
    Completes (.frameReceive clocks port rx) s fun t => t = u.cnt32 (pPORT port.val) CNT_RX_ASM) ∧
  (∀ (clocks : Nat) (port : Fin 33) (rx : RxFrame) (u : State) (s : State),
    s.Canonical → (s.advance clocks).switchUp = true → port.val ≠ 31 → s.linkUp port.val = true → u = (s.advance clocks).ingressTurn port.val → port.val < 31 → rx.asmOk = true → rx.fcsOk = false → 
    Completes (.frameReceive clocks port rx) s fun t => t = u.cnt32 (pPORT port.val) CNT_RX_FCS) ∧
  (∀ (clocks : Nat) (port : Fin 33) (rx : RxFrame) (u : State) (s : State),
    s.Canonical → (s.advance clocks).switchUp = true → port.val ≠ 31 → s.linkUp port.val = true → u = (s.advance clocks).ingressTurn port.val → port.val < 31 → rx.asmOk = true → rx.fcsOk = true → rx.octets.length < 60 → 
    Completes (.frameReceive clocks port rx) s fun t => t = u.cnt32 (pPORT port.val) CNT_RX_RUNT) ∧
  (∀ (clocks : Nat) (port : Fin 33) (rx : RxFrame) (u : State) (s : State),
    s.Canonical → (s.advance clocks).switchUp = true → port.val ≠ 31 → s.linkUp port.val = true → u = (s.advance clocks).ingressTurn port.val → rx.asmOk = true → rx.fcsOk = true → 60 ≤ rx.octets.length → s.get (pPORT port.val) PORT_MAXLEN_LEN < rx.octets.length + 4 → 
    Completes (.frameReceive clocks port rx) s fun t => t = u.cnt32 (pPORT port.val) CNT_RX_LONG) ∧
  (∀ (clocks : Nat) (port : Fin 33) (rx : RxFrame) (pfc : Bool) (en : Nat) (q : List Nat) (u s1 : State) (s : State),
    s.Canonical → (s.advance clocks).switchUp = true → port.val ≠ 31 → s.linkUp port.val = true → u = (s.advance clocks).ingressTurn port.val → rx.asmOk = true → rx.fcsOk = true → 60 ≤ rx.octets.length → rx.octets.length + 4 ≤ s.get (pPORT port.val) PORT_MAXLEN_LEN → macControl rx.octets = some (pfc, en, q) → s1 = (u.cnt32 (pPORT port.val) CNT_RX_OK).cnt64 (pPORT port.val) CNT_RX_OCT_L CNT_RX_OCT_H (rx.octets.length + 4) → 
    Completes (.frameReceive clocks port rx) s fun t => t = s1.pauseReceived port.val pfc en q) ∧
  (∀ (clocks : Nat) (port : Fin 33) (rx : RxFrame) (q : Nat) (u s1 : State) (s : State),
    s.Canonical → (s.advance clocks).switchUp = true → port.val ≠ 31 → s.linkUp port.val = true → u = (s.advance clocks).ingressTurn port.val → rx.asmOk = true → rx.fcsOk = true → 60 ≤ rx.octets.length → rx.octets.length + 4 ≤ s.get (pPORT port.val) PORT_MAXLEN_LEN → macControl rx.octets = none → isLinkLocal (parseFrame rx.octets).dst = true → s1 = (u.cnt32 (pPORT port.val) CNT_RX_OK).cnt64 (pPORT port.val) CNT_RX_OCT_L CNT_RX_OCT_H (rx.octets.length + 4) → q = s1.ingressTime port.val rx.age → 
    Completes (.frameReceive clocks port rx) s fun t => t = (s1.linkLocal (s1.pipeStart port.val none rx.octets q) rx.starting).ptpIn port.val q rx.octets) ∧
  (∀ (clocks : Nat) (starting : List Nat) (i k : Nat) (f : TxFrame) (d : List Nat) (u s1 s2 : State) (s : State),
    s.Canonical → u = (s.advance clocks).ingressTurn 31 → u.switchUp = true → u.drr ((List.range 16).map fun i => u.txCandidate i) 320 u.sw.drrCur u.sw.drrDef = some (i, k, .frame f, d) → s1 = { u with
      sw.drrCur := i, sw.drrDef := d, sw.drrRing := setNth u.sw.drrRing i (4 + (k - 3) % 4)
      sw.txTok := putPair i (u.txTokens i - (f.octets.length * 8 * 1000000 : Nat)) u.sw.txTok
      sw.txTokAt := putPair i u.tb.clocks u.sw.txTokAt } → f.octets.length ≤ s.get (pPORT 31) PORT_MAXLEN_LEN → f.direct = false → s2 = (s1.cnt32 (pPORT 31) CNT_RX_OK).cnt64 (pPORT 31) CNT_RX_OCT_L CNT_RX_OCT_H f.octets.length → 
    Completes (.txDescriptorFetch clocks starting) s fun t => t = (s2.pipeFrom3 (s1.pipeStart 31 (some i) (f.octets.take (f.octets.length - 4)) (s1.ingressTime 31 0)) starting).1.txDone i k
      (if (s2.pipeFrom3 (s1.pipeStart 31 (some i) (f.octets.take (f.octets.length - 4)) (s1.ingressTime 31 0)) starting).2 then 0 else 1) f) ∧
  (∀ (clocks : Nat) (starting : List Nat) (i k : Nat) (f : TxFrame) (d : List Nat) (u s1 : State) (s : State),
    s.Canonical → u = (s.advance clocks).ingressTurn 31 → u.switchUp = true → u.drr ((List.range 16).map fun i => u.txCandidate i) 320 u.sw.drrCur u.sw.drrDef = some (i, k, .frame f, d) → s1 = { u with
      sw.drrCur := i, sw.drrDef := d, sw.drrRing := setNth u.sw.drrRing i (4 + (k - 3) % 4)
      sw.txTok := putPair i (u.txTokens i - (f.octets.length * 8 * 1000000 : Nat)) u.sw.txTok
      sw.txTokAt := putPair i u.tb.clocks u.sw.txTokAt } → s.get (pPORT 31) PORT_MAXLEN_LEN < f.octets.length → 
    Completes (.txDescriptorFetch clocks starting) s fun t => t = (s1.cnt32 (pPORT 31) CNT_RX_LONG).txDone i k 3 f) ∧
  (∀ (clocks : Nat) (starting : List Nat) (u : State) (s : State),
    s.Canonical → u = (s.advance clocks).ingressTurn 31 → u.switchUp = true → u.drr ((List.range 16).map fun i => u.txCandidate i) 320 u.sw.drrCur u.sw.drrDef = none → 
    Completes (.txDescriptorFetch clocks starting) s fun t => t = u) ∧
  (∀ (ix : Fin 256) (s : State),
    s.Canonical → s.switchUp = true → s.tfOn tREC ix.val rVALID = true → (s.recovOf ix.val).takeAny = false → s.frozen pFRER = false → 
    Completes (.recoveryTimeout ix) s fun t => t.recovOf ix.val = { recovReset with base := (s.recovOf ix.val).base } ∧ t.tget tREC ix.val 8 = (s.tget tREC ix.val 8 + 1) % 2 ^ 32 ∧
      Frame (Offs 0 []) { s.tset tREC ix.val 8 ((s.tget tREC ix.val 8 + 1) % 2 ^ 32) with sw.recov := t.sw.recov } s t) ∧
  (∀ (ix : Fin 256) (s : State),
    s.Canonical → s.switchUp = true → s.tfOn tREC ix.val rVALID = true → s.tfOn tREC ix.val rLAT_EN = true → s.frozen pFRER = false → s.tf tREC ix.val rLAT_DIFF < ((s.recovOf ix.val).base - ((s.tget tREC ix.val 2 * Config.latentPaths ix.val : Nat) - (s.tget tREC ix.val 3 : Nat) : Int)).natAbs → 
    Completes (.latentErrorCheck ix) s fun t => t.tget tREC ix.val 9 = (s.tget tREC ix.val 9 + 1) % 2 ^ 32 ∧ t.Posted pFRER 0x1216 (0x10000 + ix.val) ∧
      Frame (Offs pFRER errRegs) { s.tset tREC ix.val 9 ((s.tget tREC ix.val 9 + 1) % 2 ^ 32) with posts := t.posts } s t) ∧
  (∀ (ix : Fin 16384) (s : State),
    s.Canonical → s.switchUp = true → s.get pSWC SWC_AGE_SEC ≠ 0 → s.tfOn tMAC ix.val mVALID = true → s.tfOn tMAC ix.val mSTATIC = false → s.get pSWC SWC_AGE_SEC ≤ s.macAge ix.val → 
    Completes (.macEntryAgeOut ix) s fun t => t.tfOn tMAC ix.val mVALID = false ∧ Frame (Offs 0 []) (s.clearEntry tMAC ix.val) s t) ∧
  (∀ (starting : List Nat) (r : Retry) (l : List Retry) (u : State) (s : State),
    s.Canonical → s.sw.retry = r :: l → ({ s with sw.retry := l } : State).pushOut r starting = (u, .placed) → 
    Completes (.pushOutRetry starting) s fun t => t = ((u.drawTokens r.cost).mirrorEgress starting r.copy).settle) ∧
  (∀ (starting : List Nat) (r : Retry) (l : List Retry) (u : State) (s : State),
    s.Canonical → s.sw.retry = r :: l → ({ s with sw.retry := l } : State).pushOut r starting = (u, .waits) → 
    Completes (.pushOutRetry starting) s fun t => t = u.settle) ∧
  (∀ (starting : List Nat) (r : Retry) (l : List Retry) (u : State) (s : State),
    s.Canonical → s.sw.retry = r :: l → ({ s with sw.retry := l } : State).pushOut r starting = (u, .dropped) → 
    Completes (.pushOutRetry starting) s fun t => t = (u.tailDrop r.copy).settle)

/-- A due pause frame and a repeated XOFF go out with their quanta; a received pause frame is counted and pauses its classes, a received PFC frame sets the pause of its class alone; expiry ends the pause; the PFC watchdog trips with code 0x2216 and recovers; an XOFF storm posts 0x2217; at the end of a frame it has been sent, due pause frames go out and the next frame is chosen, at the end of a fragment the frame is cut and an express frame starts; hold is requested before a hold position; COMMIT makes gate lists pend; a spilled frame returns on-chip, or is dropped with 0x231B. Concludes that exec answers the next state for: pauseFrameSend, xoffRepeat, pauseFrameReceive, pauseExpiry, pfcWatchdogTrip, pfcWatchdogRecover, xoffStorm, frameTransmitEnd, holdRequest, bufGclCommit, spillReadback. -/
def Obligations.SwitchTransmissionCommandsComplete : Prop :=
  (∀ (port : Fin 15) (c : Nat) (s : State),
    s.Canonical → s.sw.pauseDue = [(port.val, c)] → s.pauses port.val = true → s.sendingOn port.val = none → 
    Completes (.pauseFrameSend port) s fun t => t.out = s.out ++ [.pause port.val (s.tf tBPORT port.val bFC == 2) (if s.tf tBPORT port.val bFC = 2 then 2 ^ c else 0)
        (if s.tfOn tBPORT port.val (bXOFF c) = true then s.tf tBPORT port.val bQUANTA else 0)] ∧ t.sw.pauseDue = [] ∧
      Frame (Offs 0 []) { s with sw.pauseDue := [], out := t.out, tabs := t.tabs } s t) ∧
  (∀ (port : Fin 15) (cls : Fin 8) (s : State),
    s.Canonical → s.pauses port.val = true → s.tfOn tBPORT port.val (bXOFF cls.val) = true → s.sendingOn port.val = none → 
    Completes (.xoffRepeat port cls) s fun t => t.out = s.out ++ [.pause port.val (s.tf tBPORT port.val bFC == 2) (if s.tf tBPORT port.val bFC = 2 then 2 ^ cls.val else 0) (s.tf tBPORT port.val bQUANTA)] ∧
      Frame (Offs 0 []) { s with out := t.out, tabs := t.tabs } s t) ∧
  (∀ (port : Fin 15) (cls : Fin 8) (x : Copy) (s : State),
    s.Canonical → s.pauses port.val = true → s.tfOn tBPORT port.val (bXOFF cls.val) = true → s.sendingOn port.val = some x → s.sw.pauseDue.contains (port.val, cls.val) = false → 
    Completes (.xoffRepeat port cls) s fun t => t = { s with sw.pauseDue := s.sw.pauseDue ++ [(port.val, cls.val)] }) ∧
  (∀ (clocks : Nat) (port : Fin 31) (enable q : Nat) (s : State),
    s.Canonical → (s.advance clocks).switchUp = true → s.linkUp port.val = true → fcPort port.val = true → s.tf tBPORT port.val bFC = 1 → 0 < q → 
    Completes (.pauseFrameReceive clocks port false enable [q]) s fun t => (∀ c : Fin 8, t.tfOn tBPORT port.val (bPAUSED c.val) = true) ∧ t.tb.clocks = s.tb.clocks + clocks ∧
      Frame (Offs 0 []) { s with tb := t.tb, tabs := t.tabs } s t) ∧
  (∀ (clocks : Nat) (port : Fin 31) (c : Fin 8) (quanta : List Nat) (s : State),
    s.Canonical → (s.advance clocks).switchUp = true → s.linkUp port.val = true → fcPort port.val = true → s.tf tBPORT port.val bFC = 2 → (s.tf tBPORT port.val bPFC_EN).testBit c.val = true → 
    Completes (.pauseFrameReceive clocks port true (2 ^ c.val) quanta) s fun t => t.tfOn tBPORT port.val (bPAUSED c.val) = (nth quanta c.val 0 != 0) ∧ (∀ e : Fin 8, e ≠ c → t.tfOn tBPORT port.val (bPAUSED e.val) = s.tfOn tBPORT port.val (bPAUSED e.val)) ∧
      Frame (Offs 0 []) { s.advance clocks with tabs := t.tabs } s t) ∧
  (∀ (port : Fin 15) (cls : Fin 8) (s : State),
    s.Canonical → s.switchUp = true → 
    Completes (.pauseExpiry port cls) s fun t => t.tfOn tBPORT port.val (bPAUSED cls.val) = false ∧ Frame (Offs 0 []) (s.tfSet tBPORT port.val (bPAUSED cls.val) 0) s t) ∧
  (∀ (port : Fin 15) (cls : Fin 8) (s : State),
    s.Canonical → s.switchUp = true → s.tf tBPORT port.val bPFC_WD ≠ 0 → s.tfOn tBPORT port.val (bPAUSED cls.val) = true → s.tfOn tBPORT port.val (bTRIPPED cls.val) = false → 
    Completes (.pfcWatchdogTrip port cls) s fun t => t.tfOn tBPORT port.val (bTRIPPED cls.val) = true ∧ t.Posted pBUF 0x2216 (0x10000 + 8 * port.val + cls.val) ∧
      Frame (Offs pBUF errRegs) { s.tfSet tBPORT port.val (bTRIPPED cls.val) 1 with posts := t.posts } s t) ∧
  (∀ (port : Fin 15) (cls : Fin 8) (s : State),
    s.Canonical → s.switchUp = true → s.tfOn tBPORT port.val (bTRIPPED cls.val) = true → 
    Completes (.pfcWatchdogRecover port cls) s fun t => t.tfOn tBPORT port.val (bTRIPPED cls.val) = false ∧ t.tfOn tBPORT port.val (bPAUSED cls.val) = false ∧
      Frame (Offs 0 []) { s with tabs := t.tabs } s t) ∧
  (∀ (port : Fin 32) (cls : Fin 8) (s : State),
    s.Canonical → s.switchUp = true → s.tf tBPORT port.val bSTORM ≠ 0 → s.tfOn tBPORT port.val (bXOFF cls.val) = true → s.tfOn tBPORT port.val bSTORM_ACT = true → 
    Completes (.xoffStorm port cls) s fun t => t.Posted pBUF 0x2217 (0x10000 + 8 * port.val + cls.val) ∧ t.tfOn tBPORT port.val (bXOFF cls.val) = false ∧
      (port.val ≠ 31 → (port.val, cls.val) ∈ t.sw.pauseDue) ∧ (port.val, cls.val) ∈ t.sw.stormed ∧
      Frame (Offs pBUF errRegs) { s with posts := t.posts, sw := t.sw, tabs := t.tabs } s t) ∧
  (∀ (clocks : Nat) (port : Fin 34) (age : Nat) (x : Copy) (u : State) (s : State),
    s.Canonical → s.switchUp = true → u = (s.advance clocks).creditRun port.val → u.sendingOn port.val = some x → x.sent = 0 → 
    Completes (.frameTransmitEnd ⟨clocks, age⟩ port none) s fun t => t = (((u.sent x (u.nowQ - age)).pausesDue port.val).selectNext port.val).settle) ∧
  (∀ (clocks : Nat) (port : Fin 34) (age : Nat) (x : Copy) (u : State) (s : State),
    s.Canonical → s.switchUp = true → u = (s.advance clocks).creditRun port.val → u.sendingOn port.val = some x → 0 < x.sent → 
    Completes (.frameTransmitEnd ⟨clocks, age⟩ port none) s fun t => t = ((((u.sent x (u.nowQ - age)).cnt32 (pPORT port.val) CNT_TX_FRAG).pausesDue port.val).selectNext port.val).settle) ∧
  (∀ (clocks : Nat) (port : Fin 34) (age : Nat) (u : State) (s : State),
    s.Canonical → s.switchUp = true → u = (s.advance clocks).creditRun port.val → u.sendingOn port.val = none → 
    Completes (.frameTransmitEnd ⟨clocks, age⟩ port none) s fun t => t = ((u.pausesDue port.val).selectNext port.val).settle) ∧
  (∀ (clocks : Nat) (port : Fin 34) (n age : Nat) (x y : Copy) (u : State) (s : State),
    s.Canonical → s.switchUp = true → u = (s.advance clocks).creditRun port.val → u.sendingOn port.val = some x → u.mayCut port.val x n = true → u.choose port.val (fun c => u.expressCls port.val c) = some y → 
    Completes (.frameTransmitEnd ⟨clocks, age⟩ port (some n)) s fun t => t = (((u.cutFrame port.val x n).pausesDue port.val).startFrame y).settle) ∧
  (∀ (port : Fin 27) (n : Nat) (s : State),
    s.Canonical → s.switchUp = true → s.plate.started = true → s.tfOn tBPORT port.val bTAS_EN = true → s.holding port.val = false → s.holdAhead port.val = some n → 
    Completes (.holdRequest port) s fun t => t.sw.hold = s.sw.hold ++ [(port.val, n)] ∧ Frame (Offs 0 []) { s with sw.hold := t.sw.hold } s t) ∧
  (∀ (a : Access) (v : Word) (s : State),
    s.Canonical → s.Accepts a pBUF BUF_GCL v → v.getLsbD 0 = true → 
    Completes (.bufGclCommit a v) s fun t => t.sw.gclPend = true ∧ Frame (Offs 0 []) { s with sw.gclPend := true } s t) ∧
  (∀ (clocks : Nat) (q : Fin 272) (ecc : Bool) (e : Nat) (x : Copy) (u v : State) (s : State),
    s.Canonical → (s.advance clocks).readEngine q.val = some e → u = (s.advance clocks).splFill e → (u.sw.held.find? fun c => c.q == q.val && c.place == .dram e) = some x → s.switchUp = true → s.dramUp = true → s.qOn q.val < s.tf tQUEUE q.val qSPILL_THR → x.cells ≤ s.sharedFree → x.cells * 1024 ≤ nth u.sw.splRd e 0 → v = { u.freeDram x with
      sw.held := u.sw.held.filter fun c => c.id != x.id
      sw.splRd := setNth u.sw.splRd e (nth u.sw.splRd e 0 - x.cells * 1024)
      sw.splTurn := sput 0 q.val (e + 1) u.sw.splTurn } → 
    Completes (.spillReadback clocks q ecc) s fun t => t = (if ecc then (((v.cnt32 (pSPL e) SPL_CNT_ECC).irq (pSPL e) INT_SPL_ECC_DROP).err (pSPL e) 0x231B 0).settle
      else (({ v with sw.held := v.sw.held ++ [{ x with place := .shared }] }).cnt32 (pSPL e) SPL_CNT_RD).settle) ∧
      (ecc = true → t.Posted (pSPL e) 0x231B 0))

/-- A write of TA_CMD on a window that is not busy takes operation and table and makes it busy; at completion a read shows the entry in the data registers, clears BUSY and leaves RESULT 0. Concludes that exec answers the next state for: taRead, taWrite, taLookup, taInsert, taDelete, taFlush, taClearCounters, taOpDone. -/
def Obligations.TableWindowCommandsComplete : Prop :=
  (∀ (a : Access) (page : TaPage) (tbl : Fin 16) (s : State),
    s.Canonical → s.Accepts a (taAddr page) TA_CMD (BitVec.ofNat 32 (1 + tbl.val * 16)) → s.on (taAddr page) TA_CMD_BUSY = false → 
    Completes (.taRead a page tbl) s fun t => t.on (taAddr page) TA_CMD_BUSY = true ∧ t.get (taAddr page) TA_CMD_OP = 1 ∧ t.get (taAddr page) TA_CMD_TBL = tbl.val ∧ Frame (Offs (taAddr page) [TA_CMD]) s s t) ∧
  (∀ (a : Access) (page : TaPage) (tbl : Fin 16) (s : State),
    s.Canonical → s.Accepts a (taAddr page) TA_CMD (BitVec.ofNat 32 (2 + tbl.val * 16)) → s.on (taAddr page) TA_CMD_BUSY = false → 
    Completes (.taWrite a page tbl) s fun t => t.on (taAddr page) TA_CMD_BUSY = true ∧ t.get (taAddr page) TA_CMD_OP = 2 ∧ t.get (taAddr page) TA_CMD_TBL = tbl.val ∧ Frame (Offs (taAddr page) [TA_CMD]) s s t) ∧
  (∀ (a : Access) (page : TaPage) (tbl : Fin 16) (s : State),
    s.Canonical → s.Accepts a (taAddr page) TA_CMD (BitVec.ofNat 32 (3 + tbl.val * 16)) → s.on (taAddr page) TA_CMD_BUSY = false → 
    Completes (.taLookup a page tbl) s fun t => t.on (taAddr page) TA_CMD_BUSY = true ∧ t.get (taAddr page) TA_CMD_OP = 3 ∧ t.get (taAddr page) TA_CMD_TBL = tbl.val ∧ Frame (Offs (taAddr page) [TA_CMD]) s s t) ∧
  (∀ (a : Access) (page : TaPage) (tbl : Fin 16) (s : State),
    s.Canonical → s.Accepts a (taAddr page) TA_CMD (BitVec.ofNat 32 (4 + tbl.val * 16)) → s.on (taAddr page) TA_CMD_BUSY = false → 
    Completes (.taInsert a page tbl) s fun t => t.on (taAddr page) TA_CMD_BUSY = true ∧ t.get (taAddr page) TA_CMD_OP = 4 ∧ t.get (taAddr page) TA_CMD_TBL = tbl.val ∧ Frame (Offs (taAddr page) [TA_CMD]) s s t) ∧
  (∀ (a : Access) (page : TaPage) (tbl : Fin 16) (s : State),
    s.Canonical → s.Accepts a (taAddr page) TA_CMD (BitVec.ofNat 32 (5 + tbl.val * 16)) → s.on (taAddr page) TA_CMD_BUSY = false → 
    Completes (.taDelete a page tbl) s fun t => t.on (taAddr page) TA_CMD_BUSY = true ∧ t.get (taAddr page) TA_CMD_OP = 5 ∧ t.get (taAddr page) TA_CMD_TBL = tbl.val ∧ Frame (Offs (taAddr page) [TA_CMD]) s s t) ∧
  (∀ (a : Access) (page : TaPage) (tbl : Fin 16) (s : State),
    s.Canonical → s.Accepts a (taAddr page) TA_CMD (BitVec.ofNat 32 (6 + tbl.val * 16)) → s.on (taAddr page) TA_CMD_BUSY = false → 
    Completes (.taFlush a page tbl) s fun t => t.on (taAddr page) TA_CMD_BUSY = true ∧ t.get (taAddr page) TA_CMD_OP = 6 ∧ t.get (taAddr page) TA_CMD_TBL = tbl.val ∧ Frame (Offs (taAddr page) [TA_CMD]) s s t) ∧
  (∀ (a : Access) (page : TaPage) (tbl : Fin 16) (s : State),
    s.Canonical → s.Accepts a (taAddr page) TA_CMD (BitVec.ofNat 32 (7 + tbl.val * 16)) → s.on (taAddr page) TA_CMD_BUSY = false → 
    Completes (.taClearCounters a page tbl) s fun t => t.on (taAddr page) TA_CMD_BUSY = true ∧ t.get (taAddr page) TA_CMD_OP = 7 ∧ t.get (taAddr page) TA_CMD_TBL = tbl.val ∧ Frame (Offs (taAddr page) [TA_CMD]) s s t) ∧
  (∀ (page : TaPage) (d : TabDesc) (s : State),
    s.Canonical → s.pageUp (taAddr page) = true → s.on (taAddr page) TA_CMD_BUSY = true → tabOf (tyOf (taAddr page)) (instOf (taAddr page)) (s.get (taAddr page) TA_CMD_TBL) = some d → s.get (taAddr page) TA_CMD_OP = 1 → s.get (taAddr page) TA_IDX_IDX < d.size → 
    Completes (.taOpDone page) s fun t => t.on (taAddr page) TA_CMD_BUSY = false ∧ t.get (taAddr page) TA_RES_RESULT = 0 ∧
      (∀ w : Fin 12, t.rd (taAddr page) (TA_DATA w.val) = BitVec.ofNat 32 (s.tabShow d.id (s.get (taAddr page) TA_IDX_IDX) w.val)) ∧
      Frame (Offs (taAddr page) ([TA_CMD, TA_RES] ++ (List.range 12).map TA_DATA)) s s t)

/-- A link that goes down clears its status, raises its interrupt and drops what is queued, a link that comes up shows its speed; a selection entry that changes waits for its bucket, and takes effect when the bucket is empty or with code 0x1018 at the time-out; preemption starts with verification, which fails with code 0x1215 or succeeds; the counters are cleared on command. Concludes that exec answers the next state for: portLinkDown, portLinkUp, selectionWrite, selectionMoveDone, selectionMoveTimeout, swcCntClr, portCntClr, preemptionEnable, preemptionVerifyFail, preemptionVerifyResponse. -/
def Obligations.SwitchPortCommandsComplete : Prop :=
  (∀ (port : Fin 31) (s1 : State) (s : State),
    s.Canonical → s.switchUp = true → 2 ≤ port.val → s.on (pPORT port.val) PORT_STAT_LINK = true → s1 = (((s.set (pPORT port.val) PORT_STAT_LINK 0).set (pPORT port.val) PORT_STAT_SPEED 0).set (pPORT port.val) PORT_PHY_STAT_LINK 0).irq (pPORT port.val) INT_PORT_LINK_DOWN → 
    Completes (.portLinkDown port) s fun t => t = s1.dropPort port.val ∧ s1.on (pPORT port.val) PORT_STAT_LINK = false ∧ s1.get (pPORT port.val) PORT_STAT_SPEED = 0 ∧ s1.Irq (pPORT port.val) INT_PORT_LINK_DOWN) ∧
  (∀ (port : Fin 31) (s : State),
    s.Canonical → s.switchUp = true → port.val < 2 → s.on (pPORT port.val) PORT_STAT_LINK = true → s.on pSWC SWC_CTRL_AUTO_FAILOVER = true → 
    Completes (.portLinkDown port) s fun t => (∀ b : Fin 64, s.get pSWC (LAG_SEL_ACTIVE b.val) = port.val ∨ s.get pSWC (LAG_SEL_MEMBER b.val) = port.val →
        t.get pSWC (LAG_SEL_ACTIVE b.val) = 1 - port.val ∧ t.on pSWC (LAG_SEL_PENDING b.val) = false) ∧
      t.Irq pSWC INT_SWC_FAILOVER ∧ t.Posted pSWC 0x1213 0 ∧ t.on (pPORT port.val) PORT_STAT_LINK = false) ∧
  (∀ (port : Fin 31) (s : State),
    s.Canonical → s.restPhy port.val = true → 
    Completes (.portLinkDown port) s fun t => t.on (pPORT port.val) PORT_STAT_LINK = false ∧ Frame (Offs (pPORT port.val) [PORT_STAT, PORT_PHY_STAT]) s s t) ∧
  (∀ (port : Fin 31) (speed : Fin 8) (s : State),
    s.Canonical → s.switchUp = true → 2 ≤ port.val → s.linkMay port.val = true → s.on (pPORT port.val) PORT_STAT_LINK = false → 
    Completes (.portLinkUp port speed) s fun t => t.on (pPORT port.val) PORT_STAT_LINK = true ∧ t.get (pPORT port.val) PORT_STAT_SPEED = s.speedCode port.val speed.val % 2 ^ PORT_STAT_SPEED.len ∧
      t.Irq (pPORT port.val) INT_PORT_LINK_UP ∧ Frame (Offs (pPORT port.val) [PORT_STAT, PORT_PHY_STAT, INT_RAW]) { s with fresh := t.fresh } s t) ∧
  (∀ (port : Fin 31) (speed : Fin 8) (s : State),
    s.Canonical → s.restPhy port.val = true → s.speedCode port.val speed.val ≠ 0 → 
    Completes (.portLinkUp port speed) s fun t => t.on (pPORT port.val) PORT_STAT_LINK = true ∧ Frame (Offs (pPORT port.val) [PORT_STAT, PORT_PHY_STAT]) s s t) ∧
  (∀ (a : Access) (kind : SelKind) (b : Fin 64) (v : Word) (s : State),
    s.Canonical → s.Accepts a pSWC (selOff kind b.val) v → (s.plain pSWC (selOff kind b.val) v).get pSWC (selWant kind b.val) ≠ s.get pSWC (selActive kind b.val) → 
    Completes (.selectionWrite a kind b v) s fun t => t.on pSWC (selPend kind b.val) = true ∧ t.get pSWC (selActive kind b.val) = s.get pSWC (selActive kind b.val) ∧ Frame (Offs pSWC [selOff kind b.val, SWC_STAT]) s s t) ∧
  (∀ (kind : SelKind) (b : Fin 64) (s : State),
    s.Canonical → s.switchUp = true → s.on pSWC (selPend kind b.val) = true → s.bucketHeld kind b.val = false → 
    Completes (.selectionMoveDone kind b) s fun t => t.get pSWC (selActive kind b.val) = s.get pSWC (selWant kind b.val) ∧ t.on pSWC (selPend kind b.val) = false ∧ t.Irq pSWC INT_SWC_MOVE_DONE ∧
      Frame (Offs pSWC [selOff kind b.val, SWC_STAT, INT_RAW]) s s t) ∧
  (∀ (kind : SelKind) (b : Fin 64) (s : State),
    s.Canonical → s.switchUp = true → s.on pSWC (selPend kind b.val) = true → 
    Completes (.selectionMoveTimeout kind b) s fun t => t.get pSWC (selActive kind b.val) = s.get pSWC (selWant kind b.val) ∧ t.Irq pSWC INT_SWC_MOVE_TMO ∧ t.Posted pSWC 0x1018 0 ∧
      Frame (Offs pSWC ([selOff kind b.val, SWC_STAT] ++ errRegs)) { s with posts := t.posts } s t) ∧
  (∀ (a : Access) (v : Word) (s : State),
    s.Canonical → s.Accepts a pSWC SWC_CNT_CLR v → v.getLsbD 0 = true → 
    Completes (.swcCntClr a v) s fun t => t.rd pSWC CNT_COPY_REF = 0 ∧ t.rd pSWC CNT_LEARN_REF = 0 ∧ t.rd pSWC CNT_STATION_MOVE = 0 ∧ t.rd pSWC CNT_UNK_DROP = 0 ∧
      Frame (Offs pSWC [CNT_COPY_REF, CNT_LEARN_REF, CNT_STATION_MOVE, CNT_UNK_DROP]) s s t) ∧
  (∀ (a : Access) (port : Fin 34) (v : Word) (s : State),
    s.Canonical → s.Accepts a (pPORT port.val) PORT_CNT_CLR v → v.getLsbD 0 = true → 
    Completes (.portCntClr a port v) s fun t => (∀ j : Fin 14, t.rd (pPORT port.val) (CNT_RX_OK + 4 * j.val) = 0) ∧ Frame (Offs (pPORT port.val) ((List.range 14).map fun j => CNT_RX_OK + 4 * j)) s s t) ∧
  (∀ (a : Access) (port : Fin 34) (v : Word) (s : State),
    s.Canonical → s.Accepts a (pPORT port.val) PORT_PRE v → 
    Completes (.preemptionEnable a port v) s fun t => (Config.preemptPort port.val = true → t.get (pPORT port.val) PORT_PRE_STATUS = (if v.getLsbD 1 ∨ (v.getLsbD 0 ∧ port.val = 2) then 2 else if v.getLsbD 0 then 1 else 0)) ∧
      Frame (Offs (pPORT port.val) [PORT_PRE]) { s with out := t.out } s t ∧
      (Config.preemptPort port.val = true → v.getLsbD 0 = true → v.getLsbD 1 = false → port.val ≠ 2 → t.out = s.out ++ [.verify port.val])) ∧
  (∀ (port : Fin 7) (s : State),
    s.Canonical → s.switchUp = true → s.get (pPORT port.val) PORT_PRE_STATUS = 1 → 
    Completes (.preemptionVerifyFail port) s fun t => t.get (pPORT port.val) PORT_PRE_STATUS = 3 ∧ t.Irq (pPORT port.val) INT_PORT_VERIFY_FAIL ∧ t.Posted (pPORT port.val) 0x1215 0 ∧
      Frame (Offs (pPORT port.val) (PORT_PRE :: errRegs)) { s with posts := t.posts } s t) ∧
  (∀ (port : Fin 7) (s : State),
    s.Canonical → s.switchUp = true → s.get (pPORT port.val) PORT_PRE_STATUS = 1 → 
    Completes (.preemptionVerifyResponse port) s fun t => t.get (pPORT port.val) PORT_PRE_STATUS = 2 ∧ Frame (Offs (pPORT port.val) [PORT_PRE]) s s t)

/-- A TAIL write within the ring is taken, an enable that rises clears a halt, the moderation timer and completions assert the ring line, a write of ones clears it, and the spill counters are cleared on command. Concludes that exec answers the next state for: ringTailWrite, ringEnable, ringIrqTimer, ringIrqClear, splCntClr. -/
def Obligations.RingCommandsComplete : Prop :=
  (∀ (a : Access) (inst : Fin 16) (k : Fin 8) (v : Word) (s : State),
    s.Canonical → s.Accepts a (pHIN inst.val) (RING_TAIL k.val) v → ringTailPre inst.val k.val v s = none → 
    Completes (.ringTailWrite a inst k v) s fun t => t.get (pHIN inst.val) (RING_TAIL_V k.val) = bitsOf v.toNat 0 (RING_TAIL_V k.val).len ∧ Frame (Offs (pHIN inst.val) [RING_TAIL k.val]) s s t) ∧
  (∀ (a : Access) (inst : Fin 16) (k : Fin 8) (v : Word) (s : State),
    s.Canonical → s.Accepts a (pHIN inst.val) (RING_CTRL k.val) v → v.getLsbD 0 = true → s.on (pHIN inst.val) (RING_CTRL_EN k.val) = false → 
    Completes (.ringEnable a inst k v) s fun t => t.on (pHIN inst.val) (RING_CTRL_EN k.val) = true ∧ t.on (pHIN inst.val) (RING_STAT_HALT k.val) = false ∧
      Frame (Offs (pHIN inst.val) [RING_CTRL k.val, RING_STAT k.val, HIN_STAT]) s s t) ∧
  (∀ (inst : Fin 16) (k : Fin 8) (s : State),
    s.Canonical → 0 < sget 0 (8 * inst.val + k.val) s.sw.ringDone → 
    Completes (.ringIrqTimer inst k) s fun t => t.on (pHIN inst.val) (RING_STAT_IRQ k.val) = true ∧ Frame (Offs (pHIN inst.val) [RING_STAT k.val]) { s with sw.ringDone := t.sw.ringDone } s t) ∧
  (∀ (a : Access) (inst : Fin 16) (k : Fin 8) (v : Word) (s : State),
    s.Canonical → s.Accepts a (pHIN inst.val) (RING_STAT k.val) v → bitsOf v.toNat (RING_STAT_IRQ k.val).lo 1 = 1 → 
    Completes (.ringIrqClear a inst k v) s fun t => t.on (pHIN inst.val) (RING_STAT_IRQ k.val) = false ∧ Frame (Offs (pHIN inst.val) [RING_STAT k.val]) s s t) ∧
  (∀ (a : Access) (e : Fin 4) (v : Word) (s : State),
    s.Canonical → s.Accepts a (pSPL e.val) SPL_CNT_CLR v → v.getLsbD 0 = true → 
    Completes (.splCntClr a e v) s fun t => t.rd (pSPL e.val) SPL_PEAK = 0 ∧ t.rd (pSPL e.val) SPL_CNT_WR = 0 ∧ t.rd (pSPL e.val) SPL_CNT_ECC = 0 ∧
      Frame (Offs (pSPL e.val) [SPL_PEAK, SPL_CNT_WR, SPL_CNT_RD, SPL_CNT_BWREF, SPL_CNT_FULL, SPL_CNT_ECC]) s s t)

/-- A frame on a bus the controller takes part in is counted and offered to its objects, a remote request in FD form is a form error, and one that is stored sets NEW with its length and raises its interrupt; TXRQ = 1 makes a TX object pending; the next object is the one with the lowest arbitration key, but a late reference message goes first, with 0x3014; a frame sent goes onto the bus and its object ends with status 4, or 6 after a cancel; a reference message sent in time is counted; CANCEL of a pending object withdraws it with status 5, of one in arbitration notes it; the read of CX_OBJ_REL clears NEW and LOST, that of CX_PSR sets both codes to 7, and CX_WIN_SEL moves the selection. Concludes that exec answers the next state for: canFrameReceive, canTxrq, canTxChoice, canFrameTransmitted, canCancel, cxObjRelRead, cxPsrRead, cxWinSelWrite. -/
def Obligations.CanTrafficCommandsComplete : Prop :=
  (∀ (clocks : Nat) (ctl : Fin 12) (f : BusFrame) (age : Nat) (u : State) (s : State),
    s.Canonical → u = s.advance clocks → u.canTakes ctl.val age = true → (u.canSt ctl.val).mode ≠ 2 → u.canFmt ctl.val f.fmt = true → f.rtr = true → f.fmt = 0 → 
    Completes (.canFrameReceive clocks ctl f age) s fun t => t = (u.canHeard ctl.val).canOffer ctl.val f (stampSec (u.nowQ - age)) (stampNs (u.nowQ - age)) ∧
      (s.frozen (pCXC ctl.val) = false → (u.canHeard ctl.val).rd (pCXC ctl.val) CX_CNT_RX = s.rd (pCXC ctl.val) CX_CNT_RX + 1) ∧
      (u.canHeard ctl.val).get (pCXC ctl.val) CX_PSR_LEC = 0) ∧
  (∀ (clocks : Nat) (ctl : Fin 12) (f : BusFrame) (age : Nat) (u : State) (s : State),
    s.Canonical → u = s.advance clocks → u.canTakes ctl.val age = true → (u.canSt ctl.val).mode ≠ 2 → u.canFmt ctl.val f.fmt = true → f.rtr = true → f.fmt ≠ 0 → 
    Completes (.canFrameReceive clocks ctl f age) s fun t => t = u.canRxError ctl.val 2 false false (f.fmt == 2) ∧ (u.canLec ctl.val 2 false).get (pCXC ctl.val) CX_PSR_LEC = 2) ∧
  (∀ (n o : Nat) (f : BusFrame) (sec ns : Nat) (s : State), s.Canonical → n < 12 → o < 128 →
    (s.objReceive n o f sec ns).on (pCXC n) (OBJ_CTRL_NEW o) = true ∧ (s.objReceive n o f sec ns).get (pCXC n) (OBJ_CTRL_LEN o) = min 2048 f.data.length ∧
      (s.objReceive n o f sec ns).Irq (pCXC n) INT_CXC_RX_NEW ∧ (s.objReceive n o f sec ns).objMeta n o 2 = sec % 2 ^ 32 ∧
      (∀ addr, ¬ Offs (pCXC n) [OBJ_CTRL o, INT_RAW] addr → (s.objReceive n o f sec ns).rd addr 0 = s.rd addr 0)) ∧
  (∀ (a : Access) (ctl : Fin 12) (obj : Fin 128) (v : Word) (s : State),
    s.Canonical → s.Accepts a (pCXC ctl.val) (OBJ_CTRL obj.val) v → objCtrlPre ctl.val obj.val v s = none → v.getLsbD 9 = true → v.getLsbD 10 = false → bitsOf v.toNat 0 2 = 1 → s.objBusy ctl.val obj.val = false → 
    Completes (.canTxrq a ctl obj v) s fun t => t.get (pCXC ctl.val) (OBJ_CTRL_STATUS obj.val) = 1 ∧
      Frame (Offs (pCXC ctl.val) [OBJ_CTRL obj.val]) { s.canMod ctl.val (fun c => { c with tries := sput 0 obj.val 0 c.tries }) with
        badEntries := s.badEntries.filter fun e => e != tCANDATA ctl.val * 0x100000 + obj.val } s t) ∧
  (∀ (clocks : Nat) (ctl : Fin 12) (o : Nat) (s : State),
    s.Canonical → (s.advance clocks).canLive ctl.val = true → (s.advance clocks).on (pCXC ctl.val) PART_BUSY = false → ((s.advance clocks).canSt ctl.val).cur = none → ((s.advance clocks).canSt ctl.val).mode ≠ 1 → ((s.advance clocks).canSt ctl.val).ref = none → (s.advance clocks).guarding ctl.val = false → (s.advance clocks).canPick ctl.val = some o → 
    Completes (.canTxChoice clocks ctl) s fun t => t.get (pCXC ctl.val) (OBJ_CTRL_STATUS o) = 2 ∧ t.on (pCXC ctl.val) CX_STAT_IDLE = false ∧ Frame (Offs (pCXC ctl.val) [OBJ_CTRL o, CX_STAT]) ((s.advance clocks).canMod ctl.val fun c => { c with cur := some o }) (s.advance clocks) t) ∧
  (∀ (clocks : Nat) (ctl : Fin 12) (r : RefMsg) (s : State),
    s.Canonical → (s.advance clocks).canLive ctl.val = true → (s.advance clocks).on (pCXC ctl.val) PART_BUSY = false → ((s.advance clocks).canSt ctl.val).cur = none → ((s.advance clocks).canSt ctl.val).mode ≠ 1 → ((s.advance clocks).canSt ctl.val).ref = some r → r.counted = false → 
    Completes (.canTxChoice clocks ctl) s fun t => t.Irq (pCXC ctl.val) INT_CXC_REF_LATE ∧ t.Posted (pCXC ctl.val) 0x3014 0 ∧
      Frame (Offs (pCXC ctl.val) (CX_REF_CNT :: errRegs)) { (s.advance clocks).canMod ctl.val (fun c =>
        { c with cur := some 128, ref := none, refOut := some { r with counted := true, sof := stampNs (s.advance clocks).nowQ } }) with posts := t.posts } (s.advance clocks) t) ∧
  (∀ (clocks : Nat) (ctl : Fin 12) (age : Nat) (tdc : Option Nat) (o : Nat) (u v : State) (s : State),
    s.Canonical → u = (s.advance clocks).canMod ctl.val (fun c => { c with cur := none }) → (s.canSt ctl.val).cur = some o → o < 128 → v = (u.tdcMeasure ctl.val (u.objFrame ctl.val o) tdc).canSent ctl.val (u.objFrame ctl.val o) age → 
    Completes (.canFrameTransmitted clocks ctl age tdc) s fun t => t.get (pCXC ctl.val) (OBJ_CTRL_STATUS o) = (if (s.canSt ctl.val).cancel.contains o then 6 else 4) ∧ t.Irq (pCXC ctl.val) INT_CXC_TX_DONE ∧
      Frame (Offs (pCXC ctl.val) [OBJ_CTRL o, INT_RAW]) (v.canMod ctl.val fun c =>
        { c with cancel := c.cancel.filter (fun x => x != o), tries := sput 0 o 0 c.tries, gwObj := c.gwObj.filter fun x => x.obj != o }) v t) ∧
  (∀ (clocks : Nat) (ctl : Fin 12) (age : Nat) (tdc : Option Nat) (r : RefMsg) (u v : State) (s : State),
    s.Canonical → u = (s.advance clocks).canMod ctl.val (fun c => { c with cur := none }) → (s.canSt ctl.val).cur = some 128 → (s.canSt ctl.val).refOut = some r → v = (u.canMod ctl.val fun c => { c with refOut := none }).canSent ctl.val (u.refFrame ctl.val r) age → 
    Completes (.canFrameTransmitted clocks ctl age tdc) s fun t => t = if r.late then v else v.cnt (pCXC ctl.val) CX_REF_CNT_SENT) ∧
  (∀ (a : Access) (ctl : Fin 12) (obj : Fin 128) (v : Word) (won : Bool) (s : State),
    s.Canonical → s.Accepts a (pCXC ctl.val) (OBJ_CTRL obj.val) v → objCtrlPre ctl.val obj.val v s = none → v.getLsbD 9 = false → v.getLsbD 10 = true → s.get (pCXC ctl.val) (OBJ_CTRL_STATUS obj.val) = 1 → (s.canSt ctl.val).gwObj = [] → 
    Completes (.canCancel a ctl obj v won) s fun t => t.get (pCXC ctl.val) (OBJ_CTRL_STATUS obj.val) = 5 ∧
      Frame (Offs (pCXC ctl.val) [OBJ_CTRL obj.val]) { s.canMod ctl.val (fun c => { c with cancel := c.cancel.filter fun x => x != obj.val }) with
        badEntries := s.badEntries.filter fun e => e != tCANDATA ctl.val * 0x100000 + obj.val } s t) ∧
  (∀ (a : Access) (ctl : Fin 12) (obj : Fin 128) (v : Word) (won : Bool) (s : State),
    s.Canonical → s.Accepts a (pCXC ctl.val) (OBJ_CTRL obj.val) v → objCtrlPre ctl.val obj.val v s = none → v.getLsbD 9 = false → v.getLsbD 10 = true → s.get (pCXC ctl.val) (OBJ_CTRL_STATUS obj.val) = 2 → 
    Completes (.canCancel a ctl obj v won) s fun t => t.get (pCXC ctl.val) (OBJ_CTRL_STATUS obj.val) = (if won then 3 else 2) ∧
      Frame (Offs (pCXC ctl.val) [OBJ_CTRL obj.val]) { s.canMod ctl.val (fun c => { c with cancel := (c.cancel.filter fun x => x != obj.val) ++ [obj.val] }) with
        badEntries := s.badEntries.filter fun e => e != tCANDATA ctl.val * 0x100000 + obj.val } s t) ∧
  (∀ (a : Access) (ctl : Fin 12) (s : State),
    s.Canonical → s.Shows a (pCXC ctl.val) CX_OBJ_REL → (s.canSt ctl.val).shadow = none → 
    Completes (.cxObjRelRead a ctl) s fun t => t.on (pCXC ctl.val) (OBJ_CTRL_NEW (s.get (pCXC ctl.val) CX_WIN_SEL_OBJ)) = false ∧ t.on (pCXC ctl.val) (OBJ_CTRL_LOST (s.get (pCXC ctl.val) CX_WIN_SEL_OBJ)) = false ∧
      Frame (Offs (pCXC ctl.val) [OBJ_CTRL (s.get (pCXC ctl.val) CX_WIN_SEL_OBJ)]) s s t) ∧
  (∀ (a : Access) (ctl : Fin 12) (s : State),
    s.Canonical → s.Shows a (pCXC ctl.val) CX_PSR → 
    Completes (.cxPsrRead a ctl) s fun t => t.resp = ⟨.ok, s.readReg (pCXC ctl.val) CX_PSR⟩ ∧ t.get (pCXC ctl.val) CX_PSR_LEC = 7 ∧ t.get (pCXC ctl.val) CX_PSR_DLEC = 7 ∧ Frame (Offs (pCXC ctl.val) [CX_PSR]) s s t) ∧
  (∀ (a : Access) (ctl : Fin 12) (v : Word) (s : State),
    s.Canonical → s.Accepts a (pCXC ctl.val) CX_WIN_SEL v → (s.canSt ctl.val).shadow = none → 
    Completes (.cxWinSelWrite a ctl v) s fun t => t.get (pCXC ctl.val) CX_WIN_SEL_OBJ = bitsOf v.toNat 0 7 ∧ Frame (Offs (pCXC ctl.val) [CX_WIN_SEL]) s s t)

/-- A receiver counts a bus error by 1 or 8 and shows its code, a transmitter by 8, its object pending again; BO_RECOVER starts and the recovery sequence ends bus-off with the counters at 0; INIT = 0 starts integration, which ends with the bus idle; a change of MODE takes effect when the bus is idle; a TXD time-out releases the bus; before a reference edge a guard time begins. Concludes that exec answers the next state for: canBusError, canBoRecover, canRecoveryDone, canInit, canModeApply, canIntegrationDone, txdDominantTimeout, refGuardStart. -/
def Obligations.CanStateCommandsComplete : Prop :=
  (∀ (ctl : Fin 12) (e : CanError) (s : State),
    s.Canonical → s.canLive ctl.val = true → (s.canSt ctl.val).mode = 0 → (s.canSt ctl.val).cur = none → e.transmitting = false → e.dataPhase = false → e.xl = false → s.get (pCXC ctl.val) CX_ECNT_TEC < 96 → s.get (pCXC ctl.val) CX_ECNT_REC < 80 → s.get (pCXC ctl.val) CX_STAT_ST = 0 → 
    Completes (.canBusError ctl e) s fun t => t.get (pCXC ctl.val) CX_ECNT_REC = s.get (pCXC ctl.val) CX_ECNT_REC + (if e.heavy then 8 else 1) ∧ t.get (pCXC ctl.val) CX_PSR_LEC = e.code.val ∧
      t.get (pCXC ctl.val) CX_STAT_ST = 0 ∧ t.on (pCXC ctl.val) CX_STAT_WARN = false ∧ Frame (Offs (pCXC ctl.val) [CX_ECNT, CX_PSR, CX_STAT]) s s t) ∧
  (∀ (ctl : Fin 12) (e : CanError) (o : Nat) (s : State),
    s.Canonical → s.canLive ctl.val = true → (s.canSt ctl.val).mode = 0 → (s.canSt ctl.val).cur = some o → o < 128 → e.transmitting = true → e.dataPhase = false → e.xl = false → e.tdc = none → s.get (pCXC ctl.val) CX_ECNT_TEC < 88 → s.get (pCXC ctl.val) CX_ECNT_REC < 96 → s.get (pCXC ctl.val) CX_STAT_ST = 0 → (s.canSt ctl.val).cancel.contains o = false → s.on (pCXC ctl.val) CX_CTRL_DAR = false → bitsOf (s.rd (pCXC ctl.val) (OBJ_MASK o)).toNat 0 8 = 0 → 
    Completes (.canBusError ctl e) s fun t => t.get (pCXC ctl.val) CX_ECNT_TEC = s.get (pCXC ctl.val) CX_ECNT_TEC + 8 ∧ t.get (pCXC ctl.val) CX_PSR_LEC = e.code.val ∧
      t.get (pCXC ctl.val) (OBJ_CTRL_STATUS o) = 1 ∧ t.get (pCXC ctl.val) CX_STAT_ST = 0 ∧
      Frame (Offs (pCXC ctl.val) [CX_ECNT, CX_PSR, CX_STAT, OBJ_CTRL o]) (s.canMod ctl.val fun c => { c with cur := none, tries := sput 0 o (sget 0 o c.tries + 1) c.tries }) s t) ∧
  (∀ (a : Access) (ctl : Fin 12) (v : Word) (s : State),
    s.Canonical → s.Accepts a (pCXC ctl.val) CX_CTRL v → bitsOf v.toNat 1 2 ≠ 3 → v.getLsbD 5 = true → v.getLsbD 0 = false → s.on (pCXC ctl.val) CX_CTRL_INIT = false → s.get (pCXC ctl.val) CX_STAT_ST = 2 → 
    Completes (.canBoRecover a ctl v) s fun t => (ctl.val < s.can.length → (t.canSt ctl.val).recovering = true) ∧ Frame (Offs (pCXC ctl.val) [CX_CTRL]) { s with can := t.can } s t) ∧
  (∀ (ctl : Fin 12) (s : State),
    s.Canonical → s.pageUp (pCXC ctl.val) = true → (s.canSt ctl.val).recovering = true → s.get (pCXC ctl.val) CX_STAT_ST = 2 → 
    Completes (.canRecoveryDone ctl) s fun t => t.get (pCXC ctl.val) CX_STAT_ST = 0 ∧ t.on (pCXC ctl.val) CX_STAT_WARN = false ∧ t.rd (pCXC ctl.val) CX_ECNT = 0 ∧ t.Irq (pCXC ctl.val) INT_CXC_STATE ∧
      t.on (pCXC ctl.val) CX_STAT_IDLE = true ∧ Frame (Offs (pCXC ctl.val) [CX_STAT, CX_ECNT, INT_RAW]) { s with can := t.can } s t) ∧
  (∀ (a : Access) (ctl : Fin 12) (v : Word) (s : State),
    s.Canonical → s.Accepts a (pCXC ctl.val) CX_CTRL v → bitsOf v.toNat 1 2 ≠ 3 → v.getLsbD 5 = false → v.getLsbD 4 = false → v.getLsbD 0 = false → s.on (pCXC ctl.val) CX_CTRL_INIT = true → 
    Completes (.canInit a ctl v) s fun t => t.on (pCXC ctl.val) CX_CTRL_INIT = false ∧ t.on (pCXC ctl.val) CX_STAT_IDLE = false ∧
      (ctl.val < s.can.length → (t.canSt ctl.val).integrating = true ∧ (t.canSt ctl.val).mode = bitsOf v.toNat 1 2) ∧
      Frame (Offs (pCXC ctl.val) [CX_CTRL, CX_STAT]) { s with can := t.can } s t) ∧
  (∀ (ctl : Fin 12) (s : State),
    s.Canonical → s.pageUp (pCXC ctl.val) = true → (s.canSt ctl.val).cur = none → 
    Completes (.canModeApply ctl) s fun t => (ctl.val < s.can.length → (t.canSt ctl.val).mode = s.get (pCXC ctl.val) CX_CTRL_MODE) ∧ Frame (Offs 0 []) { s with can := t.can } s t) ∧
  (∀ (ctl : Fin 12) (s : State),
    s.Canonical → s.pageUp (pCXC ctl.val) = true → (s.canSt ctl.val).integrating = true → s.on (pCXC ctl.val) CX_CTRL_INIT = false → s.on (pCXC ctl.val) CX_STAT_XCVR_LOST = false → 
    Completes (.canIntegrationDone ctl) s fun t => t.on (pCXC ctl.val) CX_STAT_IDLE = true ∧ (t.canSt ctl.val).integrating = false ∧ Frame (Offs (pCXC ctl.val) [CX_STAT]) { s with can := t.can } s t) ∧
  (∀ (ctl : Fin 12) (s : State),
    s.Canonical → ctl.val < 8 → s.on (pCXC ctl.val) CX_STAT_XCVR_LOST = false → 
    Completes (.txdDominantTimeout ctl) s fun t => t.out = s.out ++ [.canRelease ctl.val] ∧ Frame (Offs 0 []) { s with out := t.out } s t) ∧
  (∀ (ctl : Fin 12) (j : Nat) (s : State),
    s.Canonical → s.refAhead ctl.val = some j → s.canLive ctl.val = true → s.refOn ctl.val = true → s.plate.started = true → s.edgeTime j ≤ s.nowQ + 4000 * (s.rd (pCXC ctl.val) CX_REF_GUARD).toNat → 
    Completes (.refGuardStart ctl) s fun t => t = s.canMod ctl.val fun c => { c with guard := some ((s.curPos + j) % 64) })

/-- A slave channel answers a header that has a response entry with its data and checksum; a good frame the channel does not send itself is stored in the FIFO and goes to the gateway engine that is on; a bit error is counted, a collision in an event-triggered slot sets COLL (that TYPE 1 names these slots is an inference of the model, log entry 107; that the engine is the channel number modulo 4 is its choice, log entry 66); no complete frame counts a missing response; the read of LN_RX_POP removes the head; a bus held dominant sets STUCK with code 0x321D; a wake pulse raises its interrupt in PARTIAL and RUN, and WAKE_TX = 1 sends one. Concludes that exec answers the next state for: linHeaderReceive, linFrameComplete, linFrameTimeout, lnRxPopRead, linStuckDominant, linWakePulse, linWakeTx. -/
def Obligations.LinCommandsComplete : Prop :=
  (∀ (ch : Fin 8) (ident : Fin 64) (k : Nat) (s : State),
    s.Canonical → s.linLive ch.val = true → s.on (pLNC ch.val) LN_CTRL_MASTER = false → s.on (pLNC ch.val) PART_BUSY = false → s.linRsp ch.val ident.val = some k → 
    Completes (.linHeaderReceive ch ident) s fun t => t.on (pLNC ch.val) LN_STAT_STUCK = false ∧
      Frame (Offs (pLNC ch.val) [LN_STAT]) { s.linMod ch.val (fun c => { c with cur := some (ident.val, none, true), fresh := c.fresh.filter fun x => x != k }) with
        out := s.out ++ [.linResponse ch.val ident.val (s.linRspData ch.val k) (linChecksum (s.on (pLNC ch.val) (LN_RSP_ENH k)) ident.val (s.linRspData ch.val k))] } s t) ∧
  (∀ (clocks : Nat) (ch : Fin 8) (data : List Nat) (checksum i : Nat) (k : Option Nat) (age : Nat) (s : State),
    s.Canonical → ((s.advance clocks).linSt ch.val).cur = some (i, k, false) → (s.advance clocks).linLive ch.val = true → (s.advance clocks).linCheck ch.val i k data checksum = true → ((s.advance clocks).linSt ch.val).waiting = [] → (s.rd pGWC GWC_CTRL).toNat.testBit (ch.val % 4) = false → ((s.advance clocks).linSt ch.val).fifo.length < 16 → 
    Completes (.linFrameComplete ⟨clocks, age⟩ ch data checksum none false) s fun t => (ch.val < s.lin.length → (t.linSt ch.val).fifo = ((s.advance clocks).linSt ch.val).fifo ++ [(i, data.take 8)] ∧ (t.linSt ch.val).cur = none) ∧
      t.Irq (pLNC ch.val) INT_LNC_RX ∧ t.on (pLNC ch.val) LN_STAT_STUCK = false ∧
      Frame (Offs (pLNC ch.val) [LN_STAT, LN_RX_ID, LN_RX_D0, LN_RX_POP, INT_RAW]) { s.advance clocks with lin := t.lin } (s.advance clocks) t) ∧
  (∀ (clocks : Nat) (ch : Fin 8) (data : List Nat) (checksum i : Nat) (k : Option Nat) (age : Nat) (u v : State) (s : State),
    s.Canonical → u = s.advance clocks → (u.linSt ch.val).cur = some (i, k, false) → u.linLive ch.val = true → u.linCheck ch.val i k data checksum = true → v = (u.set (pLNC ch.val) LN_STAT_STUCK 0).linMod ch.val (fun c => { c with cur := none }) → 
    Completes (.linFrameComplete ⟨clocks, age⟩ ch data checksum none false) s fun t => t = (((v.linStore ch.val i (data.take 8)).linToGateway ch.val i (data.take 8) age)).linNext ch.val) ∧
  (∀ (clocks : Nat) (ch : Fin 8) (data : List Nat) (checksum : Nat) (collision : Bool) (age : Nat) (s : State),
    s.Canonical → (s.advance clocks).linLive ch.val = true → (s.linSt ch.val).waiting = [] → s.frozen (pLNC ch.val) = false → 
    Completes (.linFrameComplete ⟨clocks, age⟩ ch data checksum (some .bit) collision) s fun t => t.get (pLNC ch.val) LN_ERR_BIT = satAdd LN_ERR_BIT.len (s.get (pLNC ch.val) LN_ERR_BIT) 1 ∧ t.Irq (pLNC ch.val) INT_LNC_ERR ∧
      Frame (Offs (pLNC ch.val) [LN_STAT, LN_ERR, INT_RAW]) { s.advance clocks with lin := t.lin } s t) ∧
  (∀ (clocks : Nat) (ch : Fin 8) (data : List Nat) (checksum i k : Nat) (own : Bool) (age : Nat) (s : State),
    s.Canonical → (s.advance clocks).linLive ch.val = true → (s.linSt ch.val).cur = some (i, some k, own) → s.linType ch.val k = 1 → (s.linSt ch.val).waiting = [] → 
    Completes (.linFrameComplete ⟨clocks, age⟩ ch data checksum none true) s fun t => t.on (pLNC ch.val) (LN_SCHP_COLL k) = true ∧ t.Irq (pLNC ch.val) INT_LNC_COLL ∧
      Frame (Offs (pLNC ch.val) [LN_STAT, LN_SCHP k, INT_RAW]) ((s.advance clocks).linMod ch.val fun c => { c with cur := none }) s t) ∧
  (∀ (ch : Fin 8) (x : Nat × Option Nat × Bool) (s : State),
    s.Canonical → s.linLive ch.val = true → (s.linSt ch.val).cur = some x → (s.linSt ch.val).waiting = [] → s.frozen (pLNC ch.val) = false → 
    Completes (.linFrameTimeout ch) s fun t => t.get (pLNC ch.val) LN_ERR_NORESP = satAdd LN_ERR_NORESP.len (s.get (pLNC ch.val) LN_ERR_NORESP) 1 ∧ t.Irq (pLNC ch.val) INT_LNC_ERR ∧ (t.linSt ch.val).cur = none ∧
      Frame (Offs (pLNC ch.val) [LN_ERR, INT_RAW]) { s with lin := t.lin } s t) ∧
  (∀ (a : Access) (ch : Fin 8) (s : State),
    s.Canonical → s.Shows a (pLNC ch.val) LN_RX_POP → 
    Completes (.lnRxPopRead a ch) s fun t => (t.linSt ch.val).fifo = (s.linSt ch.val).fifo.tail ∧ t.resp = ⟨.ok, s.readReg (pLNC ch.val) LN_RX_POP⟩ ∧
      Frame (Offs (pLNC ch.val) [LN_RX_ID, LN_RX_D0, LN_RX_POP]) { s with lin := t.lin } s t) ∧
  (∀ (ch : Fin 8) (s : State),
    s.Canonical → s.linLive ch.val = true → s.on (pLNC ch.val) LN_STAT_STUCK = false → 
    Completes (.linStuckDominant ch) s fun t => t.on (pLNC ch.val) LN_STAT_STUCK = true ∧ t.Irq (pLNC ch.val) INT_LNC_STUCK ∧ t.Posted (pLNC ch.val) 0x321D 0 ∧
      Frame (Offs (pLNC ch.val) (LN_STAT :: errRegs)) { s with posts := t.posts } s t) ∧
  (∀ (ch : Fin 8) (s : State),
    s.Canonical → s.pageUp (pLNC ch.val) = true → s.on (pLNC ch.val) LN_STAT_XCVR_LOST = false → s.mode = mPARTIAL ∨ s.mode = mRUN → 
    Completes (.linWakePulse ch) s fun t => t.Irq (pLNC ch.val) INT_LNC_WAKE ∧ Frame (Offs (pLNC ch.val) [INT_RAW]) s s t) ∧
  (∀ (a : Access) (ch : Fin 8) (v : Word) (s : State),
    s.Canonical → s.Accepts a (pLNC ch.val) LN_CTRL v → v.getLsbD 2 = true → s.on (pLNC ch.val) LN_STAT_XCVR_LOST = false → 
    Completes (.linWakeTx a ch v) s fun t => t.out = s.out ++ [.linWake ch.val] ∧ t.on (pLNC ch.val) LN_CTRL_EN = v.getLsbD 0 ∧ Frame (Offs (pLNC ch.val) [LN_CTRL]) { s with out := t.out } s t)

/-- The head of an engine queue is taken and routed, or as an IEEE 1722 frame taken apart; a waiting frame is placed into the free GW object and requested; a pending frame past its deadline is withdrawn; waiting capsules are tried again, oldest first; a reply of a pair leaves on the reply stream; a collected frame enters the switch on port GW; PEG_CNT_CLR clears the counters. Concludes that exec answers the next state for: gatewayFrameFromBus, gatewayFrameFromEthernet, gatewayTxPlace, gatewayDeadlineExpiry, capsulePostRetry, capsuleReply, pegCntClr, ethernetBatchSend. -/
def Obligations.GatewayCommandsComplete : Prop :=
  (∀ (clocks : Nat) (e : Fin 4) (lin : Bool) (n sec ns : Nat) (f : BusFrame) (q : List GwItem) (u v : State) (s : State),
    s.Canonical → u = s.advance clocks → s.gwIn[e.val]? = some (.bus lin n f sec ns :: q) → u.engineOn e.val = true → v = u.gwTake e.val sec ns → 
    Completes (.gatewayFrameFromBus clocks e) s fun t => t = v.gwRoute e.val ⟨lin.toNat, n, lin⟩ (v.busId lin n) f sec ns ∧ v.gwIn[e.val]? = some q ∧ v.get (pPEG e.val) PEG_STAT_QUEUE = q.length % 2 ^ PEG_STAT_QUEUE.len) ∧
  (∀ (clocks : Nat) (e : Fin 4) (octets : List Nat) (sec ns : Nat) (q : List GwItem) (u v : State) (s : State),
    s.Canonical → u = s.advance clocks → s.gwIn[e.val]? = some (.eth octets sec ns :: q) → u.engineOn e.val = true → v = u.gwTake e.val sec ns → 
    Completes (.gatewayFrameFromEthernet clocks e) s fun t => t = v.avtpReceive e.val octets sec ns ∧ v.gwIn[e.val]? = some q ∧ v.get (pPEG e.val) PEG_STAT_QUEUE = q.length % 2 ^ PEG_STAT_QUEUE.len) ∧
  (∀ (clocks : Nat) (ctl : Fin 12) (w : GwWait) (o : Nat) (s : State),
    s.Canonical → (s.advance clocks).pageUp (pCXC ctl.val) = true → ((s.advance clocks).canSt ctl.val).gwWait = [w] → ((s.advance clocks).canSt ctl.val).gwObj = [] → (s.advance clocks).pastDeadline w.route w.sec w.ns = false → (s.advance clocks).gwObject ctl.val w.f.data.length = some o → 
    Completes (.gatewayTxPlace clocks ctl) s fun t => t.get (pCXC ctl.val) (OBJ_CTRL_STATUS o) = 1 ∧ t.get (pCXC ctl.val) (OBJ_ID_ID o) = w.f.ident % 2 ^ 29 ∧ (t.canSt ctl.val).gwObj = [⟨o, w.engine, w.route, w.sec, w.ns, false⟩] ∧
      (t.canSt ctl.val).gwWait = []) ∧
  (∀ (clocks : Nat) (ctl : Fin 12) (obj : Fin 128) (g : GwObj) (s : State),
    s.Canonical → ((s.advance clocks).canSt ctl.val).gwObj = [g] → g.obj = obj.val → g.expired = false → (s.advance clocks).pastDeadline g.route g.sec g.ns = true → (s.advance clocks).get (pCXC ctl.val) (OBJ_CTRL_STATUS obj.val) = 1 → 
    Completes (.gatewayDeadlineExpiry clocks ctl obj) s fun t => t.get (pCXC ctl.val) (OBJ_CTRL_STATUS obj.val) = 5 ∧ (t.canSt ctl.val).gwObj = []) ∧
  (∀ (e : Fin 4) (w : CapWait) (s : State),
    s.Canonical → s.engineOn e.val = true → s.capWaits e.val = [w] → 1 < w.left → 
    Completes (.capsulePostRetry e) s fun t => ((s.capPost e.val w.pair w.octets).2 = 0 → t = (s.capPost e.val w.pair w.octets).1.setCapWaits e.val []) ∧
      ((s.capPost e.val w.pair w.octets).2 ≠ 0 → t = (s.capPost e.val w.pair w.octets).1.setCapWaits e.val [{ w with left := w.left - 1 }])) ∧
  (∀ (clocks ch e x : Nat) (octets : List Nat) (u : State) (s : State),
    s.Canonical → u = s.advance clocks → ch = u.get pGWC GWC_CAP_MB_REPLY → e = u.get pGWC GWC_CAP_REPLY_ENG → u.engineOn e = true → u.on (pMBC ch) MB_STAT_FULL = true → u.get (pMBC ch) MB_CFG_RX_AGENT = 0x30 + e → x < 2 → u.get (pMBC ch) MB_STAMP_V % 256 = 0x10 + 2 * x → octets = (((List.range (u.get (pMBC ch) MB_STAT_LEN)).map fun k => (u.rd (pMBC ch) (MB_DATA k)).toNat).map (bytesLE 4)).flatten → 
    Completes (.capsuleReply clocks) s fun t => t = ((takeEff ch u).cnt32 (pPEG e) PEG_CNT_OUT).batchAdd (s.get pGWC GWC_CAP_REPLY_STR) (acfMessage 0x79 ([x, 0] ++ octets)) ∧ (takeEff ch u).on (pMBC ch) MB_STAT_FULL = false) ∧
  (∀ (a : Access) (e : Fin 4) (v : Word) (s : State),
    s.Canonical → s.Accepts a (pPEG e.val) PEG_CNT_CLR v → v.getLsbD 0 = true → 
    Completes (.pegCntClr a e v) s fun t => t.rd (pPEG e.val) PEG_CNT_IN = 0 ∧ t.rd (pPEG e.val) PEG_CNT_OUT = 0 ∧ t.rd (pPEG e.val) PEG_CNT_OVF = 0 ∧ t.get (pPEG e.val) PEG_STAT_LAT = 0 ∧
      Frame (Offs (pPEG e.val) [PEG_CNT_IN, PEG_CNT_OUT, PEG_CNT_OVF, PEG_STAT]) s s t) ∧
  (∀ (clocks : Nat) (stream : Fin 64) (m : List Nat) (l : List (List Nat)) (octets : List Nat) (u : State) (s : State),
    s.Canonical → u = s.advance clocks → u.batchOf stream.val = m :: l → u.switchUp = true → octets = buildFrame (u.entryAddr tSTREAM stream.val 0) Config.gwAddr.toNat (some (u.tf tSTREAM stream.val tPCP, 0, u.tf tSTREAM stream.val tVID)) (bytesBE 2 0x22F0 ++ u.avtpBody stream.val (m :: l).flatten) → 
    Completes (.ethernetBatchSend clocks stream) s fun t => t = ({ u.setBatch stream.val [] with gw.txSeq := sput 0 stream.val ((sget 0 stream.val u.gw.txSeq + 1) % 256) u.gw.txSeq } : State).receive 32
      ⟨padFrame octets, true, true, [], 0⟩)

/-- A write of LSW_CTRL stores ARM, SRC and ON_REQ and the die has the channel's new command; CLR_FAULT takes a LATCHED channel with X at most half of I_C squared and a junction at most 150 degrees to OFF, but none that limp-home holds; PDC_OUT_IMG stores the image and notes the commands; LSW_PROF, LSW_PROT and LSW_CLAMP take the values that their rules allow; CNT_CLR and SNS_CLR clear. Concludes that exec answers the next state for: lswArm, lswOnReq, lswClrFault, pdcOutImgWrite, lswProfWrite, lswProtWrite, lswCntClr, lswSnsClr. -/
def Obligations.ChannelRegisterCommandsComplete : Prop :=
  (∀ (a : Access) (die : Fin 2) (ch : Fin 16) (v : Word) (s : State),
    s.Canonical → s.Sized → s.Accepts a (pLSW die.val ch.val) LSW_CTRL v → v.getLsbD 16 = false → 
    Completes (.lswArm a die ch v) s fun t => t.on (pLSW die.val ch.val) LSW_CTRL_ARM = v.getLsbD 0 ∧ t.on (pLSW die.val ch.val) LSW_CTRL_SRC = v.getLsbD 1 ∧ (ch.val ∈ s.chanIxs die.val → (t.chan die.val ch.val).cmd = t.chanCmd die.val ch.val) ∧
      Frame (Offs (pLSW die.val ch.val) [LSW_CTRL]) { s with chans := t.chans } s t) ∧
  (∀ (a : Access) (die : Fin 2) (ch : Fin 16) (v : Word) (s : State),
    s.Canonical → s.Sized → s.Accepts a (pLSW die.val ch.val) LSW_CTRL v → v.getLsbD 16 = false → 
    Completes (.lswOnReq a die ch v) s fun t => t.on (pLSW die.val ch.val) LSW_CTRL_ON_REQ = v.getLsbD 2 ∧ (ch.val ∈ s.chanIxs die.val → (t.chan die.val ch.val).cmd = t.chanCmd die.val ch.val) ∧
      Frame (Offs (pLSW die.val ch.val) [LSW_CTRL]) { s with chans := t.chans } s t) ∧
  (∀ (a : Access) (die : Fin 2) (ch : Fin 16) (v : Word) (s : State),
    s.Canonical → s.Sized → s.Accepts a (pLSW die.val ch.val) LSW_CTRL v → v.getLsbD 16 = true → (s.chan die.val ch.val).st = 6 → s.limpHeld die.val ch.val = false → s.loadCode die.val ch.val ≤ 2048 → (s.chan die.val ch.val).tj ≤ 150000 → 
    Completes (.lswClrFault a die ch v) s fun t => (t.chan die.val ch.val).st = 0 ∧ (t.chan die.val ch.val).readyAt = s.tb.clocks ∧ Frame (Offs (pLSW die.val ch.val) [LSW_CTRL]) { s with chans := t.chans } s t) ∧
  (∀ (a : Access) (die : Fin 2) (ch : Fin 16) (v : Word) (s : State),
    s.Canonical → s.Sized → s.Accepts a (pLSW die.val ch.val) LSW_CTRL v → v.getLsbD 16 = true → (s.chan die.val ch.val).st = 6 → s.limpHeld die.val ch.val = true → 
    Completes (.lswClrFault a die ch v) s fun t => (t.chan die.val ch.val).st = 6 ∧ (s.bridgeDown die.val = false → t.Posted (pLSW die.val ch.val) (dieCode die.val 0x012) (chanLoc ch.val (s.chan die.val ch.val).evt)) ∧
      Frame (DieErrs die.val (pLSW die.val ch.val) [LSW_CTRL]) { s with chans := t.chans, dies := t.dies, posts := t.posts } s t) ∧
  (∀ (a : Access) (die : Fin 2) (v : Word) (s : State),
    s.Canonical → s.Sized → s.Accepts a (pPDC die.val) PDC_OUT_IMG v → 
    Completes (.pdcOutImgWrite a die v) s fun t => t.get (pPDC die.val) PDC_OUT_IMG_IMG = bitsOf v.toNat 0 16 ∧ (∀ i ∈ s.chanIxs die.val, (t.chan die.val i).cmd = t.chanCmd die.val i) ∧
      Frame (Offs (pPDC die.val) [PDC_OUT_IMG]) { s with chans := t.chans, twin := t.twin } s t) ∧
  (∀ (a : Access) (die : Fin 2) (ch : Fin 16) (v : Word) (s : State),
    s.Canonical → s.Accepts a (pLSW die.val ch.val) LSW_PROF v → lswProfPre die.val ch.val v s = none → 
    Completes (.lswProfWrite a die ch v) s fun t => t.get (pLSW die.val ch.val) LSW_PROF_PROF = bitsOf v.toNat 0 2 ∧ t.get (pLSW die.val ch.val) LSW_PROF_INR_PEAK = bitsOf v.toNat 8 8 ∧ t.get (pLSW die.val ch.val) LSW_PROF_INR_TIME = bitsOf v.toNat 16 16 ∧
      Frame (Offs (pLSW die.val ch.val) [LSW_PROF]) s s t) ∧
  (∀ (a : Access) (die : Fin 2) (ch : Fin 16) (v : Word) (s : State),
    s.Canonical → s.Accepts a (pLSW die.val ch.val) LSW_PROT v → lswProtPre die.val ch.val v s = none → 
    Completes (.lswProtWrite a die ch .prot v) s fun t => t.get (pLSW die.val ch.val) LSW_PROT_ISC = bitsOf v.toNat 0 8 ∧ t.get (pLSW die.val ch.val) LSW_PROT_ILIM = bitsOf v.toNat 8 8 ∧ t.get (pLSW die.val ch.val) LSW_PROT_TLIM = bitsOf v.toNat 16 8 ∧
      Frame (Offs (pLSW die.val ch.val) [LSW_PROT]) s s t) ∧
  (∀ (a : Access) (die : Fin 2) (ch : Fin 16) (v : Word) (s : State),
    s.Canonical → s.Accepts a (pLSW die.val ch.val) LSW_CLAMP v → 
    Completes (.lswProtWrite a die ch .clamp v) s fun t => t.get (pLSW die.val ch.val) LSW_CLAMP_BUDGET = bitsOf v.toNat 0 16 ∧ t.get (pLSW die.val ch.val) LSW_CLAMP_TAU_C = bitsOf v.toNat 16 8 ∧ Frame (Offs (pLSW die.val ch.val) [LSW_CLAMP]) s s t) ∧
  (∀ (a : Access) (die : Fin 2) (ch : Fin 16) (v : Word) (s : State),
    s.Canonical → s.Accepts a (pLSW die.val ch.val) LSW_CNT_CLR v → v.getLsbD 0 = true → 
    Completes (.lswCntClr a die ch v) s fun t => t.rd (pLSW die.val ch.val) LSW_CNT = 0 ∧ Frame (Offs (pLSW die.val ch.val) [LSW_CNT]) s s t) ∧
  (∀ (a : Access) (die : Fin 2) (ch : Fin 16) (v : Word) (s : State),
    s.Canonical → s.Accepts a (pLSW die.val ch.val) LSW_SNS_CLR v → v.getLsbD 0 = true → 
    Completes (.lswSnsClr a die ch v) s fun t => t.rd (pLSW die.val ch.val) LSW_IPEAK = 0 ∧ Frame (Offs (pLSW die.val ch.val) [LSW_IPEAK]) s s t)

/-- A hard short, an overcurrent beyond its time and a junction of 175 degrees latch a channel with causes 1, 2 and 4 and codes 0x213, 0x214 and 0x216; group undervoltage sends the channels in INRUSH back to WAIT; the end of a fast turn-off adds its energy to the clamp account; a sample shows current and voltage; reverse blocking, open load and short to battery are reported and end. Concludes that exec answers the next state for: hardShort, overcurrentTrip, overTemperature, groupUndervoltage, currentSample, turnOffComplete, reverseCurrentBlock, reverseBlockRelease, openLoadDetect, shortToBatteryDetect, shortToBatteryClear. -/
def Obligations.ChannelProtectionCommandsComplete : Prop :=
  (∀ (clocks : Nat) (die : Fin 2) (ch : Fin 16) (peak : Int) (s : State),
    s.Canonical → s.Sized → (s.advance clocks).hasChan die.val = true → ((s.advance clocks).chan die.val ch.val).st = 2 ∨ ((s.advance clocks).chan die.val ch.val).st = 3 ∨ ((s.advance clocks).chan die.val ch.val).st = 5 → (s.advance clocks).iscMa die.val ch.val < peak.natAbs * 4096 → 
    Completes (.hardShort clocks die ch peak) s fun t => (t.chan die.val ch.val).st = 6 ∧ (t.chan die.val ch.val).cause = 1 ∧ (t.chan die.val ch.val).limp = false ∧ t.Irq (pLSW die.val ch.val) INT_LSW_LATCH ∧ ((s.advance clocks).bridgeDown die.val = false → t.Posted (pLSW die.val ch.val) (dieCode die.val 0x213) (chanLoc ch.val (peak * 1000))) ∧
      Frame (DieErrs die.val (pLSW die.val ch.val) [LSW_CNT]) { s.advance clocks with chans := t.chans, dies := t.dies, posts := t.posts, out := t.out } (s.advance clocks) t
      ∧ (t.die die.val).defer.testBit (groupOf ch.val) = true) ∧
  (∀ (clocks : Nat) (die : Fin 2) (ch : Fin 16) (current : Nat) (s : State),
    s.Canonical → s.Sized → (s.advance clocks).hasChan die.val = true → ((s.advance clocks).chan die.val ch.val).st = 2 ∨ ((s.advance clocks).chan die.val ch.val).st = 3 ∨ ((s.advance clocks).chan die.val ch.val).st = 5 → ((s.advance clocks).chan die.val ch.val).rev = false → (s.advance clocks).ilimMa die.val ch.val < current * 4096 → ((s.advance clocks).chan die.val ch.val).onAt + (s.advance clocks).get (pLSW die.val ch.val) LSW_PROT_BLANK * 500000 + (s.advance clocks).get (pLSW die.val ch.val) LSW_PROT_TLIM * 50000 ≤ (s.advance clocks).tb.clocks → 
    Completes (.overcurrentTrip clocks die ch current) s fun t => (t.chan die.val ch.val).st = 6 ∧ (t.chan die.val ch.val).cause = 2 ∧ (t.chan die.val ch.val).limp = false ∧ t.Irq (pLSW die.val ch.val) INT_LSW_LATCH ∧ ((s.advance clocks).bridgeDown die.val = false → t.Posted (pLSW die.val ch.val) (dieCode die.val 0x214) (chanLoc ch.val (current * 1000 : Nat))) ∧
      Frame (DieErrs die.val (pLSW die.val ch.val) [LSW_CNT]) { s.advance clocks with chans := t.chans, dies := t.dies, posts := t.posts, out := t.out } (s.advance clocks) t) ∧
  (∀ (die : Fin 2) (ch : Fin 16) (tj : Nat) (s : State),
    s.Canonical → s.Sized → s.hasChan die.val = true → (s.chan die.val ch.val).st = 2 ∨ (s.chan die.val ch.val).st = 3 ∨ (s.chan die.val ch.val).st = 5 → 175000 ≤ tj → 
    Completes (.overTemperature die ch tj) s fun t => (t.chan die.val ch.val).st = 6 ∧ (t.chan die.val ch.val).cause = 4 ∧ (t.chan die.val ch.val).limp = false ∧ t.Irq (pLSW die.val ch.val) INT_LSW_LATCH ∧ ((s).bridgeDown die.val = false → t.Posted (pLSW die.val ch.val) (dieCode die.val 0x216) (chanLoc ch.val (s.chan die.val ch.val).evt)) ∧
      Frame (DieErrs die.val (pLSW die.val ch.val) [LSW_CNT]) { s with chans := t.chans, dies := t.dies, posts := t.posts, out := t.out } (s) t ∧ (t.chan die.val ch.val).tj = tj) ∧
  (∀ (die : Fin 2) (g : Fin 3) (lowest i : Nat) (s : State),
    s.Canonical → s.Sized → s.dieOn die.val = true → i ∈ s.chanIxs die.val → groupOf i = g.val → s.chanCode die.val i = 2 → lowest < s.get (pPDC die.val) (GRP_CFG_UV g.val) * 10 → 
    Completes (.groupUndervoltage die g lowest) s fun t => (t.chan die.val i).st = 1 ∧ (t.chan die.val i).win = none ∧ t.Irq (pPDC die.val) (INT_PDC_UV0 + g.val) ∧
      (s.bridgeDown die.val = false → t.Posted (pPDC die.val) (dieCode die.val 0x21A) (g.val * 0x10000 + min lowest 0xFFFF)) ∧
      RegFrame (fun addr => DieErrs die.val (pPDC die.val) [GRP_STAT g.val] addr ∨ Pages ((List.range 16).map (pLSW die.val)) addr) s t) ∧
  (∀ (clocks : Nat) (die : Fin 2) (io : DieSample) (i : Nat) (s : State),
    s.Canonical → s.Sized → (s.advance clocks).dieOn die.val = true → i ∈ s.chanIxs die.val → 
    Completes (.currentSample clocks die io) s fun t => (t.chan die.val i).volts = nth io.volts i 0 ∧ (t.chan die.val i).tj = nth io.tj i 25000 ∧ (t.chan die.val i).prev = codeUa i (iCode i (nth io.amps i 0)) ∧
      t.on (pLSW die.val i) LSW_IMEAS_VALID = true ∧ (t.die die.val).winAt = (s.advance clocks).tb.clocks) ∧
  (∀ (clocks : Nat) (die : Fin 2) (ch : Fin 16) (energy : Nat) (s : State),
    s.Canonical → s.Sized → (s.advance clocks).hasChan die.val = true → ((s.advance clocks).chan die.val ch.val).turning = 1 → ((s.advance clocks).chan die.val ch.val).st = 4 → 
    Completes (.turnOffComplete clocks die ch energy) s fun t => (t.chan die.val ch.val).st = 0 ∧ (t.chan die.val ch.val).turning = 0 ∧ (t.chan die.val ch.val).acc = ((s.advance clocks).chan die.val ch.val).acc + energy * 2 ^ 32 ∧ t.rd (pLSW die.val ch.val) LSW_CLAMP_LAST = BitVec.ofNat 32 energy ∧
      Frame (DieErrs die.val (pLSW die.val ch.val) [LSW_CLAMP_LAST, LSW_CNT]) { s.advance clocks with chans := t.chans, dies := t.dies, posts := t.posts } (s.advance clocks) t) ∧
  (∀ (clocks : Nat) (die : Fin 2) (ch : Fin 16) (current : Nat) (s : State),
    s.Canonical → s.Sized → (s.advance clocks).hasChan die.val = true → ((s.advance clocks).chan die.val ch.val).st = 3 → ((s.advance clocks).chan die.val ch.val).rev = false → Config.byClass ch.val 1000 400 100 < current → 
    Completes (.reverseCurrentBlock clocks die ch current) s fun t => (t.chan die.val ch.val).rev = true ∧ (t.chan die.val ch.val).evt = -(current * 1000 : Nat) ∧ t.Irq (pLSW die.val ch.val) INT_LSW_REV ∧
      t.out = (if t.senseNa die.val = s.senseNa die.val then s.out else s.out ++ [.isense die.val (t.senseNa die.val)]) ∧
      Frame (DieErrs die.val (pLSW die.val ch.val) [LSW_CNT]) { s.advance clocks with chans := t.chans, dies := t.dies, posts := t.posts, out := t.out } (s.advance clocks) t) ∧
  (∀ (die : Fin 2) (ch : Fin 16) (s : State),
    s.Canonical → s.Sized → s.hasChan die.val = true → (s.chan die.val ch.val).rev = true → 
    Completes (.reverseBlockRelease die ch) s fun t => (t.chan die.val ch.val).rev = false ∧ Frame (Offs 0 []) { s with chans := t.chans } s t) ∧
  (∀ (die : Fin 2) (ch : Fin 16) (current : Int) (s : State),
    s.Canonical → s.Sized → s.hasChan die.val = true → s.on (pLSW die.val ch.val) LSW_CTRL_OL_EN = true → s.chanCode die.val ch.val = 3 → current < (s.get (pLSW die.val ch.val) LSW_OL_OL_TH * 10 : Nat) → (s.chan die.val ch.val).openLoad = false → 
    Completes (.openLoadDetect die ch current) s fun t => (t.chan die.val ch.val).openLoad = true ∧ t.Irq (pLSW die.val ch.val) INT_LSW_OPEN ∧ (s.bridgeDown die.val = false → t.Posted (pLSW die.val ch.val) (dieCode die.val 0x21B) (chanLoc ch.val (current * 1000))) ∧
      t.out = (if t.senseNa die.val = s.senseNa die.val then s.out else s.out ++ [.isense die.val (t.senseNa die.val)]) ∧
      Frame (DieErrs die.val (pLSW die.val ch.val) []) { s with chans := t.chans, dies := t.dies, posts := t.posts, out := t.out } s t) ∧
  (∀ (die : Fin 2) (ch : Fin 16) (s : State),
    s.Canonical → s.Sized → s.hasChan die.val = true → s.chanCode die.val ch.val = 0 → s.on (pLSW die.val ch.val) LSW_CTRL_DUAL = false → (s.chan die.val ch.val).shortBat = false → 
    Completes (.shortToBatteryDetect die ch) s fun t => (t.chan die.val ch.val).shortBat = true ∧ t.Irq (pLSW die.val ch.val) INT_LSW_SHORT_BAT ∧ (s.bridgeDown die.val = false → t.Posted (pLSW die.val ch.val) (dieCode die.val 0x21C) (chanLoc ch.val (s.chan die.val ch.val).evt)) ∧
      Frame (DieErrs die.val (pLSW die.val ch.val) []) { s with chans := t.chans, dies := t.dies, posts := t.posts } s t) ∧
  (∀ (die : Fin 2) (ch : Fin 16) (s : State),
    s.Canonical → s.Sized → s.hasChan die.val = true → s.chanCode die.val ch.val = 0 → 
    Completes (.shortToBatteryClear die ch) s fun t => (t.chan die.val ch.val).shortBat = false ∧ Frame (Offs 0 []) { s with chans := t.chans } s t)

/-- A die that loses the compute die in NORMAL enters HOLD with the commands given at that moment; HOLD_TIME and the TWC time-out lead to SAFE; RESUME compares the commands; in HOLD, TWC and SAFE local edges act while no boundary is delivered; SET takes the masked channels with TWC_EN and enters TWC control, KEEP keeps the commands, SAFE enters SAFE, CLEAR acts as CLR_FAULT and STATUS is noted for its reply. Concludes that exec answers the next state for: bridgeSilence, computeResetSignal, holdTimeExpiry, twcTimeout, pdcResume, localEdge, twcSet, twcKeep, twcSafe, twcClear, twcStatus. -/
def Obligations.HoldingCommandsComplete : Prop :=
  (∀ (clocks : Nat) (die : Fin 2) (s : State),
    s.Canonical → s.Sized → (s.advance clocks).dieOn die.val = true → ((s.advance clocks).die die.val).lost = false → ((s.advance clocks).die die.val).st = 0 → (s.advance clocks).holdMs die.val ≠ 0 → 
    Completes (.bridgeSilence clocks die) s fun t => (t.die die.val).st = 1 ∧ (t.die die.val).lost = true ∧ (t.die die.val).cmds = (s.advance clocks).cmdMask die.val (fun i => (s.advance clocks).lswCmd die.val i) ∧
      t.Irq (pPDC die.val) INT_PDC_HOLD ∧ Frame (DieErrs die.val (pPDC die.val) [PDC_HOLD_IMG, PDC_CNT]) { s.advance clocks with dies := t.dies, chans := t.chans, posts := t.posts, claim := t.claim, out := t.out } (s.advance clocks) t) ∧
  (∀ (clocks : Nat) (die : Fin 2) (s : State),
    s.Canonical → s.Sized → (s.advance clocks).dieOn die.val = true → (s.advance clocks).up.compute = false → ((s.advance clocks).die die.val).lost = false → ((s.advance clocks).die die.val).st = 2 → 
    Completes (.computeResetSignal clocks die) s fun t => (t.die die.val).st = 2 ∧ (t.die die.val).lost = true ∧ Frame (DieErrs die.val (pPDC die.val) []) { s.advance clocks with dies := t.dies, claim := t.claim, out := t.out } (s.advance clocks) t) ∧
  (∀ (clocks : Nat) (die : Fin 2) (s : State),
    s.Canonical → s.Sized → (s.advance clocks).dieOn die.val = true → ((s.advance clocks).die die.val).st = 1 → ((s.advance clocks).die die.val).resume = none → 
    Completes (.holdTimeExpiry clocks die) s fun t => (t.die die.val).st = 3 ∧ t.Irq (pPDC die.val) INT_PDC_SAFE ∧ Frame (DieErrs die.val (pPDC die.val) [PDC_CNT]) { s.advance clocks with dies := t.dies, chans := t.chans, posts := t.posts } (s.advance clocks) t) ∧
  (∀ (clocks : Nat) (die : Fin 2) (s : State),
    s.Canonical → s.Sized → (s.advance clocks).dieOn die.val = true → ((s.advance clocks).die die.val).st = 2 → ((s.advance clocks).die die.val).resume = none → 
    Completes (.twcTimeout clocks die) s fun t => (t.die die.val).st = 3 ∧ t.Irq (pPDC die.val) INT_PDC_SAFE ∧ Frame (DieErrs die.val (pPDC die.val) [PDC_CNT]) { s.advance clocks with dies := t.dies, chans := t.chans, posts := t.posts } (s.advance clocks) t) ∧
  (∀ (a : Access) (die : Fin 2) (v : Word) (s : State),
    s.Canonical → s.Sized → s.Accepts a (pPDC die.val) PDC_HOLD v → v.getLsbD 16 = true → (s.die die.val).st ≠ 0 → (s.die die.val).resume = none → s.cmdMask die.val (fun i => s.lswCmd die.val i) = s.cmdMask die.val (fun i => (s.die die.val).cmds.testBit i) → 
    Completes (.pdcResume a die v) s fun t => (t.die die.val).resume = some s.tb.clocks ∧ t.on (pPDC die.val) PDC_HOLD_MATCH = true ∧ t.get (pPDC die.val) PDC_HOLD_HOLD_TIME = bitsOf v.toNat 0 10 ∧
      Frame (Offs (pPDC die.val) [PDC_HOLD]) { s with dies := t.dies } s t) ∧
  (∀ (die : Fin 2) (ppm : Int) (s2 : State) (s : State),
    s.Canonical → s.Sized → s.dieOn die.val = true → (s.die die.val).st ≠ 0 → (s.die die.val).synced = false → s2 = (let z := s.die die.val; let base := if z.pos.isNone then s.tb.clocks else z.edgeAt
        let wait := (((z.nextLocal.2 : Int) * (1000000 + clampAbs 5000 ppm) + 7999999) / 8000000).toNat
        (s.advance (base + wait - s.tb.clocks)).modDie die.val fun z =>
          { z with pos := some z.nextLocal.1, edgeAt := base + wait, curLen := if z.nextLocal.1 = 0 then z.nomLen else z.curLen }) → 
    Completes (.localEdge die ppm) s fun t => t = s2.dieEdge die.val (s.die die.val).nextLocal.1 ((s.die die.val).nextLocal.1 == 0) false) ∧
  (∀ (clocks : Nat) (octets : List Nat) (die : Fin 2) (s : State),
    s.Canonical → s.Sized → (s.advance clocks).twcFor die.val octets = true → (s.advance clocks).twcFor (1 - die.val) octets = false → twcGood octets = true → twcCmd octets = 1 → (s.advance clocks).twcOpen die.val = true → 
    Completes (.twcSet clocks octets) s fun t => (t.die die.val).st = 2 ∧ (∀ i ∈ (s.advance clocks).chanIxs die.val, (t.die die.val).cmds.testBit i =
        if (ofBytesBE ((octets.drop 2).take 2)).testBit i && (s.advance clocks).on (pLSW die.val i) LSW_HOLD_TWC_EN then (ofBytesBE ((octets.drop 4).take 2)).testBit i
        else ((s.advance clocks).die die.val).cmds.testBit i) ∧ Frame (DieErrs die.val (pPDC die.val) [PDC_TWC_STAT]) { s.advance clocks with dies := t.dies, chans := t.chans, posts := t.posts } (s.advance clocks) t) ∧
  (∀ (clocks : Nat) (octets : List Nat) (die : Fin 2) (s : State),
    s.Canonical → s.Sized → (s.advance clocks).twcFor die.val octets = true → (s.advance clocks).twcFor (1 - die.val) octets = false → twcGood octets = true → twcCmd octets = 2 → (s.advance clocks).twcOpen die.val = true → 
    Completes (.twcKeep clocks octets) s fun t => (t.die die.val).st = 2 ∧ (t.die die.val).cmds = ((s.advance clocks).die die.val).cmds ∧ Frame (DieErrs die.val (pPDC die.val) [PDC_TWC_STAT]) { s.advance clocks with dies := t.dies, posts := t.posts } (s.advance clocks) t) ∧
  (∀ (clocks : Nat) (octets : List Nat) (die : Fin 2) (s : State),
    s.Canonical → s.Sized → (s.advance clocks).twcFor die.val octets = true → (s.advance clocks).twcFor (1 - die.val) octets = false → twcGood octets = true → twcCmd octets = 3 → (s.advance clocks).twcOpen die.val = true → ((s.advance clocks).die die.val).st ≠ 3 → 
    Completes (.twcSafe clocks octets) s fun t => (t.die die.val).st = 3 ∧ t.Irq (pPDC die.val) INT_PDC_SAFE ∧ Frame (DieErrs die.val (pPDC die.val) [PDC_TWC_STAT, PDC_CNT]) { s.advance clocks with dies := t.dies, chans := t.chans, posts := t.posts } (s.advance clocks) t) ∧
  (∀ (clocks : Nat) (octets : List Nat) (die : Fin 2) (s : State),
    s.Canonical → s.Sized → (s.advance clocks).twcFor die.val octets = true → (s.advance clocks).twcFor (1 - die.val) octets = false → twcGood octets = true → twcCmd octets = 4 → (s.advance clocks).twcOpen die.val = true → (s.advance clocks).hasChan die.val = true → ((s.advance clocks).chan die.val (nth octets 2 0 % 16)).st = 6 → (s.advance clocks).limpHeld die.val (nth octets 2 0 % 16) = false → (s.advance clocks).loadCode die.val (nth octets 2 0 % 16) ≤ 2048 → ((s.advance clocks).chan die.val (nth octets 2 0 % 16)).tj ≤ 150000 → 
    Completes (.twcClear clocks octets) s fun t => (t.chan die.val (nth octets 2 0 % 16)).st = 0 ∧ Frame (DieErrs die.val (pPDC die.val) [PDC_TWC_STAT]) { s.advance clocks with dies := t.dies, chans := t.chans } (s.advance clocks) t) ∧
  (∀ (clocks : Nat) (octets : List Nat) (die : Fin 2) (s : State),
    s.Canonical → s.Sized → (s.advance clocks).twcFor die.val octets = true → (s.advance clocks).twcFor (1 - die.val) octets = false → twcGood octets = true → twcCmd octets = 5 → (s.advance clocks).on (pPDC die.val) PDC_TWC_EN = true → twcDest octets ≠ 3 → 
    Completes (.twcStatus clocks octets) s fun t => (t.die die.val).reply = some (twcSrc octets, nth octets 1 0) ∧ Frame (DieErrs die.val (pPDC die.val) [PDC_TWC_STAT]) { s.advance clocks with dies := t.dies } (s.advance clocks) t)

/-- LH_EN active with ARM = 1 takes mapped channels to LIMP, inactive takes them out; limp channels follow their land; a tab below UV or above OV turns its group off fast and holds it off until recovery, loss of PGND all groups, loss of LGND is reported; a change of the select lands moves ISENSE; a power-die reset returns its pages and state, its release loads the trims. Concludes that exec answers the next state for: limpEntry, limpExit, limpInputChange, limpLatchedClear, tabUndervoltage, tabOvervoltage, pgndLoss, lgndLoss, boardNetRecovery, selLandChange, powerDieReset, powerDieRelease, pdcCntClr. -/
def Obligations.BoardNetCommandsComplete : Prop :=
  (∀ (clocks : Nat) (die : Fin 2) (i : Nat) (s : State),
    s.Canonical → s.Sized → (s.advance clocks).dieOn die.val = true → (s.advance clocks).on (pPDC die.val) PDC_LH_ARM = true → (s.advance clocks).on (pPDC die.val) PDC_LH_EN_LVL = false → ((s.advance clocks).die die.val).limpOn = false → i ∈ s.chanIxs die.val → (s.advance clocks).on (pLSW die.val i) LSW_HOLD_LH_MAP = true → ((s.advance clocks).chan die.val i).st ≠ 6 → 
    Completes (.limpEntry clocks die) s fun t => (t.chan die.val i).limp = true ∧ (t.die die.val).limpOn = true ∧ t.on (pPDC die.val) PDC_LH_EN_LVL = true ∧ Frame (DieErrs die.val (pPDC die.val) [PDC_LH]) { s.advance clocks with dies := t.dies, chans := t.chans, posts := t.posts } (s.advance clocks) t) ∧
  (∀ (clocks : Nat) (die : Fin 2) (i : Nat) (s : State),
    s.Canonical → s.Sized → (s.advance clocks).dieOn die.val = true → ((s.advance clocks).die die.val).limpOn = true → i ∈ s.chanIxs die.val → 
    Completes (.limpExit clocks die) s fun t => (t.chan die.val i).limp = false ∧ (t.die die.val).limpOn = false ∧ t.on (pPDC die.val) PDC_LH_EN_LVL = false ∧ Frame (DieErrs die.val (pPDC die.val) [PDC_LH]) { s.advance clocks with dies := t.dies, chans := t.chans } (s.advance clocks) t) ∧
  (∀ (clocks : Nat) (die : Fin 2) (land : Fin 8) (active : Bool) (s : State),
    s.Canonical → s.Sized → (s.advance clocks).dieOn die.val = true → ((s.advance clocks).die die.val).limpOn = false → 
    Completes (.limpInputChange clocks die land active) s fun t => (t.get (pPDC die.val) PDC_LH_IN_LVL).testBit land.val = active ∧ Frame (DieErrs die.val (pPDC die.val) [PDC_LH]) { s.advance clocks with chans := t.chans } (s.advance clocks) t) ∧
  (∀ (clocks : Nat) (die : Fin 2) (ch : Fin 16) (s : State),
    s.Canonical → s.Sized → (s.advance clocks).hasChan die.val = true → ((s.advance clocks).die die.val).limpOn = true → (s.advance clocks).on (pLSW die.val ch.val) LSW_HOLD_LH_MAP = true → ((s.advance clocks).chan die.val ch.val).st = 6 → (s.advance clocks).loadCode die.val ch.val ≤ 2048 → ((s.advance clocks).chan die.val ch.val).tj ≤ 150000 → ((s.advance clocks).get (pPDC die.val) PDC_LH_IN_LVL).testBit ((s.advance clocks).get (pLSW die.val ch.val) LSW_HOLD_LH_IN) = false → 
    Completes (.limpLatchedClear clocks die ch) s fun t => (t.chan die.val ch.val).st = 0 ∧ (t.chan die.val ch.val).limp = true ∧ (t.get (pPDC die.val) PDC_LH_IN_LVL).testBit ((s.advance clocks).get (pLSW die.val ch.val) LSW_HOLD_LH_IN) = true) ∧
  (∀ (clocks : Nat) (die : Fin 2) (g : Fin 3) (i : Nat) (s : State),
    s.Canonical → s.Sized → (s.advance clocks).dieOn die.val = true → ((s.advance clocks).die die.val).uv.testBit g.val = false → i ∈ s.chanIxs die.val → groupOf i = g.val → ((s.advance clocks).chan die.val i).st = 3 → 
    Completes (.tabUndervoltage clocks die g) s fun t => (t.chan die.val i).st = 4 ∧ (t.die die.val).blocked.testBit g.val = true ∧ (t.die die.val).uv.testBit g.val = true ∧ t.Irq (pPDC die.val) INT_PDC_BN) ∧
  (∀ (clocks : Nat) (die : Fin 2) (g : Fin 3) (i : Nat) (s : State),
    s.Canonical → s.Sized → (s.advance clocks).dieOn die.val = true → ((s.advance clocks).die die.val).ov.testBit g.val = false → i ∈ s.chanIxs die.val → groupOf i = g.val → ((s.advance clocks).chan die.val i).st = 3 → 
    Completes (.tabOvervoltage clocks die g) s fun t => (t.chan die.val i).st = 4 ∧ (t.die die.val).blocked.testBit g.val = true ∧ (t.die die.val).ov.testBit g.val = true ∧ t.Irq (pPDC die.val) INT_PDC_BN) ∧
  (∀ (clocks : Nat) (die : Fin 2) (i : Nat) (s : State),
    s.Canonical → s.Sized → (s.advance clocks).dieOn die.val = true → ((s.advance clocks).die die.val).pgnd = false → i ∈ s.chanIxs die.val → ((s.advance clocks).chan die.val i).st = 3 → 
    Completes (.pgndLoss clocks die) s fun t => (t.chan die.val i).st = 4 ∧ (t.die die.val).pgnd = true ∧ (∀ g : Fin 3, (t.die die.val).blocked.testBit g.val = true) ∧ t.Irq (pPDC die.val) INT_PDC_BN) ∧
  (∀ (clocks : Nat) (die : Fin 2) (s : State),
    s.Canonical → s.Sized → (s.advance clocks).dieOn die.val = true → ((s.advance clocks).die die.val).lgnd = false → 
    Completes (.lgndLoss clocks die) s fun t => (t.die die.val).lgnd = true ∧ t.Irq (pPDC die.val) INT_PDC_BN ∧ Frame (DieErrs die.val (pPDC die.val) []) { s.advance clocks with dies := t.dies, posts := t.posts } (s.advance clocks) t) ∧
  (∀ (clocks : Nat) (die : Fin 2) (g : Fin 3) (s : State),
    s.Canonical → s.Sized → (s.advance clocks).dieOn die.val = true → ((s.advance clocks).die die.val).blocked.testBit g.val = true → 
    Completes (.boardNetRecovery clocks die g) s fun t => (t.die die.val).blocked.testBit g.val = false ∧ (t.die die.val).uv.testBit g.val = false ∧ (t.die die.val).ov.testBit g.val = false ∧ (t.die die.val).pgnd = false ∧
      Frame (Offs 0 []) { s.advance clocks with dies := t.dies, chans := t.chans } (s.advance clocks) t) ∧
  (∀ (die : Fin 2) (level : Fin 16) (s : State),
    s.Canonical → die.val < s.selLands.length → 
    Completes (.selLandChange die level) s fun t => nth t.selLands die.val 0 = level.val ∧ Frame (Offs 0 []) { s with selLands := t.selLands, out := t.out } s t) ∧
  (∀ (clocks : Nat) (die : Fin 2) (s : State),
    s.Canonical → (s.advance clocks).dieOn die.val = true → 
    Completes (.powerDieReset clocks die) s fun t => t.dieOn die.val = false ∧ t.die die.val = DieState.init ∧ (∀ i : Fin 16, t.chan die.val i.val = ChanState.init i.val) ∧
      (∀ off, off < 0x1000 → t.rd (pPDC die.val) off = resetVal ((pPDC die.val) + off)) ∧ RegFrame (fun addr => Offs pRST [RST_CNT] addr ∨ Pages ((pPDC die.val) :: (List.range 16).map (pLSW die.val)) addr ∨
        ∃ p < 31, phyDie p = some die.val ∧ Offs (pPORT p) [PORT_STAT, PORT_PHY_STAT] addr) s t) ∧
  (∀ (clocks : Nat) (die : Fin 2) (s : State),
    s.Canonical → s.Sized → (s.advance clocks).dieOn die.val = false → (s.advance clocks).dieHeld die.val = false → 
    Completes (.powerDieRelease clocks die) s fun t => t.dieOn die.val = true ∧ (∀ i ∈ s.chanIxs die.val, t.rd (pLSW die.val i) LSW_ITRIM = BitVec.ofNat 32 (s.fuse (64 + 16 * die.val + i))) ∧
      Frame (Regs ((List.range 16).map fun i => pLSW die.val i + LSW_ITRIM)) { s.advance clocks with up := t.up, dies := t.dies, cfaultA := t.cfaultA } (s.advance clocks) t ∧
      t.cfaultA = (if die.val = 0 ∧ (s.advance clocks).up.alwaysOn = false then (s.advance clocks).cfaultP else (s.advance clocks).cfaultA)) ∧
  (∀ (a : Access) (die : Fin 2) (v : Word) (s : State),
    s.Canonical → s.Accepts a (pPDC die.val) PDC_CNT_CLR v → v.getLsbD 0 = true → 
    Completes (.pdcCntClr a die v) s fun t => t.rd (pPDC die.val) PDC_CNT = 0 ∧ t.rd (pPDC die.val) PDC_TWC_STAT = 0 ∧ Frame (Offs (pPDC die.val) [PDC_CNT, PDC_TWC_STAT]) s s t)

/-- An input whose filtered value has been active for STUCK_T x 100 ms becomes STUCK with its interrupt and code 0x6210; a scan in STANDBY that finds an armed input active for the second time wakes the module with that input in INC_WK_LAST; CNT_CLR clears the counters of a page; pulsed wetting current starts and stops; a comparator transition between samples is counted for chatter. Concludes that exec answers the next state for: dinStuck, standbyScan, digCntClr, wettingPulseStart, wettingPulseEnd, comparatorTransition. -/
def Obligations.InputCommandsComplete : Prop :=
  (∀ (clocks : Nat) (m : Fin 48) (s : State),
    s.Canonical → (s.advance clocks).up.compute = true → (s.advance clocks).dinActive m.val = true → (s.advance clocks).dinStuck m.val = false → (s.advance clocks).get (dinPage m.val) (DIN_TIME_STUCK_T (dinIx m.val)) ≠ 0 → ((s.advance clocks).din m.val).activeAt + (s.advance clocks).get (dinPage m.val) (DIN_TIME_STUCK_T (dinIx m.val)) * 50000000 ≤ (s.advance clocks).tb.clocks → 
    Completes (.dinStuck clocks m) s fun t => t.dinStuck m.val = true ∧ t.Irq (dinPage m.val) INT_DIG_STUCK ∧ t.Posted (dinPage m.val) 0x6210 m.val ∧ RegFrame (Pages [pINC, pDIG 0, pDIG 1, pDIG 2]) s t) ∧
  (∀ (clocks levels m : Nat) (u v : State) (s : State),
    s.Canonical → u = { s.advance clocks with scan := ({ s.scan with scans := s.scan.scans + 1 } : ScanState).look (s.advance clocks).tb.clocks m true } → v = (u.set pINC INC_WK_LAST_DIN m).set pINC INC_WK_LAST_STANDBY 1 → (s.advance clocks).mode = mSTANDBY → (s.advance clocks).slp.starting = false → (s.advance clocks).up.alwaysOn = true → (List.range 48).filter (fun m => s.scan.armed.testBit m && !s.disarmed.testBit m) = [m] → levels.testBit m ≠ s.scan.inv.testBit m → s.scan.last.testBit m = true → s.scan.stuck.testBit m = false → 
    Completes (.standbyScan clocks levels) s fun t => t = ((v.set pINC INC_WK_LAST_WAKES (wrapAdd 16 (v.get pINC INC_WK_LAST_WAKES) 1)).startWake ⟨3, m⟩ false v.tb.clocks).localPulse) ∧
  (∀ (a : Access) (i : Fin 3) (v : Word) (s : State),
    s.Canonical → s.Accepts a (pDIG i.val) DIG_CNT_CLR v → v.getLsbD 0 = true → 
    Completes (.digCntClr a i v) s fun t => (∀ n : Fin 16, t.rd (pDIG i.val) (DIN_CNT n.val) = 0) ∧ Frame (Offs (pDIG i.val) ((List.range 16).map DIN_CNT)) s s t) ∧
  (∀ (m : Fin 48) (s : State),
    s.Canonical → s.Sized → s.up.compute = true → (s.din m.val).pulsed = true → 
    Completes (.wettingPulseStart m) s fun t => (t.din m.val).wet = true ∧ Frame (Offs 0 []) { s with dins := t.dins } s t) ∧
  (∀ (m : Fin 48) (s : State),
    s.Canonical → s.Sized → 
    Completes (.wettingPulseEnd m) s fun t => (t.din m.val).wet = false ∧ Frame (Offs 0 []) { s with dins := t.dins } s t) ∧
  (∀ (clocks : Nat) (m : Fin 48) (rising : Bool) (s : State),
    s.Canonical → s.Sized → (s.advance clocks).up.compute = true → ((s.advance clocks).din m.val).comp ≠ rising → (s.advance clocks).chatterCounts m.val = true → 
    Completes (.comparatorTransition clocks m rising) s fun t => (t.din m.val).comp = rising ∧ (t.din m.val).trans = ((s.advance clocks).din m.val).trans + 1 ∧ Frame (Offs 0 []) { s.advance clocks with dins := t.dins } (s.advance clocks) t)

/-- A link-control flit carries the twin's credits and acknowledgement into the bridge; a heartbeat goes out with its sequence number at each 2 us of module time; a long TW frame is kept until its last flit; a good RSV flit in order joins its packet and frees its buffer; three causes take the link down, and it trains again; RETRAIN trains; a training with both lanes brings the link up with its delay. Concludes that exec answers the next state for: ctlFlitReceive, heartbeatSend, twFlitReceive, rsvFlitReceive, ctlFlitTimeout, badFlitLimit, laneLockLoss, twlRetrain, laneTrainingDone, twlCntClr. -/
def Obligations.PhoaskCommandsComplete : Prop :=
  (∀ (clocks : Nat) (br : Fin 3) (octets : List Nat) (s : State),
    s.Canonical → s.Sized → (s.advance clocks).brUp br.val = true → octets.length = 30 → nth octets 0 0 / 16 = 2 → (nth octets 1 0).testBit 4 = false → 
    Completes (.ctlFlitReceive clocks br octets) s fun t => (t.bridge br.val).acked = flitField octets 2 2 ∧ (t.bridge br.val).vcBack = (List.range 4).map (fun vc => flitField octets (4 + 2 * vc) 2) ∧
      Frame (Offs (pBR br.val) [BR_CRED, BR_STAT]) { s.advance clocks with bridges := t.bridges, out := t.out } (s.advance clocks) t) ∧
  (∀ (slot : Fin 64) (u : State) (s : State),
    s.Canonical → u = (s.advanceTo (max s.phoask.hbNext ((s.nowQ + 7999) / 8000) * 8000)).advance slot.val → s.phoaskUp = true → s.timeRuns = true → 
    Completes (.heartbeatSend slot) s fun t => t.out = u.out ++ [.ctl 2 (u.heartbeat u.nowQ)] ∧ t.phoask = { s.phoask with hbSeq := (s.phoask.hbSeq + 1) % 16, hbNext := max s.phoask.hbNext ((s.nowQ + 7999) / 8000) + 1 } ∧
      (t.bridge 2).nak = false ∧ Frame (Offs 0 []) { u with out := t.out, phoask := t.phoask, bridges := t.bridges } u t) ∧
  (∀ (clocks : Nat) (ty : Fin 16) (octets : List Nat) (s : State),
    s.Canonical → (s.advance clocks).phoaskUp = true → ty.val = 2 ∨ ty.val = 6 → octets.length = 30 → 28 < flitField octets 0 2 → 
    Completes (.twFlitReceive clocks ty octets true) s fun t => t.phoask.tw = setNth s.phoask.tw (ty.val / 4) (some (flitField octets 0 2, (s.advance clocks).tb.clocks, octets.drop 2)) ∧ Frame (Offs 0 []) { s.advance clocks with phoask := t.phoask } (s.advance clocks) t) ∧
  (∀ (clocks : Nat) (br : Fin 3) (ty : Fin 16) (order : Nat) (octets : List Nat) (s : State),
    s.Canonical → s.Sized → (s.advance clocks).brUp br.val = true → 8 ≤ ty.val ∧ ty.val < 12 → octets.length = 30 → order % 65536 = ((s.advance clocks).bridge br.val).good → 26 < flitField octets 2 2 → 
    Completes (.rsvFlitReceive clocks br ty order octets true) s fun t => (t.bridge br.val).good = (((s.advance clocks).bridge br.val).good + 1) % 65536 ∧ (t.bridge br.val).nak = false ∧
      (t.bridge br.val).part = setNth ((s.advance clocks).bridge br.val).part (ty.val % 4) octets ∧ Frame (Offs 0 []) { s.advance clocks with bridges := t.bridges } (s.advance clocks) t) ∧
  (∀ (clocks : Nat) (s : State),
    s.Canonical → (s.advance clocks).phoaskUp = true → (s.advance clocks).twlEnabled = true → 
    Completes (.ctlFlitTimeout clocks) s fun t => t.get pTWL TWL_STAT_ST = 1 ∧ t.get pTWL TWL_STAT_LANES = 0 ∧ t.Irq pTWL INT_TWL_DOWN ∧ t.Posted pTWL 0x7216 0 ∧ t.on pTBR BR_STAT_UP = false) ∧
  (∀ (clocks : Nat) (s : State),
    s.Canonical → (s.advance clocks).phoaskUp = true → (s.advance clocks).twlEnabled = true → 
    Completes (.badFlitLimit clocks) s fun t => t.get pTWL TWL_STAT_ST = 1 ∧ t.get pTWL TWL_STAT_LANES = 0 ∧ t.Irq pTWL INT_TWL_DOWN ∧ t.Posted pTWL 0x7216 0 ∧ t.on pTBR BR_STAT_UP = false) ∧
  (∀ (clocks : Nat) (s : State),
    s.Canonical → (s.advance clocks).phoaskUp = true → (s.advance clocks).twlEnabled = true → 
    Completes (.laneLockLoss clocks) s fun t => t.get pTWL TWL_STAT_ST = 1 ∧ t.get pTWL TWL_STAT_LANES = 0 ∧ t.Irq pTWL INT_TWL_DOWN ∧ t.Posted pTWL 0x7216 0 ∧ t.on pTBR BR_STAT_UP = false) ∧
  (∀ (a : Access) (v : Word) (s : State),
    s.Canonical → s.Accepts a pTWL TWL_CTRL v → v.getLsbD 2 = true → v.getLsbD 0 = true → s.on pTWL BLK_CTRL_EN = true → 
    Completes (.twlRetrain a v) s fun t => t.get pTWL TWL_STAT_ST = 1 ∧ t.on pTWL TWL_CTRL_EN = true ∧ t.on pTWL TWL_CTRL_SINGLE_OK = v.getLsbD 1) ∧
  (∀ (clocks : Nat) (lanes : Fin 4) (delay : Nat) (s : State),
    s.Canonical → (s.advance clocks).twlEnabled = true → (s.advance clocks).get pTWL TWL_STAT_ST = 1 → lanes.val = 3 → 
    Completes (.laneTrainingDone clocks lanes delay) s fun t => t.get pTWL TWL_STAT_ST = 2 ∧ t.get pTWL TWL_STAT_LANES = 3 ∧ t.Irq pTWL INT_TWL_UP ∧ t.rd pTMB TMB_TWIN_DLY = BitVec.ofNat 32 delay) ∧
  (∀ (a : Access) (v : Word) (s : State),
    s.Canonical → s.Accepts a pTWL TWL_CNT_CLR v → v.getLsbD 0 = true → 
    Completes (.twlCntClr a v) s fun t => t.rd pTWL TWL_CNT_CRC = 0 ∧ t.rd pTWL TWL_CNT_TWDROP = 0 ∧ t.rd pTWL TWL_CNT_TRAIN = 0 ∧ Frame (Offs pTWL [TWL_CNT_CRC, TWL_CNT_TWDROP, TWL_CNT_TRAIN]) s s t)

/-- A request is served and its completion sent with its status and data; a completion ends the window access of its tag with RESULT 0 and frees the tag; a failed posted write is reported; a request that gets no completion ends with RESULT 2, its tag retired; a peer goes down and comes up; GO sends the window access with a tag; bulk windows are written; the counters are cleared. Concludes that exec answers the next state for: readRequest, writeRequest, readCompletion, writeCompletion, postedWriteErrorNotice, bridgeRequestTimeout, dieBridgePeerTimeout, bridgeUp, tbrRead, tbrWrite, bulkWindowWrite, brCntClr. -/
def Obligations.BridgeCommandsComplete : Prop :=
  (∀ (clocks : Nat) (br : Fin 3) (r : BridgeRequest) (st : Nat) (s : State),
    s.Canonical → (s.advance clocks).brUp br.val = true → ((s.advance clocks).serveFor br.val r none).2 = st → 
    Completes (.readRequest clocks br r) s fun t => t = ((s.advance clocks).serveFor br.val r none).1.sendRsv br.val 1 3 (st :: bytesBE 4 (if st = 0 then ((s.advance clocks).serveFor br.val r none).1.resp.data else 0)) false r.tag.val) ∧
  (∀ (clocks : Nat) (br : Fin 3) (r : BridgeRequest) (posted : Bool) (data : Word) (st : Nat) (s : State),
    s.Canonical → (s.advance clocks).brUp br.val = true → ((s.advance clocks).serveFor br.val r (some data)).2 = st → 
    Completes (.writeRequest clocks br r posted data) s fun t => (posted = false → t = ((s.advance clocks).serveFor br.val r (some data)).1.sendRsv br.val 1 4 [st] false r.tag.val) ∧
      (posted = true → st = 0 → t = ((s.advance clocks).serveFor br.val r (some data)).1) ∧
      (posted = true → st ≠ 0 → t = ((s.advance clocks).serveFor br.val r (some data)).1.sendRsv br.val 1 5 (st :: bytesBE 5 r.addr))) ∧
  (∀ (clocks : Nat) (tag : Fin 64) (data : Word) (addr : Nat) (s : State),
    s.Canonical → s.Sized → (s.advance clocks).brUp 2 = true → (tag.val, addr) ∈ ((s.advance clocks).bridge 2).tags → s.phoask.winWait = false → 
    Completes (.readCompletion clocks 2 tag 0 data) s fun t => t.rd pTBR TBR_RDATA = data ∧ t.on pTBR TBR_CMD_BUSY = false ∧ t.get pTBR TBR_CMD_RESULT = 0 ∧ t.Irq pTBR INT_BR_WIN_DONE ∧
      (t.bridge 2).tags = ((s.advance clocks).bridge 2).tags.filter (fun e => e.1 != tag.val) ∧
      Frame (Offs pTBR [TBR_RDATA, TBR_CMD, BR_CRED, BR_STAT, INT_RAW]) { s.advance clocks with bridges := t.bridges, phoask := t.phoask } (s.advance clocks) t) ∧
  (∀ (clocks : Nat) (tag : Fin 64) (addr : Nat) (s : State),
    s.Canonical → s.Sized → (s.advance clocks).brUp 2 = true → (tag.val, addr) ∈ ((s.advance clocks).bridge 2).tags → s.phoask.winWait = false → 
    Completes (.writeCompletion clocks 2 tag 0) s fun t => t.on pTBR TBR_CMD_BUSY = false ∧ t.get pTBR TBR_CMD_RESULT = 0 ∧ t.Irq pTBR INT_BR_WIN_DONE ∧
      (t.bridge 2).tags = ((s.advance clocks).bridge 2).tags.filter (fun e => e.1 != tag.val) ∧
      Frame (Offs pTBR [TBR_CMD, BR_CRED, BR_STAT, INT_RAW]) { s.advance clocks with bridges := t.bridges, phoask := t.phoask } (s.advance clocks) t) ∧
  (∀ (clocks : Nat) (br : Fin 3) (status addr : Nat) (s : State),
    s.Canonical → (s.advance clocks).brUp br.val = true → 
    Completes (.postedWriteErrorNotice clocks br status addr) s fun t => t.Irq (pBR br.val) INT_BR_PERR ∧ t.Posted (pBR br.val) (if br.val < 2 then 0x0232 else 0x7219) addr ∧
      Frame (Offs (pBR br.val) ([BR_CNT_PERR, BR_PERR_ADDR, BR_PERR_INFO] ++ errRegs)) { s.advance clocks with posts := t.posts } (s.advance clocks) t) ∧
  (∀ (clocks : Nat) (tag : Fin 64) (addr : Nat) (s : State),
    s.Canonical → s.Sized → (s.advance clocks).brUp 2 = true → ((s.advance clocks).bridge 2).tags = [(tag.val, addr)] → 
    Completes (.bridgeRequestTimeout clocks 2 tag addr) s fun t => t.on pTBR TBR_CMD_BUSY = false ∧ t.get pTBR TBR_CMD_RESULT = 2 ∧ t.Irq pTBR INT_BR_TMO ∧ t.Posted pTBR 0x721A addr ∧ tag.val ∈ (t.bridge 2).retired ∧ (t.bridge 2).tags = [] ∧
      Frame (Offs pTBR ([TBR_CMD, BR_CRED, BR_STAT, BR_CNT_TMO] ++ errRegs)) { s.advance clocks with bridges := t.bridges, phoask := t.phoask, posts := t.posts } (s.advance clocks) t) ∧
  (∀ (clocks : Nat) (die : Fin 2) (s : State),
    s.Canonical → (s.advance clocks).up.compute = true → (s.advance clocks).on (pDBR die.val) BR_STAT_UP = true → 
    Completes (.dieBridgePeerTimeout clocks die) s fun t => t.on (pDBR die.val) BR_STAT_UP = false ∧ t.on (pDBR die.val) BR_STAT_PEER_DOWN = true ∧ t.Irq (pDBR die.val) INT_BR_PEER_DOWN ∧ t.Posted (pDBR die.val) 0x0233 0) ∧
  (∀ (clocks : Nat) (br : Fin 3) (s : State),
    s.Canonical → s.Sized → (s.advance clocks).brLink br.val = true → (s.advance clocks).on (pBR br.val) BR_STAT_UP = false → 
    Completes (.bridgeUp clocks br) s fun t => t.on (pBR br.val) BR_STAT_UP = true ∧ t.on (pBR br.val) BR_STAT_PEER_DOWN = false ∧ t.Irq (pBR br.val) INT_BR_PEER_UP ∧ t.bridge br.val = BridgeState.init) ∧
  (∀ (a : Access) (v : Word) (n : Nat) (s : State),
    s.Canonical → s.Sized → s.Accepts a pTBR TBR_CMD v → v.getLsbD 16 = true → bitsOf v.toNat 0 2 = 1 → s.on pTBR TBR_CMD_BUSY = false → s.brUp 2 = true → s.freeTag 2 = some n → 
    Completes (.tbrRead a v) s fun t => t.on pTBR TBR_CMD_BUSY = true ∧ t.get pTBR TBR_CMD_RESULT = 0 ∧ (n, s.windowAddr) ∈ (t.bridge 2).tags ∧
      Frame (Offs pTBR [TBR_CMD, BR_CRED, BR_STAT]) { s with bridges := t.bridges, phoask := t.phoask, out := t.out } s t) ∧
  (∀ (a : Access) (v : Word) (s : State),
    s.Canonical → s.Accepts a pTBR TBR_CMD v → v.getLsbD 16 = true → s.on pTBR TBR_CMD_BUSY = true → 
    Completes (.tbrRead a v) s fun t => t.resp = ⟨.error, 0⟩ ∧ t.Posted pTBR 0x7010 (s.windowAddr % 2 ^ 32) ∧ t.rd pTBR TBR_CMD = s.rd pTBR TBR_CMD ∧
      Frame (Offs pTBR errRegs) { s with posts := t.posts } s t) ∧
  (∀ (a : Access) (v : Word) (n : Nat) (s : State),
    s.Canonical → s.Sized → s.Accepts a pTBR TBR_CMD v → v.getLsbD 16 = true → bitsOf v.toNat 0 2 = 2 → s.on pTBR TBR_CMD_BUSY = false → s.brUp 2 = true → s.inBulk 2 s.windowAddr = false → s.freeTag 2 = some n → 
    Completes (.tbrWrite a v) s fun t => t.on pTBR TBR_CMD_BUSY = true ∧ t.get pTBR TBR_CMD_RESULT = 0 ∧ (n, s.windowAddr) ∈ (t.bridge 2).tags ∧
      Frame (Offs pTBR [TBR_CMD, BR_CRED, BR_STAT]) { s with bridges := t.bridges, phoask := t.phoask, out := t.out } s t) ∧
  (∀ (a : Access) (br : Fin 3) (w : Fin 8) (reg : Fin 3) (v : Word) (s : State),
    s.Canonical → s.Accepts a (pBR br.val) (bulkOff w.val reg.val) v → 
    Completes (.bulkWindowWrite a br w reg v) s fun t => (reg.val = 0 → t.get (pBR br.val) (BULK_BASE_LO_ADDR w.val) = bitsOf v.toNat 12 20) ∧ (reg.val = 1 → t.get (pBR br.val) (BULK_BASE_HI_ADDR w.val) = bitsOf v.toNat 0 4) ∧
      (reg.val = 2 → t.get (pBR br.val) (BULK_SIZE_PAGES w.val) = bitsOf v.toNat 0 16) ∧ Frame (Offs (pBR br.val) [bulkOff w.val reg.val]) s s t) ∧
  (∀ (a : Access) (br : Fin 3) (v : Word) (s : State),
    s.Canonical → s.Accepts a (pBR br.val) BR_CNT_CLR v → v.getLsbD 0 = true → 
    Completes (.brCntClr a br v) s fun t => t.rd (pBR br.val) BR_CNT_PERR = 0 ∧ t.rd (pBR br.val) BR_CNT_TMO = 0 ∧ t.rd (pBR br.val) BR_CNT_LATE = 0 ∧ t.rd (pBR br.val) BR_CNT_REPLAY = 0 ∧
      Frame (Offs (pBR br.val) [BR_CNT_PERR, BR_CNT_TMO, BR_CNT_LATE, BR_CNT_REPLAY, BR_PERR_ADDR, BR_PERR_INFO]) s s t)

/-- A pairing packet of a twin of the same variant with the lower identity leads from PAIRING to REJOIN on side 1; PAIR_TMO without link and peer, a lost twin, the end of a back-off and a silent peer lead to CLAIMING or HS_ALONE as Table 10-7 says; the claim sample and the override take the Headstock role, a contention backs off; HANDOVER and the end of a rejoin name the second boundary after now. Concludes that exec answers the next state for: pairingPacketSend, pairingPacket, pairTimeout, twinPeerChange, twinLossDeclare, claimSample, claimOverride, claimContention, claimBackoffEnd, tsAlonePeerTimeout, handover, handoverPacket, rejoinEnd, rejoinTimeout. -/
def Obligations.TwinRoleCommandsComplete : Prop :=
  (∀ (clocks : Nat) (s : State),
    s.Canonical → (s.advance clocks).role = rPAIRING → (s.advance clocks).phoaskUp = true → s.twin.gotPair = false → 
    Completes (.pairingPacketSend clocks) s fun t => t = (s.advance clocks).sendPairing) ∧
  (∀ (clocks : Nat) (p : PairPacket) (s : State),
    s.Canonical → (s.advance clocks).brUp 2 = true → (s.advance clocks).role = rPAIRING → p.variant = s.variantCode → p.revision = 0xB0 → p.role = rPAIRING → p.identity % 2 ^ 128 ≤ s.identityNat → 
    Completes (.pairingPacket clocks p) s fun t => t.get pTWR BLK_STAT_STATE = rREJOIN ∧ t.Irq pTWR INT_TWR_PAIRED ∧ t.get pTWR TWR_STAT_SIDE = 1 ∧ t.twin.sideSet = true ∧ t.get pTWR TWR_DUAL_A = ((s.advance clocks).ownDual 0 &&& p.dualA) % 2 ^ 16) ∧
  (∀ (clocks : Nat) (s : State),
    s.Canonical → (s.advance clocks).roleRuns = true → (s.advance clocks).role = rUNPAIRED → (s.advance clocks).phoaskUp = false → s.twin.backoff = false → (s.advance clocks).peerAsserted = false → 
    Completes (.pairTimeout clocks) s fun t => t.get pTWR BLK_STAT_STATE = rCLAIMING ∧ t.twin.origin = rUNPAIRED) ∧
  (∀ (clocks : Nat) (asserted : Bool) (s : State),
    s.Canonical → (s.advance clocks).dieUp 0 = true → 
    Completes (.twinPeerChange clocks asserted) s fun t => t.on pTWR TWR_STAT_PEER = asserted ∧ (asserted = true → t.twin.peerAt = (s.advance clocks).tb.clocks) ∧ Frame (Offs pTWR [TWR_STAT]) { s.advance clocks with twin := t.twin } (s.advance clocks) t) ∧
  (∀ (clocks : Nat) (s : State),
    s.Canonical → (s.advance clocks).hbLate = true → (s.advance clocks).aliveLate = true → (s.advance clocks).role = rHEADSTOCK → 
    Completes (.twinLossDeclare clocks) s fun t => t.get pTWR BLK_STAT_STATE = rHS_ALONE ∧ t.Posted pTWR 0x7222 0) ∧
  (∀ (clocks : Nat) (s : State),
    s.Canonical → (s.advance clocks).role = rCLAIMING → s.twin.claimAt.isSome = true → (s.advance clocks).peerAsserted = false → s.twin.origin = rUNPAIRED → 
    Completes (.claimSample clocks) s fun t => t.get pTWR BLK_STAT_STATE = rHS_ALONE ∧ t.Irq pTWR INT_TWR_ROLE ∧ t.twin.claimAt = none) ∧
  (∀ (clocks : Nat) (s : State),
    s.Canonical → (s.advance clocks).role = rCLAIMING → (s.advance clocks).peerAsserted = true → (s.advance clocks).on pTWR TWR_CTRL_OVR_EN = true → 
    Completes (.claimOverride clocks) s fun t => t.get pTWR BLK_STAT_STATE = rHS_ALONE ∧ t.Irq pTWR INT_TWR_OVERRIDE ∧ t.Posted pTWR 0x7218 0) ∧
  (∀ (clocks n : Nat) (s : State),
    s.Canonical → (s.advance clocks).role = rCLAIMING → s.twin.claimAt = some n → (s.advance clocks).on pTWR TWR_STAT_PEER = true → n ≤ s.twin.peerAt → s.twin.peerAt ≤ n + 1000 → 
    Completes (.claimContention clocks) s fun t => t.get pTWR BLK_STAT_STATE = rUNPAIRED ∧ t.twin.backoff = true ∧ t.twin.attempt = s.twin.attempt + 1 ∧ t.claim = false) ∧
  (∀ (s : State),
    s.Canonical → s.twin.backoff = true → s.roleRuns = true → s.role = rUNPAIRED → s.peerAsserted = false → 
    Completes (.claimBackoffEnd) s fun t => t.get pTWR BLK_STAT_STATE = rCLAIMING ∧ t.twin.origin = rUNPAIRED ∧ t.tb.clocks = s.tb.clocks + s.backoffClocks (s.twin.attempt - 1)) ∧
  (∀ (clocks : Nat) (s : State),
    s.Canonical → (s.advance clocks).role = rTS_ALONE → (s.advance clocks).peerAsserted = false → 
    Completes (.tsAlonePeerTimeout clocks) s fun t => t.get pTWR BLK_STAT_STATE = rCLAIMING ∧ t.twin.origin = rTS_ALONE) ∧
  (∀ (a : Access) (v : Word) (s : State),
    s.Canonical → s.Accepts a pTWR TWR_CTRL v → v.getLsbD 1 = true → v.getLsbD 0 = true → s.role = rHEADSTOCK → 
    Completes (.handover a v) s fun t => t.twin.roleAt = some (((s.rd pIXP IXP_CYC).toNat + 2) % 2 ^ 32, false) ∧ t.get pTWR BLK_STAT_STATE = rHEADSTOCK) ∧
  (∀ (clocks cycle : Nat) (rejoinEnds : Bool) (s : State),
    s.Canonical → (s.advance clocks).brUp 2 = true → (s.advance clocks).role = (if rejoinEnds then rREJOIN else rTAILSTOCK) → 
    Completes (.handoverPacket clocks cycle rejoinEnds) s fun t => t.twin.roleAt = some (cycle % 2 ^ 32, rejoinEnds) ∧ Frame (Offs 0 []) { s.advance clocks with twin := t.twin } (s.advance clocks) t) ∧
  (∀ (s : State),
    s.Canonical → s.role = rHS_ALONE → s.twin.copying = true → s.twin.roleAt = none → s.brUp 2 = true → (s.bridge 2).waiting.all (fun w => w.1 != 3) = true → (s.bridge 2).acked = (s.bridge 2).sent → 
    Completes (.rejoinEnd) s fun t => t.twin.roleAt = some (((s.rd pIXP IXP_CYC).toNat + 2) % 2 ^ 32, true)) ∧
  (∀ (clocks : Nat) (s : State),
    s.Canonical → (s.advance clocks).role = rHS_ALONE → s.twin.rejoining = true → 
    Completes (.rejoinTimeout clocks) s fun t => t.twin.rejoining = false ∧ t.twin.copying = false ∧ Frame (Offs 0 []) { s.advance clocks with twin := t.twin } (s.advance clocks) t)

/-- The twin's input image is written beside the own one with its status, a late one marks it stale; the Headstock's output image combines with the own one into PDC_OUT_IMG, and the own one stands when it is cut; pieces of the rejoin copy go out and are stored; ALIVE frames go out and are counted; KEEP is repeated; software commands of TWC end with their RESULT; the counters are cleared. Concludes that exec answers the next state for: inputImagePacket, twinImageLate, outputImagePacket, outputImageCut, rejoinCopy, checkpointMirrorPacket, aliveSend, aliveReceive, aliveTimeout, keepRepeat, twrTwcCmd, twcReplyTimeout, twcStatusReply, twrCntClr. -/
def Obligations.TwinTrafficCommandsComplete : Prop :=
  (∀ (clocks : Nat) (octets : List Nat) (s : State),
    s.Canonical → (s.advance clocks).exchanging = true → s.twin.imgDue.isSome = true → octets.length = 64 → 
    Completes (.inputImagePacket clocks octets) s fun t => t.twin.imgDue = none ∧ t.twin.imgStatus = 1 + 2 * (1 - s.side) + 0x10000 * ofBytesLE (octets.take 2) ∧ t.mem = (((s.advance clocks).toCores 0x40 octets).toCores 0x80 (bytesLE 4 t.twin.imgStatus)).mem ∧ Frame (Offs 0 []) { s.advance clocks with twin := t.twin, mem := t.mem } (s.advance clocks) t) ∧
  (∀ (clocks : Nat) (s : State),
    s.Canonical → (s.advance clocks).exchanging = true → s.twin.imgDue.isSome = true → 
    Completes (.twinImageLate clocks) s fun t => t.twin.imgDue = none ∧ t.twin.imgStatus.testBit 0 = false ∧ Frame (Offs pTWR (TWR_IMG :: errRegs)) { s.advance clocks with twin := t.twin, mem := t.mem, posts := t.posts } (s.advance clocks) t) ∧
  (∀ (clocks cycle pos imgA imgB : Nat) (o : OutImage) (s : State),
    s.Canonical → s.Sized → (s.advance clocks).role = rTAILSTOCK → (s.advance clocks).exchanging = true → s.twin.ownImg = some o → o.cycle = cycle % 0x10000 → o.pos = pos % 64 → (s.advance clocks).dieUp 0 = true → 
    Completes (.outputImagePacket clocks cycle pos imgA imgB) s fun t => t.get (pPDC 0) PDC_OUT_IMG_IMG = combineImg o.a (imgA % 0x10000) (s.dualMask 0) % 2 ^ 16 ∧ t.twin.ownImg = none ∧ t.twin.hsImg = none ∧
      RegFrame (fun addr => Offs pTWR (TWR_CMP :: errRegs) addr ∨ Regs [pPDC 0 + PDC_OUT_IMG, pPDC 1 + PDC_OUT_IMG] addr) s t) ∧
  (∀ (clocks : Nat) (s : State),
    s.Canonical → (s.advance clocks).role = rTAILSTOCK → s.twin.ownImg.isSome = true → 
    Completes (.outputImageCut clocks) s fun t => t.twin.ownImg = none ∧ t.Irq pTWR INT_TWR_IMG_MISS ∧ Frame (Offs pTWR (TWR_CMP :: errRegs)) { s.advance clocks with twin := t.twin, posts := t.posts } (s.advance clocks) t) ∧
  (∀ (area : Fin 4) (off len : Nat) (s : State),
    s.Canonical → s.role = rHS_ALONE → s.twin.rejoining = true → s.brUp 2 = true → 4 ≤ len ∧ len ≤ 256 → off + len ≤ (s.mirrorArea area.val).2 → 
    Completes (.rejoinCopy area off len) s fun t => t = (s.modTwin fun z => { z with copying := true }).sendMirror area.val off (s.bytes ((s.mirrorArea area.val).1 + off) len)) ∧
  (∀ (clocks : Nat) (area : Fin 4) (off : Nat) (data : List Nat) (s : State),
    s.Canonical → (s.advance clocks).role = rREJOIN → (s.advance clocks).brUp 2 = true → off + data.length ≤ ((s.advance clocks).mirrorArea area.val).2 → area.val < 2 → 
    Completes (.checkpointMirrorPacket clocks area off data) s fun t => t.mem = (((s.advance clocks).setBytes (((s.advance clocks).mirrorArea area.val).1 + off) data).setBytes (((s.advance clocks).mirrorArea area.val).1 + 0x20000 + off) data).mem ∧ Frame (Offs 0 []) { s.advance clocks with mem := t.mem } (s.advance clocks) t) ∧
  (∀ (clocks d : Nat) (s : State),
    s.Canonical → (s.advance clocks).role = rHEADSTOCK → (s.advance clocks).twcDie = some d → 
    Completes (.aliveSend clocks) s fun t => t.out = s.out ++ [.twc true d (twcSeal [s.twcHead 0 9])] ∧ Frame (Offs 0 []) { s.advance clocks with out := t.out } (s.advance clocks) t) ∧
  (∀ (clocks : Nat) (octets : List Nat) (s : State),
    s.Canonical → twcGood octets = true → twcCmd octets = 9 → (s.advance clocks).twcMine octets = true → (s.advance clocks).role ≠ rCLAIMING → 
    Completes (.aliveReceive clocks octets) s fun t => t.phoask.aliveAt = (s.advance clocks).tb.clocks ∧ t.phoask.aliveLost = false ∧ Frame (Offs pTWR [TWR_TWC]) { s.advance clocks with phoask := t.phoask } (s.advance clocks) t) ∧
  (∀ (clocks : Nat) (s : State),
    s.Canonical → (s.advance clocks).role = rHEADSTOCK → (s.advance clocks).aliveLate = true → (s.advance clocks).hbLate = false → s.phoask.aliveLost = false → 
    Completes (.aliveTimeout clocks) s fun t => t.phoask.aliveLost = true ∧ t.Posted pTWR 0x7221 0 ∧ Frame (Offs pTWR errRegs) { s.advance clocks with phoask := t.phoask, posts := t.posts } (s.advance clocks) t) ∧
  (∀ (clocks d : Nat) (s : State),
    s.Canonical → s.twin.control = true → (s.advance clocks).role = rHS_ALONE → (s.advance clocks).twcDie = some d → 
    Completes (.keepRepeat clocks) s fun t => t.twin.seq = (s.twin.seq + 1) % 256 ∧ t.out = s.out ++ [.twc true d (twcSeal [s.twcHead 3 2, t.twin.seq])] ∧ Frame (Offs 0 []) { s.advance clocks with out := t.out, twin := t.twin } (s.advance clocks) t) ∧
  (∀ (a : Access) (v : Word) (d : Nat) (s : State),
    s.Canonical → s.Accepts a pTWR TWR_TWC_CMD v → v.getLsbD 16 = true → s.on pTWR TWR_TWC_CMD_BUSY = false → s.role = rHS_ALONE → s.twin.rejoining = false → bitsOf v.toNat 0 4 = 2 → bitsOf v.toNat 4 2 ≠ 0 → s.twcDie = some d → 
    Completes (.twrTwcCmd a v) s fun t => t.out = s.out ++ [.twc true d (twcSeal [s.twcHead (bitsOf v.toNat 4 2) 2, t.twin.seq])] ∧ t.twin.seq = (s.twin.seq + 1) % 256 ∧ t.get pTWR TWR_TWC_CMD_RESULT = 1 ∧ t.on pTWR TWR_TWC_CMD_BUSY = false ∧
      t.Irq pTWR INT_TWR_TWC_DONE ∧ Frame (Offs pTWR [TWR_TWC_CMD, INT_RAW]) { s with out := t.out, twin := t.twin } s t) ∧
  (∀ (a : Access) (v : Word) (s : State),
    s.Canonical → s.Accepts a pTWR TWR_TWC_CMD v → v.getLsbD 16 = true → s.on pTWR TWR_TWC_CMD_BUSY = false → s.role ≠ rHS_ALONE ∨ s.twin.rejoining = true → 
    Completes (.twrTwcCmd a v) s fun t => t.get pTWR TWR_TWC_CMD_RESULT = 2 ∧ t.on pTWR TWR_TWC_CMD_BUSY = false ∧ t.Irq pTWR INT_TWR_TWC_DONE ∧ t.out = s.out ∧
      Frame (Offs pTWR [TWR_TWC_CMD, INT_RAW]) { s with twin := t.twin } s t) ∧
  (∀ (clocks : Nat) (s : State),
    s.Canonical → (s.advance clocks).on pTWR TWR_TWC_CMD_BUSY = true → 
    Completes (.twcReplyTimeout clocks) s fun t => t.on pTWR TWR_TWC_CMD_BUSY = false ∧ t.get pTWR TWR_TWC_CMD_RESULT = 3 ∧ t.Irq pTWR INT_TWR_TWC_DONE ∧ t.twin.want = none ∧ Frame (Offs pTWR [TWR_TWC_CMD, INT_RAW]) { s.advance clocks with twin := t.twin } (s.advance clocks) t) ∧
  (∀ (clocks : Nat) (octets : List Nat) (s : State),
    s.Canonical → twcGood octets = true → twcCmd octets = 8 → (s.advance clocks).twcMine octets = true → s.twin.want = some (nth octets 1 0) → 
    Completes (.twcStatusReply clocks (.receive octets)) s fun t => t.rd pTWR (TWR_TWC_RSP 0) = BitVec.ofNat 32 (ofBytesBE ((octets.drop 2).take 4)) ∧ t.on pTWR TWR_TWC_CMD_BUSY = false ∧ t.get pTWR TWR_TWC_CMD_RESULT = 1 ∧ t.Irq pTWR INT_TWR_TWC_DONE ∧ Frame (Offs pTWR [TWR_TWC_RSP 0, TWR_TWC_RSP 1, TWR_TWC_RSP 2, TWR_TWC_CMD, INT_RAW]) { s.advance clocks with twin := t.twin } (s.advance clocks) t) ∧
  (∀ (a : Access) (v : Word) (s : State),
    s.Canonical → s.Accepts a pTWR TWR_CNT_CLR v → v.getLsbD 0 = true → 
    Completes (.twrCntClr a v) s fun t => t.rd pTWR TWR_CMP = 0 ∧ t.rd pTWR TWR_IMG = 0 ∧ t.rd pTWR TWR_TAKE = 0 ∧ t.rd pTWR TWR_TWC = 0 ∧ Frame (Offs pTWR [TWR_CMP, TWR_IMG, TWR_TAKE, TWR_TWC]) s s t)

/-- GO starts a sender with every page of the VM or a receiver that waits; FINAL takes a copying sender into its final round; ABORT ends a migration with code 0x721E; a page is written through the VM's own tables; the final end ends the receiver; a round that is sent advances the round number, and the final one ends the migration. Concludes that exec answers the next state for: migGo, migFinal, migAbort, migrationPage, migrationControl, migRoundDone. -/
def Obligations.MigrationCommandsComplete : Prop :=
  (∀ (a : Access) (v : Word) (s : State),
    s.Canonical → s.Accepts a pMIG MIG_CTRL v → bitsOf v.toNat 8 3 = 1 → v.getLsbD 4 = true → s.migRuns = false → s.brUp 2 = true → 
    Completes (.migGo a v) s fun t => t.get pMIG MIG_STAT_ST = 1 ∧ t.get pMIG MIG_STAT_ROUND = 0 ∧ t.mig = MigState.init ∧ Frame (Offs pMIG [MIG_CTRL, MIG_STAT]) { s with mig := t.mig } s t) ∧
  (∀ (a : Access) (v : Word) (s : State),
    s.Canonical → s.Accepts a pMIG MIG_CTRL v → bitsOf v.toNat 8 3 = 1 → v.getLsbD 4 = false → s.migRuns = false → s.brUp 2 = true → 
    Completes (.migGo a v) s fun t => t.get pMIG MIG_STAT_ST = 1 ∧ t.get pMIG MIG_STAT_ROUND = 0 ∧ t.mig.todo = ((s.leaves (bitsOf v.toNat 0 4)).map Leaf.pages).flatten) ∧
  (∀ (a : Access) (v : Word) (s : State),
    s.Canonical → s.Accepts a pMIG MIG_CTRL v → bitsOf v.toNat 8 3 = 2 → v.getLsbD 4 = false → s.get pMIG MIG_STAT_ST = 1 → 
    Completes (.migFinal a v) s fun t => t.get pMIG MIG_STAT_ST = 2) ∧
  (∀ (a : Access) (v : Word) (s : State),
    s.Canonical → s.Accepts a pMIG MIG_CTRL v → bitsOf v.toNat 8 3 = 4 → s.migRuns = true → 
    Completes (.migAbort a v) s fun t => t.get pMIG MIG_STAT_ST = 4 ∧ t.Irq pMIG INT_MIG_ABORTED ∧ t.Posted pMIG 0x721E 0 ∧ t.mig = MigState.init) ∧
  (∀ (clocks ipa : Nat) (vmNo : Fin 16) (data : List Nat) (pa : Nat) (x y z : Nat) (s2 s3 : State) (s : State),
    s.Canonical → (s.advance clocks).migRuns = true → (s.advance clocks).on pMIG MIG_CTRL_DIR = true → (s.advance clocks).brUp 2 = true → data.length = 0x1000 → (s.advance clocks).translate 16 (.vm ((s.advance clocks).get pMIG MIG_CTRL_VM)) .write ipa = (s2, .ok pa x y z) → s2.ramWrite 2 false pa data = (s3, true) → 
    Completes (.migrationPage clocks ipa vmNo data) s fun t => t = { s3 with mig.written := s3.mig.written ++ [pa / 0x1000] }) ∧
  (∀ (clocks op round pages : Nat) (s : State),
    s.Canonical → op = 3 → (s.advance clocks).migRuns = true → (s.advance clocks).on pMIG MIG_CTRL_DIR = true → (s.advance clocks).brUp 2 = true → 
    Completes (.migrationControl clocks op round pages) s fun t => t.get pMIG MIG_STAT_ST = 3 ∧ t.Irq pMIG INT_MIG_DONE ∧ t.mig = MigState.init ∧ Frame (Offs pMIG [MIG_STAT, INT_RAW]) { s.advance clocks with mig := t.mig } (s.advance clocks) t) ∧
  (∀ (clocks : Nat) (s2 : State) (s : State),
    s.Canonical → (s.advance clocks).migRuns = true → (s.advance clocks).on pMIG MIG_CTRL_DIR = false → (s.advance clocks).brUp 2 = true → State.sendPages ((s.advance clocks).get pMIG MIG_CTRL_VM) (s.advance clocks).mig.todo (s.advance clocks) = (s2, true) → s2.get pMIG MIG_STAT_ST = 2 → 
    Completes (.migRoundDone clocks) s fun t => t.get pMIG MIG_STAT_ST = 3 ∧ t.Irq pMIG INT_MIG_DONE ∧ t.mig = MigState.init) ∧
  (∀ (clocks : Nat) (s2 : State) (s : State),
    s.Canonical → (s.advance clocks).migRuns = true → (s.advance clocks).on pMIG MIG_CTRL_DIR = false → (s.advance clocks).brUp 2 = true → State.sendPages ((s.advance clocks).get pMIG MIG_CTRL_VM) (s.advance clocks).mig.todo (s.advance clocks) = (s2, true) → s2.get pMIG MIG_STAT_ST = 1 → 
    Completes (.migRoundDone clocks) s fun t => t.get pMIG MIG_STAT_ROUND = min 255 ((s.advance clocks).get pMIG MIG_STAT_ROUND + 1) ∧ t.Irq pMIG INT_MIG_ROUND_DONE ∧ t.get pMIG MIG_STAT_ST = 1)

/-- A store of the leading core takes an entry of the write-hold buffer for its word and memory is unchanged; a peripheral write takes an entry of its own; a load reads memory and no more; RS reads and atomics close the interval and wait; a barrier, the period, a full buffer and a read of a page with held writes ask for a checkpoint; a checkpoint that compares equal turns to the other slot and advances its sequence number. Concludes that exec answers the next state for: coreStore, peripheralWrite, coreLoad, rsRead, atomic, barrier, peripheralReadCheckpoint, checkpointPeriod, writeHoldHigh, checkpoint, releasedWriteError, speculativeLoadReissue. -/
def Obligations.CaliperAccessCommandsComplete : Prop :=
  (∀ (a : Access) (pair : Fin 6) (addr : Nat) (data : List Nat) (pa w : Nat) (s1 : State) (s : State),
    s.Canonical → s.Sized → s.ledBy pair.val a = true → data ≠ [] → s.reach a .write addr = (s1, some pa) → isPeriph pa = false → regionOf pa = .dram ∨ regionOf pa = .sram → s1.Sized → s1.Canonical → (s1.calOf pair.val).held = [] → wordsTouched pa data.length = [w] → 
    Completes (.coreStore a pair addr data) s fun t => (t.calOf pair.val).held = [.store a w (wordPart pa data w).1 (wordPart pa data w).2] ∧ t.resp = ⟨.ok, 0⟩ ∧ t.get (pCAL pair.val) CAL_WH_USED = 1 ∧ t.mem = s1.mem ∧
      Frame (Offs (pCAL pair.val) [CAL_WH]) { s1 with cal := t.cal } s1 t) ∧
  (∀ (a : Access) (pair : Fin 6) (addr : Nat) (v : Word) (pa : Nat) (s1 : State) (s : State),
    s.Canonical → s.Sized → s.ledBy pair.val a = true → a.size = 4 → s.reach a .write addr = (s1, some pa) → isPeriph pa = true → s1.Sized → s1.Canonical → (s1.calOf pair.val).held = [] → s1.on (pCAL pair.val) CAL_CTRL_PER_CKPT = false → 
    Completes (.peripheralWrite a pair addr v) s fun t => (t.calOf pair.val).held = [.periph a pa v] ∧ t.resp = ⟨.ok, 0⟩ ∧ Frame (Offs (pCAL pair.val) [CAL_WH]) { s1 with cal := t.cal } s1 t) ∧
  (∀ (a : Access) (pair : Fin 6) (addr pa : Nat) (s1 : State) (s : State),
    s.Canonical → s.ledBy pair.val a = true → 0 < a.size → s.reach a .read addr = (s1, some pa) → isPeriph pa = false → (s1.calOf pair.val).held = [] → 
    Completes (.coreLoad a pair addr addr a.size) s fun t => t.rest = (s1.accessAt a .read pa (bytesLE a.size 0)).rest ∧ t.resp.status = (s1.accessAt a .read pa (bytesLE a.size 0)).resp.status) ∧
  (∀ (a : Access) (pair : Fin 6) (addr pa : Nat) (s1 : State) (s : State),
    s.Canonical → s1.Sized → s.ledBy pair.val a = true → s.reach a .read addr = (s1, some pa) → isPeriph pa = true → isRs (pageBase pa) (pageOff pa) = true → (s1.calOf pair.val).closing = none → 
    Completes (.rsRead a pair addr) s fun t => (t.calOf pair.val).closing = some (.read a pa) ∧ 4 ∈ (t.calOf pair.val).due ∧ Frame (Offs 0 []) { s1 with cal := t.cal } s1 t) ∧
  (∀ (a : Access) (pair : Fin 6) (addr : Nat) (op : AtomicOp) (operand pa : Nat) (s1 : State) (s : State),
    s.Canonical → s1.Sized → s.ledBy pair.val a = true → s.reach a .write addr = (s1, some pa) → (s1.calOf pair.val).closing = none → 
    Completes (.atomic a pair addr op operand) s fun t => (t.calOf pair.val).closing = some (.atomic a pa op operand) ∧ 5 ∈ (t.calOf pair.val).due ∧ Frame (Offs 0 []) { s1 with cal := t.cal } s1 t) ∧
  (∀ (pair : Fin 6) (s : State),
    s.Canonical → s.Sized → s.pairRuns pair.val = true → 
    Completes (.barrier pair) s fun t => 6 ∈ (t.calOf pair.val).due ∧ Frame (Offs 0 []) { s with cal := t.cal } s t) ∧
  (∀ (a : Access) (pair : Fin 6) (addr pa : Nat) (s1 : State) (s : State),
    s.Canonical → s1.Sized → s.ledBy pair.val a = true → s.reach a .read addr = (s1, some pa) → (s1.calOf pair.val).held.any (heldTo pa) = true → 
    Completes (.peripheralReadCheckpoint a pair addr) s fun t => 7 ∈ (t.calOf pair.val).due ∧ Frame (Offs 0 []) { s1 with cal := t.cal } s1 t) ∧
  (∀ (pair : Fin 6) (s : State),
    s.Canonical → s.Sized → s.pairRuns pair.val = true → pair.val < 4 → 
    Completes (.checkpointPeriod pair) s fun t => 2 ∈ (t.calOf pair.val).due ∧ Frame (Offs 0 []) { s with cal := t.cal } s t) ∧
  (∀ (pair : Fin 6) (s : State),
    s.Canonical → s.Sized → s.pairRuns pair.val = true → s.get (pCAL pair.val) CAL_CKPT_WH_HIGH ≤ (s.calOf pair.val).held.length → 
    Completes (.writeHoldHigh pair) s fun t => 3 ∈ (t.calOf pair.val).due ∧ Frame (Offs 0 []) { s with cal := t.cal } s t) ∧
  (∀ (clocks : Nat) (pair : Fin 6) (c : CompareIn) (arch : List Nat) (s2 : State) (s : State),
    s.Canonical → (s.advance clocks).pairRuns pair.val = true → ((s.advance clocks).calOf pair.val).due ≠ [] → (s.advance clocks).compare pair.val c = (s2, true) → 
    Completes (.checkpoint clocks pair c arch) s fun t => t = s2.takeCheckpoint pair.val arch) ∧
  (∀ (clocks : Nat) (pair : Fin 6) (c : CompareIn) (arch : List Nat) (s2 : State) (s : State),
    s.Canonical → s2.Sized → s2.Canonical → (s.advance clocks).pairRuns pair.val = true → s2.pairRuns pair.val = true → ((s.advance clocks).calOf pair.val).due ≠ [] → (s.advance clocks).compare pair.val c = (s2, true) → pair.val < 4 → (s2.calOf pair.val).held = [] → (s2.calOf pair.val).closing = none → 
    Completes (.checkpoint clocks pair c arch) s fun t => t.get (pCAL pair.val) CAL_STAT_SLOT = 1 - s2.get (pCAL pair.val) CAL_STAT_SLOT ∧ (t.calOf pair.val).seq = ((s2.calOf pair.val).seq + 1) % 2 ^ 64 ∧ (t.calOf pair.val).due = []) ∧
  (∀ (pair : Fin 6) (addr : Nat) (s : State),
    s.Canonical → s.pairRuns pair.val = true → 
    Completes (.releasedWriteError pair addr) s fun t => t.Irq (pCAL pair.val) INT_CAL_REL_ERR ∧ t.Posted (pCAL pair.val) 0x8210 (addr % 2 ^ 32) ∧ Frame (Offs (pCAL pair.val) (CAL_CNT_MISM :: errRegs)) { s with posts := t.posts } s t) ∧
  (∀ (a : Access) (addr : Nat) (s : State),
    s.Canonical → (agentCore a.agent).bind s.leads = none → 
    Completes (.speculativeLoadReissue a addr) s fun t => t = s.memAccess a .read addr (bytesLE a.size 0))

/-- A compare point folds the records of both cores into their signatures; a trailing core that is late and a pair that stalls are mismatches of kinds 3 and 4: code 0x8112, held writes discarded, the pair restarts; the restart ends compared; the comparator test counts a pass; a corrected storage error is reported; an interrupt taken by the leading core waits for the trailing one; CNT_CLR clears. Concludes that exec answers the next state for: comparePoint, trailTimeout, pairStallTimeout, restartDone, comparatorTest, caliperStorageError, pairInterrupt, calCntClr. -/
def Obligations.CaliperPairCommandsComplete : Prop :=
  (∀ (clocks : Nat) (pair : Fin 6) (c : CompareIn) (waiting : Bool) (s : State),
    s.Canonical → s.Sized → (s.advance clocks).pairRuns pair.val = true → (s.advance clocks).pairState pair.val = cCOMPARED → c.lead = c.trail → ((s.advance clocks).calOf pair.val).sigLead = ((s.advance clocks).calOf pair.val).sigTrail → c.disagree = false → (s.advance clocks).on (pCAL pair.val) ERR_INJ_ARM = false → 
    Completes (.comparePoint clocks pair c waiting) s fun t => (t.calOf pair.val).sigLead = signature ((s.advance clocks).calOf pair.val).sigLead c.lead ∧ (t.calOf pair.val).sigTrail = (t.calOf pair.val).sigLead ∧ (t.calOf pair.val).retired = ((s.advance clocks).calOf pair.val).retired + c.retired ∧
      (waiting = true → t.on (pCORE (2 * pair.val)) CORE_STAT_WAITING = true) ∧
      Frame (Regs [(pCAL pair.val) + CAL_STAT, pCORE (2 * pair.val) + CORE_STAT]) { s.advance clocks with cal := t.cal } (s.advance clocks) t) ∧
  (∀ (clocks : Nat) (pair : Fin 6) (s : State),
    s.Canonical → s.Sized → (s.advance clocks).pairRuns pair.val = true → (s.advance clocks).pairState pair.val = cCOMPARED → ¬ (s.advance clocks).get (pCAL pair.val) CAL_CTRL_RETRY_MAX ≤ (((s.advance clocks).calOf pair.val).recent.filter (fun c => decide ((s.advance clocks).tb.clocks < c + (s.advance clocks).retryWin pair.val))).length + 1 → 
    Completes (.trailTimeout clocks pair) s fun t => t.pairState pair.val = cRESTART ∧ t.get (pCAL pair.val) CAL_LAST_KIND = 3 ∧ t.Irq (pCAL pair.val) INT_CAL_MISMATCH ∧ t.Posted (pCAL pair.val) 0x8112 (((s.advance clocks).calOf pair.val).retired % 2 ^ 32) ∧ (t.calOf pair.val).held = [] ∧
      Frame (fun addr => Pages [(pCAL pair.val)] addr ∨ Offs pCALC [CALC_STAT] addr) { s.advance clocks with cal := t.cal, posts := t.posts } (s.advance clocks) t) ∧
  (∀ (clocks : Nat) (pair : Fin 6) (s : State),
    s.Canonical → s.Sized → (s.advance clocks).pairRuns pair.val = true → (s.advance clocks).pairState pair.val = cCOMPARED → (s.advance clocks).on (pCORE (leadOf pair.val)) CORE_STAT_WAITING = false → ¬ (s.advance clocks).get (pCAL pair.val) CAL_CTRL_RETRY_MAX ≤ (((s.advance clocks).calOf pair.val).recent.filter (fun c => decide ((s.advance clocks).tb.clocks < c + (s.advance clocks).retryWin pair.val))).length + 1 → 
    Completes (.pairStallTimeout clocks pair) s fun t => t.pairState pair.val = cRESTART ∧ t.get (pCAL pair.val) CAL_LAST_KIND = 4 ∧ t.Irq (pCAL pair.val) INT_CAL_MISMATCH ∧ t.Posted (pCAL pair.val) 0x8112 (((s.advance clocks).calOf pair.val).retired % 2 ^ 32) ∧ (t.calOf pair.val).held = [] ∧
      Frame (fun addr => Pages [(pCAL pair.val)] addr ∨ Offs pCALC [CALC_STAT] addr) { s.advance clocks with cal := t.cal, posts := t.posts } (s.advance clocks) t) ∧
  (∀ (clocks : Nat) (pair : Fin 6) (s : State),
    s.Canonical → s.Sized → (s.advance clocks).pairState pair.val = cRESTART → (s.advance clocks).up.compute = true → pair.val ∉ (s.advance clocks).slotBad → 
    Completes (.restartDone clocks pair .good) s fun t => t.pairState pair.val = cCOMPARED ∧ t.Irq (pCAL pair.val) INT_CAL_RESTART_DONE ∧ (t.calOf pair.val).retired = s.memLE (slotAddr pair.val (s.get (pCAL pair.val) CAL_STAT_SLOT) + 8) 8 ∧
      Frame (Regs [(pCAL pair.val) + CAL_RST_TIME, (pCAL pair.val) + BLK_STAT, (pCAL pair.val) + INT_RAW, pCALC + CALC_STAT]) { s.advance clocks with cal := t.cal } (s.advance clocks) t) ∧
  (∀ (pair : Fin 6) (s : State),
    s.Canonical → s.pairState pair.val = cCOMPARED → s.up.compute = true → s.frozen pCALC = false → 
    Completes (.comparatorTest pair false) s fun t => t.get pCALC CALC_TEST_PASS = wrapAdd CALC_TEST_PASS.len (s.get pCALC CALC_TEST_PASS) 1 ∧ Frame (Offs pCALC [CALC_TEST]) s s t) ∧
  (∀ (pair : Fin 6) (entry : Nat) (s : State),
    s.Canonical → s.pairRuns pair.val = true → 
    Completes (.caliperStorageError pair entry true) s fun t => t.Posted (pCAL pair.val) 0x8111 entry ∧ Frame (Offs (pCAL pair.val) errRegs) { s with posts := t.posts } s t) ∧
  (∀ (pair : Fin 6) (n l : Nat) (s : State),
    s.Canonical → s.Sized → s.pairRuns pair.val = true → s.pairState pair.val = cCOMPARED → (s.core (leadOf pair.val)).delivered.head? = some l → 
    Completes (.pairInterrupt pair n) s fun t => (t.calOf pair.val).irqs = (s.calOf pair.val).irqs ++ [(l, n)] ∧ Frame (Offs 0 []) { s with cal := t.cal } s t) ∧
  (∀ (a : Access) (pair : Fin 6) (v : Word) (s : State),
    s.Canonical → s.Sized → s.Accepts a (pCAL pair.val) CAL_CNT_CLR v → v.getLsbD 0 = true → 
    Completes (.calCntClr a pair v) s fun t => t.rd (pCAL pair.val) CAL_CNT_CKPT = 0 ∧ t.rd (pCAL pair.val) CAL_CNT_EARLY = 0 ∧ t.rd (pCAL pair.val) CAL_CNT_MISM = 0 ∧ t.rd (pCAL pair.val) CAL_RST_TIME = 0 ∧ t.get (pCAL pair.val) CAL_WH_PEAK = s.get (pCAL pair.val) CAL_WH_USED ∧ t.get (pCAL pair.val) CAL_STAT_TRAIL_MAX = 0 ∧ (t.calOf pair.val).recent = [] ∧
      Frame (Offs (pCAL pair.val) [CAL_CNT_CKPT, CAL_CNT_EARLY, CAL_CNT_MISM, CAL_RST_TIME, CAL_WH, CAL_STAT]) { s with cal := t.cal } s t)

/-- RUN = 1 starts a core of a split pair at CORE_BOOT, or both cores of a paired one compared; RST stops it and its pair is DOWN; a line entry is written and the line leaves the cores that have not acknowledged it; a software-raised line pends; a core receives its next line, acknowledges it, and gets its core-local lines 0 and 4 from its deadline and a counter; a dirty cache line that is lost is poisoned. Concludes that exec answers the next state for: coreRun, coreRst, intcLineWrite, intcSwraise, interruptDelivery, interruptAck, coreTimerExpiry, counterOverflow, cacheError. -/
def Obligations.CoreCommandsComplete : Prop :=
  (∀ (a : Access) (core : Fin 13) (v : Word) (k : Nat) (s : State),
    s.Canonical → s.Accepts a (pCORE core.val) CORE_CTRL v → coreCtrlPre core.val s = none → v.getLsbD 0 = true → v.getLsbD 1 = false → s.coreReleased core.val = true → s.on (pCORE core.val) CORE_STAT_RUNNING = false → pairOf core.val = some k → s.pairState k = cSPLIT → s.inPair core.val = false → 
    Completes (.coreRun a core v) s fun t => t.on (pCORE core.val) CORE_STAT_RUNNING = true ∧ t.on (pCORE core.val) CORE_CTRL_RUN = true ∧ t.out = s.out ++ [.coreStart core.val (s.bootOf core.val)] ∧ Frame (Offs (pCORE core.val) [CORE_CTRL, CORE_STAT]) { s with out := t.out } s t) ∧
  (∀ (a : Access) (core : Fin 13) (v : Word) (k : Nat) (s : State),
    s.Canonical → s.Accepts a (pCORE core.val) CORE_CTRL v → coreCtrlPre core.val s = none → v.getLsbD 0 = true → v.getLsbD 1 = false → s.coreReleased core.val = true → s.on (pCORE core.val) CORE_STAT_RUNNING = false → pairOf core.val = some k → s.pairState k = cDOWN → s.inPair core.val = true → (s.get pCALC CALC_STAT_CFAULT).testBit k = false → 
    Completes (.coreRun a core v) s fun t => t.pairState k = cCOMPARED ∧ t.on (pCORE core.val) CORE_STAT_RUNNING = true ∧ t.on (pCORE (core.val + 1)) CORE_STAT_RUNNING = true ∧ t.out = s.out ++ [.coreStart core.val (s.bootOf core.val), .coreStart (core.val + 1) (s.bootOf core.val)]) ∧
  (∀ (a : Access) (core : Fin 13) (v : Word) (k : Nat) (s : State),
    s.Canonical → s.Accepts a (pCORE core.val) CORE_CTRL v → coreCtrlPre core.val s = none → v.getLsbD 0 = false → v.getLsbD 1 = true → pairOf core.val = some k → 
    Completes (.coreRst a core v) s fun t => t.on (pCORE core.val) CORE_STAT_RUNNING = false ∧ t.on (pCORE core.val) CORE_CTRL_RUN = false ∧ t.pairState k = cDOWN) ∧
  (∀ (a : Access) (line : Fin 512) (v : Word) (s : State),
    s.Canonical → s.Accepts a pINTC (LINE line.val) v → linePre line.val v s = none → 32 ≤ line.val → 
    Completes (.intcLineWrite a line v) s fun t => t.get pINTC (LINE_TARGET line.val) = bitsOf v.toNat 0 5 ∧ t.on pINTC (LINE_EN line.val) = v.getLsbD 16 ∧ (∀ c : Fin 13, line.val ∉ (t.core c.val).delivered) ∧
      Frame (Offs pINTC [LINE line.val]) { s with cores := t.cores } s t) ∧
  (∀ (a : Access) (v : Word) (s : State),
    s.Canonical → s.Accepts a pINTC INTC_SWRAISE v → 480 ≤ v.toNat ∧ v.toNat ≤ 511 → 
    Completes (.intcSwraise a v) s fun t => v.toNat ∈ t.swLines ∧ Frame (Offs 0 []) { s with swLines := t.swLines } s t) ∧
  (∀ (core : Fin 13) (l : Nat) (s : State),
    s.Canonical → s.Sized → s.takesLines core.val = true → s.nextLine core.val = some l → 
    Completes (.interruptDelivery core) s fun t => (t.core core.val).delivered = (s.core core.val).delivered ++ [l] ∧ Frame (Offs 0 []) { s with cores := t.cores } s t) ∧
  (∀ (core : Fin 13) (l : Nat) (s : State),
    s.Canonical → s.Sized → s.takesLines core.val = true → s.presented core.val = some l → 
    Completes (.interruptAck core false) s fun t => (t.core core.val).active = (s.core core.val).active ++ [l] ∧ l ∉ (t.core core.val).delivered ∧ l ∉ (t.core core.val).localLines ∧ l ∉ t.swLines ∧ Frame (Offs 0 []) { s with cores := t.cores, swLines := t.swLines } s t) ∧
  (∀ (clocks : Nat) (core : Fin 13) (s : State),
    s.Canonical → s.Sized → (s.advance clocks).agentUp (coreAgent core.val) = true → (s.advance clocks).trailing core.val = false → (s.advance clocks).deadlineDue ((s.advance clocks).core core.val).secDeadline = true → 
    Completes (.coreTimerExpiry clocks core .secureDeadline) s fun t => 0 ∈ (t.core core.val).localLines ∧ (t.core core.val).secDeadline = none ∧ Frame (Offs 0 []) { s.advance clocks with cores := t.cores } (s.advance clocks) t) ∧
  (∀ (core : Fin 13) (k : Fin 7) (s : State),
    s.Canonical → s.Sized → s.counts core.val = true → 
    Completes (.counterOverflow core k) s fun t => nth (t.core core.val).perf k.val 0 = 0 ∧ 4 ∈ (t.core core.val).localLines ∧ Frame (Offs 0 []) { s with cores := t.cores } s t) ∧
  (∀ (addr : Nat) (s : State),
    s.Canonical → s.up.compute = true → 
    Completes (.cacheError .dirty addr) s fun t => addr / 32 * 32 ∈ t.poisonLines ∧ t.Posted pSYS 0x0315 (addr / 32 * 32 % 2 ^ 32) ∧ Frame (Offs pSYS errRegs) { s with poisonLines := t.poisonLines, posts := t.posts } s t)

/-- A send that passes its tests fills the channel with its length and words, words beyond the length are 0, and the result of the core is 0; a debug send does the same from the debug window; the take empties the channel; a core waits for the space of a channel; notices of aborted messages are cleared; a crossed wait sets CROSS on both channels with code 0x0212; the counters are cleared. Concludes that exec answers the next state for: mbsGo, mbDbgSend, mbTakeRead, mbsWait, mbsAbortClear, crossedWait, mbxCntClr. -/
def Obligations.MailboxCommandsComplete : Prop :=
  (∀ (a : Access) (v : Word) (c : Nat) (s : State),
    s.Canonical → s.Sized → agentCore a.agent = some c → s.agentUp a.agent = true → s.leads c = none → s.sendTest a.agent (lvWorld (s.levelOf a)) (bitsOf v.toNat 0 5) (bitsOf v.toNat 16 5) = 0 → 
    Completes (.mbsGo a v) s fun t => t.on (pMBC (bitsOf v.toNat 0 5)) MB_STAT_FULL = true ∧ t.get (pMBC (bitsOf v.toNat 0 5)) MB_STAT_LEN = bitsOf v.toNat 16 5 ∧ t.Irq (pMBC (bitsOf v.toNat 0 5)) INT_MBC_NEW ∧ (c < 13 → (t.core c).sendResult = 0) ∧
      (∀ k : Fin 16, t.rd (pMBC (bitsOf v.toNat 0 5)) (MB_DATA k.val) = BitVec.ofNat 32 (if k.val < bitsOf v.toNat 16 5 then nth (s.core c).sendWords k.val 0 else 0))) ∧
  (∀ (a : Access) (ch : Fin 32) (v : Word) (s : State),
    s.Canonical → s.Accepts a (pMBC ch.val) MB_DBG_SEND v → s.sendTest 0x60 0 ch.val (bitsOf v.toNat 16 5) = 0 → 
    Completes (.mbDbgSend a ch v) s fun t => t.on (pMBC ch.val) MB_STAT_FULL = true ∧ t.get (pMBC ch.val) MB_STAT_LEN = bitsOf v.toNat 16 5 ∧ t.Irq (pMBC ch.val) INT_MBC_NEW ∧ t.rd (pMBC ch.val) MB_STAMP = 0x60 ∧
      (∀ k : Fin 16, t.rd (pMBC ch.val) (MB_DATA k.val) = if k.val < bitsOf v.toNat 16 5 then s.rd (pMBC ch.val) (MB_DBG_DATA k.val) else 0)) ∧
  (∀ (a : Access) (ch : Fin 32) (s : State),
    s.Canonical → s.Shows a (pMBC ch.val) MB_TAKE → s.on (pMBC ch.val) MB_STAT_FULL = true → 
    Completes (.mbTakeRead a ch) s fun t => t.on (pMBC ch.val) MB_STAT_FULL = false ∧ t.get (pMBC ch.val) MB_STAT_LEN = 0 ∧ t.Irq (pMBC ch.val) INT_MBC_SPACE) ∧
  (∀ (core : Fin 13) (v : Word) (s : State),
    s.Canonical → s.Sized → s.agentUp (coreAgent core.val) = true → v.toNat < 32 → 
    Completes (.mbsWait core v) s fun t => (t.core core.val).waitFor = v.toNat ∧ t.on (pCORE core.val) CORE_STAT_WAITING = true ∧ Frame (Offs (pCORE core.val) [CORE_STAT]) { s with cores := t.cores } s t) ∧
  (∀ (core : Fin 13) (v : Word) (s : State),
    s.Canonical → s.Sized → s.agentUp (coreAgent core.val) = true → 
    Completes (.mbsAbortClear core v) s fun t => (t.core core.val).aborted = (s.core core.val).aborted &&& (2 ^ 32 - 1 - v.toNat) ∧ Frame (Offs 0 []) { s with cores := t.cores } s t) ∧
  (∀ (i j : Fin 32) (s : State),
    s.Canonical → s.crossed i.val j.val = true → s.on (pMBC i.val) MB_STAT_CROSS = false → 
    Completes (.crossedWait i j) s fun t => t.on (pMBC i.val) MB_STAT_CROSS = true ∧ t.on (pMBC j.val) MB_STAT_CROSS = true ∧ t.Irq (pMBC i.val) INT_MBC_CROSS ∧ t.Irq (pMBC j.val) INT_MBC_CROSS ∧ t.Posted pMBX 0x0212 0) ∧
  (∀ (a : Access) (v : Word) (s : State),
    s.Canonical → s.Accepts a pMBX MBX_CNT_CLR v → v.getLsbD 0 = true → 
    Completes (.mbxCntClr a v) s fun t => t.rd pMBX MBX_CNT_REF = 0 ∧ t.rd pMBX MBX_CNT_ABORT = 0 ∧ Frame (Offs pMBX [MBX_CNT_REF, MBX_CNT_ABORT]) s s t)

/-- An invalidation makes its register BUSY (VMC_INV keeps the page of that moment) and ends with its interrupt, dropping from the translations held those it names and no others; the secure table base is written and no translation of the secure context is held after it; a DMA access that meets a translation fault is captured with its source, kind and IPA, counted and posted as 0x9012; captures are cleared; SEND fills a tenant-manager mailbox and ACK empties it; OVF is cleared; quiesce starts and is done; GO of PART_REQ on a partitionable page starts a parting, whose end gives the page to its new owner with its registers at their reset values. Concludes that exec answers the next state for: vmcInvPage, vmcInvVm, vmcInvDone, iomInvHyp, iomInvSecure, iomInvAll, iomInvDone, isoSecTtbWrite, dmaFault, iomFltClr, vmcClr, tmSend, tmAck, dplOvfClear, hinQuiesceReq, quiesceDone, partReqGo, partingDrained, partingTimeout. -/
def Obligations.IsolationCommandsComplete : Prop :=
  (∀ (a : Access) (vmNo : Fin 16) (s : State),
    s.Canonical → s.Accepts a (pVMC vmNo.val) VMC_INV 65538 → s.on (pVMC vmNo.val) VMC_INV_BUSY = false → 
    Completes (.vmcInvPage a vmNo) s fun t => t.on (pVMC vmNo.val) VMC_INV_BUSY = true ∧ t.get (pVMC vmNo.val) VMC_INV_OP = 2 ∧ Frame (Offs (pVMC vmNo.val) [VMC_INV]) { s with xlat.invPage := setNth s.xlat.invPage vmNo.val (s.get (pVMC vmNo.val) VMC_INV_IPA_IPA) } s t) ∧
  (∀ (a : Access) (vmNo : Fin 16) (s : State),
    s.Canonical → s.Accepts a (pVMC vmNo.val) VMC_INV 65537 → s.on (pVMC vmNo.val) VMC_INV_BUSY = false → 
    Completes (.vmcInvVm a vmNo) s fun t => t.on (pVMC vmNo.val) VMC_INV_BUSY = true ∧ t.get (pVMC vmNo.val) VMC_INV_OP = 1 ∧ Frame (Offs (pVMC vmNo.val) [VMC_INV]) { s with xlat.invPage := setNth s.xlat.invPage vmNo.val (s.get (pVMC vmNo.val) VMC_INV_IPA_IPA) } s t) ∧
  (∀ (vmNo : Fin 16) (s : State),
    s.Canonical → s.on (pVMC vmNo.val) VMC_INV_BUSY = true → 
    Completes (.vmcInvDone vmNo) s fun t => t.on (pVMC vmNo.val) VMC_INV_BUSY = false ∧ t.Irq (pVMC vmNo.val) INT_VMC_INV_DONE ∧
      t.xlat.held = s.xlat.held.filter (fun e => decide (e.ctx ≠ vmNo.val ∨ (s.get (pVMC vmNo.val) VMC_INV_OP ≠ 1 ∧ e.page ≠ nth s.xlat.invPage vmNo.val 0))) ∧ Frame (Offs (pVMC vmNo.val) [VMC_INV, INT_RAW]) { s with xlat := { s.xlat with held := t.xlat.held } } s t) ∧
  (∀ (a : Access) (s : State),
    s.Canonical → s.Accepts a pIOM IOM_INV 65537 → s.on pIOM IOM_INV_BUSY = false → 
    Completes (.iomInvHyp a) s fun t => t.on pIOM IOM_INV_BUSY = true ∧ t.get pIOM IOM_INV_OP = 1 ∧ Frame (Offs pIOM [IOM_INV]) s s t) ∧
  (∀ (a : Access) (s : State),
    s.Canonical → s.Accepts a pIOM IOM_INV 65538 → s.on pIOM IOM_INV_BUSY = false → 
    Completes (.iomInvSecure a) s fun t => t.on pIOM IOM_INV_BUSY = true ∧ t.get pIOM IOM_INV_OP = 2 ∧ Frame (Offs pIOM [IOM_INV]) s s t) ∧
  (∀ (a : Access) (s : State),
    s.Canonical → s.Accepts a pIOM IOM_INV 65539 → s.on pIOM IOM_INV_BUSY = false → 
    Completes (.iomInvAll a) s fun t => t.on pIOM IOM_INV_BUSY = true ∧ t.get pIOM IOM_INV_OP = 3 ∧ Frame (Offs pIOM [IOM_INV]) s s t) ∧
  (∀ (s : State),
    s.Canonical → s.on pIOM IOM_INV_BUSY = true → 
    Completes (.iomInvDone) s fun t => t.on pIOM IOM_INV_BUSY = false ∧ t.Irq pIOM INT_IOM_INV_DONE ∧
      t.xlat.held = s.xlat.held.filter (fun e => decide (coreHolder ≤ e.holder ∨ (s.get pIOM IOM_INV_OP ≠ 3 ∧ e.ctx ≠ 15 + s.get pIOM IOM_INV_OP))) ∧ Frame (Offs pIOM [IOM_INV, INT_RAW]) { s with xlat := { s.xlat with held := t.xlat.held } } s t) ∧
  (∀ (a : Access) (high : Bool) (v : Word) (s : State),
    s.Canonical → s.Accepts a pISO (if high then ISO_SEC_TTB_HI else ISO_SEC_TTB_LO) v → 
    Completes (.isoSecTtbWrite a high v) s fun t => (high = false → t.get pISO ISO_SEC_TTB_LO_BASE = bitsOf v.toNat 13 19) ∧ (high = true → t.get pISO ISO_SEC_TTB_HI_BASE = bitsOf v.toNat 0 4 ∧ t.on pISO ISO_SEC_TTB_HI_EN = v.getLsbD 31) ∧
      (∀ e ∈ t.xlat.held, e ∈ s.xlat.held ∧ e.ctx ≠ 17) ∧
      Frame (Offs pISO [if high then ISO_SEC_TTB_HI else ISO_SEC_TTB_LO]) { s with xlat := { s.xlat with held := t.xlat.held } } s t) ∧
  (∀ (src : Fin 17) (ipa : Nat) (write : Bool) (s1 : State) (k l : Nat) (s : State),
    s.Canonical → s1.Canonical → s.translate src.val (s.srcCtx src.val) (if write then .write else .read) ipa = (s1, .fault k l) → s1.on pIOM IOM_FLT_INFO_VALID = false → k ≠ 4 → 
    Completes (.dmaFault src false ipa write) s fun t => t.rd pIOM IOM_FLT_INFO = BitVec.ofNat 32 (faultInfo src.val k l write false) ∧ t.rd pIOM IOM_FLT_IPA = BitVec.ofNat 32 (ipa / 256 % 2 ^ 32) ∧ t.Irq pIOM INT_IOM_FAULT ∧
      t.Posted pIOM 0x9012 (ipa / 256 % 2 ^ 32) ∧ Frame (Offs pIOM ([IOM_FLT_INFO, IOM_FLT_IPA, IOM_CNT_FLT] ++ errRegs)) { s1 with posts := t.posts } s1 t) ∧
  (∀ (a : Access) (s : State),
    s.Canonical → s.Accepts a pIOM IOM_FLT_CLR 1 → 
    Completes (.iomFltClr a) s fun t => t.rd pIOM IOM_FLT_INFO = 0 ∧ t.rd pIOM IOM_FLT_IPA = 0 ∧ Frame (Offs pIOM [IOM_FLT_INFO, IOM_FLT_IPA]) s s t) ∧
  (∀ (a : Access) (vmNo : Fin 16) (s : State),
    s.Canonical → s.Accepts a (pVMC vmNo.val) VMC_CLR 1 → 
    Completes (.vmcClr a vmNo) s fun t => t.rd (pVMC vmNo.val) VMC_FLT_INFO = 0 ∧ t.rd (pVMC vmNo.val) VMC_FLT_IPA = 0 ∧ t.rd (pVMC vmNo.val) VMC_CNT = 0 ∧ Frame (Offs (pVMC vmNo.val) [VMC_FLT_INFO, VMC_FLT_IPA, VMC_CNT]) s s t) ∧
  (∀ (a : Access) (inst : Fin 16) (toManager : Bool) (v : Word) (s : State),
    s.Canonical → s.Accepts a (pHIN inst.val) (tmCtrl toManager) v → tmPre inst.val toManager a v s = none → v.getLsbD 8 = true → v.getLsbD 9 = false → s.on (pHIN inst.val) (tmFULL toManager) = false → 
    Completes (.tmSend a inst toManager v) s fun t => t.on (pHIN inst.val) (tmFULL toManager) = true ∧ t.get (pHIN inst.val) (tmLEN toManager) = bitsOf v.toNat 0 5 ∧ (toManager = false → t.Irq (pHIN inst.val) INT_HIN_TM_MSG) ∧ (toManager = true → t.on pIOM ⟨IOM_TM_PEND, inst.val, 1⟩ = true) ∧
      Frame (Regs [(pHIN inst.val) + tmCtrl toManager, (pHIN inst.val) + INT_RAW, pIOM + IOM_TM_PEND, pIOM + INT_RAW]) s s t) ∧
  (∀ (a : Access) (inst : Fin 16) (toManager : Bool) (v : Word) (s : State),
    s.Canonical → s.Accepts a (pHIN inst.val) (tmCtrl toManager) v → tmPre inst.val toManager a v s = none → v.getLsbD 8 = false → v.getLsbD 9 = true → 
    Completes (.tmAck a inst toManager v) s fun t => t.on (pHIN inst.val) (tmFULL toManager) = false ∧ t.on (pHIN inst.val) (tmREFUSED toManager) = false ∧ (toManager = true → t.Irq (pHIN inst.val) INT_HIN_TM_SPACE) ∧ Frame (Offs (pHIN inst.val) [tmCtrl toManager, INT_RAW]) s s t) ∧
  (∀ (a : Access) (inst : Fin 16) (s : State),
    s.Canonical → s.Accepts a (pHIN inst.val) DPL_CTRL (BitVec.ofNat 32 (0x100 + s.get (pHIN inst.val) DPL_CTRL_EN)) → s.managerRole inst.val a = true → 
    Completes (.dplOvfClear a inst) s fun t => t.on (pHIN inst.val) DPL_CTRL_OVF = false ∧ t.get (pHIN inst.val) DPL_CTRL_EN = s.get (pHIN inst.val) DPL_CTRL_EN ∧ Frame (Offs (pHIN inst.val) [DPL_CTRL]) { s with dplFilter := (if s.on (pHIN inst.val) DPL_CTRL_OVF = true then setNth s.dplFilter inst.val [] else s.dplFilter) } s t) ∧
  (∀ (a : Access) (inst : Fin 16) (v : Word) (s : State),
    s.Canonical → s.Accepts a (pHIN inst.val) HIN_QUIESCE v → s.managerRole inst.val a = true → v.getLsbD 0 = true → 
    Completes (.hinQuiesceReq a inst v) s fun t => t.on (pHIN inst.val) HIN_QUIESCE_REQ = true ∧ (s.on (pHIN inst.val) HIN_QUIESCE_REQ = false → t.on (pHIN inst.val) HIN_QUIESCE_DONE = false) ∧ Frame (Offs (pHIN inst.val) [HIN_QUIESCE]) s s t) ∧
  (∀ (inst : Fin 16) (s : State),
    s.Canonical → s.on (pHIN inst.val) HIN_QUIESCE_REQ = true → s.on (pHIN inst.val) HIN_QUIESCE_DONE = false → 
    Completes (.quiesceDone inst) s fun t => t.on (pHIN inst.val) HIN_QUIESCE_DONE = true ∧ t.Irq (pHIN inst.val) INT_HIN_QUIESCED ∧ Frame (Offs (pHIN inst.val) [HIN_QUIESCE, INT_RAW]) s s t) ∧
  (∀ (a : Access) (page : Nat) (v : Word) (s : State),
    s.Canonical → s.up.compute = true → s.accessCause a (pageBase page) PART_REQ true = none → v.getLsbD 16 = true → s.partRefused (pageBase page) v = false → tyOf (pageBase page) ∉ [0x0006, 0x3002, 0x4001, 0x5001] → 
    Completes (.partReqGo a page v) s fun t => t.on (pageBase page) PART_BUSY = true ∧ t.get (pageBase page) PART_NEW_WORLD = bitsOf v.toNat 0 2 ∧ t.get (pageBase page) PART_NEW_VM = bitsOf v.toNat 4 6 ∧ t.get (pageBase page) PART_RESULT = 0 ∧ t.resp = ⟨.ok, 0⟩ ∧
      Frame (Offs (pageBase page) [PART_REQ]) s s t) ∧
  (∀ (page : Nat) (s : State),
    s.Canonical → s.up.compute = true → s.on (pageBase page) PART_BUSY = true → tyOf (pageBase page) = 0x3001 ∨ tyOf (pageBase page) = 0x0006 ∧ s.on (pageBase page) MB_STAT_FULL = false → 
    Completes (.partingDrained page) s fun t => t.on (pageBase page) PART_BUSY = false ∧ t.get (pageBase page) PART_RESULT = 1 ∧ t.get (pageBase page) OWNER_WORLD = s.get (pageBase page) PART_NEW_WORLD ∧ t.get (pageBase page) OWNER_VM = s.get (pageBase page) PART_NEW_VM ∧ t.Irq pISO INT_ISO_PART_DONE ∧
      (∀ off, 0x40 ≤ off → off < 0x1000 → t.rd (pageBase page) off = resetVal ((pageBase page) + off)) ∧ Frame (fun addr => Pages [(pageBase page)] addr ∨ Offs pISO [ISO_PART_LOG, INT_RAW] addr) s s t) ∧
  (∀ (page : Nat) (s : State),
    s.Canonical → s.up.compute = true → s.on (pageBase page) PART_BUSY = true → s.partIdle (pageBase page) = true → 
    Completes (.partingDrained page) s fun t => t.on (pageBase page) PART_BUSY = false ∧ t.get (pageBase page) PART_RESULT = 1 ∧ t.get (pageBase page) OWNER_WORLD = s.get (pageBase page) PART_NEW_WORLD ∧ t.get (pageBase page) OWNER_VM = s.get (pageBase page) PART_NEW_VM ∧ t.Irq pISO INT_ISO_PART_DONE ∧
      t.rd pISO ISO_PART_LOG = BitVec.ofNat 32 (tyOf (pageBase page) + instOf (pageBase page) * 0x10000 + 2 ^ 24 + 2 ^ 31)) ∧
  (∀ (page : Nat) (s : State),
    s.Canonical → s.up.compute = true → s.on (pageBase page) PART_BUSY = true → tyOf (pageBase page) = 0x3001 ∨ tyOf (pageBase page) = 0x0006 → 
    Completes (.partingTimeout page) s fun t => t.on (pageBase page) PART_BUSY = false ∧ t.get (pageBase page) PART_RESULT = 3 ∧ t.get (pageBase page) OWNER_WORLD = s.get (pageBase page) PART_NEW_WORLD ∧ t.Posted pISO 0x9214 (blkId (pageBase page)) ∧ t.Irq pISO INT_ISO_PART_DONE)

/-- A DRAM read without an error answers the word; one with a single flipped bit at any of the 80 positions answers the same word, counts it, sets INT CE and posts 0xA113; one that the array answers for a word whose address has the other fold bit is refused and posts 0xA31A. A write of whole words stores its bytes. Training sets TRAINED or posts 0xA31E. Heat halves the refresh interval. A refresh changes no byte. A scrub step moves its position by one burst and corrects a single flipped bit; the SRAM scrub moves on by one word. On-chip errors post their codes, an uncorrectable one poisons the word, clears the key slot, or leaves a MAC entry or a message object not valid. DMC_CNT_CLR clears counters and log. Concludes that exec answers the next state for: dramRead, dramWrite, dramTrainingDone, dramRefresh, dramTemperatureReport, scrubStep, sramError, dmcCntClr. -/
def Obligations.DramCommandsComplete : Prop :=
  (∀ (clocks : Nat) (a : Access) (isSpill : Bool) (addr : Nat) (s : State),
    s.Canonical → (s.advance clocks).up.compute = true → (s.advance clocks).dramStopped a isSpill false (addr / 8 * 8) 8 = none → (s.advance clocks).poisonOf (addr / 8 * 8) = none → 
    Completes (.dramRead clocks a isSpill addr addr []) s fun t => t.resp = ⟨.ok, (s.advance clocks).memLE (addr / 8 * 8) 8⟩ ∧ Frame (Offs 0 []) (s.advance clocks) (s.advance clocks) t) ∧
  (∀ (clocks : Nat) (a : Access) (isSpill : Bool) (addr : Nat) (p : Fin 80) (s : State),
    s.Canonical → (s.advance clocks).up.compute = true → (s.advance clocks).dramStopped a isSpill false (addr / 8 * 8) 8 = none → (s.advance clocks).poisonOf (addr / 8 * 8) = none → 
    Completes (.dramRead clocks a isSpill addr addr [p.val]) s fun t => t.resp = ⟨.ok, (s.advance clocks).memLE (addr / 8 * 8) 8⟩ ∧ t.Irq pDMC INT_DMC_CE ∧ t.Posted pDMC 0xA113 ((addr / 8 * 8) / 16 % 2 ^ 32) ∧
      (s.frozen pDMC = false → t.get pDMC DMC_CNT_CE = satAdd 16 ((s.advance clocks).get pDMC DMC_CNT_CE) 1) ∧
      (∀ x, t.byte x = (s.advance clocks).byte x) ∧ Frame (fun x => Offs pDMC ([DMC_ERR_LO, DMC_ERR_HI, DMC_ERR_POS, DMC_CNT] ++ errRegs) x) { s.advance clocks with posts := t.posts, mem := t.mem } (s.advance clocks) t) ∧
  (∀ (clocks : Nat) (a : Access) (isSpill : Bool) (addr actual : Nat) (s : State),
    s.Canonical → (s.advance clocks).up.compute = true → (s.advance clocks).dramStopped a isSpill false (addr / 8 * 8) 8 = none → (s.advance clocks).poisonOf (addr / 8 * 8) = none → foldOf (actual / 8 * 8) ≠ foldOf (addr / 8 * 8) → 
    Completes (.dramRead clocks a isSpill addr actual []) s fun t => t.resp = ⟨.error, 0⟩ ∧ t.Irq pDMC INT_DMC_UE ∧ t.Posted pDMC 0xA31A ((addr / 8 * 8) / 16 % 2 ^ 32) ∧ Frame (fun x => Offs pDMC ([DMC_ERR_LO, DMC_ERR_HI, DMC_ERR_POS, DMC_CNT] ++ errRegs) x ∨ Offs pSCR ([SCR_POISON] ++ errRegs) x ∨ ∃ n < 256, Offs pSCR [POISON_LO n, POISON_HI n] x) { s.advance clocks with posts := t.posts } (s.advance clocks) t) ∧
  (∀ (clocks : Nat) (a : Access) (isSpill : Bool) (addr : Nat) (data flips : List Nat) (s : State),
    s.Canonical → (s.advance clocks).up.compute = true → (s.advance clocks).dramStopped a isSpill true addr data.length = none → addr % 8 = 0 → data.length % 8 = 0 → 0 < data.length → data.all (fun b => decide (b < 256)) = true → 
    Completes (.dramWrite clocks a isSpill addr data flips) s fun t => t.resp = ⟨.ok, 0⟩ ∧ t.bytes addr data.length = data ∧ (∀ x, (x < addr ∨ addr + data.length ≤ x) → t.byte x = (s.advance clocks).byte x) ∧
      Frame (fun x => Offs pSCR [SCR_POISON] x ∨ ∃ n < 256, Offs pSCR [POISON_LO n, POISON_HI n] x) { s.advance clocks with mem := t.mem } (s.advance clocks) t) ∧
  (∀ (s : State),
    s.Canonical → s.pageUp pDMC = true → 
    Completes (.dramTrainingDone true) s fun t => t.on pDMC DMC_STAT_TRAINED = true ∧ Frame (Offs pDMC [DMC_STAT]) s s t) ∧
  (∀ (s : State),
    s.Canonical → s.pageUp pDMC = true → s.on pDMC DMC_STAT_TRAINED = false → 
    Completes (.dramTrainingDone false) s fun t => t.on pDMC DMC_STAT_TRAINED = false ∧ t.Posted pDMC 0xA31E 0 ∧ Frame (Offs pDMC errRegs) { s with posts := t.posts } s t) ∧
  (∀ (n : Nat) (s : State),
    s.Canonical → s.hon.refi = some n → s.pageUp pDMC = true → n < 2 ^ 32 → 
    Completes (.dramRefresh) s fun t => (t.rd pDMC DMC_REFI).toNat = (if s.on pDMC DMC_STAT_HOT then n / 2 else n) ∧ Frame (Offs pDMC [DMC_REFI]) { s with refiBase := n, hon.refi := none } s t) ∧
  (∀ (s : State),
    s.Canonical → s.hon.refi = none → 
    Completes (.dramRefresh) s fun t => Frame (Offs 0 []) s s t) ∧
  (∀ (clocks : Nat) (temps : List Int) (rate : Fin 8) (s : State),
    s.Canonical → (s.advance clocks).pageUp pDMC = true → temps.any (fun x => decide (85 < x)) = true → (s.advance clocks).on pDMC DMC_STAT_HOT = false → s.refiBase < 2 ^ 32 → 
    Completes (.dramTemperatureReport clocks temps rate) s fun t => t.on pDMC DMC_STAT_HOT = true ∧ t.get pDMC DMC_STAT_RATE = rate.val ∧ (t.rd pDMC DMC_REFI).toNat = s.refiBase / 2 ∧ t.Irq pDMC INT_DMC_HOT ∧
      RegFrame (Offs pDMC ([DMC_STAT, DMC_REFI] ++ errRegs)) (s.advance clocks) t) ∧
  (∀ (clocks : Nat) (temps : List Int) (rate : Fin 8) (s : State),
    s.Canonical → (s.advance clocks).pageUp pDMC = true → temps.any (fun x => decide (85 < x)) = false → (s.advance clocks).on pDMC DMC_STAT_HOT = true → s.refiBase < 2 ^ 32 → 
    Completes (.dramTemperatureReport clocks temps rate) s fun t => t.on pDMC DMC_STAT_HOT = false ∧ t.get pDMC DMC_STAT_RATE = rate.val ∧ (t.rd pDMC DMC_REFI).toNat = s.refiBase ∧
      Frame (Offs pDMC [DMC_STAT, DMC_REFI]) (s.advance clocks) (s.advance clocks) t) ∧
  (∀ (word : Fin 16) (p : Fin 80) (check : SlotCheck) (s : State),
    s.Canonical → s.pageUp pSCR = true → s.on pSCR SCR_CTRL_EN = true → s.dramUp = true → s.poisonOf (s.scrubBurst + word.val * 8) = none → s.scrubBurst + 128 ≠ 0x900000000 → 
    Completes (.scrubStep .dram word [p.val] check) s fun t => t.get pSCR SCR_POS_V * 128 = s.scrubBurst + 128 ∧ t.Posted pDMC 0xA113 ((s.scrubBurst + word.val * 8) / 16 % 2 ^ 32) ∧
      (∀ x, t.byte x = s.byte x) ∧ Frame (fun x => Offs pDMC ([DMC_ERR_LO, DMC_ERR_HI, DMC_ERR_POS, DMC_CNT] ++ errRegs) x ∨ Offs pSCR [SCR_POS] x) { s with posts := t.posts, mem := t.mem } s t) ∧
  (∀ (word : Fin 16) (check : SlotCheck) (s : State),
    s.Canonical → s.pageUp pSCR = true → s.on pSCR SCR_CTRL_EN = true → s.dramUp = true → s.scrubBurst + 128 = 0x900000000 → 
    Completes (.scrubStep .dram word [] check) s fun t => t.get pSCR SCR_POS_V * 128 = 0x800000000 ∧ t.Irq pSCR INT_SCR_PASS_DONE ∧ (s.frozen pSCR = false → t.get pSCR SCR_PASS_DRAM = wrapAdd 16 (s.get pSCR SCR_PASS_DRAM) 1) ∧
      Frame (Offs pSCR [SCR_POS, SCR_PASS, INT_RAW]) s s t) ∧
  (∀ (word : Fin 16) (flips : List Nat) (s : State),
    s.Canonical → s.pageUp pSCR = true → s.on pSCR SCR_CTRL_EN = true → s.scrSram + 8 ≠ 0x1000000 → 
    Completes (.scrubStep .sram word flips .good) s fun t => t.scrSram = s.scrSram + 8 ∧ Frame (Offs 0 []) { s with scrSram := s.scrSram + 8 } s t) ∧
  (∀ (addr : Nat) (s : State),
    s.Canonical → s.up.compute = true → 
    Completes (.sramError (.sram addr) true) s fun t => t.Posted pSCR 0xA114 (addr % 2 ^ 32) ∧ Frame (Offs pSCR errRegs) { s with posts := t.posts } s t) ∧
  (∀ (addr : Nat) (s : State),
    s.Canonical → s.up.compute = true → addr < 0x1000000000 → s.get pSCR SCR_POISON_USED < 256 → s.on pSCR (POISON_HI_VALID 0) = false → 
    Completes (.sramError (.sram addr) false) s fun t => t.Posted pSCR 0xA31B (addr % 2 ^ 32) ∧ (t.poisonOf addr).isSome = true ∧ Frame (fun x => Offs pSCR ([SCR_POISON] ++ errRegs) x ∨ ∃ n < 256, Offs pSCR [POISON_LO n, POISON_HI n] x) { s with posts := t.posts } s t) ∧
  (∀ (n : Fin 64) (s : State),
    s.Canonical → s.up.compute = true → 
    Completes (.sramError (.keySlot n) false) s fun t => t.slotValid n.val = false ∧ t.Posted (pKEY (n.val / 32)) 0xB31A 0 ∧ Frame (Offs (pKEY (n.val / 32)) ([SLOT_STAT (n.val % 32)] ++ errRegs)) { s with posts := t.posts } s t) ∧
  (∀ (index : Nat) (s : State),
    s.Canonical → s.up.compute = true → index < 16384 → 
    Completes (.sramError (.entry (.fdb 0) 0 index) false) s fun t => t.badEntry tMAC index = true ∧ t.Posted (pFDB 0) 0x131A index ∧ Frame (Offs (pFDB 0) errRegs) { s with posts := t.posts, badEntries := t.badEntries } s t) ∧
  (∀ (n : Fin 12) (o : Fin 128) (s : State),
    s.Canonical → s.up.compute = true → 
    Completes (.sramError (.canObject n o) false) s fun t => t.objBad n.val o.val = true ∧ t.Posted (pCXC n.val) 0x3320 o.val ∧ Frame (Offs (pCXC n.val) errRegs) { s with posts := t.posts, badEntries := t.badEntries } s t) ∧
  (∀ (a : Access) (v : Word) (s : State),
    s.Canonical → s.Accepts a pDMC DMC_CNT_CLR v → v.getLsbD 0 = true → 
    Completes (.dmcCntClr a v) s fun t => t.rd pDMC DMC_CNT = 0 ∧ t.rd pDMC DMC_ERR_LO = 0 ∧ t.rd pDMC DMC_ERR_HI = 0 ∧ t.rd pDMC DMC_ERR_POS = 0 ∧ Frame (Offs pDMC [DMC_CNT, DMC_ERR_LO, DMC_ERR_HI, DMC_ERR_POS]) s s t)

/-- An allowed NOR command makes the die busy; a program that ends clears bits only, an erase that ends leaves 0xFF in its block, both set DONE and RESULT 01 and touch no other byte; a failed one sets FAIL, RESULT 11 and posts 0xA217. A read in the NOR window by world 0 answers the bytes. FUS_PROG_GO starts an allowed fuse program, whose end sets the bits of the data and no other; a failed one sets no bit but bits of the data and clears none. NOR_CNT_CLR clears the counters. What a failed command leaves is a free value (log entry on free values). Concludes that exec answers the next state for: norProgram, norErase4k, norErase64k, norCmdDone, norRead, norCntClr, fusProgGo, fuseProgramDone. -/
def Obligations.FlashAndFuseCommandsComplete : Prop :=
  (∀ (a : Access) (die : Fin 2) (v : Word) (s : State),
    s.Canonical → s.Accepts a (pNOR die.val) NOR_CMD v → v.getLsbD 16 = true → bitsOf v.toNat 0 3 = 1 → s.norRefused die.val 1 (s.get (pNOR die.val) NOR_ADDR_V) (bitsOf v.toNat 24 8) = false → 
    Completes (.norProgram a die v) s fun t => t.on (pNOR die.val) NOR_CMD_BUSY = true ∧ t.get (pNOR die.val) NOR_CMD_RESULT = 0 ∧ t.on (pNOR die.val) NOR_STAT_BUSY = true ∧
      Frame (Offs (pNOR die.val) [NOR_CMD, NOR_STAT]) { s with norOps := setNth s.norOps die.val (some ⟨1, s.get (pNOR die.val) NOR_ADDR_V, s.norBuf die.val (bitsOf v.toNat 24 8 + 1)⟩) } s t) ∧
  (∀ (a : Access) (die : Fin 2) (v : Word) (s : State),
    s.Canonical → s.Accepts a (pNOR die.val) NOR_CMD v → v.getLsbD 16 = true → bitsOf v.toNat 0 3 = 2 → s.norRefused die.val 2 (s.get (pNOR die.val) NOR_ADDR_V) (bitsOf v.toNat 24 8) = false → 
    Completes (.norErase4k a die v) s fun t => t.on (pNOR die.val) NOR_CMD_BUSY = true ∧ t.get (pNOR die.val) NOR_CMD_RESULT = 0 ∧ t.on (pNOR die.val) NOR_STAT_BUSY = true ∧
      Frame (Offs (pNOR die.val) [NOR_CMD, NOR_STAT]) { s with norOps := setNth s.norOps die.val (some ⟨2, s.get (pNOR die.val) NOR_ADDR_V, []⟩) } s t) ∧
  (∀ (a : Access) (die : Fin 2) (v : Word) (s : State),
    s.Canonical → s.Accepts a (pNOR die.val) NOR_CMD v → v.getLsbD 16 = true → bitsOf v.toNat 0 3 = 3 → s.norRefused die.val 3 (s.get (pNOR die.val) NOR_ADDR_V) (bitsOf v.toNat 24 8) = false → 
    Completes (.norErase64k a die v) s fun t => t.on (pNOR die.val) NOR_CMD_BUSY = true ∧ t.get (pNOR die.val) NOR_CMD_RESULT = 0 ∧ t.on (pNOR die.val) NOR_STAT_BUSY = true ∧
      Frame (Offs (pNOR die.val) [NOR_CMD, NOR_STAT]) { s with norOps := setNth s.norOps die.val (some ⟨3, s.get (pNOR die.val) NOR_ADDR_V, []⟩) } s t) ∧
  (∀ (die : Fin 2) (o : NorOp) (s : State),
    s.Canonical → nth s.norOps die.val none = some o → o.op = 1 → o.off + o.data.length ≤ 0x8000000 → o.data.all (fun b => decide (b < 256)) = true → 
    Completes (.norCmdDone die true) s fun t => t.on (pNOR die.val) NOR_CMD_BUSY = false ∧ t.get (pNOR die.val) NOR_CMD_RESULT = 1 ∧ t.Irq (pNOR die.val) INT_NOR_DONE ∧ t.bytes (norBase die.val + o.off) o.data.length = programBytes (s.bytes (norBase die.val + o.off) o.data.length) o.data ∧
      (∀ x, (x < norBase die.val + o.off ∨ norBase die.val + o.off + o.data.length ≤ x) → t.byte x = s.byte x) ∧
      Frame (Offs (pNOR die.val) [NOR_CMD, NOR_STAT, INT_RAW]) { s with mem := t.mem, norOps := setNth s.norOps die.val none } s t) ∧
  (∀ (die : Fin 2) (o : NorOp) (s : State),
    s.Canonical → nth s.norOps die.val none = some o → o.op = 2 ∨ o.op = 3 → o.off + (norSpan o.op 0) ≤ 0x8000000 → 
    Completes (.norCmdDone die true) s fun t => t.on (pNOR die.val) NOR_CMD_BUSY = false ∧ t.get (pNOR die.val) NOR_CMD_RESULT = 1 ∧ t.Irq (pNOR die.val) INT_NOR_DONE ∧ (∀ x, norBase die.val + o.off ≤ x → x < norBase die.val + o.off + (norSpan o.op 0) → t.byte x = 255) ∧
      (∀ x, (x < norBase die.val + o.off ∨ norBase die.val + o.off + (norSpan o.op 0) ≤ x) → t.byte x = s.byte x) ∧
      Frame (Offs (pNOR die.val) [NOR_CMD, NOR_STAT, NOR_WEAR, INT_RAW]) { s with mem := t.mem, norOps := setNth s.norOps die.val none, norWear := t.norWear } s t) ∧
  (∀ (die : Fin 2) (o : NorOp) (s : State),
    s.Canonical → nth s.norOps die.val none = some o → 
    Completes (.norCmdDone die false) s fun t => t.on (pNOR die.val) NOR_CMD_BUSY = false ∧ t.get (pNOR die.val) NOR_CMD_RESULT = 3 ∧ t.Irq (pNOR die.val) INT_NOR_FAIL ∧ t.Posted (pNOR die.val) 0xA217 o.off ∧ t.fuses = s.fuses ∧ t.tabs = s.tabs ∧
      (∀ x, (x < norBase die.val + o.off ∨ norBase die.val + o.off + (if o.op = 1 then o.data.length else norSpan o.op 0) ≤ x) → t.byte x = s.byte x) ∧
      (∀ x, ¬ Offs (pNOR die.val) ([NOR_CMD, NOR_STAT] ++ errRegs) x → t.rd x 0 = s.rd x 0)) ∧
  (∀ (a : Access) (addr n : Nat) (s : State),
    s.Canonical → s.up.compute = true → regionOf addr = .nor → lvWorld (s.levelOf a) = 0 → s.shell.crossed.contains .NOR = false → nth s.norOps ((addr - 0x40000000) / 0x8000000) none = none → 
    Completes (.norRead a addr n .good) s fun t => t.resp = ⟨.ok, s.memLE addr n⟩ ∧ Frame (Offs 0 []) s s t) ∧
  (∀ (a : Access) (die : Fin 2) (v : Word) (s : State),
    s.Canonical → s.Accepts a (pNOR die.val) NOR_CNT_CLR v → v.getLsbD 0 = true → 
    Completes (.norCntClr a die v) s fun t => t.rd (pNOR die.val) NOR_CNT = 0 ∧ Frame (Offs (pNOR die.val) [NOR_CNT]) s s t) ∧
  (∀ (a : Access) (v : Word) (s : State),
    s.Canonical → s.Accepts a pFUS FUS_PROG_GO v → v.getLsbD 0 = true → s.fuseAllowed a.agent (s.get pFUS FUS_PROG_W_W) = true → s.fuseOp = none → 
    Completes (.fusProgGo a v) s fun t => t.on pFUS FUS_PROG_GO_BUSY = true ∧ t.get pFUS FUS_PROG_GO_RESULT = 0 ∧
      Frame (Offs pFUS [FUS_PROG_GO]) { s with fuseOp := some (s.get pFUS FUS_PROG_W_W, (s.rd pFUS FUS_PROG_DATA).toNat) } s t) ∧
  (∀ (a : Access) (v : Word) (s : State),
    s.Canonical → s.Accepts a pFUS FUS_PROG_GO v → v.getLsbD 0 = true → s.fuseAllowed a.agent (s.get pFUS FUS_PROG_W_W) = false → 
    Completes (.fusProgGo a v) s fun t => t.get pFUS FUS_PROG_GO_RESULT = 2 ∧ t.Posted pFUS 0xA012 0 ∧ Frame (Offs pFUS ([FUS_PROG_GO] ++ errRegs)) { s with posts := t.posts } s t) ∧
  (∀ (w bits : Nat) (s : State),
    s.Canonical → s.fuseOp = some (w, bits) → 
    Completes (.fuseProgramDone true) s fun t => (∀ x bit, t.FuseSet x bit ↔ s.FuseSet x bit ∨ (x = w ∧ bits.testBit bit = true)) ∧ t.get pFUS FUS_PROG_GO_RESULT = 1 ∧ t.on pFUS FUS_PROG_GO_BUSY = false ∧
      Frame (Offs pFUS [FUS_PROG_GO]) { s with fuses := t.fuses, fuseOp := none } s t) ∧
  (∀ (w bits : Nat) (s : State),
    s.Canonical → s.fuseOp = some (w, bits) → 
    Completes (.fuseProgramDone false) s fun t => (∀ x bit, (s.FuseSet x bit → t.FuseSet x bit) ∧ (t.FuseSet x bit → s.FuseSet x bit ∨ (x = w ∧ bits.testBit bit = true))) ∧ t.get pFUS FUS_PROG_GO_RESULT = 3 ∧ t.on pFUS FUS_PROG_GO_BUSY = false ∧
      Frame (Offs pFUS [FUS_PROG_GO]) { s with fuses := t.fuses, fuseOp := none, fresh := t.fresh } s t)

/-- A message of each type that passes the tests of Table 15-4 ends with REASON 0x0 and DONE, KCTR takes its counter, and its effect holds: a key write fills the slot with its policy, authority and unwrapped key; an erase clears the slot; a lifecycle message ORs its value into fuse word 13, and RETURN clears every slot and the derived keys; an unlock stops every core and begins the clearing. A message that fails a test ends with that reason, is counted and posted as 0xB011, and changes nothing else. Concludes that exec answers the next state for: keyWrite, keyErase, lifecycleAdvance, testPortUnlock. -/
def Obligations.KeyMessages : Prop :=
  (∀ (l : List Nat) (s : State), s.Canonical → s.MessageIs l → nth l 0 0 % 16 = 1 → s.messageReason l (s.get pSEC SEC_MSG_LEN_V) = 0 →
    Completes (.keyWrite none) s fun t => t.on pSEC SEC_STAT_BUSY = false ∧ t.on pSEC SEC_RES_DONE = true ∧ t.Irq pSEC INT_SEC_MSG_DONE ∧ t.get pSEC SEC_RES_REASON = 0 ∧ t.get pSEC SEC_RES_TYPE = 1 ∧ t.rd pSEC SEC_KCTR = s.rd pSEC SEC_KCTR + 1 ∧
      t.slotValid (nth l 2 0) = true ∧ t.slotPolicy (nth l 2 0) = beAt l 24 4 % 2 ^ 32 ∧ t.slotAuth (nth l 2 0) = nth l 1 0 % 2 ∧
      t.sec.slots = setNth s.sec.slots (nth l 2 0) ((keyUnwrap (s.kek (nth l 1 0 % 2)) (slice l 28 40)).getD []) ∧ t.fuses = s.fuses) ∧
  (∀ (l : List Nat) (s : State), s.Canonical → s.MessageIs l → nth l 0 0 % 16 = 2 → s.messageReason l (s.get pSEC SEC_MSG_LEN_V) = 0 →
    Completes (.keyErase none) s fun t => t.on pSEC SEC_STAT_BUSY = false ∧ t.on pSEC SEC_RES_DONE = true ∧ t.Irq pSEC INT_SEC_MSG_DONE ∧ t.get pSEC SEC_RES_REASON = 0 ∧ t.get pSEC SEC_RES_TYPE = 2 ∧ t.rd pSEC SEC_KCTR = s.rd pSEC SEC_KCTR + 1 ∧
      t.slotValid (nth l 2 0) = false ∧ t.slotPolicy (nth l 2 0) = 0 ∧ t.sec.slots = setNth s.sec.slots (nth l 2 0) [] ∧ t.fuses = s.fuses) ∧
  (∀ (l : List Nat) (s : State), s.Canonical → s.MessageIs l → nth l 0 0 % 16 = 3 → s.messageReason l (s.get pSEC SEC_MSG_LEN_V) = 0 →
    Completes (.lifecycleAdvance none) s fun t => t.on pSEC SEC_STAT_BUSY = false ∧ t.on pSEC SEC_RES_DONE = true ∧ t.Irq pSEC INT_SEC_MSG_DONE ∧ t.get pSEC SEC_RES_REASON = 0 ∧ t.get pSEC SEC_RES_TYPE = 3 ∧ t.rd pSEC SEC_KCTR = s.rd pSEC SEC_KCTR + 1 ∧
      t.Posted pLCS 0xB01C 0 ∧ (∀ w b, t.FuseSet w b ↔ s.FuseSet w b ∨ (w = 13 ∧ (nth l 2 0).testBit b = true)) ∧
      (nth l 2 0 = 7 → t.sec.derived = [] ∧ t.keysReady = false ∧ ∀ j : Fin 64, t.slotValid j.val = false)) ∧
  (∀ (l : List Nat) (s : State), s.Canonical → s.MessageIs l → nth l 0 0 % 16 = 4 → s.messageReason l (s.get pSEC SEC_MSG_LEN_V) = 0 →
    Completes (.testPortUnlock none) s fun t => t.on pSEC SEC_STAT_BUSY = false ∧ t.on pSEC SEC_RES_DONE = true ∧ t.Irq pSEC INT_SEC_MSG_DONE ∧ t.get pSEC SEC_RES_REASON = 0 ∧ t.get pSEC SEC_RES_TYPE = 4 ∧ t.rd pSEC SEC_KCTR = s.rd pSEC SEC_KCTR + 1 ∧
      t.get pLCS LCS_STAT_TEST = 1 ∧ t.Irq pLCS INT_LCS_TEST_CHANGE ∧ t.sec.stopped = true ∧ (∀ c : Fin 13, t.on (pCORE c.val) CORE_STAT_RUNNING = false) ∧ t.fuses = s.fuses) ∧
  (∀ (l : List Nat) (s : State),
    s.Canonical → s.MessageIs l → nth l 0 0 % 16 = 1 → s.messageReason l (s.get pSEC SEC_MSG_LEN_V) ≠ 0 → 
    Completes (.keyWrite none) s fun t => t.on pSEC SEC_STAT_BUSY = false ∧ t.on pSEC SEC_RES_DONE = true ∧ t.Irq pSEC INT_SEC_MSG_DONE ∧ t.get pSEC SEC_RES_REASON = s.messageReason l (s.get pSEC SEC_MSG_LEN_V) % 16 ∧ t.get pSEC SEC_RES_TYPE = 1 ∧ t.Posted pSEC 0xB011 (beAt l 20 4) ∧
      Frame (Offs pSEC ([SEC_STAT, SEC_RES, SEC_CNT] ++ errRegs)) { s with posts := t.posts } s t) ∧
  (∀ (l : List Nat) (s : State),
    s.Canonical → s.MessageIs l → nth l 0 0 % 16 = 2 → s.messageReason l (s.get pSEC SEC_MSG_LEN_V) ≠ 0 → 
    Completes (.keyErase none) s fun t => t.on pSEC SEC_STAT_BUSY = false ∧ t.on pSEC SEC_RES_DONE = true ∧ t.Irq pSEC INT_SEC_MSG_DONE ∧ t.get pSEC SEC_RES_REASON = s.messageReason l (s.get pSEC SEC_MSG_LEN_V) % 16 ∧ t.get pSEC SEC_RES_TYPE = 2 ∧ t.Posted pSEC 0xB011 (beAt l 20 4) ∧
      Frame (Offs pSEC ([SEC_STAT, SEC_RES, SEC_CNT] ++ errRegs)) { s with posts := t.posts } s t) ∧
  (∀ (l : List Nat) (s : State),
    s.Canonical → s.MessageIs l → nth l 0 0 % 16 = 3 → s.messageReason l (s.get pSEC SEC_MSG_LEN_V) ≠ 0 → 
    Completes (.lifecycleAdvance none) s fun t => t.on pSEC SEC_STAT_BUSY = false ∧ t.on pSEC SEC_RES_DONE = true ∧ t.Irq pSEC INT_SEC_MSG_DONE ∧ t.get pSEC SEC_RES_REASON = s.messageReason l (s.get pSEC SEC_MSG_LEN_V) % 16 ∧ t.get pSEC SEC_RES_TYPE = 3 ∧ t.Posted pSEC 0xB011 (beAt l 20 4) ∧
      Frame (Offs pSEC ([SEC_STAT, SEC_RES, SEC_CNT] ++ errRegs)) { s with posts := t.posts } s t) ∧
  (∀ (l : List Nat) (s : State),
    s.Canonical → s.MessageIs l → nth l 0 0 % 16 = 4 → s.messageReason l (s.get pSEC SEC_MSG_LEN_V) ≠ 0 → 
    Completes (.testPortUnlock none) s fun t => t.on pSEC SEC_STAT_BUSY = false ∧ t.on pSEC SEC_RES_DONE = true ∧ t.Irq pSEC INT_SEC_MSG_DONE ∧ t.get pSEC SEC_RES_REASON = s.messageReason l (s.get pSEC SEC_MSG_LEN_V) % 16 ∧ t.get pSEC SEC_RES_TYPE = 4 ∧ t.Posted pSEC 0xB011 (beAt l 20 4) ∧
      Frame (Offs pSEC ([SEC_STAT, SEC_RES, SEC_CNT] ++ errRegs)) { s with posts := t.posts } s t)

/-- KEYS_DERIVE derives the four keys, loads each capsule channel with saved values equal to its counters and sets KEYS_READY, or in RETURN begins the clearing. The clearing empties the slots, the derived keys, checkpoint SRAM and tightly coupled memory; its verification opens the port or locks it. PROVISION advances the lifecycle, EXPORT shows the derived keys. An extension puts SHA-256 of register and data into M; GO tags the 305 bytes under K_ATT or ends without keys. A capsule check accepts and advances LAST, or gives the first failing test; MAKE builds a reply with the next counter. A CRY job is started or refused under its policy, and ends. Concludes that exec answers the next state for: keysDerive, testPortClearDone, testPortVerifyDone, lcsProvision, lcsExport, attExtend, attGo, capsuleCheck, capsuleMake, channelUnblock, channelRecordsWritten, cryGo, cryJobDone. -/
def Obligations.SecurityCommandsComplete : Prop :=
  (∀ (s : State),
    s.Canonical → s.up.compute = true → s.keysReady = false → s.sec.stopped = false → s.lifecycle ≠ 7 → s.on pFUS FUS_STAT_CHECK_OK = true → 
    Completes (.keysDerive) s fun t => t.keysReady = true ∧ t.sec.derived = s.deriveKeys ∧ t.fuses = s.fuses ∧
      (∀ c : Fin 16, t.rd pCMD (CMD_CH_SVR c.val) = t.rd pCMD (CMD_CH_LAST c.val) ∧ t.rd pCMD (CMD_CH_SVT c.val) = t.rd pCMD (CMD_CH_TX c.val))) ∧
  (∀ (s : State),
    s.Canonical → s.up.compute = true → s.keysReady = false → s.sec.stopped = false → s.lifecycle = 7 → s.get pLCS LCS_STAT_TEST = 0 → 
    Completes (.keysDerive) s fun t => t.get pLCS LCS_STAT_TEST = 1 ∧ t.Irq pLCS INT_LCS_TEST_CHANGE ∧ t.fuse 13 = s.fuse 13 ||| 7 ∧ (∀ w, w ≠ 13 → t.fuse w = s.fuse w) ∧ t.keysReady = false ∧
      Frame (Offs pLCS [LCS_STAT, INT_RAW]) { s with fuses := t.fuses } s t) ∧
  (∀ (s : State),
    s.Canonical → s.get pLCS LCS_STAT_TEST = 1 → 
    Completes (.testPortClearDone) s fun t => t.get pLCS LCS_STAT_TEST = 2 ∧ t.Irq pLCS INT_LCS_TEST_CHANGE ∧ t.keysReady = false ∧ t.sec.derived = [] ∧ (∀ j : Fin 64, t.slotValid j.val = false) ∧
      (∀ x, (0x11000000 ≤ x ∧ x < 0x11180000) ∨ (0x12000000 ≤ x ∧ x < 0x12080000) → t.byte x = 0)) ∧
  (∀ (s : State),
    s.Canonical → s.get pLCS LCS_STAT_TEST = 2 → 
    Completes (.testPortVerifyDone none) s fun t => t.get pLCS LCS_STAT_TEST = 3 ∧ t.Irq pLCS INT_LCS_TEST_CHANGE ∧ t.Posted pLCS 0xB21D 0 ∧ Frame (Offs pLCS ([LCS_STAT] ++ errRegs)) { s with posts := t.posts } s t) ∧
  (∀ (x : Nat) (s : State),
    s.Canonical → s.get pLCS LCS_STAT_TEST = 2 → 
    Completes (.testPortVerifyDone (some x)) s fun t => t.get pLCS LCS_STAT_TEST = 0 ∧ (t.rd pLCS LCS_CLR_ERR).toNat = x % 2 ^ 32 ∧ t.Posted pLCS 0xB319 0 ∧ Frame (Offs pLCS ([LCS_STAT, LCS_CLR_ERR] ++ errRegs)) { s with posts := t.posts } s t) ∧
  (∀ (a : Access) (v : Word) (s : State),
    s.Canonical → s.Accepts a pLCS LCS_CTRL v → a.agent = 0x20 → v.getLsbD 0 = true → v.getLsbD 1 = false → s.lifecycle = 0 → s.on pFUS FUS_STAT_CHECK_OK = true → (s.fuse 30).testBit 0 = true → 
    Completes (.lcsProvision a v) s fun t => t.fuse 13 = s.fuse 13 ||| 1 ∧ (∀ w, w ≠ 13 → t.fuse w = s.fuse w) ∧ t.Posted pLCS 0xB01C 0 ∧ Frame (Offs pLCS errRegs) { s with fuses := t.fuses, posts := t.posts } s t) ∧
  (∀ (a : Access) (v : Word) (s : State),
    s.Canonical → s.Accepts a pLCS LCS_CTRL v → a.agent = 0x20 → v.getLsbD 0 = false → v.getLsbD 1 = true → s.lifecycle = 0 → s.keysReady = true → 
    Completes (.lcsExport a v) s fun t => t.on pLCS LCS_STAT_EXPORTED = true ∧ (∀ k : Fin 24, (t.rd pLCS (LCS_EXP k.val)).toNat = beAt (nth s.sec.derived (k.val / 8) []) (k.val % 8 * 4) 4 % 2 ^ 32) ∧
      Frame (fun x => Offs pLCS [LCS_STAT] x ∨ ∃ k < 24, x = pLCS + LCS_EXP k) s s t) ∧
  (∀ (a : Access) (v : Word) (s : State),
    s.Canonical → s.Accepts a pATT ATT_EXT v → attExtPre a v s = none → v.getLsbD 8 = true → 
    Completes (.attExtend a v) s fun t => (∀ k : Fin 8, (t.rd pATT (ATT_M (8 * bitsOf v.toNat 0 3 + k.val))).toNat =
        beAt (sha256 (s.regBytes pATT (fun k => ATT_M (8 * bitsOf v.toNat 0 3 + k)) 8 ++ s.regBytes pATT ATT_EXT_DATA 8)) (4 * k.val) 4 % 2 ^ 32) ∧
      Frame (fun x => Offs pATT [ATT_EXT] x ∨ ∃ k < 8, x = pATT + ATT_M (8 * bitsOf v.toNat 0 3 + k)) s s t) ∧
  (∀ (a : Access) (v : Word) (s : State),
    s.Canonical → s.Accepts a pATT ATT_CTRL v → v.getLsbD 0 = true → s.keysReady = true → 
    Completes (.attGo a v) s fun t => t.get pATT ATT_CTRL_RESULT = 1 ∧ (∀ k : Fin 8, (t.rd pATT (ATT_TAG k.val)).toNat = beAt (hmacSha256 s.kAtt s.attBytes) (4 * k.val) 4 % 2 ^ 32) ∧
      Frame (fun x => Offs pATT [ATT_CTRL] x ∨ ∃ k < 8, x = pATT + ATT_TAG k) s s t) ∧
  (∀ (a : Access) (v : Word) (s : State),
    s.Canonical → s.Accepts a pATT ATT_CTRL v → v.getLsbD 0 = true → s.keysReady = false → 
    Completes (.attGo a v) s fun t => t.get pATT ATT_CTRL_RESULT = 2 ∧ t.Posted pATT 0xB012 0 ∧ Frame (Offs pATT ([ATT_CTRL] ++ errRegs)) { s with posts := t.posts } s t) ∧
  (∀ (clocks : Nat) (a : Access) (port : Fin 2) (v : Word) (s : State),
    s.Canonical → (s.advance clocks).Accepts a pCMD (CMD_P_GO port.val) v → v.getLsbD 0 = true → v.getLsbD 1 = false → (s.advance clocks).capReason port.val (bitsOf v.toNat 16 5) ((s.advance clocks).regBytes pCMD (capData port.val) 16) = 0 → 
    Completes (.capsuleCheck clocks a port v) s fun t => t.get pCMD (CMD_P_RES_REASON port.val) = 0 ∧ t.get pCMD (CMD_P_RES_CH port.val) = (nth ((s.advance clocks).regBytes pCMD (capData port.val) 16) 1 0 % 16) ∧ t.on pCMD (CMD_P_RES_DONE port.val) = true ∧ t.on pCMD (CMD_P_RES_BUSY port.val) = false ∧ t.Irq pCMD (if port.val = 0 then INT_CMD_PORT0_DONE else INT_CMD_PORT1_DONE) ∧
      (t.rd pCMD (CMD_CH_LAST (nth ((s.advance clocks).regBytes pCMD (capData port.val) 16) 1 0 % 16))).toNat = beAt ((s.advance clocks).regBytes pCMD (capData port.val) 16) (nth ((s.advance clocks).regBytes pCMD (capData port.val) 16) 4 0 + 8) 4 % 2 ^ 32 ∧ (s.frozen pCMD = false → t.get pCMD (CMD_CH_CNT_ACC (nth ((s.advance clocks).regBytes pCMD (capData port.val) 16) 1 0 % 16)) = satAdd 16 ((s.advance clocks).get pCMD (CMD_CH_CNT_ACC (nth ((s.advance clocks).regBytes pCMD (capData port.val) 16) 1 0 % 16))) 1) ∧
      Frame (Offs pCMD [CMD_P_RES port.val, CMD_P_LAST port.val, INT_RAW, CMD_CH_LAST (nth ((s.advance clocks).regBytes pCMD (capData port.val) 16) 1 0 % 16), CMD_CH_CNT (nth ((s.advance clocks).regBytes pCMD (capData port.val) 16) 1 0 % 16)]) (s.advance clocks) (s.advance clocks) t) ∧
  (∀ (clocks : Nat) (a : Access) (port : Fin 2) (v : Word) (s : State),
    s.Canonical → (s.advance clocks).Accepts a pCMD (CMD_P_GO port.val) v → v.getLsbD 0 = true → v.getLsbD 1 = false → (s.advance clocks).capReason port.val (bitsOf v.toNat 16 5) ((s.advance clocks).regBytes pCMD (capData port.val) 16) ∉ [0, 6] → 
    Completes (.capsuleCheck clocks a port v) s fun t => t.get pCMD (CMD_P_RES_REASON port.val) = (s.advance clocks).capReason port.val (bitsOf v.toNat 16 5) ((s.advance clocks).regBytes pCMD (capData port.val) 16) % 16 ∧ t.on pCMD (CMD_P_RES_DONE port.val) = true ∧ t.rd pCMD (CMD_CH_LAST (nth ((s.advance clocks).regBytes pCMD (capData port.val) 16) 1 0 % 16)) = s.rd pCMD (CMD_CH_LAST (nth ((s.advance clocks).regBytes pCMD (capData port.val) 16) 1 0 % 16)) ∧
      RegFrame (Offs pCMD ([CMD_P_RES port.val, CMD_P_LAST port.val, CMD_CH_CNT (nth ((s.advance clocks).regBytes pCMD (capData port.val) 16) 1 0 % 16)] ++ errRegs)) (s.advance clocks) t) ∧
  (∀ (clocks : Nat) (a : Access) (port : Fin 2) (v : Word) (s : State),
    s.Canonical → (s.advance clocks).Accepts a pCMD (CMD_P_GO port.val) v → v.getLsbD 0 = true → v.getLsbD 1 = true → (s.advance clocks).capForm port.val (bitsOf v.toNat 16 5) 8 ((s.advance clocks).regBytes pCMD (capData port.val) 16) = 0 → (s.rd pCMD (CMD_CH_TX (nth ((s.advance clocks).regBytes pCMD (capData port.val) 16) 1 0 % 16))).toNat + 1 ≤ (s.rd pCMD (CMD_CH_SVT (nth ((s.advance clocks).regBytes pCMD (capData port.val) 16) 1 0 % 16))).toNat + 131072 → 
    Completes (.capsuleMake clocks a port v) s fun t => t.get pCMD (CMD_P_RES_REASON port.val) = 0 ∧ t.on pCMD (CMD_P_RES_DONE port.val) = true ∧ t.rd pCMD (CMD_CH_TX (nth ((s.advance clocks).regBytes pCMD (capData port.val) 16) 1 0 % 16)) = s.rd pCMD (CMD_CH_TX (nth ((s.advance clocks).regBytes pCMD (capData port.val) 16) 1 0 % 16)) + 1 ∧ t.Irq pCMD (if port.val = 0 then INT_CMD_PORT0_DONE else INT_CMD_PORT1_DONE) ∧
      RegFrame (fun x => Offs pCMD [CMD_P_RES port.val, CMD_P_LAST port.val, CMD_CH_TX (nth ((s.advance clocks).regBytes pCMD (capData port.val) 16) 1 0 % 16), INT_RAW] x ∨ ∃ k < 16, x = pCMD + capData port.val k) (s.advance clocks) t) ∧
  (∀ (ch : Fin 16) (s : State),
    s.Canonical → 
    Completes (.channelUnblock ch) s fun t => nth t.sec.blocked ch.val false = false ∧ Frame (Offs 0 []) { s with sec.blocked := setNth s.sec.blocked ch.val false } s t) ∧
  (∀ (s : State),
    s.Canonical → s.up.compute = true → s.sleep = zQUIESCE → s.slp.scDone = false → s.slp.ack = false → 
    Completes (.channelRecordsWritten) s fun t => t.slp.scDone = true ∧ Frame (fun x => Offs (pNOR 0) [NOR_WEAR] x ∨ Offs (pNOR 1) [NOR_WEAR] x)
      { s with slp.scDone := true, mem := t.mem, norWear := t.norWear, sec.half := t.sec.half } s t) ∧
  (∀ (a : Access) (inst : Fin 3) (v : Word) (s : State),
    s.Canonical → s.Accepts a (pCRY inst.val) CRY_CTRL v → v.getLsbD 16 = true → s.on (pCRY inst.val) CRY_CTRL_BUSY = false → 
    Completes (.cryGo a inst v) s fun t => (s.cryRefused (pCRY inst.val) v = true → t.get (pCRY inst.val) CRY_STAT_ST = 2 ∧ t.resp = ⟨.error, 0⟩) ∧ (s.cryRefused (pCRY inst.val) v = false → t.on (pCRY inst.val) CRY_CTRL_BUSY = true ∧ t.get (pCRY inst.val) CRY_STAT_ST = 0 ∧ t.resp = ⟨.ok, 0⟩) ∧
      RegFrame (Offs (pCRY inst.val) ([CRY_CTRL, CRY_STAT] ++ errRegs)) s t) ∧
  (∀ (inst : Fin 3) (result l : List Nat) (s1 s2 : State) (s : State),
    s.Canonical → s1.Canonical → s2.Canonical → s.on (pCRY inst.val) CRY_CTRL_BUSY = true → s.dmaRead (17 + inst.val) ((s.rd (pCRY inst.val) CRY_SRC_LO).toNat + (s.rd (pCRY inst.val) CRY_SRC_HI).toNat * 2 ^ 32) (s.rd (pCRY inst.val) CRY_LEN).toNat = (s1, some l) → s1.dmaWrite (17 + inst.val) 0 false ((s.rd (pCRY inst.val) CRY_DST_LO).toNat + (s.rd (pCRY inst.val) CRY_DST_HI).toNat * 2 ^ 32) result = (s2, true) → 
    Completes (.cryJobDone inst true result) s fun t => t.on (pCRY inst.val) CRY_CTRL_BUSY = false ∧ t.get (pCRY inst.val) CRY_STAT_ST = 1 ∧ Frame (Offs (pCRY inst.val) [CRY_CTRL, CRY_STAT]) s2 s2 t) ∧
  (∀ (inst : Fin 3) (result l : List Nat) (s1 : State) (s : State),
    s.Canonical → s1.Canonical → s.on (pCRY inst.val) CRY_CTRL_BUSY = true → s.dmaRead (17 + inst.val) ((s.rd (pCRY inst.val) CRY_SRC_LO).toNat + (s.rd (pCRY inst.val) CRY_SRC_HI).toNat * 2 ^ 32) (s.rd (pCRY inst.val) CRY_LEN).toNat = (s1, some l) → 
    Completes (.cryJobDone inst false result) s fun t => t.on (pCRY inst.val) CRY_CTRL_BUSY = false ∧ t.get (pCRY inst.val) CRY_STAT_ST = 3 ∧ Frame (Offs (pCRY inst.val) [CRY_CTRL, CRY_STAT]) s1 s1 t)

/-- OPEN for a free slot opens a transfer, else it is answered by ABORT 0x8. Manifest blocks are held until all are there, a bad manifest ends the transfer with 0xB021. The prepared slot holds the manifest and is RECEIVING, and block 0 is asked for. The next block with a good hash is taken, one with a bad hash posts 0xB022 and asks again with reason 0x9. A programmed block stands in the slot; a failing program aborts with 0xA217. ACKs tell the next block; no progress sends again, and aborts after five times; CLOSE and ABORT end it. Concludes that exec answers the next state for: relayOpen, relayManifestBlock, slotPrepared, relayTransportBlock, blockProgrammed, relayAck, ackTimer, relayNoProgress, relayClose, relayAbort. -/
def Obligations.RelayCommandsComplete : Prop :=
  (∀ (octets : List Nat) (k : Nat) (s : State),
    s.Canonical → s.scUp = true → relayHead 1 octets = true → allZero (slice octets 4 4) = true → nth octets 9 0 = 0 → 1 ≤ beAt octets 10 2 ∧ beAt octets 10 2 ≤ 256 → 1 ≤ nth octets 8 0 ∧ nth octets 8 0 ≤ 16 → octets.length = 12 + 24 * nth octets 8 0 → s.writableSlot = some k → slice (octets.drop 12) (24 * nth octets 1 0) 16 = s.deviceId → nth octets 1 0 < nth octets 8 0 → s.relayEnabled = true → s.upd.relay = none → 
    Completes (.relayOpen octets) s fun t => (t.upd.relay.map fun r => [r.id, r.hop, r.last, r.slot, r.phase, r.next]) = some [beAt octets 2 2, nth octets 1 0 + 1, nth octets 8 0, k, 0, 0] ∧ Frame (Offs 0 []) { s with upd.relay := t.upd.relay, out := t.out } s t) ∧
  (∀ (octets : List Nat) (s : State),
    s.Canonical → s.scUp = true → relayHead 1 octets = true → allZero (slice octets 4 4) = true → nth octets 9 0 = 0 → 1 ≤ beAt octets 10 2 ∧ beAt octets 10 2 ≤ 256 → 1 ≤ nth octets 8 0 ∧ nth octets 8 0 ≤ 16 → octets.length = 12 + 24 * nth octets 8 0 → s.writableSlot = none → 
    Completes (.relayOpen octets) s fun t => t.out = s.out ++ [.relay (nth octets 1 0) ([0x15, nth octets 1 0 + 1] ++ bytesBE 2 (beAt octets 2 2) ++ [0, 0, 0, 0, 8, nth octets 1 0 + 1, 0, 0])] ∧ Frame (Offs 0 []) { s with out := t.out } s t) ∧
  (∀ (octets : List Nat) (r : Relay) (s : State),
    s.Canonical → s.scUp = true → relayBlockOk 0 octets = true → (s.relayFrom true octets) = some r → r.phase = 0 → r.man = [] → beAt octets 4 4 < 13 → 2 ≤ s.manBlocks { r with man := [(beAt octets 4 4, octets.drop 12)] } → 
    Completes (.relayManifestBlock octets) s fun t => t.upd.relay = some { r with man := [(beAt octets 4 4, octets.drop 12)] } ∧ Frame (Offs 0 []) { s with upd.relay := some { r with man := [(beAt octets 4 4, octets.drop 12)] } } s t) ∧
  (∀ (octets : List Nat) (r : Relay) (m : List (Nat × List Nat)) (s : State),
    s.Canonical → s.scUp = true → relayBlockOk 0 octets = true → (s.relayFrom true octets) = some r → r.phase = 0 → beAt octets 4 4 < 13 → (r.man.lookup (beAt octets 4 4)).isSome = false → m = sortBy (fun x y => decide (x.1 ≤ y.1)) (r.man ++ [(beAt octets 4 4, octets.drop 12)]) → ((List.range (s.manBlocks { r with man := m })).all fun i => (m.lookup i).isSome) = true → m.length = s.manBlocks { r with man := m } → r.hop = r.last → 
    Completes (.relayManifestBlock octets) s fun t => (s.manifestReason (Relay.manifest { r with man := m.filter fun e => decide (e.1 < s.manBlocks { r with man := m }) }) = 0 → (t.upd.relay.map fun x => x.phase) = some 1 ∧ t.posts = s.posts) ∧
      (s.manifestReason (Relay.manifest { r with man := m.filter fun e => decide (e.1 < s.manBlocks { r with man := m }) }) ≠ 0 → t.upd.relay = none ∧
        t.Posted pSEC 0xB021 (r.id * 0x10000 + s.manifestReason (Relay.manifest { r with man := m.filter fun e => decide (e.1 < s.manBlocks { r with man := m }) }))) ∧
      RegFrame (Offs pSEC errRegs) s t) ∧
  (∀ (r : Relay) (s : State),
    s.Canonical → s.upd.relay = some r → r.phase = 1 → r.slot < 2 → r.manifest.length ≤ 0x8000 → r.manifest.all (fun b => decide (b < 256)) = true → 
    Completes (.slotPrepared true) s fun t => t.slotBytes r.slot manOff r.manifest.length = r.manifest ∧ t.slotState r.slot = sRECEIVING ∧ t.upd.relay = some { r with phase := 2, acked := 0 } ∧
      t.out = s.out ++ [.relay (r.hop - 1) (r.frame 3 0 0 r.hop r.w [])] ∧ RegFrame (Offs (pNOR r.slot) [NOR_WEAR]) s { t with mem := s.mem }) ∧
  (∀ (r : Relay) (s : State),
    s.Canonical → s.upd.relay = some r → r.phase = 1 → 
    Completes (.slotPrepared false) s fun t => t.upd.relay = none ∧ t.Posted pSEC 0xB226 (r.id * 0x10000 + 0xD)) ∧
  (∀ (octets : List Nat) (r : Relay) (s : State),
    s.Canonical → s.scUp = true → relayBlockOk 1 octets = true → octets.length = 12 + blockLen → (s.relayFrom true octets) = some r → r.phase = 2 → beAt octets 4 4 = r.next → r.next < (mT r.manifest) → s.blockOk r r.next (octets.drop 12) = true → 
    Completes (.relayTransportBlock octets) s fun t => (t.upd.relay.map fun x => (x.next, x.queue)) = some (r.next + 1, r.queue ++ [(r.next, octets.drop 12)]) ∧ (r.hop = r.last → t.out = s.out) ∧ Frame (Offs 0 []) { s with upd.relay := t.upd.relay, out := t.out } s t) ∧
  (∀ (octets : List Nat) (r : Relay) (s : State),
    s.Canonical → s.scUp = true → relayBlockOk 1 octets = true → octets.length = 12 + blockLen → (s.relayFrom true octets) = some r → r.phase = 2 → beAt octets 4 4 = r.next → r.next < (mT r.manifest) → s.blockOk r r.next (octets.drop 12) = false → 
    Completes (.relayTransportBlock octets) s fun t => t.Posted pSEC 0xB022 r.next ∧ t.out = s.out ++ [.relay (r.hop - 1) (r.frame 3 r.next 9 r.hop r.w [])] ∧ Frame (Offs pSEC errRegs) { s with upd.relay := t.upd.relay, out := t.out, posts := t.posts } s t) ∧
  (∀ (r : Relay) (b : Nat) (l : List Nat) (q : List (Nat × List Nat)) (s : State),
    s.Canonical → s.upd.relay = some r → r.queue = (b, l) :: q → l.all (fun x => decide (x < 256)) = true → 
    Completes (.blockProgrammed true) s fun t => t.slotBytes r.slot (blocksOff + b * blockLen) l.length = programBytes (s.slotBytes r.slot (blocksOff + b * blockLen) l.length) l ∧ (t.upd.relay.map fun x => (x.prog, x.queue)) = some (b + 1, q) ∧ Frame (Offs 0 []) { s with upd.relay := t.upd.relay, out := t.out, mem := t.mem } s t) ∧
  (∀ (r : Relay) (b : Nat) (l : List Nat) (q : List (Nat × List Nat)) (s : State),
    s.Canonical → s.upd.relay = some r → r.queue = (b, l) :: q → 
    Completes (.blockProgrammed false) s fun t => t.upd.relay = none ∧ t.Posted (pNOR r.slot) 0xA217 (slotBase + (blocksOff + b * blockLen)) ∧ t.Posted pSEC 0xB226 (r.id * 0x10000 + 0xD)) ∧
  (∀ (octets : List Nat) (r : Relay) (s : State),
    s.Canonical → s.scUp = true → relayHead 3 octets = true → (s.relayFrom false octets) = some r → r.closeSent = false → nth octets 8 0 = 0 → 
    Completes (.relayAck octets) s fun t => (t.upd.relay.map fun x => x.down) = some (max r.down (beAt octets 4 4)) ∧ Frame (Offs 0 []) { s with upd.relay := t.upd.relay, out := t.out } s t) ∧
  (∀ (r : Relay) (s : State),
    s.Canonical → s.upd.relay = some r → r.phase = 2 → r.acked < r.prog → r.prog < (mT r.manifest) → 
    Completes (.ackTimer) s fun t => Frame (Offs 0 []) { s with upd.relay := some { r with acked := r.prog }, out := s.out ++ [.relay (r.hop - 1) (r.frame 3 r.prog 0 r.hop r.w [])] } s t) ∧
  (∀ (r : Relay) (s : State),
    s.Canonical → s.upd.relay = some r → r.hop < r.last → 2 ≤ r.phase → r.downEnd = none → r.sent ≠ r.down → r.resends < 5 → 
    Completes (.relayNoProgress) s fun t => (t.upd.relay.map fun x => x.resends) = some (r.resends + 1) ∧ Frame (Offs 0 []) { s with upd.relay := t.upd.relay, out := t.out } s t) ∧
  (∀ (r : Relay) (s : State),
    s.Canonical → s.upd.relay = some r → r.hop < r.last → 2 ≤ r.phase → r.downEnd = none → r.sent ≠ r.down → 5 ≤ r.resends → 
    Completes (.relayNoProgress) s fun t => t.upd.relay = none ∧ t.Posted pSEC 0xB226 (r.id * 0x10000 + 0xE)) ∧
  (∀ (octets : List Nat) (r : Relay) (s : State),
    s.Canonical → s.scUp = true → relayHead 4 octets = true → allZero (octets.drop 4) = true → (s.relayFrom true octets) = some r → r.phase = 2 → (mT r.manifest) ≤ r.next → 
    Completes (.relayClose octets) s fun t => (t.upd.relay.map fun x => x.phase) = some 3 ∧ Frame (Offs 0 []) { s with upd.relay := t.upd.relay, out := t.out, mem := t.mem } s t) ∧
  (∀ (octets : List Nat) (r : Relay) (s : State),
    s.Canonical → s.scUp = true → relayHead 5 octets = true → (s.relayFrom true octets) = some r → 
    Completes (.relayAbort octets) s fun t => t.upd.relay = none ∧ t.Posted pSEC 0xB226 (r.id * 0x10000 + nth octets 8 0) ∧ Frame (Offs pSEC errRegs) { s with upd.relay := none, out := t.out, mem := t.mem, posts := t.posts } s t)

/-- A received slot whose checks pass becomes COMPLETE with 0xB023, one whose checks fail REJECTED. SC answers the requests in MB_31: STATUS with both slots, the base version and the counts; TRIAL makes the idle COMPLETE slot TRIAL with its tries; CONFIRM with a good capsule makes the running TRIAL slot CONFIRMED with a raised count; REJECT makes an idle slot REJECTED; ABORT ends a transfer with reason 0xE; a settings write programs the record on both dies, a read answers the length of what it stores. No fuse bit is cleared. Concludes that exec answers the next state for: slotComplete, updateStatus, updateTrial, updateConfirm, updateReject, updateAbort, setWrite, setRead. -/
def Obligations.UpdateCommandsComplete : Prop :=
  (∀ (slot : Fin 2) (s1 : State) (s : State),
    s.Canonical → s1.Canonical → s.scUp = true → s.slotState slot.val = sRECEIVED → s.slotCheck slot.val = (s1, 0) → s1.statusNext slot.val < 1024 → s1.upd.relay = none → 
    Completes (.slotComplete slot true) s fun t => t.slotState slot.val = sCOMPLETE ∧ t.Posted pSEC 0xB023 0 ∧ Frame (Offs pSEC errRegs) { s1 with mem := t.mem, posts := t.posts } s1 t) ∧
  (∀ (slot : Fin 2) (s1 : State) (r : Nat) (s : State),
    s.Canonical → s1.Canonical → s.scUp = true → s.slotState slot.val = sRECEIVED → s.slotCheck slot.val = (s1, r) → r ≠ 0 → s1.statusNext slot.val < 1024 → s1.upd.relay = none → 
    Completes (.slotComplete slot true) s fun t => t.slotState slot.val = sREJECTED ∧ Frame (Offs pSEC errRegs) { s1 with mem := t.mem, posts := t.posts } s1 t) ∧
  (∀ (w : List Nat) (s : State),
    s.Canonical → s.request 1 = some w → s.CanReply w 7 → 
    Completes (.updateStatus) s fun t => t.Replied w 0 [s.statusWord 0, s.statusWord 1, if s.slotState 0 = sEMPTY then 0 else mVersion (s.manifest 0), if s.slotState 1 = sEMPTY then 0 else mVersion (s.manifest 1), s.upd.baseVer, s.fuseCount 32 * 2 ^ 16 + s.fuseCount 48] ∧ t.mem = s.mem ∧ t.fuses = s.fuses ∧ t.upd = s.upd) ∧
  (∀ (w : List Nat) (k : Nat) (s : State),
    s.Canonical → s.request 2 = some w → s.CanReply w 1 → 1 ≤ nth w 0 0 % 256 ∧ nth w 0 0 % 256 ≤ 7 → s.idleSlot (fun st => st == sCOMPLETE) = some k → s.statusNext k < 1024 → 
    Completes (.updateTrial true) s fun t => t.Replied w 0 [] ∧ t.slotState k = sTRIAL ∧ (t.slotInfo k).tries = nth w 0 0 % 256 ∧ t.fuses = s.fuses ∧ t.upd = s.upd) ∧
  (∀ (w b : List Nat) (s1 : State) (k : Fin 2) (s : State),
    s.Canonical → s1.Canonical → s.request 3 = some w → s.capsuleWords (slice w 1 7) (s.settingVal 0xFF02) = (s1, 0, b) → s1.CanReply w 2 → beAt b 2 2 = 0xFFC1 → nth b 4 0 = 8 → allZero (slice b 13 3) = true → s1.upd.run = some k.val → s1.slotState k.val = sTRIAL → beAt b 8 4 = mVersion (s1.manifest k.val) → nth b 12 0 = k.val → s1.statusNext 0 < 1024 ∧ s1.statusNext 1 < 1024 → (s1.slotInfo 0).count + 1 < 2 ^ 32 ∧ (s1.slotInfo 1).count + 1 < 2 ^ 32 → 
    Completes (.updateConfirm true) s fun t => t.Replied w 0 [0] ∧ t.slotInfo k.val = ⟨sCONFIRMED, 0, max (s1.slotInfo 0).count (s1.slotInfo 1).count + 1⟩ ∧ (s1.slotState (1 - k.val) = sCONFIRMED → t.slotState (1 - k.val) = sOLD) ∧ (∀ x bit, s.FuseSet x bit → t.FuseSet x bit)) ∧
  (∀ (w : List Nat) (k : Nat) (s : State),
    s.Canonical → s.request 4 = some w → s.CanReply w 1 → s.idleSlot (fun st => st == sCOMPLETE || st == sTRIAL) = some k → s.statusNext k < 1024 → 
    Completes (.updateReject true) s fun t => t.Replied w 0 [] ∧ t.slotState k = sREJECTED ∧ t.fuses = s.fuses ∧ t.upd = s.upd) ∧
  (∀ (w : List Nat) (r : Relay) (s : State),
    s.Canonical → s.request 5 = some w → s.CanReply w 1 → s.upd.relay = some r → 
    Completes (.updateAbort) s fun t => t.Replied w 0 [] ∧ t.upd.relay = none ∧ t.Posted pSEC 0xB226 (r.id * 0x10000 + 0xE)) ∧
  (∀ (w l : List Nat) (d : Fin 2) (o : Nat) (s : State),
    s.Canonical → s.request 6 = some w → s.CanReply w 1 → nth w 4 0 ≤ 4072 → nth w 1 0 % 2 ^ 16 = 0 → s.keysReady = true → s.ramRead 0 false (nth w 2 0 + nth w 3 0 % 16 * 2 ^ 32) (max (nth w 4 0) 1) = (s, some l) → o = max (s.setUsed 0 s.upd.half) (s.setUsed 1 s.upd.half) → 16 * o + (SetRec.octets s.kSto ⟨nth w 1 0 / 2 ^ 16, 0, s.setAll.foldl (fun m x => max m x.seq) 0 + 1, l.take (nth w 4 0)⟩).length ≤ setHalfSize → s.upd.half < 2 → 
    Completes (.setWrite true) s fun t => t.Replied w 0 [] ∧ t.bytes (norBase d.val + (setLogBase + s.upd.half * setHalfSize + 16 * o)) (SetRec.octets s.kSto ⟨nth w 1 0 / 2 ^ 16, 0, s.setAll.foldl (fun m x => max m x.seq) 0 + 1, l.take (nth w 4 0)⟩).length =
        (SetRec.octets s.kSto ⟨nth w 1 0 / 2 ^ 16, 0, s.setAll.foldl (fun m x => max m x.seq) 0 + 1, l.take (nth w 4 0)⟩).map (· % 256) ∧ t.fuses = s.fuses ∧ t.upd = s.upd) ∧
  (∀ (w : List Nat) (s : State),
    s.Canonical → s.request 7 = some w → s.CanReply w 2 → s.keysReady = true → newestSet (fun r => r.key == nth w 1 0 / 2 ^ 16 && r.fmt == nth w 1 0 % 2 ^ 16) s.setAll = none → 
    Completes (.setRead) s fun t => t.Replied w 0 [0] ∧ t.mem = s.mem ∧ t.fuses = s.fuses ∧ t.upd = s.upd) ∧
  (∀ (w : List Nat) (r : SetRec) (s1 : State) (s : State),
    s.Canonical → s1.Canonical → s.request 7 = some w → s1.CanReply w 2 → s.keysReady = true → newestSet (fun r => r.key == nth w 1 0 / 2 ^ 16 && r.fmt == nth w 1 0 % 2 ^ 16) s.setAll = some r → s.ramWrite 0 false (nth w 2 0 + nth w 3 0 % 16 * 2 ^ 32) (r.data.take (nth w 4 0)) = (s1, true) → 
    Completes (.setRead) s fun t => t.Replied w 0 [(r.data.take (nth w 4 0)).length] ∧ t.mem = s1.mem ∧ t.fuses = s.fuses ∧ t.upd = s.upd)

/-- The loader loads base copy 0 where it is good, else copy 1 with 0xB225. A base installation writes only the journals and the base areas; one whose block fails posts 0xA217. With no bootable slot SC posts 0xB42A, opens MB_31 and runs no slot. A SERVICE request with a good capsule in RUN enters SERVICE. Concludes that exec answers the next state for: loaderStart, baseInstall, slotChoose, serviceRequest. -/
def Obligations.BootCommandsComplete : Prop :=
  (∀ (s : State),
    s.Canonical → s.up.compute = true → s.upd.base = none → s.journal = [] → 
    Completes (.loaderStart) s fun t => (s.baseGood 0 = true → t.upd.base = some 0 ∧ t.upd.baseVer = mVersion (s.manifestAt 0 0) ∧ t.posts = s.posts) ∧
      (s.baseGood 0 = false → t.upd.base = some 1 ∧ t.upd.baseVer = mVersion (s.manifestAt 1 0) ∧ t.Posted pSEC 0xB225 0) ∧
      RegFrame (fun x => Offs pSEC errRegs x ∨ ∃ k < 16, x = pATT + ATT_M k) s t) ∧
  (∀ (slot : Nat) (s : State),
    s.Canonical → s.up.compute = true → s.upd.base = none → s.installing = some slot → s.jnlNext 0 ≤ 1024 ∧ s.jnlNext 1 ≤ 1024 → 
    Completes (.baseInstall true) s fun t => (∀ x, ¬ (fun x => (norBase 0 + jnlBase ≤ x ∧ x < norBase 0 + jnlBase + 0x10000) ∨ (norBase 1 + jnlBase ≤ x ∧ x < norBase 1 + jnlBase + 0x10000)) x → ¬ (norBase 0 + slotBase ≤ x ∧ x < norBase 0 + slotBase + 0x100000) → ¬ (norBase 1 + slotBase ≤ x ∧ x < norBase 1 + slotBase + 0x100000) → t.byte x = s.byte x) ∧
      t.upd = s.upd ∧ t.fuses = s.fuses ∧ t.tabs = s.tabs ∧ (∀ x, ¬ (Offs (pNOR 0) [NOR_WEAR] x ∨ Offs (pNOR 1) [NOR_WEAR] x) → t.rd x 0 = s.rd x 0)) ∧
  (∀ (slot k j : Nat) (q : List (Nat × Nat)) (s : State),
    s.Canonical → s.up.compute = true → s.upd.base = none → s.installing = some slot → s.blocksLeft = (k, j) :: q → 
    Completes (.baseInstall false) s fun t => t.Posted (pNOR k) 0xA217 (slotBase + 0x10000 * j) ∧ t.upd = s.upd ∧ t.fuses = s.fuses ∧ t.tabs = s.tabs) ∧
  (∀ (s : State),
    s.Canonical → s.scUp = true → s.upd.base ≠ none → s.upd.chosen = false → s.slotState 0 ≠ sRECEIVED → s.slotState 1 ≠ sRECEIVED → s.slotFound = .none → 
    Completes (.slotChoose) s fun t => t.upd.chosen = true ∧ t.upd.run = s.upd.run ∧ t.Posted pSEC 0xB42A 0 ∧ t.get (pMBC 31) MB_CFG_RX_AGENT = 0x20 ∧ t.fuses = s.fuses ∧ t.tabs = s.tabs) ∧
  (∀ (k : Nat) (s : State),
    s.Canonical → s.scUp = true → s.upd.base ≠ none → s.upd.chosen = false → s.slotState 0 ≠ sRECEIVED → s.slotState 1 ≠ sRECEIVED → s.slotFound = .confirmed k → 
    Completes (.slotChoose) s fun t => (s.slotLoads k = true → t.upd.chosen = true ∧ t.upd.run = some k) ∧ (s.slotLoads k = false → t.Posted pSEC 0xB329 k) ∧ (∀ x bit, s.FuseSet x bit → t.FuseSet x bit)) ∧
  (∀ (w b : List Nat) (s1 : State) (s : State),
    s.Canonical → s1.Canonical → s.request 8 = some w → s.capsuleWords (slice w 1 6) (s.settingVal 0xFF02) = (s1, 0, b) → s1.CanReply w 2 → beAt b 2 2 = 0xFFC2 → nth b 4 0 = 4 → 1 ≤ beAt b 8 4 ∧ beAt b 8 4 ≤ 255 → s1.mode = mRUN ∨ s1.mode = mDEGRADED → 
    Completes (.serviceRequest) s fun t => t.Replied w 0 [0] ∧ t.mode = mSERVICE ∧ t.slp.serviceEnd = s1.tb.clocks + min (beAt b 8 4) (s1.get pSLP SLP_SERVICE_MAX) * 30000000000 ∧ t.fuses = s.fuses)

/-- A stable XO calibrates RCO; one that is not stable in time puts the PLLs on RCO with 0xC213; XO32 becomes good; a timing mark moves the trim by one step. A supervision window within 0.2 % passes and counts, one outside fails, sets the fault and, for the entry of a power-die oscillator, posts 0xC217; the vote of entries 0 to 2 names XO32. The loss of PLL_A resets the cluster, another resets the compute die. A crossing in reset ends what is outstanding with errors. A clock stops when idle and runs again. Concludes that exec answers the next state for: xoStable, xoStartTimeout, xo32Stable, rcTimingMark, supervisionWindow, pllLockLoss, crossingReset, crossingRehandshake, clockGateIdle, clockGateWake. -/
def Obligations.ClockCommandsComplete : Prop :=
  (∀ (clocks count : Nat) (s : State),
    s.Canonical → (s.advance clocks).up.compute = true → (s.advance clocks).on pCLK CLK_STAT_XO_STABLE = false → 
    Completes (.xoStable clocks count) s fun t => t.on pCLK CLK_STAT_XO_STABLE = true ∧ t.on pCLK CLK_STAT_RCO_CAL = true ∧ t.get pCLK CLK_RCO_CAL_E = count % 2 ^ 16 ∧ t.get pCSV (CSV_EXP_E 0) = count % 2 ^ 24 ∧
      Frame (Regs [pCLK + CLK_STAT, pCLK + CLK_RCO_CAL, pCSV + CSV_EXP 0]) (s.advance clocks) (s.advance clocks) t) ∧
  (∀ (clocks : Nat) (s : State),
    s.Canonical → (s.advance clocks).up.compute = true → (s.advance clocks).on pCLK CLK_STAT_XO_STABLE = false → (s.advance clocks).on pCLK CLK_STAT_ON_RCO = false → 
    Completes (.xoStartTimeout clocks) s fun t => t.on pCLK CLK_STAT_ON_RCO = true ∧ t.Irq pCLK INT_CLK_ON_RCO ∧ t.Posted pCLK 0xC213 0 ∧ (∀ i : Fin 5, t.on (pPLL i.val) PLL_STAT_REF_RCO = true) ∧
      Frame (fun x => Offs pCLK ([CLK_STAT] ++ errRegs) x ∨ ∃ i < 5, x = pPLL i + PLL_STAT) { s.advance clocks with posts := t.posts, clk := t.clk } (s.advance clocks) t) ∧
  (∀ (clocks : Nat) (s : State),
    s.Canonical → (s.advance clocks).up.compute = true → (s.advance clocks).dieOn 0 = true → 
    Completes (.xo32Stable clocks) s fun t => t.on pCLK CLK_STAT_XO32_OK = true ∧ Frame (Offs pCLK [CLK_STAT]) (s.advance clocks) (s.advance clocks) t) ∧
  (∀ (clocks : Nat) (die : Fin 2) (count : Nat) (s : State),
    s.Canonical → (s.advance clocks).dieUp die.val = true → ((s.advance clocks).die die.val).rcFault = false → 
    Completes (.rcTimingMark clocks die count) s fun t => t.clk.rcTrim = modNth (s.advance clocks).clk.rcTrim die.val (fun x => if count < 20000 then x + 1 else if 20000 < count then x - 1 else x) ∧ Frame (Offs 0 []) { s.advance clocks with clk := t.clk } (s.advance clocks) t) ∧
  (∀ (clocks : Nat) (e : Fin 10) (c x : Nat) (s : State),
    s.Canonical → (s.advance clocks).up.compute = true → (s.advance clocks).windowDiscarded e.val (some c) = false → 3 ≤ e.val → (s.advance clocks).get pCSV (CSV_EXP_E e.val) = x → ¬ (x / 500 < absInt ((c : Int) - (x : Int))) → c < 2 ^ 24 → (s.advance clocks).on pCSV ⟨CSV_FAULT, e.val, 1⟩ = false → 
    Completes (.supervisionWindow clocks [(e, some c)]) s fun t => t.on pCSV (CSV_STAT_OK e.val) = true ∧ t.on pCSV (CSV_STAT_SUSPENDED e.val) = false ∧ (s.frozen pCSV = false → t.get pCSV (CSV_CNT_CNT e.val) = c) ∧ (s.frozen pCSV = false → t.get pCSV (CSV_STAT_WINDOWS e.val) = wrapAdd 16 ((s.advance clocks).get pCSV (CSV_STAT_WINDOWS e.val)) 1) ∧
      Frame (Offs pCSV [CSV_CNT e.val, CSV_STAT e.val]) { s.advance clocks with clk := t.clk } (s.advance clocks) t) ∧
  (∀ (clocks : Nat) (e : Fin 10) (c x : Nat) (s : State),
    s.Canonical → (s.advance clocks).up.compute = true → (s.advance clocks).windowDiscarded e.val (some c) = false → 8 ≤ e.val → (s.advance clocks).get pCSV (CSV_EXP_E e.val) = x → (x / 500 < absInt ((c : Int) - (x : Int))) → c < 2 ^ 24 → (s.advance clocks).on pCSV ⟨CSV_FAULT, e.val, 1⟩ = false → 
    Completes (.supervisionWindow clocks [(e, some c)]) s fun t => t.on pCSV (CSV_STAT_OK e.val) = false ∧ t.on pCSV ⟨CSV_FAULT, e.val, 1⟩ = true ∧ t.Irq pCSV INT_CSV_FAULT ∧ t.Posted pCSV 0xC217 e.val ∧
      Frame (Offs pCSV ([CSV_CNT e.val, CSV_STAT e.val, CSV_FAULT] ++ errRegs)) { s.advance clocks with clk := t.clk, dies := t.dies, posts := t.posts } (s.advance clocks) t) ∧
  (∀ (clocks c x : Nat) (s : State),
    s.Canonical → (s.advance clocks).up.compute = true → (s.advance clocks).windowDiscarded 1 (some c) = false → (s.advance clocks).get pCSV (CSV_EXP_E 1) = x → (x / 500 < absInt ((c : Int) - (x : Int))) → c < 2 ^ 24 → (s.advance clocks).on pCSV ⟨CSV_FAULT, 1, 1⟩ = false → (s.advance clocks).clk.verdict = [some true, some true, some false] → (s.advance clocks).clk.faulty.testBit 1 = false → 
    Completes (.supervisionWindow clocks [(1, some c)]) s fun t => t.on pCSV ⟨CSV_FAULT, 1, 1⟩ = true ∧ t.Irq pCSV INT_CSV_FAULT ∧ t.Irq pCLK INT_CLK_XO32 ∧ t.Posted pCSV 0xC214 1) ∧
  (∀ (clocks : Nat) (s : State),
    s.Canonical → (s.advance clocks).up.compute = true → 
    Completes (.pllLockLoss clocks 0) s fun t => t.Irq (pPLL 0) INT_PLL_LOCK_LOST ∧ t.Posted pCSV 0xC216 3 ∧ (∀ k : Fin 4, t.pairState k.val = cDOWN) ∧ (∀ c : Fin 8, t.on (pCORE c.val) CORE_STAT_RUNNING = false) ∧ t.up.compute = true) ∧
  (∀ (clocks : Nat) (pll : Fin 5) (s : State),
    s.Canonical → (s.advance clocks).up.compute = true → pll.val ≠ 0 → (s.advance clocks).cutting = false → 
    Completes (.pllLockLoss clocks pll) s fun t => t.up.compute = false ∧ (t.get pRST RST_CAUSE_CAUSE).testBit 5 = true ∧ (pCSV, 0xC41A, 3 + pll.val) ∈ t.clk.afterStart ∧ t.fuses = s.fuses) ∧
  (∀ (domain : ClockDomain) (s : State),
    s.Canonical → s.up.compute = true → s.shell.crossed.contains domain = false → 
    Completes (.crossingReset domain []) s fun t => Frame (Offs 0 []) { s with shell.crossed := s.shell.crossed ++ [domain] } s t) ∧
  (∀ (domain : ClockDomain) (x : Nat) (s : State),
    s.Canonical → s.up.compute = true → s.shell.crossed.contains domain = false → (pageOf x).isSome = true → 
    Completes (.crossingReset domain [x]) s fun t => t.resp = ⟨.error, 0⟩ ∧ t.shell.crossed.contains domain = true ∧ t.Posted (pageBase x) (commonCode (subsystemOf (pageBase x)) 0x08) (x % 2 ^ 32)) ∧
  (∀ (domain : ClockDomain) (s : State),
    s.Canonical → s.up.compute = true → s.shell.crossed.contains domain = true → 
    Completes (.crossingRehandshake domain []) s fun t => t.shell.crossed.contains domain = false ∧ Frame (Offs 0 []) { s with shell.crossed := t.shell.crossed } s t) ∧
  (∀ (page : Nat) (s : State),
    s.Canonical → s.pageUp (pageBase page) = true → s.get (pageBase page) CLK_REQ_POLICY = 0 → ungatedTy (tyOf (pageBase page)) = false → s.shell.idle.contains (pageBase page) = false → s.shell.draining = [] → 
    Completes (.clockGateIdle page) s fun t => Frame (Offs 0 []) { s with shell.idle := s.shell.idle ++ [pageBase page] } s t) ∧
  (∀ (page : Nat) (s : State),
    s.Canonical → 
    Completes (.clockGateWake page) s fun t => t.shell.idle.contains (pageBase page) = false ∧ Frame (Offs 0 []) { s with shell.idle := t.shell.idle } s t)

/-- PWR_DOM POLICY takes each of its values; a switch-off that is needed elsewhere is refused with 0xC011. A domain that is off leaves its pages at their reset values; one that is on shows it. VFS_REQ plans towards the request, or is CAPPED with 0xC010; a step that ends brings the rail or the divider to its value, the last one DONE; a rail outside 10 mV sets VFAIL with 0xC218; CLR_FAIL clears it; a faster divider follows the ceiling; CLK_AC_DIV sets the divider on the HZ9620. Concludes that exec answers the next state for: pwrDomFollow, pwrDomWakeOn, pwrDomOff, domainOffDone, domainOnDone, vfsReq, vfsStepDone, vfsRailFail, vfsClrFail, vfsCeilingChange, clkAcDivWrite. -/
def Obligations.PowerDomainCommands : Prop :=
  (∀ (a : Access) (d : Fin 10) (v : Word) (s : State),
    s.Canonical → s.Accepts a pPWR (PWR_DOM d.val) v → pwrDomPre d.val s = none → bitsOf v.toNat 0 2 = 0 → 
    Completes (.pwrDomFollow a d v) s fun t => t.get pPWR (PWR_DOM_POLICY d.val) = 0 ∧ t.on pPWR (PWR_DOM_ON d.val) = s.on pPWR (PWR_DOM_ON d.val) ∧ Frame (Offs pPWR [(PWR_DOM d.val)]) s s t) ∧
  (∀ (a : Access) (d : Fin 10) (v : Word) (s : State),
    s.Canonical → s.Accepts a pPWR (PWR_DOM d.val) v → pwrDomPre d.val s = none → bitsOf v.toNat 0 2 = 1 → s.domainNeeded d.val = false → 
    Completes (.pwrDomWakeOn a d v) s fun t => t.get pPWR (PWR_DOM_POLICY d.val) = 1 ∧ t.on pPWR (PWR_DOM_ON d.val) = s.on pPWR (PWR_DOM_ON d.val) ∧ Frame (Offs pPWR [(PWR_DOM d.val)]) s s t) ∧
  (∀ (a : Access) (d : Fin 10) (v : Word) (s : State),
    s.Canonical → s.Accepts a pPWR (PWR_DOM d.val) v → pwrDomPre d.val s = none → bitsOf v.toNat 0 2 = 2 → s.domainNeeded d.val = false → 
    Completes (.pwrDomOff a d v) s fun t => t.get pPWR (PWR_DOM_POLICY d.val) = 2 ∧ t.on pPWR (PWR_DOM_ON d.val) = s.on pPWR (PWR_DOM_ON d.val) ∧ Frame (Offs pPWR [(PWR_DOM d.val)]) s s t) ∧
  (∀ (a : Access) (d : Fin 10) (v : Word) (s : State),
    s.Canonical → s.Accepts a pPWR (PWR_DOM d.val) v → pwrDomPre d.val s = none → bitsOf v.toNat 0 2 ≠ 0 → s.domainNeeded d.val = true → 
    Completes (.pwrDomOff a d v) s fun t => t.resp = ⟨.error, 0⟩ ∧ t.Posted pPWR 0xC011 v.toNat ∧ t.rd pPWR (PWR_DOM d.val) = s.rd pPWR (PWR_DOM d.val) ∧ Frame (Offs pPWR errRegs) { s with posts := t.posts } s t) ∧
  (∀ (clocks : Nat) (d : Fin 10) (s : State),
    s.Canonical → (s.advance clocks).up.compute = true → (s.advance clocks).on pPWR (PWR_DOM_ON d.val) = true → (s.advance clocks).domainWanted d.val = false → 
    Completes (.domainOffDone clocks d 0) s fun t => t.on pPWR (PWR_DOM_ON d.val) = false ∧ t.on pPWR ⟨PWR_STAT, d.val, 1⟩ = false ∧ (∀ p ∈ domainPages d.val, ∀ off < 0x1000, t.rd p off = resetVal (p + off))) ∧
  (∀ (clocks : Nat) (d : Fin 10) (left : Nat) (s : State),
    s.Canonical → (s.advance clocks).up.compute = true → (s.advance clocks).on pPWR (PWR_DOM_ON d.val) = true → (s.advance clocks).domainWanted d.val = false → left ≠ 0 → 
    Completes (.domainOffDone clocks d left) s fun t => t.on pPWR (PWR_DOM_ON d.val) = false ∧ t.on pPWR (PWR_DOM_DRAIN_ERR d.val) = true ∧ t.Irq pPWR INT_PWR_DRAIN_ERR) ∧
  (∀ (clocks : Nat) (d : Fin 10) (s : State),
    s.Canonical → (s.advance clocks).up.compute = true → (s.advance clocks).on pPWR (PWR_DOM_ON d.val) = false → (s.advance clocks).domainWanted d.val = true → d.val ≠ 9 → 
    Completes (.domainOnDone clocks d) s fun t => t.on pPWR (PWR_DOM_ON d.val) = true ∧ t.on pPWR ⟨PWR_STAT, d.val, 1⟩ = true ∧ t.Irq pPWR INT_PWR_DOMAIN_ON ∧ Frame (Offs pPWR [(PWR_DOM d.val), PWR_STAT, INT_RAW]) (s.advance clocks) (s.advance clocks) t) ∧
  (∀ (a : Access) (v : Word) (x : VfsStep) (s : State),
    s.Canonical → s.Accepts a pVFS VFS_REQ v → s.on pVFS VFS_STAT_VFAIL = false → s.get pVFS VFS_CEIL_OP ≤ (bitsOf v.toNat 0 3) → s.clk.step = none → s.vfsNext (bitsOf v.toNat 0 3) = some x → 
    Completes (.vfsReq a v) s fun t => t.clk.step = some x ∧ t.on pVFS VFS_STAT_BUSY = true ∧ t.get pVFS VFS_STAT_TARGET = (bitsOf v.toNat 0 3) ∧ t.on pVFS VFS_STAT_CAPPED = false ∧ Frame (Offs pVFS [VFS_REQ, VFS_STAT]) { s with clk.step := some x } s t) ∧
  (∀ (a : Access) (v : Word) (s : State),
    s.Canonical → s.Accepts a pVFS VFS_REQ v → s.on pVFS VFS_STAT_VFAIL = false → (bitsOf v.toNat 0 3) < s.get pVFS VFS_CEIL_OP → 
    Completes (.vfsReq a v) s fun t => t.on pVFS VFS_STAT_CAPPED = true ∧ t.get pVFS VFS_STAT_TARGET = s.get pVFS VFS_CEIL_OP ∧ t.Posted pVFS 0xC010 v.toNat) ∧
  (∀ (clocks mv : Nat) (s : State),
    s.Canonical → (s.advance clocks).up.compute = true → (s.advance clocks).clk.step = some (.ramp mv) → 
    Completes (.vfsStepDone clocks) s fun t => t.clk.rail = mv ∧ t.fuses = s.fuses ∧ t.mem = s.mem) ∧
  (∀ (clocks c : Nat) (s : State),
    s.Canonical → (s.advance clocks).up.compute = true → (s.advance clocks).clk.step = some (.divider c) → (s.advance clocks).on pVFS VFS_STAT_VFAIL = false → (s.advance clocks).on pVFS VFS_STAT_BUSY = true → max ((s.advance clocks).get pVFS VFS_REQ_OP) ((s.advance clocks).get pVFS VFS_CEIL_OP) = c → (s.advance clocks).clk.rail = (s.advance clocks).opVolts c → 
    Completes (.vfsStepDone clocks) s fun t => t.clk.div = c ∧ t.clk.step = none ∧ t.get pVFS VFS_STAT_CUR = c ∧ t.on pVFS VFS_STAT_BUSY = false ∧ t.Irq pVFS INT_VFS_DONE ∧ t.get pCSV (CSV_EXP_E 3) = clusterExp c) ∧
  (∀ (clocks mv x : Nat) (s : State),
    s.Canonical → (s.advance clocks).up.compute = true → (s.advance clocks).clk.step = some (.ramp x) → 10 < absInt ((mv : Int) - (x : Int)) → 
    Completes (.vfsRailFail clocks mv) s fun t => t.on pVFS VFS_STAT_VFAIL = true ∧ t.on pVFS VFS_STAT_BUSY = false ∧ t.get pVFS VFS_STAT_CUR = 5 ∧ t.clk.div = 5 ∧ t.Irq pVFS INT_VFS_VFAIL ∧ t.Posted pVFS 0xC218 0) ∧
  (∀ (a : Access) (v : Word) (s : State),
    s.Canonical → s.Accepts a pVFS VFS_CTRL v → v.getLsbD 0 = true → 
    Completes (.vfsClrFail a v) s fun t => t.on pVFS VFS_STAT_VFAIL = false ∧ Frame (Offs pVFS [VFS_STAT]) s s t) ∧
  (∀ (s : State),
    s.Canonical → s.up.compute = true → s.hz9620 = true → s.clk.div < s.get pVFS VFS_CEIL_OP → 
    Completes (.vfsCeilingChange) s fun t => t.clk.div = s.get pVFS VFS_CEIL_OP ∧ t.get pCLK CLK_AC_DIV_DIV = s.get pVFS VFS_CEIL_OP ∧ Frame (Regs [pCSV + CSV_EXP 3, pCLK + CLK_AC_DIV]) { s with clk := t.clk } s t) ∧
  (∀ (s : State),
    s.Canonical → s.up.compute = true → s.hz9620 = false → s.on pVFS VFS_STAT_VFAIL = false → 
    Completes (.vfsCeilingChange) s fun t => t.get pVFS VFS_STAT_TARGET = max (s.get pVFS VFS_REQ_OP) (s.get pVFS VFS_CEIL_OP) ∧ Frame (Offs pVFS [VFS_STAT, VFS_CNT, INT_RAW]) { s with clk := t.clk } s t) ∧
  (∀ (a : Access) (v : Word) (s : State),
    s.Canonical → s.Accepts a pCLK CLK_AC_DIV v → clkAcDivPre v s = none → 
    Completes (.clkAcDivWrite a v) s fun t => t.clk.div = (bitsOf v.toNat 0 3) ∧ t.get pCLK CLK_AC_DIV_DIV = (bitsOf v.toNat 0 3) ∧ t.get pCSV (CSV_EXP_E 3) = clusterExp (bitsOf v.toNat 0 3) ∧ Frame (Regs [pCLK + CLK_AC_DIV, pCSV + CSV_EXP 3]) { s with clk := t.clk } s t)

/-- A keyed RST_REQ (without the key the write is refused with cause 0x0B) resets the compute die, which then keeps only what Table 17-9 keeps, the cluster, a real-time pair, or a power die whose channels are off; a compared pair of the Headstock and a die with a channel on are refused with 0xC011. The watchdog is enabled for good, kicked, warns, and expires. The compute die is reset and released, with fuses loaded and SC running. The always-on reset with the supply gone leaves OFF. Power on requests a start; the real-time pairs and the cluster are released. Concludes that exec answers the next state for: rstReqCompute, rstReqCluster, rstReqRp, rstReqDie, watchdogEnable, watchdogKick, watchdogWarn, watchdogExpiry, computeDieReset, computeDieRelease, alwaysOnReset, powerOn, realtimeRelease, clusterRelease. -/
def Obligations.ResetCommandsComplete : Prop :=
  (∀ (a : Access) (v : Word) (s : State),
    s.Canonical → s.Accepts a pRST RST_REQ v → rstReqPre a v s = none → bitsOf v.toNat 16 16 = 0xA55A → v.getLsbD 0 = true ∧ v.getLsbD 8 = false ∧ v.getLsbD 9 = false → s.cutting = false → 
    Completes (.rstReqCompute a v) s fun t => t.up.compute = false ∧ (t.get pRST RST_CAUSE_CAUSE).testBit 2 = true ∧ t.fuses = s.fuses ∧ t.chans = s.chans ∧ t.dies = s.dies ∧ t.pending = s.pending ∧ (∀ x, keptReg x = false → pageBase x ≠ pSLP → t.rd x 0 = resetVal x) ∧
      (s.mode = mRUN → s.dieOn 0 = true → t.mode = mSTEADY_REST)) ∧
  (∀ (a : Access) (v : Word) (s : State),
    s.Canonical → s.Accepts a pRST RST_REQ v → lvMonitor (s.levelOf a) = true → bitsOf v.toNat 16 16 ≠ 0xA55A → 
    Completes (.rstReqCompute a v) s fun t => t.resp = ⟨.error, 0⟩ ∧ t.Posted pRST (commonCode (subsystemOf pRST) 0x0B) ((pRST + RST_REQ) % 2 ^ 32) ∧ Frame (Offs pRST errRegs) { s with posts := t.posts } s t) ∧
  (∀ (a : Access) (v : Word) (s : State),
    s.Canonical → s.Accepts a pRST RST_REQ v → rstReqPre a v s = none → bitsOf v.toNat 16 16 = 0xA55A → v.getLsbD 0 = false ∧ v.getLsbD 1 = true ∧ v.getLsbD 2 = false ∧ v.getLsbD 3 = false ∧ v.getLsbD 8 = false ∧ v.getLsbD 9 = false → 
    Completes (.rstReqCluster a v) s fun t => (∀ k : Fin 4, t.pairState k.val = cDOWN) ∧ (∀ c : Fin 8, t.on (pCORE c.val) CORE_STAT_RUNNING = false) ∧ (s.frozen pRST = false → t.get pRST RST_CNT_CLUSTER = satAdd 8 (s.get pRST RST_CNT_CLUSTER) 1) ∧ t.up = s.up ∧ t.fuses = s.fuses) ∧
  (∀ (a : Access) (v : Word) (s : State),
    s.Canonical → s.Accepts a pRST RST_REQ v → rstReqPre a v s = none → bitsOf v.toNat 16 16 = 0xA55A → v.getLsbD 0 = false ∧ v.getLsbD 1 = false ∧ v.getLsbD 2 = true ∧ v.getLsbD 3 = false ∧ v.getLsbD 8 = false ∧ v.getLsbD 9 = false → ¬ (s.pairState 4 = cCOMPARED ∧ s.isHeadstock = true) → 
    Completes (.rstReqRp a v) s fun t => t.pairState 4 = cDOWN ∧ t.on (pCORE 8) CORE_STAT_RUNNING = false ∧ t.on (pCORE 9) CORE_STAT_RUNNING = false ∧ (s.frozen pRST = false → t.get pRST RST_CNT_RP = satAdd 8 (s.get pRST RST_CNT_RP) 1) ∧ t.up = s.up ∧ t.fuses = s.fuses) ∧
  (∀ (a : Access) (v : Word) (s : State),
    s.Canonical → s.Accepts a pRST RST_REQ v → rstReqPre a v s = none → bitsOf v.toNat 16 16 = 0xA55A → v.getLsbD 0 = false ∧ v.getLsbD 1 = false ∧ v.getLsbD 2 = true ∧ v.getLsbD 3 = false ∧ v.getLsbD 8 = false ∧ v.getLsbD 9 = false → s.pairState 4 = cCOMPARED → s.isHeadstock = true → 
    Completes (.rstReqRp a v) s fun t => t.resp = ⟨.error, 0⟩ ∧ t.Posted pRST 0xC011 v.toNat ∧ t.pairState 4 = cCOMPARED ∧ Frame (Offs pRST errRegs) { s with posts := t.posts } s t) ∧
  (∀ (a : Access) (v : Word) (s : State),
    s.Canonical → s.Sized → s.Accepts a pRST RST_REQ v → rstReqPre a v s = none → bitsOf v.toNat 16 16 = 0xA55A → v.getLsbD 0 = false ∧ v.getLsbD 1 = false ∧ v.getLsbD 2 = false ∧ v.getLsbD 3 = false ∧ v.getLsbD 8 = false ∧ v.getLsbD 9 = true → (s.chanIxs 1).any (fun i => s.chanCode 1 i != 0) = false → s.dieOn 1 = true → 
    Completes (.rstReqDie a v) s fun t => t.dieOn 1 = false ∧ t.dieOn 0 = s.dieOn 0 ∧ (∀ i : Fin 16, ∀ off < 0x1000, t.rd (pLSW 1 i.val) off = resetVal (pLSW 1 i.val + off)) ∧ (s.frozen pRST = false → t.get pRST RST_CNT_DIE = satAdd 8 (s.get pRST RST_CNT_DIE) 1) ∧ t.fuses = s.fuses) ∧
  (∀ (a : Access) (v : Word) (s : State),
    s.Canonical → s.Accepts a pRST RST_REQ v → rstReqPre a v s = none → bitsOf v.toNat 16 16 = 0xA55A → v.getLsbD 0 = false ∧ v.getLsbD 1 = false ∧ v.getLsbD 2 = false ∧ v.getLsbD 3 = false ∧ v.getLsbD 8 = false ∧ v.getLsbD 9 = true → (s.chanIxs 1).any (fun i => s.chanCode 1 i != 0) = true → 
    Completes (.rstReqDie a v) s fun t => t.resp = ⟨.error, 0⟩ ∧ t.Posted pRST 0xC011 v.toNat ∧ Frame (Offs pRST errRegs) { s with posts := t.posts } s t) ∧
  (∀ (a : Access) (v : Word) (s : State),
    s.Canonical → s.Accepts a pRST RST_WDG v → v.getLsbD 16 = true → s.on pRST RST_WDG_EN = false → 
    Completes (.watchdogEnable a v) s fun t => t.on pRST RST_WDG_EN = true ∧ t.get pRST RST_WDG_TMO = bitsOf v.toNat 0 10 ∧ Frame (Offs pRST [RST_WDG]) { s with clk.wdgAt := s.tb.clocks } s t) ∧
  (∀ (a : Access) (v : Word) (s : State),
    s.Canonical → s.Accepts a pRST RST_WDG v → s.on pRST RST_WDG_EN = true → 
    Completes (.watchdogEnable a v) s fun t => t.on pRST RST_WDG_EN = true ∧ Frame (Offs pRST [RST_WDG]) s s t) ∧
  (∀ (a : Access) (v : Word) (s : State),
    s.Canonical → s.Accepts a pRST RST_WDG_KICK v → s.on pRST RST_WDG_EN = true → v = 0x5AA5 → 
    Completes (.watchdogKick a v) s fun t => Frame (Offs 0 []) { s with clk.wdgAt := s.tb.clocks } s t) ∧
  (∀ (a : Access) (v : Word) (s : State),
    s.Canonical → s.Accepts a pRST RST_WDG_KICK v → s.on pRST RST_WDG_EN = true → v ≠ 0x5AA5 → s.cutting = false → 
    Completes (.watchdogKick a v) s fun t => t.up.compute = false ∧ (t.get pRST RST_CAUSE_CAUSE).testBit 3 = true ∧ t.fuses = s.fuses ∧ (pRST, 0xC219, 0) ∈ t.clk.afterStart) ∧
  (∀ (clocks : Nat) (s : State),
    s.Canonical → (s.advance clocks).wdgPast 1 = true → 
    Completes (.watchdogWarn clocks) s fun t => t.Irq pRST INT_RST_WDG_WARN ∧ Frame (Offs pRST [INT_RAW]) (s.advance clocks) (s.advance clocks) t) ∧
  (∀ (clocks : Nat) (s : State),
    s.Canonical → (s.advance clocks).wdgPast 2 = true → (s.advance clocks).cutting = false → 
    Completes (.watchdogExpiry clocks) s fun t => t.up.compute = false ∧ (t.get pRST RST_CAUSE_CAUSE).testBit 3 = true ∧ t.fuses = s.fuses ∧ (pRST, 0xC219, 0) ∈ t.clk.afterStart) ∧
  (∀ (clocks : Nat) (cause : ResetCause) (s : State),
    s.Canonical → (s.advance clocks).up.compute = true → (s.advance clocks).cutting = false → 
    Completes (.computeDieReset clocks cause) s fun t => t.up.compute = false ∧ (t.get pRST RST_CAUSE_CAUSE).testBit (match cause with | .powerOn => 0 | .vlogLow => 1) = true ∧ t.fuses = s.fuses ∧ t.chans = s.chans) ∧
  (∀ (clocks : Nat) (io : StartTest) (s : State),
    s.Canonical → (s.advance clocks).up.compute = false → (s.advance clocks).slp.starting = true ∨ (s.advance clocks).mode = mSTEADY_REST → 
    Completes (.computeDieRelease clocks io) s fun t => t.up.compute = true ∧ t.on (pCORE 12) CORE_STAT_RUNNING = true ∧ t.on pFUS FUS_STAT_LOADED = true ∧ (∀ i : Fin 5, t.on (pPLL i.val) PLL_STAT_LOCKED = true) ∧ t.clk.afterStart = [] ∧ t.fuses = s.fuses) ∧
  (∀ (clocks : Nat) (s : State),
    s.Canonical → s.Sized → 
    Completes (.alwaysOnReset clocks true) s fun t => t.mode = mOFF ∧ t.up.alwaysOn = false ∧ t.up.compute = false ∧ t.dieOn 0 = false ∧ t.dieOn 1 = false ∧ t.get pRST RST_CAUSE_CAUSE = 256 ∧ t.fuses = s.fuses) ∧
  (∀ (clocks : Nat) (s : State),
    s.Canonical → (s.advance clocks).mode = mOFF → (s.advance clocks).slp.starting = false → (s.advance clocks).up.compute = false → 
    Completes (.powerOn clocks) s fun t => t.slp.starting = true ∧ t.slp.wake = ⟨4, 0⟩ ∧ Frame (Offs 0 []) { s.advance clocks with slp := t.slp } (s.advance clocks) t) ∧
  (∀ (clocks : Nat) (program : List (List Nat)) (s : State),
    s.Canonical → (s.advance clocks).scUp = true → (s.advance clocks).slp.starting = true → (s.advance clocks).upd.run.isSome = true → 
    Completes (.realtimeRelease clocks program) s fun t => t.mode = mPARTIAL ∧ t.up.rp = [true, true] ∧ t.slp.starting = false ∧ t.fuses = s.fuses) ∧
  (∀ (clocks k : Nat) (s : State),
    s.Canonical → (s.advance clocks).upd.run = some k → (s.advance clocks).scUp = true → (s.advance clocks).up.cluster = false → (s.advance clocks).slp.starting = false → (s.advance clocks).on pDMC DMC_STAT_TRAINED = true → (s.advance clocks).mode = mPARTIAL → (s.advance clocks).slp.goRun = true → 
    Completes (.clusterRelease clocks) s fun t => t.up.cluster = true ∧ (t.mode = mRUN ∨ t.mode = mDEGRADED) ∧ t.slp.goRun = false ∧ t.fuses = s.fuses)

/-- A request for RUN leaves PARTIAL for RUN or, with a cause, DEGRADED; ends PREP; a request that Table 18-1 does not allow is refused with 0xC012. PARTIAL is entered with every application core stopped. DEG_CAUSE takes RUN to DEGRADED and back. The limit of SERVICE ends it with 0xC029. A vote shows in its node; an AWAKE vote in PREP aborts with 0xC021; a node times out to SILENT. The own vote is written. SHUTDOWN is entered on request or after PREP, its acknowledgement or time-out passes the point of no return; the self-test starts, is skipped, ends; the rails are cut and the module is in STANDBY. Concludes that exec answers the next state for: slpModeReqRun, slpModeReqPartial, degCauseChange, serviceLimitExpiry, slpVoteIn, voteTimeout, ownSleepWrite, prepExpiry, shdnReq, shdnAck, shdnTimeout, shutdownSelfTest, selfTestDone, computeRailsCut. -/
def Obligations.ModeCommandsComplete : Prop :=
  (∀ (a : Access) (v : Word) (s : State),
    s.Canonical → s.Accepts a pSLP SLP_MODE_REQ v → bitsOf v.toNat 0 3 = mRUN → s.sleep ≠ zPREP ∧ s.sleep ≠ zQUIESCE → s.mode = mPARTIAL → 
    Completes (.slpModeReqRun a v) s fun t => t.mode = (if s.degNow = 0 then mRUN else mDEGRADED) ∧ t.get pSLP SLP_STAT_DEG_CAUSE = s.degNow % 64 ∧ t.up = s.up ∧ t.fuses = s.fuses ∧ t.mem = s.mem) ∧
  (∀ (a : Access) (v : Word) (s : State),
    s.Canonical → s.Accepts a pSLP SLP_MODE_REQ v → bitsOf v.toNat 0 3 = mRUN → s.sleep = zPREP → 
    Completes (.slpModeReqRun a v) s fun t => t.sleep = zAWAKE ∧ t.mode = s.mode ∧ t.Irq pSLP INT_SLP_ABORT ∧ t.Posted pSLP 0xC021 0) ∧
  (∀ (a : Access) (v : Word) (s : State),
    s.Canonical → s.Accepts a pSLP SLP_MODE_REQ v → bitsOf v.toNat 0 3 = mRUN → s.sleep ≠ zPREP ∧ s.sleep ≠ zQUIESCE → s.mode ≠ mPARTIAL → s.mode ≠ mSERVICE → 
    Completes (.slpModeReqRun a v) s fun t => t.resp = ⟨.error, 0⟩ ∧ t.mode = s.mode ∧ t.Posted pSLP 0xC012 v.toNat ∧ Frame (Offs pSLP errRegs) { s with posts := t.posts } s t) ∧
  (∀ (a : Access) (v : Word) (s : State),
    s.Canonical → s.Accepts a pSLP SLP_MODE_REQ v → bitsOf v.toNat 0 3 = mPARTIAL → s.mode = mRUN ∨ s.mode = mDEGRADED → (List.range 8).any (fun c => s.on (pCORE c) CORE_STAT_RUNNING) = false → 
    Completes (.slpModeReqPartial a v) s fun t => t.mode = mPARTIAL ∧ t.up.cluster = false ∧ t.slp.goRun = false ∧ t.Irq pSLP INT_SLP_MODE ∧ t.fuses = s.fuses ∧ t.mem = s.mem) ∧
  (∀ (s : State),
    s.Canonical → s.up.compute = true → s.mode = mRUN → s.degNow ≠ 0 → 
    Completes (.degCauseChange) s fun t => t.mode = mDEGRADED ∧ t.get pSLP SLP_STAT_DEG_CAUSE = s.degNow % 64 ∧ t.Posted pSLP 0xC227 0 ∧ Frame (Offs pSLP ([SLP_STAT, BLK_STAT] ++ errRegs)) { s with posts := t.posts } s t) ∧
  (∀ (s : State),
    s.Canonical → s.up.compute = true → s.mode = mDEGRADED → s.degNow = 0 → 
    Completes (.degCauseChange) s fun t => t.mode = mRUN ∧ t.get pSLP SLP_STAT_DEG_CAUSE = 0 ∧ Frame (Offs pSLP [SLP_STAT, BLK_STAT, INT_RAW]) s s t) ∧
  (∀ (clocks : Nat) (s : State),
    s.Canonical → (s.advance clocks).up.compute = true → (s.advance clocks).mode = mSERVICE → (s.advance clocks).slp.serviceEnd ≤ (s.advance clocks).tb.clocks → (s.advance clocks).testState = 0 → 
    Completes (.serviceLimitExpiry clocks) s fun t => (t.mode = mRUN ∨ t.mode = mDEGRADED) ∧ t.Posted pSLP 0xC029 0 ∧ t.fuses = s.fuses ∧ t.mem = s.mem) ∧
  (∀ (clocks : Nat) (s : State),
    s.Canonical → (s.advance clocks).up.compute = true → (s.advance clocks).mode = mSERVICE → (s.advance clocks).slp.serviceEnd ≤ (s.advance clocks).tb.clocks → (s.advance clocks).testState ≠ 0 → 
    Completes (.serviceLimitExpiry clocks) s fun t => t = ((s.advance clocks).err pSLP 0xC029 0).computeReset 2) ∧
  (∀ (a : Access) (v : Word) (s : State),
    s.Canonical → s.Accepts a pSLP SLP_VOTE_IN v → slpVotePre v s = none → 
    Completes (.slpVoteIn a v) s fun t => t.get pSLP (SLP_NODE_STAT_KIND (bitsOf v.toNat 0 6)) = (bitsOf v.toNat 8 4) ∧ t.on pSLP (SLP_NODE_STAT_SILENT (bitsOf v.toNat 0 6)) = false ∧ t.on pSLP (SLP_NODE_STAT_FEED_OFF (bitsOf v.toNat 0 6)) = false ∧ t.fuses = s.fuses ∧ t.mem = s.mem) ∧
  (∀ (a : Access) (v : Word) (s : State),
    s.Canonical → s.Accepts a pSLP SLP_VOTE_IN v → slpVotePre v s = none → (bitsOf v.toNat 8 4) = 1 → s.sleep = zPREP → s.ownSleep = false → 
    Completes (.slpVoteIn a v) s fun t => t.sleep = zAWAKE ∧ t.Irq pSLP INT_SLP_ABORT ∧ t.Posted pSLP 0xC021 0) ∧
  (∀ (clocks : Nat) (node : Fin 64) (s : State),
    s.Canonical → (s.advance clocks).up.compute = true → (s.advance clocks).nodeIn node.val = true → nth (s.advance clocks).slp.votes node.val 0 + (s.advance clocks).get pSLP SLP_TIME_VOTE_TMO * tenMs ≤ (s.advance clocks).tb.clocks → 
    Completes (.voteTimeout clocks node) s fun t => t.on pSLP (SLP_NODE_STAT_SILENT node.val) = true ∧ Frame (Offs pSLP [SLP_NODE_STAT node.val, SLP_STAT, SLP_ROUND, INT_RAW]) { s.advance clocks with slp := t.slp } (s.advance clocks) t) ∧
  (∀ (a : Access) (v : Word) (s : State),
    s.Canonical → s.Accepts a pSLP SLP_CTRL v → v.getLsbD 8 = false → v.getLsbD 9 = false → v.getLsbD 10 = false → s.sleep = zAWAKE → 
    Completes (.ownSleepWrite a v) s fun t => t.on pSLP SLP_CTRL_OWN_SLEEP = v.getLsbD 0 ∧ t.on pSLP SLP_CTRL_PARKED = v.getLsbD 1 ∧ t.mode = s.mode ∧ t.fuses = s.fuses ∧ t.mem = s.mem) ∧
  (∀ (clocks : Nat) (s : State),
    s.Canonical → (s.advance clocks).up.compute = true → (s.advance clocks).sleep = zPREP → (s.advance clocks).awakeMode = true → (s.advance clocks).slp.phaseAt + (s.advance clocks).get pSLP SLP_TIME_PREP_T * tenMs ≤ (s.advance clocks).tb.clocks → 
    Completes (.prepExpiry clocks) s fun t => t.mode = mSHUTDOWN ∧ t.sleep = zQUIESCE ∧ t.Irq pSLP INT_SLP_SHDN ∧ t.slp.entry = (s.advance clocks).mode ∧ Frame (Offs pSLP [BLK_STAT, SLP_STAT, INT_RAW]) { s.advance clocks with slp := t.slp } (s.advance clocks) t) ∧
  (∀ (a : Access) (v : Word) (s : State),
    s.Canonical → s.Accepts a pSLP SLP_CTRL v → v.getLsbD 9 = true → s.awakeMode = true → 
    Completes (.shdnReq a v) s fun t => t.mode = mSHUTDOWN ∧ t.sleep = zQUIESCE ∧ t.Irq pSLP INT_SLP_SHDN ∧ t.fuses = s.fuses ∧ t.mem = s.mem) ∧
  (∀ (a : Access) (v : Word) (s : State),
    s.Canonical → s.Accepts a pSLP SLP_CTRL v → v.getLsbD 9 = true → s.awakeMode = false → 
    Completes (.shdnReq a v) s fun t => t.resp = ⟨.error, 0⟩ ∧ t.Posted pSLP 0xC012 v.toNat ∧ Frame (Offs pSLP errRegs) { s with posts := t.posts } s t) ∧
  (∀ (a : Access) (v : Word) (s : State),
    s.Canonical → s.Accepts a pSLP SLP_CTRL v → v.getLsbD 9 = false → v.getLsbD 10 = true → s.mode = mSHUTDOWN → s.sleep = zQUIESCE → s.slp.scDone = true → s.dieOn 0 = true → s.on (pDBR 0) BR_STAT_PEER_DOWN = false → 
    Completes (.shdnAck a v) s fun t => t.sleep = zCUTTING ∧ t.mode = mSHUTDOWN ∧ t.slp.ack = true ∧ t.fuses = s.fuses ∧ t.mem = s.mem) ∧
  (∀ (a : Access) (v : Word) (s : State),
    s.Canonical → s.Accepts a pSLP SLP_CTRL v → v.getLsbD 9 = false → v.getLsbD 10 = true → s.mode = mSHUTDOWN → s.sleep = zQUIESCE → s.slp.scDone = true → s.dieOn 0 = false → 
    Completes (.shdnAck a v) s fun t => t.mode = mPARTIAL ∧ t.sleep = zAWAKE ∧ t.on pSLP SLP_STAT_NO_STANDBY = true ∧ t.Posted pSLP 0xC228 0) ∧
  (∀ (a : Access) (v : Word) (s : State),
    s.Canonical → s.Accepts a pSLP SLP_CTRL v → v.getLsbD 9 = false → v.getLsbD 10 = true → s.mode = mSHUTDOWN → s.sleep = zQUIESCE → s.slp.scDone = false → 
    Completes (.shdnAck a v) s fun t => t.slp.ack = true ∧ t.sleep = zQUIESCE ∧ t.mode = mSHUTDOWN) ∧
  (∀ (clocks : Nat) (s : State),
    s.Canonical → (s.advance clocks).up.compute = true → (s.advance clocks).sleep = zQUIESCE → (s.advance clocks).slp.phaseAt + (s.advance clocks).get pSLP SLP_TIME_SHDN_TMO * tenMs ≤ (s.advance clocks).tb.clocks → (s.advance clocks).dieOn 0 = true → (s.advance clocks).on (pDBR 0) BR_STAT_PEER_DOWN = false → 
    Completes (.shdnTimeout clocks) s fun t => t.sleep = zCUTTING ∧ t.Posted pSLP 0xC226 0 ∧ t.fuses = s.fuses ∧ t.mem = s.mem) ∧
  (∀ (clocks : Nat) (tj : Int) (s : State),
    s.Canonical → (s.advance clocks).cutting = true → (s.advance clocks).slp.test = 0 → (s.advance clocks).skipReason tj = none → 
    Completes (.shutdownSelfTest clocks tj) s fun t => t.slp.test = 1 ∧ t.sec.stopped = true ∧ (∀ c : Fin 13, t.on (pCORE c.val) CORE_STAT_RUNNING = false) ∧ t.mem = s.mem ∧ t.posts = s.posts) ∧
  (∀ (clocks : Nat) (tj : Int) (r : Nat) (s : State),
    s.Canonical → (s.advance clocks).cutting = true → (s.advance clocks).slp.test = 0 → (s.advance clocks).skipReason tj = some r → 
    Completes (.shutdownSelfTest clocks tj) s fun t => t.slp.test = 2 ∧ t.get pSTS STS_RESULT_RESULT = 3 ∧ t.get pSTS STS_RESULT_SKIP = r ∧ t.Posted pSTS 0xD010 ((s.advance clocks).repNewest + 1)) ∧
  (∀ (clocks : Nat) (io : SelfTest) (s : State),
    s.Canonical → (s.advance clocks).cutting = true → (s.advance clocks).slp.test = 1 → (s.advance clocks).slp.latch = none → io.vbatLeft = false → io.failed.val = 0 → io.failures = [] → 
    Completes (.selfTestDone clocks io) s fun t => t.slp.test = 2 ∧ t.get pSTS STS_RESULT_RESULT = 1 ∧ t.get pSTS STS_RESULT_FAILED = 0 ∧ t.posts = s.posts ∧ t.fuses = s.fuses) ∧
  (∀ (clocks : Nat) (s : State),
    s.Canonical → s.Sized → (s.advance clocks).cutting = true → (s.advance clocks).slp.test = 2 → (s.advance clocks).slp.latch = none → 
    Completes (.computeRailsCut clocks) s fun t => t.mode = mSTANDBY ∧ t.up.compute = false ∧ t.dieOn 1 = false ∧ t.fuses = s.fuses)

/-- WAKE_L or a CAN wake-up starts the module from STANDBY with its source. A pulse is driven on request and ends. A line that stays low is STUCK with 0xC225 until it is high, which lets an agreed network go to PREP. An AWAKE vote of a parked network that lasts too long is OVERDUE with 0xC222. COMM_OK validates the wake; a window without one counts it, and at the maximum disarms the source with 0xC224 until its hold ends. The counters are cleared. Concludes that exec answers the next state for: wakeLWake, canWakePattern, wakeLPulse, wakeLPulseEnd, wakeLStuck, wakeLHigh, maxAwakeExpiry, commOk, falseWakeWindowEnd, falseWakeHoldEnd, slpCntClr. -/
def Obligations.WakeCommandsComplete : Prop :=
  (∀ (clocks : Nat) (s : State),
    s.Canonical → (s.advance clocks).mode = mSTANDBY → (s.advance clocks).slp.starting = false → (s.advance clocks).up.alwaysOn = true → (s.advance clocks).slp.driving = false → (s.advance clocks).slp.low = false → (s.advance clocks).dieOn 0 = true → (s.advance clocks).on pSLP SLP_WAKE_WAKEL_ARM = true → (s.advance clocks).fwkDisarmed 0 = false → 
    Completes (.wakeLWake clocks) s fun t => t.slp.starting = true ∧ t.slp.wake = ⟨0, 0⟩ ∧ t.slp.low = true ∧ Frame (Offs 0 []) { s.advance clocks with slp := t.slp } (s.advance clocks) t) ∧
  (∀ (clocks : Nat) (c : Fin 2) (w : CanWake) (s : State),
    s.Canonical → (s.advance clocks).mode = mSTANDBY → (s.advance clocks).slp.starting = false → (s.advance clocks).up.alwaysOn = true → (s.advance clocks).dieOn 0 = true → (s.advance clocks).wakeArmed c.val = true → (s.advance clocks).wakeDetected c.val w = true → 
    Completes (.canWakePattern clocks c w) s fun t => t.slp.starting = true ∧ t.slp.wake = ⟨1 + c.val, 0⟩ ∧ Frame (Offs 0 []) { s.advance clocks with slp := t.slp, out := t.out } (s.advance clocks) t) ∧
  (∀ (a : Access) (v : Word) (s : State),
    s.Canonical → s.Accepts a pSLP SLP_WAKE v → v.getLsbD 17 = true → s.dieOn 0 = true → s.slp.driving = false → 
    Completes (.wakeLPulse a v) s fun t => t.slp.driving = true ∧ t.out = s.out ++ [.wakeL true] ∧ Frame (Offs pSLP [SLP_WAKE]) { s with slp.driving := true, out := s.out ++ [.wakeL true] } s t) ∧
  (∀ (clocks : Nat) (s : State),
    s.Canonical → (s.advance clocks).slp.driving = true → 
    Completes (.wakeLPulseEnd clocks) s fun t => t.slp.driving = false ∧ t.out = (s.advance clocks).out ++ [.wakeL false] ∧ t.fuses = s.fuses ∧ t.mem = s.mem) ∧
  (∀ (clocks : Nat) (s : State),
    s.Canonical → (s.advance clocks).slp.driving = false → (s.advance clocks).dieOn 0 = true → (s.advance clocks).up.compute = true → (s.advance clocks).on pSLP SLP_STAT_WAKEL_STUCK = false → 
    Completes (.wakeLStuck clocks) s fun t => t.slp.low = true ∧ t.on pSLP SLP_STAT_WAKEL_STUCK = true ∧ t.Irq pSLP INT_SLP_WAKEL_STUCK ∧ t.Posted pSLP 0xC225 ((s.advance clocks).rd pSLP SLP_WK_SRC).toNat ∧ Frame (Offs pSLP ([SLP_STAT] ++ errRegs)) { s.advance clocks with slp := t.slp, posts := t.posts } (s.advance clocks) t) ∧
  (∀ (clocks : Nat) (s : State),
    s.Canonical → ({ s.advance clocks with slp.low := false }.set pSLP SLP_STAT_WAKEL_STUCK 0).agreed = true → 
    Completes (.wakeLHigh clocks) s fun t => t.slp.low = false ∧ t.on pSLP SLP_STAT_WAKEL_STUCK = false ∧ t.sleep = zPREP ∧ t.get pSLP SLP_ROUND_ROUND = wrapAdd 16 ((s.advance clocks).get pSLP SLP_ROUND_ROUND) 1 ∧ t.Irq pSLP INT_SLP_PREP ∧ Frame (Offs pSLP [SLP_STAT, SLP_ROUND, INT_RAW]) { s.advance clocks with slp := t.slp } (s.advance clocks) t) ∧
  (∀ (clocks : Nat) (n : Fin 64) (s : State),
    s.Canonical → (s.advance clocks).up.compute = true → (s.advance clocks).on pSLP SLP_CTRL_PARKED = true → (s.advance clocks).get pSLP SLP_TIME_MAX_AWAKE ≠ 0 → (s.advance clocks).get pSLP SLP_TIME_MAX_AWAKE * 30000000000 ≤ (s.advance clocks).awakeFor n.val → (s.advance clocks).on pSLP (SLP_NODE_STAT_OVERDUE n.val) = false → 
    Completes (.maxAwakeExpiry clocks (some n)) s fun t => t.on pSLP (SLP_NODE_STAT_OVERDUE n.val) = true ∧ t.Irq pSLP INT_SLP_OVERDUE ∧ t.Posted pSLP 0xC222 n.val) ∧
  (∀ (clocks : Nat) (s : State),
    s.Canonical → (s.advance clocks).up.compute = true → (s.advance clocks).on pSLP SLP_CTRL_PARKED = true → (s.advance clocks).get pSLP SLP_TIME_MAX_AWAKE ≠ 0 → (s.advance clocks).get pSLP SLP_TIME_MAX_AWAKE * 30000000000 ≤ (s.advance clocks).awakeFor 64 → 
    Completes (.maxAwakeExpiry clocks none) s fun t => t.Irq pSLP INT_SLP_OVERDUE ∧ t.Posted pSLP 0xC222 64 ∧ Frame (Offs pSLP errRegs) { s.advance clocks with slp := t.slp, posts := t.posts } (s.advance clocks) t) ∧
  (∀ (a : Access) (v : Word) (src : Nat) (s : State),
    s.Canonical → s.Accepts a pSLP SLP_CTRL v → v.getLsbD 8 = true → v.getLsbD 9 = false → v.getLsbD 10 = false → s.slp.window = some src → src < 51 → 
    Completes (.commOk a v) s fun t => t.slp.window = none ∧ t.get pSLP (fwkField src) = 0 ∧ t.fuses = s.fuses ∧ t.mem = s.mem) ∧
  (∀ (clocks src : Nat) (s : State),
    s.Canonical → (s.advance clocks).up.compute = true → (s.advance clocks).slp.window = some src → src < 3 → (s.advance clocks).slp.relAt + (s.advance clocks).get pSLP SLP_FWK_CFG_FW_WIN * tenMs ≤ (s.advance clocks).tb.clocks → min ((s.advance clocks).get pSLP (fwkField src) + 1) 15 < (s.advance clocks).get pSLP SLP_FWK_CFG_FWK_MAX → 
    Completes (.falseWakeWindowEnd clocks) s fun t => t.slp.window = none ∧ t.get pSLP (fwkField src) = min ((s.advance clocks).get pSLP (fwkField src) + 1) 15 ∧ Frame (Offs pSLP [SLP_FWK_CNT]) { s.advance clocks with slp.window := none } (s.advance clocks) t) ∧
  (∀ (clocks src : Nat) (s : State),
    s.Canonical → (s.advance clocks).up.compute = true → (s.advance clocks).slp.window = some src → src < 3 → (s.advance clocks).slp.relAt + (s.advance clocks).get pSLP SLP_FWK_CFG_FW_WIN * tenMs ≤ (s.advance clocks).tb.clocks → (s.advance clocks).get pSLP SLP_FWK_CFG_FWK_MAX ≤ min ((s.advance clocks).get pSLP (fwkField src) + 1) 15 → 
    Completes (.falseWakeWindowEnd clocks) s fun t => t.fwkDisarmed src = true ∧ t.Irq pSLP INT_SLP_FWK_DIS ∧ t.Posted pSLP 0xC224 ((s.advance clocks).rd pSLP SLP_WK_SRC).toNat ∧ Frame (Offs pSLP ([SLP_FWK_CNT] ++ errRegs)) { s.advance clocks with slp.window := none, posts := t.posts } (s.advance clocks) t) ∧
  (∀ (clocks : Nat) (source : Fin 51) (s : State),
    s.Canonical → (s.advance clocks).fwkDisarmed source.val = true → source.val < 3 → 
    Completes (.falseWakeHoldEnd clocks source) s fun t => t.fwkDisarmed source.val = false ∧ t.get pSLP (fwkField source.val) = 0 ∧ Frame (Offs pSLP [SLP_FWK_CNT]) (s.advance clocks) (s.advance clocks) t) ∧
  (∀ (a : Access) (v : Word) (s : State),
    s.Canonical → s.Accepts a pSLP SLP_CNT_CLR v → v.getLsbD 0 = true → 
    Completes (.slpCntClr a v) s fun t => t.rd pSLP SLP_CNT = 0 ∧ Frame (Offs pSLP [SLP_CNT]) s s t)

/-- The waiting code of the highest severity is taken first: it is counted, logged as a new entry, and starts a handling with INT NEW; one of higher severity pre-empts with the old handling on the stack; one that is not higher is nested; one below both thresholds is only counted. A read of LOG_TAKE removes the oldest entry; LOG_CTRL.CLR empties the log; FAG_DONE ends the handling or resumes the one on the stack; the counters are cleared. Escalation warns, then resets the compute die. A missing test code clears its path bit with 0xD31B; differing power-die logic posts 0xD41C; a contradiction posts 0xD31D; the repair log is loaded. Concludes that exec answers the next state for: faultCodePost, logTakeRead, logClr, fagDone, fagCntClr, escalationWarn, escalation, pathTest, powerDieLogicDiffer, plausibilityFail, repairLogLoad. -/
def Obligations.HealthCommandsComplete : Prop :=
  (∀ (clocks i : Nat) (x : Post) (s : State),
    s.Canonical → (s.advance clocks).up.compute = true → (s.advance clocks).on pFAG BLK_CTRL_SOFT_RST = false → (s.advance clocks).on pLOG BLK_CTRL_SOFT_RST = false → firstPost (s.advance clocks).posts 0 = some (i, x) → (s.advance clocks).health.log.length < 64 → ((s.advance clocks).health.log.getLast?.map fun e => e.takes x (s.advance clocks).tb.clocks) ≠ some true → (s.advance clocks).get pLOG LOG_CTRL_LOG_MIN ≤ codeSev x.code → (s.advance clocks).get pFAG FAG_CTRL_NOTIFY_MIN ≤ codeSev x.code → (s.advance clocks).on pFAG FAG_ACT_ACTIVE = false → 
    Completes (.faultCodePost clocks) s fun t => t.posts = (s.advance clocks).posts.eraseIdx i ∧ (t.health.log.getLast?.map fun e => (e.code, e.srcTy, e.srcInst, e.locator, e.count)) = some (x.code, x.srcTy, x.srcInst, x.locator, 1) ∧ t.Irq pLOG INT_LOG_ENTRY ∧ t.on pFAG FAG_ACT_ACTIVE = true ∧ t.get pFAG FAG_ACT_CODE = x.code % 2 ^ 16 ∧ t.get pFAG FAG_ACT_SEV = codeSev x.code % 8 ∧ t.Irq pFAG INT_FAG_NEW) ∧
  (∀ (clocks i : Nat) (x : Post) (s : State),
    s.Canonical → (s.advance clocks).up.compute = true → (s.advance clocks).on pFAG BLK_CTRL_SOFT_RST = false → (s.advance clocks).on pLOG BLK_CTRL_SOFT_RST = false → firstPost (s.advance clocks).posts 0 = some (i, x) → (s.advance clocks).health.log.length < 64 → ((s.advance clocks).health.log.getLast?.map fun e => e.takes x (s.advance clocks).tb.clocks) ≠ some true → (s.advance clocks).get pLOG LOG_CTRL_LOG_MIN ≤ codeSev x.code → (s.advance clocks).get pFAG FAG_CTRL_NOTIFY_MIN ≤ codeSev x.code → (s.advance clocks).on pFAG FAG_ACT_ACTIVE = true → (s.advance clocks).get pFAG FAG_ACT_SEV < codeSev x.code → (s.advance clocks).get pFAG FAG_ACT_DEPTH < 3 → 
    Completes (.faultCodePost clocks) s fun t => t.posts = (s.advance clocks).posts.eraseIdx i ∧ (t.health.log.getLast?.map fun e => (e.code, e.srcTy, e.srcInst, e.locator, e.count)) = some (x.code, x.srcTy, x.srcInst, x.locator, 1) ∧ t.get pFAG FAG_ACT_CODE = x.code % 2 ^ 16 ∧ t.Irq pFAG INT_FAG_PREEMPT ∧ t.get pFAG (FAG_STACK_CODE 0) = (s.advance clocks).get pFAG FAG_ACT_CODE ∧ t.on pFAG (FAG_STACK_VALID 0) = true ∧
      t.rd pFAG (FAG_STACK 1) = (s.advance clocks).rd pFAG (FAG_STACK 0) ∧ t.get pFAG FAG_ACT_DEPTH = (s.advance clocks).get pFAG FAG_ACT_DEPTH + 1) ∧
  (∀ (clocks i : Nat) (x : Post) (s : State),
    s.Canonical → (s.advance clocks).up.compute = true → (s.advance clocks).on pFAG BLK_CTRL_SOFT_RST = false → (s.advance clocks).on pLOG BLK_CTRL_SOFT_RST = false → firstPost (s.advance clocks).posts 0 = some (i, x) → (s.advance clocks).health.log.length < 64 → ((s.advance clocks).health.log.getLast?.map fun e => e.takes x (s.advance clocks).tb.clocks) ≠ some true → (s.advance clocks).get pLOG LOG_CTRL_LOG_MIN ≤ codeSev x.code → (s.advance clocks).get pFAG FAG_CTRL_NOTIFY_MIN ≤ codeSev x.code → (s.advance clocks).on pFAG FAG_ACT_ACTIVE = true → codeSev x.code ≤ (s.advance clocks).get pFAG FAG_ACT_SEV → 
    Completes (.faultCodePost clocks) s fun t => t.posts = (s.advance clocks).posts.eraseIdx i ∧ (t.health.log.getLast?.map fun e => (e.code, e.srcTy, e.srcInst, e.locator, e.count)) = some (x.code, x.srcTy, x.srcInst, x.locator, 1) ∧ t.rd pFAG FAG_ACT = (s.advance clocks).rd pFAG FAG_ACT ∧ (s.frozen pFAG = false → t.get pFAG FAG_CNT_NESTED = satAdd 16 ((s.advance clocks).get pFAG FAG_CNT_NESTED) 1)) ∧
  (∀ (clocks i : Nat) (x : Post) (s : State),
    s.Canonical → (s.advance clocks).up.compute = true → (s.advance clocks).on pFAG BLK_CTRL_SOFT_RST = false → (s.advance clocks).on pLOG BLK_CTRL_SOFT_RST = false → firstPost (s.advance clocks).posts 0 = some (i, x) → codeSev x.code < (s.advance clocks).get pLOG LOG_CTRL_LOG_MIN → codeSev x.code ≤ 2 → 
    Completes (.faultCodePost clocks) s fun t => t.health.log = (s.advance clocks).health.log ∧ (s.frozen pFAG = false → t.rd pFAG (FAG_SEVCNT (codeSev x.code)) = (s.advance clocks).rd pFAG (FAG_SEVCNT (codeSev x.code)) + 1) ∧ Frame (Offs pFAG [FAG_SEVCNT (codeSev x.code)]) { s.advance clocks with posts := (s.advance clocks).posts.eraseIdx i } (s.advance clocks) t) ∧
  (∀ (a : Access) (s : State),
    s.Canonical → s.Shows a pLOG LOG_TAKE → 
    Completes (.logTakeRead a) s fun t => t.health.log = s.health.log.tail ∧ t.resp.status = .ok ∧ Frame (Offs 0 []) { s with health.log := s.health.log.tail, health.ovfTold := false } s t) ∧
  (∀ (a : Access) (v : Word) (s : State),
    s.Canonical → s.Accepts a pLOG LOG_CTRL v → v.getLsbD 8 = true → 
    Completes (.logClr a v) s fun t => t.health.log = [] ∧ t.get pLOG LOG_STAT_OVF = 0 ∧ Frame (Offs pLOG [LOG_CTRL, LOG_STAT]) { s with health.log := [], health.ovfTold := false } s t) ∧
  (∀ (a : Access) (v : Word) (s : State),
    s.Canonical → s.Accepts a pFAG FAG_DONE v → v.getLsbD 0 = true → s.on pFAG FAG_ACT_ACTIVE = true → s.on pFAG (FAG_STACK_VALID 0) = false → 
    Completes (.fagDone a v) s fun t => t.rd pFAG FAG_ACT = 0 ∧ Frame (Offs pFAG [FAG_ACT]) s s t) ∧
  (∀ (a : Access) (v : Word) (s : State),
    s.Canonical → s.Accepts a pFAG FAG_DONE v → v.getLsbD 0 = true → s.on pFAG FAG_ACT_ACTIVE = true → s.on pFAG (FAG_STACK_VALID 0) = true → 
    Completes (.fagDone a v) s fun t => t.get pFAG FAG_ACT_CODE = s.get pFAG (FAG_STACK_CODE 0) ∧ t.on pFAG FAG_ACT_ACTIVE = true ∧ t.rd pFAG (FAG_STACK 0) = s.rd pFAG (FAG_STACK 1) ∧ t.rd pFAG (FAG_STACK 1) = s.rd pFAG (FAG_STACK 2) ∧ t.rd pFAG (FAG_STACK 2) = 0 ∧ t.Irq pFAG INT_FAG_RESUME) ∧
  (∀ (a : Access) (v : Word) (s : State),
    s.Canonical → s.Accepts a pFAG FAG_DONE v → s.on pFAG FAG_ACT_ACTIVE = false → 
    Completes (.fagDone a v) s fun t => t.resp = ⟨.error, 0⟩ ∧ t.Posted pFAG (commonCode (subsystemOf pFAG) 0x0B) ((pFAG + FAG_DONE) % 2 ^ 32) ∧ Frame (Offs pFAG errRegs) { s with posts := t.posts } s t) ∧
  (∀ (a : Access) (v : Word) (s : State),
    s.Canonical → s.Accepts a pFAG FAG_CNT_CLR v → v.getLsbD 0 = true → 
    Completes (.fagCntClr a v) s fun t => t.rd pFAG FAG_CNT = 0 ∧ (∀ k : Fin 5, t.rd pFAG (FAG_SEVCNT k.val) = 0) ∧ Frame (fun x => Offs pFAG [FAG_CNT] x ∨ ∃ k < 5, x = pFAG + FAG_SEVCNT k) s s t) ∧
  (∀ (clocks : Nat) (s : State),
    s.Canonical → (s.advance clocks).escPast 1 = true → 
    Completes (.escalationWarn clocks) s fun t => t.Irq pFAG INT_FAG_ESC_WARN ∧ Frame (Offs pFAG [INT_RAW]) (s.advance clocks) (s.advance clocks) t) ∧
  (∀ (clocks : Nat) (s : State),
    s.Canonical → (s.advance clocks).escPast 2 = true → (s.advance clocks).cutting = false → 
    Completes (.escalation clocks) s fun t => t.up.compute = false ∧ (t.get pRST RST_CAUSE_CAUSE).testBit 6 = true ∧ t.fuses = s.fuses ∧ (pFAG, 0xD41E, (s.advance clocks).get pFAG FAG_ACT_CODE) ∈ t.clk.afterStart) ∧
  (∀ (clocks : Nat) (k : Fin 16) (s : State),
    s.Canonical → (s.advance clocks).up.compute = true → k.val ≠ 4 ∧ k.val ≠ 5 → 
    Completes (.pathTest clocks [k]) s fun t => t.on pFAG ⟨FAG_PATH, k.val, 1⟩ = false ∧ t.Irq pFAG INT_FAG_PATH_FAIL ∧ t.Posted pFAG 0xD31B k.val ∧ (∀ j : Fin 16, j ≠ k → j.val ≠ 4 → j.val ≠ 5 → t.on pFAG ⟨FAG_PATH, j.val, 1⟩ = true) ∧
      Frame (Offs pFAG ([FAG_PATH] ++ errRegs)) { s.advance clocks with posts := t.posts } (s.advance clocks) t) ∧
  (∀ (clocks : Nat) (die : Fin 2) (s : State),
    s.Canonical → s.Sized → (s.advance clocks).dieUp die.val = true → ((s.advance clocks).die die.val).differ = false → 
    Completes (.powerDieLogicDiffer clocks die) s fun t => (t.die die.val).differ = true ∧ t.Posted pFAG 0xD41C die.val ∧ t.fuses = s.fuses ∧ t.mem = s.mem) ∧
  (∀ (clocks : Nat) (die : Fin 2) (ch : Fin 16) (kind : Implausible) (s : State),
    s.Canonical → (s.advance clocks).dieUp die.val = true → (s.advance clocks).hasChan die.val = true → (s.advance clocks).implausible die.val ch.val kind = true → 
    Completes (.plausibilityFail clocks die ch kind) s fun t => t.Posted pFAG 0xD31D (chanLoc ch.val ((s.advance clocks).chan die.val ch.val).evt) ∧ Frame (Offs pFAG errRegs) { s.advance clocks with posts := t.posts } (s.advance clocks) t) ∧
  (∀ (s : State),
    s.Canonical → s.scUp = true → s.on pSTS ⟨INT_RAW, INT_STS_LOADED, 1⟩ = false → s.repNewest < 4096 → 
    Completes (.repairLogLoad) s fun t => t.Irq pSTS INT_STS_LOADED ∧ t.get pSTS STS_RESULT_RUN = s.repNewest ∧ t.health.told = some s.repNewest ∧ t.fuses = s.fuses ∧ t.mem = s.mem)

/-- The plan that is due is made: it is in force, DONE, posts 0xD012, and every point has a margin between -20 and +40. PLAN_NOW in SERVICE and the end of the period make a plan due. A sample counts an hour and shows the monitors. A junction above 125 °C sets the temperature ceiling to OP5 at once, and VFS_CEIL is the slower of both ceilings. Concludes that exec answers the next state for: honingPlan, honPlanNow, honingPeriod, honingSample, temperatureCeiling. -/
def Obligations.HoningCommandsComplete : Prop :=
  (∀ (io : PlanIn) (kind : Nat) (q : List Nat) (s : State),
    s.Canonical → s.scUp = true → s.hon.due = kind :: q → 
    Completes (.honingPlan io) s fun t => t.hon.due = q ∧ t.on pHON HON_STAT_IN_FORCE = true ∧ t.on pHON HON_STAT_BUSY = false ∧ t.Irq pHON INT_HON_PLAN_DONE ∧ t.Posted pHON 0xD012 0 ∧ (∀ p : Fin 6, -20 ≤ t.geti pVFS (VFS_OP_MARGIN p.val) ∧ t.geti pVFS (VFS_OP_MARGIN p.val) ≤ 40) ∧ t.fuses = s.fuses) ∧
  (∀ (a : Access) (v : Word) (s : State),
    s.Canonical → s.Accepts a pHON HON_CTRL v → honCtrlPre v s = none → v.getLsbD 16 = true → s.hon.due = [] → 
    Completes (.honPlanNow a v) s fun t => t.hon.due = [3] ∧ t.on pHON HON_STAT_BUSY = true ∧ Frame (Offs pHON [HON_CTRL, HON_STAT]) { s with hon.due := [3] } s t) ∧
  (∀ (clocks : Nat) (s : State),
    s.Canonical → (s.advance clocks).operating = true → (s.advance clocks).on pHON HON_STAT_IN_FORCE = true → (s.advance clocks).get pHON HON_STAT_NEXT = 0 → (s.advance clocks).hon.due = [] → 
    Completes (.honingPeriod clocks) s fun t => t.hon.due = [1] ∧ t.on pHON HON_STAT_BUSY = true ∧ Frame (Offs pHON [HON_STAT]) { s.advance clocks with hon.due := [1] } (s.advance clocks) t) ∧
  (∀ (clocks : Nat) (m : Monitors) (s : State),
    s.Canonical → (s.advance clocks).operating = true → (s.advance clocks).hon.base = none → 
    Completes (.honingSample clocks m) s fun t => (s.frozen pHON = false → t.rd pHON HON_HOURS = (s.advance clocks).rd pHON HON_HOURS + 1) ∧ t.get pHON HON_STAT_NEXT = (s.advance clocks).get pHON HON_STAT_NEXT - 1 ∧ (∀ c ∈ (s.advance clocks).honedChans, t.get pAGM (AGM_RON_R c) = nth m.ron c 4096 % 2 ^ 16) ∧ t.posts = s.posts ∧ t.fuses = s.fuses ∧ t.mem = s.mem) ∧
  (∀ (clocks : Nat) (m b : Monitors) (s : State),
    s.Canonical → (s.advance clocks).operating = true → (s.advance clocks).hon.base = some b → 100 ≤ (allowUsed 4 b m).1 → (s.advance clocks).on pHON (HON_MON_OVERRUN 4) = false → 
    Completes (.honingSample clocks m) s fun t => t.on pHON (HON_MON_OVERRUN 4) = true ∧ t.on pHON HON_STAT_OVERRUN = true ∧ t.Irq pHON INT_HON_OVERRUN ∧ 2 ∈ t.hon.due) ∧
  (∀ (clocks : Nat) (tj : Int) (s : State),
    s.Canonical → (s.advance clocks).up.compute = true → (s.advance clocks).hon.hot.length = 3 → 125 < tj → 
    Completes (.temperatureCeiling clocks tj) s fun t => t.get pHON HON_CEIL_TEMP = 5 ∧ t.get pVFS VFS_CEIL_OP = max ((s.advance clocks).get pHON HON_CEIL_TIMING) 5 ∧ Frame (Regs [pHON + HON_CEIL, pVFS + VFS_CEIL]) { s.advance clocks with hon := t.hon } (s.advance clocks) t) ∧
  (∀ (clocks : Nat) (tj : Int) (s : State),
    s.Canonical → (s.advance clocks).up.compute = true → (s.advance clocks).hon.hot = [(false, 0), (false, 0), (false, 0)] → tj ≤ 105 → 
    Completes (.temperatureCeiling clocks tj) s fun t => t.get pHON HON_CEIL_TEMP = 0 ∧ t.get pVFS VFS_CEIL_OP = (s.advance clocks).get pHON HON_CEIL_TIMING ∧ t.geti pHON HON_CEIL_TJ = clampInt 8 tj)

/-- For every command c and state s, a step of s with c at the front of its queue is exec of c on s with the rest of the queue. -/
def Obligations.StepRunsTheFrontCommand : Prop :=
  ∀ (c : Instr) (s : State), step { s with pending := c :: s.pending } = exec c s

/-- The model's own choice (log entry 1), not a rule of the spec: a step on an empty queue answers a next state in which one clock of the time base has passed and nothing but the time base differs. -/
def Obligations.EmptyQueueLetsOneClockPass : Prop :=
  ∀ s : State, s.pending = [] →
    ∃ t, step s = .next t ∧ t.tb.clocks = s.tb.clocks + 1 ∧ { t with tb := s.tb } = s

/-- In State.reset these registers read the non-zero reset values that the tables of their chapters print: TMB_CTRL, PTP gains and thresholds, IXP, SWC, BUF, HIN, CX, LN, LSW, PDC, INC, TWL, CAL, ISO and SLP. The queue is empty, no code is posted and no memory byte is listed. -/
def Obligations.ResetRegistersHoldTheTableValues : Prop :=
  State.reset.rd pTMB TMB_CTRL = 0x4 ∧ State.reset.rd pPTP PTP_KP = 0x4000 ∧ State.reset.rd pPTP PTP_KI = 0x400 ∧
  State.reset.rd pPTP PTP_LOCK_THR = 0x190 ∧ State.reset.rd pPTP PTP_STEP_THR = 0x3D0900 ∧ State.reset.rd pIXP IXP_CTRL = 0x8 ∧
  State.reset.rd pIXP IXP_TBL = 0x50 ∧ State.reset.rd pIXP IXP_ACT = 0x50 ∧ State.reset.rd pIXP IXP_OUT = 0xA0 ∧
  State.reset.rd pSWC SWC_CTRL = 0xC ∧ State.reset.rd pSWC SWC_HASH = 0x7 ∧ State.reset.rd pSWC SWC_COPY = 0x1000C8 ∧
  State.reset.rd pSWC SWC_AGE = 0x12C ∧ State.reset.rd pSWC SWC_MOVE_TMO = 0x3E8 ∧
  (∀ p : Fin 34, State.reset.rd (pPORT p.val) PORT_PCP_MAP = 0xFAC681) ∧
  State.reset.rd pBUF BUF_FREE = 0x6F00 ∧ State.reset.rd pBUF BUF_SPILL = 0x10200 ∧ State.reset.rd pBUF BUF_WRED_SEED = 1 ∧
  (∀ i : Fin 16, State.reset.rd (pHIN i.val) HIN_CTRL = 0x100) ∧
  (∀ n : Fin 12, State.reset.rd (pCXC n.val) CX_CTRL = 1 ∧ State.reset.rd (pCXC n.val) CX_NBT = 0x20207F01 ∧ State.reset.rd (pCXC n.val) CX_DBT = 0x4040B01) ∧
  (∀ n : Fin 8, State.reset.rd (pLNC n.val) LN_CTRL = 0xD00 ∧ State.reset.rd (pLNC n.val) LN_BAUD = 0x4B00) ∧
  (∀ i : Fin 16, State.reset.rd (pLSW 0 i.val) LSW_OL = 0xA0005 ∧ State.reset.rd (pLSW 0 i.val) LSW_I2T_STAT = 0x800) ∧
  State.reset.rd (pPDC 0) PDC_INR_CTRL = 0x7800 ∧ State.reset.rd (pPDC 1) PDC_TWC = 0xA00 ∧
  State.reset.rd pINC INC_CTRL = 0x1FF41 ∧ State.reset.rd pINC INC_WAKE = 0xA0A ∧
  (∀ n : Fin 16, State.reset.rd pANA (ANA_CFG n.val) = 0x31 ∧ State.reset.rd pANA (ANA_LIM n.val) = 0x3FFF0000) ∧
  State.reset.rd pTWL TWL_CTRL = 3 ∧ State.reset.rd pCALC CALC_MODE = 0xF ∧ (∀ k : Fin 6, State.reset.rd (pCAL k.val) CAL_TMO = 8) ∧
  State.reset.rd pISO ISO_PART_TMO = 0x1388 ∧ State.reset.rd pSLP SLP_TIME = 0x1E143232 ∧ State.reset.rd pSLP SLP_FWK_CFG = 0x3C0832 ∧
  State.reset.pending = [] ∧ State.reset.posts = [] ∧ State.reset.mem = []

/-- State.reset meets the two invariants that every step keeps: registers, tables, memory and fuses in canonical form, and as many entries per list as the chip has units (R2, R5). -/
def Obligations.ResetIsWellFormed : Prop :=
  State.reset.Canonical ∧ State.reset.Sized ∧ State.reset.pending = []

/-- No command of the table ends in a fault or a refusal: for every command and every state exec answers a next state. -/
def Obligations.NoCommandStops : Prop :=
  ∀ (i : Instr) (s : State), ∃ t, exec i s = .next t

/-- For every command and every state, the commands that wait and the variant of the chip (HZ9640 or HZ9620) are the same in the next state. -/
def Obligations.CommandsLeaveTheQueue : Prop :=
  ∀ (i : Instr) (s t : State), exec i s = .next t → t.pending = s.pending ∧ t.hz9620 = s.hz9620

/-- From every state and for every n, n steps end in a state whose queue is that of the first state without its n first commands: commands are served first in, first out (R36), none is lost or added, and no step stops. -/
def Obligations.QueueIsServedInOrder : Prop :=
  ∀ (n : Nat) (s : State), ∃ t, steps n s = some t ∧ t.pending = s.pending.drop n

/-- From every state whose sparse lists are canonical (addresses strictly rising, no entry equal to what an unlisted address reads as), a step leads to a state whose lists are canonical: equal contents stay equal data. -/
def Obligations.CanonicalFormIsKept : Prop :=
  ∀ s t : State, s.Canonical → step s = .next t → t.Canonical

/-- From every state whose lists hold 12 CAN controllers, 8 LIN channels, 4 gateway engines, 32 load channels, 2 power dies, 48 digital and 16 analog inputs, 3 bridges, 6 caliper units and 13 cores, a step leads to a state whose lists do. -/
def Obligations.UnitListsKeepTheirSizes : Prop :=
  ∀ s t : State, s.Sized → step s = .next t → t.Sized

/-- From every canonical state, whatever command is served, a fuse bit that is programmed stays programmed: programming only ORs bits into a word (R435), and nothing else writes the array. -/
def Obligations.ProgrammedFusesStay : Prop :=
  ∀ (s t : State) (w bit : Nat), s.Canonical → s.FuseSet w bit → step s = .next t → t.FuseSet w bit

/-- From every canonical state, a step never clears a bit of the lifecycle code (R448), so MANUFACTURE is never entered again, FIELD leads only to FIELD or RETURN, and RETURN stays RETURN. -/
def Obligations.LifecycleNeverGoesBack : Prop :=
  ∀ s t : State, s.Canonical → step s = .next t →
    (∀ b, s.lifecycle.testBit b = true → t.lifecycle.testBit b = true) ∧ (s.lifecycle = 7 → t.lifecycle = 7) ∧
    (s.lifecycle = 3 → t.lifecycle = 3 ∨ t.lifecycle = 7)

/-- The count of 2 ns clocks against which timed commands measure themselves never falls, whatever command is served; module time itself may be stepped back by the servo or by TMB_STEP_GO (R69). -/
def Obligations.ClocksNeverRunBack : Prop :=
  ∀ s t : State, step s = .next t → s.tb.clocks ≤ t.tb.clocks

/-- For every address and 64-bit word, the codeword holds the word in its low 64 bits and F, the XOR of address bits [35:3], in bit 79; the XOR of its 80 bits is 0; and C[15], D[63:0] and C[13:0] together are a multiple of g(x) = 0x4377. Any one or two flipped positions decode to exactly those positions, so the word and its fold bit come back; any three are refused. -/
def Obligations.DramCodeCorrectsTwoAndDetectsThree : Prop :=
  (∀ a d : Nat, d < 2 ^ 64 →
    codeword a d < 2 ^ 80 ∧ codeword a d % 2 ^ 64 = d ∧
    (codeword a d).testBit 79 = decide (((List.range 33).filter fun i => a.testBit (i + 3)).length % 2 = 1) ∧
    ((List.range 80).filter fun i => (codeword a d).testBit i).length % 2 = 0 ∧
    ∃ q < 2 ^ 65, q ^^^ q <<< 1 ^^^ q <<< 2 ^^^ q <<< 4 ^^^ q <<< 5 ^^^ q <<< 6 ^^^ q <<< 8 ^^^ q <<< 9 ^^^ q <<< 14 =
      codeword a d / 2 ^ 79 * 2 ^ 78 + d * 2 ^ 14 + codeword a d / 2 ^ 64 % 2 ^ 14) ∧
  bchDecode [] = some [] ∧
  (∀ p : Fin 80, bchDecode [p.val] = some [p.val]) ∧
  (∀ p q : Fin 80, p < q → bchDecode [p.val, q.val] = some [p.val, q.val] ∧
    ∀ d f : Nat, f < 2 → decodedWord d [p.val, q.val] [p.val, q.val] = d ∧ decodedFold f [p.val, q.val] [p.val, q.val] = f) ∧
  (∀ p q r : Fin 80, p < q → q < r → bchDecode [p.val, q.val, r.val] = none)

/-- Beyond BLK_ID and BLK_CAP, an access is allowed from the monitor level, from the secure world where OWNER.WORLD is 0, from the hypervisor where it is 1 or 2, and from VM v where it is 2 with OWNER.VM = v; where the page and the access meet the other rules the read or write then has no cause for refusal. In all other cases a read returns 0 with an error response and a write has no effect and receives an error response: nothing changes but error records and posted codes. A write that goes to a power die as a posted one has no effect either, but its error comes back to the bridge page as a notice. Concludes that exec answers the next state for: registerWrite, memoryRegionAccess. -/
def Obligations.OwnershipDecidesAccess : Prop :=
  (∀ (s : State) (lv : Level) (p : Nat), s.owns lv p = true ↔
    lv = .monitor ∨ (lv = .secure ∧ s.get p OWNER_WORLD = 0) ∨
    (lv = .hypervisor ∧ (s.get p OWNER_WORLD = 1 ∨ s.get p OWNER_WORLD = 2)) ∨
    ∃ v, lv = .vm v ∧ s.get p OWNER_WORLD = 2 ∧ s.get p OWNER_VM = v.val) ∧
  (∀ (s : State) (a : Access) (p off : Nat), s.owns (s.levelOf a) p = true → a.size = 4 → off % 4 = 0 → 8 ≤ off → off < 0xF00 →
    s.absent p = false → s.pageUp p = true → s.ready p = true → s.on p PART_BUSY = false → (fieldsOf (tyOf p) off).isSome = true → hasReg p off = true →
    s.accessCause a p off false = none ∧
    (off ∉ [OWNER, PART_REQ, ERR_INJ] → s.secureEntry p off = false → s.accessCause a p off true = none)) ∧
  (∀ (s : State) (a : Access) (addr : Nat), s.Canonical → s.up.compute = true → (pageOf addr).isSome = true → 8 ≤ pageOff addr →
    s.owns (s.levelOf a) (pageBase addr) = false →
    (∀ v : Word, s.postedTo (pageBase addr) addr = none → Completes (.registerWrite a (.page addr v)) s fun t => t.resp = ⟨.error, 0⟩ ∧
      Frame (fun x => (∃ q ∈ [pageBase addr, pSYS, pDBR 0, pDBR 1], x ∈ errRegs.map (q + ·)) ∨
        x ∈ [pPDC 0 + PDC_QOVF, pPDC 1 + PDC_QOVF, pPWR + PWR_CNT_SECREF, pCLK + CLK_CNT_SECREF]) { s with posts := t.posts, dies := t.dies } s t) ∧
    (∀ (v : Word) (d : Nat), s.postedTo (pageBase addr) addr = some d → Completes (.registerWrite a (.page addr v)) s fun t => t.resp = ⟨.ok, 0⟩ ∧
      t.Irq (pBR d) INT_BR_PERR ∧
      Frame (fun x => x ∈ [BR_CNT_PERR, BR_PERR_ADDR, BR_PERR_INFO].map (pBR d + ·) ∨ ((∃ q ∈ [pageBase addr, pSYS, pDBR 0, pDBR 1], x ∈ errRegs.map (q + ·)) ∨
        x ∈ [pPDC 0 + PDC_QOVF, pPDC 1 + PDC_QOVF, pPWR + PWR_CNT_SECREF, pCLK + CLK_CNT_SECREF])) { s with posts := t.posts, dies := t.dies } s t) ∧
    (∀ data : List Nat, data ≠ [] → s.reach a .read addr = (s, some addr) →
      Completes (.memoryRegionAccess a .read addr data) s fun t => t.resp = ⟨.error, 0⟩ ∧
        Frame (fun x => (∃ q ∈ [pageBase addr, pSYS, pDBR 0, pDBR 1], x ∈ errRegs.map (q + ·)) ∨
        x ∈ [pPDC 0 + PDC_QOVF, pPDC 1 + PDC_QOVF, pPWR + PWR_CNT_SECREF, pCLK + CLK_CNT_SECREF]) { s with posts := t.posts, dies := t.dies } s t))

/-- An access to an address that belongs to no page and no memory region advances ERR_CAP.COUNT of the SYS page, sets INT_RAW.ERR and, as the first error, stores code 0x0004 (subsystem 0x0) with the address; it ends with an error response. Taken outside a parting of the SYS page, whose errors are posted only (R410). Concludes that exec answers the next state for: accessUnmapped. -/
def Obligations.UnmappedAccessIsRecorded : Prop :=
  ∀ (s : State) (a : Access) (addr : Nat), s.Canonical → s.up.compute = true → pageOf addr = none → regionOf addr = .none →
    s.on pSYS PART_BUSY = false →
    Completes (.accessUnmapped a addr) s fun t => t.resp = ⟨.error, 0⟩ ∧ t.Irq pSYS 31 ∧
      t.get pSYS ERR_CAP_COUNT = min 255 (s.get pSYS ERR_CAP_COUNT + 1) ∧
      (s.get pSYS ERR_CAP_COUNT = 0 → t.get pSYS ERR_CAP_CODE = 0x0004 ∧ (t.rd pSYS ERR_ADDR).toNat = addr % 2 ^ 32) ∧
      (s.get pSYS ERR_CAP_COUNT ≠ 0 → t.get pSYS ERR_CAP_CODE = s.get pSYS ERR_CAP_CODE ∧ t.rd pSYS ERR_ADDR = s.rd pSYS ERR_ADDR) ∧
      Frame (Offs pSYS (SYS_CNT_UNMAP :: errRegs)) { s with posts := t.posts } s t

/-- A read of FUSE_w that the page accepts answers 0 for words 0 to 7, which feed the key derivation, and the word itself for every other word; it changes nothing. Concludes that exec answers the next state for: memoryRegionAccess. -/
def Obligations.KeyFuseWordsReadZero : Prop :=
  ∀ (s : State) (a : Access) (w : Fin 512), s.Canonical → (∀ v, s.levelOf a ≠ .vm v) → s.Shows { a with size := 4 } pFUS (FUSE w.val) →
    Completes (.memoryRegionAccess a .read (pFUS + FUSE w.val) [0, 0, 0, 0]) s fun t =>
      t.resp = ⟨.ok, if w.val < 8 then 0 else s.fuse w.val⟩ ∧ Frame (fun _ => False) s s t

/-- The two-wire frames 49 F8 and 72 3C 3C carry their CRCs; a 20,971,520-byte payload gives hash-tree levels of 339, 8 and 1 blocks over 14,895 data blocks; positions 5 and 73 of the DRAM word correct and the word of 0x8_1234_5670 has F = 1, that of 0x8_1234_5678 F = 0; the LSW page of OUT_M10 has BLK_ID 0x5001_06B0. -/
def Obligations.PrintedExamplesComeOut : Prop :=
  twcSeal [0x49] = [0x49, 0xF8] ∧ twcSeal [0x72, 0x3C] = [0x72, 0x3C, 0x3C] ∧ bchDecode [5, 73] = some [5, 73] ∧
  levelSizes 3 14895 = [339, 8, 1] ∧ foldOf 0x812345670 = 1 ∧ foldOf 0x812345678 = 0 ∧ pageBase 0x20316040 = pLSW 1 6 ∧ State.reset.readReg (pLSW 1 6) BLK_ID = 0x500106B0
end

