-- ==== Sys2Proof/Laws/State.lean ====
section
/-!
SUPPORT. State updates: one lemma per update and field it leaves alone, so that no proof unfolds a record update.
-/

namespace Sys2Proof.Machine

variable (s : State)

@[simp] theorem State.wr_pending (p off : Nat) (w : Word) : (s.wr p off w).pending = s.pending := rfl
@[simp] theorem State.wr_hz9620 (p off : Nat) (w : Word) : (s.wr p off w).hz9620 = s.hz9620 := rfl
@[simp] theorem State.wr_tabs (p off : Nat) (w : Word) : (s.wr p off w).tabs = s.tabs := rfl
@[simp] theorem State.wr_mem (p off : Nat) (w : Word) : (s.wr p off w).mem = s.mem := rfl
@[simp] theorem State.wr_resp (p off : Nat) (w : Word) : (s.wr p off w).resp = s.resp := rfl
@[simp] theorem State.wr_out (p off : Nat) (w : Word) : (s.wr p off w).out = s.out := rfl
@[simp] theorem State.wr_fresh (p off : Nat) (w : Word) : (s.wr p off w).fresh = s.fresh := rfl
@[simp] theorem State.wr_posts (p off : Nat) (w : Word) : (s.wr p off w).posts = s.posts := rfl
@[simp] theorem State.wr_shell (p off : Nat) (w : Word) : (s.wr p off w).shell = s.shell := rfl
@[simp] theorem State.wr_tb (p off : Nat) (w : Word) : (s.wr p off w).tb = s.tb := rfl
@[simp] theorem State.wr_plate (p off : Nat) (w : Word) : (s.wr p off w).plate = s.plate := rfl
@[simp] theorem State.wr_sw (p off : Nat) (w : Word) : (s.wr p off w).sw = s.sw := rfl
@[simp] theorem State.wr_badEntries (p off : Nat) (w : Word) : (s.wr p off w).badEntries = s.badEntries := rfl
@[simp] theorem State.wr_gwIn (p off : Nat) (w : Word) : (s.wr p off w).gwIn = s.gwIn := rfl
@[simp] theorem State.wr_can (p off : Nat) (w : Word) : (s.wr p off w).can = s.can := rfl
@[simp] theorem State.wr_lin (p off : Nat) (w : Word) : (s.wr p off w).lin = s.lin := rfl
@[simp] theorem State.wr_gw (p off : Nat) (w : Word) : (s.wr p off w).gw = s.gw := rfl
@[simp] theorem State.wr_chans (p off : Nat) (w : Word) : (s.wr p off w).chans = s.chans := rfl
@[simp] theorem State.wr_dies (p off : Nat) (w : Word) : (s.wr p off w).dies = s.dies := rfl
@[simp] theorem State.wr_selLands (p off : Nat) (w : Word) : (s.wr p off w).selLands = s.selLands := rfl
@[simp] theorem State.wr_claim (p off : Nat) (w : Word) : (s.wr p off w).claim = s.claim := rfl
@[simp] theorem State.wr_dins (p off : Nat) (w : Word) : (s.wr p off w).dins = s.dins := rfl
@[simp] theorem State.wr_ains (p off : Nat) (w : Word) : (s.wr p off w).ains = s.ains := rfl
@[simp] theorem State.wr_scan (p off : Nat) (w : Word) : (s.wr p off w).scan = s.scan := rfl
@[simp] theorem State.wr_disarmed (p off : Nat) (w : Word) : (s.wr p off w).disarmed = s.disarmed := rfl
@[simp] theorem State.wr_bridges (p off : Nat) (w : Word) : (s.wr p off w).bridges = s.bridges := rfl
@[simp] theorem State.wr_phoask (p off : Nat) (w : Word) : (s.wr p off w).phoask = s.phoask := rfl
@[simp] theorem State.wr_twin (p off : Nat) (w : Word) : (s.wr p off w).twin = s.twin := rfl
@[simp] theorem State.wr_mig (p off : Nat) (w : Word) : (s.wr p off w).mig = s.mig := rfl
@[simp] theorem State.wr_cal (p off : Nat) (w : Word) : (s.wr p off w).cal = s.cal := rfl
@[simp] theorem State.wr_cfaultA (p off : Nat) (w : Word) : (s.wr p off w).cfaultA = s.cfaultA := rfl
@[simp] theorem State.wr_cfaultP (p off : Nat) (w : Word) : (s.wr p off w).cfaultP = s.cfaultP := rfl
@[simp] theorem State.wr_cores (p off : Nat) (w : Word) : (s.wr p off w).cores = s.cores := rfl
@[simp] theorem State.wr_swLines (p off : Nat) (w : Word) : (s.wr p off w).swLines = s.swLines := rfl
@[simp] theorem State.wr_poisonLines (p off : Nat) (w : Word) : (s.wr p off w).poisonLines = s.poisonLines := rfl
@[simp] theorem State.wr_xlat (p off : Nat) (w : Word) : (s.wr p off w).xlat = s.xlat := rfl
@[simp] theorem State.wr_dplFilter (p off : Nat) (w : Word) : (s.wr p off w).dplFilter = s.dplFilter := rfl
@[simp] theorem State.wr_norOps (p off : Nat) (w : Word) : (s.wr p off w).norOps = s.norOps := rfl
@[simp] theorem State.wr_norWear (p off : Nat) (w : Word) : (s.wr p off w).norWear = s.norWear := rfl
@[simp] theorem State.wr_fuses (p off : Nat) (w : Word) : (s.wr p off w).fuses = s.fuses := rfl
@[simp] theorem State.wr_fuseOp (p off : Nat) (w : Word) : (s.wr p off w).fuseOp = s.fuseOp := rfl
@[simp] theorem State.wr_refiBase (p off : Nat) (w : Word) : (s.wr p off w).refiBase = s.refiBase := rfl
@[simp] theorem State.wr_scrSram (p off : Nat) (w : Word) : (s.wr p off w).scrSram = s.scrSram := rfl
@[simp] theorem State.wr_scrCkpt (p off : Nat) (w : Word) : (s.wr p off w).scrCkpt = s.scrCkpt := rfl
@[simp] theorem State.wr_slotBad (p off : Nat) (w : Word) : (s.wr p off w).slotBad = s.slotBad := rfl
@[simp] theorem State.wr_sec (p off : Nat) (w : Word) : (s.wr p off w).sec = s.sec := rfl
@[simp] theorem State.wr_upd (p off : Nat) (w : Word) : (s.wr p off w).upd = s.upd := rfl
@[simp] theorem State.wr_up (p off : Nat) (w : Word) : (s.wr p off w).up = s.up := rfl
@[simp] theorem State.wr_clk (p off : Nat) (w : Word) : (s.wr p off w).clk = s.clk := rfl
@[simp] theorem State.wr_slp (p off : Nat) (w : Word) : (s.wr p off w).slp = s.slp := rfl
@[simp] theorem State.wr_health (p off : Nat) (w : Word) : (s.wr p off w).health = s.health := rfl
@[simp] theorem State.wr_hon (p off : Nat) (w : Word) : (s.wr p off w).hon = s.hon := rfl

@[simp] theorem State.wrn_pending (p off n : Nat) : (s.wrn p off n).pending = s.pending := rfl
@[simp] theorem State.wrn_hz9620 (p off n : Nat) : (s.wrn p off n).hz9620 = s.hz9620 := rfl
@[simp] theorem State.wrn_tabs (p off n : Nat) : (s.wrn p off n).tabs = s.tabs := rfl
@[simp] theorem State.wrn_mem (p off n : Nat) : (s.wrn p off n).mem = s.mem := rfl
@[simp] theorem State.wrn_resp (p off n : Nat) : (s.wrn p off n).resp = s.resp := rfl
@[simp] theorem State.wrn_out (p off n : Nat) : (s.wrn p off n).out = s.out := rfl
@[simp] theorem State.wrn_fresh (p off n : Nat) : (s.wrn p off n).fresh = s.fresh := rfl
@[simp] theorem State.wrn_posts (p off n : Nat) : (s.wrn p off n).posts = s.posts := rfl
@[simp] theorem State.wrn_shell (p off n : Nat) : (s.wrn p off n).shell = s.shell := rfl
@[simp] theorem State.wrn_tb (p off n : Nat) : (s.wrn p off n).tb = s.tb := rfl
@[simp] theorem State.wrn_plate (p off n : Nat) : (s.wrn p off n).plate = s.plate := rfl
@[simp] theorem State.wrn_sw (p off n : Nat) : (s.wrn p off n).sw = s.sw := rfl
@[simp] theorem State.wrn_badEntries (p off n : Nat) : (s.wrn p off n).badEntries = s.badEntries := rfl
@[simp] theorem State.wrn_gwIn (p off n : Nat) : (s.wrn p off n).gwIn = s.gwIn := rfl
@[simp] theorem State.wrn_can (p off n : Nat) : (s.wrn p off n).can = s.can := rfl
@[simp] theorem State.wrn_lin (p off n : Nat) : (s.wrn p off n).lin = s.lin := rfl
@[simp] theorem State.wrn_gw (p off n : Nat) : (s.wrn p off n).gw = s.gw := rfl
@[simp] theorem State.wrn_chans (p off n : Nat) : (s.wrn p off n).chans = s.chans := rfl
@[simp] theorem State.wrn_dies (p off n : Nat) : (s.wrn p off n).dies = s.dies := rfl
@[simp] theorem State.wrn_selLands (p off n : Nat) : (s.wrn p off n).selLands = s.selLands := rfl
@[simp] theorem State.wrn_claim (p off n : Nat) : (s.wrn p off n).claim = s.claim := rfl
@[simp] theorem State.wrn_dins (p off n : Nat) : (s.wrn p off n).dins = s.dins := rfl
@[simp] theorem State.wrn_ains (p off n : Nat) : (s.wrn p off n).ains = s.ains := rfl
@[simp] theorem State.wrn_scan (p off n : Nat) : (s.wrn p off n).scan = s.scan := rfl
@[simp] theorem State.wrn_disarmed (p off n : Nat) : (s.wrn p off n).disarmed = s.disarmed := rfl
@[simp] theorem State.wrn_bridges (p off n : Nat) : (s.wrn p off n).bridges = s.bridges := rfl
@[simp] theorem State.wrn_phoask (p off n : Nat) : (s.wrn p off n).phoask = s.phoask := rfl
@[simp] theorem State.wrn_twin (p off n : Nat) : (s.wrn p off n).twin = s.twin := rfl
@[simp] theorem State.wrn_mig (p off n : Nat) : (s.wrn p off n).mig = s.mig := rfl
@[simp] theorem State.wrn_cal (p off n : Nat) : (s.wrn p off n).cal = s.cal := rfl
@[simp] theorem State.wrn_cfaultA (p off n : Nat) : (s.wrn p off n).cfaultA = s.cfaultA := rfl
@[simp] theorem State.wrn_cfaultP (p off n : Nat) : (s.wrn p off n).cfaultP = s.cfaultP := rfl
@[simp] theorem State.wrn_cores (p off n : Nat) : (s.wrn p off n).cores = s.cores := rfl
@[simp] theorem State.wrn_swLines (p off n : Nat) : (s.wrn p off n).swLines = s.swLines := rfl
@[simp] theorem State.wrn_poisonLines (p off n : Nat) : (s.wrn p off n).poisonLines = s.poisonLines := rfl
@[simp] theorem State.wrn_xlat (p off n : Nat) : (s.wrn p off n).xlat = s.xlat := rfl
@[simp] theorem State.wrn_dplFilter (p off n : Nat) : (s.wrn p off n).dplFilter = s.dplFilter := rfl
@[simp] theorem State.wrn_norOps (p off n : Nat) : (s.wrn p off n).norOps = s.norOps := rfl
@[simp] theorem State.wrn_norWear (p off n : Nat) : (s.wrn p off n).norWear = s.norWear := rfl
@[simp] theorem State.wrn_fuses (p off n : Nat) : (s.wrn p off n).fuses = s.fuses := rfl
@[simp] theorem State.wrn_fuseOp (p off n : Nat) : (s.wrn p off n).fuseOp = s.fuseOp := rfl
@[simp] theorem State.wrn_refiBase (p off n : Nat) : (s.wrn p off n).refiBase = s.refiBase := rfl
@[simp] theorem State.wrn_scrSram (p off n : Nat) : (s.wrn p off n).scrSram = s.scrSram := rfl
@[simp] theorem State.wrn_scrCkpt (p off n : Nat) : (s.wrn p off n).scrCkpt = s.scrCkpt := rfl
@[simp] theorem State.wrn_slotBad (p off n : Nat) : (s.wrn p off n).slotBad = s.slotBad := rfl
@[simp] theorem State.wrn_sec (p off n : Nat) : (s.wrn p off n).sec = s.sec := rfl
@[simp] theorem State.wrn_upd (p off n : Nat) : (s.wrn p off n).upd = s.upd := rfl
@[simp] theorem State.wrn_up (p off n : Nat) : (s.wrn p off n).up = s.up := rfl
@[simp] theorem State.wrn_clk (p off n : Nat) : (s.wrn p off n).clk = s.clk := rfl
@[simp] theorem State.wrn_slp (p off n : Nat) : (s.wrn p off n).slp = s.slp := rfl
@[simp] theorem State.wrn_health (p off n : Nat) : (s.wrn p off n).health = s.health := rfl
@[simp] theorem State.wrn_hon (p off n : Nat) : (s.wrn p off n).hon = s.hon := rfl

@[simp] theorem State.set_pending (p : Nat) (f : Fld) (n : Nat) : (s.set p f n).pending = s.pending := rfl
@[simp] theorem State.set_hz9620 (p : Nat) (f : Fld) (n : Nat) : (s.set p f n).hz9620 = s.hz9620 := rfl
@[simp] theorem State.set_tabs (p : Nat) (f : Fld) (n : Nat) : (s.set p f n).tabs = s.tabs := rfl
@[simp] theorem State.set_mem (p : Nat) (f : Fld) (n : Nat) : (s.set p f n).mem = s.mem := rfl
@[simp] theorem State.set_resp (p : Nat) (f : Fld) (n : Nat) : (s.set p f n).resp = s.resp := rfl
@[simp] theorem State.set_out (p : Nat) (f : Fld) (n : Nat) : (s.set p f n).out = s.out := rfl
@[simp] theorem State.set_fresh (p : Nat) (f : Fld) (n : Nat) : (s.set p f n).fresh = s.fresh := rfl
@[simp] theorem State.set_posts (p : Nat) (f : Fld) (n : Nat) : (s.set p f n).posts = s.posts := rfl
@[simp] theorem State.set_shell (p : Nat) (f : Fld) (n : Nat) : (s.set p f n).shell = s.shell := rfl
@[simp] theorem State.set_tb (p : Nat) (f : Fld) (n : Nat) : (s.set p f n).tb = s.tb := rfl
@[simp] theorem State.set_plate (p : Nat) (f : Fld) (n : Nat) : (s.set p f n).plate = s.plate := rfl
@[simp] theorem State.set_sw (p : Nat) (f : Fld) (n : Nat) : (s.set p f n).sw = s.sw := rfl
@[simp] theorem State.set_badEntries (p : Nat) (f : Fld) (n : Nat) : (s.set p f n).badEntries = s.badEntries := rfl
@[simp] theorem State.set_gwIn (p : Nat) (f : Fld) (n : Nat) : (s.set p f n).gwIn = s.gwIn := rfl
@[simp] theorem State.set_can (p : Nat) (f : Fld) (n : Nat) : (s.set p f n).can = s.can := rfl
@[simp] theorem State.set_lin (p : Nat) (f : Fld) (n : Nat) : (s.set p f n).lin = s.lin := rfl
@[simp] theorem State.set_gw (p : Nat) (f : Fld) (n : Nat) : (s.set p f n).gw = s.gw := rfl
@[simp] theorem State.set_chans (p : Nat) (f : Fld) (n : Nat) : (s.set p f n).chans = s.chans := rfl
@[simp] theorem State.set_dies (p : Nat) (f : Fld) (n : Nat) : (s.set p f n).dies = s.dies := rfl
@[simp] theorem State.set_selLands (p : Nat) (f : Fld) (n : Nat) : (s.set p f n).selLands = s.selLands := rfl
@[simp] theorem State.set_claim (p : Nat) (f : Fld) (n : Nat) : (s.set p f n).claim = s.claim := rfl
@[simp] theorem State.set_dins (p : Nat) (f : Fld) (n : Nat) : (s.set p f n).dins = s.dins := rfl
@[simp] theorem State.set_ains (p : Nat) (f : Fld) (n : Nat) : (s.set p f n).ains = s.ains := rfl
@[simp] theorem State.set_scan (p : Nat) (f : Fld) (n : Nat) : (s.set p f n).scan = s.scan := rfl
@[simp] theorem State.set_disarmed (p : Nat) (f : Fld) (n : Nat) : (s.set p f n).disarmed = s.disarmed := rfl
@[simp] theorem State.set_bridges (p : Nat) (f : Fld) (n : Nat) : (s.set p f n).bridges = s.bridges := rfl
@[simp] theorem State.set_phoask (p : Nat) (f : Fld) (n : Nat) : (s.set p f n).phoask = s.phoask := rfl
@[simp] theorem State.set_twin (p : Nat) (f : Fld) (n : Nat) : (s.set p f n).twin = s.twin := rfl
@[simp] theorem State.set_mig (p : Nat) (f : Fld) (n : Nat) : (s.set p f n).mig = s.mig := rfl
@[simp] theorem State.set_cal (p : Nat) (f : Fld) (n : Nat) : (s.set p f n).cal = s.cal := rfl
@[simp] theorem State.set_cfaultA (p : Nat) (f : Fld) (n : Nat) : (s.set p f n).cfaultA = s.cfaultA := rfl
@[simp] theorem State.set_cfaultP (p : Nat) (f : Fld) (n : Nat) : (s.set p f n).cfaultP = s.cfaultP := rfl
@[simp] theorem State.set_cores (p : Nat) (f : Fld) (n : Nat) : (s.set p f n).cores = s.cores := rfl
@[simp] theorem State.set_swLines (p : Nat) (f : Fld) (n : Nat) : (s.set p f n).swLines = s.swLines := rfl
@[simp] theorem State.set_poisonLines (p : Nat) (f : Fld) (n : Nat) : (s.set p f n).poisonLines = s.poisonLines := rfl
@[simp] theorem State.set_xlat (p : Nat) (f : Fld) (n : Nat) : (s.set p f n).xlat = s.xlat := rfl
@[simp] theorem State.set_dplFilter (p : Nat) (f : Fld) (n : Nat) : (s.set p f n).dplFilter = s.dplFilter := rfl
@[simp] theorem State.set_norOps (p : Nat) (f : Fld) (n : Nat) : (s.set p f n).norOps = s.norOps := rfl
@[simp] theorem State.set_norWear (p : Nat) (f : Fld) (n : Nat) : (s.set p f n).norWear = s.norWear := rfl
@[simp] theorem State.set_fuses (p : Nat) (f : Fld) (n : Nat) : (s.set p f n).fuses = s.fuses := rfl
@[simp] theorem State.set_fuseOp (p : Nat) (f : Fld) (n : Nat) : (s.set p f n).fuseOp = s.fuseOp := rfl
@[simp] theorem State.set_refiBase (p : Nat) (f : Fld) (n : Nat) : (s.set p f n).refiBase = s.refiBase := rfl
@[simp] theorem State.set_scrSram (p : Nat) (f : Fld) (n : Nat) : (s.set p f n).scrSram = s.scrSram := rfl
@[simp] theorem State.set_scrCkpt (p : Nat) (f : Fld) (n : Nat) : (s.set p f n).scrCkpt = s.scrCkpt := rfl
@[simp] theorem State.set_slotBad (p : Nat) (f : Fld) (n : Nat) : (s.set p f n).slotBad = s.slotBad := rfl
@[simp] theorem State.set_sec (p : Nat) (f : Fld) (n : Nat) : (s.set p f n).sec = s.sec := rfl
@[simp] theorem State.set_upd (p : Nat) (f : Fld) (n : Nat) : (s.set p f n).upd = s.upd := rfl
@[simp] theorem State.set_up (p : Nat) (f : Fld) (n : Nat) : (s.set p f n).up = s.up := rfl
@[simp] theorem State.set_clk (p : Nat) (f : Fld) (n : Nat) : (s.set p f n).clk = s.clk := rfl
@[simp] theorem State.set_slp (p : Nat) (f : Fld) (n : Nat) : (s.set p f n).slp = s.slp := rfl
@[simp] theorem State.set_health (p : Nat) (f : Fld) (n : Nat) : (s.set p f n).health = s.health := rfl
@[simp] theorem State.set_hon (p : Nat) (f : Fld) (n : Nat) : (s.set p f n).hon = s.hon := rfl

@[simp] theorem State.seti_pending (p : Nat) (f : Fld) (i : Int) : (s.seti p f i).pending = s.pending := rfl
@[simp] theorem State.seti_hz9620 (p : Nat) (f : Fld) (i : Int) : (s.seti p f i).hz9620 = s.hz9620 := rfl
@[simp] theorem State.seti_tabs (p : Nat) (f : Fld) (i : Int) : (s.seti p f i).tabs = s.tabs := rfl
@[simp] theorem State.seti_mem (p : Nat) (f : Fld) (i : Int) : (s.seti p f i).mem = s.mem := rfl
@[simp] theorem State.seti_resp (p : Nat) (f : Fld) (i : Int) : (s.seti p f i).resp = s.resp := rfl
@[simp] theorem State.seti_out (p : Nat) (f : Fld) (i : Int) : (s.seti p f i).out = s.out := rfl
@[simp] theorem State.seti_fresh (p : Nat) (f : Fld) (i : Int) : (s.seti p f i).fresh = s.fresh := rfl
@[simp] theorem State.seti_posts (p : Nat) (f : Fld) (i : Int) : (s.seti p f i).posts = s.posts := rfl
@[simp] theorem State.seti_shell (p : Nat) (f : Fld) (i : Int) : (s.seti p f i).shell = s.shell := rfl
@[simp] theorem State.seti_tb (p : Nat) (f : Fld) (i : Int) : (s.seti p f i).tb = s.tb := rfl
@[simp] theorem State.seti_plate (p : Nat) (f : Fld) (i : Int) : (s.seti p f i).plate = s.plate := rfl
@[simp] theorem State.seti_sw (p : Nat) (f : Fld) (i : Int) : (s.seti p f i).sw = s.sw := rfl
@[simp] theorem State.seti_badEntries (p : Nat) (f : Fld) (i : Int) : (s.seti p f i).badEntries = s.badEntries := rfl
@[simp] theorem State.seti_gwIn (p : Nat) (f : Fld) (i : Int) : (s.seti p f i).gwIn = s.gwIn := rfl
@[simp] theorem State.seti_can (p : Nat) (f : Fld) (i : Int) : (s.seti p f i).can = s.can := rfl
@[simp] theorem State.seti_lin (p : Nat) (f : Fld) (i : Int) : (s.seti p f i).lin = s.lin := rfl
@[simp] theorem State.seti_gw (p : Nat) (f : Fld) (i : Int) : (s.seti p f i).gw = s.gw := rfl
@[simp] theorem State.seti_chans (p : Nat) (f : Fld) (i : Int) : (s.seti p f i).chans = s.chans := rfl
@[simp] theorem State.seti_dies (p : Nat) (f : Fld) (i : Int) : (s.seti p f i).dies = s.dies := rfl
@[simp] theorem State.seti_selLands (p : Nat) (f : Fld) (i : Int) : (s.seti p f i).selLands = s.selLands := rfl
@[simp] theorem State.seti_claim (p : Nat) (f : Fld) (i : Int) : (s.seti p f i).claim = s.claim := rfl
@[simp] theorem State.seti_dins (p : Nat) (f : Fld) (i : Int) : (s.seti p f i).dins = s.dins := rfl
@[simp] theorem State.seti_ains (p : Nat) (f : Fld) (i : Int) : (s.seti p f i).ains = s.ains := rfl
@[simp] theorem State.seti_scan (p : Nat) (f : Fld) (i : Int) : (s.seti p f i).scan = s.scan := rfl
@[simp] theorem State.seti_disarmed (p : Nat) (f : Fld) (i : Int) : (s.seti p f i).disarmed = s.disarmed := rfl
@[simp] theorem State.seti_bridges (p : Nat) (f : Fld) (i : Int) : (s.seti p f i).bridges = s.bridges := rfl
@[simp] theorem State.seti_phoask (p : Nat) (f : Fld) (i : Int) : (s.seti p f i).phoask = s.phoask := rfl
@[simp] theorem State.seti_twin (p : Nat) (f : Fld) (i : Int) : (s.seti p f i).twin = s.twin := rfl
@[simp] theorem State.seti_mig (p : Nat) (f : Fld) (i : Int) : (s.seti p f i).mig = s.mig := rfl
@[simp] theorem State.seti_cal (p : Nat) (f : Fld) (i : Int) : (s.seti p f i).cal = s.cal := rfl
@[simp] theorem State.seti_cfaultA (p : Nat) (f : Fld) (i : Int) : (s.seti p f i).cfaultA = s.cfaultA := rfl
@[simp] theorem State.seti_cfaultP (p : Nat) (f : Fld) (i : Int) : (s.seti p f i).cfaultP = s.cfaultP := rfl
@[simp] theorem State.seti_cores (p : Nat) (f : Fld) (i : Int) : (s.seti p f i).cores = s.cores := rfl
@[simp] theorem State.seti_swLines (p : Nat) (f : Fld) (i : Int) : (s.seti p f i).swLines = s.swLines := rfl
@[simp] theorem State.seti_poisonLines (p : Nat) (f : Fld) (i : Int) : (s.seti p f i).poisonLines = s.poisonLines := rfl
@[simp] theorem State.seti_xlat (p : Nat) (f : Fld) (i : Int) : (s.seti p f i).xlat = s.xlat := rfl
@[simp] theorem State.seti_dplFilter (p : Nat) (f : Fld) (i : Int) : (s.seti p f i).dplFilter = s.dplFilter := rfl
@[simp] theorem State.seti_norOps (p : Nat) (f : Fld) (i : Int) : (s.seti p f i).norOps = s.norOps := rfl
@[simp] theorem State.seti_norWear (p : Nat) (f : Fld) (i : Int) : (s.seti p f i).norWear = s.norWear := rfl
@[simp] theorem State.seti_fuses (p : Nat) (f : Fld) (i : Int) : (s.seti p f i).fuses = s.fuses := rfl
@[simp] theorem State.seti_fuseOp (p : Nat) (f : Fld) (i : Int) : (s.seti p f i).fuseOp = s.fuseOp := rfl
@[simp] theorem State.seti_refiBase (p : Nat) (f : Fld) (i : Int) : (s.seti p f i).refiBase = s.refiBase := rfl
@[simp] theorem State.seti_scrSram (p : Nat) (f : Fld) (i : Int) : (s.seti p f i).scrSram = s.scrSram := rfl
@[simp] theorem State.seti_scrCkpt (p : Nat) (f : Fld) (i : Int) : (s.seti p f i).scrCkpt = s.scrCkpt := rfl
@[simp] theorem State.seti_slotBad (p : Nat) (f : Fld) (i : Int) : (s.seti p f i).slotBad = s.slotBad := rfl
@[simp] theorem State.seti_sec (p : Nat) (f : Fld) (i : Int) : (s.seti p f i).sec = s.sec := rfl
@[simp] theorem State.seti_upd (p : Nat) (f : Fld) (i : Int) : (s.seti p f i).upd = s.upd := rfl
@[simp] theorem State.seti_up (p : Nat) (f : Fld) (i : Int) : (s.seti p f i).up = s.up := rfl
@[simp] theorem State.seti_clk (p : Nat) (f : Fld) (i : Int) : (s.seti p f i).clk = s.clk := rfl
@[simp] theorem State.seti_slp (p : Nat) (f : Fld) (i : Int) : (s.seti p f i).slp = s.slp := rfl
@[simp] theorem State.seti_health (p : Nat) (f : Fld) (i : Int) : (s.seti p f i).health = s.health := rfl
@[simp] theorem State.seti_hon (p : Nat) (f : Fld) (i : Int) : (s.seti p f i).hon = s.hon := rfl

@[simp] theorem State.irq_pending (p b : Nat) : (s.irq p b).pending = s.pending := rfl
@[simp] theorem State.irq_hz9620 (p b : Nat) : (s.irq p b).hz9620 = s.hz9620 := rfl
@[simp] theorem State.irq_tabs (p b : Nat) : (s.irq p b).tabs = s.tabs := rfl
@[simp] theorem State.irq_mem (p b : Nat) : (s.irq p b).mem = s.mem := rfl
@[simp] theorem State.irq_resp (p b : Nat) : (s.irq p b).resp = s.resp := rfl
@[simp] theorem State.irq_out (p b : Nat) : (s.irq p b).out = s.out := rfl
@[simp] theorem State.irq_fresh (p b : Nat) : (s.irq p b).fresh = s.fresh := rfl
@[simp] theorem State.irq_posts (p b : Nat) : (s.irq p b).posts = s.posts := rfl
@[simp] theorem State.irq_shell (p b : Nat) : (s.irq p b).shell = s.shell := rfl
@[simp] theorem State.irq_tb (p b : Nat) : (s.irq p b).tb = s.tb := rfl
@[simp] theorem State.irq_plate (p b : Nat) : (s.irq p b).plate = s.plate := rfl
@[simp] theorem State.irq_sw (p b : Nat) : (s.irq p b).sw = s.sw := rfl
@[simp] theorem State.irq_badEntries (p b : Nat) : (s.irq p b).badEntries = s.badEntries := rfl
@[simp] theorem State.irq_gwIn (p b : Nat) : (s.irq p b).gwIn = s.gwIn := rfl
@[simp] theorem State.irq_can (p b : Nat) : (s.irq p b).can = s.can := rfl
@[simp] theorem State.irq_lin (p b : Nat) : (s.irq p b).lin = s.lin := rfl
@[simp] theorem State.irq_gw (p b : Nat) : (s.irq p b).gw = s.gw := rfl
@[simp] theorem State.irq_chans (p b : Nat) : (s.irq p b).chans = s.chans := rfl
@[simp] theorem State.irq_dies (p b : Nat) : (s.irq p b).dies = s.dies := rfl
@[simp] theorem State.irq_selLands (p b : Nat) : (s.irq p b).selLands = s.selLands := rfl
@[simp] theorem State.irq_claim (p b : Nat) : (s.irq p b).claim = s.claim := rfl
@[simp] theorem State.irq_dins (p b : Nat) : (s.irq p b).dins = s.dins := rfl
@[simp] theorem State.irq_ains (p b : Nat) : (s.irq p b).ains = s.ains := rfl
@[simp] theorem State.irq_scan (p b : Nat) : (s.irq p b).scan = s.scan := rfl
@[simp] theorem State.irq_disarmed (p b : Nat) : (s.irq p b).disarmed = s.disarmed := rfl
@[simp] theorem State.irq_bridges (p b : Nat) : (s.irq p b).bridges = s.bridges := rfl
@[simp] theorem State.irq_phoask (p b : Nat) : (s.irq p b).phoask = s.phoask := rfl
@[simp] theorem State.irq_twin (p b : Nat) : (s.irq p b).twin = s.twin := rfl
@[simp] theorem State.irq_mig (p b : Nat) : (s.irq p b).mig = s.mig := rfl
@[simp] theorem State.irq_cal (p b : Nat) : (s.irq p b).cal = s.cal := rfl
@[simp] theorem State.irq_cfaultA (p b : Nat) : (s.irq p b).cfaultA = s.cfaultA := rfl
@[simp] theorem State.irq_cfaultP (p b : Nat) : (s.irq p b).cfaultP = s.cfaultP := rfl
@[simp] theorem State.irq_cores (p b : Nat) : (s.irq p b).cores = s.cores := rfl
@[simp] theorem State.irq_swLines (p b : Nat) : (s.irq p b).swLines = s.swLines := rfl
@[simp] theorem State.irq_poisonLines (p b : Nat) : (s.irq p b).poisonLines = s.poisonLines := rfl
@[simp] theorem State.irq_xlat (p b : Nat) : (s.irq p b).xlat = s.xlat := rfl
@[simp] theorem State.irq_dplFilter (p b : Nat) : (s.irq p b).dplFilter = s.dplFilter := rfl
@[simp] theorem State.irq_norOps (p b : Nat) : (s.irq p b).norOps = s.norOps := rfl
@[simp] theorem State.irq_norWear (p b : Nat) : (s.irq p b).norWear = s.norWear := rfl
@[simp] theorem State.irq_fuses (p b : Nat) : (s.irq p b).fuses = s.fuses := rfl
@[simp] theorem State.irq_fuseOp (p b : Nat) : (s.irq p b).fuseOp = s.fuseOp := rfl
@[simp] theorem State.irq_refiBase (p b : Nat) : (s.irq p b).refiBase = s.refiBase := rfl
@[simp] theorem State.irq_scrSram (p b : Nat) : (s.irq p b).scrSram = s.scrSram := rfl
@[simp] theorem State.irq_scrCkpt (p b : Nat) : (s.irq p b).scrCkpt = s.scrCkpt := rfl
@[simp] theorem State.irq_slotBad (p b : Nat) : (s.irq p b).slotBad = s.slotBad := rfl
@[simp] theorem State.irq_sec (p b : Nat) : (s.irq p b).sec = s.sec := rfl
@[simp] theorem State.irq_upd (p b : Nat) : (s.irq p b).upd = s.upd := rfl
@[simp] theorem State.irq_up (p b : Nat) : (s.irq p b).up = s.up := rfl
@[simp] theorem State.irq_clk (p b : Nat) : (s.irq p b).clk = s.clk := rfl
@[simp] theorem State.irq_slp (p b : Nat) : (s.irq p b).slp = s.slp := rfl
@[simp] theorem State.irq_health (p b : Nat) : (s.irq p b).health = s.health := rfl
@[simp] theorem State.irq_hon (p b : Nat) : (s.irq p b).hon = s.hon := rfl

@[simp] theorem State.tset_pending (i j w n : Nat) : (s.tset i j w n).pending = s.pending := rfl
@[simp] theorem State.tset_hz9620 (i j w n : Nat) : (s.tset i j w n).hz9620 = s.hz9620 := rfl
@[simp] theorem State.tset_regs (i j w n : Nat) : (s.tset i j w n).regs = s.regs := rfl
@[simp] theorem State.tset_mem (i j w n : Nat) : (s.tset i j w n).mem = s.mem := rfl
@[simp] theorem State.tset_resp (i j w n : Nat) : (s.tset i j w n).resp = s.resp := rfl
@[simp] theorem State.tset_out (i j w n : Nat) : (s.tset i j w n).out = s.out := rfl
@[simp] theorem State.tset_fresh (i j w n : Nat) : (s.tset i j w n).fresh = s.fresh := rfl
@[simp] theorem State.tset_posts (i j w n : Nat) : (s.tset i j w n).posts = s.posts := rfl
@[simp] theorem State.tset_shell (i j w n : Nat) : (s.tset i j w n).shell = s.shell := rfl
@[simp] theorem State.tset_tb (i j w n : Nat) : (s.tset i j w n).tb = s.tb := rfl
@[simp] theorem State.tset_plate (i j w n : Nat) : (s.tset i j w n).plate = s.plate := rfl
@[simp] theorem State.tset_sw (i j w n : Nat) : (s.tset i j w n).sw = s.sw := rfl
@[simp] theorem State.tset_badEntries (i j w n : Nat) : (s.tset i j w n).badEntries = s.badEntries := rfl
@[simp] theorem State.tset_gwIn (i j w n : Nat) : (s.tset i j w n).gwIn = s.gwIn := rfl
@[simp] theorem State.tset_can (i j w n : Nat) : (s.tset i j w n).can = s.can := rfl
@[simp] theorem State.tset_lin (i j w n : Nat) : (s.tset i j w n).lin = s.lin := rfl
@[simp] theorem State.tset_gw (i j w n : Nat) : (s.tset i j w n).gw = s.gw := rfl
@[simp] theorem State.tset_chans (i j w n : Nat) : (s.tset i j w n).chans = s.chans := rfl
@[simp] theorem State.tset_dies (i j w n : Nat) : (s.tset i j w n).dies = s.dies := rfl
@[simp] theorem State.tset_selLands (i j w n : Nat) : (s.tset i j w n).selLands = s.selLands := rfl
@[simp] theorem State.tset_claim (i j w n : Nat) : (s.tset i j w n).claim = s.claim := rfl
@[simp] theorem State.tset_dins (i j w n : Nat) : (s.tset i j w n).dins = s.dins := rfl
@[simp] theorem State.tset_ains (i j w n : Nat) : (s.tset i j w n).ains = s.ains := rfl
@[simp] theorem State.tset_scan (i j w n : Nat) : (s.tset i j w n).scan = s.scan := rfl
@[simp] theorem State.tset_disarmed (i j w n : Nat) : (s.tset i j w n).disarmed = s.disarmed := rfl
@[simp] theorem State.tset_bridges (i j w n : Nat) : (s.tset i j w n).bridges = s.bridges := rfl
@[simp] theorem State.tset_phoask (i j w n : Nat) : (s.tset i j w n).phoask = s.phoask := rfl
@[simp] theorem State.tset_twin (i j w n : Nat) : (s.tset i j w n).twin = s.twin := rfl
@[simp] theorem State.tset_mig (i j w n : Nat) : (s.tset i j w n).mig = s.mig := rfl
@[simp] theorem State.tset_cal (i j w n : Nat) : (s.tset i j w n).cal = s.cal := rfl
@[simp] theorem State.tset_cfaultA (i j w n : Nat) : (s.tset i j w n).cfaultA = s.cfaultA := rfl
@[simp] theorem State.tset_cfaultP (i j w n : Nat) : (s.tset i j w n).cfaultP = s.cfaultP := rfl
@[simp] theorem State.tset_cores (i j w n : Nat) : (s.tset i j w n).cores = s.cores := rfl
@[simp] theorem State.tset_swLines (i j w n : Nat) : (s.tset i j w n).swLines = s.swLines := rfl
@[simp] theorem State.tset_poisonLines (i j w n : Nat) : (s.tset i j w n).poisonLines = s.poisonLines := rfl
@[simp] theorem State.tset_xlat (i j w n : Nat) : (s.tset i j w n).xlat = s.xlat := rfl
@[simp] theorem State.tset_dplFilter (i j w n : Nat) : (s.tset i j w n).dplFilter = s.dplFilter := rfl
@[simp] theorem State.tset_norOps (i j w n : Nat) : (s.tset i j w n).norOps = s.norOps := rfl
@[simp] theorem State.tset_norWear (i j w n : Nat) : (s.tset i j w n).norWear = s.norWear := rfl
@[simp] theorem State.tset_fuses (i j w n : Nat) : (s.tset i j w n).fuses = s.fuses := rfl
@[simp] theorem State.tset_fuseOp (i j w n : Nat) : (s.tset i j w n).fuseOp = s.fuseOp := rfl
@[simp] theorem State.tset_refiBase (i j w n : Nat) : (s.tset i j w n).refiBase = s.refiBase := rfl
@[simp] theorem State.tset_scrSram (i j w n : Nat) : (s.tset i j w n).scrSram = s.scrSram := rfl
@[simp] theorem State.tset_scrCkpt (i j w n : Nat) : (s.tset i j w n).scrCkpt = s.scrCkpt := rfl
@[simp] theorem State.tset_slotBad (i j w n : Nat) : (s.tset i j w n).slotBad = s.slotBad := rfl
@[simp] theorem State.tset_sec (i j w n : Nat) : (s.tset i j w n).sec = s.sec := rfl
@[simp] theorem State.tset_upd (i j w n : Nat) : (s.tset i j w n).upd = s.upd := rfl
@[simp] theorem State.tset_up (i j w n : Nat) : (s.tset i j w n).up = s.up := rfl
@[simp] theorem State.tset_clk (i j w n : Nat) : (s.tset i j w n).clk = s.clk := rfl
@[simp] theorem State.tset_slp (i j w n : Nat) : (s.tset i j w n).slp = s.slp := rfl
@[simp] theorem State.tset_health (i j w n : Nat) : (s.tset i j w n).health = s.health := rfl
@[simp] theorem State.tset_hon (i j w n : Nat) : (s.tset i j w n).hon = s.hon := rfl

@[simp] theorem State.tfSet_pending (i j : Nat) (f : TFld) (n : Nat) : (s.tfSet i j f n).pending = s.pending := rfl
@[simp] theorem State.tfSet_hz9620 (i j : Nat) (f : TFld) (n : Nat) : (s.tfSet i j f n).hz9620 = s.hz9620 := rfl
@[simp] theorem State.tfSet_regs (i j : Nat) (f : TFld) (n : Nat) : (s.tfSet i j f n).regs = s.regs := rfl
@[simp] theorem State.tfSet_mem (i j : Nat) (f : TFld) (n : Nat) : (s.tfSet i j f n).mem = s.mem := rfl
@[simp] theorem State.tfSet_resp (i j : Nat) (f : TFld) (n : Nat) : (s.tfSet i j f n).resp = s.resp := rfl
@[simp] theorem State.tfSet_out (i j : Nat) (f : TFld) (n : Nat) : (s.tfSet i j f n).out = s.out := rfl
@[simp] theorem State.tfSet_fresh (i j : Nat) (f : TFld) (n : Nat) : (s.tfSet i j f n).fresh = s.fresh := rfl
@[simp] theorem State.tfSet_posts (i j : Nat) (f : TFld) (n : Nat) : (s.tfSet i j f n).posts = s.posts := rfl
@[simp] theorem State.tfSet_shell (i j : Nat) (f : TFld) (n : Nat) : (s.tfSet i j f n).shell = s.shell := rfl
@[simp] theorem State.tfSet_tb (i j : Nat) (f : TFld) (n : Nat) : (s.tfSet i j f n).tb = s.tb := rfl
@[simp] theorem State.tfSet_plate (i j : Nat) (f : TFld) (n : Nat) : (s.tfSet i j f n).plate = s.plate := rfl
@[simp] theorem State.tfSet_sw (i j : Nat) (f : TFld) (n : Nat) : (s.tfSet i j f n).sw = s.sw := rfl
@[simp] theorem State.tfSet_badEntries (i j : Nat) (f : TFld) (n : Nat) : (s.tfSet i j f n).badEntries = s.badEntries := rfl
@[simp] theorem State.tfSet_gwIn (i j : Nat) (f : TFld) (n : Nat) : (s.tfSet i j f n).gwIn = s.gwIn := rfl
@[simp] theorem State.tfSet_can (i j : Nat) (f : TFld) (n : Nat) : (s.tfSet i j f n).can = s.can := rfl
@[simp] theorem State.tfSet_lin (i j : Nat) (f : TFld) (n : Nat) : (s.tfSet i j f n).lin = s.lin := rfl
@[simp] theorem State.tfSet_gw (i j : Nat) (f : TFld) (n : Nat) : (s.tfSet i j f n).gw = s.gw := rfl
@[simp] theorem State.tfSet_chans (i j : Nat) (f : TFld) (n : Nat) : (s.tfSet i j f n).chans = s.chans := rfl
@[simp] theorem State.tfSet_dies (i j : Nat) (f : TFld) (n : Nat) : (s.tfSet i j f n).dies = s.dies := rfl
@[simp] theorem State.tfSet_selLands (i j : Nat) (f : TFld) (n : Nat) : (s.tfSet i j f n).selLands = s.selLands := rfl
@[simp] theorem State.tfSet_claim (i j : Nat) (f : TFld) (n : Nat) : (s.tfSet i j f n).claim = s.claim := rfl
@[simp] theorem State.tfSet_dins (i j : Nat) (f : TFld) (n : Nat) : (s.tfSet i j f n).dins = s.dins := rfl
@[simp] theorem State.tfSet_ains (i j : Nat) (f : TFld) (n : Nat) : (s.tfSet i j f n).ains = s.ains := rfl
@[simp] theorem State.tfSet_scan (i j : Nat) (f : TFld) (n : Nat) : (s.tfSet i j f n).scan = s.scan := rfl
@[simp] theorem State.tfSet_disarmed (i j : Nat) (f : TFld) (n : Nat) : (s.tfSet i j f n).disarmed = s.disarmed := rfl
@[simp] theorem State.tfSet_bridges (i j : Nat) (f : TFld) (n : Nat) : (s.tfSet i j f n).bridges = s.bridges := rfl
@[simp] theorem State.tfSet_phoask (i j : Nat) (f : TFld) (n : Nat) : (s.tfSet i j f n).phoask = s.phoask := rfl
@[simp] theorem State.tfSet_twin (i j : Nat) (f : TFld) (n : Nat) : (s.tfSet i j f n).twin = s.twin := rfl
@[simp] theorem State.tfSet_mig (i j : Nat) (f : TFld) (n : Nat) : (s.tfSet i j f n).mig = s.mig := rfl
@[simp] theorem State.tfSet_cal (i j : Nat) (f : TFld) (n : Nat) : (s.tfSet i j f n).cal = s.cal := rfl
@[simp] theorem State.tfSet_cfaultA (i j : Nat) (f : TFld) (n : Nat) : (s.tfSet i j f n).cfaultA = s.cfaultA := rfl
@[simp] theorem State.tfSet_cfaultP (i j : Nat) (f : TFld) (n : Nat) : (s.tfSet i j f n).cfaultP = s.cfaultP := rfl
@[simp] theorem State.tfSet_cores (i j : Nat) (f : TFld) (n : Nat) : (s.tfSet i j f n).cores = s.cores := rfl
@[simp] theorem State.tfSet_swLines (i j : Nat) (f : TFld) (n : Nat) : (s.tfSet i j f n).swLines = s.swLines := rfl
@[simp] theorem State.tfSet_poisonLines (i j : Nat) (f : TFld) (n : Nat) : (s.tfSet i j f n).poisonLines = s.poisonLines := rfl
@[simp] theorem State.tfSet_xlat (i j : Nat) (f : TFld) (n : Nat) : (s.tfSet i j f n).xlat = s.xlat := rfl
@[simp] theorem State.tfSet_dplFilter (i j : Nat) (f : TFld) (n : Nat) : (s.tfSet i j f n).dplFilter = s.dplFilter := rfl
@[simp] theorem State.tfSet_norOps (i j : Nat) (f : TFld) (n : Nat) : (s.tfSet i j f n).norOps = s.norOps := rfl
@[simp] theorem State.tfSet_norWear (i j : Nat) (f : TFld) (n : Nat) : (s.tfSet i j f n).norWear = s.norWear := rfl
@[simp] theorem State.tfSet_fuses (i j : Nat) (f : TFld) (n : Nat) : (s.tfSet i j f n).fuses = s.fuses := rfl
@[simp] theorem State.tfSet_fuseOp (i j : Nat) (f : TFld) (n : Nat) : (s.tfSet i j f n).fuseOp = s.fuseOp := rfl
@[simp] theorem State.tfSet_refiBase (i j : Nat) (f : TFld) (n : Nat) : (s.tfSet i j f n).refiBase = s.refiBase := rfl
@[simp] theorem State.tfSet_scrSram (i j : Nat) (f : TFld) (n : Nat) : (s.tfSet i j f n).scrSram = s.scrSram := rfl
@[simp] theorem State.tfSet_scrCkpt (i j : Nat) (f : TFld) (n : Nat) : (s.tfSet i j f n).scrCkpt = s.scrCkpt := rfl
@[simp] theorem State.tfSet_slotBad (i j : Nat) (f : TFld) (n : Nat) : (s.tfSet i j f n).slotBad = s.slotBad := rfl
@[simp] theorem State.tfSet_sec (i j : Nat) (f : TFld) (n : Nat) : (s.tfSet i j f n).sec = s.sec := rfl
@[simp] theorem State.tfSet_upd (i j : Nat) (f : TFld) (n : Nat) : (s.tfSet i j f n).upd = s.upd := rfl
@[simp] theorem State.tfSet_up (i j : Nat) (f : TFld) (n : Nat) : (s.tfSet i j f n).up = s.up := rfl
@[simp] theorem State.tfSet_clk (i j : Nat) (f : TFld) (n : Nat) : (s.tfSet i j f n).clk = s.clk := rfl
@[simp] theorem State.tfSet_slp (i j : Nat) (f : TFld) (n : Nat) : (s.tfSet i j f n).slp = s.slp := rfl
@[simp] theorem State.tfSet_health (i j : Nat) (f : TFld) (n : Nat) : (s.tfSet i j f n).health = s.health := rfl
@[simp] theorem State.tfSet_hon (i j : Nat) (f : TFld) (n : Nat) : (s.tfSet i j f n).hon = s.hon := rfl

@[simp] theorem State.setByte_pending (a n : Nat) : (s.setByte a n).pending = s.pending := rfl
@[simp] theorem State.setByte_hz9620 (a n : Nat) : (s.setByte a n).hz9620 = s.hz9620 := rfl
@[simp] theorem State.setByte_regs (a n : Nat) : (s.setByte a n).regs = s.regs := rfl
@[simp] theorem State.setByte_tabs (a n : Nat) : (s.setByte a n).tabs = s.tabs := rfl
@[simp] theorem State.setByte_resp (a n : Nat) : (s.setByte a n).resp = s.resp := rfl
@[simp] theorem State.setByte_out (a n : Nat) : (s.setByte a n).out = s.out := rfl
@[simp] theorem State.setByte_fresh (a n : Nat) : (s.setByte a n).fresh = s.fresh := rfl
@[simp] theorem State.setByte_posts (a n : Nat) : (s.setByte a n).posts = s.posts := rfl
@[simp] theorem State.setByte_shell (a n : Nat) : (s.setByte a n).shell = s.shell := rfl
@[simp] theorem State.setByte_tb (a n : Nat) : (s.setByte a n).tb = s.tb := rfl
@[simp] theorem State.setByte_plate (a n : Nat) : (s.setByte a n).plate = s.plate := rfl
@[simp] theorem State.setByte_sw (a n : Nat) : (s.setByte a n).sw = s.sw := rfl
@[simp] theorem State.setByte_badEntries (a n : Nat) : (s.setByte a n).badEntries = s.badEntries := rfl
@[simp] theorem State.setByte_gwIn (a n : Nat) : (s.setByte a n).gwIn = s.gwIn := rfl
@[simp] theorem State.setByte_can (a n : Nat) : (s.setByte a n).can = s.can := rfl
@[simp] theorem State.setByte_lin (a n : Nat) : (s.setByte a n).lin = s.lin := rfl
@[simp] theorem State.setByte_gw (a n : Nat) : (s.setByte a n).gw = s.gw := rfl
@[simp] theorem State.setByte_chans (a n : Nat) : (s.setByte a n).chans = s.chans := rfl
@[simp] theorem State.setByte_dies (a n : Nat) : (s.setByte a n).dies = s.dies := rfl
@[simp] theorem State.setByte_selLands (a n : Nat) : (s.setByte a n).selLands = s.selLands := rfl
@[simp] theorem State.setByte_claim (a n : Nat) : (s.setByte a n).claim = s.claim := rfl
@[simp] theorem State.setByte_dins (a n : Nat) : (s.setByte a n).dins = s.dins := rfl
@[simp] theorem State.setByte_ains (a n : Nat) : (s.setByte a n).ains = s.ains := rfl
@[simp] theorem State.setByte_scan (a n : Nat) : (s.setByte a n).scan = s.scan := rfl
@[simp] theorem State.setByte_disarmed (a n : Nat) : (s.setByte a n).disarmed = s.disarmed := rfl
@[simp] theorem State.setByte_bridges (a n : Nat) : (s.setByte a n).bridges = s.bridges := rfl
@[simp] theorem State.setByte_phoask (a n : Nat) : (s.setByte a n).phoask = s.phoask := rfl
@[simp] theorem State.setByte_twin (a n : Nat) : (s.setByte a n).twin = s.twin := rfl
@[simp] theorem State.setByte_mig (a n : Nat) : (s.setByte a n).mig = s.mig := rfl
@[simp] theorem State.setByte_cal (a n : Nat) : (s.setByte a n).cal = s.cal := rfl
@[simp] theorem State.setByte_cfaultA (a n : Nat) : (s.setByte a n).cfaultA = s.cfaultA := rfl
@[simp] theorem State.setByte_cfaultP (a n : Nat) : (s.setByte a n).cfaultP = s.cfaultP := rfl
@[simp] theorem State.setByte_cores (a n : Nat) : (s.setByte a n).cores = s.cores := rfl
@[simp] theorem State.setByte_swLines (a n : Nat) : (s.setByte a n).swLines = s.swLines := rfl
@[simp] theorem State.setByte_poisonLines (a n : Nat) : (s.setByte a n).poisonLines = s.poisonLines := rfl
@[simp] theorem State.setByte_xlat (a n : Nat) : (s.setByte a n).xlat = s.xlat := rfl
@[simp] theorem State.setByte_dplFilter (a n : Nat) : (s.setByte a n).dplFilter = s.dplFilter := rfl
@[simp] theorem State.setByte_norOps (a n : Nat) : (s.setByte a n).norOps = s.norOps := rfl
@[simp] theorem State.setByte_norWear (a n : Nat) : (s.setByte a n).norWear = s.norWear := rfl
@[simp] theorem State.setByte_fuses (a n : Nat) : (s.setByte a n).fuses = s.fuses := rfl
@[simp] theorem State.setByte_fuseOp (a n : Nat) : (s.setByte a n).fuseOp = s.fuseOp := rfl
@[simp] theorem State.setByte_refiBase (a n : Nat) : (s.setByte a n).refiBase = s.refiBase := rfl
@[simp] theorem State.setByte_scrSram (a n : Nat) : (s.setByte a n).scrSram = s.scrSram := rfl
@[simp] theorem State.setByte_scrCkpt (a n : Nat) : (s.setByte a n).scrCkpt = s.scrCkpt := rfl
@[simp] theorem State.setByte_slotBad (a n : Nat) : (s.setByte a n).slotBad = s.slotBad := rfl
@[simp] theorem State.setByte_sec (a n : Nat) : (s.setByte a n).sec = s.sec := rfl
@[simp] theorem State.setByte_upd (a n : Nat) : (s.setByte a n).upd = s.upd := rfl
@[simp] theorem State.setByte_up (a n : Nat) : (s.setByte a n).up = s.up := rfl
@[simp] theorem State.setByte_clk (a n : Nat) : (s.setByte a n).clk = s.clk := rfl
@[simp] theorem State.setByte_slp (a n : Nat) : (s.setByte a n).slp = s.slp := rfl
@[simp] theorem State.setByte_health (a n : Nat) : (s.setByte a n).health = s.health := rfl
@[simp] theorem State.setByte_hon (a n : Nat) : (s.setByte a n).hon = s.hon := rfl

@[simp] theorem State.emit_pending (x : Out) : (s.emit x).pending = s.pending := rfl
@[simp] theorem State.emit_hz9620 (x : Out) : (s.emit x).hz9620 = s.hz9620 := rfl
@[simp] theorem State.emit_regs (x : Out) : (s.emit x).regs = s.regs := rfl
@[simp] theorem State.emit_tabs (x : Out) : (s.emit x).tabs = s.tabs := rfl
@[simp] theorem State.emit_mem (x : Out) : (s.emit x).mem = s.mem := rfl
@[simp] theorem State.emit_resp (x : Out) : (s.emit x).resp = s.resp := rfl
@[simp] theorem State.emit_fresh (x : Out) : (s.emit x).fresh = s.fresh := rfl
@[simp] theorem State.emit_posts (x : Out) : (s.emit x).posts = s.posts := rfl
@[simp] theorem State.emit_shell (x : Out) : (s.emit x).shell = s.shell := rfl
@[simp] theorem State.emit_tb (x : Out) : (s.emit x).tb = s.tb := rfl
@[simp] theorem State.emit_plate (x : Out) : (s.emit x).plate = s.plate := rfl
@[simp] theorem State.emit_sw (x : Out) : (s.emit x).sw = s.sw := rfl
@[simp] theorem State.emit_badEntries (x : Out) : (s.emit x).badEntries = s.badEntries := rfl
@[simp] theorem State.emit_gwIn (x : Out) : (s.emit x).gwIn = s.gwIn := rfl
@[simp] theorem State.emit_can (x : Out) : (s.emit x).can = s.can := rfl
@[simp] theorem State.emit_lin (x : Out) : (s.emit x).lin = s.lin := rfl
@[simp] theorem State.emit_gw (x : Out) : (s.emit x).gw = s.gw := rfl
@[simp] theorem State.emit_chans (x : Out) : (s.emit x).chans = s.chans := rfl
@[simp] theorem State.emit_dies (x : Out) : (s.emit x).dies = s.dies := rfl
@[simp] theorem State.emit_selLands (x : Out) : (s.emit x).selLands = s.selLands := rfl
@[simp] theorem State.emit_claim (x : Out) : (s.emit x).claim = s.claim := rfl
@[simp] theorem State.emit_dins (x : Out) : (s.emit x).dins = s.dins := rfl
@[simp] theorem State.emit_ains (x : Out) : (s.emit x).ains = s.ains := rfl
@[simp] theorem State.emit_scan (x : Out) : (s.emit x).scan = s.scan := rfl
@[simp] theorem State.emit_disarmed (x : Out) : (s.emit x).disarmed = s.disarmed := rfl
@[simp] theorem State.emit_bridges (x : Out) : (s.emit x).bridges = s.bridges := rfl
@[simp] theorem State.emit_phoask (x : Out) : (s.emit x).phoask = s.phoask := rfl
@[simp] theorem State.emit_twin (x : Out) : (s.emit x).twin = s.twin := rfl
@[simp] theorem State.emit_mig (x : Out) : (s.emit x).mig = s.mig := rfl
@[simp] theorem State.emit_cal (x : Out) : (s.emit x).cal = s.cal := rfl
@[simp] theorem State.emit_cfaultA (x : Out) : (s.emit x).cfaultA = s.cfaultA := rfl
@[simp] theorem State.emit_cfaultP (x : Out) : (s.emit x).cfaultP = s.cfaultP := rfl
@[simp] theorem State.emit_cores (x : Out) : (s.emit x).cores = s.cores := rfl
@[simp] theorem State.emit_swLines (x : Out) : (s.emit x).swLines = s.swLines := rfl
@[simp] theorem State.emit_poisonLines (x : Out) : (s.emit x).poisonLines = s.poisonLines := rfl
@[simp] theorem State.emit_xlat (x : Out) : (s.emit x).xlat = s.xlat := rfl
@[simp] theorem State.emit_dplFilter (x : Out) : (s.emit x).dplFilter = s.dplFilter := rfl
@[simp] theorem State.emit_norOps (x : Out) : (s.emit x).norOps = s.norOps := rfl
@[simp] theorem State.emit_norWear (x : Out) : (s.emit x).norWear = s.norWear := rfl
@[simp] theorem State.emit_fuses (x : Out) : (s.emit x).fuses = s.fuses := rfl
@[simp] theorem State.emit_fuseOp (x : Out) : (s.emit x).fuseOp = s.fuseOp := rfl
@[simp] theorem State.emit_refiBase (x : Out) : (s.emit x).refiBase = s.refiBase := rfl
@[simp] theorem State.emit_scrSram (x : Out) : (s.emit x).scrSram = s.scrSram := rfl
@[simp] theorem State.emit_scrCkpt (x : Out) : (s.emit x).scrCkpt = s.scrCkpt := rfl
@[simp] theorem State.emit_slotBad (x : Out) : (s.emit x).slotBad = s.slotBad := rfl
@[simp] theorem State.emit_sec (x : Out) : (s.emit x).sec = s.sec := rfl
@[simp] theorem State.emit_upd (x : Out) : (s.emit x).upd = s.upd := rfl
@[simp] theorem State.emit_up (x : Out) : (s.emit x).up = s.up := rfl
@[simp] theorem State.emit_clk (x : Out) : (s.emit x).clk = s.clk := rfl
@[simp] theorem State.emit_slp (x : Out) : (s.emit x).slp = s.slp := rfl
@[simp] theorem State.emit_health (x : Out) : (s.emit x).health = s.health := rfl
@[simp] theorem State.emit_hon (x : Out) : (s.emit x).hon = s.hon := rfl

@[simp] theorem State.took_pending : (s.took).pending = s.pending := rfl
@[simp] theorem State.took_hz9620 : (s.took).hz9620 = s.hz9620 := rfl
@[simp] theorem State.took_regs : (s.took).regs = s.regs := rfl
@[simp] theorem State.took_tabs : (s.took).tabs = s.tabs := rfl
@[simp] theorem State.took_mem : (s.took).mem = s.mem := rfl
@[simp] theorem State.took_resp : (s.took).resp = s.resp := rfl
@[simp] theorem State.took_out : (s.took).out = s.out := rfl
@[simp] theorem State.took_posts : (s.took).posts = s.posts := rfl
@[simp] theorem State.took_shell : (s.took).shell = s.shell := rfl
@[simp] theorem State.took_tb : (s.took).tb = s.tb := rfl
@[simp] theorem State.took_plate : (s.took).plate = s.plate := rfl
@[simp] theorem State.took_sw : (s.took).sw = s.sw := rfl
@[simp] theorem State.took_badEntries : (s.took).badEntries = s.badEntries := rfl
@[simp] theorem State.took_gwIn : (s.took).gwIn = s.gwIn := rfl
@[simp] theorem State.took_can : (s.took).can = s.can := rfl
@[simp] theorem State.took_lin : (s.took).lin = s.lin := rfl
@[simp] theorem State.took_gw : (s.took).gw = s.gw := rfl
@[simp] theorem State.took_chans : (s.took).chans = s.chans := rfl
@[simp] theorem State.took_dies : (s.took).dies = s.dies := rfl
@[simp] theorem State.took_selLands : (s.took).selLands = s.selLands := rfl
@[simp] theorem State.took_claim : (s.took).claim = s.claim := rfl
@[simp] theorem State.took_dins : (s.took).dins = s.dins := rfl
@[simp] theorem State.took_ains : (s.took).ains = s.ains := rfl
@[simp] theorem State.took_scan : (s.took).scan = s.scan := rfl
@[simp] theorem State.took_disarmed : (s.took).disarmed = s.disarmed := rfl
@[simp] theorem State.took_bridges : (s.took).bridges = s.bridges := rfl
@[simp] theorem State.took_phoask : (s.took).phoask = s.phoask := rfl
@[simp] theorem State.took_twin : (s.took).twin = s.twin := rfl
@[simp] theorem State.took_mig : (s.took).mig = s.mig := rfl
@[simp] theorem State.took_cal : (s.took).cal = s.cal := rfl
@[simp] theorem State.took_cfaultA : (s.took).cfaultA = s.cfaultA := rfl
@[simp] theorem State.took_cfaultP : (s.took).cfaultP = s.cfaultP := rfl
@[simp] theorem State.took_cores : (s.took).cores = s.cores := rfl
@[simp] theorem State.took_swLines : (s.took).swLines = s.swLines := rfl
@[simp] theorem State.took_poisonLines : (s.took).poisonLines = s.poisonLines := rfl
@[simp] theorem State.took_xlat : (s.took).xlat = s.xlat := rfl
@[simp] theorem State.took_dplFilter : (s.took).dplFilter = s.dplFilter := rfl
@[simp] theorem State.took_norOps : (s.took).norOps = s.norOps := rfl
@[simp] theorem State.took_norWear : (s.took).norWear = s.norWear := rfl
@[simp] theorem State.took_fuses : (s.took).fuses = s.fuses := rfl
@[simp] theorem State.took_fuseOp : (s.took).fuseOp = s.fuseOp := rfl
@[simp] theorem State.took_refiBase : (s.took).refiBase = s.refiBase := rfl
@[simp] theorem State.took_scrSram : (s.took).scrSram = s.scrSram := rfl
@[simp] theorem State.took_scrCkpt : (s.took).scrCkpt = s.scrCkpt := rfl
@[simp] theorem State.took_slotBad : (s.took).slotBad = s.slotBad := rfl
@[simp] theorem State.took_sec : (s.took).sec = s.sec := rfl
@[simp] theorem State.took_upd : (s.took).upd = s.upd := rfl
@[simp] theorem State.took_up : (s.took).up = s.up := rfl
@[simp] theorem State.took_clk : (s.took).clk = s.clk := rfl
@[simp] theorem State.took_slp : (s.took).slp = s.slp := rfl
@[simp] theorem State.took_health : (s.took).health = s.health := rfl
@[simp] theorem State.took_hon : (s.took).hon = s.hon := rfl

@[simp] theorem State.answer_pending (r : RespStatus) (n : Nat) : (s.answer r n).pending = s.pending := rfl
@[simp] theorem State.answer_hz9620 (r : RespStatus) (n : Nat) : (s.answer r n).hz9620 = s.hz9620 := rfl
@[simp] theorem State.answer_regs (r : RespStatus) (n : Nat) : (s.answer r n).regs = s.regs := rfl
@[simp] theorem State.answer_tabs (r : RespStatus) (n : Nat) : (s.answer r n).tabs = s.tabs := rfl
@[simp] theorem State.answer_mem (r : RespStatus) (n : Nat) : (s.answer r n).mem = s.mem := rfl
@[simp] theorem State.answer_out (r : RespStatus) (n : Nat) : (s.answer r n).out = s.out := rfl
@[simp] theorem State.answer_fresh (r : RespStatus) (n : Nat) : (s.answer r n).fresh = s.fresh := rfl
@[simp] theorem State.answer_posts (r : RespStatus) (n : Nat) : (s.answer r n).posts = s.posts := rfl
@[simp] theorem State.answer_shell (r : RespStatus) (n : Nat) : (s.answer r n).shell = s.shell := rfl
@[simp] theorem State.answer_tb (r : RespStatus) (n : Nat) : (s.answer r n).tb = s.tb := rfl
@[simp] theorem State.answer_plate (r : RespStatus) (n : Nat) : (s.answer r n).plate = s.plate := rfl
@[simp] theorem State.answer_sw (r : RespStatus) (n : Nat) : (s.answer r n).sw = s.sw := rfl
@[simp] theorem State.answer_badEntries (r : RespStatus) (n : Nat) : (s.answer r n).badEntries = s.badEntries := rfl
@[simp] theorem State.answer_gwIn (r : RespStatus) (n : Nat) : (s.answer r n).gwIn = s.gwIn := rfl
@[simp] theorem State.answer_can (r : RespStatus) (n : Nat) : (s.answer r n).can = s.can := rfl
@[simp] theorem State.answer_lin (r : RespStatus) (n : Nat) : (s.answer r n).lin = s.lin := rfl
@[simp] theorem State.answer_gw (r : RespStatus) (n : Nat) : (s.answer r n).gw = s.gw := rfl
@[simp] theorem State.answer_chans (r : RespStatus) (n : Nat) : (s.answer r n).chans = s.chans := rfl
@[simp] theorem State.answer_dies (r : RespStatus) (n : Nat) : (s.answer r n).dies = s.dies := rfl
@[simp] theorem State.answer_selLands (r : RespStatus) (n : Nat) : (s.answer r n).selLands = s.selLands := rfl
@[simp] theorem State.answer_claim (r : RespStatus) (n : Nat) : (s.answer r n).claim = s.claim := rfl
@[simp] theorem State.answer_dins (r : RespStatus) (n : Nat) : (s.answer r n).dins = s.dins := rfl
@[simp] theorem State.answer_ains (r : RespStatus) (n : Nat) : (s.answer r n).ains = s.ains := rfl
@[simp] theorem State.answer_scan (r : RespStatus) (n : Nat) : (s.answer r n).scan = s.scan := rfl
@[simp] theorem State.answer_disarmed (r : RespStatus) (n : Nat) : (s.answer r n).disarmed = s.disarmed := rfl
@[simp] theorem State.answer_bridges (r : RespStatus) (n : Nat) : (s.answer r n).bridges = s.bridges := rfl
@[simp] theorem State.answer_phoask (r : RespStatus) (n : Nat) : (s.answer r n).phoask = s.phoask := rfl
@[simp] theorem State.answer_twin (r : RespStatus) (n : Nat) : (s.answer r n).twin = s.twin := rfl
@[simp] theorem State.answer_mig (r : RespStatus) (n : Nat) : (s.answer r n).mig = s.mig := rfl
@[simp] theorem State.answer_cal (r : RespStatus) (n : Nat) : (s.answer r n).cal = s.cal := rfl
@[simp] theorem State.answer_cfaultA (r : RespStatus) (n : Nat) : (s.answer r n).cfaultA = s.cfaultA := rfl
@[simp] theorem State.answer_cfaultP (r : RespStatus) (n : Nat) : (s.answer r n).cfaultP = s.cfaultP := rfl
@[simp] theorem State.answer_cores (r : RespStatus) (n : Nat) : (s.answer r n).cores = s.cores := rfl
@[simp] theorem State.answer_swLines (r : RespStatus) (n : Nat) : (s.answer r n).swLines = s.swLines := rfl
@[simp] theorem State.answer_poisonLines (r : RespStatus) (n : Nat) : (s.answer r n).poisonLines = s.poisonLines := rfl
@[simp] theorem State.answer_xlat (r : RespStatus) (n : Nat) : (s.answer r n).xlat = s.xlat := rfl
@[simp] theorem State.answer_dplFilter (r : RespStatus) (n : Nat) : (s.answer r n).dplFilter = s.dplFilter := rfl
@[simp] theorem State.answer_norOps (r : RespStatus) (n : Nat) : (s.answer r n).norOps = s.norOps := rfl
@[simp] theorem State.answer_norWear (r : RespStatus) (n : Nat) : (s.answer r n).norWear = s.norWear := rfl
@[simp] theorem State.answer_fuses (r : RespStatus) (n : Nat) : (s.answer r n).fuses = s.fuses := rfl
@[simp] theorem State.answer_fuseOp (r : RespStatus) (n : Nat) : (s.answer r n).fuseOp = s.fuseOp := rfl
@[simp] theorem State.answer_refiBase (r : RespStatus) (n : Nat) : (s.answer r n).refiBase = s.refiBase := rfl
@[simp] theorem State.answer_scrSram (r : RespStatus) (n : Nat) : (s.answer r n).scrSram = s.scrSram := rfl
@[simp] theorem State.answer_scrCkpt (r : RespStatus) (n : Nat) : (s.answer r n).scrCkpt = s.scrCkpt := rfl
@[simp] theorem State.answer_slotBad (r : RespStatus) (n : Nat) : (s.answer r n).slotBad = s.slotBad := rfl
@[simp] theorem State.answer_sec (r : RespStatus) (n : Nat) : (s.answer r n).sec = s.sec := rfl
@[simp] theorem State.answer_upd (r : RespStatus) (n : Nat) : (s.answer r n).upd = s.upd := rfl
@[simp] theorem State.answer_up (r : RespStatus) (n : Nat) : (s.answer r n).up = s.up := rfl
@[simp] theorem State.answer_clk (r : RespStatus) (n : Nat) : (s.answer r n).clk = s.clk := rfl
@[simp] theorem State.answer_slp (r : RespStatus) (n : Nat) : (s.answer r n).slp = s.slp := rfl
@[simp] theorem State.answer_health (r : RespStatus) (n : Nat) : (s.answer r n).health = s.health := rfl
@[simp] theorem State.answer_hon (r : RespStatus) (n : Nat) : (s.answer r n).hon = s.hon := rfl

@[simp] theorem State.ok_pending (n : Nat) : (s.ok n).pending = s.pending := rfl
@[simp] theorem State.ok_hz9620 (n : Nat) : (s.ok n).hz9620 = s.hz9620 := rfl
@[simp] theorem State.ok_regs (n : Nat) : (s.ok n).regs = s.regs := rfl
@[simp] theorem State.ok_tabs (n : Nat) : (s.ok n).tabs = s.tabs := rfl
@[simp] theorem State.ok_mem (n : Nat) : (s.ok n).mem = s.mem := rfl
@[simp] theorem State.ok_out (n : Nat) : (s.ok n).out = s.out := rfl
@[simp] theorem State.ok_fresh (n : Nat) : (s.ok n).fresh = s.fresh := rfl
@[simp] theorem State.ok_posts (n : Nat) : (s.ok n).posts = s.posts := rfl
@[simp] theorem State.ok_shell (n : Nat) : (s.ok n).shell = s.shell := rfl
@[simp] theorem State.ok_tb (n : Nat) : (s.ok n).tb = s.tb := rfl
@[simp] theorem State.ok_plate (n : Nat) : (s.ok n).plate = s.plate := rfl
@[simp] theorem State.ok_sw (n : Nat) : (s.ok n).sw = s.sw := rfl
@[simp] theorem State.ok_badEntries (n : Nat) : (s.ok n).badEntries = s.badEntries := rfl
@[simp] theorem State.ok_gwIn (n : Nat) : (s.ok n).gwIn = s.gwIn := rfl
@[simp] theorem State.ok_can (n : Nat) : (s.ok n).can = s.can := rfl
@[simp] theorem State.ok_lin (n : Nat) : (s.ok n).lin = s.lin := rfl
@[simp] theorem State.ok_gw (n : Nat) : (s.ok n).gw = s.gw := rfl
@[simp] theorem State.ok_chans (n : Nat) : (s.ok n).chans = s.chans := rfl
@[simp] theorem State.ok_dies (n : Nat) : (s.ok n).dies = s.dies := rfl
@[simp] theorem State.ok_selLands (n : Nat) : (s.ok n).selLands = s.selLands := rfl
@[simp] theorem State.ok_claim (n : Nat) : (s.ok n).claim = s.claim := rfl
@[simp] theorem State.ok_dins (n : Nat) : (s.ok n).dins = s.dins := rfl
@[simp] theorem State.ok_ains (n : Nat) : (s.ok n).ains = s.ains := rfl
@[simp] theorem State.ok_scan (n : Nat) : (s.ok n).scan = s.scan := rfl
@[simp] theorem State.ok_disarmed (n : Nat) : (s.ok n).disarmed = s.disarmed := rfl
@[simp] theorem State.ok_bridges (n : Nat) : (s.ok n).bridges = s.bridges := rfl
@[simp] theorem State.ok_phoask (n : Nat) : (s.ok n).phoask = s.phoask := rfl
@[simp] theorem State.ok_twin (n : Nat) : (s.ok n).twin = s.twin := rfl
@[simp] theorem State.ok_mig (n : Nat) : (s.ok n).mig = s.mig := rfl
@[simp] theorem State.ok_cal (n : Nat) : (s.ok n).cal = s.cal := rfl
@[simp] theorem State.ok_cfaultA (n : Nat) : (s.ok n).cfaultA = s.cfaultA := rfl
@[simp] theorem State.ok_cfaultP (n : Nat) : (s.ok n).cfaultP = s.cfaultP := rfl
@[simp] theorem State.ok_cores (n : Nat) : (s.ok n).cores = s.cores := rfl
@[simp] theorem State.ok_swLines (n : Nat) : (s.ok n).swLines = s.swLines := rfl
@[simp] theorem State.ok_poisonLines (n : Nat) : (s.ok n).poisonLines = s.poisonLines := rfl
@[simp] theorem State.ok_xlat (n : Nat) : (s.ok n).xlat = s.xlat := rfl
@[simp] theorem State.ok_dplFilter (n : Nat) : (s.ok n).dplFilter = s.dplFilter := rfl
@[simp] theorem State.ok_norOps (n : Nat) : (s.ok n).norOps = s.norOps := rfl
@[simp] theorem State.ok_norWear (n : Nat) : (s.ok n).norWear = s.norWear := rfl
@[simp] theorem State.ok_fuses (n : Nat) : (s.ok n).fuses = s.fuses := rfl
@[simp] theorem State.ok_fuseOp (n : Nat) : (s.ok n).fuseOp = s.fuseOp := rfl
@[simp] theorem State.ok_refiBase (n : Nat) : (s.ok n).refiBase = s.refiBase := rfl
@[simp] theorem State.ok_scrSram (n : Nat) : (s.ok n).scrSram = s.scrSram := rfl
@[simp] theorem State.ok_scrCkpt (n : Nat) : (s.ok n).scrCkpt = s.scrCkpt := rfl
@[simp] theorem State.ok_slotBad (n : Nat) : (s.ok n).slotBad = s.slotBad := rfl
@[simp] theorem State.ok_sec (n : Nat) : (s.ok n).sec = s.sec := rfl
@[simp] theorem State.ok_upd (n : Nat) : (s.ok n).upd = s.upd := rfl
@[simp] theorem State.ok_up (n : Nat) : (s.ok n).up = s.up := rfl
@[simp] theorem State.ok_clk (n : Nat) : (s.ok n).clk = s.clk := rfl
@[simp] theorem State.ok_slp (n : Nat) : (s.ok n).slp = s.slp := rfl
@[simp] theorem State.ok_health (n : Nat) : (s.ok n).health = s.health := rfl
@[simp] theorem State.ok_hon (n : Nat) : (s.ok n).hon = s.hon := rfl

@[simp] theorem State.refused_pending : (s.refused).pending = s.pending := rfl
@[simp] theorem State.refused_hz9620 : (s.refused).hz9620 = s.hz9620 := rfl
@[simp] theorem State.refused_regs : (s.refused).regs = s.regs := rfl
@[simp] theorem State.refused_tabs : (s.refused).tabs = s.tabs := rfl
@[simp] theorem State.refused_mem : (s.refused).mem = s.mem := rfl
@[simp] theorem State.refused_out : (s.refused).out = s.out := rfl
@[simp] theorem State.refused_fresh : (s.refused).fresh = s.fresh := rfl
@[simp] theorem State.refused_posts : (s.refused).posts = s.posts := rfl
@[simp] theorem State.refused_shell : (s.refused).shell = s.shell := rfl
@[simp] theorem State.refused_tb : (s.refused).tb = s.tb := rfl
@[simp] theorem State.refused_plate : (s.refused).plate = s.plate := rfl
@[simp] theorem State.refused_sw : (s.refused).sw = s.sw := rfl
@[simp] theorem State.refused_badEntries : (s.refused).badEntries = s.badEntries := rfl
@[simp] theorem State.refused_gwIn : (s.refused).gwIn = s.gwIn := rfl
@[simp] theorem State.refused_can : (s.refused).can = s.can := rfl
@[simp] theorem State.refused_lin : (s.refused).lin = s.lin := rfl
@[simp] theorem State.refused_gw : (s.refused).gw = s.gw := rfl
@[simp] theorem State.refused_chans : (s.refused).chans = s.chans := rfl
@[simp] theorem State.refused_dies : (s.refused).dies = s.dies := rfl
@[simp] theorem State.refused_selLands : (s.refused).selLands = s.selLands := rfl
@[simp] theorem State.refused_claim : (s.refused).claim = s.claim := rfl
@[simp] theorem State.refused_dins : (s.refused).dins = s.dins := rfl
@[simp] theorem State.refused_ains : (s.refused).ains = s.ains := rfl
@[simp] theorem State.refused_scan : (s.refused).scan = s.scan := rfl
@[simp] theorem State.refused_disarmed : (s.refused).disarmed = s.disarmed := rfl
@[simp] theorem State.refused_bridges : (s.refused).bridges = s.bridges := rfl
@[simp] theorem State.refused_phoask : (s.refused).phoask = s.phoask := rfl
@[simp] theorem State.refused_twin : (s.refused).twin = s.twin := rfl
@[simp] theorem State.refused_mig : (s.refused).mig = s.mig := rfl
@[simp] theorem State.refused_cal : (s.refused).cal = s.cal := rfl
@[simp] theorem State.refused_cfaultA : (s.refused).cfaultA = s.cfaultA := rfl
@[simp] theorem State.refused_cfaultP : (s.refused).cfaultP = s.cfaultP := rfl
@[simp] theorem State.refused_cores : (s.refused).cores = s.cores := rfl
@[simp] theorem State.refused_swLines : (s.refused).swLines = s.swLines := rfl
@[simp] theorem State.refused_poisonLines : (s.refused).poisonLines = s.poisonLines := rfl
@[simp] theorem State.refused_xlat : (s.refused).xlat = s.xlat := rfl
@[simp] theorem State.refused_dplFilter : (s.refused).dplFilter = s.dplFilter := rfl
@[simp] theorem State.refused_norOps : (s.refused).norOps = s.norOps := rfl
@[simp] theorem State.refused_norWear : (s.refused).norWear = s.norWear := rfl
@[simp] theorem State.refused_fuses : (s.refused).fuses = s.fuses := rfl
@[simp] theorem State.refused_fuseOp : (s.refused).fuseOp = s.fuseOp := rfl
@[simp] theorem State.refused_refiBase : (s.refused).refiBase = s.refiBase := rfl
@[simp] theorem State.refused_scrSram : (s.refused).scrSram = s.scrSram := rfl
@[simp] theorem State.refused_scrCkpt : (s.refused).scrCkpt = s.scrCkpt := rfl
@[simp] theorem State.refused_slotBad : (s.refused).slotBad = s.slotBad := rfl
@[simp] theorem State.refused_sec : (s.refused).sec = s.sec := rfl
@[simp] theorem State.refused_upd : (s.refused).upd = s.upd := rfl
@[simp] theorem State.refused_up : (s.refused).up = s.up := rfl
@[simp] theorem State.refused_clk : (s.refused).clk = s.clk := rfl
@[simp] theorem State.refused_slp : (s.refused).slp = s.slp := rfl
@[simp] theorem State.refused_health : (s.refused).health = s.health := rfl
@[simp] theorem State.refused_hon : (s.refused).hon = s.hon := rfl

@[simp] theorem State.advance_pending (n : Nat) : (s.advance n).pending = s.pending := rfl
@[simp] theorem State.advance_hz9620 (n : Nat) : (s.advance n).hz9620 = s.hz9620 := rfl
@[simp] theorem State.advance_regs (n : Nat) : (s.advance n).regs = s.regs := rfl
@[simp] theorem State.advance_tabs (n : Nat) : (s.advance n).tabs = s.tabs := rfl
@[simp] theorem State.advance_mem (n : Nat) : (s.advance n).mem = s.mem := rfl
@[simp] theorem State.advance_resp (n : Nat) : (s.advance n).resp = s.resp := rfl
@[simp] theorem State.advance_out (n : Nat) : (s.advance n).out = s.out := rfl
@[simp] theorem State.advance_fresh (n : Nat) : (s.advance n).fresh = s.fresh := rfl
@[simp] theorem State.advance_posts (n : Nat) : (s.advance n).posts = s.posts := rfl
@[simp] theorem State.advance_shell (n : Nat) : (s.advance n).shell = s.shell := rfl
@[simp] theorem State.advance_plate (n : Nat) : (s.advance n).plate = s.plate := rfl
@[simp] theorem State.advance_sw (n : Nat) : (s.advance n).sw = s.sw := rfl
@[simp] theorem State.advance_badEntries (n : Nat) : (s.advance n).badEntries = s.badEntries := rfl
@[simp] theorem State.advance_gwIn (n : Nat) : (s.advance n).gwIn = s.gwIn := rfl
@[simp] theorem State.advance_can (n : Nat) : (s.advance n).can = s.can := rfl
@[simp] theorem State.advance_lin (n : Nat) : (s.advance n).lin = s.lin := rfl
@[simp] theorem State.advance_gw (n : Nat) : (s.advance n).gw = s.gw := rfl
@[simp] theorem State.advance_chans (n : Nat) : (s.advance n).chans = s.chans := rfl
@[simp] theorem State.advance_dies (n : Nat) : (s.advance n).dies = s.dies := rfl
@[simp] theorem State.advance_selLands (n : Nat) : (s.advance n).selLands = s.selLands := rfl
@[simp] theorem State.advance_claim (n : Nat) : (s.advance n).claim = s.claim := rfl
@[simp] theorem State.advance_dins (n : Nat) : (s.advance n).dins = s.dins := rfl
@[simp] theorem State.advance_ains (n : Nat) : (s.advance n).ains = s.ains := rfl
@[simp] theorem State.advance_scan (n : Nat) : (s.advance n).scan = s.scan := rfl
@[simp] theorem State.advance_disarmed (n : Nat) : (s.advance n).disarmed = s.disarmed := rfl
@[simp] theorem State.advance_bridges (n : Nat) : (s.advance n).bridges = s.bridges := rfl
@[simp] theorem State.advance_phoask (n : Nat) : (s.advance n).phoask = s.phoask := rfl
@[simp] theorem State.advance_twin (n : Nat) : (s.advance n).twin = s.twin := rfl
@[simp] theorem State.advance_mig (n : Nat) : (s.advance n).mig = s.mig := rfl
@[simp] theorem State.advance_cal (n : Nat) : (s.advance n).cal = s.cal := rfl
@[simp] theorem State.advance_cfaultA (n : Nat) : (s.advance n).cfaultA = s.cfaultA := rfl
@[simp] theorem State.advance_cfaultP (n : Nat) : (s.advance n).cfaultP = s.cfaultP := rfl
@[simp] theorem State.advance_cores (n : Nat) : (s.advance n).cores = s.cores := rfl
@[simp] theorem State.advance_swLines (n : Nat) : (s.advance n).swLines = s.swLines := rfl
@[simp] theorem State.advance_poisonLines (n : Nat) : (s.advance n).poisonLines = s.poisonLines := rfl
@[simp] theorem State.advance_xlat (n : Nat) : (s.advance n).xlat = s.xlat := rfl
@[simp] theorem State.advance_dplFilter (n : Nat) : (s.advance n).dplFilter = s.dplFilter := rfl
@[simp] theorem State.advance_norOps (n : Nat) : (s.advance n).norOps = s.norOps := rfl
@[simp] theorem State.advance_norWear (n : Nat) : (s.advance n).norWear = s.norWear := rfl
@[simp] theorem State.advance_fuses (n : Nat) : (s.advance n).fuses = s.fuses := rfl
@[simp] theorem State.advance_fuseOp (n : Nat) : (s.advance n).fuseOp = s.fuseOp := rfl
@[simp] theorem State.advance_refiBase (n : Nat) : (s.advance n).refiBase = s.refiBase := rfl
@[simp] theorem State.advance_scrSram (n : Nat) : (s.advance n).scrSram = s.scrSram := rfl
@[simp] theorem State.advance_scrCkpt (n : Nat) : (s.advance n).scrCkpt = s.scrCkpt := rfl
@[simp] theorem State.advance_slotBad (n : Nat) : (s.advance n).slotBad = s.slotBad := rfl
@[simp] theorem State.advance_sec (n : Nat) : (s.advance n).sec = s.sec := rfl
@[simp] theorem State.advance_upd (n : Nat) : (s.advance n).upd = s.upd := rfl
@[simp] theorem State.advance_up (n : Nat) : (s.advance n).up = s.up := rfl
@[simp] theorem State.advance_clk (n : Nat) : (s.advance n).clk = s.clk := rfl
@[simp] theorem State.advance_slp (n : Nat) : (s.advance n).slp = s.slp := rfl
@[simp] theorem State.advance_health (n : Nat) : (s.advance n).health = s.health := rfl
@[simp] theorem State.advance_hon (n : Nat) : (s.advance n).hon = s.hon := rfl

@[simp] theorem State.modChan_pending (d i : Nat) (f : ChanState → ChanState) : (s.modChan d i f).pending = s.pending := rfl
@[simp] theorem State.modChan_hz9620 (d i : Nat) (f : ChanState → ChanState) : (s.modChan d i f).hz9620 = s.hz9620 := rfl
@[simp] theorem State.modChan_regs (d i : Nat) (f : ChanState → ChanState) : (s.modChan d i f).regs = s.regs := rfl
@[simp] theorem State.modChan_tabs (d i : Nat) (f : ChanState → ChanState) : (s.modChan d i f).tabs = s.tabs := rfl
@[simp] theorem State.modChan_mem (d i : Nat) (f : ChanState → ChanState) : (s.modChan d i f).mem = s.mem := rfl
@[simp] theorem State.modChan_resp (d i : Nat) (f : ChanState → ChanState) : (s.modChan d i f).resp = s.resp := rfl
@[simp] theorem State.modChan_out (d i : Nat) (f : ChanState → ChanState) : (s.modChan d i f).out = s.out := rfl
@[simp] theorem State.modChan_fresh (d i : Nat) (f : ChanState → ChanState) : (s.modChan d i f).fresh = s.fresh := rfl
@[simp] theorem State.modChan_posts (d i : Nat) (f : ChanState → ChanState) : (s.modChan d i f).posts = s.posts := rfl
@[simp] theorem State.modChan_shell (d i : Nat) (f : ChanState → ChanState) : (s.modChan d i f).shell = s.shell := rfl
@[simp] theorem State.modChan_tb (d i : Nat) (f : ChanState → ChanState) : (s.modChan d i f).tb = s.tb := rfl
@[simp] theorem State.modChan_plate (d i : Nat) (f : ChanState → ChanState) : (s.modChan d i f).plate = s.plate := rfl
@[simp] theorem State.modChan_sw (d i : Nat) (f : ChanState → ChanState) : (s.modChan d i f).sw = s.sw := rfl
@[simp] theorem State.modChan_badEntries (d i : Nat) (f : ChanState → ChanState) : (s.modChan d i f).badEntries = s.badEntries := rfl
@[simp] theorem State.modChan_gwIn (d i : Nat) (f : ChanState → ChanState) : (s.modChan d i f).gwIn = s.gwIn := rfl
@[simp] theorem State.modChan_can (d i : Nat) (f : ChanState → ChanState) : (s.modChan d i f).can = s.can := rfl
@[simp] theorem State.modChan_lin (d i : Nat) (f : ChanState → ChanState) : (s.modChan d i f).lin = s.lin := rfl
@[simp] theorem State.modChan_gw (d i : Nat) (f : ChanState → ChanState) : (s.modChan d i f).gw = s.gw := rfl
@[simp] theorem State.modChan_dies (d i : Nat) (f : ChanState → ChanState) : (s.modChan d i f).dies = s.dies := rfl
@[simp] theorem State.modChan_selLands (d i : Nat) (f : ChanState → ChanState) : (s.modChan d i f).selLands = s.selLands := rfl
@[simp] theorem State.modChan_claim (d i : Nat) (f : ChanState → ChanState) : (s.modChan d i f).claim = s.claim := rfl
@[simp] theorem State.modChan_dins (d i : Nat) (f : ChanState → ChanState) : (s.modChan d i f).dins = s.dins := rfl
@[simp] theorem State.modChan_ains (d i : Nat) (f : ChanState → ChanState) : (s.modChan d i f).ains = s.ains := rfl
@[simp] theorem State.modChan_scan (d i : Nat) (f : ChanState → ChanState) : (s.modChan d i f).scan = s.scan := rfl
@[simp] theorem State.modChan_disarmed (d i : Nat) (f : ChanState → ChanState) : (s.modChan d i f).disarmed = s.disarmed := rfl
@[simp] theorem State.modChan_bridges (d i : Nat) (f : ChanState → ChanState) : (s.modChan d i f).bridges = s.bridges := rfl
@[simp] theorem State.modChan_phoask (d i : Nat) (f : ChanState → ChanState) : (s.modChan d i f).phoask = s.phoask := rfl
@[simp] theorem State.modChan_twin (d i : Nat) (f : ChanState → ChanState) : (s.modChan d i f).twin = s.twin := rfl
@[simp] theorem State.modChan_mig (d i : Nat) (f : ChanState → ChanState) : (s.modChan d i f).mig = s.mig := rfl
@[simp] theorem State.modChan_cal (d i : Nat) (f : ChanState → ChanState) : (s.modChan d i f).cal = s.cal := rfl
@[simp] theorem State.modChan_cfaultA (d i : Nat) (f : ChanState → ChanState) : (s.modChan d i f).cfaultA = s.cfaultA := rfl
@[simp] theorem State.modChan_cfaultP (d i : Nat) (f : ChanState → ChanState) : (s.modChan d i f).cfaultP = s.cfaultP := rfl
@[simp] theorem State.modChan_cores (d i : Nat) (f : ChanState → ChanState) : (s.modChan d i f).cores = s.cores := rfl
@[simp] theorem State.modChan_swLines (d i : Nat) (f : ChanState → ChanState) : (s.modChan d i f).swLines = s.swLines := rfl
@[simp] theorem State.modChan_poisonLines (d i : Nat) (f : ChanState → ChanState) : (s.modChan d i f).poisonLines = s.poisonLines := rfl
@[simp] theorem State.modChan_xlat (d i : Nat) (f : ChanState → ChanState) : (s.modChan d i f).xlat = s.xlat := rfl
@[simp] theorem State.modChan_dplFilter (d i : Nat) (f : ChanState → ChanState) : (s.modChan d i f).dplFilter = s.dplFilter := rfl
@[simp] theorem State.modChan_norOps (d i : Nat) (f : ChanState → ChanState) : (s.modChan d i f).norOps = s.norOps := rfl
@[simp] theorem State.modChan_norWear (d i : Nat) (f : ChanState → ChanState) : (s.modChan d i f).norWear = s.norWear := rfl
@[simp] theorem State.modChan_fuses (d i : Nat) (f : ChanState → ChanState) : (s.modChan d i f).fuses = s.fuses := rfl
@[simp] theorem State.modChan_fuseOp (d i : Nat) (f : ChanState → ChanState) : (s.modChan d i f).fuseOp = s.fuseOp := rfl
@[simp] theorem State.modChan_refiBase (d i : Nat) (f : ChanState → ChanState) : (s.modChan d i f).refiBase = s.refiBase := rfl
@[simp] theorem State.modChan_scrSram (d i : Nat) (f : ChanState → ChanState) : (s.modChan d i f).scrSram = s.scrSram := rfl
@[simp] theorem State.modChan_scrCkpt (d i : Nat) (f : ChanState → ChanState) : (s.modChan d i f).scrCkpt = s.scrCkpt := rfl
@[simp] theorem State.modChan_slotBad (d i : Nat) (f : ChanState → ChanState) : (s.modChan d i f).slotBad = s.slotBad := rfl
@[simp] theorem State.modChan_sec (d i : Nat) (f : ChanState → ChanState) : (s.modChan d i f).sec = s.sec := rfl
@[simp] theorem State.modChan_upd (d i : Nat) (f : ChanState → ChanState) : (s.modChan d i f).upd = s.upd := rfl
@[simp] theorem State.modChan_up (d i : Nat) (f : ChanState → ChanState) : (s.modChan d i f).up = s.up := rfl
@[simp] theorem State.modChan_clk (d i : Nat) (f : ChanState → ChanState) : (s.modChan d i f).clk = s.clk := rfl
@[simp] theorem State.modChan_slp (d i : Nat) (f : ChanState → ChanState) : (s.modChan d i f).slp = s.slp := rfl
@[simp] theorem State.modChan_health (d i : Nat) (f : ChanState → ChanState) : (s.modChan d i f).health = s.health := rfl
@[simp] theorem State.modChan_hon (d i : Nat) (f : ChanState → ChanState) : (s.modChan d i f).hon = s.hon := rfl

@[simp] theorem State.modDie_pending (d : Nat) (f : DieState → DieState) : (s.modDie d f).pending = s.pending := rfl
@[simp] theorem State.modDie_hz9620 (d : Nat) (f : DieState → DieState) : (s.modDie d f).hz9620 = s.hz9620 := rfl
@[simp] theorem State.modDie_regs (d : Nat) (f : DieState → DieState) : (s.modDie d f).regs = s.regs := rfl
@[simp] theorem State.modDie_tabs (d : Nat) (f : DieState → DieState) : (s.modDie d f).tabs = s.tabs := rfl
@[simp] theorem State.modDie_mem (d : Nat) (f : DieState → DieState) : (s.modDie d f).mem = s.mem := rfl
@[simp] theorem State.modDie_resp (d : Nat) (f : DieState → DieState) : (s.modDie d f).resp = s.resp := rfl
@[simp] theorem State.modDie_out (d : Nat) (f : DieState → DieState) : (s.modDie d f).out = s.out := rfl
@[simp] theorem State.modDie_fresh (d : Nat) (f : DieState → DieState) : (s.modDie d f).fresh = s.fresh := rfl
@[simp] theorem State.modDie_posts (d : Nat) (f : DieState → DieState) : (s.modDie d f).posts = s.posts := rfl
@[simp] theorem State.modDie_shell (d : Nat) (f : DieState → DieState) : (s.modDie d f).shell = s.shell := rfl
@[simp] theorem State.modDie_tb (d : Nat) (f : DieState → DieState) : (s.modDie d f).tb = s.tb := rfl
@[simp] theorem State.modDie_plate (d : Nat) (f : DieState → DieState) : (s.modDie d f).plate = s.plate := rfl
@[simp] theorem State.modDie_sw (d : Nat) (f : DieState → DieState) : (s.modDie d f).sw = s.sw := rfl
@[simp] theorem State.modDie_badEntries (d : Nat) (f : DieState → DieState) : (s.modDie d f).badEntries = s.badEntries := rfl
@[simp] theorem State.modDie_gwIn (d : Nat) (f : DieState → DieState) : (s.modDie d f).gwIn = s.gwIn := rfl
@[simp] theorem State.modDie_can (d : Nat) (f : DieState → DieState) : (s.modDie d f).can = s.can := rfl
@[simp] theorem State.modDie_lin (d : Nat) (f : DieState → DieState) : (s.modDie d f).lin = s.lin := rfl
@[simp] theorem State.modDie_gw (d : Nat) (f : DieState → DieState) : (s.modDie d f).gw = s.gw := rfl
@[simp] theorem State.modDie_chans (d : Nat) (f : DieState → DieState) : (s.modDie d f).chans = s.chans := rfl
@[simp] theorem State.modDie_selLands (d : Nat) (f : DieState → DieState) : (s.modDie d f).selLands = s.selLands := rfl
@[simp] theorem State.modDie_claim (d : Nat) (f : DieState → DieState) : (s.modDie d f).claim = s.claim := rfl
@[simp] theorem State.modDie_dins (d : Nat) (f : DieState → DieState) : (s.modDie d f).dins = s.dins := rfl
@[simp] theorem State.modDie_ains (d : Nat) (f : DieState → DieState) : (s.modDie d f).ains = s.ains := rfl
@[simp] theorem State.modDie_scan (d : Nat) (f : DieState → DieState) : (s.modDie d f).scan = s.scan := rfl
@[simp] theorem State.modDie_disarmed (d : Nat) (f : DieState → DieState) : (s.modDie d f).disarmed = s.disarmed := rfl
@[simp] theorem State.modDie_bridges (d : Nat) (f : DieState → DieState) : (s.modDie d f).bridges = s.bridges := rfl
@[simp] theorem State.modDie_phoask (d : Nat) (f : DieState → DieState) : (s.modDie d f).phoask = s.phoask := rfl
@[simp] theorem State.modDie_twin (d : Nat) (f : DieState → DieState) : (s.modDie d f).twin = s.twin := rfl
@[simp] theorem State.modDie_mig (d : Nat) (f : DieState → DieState) : (s.modDie d f).mig = s.mig := rfl
@[simp] theorem State.modDie_cal (d : Nat) (f : DieState → DieState) : (s.modDie d f).cal = s.cal := rfl
@[simp] theorem State.modDie_cfaultA (d : Nat) (f : DieState → DieState) : (s.modDie d f).cfaultA = s.cfaultA := rfl
@[simp] theorem State.modDie_cfaultP (d : Nat) (f : DieState → DieState) : (s.modDie d f).cfaultP = s.cfaultP := rfl
@[simp] theorem State.modDie_cores (d : Nat) (f : DieState → DieState) : (s.modDie d f).cores = s.cores := rfl
@[simp] theorem State.modDie_swLines (d : Nat) (f : DieState → DieState) : (s.modDie d f).swLines = s.swLines := rfl
@[simp] theorem State.modDie_poisonLines (d : Nat) (f : DieState → DieState) : (s.modDie d f).poisonLines = s.poisonLines := rfl
@[simp] theorem State.modDie_xlat (d : Nat) (f : DieState → DieState) : (s.modDie d f).xlat = s.xlat := rfl
@[simp] theorem State.modDie_dplFilter (d : Nat) (f : DieState → DieState) : (s.modDie d f).dplFilter = s.dplFilter := rfl
@[simp] theorem State.modDie_norOps (d : Nat) (f : DieState → DieState) : (s.modDie d f).norOps = s.norOps := rfl
@[simp] theorem State.modDie_norWear (d : Nat) (f : DieState → DieState) : (s.modDie d f).norWear = s.norWear := rfl
@[simp] theorem State.modDie_fuses (d : Nat) (f : DieState → DieState) : (s.modDie d f).fuses = s.fuses := rfl
@[simp] theorem State.modDie_fuseOp (d : Nat) (f : DieState → DieState) : (s.modDie d f).fuseOp = s.fuseOp := rfl
@[simp] theorem State.modDie_refiBase (d : Nat) (f : DieState → DieState) : (s.modDie d f).refiBase = s.refiBase := rfl
@[simp] theorem State.modDie_scrSram (d : Nat) (f : DieState → DieState) : (s.modDie d f).scrSram = s.scrSram := rfl
@[simp] theorem State.modDie_scrCkpt (d : Nat) (f : DieState → DieState) : (s.modDie d f).scrCkpt = s.scrCkpt := rfl
@[simp] theorem State.modDie_slotBad (d : Nat) (f : DieState → DieState) : (s.modDie d f).slotBad = s.slotBad := rfl
@[simp] theorem State.modDie_sec (d : Nat) (f : DieState → DieState) : (s.modDie d f).sec = s.sec := rfl
@[simp] theorem State.modDie_upd (d : Nat) (f : DieState → DieState) : (s.modDie d f).upd = s.upd := rfl
@[simp] theorem State.modDie_up (d : Nat) (f : DieState → DieState) : (s.modDie d f).up = s.up := rfl
@[simp] theorem State.modDie_clk (d : Nat) (f : DieState → DieState) : (s.modDie d f).clk = s.clk := rfl
@[simp] theorem State.modDie_slp (d : Nat) (f : DieState → DieState) : (s.modDie d f).slp = s.slp := rfl
@[simp] theorem State.modDie_health (d : Nat) (f : DieState → DieState) : (s.modDie d f).health = s.health := rfl
@[simp] theorem State.modDie_hon (d : Nat) (f : DieState → DieState) : (s.modDie d f).hon = s.hon := rfl

@[simp] theorem State.canMod_pending (n : Nat) (f : CanState → CanState) : (s.canMod n f).pending = s.pending := rfl
@[simp] theorem State.canMod_hz9620 (n : Nat) (f : CanState → CanState) : (s.canMod n f).hz9620 = s.hz9620 := rfl
@[simp] theorem State.canMod_regs (n : Nat) (f : CanState → CanState) : (s.canMod n f).regs = s.regs := rfl
@[simp] theorem State.canMod_tabs (n : Nat) (f : CanState → CanState) : (s.canMod n f).tabs = s.tabs := rfl
@[simp] theorem State.canMod_mem (n : Nat) (f : CanState → CanState) : (s.canMod n f).mem = s.mem := rfl
@[simp] theorem State.canMod_resp (n : Nat) (f : CanState → CanState) : (s.canMod n f).resp = s.resp := rfl
@[simp] theorem State.canMod_out (n : Nat) (f : CanState → CanState) : (s.canMod n f).out = s.out := rfl
@[simp] theorem State.canMod_fresh (n : Nat) (f : CanState → CanState) : (s.canMod n f).fresh = s.fresh := rfl
@[simp] theorem State.canMod_posts (n : Nat) (f : CanState → CanState) : (s.canMod n f).posts = s.posts := rfl
@[simp] theorem State.canMod_shell (n : Nat) (f : CanState → CanState) : (s.canMod n f).shell = s.shell := rfl
@[simp] theorem State.canMod_tb (n : Nat) (f : CanState → CanState) : (s.canMod n f).tb = s.tb := rfl
@[simp] theorem State.canMod_plate (n : Nat) (f : CanState → CanState) : (s.canMod n f).plate = s.plate := rfl
@[simp] theorem State.canMod_sw (n : Nat) (f : CanState → CanState) : (s.canMod n f).sw = s.sw := rfl
@[simp] theorem State.canMod_badEntries (n : Nat) (f : CanState → CanState) : (s.canMod n f).badEntries = s.badEntries := rfl
@[simp] theorem State.canMod_gwIn (n : Nat) (f : CanState → CanState) : (s.canMod n f).gwIn = s.gwIn := rfl
@[simp] theorem State.canMod_lin (n : Nat) (f : CanState → CanState) : (s.canMod n f).lin = s.lin := rfl
@[simp] theorem State.canMod_gw (n : Nat) (f : CanState → CanState) : (s.canMod n f).gw = s.gw := rfl
@[simp] theorem State.canMod_chans (n : Nat) (f : CanState → CanState) : (s.canMod n f).chans = s.chans := rfl
@[simp] theorem State.canMod_dies (n : Nat) (f : CanState → CanState) : (s.canMod n f).dies = s.dies := rfl
@[simp] theorem State.canMod_selLands (n : Nat) (f : CanState → CanState) : (s.canMod n f).selLands = s.selLands := rfl
@[simp] theorem State.canMod_claim (n : Nat) (f : CanState → CanState) : (s.canMod n f).claim = s.claim := rfl
@[simp] theorem State.canMod_dins (n : Nat) (f : CanState → CanState) : (s.canMod n f).dins = s.dins := rfl
@[simp] theorem State.canMod_ains (n : Nat) (f : CanState → CanState) : (s.canMod n f).ains = s.ains := rfl
@[simp] theorem State.canMod_scan (n : Nat) (f : CanState → CanState) : (s.canMod n f).scan = s.scan := rfl
@[simp] theorem State.canMod_disarmed (n : Nat) (f : CanState → CanState) : (s.canMod n f).disarmed = s.disarmed := rfl
@[simp] theorem State.canMod_bridges (n : Nat) (f : CanState → CanState) : (s.canMod n f).bridges = s.bridges := rfl
@[simp] theorem State.canMod_phoask (n : Nat) (f : CanState → CanState) : (s.canMod n f).phoask = s.phoask := rfl
@[simp] theorem State.canMod_twin (n : Nat) (f : CanState → CanState) : (s.canMod n f).twin = s.twin := rfl
@[simp] theorem State.canMod_mig (n : Nat) (f : CanState → CanState) : (s.canMod n f).mig = s.mig := rfl
@[simp] theorem State.canMod_cal (n : Nat) (f : CanState → CanState) : (s.canMod n f).cal = s.cal := rfl
@[simp] theorem State.canMod_cfaultA (n : Nat) (f : CanState → CanState) : (s.canMod n f).cfaultA = s.cfaultA := rfl
@[simp] theorem State.canMod_cfaultP (n : Nat) (f : CanState → CanState) : (s.canMod n f).cfaultP = s.cfaultP := rfl
@[simp] theorem State.canMod_cores (n : Nat) (f : CanState → CanState) : (s.canMod n f).cores = s.cores := rfl
@[simp] theorem State.canMod_swLines (n : Nat) (f : CanState → CanState) : (s.canMod n f).swLines = s.swLines := rfl
@[simp] theorem State.canMod_poisonLines (n : Nat) (f : CanState → CanState) : (s.canMod n f).poisonLines = s.poisonLines := rfl
@[simp] theorem State.canMod_xlat (n : Nat) (f : CanState → CanState) : (s.canMod n f).xlat = s.xlat := rfl
@[simp] theorem State.canMod_dplFilter (n : Nat) (f : CanState → CanState) : (s.canMod n f).dplFilter = s.dplFilter := rfl
@[simp] theorem State.canMod_norOps (n : Nat) (f : CanState → CanState) : (s.canMod n f).norOps = s.norOps := rfl
@[simp] theorem State.canMod_norWear (n : Nat) (f : CanState → CanState) : (s.canMod n f).norWear = s.norWear := rfl
@[simp] theorem State.canMod_fuses (n : Nat) (f : CanState → CanState) : (s.canMod n f).fuses = s.fuses := rfl
@[simp] theorem State.canMod_fuseOp (n : Nat) (f : CanState → CanState) : (s.canMod n f).fuseOp = s.fuseOp := rfl
@[simp] theorem State.canMod_refiBase (n : Nat) (f : CanState → CanState) : (s.canMod n f).refiBase = s.refiBase := rfl
@[simp] theorem State.canMod_scrSram (n : Nat) (f : CanState → CanState) : (s.canMod n f).scrSram = s.scrSram := rfl
@[simp] theorem State.canMod_scrCkpt (n : Nat) (f : CanState → CanState) : (s.canMod n f).scrCkpt = s.scrCkpt := rfl
@[simp] theorem State.canMod_slotBad (n : Nat) (f : CanState → CanState) : (s.canMod n f).slotBad = s.slotBad := rfl
@[simp] theorem State.canMod_sec (n : Nat) (f : CanState → CanState) : (s.canMod n f).sec = s.sec := rfl
@[simp] theorem State.canMod_upd (n : Nat) (f : CanState → CanState) : (s.canMod n f).upd = s.upd := rfl
@[simp] theorem State.canMod_up (n : Nat) (f : CanState → CanState) : (s.canMod n f).up = s.up := rfl
@[simp] theorem State.canMod_clk (n : Nat) (f : CanState → CanState) : (s.canMod n f).clk = s.clk := rfl
@[simp] theorem State.canMod_slp (n : Nat) (f : CanState → CanState) : (s.canMod n f).slp = s.slp := rfl
@[simp] theorem State.canMod_health (n : Nat) (f : CanState → CanState) : (s.canMod n f).health = s.health := rfl
@[simp] theorem State.canMod_hon (n : Nat) (f : CanState → CanState) : (s.canMod n f).hon = s.hon := rfl

@[simp] theorem State.linMod_pending (n : Nat) (f : LinState → LinState) : (s.linMod n f).pending = s.pending := rfl
@[simp] theorem State.linMod_hz9620 (n : Nat) (f : LinState → LinState) : (s.linMod n f).hz9620 = s.hz9620 := rfl
@[simp] theorem State.linMod_regs (n : Nat) (f : LinState → LinState) : (s.linMod n f).regs = s.regs := rfl
@[simp] theorem State.linMod_tabs (n : Nat) (f : LinState → LinState) : (s.linMod n f).tabs = s.tabs := rfl
@[simp] theorem State.linMod_mem (n : Nat) (f : LinState → LinState) : (s.linMod n f).mem = s.mem := rfl
@[simp] theorem State.linMod_resp (n : Nat) (f : LinState → LinState) : (s.linMod n f).resp = s.resp := rfl
@[simp] theorem State.linMod_out (n : Nat) (f : LinState → LinState) : (s.linMod n f).out = s.out := rfl
@[simp] theorem State.linMod_fresh (n : Nat) (f : LinState → LinState) : (s.linMod n f).fresh = s.fresh := rfl
@[simp] theorem State.linMod_posts (n : Nat) (f : LinState → LinState) : (s.linMod n f).posts = s.posts := rfl
@[simp] theorem State.linMod_shell (n : Nat) (f : LinState → LinState) : (s.linMod n f).shell = s.shell := rfl
@[simp] theorem State.linMod_tb (n : Nat) (f : LinState → LinState) : (s.linMod n f).tb = s.tb := rfl
@[simp] theorem State.linMod_plate (n : Nat) (f : LinState → LinState) : (s.linMod n f).plate = s.plate := rfl
@[simp] theorem State.linMod_sw (n : Nat) (f : LinState → LinState) : (s.linMod n f).sw = s.sw := rfl
@[simp] theorem State.linMod_badEntries (n : Nat) (f : LinState → LinState) : (s.linMod n f).badEntries = s.badEntries := rfl
@[simp] theorem State.linMod_gwIn (n : Nat) (f : LinState → LinState) : (s.linMod n f).gwIn = s.gwIn := rfl
@[simp] theorem State.linMod_can (n : Nat) (f : LinState → LinState) : (s.linMod n f).can = s.can := rfl
@[simp] theorem State.linMod_gw (n : Nat) (f : LinState → LinState) : (s.linMod n f).gw = s.gw := rfl
@[simp] theorem State.linMod_chans (n : Nat) (f : LinState → LinState) : (s.linMod n f).chans = s.chans := rfl
@[simp] theorem State.linMod_dies (n : Nat) (f : LinState → LinState) : (s.linMod n f).dies = s.dies := rfl
@[simp] theorem State.linMod_selLands (n : Nat) (f : LinState → LinState) : (s.linMod n f).selLands = s.selLands := rfl
@[simp] theorem State.linMod_claim (n : Nat) (f : LinState → LinState) : (s.linMod n f).claim = s.claim := rfl
@[simp] theorem State.linMod_dins (n : Nat) (f : LinState → LinState) : (s.linMod n f).dins = s.dins := rfl
@[simp] theorem State.linMod_ains (n : Nat) (f : LinState → LinState) : (s.linMod n f).ains = s.ains := rfl
@[simp] theorem State.linMod_scan (n : Nat) (f : LinState → LinState) : (s.linMod n f).scan = s.scan := rfl
@[simp] theorem State.linMod_disarmed (n : Nat) (f : LinState → LinState) : (s.linMod n f).disarmed = s.disarmed := rfl
@[simp] theorem State.linMod_bridges (n : Nat) (f : LinState → LinState) : (s.linMod n f).bridges = s.bridges := rfl
@[simp] theorem State.linMod_phoask (n : Nat) (f : LinState → LinState) : (s.linMod n f).phoask = s.phoask := rfl
@[simp] theorem State.linMod_twin (n : Nat) (f : LinState → LinState) : (s.linMod n f).twin = s.twin := rfl
@[simp] theorem State.linMod_mig (n : Nat) (f : LinState → LinState) : (s.linMod n f).mig = s.mig := rfl
@[simp] theorem State.linMod_cal (n : Nat) (f : LinState → LinState) : (s.linMod n f).cal = s.cal := rfl
@[simp] theorem State.linMod_cfaultA (n : Nat) (f : LinState → LinState) : (s.linMod n f).cfaultA = s.cfaultA := rfl
@[simp] theorem State.linMod_cfaultP (n : Nat) (f : LinState → LinState) : (s.linMod n f).cfaultP = s.cfaultP := rfl
@[simp] theorem State.linMod_cores (n : Nat) (f : LinState → LinState) : (s.linMod n f).cores = s.cores := rfl
@[simp] theorem State.linMod_swLines (n : Nat) (f : LinState → LinState) : (s.linMod n f).swLines = s.swLines := rfl
@[simp] theorem State.linMod_poisonLines (n : Nat) (f : LinState → LinState) : (s.linMod n f).poisonLines = s.poisonLines := rfl
@[simp] theorem State.linMod_xlat (n : Nat) (f : LinState → LinState) : (s.linMod n f).xlat = s.xlat := rfl
@[simp] theorem State.linMod_dplFilter (n : Nat) (f : LinState → LinState) : (s.linMod n f).dplFilter = s.dplFilter := rfl
@[simp] theorem State.linMod_norOps (n : Nat) (f : LinState → LinState) : (s.linMod n f).norOps = s.norOps := rfl
@[simp] theorem State.linMod_norWear (n : Nat) (f : LinState → LinState) : (s.linMod n f).norWear = s.norWear := rfl
@[simp] theorem State.linMod_fuses (n : Nat) (f : LinState → LinState) : (s.linMod n f).fuses = s.fuses := rfl
@[simp] theorem State.linMod_fuseOp (n : Nat) (f : LinState → LinState) : (s.linMod n f).fuseOp = s.fuseOp := rfl
@[simp] theorem State.linMod_refiBase (n : Nat) (f : LinState → LinState) : (s.linMod n f).refiBase = s.refiBase := rfl
@[simp] theorem State.linMod_scrSram (n : Nat) (f : LinState → LinState) : (s.linMod n f).scrSram = s.scrSram := rfl
@[simp] theorem State.linMod_scrCkpt (n : Nat) (f : LinState → LinState) : (s.linMod n f).scrCkpt = s.scrCkpt := rfl
@[simp] theorem State.linMod_slotBad (n : Nat) (f : LinState → LinState) : (s.linMod n f).slotBad = s.slotBad := rfl
@[simp] theorem State.linMod_sec (n : Nat) (f : LinState → LinState) : (s.linMod n f).sec = s.sec := rfl
@[simp] theorem State.linMod_upd (n : Nat) (f : LinState → LinState) : (s.linMod n f).upd = s.upd := rfl
@[simp] theorem State.linMod_up (n : Nat) (f : LinState → LinState) : (s.linMod n f).up = s.up := rfl
@[simp] theorem State.linMod_clk (n : Nat) (f : LinState → LinState) : (s.linMod n f).clk = s.clk := rfl
@[simp] theorem State.linMod_slp (n : Nat) (f : LinState → LinState) : (s.linMod n f).slp = s.slp := rfl
@[simp] theorem State.linMod_health (n : Nat) (f : LinState → LinState) : (s.linMod n f).health = s.health := rfl
@[simp] theorem State.linMod_hon (n : Nat) (f : LinState → LinState) : (s.linMod n f).hon = s.hon := rfl

@[simp] theorem State.modDin_pending (m : Nat) (f : DinState → DinState) : (s.modDin m f).pending = s.pending := rfl
@[simp] theorem State.modDin_hz9620 (m : Nat) (f : DinState → DinState) : (s.modDin m f).hz9620 = s.hz9620 := rfl
@[simp] theorem State.modDin_regs (m : Nat) (f : DinState → DinState) : (s.modDin m f).regs = s.regs := rfl
@[simp] theorem State.modDin_tabs (m : Nat) (f : DinState → DinState) : (s.modDin m f).tabs = s.tabs := rfl
@[simp] theorem State.modDin_mem (m : Nat) (f : DinState → DinState) : (s.modDin m f).mem = s.mem := rfl
@[simp] theorem State.modDin_resp (m : Nat) (f : DinState → DinState) : (s.modDin m f).resp = s.resp := rfl
@[simp] theorem State.modDin_out (m : Nat) (f : DinState → DinState) : (s.modDin m f).out = s.out := rfl
@[simp] theorem State.modDin_fresh (m : Nat) (f : DinState → DinState) : (s.modDin m f).fresh = s.fresh := rfl
@[simp] theorem State.modDin_posts (m : Nat) (f : DinState → DinState) : (s.modDin m f).posts = s.posts := rfl
@[simp] theorem State.modDin_shell (m : Nat) (f : DinState → DinState) : (s.modDin m f).shell = s.shell := rfl
@[simp] theorem State.modDin_tb (m : Nat) (f : DinState → DinState) : (s.modDin m f).tb = s.tb := rfl
@[simp] theorem State.modDin_plate (m : Nat) (f : DinState → DinState) : (s.modDin m f).plate = s.plate := rfl
@[simp] theorem State.modDin_sw (m : Nat) (f : DinState → DinState) : (s.modDin m f).sw = s.sw := rfl
@[simp] theorem State.modDin_badEntries (m : Nat) (f : DinState → DinState) : (s.modDin m f).badEntries = s.badEntries := rfl
@[simp] theorem State.modDin_gwIn (m : Nat) (f : DinState → DinState) : (s.modDin m f).gwIn = s.gwIn := rfl
@[simp] theorem State.modDin_can (m : Nat) (f : DinState → DinState) : (s.modDin m f).can = s.can := rfl
@[simp] theorem State.modDin_lin (m : Nat) (f : DinState → DinState) : (s.modDin m f).lin = s.lin := rfl
@[simp] theorem State.modDin_gw (m : Nat) (f : DinState → DinState) : (s.modDin m f).gw = s.gw := rfl
@[simp] theorem State.modDin_chans (m : Nat) (f : DinState → DinState) : (s.modDin m f).chans = s.chans := rfl
@[simp] theorem State.modDin_dies (m : Nat) (f : DinState → DinState) : (s.modDin m f).dies = s.dies := rfl
@[simp] theorem State.modDin_selLands (m : Nat) (f : DinState → DinState) : (s.modDin m f).selLands = s.selLands := rfl
@[simp] theorem State.modDin_claim (m : Nat) (f : DinState → DinState) : (s.modDin m f).claim = s.claim := rfl
@[simp] theorem State.modDin_ains (m : Nat) (f : DinState → DinState) : (s.modDin m f).ains = s.ains := rfl
@[simp] theorem State.modDin_scan (m : Nat) (f : DinState → DinState) : (s.modDin m f).scan = s.scan := rfl
@[simp] theorem State.modDin_disarmed (m : Nat) (f : DinState → DinState) : (s.modDin m f).disarmed = s.disarmed := rfl
@[simp] theorem State.modDin_bridges (m : Nat) (f : DinState → DinState) : (s.modDin m f).bridges = s.bridges := rfl
@[simp] theorem State.modDin_phoask (m : Nat) (f : DinState → DinState) : (s.modDin m f).phoask = s.phoask := rfl
@[simp] theorem State.modDin_twin (m : Nat) (f : DinState → DinState) : (s.modDin m f).twin = s.twin := rfl
@[simp] theorem State.modDin_mig (m : Nat) (f : DinState → DinState) : (s.modDin m f).mig = s.mig := rfl
@[simp] theorem State.modDin_cal (m : Nat) (f : DinState → DinState) : (s.modDin m f).cal = s.cal := rfl
@[simp] theorem State.modDin_cfaultA (m : Nat) (f : DinState → DinState) : (s.modDin m f).cfaultA = s.cfaultA := rfl
@[simp] theorem State.modDin_cfaultP (m : Nat) (f : DinState → DinState) : (s.modDin m f).cfaultP = s.cfaultP := rfl
@[simp] theorem State.modDin_cores (m : Nat) (f : DinState → DinState) : (s.modDin m f).cores = s.cores := rfl
@[simp] theorem State.modDin_swLines (m : Nat) (f : DinState → DinState) : (s.modDin m f).swLines = s.swLines := rfl
@[simp] theorem State.modDin_poisonLines (m : Nat) (f : DinState → DinState) : (s.modDin m f).poisonLines = s.poisonLines := rfl
@[simp] theorem State.modDin_xlat (m : Nat) (f : DinState → DinState) : (s.modDin m f).xlat = s.xlat := rfl
@[simp] theorem State.modDin_dplFilter (m : Nat) (f : DinState → DinState) : (s.modDin m f).dplFilter = s.dplFilter := rfl
@[simp] theorem State.modDin_norOps (m : Nat) (f : DinState → DinState) : (s.modDin m f).norOps = s.norOps := rfl
@[simp] theorem State.modDin_norWear (m : Nat) (f : DinState → DinState) : (s.modDin m f).norWear = s.norWear := rfl
@[simp] theorem State.modDin_fuses (m : Nat) (f : DinState → DinState) : (s.modDin m f).fuses = s.fuses := rfl
@[simp] theorem State.modDin_fuseOp (m : Nat) (f : DinState → DinState) : (s.modDin m f).fuseOp = s.fuseOp := rfl
@[simp] theorem State.modDin_refiBase (m : Nat) (f : DinState → DinState) : (s.modDin m f).refiBase = s.refiBase := rfl
@[simp] theorem State.modDin_scrSram (m : Nat) (f : DinState → DinState) : (s.modDin m f).scrSram = s.scrSram := rfl
@[simp] theorem State.modDin_scrCkpt (m : Nat) (f : DinState → DinState) : (s.modDin m f).scrCkpt = s.scrCkpt := rfl
@[simp] theorem State.modDin_slotBad (m : Nat) (f : DinState → DinState) : (s.modDin m f).slotBad = s.slotBad := rfl
@[simp] theorem State.modDin_sec (m : Nat) (f : DinState → DinState) : (s.modDin m f).sec = s.sec := rfl
@[simp] theorem State.modDin_upd (m : Nat) (f : DinState → DinState) : (s.modDin m f).upd = s.upd := rfl
@[simp] theorem State.modDin_up (m : Nat) (f : DinState → DinState) : (s.modDin m f).up = s.up := rfl
@[simp] theorem State.modDin_clk (m : Nat) (f : DinState → DinState) : (s.modDin m f).clk = s.clk := rfl
@[simp] theorem State.modDin_slp (m : Nat) (f : DinState → DinState) : (s.modDin m f).slp = s.slp := rfl
@[simp] theorem State.modDin_health (m : Nat) (f : DinState → DinState) : (s.modDin m f).health = s.health := rfl
@[simp] theorem State.modDin_hon (m : Nat) (f : DinState → DinState) : (s.modDin m f).hon = s.hon := rfl

@[simp] theorem State.modBridge_pending (b : Nat) (f : BridgeState → BridgeState) : (s.modBridge b f).pending = s.pending := rfl
@[simp] theorem State.modBridge_hz9620 (b : Nat) (f : BridgeState → BridgeState) : (s.modBridge b f).hz9620 = s.hz9620 := rfl
@[simp] theorem State.modBridge_regs (b : Nat) (f : BridgeState → BridgeState) : (s.modBridge b f).regs = s.regs := rfl
@[simp] theorem State.modBridge_tabs (b : Nat) (f : BridgeState → BridgeState) : (s.modBridge b f).tabs = s.tabs := rfl
@[simp] theorem State.modBridge_mem (b : Nat) (f : BridgeState → BridgeState) : (s.modBridge b f).mem = s.mem := rfl
@[simp] theorem State.modBridge_resp (b : Nat) (f : BridgeState → BridgeState) : (s.modBridge b f).resp = s.resp := rfl
@[simp] theorem State.modBridge_out (b : Nat) (f : BridgeState → BridgeState) : (s.modBridge b f).out = s.out := rfl
@[simp] theorem State.modBridge_fresh (b : Nat) (f : BridgeState → BridgeState) : (s.modBridge b f).fresh = s.fresh := rfl
@[simp] theorem State.modBridge_posts (b : Nat) (f : BridgeState → BridgeState) : (s.modBridge b f).posts = s.posts := rfl
@[simp] theorem State.modBridge_shell (b : Nat) (f : BridgeState → BridgeState) : (s.modBridge b f).shell = s.shell := rfl
@[simp] theorem State.modBridge_tb (b : Nat) (f : BridgeState → BridgeState) : (s.modBridge b f).tb = s.tb := rfl
@[simp] theorem State.modBridge_plate (b : Nat) (f : BridgeState → BridgeState) : (s.modBridge b f).plate = s.plate := rfl
@[simp] theorem State.modBridge_sw (b : Nat) (f : BridgeState → BridgeState) : (s.modBridge b f).sw = s.sw := rfl
@[simp] theorem State.modBridge_badEntries (b : Nat) (f : BridgeState → BridgeState) : (s.modBridge b f).badEntries = s.badEntries := rfl
@[simp] theorem State.modBridge_gwIn (b : Nat) (f : BridgeState → BridgeState) : (s.modBridge b f).gwIn = s.gwIn := rfl
@[simp] theorem State.modBridge_can (b : Nat) (f : BridgeState → BridgeState) : (s.modBridge b f).can = s.can := rfl
@[simp] theorem State.modBridge_lin (b : Nat) (f : BridgeState → BridgeState) : (s.modBridge b f).lin = s.lin := rfl
@[simp] theorem State.modBridge_gw (b : Nat) (f : BridgeState → BridgeState) : (s.modBridge b f).gw = s.gw := rfl
@[simp] theorem State.modBridge_chans (b : Nat) (f : BridgeState → BridgeState) : (s.modBridge b f).chans = s.chans := rfl
@[simp] theorem State.modBridge_dies (b : Nat) (f : BridgeState → BridgeState) : (s.modBridge b f).dies = s.dies := rfl
@[simp] theorem State.modBridge_selLands (b : Nat) (f : BridgeState → BridgeState) : (s.modBridge b f).selLands = s.selLands := rfl
@[simp] theorem State.modBridge_claim (b : Nat) (f : BridgeState → BridgeState) : (s.modBridge b f).claim = s.claim := rfl
@[simp] theorem State.modBridge_dins (b : Nat) (f : BridgeState → BridgeState) : (s.modBridge b f).dins = s.dins := rfl
@[simp] theorem State.modBridge_ains (b : Nat) (f : BridgeState → BridgeState) : (s.modBridge b f).ains = s.ains := rfl
@[simp] theorem State.modBridge_scan (b : Nat) (f : BridgeState → BridgeState) : (s.modBridge b f).scan = s.scan := rfl
@[simp] theorem State.modBridge_disarmed (b : Nat) (f : BridgeState → BridgeState) : (s.modBridge b f).disarmed = s.disarmed := rfl
@[simp] theorem State.modBridge_phoask (b : Nat) (f : BridgeState → BridgeState) : (s.modBridge b f).phoask = s.phoask := rfl
@[simp] theorem State.modBridge_twin (b : Nat) (f : BridgeState → BridgeState) : (s.modBridge b f).twin = s.twin := rfl
@[simp] theorem State.modBridge_mig (b : Nat) (f : BridgeState → BridgeState) : (s.modBridge b f).mig = s.mig := rfl
@[simp] theorem State.modBridge_cal (b : Nat) (f : BridgeState → BridgeState) : (s.modBridge b f).cal = s.cal := rfl
@[simp] theorem State.modBridge_cfaultA (b : Nat) (f : BridgeState → BridgeState) : (s.modBridge b f).cfaultA = s.cfaultA := rfl
@[simp] theorem State.modBridge_cfaultP (b : Nat) (f : BridgeState → BridgeState) : (s.modBridge b f).cfaultP = s.cfaultP := rfl
@[simp] theorem State.modBridge_cores (b : Nat) (f : BridgeState → BridgeState) : (s.modBridge b f).cores = s.cores := rfl
@[simp] theorem State.modBridge_swLines (b : Nat) (f : BridgeState → BridgeState) : (s.modBridge b f).swLines = s.swLines := rfl
@[simp] theorem State.modBridge_poisonLines (b : Nat) (f : BridgeState → BridgeState) : (s.modBridge b f).poisonLines = s.poisonLines := rfl
@[simp] theorem State.modBridge_xlat (b : Nat) (f : BridgeState → BridgeState) : (s.modBridge b f).xlat = s.xlat := rfl
@[simp] theorem State.modBridge_dplFilter (b : Nat) (f : BridgeState → BridgeState) : (s.modBridge b f).dplFilter = s.dplFilter := rfl
@[simp] theorem State.modBridge_norOps (b : Nat) (f : BridgeState → BridgeState) : (s.modBridge b f).norOps = s.norOps := rfl
@[simp] theorem State.modBridge_norWear (b : Nat) (f : BridgeState → BridgeState) : (s.modBridge b f).norWear = s.norWear := rfl
@[simp] theorem State.modBridge_fuses (b : Nat) (f : BridgeState → BridgeState) : (s.modBridge b f).fuses = s.fuses := rfl
@[simp] theorem State.modBridge_fuseOp (b : Nat) (f : BridgeState → BridgeState) : (s.modBridge b f).fuseOp = s.fuseOp := rfl
@[simp] theorem State.modBridge_refiBase (b : Nat) (f : BridgeState → BridgeState) : (s.modBridge b f).refiBase = s.refiBase := rfl
@[simp] theorem State.modBridge_scrSram (b : Nat) (f : BridgeState → BridgeState) : (s.modBridge b f).scrSram = s.scrSram := rfl
@[simp] theorem State.modBridge_scrCkpt (b : Nat) (f : BridgeState → BridgeState) : (s.modBridge b f).scrCkpt = s.scrCkpt := rfl
@[simp] theorem State.modBridge_slotBad (b : Nat) (f : BridgeState → BridgeState) : (s.modBridge b f).slotBad = s.slotBad := rfl
@[simp] theorem State.modBridge_sec (b : Nat) (f : BridgeState → BridgeState) : (s.modBridge b f).sec = s.sec := rfl
@[simp] theorem State.modBridge_upd (b : Nat) (f : BridgeState → BridgeState) : (s.modBridge b f).upd = s.upd := rfl
@[simp] theorem State.modBridge_up (b : Nat) (f : BridgeState → BridgeState) : (s.modBridge b f).up = s.up := rfl
@[simp] theorem State.modBridge_clk (b : Nat) (f : BridgeState → BridgeState) : (s.modBridge b f).clk = s.clk := rfl
@[simp] theorem State.modBridge_slp (b : Nat) (f : BridgeState → BridgeState) : (s.modBridge b f).slp = s.slp := rfl
@[simp] theorem State.modBridge_health (b : Nat) (f : BridgeState → BridgeState) : (s.modBridge b f).health = s.health := rfl
@[simp] theorem State.modBridge_hon (b : Nat) (f : BridgeState → BridgeState) : (s.modBridge b f).hon = s.hon := rfl

@[simp] theorem State.modTwin_pending (f : TwinState → TwinState) : (s.modTwin f).pending = s.pending := rfl
@[simp] theorem State.modTwin_hz9620 (f : TwinState → TwinState) : (s.modTwin f).hz9620 = s.hz9620 := rfl
@[simp] theorem State.modTwin_regs (f : TwinState → TwinState) : (s.modTwin f).regs = s.regs := rfl
@[simp] theorem State.modTwin_tabs (f : TwinState → TwinState) : (s.modTwin f).tabs = s.tabs := rfl
@[simp] theorem State.modTwin_mem (f : TwinState → TwinState) : (s.modTwin f).mem = s.mem := rfl
@[simp] theorem State.modTwin_resp (f : TwinState → TwinState) : (s.modTwin f).resp = s.resp := rfl
@[simp] theorem State.modTwin_out (f : TwinState → TwinState) : (s.modTwin f).out = s.out := rfl
@[simp] theorem State.modTwin_fresh (f : TwinState → TwinState) : (s.modTwin f).fresh = s.fresh := rfl
@[simp] theorem State.modTwin_posts (f : TwinState → TwinState) : (s.modTwin f).posts = s.posts := rfl
@[simp] theorem State.modTwin_shell (f : TwinState → TwinState) : (s.modTwin f).shell = s.shell := rfl
@[simp] theorem State.modTwin_tb (f : TwinState → TwinState) : (s.modTwin f).tb = s.tb := rfl
@[simp] theorem State.modTwin_plate (f : TwinState → TwinState) : (s.modTwin f).plate = s.plate := rfl
@[simp] theorem State.modTwin_sw (f : TwinState → TwinState) : (s.modTwin f).sw = s.sw := rfl
@[simp] theorem State.modTwin_badEntries (f : TwinState → TwinState) : (s.modTwin f).badEntries = s.badEntries := rfl
@[simp] theorem State.modTwin_gwIn (f : TwinState → TwinState) : (s.modTwin f).gwIn = s.gwIn := rfl
@[simp] theorem State.modTwin_can (f : TwinState → TwinState) : (s.modTwin f).can = s.can := rfl
@[simp] theorem State.modTwin_lin (f : TwinState → TwinState) : (s.modTwin f).lin = s.lin := rfl
@[simp] theorem State.modTwin_gw (f : TwinState → TwinState) : (s.modTwin f).gw = s.gw := rfl
@[simp] theorem State.modTwin_chans (f : TwinState → TwinState) : (s.modTwin f).chans = s.chans := rfl
@[simp] theorem State.modTwin_dies (f : TwinState → TwinState) : (s.modTwin f).dies = s.dies := rfl
@[simp] theorem State.modTwin_selLands (f : TwinState → TwinState) : (s.modTwin f).selLands = s.selLands := rfl
@[simp] theorem State.modTwin_claim (f : TwinState → TwinState) : (s.modTwin f).claim = s.claim := rfl
@[simp] theorem State.modTwin_dins (f : TwinState → TwinState) : (s.modTwin f).dins = s.dins := rfl
@[simp] theorem State.modTwin_ains (f : TwinState → TwinState) : (s.modTwin f).ains = s.ains := rfl
@[simp] theorem State.modTwin_scan (f : TwinState → TwinState) : (s.modTwin f).scan = s.scan := rfl
@[simp] theorem State.modTwin_disarmed (f : TwinState → TwinState) : (s.modTwin f).disarmed = s.disarmed := rfl
@[simp] theorem State.modTwin_bridges (f : TwinState → TwinState) : (s.modTwin f).bridges = s.bridges := rfl
@[simp] theorem State.modTwin_phoask (f : TwinState → TwinState) : (s.modTwin f).phoask = s.phoask := rfl
@[simp] theorem State.modTwin_mig (f : TwinState → TwinState) : (s.modTwin f).mig = s.mig := rfl
@[simp] theorem State.modTwin_cal (f : TwinState → TwinState) : (s.modTwin f).cal = s.cal := rfl
@[simp] theorem State.modTwin_cfaultA (f : TwinState → TwinState) : (s.modTwin f).cfaultA = s.cfaultA := rfl
@[simp] theorem State.modTwin_cfaultP (f : TwinState → TwinState) : (s.modTwin f).cfaultP = s.cfaultP := rfl
@[simp] theorem State.modTwin_cores (f : TwinState → TwinState) : (s.modTwin f).cores = s.cores := rfl
@[simp] theorem State.modTwin_swLines (f : TwinState → TwinState) : (s.modTwin f).swLines = s.swLines := rfl
@[simp] theorem State.modTwin_poisonLines (f : TwinState → TwinState) : (s.modTwin f).poisonLines = s.poisonLines := rfl
@[simp] theorem State.modTwin_xlat (f : TwinState → TwinState) : (s.modTwin f).xlat = s.xlat := rfl
@[simp] theorem State.modTwin_dplFilter (f : TwinState → TwinState) : (s.modTwin f).dplFilter = s.dplFilter := rfl
@[simp] theorem State.modTwin_norOps (f : TwinState → TwinState) : (s.modTwin f).norOps = s.norOps := rfl
@[simp] theorem State.modTwin_norWear (f : TwinState → TwinState) : (s.modTwin f).norWear = s.norWear := rfl
@[simp] theorem State.modTwin_fuses (f : TwinState → TwinState) : (s.modTwin f).fuses = s.fuses := rfl
@[simp] theorem State.modTwin_fuseOp (f : TwinState → TwinState) : (s.modTwin f).fuseOp = s.fuseOp := rfl
@[simp] theorem State.modTwin_refiBase (f : TwinState → TwinState) : (s.modTwin f).refiBase = s.refiBase := rfl
@[simp] theorem State.modTwin_scrSram (f : TwinState → TwinState) : (s.modTwin f).scrSram = s.scrSram := rfl
@[simp] theorem State.modTwin_scrCkpt (f : TwinState → TwinState) : (s.modTwin f).scrCkpt = s.scrCkpt := rfl
@[simp] theorem State.modTwin_slotBad (f : TwinState → TwinState) : (s.modTwin f).slotBad = s.slotBad := rfl
@[simp] theorem State.modTwin_sec (f : TwinState → TwinState) : (s.modTwin f).sec = s.sec := rfl
@[simp] theorem State.modTwin_upd (f : TwinState → TwinState) : (s.modTwin f).upd = s.upd := rfl
@[simp] theorem State.modTwin_up (f : TwinState → TwinState) : (s.modTwin f).up = s.up := rfl
@[simp] theorem State.modTwin_clk (f : TwinState → TwinState) : (s.modTwin f).clk = s.clk := rfl
@[simp] theorem State.modTwin_slp (f : TwinState → TwinState) : (s.modTwin f).slp = s.slp := rfl
@[simp] theorem State.modTwin_health (f : TwinState → TwinState) : (s.modTwin f).health = s.health := rfl
@[simp] theorem State.modTwin_hon (f : TwinState → TwinState) : (s.modTwin f).hon = s.hon := rfl

@[simp] theorem State.modCore_pending (c : Nat) (f : CoreState → CoreState) : (s.modCore c f).pending = s.pending := rfl
@[simp] theorem State.modCore_hz9620 (c : Nat) (f : CoreState → CoreState) : (s.modCore c f).hz9620 = s.hz9620 := rfl
@[simp] theorem State.modCore_regs (c : Nat) (f : CoreState → CoreState) : (s.modCore c f).regs = s.regs := rfl
@[simp] theorem State.modCore_tabs (c : Nat) (f : CoreState → CoreState) : (s.modCore c f).tabs = s.tabs := rfl
@[simp] theorem State.modCore_mem (c : Nat) (f : CoreState → CoreState) : (s.modCore c f).mem = s.mem := rfl
@[simp] theorem State.modCore_resp (c : Nat) (f : CoreState → CoreState) : (s.modCore c f).resp = s.resp := rfl
@[simp] theorem State.modCore_out (c : Nat) (f : CoreState → CoreState) : (s.modCore c f).out = s.out := rfl
@[simp] theorem State.modCore_fresh (c : Nat) (f : CoreState → CoreState) : (s.modCore c f).fresh = s.fresh := rfl
@[simp] theorem State.modCore_posts (c : Nat) (f : CoreState → CoreState) : (s.modCore c f).posts = s.posts := rfl
@[simp] theorem State.modCore_shell (c : Nat) (f : CoreState → CoreState) : (s.modCore c f).shell = s.shell := rfl
@[simp] theorem State.modCore_tb (c : Nat) (f : CoreState → CoreState) : (s.modCore c f).tb = s.tb := rfl
@[simp] theorem State.modCore_plate (c : Nat) (f : CoreState → CoreState) : (s.modCore c f).plate = s.plate := rfl
@[simp] theorem State.modCore_sw (c : Nat) (f : CoreState → CoreState) : (s.modCore c f).sw = s.sw := rfl
@[simp] theorem State.modCore_badEntries (c : Nat) (f : CoreState → CoreState) : (s.modCore c f).badEntries = s.badEntries := rfl
@[simp] theorem State.modCore_gwIn (c : Nat) (f : CoreState → CoreState) : (s.modCore c f).gwIn = s.gwIn := rfl
@[simp] theorem State.modCore_can (c : Nat) (f : CoreState → CoreState) : (s.modCore c f).can = s.can := rfl
@[simp] theorem State.modCore_lin (c : Nat) (f : CoreState → CoreState) : (s.modCore c f).lin = s.lin := rfl
@[simp] theorem State.modCore_gw (c : Nat) (f : CoreState → CoreState) : (s.modCore c f).gw = s.gw := rfl
@[simp] theorem State.modCore_chans (c : Nat) (f : CoreState → CoreState) : (s.modCore c f).chans = s.chans := rfl
@[simp] theorem State.modCore_dies (c : Nat) (f : CoreState → CoreState) : (s.modCore c f).dies = s.dies := rfl
@[simp] theorem State.modCore_selLands (c : Nat) (f : CoreState → CoreState) : (s.modCore c f).selLands = s.selLands := rfl
@[simp] theorem State.modCore_claim (c : Nat) (f : CoreState → CoreState) : (s.modCore c f).claim = s.claim := rfl
@[simp] theorem State.modCore_dins (c : Nat) (f : CoreState → CoreState) : (s.modCore c f).dins = s.dins := rfl
@[simp] theorem State.modCore_ains (c : Nat) (f : CoreState → CoreState) : (s.modCore c f).ains = s.ains := rfl
@[simp] theorem State.modCore_scan (c : Nat) (f : CoreState → CoreState) : (s.modCore c f).scan = s.scan := rfl
@[simp] theorem State.modCore_disarmed (c : Nat) (f : CoreState → CoreState) : (s.modCore c f).disarmed = s.disarmed := rfl
@[simp] theorem State.modCore_bridges (c : Nat) (f : CoreState → CoreState) : (s.modCore c f).bridges = s.bridges := rfl
@[simp] theorem State.modCore_phoask (c : Nat) (f : CoreState → CoreState) : (s.modCore c f).phoask = s.phoask := rfl
@[simp] theorem State.modCore_twin (c : Nat) (f : CoreState → CoreState) : (s.modCore c f).twin = s.twin := rfl
@[simp] theorem State.modCore_mig (c : Nat) (f : CoreState → CoreState) : (s.modCore c f).mig = s.mig := rfl
@[simp] theorem State.modCore_cal (c : Nat) (f : CoreState → CoreState) : (s.modCore c f).cal = s.cal := rfl
@[simp] theorem State.modCore_cfaultA (c : Nat) (f : CoreState → CoreState) : (s.modCore c f).cfaultA = s.cfaultA := rfl
@[simp] theorem State.modCore_cfaultP (c : Nat) (f : CoreState → CoreState) : (s.modCore c f).cfaultP = s.cfaultP := rfl
@[simp] theorem State.modCore_swLines (c : Nat) (f : CoreState → CoreState) : (s.modCore c f).swLines = s.swLines := rfl
@[simp] theorem State.modCore_poisonLines (c : Nat) (f : CoreState → CoreState) : (s.modCore c f).poisonLines = s.poisonLines := rfl
@[simp] theorem State.modCore_xlat (c : Nat) (f : CoreState → CoreState) : (s.modCore c f).xlat = s.xlat := rfl
@[simp] theorem State.modCore_dplFilter (c : Nat) (f : CoreState → CoreState) : (s.modCore c f).dplFilter = s.dplFilter := rfl
@[simp] theorem State.modCore_norOps (c : Nat) (f : CoreState → CoreState) : (s.modCore c f).norOps = s.norOps := rfl
@[simp] theorem State.modCore_norWear (c : Nat) (f : CoreState → CoreState) : (s.modCore c f).norWear = s.norWear := rfl
@[simp] theorem State.modCore_fuses (c : Nat) (f : CoreState → CoreState) : (s.modCore c f).fuses = s.fuses := rfl
@[simp] theorem State.modCore_fuseOp (c : Nat) (f : CoreState → CoreState) : (s.modCore c f).fuseOp = s.fuseOp := rfl
@[simp] theorem State.modCore_refiBase (c : Nat) (f : CoreState → CoreState) : (s.modCore c f).refiBase = s.refiBase := rfl
@[simp] theorem State.modCore_scrSram (c : Nat) (f : CoreState → CoreState) : (s.modCore c f).scrSram = s.scrSram := rfl
@[simp] theorem State.modCore_scrCkpt (c : Nat) (f : CoreState → CoreState) : (s.modCore c f).scrCkpt = s.scrCkpt := rfl
@[simp] theorem State.modCore_slotBad (c : Nat) (f : CoreState → CoreState) : (s.modCore c f).slotBad = s.slotBad := rfl
@[simp] theorem State.modCore_sec (c : Nat) (f : CoreState → CoreState) : (s.modCore c f).sec = s.sec := rfl
@[simp] theorem State.modCore_upd (c : Nat) (f : CoreState → CoreState) : (s.modCore c f).upd = s.upd := rfl
@[simp] theorem State.modCore_up (c : Nat) (f : CoreState → CoreState) : (s.modCore c f).up = s.up := rfl
@[simp] theorem State.modCore_clk (c : Nat) (f : CoreState → CoreState) : (s.modCore c f).clk = s.clk := rfl
@[simp] theorem State.modCore_slp (c : Nat) (f : CoreState → CoreState) : (s.modCore c f).slp = s.slp := rfl
@[simp] theorem State.modCore_health (c : Nat) (f : CoreState → CoreState) : (s.modCore c f).health = s.health := rfl
@[simp] theorem State.modCore_hon (c : Nat) (f : CoreState → CoreState) : (s.modCore c f).hon = s.hon := rfl

@[simp] theorem State.modCal_pending (k : Nat) (f : CalState → CalState) : (s.modCal k f).pending = s.pending := rfl
@[simp] theorem State.modCal_hz9620 (k : Nat) (f : CalState → CalState) : (s.modCal k f).hz9620 = s.hz9620 := rfl
@[simp] theorem State.modCal_regs (k : Nat) (f : CalState → CalState) : (s.modCal k f).regs = s.regs := rfl
@[simp] theorem State.modCal_tabs (k : Nat) (f : CalState → CalState) : (s.modCal k f).tabs = s.tabs := rfl
@[simp] theorem State.modCal_mem (k : Nat) (f : CalState → CalState) : (s.modCal k f).mem = s.mem := rfl
@[simp] theorem State.modCal_resp (k : Nat) (f : CalState → CalState) : (s.modCal k f).resp = s.resp := rfl
@[simp] theorem State.modCal_out (k : Nat) (f : CalState → CalState) : (s.modCal k f).out = s.out := rfl
@[simp] theorem State.modCal_fresh (k : Nat) (f : CalState → CalState) : (s.modCal k f).fresh = s.fresh := rfl
@[simp] theorem State.modCal_posts (k : Nat) (f : CalState → CalState) : (s.modCal k f).posts = s.posts := rfl
@[simp] theorem State.modCal_shell (k : Nat) (f : CalState → CalState) : (s.modCal k f).shell = s.shell := rfl
@[simp] theorem State.modCal_tb (k : Nat) (f : CalState → CalState) : (s.modCal k f).tb = s.tb := rfl
@[simp] theorem State.modCal_plate (k : Nat) (f : CalState → CalState) : (s.modCal k f).plate = s.plate := rfl
@[simp] theorem State.modCal_sw (k : Nat) (f : CalState → CalState) : (s.modCal k f).sw = s.sw := rfl
@[simp] theorem State.modCal_badEntries (k : Nat) (f : CalState → CalState) : (s.modCal k f).badEntries = s.badEntries := rfl
@[simp] theorem State.modCal_gwIn (k : Nat) (f : CalState → CalState) : (s.modCal k f).gwIn = s.gwIn := rfl
@[simp] theorem State.modCal_can (k : Nat) (f : CalState → CalState) : (s.modCal k f).can = s.can := rfl
@[simp] theorem State.modCal_lin (k : Nat) (f : CalState → CalState) : (s.modCal k f).lin = s.lin := rfl
@[simp] theorem State.modCal_gw (k : Nat) (f : CalState → CalState) : (s.modCal k f).gw = s.gw := rfl
@[simp] theorem State.modCal_chans (k : Nat) (f : CalState → CalState) : (s.modCal k f).chans = s.chans := rfl
@[simp] theorem State.modCal_dies (k : Nat) (f : CalState → CalState) : (s.modCal k f).dies = s.dies := rfl
@[simp] theorem State.modCal_selLands (k : Nat) (f : CalState → CalState) : (s.modCal k f).selLands = s.selLands := rfl
@[simp] theorem State.modCal_claim (k : Nat) (f : CalState → CalState) : (s.modCal k f).claim = s.claim := rfl
@[simp] theorem State.modCal_dins (k : Nat) (f : CalState → CalState) : (s.modCal k f).dins = s.dins := rfl
@[simp] theorem State.modCal_ains (k : Nat) (f : CalState → CalState) : (s.modCal k f).ains = s.ains := rfl
@[simp] theorem State.modCal_scan (k : Nat) (f : CalState → CalState) : (s.modCal k f).scan = s.scan := rfl
@[simp] theorem State.modCal_disarmed (k : Nat) (f : CalState → CalState) : (s.modCal k f).disarmed = s.disarmed := rfl
@[simp] theorem State.modCal_bridges (k : Nat) (f : CalState → CalState) : (s.modCal k f).bridges = s.bridges := rfl
@[simp] theorem State.modCal_phoask (k : Nat) (f : CalState → CalState) : (s.modCal k f).phoask = s.phoask := rfl
@[simp] theorem State.modCal_twin (k : Nat) (f : CalState → CalState) : (s.modCal k f).twin = s.twin := rfl
@[simp] theorem State.modCal_mig (k : Nat) (f : CalState → CalState) : (s.modCal k f).mig = s.mig := rfl
@[simp] theorem State.modCal_cfaultA (k : Nat) (f : CalState → CalState) : (s.modCal k f).cfaultA = s.cfaultA := rfl
@[simp] theorem State.modCal_cfaultP (k : Nat) (f : CalState → CalState) : (s.modCal k f).cfaultP = s.cfaultP := rfl
@[simp] theorem State.modCal_cores (k : Nat) (f : CalState → CalState) : (s.modCal k f).cores = s.cores := rfl
@[simp] theorem State.modCal_swLines (k : Nat) (f : CalState → CalState) : (s.modCal k f).swLines = s.swLines := rfl
@[simp] theorem State.modCal_poisonLines (k : Nat) (f : CalState → CalState) : (s.modCal k f).poisonLines = s.poisonLines := rfl
@[simp] theorem State.modCal_xlat (k : Nat) (f : CalState → CalState) : (s.modCal k f).xlat = s.xlat := rfl
@[simp] theorem State.modCal_dplFilter (k : Nat) (f : CalState → CalState) : (s.modCal k f).dplFilter = s.dplFilter := rfl
@[simp] theorem State.modCal_norOps (k : Nat) (f : CalState → CalState) : (s.modCal k f).norOps = s.norOps := rfl
@[simp] theorem State.modCal_norWear (k : Nat) (f : CalState → CalState) : (s.modCal k f).norWear = s.norWear := rfl
@[simp] theorem State.modCal_fuses (k : Nat) (f : CalState → CalState) : (s.modCal k f).fuses = s.fuses := rfl
@[simp] theorem State.modCal_fuseOp (k : Nat) (f : CalState → CalState) : (s.modCal k f).fuseOp = s.fuseOp := rfl
@[simp] theorem State.modCal_refiBase (k : Nat) (f : CalState → CalState) : (s.modCal k f).refiBase = s.refiBase := rfl
@[simp] theorem State.modCal_scrSram (k : Nat) (f : CalState → CalState) : (s.modCal k f).scrSram = s.scrSram := rfl
@[simp] theorem State.modCal_scrCkpt (k : Nat) (f : CalState → CalState) : (s.modCal k f).scrCkpt = s.scrCkpt := rfl
@[simp] theorem State.modCal_slotBad (k : Nat) (f : CalState → CalState) : (s.modCal k f).slotBad = s.slotBad := rfl
@[simp] theorem State.modCal_sec (k : Nat) (f : CalState → CalState) : (s.modCal k f).sec = s.sec := rfl
@[simp] theorem State.modCal_upd (k : Nat) (f : CalState → CalState) : (s.modCal k f).upd = s.upd := rfl
@[simp] theorem State.modCal_up (k : Nat) (f : CalState → CalState) : (s.modCal k f).up = s.up := rfl
@[simp] theorem State.modCal_clk (k : Nat) (f : CalState → CalState) : (s.modCal k f).clk = s.clk := rfl
@[simp] theorem State.modCal_slp (k : Nat) (f : CalState → CalState) : (s.modCal k f).slp = s.slp := rfl
@[simp] theorem State.modCal_health (k : Nat) (f : CalState → CalState) : (s.modCal k f).health = s.health := rfl
@[simp] theorem State.modCal_hon (k : Nat) (f : CalState → CalState) : (s.modCal k f).hon = s.hon := rfl

@[simp] theorem State.cnt_pending (p : Nat) (f : Fld) (d : Nat) : (s.cnt p f d).pending = s.pending := by unfold State.cnt; split <;> rfl
@[simp] theorem State.cnt_hz9620 (p : Nat) (f : Fld) (d : Nat) : (s.cnt p f d).hz9620 = s.hz9620 := by unfold State.cnt; split <;> rfl
@[simp] theorem State.cnt_tabs (p : Nat) (f : Fld) (d : Nat) : (s.cnt p f d).tabs = s.tabs := by unfold State.cnt; split <;> rfl
@[simp] theorem State.cnt_mem (p : Nat) (f : Fld) (d : Nat) : (s.cnt p f d).mem = s.mem := by unfold State.cnt; split <;> rfl
@[simp] theorem State.cnt_resp (p : Nat) (f : Fld) (d : Nat) : (s.cnt p f d).resp = s.resp := by unfold State.cnt; split <;> rfl
@[simp] theorem State.cnt_out (p : Nat) (f : Fld) (d : Nat) : (s.cnt p f d).out = s.out := by unfold State.cnt; split <;> rfl
@[simp] theorem State.cnt_fresh (p : Nat) (f : Fld) (d : Nat) : (s.cnt p f d).fresh = s.fresh := by unfold State.cnt; split <;> rfl
@[simp] theorem State.cnt_posts (p : Nat) (f : Fld) (d : Nat) : (s.cnt p f d).posts = s.posts := by unfold State.cnt; split <;> rfl
@[simp] theorem State.cnt_shell (p : Nat) (f : Fld) (d : Nat) : (s.cnt p f d).shell = s.shell := by unfold State.cnt; split <;> rfl
@[simp] theorem State.cnt_tb (p : Nat) (f : Fld) (d : Nat) : (s.cnt p f d).tb = s.tb := by unfold State.cnt; split <;> rfl
@[simp] theorem State.cnt_plate (p : Nat) (f : Fld) (d : Nat) : (s.cnt p f d).plate = s.plate := by unfold State.cnt; split <;> rfl
@[simp] theorem State.cnt_sw (p : Nat) (f : Fld) (d : Nat) : (s.cnt p f d).sw = s.sw := by unfold State.cnt; split <;> rfl
@[simp] theorem State.cnt_badEntries (p : Nat) (f : Fld) (d : Nat) : (s.cnt p f d).badEntries = s.badEntries := by unfold State.cnt; split <;> rfl
@[simp] theorem State.cnt_gwIn (p : Nat) (f : Fld) (d : Nat) : (s.cnt p f d).gwIn = s.gwIn := by unfold State.cnt; split <;> rfl
@[simp] theorem State.cnt_can (p : Nat) (f : Fld) (d : Nat) : (s.cnt p f d).can = s.can := by unfold State.cnt; split <;> rfl
@[simp] theorem State.cnt_lin (p : Nat) (f : Fld) (d : Nat) : (s.cnt p f d).lin = s.lin := by unfold State.cnt; split <;> rfl
@[simp] theorem State.cnt_gw (p : Nat) (f : Fld) (d : Nat) : (s.cnt p f d).gw = s.gw := by unfold State.cnt; split <;> rfl
@[simp] theorem State.cnt_chans (p : Nat) (f : Fld) (d : Nat) : (s.cnt p f d).chans = s.chans := by unfold State.cnt; split <;> rfl
@[simp] theorem State.cnt_dies (p : Nat) (f : Fld) (d : Nat) : (s.cnt p f d).dies = s.dies := by unfold State.cnt; split <;> rfl
@[simp] theorem State.cnt_selLands (p : Nat) (f : Fld) (d : Nat) : (s.cnt p f d).selLands = s.selLands := by unfold State.cnt; split <;> rfl
@[simp] theorem State.cnt_claim (p : Nat) (f : Fld) (d : Nat) : (s.cnt p f d).claim = s.claim := by unfold State.cnt; split <;> rfl
@[simp] theorem State.cnt_dins (p : Nat) (f : Fld) (d : Nat) : (s.cnt p f d).dins = s.dins := by unfold State.cnt; split <;> rfl
@[simp] theorem State.cnt_ains (p : Nat) (f : Fld) (d : Nat) : (s.cnt p f d).ains = s.ains := by unfold State.cnt; split <;> rfl
@[simp] theorem State.cnt_scan (p : Nat) (f : Fld) (d : Nat) : (s.cnt p f d).scan = s.scan := by unfold State.cnt; split <;> rfl
@[simp] theorem State.cnt_disarmed (p : Nat) (f : Fld) (d : Nat) : (s.cnt p f d).disarmed = s.disarmed := by unfold State.cnt; split <;> rfl
@[simp] theorem State.cnt_bridges (p : Nat) (f : Fld) (d : Nat) : (s.cnt p f d).bridges = s.bridges := by unfold State.cnt; split <;> rfl
@[simp] theorem State.cnt_phoask (p : Nat) (f : Fld) (d : Nat) : (s.cnt p f d).phoask = s.phoask := by unfold State.cnt; split <;> rfl
@[simp] theorem State.cnt_twin (p : Nat) (f : Fld) (d : Nat) : (s.cnt p f d).twin = s.twin := by unfold State.cnt; split <;> rfl
@[simp] theorem State.cnt_mig (p : Nat) (f : Fld) (d : Nat) : (s.cnt p f d).mig = s.mig := by unfold State.cnt; split <;> rfl
@[simp] theorem State.cnt_cal (p : Nat) (f : Fld) (d : Nat) : (s.cnt p f d).cal = s.cal := by unfold State.cnt; split <;> rfl
@[simp] theorem State.cnt_cfaultA (p : Nat) (f : Fld) (d : Nat) : (s.cnt p f d).cfaultA = s.cfaultA := by unfold State.cnt; split <;> rfl
@[simp] theorem State.cnt_cfaultP (p : Nat) (f : Fld) (d : Nat) : (s.cnt p f d).cfaultP = s.cfaultP := by unfold State.cnt; split <;> rfl
@[simp] theorem State.cnt_cores (p : Nat) (f : Fld) (d : Nat) : (s.cnt p f d).cores = s.cores := by unfold State.cnt; split <;> rfl
@[simp] theorem State.cnt_swLines (p : Nat) (f : Fld) (d : Nat) : (s.cnt p f d).swLines = s.swLines := by unfold State.cnt; split <;> rfl
@[simp] theorem State.cnt_poisonLines (p : Nat) (f : Fld) (d : Nat) : (s.cnt p f d).poisonLines = s.poisonLines := by unfold State.cnt; split <;> rfl
@[simp] theorem State.cnt_xlat (p : Nat) (f : Fld) (d : Nat) : (s.cnt p f d).xlat = s.xlat := by unfold State.cnt; split <;> rfl
@[simp] theorem State.cnt_dplFilter (p : Nat) (f : Fld) (d : Nat) : (s.cnt p f d).dplFilter = s.dplFilter := by unfold State.cnt; split <;> rfl
@[simp] theorem State.cnt_norOps (p : Nat) (f : Fld) (d : Nat) : (s.cnt p f d).norOps = s.norOps := by unfold State.cnt; split <;> rfl
@[simp] theorem State.cnt_norWear (p : Nat) (f : Fld) (d : Nat) : (s.cnt p f d).norWear = s.norWear := by unfold State.cnt; split <;> rfl
@[simp] theorem State.cnt_fuses (p : Nat) (f : Fld) (d : Nat) : (s.cnt p f d).fuses = s.fuses := by unfold State.cnt; split <;> rfl
@[simp] theorem State.cnt_fuseOp (p : Nat) (f : Fld) (d : Nat) : (s.cnt p f d).fuseOp = s.fuseOp := by unfold State.cnt; split <;> rfl
@[simp] theorem State.cnt_refiBase (p : Nat) (f : Fld) (d : Nat) : (s.cnt p f d).refiBase = s.refiBase := by unfold State.cnt; split <;> rfl
@[simp] theorem State.cnt_scrSram (p : Nat) (f : Fld) (d : Nat) : (s.cnt p f d).scrSram = s.scrSram := by unfold State.cnt; split <;> rfl
@[simp] theorem State.cnt_scrCkpt (p : Nat) (f : Fld) (d : Nat) : (s.cnt p f d).scrCkpt = s.scrCkpt := by unfold State.cnt; split <;> rfl
@[simp] theorem State.cnt_slotBad (p : Nat) (f : Fld) (d : Nat) : (s.cnt p f d).slotBad = s.slotBad := by unfold State.cnt; split <;> rfl
@[simp] theorem State.cnt_sec (p : Nat) (f : Fld) (d : Nat) : (s.cnt p f d).sec = s.sec := by unfold State.cnt; split <;> rfl
@[simp] theorem State.cnt_upd (p : Nat) (f : Fld) (d : Nat) : (s.cnt p f d).upd = s.upd := by unfold State.cnt; split <;> rfl
@[simp] theorem State.cnt_up (p : Nat) (f : Fld) (d : Nat) : (s.cnt p f d).up = s.up := by unfold State.cnt; split <;> rfl
@[simp] theorem State.cnt_clk (p : Nat) (f : Fld) (d : Nat) : (s.cnt p f d).clk = s.clk := by unfold State.cnt; split <;> rfl
@[simp] theorem State.cnt_slp (p : Nat) (f : Fld) (d : Nat) : (s.cnt p f d).slp = s.slp := by unfold State.cnt; split <;> rfl
@[simp] theorem State.cnt_health (p : Nat) (f : Fld) (d : Nat) : (s.cnt p f d).health = s.health := by unfold State.cnt; split <;> rfl
@[simp] theorem State.cnt_hon (p : Nat) (f : Fld) (d : Nat) : (s.cnt p f d).hon = s.hon := by unfold State.cnt; split <;> rfl

@[simp] theorem State.cntWrap_pending (p : Nat) (f : Fld) (d : Nat) : (s.cntWrap p f d).pending = s.pending := by unfold State.cntWrap; split <;> rfl
@[simp] theorem State.cntWrap_hz9620 (p : Nat) (f : Fld) (d : Nat) : (s.cntWrap p f d).hz9620 = s.hz9620 := by unfold State.cntWrap; split <;> rfl
@[simp] theorem State.cntWrap_tabs (p : Nat) (f : Fld) (d : Nat) : (s.cntWrap p f d).tabs = s.tabs := by unfold State.cntWrap; split <;> rfl
@[simp] theorem State.cntWrap_mem (p : Nat) (f : Fld) (d : Nat) : (s.cntWrap p f d).mem = s.mem := by unfold State.cntWrap; split <;> rfl
@[simp] theorem State.cntWrap_resp (p : Nat) (f : Fld) (d : Nat) : (s.cntWrap p f d).resp = s.resp := by unfold State.cntWrap; split <;> rfl
@[simp] theorem State.cntWrap_out (p : Nat) (f : Fld) (d : Nat) : (s.cntWrap p f d).out = s.out := by unfold State.cntWrap; split <;> rfl
@[simp] theorem State.cntWrap_fresh (p : Nat) (f : Fld) (d : Nat) : (s.cntWrap p f d).fresh = s.fresh := by unfold State.cntWrap; split <;> rfl
@[simp] theorem State.cntWrap_posts (p : Nat) (f : Fld) (d : Nat) : (s.cntWrap p f d).posts = s.posts := by unfold State.cntWrap; split <;> rfl
@[simp] theorem State.cntWrap_shell (p : Nat) (f : Fld) (d : Nat) : (s.cntWrap p f d).shell = s.shell := by unfold State.cntWrap; split <;> rfl
@[simp] theorem State.cntWrap_tb (p : Nat) (f : Fld) (d : Nat) : (s.cntWrap p f d).tb = s.tb := by unfold State.cntWrap; split <;> rfl
@[simp] theorem State.cntWrap_plate (p : Nat) (f : Fld) (d : Nat) : (s.cntWrap p f d).plate = s.plate := by unfold State.cntWrap; split <;> rfl
@[simp] theorem State.cntWrap_sw (p : Nat) (f : Fld) (d : Nat) : (s.cntWrap p f d).sw = s.sw := by unfold State.cntWrap; split <;> rfl
@[simp] theorem State.cntWrap_badEntries (p : Nat) (f : Fld) (d : Nat) : (s.cntWrap p f d).badEntries = s.badEntries := by unfold State.cntWrap; split <;> rfl
@[simp] theorem State.cntWrap_gwIn (p : Nat) (f : Fld) (d : Nat) : (s.cntWrap p f d).gwIn = s.gwIn := by unfold State.cntWrap; split <;> rfl
@[simp] theorem State.cntWrap_can (p : Nat) (f : Fld) (d : Nat) : (s.cntWrap p f d).can = s.can := by unfold State.cntWrap; split <;> rfl
@[simp] theorem State.cntWrap_lin (p : Nat) (f : Fld) (d : Nat) : (s.cntWrap p f d).lin = s.lin := by unfold State.cntWrap; split <;> rfl
@[simp] theorem State.cntWrap_gw (p : Nat) (f : Fld) (d : Nat) : (s.cntWrap p f d).gw = s.gw := by unfold State.cntWrap; split <;> rfl
@[simp] theorem State.cntWrap_chans (p : Nat) (f : Fld) (d : Nat) : (s.cntWrap p f d).chans = s.chans := by unfold State.cntWrap; split <;> rfl
@[simp] theorem State.cntWrap_dies (p : Nat) (f : Fld) (d : Nat) : (s.cntWrap p f d).dies = s.dies := by unfold State.cntWrap; split <;> rfl
@[simp] theorem State.cntWrap_selLands (p : Nat) (f : Fld) (d : Nat) : (s.cntWrap p f d).selLands = s.selLands := by unfold State.cntWrap; split <;> rfl
@[simp] theorem State.cntWrap_claim (p : Nat) (f : Fld) (d : Nat) : (s.cntWrap p f d).claim = s.claim := by unfold State.cntWrap; split <;> rfl
@[simp] theorem State.cntWrap_dins (p : Nat) (f : Fld) (d : Nat) : (s.cntWrap p f d).dins = s.dins := by unfold State.cntWrap; split <;> rfl
@[simp] theorem State.cntWrap_ains (p : Nat) (f : Fld) (d : Nat) : (s.cntWrap p f d).ains = s.ains := by unfold State.cntWrap; split <;> rfl
@[simp] theorem State.cntWrap_scan (p : Nat) (f : Fld) (d : Nat) : (s.cntWrap p f d).scan = s.scan := by unfold State.cntWrap; split <;> rfl
@[simp] theorem State.cntWrap_disarmed (p : Nat) (f : Fld) (d : Nat) : (s.cntWrap p f d).disarmed = s.disarmed := by unfold State.cntWrap; split <;> rfl
@[simp] theorem State.cntWrap_bridges (p : Nat) (f : Fld) (d : Nat) : (s.cntWrap p f d).bridges = s.bridges := by unfold State.cntWrap; split <;> rfl
@[simp] theorem State.cntWrap_phoask (p : Nat) (f : Fld) (d : Nat) : (s.cntWrap p f d).phoask = s.phoask := by unfold State.cntWrap; split <;> rfl
@[simp] theorem State.cntWrap_twin (p : Nat) (f : Fld) (d : Nat) : (s.cntWrap p f d).twin = s.twin := by unfold State.cntWrap; split <;> rfl
@[simp] theorem State.cntWrap_mig (p : Nat) (f : Fld) (d : Nat) : (s.cntWrap p f d).mig = s.mig := by unfold State.cntWrap; split <;> rfl
@[simp] theorem State.cntWrap_cal (p : Nat) (f : Fld) (d : Nat) : (s.cntWrap p f d).cal = s.cal := by unfold State.cntWrap; split <;> rfl
@[simp] theorem State.cntWrap_cfaultA (p : Nat) (f : Fld) (d : Nat) : (s.cntWrap p f d).cfaultA = s.cfaultA := by unfold State.cntWrap; split <;> rfl
@[simp] theorem State.cntWrap_cfaultP (p : Nat) (f : Fld) (d : Nat) : (s.cntWrap p f d).cfaultP = s.cfaultP := by unfold State.cntWrap; split <;> rfl
@[simp] theorem State.cntWrap_cores (p : Nat) (f : Fld) (d : Nat) : (s.cntWrap p f d).cores = s.cores := by unfold State.cntWrap; split <;> rfl
@[simp] theorem State.cntWrap_swLines (p : Nat) (f : Fld) (d : Nat) : (s.cntWrap p f d).swLines = s.swLines := by unfold State.cntWrap; split <;> rfl
@[simp] theorem State.cntWrap_poisonLines (p : Nat) (f : Fld) (d : Nat) : (s.cntWrap p f d).poisonLines = s.poisonLines := by unfold State.cntWrap; split <;> rfl
@[simp] theorem State.cntWrap_xlat (p : Nat) (f : Fld) (d : Nat) : (s.cntWrap p f d).xlat = s.xlat := by unfold State.cntWrap; split <;> rfl
@[simp] theorem State.cntWrap_dplFilter (p : Nat) (f : Fld) (d : Nat) : (s.cntWrap p f d).dplFilter = s.dplFilter := by unfold State.cntWrap; split <;> rfl
@[simp] theorem State.cntWrap_norOps (p : Nat) (f : Fld) (d : Nat) : (s.cntWrap p f d).norOps = s.norOps := by unfold State.cntWrap; split <;> rfl
@[simp] theorem State.cntWrap_norWear (p : Nat) (f : Fld) (d : Nat) : (s.cntWrap p f d).norWear = s.norWear := by unfold State.cntWrap; split <;> rfl
@[simp] theorem State.cntWrap_fuses (p : Nat) (f : Fld) (d : Nat) : (s.cntWrap p f d).fuses = s.fuses := by unfold State.cntWrap; split <;> rfl
@[simp] theorem State.cntWrap_fuseOp (p : Nat) (f : Fld) (d : Nat) : (s.cntWrap p f d).fuseOp = s.fuseOp := by unfold State.cntWrap; split <;> rfl
@[simp] theorem State.cntWrap_refiBase (p : Nat) (f : Fld) (d : Nat) : (s.cntWrap p f d).refiBase = s.refiBase := by unfold State.cntWrap; split <;> rfl
@[simp] theorem State.cntWrap_scrSram (p : Nat) (f : Fld) (d : Nat) : (s.cntWrap p f d).scrSram = s.scrSram := by unfold State.cntWrap; split <;> rfl
@[simp] theorem State.cntWrap_scrCkpt (p : Nat) (f : Fld) (d : Nat) : (s.cntWrap p f d).scrCkpt = s.scrCkpt := by unfold State.cntWrap; split <;> rfl
@[simp] theorem State.cntWrap_slotBad (p : Nat) (f : Fld) (d : Nat) : (s.cntWrap p f d).slotBad = s.slotBad := by unfold State.cntWrap; split <;> rfl
@[simp] theorem State.cntWrap_sec (p : Nat) (f : Fld) (d : Nat) : (s.cntWrap p f d).sec = s.sec := by unfold State.cntWrap; split <;> rfl
@[simp] theorem State.cntWrap_upd (p : Nat) (f : Fld) (d : Nat) : (s.cntWrap p f d).upd = s.upd := by unfold State.cntWrap; split <;> rfl
@[simp] theorem State.cntWrap_up (p : Nat) (f : Fld) (d : Nat) : (s.cntWrap p f d).up = s.up := by unfold State.cntWrap; split <;> rfl
@[simp] theorem State.cntWrap_clk (p : Nat) (f : Fld) (d : Nat) : (s.cntWrap p f d).clk = s.clk := by unfold State.cntWrap; split <;> rfl
@[simp] theorem State.cntWrap_slp (p : Nat) (f : Fld) (d : Nat) : (s.cntWrap p f d).slp = s.slp := by unfold State.cntWrap; split <;> rfl
@[simp] theorem State.cntWrap_health (p : Nat) (f : Fld) (d : Nat) : (s.cntWrap p f d).health = s.health := by unfold State.cntWrap; split <;> rfl
@[simp] theorem State.cntWrap_hon (p : Nat) (f : Fld) (d : Nat) : (s.cntWrap p f d).hon = s.hon := by unfold State.cntWrap; split <;> rfl

@[simp] theorem State.cnt32_pending (p off d : Nat) : (s.cnt32 p off d).pending = s.pending := State.cntWrap_pending s _ _ _
@[simp] theorem State.cnt32_hz9620 (p off d : Nat) : (s.cnt32 p off d).hz9620 = s.hz9620 := State.cntWrap_hz9620 s _ _ _
@[simp] theorem State.cnt32_tabs (p off d : Nat) : (s.cnt32 p off d).tabs = s.tabs := State.cntWrap_tabs s _ _ _
@[simp] theorem State.cnt32_mem (p off d : Nat) : (s.cnt32 p off d).mem = s.mem := State.cntWrap_mem s _ _ _
@[simp] theorem State.cnt32_resp (p off d : Nat) : (s.cnt32 p off d).resp = s.resp := State.cntWrap_resp s _ _ _
@[simp] theorem State.cnt32_out (p off d : Nat) : (s.cnt32 p off d).out = s.out := State.cntWrap_out s _ _ _
@[simp] theorem State.cnt32_fresh (p off d : Nat) : (s.cnt32 p off d).fresh = s.fresh := State.cntWrap_fresh s _ _ _
@[simp] theorem State.cnt32_posts (p off d : Nat) : (s.cnt32 p off d).posts = s.posts := State.cntWrap_posts s _ _ _
@[simp] theorem State.cnt32_shell (p off d : Nat) : (s.cnt32 p off d).shell = s.shell := State.cntWrap_shell s _ _ _
@[simp] theorem State.cnt32_tb (p off d : Nat) : (s.cnt32 p off d).tb = s.tb := State.cntWrap_tb s _ _ _
@[simp] theorem State.cnt32_plate (p off d : Nat) : (s.cnt32 p off d).plate = s.plate := State.cntWrap_plate s _ _ _
@[simp] theorem State.cnt32_sw (p off d : Nat) : (s.cnt32 p off d).sw = s.sw := State.cntWrap_sw s _ _ _
@[simp] theorem State.cnt32_badEntries (p off d : Nat) : (s.cnt32 p off d).badEntries = s.badEntries := State.cntWrap_badEntries s _ _ _
@[simp] theorem State.cnt32_gwIn (p off d : Nat) : (s.cnt32 p off d).gwIn = s.gwIn := State.cntWrap_gwIn s _ _ _
@[simp] theorem State.cnt32_can (p off d : Nat) : (s.cnt32 p off d).can = s.can := State.cntWrap_can s _ _ _
@[simp] theorem State.cnt32_lin (p off d : Nat) : (s.cnt32 p off d).lin = s.lin := State.cntWrap_lin s _ _ _
@[simp] theorem State.cnt32_gw (p off d : Nat) : (s.cnt32 p off d).gw = s.gw := State.cntWrap_gw s _ _ _
@[simp] theorem State.cnt32_chans (p off d : Nat) : (s.cnt32 p off d).chans = s.chans := State.cntWrap_chans s _ _ _
@[simp] theorem State.cnt32_dies (p off d : Nat) : (s.cnt32 p off d).dies = s.dies := State.cntWrap_dies s _ _ _
@[simp] theorem State.cnt32_selLands (p off d : Nat) : (s.cnt32 p off d).selLands = s.selLands := State.cntWrap_selLands s _ _ _
@[simp] theorem State.cnt32_claim (p off d : Nat) : (s.cnt32 p off d).claim = s.claim := State.cntWrap_claim s _ _ _
@[simp] theorem State.cnt32_dins (p off d : Nat) : (s.cnt32 p off d).dins = s.dins := State.cntWrap_dins s _ _ _
@[simp] theorem State.cnt32_ains (p off d : Nat) : (s.cnt32 p off d).ains = s.ains := State.cntWrap_ains s _ _ _
@[simp] theorem State.cnt32_scan (p off d : Nat) : (s.cnt32 p off d).scan = s.scan := State.cntWrap_scan s _ _ _
@[simp] theorem State.cnt32_disarmed (p off d : Nat) : (s.cnt32 p off d).disarmed = s.disarmed := State.cntWrap_disarmed s _ _ _
@[simp] theorem State.cnt32_bridges (p off d : Nat) : (s.cnt32 p off d).bridges = s.bridges := State.cntWrap_bridges s _ _ _
@[simp] theorem State.cnt32_phoask (p off d : Nat) : (s.cnt32 p off d).phoask = s.phoask := State.cntWrap_phoask s _ _ _
@[simp] theorem State.cnt32_twin (p off d : Nat) : (s.cnt32 p off d).twin = s.twin := State.cntWrap_twin s _ _ _
@[simp] theorem State.cnt32_mig (p off d : Nat) : (s.cnt32 p off d).mig = s.mig := State.cntWrap_mig s _ _ _
@[simp] theorem State.cnt32_cal (p off d : Nat) : (s.cnt32 p off d).cal = s.cal := State.cntWrap_cal s _ _ _
@[simp] theorem State.cnt32_cfaultA (p off d : Nat) : (s.cnt32 p off d).cfaultA = s.cfaultA := State.cntWrap_cfaultA s _ _ _
@[simp] theorem State.cnt32_cfaultP (p off d : Nat) : (s.cnt32 p off d).cfaultP = s.cfaultP := State.cntWrap_cfaultP s _ _ _
@[simp] theorem State.cnt32_cores (p off d : Nat) : (s.cnt32 p off d).cores = s.cores := State.cntWrap_cores s _ _ _
@[simp] theorem State.cnt32_swLines (p off d : Nat) : (s.cnt32 p off d).swLines = s.swLines := State.cntWrap_swLines s _ _ _
@[simp] theorem State.cnt32_poisonLines (p off d : Nat) : (s.cnt32 p off d).poisonLines = s.poisonLines := State.cntWrap_poisonLines s _ _ _
@[simp] theorem State.cnt32_xlat (p off d : Nat) : (s.cnt32 p off d).xlat = s.xlat := State.cntWrap_xlat s _ _ _
@[simp] theorem State.cnt32_dplFilter (p off d : Nat) : (s.cnt32 p off d).dplFilter = s.dplFilter := State.cntWrap_dplFilter s _ _ _
@[simp] theorem State.cnt32_norOps (p off d : Nat) : (s.cnt32 p off d).norOps = s.norOps := State.cntWrap_norOps s _ _ _
@[simp] theorem State.cnt32_norWear (p off d : Nat) : (s.cnt32 p off d).norWear = s.norWear := State.cntWrap_norWear s _ _ _
@[simp] theorem State.cnt32_fuses (p off d : Nat) : (s.cnt32 p off d).fuses = s.fuses := State.cntWrap_fuses s _ _ _
@[simp] theorem State.cnt32_fuseOp (p off d : Nat) : (s.cnt32 p off d).fuseOp = s.fuseOp := State.cntWrap_fuseOp s _ _ _
@[simp] theorem State.cnt32_refiBase (p off d : Nat) : (s.cnt32 p off d).refiBase = s.refiBase := State.cntWrap_refiBase s _ _ _
@[simp] theorem State.cnt32_scrSram (p off d : Nat) : (s.cnt32 p off d).scrSram = s.scrSram := State.cntWrap_scrSram s _ _ _
@[simp] theorem State.cnt32_scrCkpt (p off d : Nat) : (s.cnt32 p off d).scrCkpt = s.scrCkpt := State.cntWrap_scrCkpt s _ _ _
@[simp] theorem State.cnt32_slotBad (p off d : Nat) : (s.cnt32 p off d).slotBad = s.slotBad := State.cntWrap_slotBad s _ _ _
@[simp] theorem State.cnt32_sec (p off d : Nat) : (s.cnt32 p off d).sec = s.sec := State.cntWrap_sec s _ _ _
@[simp] theorem State.cnt32_upd (p off d : Nat) : (s.cnt32 p off d).upd = s.upd := State.cntWrap_upd s _ _ _
@[simp] theorem State.cnt32_up (p off d : Nat) : (s.cnt32 p off d).up = s.up := State.cntWrap_up s _ _ _
@[simp] theorem State.cnt32_clk (p off d : Nat) : (s.cnt32 p off d).clk = s.clk := State.cntWrap_clk s _ _ _
@[simp] theorem State.cnt32_slp (p off d : Nat) : (s.cnt32 p off d).slp = s.slp := State.cntWrap_slp s _ _ _
@[simp] theorem State.cnt32_health (p off d : Nat) : (s.cnt32 p off d).health = s.health := State.cntWrap_health s _ _ _
@[simp] theorem State.cnt32_hon (p off d : Nat) : (s.cnt32 p off d).hon = s.hon := State.cntWrap_hon s _ _ _

@[simp] theorem State.plain_pending (p off : Nat) (v : Word) : (s.plain p off v).pending = s.pending := by unfold State.plain; split <;> rfl
@[simp] theorem State.plain_hz9620 (p off : Nat) (v : Word) : (s.plain p off v).hz9620 = s.hz9620 := by unfold State.plain; split <;> rfl
@[simp] theorem State.plain_tabs (p off : Nat) (v : Word) : (s.plain p off v).tabs = s.tabs := by unfold State.plain; split <;> rfl
@[simp] theorem State.plain_mem (p off : Nat) (v : Word) : (s.plain p off v).mem = s.mem := by unfold State.plain; split <;> rfl
@[simp] theorem State.plain_resp (p off : Nat) (v : Word) : (s.plain p off v).resp = s.resp := by unfold State.plain; split <;> rfl
@[simp] theorem State.plain_out (p off : Nat) (v : Word) : (s.plain p off v).out = s.out := by unfold State.plain; split <;> rfl
@[simp] theorem State.plain_fresh (p off : Nat) (v : Word) : (s.plain p off v).fresh = s.fresh := by unfold State.plain; split <;> rfl
@[simp] theorem State.plain_posts (p off : Nat) (v : Word) : (s.plain p off v).posts = s.posts := by unfold State.plain; split <;> rfl
@[simp] theorem State.plain_shell (p off : Nat) (v : Word) : (s.plain p off v).shell = s.shell := by unfold State.plain; split <;> rfl
@[simp] theorem State.plain_tb (p off : Nat) (v : Word) : (s.plain p off v).tb = s.tb := by unfold State.plain; split <;> rfl
@[simp] theorem State.plain_plate (p off : Nat) (v : Word) : (s.plain p off v).plate = s.plate := by unfold State.plain; split <;> rfl
@[simp] theorem State.plain_sw (p off : Nat) (v : Word) : (s.plain p off v).sw = s.sw := by unfold State.plain; split <;> rfl
@[simp] theorem State.plain_badEntries (p off : Nat) (v : Word) : (s.plain p off v).badEntries = s.badEntries := by unfold State.plain; split <;> rfl
@[simp] theorem State.plain_gwIn (p off : Nat) (v : Word) : (s.plain p off v).gwIn = s.gwIn := by unfold State.plain; split <;> rfl
@[simp] theorem State.plain_can (p off : Nat) (v : Word) : (s.plain p off v).can = s.can := by unfold State.plain; split <;> rfl
@[simp] theorem State.plain_lin (p off : Nat) (v : Word) : (s.plain p off v).lin = s.lin := by unfold State.plain; split <;> rfl
@[simp] theorem State.plain_gw (p off : Nat) (v : Word) : (s.plain p off v).gw = s.gw := by unfold State.plain; split <;> rfl
@[simp] theorem State.plain_chans (p off : Nat) (v : Word) : (s.plain p off v).chans = s.chans := by unfold State.plain; split <;> rfl
@[simp] theorem State.plain_dies (p off : Nat) (v : Word) : (s.plain p off v).dies = s.dies := by unfold State.plain; split <;> rfl
@[simp] theorem State.plain_selLands (p off : Nat) (v : Word) : (s.plain p off v).selLands = s.selLands := by unfold State.plain; split <;> rfl
@[simp] theorem State.plain_claim (p off : Nat) (v : Word) : (s.plain p off v).claim = s.claim := by unfold State.plain; split <;> rfl
@[simp] theorem State.plain_dins (p off : Nat) (v : Word) : (s.plain p off v).dins = s.dins := by unfold State.plain; split <;> rfl
@[simp] theorem State.plain_ains (p off : Nat) (v : Word) : (s.plain p off v).ains = s.ains := by unfold State.plain; split <;> rfl
@[simp] theorem State.plain_scan (p off : Nat) (v : Word) : (s.plain p off v).scan = s.scan := by unfold State.plain; split <;> rfl
@[simp] theorem State.plain_disarmed (p off : Nat) (v : Word) : (s.plain p off v).disarmed = s.disarmed := by unfold State.plain; split <;> rfl
@[simp] theorem State.plain_bridges (p off : Nat) (v : Word) : (s.plain p off v).bridges = s.bridges := by unfold State.plain; split <;> rfl
@[simp] theorem State.plain_phoask (p off : Nat) (v : Word) : (s.plain p off v).phoask = s.phoask := by unfold State.plain; split <;> rfl
@[simp] theorem State.plain_twin (p off : Nat) (v : Word) : (s.plain p off v).twin = s.twin := by unfold State.plain; split <;> rfl
@[simp] theorem State.plain_mig (p off : Nat) (v : Word) : (s.plain p off v).mig = s.mig := by unfold State.plain; split <;> rfl
@[simp] theorem State.plain_cal (p off : Nat) (v : Word) : (s.plain p off v).cal = s.cal := by unfold State.plain; split <;> rfl
@[simp] theorem State.plain_cfaultA (p off : Nat) (v : Word) : (s.plain p off v).cfaultA = s.cfaultA := by unfold State.plain; split <;> rfl
@[simp] theorem State.plain_cfaultP (p off : Nat) (v : Word) : (s.plain p off v).cfaultP = s.cfaultP := by unfold State.plain; split <;> rfl
@[simp] theorem State.plain_cores (p off : Nat) (v : Word) : (s.plain p off v).cores = s.cores := by unfold State.plain; split <;> rfl
@[simp] theorem State.plain_swLines (p off : Nat) (v : Word) : (s.plain p off v).swLines = s.swLines := by unfold State.plain; split <;> rfl
@[simp] theorem State.plain_poisonLines (p off : Nat) (v : Word) : (s.plain p off v).poisonLines = s.poisonLines := by unfold State.plain; split <;> rfl
@[simp] theorem State.plain_xlat (p off : Nat) (v : Word) : (s.plain p off v).xlat = s.xlat := by unfold State.plain; split <;> rfl
@[simp] theorem State.plain_dplFilter (p off : Nat) (v : Word) : (s.plain p off v).dplFilter = s.dplFilter := by unfold State.plain; split <;> rfl
@[simp] theorem State.plain_norOps (p off : Nat) (v : Word) : (s.plain p off v).norOps = s.norOps := by unfold State.plain; split <;> rfl
@[simp] theorem State.plain_norWear (p off : Nat) (v : Word) : (s.plain p off v).norWear = s.norWear := by unfold State.plain; split <;> rfl
@[simp] theorem State.plain_fuses (p off : Nat) (v : Word) : (s.plain p off v).fuses = s.fuses := by unfold State.plain; split <;> rfl
@[simp] theorem State.plain_fuseOp (p off : Nat) (v : Word) : (s.plain p off v).fuseOp = s.fuseOp := by unfold State.plain; split <;> rfl
@[simp] theorem State.plain_refiBase (p off : Nat) (v : Word) : (s.plain p off v).refiBase = s.refiBase := by unfold State.plain; split <;> rfl
@[simp] theorem State.plain_scrSram (p off : Nat) (v : Word) : (s.plain p off v).scrSram = s.scrSram := by unfold State.plain; split <;> rfl
@[simp] theorem State.plain_scrCkpt (p off : Nat) (v : Word) : (s.plain p off v).scrCkpt = s.scrCkpt := by unfold State.plain; split <;> rfl
@[simp] theorem State.plain_slotBad (p off : Nat) (v : Word) : (s.plain p off v).slotBad = s.slotBad := by unfold State.plain; split <;> rfl
@[simp] theorem State.plain_sec (p off : Nat) (v : Word) : (s.plain p off v).sec = s.sec := by unfold State.plain; split <;> rfl
@[simp] theorem State.plain_upd (p off : Nat) (v : Word) : (s.plain p off v).upd = s.upd := by unfold State.plain; split <;> rfl
@[simp] theorem State.plain_up (p off : Nat) (v : Word) : (s.plain p off v).up = s.up := by unfold State.plain; split <;> rfl
@[simp] theorem State.plain_clk (p off : Nat) (v : Word) : (s.plain p off v).clk = s.clk := by unfold State.plain; split <;> rfl
@[simp] theorem State.plain_slp (p off : Nat) (v : Word) : (s.plain p off v).slp = s.slp := by unfold State.plain; split <;> rfl
@[simp] theorem State.plain_health (p off : Nat) (v : Word) : (s.plain p off v).health = s.health := by unfold State.plain; split <;> rfl
@[simp] theorem State.plain_hon (p off : Nat) (v : Word) : (s.plain p off v).hon = s.hon := by unfold State.plain; split <;> rfl

@[simp] theorem State.cnt64_pending (p lo hi d : Nat) : (s.cnt64 p lo hi d).pending = s.pending := by unfold State.cnt64; split <;> rfl
@[simp] theorem State.cnt64_hz9620 (p lo hi d : Nat) : (s.cnt64 p lo hi d).hz9620 = s.hz9620 := by unfold State.cnt64; split <;> rfl
@[simp] theorem State.cnt64_tabs (p lo hi d : Nat) : (s.cnt64 p lo hi d).tabs = s.tabs := by unfold State.cnt64; split <;> rfl
@[simp] theorem State.cnt64_mem (p lo hi d : Nat) : (s.cnt64 p lo hi d).mem = s.mem := by unfold State.cnt64; split <;> rfl
@[simp] theorem State.cnt64_resp (p lo hi d : Nat) : (s.cnt64 p lo hi d).resp = s.resp := by unfold State.cnt64; split <;> rfl
@[simp] theorem State.cnt64_out (p lo hi d : Nat) : (s.cnt64 p lo hi d).out = s.out := by unfold State.cnt64; split <;> rfl
@[simp] theorem State.cnt64_fresh (p lo hi d : Nat) : (s.cnt64 p lo hi d).fresh = s.fresh := by unfold State.cnt64; split <;> rfl
@[simp] theorem State.cnt64_posts (p lo hi d : Nat) : (s.cnt64 p lo hi d).posts = s.posts := by unfold State.cnt64; split <;> rfl
@[simp] theorem State.cnt64_shell (p lo hi d : Nat) : (s.cnt64 p lo hi d).shell = s.shell := by unfold State.cnt64; split <;> rfl
@[simp] theorem State.cnt64_tb (p lo hi d : Nat) : (s.cnt64 p lo hi d).tb = s.tb := by unfold State.cnt64; split <;> rfl
@[simp] theorem State.cnt64_plate (p lo hi d : Nat) : (s.cnt64 p lo hi d).plate = s.plate := by unfold State.cnt64; split <;> rfl
@[simp] theorem State.cnt64_sw (p lo hi d : Nat) : (s.cnt64 p lo hi d).sw = s.sw := by unfold State.cnt64; split <;> rfl
@[simp] theorem State.cnt64_badEntries (p lo hi d : Nat) : (s.cnt64 p lo hi d).badEntries = s.badEntries := by unfold State.cnt64; split <;> rfl
@[simp] theorem State.cnt64_gwIn (p lo hi d : Nat) : (s.cnt64 p lo hi d).gwIn = s.gwIn := by unfold State.cnt64; split <;> rfl
@[simp] theorem State.cnt64_can (p lo hi d : Nat) : (s.cnt64 p lo hi d).can = s.can := by unfold State.cnt64; split <;> rfl
@[simp] theorem State.cnt64_lin (p lo hi d : Nat) : (s.cnt64 p lo hi d).lin = s.lin := by unfold State.cnt64; split <;> rfl
@[simp] theorem State.cnt64_gw (p lo hi d : Nat) : (s.cnt64 p lo hi d).gw = s.gw := by unfold State.cnt64; split <;> rfl
@[simp] theorem State.cnt64_chans (p lo hi d : Nat) : (s.cnt64 p lo hi d).chans = s.chans := by unfold State.cnt64; split <;> rfl
@[simp] theorem State.cnt64_dies (p lo hi d : Nat) : (s.cnt64 p lo hi d).dies = s.dies := by unfold State.cnt64; split <;> rfl
@[simp] theorem State.cnt64_selLands (p lo hi d : Nat) : (s.cnt64 p lo hi d).selLands = s.selLands := by unfold State.cnt64; split <;> rfl
@[simp] theorem State.cnt64_claim (p lo hi d : Nat) : (s.cnt64 p lo hi d).claim = s.claim := by unfold State.cnt64; split <;> rfl
@[simp] theorem State.cnt64_dins (p lo hi d : Nat) : (s.cnt64 p lo hi d).dins = s.dins := by unfold State.cnt64; split <;> rfl
@[simp] theorem State.cnt64_ains (p lo hi d : Nat) : (s.cnt64 p lo hi d).ains = s.ains := by unfold State.cnt64; split <;> rfl
@[simp] theorem State.cnt64_scan (p lo hi d : Nat) : (s.cnt64 p lo hi d).scan = s.scan := by unfold State.cnt64; split <;> rfl
@[simp] theorem State.cnt64_disarmed (p lo hi d : Nat) : (s.cnt64 p lo hi d).disarmed = s.disarmed := by unfold State.cnt64; split <;> rfl
@[simp] theorem State.cnt64_bridges (p lo hi d : Nat) : (s.cnt64 p lo hi d).bridges = s.bridges := by unfold State.cnt64; split <;> rfl
@[simp] theorem State.cnt64_phoask (p lo hi d : Nat) : (s.cnt64 p lo hi d).phoask = s.phoask := by unfold State.cnt64; split <;> rfl
@[simp] theorem State.cnt64_twin (p lo hi d : Nat) : (s.cnt64 p lo hi d).twin = s.twin := by unfold State.cnt64; split <;> rfl
@[simp] theorem State.cnt64_mig (p lo hi d : Nat) : (s.cnt64 p lo hi d).mig = s.mig := by unfold State.cnt64; split <;> rfl
@[simp] theorem State.cnt64_cal (p lo hi d : Nat) : (s.cnt64 p lo hi d).cal = s.cal := by unfold State.cnt64; split <;> rfl
@[simp] theorem State.cnt64_cfaultA (p lo hi d : Nat) : (s.cnt64 p lo hi d).cfaultA = s.cfaultA := by unfold State.cnt64; split <;> rfl
@[simp] theorem State.cnt64_cfaultP (p lo hi d : Nat) : (s.cnt64 p lo hi d).cfaultP = s.cfaultP := by unfold State.cnt64; split <;> rfl
@[simp] theorem State.cnt64_cores (p lo hi d : Nat) : (s.cnt64 p lo hi d).cores = s.cores := by unfold State.cnt64; split <;> rfl
@[simp] theorem State.cnt64_swLines (p lo hi d : Nat) : (s.cnt64 p lo hi d).swLines = s.swLines := by unfold State.cnt64; split <;> rfl
@[simp] theorem State.cnt64_poisonLines (p lo hi d : Nat) : (s.cnt64 p lo hi d).poisonLines = s.poisonLines := by unfold State.cnt64; split <;> rfl
@[simp] theorem State.cnt64_xlat (p lo hi d : Nat) : (s.cnt64 p lo hi d).xlat = s.xlat := by unfold State.cnt64; split <;> rfl
@[simp] theorem State.cnt64_dplFilter (p lo hi d : Nat) : (s.cnt64 p lo hi d).dplFilter = s.dplFilter := by unfold State.cnt64; split <;> rfl
@[simp] theorem State.cnt64_norOps (p lo hi d : Nat) : (s.cnt64 p lo hi d).norOps = s.norOps := by unfold State.cnt64; split <;> rfl
@[simp] theorem State.cnt64_norWear (p lo hi d : Nat) : (s.cnt64 p lo hi d).norWear = s.norWear := by unfold State.cnt64; split <;> rfl
@[simp] theorem State.cnt64_fuses (p lo hi d : Nat) : (s.cnt64 p lo hi d).fuses = s.fuses := by unfold State.cnt64; split <;> rfl
@[simp] theorem State.cnt64_fuseOp (p lo hi d : Nat) : (s.cnt64 p lo hi d).fuseOp = s.fuseOp := by unfold State.cnt64; split <;> rfl
@[simp] theorem State.cnt64_refiBase (p lo hi d : Nat) : (s.cnt64 p lo hi d).refiBase = s.refiBase := by unfold State.cnt64; split <;> rfl
@[simp] theorem State.cnt64_scrSram (p lo hi d : Nat) : (s.cnt64 p lo hi d).scrSram = s.scrSram := by unfold State.cnt64; split <;> rfl
@[simp] theorem State.cnt64_scrCkpt (p lo hi d : Nat) : (s.cnt64 p lo hi d).scrCkpt = s.scrCkpt := by unfold State.cnt64; split <;> rfl
@[simp] theorem State.cnt64_slotBad (p lo hi d : Nat) : (s.cnt64 p lo hi d).slotBad = s.slotBad := by unfold State.cnt64; split <;> rfl
@[simp] theorem State.cnt64_sec (p lo hi d : Nat) : (s.cnt64 p lo hi d).sec = s.sec := by unfold State.cnt64; split <;> rfl
@[simp] theorem State.cnt64_upd (p lo hi d : Nat) : (s.cnt64 p lo hi d).upd = s.upd := by unfold State.cnt64; split <;> rfl
@[simp] theorem State.cnt64_up (p lo hi d : Nat) : (s.cnt64 p lo hi d).up = s.up := by unfold State.cnt64; split <;> rfl
@[simp] theorem State.cnt64_clk (p lo hi d : Nat) : (s.cnt64 p lo hi d).clk = s.clk := by unfold State.cnt64; split <;> rfl
@[simp] theorem State.cnt64_slp (p lo hi d : Nat) : (s.cnt64 p lo hi d).slp = s.slp := by unfold State.cnt64; split <;> rfl
@[simp] theorem State.cnt64_health (p lo hi d : Nat) : (s.cnt64 p lo hi d).health = s.health := by unfold State.cnt64; split <;> rfl
@[simp] theorem State.cnt64_hon (p lo hi d : Nat) : (s.cnt64 p lo hi d).hon = s.hon := by unfold State.cnt64; split <;> rfl

@[simp] theorem State.capture_pending (p code loc : Nat) : (s.capture p code loc).pending = s.pending := by unfold State.capture; dsimp only; split <;> rfl
@[simp] theorem State.capture_hz9620 (p code loc : Nat) : (s.capture p code loc).hz9620 = s.hz9620 := by unfold State.capture; dsimp only; split <;> rfl
@[simp] theorem State.capture_tabs (p code loc : Nat) : (s.capture p code loc).tabs = s.tabs := by unfold State.capture; dsimp only; split <;> rfl
@[simp] theorem State.capture_mem (p code loc : Nat) : (s.capture p code loc).mem = s.mem := by unfold State.capture; dsimp only; split <;> rfl
@[simp] theorem State.capture_resp (p code loc : Nat) : (s.capture p code loc).resp = s.resp := by unfold State.capture; dsimp only; split <;> rfl
@[simp] theorem State.capture_out (p code loc : Nat) : (s.capture p code loc).out = s.out := by unfold State.capture; dsimp only; split <;> rfl
@[simp] theorem State.capture_fresh (p code loc : Nat) : (s.capture p code loc).fresh = s.fresh := by unfold State.capture; dsimp only; split <;> rfl
@[simp] theorem State.capture_posts (p code loc : Nat) : (s.capture p code loc).posts = s.posts := by unfold State.capture; dsimp only; split <;> rfl
@[simp] theorem State.capture_shell (p code loc : Nat) : (s.capture p code loc).shell = s.shell := by unfold State.capture; dsimp only; split <;> rfl
@[simp] theorem State.capture_tb (p code loc : Nat) : (s.capture p code loc).tb = s.tb := by unfold State.capture; dsimp only; split <;> rfl
@[simp] theorem State.capture_plate (p code loc : Nat) : (s.capture p code loc).plate = s.plate := by unfold State.capture; dsimp only; split <;> rfl
@[simp] theorem State.capture_sw (p code loc : Nat) : (s.capture p code loc).sw = s.sw := by unfold State.capture; dsimp only; split <;> rfl
@[simp] theorem State.capture_badEntries (p code loc : Nat) : (s.capture p code loc).badEntries = s.badEntries := by unfold State.capture; dsimp only; split <;> rfl
@[simp] theorem State.capture_gwIn (p code loc : Nat) : (s.capture p code loc).gwIn = s.gwIn := by unfold State.capture; dsimp only; split <;> rfl
@[simp] theorem State.capture_can (p code loc : Nat) : (s.capture p code loc).can = s.can := by unfold State.capture; dsimp only; split <;> rfl
@[simp] theorem State.capture_lin (p code loc : Nat) : (s.capture p code loc).lin = s.lin := by unfold State.capture; dsimp only; split <;> rfl
@[simp] theorem State.capture_gw (p code loc : Nat) : (s.capture p code loc).gw = s.gw := by unfold State.capture; dsimp only; split <;> rfl
@[simp] theorem State.capture_chans (p code loc : Nat) : (s.capture p code loc).chans = s.chans := by unfold State.capture; dsimp only; split <;> rfl
@[simp] theorem State.capture_dies (p code loc : Nat) : (s.capture p code loc).dies = s.dies := by unfold State.capture; dsimp only; split <;> rfl
@[simp] theorem State.capture_selLands (p code loc : Nat) : (s.capture p code loc).selLands = s.selLands := by unfold State.capture; dsimp only; split <;> rfl
@[simp] theorem State.capture_claim (p code loc : Nat) : (s.capture p code loc).claim = s.claim := by unfold State.capture; dsimp only; split <;> rfl
@[simp] theorem State.capture_dins (p code loc : Nat) : (s.capture p code loc).dins = s.dins := by unfold State.capture; dsimp only; split <;> rfl
@[simp] theorem State.capture_ains (p code loc : Nat) : (s.capture p code loc).ains = s.ains := by unfold State.capture; dsimp only; split <;> rfl
@[simp] theorem State.capture_scan (p code loc : Nat) : (s.capture p code loc).scan = s.scan := by unfold State.capture; dsimp only; split <;> rfl
@[simp] theorem State.capture_disarmed (p code loc : Nat) : (s.capture p code loc).disarmed = s.disarmed := by unfold State.capture; dsimp only; split <;> rfl
@[simp] theorem State.capture_bridges (p code loc : Nat) : (s.capture p code loc).bridges = s.bridges := by unfold State.capture; dsimp only; split <;> rfl
@[simp] theorem State.capture_phoask (p code loc : Nat) : (s.capture p code loc).phoask = s.phoask := by unfold State.capture; dsimp only; split <;> rfl
@[simp] theorem State.capture_twin (p code loc : Nat) : (s.capture p code loc).twin = s.twin := by unfold State.capture; dsimp only; split <;> rfl
@[simp] theorem State.capture_mig (p code loc : Nat) : (s.capture p code loc).mig = s.mig := by unfold State.capture; dsimp only; split <;> rfl
@[simp] theorem State.capture_cal (p code loc : Nat) : (s.capture p code loc).cal = s.cal := by unfold State.capture; dsimp only; split <;> rfl
@[simp] theorem State.capture_cfaultA (p code loc : Nat) : (s.capture p code loc).cfaultA = s.cfaultA := by unfold State.capture; dsimp only; split <;> rfl
@[simp] theorem State.capture_cfaultP (p code loc : Nat) : (s.capture p code loc).cfaultP = s.cfaultP := by unfold State.capture; dsimp only; split <;> rfl
@[simp] theorem State.capture_cores (p code loc : Nat) : (s.capture p code loc).cores = s.cores := by unfold State.capture; dsimp only; split <;> rfl
@[simp] theorem State.capture_swLines (p code loc : Nat) : (s.capture p code loc).swLines = s.swLines := by unfold State.capture; dsimp only; split <;> rfl
@[simp] theorem State.capture_poisonLines (p code loc : Nat) : (s.capture p code loc).poisonLines = s.poisonLines := by unfold State.capture; dsimp only; split <;> rfl
@[simp] theorem State.capture_xlat (p code loc : Nat) : (s.capture p code loc).xlat = s.xlat := by unfold State.capture; dsimp only; split <;> rfl
@[simp] theorem State.capture_dplFilter (p code loc : Nat) : (s.capture p code loc).dplFilter = s.dplFilter := by unfold State.capture; dsimp only; split <;> rfl
@[simp] theorem State.capture_norOps (p code loc : Nat) : (s.capture p code loc).norOps = s.norOps := by unfold State.capture; dsimp only; split <;> rfl
@[simp] theorem State.capture_norWear (p code loc : Nat) : (s.capture p code loc).norWear = s.norWear := by unfold State.capture; dsimp only; split <;> rfl
@[simp] theorem State.capture_fuses (p code loc : Nat) : (s.capture p code loc).fuses = s.fuses := by unfold State.capture; dsimp only; split <;> rfl
@[simp] theorem State.capture_fuseOp (p code loc : Nat) : (s.capture p code loc).fuseOp = s.fuseOp := by unfold State.capture; dsimp only; split <;> rfl
@[simp] theorem State.capture_refiBase (p code loc : Nat) : (s.capture p code loc).refiBase = s.refiBase := by unfold State.capture; dsimp only; split <;> rfl
@[simp] theorem State.capture_scrSram (p code loc : Nat) : (s.capture p code loc).scrSram = s.scrSram := by unfold State.capture; dsimp only; split <;> rfl
@[simp] theorem State.capture_scrCkpt (p code loc : Nat) : (s.capture p code loc).scrCkpt = s.scrCkpt := by unfold State.capture; dsimp only; split <;> rfl
@[simp] theorem State.capture_slotBad (p code loc : Nat) : (s.capture p code loc).slotBad = s.slotBad := by unfold State.capture; dsimp only; split <;> rfl
@[simp] theorem State.capture_sec (p code loc : Nat) : (s.capture p code loc).sec = s.sec := by unfold State.capture; dsimp only; split <;> rfl
@[simp] theorem State.capture_upd (p code loc : Nat) : (s.capture p code loc).upd = s.upd := by unfold State.capture; dsimp only; split <;> rfl
@[simp] theorem State.capture_up (p code loc : Nat) : (s.capture p code loc).up = s.up := by unfold State.capture; dsimp only; split <;> rfl
@[simp] theorem State.capture_clk (p code loc : Nat) : (s.capture p code loc).clk = s.clk := by unfold State.capture; dsimp only; split <;> rfl
@[simp] theorem State.capture_slp (p code loc : Nat) : (s.capture p code loc).slp = s.slp := by unfold State.capture; dsimp only; split <;> rfl
@[simp] theorem State.capture_health (p code loc : Nat) : (s.capture p code loc).health = s.health := by unfold State.capture; dsimp only; split <;> rfl
@[simp] theorem State.capture_hon (p code loc : Nat) : (s.capture p code loc).hon = s.hon := by unfold State.capture; dsimp only; split <;> rfl

@[simp] theorem State.post_pending (p code loc : Nat) (j : Bool) : (s.post p code loc j).pending = s.pending := by unfold State.post; dsimp only; split <;> (try split) <;> (try split) <;> simp
@[simp] theorem State.post_hz9620 (p code loc : Nat) (j : Bool) : (s.post p code loc j).hz9620 = s.hz9620 := by unfold State.post; dsimp only; split <;> (try split) <;> (try split) <;> simp
@[simp] theorem State.post_tabs (p code loc : Nat) (j : Bool) : (s.post p code loc j).tabs = s.tabs := by unfold State.post; dsimp only; split <;> (try split) <;> (try split) <;> simp
@[simp] theorem State.post_mem (p code loc : Nat) (j : Bool) : (s.post p code loc j).mem = s.mem := by unfold State.post; dsimp only; split <;> (try split) <;> (try split) <;> simp
@[simp] theorem State.post_resp (p code loc : Nat) (j : Bool) : (s.post p code loc j).resp = s.resp := by unfold State.post; dsimp only; split <;> (try split) <;> (try split) <;> simp
@[simp] theorem State.post_out (p code loc : Nat) (j : Bool) : (s.post p code loc j).out = s.out := by unfold State.post; dsimp only; split <;> (try split) <;> (try split) <;> simp
@[simp] theorem State.post_fresh (p code loc : Nat) (j : Bool) : (s.post p code loc j).fresh = s.fresh := by unfold State.post; dsimp only; split <;> (try split) <;> (try split) <;> simp
@[simp] theorem State.post_shell (p code loc : Nat) (j : Bool) : (s.post p code loc j).shell = s.shell := by unfold State.post; dsimp only; split <;> (try split) <;> (try split) <;> simp
@[simp] theorem State.post_tb (p code loc : Nat) (j : Bool) : (s.post p code loc j).tb = s.tb := by unfold State.post; dsimp only; split <;> (try split) <;> (try split) <;> simp
@[simp] theorem State.post_plate (p code loc : Nat) (j : Bool) : (s.post p code loc j).plate = s.plate := by unfold State.post; dsimp only; split <;> (try split) <;> (try split) <;> simp
@[simp] theorem State.post_sw (p code loc : Nat) (j : Bool) : (s.post p code loc j).sw = s.sw := by unfold State.post; dsimp only; split <;> (try split) <;> (try split) <;> simp
@[simp] theorem State.post_badEntries (p code loc : Nat) (j : Bool) : (s.post p code loc j).badEntries = s.badEntries := by unfold State.post; dsimp only; split <;> (try split) <;> (try split) <;> simp
@[simp] theorem State.post_gwIn (p code loc : Nat) (j : Bool) : (s.post p code loc j).gwIn = s.gwIn := by unfold State.post; dsimp only; split <;> (try split) <;> (try split) <;> simp
@[simp] theorem State.post_can (p code loc : Nat) (j : Bool) : (s.post p code loc j).can = s.can := by unfold State.post; dsimp only; split <;> (try split) <;> (try split) <;> simp
@[simp] theorem State.post_lin (p code loc : Nat) (j : Bool) : (s.post p code loc j).lin = s.lin := by unfold State.post; dsimp only; split <;> (try split) <;> (try split) <;> simp
@[simp] theorem State.post_gw (p code loc : Nat) (j : Bool) : (s.post p code loc j).gw = s.gw := by unfold State.post; dsimp only; split <;> (try split) <;> (try split) <;> simp
@[simp] theorem State.post_chans (p code loc : Nat) (j : Bool) : (s.post p code loc j).chans = s.chans := by unfold State.post; dsimp only; split <;> (try split) <;> (try split) <;> simp
@[simp] theorem State.post_selLands (p code loc : Nat) (j : Bool) : (s.post p code loc j).selLands = s.selLands := by unfold State.post; dsimp only; split <;> (try split) <;> (try split) <;> simp
@[simp] theorem State.post_claim (p code loc : Nat) (j : Bool) : (s.post p code loc j).claim = s.claim := by unfold State.post; dsimp only; split <;> (try split) <;> (try split) <;> simp
@[simp] theorem State.post_dins (p code loc : Nat) (j : Bool) : (s.post p code loc j).dins = s.dins := by unfold State.post; dsimp only; split <;> (try split) <;> (try split) <;> simp
@[simp] theorem State.post_ains (p code loc : Nat) (j : Bool) : (s.post p code loc j).ains = s.ains := by unfold State.post; dsimp only; split <;> (try split) <;> (try split) <;> simp
@[simp] theorem State.post_scan (p code loc : Nat) (j : Bool) : (s.post p code loc j).scan = s.scan := by unfold State.post; dsimp only; split <;> (try split) <;> (try split) <;> simp
@[simp] theorem State.post_disarmed (p code loc : Nat) (j : Bool) : (s.post p code loc j).disarmed = s.disarmed := by unfold State.post; dsimp only; split <;> (try split) <;> (try split) <;> simp
@[simp] theorem State.post_bridges (p code loc : Nat) (j : Bool) : (s.post p code loc j).bridges = s.bridges := by unfold State.post; dsimp only; split <;> (try split) <;> (try split) <;> simp
@[simp] theorem State.post_phoask (p code loc : Nat) (j : Bool) : (s.post p code loc j).phoask = s.phoask := by unfold State.post; dsimp only; split <;> (try split) <;> (try split) <;> simp
@[simp] theorem State.post_twin (p code loc : Nat) (j : Bool) : (s.post p code loc j).twin = s.twin := by unfold State.post; dsimp only; split <;> (try split) <;> (try split) <;> simp
@[simp] theorem State.post_mig (p code loc : Nat) (j : Bool) : (s.post p code loc j).mig = s.mig := by unfold State.post; dsimp only; split <;> (try split) <;> (try split) <;> simp
@[simp] theorem State.post_cal (p code loc : Nat) (j : Bool) : (s.post p code loc j).cal = s.cal := by unfold State.post; dsimp only; split <;> (try split) <;> (try split) <;> simp
@[simp] theorem State.post_cfaultA (p code loc : Nat) (j : Bool) : (s.post p code loc j).cfaultA = s.cfaultA := by unfold State.post; dsimp only; split <;> (try split) <;> (try split) <;> simp
@[simp] theorem State.post_cfaultP (p code loc : Nat) (j : Bool) : (s.post p code loc j).cfaultP = s.cfaultP := by unfold State.post; dsimp only; split <;> (try split) <;> (try split) <;> simp
@[simp] theorem State.post_cores (p code loc : Nat) (j : Bool) : (s.post p code loc j).cores = s.cores := by unfold State.post; dsimp only; split <;> (try split) <;> (try split) <;> simp
@[simp] theorem State.post_swLines (p code loc : Nat) (j : Bool) : (s.post p code loc j).swLines = s.swLines := by unfold State.post; dsimp only; split <;> (try split) <;> (try split) <;> simp
@[simp] theorem State.post_poisonLines (p code loc : Nat) (j : Bool) : (s.post p code loc j).poisonLines = s.poisonLines := by unfold State.post; dsimp only; split <;> (try split) <;> (try split) <;> simp
@[simp] theorem State.post_xlat (p code loc : Nat) (j : Bool) : (s.post p code loc j).xlat = s.xlat := by unfold State.post; dsimp only; split <;> (try split) <;> (try split) <;> simp
@[simp] theorem State.post_dplFilter (p code loc : Nat) (j : Bool) : (s.post p code loc j).dplFilter = s.dplFilter := by unfold State.post; dsimp only; split <;> (try split) <;> (try split) <;> simp
@[simp] theorem State.post_norOps (p code loc : Nat) (j : Bool) : (s.post p code loc j).norOps = s.norOps := by unfold State.post; dsimp only; split <;> (try split) <;> (try split) <;> simp
@[simp] theorem State.post_norWear (p code loc : Nat) (j : Bool) : (s.post p code loc j).norWear = s.norWear := by unfold State.post; dsimp only; split <;> (try split) <;> (try split) <;> simp
@[simp] theorem State.post_fuses (p code loc : Nat) (j : Bool) : (s.post p code loc j).fuses = s.fuses := by unfold State.post; dsimp only; split <;> (try split) <;> (try split) <;> simp
@[simp] theorem State.post_fuseOp (p code loc : Nat) (j : Bool) : (s.post p code loc j).fuseOp = s.fuseOp := by unfold State.post; dsimp only; split <;> (try split) <;> (try split) <;> simp
@[simp] theorem State.post_refiBase (p code loc : Nat) (j : Bool) : (s.post p code loc j).refiBase = s.refiBase := by unfold State.post; dsimp only; split <;> (try split) <;> (try split) <;> simp
@[simp] theorem State.post_scrSram (p code loc : Nat) (j : Bool) : (s.post p code loc j).scrSram = s.scrSram := by unfold State.post; dsimp only; split <;> (try split) <;> (try split) <;> simp
@[simp] theorem State.post_scrCkpt (p code loc : Nat) (j : Bool) : (s.post p code loc j).scrCkpt = s.scrCkpt := by unfold State.post; dsimp only; split <;> (try split) <;> (try split) <;> simp
@[simp] theorem State.post_slotBad (p code loc : Nat) (j : Bool) : (s.post p code loc j).slotBad = s.slotBad := by unfold State.post; dsimp only; split <;> (try split) <;> (try split) <;> simp
@[simp] theorem State.post_sec (p code loc : Nat) (j : Bool) : (s.post p code loc j).sec = s.sec := by unfold State.post; dsimp only; split <;> (try split) <;> (try split) <;> simp
@[simp] theorem State.post_upd (p code loc : Nat) (j : Bool) : (s.post p code loc j).upd = s.upd := by unfold State.post; dsimp only; split <;> (try split) <;> (try split) <;> simp
@[simp] theorem State.post_up (p code loc : Nat) (j : Bool) : (s.post p code loc j).up = s.up := by unfold State.post; dsimp only; split <;> (try split) <;> (try split) <;> simp
@[simp] theorem State.post_clk (p code loc : Nat) (j : Bool) : (s.post p code loc j).clk = s.clk := by unfold State.post; dsimp only; split <;> (try split) <;> (try split) <;> simp
@[simp] theorem State.post_slp (p code loc : Nat) (j : Bool) : (s.post p code loc j).slp = s.slp := by unfold State.post; dsimp only; split <;> (try split) <;> (try split) <;> simp
@[simp] theorem State.post_health (p code loc : Nat) (j : Bool) : (s.post p code loc j).health = s.health := by unfold State.post; dsimp only; split <;> (try split) <;> (try split) <;> simp
@[simp] theorem State.post_hon (p code loc : Nat) (j : Bool) : (s.post p code loc j).hon = s.hon := by unfold State.post; dsimp only; split <;> (try split) <;> (try split) <;> simp

@[simp] theorem State.err_pending (p code loc : Nat) (j : Bool) : (s.err p code loc j).pending = s.pending := by unfold State.err; dsimp only; split <;> simp
@[simp] theorem State.err_hz9620 (p code loc : Nat) (j : Bool) : (s.err p code loc j).hz9620 = s.hz9620 := by unfold State.err; dsimp only; split <;> simp
@[simp] theorem State.err_tabs (p code loc : Nat) (j : Bool) : (s.err p code loc j).tabs = s.tabs := by unfold State.err; dsimp only; split <;> simp
@[simp] theorem State.err_mem (p code loc : Nat) (j : Bool) : (s.err p code loc j).mem = s.mem := by unfold State.err; dsimp only; split <;> simp
@[simp] theorem State.err_resp (p code loc : Nat) (j : Bool) : (s.err p code loc j).resp = s.resp := by unfold State.err; dsimp only; split <;> simp
@[simp] theorem State.err_out (p code loc : Nat) (j : Bool) : (s.err p code loc j).out = s.out := by unfold State.err; dsimp only; split <;> simp
@[simp] theorem State.err_fresh (p code loc : Nat) (j : Bool) : (s.err p code loc j).fresh = s.fresh := by unfold State.err; dsimp only; split <;> simp
@[simp] theorem State.err_shell (p code loc : Nat) (j : Bool) : (s.err p code loc j).shell = s.shell := by unfold State.err; dsimp only; split <;> simp
@[simp] theorem State.err_tb (p code loc : Nat) (j : Bool) : (s.err p code loc j).tb = s.tb := by unfold State.err; dsimp only; split <;> simp
@[simp] theorem State.err_plate (p code loc : Nat) (j : Bool) : (s.err p code loc j).plate = s.plate := by unfold State.err; dsimp only; split <;> simp
@[simp] theorem State.err_sw (p code loc : Nat) (j : Bool) : (s.err p code loc j).sw = s.sw := by unfold State.err; dsimp only; split <;> simp
@[simp] theorem State.err_badEntries (p code loc : Nat) (j : Bool) : (s.err p code loc j).badEntries = s.badEntries := by unfold State.err; dsimp only; split <;> simp
@[simp] theorem State.err_gwIn (p code loc : Nat) (j : Bool) : (s.err p code loc j).gwIn = s.gwIn := by unfold State.err; dsimp only; split <;> simp
@[simp] theorem State.err_can (p code loc : Nat) (j : Bool) : (s.err p code loc j).can = s.can := by unfold State.err; dsimp only; split <;> simp
@[simp] theorem State.err_lin (p code loc : Nat) (j : Bool) : (s.err p code loc j).lin = s.lin := by unfold State.err; dsimp only; split <;> simp
@[simp] theorem State.err_gw (p code loc : Nat) (j : Bool) : (s.err p code loc j).gw = s.gw := by unfold State.err; dsimp only; split <;> simp
@[simp] theorem State.err_chans (p code loc : Nat) (j : Bool) : (s.err p code loc j).chans = s.chans := by unfold State.err; dsimp only; split <;> simp
@[simp] theorem State.err_selLands (p code loc : Nat) (j : Bool) : (s.err p code loc j).selLands = s.selLands := by unfold State.err; dsimp only; split <;> simp
@[simp] theorem State.err_claim (p code loc : Nat) (j : Bool) : (s.err p code loc j).claim = s.claim := by unfold State.err; dsimp only; split <;> simp
@[simp] theorem State.err_dins (p code loc : Nat) (j : Bool) : (s.err p code loc j).dins = s.dins := by unfold State.err; dsimp only; split <;> simp
@[simp] theorem State.err_ains (p code loc : Nat) (j : Bool) : (s.err p code loc j).ains = s.ains := by unfold State.err; dsimp only; split <;> simp
@[simp] theorem State.err_scan (p code loc : Nat) (j : Bool) : (s.err p code loc j).scan = s.scan := by unfold State.err; dsimp only; split <;> simp
@[simp] theorem State.err_disarmed (p code loc : Nat) (j : Bool) : (s.err p code loc j).disarmed = s.disarmed := by unfold State.err; dsimp only; split <;> simp
@[simp] theorem State.err_bridges (p code loc : Nat) (j : Bool) : (s.err p code loc j).bridges = s.bridges := by unfold State.err; dsimp only; split <;> simp
@[simp] theorem State.err_phoask (p code loc : Nat) (j : Bool) : (s.err p code loc j).phoask = s.phoask := by unfold State.err; dsimp only; split <;> simp
@[simp] theorem State.err_twin (p code loc : Nat) (j : Bool) : (s.err p code loc j).twin = s.twin := by unfold State.err; dsimp only; split <;> simp
@[simp] theorem State.err_mig (p code loc : Nat) (j : Bool) : (s.err p code loc j).mig = s.mig := by unfold State.err; dsimp only; split <;> simp
@[simp] theorem State.err_cal (p code loc : Nat) (j : Bool) : (s.err p code loc j).cal = s.cal := by unfold State.err; dsimp only; split <;> simp
@[simp] theorem State.err_cfaultA (p code loc : Nat) (j : Bool) : (s.err p code loc j).cfaultA = s.cfaultA := by unfold State.err; dsimp only; split <;> simp
@[simp] theorem State.err_cfaultP (p code loc : Nat) (j : Bool) : (s.err p code loc j).cfaultP = s.cfaultP := by unfold State.err; dsimp only; split <;> simp
@[simp] theorem State.err_cores (p code loc : Nat) (j : Bool) : (s.err p code loc j).cores = s.cores := by unfold State.err; dsimp only; split <;> simp
@[simp] theorem State.err_swLines (p code loc : Nat) (j : Bool) : (s.err p code loc j).swLines = s.swLines := by unfold State.err; dsimp only; split <;> simp
@[simp] theorem State.err_poisonLines (p code loc : Nat) (j : Bool) : (s.err p code loc j).poisonLines = s.poisonLines := by unfold State.err; dsimp only; split <;> simp
@[simp] theorem State.err_xlat (p code loc : Nat) (j : Bool) : (s.err p code loc j).xlat = s.xlat := by unfold State.err; dsimp only; split <;> simp
@[simp] theorem State.err_dplFilter (p code loc : Nat) (j : Bool) : (s.err p code loc j).dplFilter = s.dplFilter := by unfold State.err; dsimp only; split <;> simp
@[simp] theorem State.err_norOps (p code loc : Nat) (j : Bool) : (s.err p code loc j).norOps = s.norOps := by unfold State.err; dsimp only; split <;> simp
@[simp] theorem State.err_norWear (p code loc : Nat) (j : Bool) : (s.err p code loc j).norWear = s.norWear := by unfold State.err; dsimp only; split <;> simp
@[simp] theorem State.err_fuses (p code loc : Nat) (j : Bool) : (s.err p code loc j).fuses = s.fuses := by unfold State.err; dsimp only; split <;> simp
@[simp] theorem State.err_fuseOp (p code loc : Nat) (j : Bool) : (s.err p code loc j).fuseOp = s.fuseOp := by unfold State.err; dsimp only; split <;> simp
@[simp] theorem State.err_refiBase (p code loc : Nat) (j : Bool) : (s.err p code loc j).refiBase = s.refiBase := by unfold State.err; dsimp only; split <;> simp
@[simp] theorem State.err_scrSram (p code loc : Nat) (j : Bool) : (s.err p code loc j).scrSram = s.scrSram := by unfold State.err; dsimp only; split <;> simp
@[simp] theorem State.err_scrCkpt (p code loc : Nat) (j : Bool) : (s.err p code loc j).scrCkpt = s.scrCkpt := by unfold State.err; dsimp only; split <;> simp
@[simp] theorem State.err_slotBad (p code loc : Nat) (j : Bool) : (s.err p code loc j).slotBad = s.slotBad := by unfold State.err; dsimp only; split <;> simp
@[simp] theorem State.err_sec (p code loc : Nat) (j : Bool) : (s.err p code loc j).sec = s.sec := by unfold State.err; dsimp only; split <;> simp
@[simp] theorem State.err_upd (p code loc : Nat) (j : Bool) : (s.err p code loc j).upd = s.upd := by unfold State.err; dsimp only; split <;> simp
@[simp] theorem State.err_up (p code loc : Nat) (j : Bool) : (s.err p code loc j).up = s.up := by unfold State.err; dsimp only; split <;> simp
@[simp] theorem State.err_clk (p code loc : Nat) (j : Bool) : (s.err p code loc j).clk = s.clk := by unfold State.err; dsimp only; split <;> simp
@[simp] theorem State.err_slp (p code loc : Nat) (j : Bool) : (s.err p code loc j).slp = s.slp := by unfold State.err; dsimp only; split <;> simp
@[simp] theorem State.err_health (p code loc : Nat) (j : Bool) : (s.err p code loc j).health = s.health := by unfold State.err; dsimp only; split <;> simp
@[simp] theorem State.err_hon (p code loc : Nat) (j : Bool) : (s.err p code loc j).hon = s.hon := by unfold State.err; dsimp only; split <;> simp

@[simp] theorem State.answer_resp (r : RespStatus) (n : Nat) : (s.answer r n).resp = ⟨r, n⟩ := rfl
@[simp] theorem State.ok_resp (n : Nat) : (s.ok n).resp = ⟨.ok, n⟩ := rfl
@[simp] theorem State.refused_resp : s.refused.resp = ⟨.error, 0⟩ := rfl
@[simp] theorem State.emit_out (o : Out) : (s.emit o).out = s.out ++ [o] := rfl
@[simp] theorem State.took_fresh : s.took.fresh = s.fresh + 1 := rfl
@[simp] theorem State.advance_clocks (n : Nat) : (s.advance n).tb.clocks = s.tb.clocks + n := rfl

/-! Reads of the register file past updates of other fields. -/

@[simp] theorem State.rd_tset (i j w n : Nat) (q o : Nat) : (s.tset i j w n).rd q o = s.rd q o := rfl
@[simp] theorem State.get_tset (i j w n : Nat) (q : Nat) (g : Fld) : (s.tset i j w n).get q g = s.get q g := rfl
@[simp] theorem State.on_tset (i j w n : Nat) (q : Nat) (g : Fld) : (s.tset i j w n).on q g = s.on q g := rfl
@[simp] theorem State.rd_tfSet (i j : Nat) (f : TFld) (n : Nat) (q o : Nat) : (s.tfSet i j f n).rd q o = s.rd q o := rfl
@[simp] theorem State.get_tfSet (i j : Nat) (f : TFld) (n : Nat) (q : Nat) (g : Fld) : (s.tfSet i j f n).get q g = s.get q g := rfl
@[simp] theorem State.on_tfSet (i j : Nat) (f : TFld) (n : Nat) (q : Nat) (g : Fld) : (s.tfSet i j f n).on q g = s.on q g := rfl
@[simp] theorem State.rd_setByte (a n : Nat) (q o : Nat) : (s.setByte a n).rd q o = s.rd q o := rfl
@[simp] theorem State.get_setByte (a n : Nat) (q : Nat) (g : Fld) : (s.setByte a n).get q g = s.get q g := rfl
@[simp] theorem State.on_setByte (a n : Nat) (q : Nat) (g : Fld) : (s.setByte a n).on q g = s.on q g := rfl
@[simp] theorem State.rd_emit (x : Out) (q o : Nat) : (s.emit x).rd q o = s.rd q o := rfl
@[simp] theorem State.get_emit (x : Out) (q : Nat) (g : Fld) : (s.emit x).get q g = s.get q g := rfl
@[simp] theorem State.on_emit (x : Out) (q : Nat) (g : Fld) : (s.emit x).on q g = s.on q g := rfl
@[simp] theorem State.rd_took (q o : Nat) : (s.took).rd q o = s.rd q o := rfl
@[simp] theorem State.get_took (q : Nat) (g : Fld) : (s.took).get q g = s.get q g := rfl
@[simp] theorem State.on_took (q : Nat) (g : Fld) : (s.took).on q g = s.on q g := rfl
@[simp] theorem State.rd_answer (r : RespStatus) (n : Nat) (q o : Nat) : (s.answer r n).rd q o = s.rd q o := rfl
@[simp] theorem State.get_answer (r : RespStatus) (n : Nat) (q : Nat) (g : Fld) : (s.answer r n).get q g = s.get q g := rfl
@[simp] theorem State.on_answer (r : RespStatus) (n : Nat) (q : Nat) (g : Fld) : (s.answer r n).on q g = s.on q g := rfl
@[simp] theorem State.rd_ok (n : Nat) (q o : Nat) : (s.ok n).rd q o = s.rd q o := rfl
@[simp] theorem State.get_ok (n : Nat) (q : Nat) (g : Fld) : (s.ok n).get q g = s.get q g := rfl
@[simp] theorem State.on_ok (n : Nat) (q : Nat) (g : Fld) : (s.ok n).on q g = s.on q g := rfl
@[simp] theorem State.rd_refused (q o : Nat) : (s.refused).rd q o = s.rd q o := rfl
@[simp] theorem State.get_refused (q : Nat) (g : Fld) : (s.refused).get q g = s.get q g := rfl
@[simp] theorem State.on_refused (q : Nat) (g : Fld) : (s.refused).on q g = s.on q g := rfl
@[simp] theorem State.rd_advance (n : Nat) (q o : Nat) : (s.advance n).rd q o = s.rd q o := rfl
@[simp] theorem State.get_advance (n : Nat) (q : Nat) (g : Fld) : (s.advance n).get q g = s.get q g := rfl
@[simp] theorem State.on_advance (n : Nat) (q : Nat) (g : Fld) : (s.advance n).on q g = s.on q g := rfl
@[simp] theorem State.rd_modChan (d i : Nat) (f : ChanState → ChanState) (q o : Nat) : (s.modChan d i f).rd q o = s.rd q o := rfl
@[simp] theorem State.get_modChan (d i : Nat) (f : ChanState → ChanState) (q : Nat) (g : Fld) : (s.modChan d i f).get q g = s.get q g := rfl
@[simp] theorem State.on_modChan (d i : Nat) (f : ChanState → ChanState) (q : Nat) (g : Fld) : (s.modChan d i f).on q g = s.on q g := rfl
@[simp] theorem State.rd_modDie (d : Nat) (f : DieState → DieState) (q o : Nat) : (s.modDie d f).rd q o = s.rd q o := rfl
@[simp] theorem State.get_modDie (d : Nat) (f : DieState → DieState) (q : Nat) (g : Fld) : (s.modDie d f).get q g = s.get q g := rfl
@[simp] theorem State.on_modDie (d : Nat) (f : DieState → DieState) (q : Nat) (g : Fld) : (s.modDie d f).on q g = s.on q g := rfl
@[simp] theorem State.rd_canMod (n : Nat) (f : CanState → CanState) (q o : Nat) : (s.canMod n f).rd q o = s.rd q o := rfl
@[simp] theorem State.get_canMod (n : Nat) (f : CanState → CanState) (q : Nat) (g : Fld) : (s.canMod n f).get q g = s.get q g := rfl
@[simp] theorem State.on_canMod (n : Nat) (f : CanState → CanState) (q : Nat) (g : Fld) : (s.canMod n f).on q g = s.on q g := rfl
@[simp] theorem State.rd_linMod (n : Nat) (f : LinState → LinState) (q o : Nat) : (s.linMod n f).rd q o = s.rd q o := rfl
@[simp] theorem State.get_linMod (n : Nat) (f : LinState → LinState) (q : Nat) (g : Fld) : (s.linMod n f).get q g = s.get q g := rfl
@[simp] theorem State.on_linMod (n : Nat) (f : LinState → LinState) (q : Nat) (g : Fld) : (s.linMod n f).on q g = s.on q g := rfl
@[simp] theorem State.rd_modDin (m : Nat) (f : DinState → DinState) (q o : Nat) : (s.modDin m f).rd q o = s.rd q o := rfl
@[simp] theorem State.get_modDin (m : Nat) (f : DinState → DinState) (q : Nat) (g : Fld) : (s.modDin m f).get q g = s.get q g := rfl
@[simp] theorem State.on_modDin (m : Nat) (f : DinState → DinState) (q : Nat) (g : Fld) : (s.modDin m f).on q g = s.on q g := rfl
@[simp] theorem State.rd_modBridge (b : Nat) (f : BridgeState → BridgeState) (q o : Nat) : (s.modBridge b f).rd q o = s.rd q o := rfl
@[simp] theorem State.get_modBridge (b : Nat) (f : BridgeState → BridgeState) (q : Nat) (g : Fld) : (s.modBridge b f).get q g = s.get q g := rfl
@[simp] theorem State.on_modBridge (b : Nat) (f : BridgeState → BridgeState) (q : Nat) (g : Fld) : (s.modBridge b f).on q g = s.on q g := rfl
@[simp] theorem State.rd_modTwin (f : TwinState → TwinState) (q o : Nat) : (s.modTwin f).rd q o = s.rd q o := rfl
@[simp] theorem State.get_modTwin (f : TwinState → TwinState) (q : Nat) (g : Fld) : (s.modTwin f).get q g = s.get q g := rfl
@[simp] theorem State.on_modTwin (f : TwinState → TwinState) (q : Nat) (g : Fld) : (s.modTwin f).on q g = s.on q g := rfl
@[simp] theorem State.rd_modCore (c : Nat) (f : CoreState → CoreState) (q o : Nat) : (s.modCore c f).rd q o = s.rd q o := rfl
@[simp] theorem State.get_modCore (c : Nat) (f : CoreState → CoreState) (q : Nat) (g : Fld) : (s.modCore c f).get q g = s.get q g := rfl
@[simp] theorem State.on_modCore (c : Nat) (f : CoreState → CoreState) (q : Nat) (g : Fld) : (s.modCore c f).on q g = s.on q g := rfl
@[simp] theorem State.rd_modCal (k : Nat) (f : CalState → CalState) (q o : Nat) : (s.modCal k f).rd q o = s.rd q o := rfl
@[simp] theorem State.get_modCal (k : Nat) (f : CalState → CalState) (q : Nat) (g : Fld) : (s.modCal k f).get q g = s.get q g := rfl
@[simp] theorem State.on_modCal (k : Nat) (f : CalState → CalState) (q : Nat) (g : Fld) : (s.modCal k f).on q g = s.on q g := rfl

/-! Reads of a record update of other fields. -/

variable {t : State}
variable {f_pending f_hz9620 f_tabs f_mem f_resp f_out f_fresh f_posts f_shell f_tb f_plate f_sw f_badEntries f_gwIn f_can f_lin f_gw f_chans f_dies f_selLands f_claim f_dins f_ains f_scan f_disarmed f_bridges f_phoask f_twin f_mig f_cal f_cfaultA f_cfaultP f_cores f_swLines f_poisonLines f_xlat f_dplFilter f_norOps f_norWear f_fuses f_fuseOp f_refiBase f_scrSram f_scrCkpt f_slotBad f_sec f_upd f_up f_clk f_slp f_health f_hon}

@[simp] theorem State.rd_fields (q o : Nat) : State.rd ⟨f_pending, f_hz9620, t.regs, f_tabs, f_mem, f_resp, f_out, f_fresh,
    f_posts, f_shell, f_tb, f_plate, f_sw, f_badEntries, f_gwIn, f_can, f_lin, f_gw, f_chans, f_dies, f_selLands, f_claim,
    f_dins, f_ains, f_scan, f_disarmed, f_bridges, f_phoask, f_twin, f_mig, f_cal, f_cfaultA, f_cfaultP, f_cores, f_swLines,
    f_poisonLines, f_xlat, f_dplFilter, f_norOps, f_norWear, f_fuses, f_fuseOp, f_refiBase, f_scrSram, f_scrCkpt, f_slotBad,
    f_sec, f_upd, f_up, f_clk, f_slp, f_health, f_hon⟩ q o = t.rd q o := rfl
@[simp] theorem State.get_fields (q : Nat) (g : Fld) : State.get ⟨f_pending, f_hz9620, t.regs, f_tabs, f_mem, f_resp, f_out,
    f_fresh, f_posts, f_shell, f_tb, f_plate, f_sw, f_badEntries, f_gwIn, f_can, f_lin, f_gw, f_chans, f_dies, f_selLands,
    f_claim, f_dins, f_ains, f_scan, f_disarmed, f_bridges, f_phoask, f_twin, f_mig, f_cal, f_cfaultA, f_cfaultP, f_cores,
    f_swLines, f_poisonLines, f_xlat, f_dplFilter, f_norOps, f_norWear, f_fuses, f_fuseOp, f_refiBase, f_scrSram, f_scrCkpt,
    f_slotBad, f_sec, f_upd, f_up, f_clk, f_slp, f_health, f_hon⟩ q g = t.get q g := rfl
@[simp] theorem State.on_fields (q : Nat) (g : Fld) : State.on ⟨f_pending, f_hz9620, t.regs, f_tabs, f_mem, f_resp, f_out,
    f_fresh, f_posts, f_shell, f_tb, f_plate, f_sw, f_badEntries, f_gwIn, f_can, f_lin, f_gw, f_chans, f_dies, f_selLands,
    f_claim, f_dins, f_ains, f_scan, f_disarmed, f_bridges, f_phoask, f_twin, f_mig, f_cal, f_cfaultA, f_cfaultP, f_cores,
    f_swLines, f_poisonLines, f_xlat, f_dplFilter, f_norOps, f_norWear, f_fuses, f_fuseOp, f_refiBase, f_scrSram, f_scrCkpt,
    f_slotBad, f_sec, f_upd, f_up, f_clk, f_slp, f_health, f_hon⟩ q g = t.on q g := rfl

end Sys2Proof.Machine
end

