-- ==== Sys2Proof/Laws/Access.lean ====
section
/-!
SUPPORT. Register accesses: an accepted write does its register's effect and nothing else, an accepted read shows the
register, and everything else is a refusal.
-/

namespace Sys2Proof.Machine

/-- An accepted write answers OK and does what the register's rule says. -/
theorem State.regWrite_accepted {s : State} {a : Access} {p off : Nat} {v : Word} {pre : State → Option Nat}
    {eff : State → State} (h : s.Accepts a p off v) (k : pre s = none) : s.regWrite a p off v pre eff = eff s.ok := by
  unfold State.regWrite
  simp only [h.1, h.2.1, h.2.2, k, Bool.not_true, Bool.false_eq_true, if_false]

/-- An accepted write through the register map. -/
theorem State.writeReg_accepted {s : State} {a : Access} {p off : Nat} {v : Word} (h : s.Accepts a p off v)
    (hp : off ≠ PART_REQ) (k : (regHook a p off v).pre s = none) :
    s.writeReg a p off v = (regHook a p off v).eff s.ok := by
  unfold State.writeReg
  rw [if_neg hp, State.regWrite_accepted h k]

/-- A write that a rule of spec/02 refuses. -/
theorem State.regWrite_refused {s : State} {a : Access} {p off c : Nat} {v : Word} {pre : State → Option Nat}
    {eff : State → State} (u : s.up.compute = true) (h : s.accessCause a p off true = some c) :
    s.regWrite a p off v pre eff = s.refuseWrite p off c := by
  unfold State.regWrite
  simp only [u, h, Bool.not_true, Bool.false_eq_true, if_false]

/-- A write ends in no other way: the compute die is in reset, or one cause refuses it, or it is done. -/
theorem State.regWrite_cases (s : State) (a : Access) (p off : Nat) (v : Word) (pre : State → Option Nat)
    (eff : State → State) :
    (s.up.compute = false ∧ s.regWrite a p off v pre eff = s.refused)
    ∨ (∃ c, s.regWrite a p off v pre eff = s.refuseWrite p off c)
    ∨ (s.Accepts a p off v ∧ pre s = none ∧ s.regWrite a p off v pre eff = eff s.ok) := by
  unfold State.regWrite
  by_cases u : s.up.compute = true
  · simp only [u, Bool.not_true, Bool.false_eq_true, if_false]
    cases h : s.accessCause a p off true with
    | some c => exact .inr (.inl ⟨c, rfl⟩)
    | none =>
      dsimp only
      cases k : s.valueCause p off v with
      | some c => exact .inr (.inl ⟨c, rfl⟩)
      | none =>
        dsimp only
        cases e : pre s with
        | some c => exact .inr (.inl ⟨c, rfl⟩)
        | none => exact .inr (.inr ⟨⟨u, h, k⟩, rfl, rfl⟩)
  · have u' : s.up.compute = false := by simpa using u
    exact .inl ⟨u', by simp [u']⟩

/-- An accepted read answers OK with what the register shows. -/
theorem State.regRead_shown {s : State} {a : Access} {p off : Nat} {eff : State → State} (h : s.Shows a p off)
    (k : s.hidden a p off = false) : s.regRead a p off eff = (eff s).ok (s.readReg p off) := by
  unfold State.regRead
  simp only [h.1, h.2, k, Bool.not_true, Bool.false_eq_true, if_false]

/-- Away from the bulk windows of the die bridges a refused write is a refused access. -/
theorem State.refuseWrite_off_bridge {s : State} {p off c : Nat} (h : s.postedTo p (p + off) = none) :
    s.refuseWrite p off c = s.refuse p off c := by
  simp only [State.refuseWrite, h]

/-- A refused access answers with an error and data 0 (R39). -/
theorem State.refuse_resp (s : State) (p off c : Nat) : (s.refuse p off c).resp = ⟨.error, 0⟩ := rfl

end Sys2Proof.Machine
end

