-- ==== Sys2Proof/Laws/Crypto.lean ====
section
/-!
SUPPORT. The substitution tables of AES hold what the definitions over the field give.
-/

namespace Sys2Proof.Machine

theorem subByte_eq : ∀ a < 256, subByte a = sboxOf a := by decide +kernel

theorem invSubByte_eq : ∀ a < 256, invSubByte a = invSboxOf a := by decide +kernel

theorem invSubByte_subByte : ∀ a < 256, invSubByte (subByte a) = a := by decide +kernel

end Sys2Proof.Machine
end

