-- ==== Sys2Proof/Laws/Fields.lean ====
section
/-!
SUPPORT. Bit fields of numbers: a field read after it is set, and beside one that is set.
-/

namespace Sys2Proof.Machine

theorem bitsOf_eq (n lo len : Nat) : bitsOf n lo len = n / 2 ^ lo % 2 ^ len := by
  rw [bitsOf, Nat.shiftRight_eq_div_pow]

theorem bitsOf_lt (n lo len : Nat) : bitsOf n lo len < 2 ^ len := Nat.mod_lt _ (Nat.two_pow_pos _)

/-- The three parts of a number with a field set. -/
theorem putBits_eq (n lo len v : Nat) :
    putBits n lo len v = n % 2 ^ lo + 2 ^ lo * (v % 2 ^ len + 2 ^ len * (n / 2 ^ (lo + len))) := by
  rw [putBits, Nat.shiftRight_eq_div_pow, Nat.pow_add]
  rw [Nat.mul_add, Nat.mul_comm (v % 2 ^ len), ← Nat.mul_assoc (2 ^ lo), Nat.mul_comm (n / _), Nat.add_assoc]

theorem bitsOf_putBits_same (n lo len v : Nat) : bitsOf (putBits n lo len v) lo len = v % 2 ^ len := by
  rw [bitsOf_eq, putBits_eq, Nat.add_mul_div_left _ _ (Nat.two_pow_pos lo), Nat.div_eq_of_lt (Nat.mod_lt _ (Nat.two_pow_pos lo)),
    Nat.zero_add, Nat.add_mul_mod_self_left, Nat.mod_mod]

/-- A number's value modulo a power of two decides each field below it. -/
theorem bitsOf_mod {n m k lo len : Nat} (h : n % 2 ^ k = m % 2 ^ k) (hk : lo + len ≤ k) : bitsOf n lo len = bitsOf m lo len := by
  have aux : ∀ x : Nat, bitsOf x lo len = x % 2 ^ k / 2 ^ lo % 2 ^ len := by
    intro x
    obtain ⟨d, rfl⟩ := Nat.exists_eq_add_of_le hk
    rw [bitsOf_eq, Nat.pow_add, Nat.pow_add, Nat.mul_assoc, Nat.mod_mul_right_div_self, Nat.mod_mul_right_mod]
  rw [aux, aux, h]

theorem putBits_mod (n lo len v : Nat) : putBits n lo len v % 2 ^ lo = n % 2 ^ lo := by
  rw [putBits_eq, Nat.add_mul_mod_self_left, Nat.mod_mod]

theorem putBits_div (n lo len v : Nat) : putBits n lo len v / 2 ^ (lo + len) = n / 2 ^ (lo + len) := by
  rw [putBits_eq, Nat.pow_add, ← Nat.div_div_eq_div_mul, Nat.add_mul_div_left _ _ (Nat.two_pow_pos lo),
    Nat.div_eq_of_lt (Nat.mod_lt n (Nat.two_pow_pos lo)), Nat.zero_add, Nat.add_mul_div_left _ _ (Nat.two_pow_pos len),
    Nat.div_eq_of_lt (Nat.mod_lt v (Nat.two_pow_pos len)), Nat.zero_add]

/-- A field that lies apart from the one that is set. -/
theorem bitsOf_putBits_other {n lo len v lo' len' : Nat} (h : lo' + len' ≤ lo ∨ lo + len ≤ lo') :
    bitsOf (putBits n lo len v) lo' len' = bitsOf n lo' len' := by
  cases h with
  | inl h => exact bitsOf_mod (putBits_mod n lo len v) h
  | inr h =>
    obtain ⟨d, rfl⟩ := Nat.exists_eq_add_of_le h
    rw [bitsOf_eq, bitsOf_eq, Nat.pow_add 2 (lo + len) d, ← Nat.div_div_eq_div_mul, ← Nat.div_div_eq_div_mul, putBits_div]

theorem testBit_bitsOf (n lo len i : Nat) : (bitsOf n lo len).testBit i = (decide (i < len) && n.testBit (lo + i)) := by
  rw [bitsOf, Nat.testBit_mod_two_pow, Nat.testBit_shiftRight]

/-- A field within a field. -/
theorem bitsOf_within {n lo len lo' len' : Nat} (h : lo ≤ lo') (k : lo' + len' ≤ lo + len) :
    bitsOf n lo' len' = bitsOf (bitsOf n lo len) (lo' - lo) len' := by
  apply Nat.eq_of_testBit_eq
  intro i
  rw [testBit_bitsOf, testBit_bitsOf, testBit_bitsOf]
  by_cases hi : i < len'
  · have e1 : lo + (lo' - lo + i) = lo' + i := by omega
    have e2 : lo' - lo + i < len := by omega
    simp [hi, e1, e2]
  · simp [hi]

/-- Setting a field to the bits of a word there gives that word's bits to each field within. -/
theorem bitsOf_putBits_within {n w lo len lo' len' : Nat} (h : lo ≤ lo') (k : lo' + len' ≤ lo + len) :
    bitsOf (putBits n lo len (bitsOf w lo len)) lo' len' = bitsOf w lo' len' := by
  rw [bitsOf_within h k, bitsOf_putBits_same, bitsOf_within h k (n := w)]
  congr 1
  exact Nat.mod_eq_of_lt (bitsOf_lt _ _ _)

end Sys2Proof.Machine
end

