-- ==== Sys2Proof/Laws/Sparse.lean ====
section
/-!
SUPPORT. Sparse lists: a read after a write, and that writes and filters keep the canonical form.
-/

namespace Sys2Proof.Machine

variable {α : Type} [DecidableEq α]

theorem sget_of_lt (d : α) {k : Nat} {dflt : Nat → α} {lo : Nat} (h : k < lo) :
    ∀ {l : List (Nat × α)}, swf dflt lo l = true → sget d k l = d := by
  intro l hl
  cases l with
  | nil => rfl
  | cons e t =>
    simp only [swf, Bool.and_eq_true, decide_eq_true_eq] at hl
    simp only [sget]
    rw [if_neg (by omega), if_pos (by omega)]

theorem swf_mono {dflt : Nat → α} {lo lo' : Nat} (h : lo' ≤ lo) {l : List (Nat × α)} (hl : swf dflt lo l = true) :
    swf dflt lo' l = true := by
  cases l with
  | nil => rfl
  | cons e t =>
    simp only [swf, Bool.and_eq_true, decide_eq_true_eq] at hl ⊢
    exact ⟨⟨by omega, hl.1.2⟩, hl.2⟩

theorem sget_sput_same (d : α) {dflt : Nat → α} (k : Nat) (v : α) :
    ∀ {lo : Nat} {l : List (Nat × α)}, swf dflt lo l = true → sget d k (sput d k v l) = v := by
  intro lo l
  induction l generalizing lo with
  | nil => intro _; by_cases h : v = d <;> simp [sput, sget, h]
  | cons e t ih =>
    intro hl
    have hl' := hl
    simp only [swf, Bool.and_eq_true, decide_eq_true_eq] at hl'
    simp only [sput]
    split
    · next hk =>
      split
      · next hv => simp only [sget]; rw [if_neg (by omega), if_pos hk, hv]
      · simp [sget]
    · split
      · next hk =>
        split
        · next hv => rw [sget_of_lt d (by omega) hl'.2, hv]
        · simp [sget]
      · simp only [sget]
        rw [if_neg (by omega), if_neg (by omega)]
        exact ih hl'.2

theorem sget_sput_other (d d' : α) {dflt : Nat → α} {j k : Nat} (v : α) (hjk : j ≠ k) :
    ∀ {lo : Nat} {l : List (Nat × α)}, swf dflt lo l = true → sget d j (sput d' k v l) = sget d j l := by
  intro lo l
  induction l generalizing lo with
  | nil =>
    intro _
    by_cases h : v = d'
    · simp [sput, h]
    · simp only [sput, if_neg h, sget, if_neg hjk]; split <;> rfl
  | cons e t ih =>
    intro hl
    have hl' := hl
    simp only [swf, Bool.and_eq_true, decide_eq_true_eq] at hl'
    simp only [sput]
    split
    · next hk =>
      split
      · rfl
      · simp only [sget, if_neg hjk]
        split
        · rw [if_neg (by omega), if_pos (by omega)]
        · rfl
    · split
      · next hk =>
        split
        · simp only [sget]
          by_cases hlt : j < e.1
          · rw [if_neg (by omega), if_pos hlt, sget_of_lt d (by omega) hl'.2]
          · rw [if_neg (by omega), if_neg hlt]
        · simp only [sget, if_neg hjk]
          rw [if_neg (by omega : ¬ j = e.1), hk]
      · simp only [sget]
        split
        · rfl
        · split
          · rfl
          · exact ih hl'.2

theorem swf_sput {dflt : Nat → α} {k : Nat} (v : α) :
    ∀ {lo : Nat} {l : List (Nat × α)}, lo ≤ k → swf dflt lo l = true → swf dflt lo (sput (dflt k) k v l) = true := by
  intro lo l
  induction l generalizing lo with
  | nil => intro hk _; by_cases h : v = dflt k <;> simp [sput, swf, h, hk]
  | cons e t ih =>
    intro hk hl
    have hl' := hl
    simp only [swf, Bool.and_eq_true, decide_eq_true_eq] at hl'
    simp only [sput]
    split
    · next hlt =>
      split
      · exact hl
      · next hv =>
        simp only [swf, Bool.and_eq_true, decide_eq_true_eq]
        exact ⟨⟨hk, hv⟩, ⟨⟨by omega, hl'.1.2⟩, hl'.2⟩⟩
    · split
      · next he =>
        split
        · exact swf_mono (by omega) hl'.2
        · next hv =>
          simp only [swf, Bool.and_eq_true, decide_eq_true_eq]
          exact ⟨⟨hk, hv⟩, by rw [he]; exact hl'.2⟩
      · simp only [swf, Bool.and_eq_true, decide_eq_true_eq]
        exact ⟨hl'.1, ih (by omega) hl'.2⟩

theorem swf_filter {dflt : Nat → α} (p : Nat × α → Bool) :
    ∀ {lo : Nat} {l : List (Nat × α)}, swf dflt lo l = true → swf dflt lo (l.filter p) = true := by
  intro lo l
  induction l generalizing lo with
  | nil => intro _; rfl
  | cons e t ih =>
    intro hl
    simp only [swf, Bool.and_eq_true, decide_eq_true_eq] at hl
    simp only [List.filter]
    split
    · simp only [swf, Bool.and_eq_true, decide_eq_true_eq]
      exact ⟨hl.1, ih hl.2⟩
    · exact swf_mono (by omega) (ih hl.2)

/-- What a filtered list holds at a key whose entry the filter keeps. -/
theorem sget_filter_keep (d : α) {dflt : Nat → α} (p : Nat × α → Bool) {k : Nat} (hp : ∀ a, p (k, a) = true) :
    ∀ {lo : Nat} {l : List (Nat × α)}, swf dflt lo l = true → sget d k (l.filter p) = sget d k l := by
  intro lo l
  induction l generalizing lo with
  | nil => intro _; rfl
  | cons e t ih =>
    intro hl
    simp only [swf, Bool.and_eq_true, decide_eq_true_eq] at hl
    simp only [List.filter]
    split
    · simp only [sget]
      split
      · rfl
      · split
        · rfl
        · exact ih hl.2
    · next hf =>
      rw [ih hl.2]
      simp only [sget]
      split
      · next he => rw [he] at hp; exact absurd (hp e.2) (by simp [hf])
      · split
        · next hlt => exact sget_of_lt d (by omega) hl.2
        · rfl

/-- What a filtered list holds at a key whose entry the filter drops. -/
theorem sget_filter_drop (d : α) {dflt : Nat → α} (p : Nat × α → Bool) {k : Nat} (hp : ∀ a, p (k, a) = false) :
    ∀ {lo : Nat} {l : List (Nat × α)}, swf dflt lo l = true → sget d k (l.filter p) = d := by
  intro lo l
  induction l generalizing lo with
  | nil => intro _; rfl
  | cons e t ih =>
    intro hl
    simp only [swf, Bool.and_eq_true, decide_eq_true_eq] at hl
    simp only [List.filter]
    split
    · next hf =>
      simp only [sget]
      split
      · next he => rw [he] at hp; exact absurd (hp e.2) (by simp [hf])
      · split
        · rfl
        · exact ih hl.2
    · exact ih hl.2

end Sys2Proof.Machine
end

