-- ==== Sys2Proof/Laws/Keeps.lean ====
section
/-!
SUPPORT. What every operation keeps: the queue, the variant, the canonical form of the sparse lists, each programmed fuse bit,
the sizes of the lists that hold one entry per unit, and the clocks that have passed. One relation, its rules, and the
operations that write those fields; the other operations follow in Laws/Keeps*.
-/

namespace Sys2Proof.Machine

/-- From s to t the queue and the variant are the same, canonical lists stay canonical, programmed fuse bits stay, lists with
one entry per unit keep their sizes, and clocks do not run back. -/
structure Keeps (s t : State) : Prop where
  pending : t.pending = s.pending
  variant : t.hz9620 = s.hz9620
  good : s.Canonical → t.Canonical ∧ ∀ w b, s.FuseSet w b → t.FuseSet w b
  sized : s.Sized → t.Sized
  clocks : s.tb.clocks ≤ t.tb.clocks

namespace Keeps

theorem refl (s : State) : Keeps s s := ⟨rfl, rfl, fun h => ⟨h, fun _ _ => id⟩, id, Nat.le_refl _⟩

theorem trans {r s t : State} (h : Keeps r s) (k : Keeps s t) : Keeps r t :=
  ⟨k.pending.trans h.pending, k.variant.trans h.variant,
   fun c => ⟨(k.good (h.good c).1).1, fun w b x => (k.good (h.good c).1).2 w b ((h.good c).2 w b x)⟩,
   fun x => k.sized (h.sized x), Nat.le_trans h.clocks k.clocks⟩

/-- A change that leaves queue, variant and fuses, and keeps the three properties of the other fields. -/
theorem and {s t u : State} (h : Keeps s t) (hs : t.Sized → u.Sized) (hc : t.Canonical → u.Canonical := by exact id)
    (hp : u.pending = t.pending := by rfl) (hv : u.hz9620 = t.hz9620 := by rfl) (hf : u.fuses = t.fuses := by rfl)
    (hk : t.tb.clocks ≤ u.tb.clocks := by exact Nat.le_refl _) : Keeps s u := by
  refine h.trans ⟨hp, hv, fun c => ⟨hc c, fun w b x => ?_⟩, hs, hk⟩
  unfold State.FuseSet State.fuse at *
  rw [hf]; exact x

theorem ite {s x y : State} {c : Prop} [Decidable c] (hx : Keeps s x) (hy : Keeps s y) : Keeps s (if c then x else y) := by
  split <;> assumption

theorem fst {α : Type} {s t : State} {p : State × α} {a : α} (e : p = (t, a)) (h : Keeps s p.1) : Keeps s t := by
  rw [e] at h; exact h

theorem mk1 {α : Type} {s t : State} {a : α} (h : Keeps s t) : Keeps s (t, a).1 := h

theorem gwIn {s t : State} {e q} (h : Keeps s t) : Keeps s { t with gwIn := setNth t.gwIn e q } :=
  h.and fun x => by unfold State.Sized at *; simpa [setNth] using x

theorem ains {s t : State} {e q} (h : Keeps s t) : Keeps s { t with ains := setNth t.ains e q } :=
  h.and fun x => by unfold State.Sized at *; simpa [setNth] using x

theorem linSet {s t : State} {e q} (h : Keeps s t) : Keeps s { t with lin := setNth t.lin e q } :=
  h.and fun x => by unfold State.Sized at *; simpa [setNth] using x

theorem calSet {s t : State} {e q} (h : Keeps s t) : Keeps s { t with cal := setNth t.cal e q } :=
  h.and fun x => by unfold State.Sized at *; simpa [setNth] using x

theorem brMod {s t : State} {e q} (h : Keeps s t) : Keeps s { t with bridges := modNth t.bridges e q } :=
  h.and fun x => by unfold State.Sized at *; simpa [modNth] using x

theorem brSet {s t : State} {e q} (h : Keeps s t) : Keeps s { t with bridges := setNth t.bridges e q } :=
  h.and fun x => by unfold State.Sized at *; simpa [setNth] using x

theorem canMod {s t : State} {e q} (h : Keeps s t) : Keeps s { t with can := modNth t.can e q } :=
  h.and fun x => by unfold State.Sized at *; simpa [modNth] using x

theorem linMod {s t : State} {e q} (h : Keeps s t) : Keeps s { t with lin := modNth t.lin e q } :=
  h.and fun x => by unfold State.Sized at *; simpa [modNth] using x

theorem coreMod {s t : State} {e q} (h : Keeps s t) : Keeps s { t with cores := modNth t.cores e q } :=
  h.and fun x => by unfold State.Sized at *; simpa [modNth] using x

theorem dieMod {s t : State} {e q} (h : Keeps s t) : Keeps s { t with dies := modNth t.dies e q } :=
  h.and fun x => by unfold State.Sized at *; simpa [modNth] using x

theorem chanMod {s t : State} {e q} (h : Keeps s t) : Keeps s { t with chans := modNth t.chans e q } :=
  h.and fun x => by unfold State.Sized at *; simpa [modNth] using x

theorem dinMod {s t : State} {e q} (h : Keeps s t) : Keeps s { t with dins := modNth t.dins e q } :=
  h.and fun x => by unfold State.Sized at *; simpa [modNth] using x

theorem coreMap {s t : State} {q} (h : Keeps s t) : Keeps s { t with cores := t.cores.map q } :=
  h.and fun x => by unfold State.Sized at *; simpa using x

theorem dinMap {s t : State} {q} (h : Keeps s t) : Keeps s { t with dins := t.dins.zipIdx.map q } :=
  h.and fun x => by unfold State.Sized at *; simpa using x

theorem ainsReset {s t : State} (h : Keeps s t) : Keeps s { t with ains := State.reset.ains } :=
  h.and fun x => ⟨x.1, x.2.1, x.2.2.1, x.2.2.2.1, x.2.2.2.2.1, x.2.2.2.2.2.1, rfl, x.2.2.2.2.2.2.2⟩

end Keeps

theorem State.wr_keeps {s t : State} {p off : Nat} {w : Word} (h : Keeps s t) : Keeps s (t.wr p off w) :=
  h.trans ⟨rfl, rfl, fun c => ⟨⟨swf_sput w (Nat.zero_le _) c.1, c.2⟩, fun _ _ x => x⟩, id, Nat.le_refl _⟩

theorem State.resetPage_keeps {s t : State} {p : Nat} {k : Nat → Bool} (h : Keeps s t) : Keeps s (t.resetPage p k) :=
  h.trans ⟨rfl, rfl, fun c => ⟨⟨swf_filter _ c.1, c.2⟩, fun _ _ x => x⟩, id, Nat.le_refl _⟩

theorem State.tset_keeps {s t : State} {i j w n : Nat} (h : Keeps s t) : Keeps s (t.tset i j w n) :=
  h.trans ⟨rfl, rfl, fun c => ⟨⟨c.1, swf_sput _ (Nat.zero_le _) c.2.1, c.2.2⟩, fun _ _ x => x⟩, id, Nat.le_refl _⟩

theorem State.setByte_keeps {s t : State} {a n : Nat} (h : Keeps s t) : Keeps s (t.setByte a n) :=
  h.trans ⟨rfl, rfl, fun c => ⟨⟨c.1, c.2.1, swf_sput _ (Nat.zero_le _) c.2.2.1, c.2.2.2⟩, fun _ _ x => x⟩, id, Nat.le_refl _⟩

theorem State.setBytes_keeps {s t : State} {a : Nat} {l : List Nat} (h : Keeps s t) : Keeps s (t.setBytes a l) := by
  induction l generalizing t a with
  | nil => exact h
  | cons b bs ih => exact ih (State.setByte_keeps h)

theorem State.burn_keeps {s t : State} {w bits : Nat} (h : Keeps s t) : Keeps s (t.burn w bits) := by
  refine h.trans ⟨rfl, rfl, fun c => ⟨⟨c.1, c.2.1, c.2.2.1, swf_sput (dflt := fun _ => 0) _ (Nat.zero_le _) c.2.2.2⟩, fun j b x => ?_⟩, id, Nat.le_refl _⟩
  unfold State.FuseSet State.fuse State.burn at *
  by_cases e : j = w
  · subst e
    rw [sget_sput_same 0 j _ c.2.2.2, Nat.testBit_or, x, Bool.true_or]
  · simp only [sget_sput_other 0 0 _ e c.2.2.2, x]

theorem State.each_keeps {α : Type} {s t : State} {l : List α} {f : State → α → State} (h : Keeps s t)
    (hf : ∀ x a, Keeps s x → Keeps s (f x a)) : Keeps s (t.each l f) := by
  unfold State.each
  induction l generalizing t with
  | nil => exact h
  | cons a l ih => exact ih (hf _ _ h)

/-- Memory with some bytes gone. -/
theorem Keeps.memFilter {s t : State} {p : Host.Cell → Bool} (h : Keeps s t) : Keeps s { t with mem := t.mem.filter p } :=
  h.trans ⟨rfl, rfl, fun c => ⟨⟨c.1, c.2.1, swf_filter _ c.2.2.1, c.2.2.2⟩, fun _ _ x => x⟩, id, Nat.le_refl _⟩

/-- Tables with some words gone. -/
theorem Keeps.tabsFilter {s t : State} {p : Nat × Word → Bool} (h : Keeps s t) : Keeps s { t with tabs := t.tabs.filter p } :=
  h.trans ⟨rfl, rfl, fun c => ⟨⟨c.1, swf_filter _ c.2.1, c.2.2⟩, fun _ _ x => x⟩, id, Nat.le_refl _⟩

/-- Registers with some entries gone. -/
theorem Keeps.regsFilter {s t : State} {p : Nat × Word → Bool} (h : Keeps s t) : Keeps s { t with regs := t.regs.filter p } :=
  h.trans ⟨rfl, rfl, fun c => ⟨⟨swf_filter _ c.1, c.2⟩, fun _ _ x => x⟩, id, Nat.le_refl _⟩

theorem State.clearRam_keeps {s t : State} {a n : Nat} (h : Keeps s t) : Keeps s (t.clearRam a n) := Keeps.memFilter h

theorem State.advance_keeps {s t : State} {n : Nat} (h : Keeps s t) : Keeps s (t.advance n) :=
  h.and (fun x => x) (hk := Nat.le_add_right _ _)

theorem Keeps.foldl {α : Type} {s t : State} {l : List α} {f : State → α → State} (h : Keeps s t)
    (hf : ∀ x a, Keeps s x → Keeps s (f x a)) : Keeps s (l.foldl f t) := State.each_keeps h hf

/-- A power die enters reset: its channels and its own state are new. -/
theorem Keeps.dieNew {s t : State} {d : Nat} {o} (h : Keeps s t) : Keeps s { t with
    up.die := setNth t.up.die d false
    chans := (List.range 32).map fun k => if k / 16 = d then ChanState.init (k % 16) else nth t.chans k (ChanState.init (k % 16))
    dies := setNth t.dies d o } :=
  h.and fun x => by unfold State.Sized at *; simp [setNth]; simp [x]

/-- The state right after reset is canonical, and its lists have the chip's sizes. -/
theorem State.reset_canonical : State.reset.Canonical := ⟨rfl, rfl, rfl, rfl⟩

theorem State.reset_sized : State.reset.Sized := by decide

/-- A change of other fields. -/
theorem Keeps.fields {s t : State}
    {f_resp f_out f_fresh f_posts f_shell f_plate f_sw f_badEntries f_gw f_selLands f_claim f_scan f_disarmed f_phoask f_twin
    f_mig f_cfaultA f_cfaultP f_swLines f_poisonLines f_xlat f_dplFilter f_norOps f_norWear f_fuseOp f_refiBase
    f_scrSram f_scrCkpt f_slotBad f_sec f_upd f_clk f_slp f_health f_hon} :
    Keeps s ⟨t.pending, t.hz9620, t.regs, t.tabs, t.mem, f_resp, f_out, f_fresh, f_posts, f_shell, t.tb, f_plate, f_sw,
      f_badEntries, t.gwIn, t.can, t.lin, f_gw, t.chans, t.dies, f_selLands, f_claim, t.dins, t.ains, f_scan,
      f_disarmed, t.bridges, f_phoask, f_twin, f_mig, t.cal, f_cfaultA, f_cfaultP, t.cores, f_swLines,
      f_poisonLines, f_xlat, f_dplFilter, f_norOps, f_norWear, t.fuses, f_fuseOp, f_refiBase, f_scrSram, f_scrCkpt,
      f_slotBad, f_sec, f_upd, t.up, f_clk, f_slp, f_health, f_hon⟩ ↔ Keeps s t :=
  ⟨fun h => ⟨h.pending, h.variant, h.good, h.sized, h.clocks⟩, fun h => ⟨h.pending, h.variant, h.good, h.sized, h.clocks⟩⟩

/-- A change of other fields and of the time base but its clocks. -/
theorem Keeps.fieldsTb {s t : State}
    {f_resp f_out f_fresh f_posts f_shell f_plate f_sw f_badEntries f_gw f_selLands f_claim f_scan f_disarmed f_phoask f_twin
    f_mig f_cfaultA f_cfaultP f_swLines f_poisonLines f_xlat f_dplFilter f_norOps f_norWear f_fuseOp f_refiBase
    f_scrSram f_scrCkpt f_slotBad f_sec f_upd f_clk f_slp f_health f_hon b1 b2 b3 b4 b5 b6} :
    Keeps s ⟨t.pending, t.hz9620, t.regs, t.tabs, t.mem, f_resp, f_out, f_fresh, f_posts, f_shell, ⟨b1, t.tb.clocks, b2, b3,
      b4, b5, b6⟩, f_plate, f_sw, f_badEntries, t.gwIn, t.can, t.lin, f_gw, t.chans, t.dies, f_selLands, f_claim,
      t.dins, t.ains, f_scan, f_disarmed, t.bridges, f_phoask, f_twin, f_mig, t.cal, f_cfaultA, f_cfaultP, t.cores,
      f_swLines, f_poisonLines, f_xlat, f_dplFilter, f_norOps, f_norWear, t.fuses, f_fuseOp, f_refiBase, f_scrSram,
      f_scrCkpt, f_slotBad, f_sec, f_upd, t.up, f_clk, f_slp, f_health, f_hon⟩ ↔ Keeps s t :=
  ⟨fun h => ⟨h.pending, h.variant, h.good, h.sized, h.clocks⟩, fun h => ⟨h.pending, h.variant, h.good, h.sized, h.clocks⟩⟩

/-- A change of other fields and of what is out of reset, but the power dies. -/
theorem Keeps.fieldsUp {s t : State}
    {f_resp f_out f_fresh f_posts f_shell f_plate f_sw f_badEntries f_gw f_selLands f_claim f_scan f_disarmed f_phoask f_twin
    f_mig f_cfaultA f_cfaultP f_swLines f_poisonLines f_xlat f_dplFilter f_norOps f_norWear f_fuseOp f_refiBase
    f_scrSram f_scrCkpt f_slotBad f_sec f_upd f_clk f_slp f_health f_hon u1 u2 u3 u4} :
    Keeps s ⟨t.pending, t.hz9620, t.regs, t.tabs, t.mem, f_resp, f_out, f_fresh, f_posts, f_shell, t.tb, f_plate, f_sw,
      f_badEntries, t.gwIn, t.can, t.lin, f_gw, t.chans, t.dies, f_selLands, f_claim, t.dins, t.ains, f_scan,
      f_disarmed, t.bridges, f_phoask, f_twin, f_mig, t.cal, f_cfaultA, f_cfaultP, t.cores, f_swLines,
      f_poisonLines, f_xlat, f_dplFilter, f_norOps, f_norWear, t.fuses, f_fuseOp, f_refiBase, f_scrSram, f_scrCkpt,
      f_slotBad, f_sec, f_upd, ⟨u1, u2, u3, t.up.die, u4⟩, f_clk, f_slp, f_health, f_hon⟩ ↔ Keeps s t :=
  ⟨fun h => ⟨h.pending, h.variant, h.good, h.sized, h.clocks⟩, fun h => ⟨h.pending, h.variant, h.good, h.sized, h.clocks⟩⟩

/-- Both of these. -/
theorem Keeps.fieldsTbUp {s t : State}
    {f_resp f_out f_fresh f_posts f_shell f_plate f_sw f_badEntries f_gw f_selLands f_claim f_scan f_disarmed f_phoask f_twin
    f_mig f_cfaultA f_cfaultP f_swLines f_poisonLines f_xlat f_dplFilter f_norOps f_norWear f_fuseOp f_refiBase
    f_scrSram f_scrCkpt f_slotBad f_sec f_upd f_clk f_slp f_health f_hon b1 b2 b3 b4 b5 b6 u1 u2 u3 u4} :
    Keeps s ⟨t.pending, t.hz9620, t.regs, t.tabs, t.mem, f_resp, f_out, f_fresh, f_posts, f_shell, ⟨b1, t.tb.clocks, b2, b3,
      b4, b5, b6⟩, f_plate, f_sw, f_badEntries, t.gwIn, t.can, t.lin, f_gw, t.chans, t.dies, f_selLands, f_claim,
      t.dins, t.ains, f_scan, f_disarmed, t.bridges, f_phoask, f_twin, f_mig, t.cal, f_cfaultA, f_cfaultP, t.cores,
      f_swLines, f_poisonLines, f_xlat, f_dplFilter, f_norOps, f_norWear, t.fuses, f_fuseOp, f_refiBase, f_scrSram,
      f_scrCkpt, f_slotBad, f_sec, f_upd, ⟨u1, u2, u3, t.up.die, u4⟩, f_clk, f_slp, f_health, f_hon⟩ ↔ Keeps s t :=
  ⟨fun h => ⟨h.pending, h.variant, h.good, h.sized, h.clocks⟩, fun h => ⟨h.pending, h.variant, h.good, h.sized, h.clocks⟩⟩

end Sys2Proof.Machine
end

