-- ==== Sys2Proof/Laws/Regs.lean ====
section
/-!
SUPPORT. The register file: what a register and a field read after a register or a field has been set, here and elsewhere;
interrupt bits, counters and posted codes. Each law asks for the canonical form of the register file.
-/

namespace Sys2Proof.Machine

/-- The register file is in canonical form. -/
abbrev State.RegsOk (s : State) : Prop := regsWf s.regs = true

theorem State.Canonical.regsOk {s : State} (h : s.Canonical) : s.RegsOk := h.1

@[simp] theorem State.regsOk_wr {s : State} {p off : Nat} {w : Word} (h : s.RegsOk) : (s.wr p off w).RegsOk :=
  swf_sput w (Nat.zero_le _) h

@[simp] theorem State.regsOk_wrn {s : State} {p off n : Nat} (h : s.RegsOk) : (s.wrn p off n).RegsOk := State.regsOk_wr h

@[simp] theorem State.regsOk_set {s : State} {p n : Nat} {f : Fld} (h : s.RegsOk) : (s.set p f n).RegsOk := State.regsOk_wr h

@[simp] theorem State.regsOk_seti {s : State} {p : Nat} {f : Fld} {i : Int} (h : s.RegsOk) : (s.seti p f i).RegsOk :=
  State.regsOk_wr h

@[simp] theorem State.regsOk_irq {s : State} {p b : Nat} (h : s.RegsOk) : (s.irq p b).RegsOk := State.regsOk_wr h

@[simp] theorem State.regsOk_cnt {s : State} {p d : Nat} {f : Fld} (h : s.RegsOk) : (s.cnt p f d).RegsOk := by
  unfold State.cnt; split
  · exact h
  · exact State.regsOk_set h

@[simp] theorem State.regsOk_cntWrap {s : State} {p d : Nat} {f : Fld} (h : s.RegsOk) : (s.cntWrap p f d).RegsOk := by
  unfold State.cntWrap; split
  · exact h
  · exact State.regsOk_set h

@[simp] theorem State.regsOk_cnt32 {s : State} {p off d : Nat} (h : s.RegsOk) : (s.cnt32 p off d).RegsOk :=
  State.regsOk_cntWrap h

@[simp] theorem State.regsOk_capture {s : State} {p code loc : Nat} (h : s.RegsOk) : (s.capture p code loc).RegsOk := by
  unfold State.capture
  dsimp only
  split
  · exact State.regsOk_irq (State.regsOk_set (State.regsOk_wrn (State.regsOk_set h)))
  · exact State.regsOk_irq (State.regsOk_set h)

@[simp] theorem State.regsOk_post {s : State} {p code loc : Nat} {j : Bool} (h : s.RegsOk) : (s.post p code loc j).RegsOk := by
  unfold State.post
  dsimp only
  split
  · exact h
  · split
    · exact h
    · split
      · exact h
      · exact State.regsOk_cnt h

@[simp] theorem State.regsOk_err {s : State} {p code loc : Nat} {j : Bool} (h : s.RegsOk) : (s.err p code loc j).RegsOk := by
  unfold State.err
  dsimp only
  split
  · exact State.regsOk_post h
  · exact State.regsOk_capture (State.regsOk_post h)

/-! Whole registers. -/

theorem State.rd_wr_same {s : State} (p off : Nat) (w : Word) (h : s.RegsOk) : (s.wr p off w).rd p off = w :=
  sget_sput_same _ _ w h

theorem State.rd_wr_other {s : State} {p off q o : Nat} (w : Word) (h : s.RegsOk) (ne : q + o ≠ p + off) :
    (s.wr p off w).rd q o = s.rd q o :=
  sget_sput_other _ _ w ne h

theorem State.rd_wr {s : State} (p off q o : Nat) (w : Word) (h : s.RegsOk) :
    (s.wr p off w).rd q o = if q + o = p + off then w else s.rd q o := by
  split
  · next e => unfold State.rd State.wr; rw [e]; exact sget_sput_same _ _ w h
  · next e => exact State.rd_wr_other w h e

theorem State.get_congr {s t : State} {p q : Nat} {f : Fld} (h : t.rd p f.off = s.rd q f.off) : t.get p f = s.get q f := by
  unfold State.get; rw [h]

/-! Fields. -/

/-- What a set field reads: the value cut to its width. -/
theorem State.get_set_same {s : State} (p : Nat) (f : Fld) (n : Nat) (h : s.RegsOk) (hf : f.lo + f.len ≤ 32) :
    (s.set p f n).get p f = n % 2 ^ f.len := by
  unfold State.get State.set
  rw [State.rd_wr_same _ _ _ h, BitVec.toNat_ofNat]
  rw [bitsOf_mod (k := 32) (m := putBits (s.rd p f.off).toNat f.lo f.len n) (Nat.mod_mod _ _) hf, bitsOf_putBits_same]

/-- Another field of the same register. -/
theorem State.get_set_beside {s : State} (p : Nat) (f g : Fld) (n : Nat) (h : s.RegsOk) (e : g.off = f.off)
    (hg : g.lo + g.len ≤ 32) (d : g.lo + g.len ≤ f.lo ∨ f.lo + f.len ≤ g.lo) : (s.set p f n).get p g = s.get p g := by
  unfold State.get State.set
  rw [e, State.rd_wr_same _ _ _ h, BitVec.toNat_ofNat,
    bitsOf_mod (k := 32) (m := putBits (s.rd p f.off).toNat f.lo f.len n) (Nat.mod_mod _ _) hg, bitsOf_putBits_other d]

/-- A field of another register. -/
theorem State.get_set_other {s : State} (p q : Nat) (f g : Fld) (n : Nat) (h : s.RegsOk) (ne : q + g.off ≠ p + f.off) :
    (s.set p f n).get q g = s.get q g := State.get_congr (State.rd_wr_other _ h ne)

theorem State.rd_set_other {s : State} (p q o : Nat) (f : Fld) (n : Nat) (h : s.RegsOk) (ne : q + o ≠ p + f.off) :
    (s.set p f n).rd q o = s.rd q o := State.rd_wr_other _ h ne

theorem State.get_wr_other {s : State} (p off q : Nat) (g : Fld) (w : Word) (h : s.RegsOk) (ne : q + g.off ≠ p + off) :
    (s.wr p off w).get q g = s.get q g := State.get_congr (State.rd_wr_other _ h ne)

theorem State.on_set_one {s : State} (p : Nat) (f : Fld) (h : s.RegsOk) (hf : f.lo + f.len ≤ 32) (hl : f.len = 1) :
    (s.set p f 1).on p f = true := by
  unfold State.on; rw [State.get_set_same p f 1 h hf, hl]; rfl

theorem State.on_set_zero {s : State} (p : Nat) (f : Fld) (h : s.RegsOk) (hf : f.lo + f.len ≤ 32) :
    (s.set p f 0).on p f = false := by
  unfold State.on; rw [State.get_set_same p f 0 h hf]; simp

theorem State.on_set_beside {s : State} (p : Nat) (f g : Fld) (n : Nat) (h : s.RegsOk) (e : g.off = f.off)
    (hg : g.lo + g.len ≤ 32) (d : g.lo + g.len ≤ f.lo ∨ f.lo + f.len ≤ g.lo) : (s.set p f n).on p g = s.on p g := by
  unfold State.on; rw [State.get_set_beside p f g n h e hg d]

theorem State.on_set_other {s : State} (p q : Nat) (f g : Fld) (n : Nat) (h : s.RegsOk) (ne : q + g.off ≠ p + f.off) :
    (s.set p f n).on q g = s.on q g := by unfold State.on; rw [State.get_set_other p q f g n h ne]

/-- An interrupt source bit is 1 after the hardware has set it (R44). -/
theorem State.irq_on {s : State} (p b : Nat) (h : s.RegsOk) (hb : b < 32) : (s.irq p b).on p ⟨INT_RAW, b, 1⟩ = true :=
  State.on_set_one p ⟨INT_RAW, b, 1⟩ h hb rfl

/-! Posted codes. -/

/-- A page that is not behind a die bridge posts its code. -/
theorem State.post_posts {s : State} {p code loc : Nat} {j : Bool} (h : bridgeDie (tyOf p) = none) :
    (s.post p code loc j).posts = s.posts ++ [⟨code, loc % 2 ^ 32, tyOf p, instOf p, j⟩] := by
  unfold State.post; simp only [h]

/-! Interrupt bits, counters, plain writes and error records, elsewhere than where they write. -/

theorem State.rd_irq_other {s : State} {p b q o : Nat} (h : s.RegsOk) (ne : q + o ≠ p + INT_RAW) :
    (s.irq p b).rd q o = s.rd q o := State.rd_wr_other _ h ne

theorem State.get_irq_other {s : State} {p b q : Nat} {g : Fld} (h : s.RegsOk) (ne : q + g.off ≠ p + INT_RAW) :
    (s.irq p b).get q g = s.get q g := State.get_congr (State.rd_irq_other h ne)

theorem State.on_irq_other {s : State} {p b q : Nat} {g : Fld} (h : s.RegsOk) (ne : q + g.off ≠ p + INT_RAW) :
    (s.irq p b).on q g = s.on q g := by unfold State.on; rw [State.get_irq_other h ne]

theorem State.rd_seti_other {s : State} {p q o : Nat} {f : Fld} {i : Int} (h : s.RegsOk) (ne : q + o ≠ p + f.off) :
    (s.seti p f i).rd q o = s.rd q o := State.rd_wr_other _ h ne

theorem State.get_seti_other {s : State} {p q : Nat} {f g : Fld} {i : Int} (h : s.RegsOk) (ne : q + g.off ≠ p + f.off) :
    (s.seti p f i).get q g = s.get q g := State.get_congr (State.rd_wr_other _ h ne)

theorem State.on_seti_other {s : State} {p q : Nat} {f g : Fld} {i : Int} (h : s.RegsOk) (ne : q + g.off ≠ p + f.off) :
    (s.seti p f i).on q g = s.on q g := by unfold State.on; rw [State.get_seti_other h ne]

theorem State.on_wr_other {s : State} {p off q : Nat} {g : Fld} {w : Word} (h : s.RegsOk) (ne : q + g.off ≠ p + off) :
    (s.wr p off w).on q g = s.on q g := by unfold State.on; rw [State.get_wr_other p off q g w h ne]

theorem State.rd_wrn_same {s : State} (p off n : Nat) (h : s.RegsOk) : (s.wrn p off n).rd p off = BitVec.ofNat 32 n :=
  State.rd_wr_same p off _ h

theorem State.rd_wrn_other {s : State} {p off n q o : Nat} (h : s.RegsOk) (ne : q + o ≠ p + off) :
    (s.wrn p off n).rd q o = s.rd q o := State.rd_wr_other _ h ne

theorem State.get_wrn_other {s : State} {p off n q : Nat} {g : Fld} (h : s.RegsOk) (ne : q + g.off ≠ p + off) :
    (s.wrn p off n).get q g = s.get q g := State.get_congr (State.rd_wr_other _ h ne)

theorem State.on_wrn_other {s : State} {p off n q : Nat} {g : Fld} (h : s.RegsOk) (ne : q + g.off ≠ p + off) :
    (s.wrn p off n).on q g = s.on q g := by unfold State.on; rw [State.get_wrn_other h ne]

/-- A bit that reads 1 in INT_RAW stays 1 when another one is set. -/
theorem State.on_irq_kept {s : State} {p b c : Nat} (h : s.RegsOk) (hb : b < 32) (hc : c < 32)
    (on : s.on p ⟨INT_RAW, b, 1⟩ = true) : (s.irq p c).on p ⟨INT_RAW, b, 1⟩ = true := by
  by_cases e : b = c
  · subst e; exact State.irq_on p b h hb
  · rw [← on]; exact State.on_set_beside p ⟨INT_RAW, c, 1⟩ ⟨INT_RAW, b, 1⟩ 1 h rfl hb (by show b + 1 ≤ c ∨ c + 1 ≤ b; omega)

theorem State.rd_cnt_other {s : State} {p d q o : Nat} {f : Fld} (h : s.RegsOk) (ne : q + o ≠ p + f.off) :
    (s.cnt p f d).rd q o = s.rd q o := by
  unfold State.cnt; split
  · rfl
  · exact State.rd_wr_other _ h ne

theorem State.get_cnt_other {s : State} {p d q : Nat} {f g : Fld} (h : s.RegsOk) (ne : q + g.off ≠ p + f.off) :
    (s.cnt p f d).get q g = s.get q g := State.get_congr (State.rd_cnt_other h ne)

theorem State.on_cnt_other {s : State} {p d q : Nat} {f g : Fld} (h : s.RegsOk) (ne : q + g.off ≠ p + f.off) :
    (s.cnt p f d).on q g = s.on q g := by unfold State.on; rw [State.get_cnt_other h ne]

/-- A counter of a page that is not frozen counts, up to its greatest value. -/
theorem State.get_cnt {s : State} {p d : Nat} {f : Fld} (h : s.RegsOk) (k : s.frozen p = false) (hf : f.lo + f.len ≤ 32) :
    (s.cnt p f d).get p f = satAdd f.len (s.get p f) d := by
  unfold State.cnt
  rw [if_neg (by simp [k]), State.get_set_same _ _ _ h hf]
  apply Nat.mod_eq_of_lt
  have := Nat.two_pow_pos f.len
  unfold satAdd; omega

theorem State.rd_cntWrap_other {s : State} {p d q o : Nat} {f : Fld} (h : s.RegsOk) (ne : q + o ≠ p + f.off) :
    (s.cntWrap p f d).rd q o = s.rd q o := by
  unfold State.cntWrap; split
  · rfl
  · exact State.rd_wr_other _ h ne

theorem State.get_cntWrap_other {s : State} {p d q : Nat} {f g : Fld} (h : s.RegsOk) (ne : q + g.off ≠ p + f.off) :
    (s.cntWrap p f d).get q g = s.get q g := State.get_congr (State.rd_cntWrap_other h ne)

theorem State.on_cntWrap_other {s : State} {p d q : Nat} {f g : Fld} (h : s.RegsOk) (ne : q + g.off ≠ p + f.off) :
    (s.cntWrap p f d).on q g = s.on q g := by unfold State.on; rw [State.get_cntWrap_other h ne]

theorem State.regsOk_plain {s : State} {p off : Nat} {v : Word} (h : s.RegsOk) : (s.plain p off v).RegsOk := by
  unfold State.plain; split
  · exact State.regsOk_wrn h
  · exact h

theorem State.rd_plain_other {s : State} {p off q o : Nat} {v : Word} (h : s.RegsOk) (ne : q + o ≠ p + off) :
    (s.plain p off v).rd q o = s.rd q o := by
  unfold State.plain; split
  · exact State.rd_wr_other _ h ne
  · rfl

theorem State.get_plain_other {s : State} {p off q : Nat} {v : Word} {g : Fld} (h : s.RegsOk) (ne : q + g.off ≠ p + off) :
    (s.plain p off v).get q g = s.get q g := State.get_congr (State.rd_plain_other h ne)

theorem State.on_plain_other {s : State} {p off q : Nat} {v : Word} {g : Fld} (h : s.RegsOk) (ne : q + g.off ≠ p + off) :
    (s.plain p off v).on q g = s.on q g := by unfold State.on; rw [State.get_plain_other h ne]

/-- A plain write merges the fields of its register (R34). -/
theorem State.rd_plain_same {s : State} {p off : Nat} {v : Word} {fs : List FieldSpec} (h : s.RegsOk)
    (k : fieldsOf (tyOf p) off = some fs) :
    (s.plain p off v).rd p off = BitVec.ofNat 32 (mergeFields (s.rd p off).toNat v.toNat fs) := by
  unfold State.plain; rw [k]; exact State.rd_wr_same p off _ h

/-- A register whose fields are one writable field of 32 bits. -/
def fullReg : Option (List FieldSpec) → Bool
  | some [f] => decide (f.lo = 0 ∧ f.len = 32) && f.acc == .rw
  | _ => false

/-- Such a register takes the word. -/
theorem State.rd_plain_full {s : State} {p off : Nat} {v : Word} (h : s.RegsOk)
    (k : fullReg (fieldsOf (tyOf p) off) = true) : (s.plain p off v).rd p off = v := by
  unfold fullReg at k
  split at k
  · next f e =>
    obtain ⟨lo, len, acc, ok⟩ := f
    simp only [Bool.and_eq_true, decide_eq_true_eq, beq_iff_eq] at k
    obtain ⟨⟨rfl, rfl⟩, rfl⟩ := k
    rw [State.rd_plain_same h e]
    apply BitVec.eq_of_toNat_eq
    have z : (s.rd p off).toNat >>> 32 = 0 := by rw [Nat.shiftRight_eq_div_pow]; exact Nat.div_eq_of_lt (s.rd p off).isLt
    simpa [mergeFields, putBits, bitsOf, z, Nat.mod_one] using v.isLt
  · exact absurd k (by decide)

/-- The bits of f lie within a writable field of the list and apart from those after it. -/
def takesField (f : Fld) : List FieldSpec → Bool
  | [] => false
  | g :: t =>
    ((g.acc == .rw || g.acc == .rwl) && decide (g.lo ≤ f.lo ∧ f.lo + f.len ≤ g.lo + g.len)
      && t.all fun x => decide (f.lo + f.len ≤ x.lo ∨ x.lo + x.len ≤ f.lo)) || takesField f t

/-- What one field of the list does in a merge. -/
def mergeStep (old w m : Nat) (g : FieldSpec) : Nat :=
  match g.acc with
  | .rw => putBits m g.lo g.len (bitsOf w g.lo g.len)
  | .rwl => putBits m g.lo g.len (bitsOf w g.lo g.len)
  | .w1c => putBits m g.lo g.len (bitsOf old g.lo g.len &&& (2 ^ g.len - 1 - bitsOf w g.lo g.len))
  | _ => m

theorem mergeFields_eq (old w : Nat) (l : List FieldSpec) : mergeFields old w l = l.foldl (mergeStep old w) old := rfl

theorem merge_step_apart {old m w : Nat} {f : Fld} {g : FieldSpec} (h : f.lo + f.len ≤ g.lo ∨ g.lo + g.len ≤ f.lo) :
    bitsOf (mergeStep old w m g) f.lo f.len = bitsOf m f.lo f.len := by
  obtain ⟨lo, len, acc, ok⟩ := g
  cases acc <;> first | rfl | exact bitsOf_putBits_other h

theorem merge_apart {old w : Nat} {f : Fld} {l : List FieldSpec}
    (h : ∀ x ∈ l, f.lo + f.len ≤ x.lo ∨ x.lo + x.len ≤ f.lo) (m : Nat) :
    bitsOf (l.foldl (mergeStep old w) m) f.lo f.len = bitsOf m f.lo f.len := by
  induction l generalizing m with
  | nil => rfl
  | cons g t ih =>
    rw [List.foldl_cons, ih fun x hx => h x (List.mem_cons_of_mem _ hx)]
    exact merge_step_apart (h g (List.mem_cons_self ..))

theorem merge_takes {old w : Nat} {f : Fld} {l : List FieldSpec} (h : takesField f l = true) (m : Nat) :
    bitsOf (l.foldl (mergeStep old w) m) f.lo f.len = bitsOf w f.lo f.len := by
  induction l generalizing m with
  | nil => exact absurd h (by simp [takesField])
  | cons g t ih =>
    rw [List.foldl_cons]
    unfold takesField at h
    rcases Bool.or_eq_true_iff.mp h with h | h
    · simp only [Bool.and_eq_true, Bool.or_eq_true, beq_iff_eq, decide_eq_true_eq, List.all_eq_true] at h
      rw [merge_apart h.2]
      obtain ⟨lo, len, acc, ok⟩ := g
      rcases h.1 with ⟨e | e, k⟩ <;> (cases e; exact bitsOf_putBits_within k.1 k.2)
    · exact ih h _

/-- A writable field takes its bits of the word (R34). -/
theorem State.get_plain {s : State} {p : Nat} {f : Fld} {v : Word} (h : s.RegsOk)
    (k : ((fieldsOf (tyOf p) f.off).map (takesField f)) = some true) (hf : f.lo + f.len ≤ 32) :
    (s.plain p f.off v).get p f = bitsOf v.toNat f.lo f.len := by
  cases e : fieldsOf (tyOf p) f.off with
  | none => rw [e] at k; exact absurd k (by simp)
  | some fs =>
    rw [e] at k
    unfold State.get
    rw [State.rd_plain_same h e, BitVec.toNat_ofNat, bitsOf_mod (k := 32) (Nat.mod_mod _ _) hf]
    rw [mergeFields_eq]; exact merge_takes (by simpa using k) _

/-- A field that is not written keeps its bits. -/
theorem State.get_plain_kept {s : State} {p off : Nat} {f : Fld} {v : Word} (h : s.RegsOk) (o : f.off = off)
    (k : ((fieldsOf (tyOf p) off).getD []).all (fun x =>
      decide (f.lo + f.len ≤ x.lo ∨ x.lo + x.len ≤ f.lo) || x.acc == .ro || x.acc == .wo) = true) (hf : f.lo + f.len ≤ 32) :
    (s.plain p off v).get p f = s.get p f := by
  subst o
  cases e : fieldsOf (tyOf p) f.off with
  | none => unfold State.plain; rw [e]
  | some fs =>
    rw [e] at k
    unfold State.get
    rw [State.rd_plain_same h e, BitVec.toNat_ofNat, bitsOf_mod (k := 32) (Nat.mod_mod _ _) hf]
    simp only [Option.getD_some, List.all_eq_true, Bool.or_eq_true, decide_eq_true_eq, beq_iff_eq] at k
    rw [mergeFields_eq]
    generalize hm : (s.rd p f.off).toNat = old
    suffices ∀ m, bitsOf (fs.foldl (mergeStep old v.toNat) m) f.lo f.len = bitsOf m f.lo f.len from this old
    clear e hm
    induction fs with
    | nil => intro m; rfl
    | cons g t ih =>
      intro m
      rw [List.foldl_cons, ih fun x hx => k x (List.mem_cons_of_mem _ hx)]
      rcases k g (List.mem_cons_self ..) with (a | a) | a
      · exact merge_step_apart a
      · obtain ⟨lo, len, acc, ok⟩ := g; cases a; rfl
      · obtain ⟨lo, len, acc, ok⟩ := g; cases a; rfl

theorem State.rd_capture_other {s : State} {p code loc q o : Nat} (h : s.RegsOk) (n1 : q + o ≠ p + ERR_CAP)
    (n2 : q + o ≠ p + ERR_ADDR) (n3 : q + o ≠ p + INT_RAW) : (s.capture p code loc).rd q o = s.rd q o := by
  unfold State.capture
  dsimp only
  split
  · have h1 := State.regsOk_set (p := p) (n := code) (f := ERR_CAP_CODE) h
    have h2 := State.regsOk_wrn (p := p) (off := ERR_ADDR) (n := loc) h1
    rw [State.rd_irq_other (State.regsOk_set h2) n3, State.rd_set_other _ _ _ _ _ h2 n1, State.rd_wrn_other h1 n2,
      State.rd_set_other _ _ _ _ _ h n1]
  · rw [State.rd_irq_other (State.regsOk_set h) n3, State.rd_set_other _ _ _ _ _ h n1]

theorem State.rd_post {s : State} {p code loc q o : Nat} {j : Bool} (k : bridgeDie (tyOf p) = none) :
    (s.post p code loc j).rd q o = s.rd q o := by unfold State.post; simp only [k]; rfl

theorem State.get_post {s : State} {p code loc q : Nat} {j : Bool} {g : Fld} (k : bridgeDie (tyOf p) = none) :
    (s.post p code loc j).get q g = s.get q g := State.get_congr (State.rd_post k)

theorem State.on_post {s : State} {p code loc q : Nat} {j : Bool} {g : Fld} (k : bridgeDie (tyOf p) = none) :
    (s.post p code loc j).on q g = s.on q g := by unfold State.on; rw [State.get_post k]

theorem State.rd_err_other {s : State} {p code loc q o : Nat} {j : Bool} (h : s.RegsOk) (k : bridgeDie (tyOf p) = none)
    (n1 : q + o ≠ p + ERR_CAP) (n2 : q + o ≠ p + ERR_ADDR) (n3 : q + o ≠ p + INT_RAW) :
    (s.err p code loc j).rd q o = s.rd q o := by
  unfold State.err
  dsimp only
  split
  · exact State.rd_post k
  · rw [State.rd_capture_other (State.regsOk_post h) n1 n2 n3, State.rd_post k]

theorem State.get_err_other {s : State} {p code loc q : Nat} {j : Bool} {g : Fld} (h : s.RegsOk)
    (k : bridgeDie (tyOf p) = none) (n1 : q + g.off ≠ p + ERR_CAP) (n2 : q + g.off ≠ p + ERR_ADDR)
    (n3 : q + g.off ≠ p + INT_RAW) : (s.err p code loc j).get q g = s.get q g :=
  State.get_congr (State.rd_err_other h k n1 n2 n3)

theorem State.on_err_other {s : State} {p code loc q : Nat} {j : Bool} {g : Fld} (h : s.RegsOk)
    (k : bridgeDie (tyOf p) = none) (n1 : q + g.off ≠ p + ERR_CAP) (n2 : q + g.off ≠ p + ERR_ADDR)
    (n3 : q + g.off ≠ p + INT_RAW) : (s.err p code loc j).on q g = s.on q g := by
  unfold State.on; rw [State.get_err_other h k n1 n2 n3]

/-- An error record leaves the other interrupt bits of its page at 1. -/
theorem State.on_capture_kept {s : State} {p b code loc : Nat} (h : s.RegsOk) (hb : b < 32)
    (on : s.on p ⟨INT_RAW, b, 1⟩ = true) : (s.capture p code loc).on p ⟨INT_RAW, b, 1⟩ = true := by
  have aux : ∀ {x y : Nat}, x ≠ y → p + x ≠ p + y := fun e => by omega
  have a1 := aux (show INT_RAW ≠ ERR_CAP by decide)
  have a2 := aux (show INT_RAW ≠ ERR_ADDR by decide)
  unfold State.capture
  dsimp only
  split
  · have h1 := State.regsOk_set (p := p) (n := code) (f := ERR_CAP_CODE) h
    have h2 := State.regsOk_wrn (p := p) (off := ERR_ADDR) (n := loc) h1
    refine State.on_irq_kept (State.regsOk_set h2) hb (by decide) ?_
    rw [State.on_set_other _ _ _ _ _ h2 a1, State.on_wrn_other h1 a2, State.on_set_other _ _ _ _ _ h a1]
    exact on
  · refine State.on_irq_kept (State.regsOk_set h) hb (by decide) ?_
    rw [State.on_set_other _ _ _ _ _ h a1]
    exact on

theorem State.on_err_kept {s : State} {p b code loc : Nat} {j : Bool} (h : s.RegsOk) (hb : b < 32)
    (k : bridgeDie (tyOf p) = none) (on : s.on p ⟨INT_RAW, b, 1⟩ = true) :
    (s.err p code loc j).on p ⟨INT_RAW, b, 1⟩ = true := by
  unfold State.err
  dsimp only
  split
  · rw [State.on_post k]; exact on
  · exact State.on_capture_kept (State.regsOk_post h) hb (by rw [State.on_post k]; exact on)

theorem State.err_posts {s : State} {p code loc : Nat} {j : Bool} (h : bridgeDie (tyOf p) = none) :
    (s.err p code loc j).posts = s.posts ++ [⟨code, loc % 2 ^ 32, tyOf p, instOf p, j⟩] := by
  unfold State.err
  dsimp only
  split
  · exact State.post_posts h
  · rw [State.capture_posts]; exact State.post_posts h

end Sys2Proof.Machine
end

