-- ==== Sys2Proof/Laws/Frame.lean ====
section
/-!
SUPPORT. Frames: which registers an operation writes, and what it leaves of the rest of the state. `Framed` carries the canonical
form of the register file along with the register part, so that it goes through compositions; `rest` of each operation on
registers is the rest before it.
-/

namespace Sys2Proof.Machine

theorem State.rd_addr (s : State) (p off : Nat) : s.rd p off = s.rd (p + off) 0 := rfl

theorem pageBase_add {p off : Nat} (hp : p % 0x1000 = 0) (ho : off < 0x1000) : pageBase (p + off) = p := by
  unfold pageBase; omega

/-- From s to t only registers of `m` change, and the register file is canonical in t. -/
structure Framed (m : Nat → Prop) (s t : State) : Prop where
  regs : ∀ addr, ¬ m addr → t.rd addr 0 = s.rd addr 0
  ok : t.RegsOk

namespace Framed

variable {m : Nat → Prop}

theorem refl {s : State} (h : s.RegsOk) : Framed m s s := ⟨fun _ _ => rfl, h⟩

/-- A change of nothing but other fields. -/
theorem of_eq {s t u : State} (h : Framed m s t) (hr : u.regs = t.regs) : Framed m s u :=
  ⟨fun a n => (by unfold State.rd; rw [hr] : u.rd a 0 = t.rd a 0).trans (h.regs a n),
    by unfold State.RegsOk; rw [hr]; exact h.ok⟩

/-- A record update of fields outside the frame. -/
theorem fields {m : Nat → Prop} {s t : State} {f_pending f_hz9620 f_resp f_out f_fresh f_posts f_shell f_tb f_plate f_sw
    f_badEntries f_gwIn f_can f_lin f_gw f_chans f_dies f_selLands f_claim f_dins f_ains f_scan f_disarmed f_bridges f_phoask
    f_twin f_mig f_cal f_cfaultA f_cfaultP f_cores f_swLines f_poisonLines f_xlat f_dplFilter f_norOps f_norWear f_fuseOp f_refiBase
    f_scrSram f_scrCkpt f_slotBad f_sec f_upd f_up f_clk f_slp f_health f_hon} :
    Framed m s ⟨f_pending, f_hz9620, t.regs, t.tabs, t.mem, f_resp, f_out, f_fresh, f_posts, f_shell, f_tb, f_plate, f_sw,
    f_badEntries, f_gwIn, f_can, f_lin, f_gw, f_chans, f_dies, f_selLands, f_claim, f_dins, f_ains, f_scan, f_disarmed,
    f_bridges, f_phoask, f_twin, f_mig, f_cal, f_cfaultA, f_cfaultP, f_cores, f_swLines, f_poisonLines, f_xlat, f_dplFilter,
    f_norOps, f_norWear, t.fuses, f_fuseOp, f_refiBase, f_scrSram, f_scrCkpt, f_slotBad, f_sec, f_upd, f_up, f_clk, f_slp,
    f_health, f_hon⟩ ↔ Framed m s t :=
  ⟨fun h => h.of_eq rfl, fun h => h.of_eq rfl⟩

theorem ite {s x y : State} {c : Prop} [Decidable c] (hx : Framed m s x) (hy : Framed m s y) :
    Framed m s (if c then x else y) := by split <;> assumption

theorem wr {s t : State} {p off : Nat} {w : Word} (h : Framed m s t) (k : m (p + off)) : Framed m s (t.wr p off w) :=
  ⟨fun a n => (State.rd_wr_other w h.ok (fun e => n (by rw [← Nat.add_zero a, e]; exact k))).trans (h.regs a n),
    State.regsOk_wr h.ok⟩

theorem set {s t : State} {p n : Nat} {f : Fld} (h : Framed m s t) (k : m (p + f.off)) : Framed m s (t.set p f n) := wr h k

theorem wrn {s t : State} {p off n : Nat} (h : Framed m s t) (k : m (p + off)) : Framed m s (t.wrn p off n) := wr h k

theorem seti {s t : State} {p : Nat} {f : Fld} {i : Int} (h : Framed m s t) (k : m (p + f.off)) : Framed m s (t.seti p f i) :=
  wr h k

theorem irq {s t : State} {p b : Nat} (h : Framed m s t) (k : m (p + INT_RAW)) : Framed m s (t.irq p b) := wr h k

theorem cnt {s t : State} {p d : Nat} {f : Fld} (h : Framed m s t) (k : m (p + f.off)) : Framed m s (t.cnt p f d) :=
  ite h (set h k)

theorem cntWrap {s t : State} {p d : Nat} {f : Fld} (h : Framed m s t) (k : m (p + f.off)) : Framed m s (t.cntWrap p f d) :=
  ite h (set h k)

theorem cnt32 {s t : State} {p off d : Nat} (h : Framed m s t) (k : m (p + off)) : Framed m s (t.cnt32 p off d) := cntWrap h k

theorem cnt64 {s t : State} {p lo hi d : Nat} (h : Framed m s t) (k : m (p + lo)) (k2 : m (p + hi)) :
    Framed m s (t.cnt64 p lo hi d) := ite h (wrn (wrn h k) k2)

/-- The plain effect of a register write. -/
theorem plain {s t : State} {p off : Nat} {v : Word} (h : Framed m s t) (k : m (p + off)) : Framed m s (t.plain p off v) := by
  unfold State.plain; split
  · exact wrn h k
  · exact h

/-- What a page keeps of an error lies in its own header. -/
theorem capture {s t : State} {p code loc : Nat} (h : Framed m s t) (k1 : m (p + ERR_CAP)) (k2 : m (p + ERR_ADDR))
    (k3 : m (p + INT_RAW)) : Framed m s (t.capture p code loc) := by
  unfold State.capture
  dsimp only
  split
  · exact irq (set (wrn (set h k1) k2) k1) k3
  · exact irq (set h k1) k3

/-- A posted code of a page that is not behind a die bridge. -/
theorem post {s t : State} {p code loc : Nat} {j : Bool} (h : Framed m s t) (k : bridgeDie (tyOf p) = none) :
    Framed m s (t.post p code loc j) := by
  unfold State.post; simp only [k]; exact h.of_eq rfl

/-- Behind a die bridge that is down with a full queue the code is counted on the die's PDC page. -/
theorem postDie {s t : State} {p code loc d : Nat} {j : Bool} (h : Framed m s t) (e : bridgeDie (tyOf p) = some d)
    (k : m (pPDC d + PDC_QOVF_LOST.off)) : Framed m s (t.post p code loc j) := by
  unfold State.post; simp only [e]; exact ite (h.of_eq rfl) (ite (h.of_eq rfl) (cnt h k))

theorem err {s t : State} {p code loc : Nat} {j : Bool} (h : Framed m s t) (k : bridgeDie (tyOf p) = none)
    (k1 : m (p + ERR_CAP)) (k2 : m (p + ERR_ADDR)) (k3 : m (p + INT_RAW)) : Framed m s (t.err p code loc j) :=
  ite (post h k) (capture (post h k) k1 k2 k3)

theorem each {α : Type} {s t : State} {l : List α} {f : State → α → State} (h : Framed m s t)
    (hf : ∀ x a, a ∈ l → Framed m s x → Framed m s (f x a)) : Framed m s (t.each l f) := by
  unfold State.each
  induction l generalizing t with
  | nil => exact h
  | cons a l ih => exact ih (hf _ _ (List.mem_cons_self ..) h) fun x b hb => hf x b (List.mem_cons_of_mem _ hb)

end Framed

/-! The rest of the state through operations on registers. -/

variable (s : State)

@[simp] theorem State.rest_wr (p off : Nat) (w : Word) : (s.wr p off w).rest = s.rest := rfl
@[simp] theorem State.rest_wrn (p off n : Nat) : (s.wrn p off n).rest = s.rest := rfl
@[simp] theorem State.rest_set (p n : Nat) (f : Fld) : (s.set p f n).rest = s.rest := rfl
@[simp] theorem State.rest_seti (p : Nat) (f : Fld) (i : Int) : (s.seti p f i).rest = s.rest := rfl
@[simp] theorem State.rest_irq (p b : Nat) : (s.irq p b).rest = s.rest := rfl
@[simp] theorem State.rest_answer (r : RespStatus) (d : Nat) : (s.answer r d).rest = s.rest := rfl
@[simp] theorem State.rest_ok (d : Nat) : (s.ok d).rest = s.rest := rfl
@[simp] theorem State.rest_refused : s.refused.rest = s.rest := rfl
@[simp] theorem State.rest_cnt (p d : Nat) (f : Fld) : (s.cnt p f d).rest = s.rest := by unfold State.cnt; split <;> rfl
@[simp] theorem State.rest_cntWrap (p d : Nat) (f : Fld) : (s.cntWrap p f d).rest = s.rest := by
  unfold State.cntWrap; split <;> rfl
@[simp] theorem State.rest_cnt32 (p off d : Nat) : (s.cnt32 p off d).rest = s.rest := State.rest_cntWrap s p d _
@[simp] theorem State.rest_cnt64 (p lo hi d : Nat) : (s.cnt64 p lo hi d).rest = s.rest := by unfold State.cnt64; split <;> rfl
@[simp] theorem State.rest_capture (p code loc : Nat) : (s.capture p code loc).rest = s.rest := by
  unfold State.capture; dsimp only; split <;> rfl
@[simp] theorem State.rest_plain (p off : Nat) (v : Word) : (s.plain p off v).rest = s.rest := by
  unfold State.plain; split <;> rfl

theorem State.rest_post {p code loc : Nat} {j : Bool} (k : bridgeDie (tyOf p) = none) :
    (s.post p code loc j).rest = ({ s with posts := s.posts ++ [Post.mk code (loc % 2 ^ 32) (tyOf p) (instOf p) j] } : State).rest := by
  unfold State.post; simp only [k]

theorem State.rest_err (p code loc : Nat) (j : Bool) : (s.err p code loc j).rest = (s.post p code loc j).rest := by
  unfold State.err; dsimp only; split
  · rfl
  · exact State.rest_capture _ _ _ _

/-- An operation on each element that leaves the rest alone leaves it alone altogether. -/
theorem State.rest_each {α : Type} {l : List α} {f : State → α → State} (h : ∀ x a, (f x a).rest = x.rest) (s : State) :
    (s.each l f).rest = s.rest := by
  unfold State.each
  induction l generalizing s with
  | nil => rfl
  | cons a l ih => exact (ih _).trans (h s a)

end Sys2Proof.Machine
end

