-- ==== Sys2Proof/Laws/KeepsOps.lean ====
section
/-!
SUPPORT. What every operation keeps (Laws/Keeps): the shared operations, error records, accesses to memory.
-/

set_option linter.all false

namespace Sys2Proof.Machine

theorem State.emit_keeps {s t a1} (h : Keeps s t) : Keeps s (State.emit t a1) := by
  unfold State.emit
  iterate 100 all_goals try
    first
    | intro _
    | with_reducible
        first
        | assumption | apply Keeps.ite | apply Keeps.foldl | (apply Keeps.fst; assumption)
    | simp only [↓Keeps.fields] | split | dsimp only

theorem State.set_keeps {s t a1 a2 a3} (h : Keeps s t) : Keeps s (State.set t a1 a2 a3) := by
  unfold State.set
  iterate 100 all_goals try
    first
    | intro _
    | with_reducible
        first
        | assumption | apply State.wr_keeps | apply Keeps.ite | apply Keeps.foldl | (apply Keeps.fst; assumption)
    | simp only [↓Keeps.fields] | split | dsimp only

theorem State.setMemLE_keeps {s t a1 a2 a3} (h : Keeps s t) : Keeps s (State.setMemLE t a1 a2 a3) := by
  unfold State.setMemLE
  iterate 100 all_goals try
    first
    | intro _
    | with_reducible
        first
        | assumption | apply State.setBytes_keeps | apply Keeps.ite | apply Keeps.foldl
        | (apply Keeps.fst; assumption)
    | simp only [↓Keeps.fields] | split | dsimp only

theorem State.seti_keeps {s t a1 a2 a3} (h : Keeps s t) : Keeps s (State.seti t a1 a2 a3) := by
  unfold State.seti
  iterate 100 all_goals try
    first
    | intro _
    | with_reducible
        first
        | assumption | apply State.set_keeps | apply Keeps.ite | apply Keeps.foldl | (apply Keeps.fst; assumption)
    | simp only [↓Keeps.fields] | split | dsimp only

theorem State.tfSet_keeps {s t a1 a2 a3 a4} (h : Keeps s t) : Keeps s (State.tfSet t a1 a2 a3 a4) := by
  unfold State.tfSet
  iterate 100 all_goals try
    first
    | intro _
    | with_reducible
        first
        | assumption | apply State.tset_keeps | apply Keeps.ite | apply Keeps.foldl | (apply Keeps.fst; assumption)
    | simp only [↓Keeps.fields] | split | dsimp only

theorem State.took_keeps {s t} (h : Keeps s t) : Keeps s (State.took t) := by
  unfold State.took
  iterate 100 all_goals try
    first
    | intro _
    | with_reducible
        first
        | assumption | apply Keeps.ite | apply Keeps.foldl | (apply Keeps.fst; assumption)
    | simp only [↓Keeps.fields] | split | dsimp only

theorem State.wrn_keeps {s t a1 a2 a3} (h : Keeps s t) : Keeps s (State.wrn t a1 a2 a3) := by
  unfold State.wrn
  iterate 100 all_goals try
    first
    | intro _
    | with_reducible
        first
        | assumption | apply State.wr_keeps | apply Keeps.ite | apply Keeps.foldl | (apply Keeps.fst; assumption)
    | simp only [↓Keeps.fields] | split | dsimp only

theorem State.answer_keeps {s t a1 a2} (h : Keeps s t) : Keeps s (State.answer t a1 a2) := by
  unfold State.answer
  iterate 100 all_goals try
    first
    | intro _
    | with_reducible
        first
        | assumption | apply Keeps.ite | apply Keeps.foldl | (apply Keeps.fst; assumption)
    | simp only [↓Keeps.fields] | split | dsimp only

theorem State.irq_keeps {s t a1 a2} (h : Keeps s t) : Keeps s (State.irq t a1 a2) := by
  unfold State.irq
  iterate 100 all_goals try
    first
    | intro _
    | with_reducible
        first
        | assumption | apply State.set_keeps | apply Keeps.ite | apply Keeps.foldl | (apply Keeps.fst; assumption)
    | simp only [↓Keeps.fields] | split | dsimp only

theorem State.capture_keeps {s t a1 a2 a3} (h : Keeps s t) : Keeps s (State.capture t a1 a2 a3) := by
  unfold State.capture
  iterate 100 all_goals try
    first
    | intro _
    | with_reducible
        first
        | assumption | apply State.wrn_keeps | apply State.set_keeps | apply State.irq_keeps | apply Keeps.ite
        | apply Keeps.foldl | (apply Keeps.fst; assumption)
    | simp only [↓Keeps.fields] | split | dsimp only

theorem State.cnt_keeps {s t a1 a2 a3} (h : Keeps s t) : Keeps s (State.cnt t a1 a2 a3) := by
  unfold State.cnt
  iterate 100 all_goals try
    first
    | intro _
    | with_reducible
        first
        | assumption | apply State.set_keeps | apply Keeps.ite | apply Keeps.foldl | (apply Keeps.fst; assumption)
    | simp only [↓Keeps.fields] | split | dsimp only

theorem State.cntWrap_keeps {s t a1 a2 a3} (h : Keeps s t) : Keeps s (State.cntWrap t a1 a2 a3) := by
  unfold State.cntWrap
  iterate 100 all_goals try
    first
    | intro _
    | with_reducible
        first
        | assumption | apply State.set_keeps | apply Keeps.ite | apply Keeps.foldl | (apply Keeps.fst; assumption)
    | simp only [↓Keeps.fields] | split | dsimp only

theorem State.cnt32_keeps {s t a1 a2 a3} (h : Keeps s t) : Keeps s (State.cnt32 t a1 a2 a3) := by
  unfold State.cnt32
  iterate 100 all_goals try
    first
    | intro _
    | with_reducible
        first
        | assumption | apply State.cntWrap_keeps | apply Keeps.ite | apply Keeps.foldl
        | (apply Keeps.fst; assumption)
    | simp only [↓Keeps.fields] | split | dsimp only

theorem State.cnt64_keeps {s t a1 a2 a3 a4} (h : Keeps s t) : Keeps s (State.cnt64 t a1 a2 a3 a4) := by
  unfold State.cnt64
  iterate 100 all_goals try
    first
    | intro _
    | with_reducible
        first
        | assumption | apply State.wrn_keeps | apply Keeps.ite | apply Keeps.foldl | (apply Keeps.fst; assumption)
    | simp only [↓Keeps.fields] | split | dsimp only

theorem State.post_keeps {s t a1 a2 a3 a4} (h : Keeps s t) : Keeps s (State.post t a1 a2 a3 a4) := by
  unfold State.post
  iterate 100 all_goals try
    first
    | intro _
    | with_reducible
        first
        | assumption | apply State.cnt_keeps | apply Keeps.dieMod | apply Keeps.ite | apply Keeps.foldl
        | (apply Keeps.fst; assumption)
    | simp only [↓Keeps.fields] | split | dsimp only

theorem State.err_keeps {s t a1 a2 a3 a4} (h : Keeps s t) : Keeps s (State.err t a1 a2 a3 a4) := by
  unfold State.err
  iterate 100 all_goals try
    first
    | intro _
    | with_reducible
        first
        | assumption | apply State.post_keeps | apply State.capture_keeps | apply Keeps.ite | apply Keeps.foldl
        | (apply Keeps.fst; assumption)
    | simp only [↓Keeps.fields] | split | dsimp only

theorem State.errCause_keeps {s t a1 a2 a3} (h : Keeps s t) : Keeps s (State.errCause t a1 a2 a3) := by
  unfold State.errCause
  iterate 100 all_goals try
    first
    | intro _
    | with_reducible
        first
        | assumption | apply State.err_keeps | apply Keeps.ite | apply Keeps.foldl | (apply Keeps.fst; assumption)
    | simp only [↓Keeps.fields] | split | dsimp only

theorem State.ok_keeps {s t a1} (h : Keeps s t) : Keeps s (State.ok t a1) := by
  unfold State.ok
  iterate 100 all_goals try
    first
    | intro _
    | with_reducible
        first
        | assumption | apply State.answer_keeps | apply Keeps.ite | apply Keeps.foldl | (apply Keeps.fst; assumption)
    | simp only [↓Keeps.fields] | split | dsimp only

theorem State.refused_keeps {s t} (h : Keeps s t) : Keeps s (State.refused t) := by
  unfold State.refused
  iterate 100 all_goals try
    first
    | intro _
    | with_reducible
        first
        | assumption | apply State.answer_keeps | apply Keeps.ite | apply Keeps.foldl | (apply Keeps.fst; assumption)
    | simp only [↓Keeps.fields] | split | dsimp only

theorem State.stat_keeps {s t a1 a2 a3} (h : Keeps s t) : Keeps s (State.stat t a1 a2 a3) := by
  unfold State.stat
  iterate 100 all_goals try
    first
    | intro _
    | with_reducible
        first
        | assumption | apply State.set_keeps | apply Keeps.ite | apply Keeps.foldl | (apply Keeps.fst; assumption)
    | simp only [↓Keeps.fields] | split | dsimp only

theorem State.modChan_keeps {s t a1 a2 g3} (h : Keeps s t) : Keeps s (State.modChan t a1 a2 g3) := by
  unfold State.modChan
  iterate 100 all_goals try
    first
    | intro _
    | with_reducible
        first
        | assumption | apply Keeps.chanMod | apply Keeps.ite | apply Keeps.foldl | (apply Keeps.fst; assumption)
    | simp only [↓Keeps.fields] | split | dsimp only

theorem State.modDie_keeps {s t a1 g2} (h : Keeps s t) : Keeps s (State.modDie t a1 g2) := by
  unfold State.modDie
  iterate 100 all_goals try
    first
    | intro _
    | with_reducible
        first
        | assumption | apply Keeps.dieMod | apply Keeps.ite | apply Keeps.foldl | (apply Keeps.fst; assumption)
    | simp only [↓Keeps.fields] | split | dsimp only

theorem State.brErr_keeps {s t a1 a2 a3 a4} (h : Keeps s t) : Keeps s (State.brErr t a1 a2 a3 a4) := by
  unfold State.brErr
  iterate 100 all_goals try
    first
    | intro _
    | with_reducible
        first
        | assumption | apply State.err_keeps | apply Keeps.ite | apply Keeps.foldl | (apply Keeps.fst; assumption)
    | simp only [↓Keeps.fields] | split | dsimp only

theorem State.plain_keeps {s t a1 a2 a3} (h : Keeps s t) : Keeps s (State.plain t a1 a2 a3) := by
  unfold State.plain
  iterate 100 all_goals try
    first
    | intro _
    | with_reducible
        first
        | assumption | apply State.wrn_keeps | apply Keeps.ite | apply Keeps.foldl | (apply Keeps.fst; assumption)
    | simp only [↓Keeps.fields] | split | dsimp only

theorem State.postedError_keeps {s t a1 a2 a3} (h : Keeps s t) : Keeps s (State.postedError t a1 a2 a3) := by
  unfold State.postedError
  iterate 100 all_goals try
    first
    | intro _
    | with_reducible
        first
        | assumption | apply State.set_keeps | apply State.wrn_keeps | apply State.cnt_keeps | apply Keeps.ite
        | apply Keeps.foldl | (apply Keeps.fst; assumption)
    | simp only [↓Keeps.fields] | split | dsimp only

theorem State.refuse_keeps {s t a1 a2 a3} (h : Keeps s t) : Keeps s (State.refuse t a1 a2 a3) := by
  unfold State.refuse
  iterate 100 all_goals try
    first
    | intro _
    | with_reducible
        first
        | assumption | apply State.errCause_keeps | apply State.cnt_keeps | apply State.refused_keeps
        | apply Keeps.ite | apply Keeps.foldl | (apply Keeps.fst; assumption)
    | simp only [↓Keeps.fields] | split | dsimp only

theorem State.refuseWrite_keeps {s t a1 a2 a3} (h : Keeps s t) : Keeps s (State.refuseWrite t a1 a2 a3) := by
  unfold State.refuseWrite
  iterate 100 all_goals try
    first
    | intro _
    | with_reducible
        first
        | assumption | apply State.refuse_keeps | apply State.ok_keeps | apply State.brErr_keeps
        | apply State.irq_keeps | apply State.postedError_keeps | apply Keeps.ite | apply Keeps.foldl
        | (apply Keeps.fst; assumption)
    | simp only [↓Keeps.fields] | split | dsimp only

theorem State.regRead_keeps {s t a1 a2 a3 g4} (h : Keeps s t) (h4 : ∀ y0, Keeps s y0 → Keeps s (g4 y0)) :
    Keeps s (State.regRead t a1 a2 a3 g4) := by
  unfold State.regRead
  iterate 100 all_goals try
    first
    | intro _
    | with_reducible
        first
        | assumption | apply h4 | apply State.refused_keeps | apply State.refuse_keeps | apply State.ok_keeps
        | apply Keeps.ite | apply Keeps.foldl | (apply Keeps.fst; assumption)
    | simp only [↓Keeps.fields] | split | dsimp only

theorem State.regWrite_keeps {s t a1 a2 a3 a4 g5 g6} (h : Keeps s t) (h6 : ∀ y0, Keeps s y0 → Keeps s (g6 y0)) :
    Keeps s (State.regWrite t a1 a2 a3 a4 g5 g6) := by
  unfold State.regWrite
  iterate 100 all_goals try
    first
    | intro _
    | with_reducible
        first
        | assumption | apply h6 | apply State.refused_keeps | apply State.refuseWrite_keeps | apply State.ok_keeps
        | apply Keeps.ite | apply Keeps.foldl | (apply Keeps.fst; assumption)
    | simp only [↓Keeps.fields] | split | dsimp only

theorem State.restLost_keeps {s t a1} (h : Keeps s t) : Keeps s (State.restLost t a1) := by
  unfold State.restLost
  iterate 100 all_goals try
    first
    | intro _
    | with_reducible
        first
        | assumption | apply State.each_keeps | apply State.wrn_keeps | apply Keeps.ite | apply Keeps.foldl
        | (apply Keeps.fst; assumption)
    | simp only [↓Keeps.fields] | split | dsimp only

theorem State.freeBytes_keeps {s a0 a1 t} (h : Keeps s t) : Keeps s (State.freeBytes a0 a1 t) := by
  revert h
  fun_induction State.freeBytes a0 a1 t
  all_goals intro h
  iterate 100 all_goals try
    first
    | intro _
    | with_reducible
        first
        | assumption | apply State.took_keeps | apply State.setByte_keeps | apply Keeps.ite | apply Keeps.foldl
        | (apply Keeps.fst; assumption) | apply_assumption
    | simp only [↓Keeps.fields] | split | dsimp only

theorem State.norProgram_keeps {s t a1 a2 a3} (h : Keeps s t) : Keeps s (State.norProgram t a1 a2 a3) := by
  unfold State.norProgram
  iterate 100 all_goals try
    first
    | intro _
    | with_reducible
        first
        | assumption | apply State.setBytes_keeps | apply Keeps.ite | apply Keeps.foldl
        | (apply Keeps.fst; assumption)
    | simp only [↓Keeps.fields] | split | dsimp only

theorem State.norWorn_keeps {s t a1 a2} (h : Keeps s t) : Keeps s (State.norWorn t a1 a2) := by
  unfold State.norWorn
  iterate 100 all_goals try
    first
    | intro _
    | with_reducible
        first
        | assumption | apply State.set_keeps | apply Keeps.ite | apply Keeps.foldl | (apply Keeps.fst; assumption)
    | simp only [↓Keeps.fields] | split | dsimp only

theorem State.norEraseBlock_keeps {s t a1 a2 a3} (h : Keeps s t) : Keeps s (State.norEraseBlock t a1 a2 a3) :=
  State.norWorn_keeps (Keeps.memFilter h)

theorem State.norApply_keeps {s t a1 a2} (h : Keeps s t) : Keeps s (State.norApply t a1 a2) := by
  unfold State.norApply
  iterate 100 all_goals try
    first
    | intro _
    | with_reducible
        first
        | assumption | apply State.norProgram_keeps | apply State.norEraseBlock_keeps | apply Keeps.ite
        | apply Keeps.foldl | (apply Keeps.fst; assumption)
    | simp only [↓Keeps.fields] | split | dsimp only

theorem State.norDone_keeps {s t a1 a2} (h : Keeps s t) : Keeps s (State.norDone t a1 a2) := by
  unfold State.norDone
  iterate 100 all_goals try
    first
    | intro _
    | with_reducible
        first
        | assumption | apply State.set_keeps | apply State.irq_keeps | apply State.norApply_keeps
        | apply State.freeBytes_keeps | apply State.err_keeps | apply Keeps.ite | apply Keeps.foldl
        | (apply Keeps.fst; assumption)
    | simp only [↓Keeps.fields] | split | dsimp only

theorem State.norSettled_keeps {s t a1} (h : Keeps s t) : Keeps s (State.norSettled t a1) := by
  unfold State.norSettled
  iterate 100 all_goals try
    first
    | intro _
    | with_reducible
        first
        | assumption | apply State.norDone_keeps | apply Keeps.ite | apply Keeps.foldl
        | (apply Keeps.fst; assumption)
    | simp only [↓Keeps.fields] | split | dsimp only

theorem State.coreFaulted_keeps {s t a1 a2 a3 a4 a5 a6} (h : Keeps s t) :
    Keeps s (State.coreFaulted t a1 a2 a3 a4 a5 a6) := by
  unfold State.coreFaulted
  iterate 100 all_goals try
    first
    | intro _
    | with_reducible
        first
        | assumption | apply State.wrn_keeps | apply State.irq_keeps | apply State.cnt_keeps | apply State.err_keeps
        | apply Keeps.ite | apply Keeps.foldl | (apply Keeps.fst; assumption)
    | simp only [↓Keeps.fields] | split | dsimp only

theorem State.secRefuse_keeps {s t a1} (h : Keeps s t) : Keeps s (State.secRefuse t a1) := by
  unfold State.secRefuse
  iterate 100 all_goals try
    first
    | intro _
    | with_reducible
        first
        | assumption | apply State.irq_keeps | apply State.cnt_keeps | apply State.err_keeps | apply Keeps.ite
        | apply Keeps.foldl | (apply Keeps.fst; assumption)
    | simp only [↓Keeps.fields] | split | dsimp only

theorem State.recordStop_keeps {s t a1 a2} (h : Keeps s t) : Keeps s (State.recordStop t a1 a2) := by
  unfold State.recordStop
  iterate 100 all_goals try
    first
    | intro _
    | with_reducible
        first
        | assumption | apply State.secRefuse_keeps | apply State.err_keeps | apply State.errCause_keeps
        | apply State.cnt_keeps | apply Keeps.ite | apply Keeps.foldl | (apply Keeps.fst; assumption)
    | simp only [↓Keeps.fields] | split | dsimp only

theorem State.ramRead_keeps {s t a1 a2 a3 a4} (h : Keeps s t) : Keeps s (State.ramRead t a1 a2 a3 a4).1 := by
  unfold State.ramRead
  iterate 100 all_goals try
    first
    | intro _
    | with_reducible
        first
        | assumption | apply State.recordStop_keeps | apply State.norSettled_keeps | apply Keeps.ite
        | apply Keeps.foldl | (apply Keeps.fst; assumption)
    | simp only [↓Keeps.fields] | split | dsimp only

theorem State.walkFrom_keeps {s t a1 a2 a3 a4 a5 a6} (h : Keeps s t) : Keeps s (State.walkFrom t a1 a2 a3 a4 a5 a6).1 := by
  revert h
  fun_induction State.walkFrom t a1 a2 a3 a4 a5 a6
  all_goals intro h
  iterate 100 all_goals try
    first
    | intro _
    | with_reducible
        first
        | assumption | apply State.secRefuse_keeps | apply State.ramRead_keeps | apply Keeps.ite | apply Keeps.foldl
        | (apply Keeps.fst; assumption) | apply_assumption
    | simp only [↓Keeps.fields] | split | dsimp only

theorem State.walkTtb_keeps {s t a1 a2 a3 a4} (h : Keeps s t) : Keeps s (State.walkTtb t a1 a2 a3 a4).1 := by
  unfold State.walkTtb
  iterate 100 all_goals try
    first
    | intro _
    | with_reducible
        first
        | assumption | apply State.walkFrom_keeps | apply Keeps.ite | apply Keeps.foldl
        | (apply Keeps.fst; assumption)
    | simp only [↓Keeps.fields] | split | dsimp only

theorem State.identity_keeps {s t a1 a2} (h : Keeps s t) : Keeps s (State.identity t a1 a2).1 := by
  unfold State.identity
  iterate 100 all_goals try
    first
    | intro _
    | with_reducible
        first
        | assumption | apply State.secRefuse_keeps | apply Keeps.ite | apply Keeps.foldl
        | (apply Keeps.fst; assumption)
    | simp only [↓Keeps.fields] | split | dsimp only

theorem State.walk_keeps {s t a1 a2 a3} (h : Keeps s t) : Keeps s (State.walk t a1 a2 a3).1 := by
  unfold State.walk
  iterate 100 all_goals try
    first
    | intro _
    | with_reducible
        first
        | assumption | apply State.walkTtb_keeps | apply State.identity_keeps | apply Keeps.ite | apply Keeps.foldl
        | (apply Keeps.fst; assumption)
    | simp only [↓Keeps.fields] | split | dsimp only

theorem State.holdXlat_keeps {s t a1 a2 a3 a4} (h : Keeps s t) : Keeps s (State.holdXlat t a1 a2 a3 a4) := by
  unfold State.holdXlat
  iterate 100 all_goals try
    first
    | intro _
    | with_reducible
        first
        | assumption | apply Keeps.ite | apply Keeps.foldl | (apply Keeps.fst; assumption)
    | simp only [↓Keeps.fields] | split | dsimp only

theorem State.useCached_keeps {s t a1 a2 a3 a4} (h : Keeps s t) : Keeps s (State.useCached t a1 a2 a3 a4).1 := by
  unfold State.useCached
  iterate 100 all_goals try
    first
    | intro _
    | with_reducible
        first
        | assumption | apply State.secRefuse_keeps | apply Keeps.ite | apply Keeps.foldl
        | (apply Keeps.fst; assumption)
    | simp only [↓Keeps.fields] | split | dsimp only

theorem State.translate_keeps {s t a1 a2 a3 a4} (h : Keeps s t) : Keeps s (State.translate t a1 a2 a3 a4).1 := by
  unfold State.translate
  iterate 100 all_goals try
    first
    | intro _
    | with_reducible
        first
        | assumption | apply State.walk_keeps | apply State.holdXlat_keeps | apply State.took_keeps
        | apply State.useCached_keeps | apply Keeps.ite | apply Keeps.foldl | (apply Keeps.fst; assumption)
    | simp only [↓Keeps.fields] | split | dsimp only

theorem State.coreTranslate_keeps {s t a1 a2 a3 a4} (h : Keeps s t) : Keeps s (State.coreTranslate t a1 a2 a3 a4).1 := by
  unfold State.coreTranslate
  iterate 100 all_goals try
    first
    | intro _
    | with_reducible
        first
        | assumption | apply State.translate_keeps | apply State.coreFaulted_keeps | apply State.holdXlat_keeps
        | apply State.cntWrap_keeps | apply State.setMemLE_keeps | apply Keeps.ite | apply Keeps.foldl
        | (apply Keeps.fst; assumption)
    | simp only [↓Keeps.fields] | split | dsimp only

theorem State.dmaFaulted_keeps {s t a1 a2 a3 a4 a5 a6 a7} (h : Keeps s t) :
    Keeps s (State.dmaFaulted t a1 a2 a3 a4 a5 a6 a7) := by
  unfold State.dmaFaulted
  iterate 100 all_goals try
    first
    | intro _
    | with_reducible
        first
        | assumption | apply State.wrn_keeps | apply State.took_keeps | apply State.err_keeps | apply State.irq_keeps
        | apply State.cnt_keeps | apply Keeps.ite | apply Keeps.foldl | (apply Keeps.fst; assumption)
    | simp only [↓Keeps.fields] | split | dsimp only

theorem State.injectWalk_keeps {s t a1 a2 a3} (h : Keeps s t) : Keeps s (State.injectWalk t a1 a2 a3) := by
  unfold State.injectWalk
  iterate 100 all_goals try
    first
    | intro _
    | with_reducible
        first
        | assumption | apply State.dmaFaulted_keeps | apply State.set_keeps | apply Keeps.ite | apply Keeps.foldl
        | (apply Keeps.fst; assumption)
    | simp only [↓Keeps.fields] | split | dsimp only

theorem State.dmcLog_keeps {s t a1 a2 a3 a4} (h : Keeps s t) : Keeps s (State.dmcLog t a1 a2 a3 a4) := by
  unfold State.dmcLog
  iterate 100 all_goals try
    first
    | intro _
    | with_reducible
        first
        | assumption | apply State.wrn_keeps | apply Keeps.ite | apply Keeps.foldl | (apply Keeps.fst; assumption)
    | simp only [↓Keeps.fields] | split | dsimp only

theorem State.poisonRead_keeps {s t a1 a2} (h : Keeps s t) : Keeps s (State.poisonRead t a1 a2) := by
  unfold State.poisonRead
  iterate 100 all_goals try
    first
    | intro _
    | with_reducible
        first
        | assumption | apply State.irq_keeps | apply State.cnt_keeps | apply State.dmcLog_keeps | apply Keeps.ite
        | apply Keeps.foldl | (apply Keeps.fst; assumption)
    | simp only [↓Keeps.fields] | split | dsimp only

theorem State.poisonNoted_keeps {s t a1 a2 a3 a4} (h : Keeps s t) : Keeps s (State.poisonNoted t a1 a2 a3 a4) := by
  unfold State.poisonNoted
  iterate 100 all_goals try
    first
    | intro _
    | with_reducible
        first
        | assumption | apply State.poisonRead_keeps | apply Keeps.ite | apply Keeps.foldl
        | (apply Keeps.fst; assumption)
    | simp only [↓Keeps.fields] | split | dsimp only

theorem State.readBy_keeps {s t a1 a2 a3 a4} (h : Keeps s t) : Keeps s (State.readBy t a1 a2 a3 a4).1 := by
  unfold State.readBy
  iterate 100 all_goals try
    first
    | intro _
    | with_reducible
        first
        | assumption | apply State.ramRead_keeps | apply State.poisonNoted_keeps | apply Keeps.ite
        | apply Keeps.foldl | (apply Keeps.fst; assumption)
    | simp only [↓Keeps.fields] | split | dsimp only

theorem State.dmaReadPiece_keeps {s t a1 a2 a3} (h : Keeps s t) : Keeps s (State.dmaReadPiece t a1 a2 a3).1 := by
  unfold State.dmaReadPiece
  iterate 100 all_goals try
    first
    | intro _
    | with_reducible
        first
        | assumption | apply State.injectWalk_keeps | apply State.translate_keeps | apply State.dmaFaulted_keeps
        | apply State.readBy_keeps | apply Keeps.ite | apply Keeps.foldl | (apply Keeps.fst; assumption)
    | simp only [↓Keeps.fields] | split | dsimp only

theorem State.dmaReadPieces_keeps {s a0 a1 t} (h : Keeps s t) : Keeps s (State.dmaReadPieces a0 a1 t).1 := by
  revert h
  fun_induction State.dmaReadPieces a0 a1 t
  all_goals intro h
  iterate 100 all_goals try
    first
    | intro _
    | with_reducible
        first
        | assumption | apply State.dmaReadPiece_keeps | apply Keeps.ite | apply Keeps.foldl
        | (apply Keeps.fst; assumption) | apply_assumption
    | simp only [↓Keeps.fields] | split | dsimp only

theorem State.dmaRead_keeps {s t a1 a2 a3} (h : Keeps s t) : Keeps s (State.dmaRead t a1 a2 a3).1 := by
  unfold State.dmaRead
  iterate 100 all_goals try
    first
    | intro _
    | with_reducible
        first
        | assumption | apply State.dmaReadPieces_keeps | apply Keeps.ite | apply Keeps.foldl
        | (apply Keeps.fst; assumption)
    | simp only [↓Keeps.fields] | split | dsimp only

theorem State.dplStop_keeps {s t a1} (h : Keeps s t) : Keeps s (State.dplStop t a1) := by
  unfold State.dplStop
  iterate 100 all_goals try
    first
    | intro _
    | with_reducible
        first
        | assumption | apply State.err_keeps | apply State.irq_keeps | apply State.set_keeps | apply Keeps.ite
        | apply Keeps.foldl | (apply Keeps.fst; assumption)
    | simp only [↓Keeps.fields] | split | dsimp only

theorem State.poisonClear_keeps {s t a1} (h : Keeps s t) : Keeps s (State.poisonClear t a1) := by
  unfold State.poisonClear
  iterate 100 all_goals try
    first
    | intro _
    | with_reducible
        first
        | assumption | apply State.set_keeps | apply Keeps.ite | apply Keeps.foldl | (apply Keeps.fst; assumption)
    | simp only [↓Keeps.fields] | split | dsimp only

theorem State.ramWrite_keeps {s t a1 a2 a3 a4} (h : Keeps s t) : Keeps s (State.ramWrite t a1 a2 a3 a4).1 := by
  unfold State.ramWrite
  iterate 100 all_goals try
    first
    | intro _
    | with_reducible
        first
        | assumption | apply State.recordStop_keeps | apply State.setBytes_keeps | apply State.each_keeps
        | apply State.poisonClear_keeps | apply Keeps.ite | apply Keeps.foldl | (apply Keeps.fst; assumption)
    | simp only [↓Keeps.fields] | split | dsimp only

theorem State.dplLog_keeps {s t a1 a2 a3 a4} (h : Keeps s t) : Keeps s (State.dplLog t a1 a2 a3 a4) := by
  unfold State.dplLog
  iterate 100 all_goals try
    first
    | intro _
    | with_reducible
        first
        | assumption | apply State.dplStop_keeps | apply State.translate_keeps | apply State.dmaFaulted_keeps
        | apply State.ramWrite_keeps | apply State.cntWrap_keeps | apply State.set_keeps | apply Keeps.ite
        | apply Keeps.foldl | (apply Keeps.fst; assumption)
    | simp only [↓Keeps.fields] | split | dsimp only

theorem State.dmaWritePiece_keeps {s t a1 a2 a3 a4 a5} (h : Keeps s t) :
    Keeps s (State.dmaWritePiece t a1 a2 a3 a4 a5).1 := by
  unfold State.dmaWritePiece
  iterate 100 all_goals try
    first
    | intro _
    | with_reducible
        first
        | assumption | apply State.injectWalk_keeps | apply State.translate_keeps | apply State.dmaFaulted_keeps
        | apply State.dplLog_keeps | apply State.ramWrite_keeps | apply Keeps.ite | apply Keeps.foldl
        | (apply Keeps.fst; assumption)
    | simp only [↓Keeps.fields] | split | dsimp only

theorem State.dmaWritePieces_keeps {s a0 a1 a2 a3 a4 a5 t} (h : Keeps s t) :
    Keeps s (State.dmaWritePieces a0 a1 a2 a3 a4 a5 t).1 := by
  revert h
  fun_induction State.dmaWritePieces a0 a1 a2 a3 a4 a5 t
  all_goals intro h
  iterate 100 all_goals try
    first
    | intro _
    | with_reducible
        first
        | assumption | apply State.dmaWritePiece_keeps | apply Keeps.ite | apply Keeps.foldl
        | (apply Keeps.fst; assumption) | apply_assumption
    | simp only [↓Keeps.fields] | split | dsimp only

theorem State.dmaWrite_keeps {s t a1 a2 a3 a4 a5} (h : Keeps s t) : Keeps s (State.dmaWrite t a1 a2 a3 a4 a5).1 := by
  unfold State.dmaWrite
  iterate 100 all_goals try
    first
    | intro _
    | with_reducible
        first
        | assumption | apply State.dmaWritePieces_keeps | apply Keeps.ite | apply Keeps.foldl
        | (apply Keeps.fst; assumption)
    | simp only [↓Keeps.fields] | split | dsimp only

theorem State.dropXlats_keeps {s t g1} (h : Keeps s t) : Keeps s (State.dropXlats t g1) := by
  unfold State.dropXlats
  iterate 100 all_goals try
    first
    | intro _
    | with_reducible
        first
        | assumption | apply Keeps.ite | apply Keeps.foldl | (apply Keeps.fst; assumption)
    | simp only [↓Keeps.fields] | split | dsimp only

theorem State.poisonAdd_keeps {s t a1} (h : Keeps s t) : Keeps s (State.poisonAdd t a1) := by
  unfold State.poisonAdd
  iterate 100 all_goals try
    first
    | intro _
    | with_reducible
        first
        | assumption | apply State.set_keeps | apply State.irq_keeps | apply State.err_keeps | apply Keeps.ite
        | apply Keeps.foldl | (apply Keeps.fst; assumption)
    | simp only [↓Keeps.fields] | split | dsimp only

end Sys2Proof.Machine
end

