-- ==== Sys2Proof/Laws/KeepsTime.lean ====
section
/-!
SUPPORT. What every operation keeps (Laws/Keeps): the time base, the plate and the buffers.
-/

set_option linter.all false

namespace Sys2Proof.Machine

theorem State.advanceTo_keeps {s t a1} (h : Keeps s t) : Keeps s (State.advanceTo t a1) := by
  unfold State.advanceTo
  iterate 100 all_goals try
    first
    | intro _
    | with_reducible
        first
        | assumption | apply State.advance_keeps | apply Keeps.ite | apply Keeps.foldl
        | (apply Keeps.fst; assumption)
    | simp only [↓Keeps.fields] | split | dsimp only

theorem State.showFifo_keeps {s t} (h : Keeps s t) : Keeps s (State.showFifo t) := by
  unfold State.showFifo
  iterate 100 all_goals try
    first
    | intro _
    | with_reducible
        first
        | assumption | apply State.set_keeps | apply State.wrn_keeps | apply Keeps.ite | apply Keeps.foldl
        | (apply Keeps.fst; assumption)
    | simp only [↓Keeps.fields] | split | dsimp only

theorem State.pushStamp_keeps {s t a1 a2 a3 a4} (h : Keeps s t) : Keeps s (State.pushStamp t a1 a2 a3 a4) := by
  unfold State.pushStamp
  iterate 100 all_goals try
    first
    | intro _
    | with_reducible
        first
        | assumption | apply State.err_keeps | apply State.irq_keeps | apply State.showFifo_keeps | apply Keeps.ite
        | apply Keeps.foldl | (apply Keeps.fst; assumption)
    | simp only [↓Keeps.fields, ↓Keeps.fieldsTb] | split | dsimp only

theorem State.forwardSync_keeps {s t a1 a2 a3 a4} (h : Keeps s t) : Keeps s (State.forwardSync t a1 a2 a3 a4) := by
  unfold State.forwardSync
  iterate 100 all_goals try
    first
    | intro _
    | with_reducible
        first
        | assumption | apply State.emit_keeps | apply State.took_keeps | apply State.pushStamp_keeps
        | apply Keeps.ite | apply Keeps.foldl | (apply Keeps.fst; assumption)
    | simp only [↓Keeps.fields] | split | dsimp only

theorem State.freeRate_keeps {s t} (h : Keeps s t) : Keeps s (State.freeRate t) := by
  unfold State.freeRate
  iterate 100 all_goals try
    first
    | intro _
    | with_reducible
        first
        | assumption | apply State.took_keeps | apply State.seti_keeps | apply Keeps.ite | apply Keeps.foldl
        | (apply Keeps.fst; assumption)
    | simp only [↓Keeps.fields] | split | dsimp only

theorem State.moveTime_keeps {s t a1} (h : Keeps s t) : Keeps s (State.moveTime t a1) := by
  unfold State.moveTime
  iterate 100 all_goals try
    first
    | intro _
    | with_reducible
        first
        | assumption | apply Keeps.ite | apply Keeps.foldl | (apply Keeps.fst; assumption)
    | simp only [↓Keeps.fields, ↓Keeps.fieldsTb] | split | dsimp only

theorem State.ptpIn_keeps {s t a1 a2 a3} (h : Keeps s t) : Keeps s (State.ptpIn t a1 a2 a3) := by
  unfold State.ptpIn
  iterate 100 all_goals try
    first
    | intro _
    | with_reducible
        first
        | assumption | apply State.each_keeps | apply State.forwardSync_keeps | apply State.pushStamp_keeps
        | apply State.emit_keeps | apply State.took_keeps | apply Keeps.ite | apply Keeps.foldl
        | (apply Keeps.fst; assumption)
    | simp only [↓Keeps.fields] | split | dsimp only

theorem State.refreshAsCap_keeps {s t a1} (h : Keeps s t) : Keeps s (State.refreshAsCap t a1) := by
  unfold State.refreshAsCap
  iterate 100 all_goals try
    first
    | intro _
    | with_reducible
        first
        | assumption | apply State.set_keeps | apply Keeps.ite | apply Keeps.foldl | (apply Keeps.fst; assumption)
    | simp only [↓Keeps.fields] | split | dsimp only

theorem State.servoLock_keeps {s t a1} (h : Keeps s t) : Keeps s (State.servoLock t a1) := by
  unfold State.servoLock
  iterate 100 all_goals try
    first
    | intro _
    | with_reducible
        first
        | assumption | apply State.set_keeps | apply State.irq_keeps | apply Keeps.ite | apply Keeps.foldl
        | (apply Keeps.fst; assumption)
    | simp only [↓Keeps.fields, ↓Keeps.fieldsTb] | split | dsimp only

theorem State.servoSteer_keeps {s t a1} (h : Keeps s t) : Keeps s (State.servoSteer t a1) := by
  unfold State.servoSteer
  iterate 100 all_goals try
    first
    | intro _
    | with_reducible
        first
        | assumption | apply State.moveTime_keeps | apply State.freeRate_keeps | apply Keeps.ite | apply Keeps.foldl
        | (apply Keeps.fst; assumption)
    | simp only [↓Keeps.fields] | split | dsimp only

theorem State.showGm_keeps {s t a1} (h : Keeps s t) : Keeps s (State.showGm t a1) := by
  unfold State.showGm
  iterate 100 all_goals try
    first
    | intro _
    | with_reducible
        first
        | assumption | apply State.irq_keeps | apply State.wr_keeps | apply Keeps.ite | apply Keeps.foldl
        | (apply Keeps.fst; assumption)
    | simp only [↓Keeps.fields] | split | dsimp only

theorem State.snapshot_keeps {s t} (h : Keeps s t) : Keeps s (State.snapshot t) := by
  unfold State.snapshot
  iterate 100 all_goals try
    first
    | intro _
    | with_reducible
        first
        | assumption | apply State.wrn_keeps | apply Keeps.ite | apply Keeps.foldl | (apply Keeps.fst; assumption)
    | simp only [↓Keeps.fields] | split | dsimp only

theorem State.twinTimeWord_keeps {s t a1} (h : Keeps s t) : Keeps s (State.twinTimeWord t a1) := by
  unfold State.twinTimeWord
  iterate 100 all_goals try
    first
    | intro _
    | with_reducible
        first
        | assumption | apply State.seti_keeps | apply State.freeRate_keeps | apply State.err_keeps
        | apply State.irq_keeps | apply State.set_keeps | apply Keeps.ite | apply Keeps.foldl
        | (apply Keeps.fst; assumption)
    | simp only [↓Keeps.fields] | split | dsimp only

theorem ptpPop_keeps {s t} (h : Keeps s t) : Keeps s (ptpPop t) := by
  unfold ptpPop
  iterate 100 all_goals try
    first
    | intro _
    | with_reducible
        first
        | assumption | apply State.showFifo_keeps | apply Keeps.ite | apply Keeps.foldl
        | (apply Keeps.fst; assumption)
    | simp only [↓Keeps.fields, ↓Keeps.fieldsTb] | split | dsimp only

theorem tmbSnapEff_keeps {s a0 t} (h : Keeps s t) : Keeps s (tmbSnapEff a0 t) := by
  unfold tmbSnapEff
  iterate 100 all_goals try
    first
    | intro _
    | with_reducible
        first
        | assumption | apply State.snapshot_keeps | apply State.plain_keeps | apply Keeps.ite | apply Keeps.foldl
        | (apply Keeps.fst; assumption)
    | simp only [↓Keeps.fields] | split | dsimp only

theorem tmbStepEff_keeps {s a0 t} (h : Keeps s t) : Keeps s (tmbStepEff a0 t) := by
  unfold tmbStepEff
  iterate 100 all_goals try
    first
    | intro _
    | with_reducible
        first
        | assumption | apply Keeps.ite | apply Keeps.foldl | (apply Keeps.fst; assumption)
    | simp only [↓Keeps.fields, ↓Keeps.fieldsTb] | split | dsimp only

theorem State.activateTable_keeps {s t} (h : Keeps s t) : Keeps s (State.activateTable t) := by
  unfold State.activateTable
  iterate 100 all_goals try
    first
    | intro _
    | with_reducible
        first
        | assumption | apply State.set_keeps | apply State.each_keeps | apply State.irq_keeps | apply Keeps.ite
        | apply Keeps.foldl | (apply Keeps.fst; assumption)
    | simp only [↓Keeps.fields] | split | dsimp only

theorem State.sendAnnounce_keeps {s t a1 a2 a3 a4} (h : Keeps s t) : Keeps s (State.sendAnnounce t a1 a2 a3 a4) := by
  unfold State.sendAnnounce
  iterate 100 all_goals try
    first
    | intro _
    | with_reducible
        first
        | assumption | apply State.emit_keeps | apply Keeps.ite | apply Keeps.foldl | (apply Keeps.fst; assumption)
    | simp only [↓Keeps.fields] | split | dsimp only

theorem State.decideCorrection_keeps {s t a1 a2} (h : Keeps s t) : Keeps s (State.decideCorrection t a1 a2) := by
  unfold State.decideCorrection
  iterate 100 all_goals try
    first
    | intro _
    | with_reducible
        first
        | assumption | apply State.sendAnnounce_keeps | apply Keeps.ite | apply Keeps.foldl
        | (apply Keeps.fst; assumption)
    | simp only [↓Keeps.fields] | split | dsimp only

theorem State.planReindex_keeps {s t a1 a2} (h : Keeps s t) : Keeps s (State.planReindex t a1 a2) := by
  unfold State.planReindex
  iterate 100 all_goals try
    first
    | intro _
    | with_reducible
        first
        | assumption | apply State.sendAnnounce_keeps | apply Keeps.ite | apply Keeps.foldl
        | (apply Keeps.fst; assumption)
    | simp only [↓Keeps.fields] | split | dsimp only

theorem State.measure_keeps {s t a1 a2} (h : Keeps s t) : Keeps s (State.measure t a1 a2) := by
  unfold State.measure
  iterate 100 all_goals try
    first
    | intro _
    | with_reducible
        first
        | assumption | apply State.seti_keeps | apply State.decideCorrection_keeps | apply State.planReindex_keeps
        | apply Keeps.ite | apply Keeps.foldl | (apply Keeps.fst; assumption)
    | simp only [↓Keeps.fields] | split | dsimp only

theorem State.reference_keeps {s t a1 a2} (h : Keeps s t) : Keeps s (State.reference t a1 a2) := by
  unfold State.reference
  iterate 100 all_goals try
    first
    | intro _
    | with_reducible
        first
        | assumption | apply State.measure_keeps | apply Keeps.ite | apply Keeps.foldl
        | (apply Keeps.fst; assumption)
    | simp only [↓Keeps.fields] | split | dsimp only

theorem State.annBoundary_keeps {s t a1 a2 a3 a4} (h : Keeps s t) : Keeps s (State.annBoundary t a1 a2 a3 a4) := by
  unfold State.annBoundary
  iterate 100 all_goals try
    first
    | intro _
    | with_reducible
        first
        | assumption | apply State.wrn_keeps | apply State.reference_keeps | apply Keeps.ite | apply Keeps.foldl
        | (apply Keeps.fst; assumption)
    | simp only [↓Keeps.fields] | split | dsimp only

theorem State.armPlate_keeps {s t a1} (h : Keeps s t) : Keeps s (State.armPlate t a1) := by
  unfold State.armPlate
  iterate 100 all_goals try
    first
    | intro _
    | with_reducible
        first
        | assumption | apply Keeps.ite | apply Keeps.foldl | (apply Keeps.fst; assumption)
    | simp only [↓Keeps.fields] | split | dsimp only

theorem State.reachPos_keeps {s t a1 a2} (h : Keeps s t) : Keeps s (State.reachPos t a1 a2) := by
  unfold State.reachPos
  iterate 100 all_goals try
    first
    | intro _
    | with_reducible
        first
        | assumption | apply State.set_keeps | apply Keeps.ite | apply Keeps.foldl | (apply Keeps.fst; assumption)
    | simp only [↓Keeps.fields] | split | dsimp only

theorem State.waited_keeps {s t a1 a2} (h : Keeps s t) : Keeps s (State.waited t a1 a2) := by
  unfold State.waited
  iterate 100 all_goals try
    first
    | intro _
    | with_reducible
        first
        | assumption | apply State.measure_keeps | apply Keeps.ite | apply Keeps.foldl
        | (apply Keeps.fst; assumption)
    | simp only [↓Keeps.fields] | split | dsimp only

theorem State.beginCycle_keeps {s t a1 a2 a3} (h : Keeps s t) : Keeps s (State.beginCycle t a1 a2 a3) := by
  unfold State.beginCycle
  iterate 100 all_goals try
    first
    | intro _
    | with_reducible
        first
        | assumption | apply State.activateTable_keeps | apply State.wrn_keeps | apply State.emit_keeps
        | apply State.set_keeps | apply State.seti_keeps | apply State.reachPos_keeps
        | apply State.sendAnnounce_keeps | apply State.each_keeps | apply State.waited_keeps | apply Keeps.ite
        | apply Keeps.foldl | (apply Keeps.fst; assumption)
    | simp only [↓Keeps.fields] | split | dsimp only

theorem State.commitTable_keeps {s t} (h : Keeps s t) : Keeps s (State.commitTable t) := by
  unfold State.commitTable
  iterate 100 all_goals try
    first
    | intro _
    | with_reducible
        first
        | assumption | apply State.set_keeps | apply State.err_keeps | apply State.irq_keeps | apply Keeps.ite
        | apply Keeps.foldl | (apply Keeps.fst; assumption)
    | simp only [↓Keeps.fields] | split | dsimp only

theorem State.firstAct_keeps {s t a1} (h : Keeps s t) : Keeps s (State.firstAct t a1).1 := by
  unfold State.firstAct
  iterate 100 all_goals try
    first
    | intro _
    | with_reducible
        first
        | assumption | apply Keeps.ite | apply Keeps.foldl | (apply Keeps.fst; assumption)
    | simp only [↓Keeps.fields] | split | dsimp only

theorem State.startPlate_keeps {s t a1 a2} (h : Keeps s t) : Keeps s (State.startPlate t a1 a2).1 := by
  unfold State.startPlate
  iterate 100 all_goals try
    first
    | intro _
    | with_reducible
        first
        | assumption | apply State.firstAct_keeps | apply State.beginCycle_keeps | apply Keeps.ite
        | apply Keeps.foldl | (apply Keeps.fst; assumption)
    | simp only [↓Keeps.fields] | split | dsimp only

theorem State.cycSync_keeps {s t a1} (h : Keeps s t) : Keeps s (State.cycSync t a1).1 := by
  unfold State.cycSync
  iterate 100 all_goals try
    first
    | intro _
    | with_reducible
        first
        | assumption | apply State.cnt_keeps | apply State.irq_keeps | apply State.wrn_keeps
        | apply State.startPlate_keeps | apply State.set_keeps | apply State.reference_keeps | apply Keeps.ite
        | apply Keeps.foldl | (apply Keeps.fst; assumption)
    | simp only [↓Keeps.fields] | split | dsimp only

theorem State.plateConsumers_keeps {s t a1} (h : Keeps s t) : Keeps s (State.plateConsumers t a1) := by
  unfold State.plateConsumers
  iterate 100 all_goals try
    first
    | intro _
    | with_reducible
        first
        | assumption | apply State.emit_keeps | apply State.each_keeps | apply State.set_keeps | apply Keeps.ite
        | apply Keeps.foldl | (apply Keeps.fst; assumption)
    | simp only [↓Keeps.fields] | split | dsimp only

theorem State.plateJump_keeps {s t a1} (h : Keeps s t) : Keeps s (State.plateJump t a1).1 := by
  unfold State.plateJump
  split
  · exact h
  · next r _ =>
    extract_lets L f forward phase _ s1 s2 newPhase b _ s3 k _ s4 landed r1
    have h2 : Keeps s s2 := State.cnt_keeps (State.err_keeps (State.irq_keeps (Keeps.fields.2 h)))
    have h3 : Keeps s s3 := Keeps.ite (State.beginCycle_keeps h2) (Keeps.fields.2 h2)
    have h4 : Keeps s s4 := State.reachPos_keeps (Keeps.fields.2 h3)
    have h5 : Keeps s r1.1 := by
      unfold r1
      split
      · exact State.firstAct_keeps h4
      · exact Keeps.mk1 h4
    exact Keeps.mk1 h5

theorem State.plateEdge_keeps {s t} (h : Keeps s t) : Keeps s (State.plateEdge t).1 := by
  unfold State.plateEdge
  split
  · exact h
  · extract_lets isB te k s1 _ s2 r j
    have h1 : Keeps s s1 := State.advanceTo_keeps h
    have h2 : Keeps s s2 := Keeps.ite (State.beginCycle_keeps h1) (State.reachPos_keeps (Keeps.fields.2 h1))
    have h3 : Keeps s r.1 := State.firstAct_keeps h2
    have h4 : Keeps s j.1 := by
      unfold j
      split
      · exact State.plateJump_keeps h3
      · exact Keeps.mk1 h3
    exact Keeps.mk1 h4

theorem State.plateSoftReset_keeps {s t} (h : Keeps s t) : Keeps s (State.plateSoftReset t) := by
  unfold State.plateSoftReset
  iterate 100 all_goals try
    first
    | intro _
    | with_reducible
        first
        | assumption | apply State.set_keeps | apply State.resetPage_keeps | apply State.planReindex_keeps
        | apply Keeps.ite | apply Keeps.foldl | (apply Keeps.fst; assumption)
    | simp only [↓Keeps.fields] | split | dsimp only

theorem State.plateStarting_keeps {s t} (h : Keeps s t) : ∀ t2 v2, State.plateStarting t = some (t2, v2) → Keeps s t2 := by
  intro t2 v2 e
  have k : ∀ q t0 c, some ((t.advanceTo q).startPlate t0 c) = some (t2, v2) → Keeps s t2 := fun q t0 c e =>
    Keeps.fst (Option.some.inj e) (State.startPlate_keeps (State.advanceTo_keeps h))
  unfold State.plateStarting at e
  dsimp only at e
  split at e
  · cases e
  · split at e
    · cases e
    · split at e
      · split at e
        · exact k _ _ _ e
        · cases e
      · split at e
        · exact k _ _ _ e
        · split at e
          · exact k _ _ _ e
          · cases e

theorem ixpCtrlEff_keeps {s a0 t} (h : Keeps s t) : Keeps s (ixpCtrlEff a0 t) := by
  unfold ixpCtrlEff
  iterate 100 all_goals try
    first
    | intro _
    | with_reducible
        first
        | assumption | apply State.plain_keeps | apply State.commitTable_keeps | apply Keeps.ite | apply Keeps.foldl
        | (apply Keeps.fst; assumption)
    | simp only [↓Keeps.fields] | split | dsimp only

theorem execPlateAnnouncement_keeps {s a0 a1 a2 a3 a4 a5 a6 t} (h : Keeps s t) :
    ∀ u, execPlateAnnouncement a0 a1 a2 a3 a4 a5 a6 t = .next u → Keeps s u := by
  intro u e
  unfold execPlateAnnouncement at e
  cases e
  iterate 100 all_goals try
    first
    | intro _
    | with_reducible
        first
        | assumption | apply State.advance_keeps | apply State.annBoundary_keeps | apply Keeps.ite
        | apply Keeps.foldl | (apply Keeps.fst; assumption)
    | simp only [↓Keeps.fields] | split | dsimp only

theorem State.creditRunAt_keeps {s t a1 a2} (h : Keeps s t) : Keeps s (State.creditRunAt t a1 a2) := by
  unfold State.creditRunAt
  iterate 100 all_goals try
    first
    | intro _
    | with_reducible
        first
        | assumption | apply Keeps.ite | apply Keeps.foldl | (apply Keeps.fst; assumption)
    | simp only [↓Keeps.fields] | split | dsimp only

theorem State.creditRun_keeps {s t a1} (h : Keeps s t) : Keeps s (State.creditRun t a1) := by
  unfold State.creditRun
  iterate 100 all_goals try
    first
    | intro _
    | with_reducible
        first
        | assumption | apply State.creditRunAt_keeps | apply Keeps.ite | apply Keeps.foldl
        | (apply Keeps.fst; assumption)
    | simp only [↓Keeps.fields] | split | dsimp only

theorem State.tcnt_keeps {s t a1 a2 a3 a4 a5} (h : Keeps s t) : Keeps s (State.tcnt t a1 a2 a3 a4 a5) := by
  unfold State.tcnt
  iterate 100 all_goals try
    first
    | intro _
    | with_reducible
        first
        | assumption | apply State.tset_keeps | apply Keeps.ite | apply Keeps.foldl | (apply Keeps.fst; assumption)
    | simp only [↓Keeps.fields] | split | dsimp only

theorem State.hold1_keeps {s t a1 a2} (h : Keeps s t) : Keeps s (State.hold1 t a1 a2) := by
  unfold State.hold1
  iterate 100 all_goals try
    first
    | intro _
    | with_reducible
        first
        | assumption | apply State.creditRun_keeps | apply State.tcnt_keeps | apply Keeps.ite | apply Keeps.foldl
        | (apply Keeps.fst; assumption)
    | simp only [↓Keeps.fields] | split | dsimp only

theorem State.setSending_keeps {s t a1 a2} (h : Keeps s t) : Keeps s (State.setSending t a1 a2) := by
  unfold State.setSending
  iterate 100 all_goals try
    first
    | intro _
    | with_reducible
        first
        | assumption | apply Keeps.ite | apply Keeps.foldl | (apply Keeps.fst; assumption)
    | simp only [↓Keeps.fields] | split | dsimp only

theorem State.startFrame_keeps {s t a1} (h : Keeps s t) : Keeps s (State.startFrame t a1) := by
  unfold State.startFrame
  iterate 100 all_goals try
    first
    | intro _
    | with_reducible
        first
        | assumption | apply State.setSending_keeps | apply Keeps.ite | apply Keeps.foldl
        | (apply Keeps.fst; assumption)
    | simp only [↓Keeps.fields] | split | dsimp only

theorem State.dropHeld_keeps {s t a1} (h : Keeps s t) : Keeps s (State.dropHeld t a1) := by
  unfold State.dropHeld
  iterate 100 all_goals try
    first
    | intro _
    | with_reducible
        first
        | assumption | apply Keeps.ite | apply Keeps.foldl | (apply Keeps.fst; assumption)
    | simp only [↓Keeps.fields] | split | dsimp only

theorem State.evict_keeps {s t a0 a1 a2 a3} (h : Keeps s t) : Keeps s (State.evict a0 a1 a2 a3 t).1 := by
  induction a3 generalizing t a2 with
  | nil => exact h
  | cons v l ih =>
    unfold State.evict
    split
    · exact h
    · split
      · exact State.startFrame_keeps h
      · exact ih (State.cnt32_keeps (State.tcnt_keeps (State.dropHeld_keeps h)))

theorem State.pushOut_keeps {s t a1 a2} (h : Keeps s t) : Keeps s (State.pushOut t a1 a2).1 := by
  unfold State.pushOut
  iterate 100 all_goals try
    first
    | intro _
    | with_reducible
        first
        | assumption | apply State.evict_keeps | apply State.hold1_keeps | apply Keeps.ite | apply Keeps.foldl
        | (apply Keeps.fst; assumption)
    | simp only [↓Keeps.fields] | split | dsimp only

theorem State.tailDrop_keeps {s t a1} (h : Keeps s t) : Keeps s (State.tailDrop t a1) := by
  unfold State.tailDrop
  iterate 100 all_goals try
    first
    | intro _
    | with_reducible
        first
        | assumption | apply State.tcnt_keeps | apply Keeps.ite | apply Keeps.foldl | (apply Keeps.fst; assumption)
    | simp only [↓Keeps.fields] | split | dsimp only

theorem State.admitLate_keeps {s t a1 a2 a3} (h : Keeps s t) : Keeps s (State.admitLate t a1 a2 a3).1 := by
  unfold State.admitLate
  iterate 100 all_goals try
    first
    | intro _
    | with_reducible
        first
        | assumption | apply State.hold1_keeps | apply State.pushOut_keeps | apply State.tailDrop_keeps
        | apply Keeps.ite | apply Keeps.foldl | (apply Keeps.fst; assumption)
    | simp only [↓Keeps.fields] | split | dsimp only

theorem State.splFill_keeps {s t a1} (h : Keeps s t) : Keeps s (State.splFill t a1) := by
  unfold State.splFill
  iterate 100 all_goals try
    first
    | intro _
    | with_reducible
        first
        | assumption | apply Keeps.ite | apply Keeps.foldl | (apply Keeps.fst; assumption)
    | simp only [↓Keeps.fields] | split | dsimp only

theorem State.errLimited_keeps {s t a1 a2 a3 a4 a5} (h : Keeps s t) : Keeps s (State.errLimited t a1 a2 a3 a4 a5) := by
  unfold State.errLimited
  iterate 100 all_goals try
    first
    | intro _
    | with_reducible
        first
        | assumption | apply State.err_keeps | apply Keeps.ite | apply Keeps.foldl | (apply Keeps.fst; assumption)
    | simp only [↓Keeps.fields] | split | dsimp only

theorem State.trySpill_keeps {s t a1} (h : Keeps s t) : Keeps s (State.trySpill t a1).1 := by
  unfold State.trySpill
  iterate 100 all_goals try
    first
    | intro _
    | with_reducible
        first
        | assumption | apply State.splFill_keeps | apply State.errLimited_keeps | apply State.set_keeps
        | apply State.irq_keeps | apply State.cnt32_keeps | apply State.tcnt_keeps | apply State.hold1_keeps
        | apply Keeps.ite | apply Keeps.foldl | (apply Keeps.fst; assumption)
    | simp only [↓Keeps.fields] | split | dsimp only

theorem State.admitOnChip_keeps {s t a1 a2 a3} (h : Keeps s t) : Keeps s (State.admitOnChip t a1 a2 a3).1 := by
  unfold State.admitOnChip
  iterate 100 all_goals try
    first
    | intro _
    | with_reducible
        first
        | assumption | apply State.hold1_keeps | apply State.trySpill_keeps | apply State.admitLate_keeps
        | apply Keeps.ite | apply Keeps.foldl | (apply Keeps.fst; assumption)
    | simp only [↓Keeps.fields] | split | dsimp only

theorem State.freeDram_keeps {s t a1} (h : Keeps s t) : Keeps s (State.freeDram t a1) := by
  unfold State.freeDram
  iterate 100 all_goals try
    first
    | intro _
    | with_reducible
        first
        | assumption | apply State.set_keeps | apply Keeps.ite | apply Keeps.foldl | (apply Keeps.fst; assumption)
    | simp only [↓Keeps.fields] | split | dsimp only

theorem State.release_keeps {s t a1} (h : Keeps s t) : Keeps s (State.release t a1) := by
  unfold State.release
  iterate 100 all_goals try
    first
    | intro _
    | with_reducible
        first
        | assumption | apply State.freeDram_keeps | apply State.dropHeld_keeps | apply Keeps.ite | apply Keeps.foldl
        | (apply Keeps.fst; assumption)
    | simp only [↓Keeps.fields] | split | dsimp only

theorem State.setXoff_keeps {s t a1 a2 a3} (h : Keeps s t) : Keeps s (State.setXoff t a1 a2 a3) := by
  unfold State.setXoff
  iterate 100 all_goals try
    first
    | intro _
    | with_reducible
        first
        | assumption | apply State.tfSet_keeps | apply Keeps.ite | apply Keeps.foldl | (apply Keeps.fst; assumption)
    | simp only [↓Keeps.fields] | split | dsimp only

theorem State.judgeGroup_keeps {s t a1} (h : Keeps s t) : Keeps s (State.judgeGroup t a1) := by
  unfold State.judgeGroup
  iterate 100 all_goals try
    first
    | intro _
    | with_reducible
        first
        | assumption | apply State.setXoff_keeps | apply Keeps.ite | apply Keeps.foldl
        | (apply Keeps.fst; assumption)
    | simp only [↓Keeps.fields] | split | dsimp only

theorem State.settle_keeps {s t} (h : Keeps s t) : Keeps s (State.settle t) := by
  unfold State.settle
  iterate 100 all_goals try
    first
    | intro _
    | with_reducible
        first
        | assumption | apply State.each_keeps | apply State.set_keeps | apply State.judgeGroup_keeps
        | apply Keeps.ite | apply Keeps.foldl | (apply Keeps.fst; assumption)
    | simp only [↓Keeps.fields] | split | dsimp only

theorem State.dropPort_keeps {s t a1} (h : Keeps s t) : Keeps s (State.dropPort t a1) := by
  unfold State.dropPort
  iterate 100 all_goals try
    first
    | intro _
    | with_reducible
        first
        | assumption | apply State.cnt32_keeps | apply State.each_keeps | apply State.release_keeps
        | apply State.settle_keeps | apply Keeps.ite | apply Keeps.foldl | (apply Keeps.fst; assumption)
    | simp only [↓Keeps.fields] | split | dsimp only

theorem State.ingressTurn_keeps {s t a1} (h : Keeps s t) : Keeps s (State.ingressTurn t a1) := by
  unfold State.ingressTurn
  iterate 100 all_goals try
    first
    | intro _
    | with_reducible
        first
        | assumption | apply State.advance_keeps | apply Keeps.ite | apply Keeps.foldl
        | (apply Keeps.fst; assumption)
    | simp only [↓Keeps.fields] | split | dsimp only

theorem State.wred_keeps {s t a1} (h : Keeps s t) : Keeps s (State.wred t a1).1 := by
  unfold State.wred
  iterate 100 all_goals try
    first
    | intro _
    | with_reducible
        first
        | assumption | apply Keeps.ite | apply Keeps.foldl | (apply Keeps.fst; assumption)
    | simp only [↓Keeps.fields] | split | dsimp only

theorem State.offerCopy_keeps {s t a1 a2 a3} (h : Keeps s t) : Keeps s (State.offerCopy t a1 a2 a3).1 := by
  unfold State.offerCopy
  iterate 100 all_goals try
    first
    | intro _
    | with_reducible
        first
        | assumption | apply State.cnt32_keeps | apply State.tcnt_keeps | apply State.wred_keeps
        | apply State.trySpill_keeps | apply State.admitLate_keeps | apply State.admitOnChip_keeps | apply Keeps.ite
        | apply Keeps.foldl | (apply Keeps.fst; assumption)
    | simp only [↓Keeps.fields] | split | dsimp only

end Sys2Proof.Machine
end

