-- ==== Sys2Proof/Laws/KeepsSwitch.lean ====
section
/-!
SUPPORT. What every operation keeps (Laws/Keeps): the switch: rings, transmission, forwarding, tables.
-/

set_option linter.all false

namespace Sys2Proof.Machine

theorem State.ringDrop_keeps {s t a1 a2} (h : Keeps s t) : Keeps s (State.ringDrop t a1 a2) := by
  unfold State.ringDrop
  iterate 100 all_goals try
    first
    | intro _
    | with_reducible
        first
        | assumption | apply State.errLimited_keeps | apply State.cnt_keeps | apply Keeps.ite | apply Keeps.foldl
        | (apply Keeps.fst; assumption)
    | simp only [↓Keeps.fields] | split | dsimp only

theorem State.rxDescs_keeps {s a0 a1 a2 a3 a4 a5 t} (h : Keeps s t) : Keeps s (State.rxDescs a0 a1 a2 a3 a4 a5 t).1 := by
  revert h
  fun_induction State.rxDescs a0 a1 a2 a3 a4 a5 t
  all_goals intro h
  iterate 100 all_goals try
    first
    | intro _
    | with_reducible
        first
        | assumption | apply State.dmaRead_keeps | apply Keeps.ite | apply Keeps.foldl
        | (apply Keeps.fst; assumption) | apply_assumption
    | simp only [↓Keeps.fields] | split | dsimp only

theorem State.ringHalt_keeps {s t a1 a2 a3} (h : Keeps s t) : Keeps s (State.ringHalt t a1 a2 a3) := by
  unfold State.ringHalt
  iterate 100 all_goals try
    first
    | intro _
    | with_reducible
        first
        | assumption | apply State.err_keeps | apply State.set_keeps | apply Keeps.ite | apply Keeps.foldl
        | (apply Keeps.fst; assumption)
    | simp only [↓Keeps.fields] | split | dsimp only

theorem State.rxFill_keeps {s a0 a1 a2 a3 a4 a5 t} (h : Keeps s t) : Keeps s (State.rxFill a0 a1 a2 a3 a4 a5 t).1 := by
  revert h
  fun_induction State.rxFill a0 a1 a2 a3 a4 a5 t
  all_goals intro h
  iterate 100 all_goals try
    first
    | intro _
    | with_reducible
        first
        | assumption | apply State.dmaWrite_keeps | apply Keeps.ite | apply Keeps.foldl
        | (apply Keeps.fst; assumption) | apply_assumption
    | simp only [↓Keeps.fields] | split | dsimp only

theorem State.ringComplete_keeps {s t a1 a2} (h : Keeps s t) : Keeps s (State.ringComplete t a1 a2) := by
  unfold State.ringComplete
  iterate 100 all_goals try
    first
    | intro _
    | with_reducible
        first
        | assumption | apply State.set_keeps | apply Keeps.ite | apply Keeps.foldl | (apply Keeps.fst; assumption)
    | simp only [↓Keeps.fields] | split | dsimp only

theorem State.ringDeliver_keeps {s t a1 a2 a3} (h : Keeps s t) : Keeps s (State.ringDeliver t a1 a2 a3) := by
  unfold State.ringDeliver
  iterate 100 all_goals try
    first
    | intro _
    | with_reducible
        first
        | assumption | apply State.ringDrop_keeps | apply State.rxDescs_keeps | apply State.ringHalt_keeps
        | apply State.rxFill_keeps | apply State.ringComplete_keeps | apply State.set_keeps | apply Keeps.ite
        | apply Keeps.foldl | (apply Keeps.fst; assumption)
    | simp only [↓Keeps.fields] | split | dsimp only

theorem State.hostDeliver_keeps {s t a1 a2} (h : Keeps s t) : Keeps s (State.hostDeliver t a1 a2) := by
  unfold State.hostDeliver
  iterate 100 all_goals try
    first
    | intro _
    | with_reducible
        first
        | assumption | apply State.cnt_keeps | apply State.ringDeliver_keeps | apply Keeps.ite | apply Keeps.foldl
        | (apply Keeps.fst; assumption)
    | simp only [↓Keeps.fields] | split | dsimp only

theorem State.txWriteBack_keeps {s a0 a1 a2 a3 t} (h : Keeps s t) : Keeps s (State.txWriteBack a0 a1 a2 a3 t) := by
  revert h
  fun_induction State.txWriteBack a0 a1 a2 a3 t
  all_goals intro h
  iterate 100 all_goals try
    first
    | intro _
    | with_reducible
        first
        | assumption | apply State.dmaRead_keeps | apply State.ringHalt_keeps | apply State.dmaWrite_keeps
        | apply Keeps.ite | apply Keeps.foldl | (apply Keeps.fst; assumption) | apply_assumption
    | simp only [↓Keeps.fields] | split | dsimp only

theorem State.txDone_keeps {s t a1 a2 a3 a4} (h : Keeps s t) : Keeps s (State.txDone t a1 a2 a3 a4) := by
  unfold State.txDone
  iterate 100 all_goals try
    first
    | intro _
    | with_reducible
        first
        | assumption | apply State.txWriteBack_keeps | apply State.ringComplete_keeps | apply State.set_keeps
        | apply Keeps.ite | apply Keeps.foldl | (apply Keeps.fst; assumption)
    | simp only [↓Keeps.fields] | split | dsimp only

theorem State.txRead_keeps {s a0 a1 a2 a3 t} (h : Keeps s t) : Keeps s (State.txRead a0 a1 a2 a3 t).1 := by
  revert h
  fun_induction State.txRead a0 a1 a2 a3 t
  all_goals intro h
  iterate 100 all_goals try
    first
    | intro _
    | with_reducible
        first
        | assumption | apply State.dmaRead_keeps | apply Keeps.ite | apply Keeps.foldl
        | (apply Keeps.fst; assumption) | apply_assumption
    | simp only [↓Keeps.fields] | split | dsimp only

theorem ringCtrlEff_keeps {s a0 a1 a2 t} (h : Keeps s t) : Keeps s (ringCtrlEff a0 a1 a2 t) := by
  unfold ringCtrlEff
  iterate 100 all_goals try
    first
    | intro _
    | with_reducible
        first
        | assumption | apply State.plain_keeps | apply State.set_keeps | apply Keeps.ite | apply Keeps.foldl
        | (apply Keeps.fst; assumption)
    | simp only [↓Keeps.fields] | split | dsimp only

theorem splCntClrEff_keeps {s a0 a1 t} (h : Keeps s t) : Keeps s (splCntClrEff a0 a1 t) := by
  unfold splCntClrEff
  iterate 100 all_goals try
    first
    | intro _
    | with_reducible
        first
        | assumption | apply State.wr_keeps | apply Keeps.ite | apply Keeps.foldl | (apply Keeps.fst; assumption)
    | simp only [↓Keeps.fields] | split | dsimp only

theorem State.countIgnored_keeps {s t a1} (h : Keeps s t) : Keeps s (State.countIgnored t a1) := by
  unfold State.countIgnored
  iterate 100 all_goals try
    first
    | intro _
    | with_reducible
        first
        | assumption | apply Keeps.ite | apply Keeps.foldl | (apply Keeps.fst; assumption)
    | simp only [↓Keeps.fields] | split | dsimp only

theorem State.cutFrame_keeps {s t a1 a2 a3} (h : Keeps s t) : Keeps s (State.cutFrame t a1 a2 a3) := by
  unfold State.cutFrame
  iterate 100 all_goals try
    first
    | intro _
    | with_reducible
        first
        | assumption | apply State.cnt32_keeps | apply Keeps.ite | apply Keeps.foldl | (apply Keeps.fst; assumption)
    | simp only [↓Keeps.fields] | split | dsimp only

theorem State.dropLong_keeps {s a0 a1 t} (h : Keeps s t) : Keeps s (State.dropLong a0 a1 t) := by
  revert h
  fun_induction State.dropLong a0 a1 t
  all_goals intro h
  iterate 100 all_goals try
    first
    | intro _
    | with_reducible
        first
        | assumption | apply State.errLimited_keeps | apply State.tcnt_keeps | apply State.release_keeps
        | apply Keeps.ite | apply Keeps.foldl | (apply Keeps.fst; assumption) | apply_assumption
    | simp only [↓Keeps.fields] | split | dsimp only

theorem State.gwPush_keeps {s t a1 a2} (h : Keeps s t) : Keeps s (State.gwPush t a1 a2) := by
  unfold State.gwPush
  iterate 100 all_goals try
    first
    | intro _
    | with_reducible
        first
        | assumption | apply State.errLimited_keeps | apply State.cnt32_keeps | apply State.set_keeps
        | apply Keeps.gwIn | apply Keeps.ite | apply Keeps.foldl | (apply Keeps.fst; assumption)
    | simp only [↓Keeps.fields] | split | dsimp only

theorem State.mirrorOut_keeps {s t a1} (h : Keeps s t) : Keeps s (State.mirrorOut t a1) := by
  unfold State.mirrorOut
  iterate 100 all_goals try
    first
    | intro _
    | with_reducible
        first
        | assumption | apply State.hostDeliver_keeps | apply State.cnt32_keeps | apply State.offerCopy_keeps
        | apply Keeps.ite | apply Keeps.foldl | (apply Keeps.fst; assumption)
    | simp only [↓Keeps.fields] | split | dsimp only

theorem State.ptpSent_keeps {s t a1 a2} (h : Keeps s t) : Keeps s (State.ptpSent t a1 a2).1 := by
  unfold State.ptpSent
  iterate 100 all_goals try
    first
    | intro _
    | with_reducible
        first
        | assumption | apply State.pushStamp_keeps | apply Keeps.ite | apply Keeps.foldl
        | (apply Keeps.fst; assumption)
    | simp only [↓Keeps.fields] | split | dsimp only

theorem State.sent_keeps {s t a1 a2} (h : Keeps s t) : Keeps s (State.sent t a1 a2) := by
  unfold State.sent
  iterate 100 all_goals try
    first
    | intro _
    | with_reducible
        first
        | assumption | apply State.countIgnored_keeps | apply State.release_keeps | apply State.cnt64_keeps
        | apply State.cnt32_keeps | apply State.each_keeps | apply State.hostDeliver_keeps | apply State.gwPush_keeps
        | apply State.mirrorOut_keeps | apply State.ptpSent_keeps | apply State.emit_keeps | apply Keeps.ite
        | apply Keeps.foldl | (apply Keeps.fst; assumption)
    | simp only [↓Keeps.fields] | split | dsimp only

theorem State.selectNext_keeps {s t a1} (h : Keeps s t) : Keeps s (State.selectNext t a1) := by
  unfold State.selectNext
  iterate 100 all_goals try
    first
    | intro _
    | with_reducible
        first
        | assumption | apply State.dropLong_keeps | apply State.startFrame_keeps | apply State.setSending_keeps
        | apply Keeps.ite | apply Keeps.foldl | (apply Keeps.fst; assumption)
    | simp only [↓Keeps.fields] | split | dsimp only

theorem State.sendPause_keeps {s t a1 a2} (h : Keeps s t) : Keeps s (State.sendPause t a1 a2) := by
  unfold State.sendPause
  iterate 100 all_goals try
    first
    | intro _
    | with_reducible
        first
        | assumption | apply State.tcnt_keeps | apply State.emit_keeps | apply Keeps.ite | apply Keeps.foldl
        | (apply Keeps.fst; assumption)
    | simp only [↓Keeps.fields] | split | dsimp only

theorem State.pausesDue_keeps {s t a1} (h : Keeps s t) : Keeps s (State.pausesDue t a1) := by
  unfold State.pausesDue
  iterate 100 all_goals try
    first
    | intro _
    | with_reducible
        first
        | assumption | apply State.each_keeps | apply State.sendPause_keeps | apply Keeps.ite | apply Keeps.foldl
        | (apply Keeps.fst; assumption)
    | simp only [↓Keeps.fields] | split | dsimp only

theorem State.frameEnd_keeps {s t a1 a2} (h : Keeps s t) : Keeps s (State.frameEnd t a1 a2) := by
  unfold State.frameEnd
  iterate 100 all_goals try
    first
    | intro _
    | with_reducible
        first
        | assumption | apply State.cnt32_keeps | apply State.sent_keeps | apply State.settle_keeps
        | apply State.selectNext_keeps | apply State.pausesDue_keeps | apply Keeps.ite | apply Keeps.foldl
        | (apply Keeps.fst; assumption)
    | simp only [↓Keeps.fields] | split | dsimp only

theorem State.gclActivate_keeps {s t} (h : Keeps s t) : Keeps s (State.gclActivate t) := by
  unfold State.gclActivate
  iterate 100 all_goals try
    first
    | intro _
    | with_reducible
        first
        | assumption | apply State.each_keeps | apply State.tset_keeps | apply Keeps.ite | apply Keeps.foldl
        | (apply Keeps.fst; assumption)
    | simp only [↓Keeps.fields] | split | dsimp only

theorem State.holdAtEdge_keeps {s t g1 a2} (h : Keeps s t) : Keeps s (State.holdAtEdge t g1 a2) := by
  unfold State.holdAtEdge
  iterate 100 all_goals try
    first
    | intro _
    | with_reducible
        first
        | assumption | apply Keeps.ite | apply Keeps.foldl | (apply Keeps.fst; assumption)
    | simp only [↓Keeps.fields] | split | dsimp only

theorem State.gatesAtEdge_keeps {s t a1 a2} (h : Keeps s t) : Keeps s (State.gatesAtEdge t a1 a2) := by
  unfold State.gatesAtEdge
  iterate 100 all_goals try
    first
    | intro _
    | with_reducible
        first
        | assumption | apply State.each_keeps | apply State.creditRunAt_keeps | apply State.gclActivate_keeps
        | apply State.holdAtEdge_keeps | apply Keeps.ite | apply Keeps.foldl | (apply Keeps.fst; assumption)
    | simp only [↓Keeps.fields] | split | dsimp only

theorem State.pauseReceived_keeps {s t a1 a2 a3 a4} (h : Keeps s t) : Keeps s (State.pauseReceived t a1 a2 a3 a4) := by
  unfold State.pauseReceived
  iterate 100 all_goals try
    first
    | intro _
    | with_reducible
        first
        | assumption | apply State.tcnt_keeps | apply State.each_keeps | apply State.tfSet_keeps | apply Keeps.ite
        | apply Keeps.foldl | (apply Keeps.fst; assumption)
    | simp only [↓Keeps.fields] | split | dsimp only

theorem State.preemptAt_keeps {s t a1 a2 a3} (h : Keeps s t) : Keeps s (State.preemptAt t a1 a2 a3) := by
  unfold State.preemptAt
  iterate 100 all_goals try
    first
    | intro _
    | with_reducible
        first
        | assumption | apply State.startFrame_keeps | apply State.pausesDue_keeps | apply State.cutFrame_keeps
        | apply State.setSending_keeps | apply Keeps.ite | apply Keeps.foldl | (apply Keeps.fst; assumption)
    | simp only [↓Keeps.fields] | split | dsimp only

theorem gclCommitEff_keeps {s a0 t} (h : Keeps s t) : Keeps s (gclCommitEff a0 t) := by
  unfold gclCommitEff
  iterate 100 all_goals try
    first
    | intro _
    | with_reducible
        first
        | assumption | apply Keeps.ite | apply Keeps.foldl | (apply Keeps.fst; assumption)
    | simp only [↓Keeps.fields] | split | dsimp only

theorem State.drawTokens_keeps {s t a1} (h : Keeps s t) : Keeps s (State.drawTokens t a1) := by
  unfold State.drawTokens
  iterate 100 all_goals try
    first
    | intro _
    | with_reducible
        first
        | assumption | apply Keeps.ite | apply Keeps.foldl | (apply Keeps.fst; assumption)
    | simp only [↓Keeps.fields] | split | dsimp only

theorem State.budgetCopy_keeps {s t a1 a2 a3} (h : Keeps s t) : Keeps s (State.budgetCopy t a1 a2 a3).1 := by
  unfold State.budgetCopy
  iterate 100 all_goals try
    first
    | intro _
    | with_reducible
        first
        | assumption | apply State.errLimited_keeps | apply State.irq_keeps | apply State.cnt32_keeps
        | apply State.offerCopy_keeps | apply State.drawTokens_keeps | apply Keeps.ite | apply Keeps.foldl
        | (apply Keeps.fst; assumption)
    | simp only [↓Keeps.fields] | split | dsimp only

theorem State.copyStep_keeps {s a0 a1 a2 a3} (h : Keeps s a2.1) : Keeps s (State.copyStep a0 a1 a2 a3).1 := by
  obtain ⟨u, done, first, x⟩ := a2
  unfold State.copyStep
  dsimp only at h ⊢
  have k : Keeps s (if first then u.offerCopy a3 0 a1 else u.budgetCopy a0 a1 a3).1 := by
    split
    · exact State.offerCopy_keeps h
    · exact State.budgetCopy_keeps h
  split <;> exact Keeps.fst (by assumption) k

theorem State.copyFill_keeps {s t} (h : Keeps s t) : Keeps s (State.copyFill t) := by
  unfold State.copyFill
  iterate 100 all_goals try
    first
    | intro _
    | with_reducible
        first
        | assumption | apply Keeps.ite | apply Keeps.foldl | (apply Keeps.fst; assumption)
    | simp only [↓Keeps.fields] | split | dsimp only

theorem State.mirrorCopy_keeps {s t a1 a2 a3} (h : Keeps s t) : Keeps s (State.mirrorCopy t a1 a2 a3) := by
  unfold State.mirrorCopy
  iterate 100 all_goals try
    first
    | intro _
    | with_reducible
        first
        | assumption | apply State.budgetCopy_keeps | apply State.cnt32_keeps | apply Keeps.ite | apply Keeps.foldl
        | (apply Keeps.fst; assumption)
    | simp only [↓Keeps.fields] | split | dsimp only

theorem State.mirrorEgress_keeps {s t a1 a2} (h : Keeps s t) : Keeps s (State.mirrorEgress t a1 a2) := by
  unfold State.mirrorEgress
  iterate 100 all_goals try
    first
    | intro _
    | with_reducible
        first
        | assumption | apply State.mirrorCopy_keeps | apply Keeps.ite | apply Keeps.foldl
        | (apply Keeps.fst; assumption)
    | simp only [↓Keeps.fields] | split | dsimp only

theorem State.copies_keeps {s t a1 a2} (h : Keeps s t) : Keeps s (State.copies t a1 a2).1 := by
  unfold State.copies
  extract_lets hash b lagDest dests cs
  have hfold : ∀ (l : List Copy) (acc : State × List Copy × Bool × Bool), Keeps s acc.1 →
      Keeps s (List.foldl (State.copyStep a1.gen a2) acc l).1 := by
    intro l
    induction l with
    | nil => intro _ k; exact k
    | cons c l ih => intro acc k; exact ih _ (State.copyStep_keeps k)
  have h2 := hfold cs (t.copyFill, [], true, false) (State.copyFill_keeps h)
  generalize List.foldl (State.copyStep a1.gen a2) (t.copyFill, [], true, false) cs = p at h2 ⊢
  obtain ⟨s2, done, x, y⟩ := p
  dsimp only at h2 ⊢
  iterate 100 all_goals try
    first
    | intro _
    | with_reducible
        first
        | assumption | apply State.mirrorCopy_keeps | apply State.mirrorEgress_keeps | apply State.each_keeps
        | apply State.settle_keeps | apply Keeps.ite | apply Keeps.foldl | (apply Keeps.fst; assumption)
    | simp only [↓Keeps.fields] | split | dsimp only

theorem State.generate_keeps {s t a1} (h : Keeps s t) : Keeps s (State.generate t a1).1 := by
  unfold State.generate
  iterate 100 all_goals try
    first
    | intro _
    | with_reducible
        first
        | assumption | apply State.tfSet_keeps | apply Keeps.ite | apply Keeps.foldl | (apply Keeps.fst; assumption)
    | simp only [↓Keeps.fields] | split | dsimp only

theorem State.macSee_keeps {s t a1} (h : Keeps s t) : Keeps s (State.macSee t a1) := by
  unfold State.macSee
  iterate 100 all_goals try
    first
    | intro _
    | with_reducible
        first
        | assumption | apply Keeps.ite | apply Keeps.foldl | (apply Keeps.fst; assumption)
    | simp only [↓Keeps.fields] | split | dsimp only

theorem State.learn_keeps {s t a1} (h : Keeps s t) : Keeps s (State.learn t a1) := by
  unfold State.learn
  iterate 100 all_goals try
    first
    | intro _
    | with_reducible
        first
        | assumption | apply State.macSee_keeps | apply State.cnt32_keeps | apply State.tfSet_keeps
        | apply State.err_keeps | apply State.irq_keeps | apply State.tset_keeps | apply Keeps.ite
        | apply Keeps.foldl | (apply Keeps.fst; assumption)
    | simp only [↓Keeps.fields] | split | dsimp only

theorem State.linkLocal_keeps {s t a1 a2} (h : Keeps s t) : Keeps s (State.linkLocal t a1 a2) := by
  unfold State.linkLocal
  iterate 100 all_goals try
    first
    | intro _
    | with_reducible
        first
        | assumption | apply State.copies_keeps | apply Keeps.ite | apply Keeps.foldl | (apply Keeps.fst; assumption)
    | simp only [↓Keeps.fields] | split | dsimp only

theorem State.macReceive_keeps {s t a1 a2} (h : Keeps s t) : Keeps s (State.macReceive t a1 a2).1 := by
  unfold State.macReceive
  iterate 100 all_goals try
    first
    | intro _
    | with_reducible
        first
        | assumption | apply State.cnt32_keeps | apply State.cnt64_keeps | apply Keeps.ite | apply Keeps.foldl
        | (apply Keeps.fst; assumption)
    | simp only [↓Keeps.fields] | split | dsimp only

theorem State.meterColour_keeps {s t a1 a2 a3} (h : Keeps s t) : Keeps s (State.meterColour t a1 a2 a3).1 := by
  unfold State.meterColour
  iterate 100 all_goals try
    first
    | intro _
    | with_reducible
        first
        | assumption | apply State.tfSet_keeps | apply Keeps.ite | apply Keeps.foldl | (apply Keeps.fst; assumption)
    | simp only [↓Keeps.fields] | split | dsimp only

theorem State.streamFilter_keeps {s t a1} (h : Keeps s t) : Keeps s (State.streamFilter t a1).1 := by
  unfold State.streamFilter
  iterate 100 all_goals try
    first
    | intro _
    | with_reducible
        first
        | assumption | apply State.tcnt_keeps | apply State.err_keeps | apply State.tfSet_keeps
        | apply State.meterColour_keeps | apply Keeps.ite | apply Keeps.foldl | (apply Keeps.fst; assumption)
    | simp only [↓Keeps.fields] | split | dsimp only

theorem State.recoverSeq_keeps {s t a1 a2} (h : Keeps s t) : Keeps s (State.recoverSeq t a1 a2).1 := by
  unfold State.recoverSeq
  iterate 100 all_goals try
    first
    | intro _
    | with_reducible
        first
        | assumption | apply State.tcnt_keeps | apply Keeps.ite | apply Keeps.foldl | (apply Keeps.fst; assumption)
    | simp only [↓Keeps.fields] | split | dsimp only

theorem State.recovery_keeps {s t a1} (h : Keeps s t) : Keeps s (State.recovery t a1).1 := by
  unfold State.recovery
  iterate 100 all_goals try
    first
    | intro _
    | with_reducible
        first
        | assumption | apply State.tcnt_keeps | apply State.recoverSeq_keeps | apply Keeps.ite | apply Keeps.foldl
        | (apply Keeps.fst; assumption)
    | simp only [↓Keeps.fields] | split | dsimp only

theorem State.pipeFrom4_keeps {s t a1 a2} (h : Keeps s t) : Keeps s (State.pipeFrom4 t a1 a2).1 := by
  unfold State.pipeFrom4
  iterate 100 all_goals try
    first
    | intro _
    | with_reducible
        first
        | assumption | apply State.streamFilter_keeps | apply State.recovery_keeps | apply State.learn_keeps
        | apply State.cnt32_keeps | apply State.generate_keeps | apply State.copies_keeps | apply Keeps.ite
        | apply Keeps.foldl | (apply Keeps.fst; assumption)
    | simp only [↓Keeps.fields] | split | dsimp only

theorem State.pipeFrom3_keeps {s t a1 a2} (h : Keeps s t) : Keeps s (State.pipeFrom3 t a1 a2).1 := by
  unfold State.pipeFrom3
  iterate 100 all_goals try
    first
    | intro _
    | with_reducible
        first
        | assumption | apply State.cnt32_keeps | apply State.pipeFrom4_keeps | apply Keeps.ite | apply Keeps.foldl
        | (apply Keeps.fst; assumption)
    | simp only [↓Keeps.fields] | split | dsimp only

theorem State.receive_keeps {s t a1 a2} (h : Keeps s t) : Keeps s (State.receive t a1 a2) := by
  unfold State.receive
  iterate 100 all_goals try
    first
    | intro _
    | with_reducible
        first
        | assumption | apply State.ingressTurn_keeps | apply State.macReceive_keeps | apply State.pauseReceived_keeps
        | apply State.ptpIn_keeps | apply State.linkLocal_keeps | apply State.pipeFrom3_keeps | apply Keeps.ite
        | apply Keeps.foldl | (apply Keeps.fst; assumption)
    | simp only [↓Keeps.fields] | split | dsimp only

theorem State.clearEntry_keeps {s t a1 a2} (h : Keeps s t) : Keeps s (State.clearEntry t a1 a2) := by
  unfold State.clearEntry
  iterate 100 all_goals try
    first
    | intro _
    | with_reducible
        first
        | assumption | apply State.tset_keeps | apply Keeps.ite | apply Keeps.foldl | (apply Keeps.fst; assumption)
    | simp only [↓Keeps.fields] | split | dsimp only

theorem State.countPending_keeps {s t} (h : Keeps s t) : Keeps s (State.countPending t) := by
  unfold State.countPending
  iterate 100 all_goals try
    first
    | intro _
    | with_reducible
        first
        | assumption | apply State.set_keeps | apply Keeps.ite | apply Keeps.foldl | (apply Keeps.fst; assumption)
    | simp only [↓Keeps.fields] | split | dsimp only

theorem State.latentReset_keeps {s t a1} (h : Keeps s t) : Keeps s (State.latentReset t a1) := by
  unfold State.latentReset
  iterate 100 all_goals try
    first
    | intro _
    | with_reducible
        first
        | assumption | apply Keeps.ite | apply Keeps.foldl | (apply Keeps.fst; assumption)
    | simp only [↓Keeps.fields] | split | dsimp only

theorem State.macWrote_keeps {s t a1} (h : Keeps s t) : Keeps s (State.macWrote t a1) := by
  unfold State.macWrote
  iterate 100 all_goals try
    first
    | intro _
    | with_reducible
        first
        | assumption | apply Keeps.ite | apply Keeps.foldl | (apply Keeps.fst; assumption)
    | simp only [↓Keeps.fields] | split | dsimp only

theorem State.entryWritten_keeps {s t a1 a2} (h : Keeps s t) : Keeps s (State.entryWritten t a1 a2) := by
  unfold State.entryWritten
  iterate 100 all_goals try
    first
    | intro _
    | with_reducible
        first
        | assumption | apply State.latentReset_keeps | apply State.macWrote_keeps | apply State.macSee_keeps
        | apply State.settle_keeps | apply State.set_keeps | apply Keeps.ite | apply Keeps.foldl
        | (apply Keeps.fst; assumption)
    | simp only [↓Keeps.fields] | split | dsimp only

theorem State.lagStat_keeps {s t} (h : Keeps s t) : Keeps s (State.lagStat t) := by
  unfold State.lagStat
  iterate 100 all_goals try
    first
    | intro _
    | with_reducible
        first
        | assumption | apply State.set_keeps | apply Keeps.ite | apply Keeps.foldl | (apply Keeps.fst; assumption)
    | simp only [↓Keeps.fields] | split | dsimp only

theorem State.linkLost_keeps {s t a1} (h : Keeps s t) : Keeps s (State.linkLost t a1) := by
  unfold State.linkLost
  iterate 100 all_goals try
    first
    | intro _
    | with_reducible
        first
        | assumption | apply State.set_keeps | apply State.dropPort_keeps | apply State.irq_keeps
        | apply State.each_keeps | apply State.err_keeps | apply State.countPending_keeps | apply State.lagStat_keeps
        | apply Keeps.ite | apply Keeps.foldl | (apply Keeps.fst; assumption)
    | simp only [↓Keeps.fields] | split | dsimp only

theorem State.moveTakes_keeps {s t a1 a2} (h : Keeps s t) : Keeps s (State.moveTakes t a1 a2) := by
  unfold State.moveTakes
  iterate 100 all_goals try
    first
    | intro _
    | with_reducible
        first
        | assumption | apply State.set_keeps | apply State.countPending_keeps | apply State.irq_keeps
        | apply Keeps.ite | apply Keeps.foldl | (apply Keeps.fst; assumption)
    | simp only [↓Keeps.fields] | split | dsimp only

theorem State.phyUp_keeps {s t a1} (h : Keeps s t) : Keeps s (State.phyUp t a1) := by
  unfold State.phyUp
  iterate 100 all_goals try
    first
    | intro _
    | with_reducible
        first
        | assumption | apply State.took_keeps | apply State.set_keeps | apply Keeps.ite | apply Keeps.foldl
        | (apply Keeps.fst; assumption)
    | simp only [↓Keeps.fields] | split | dsimp only

theorem State.requestMove_keeps {s t a1 a2} (h : Keeps s t) : Keeps s (State.requestMove t a1 a2) := by
  unfold State.requestMove
  iterate 100 all_goals try
    first
    | intro _
    | with_reducible
        first
        | assumption | apply State.countPending_keeps | apply State.set_keeps | apply Keeps.ite | apply Keeps.foldl
        | (apply Keeps.fst; assumption)
    | simp only [↓Keeps.fields] | split | dsimp only

theorem State.restLink_keeps {s t a1 a2} (h : Keeps s t) : Keeps s (State.restLink t a1 a2) := by
  unfold State.restLink
  iterate 100 all_goals try
    first
    | intro _
    | with_reducible
        first
        | assumption | apply State.set_keeps | apply Keeps.ite | apply Keeps.foldl | (apply Keeps.fst; assumption)
    | simp only [↓Keeps.fields, ↓Keeps.fieldsUp] | split | dsimp only

theorem State.settleRates_keeps {s t a1 a2} (h : Keeps s t) : Keeps s (State.settleRates t a1 a2) := by
  unfold State.settleRates
  iterate 100 all_goals try
    first
    | intro _
    | with_reducible
        first
        | assumption | apply State.creditRun_keeps | apply Keeps.ite | apply Keeps.foldl
        | (apply Keeps.fst; assumption)
    | simp only [↓Keeps.fields] | split | dsimp only

theorem State.storeEntry_keeps {s t a1 a2 a3} (h : Keeps s t) : Keeps s (State.storeEntry t a1 a2 a3) := by
  unfold State.storeEntry
  iterate 100 all_goals try
    first
    | intro _
    | with_reducible
        first
        | assumption | apply State.tset_keeps | apply Keeps.ite | apply Keeps.foldl | (apply Keeps.fst; assumption)
    | simp only [↓Keeps.fields] | split | dsimp only

theorem State.taEnd_keeps {s t a1 a2 a3} (h : Keeps s t) : Keeps s (State.taEnd t a1 a2 a3) := by
  unfold State.taEnd
  iterate 100 all_goals try
    first
    | intro _
    | with_reducible
        first
        | assumption | apply State.set_keeps | apply Keeps.ite | apply Keeps.foldl | (apply Keeps.fst; assumption)
    | simp only [↓Keeps.fields] | split | dsimp only

theorem State.taClearOp_keeps {s t a1 a2 a3} (h : Keeps s t) : Keeps s (State.taClearOp t a1 a2 a3) := by
  unfold State.taClearOp
  iterate 100 all_goals try
    first
    | intro _
    | with_reducible
        first
        | assumption | apply State.tset_keeps | apply State.taEnd_keeps | apply State.latentReset_keeps
        | apply Keeps.ite | apply Keeps.foldl | (apply Keeps.fst; assumption)
    | simp only [↓Keeps.fields] | split | dsimp only

theorem State.taDeleteOp_keeps {s t a1} (h : Keeps s t) : Keeps s (State.taDeleteOp t a1) := by
  unfold State.taDeleteOp
  iterate 100 all_goals try
    first
    | intro _
    | with_reducible
        first
        | assumption | apply State.taEnd_keeps | apply State.clearEntry_keeps | apply State.macWrote_keeps
        | apply Keeps.ite | apply Keeps.foldl | (apply Keeps.fst; assumption)
    | simp only [↓Keeps.fields] | split | dsimp only

theorem State.taFlushOp_keeps {s t a1} (h : Keeps s t) : Keeps s (State.taFlushOp t a1) := by
  unfold State.taFlushOp
  iterate 100 all_goals try
    first
    | intro _
    | with_reducible
        first
        | assumption | apply State.taEnd_keeps | apply State.each_keeps | apply State.clearEntry_keeps
        | apply Keeps.ite | apply Keeps.foldl | (apply Keeps.fst; assumption)
    | simp only [↓Keeps.fields] | split | dsimp only

theorem State.taInsertOp_keeps {s t a1} (h : Keeps s t) : Keeps s (State.taInsertOp t a1) := by
  unfold State.taInsertOp
  iterate 100 all_goals try
    first
    | intro _
    | with_reducible
        first
        | assumption | apply State.taEnd_keeps | apply State.entryWritten_keeps | apply State.tfSet_keeps
        | apply State.storeEntry_keeps | apply Keeps.ite | apply Keeps.foldl | (apply Keeps.fst; assumption)
    | simp only [↓Keeps.fields] | split | dsimp only

theorem State.taLookupOp_keeps {s t a1} (h : Keeps s t) : Keeps s (State.taLookupOp t a1) := by
  unfold State.taLookupOp
  iterate 100 all_goals try
    first
    | intro _
    | with_reducible
        first
        | assumption | apply State.taEnd_keeps | apply Keeps.ite | apply Keeps.foldl | (apply Keeps.fst; assumption)
    | simp only [↓Keeps.fields] | split | dsimp only

theorem State.taReadOp_keeps {s t a1 a2 a3} (h : Keeps s t) : Keeps s (State.taReadOp t a1 a2 a3) := by
  unfold State.taReadOp
  iterate 100 all_goals try
    first
    | intro _
    | with_reducible
        first
        | assumption | apply State.taEnd_keeps | apply State.wrn_keeps | apply Keeps.ite | apply Keeps.foldl
        | (apply Keeps.fst; assumption)
    | simp only [↓Keeps.fields] | split | dsimp only

theorem State.taRefuse_keeps {s t a1 a2 a3} (h : Keeps s t) : Keeps s (State.taRefuse t a1 a2 a3) := by
  unfold State.taRefuse
  iterate 100 all_goals try
    first
    | intro _
    | with_reducible
        first
        | assumption | apply State.taEnd_keeps | apply State.err_keeps | apply Keeps.ite | apply Keeps.foldl
        | (apply Keeps.fst; assumption)
    | simp only [↓Keeps.fields] | split | dsimp only

theorem State.taWriteOp_keeps {s t a1 a2 a3} (h : Keeps s t) : Keeps s (State.taWriteOp t a1 a2 a3) := by
  unfold State.taWriteOp
  iterate 100 all_goals try
    first
    | intro _
    | with_reducible
        first
        | assumption | apply State.storeEntry_keeps | apply State.settleRates_keeps | apply State.taRefuse_keeps
        | apply State.taEnd_keeps | apply State.entryWritten_keeps | apply Keeps.ite | apply Keeps.foldl
        | (apply Keeps.fst; assumption)
    | simp only [↓Keeps.fields] | split | dsimp only

theorem State.taRun_keeps {s t a1} (h : Keeps s t) : Keeps s (State.taRun t a1) := by
  unfold State.taRun
  iterate 100 all_goals try
    first
    | intro _
    | with_reducible
        first
        | assumption | apply State.taRefuse_keeps | apply State.taLookupOp_keeps | apply State.taInsertOp_keeps
        | apply State.taDeleteOp_keeps | apply State.taFlushOp_keeps | apply State.taReadOp_keeps
        | apply State.taWriteOp_keeps | apply State.taClearOp_keeps | apply Keeps.ite | apply Keeps.foldl
        | (apply Keeps.fst; assumption)
    | simp only [↓Keeps.fields] | split | dsimp only

theorem taCmdEff_keeps {s a0 a1 t} (h : Keeps s t) : Keeps s (taCmdEff a0 a1 t) := by
  unfold taCmdEff
  iterate 100 all_goals try
    first
    | intro _
    | with_reducible
        first
        | assumption | apply State.refused_keeps | apply State.err_keeps | apply State.plain_keeps
        | apply State.set_keeps | apply Keeps.ite | apply Keeps.foldl | (apply Keeps.fst; assumption)
    | simp only [↓Keeps.fields] | split | dsimp only

theorem State.taStart_keeps {s t a1 a2 a3 a4} (h : Keeps s t) : Keeps s (State.taStart t a1 a2 a3 a4) := by
  unfold State.taStart
  iterate 100 all_goals try
    first
    | intro _
    | with_reducible
        first
        | assumption | apply State.regWrite_keeps | apply taCmdEff_keeps | apply Keeps.ite | apply Keeps.foldl
        | (apply Keeps.fst; assumption)
    | simp only [↓Keeps.fields] | split | dsimp only

theorem bufWredSeedEff_keeps {s a0 t} (h : Keeps s t) : Keeps s (bufWredSeedEff a0 t) := by
  unfold bufWredSeedEff
  iterate 100 all_goals try
    first
    | intro _
    | with_reducible
        first
        | assumption | apply State.plain_keeps | apply Keeps.ite | apply Keeps.foldl | (apply Keeps.fst; assumption)
    | simp only [↓Keeps.fields] | split | dsimp only

theorem portCntClrEff_keeps {s a0 a1 t} (h : Keeps s t) : Keeps s (portCntClrEff a0 a1 t) := by
  unfold portCntClrEff
  iterate 100 all_goals try
    first
    | intro _
    | with_reducible
        first
        | assumption | apply State.wr_keeps | apply Keeps.ite | apply Keeps.foldl | (apply Keeps.fst; assumption)
    | simp only [↓Keeps.fields] | split | dsimp only

theorem portPreEff_keeps {s a0 a1 t} (h : Keeps s t) : Keeps s (portPreEff a0 a1 t) := by
  unfold portPreEff
  iterate 100 all_goals try
    first
    | intro _
    | with_reducible
        first
        | assumption | apply State.plain_keeps | apply State.emit_keeps | apply State.set_keeps | apply Keeps.ite
        | apply Keeps.foldl | (apply Keeps.fst; assumption)
    | simp only [↓Keeps.fields] | split | dsimp only

theorem selectionEff_keeps {s a0 a1 a2 t} (h : Keeps s t) : Keeps s (selectionEff a0 a1 a2 t) := by
  unfold selectionEff
  iterate 100 all_goals try
    first
    | intro _
    | with_reducible
        first
        | assumption | apply State.requestMove_keeps | apply State.plain_keeps | apply Keeps.ite | apply Keeps.foldl
        | (apply Keeps.fst; assumption)
    | simp only [↓Keeps.fields] | split | dsimp only

theorem swcCntClrEff_keeps {s a0 t} (h : Keeps s t) : Keeps s (swcCntClrEff a0 t) := by
  unfold swcCntClrEff
  iterate 100 all_goals try
    first
    | intro _
    | with_reducible
        first
        | assumption | apply State.wr_keeps | apply Keeps.ite | apply Keeps.foldl | (apply Keeps.fst; assumption)
    | simp only [↓Keeps.fields] | split | dsimp only

theorem hinTxRateEff_keeps {s a0 a1 t} (h : Keeps s t) : Keeps s (hinTxRateEff a0 a1 t) := by
  unfold hinTxRateEff
  iterate 100 all_goals try
    first
    | intro _
    | with_reducible
        first
        | assumption | apply State.plain_keeps | apply Keeps.ite | apply Keeps.foldl | (apply Keeps.fst; assumption)
    | simp only [↓Keeps.fields] | split | dsimp only

theorem isoTraceEff_keeps {s a0 t} (h : Keeps s t) : Keeps s (isoTraceEff a0 t) := by
  unfold isoTraceEff
  iterate 100 all_goals try
    first
    | intro _
    | with_reducible
        first
        | assumption | apply State.plain_keeps | apply State.linkLost_keeps | apply Keeps.ite | apply Keeps.foldl
        | (apply Keeps.fst; assumption)
    | simp only [↓Keeps.fields] | split | dsimp only

theorem portPlain_keeps {s a0 a1 a2 t} (h : Keeps s t) : Keeps s (portPlain a0 a1 a2 t) := by
  unfold portPlain
  iterate 100 all_goals try
    first
    | intro _
    | with_reducible
        first
        | assumption | apply State.plain_keeps | apply Keeps.ite | apply Keeps.foldl | (apply Keeps.fst; assumption)
    | simp only [↓Keeps.fields] | split | dsimp only

theorem splBwEff_keeps {s a0 a1 t} (h : Keeps s t) : Keeps s (splBwEff a0 a1 t) := by
  unfold splBwEff
  iterate 100 all_goals try
    first
    | intro _
    | with_reducible
        first
        | assumption | apply State.plain_keeps | apply State.splFill_keeps | apply Keeps.ite | apply Keeps.foldl
        | (apply Keeps.fst; assumption)
    | simp only [↓Keeps.fields] | split | dsimp only

theorem swcCopyEff_keeps {s a0 t} (h : Keeps s t) : Keeps s (swcCopyEff a0 t) := by
  unfold swcCopyEff
  iterate 100 all_goals try
    first
    | intro _
    | with_reducible
        first
        | assumption | apply State.plain_keeps | apply State.copyFill_keeps | apply Keeps.ite | apply Keeps.foldl
        | (apply Keeps.fst; assumption)
    | simp only [↓Keeps.fields] | split | dsimp only

theorem swcCtrlEff_keeps {s a0 t} (h : Keeps s t) : Keeps s (swcCtrlEff a0 t) := by
  unfold swcCtrlEff
  iterate 100 all_goals try
    first
    | intro _
    | with_reducible
        first
        | assumption | apply State.lagStat_keeps | apply State.plain_keeps | apply Keeps.ite | apply Keeps.foldl
        | (apply Keeps.fst; assumption)
    | simp only [↓Keeps.fields] | split | dsimp only

end Sys2Proof.Machine
end

