-- ==== Sys2Proof/Laws/KeepsBuses.lean ====
section
/-!
SUPPORT. What every operation keeps (Laws/Keeps): CAN controllers and LIN channels.
-/

set_option linter.all false

namespace Sys2Proof.Machine

theorem State.canMod_keeps {s t a1 g2} (h : Keeps s t) : Keeps s (State.canMod t a1 g2) := by
  unfold State.canMod
  iterate 100 all_goals try
    first
    | intro _
    | with_reducible
        first
        | assumption | apply Keeps.canMod | apply Keeps.ite | apply Keeps.foldl | (apply Keeps.fst; assumption)
    | simp only [↓Keeps.fields] | split | dsimp only

theorem State.refDrop_keeps {s t a1 a2} (h : Keeps s t) : Keeps s (State.refDrop t a1 a2) := by
  unfold State.refDrop
  iterate 100 all_goals try
    first
    | intro _
    | with_reducible
        first
        | assumption | apply State.err_keeps | apply State.cnt_keeps | apply State.canMod_keeps | apply Keeps.ite
        | apply Keeps.foldl | (apply Keeps.fst; assumption)
    | simp only [↓Keeps.fields] | split | dsimp only

theorem State.uncancel_keeps {s t a1 a2} (h : Keeps s t) : Keeps s (State.uncancel t a1 a2) := by
  unfold State.uncancel
  iterate 100 all_goals try
    first
    | intro _
    | with_reducible
        first
        | assumption | apply State.canMod_keeps | apply Keeps.ite | apply Keeps.foldl | (apply Keeps.fst; assumption)
    | simp only [↓Keeps.fields] | split | dsimp only

theorem State.objStatus_keeps {s t a1 a2 a3} (h : Keeps s t) : Keeps s (State.objStatus t a1 a2 a3) := by
  unfold State.objStatus
  iterate 100 all_goals try
    first
    | intro _
    | with_reducible
        first
        | assumption | apply State.set_keeps | apply Keeps.ite | apply Keeps.foldl | (apply Keeps.fst; assumption)
    | simp only [↓Keeps.fields] | split | dsimp only

theorem State.gwLate_keeps {s t a1} (h : Keeps s t) : Keeps s (State.gwLate t a1) := by
  unfold State.gwLate
  iterate 100 all_goals try
    first
    | intro _
    | with_reducible
        first
        | assumption | apply State.errLimited_keeps | apply State.tcnt_keeps | apply Keeps.ite | apply Keeps.foldl
        | (apply Keeps.fst; assumption)
    | simp only [↓Keeps.fields] | split | dsimp only

theorem State.objWithdraw_keeps {s t a1 a2} (h : Keeps s t) : Keeps s (State.objWithdraw t a1 a2) := by
  unfold State.objWithdraw
  iterate 100 all_goals try
    first
    | intro _
    | with_reducible
        first
        | assumption | apply State.uncancel_keeps | apply State.objStatus_keeps | apply State.canMod_keeps
        | apply State.gwLate_keeps | apply Keeps.ite | apply Keeps.foldl | (apply Keeps.fst; assumption)
    | simp only [↓Keeps.fields] | split | dsimp only

theorem State.arbLost_keeps {s t a1} (h : Keeps s t) : Keeps s (State.arbLost t a1) := by
  unfold State.arbLost
  iterate 100 all_goals try
    first
    | intro _
    | with_reducible
        first
        | assumption | apply State.canMod_keeps | apply State.refDrop_keeps | apply State.objWithdraw_keeps
        | apply State.objStatus_keeps | apply Keeps.ite | apply Keeps.foldl | (apply Keeps.fst; assumption)
    | simp only [↓Keeps.fields] | split | dsimp only

theorem State.canClear_keeps {s t a1} (h : Keeps s t) : Keeps s (State.canClear t a1) :=
  (Keeps.tabsFilter h).and fun x => by unfold State.canClear State.Sized at *; simpa [setNth] using x

theorem State.canStates_keeps {s t a1} (h : Keeps s t) : Keeps s (State.canStates t a1) := by
  unfold State.canStates
  iterate 100 all_goals try
    first
    | intro _
    | with_reducible
        first
        | assumption | apply State.err_keeps | apply State.irq_keeps | apply State.set_keeps
        | apply State.canMod_keeps | apply Keeps.ite | apply Keeps.foldl | (apply Keeps.fst; assumption)
    | simp only [↓Keeps.fields] | split | dsimp only

theorem State.canIdle_keeps {s t a1} (h : Keeps s t) : Keeps s (State.canIdle t a1) := by
  unfold State.canIdle
  iterate 100 all_goals try
    first
    | intro _
    | with_reducible
        first
        | assumption | apply State.set_keeps | apply Keeps.ite | apply Keeps.foldl | (apply Keeps.fst; assumption)
    | simp only [↓Keeps.fields] | split | dsimp only

theorem State.canLec_keeps {s t a1 a2 a3} (h : Keeps s t) : Keeps s (State.canLec t a1 a2 a3) := by
  unfold State.canLec
  iterate 100 all_goals try
    first
    | intro _
    | with_reducible
        first
        | assumption | apply State.set_keeps | apply Keeps.ite | apply Keeps.foldl | (apply Keeps.fst; assumption)
    | simp only [↓Keeps.fields] | split | dsimp only

theorem State.canHeard_keeps {s t a1} (h : Keeps s t) : Keeps s (State.canHeard t a1) := by
  unfold State.canHeard
  iterate 100 all_goals try
    first
    | intro _
    | with_reducible
        first
        | assumption | apply State.cnt32_keeps | apply State.arbLost_keeps | apply State.canStates_keeps
        | apply State.set_keeps | apply State.canIdle_keeps | apply State.canLec_keeps | apply Keeps.ite
        | apply Keeps.foldl | (apply Keeps.fst; assumption)
    | simp only [↓Keeps.fields] | split | dsimp only

theorem State.objWordSet_keeps {s t a1 a2 a3 a4} (h : Keeps s t) : Keeps s (State.objWordSet t a1 a2 a3 a4) := by
  unfold State.objWordSet
  iterate 100 all_goals try
    first
    | intro _
    | with_reducible
        first
        | assumption | apply State.tset_keeps | apply Keeps.ite | apply Keeps.foldl | (apply Keeps.fst; assumption)
    | simp only [↓Keeps.fields] | split | dsimp only

theorem State.objStore_keeps {s t a1 a2 a3} (h : Keeps s t) : Keeps s (State.objStore t a1 a2 a3) := by
  unfold State.objStore
  iterate 100 all_goals try
    first
    | intro _
    | with_reducible
        first
        | assumption | apply State.objWordSet_keeps | apply Keeps.ite | apply Keeps.foldl
        | (apply Keeps.fst; assumption)
    | simp only [↓Keeps.fields] | split | dsimp only

theorem State.objReceive_keeps {s t a1 a2 a3 a4 a5} (h : Keeps s t) : Keeps s (State.objReceive t a1 a2 a3 a4 a5) := by
  unfold State.objReceive
  iterate 100 all_goals try
    first
    | intro _
    | with_reducible
        first
        | assumption | apply State.objStore_keeps | apply State.tset_keeps | apply State.irq_keeps
        | apply State.set_keeps | apply Keeps.ite | apply Keeps.foldl | (apply Keeps.fst; assumption)
    | simp only [↓Keeps.fields] | split | dsimp only

theorem State.canOffer_keeps {s t a1 a2 a3 a4} (h : Keeps s t) : Keeps s (State.canOffer t a1 a2 a3 a4) := by
  unfold State.canOffer
  iterate 100 all_goals try
    first
    | intro _
    | with_reducible
        first
        | assumption | apply State.gwPush_keeps | apply State.irq_keeps | apply State.set_keeps
        | apply State.canMod_keeps | apply State.objReceive_keeps | apply State.err_keeps | apply Keeps.ite
        | apply Keeps.foldl | (apply Keeps.fst; assumption)
    | simp only [↓Keeps.fields] | split | dsimp only

theorem State.canRxError_keeps {s t a1 a2 a3 a4 a5} (h : Keeps s t) : Keeps s (State.canRxError t a1 a2 a3 a4 a5) := by
  unfold State.canRxError
  iterate 100 all_goals try
    first
    | intro _
    | with_reducible
        first
        | assumption | apply State.arbLost_keeps | apply State.canLec_keeps | apply State.canStates_keeps
        | apply State.set_keeps | apply Keeps.ite | apply Keeps.foldl | (apply Keeps.fst; assumption)
    | simp only [↓Keeps.fields] | split | dsimp only

theorem State.canSent_keeps {s t a1 a2 a3} (h : Keeps s t) : Keeps s (State.canSent t a1 a2 a3) := by
  unfold State.canSent
  iterate 100 all_goals try
    first
    | intro _
    | with_reducible
        first
        | assumption | apply State.emit_keeps | apply State.set_keeps | apply State.cnt32_keeps
        | apply State.canIdle_keeps | apply State.canLec_keeps | apply State.canStates_keeps
        | apply State.canOffer_keeps | apply Keeps.ite | apply Keeps.foldl | (apply Keeps.fst; assumption)
    | simp only [↓Keeps.fields] | split | dsimp only

theorem State.canXcvrBack_keeps {s t a1} (h : Keeps s t) : Keeps s (State.canXcvrBack t a1) := by
  unfold State.canXcvrBack
  iterate 100 all_goals try
    first
    | intro _
    | with_reducible
        first
        | assumption | apply State.canMod_keeps | apply State.set_keeps | apply Keeps.ite | apply Keeps.foldl
        | (apply Keeps.fst; assumption)
    | simp only [↓Keeps.fields] | split | dsimp only

theorem State.canXcvrLost_keeps {s t a1} (h : Keeps s t) : Keeps s (State.canXcvrLost t a1) := by
  unfold State.canXcvrLost
  iterate 100 all_goals try
    first
    | intro _
    | with_reducible
        first
        | assumption | apply State.canMod_keeps | apply State.objStatus_keeps | apply State.err_keeps
        | apply State.set_keeps | apply Keeps.ite | apply Keeps.foldl | (apply Keeps.fst; assumption)
    | simp only [↓Keeps.fields] | split | dsimp only

theorem State.guardEnds_keeps {s t a1 a2 a3} (h : Keeps s t) : Keeps s (State.guardEnds t a1 a2 a3) := by
  unfold State.guardEnds
  iterate 100 all_goals try
    first
    | intro _
    | with_reducible
        first
        | assumption | apply State.canMod_keeps | apply Keeps.ite | apply Keeps.foldl | (apply Keeps.fst; assumption)
    | simp only [↓Keeps.fields] | split | dsimp only

theorem State.objCancel_keeps {s t a1 a2 a3} (h : Keeps s t) : Keeps s (State.objCancel t a1 a2 a3) := by
  unfold State.objCancel
  iterate 100 all_goals try
    first
    | intro _
    | with_reducible
        first
        | assumption | apply State.objWithdraw_keeps | apply State.canMod_keeps | apply State.objStatus_keeps
        | apply Keeps.ite | apply Keeps.foldl | (apply Keeps.fst; assumption)
    | simp only [↓Keeps.fields] | split | dsimp only

theorem State.objRequest_keeps {s t a1 a2} (h : Keeps s t) : Keeps s (State.objRequest t a1 a2) := by
  unfold State.objRequest
  iterate 100 all_goals try
    first
    | intro _
    | with_reducible
        first
        | assumption | apply State.canMod_keeps | apply State.objStatus_keeps | apply Keeps.ite | apply Keeps.foldl
        | (apply Keeps.fst; assumption)
    | simp only [↓Keeps.fields] | split | dsimp only

theorem State.refEdge_keeps {s t a1 a2 a3} (h : Keeps s t) : Keeps s (State.refEdge t a1 a2 a3) := by
  unfold State.refEdge
  iterate 100 all_goals try
    first
    | intro _
    | with_reducible
        first
        | assumption | apply State.refDrop_keeps | apply State.cnt_keeps | apply State.canMod_keeps | apply Keeps.ite
        | apply Keeps.foldl | (apply Keeps.fst; assumption)
    | simp only [↓Keeps.fields] | split | dsimp only

theorem State.refLateStart_keeps {s t a1 a2} (h : Keeps s t) : Keeps s (State.refLateStart t a1 a2) := by
  unfold State.refLateStart
  iterate 100 all_goals try
    first
    | intro _
    | with_reducible
        first
        | assumption | apply State.canMod_keeps | apply State.err_keeps | apply State.irq_keeps
        | apply State.cnt_keeps | apply Keeps.ite | apply Keeps.foldl | (apply Keeps.fst; assumption)
    | simp only [↓Keeps.fields] | split | dsimp only

theorem State.shadowStore_keeps {s t a1} (h : Keeps s t) : Keeps s (State.shadowStore t a1) := by
  unfold State.shadowStore
  iterate 100 all_goals try
    first
    | intro _
    | with_reducible
        first
        | assumption | apply State.objReceive_keeps | apply State.canMod_keeps | apply Keeps.ite | apply Keeps.foldl
        | (apply Keeps.fst; assumption)
    | simp only [↓Keeps.fields] | split | dsimp only

theorem State.tdcMeasure_keeps {s t a1 a2 a3} (h : Keeps s t) : Keeps s (State.tdcMeasure t a1 a2 a3) := by
  unfold State.tdcMeasure
  iterate 100 all_goals try
    first
    | intro _
    | with_reducible
        first
        | assumption | apply State.set_keeps | apply State.canMod_keeps | apply State.errLimited_keeps
        | apply State.cnt32_keeps | apply Keeps.ite | apply Keeps.foldl | (apply Keeps.fst; assumption)
    | simp only [↓Keeps.fields] | split | dsimp only

theorem State.txFailed_keeps {s t a1} (h : Keeps s t) : Keeps s (State.txFailed t a1) := by
  unfold State.txFailed
  iterate 100 all_goals try
    first
    | intro _
    | with_reducible
        first
        | assumption | apply State.canMod_keeps | apply State.uncancel_keeps | apply State.objStatus_keeps
        | apply Keeps.ite | apply Keeps.foldl | (apply Keeps.fst; assumption)
    | simp only [↓Keeps.fields] | split | dsimp only

theorem cxCtrlEff_keeps {s a0 a1 t} (h : Keeps s t) : Keeps s (cxCtrlEff a0 a1 t) := by
  unfold cxCtrlEff
  iterate 100 all_goals try
    first
    | intro _
    | with_reducible
        first
        | assumption | apply State.plain_keeps | apply State.canMod_keeps | apply State.set_keeps | apply Keeps.ite
        | apply Keeps.foldl | (apply Keeps.fst; assumption)
    | simp only [↓Keeps.fields] | split | dsimp only

theorem cxXcvrEff_keeps {s a0 a1 t} (h : Keeps s t) : Keeps s (cxXcvrEff a0 a1 t) := by
  unfold cxXcvrEff
  iterate 100 all_goals try
    first
    | intro _
    | with_reducible
        first
        | assumption | apply State.plain_keeps | apply State.emit_keeps | apply Keeps.ite | apply Keeps.foldl
        | (apply Keeps.fst; assumption)
    | simp only [↓Keeps.fields] | split | dsimp only

theorem objCtrlEff_keeps {s a0 a1 a2 a3 t} (h : Keeps s t) : Keeps s (objCtrlEff a0 a1 a2 a3 t) := by
  unfold objCtrlEff
  iterate 100 all_goals try
    first
    | intro _
    | with_reducible
        first
        | assumption | apply State.plain_keeps | apply State.objRequest_keeps | apply State.objCancel_keeps
        | apply Keeps.ite | apply Keeps.foldl | (apply Keeps.fst; assumption)
    | simp only [↓Keeps.fields] | split | dsimp only

theorem objRelEff_keeps {s a0 t} (h : Keeps s t) : Keeps s (objRelEff a0 t) := by
  unfold objRelEff
  iterate 100 all_goals try
    first
    | intro _
    | with_reducible
        first
        | assumption | apply State.shadowStore_keeps | apply State.set_keeps | apply Keeps.ite | apply Keeps.foldl
        | (apply Keeps.fst; assumption)
    | simp only [↓Keeps.fields] | split | dsimp only

theorem psrEff_keeps {s a0 t} (h : Keeps s t) : Keeps s (psrEff a0 t) := by
  unfold psrEff
  iterate 100 all_goals try
    first
    | intro _
    | with_reducible
        first
        | assumption | apply State.set_keeps | apply Keeps.ite | apply Keeps.foldl | (apply Keeps.fst; assumption)
    | simp only [↓Keeps.fields] | split | dsimp only

theorem winSelEff_keeps {s a0 a1 t} (h : Keeps s t) : Keeps s (winSelEff a0 a1 t) := by
  unfold winSelEff
  iterate 100 all_goals try
    first
    | intro _
    | with_reducible
        first
        | assumption | apply State.shadowStore_keeps | apply State.plain_keeps | apply Keeps.ite | apply Keeps.foldl
        | (apply Keeps.fst; assumption)
    | simp only [↓Keeps.fields] | split | dsimp only

theorem winWriteEff_keeps {s a0 a1 a2 t} (h : Keeps s t) : Keeps s (winWriteEff a0 a1 a2 t) := by
  unfold winWriteEff
  iterate 100 all_goals try
    first
    | intro _
    | with_reducible
        first
        | assumption | apply State.tset_keeps | apply State.objWordSet_keeps | apply Keeps.ite | apply Keeps.foldl
        | (apply Keeps.fst; assumption)
    | simp only [↓Keeps.fields] | split | dsimp only

theorem State.linMod_keeps {s t a1 g2} (h : Keeps s t) : Keeps s (State.linMod t a1 g2) := by
  unfold State.linMod
  iterate 100 all_goals try
    first
    | intro _
    | with_reducible
        first
        | assumption | apply Keeps.linMod | apply Keeps.ite | apply Keeps.foldl | (apply Keeps.fst; assumption)
    | simp only [↓Keeps.fields] | split | dsimp only

theorem State.linSpent_keeps {s t a1 a2} (h : Keeps s t) : Keeps s (State.linSpent t a1 a2) := by
  unfold State.linSpent
  iterate 100 all_goals try
    first
    | intro _
    | with_reducible
        first
        | assumption | apply State.linMod_keeps | apply Keeps.ite | apply Keeps.foldl | (apply Keeps.fst; assumption)
    | simp only [↓Keeps.fields] | split | dsimp only

theorem State.linAnswer_keeps {s t a1 a2 a3} (h : Keeps s t) : Keeps s (State.linAnswer t a1 a2 a3) := by
  unfold State.linAnswer
  iterate 100 all_goals try
    first
    | intro _
    | with_reducible
        first
        | assumption | apply State.emit_keeps | apply State.linSpent_keeps | apply Keeps.ite | apply Keeps.foldl
        | (apply Keeps.fst; assumption)
    | simp only [↓Keeps.fields] | split | dsimp only

theorem State.linClear_keeps {s t a1} (h : Keeps s t) : Keeps s (State.linClear t a1) := by
  unfold State.linClear
  iterate 100 all_goals try
    first
    | intro _
    | with_reducible
        first
        | assumption | apply Keeps.linSet | apply Keeps.ite | apply Keeps.foldl | (apply Keeps.fst; assumption)
    | simp only [↓Keeps.fields] | split | dsimp only

theorem State.linStart_keeps {s t a1 a2} (h : Keeps s t) : Keeps s (State.linStart t a1 a2) := by
  unfold State.linStart
  iterate 100 all_goals try
    first
    | intro _
    | with_reducible
        first
        | assumption | apply State.emit_keeps | apply State.linMod_keeps | apply State.linSpent_keeps
        | apply Keeps.ite | apply Keeps.foldl | (apply Keeps.fst; assumption)
    | simp only [↓Keeps.fields] | split | dsimp only

theorem State.linEdge_keeps {s t a1 a2 a3} (h : Keeps s t) : Keeps s (State.linEdge t a1 a2 a3) := by
  unfold State.linEdge
  iterate 100 all_goals try
    first
    | intro _
    | with_reducible
        first
        | assumption | apply State.linMod_keeps | apply State.each_keeps | apply State.linStart_keeps
        | apply Keeps.ite | apply Keeps.foldl | (apply Keeps.fst; assumption)
    | simp only [↓Keeps.fields] | split | dsimp only

theorem State.linErr_keeps {s t a1 a2} (h : Keeps s t) : Keeps s (State.linErr t a1 a2) := by
  unfold State.linErr
  iterate 100 all_goals try
    first
    | intro _
    | with_reducible
        first
        | assumption | apply State.irq_keeps | apply State.cnt_keeps | apply Keeps.ite | apply Keeps.foldl
        | (apply Keeps.fst; assumption)
    | simp only [↓Keeps.fields] | split | dsimp only

theorem State.linFresh_keeps {s t a1 a2} (h : Keeps s t) : Keeps s (State.linFresh t a1 a2) := by
  unfold State.linFresh
  iterate 100 all_goals try
    first
    | intro _
    | with_reducible
        first
        | assumption | apply State.linMod_keeps | apply Keeps.ite | apply Keeps.foldl | (apply Keeps.fst; assumption)
    | simp only [↓Keeps.fields] | split | dsimp only

theorem State.linNext_keeps {s t a1} (h : Keeps s t) : Keeps s (State.linNext t a1) := by
  unfold State.linNext
  iterate 100 all_goals try
    first
    | intro _
    | with_reducible
        first
        | assumption | apply State.linStart_keeps | apply State.linMod_keeps | apply Keeps.ite | apply Keeps.foldl
        | (apply Keeps.fst; assumption)
    | simp only [↓Keeps.fields] | split | dsimp only

theorem State.linShow_keeps {s t a1} (h : Keeps s t) : Keeps s (State.linShow t a1) := by
  unfold State.linShow
  iterate 100 all_goals try
    first
    | intro _
    | with_reducible
        first
        | assumption | apply State.wrn_keeps | apply Keeps.ite | apply Keeps.foldl | (apply Keeps.fst; assumption)
    | simp only [↓Keeps.fields] | split | dsimp only

theorem State.linStore_keeps {s t a1 a2 a3} (h : Keeps s t) : Keeps s (State.linStore t a1 a2 a3) := by
  unfold State.linStore
  iterate 100 all_goals try
    first
    | intro _
    | with_reducible
        first
        | assumption | apply State.cnt_keeps | apply State.irq_keeps | apply State.linShow_keeps
        | apply State.linMod_keeps | apply Keeps.ite | apply Keeps.foldl | (apply Keeps.fst; assumption)
    | simp only [↓Keeps.fields] | split | dsimp only

theorem State.linToGateway_keeps {s t a1 a2 a3 a4} (h : Keeps s t) : Keeps s (State.linToGateway t a1 a2 a3 a4) := by
  unfold State.linToGateway
  iterate 100 all_goals try
    first
    | intro _
    | with_reducible
        first
        | assumption | apply State.gwPush_keeps | apply Keeps.ite | apply Keeps.foldl | (apply Keeps.fst; assumption)
    | simp only [↓Keeps.fields] | split | dsimp only

theorem State.linXcvrBack_keeps {s t a1} (h : Keeps s t) : Keeps s (State.linXcvrBack t a1) := by
  unfold State.linXcvrBack
  iterate 100 all_goals try
    first
    | intro _
    | with_reducible
        first
        | assumption | apply State.linNext_keeps | apply State.set_keeps | apply Keeps.ite | apply Keeps.foldl
        | (apply Keeps.fst; assumption)
    | simp only [↓Keeps.fields] | split | dsimp only

theorem State.linXcvrLost_keeps {s t a1} (h : Keeps s t) : Keeps s (State.linXcvrLost t a1) := by
  unfold State.linXcvrLost
  iterate 100 all_goals try
    first
    | intro _
    | with_reducible
        first
        | assumption | apply State.err_keeps | apply State.set_keeps | apply State.linMod_keeps | apply Keeps.ite
        | apply Keeps.foldl | (apply Keeps.fst; assumption)
    | simp only [↓Keeps.fields] | split | dsimp only

theorem lnCtrlEff_keeps {s a0 a1 t} (h : Keeps s t) : Keeps s (lnCtrlEff a0 a1 t) := by
  unfold lnCtrlEff
  iterate 100 all_goals try
    first
    | intro _
    | with_reducible
        first
        | assumption | apply State.plain_keeps | apply State.emit_keeps | apply Keeps.ite | apply Keeps.foldl
        | (apply Keeps.fst; assumption)
    | simp only [↓Keeps.fields] | split | dsimp only

theorem rxPopEff_keeps {s a0 t} (h : Keeps s t) : Keeps s (rxPopEff a0 t) := by
  unfold rxPopEff
  iterate 100 all_goals try
    first
    | intro _
    | with_reducible
        first
        | assumption | apply State.linShow_keeps | apply State.linMod_keeps | apply Keeps.ite | apply Keeps.foldl
        | (apply Keeps.fst; assumption)
    | simp only [↓Keeps.fields] | split | dsimp only

theorem lnRspEff_keeps {s a0 a1 a2 a3 t} (h : Keeps s t) : Keeps s (lnRspEff a0 a1 a2 a3 t) := by
  unfold lnRspEff
  iterate 100 all_goals try
    first
    | intro _
    | with_reducible
        first
        | assumption | apply State.linFresh_keeps | apply State.plain_keeps | apply Keeps.ite | apply Keeps.foldl
        | (apply Keeps.fst; assumption)
    | simp only [↓Keeps.fields] | split | dsimp only

end Sys2Proof.Machine
end

