-- ==== Sys2Proof/Laws/KeepsCores.lean ====
section
/-!
SUPPORT. What every operation keeps (Laws/Keeps): cores, mailboxes, the gateway, isolation and memory.
-/

set_option linter.all false

namespace Sys2Proof.Machine

theorem State.wakeDomain_keeps {s t a1} (h : Keeps s t) : Keeps s (State.wakeDomain t a1) := by
  unfold State.wakeDomain
  iterate 100 all_goals try
    first
    | intro _
    | with_reducible
        first
        | assumption | apply State.set_keeps | apply Keeps.ite | apply Keeps.foldl | (apply Keeps.fst; assumption)
    | simp only [↓Keeps.fields] | split | dsimp only

theorem State.wakeCore_keeps {s t a1} (h : Keeps s t) : Keeps s (State.wakeCore t a1) := by
  unfold State.wakeCore
  iterate 100 all_goals try
    first
    | intro _
    | with_reducible
        first
        | assumption | apply State.set_keeps | apply State.wakeDomain_keeps | apply Keeps.ite | apply Keeps.foldl
        | (apply Keeps.fst; assumption)
    | simp only [↓Keeps.fields] | split | dsimp only

theorem State.modCore_keeps {s t a1 g2} (h : Keeps s t) : Keeps s (State.modCore t a1 g2) := by
  unfold State.modCore
  iterate 100 all_goals try
    first
    | intro _
    | with_reducible
        first
        | assumption | apply Keeps.coreMod | apply Keeps.ite | apply Keeps.foldl | (apply Keeps.fst; assumption)
    | simp only [↓Keeps.fields] | split | dsimp only

theorem State.coreLocal_keeps {s t a1 a2} (h : Keeps s t) : Keeps s (State.coreLocal t a1 a2) := by
  unfold State.coreLocal
  iterate 100 all_goals try
    first
    | intro _
    | with_reducible
        first
        | assumption | apply State.modCore_keeps | apply Keeps.ite | apply Keeps.foldl
        | (apply Keeps.fst; assumption)
    | simp only [↓Keeps.fields] | split | dsimp only

theorem State.wakeEvent_keeps {s t a1} (h : Keeps s t) : Keeps s (State.wakeEvent t a1) := by
  unfold State.wakeEvent
  iterate 100 all_goals try
    first
    | intro _
    | with_reducible
        first
        | assumption | apply State.wakeCore_keeps | apply State.coreLocal_keeps | apply State.wakeDomain_keeps
        | apply Keeps.ite | apply Keeps.foldl | (apply Keeps.fst; assumption)
    | simp only [↓Keeps.fields] | split | dsimp only

theorem State.notifyReceiver_keeps {s t a1} (h : Keeps s t) : Keeps s (State.notifyReceiver t a1) := by
  unfold State.notifyReceiver
  iterate 100 all_goals try
    first
    | intro _
    | with_reducible
        first
        | assumption | apply State.set_keeps | apply State.wakeEvent_keeps | apply State.irq_keeps | apply Keeps.ite
        | apply Keeps.foldl | (apply Keeps.fst; assumption)
    | simp only [↓Keeps.fields] | split | dsimp only

theorem State.acceptMessage_keeps {s t a1 a2 a3 a4 a5 a6} (h : Keeps s t) :
    Keeps s (State.acceptMessage t a1 a2 a3 a4 a5 a6) := by
  unfold State.acceptMessage
  iterate 100 all_goals try
    first
    | intro _
    | with_reducible
        first
        | assumption | apply State.each_keeps | apply State.wrn_keeps | apply State.set_keeps
        | apply State.notifyReceiver_keeps | apply State.irq_keeps | apply State.cnt_keeps | apply Keeps.ite
        | apply Keeps.foldl | (apply Keeps.fst; assumption)
    | simp only [↓Keeps.fields] | split | dsimp only

theorem State.ackLine_keeps {s t a1 a2} (h : Keeps s t) : Keeps s (State.ackLine t a1 a2) := by
  unfold State.ackLine
  iterate 100 all_goals try
    first
    | intro _
    | with_reducible
        first
        | assumption | apply State.modCore_keeps | apply Keeps.ite | apply Keeps.foldl
        | (apply Keeps.fst; assumption)
    | simp only [↓Keeps.fields] | split | dsimp only

theorem State.channelEmptied_keeps {s t a1} (h : Keeps s t) : Keeps s (State.channelEmptied t a1) := by
  unfold State.channelEmptied
  iterate 100 all_goals try
    first
    | intro _
    | with_reducible
        first
        | assumption | apply State.set_keeps | apply State.each_keeps | apply State.wakeEvent_keeps
        | apply State.modCore_keeps | apply Keeps.ite | apply Keeps.foldl | (apply Keeps.fst; assumption)
    | simp only [↓Keeps.fields] | split | dsimp only

theorem State.receiverReset_keeps {s t a1} (h : Keeps s t) : Keeps s (State.receiverReset t a1) := by
  unfold State.receiverReset
  iterate 100 all_goals try
    first
    | intro _
    | with_reducible
        first
        | assumption | apply State.set_keeps | apply State.each_keeps | apply State.wr_keeps
        | apply State.channelEmptied_keeps | apply State.coreLocal_keeps | apply State.modCore_keeps
        | apply State.err_keeps | apply State.cnt_keeps | apply Keeps.ite | apply Keeps.foldl
        | (apply Keeps.fst; assumption)
    | simp only [↓Keeps.fields] | split | dsimp only

theorem State.agentReset_keeps {s t a1} (h : Keeps s t) : Keeps s (State.agentReset t a1) := by
  unfold State.agentReset
  iterate 100 all_goals try
    first
    | intro _
    | with_reducible
        first
        | assumption | apply State.each_keeps | apply State.receiverReset_keeps | apply Keeps.ite | apply Keeps.foldl
        | (apply Keeps.fst; assumption)
    | simp only [↓Keeps.fields] | split | dsimp only

theorem State.clearCore_keeps {s t a1} (h : Keeps s t) : Keeps s (State.clearCore t a1) := by
  unfold State.clearCore
  iterate 100 all_goals try
    first
    | intro _
    | with_reducible
        first
        | assumption | apply State.set_keeps | apply State.modCore_keeps | apply State.agentReset_keeps
        | apply Keeps.ite | apply Keeps.foldl | (apply Keeps.fst; assumption)
    | simp only [↓Keeps.fields] | split | dsimp only

theorem State.mailSend_keeps {s t a1 a2 a3 a4 a5 a6} (h : Keeps s t) : Keeps s (State.mailSend t a1 a2 a3 a4 a5 a6).1 := by
  unfold State.mailSend
  iterate 100 all_goals try
    first
    | intro _
    | with_reducible
        first
        | assumption | apply State.acceptMessage_keeps | apply State.irq_keeps | apply State.cnt_keeps
        | apply Keeps.ite | apply Keeps.foldl | (apply Keeps.fst; assumption)
    | simp only [↓Keeps.fields] | split | dsimp only

theorem State.countEvent_keeps {s t a1 a2 a3} (h : Keeps s t) : Keeps s (State.countEvent t a1 a2 a3) := by
  unfold State.countEvent
  iterate 100 all_goals try
    first
    | intro _
    | with_reducible
        first
        | assumption | apply State.modCore_keeps | apply State.coreLocal_keeps | apply Keeps.ite | apply Keeps.foldl
        | (apply Keeps.fst; assumption)
    | simp only [↓Keeps.fields] | split | dsimp only

theorem State.coreSend_keeps {s t a1 a2 a3 a4} (h : Keeps s t) : Keeps s (State.coreSend t a1 a2 a3 a4) := by
  unfold State.coreSend
  iterate 100 all_goals try
    first
    | intro _
    | with_reducible
        first
        | assumption | apply State.mailSend_keeps | apply State.countEvent_keeps | apply State.modCore_keeps
        | apply Keeps.ite | apply Keeps.foldl | (apply Keeps.fst; assumption)
    | simp only [↓Keeps.fields] | split | dsimp only

theorem State.crossOne_keeps {s t a1} (h : Keeps s t) : Keeps s (State.crossOne t a1) := by
  unfold State.crossOne
  iterate 100 all_goals try
    first
    | intro _
    | with_reducible
        first
        | assumption | apply State.irq_keeps | apply State.set_keeps | apply State.wakeCore_keeps
        | apply State.coreLocal_keeps | apply State.modCore_keeps | apply Keeps.ite | apply Keeps.foldl
        | (apply Keeps.fst; assumption)
    | simp only [↓Keeps.fields] | split | dsimp only

theorem State.cycleTick_keeps {s t} (h : Keeps s t) : Keeps s (State.cycleTick t) := by
  unfold State.cycleTick
  iterate 100 all_goals try
    first
    | intro _
    | with_reducible
        first
        | assumption | apply State.each_keeps | apply State.coreLocal_keeps | apply Keeps.ite | apply Keeps.foldl
        | (apply Keeps.fst; assumption)
    | simp only [↓Keeps.fields] | split | dsimp only

theorem State.setCal_keeps {s t a1 a2} (h : Keeps s t) : Keeps s (State.setCal t a1 a2) := by
  unfold State.setCal
  iterate 100 all_goals try
    first
    | intro _
    | with_reducible
        first
        | assumption | apply Keeps.calSet | apply Keeps.ite | apply Keeps.foldl | (apply Keeps.fst; assumption)
    | simp only [↓Keeps.fields] | split | dsimp only

theorem State.holdEntry_keeps {s t a1 a2} (h : Keeps s t) : Keeps s (State.holdEntry t a1 a2) := by
  unfold State.holdEntry
  iterate 100 all_goals try
    first
    | intro _
    | with_reducible
        first
        | assumption | apply State.setCal_keeps | apply State.set_keeps | apply State.stat_keeps | apply Keeps.ite
        | apply Keeps.foldl | (apply Keeps.fst; assumption)
    | simp only [↓Keeps.fields] | split | dsimp only

theorem State.setPair_keeps {s t a1 a2} (h : Keeps s t) : Keeps s (State.setPair t a1 a2) := by
  unfold State.setPair
  iterate 100 all_goals try
    first
    | intro _
    | with_reducible
        first
        | assumption | apply State.set_keeps | apply Keeps.ite | apply Keeps.foldl | (apply Keeps.fst; assumption)
    | simp only [↓Keeps.fields] | split | dsimp only

theorem State.pairDown_keeps {s t a1} (h : Keeps s t) : Keeps s (State.pairDown t a1) := by
  unfold State.pairDown
  iterate 100 all_goals try
    first
    | intro _
    | with_reducible
        first
        | assumption | apply State.set_keeps | apply State.setCal_keeps | apply State.setPair_keeps | apply Keeps.ite
        | apply Keeps.foldl | (apply Keeps.fst; assumption)
    | simp only [↓Keeps.fields] | split | dsimp only

theorem State.pairRelease_keeps {s t a1} (h : Keeps s t) : Keeps s (State.pairRelease t a1) := by
  unfold State.pairRelease
  iterate 100 all_goals try
    first
    | intro _
    | with_reducible
        first
        | assumption | apply State.setPair_keeps | apply Keeps.ite | apply Keeps.foldl
        | (apply Keeps.fst; assumption)
    | simp only [↓Keeps.fields] | split | dsimp only

theorem State.resetCore_keeps {s t a1} (h : Keeps s t) : Keeps s (State.resetCore t a1) := by
  unfold State.resetCore
  iterate 100 all_goals try
    first
    | intro _
    | with_reducible
        first
        | assumption | apply State.clearCore_keeps | apply State.pairDown_keeps | apply Keeps.ite | apply Keeps.foldl
        | (apply Keeps.fst; assumption)
    | simp only [↓Keeps.fields] | split | dsimp only

theorem State.startOne_keeps {s t a1 a2} (h : Keeps s t) : Keeps s (State.startOne t a1 a2) := by
  unfold State.startOne
  iterate 100 all_goals try
    first
    | intro _
    | with_reducible
        first
        | assumption | apply State.emit_keeps | apply State.set_keeps | apply Keeps.ite | apply Keeps.foldl
        | (apply Keeps.fst; assumption)
    | simp only [↓Keeps.fields] | split | dsimp only

theorem State.startCore_keeps {s t a1} (h : Keeps s t) : Keeps s (State.startCore t a1) := by
  unfold State.startCore
  iterate 100 all_goals try
    first
    | intro _
    | with_reducible
        first
        | assumption | apply State.pairRelease_keeps | apply State.startOne_keeps | apply Keeps.ite
        | apply Keeps.foldl | (apply Keeps.fst; assumption)
    | simp only [↓Keeps.fields] | split | dsimp only

theorem State.trigger_keeps {s t a1 a2} (h : Keeps s t) : Keeps s (State.trigger t a1 a2) := by
  unfold State.trigger
  iterate 100 all_goals try
    first
    | intro _
    | with_reducible
        first
        | assumption | apply State.setCal_keeps | apply Keeps.ite | apply Keeps.foldl | (apply Keeps.fst; assumption)
    | simp only [↓Keeps.fields] | split | dsimp only

theorem coreCtrlEff_keeps {s a0 a1 t} (h : Keeps s t) : Keeps s (coreCtrlEff a0 a1 t) := by
  unfold coreCtrlEff
  iterate 100 all_goals try
    first
    | intro _
    | with_reducible
        first
        | assumption | apply State.resetCore_keeps | apply State.set_keeps | apply State.startCore_keeps
        | apply Keeps.ite | apply Keeps.foldl | (apply Keeps.fst; assumption)
    | simp only [↓Keeps.fields] | split | dsimp only

theorem lineEff_keeps {s a0 a1 t} (h : Keeps s t) : Keeps s (lineEff a0 a1 t) := by
  unfold lineEff
  iterate 100 all_goals try
    first
    | intro _
    | with_reducible
        first
        | assumption | apply State.plain_keeps | apply State.set_keeps | apply Keeps.coreMap | apply Keeps.ite
        | apply Keeps.foldl | (apply Keeps.fst; assumption)
    | simp only [↓Keeps.fields] | split | dsimp only

theorem swraiseEff_keeps {s a0 t} (h : Keeps s t) : Keeps s (swraiseEff a0 t) := by
  unfold swraiseEff
  iterate 100 all_goals try
    first
    | intro _
    | with_reducible
        first
        | assumption | apply Keeps.ite | apply Keeps.foldl | (apply Keeps.fst; assumption)
    | simp only [↓Keeps.fields] | split | dsimp only

theorem mbDbgSendEff_keeps {s a0 a1 t} (h : Keeps s t) : Keeps s (mbDbgSendEff a0 a1 t) := by
  unfold mbDbgSendEff
  iterate 100 all_goals try
    first
    | intro _
    | with_reducible
        first
        | assumption | apply State.mailSend_keeps | apply Keeps.ite | apply Keeps.foldl
        | (apply Keeps.fst; assumption)
    | simp only [↓Keeps.fields] | split | dsimp only

theorem takeEff_keeps {s a0 t} (h : Keeps s t) : Keeps s (takeEff a0 t) := by
  unfold takeEff
  iterate 100 all_goals try
    first
    | intro _
    | with_reducible
        first
        | assumption | apply State.set_keeps | apply State.channelEmptied_keeps | apply State.irq_keeps
        | apply Keeps.ite | apply Keeps.foldl | (apply Keeps.fst; assumption)
    | simp only [↓Keeps.fields] | split | dsimp only

theorem mbxCntClrEff_keeps {s a0 t} (h : Keeps s t) : Keeps s (mbxCntClrEff a0 t) := by
  unfold mbxCntClrEff
  iterate 100 all_goals try
    first
    | intro _
    | with_reducible
        first
        | assumption | apply State.wr_keeps | apply Keeps.ite | apply Keeps.foldl | (apply Keeps.fst; assumption)
    | simp only [↓Keeps.fields] | split | dsimp only

theorem mbDbgDataEff_keeps {s a0 a1 a2 t} (h : Keeps s t) : Keeps s (mbDbgDataEff a0 a1 a2 t) := by
  unfold mbDbgDataEff
  iterate 100 all_goals try
    first
    | intro _
    | with_reducible
        first
        | assumption | apply State.wr_keeps | apply Keeps.ite | apply Keeps.foldl | (apply Keeps.fst; assumption)
    | simp only [↓Keeps.fields] | split | dsimp only

theorem State.gwToCan_keeps {s t a1 a2 a3 a4 a5 a6} (h : Keeps s t) : Keeps s (State.gwToCan t a1 a2 a3 a4 a5 a6) := by
  unfold State.gwToCan
  iterate 100 all_goals try
    first
    | intro _
    | with_reducible
        first
        | assumption | apply State.cnt32_keeps | apply State.canMod_keeps | apply Keeps.ite | apply Keeps.foldl
        | (apply Keeps.fst; assumption)
    | simp only [↓Keeps.fields] | split | dsimp only

theorem State.gwToLin_keeps {s t a1 a2 a3} (h : Keeps s t) : Keeps s (State.gwToLin t a1 a2 a3) := by
  unfold State.gwToLin
  iterate 100 all_goals try
    first
    | intro _
    | with_reducible
        first
        | assumption | apply State.wrn_keeps | apply State.set_keeps | apply State.linFresh_keeps | apply Keeps.ite
        | apply Keeps.foldl | (apply Keeps.fst; assumption)
    | simp only [↓Keeps.fields] | split | dsimp only

theorem State.setBatch_keeps {s t a1 a2} (h : Keeps s t) : Keeps s (State.setBatch t a1 a2) := by
  unfold State.setBatch
  iterate 100 all_goals try
    first
    | intro _
    | with_reducible
        first
        | assumption | apply Keeps.ite | apply Keeps.foldl | (apply Keeps.fst; assumption)
    | simp only [↓Keeps.fields] | split | dsimp only

theorem State.batchSend_keeps {s t a1} (h : Keeps s t) : Keeps s (State.batchSend t a1) := by
  unfold State.batchSend
  iterate 100 all_goals try
    first
    | intro _
    | with_reducible
        first
        | assumption | apply State.setBatch_keeps | apply State.receive_keeps | apply Keeps.ite | apply Keeps.foldl
        | (apply Keeps.fst; assumption)
    | simp only [↓Keeps.fields] | split | dsimp only

theorem State.batchAdd_keeps {s t a1 a2} (h : Keeps s t) : Keeps s (State.batchAdd t a1 a2) := by
  unfold State.batchAdd
  iterate 100 all_goals try
    first
    | intro _
    | with_reducible
        first
        | assumption | apply State.batchSend_keeps | apply State.setBatch_keeps | apply Keeps.ite | apply Keeps.foldl
        | (apply Keeps.fst; assumption)
    | simp only [↓Keeps.fields] | split | dsimp only

theorem State.gwForward_keeps {s t a1 a2 a3 a4 a5 a6 a7} (h : Keeps s t) :
    Keeps s (State.gwForward t a1 a2 a3 a4 a5 a6 a7) := by
  unfold State.gwForward
  iterate 100 all_goals try
    first
    | intro _
    | with_reducible
        first
        | assumption | apply State.cnt32_keeps | apply State.tcnt_keeps | apply State.each_keeps
        | apply State.gwToCan_keeps | apply State.gwToLin_keeps | apply State.batchAdd_keeps | apply Keeps.ite
        | apply Keeps.foldl | (apply Keeps.fst; assumption)
    | simp only [↓Keeps.fields] | split | dsimp only

theorem State.gwRoute_keeps {s t a1 a2 a3 a4 a5 a6} (h : Keeps s t) : Keeps s (State.gwRoute t a1 a2 a3 a4 a5 a6) := by
  unfold State.gwRoute
  iterate 100 all_goals try
    first
    | intro _
    | with_reducible
        first
        | assumption | apply State.gwLate_keeps | apply State.gwForward_keeps | apply State.errLimited_keeps
        | apply State.cnt32_keeps | apply Keeps.ite | apply Keeps.foldl | (apply Keeps.fst; assumption)
    | simp only [↓Keeps.fields] | split | dsimp only

theorem State.setCapWaits_keeps {s t a1 a2} (h : Keeps s t) : Keeps s (State.setCapWaits t a1 a2) := by
  unfold State.setCapWaits
  iterate 100 all_goals try
    first
    | intro _
    | with_reducible
        first
        | assumption | apply Keeps.ite | apply Keeps.foldl | (apply Keeps.fst; assumption)
    | simp only [↓Keeps.fields] | split | dsimp only

theorem State.capPost_keeps {s t a1 a2 a3} (h : Keeps s t) : Keeps s (State.capPost t a1 a2 a3).1 := by
  unfold State.capPost
  iterate 100 all_goals try
    first
    | intro _
    | with_reducible
        first
        | assumption | apply State.mailSend_keeps | apply Keeps.ite | apply Keeps.foldl
        | (apply Keeps.fst; assumption)
    | simp only [↓Keeps.fields] | split | dsimp only

theorem State.capArrive_keeps {s t a1 a2 a3} (h : Keeps s t) : Keeps s (State.capArrive t a1 a2 a3) := by
  unfold State.capArrive
  iterate 100 all_goals try
    first
    | intro _
    | with_reducible
        first
        | assumption | apply State.cnt32_keeps | apply State.setCapWaits_keeps | apply State.capPost_keeps
        | apply Keeps.ite | apply Keeps.foldl | (apply Keeps.fst; assumption)
    | simp only [↓Keeps.fields] | split | dsimp only

theorem State.acfReceive_keeps {s t a1 a2 a3 a4} (h : Keeps s t) : Keeps s (State.acfReceive t a1 a2 a3 a4) := by
  unfold State.acfReceive
  iterate 100 all_goals try
    first
    | intro _
    | with_reducible
        first
        | assumption | apply State.gwRoute_keeps | apply State.capArrive_keeps | apply State.errLimited_keeps
        | apply State.cnt32_keeps | apply Keeps.ite | apply Keeps.foldl | (apply Keeps.fst; assumption)
    | simp only [↓Keeps.fields] | split | dsimp only

theorem State.acfAll_keeps {s a0 a1 a2 a3 a4 t} (h : Keeps s t) : Keeps s (State.acfAll a0 a1 a2 a3 a4 t) := by
  revert h
  fun_induction State.acfAll a0 a1 a2 a3 a4 t
  all_goals intro h
  iterate 100 all_goals try
    first
    | intro _
    | with_reducible
        first
        | assumption | apply State.acfReceive_keeps | apply Keeps.ite | apply Keeps.foldl
        | (apply Keeps.fst; assumption) | apply_assumption
    | simp only [↓Keeps.fields] | split | dsimp only

theorem State.seqCheck_keeps {s t a1 a2} (h : Keeps s t) : Keeps s (State.seqCheck t a1 a2) := by
  unfold State.seqCheck
  iterate 100 all_goals try
    first
    | intro _
    | with_reducible
        first
        | assumption | apply State.tcnt_keeps | apply Keeps.ite | apply Keeps.foldl | (apply Keeps.fst; assumption)
    | simp only [↓Keeps.fields] | split | dsimp only

theorem State.avtpReceive_keeps {s t a1 a2 a3 a4} (h : Keeps s t) : Keeps s (State.avtpReceive t a1 a2 a3 a4) := by
  unfold State.avtpReceive
  iterate 100 all_goals try
    first
    | intro _
    | with_reducible
        first
        | assumption | apply State.acfAll_keeps | apply State.seqCheck_keeps | apply Keeps.ite | apply Keeps.foldl
        | (apply Keeps.fst; assumption)
    | simp only [↓Keeps.fields] | split | dsimp only

theorem State.capRetry_keeps {s t a0 a1 a2} (h : Keeps s t) : Keeps s (State.capRetry a0 a1 a2 t) := by
  induction a1 generalizing t a2 with
  | nil => exact State.setCapWaits_keeps h
  | cons w ws ih =>
    unfold State.capRetry
    extract_lets behind
    have h1 : Keeps s (if behind then (t, 2) else t.capPost a0 w.pair w.octets).1 := by
      split
      · exact h
      · exact State.capPost_keeps h
    generalize (if behind then (t, 2) else t.capPost a0 w.pair w.octets) = p at h1 ⊢
    obtain ⟨s1, r⟩ := p
    exact Keeps.ite (ih h1) (Keeps.ite (ih (State.err_keeps (State.cnt32_keeps h1))) (ih h1))

theorem State.gwClear_keeps {s t a1} (h : Keeps s t) : Keeps s (State.gwClear t a1) := by
  unfold State.gwClear
  iterate 100 all_goals try
    first
    | intro _
    | with_reducible
        first
        | assumption | apply State.setCapWaits_keeps | apply State.each_keeps | apply State.canMod_keeps
        | apply Keeps.gwIn | apply Keeps.ite | apply Keeps.foldl | (apply Keeps.fst; assumption)
    | simp only [↓Keeps.fields] | split | dsimp only

theorem State.gwFill_keeps {s t a1 a2 a3} (h : Keeps s t) : Keeps s (State.gwFill t a1 a2 a3) := by
  unfold State.gwFill
  iterate 100 all_goals try
    first
    | intro _
    | with_reducible
        first
        | assumption | apply State.set_keeps | apply State.objStore_keeps | apply State.tset_keeps
        | apply State.canMod_keeps | apply State.objRequest_keeps | apply Keeps.ite | apply Keeps.foldl
        | (apply Keeps.fst; assumption)
    | simp only [↓Keeps.fields] | split | dsimp only

theorem State.gwPlace_keeps {s a0 a1 t} (h : Keeps s t) : Keeps s (State.gwPlace a0 a1 t) := by
  revert h
  fun_induction State.gwPlace a0 a1 t
  all_goals intro h
  iterate 100 all_goals try
    first
    | intro _
    | with_reducible
        first
        | assumption | apply State.canMod_keeps | apply State.gwLate_keeps | apply State.gwFill_keeps
        | apply Keeps.ite | apply Keeps.foldl | (apply Keeps.fst; assumption) | apply_assumption
    | simp only [↓Keeps.fields] | split | dsimp only

theorem State.gwTake_keeps {s t a1 a2 a3} (h : Keeps s t) : Keeps s (State.gwTake t a1 a2 a3) := by
  unfold State.gwTake
  iterate 100 all_goals try
    first
    | intro _
    | with_reducible
        first
        | assumption | apply State.set_keeps | apply Keeps.gwIn | apply Keeps.ite | apply Keeps.foldl
        | (apply Keeps.fst; assumption)
    | simp only [↓Keeps.fields] | split | dsimp only

theorem pegCntClrEff_keeps {s a0 a1 t} (h : Keeps s t) : Keeps s (pegCntClrEff a0 a1 t) := by
  unfold pegCntClrEff
  iterate 100 all_goals try
    first
    | intro _
    | with_reducible
        first
        | assumption | apply State.set_keeps | apply State.wr_keeps | apply Keeps.ite | apply Keeps.foldl
        | (apply Keeps.fst; assumption)
    | simp only [↓Keeps.fields] | split | dsimp only

theorem iomInvEff_keeps {s a0 t} (h : Keeps s t) : Keeps s (iomInvEff a0 t) := by
  unfold iomInvEff
  iterate 100 all_goals try
    first
    | intro _
    | with_reducible
        first
        | assumption | apply State.plain_keeps | apply State.set_keeps | apply Keeps.ite | apply Keeps.foldl
        | (apply Keeps.fst; assumption)
    | simp only [↓Keeps.fields] | split | dsimp only

theorem State.iomInv_keeps {s t a1 a2} (h : Keeps s t) : Keeps s (State.iomInv t a1 a2) := by
  unfold State.iomInv
  iterate 100 all_goals try
    first
    | intro _
    | with_reducible
        first
        | assumption | apply State.regWrite_keeps | apply iomInvEff_keeps | apply Keeps.ite | apply Keeps.foldl
        | (apply Keeps.fst; assumption)
    | simp only [↓Keeps.fields] | split | dsimp only

theorem State.tmAcked_keeps {s t a1 a2} (h : Keeps s t) : Keeps s (State.tmAcked t a1 a2) := by
  unfold State.tmAcked
  iterate 100 all_goals try
    first
    | intro _
    | with_reducible
        first
        | assumption | apply State.set_keeps | apply State.irq_keeps | apply Keeps.ite | apply Keeps.foldl
        | (apply Keeps.fst; assumption)
    | simp only [↓Keeps.fields] | split | dsimp only

theorem State.tmSent_keeps {s t a1 a2 a3} (h : Keeps s t) : Keeps s (State.tmSent t a1 a2 a3) := by
  unfold State.tmSent
  iterate 100 all_goals try
    first
    | intro _
    | with_reducible
        first
        | assumption | apply State.set_keeps | apply State.irq_keeps | apply Keeps.ite | apply Keeps.foldl
        | (apply Keeps.fst; assumption)
    | simp only [↓Keeps.fields] | split | dsimp only

theorem vmcInvEff_keeps {s a0 a1 t} (h : Keeps s t) : Keeps s (vmcInvEff a0 a1 t) := by
  unfold vmcInvEff
  iterate 100 all_goals try
    first
    | intro _
    | with_reducible
        first
        | assumption | apply State.plain_keeps | apply State.set_keeps | apply Keeps.ite | apply Keeps.foldl
        | (apply Keeps.fst; assumption)
    | simp only [↓Keeps.fields] | split | dsimp only

theorem State.vmcInv_keeps {s t a1 a2 a3} (h : Keeps s t) : Keeps s (State.vmcInv t a1 a2 a3) := by
  unfold State.vmcInv
  iterate 100 all_goals try
    first
    | intro _
    | with_reducible
        first
        | assumption | apply State.regWrite_keeps | apply vmcInvEff_keeps | apply Keeps.ite | apply Keeps.foldl
        | (apply Keeps.fst; assumption)
    | simp only [↓Keeps.fields] | split | dsimp only

theorem dplCtrlEff_keeps {s a0 a1 t} (h : Keeps s t) : Keeps s (dplCtrlEff a0 a1 t) := by
  unfold dplCtrlEff
  iterate 100 all_goals try
    first
    | intro _
    | with_reducible
        first
        | assumption | apply State.plain_keeps | apply Keeps.ite | apply Keeps.foldl | (apply Keeps.fst; assumption)
    | simp only [↓Keeps.fields] | split | dsimp only

theorem quiesceEff_keeps {s a0 a1 t} (h : Keeps s t) : Keeps s (quiesceEff a0 a1 t) := by
  unfold quiesceEff
  iterate 100 all_goals try
    first
    | intro _
    | with_reducible
        first
        | assumption | apply State.plain_keeps | apply State.set_keeps | apply Keeps.ite | apply Keeps.foldl
        | (apply Keeps.fst; assumption)
    | simp only [↓Keeps.fields] | split | dsimp only

theorem iomFltClrEff_keeps {s a0 t} (h : Keeps s t) : Keeps s (iomFltClrEff a0 t) := by
  unfold iomFltClrEff
  iterate 100 all_goals try
    first
    | intro _
    | with_reducible
        first
        | assumption | apply State.wr_keeps | apply Keeps.ite | apply Keeps.foldl | (apply Keeps.fst; assumption)
    | simp only [↓Keeps.fields] | split | dsimp only

theorem secTtbEff_keeps {s a0 a1 t} (h : Keeps s t) : Keeps s (secTtbEff a0 a1 t) := by
  unfold secTtbEff
  iterate 100 all_goals try
    first
    | intro _
    | with_reducible
        first
        | assumption | apply State.dropXlats_keeps | apply State.plain_keeps | apply Keeps.ite | apply Keeps.foldl
        | (apply Keeps.fst; assumption)
    | simp only [↓Keeps.fields] | split | dsimp only

theorem tmEff_keeps {s a0 a1 a2 a3 t} (h : Keeps s t) : Keeps s (tmEff a0 a1 a2 a3 t) := by
  unfold tmEff
  iterate 100 all_goals try
    first
    | intro _
    | with_reducible
        first
        | assumption | apply State.tmAcked_keeps | apply State.tmSent_keeps | apply State.set_keeps | apply Keeps.ite
        | apply Keeps.foldl | (apply Keeps.fst; assumption)
    | simp only [↓Keeps.fields] | split | dsimp only

theorem vmcClrEff_keeps {s a0 a1 t} (h : Keeps s t) : Keeps s (vmcClrEff a0 a1 t) := by
  unfold vmcClrEff
  iterate 100 all_goals try
    first
    | intro _
    | with_reducible
        first
        | assumption | apply State.wr_keeps | apply Keeps.ite | apply Keeps.foldl | (apply Keeps.fst; assumption)
    | simp only [↓Keeps.fields] | split | dsimp only

theorem State.regionRefuse_keeps {s t a1 a2} (h : Keeps s t) : Keeps s (State.regionRefuse t a1 a2) := by
  unfold State.regionRefuse
  iterate 100 all_goals try
    first
    | intro _
    | with_reducible
        first
        | assumption | apply State.refused_keeps | apply State.errCause_keeps | apply Keeps.ite | apply Keeps.foldl
        | (apply Keeps.fst; assumption)
    | simp only [↓Keeps.fields] | split | dsimp only

theorem State.ckptAccess_keeps {s t a1 a2 a3} (h : Keeps s t) : Keeps s (State.ckptAccess t a1 a2 a3) := by
  unfold State.ckptAccess
  iterate 100 all_goals try
    first
    | intro _
    | with_reducible
        first
        | assumption | apply State.regionRefuse_keeps | apply State.ok_keeps | apply State.setBytes_keeps
        | apply Keeps.ite | apply Keeps.foldl | (apply Keeps.fst; assumption)
    | simp only [↓Keeps.fields] | split | dsimp only

theorem State.sramFault_keeps {s t a1 a2} (h : Keeps s t) : Keeps s (State.sramFault t a1 a2) := by
  unfold State.sramFault
  iterate 100 all_goals try
    first
    | intro _
    | with_reducible
        first
        | assumption | apply State.err_keeps | apply Keeps.ite | apply Keeps.foldl | (apply Keeps.fst; assumption)
    | simp only [↓Keeps.fields] | split | dsimp only

theorem State.ckptFault_keeps {s t a1 a2} (h : Keeps s t) : Keeps s (State.ckptFault t a1 a2) := by
  unfold State.ckptFault
  iterate 100 all_goals try
    first
    | intro _
    | with_reducible
        first
        | assumption | apply State.sramFault_keeps | apply Keeps.ite | apply Keeps.foldl
        | (apply Keeps.fst; assumption)
    | simp only [↓Keeps.fields] | split | dsimp only

theorem State.dmcPoisoned_keeps {s t a1 a2 a3} (h : Keeps s t) : Keeps s (State.dmcPoisoned t a1 a2 a3) := by
  unfold State.dmcPoisoned
  iterate 100 all_goals try
    first
    | intro _
    | with_reducible
        first
        | assumption | apply State.irq_keeps | apply State.cnt_keeps | apply State.dmcLog_keeps
        | apply State.poisonAdd_keeps | apply State.err_keeps | apply Keeps.ite | apply Keeps.foldl
        | (apply Keeps.fst; assumption)
    | simp only [↓Keeps.fields] | split | dsimp only

theorem State.dmcCorrected_keeps {s t a1 a2 a3} (h : Keeps s t) : Keeps s (State.dmcCorrected t a1 a2 a3) := by
  unfold State.dmcCorrected
  iterate 100 all_goals try
    first
    | intro _
    | with_reducible
        first
        | assumption | apply State.err_keeps | apply State.irq_keeps | apply State.cnt_keeps
        | apply State.dmcLog_keeps | apply Keeps.ite | apply Keeps.foldl | (apply Keeps.fst; assumption)
    | simp only [↓Keeps.fields] | split | dsimp only

theorem State.decodeWord_keeps {s t a1 a2 a3 a4} (h : Keeps s t) : Keeps s (State.decodeWord t a1 a2 a3 a4).1 := by
  unfold State.decodeWord
  iterate 100 all_goals try
    first
    | intro _
    | with_reducible
        first
        | assumption | apply State.dmcPoisoned_keeps | apply State.setMemLE_keeps | apply State.dmcCorrected_keeps
        | apply Keeps.ite | apply Keeps.foldl | (apply Keeps.fst; assumption)
    | simp only [↓Keeps.fields] | split | dsimp only

theorem State.dramStopped_keeps {s t a1 a2 a3 a4 a5} (h : Keeps s t) :
    ∀ t2, State.dramStopped t a1 a2 a3 a4 a5 = some t2 → Keeps s t2 := by
  intro t2 e
  unfold State.dramStopped at e
  split at e
  · rw [← Option.some.inj e]; exact h
  · obtain ⟨r, -, rfl⟩ := Option.map_eq_some_iff.1 e
    exact State.recordStop_keeps h

theorem State.entryFault_keeps {s t a1 a2 a3 a4 a5 a6 a7} (h : Keeps s t) :
    Keeps s (State.entryFault t a1 a2 a3 a4 a5 a6 a7) := by
  unfold State.entryFault
  iterate 100 all_goals try
    first
    | intro _
    | with_reducible
        first
        | assumption | apply State.err_keeps | apply Keeps.ite | apply Keeps.foldl | (apply Keeps.fst; assumption)
    | simp only [↓Keeps.fields] | split | dsimp only

theorem State.lineHeal_keeps {s t a1 a2} (h : Keeps s t) : Keeps s (State.lineHeal t a1 a2) := by
  unfold State.lineHeal
  iterate 100 all_goals try
    first
    | intro _
    | with_reducible
        first
        | assumption | apply Keeps.ite | apply Keeps.foldl | (apply Keeps.fst; assumption)
    | simp only [↓Keeps.fields] | split | dsimp only

theorem State.norReadAt_keeps {s t a1 a2 a3 a4} (h : Keeps s t) : Keeps s (State.norReadAt t a1 a2 a3 a4) := by
  unfold State.norReadAt
  iterate 100 all_goals try
    first
    | intro _
    | with_reducible
        first
        | assumption | apply State.regionRefuse_keeps | apply State.norSettled_keeps | apply State.ok_keeps
        | apply State.err_keeps | apply State.cnt_keeps | apply State.refused_keeps | apply Keeps.ite
        | apply Keeps.foldl | (apply Keeps.fst; assumption)
    | simp only [↓Keeps.fields] | split | dsimp only

theorem norEff_keeps {s a0 a1 t} (h : Keeps s t) : Keeps s (norEff a0 a1 t) := by
  unfold norEff
  iterate 100 all_goals try
    first
    | intro _
    | with_reducible
        first
        | assumption | apply State.plain_keeps | apply State.err_keeps | apply State.set_keeps | apply Keeps.ite
        | apply Keeps.foldl | (apply Keeps.fst; assumption)
    | simp only [↓Keeps.fields] | split | dsimp only

theorem State.norWrite_keeps {s t a1 a2 a3} (h : Keeps s t) : Keeps s (State.norWrite t a1 a2 a3) := by
  unfold State.norWrite
  iterate 100 all_goals try
    first
    | intro _
    | with_reducible
        first
        | assumption | apply State.regWrite_keeps | apply norEff_keeps | apply Keeps.ite | apply Keeps.foldl
        | (apply Keeps.fst; assumption)
    | simp only [↓Keeps.fields] | split | dsimp only

theorem State.unmapped_keeps {s t a1} (h : Keeps s t) : Keeps s (State.unmapped t a1) := by
  unfold State.unmapped
  iterate 100 all_goals try
    first
    | intro _
    | with_reducible
        first
        | assumption | apply State.refused_keeps | apply State.cnt_keeps | apply State.errCause_keeps
        | apply Keeps.ite | apply Keeps.foldl | (apply Keeps.fst; assumption)
    | simp only [↓Keeps.fields] | split | dsimp only

theorem State.tcmAccess_keeps {s t a1 a2 a3 a4} (h : Keeps s t) : Keeps s (State.tcmAccess t a1 a2 a3 a4) := by
  unfold State.tcmAccess
  iterate 100 all_goals try
    first
    | intro _
    | with_reducible
        first
        | assumption | apply State.ok_keeps | apply State.each_keeps | apply State.setBytes_keeps | apply Keeps.ite
        | apply Keeps.foldl | (apply Keeps.fst; assumption)
    | simp only [↓Keeps.fields] | split | dsimp only

theorem State.physAccess_keeps {s t a1 a2 a3 a4} (h : Keeps s t) : Keeps s (State.physAccess t a1 a2 a3 a4) := by
  unfold State.physAccess
  iterate 100 all_goals try
    first
    | intro _
    | with_reducible
        first
        | assumption | apply State.unmapped_keeps | apply State.regionRefuse_keeps | apply State.norReadAt_keeps
        | apply State.refused_keeps | apply State.secRefuse_keeps | apply State.tcmAccess_keeps
        | apply State.ckptAccess_keeps | apply State.ramWrite_keeps | apply State.ok_keeps
        | apply State.lineHeal_keeps | apply State.readBy_keeps | apply Keeps.ite | apply Keeps.foldl
        | (apply Keeps.fst; assumption)
    | simp only [↓Keeps.fields] | split | dsimp only

theorem State.scrubPassed_keeps {s t a1} (h : Keeps s t) : Keeps s (State.scrubPassed t a1) := by
  unfold State.scrubPassed
  iterate 100 all_goals try
    first
    | intro _
    | with_reducible
        first
        | assumption | apply State.irq_keeps | apply State.cntWrap_keeps | apply Keeps.ite | apply Keeps.foldl
        | (apply Keeps.fst; assumption)
    | simp only [↓Keeps.fields] | split | dsimp only

theorem State.setRefi_keeps {s t a1} (h : Keeps s t) : Keeps s (State.setRefi t a1) := by
  unfold State.setRefi
  iterate 100 all_goals try
    first
    | intro _
    | with_reducible
        first
        | assumption | apply State.wrn_keeps | apply Keeps.ite | apply Keeps.foldl | (apply Keeps.fst; assumption)
    | simp only [↓Keeps.fields] | split | dsimp only

theorem dmcCntClrEff_keeps {s a0 t} (h : Keeps s t) : Keeps s (dmcCntClrEff a0 t) := by
  unfold dmcCntClrEff
  iterate 100 all_goals try
    first
    | intro _
    | with_reducible
        first
        | assumption | apply State.wr_keeps | apply Keeps.ite | apply Keeps.foldl | (apply Keeps.fst; assumption)
    | simp only [↓Keeps.fields] | split | dsimp only

theorem fusProgEff_keeps {s a0 a1 t} (h : Keeps s t) : Keeps s (fusProgEff a0 a1 t) := by
  unfold fusProgEff
  iterate 100 all_goals try
    first
    | intro _
    | with_reducible
        first
        | assumption | apply State.set_keeps | apply State.err_keeps | apply Keeps.ite | apply Keeps.foldl
        | (apply Keeps.fst; assumption)
    | simp only [↓Keeps.fields] | split | dsimp only

theorem norCntClrEff_keeps {s a0 a1 t} (h : Keeps s t) : Keeps s (norCntClrEff a0 a1 t) := by
  unfold norCntClrEff
  iterate 100 all_goals try
    first
    | intro _
    | with_reducible
        first
        | assumption | apply State.wr_keeps | apply Keeps.ite | apply Keeps.foldl | (apply Keeps.fst; assumption)
    | simp only [↓Keeps.fields] | split | dsimp only

end Sys2Proof.Machine
end

