-- ==== Sys2Proof/Laws/KeepsLoads.lean ====
section
/-!
SUPPORT. What every operation keeps (Laws/Keeps): load channels, holding and inputs.
-/

set_option linter.all false

namespace Sys2Proof.Machine

theorem State.admitChan_keeps {s t a1 a2} (h : Keeps s t) : Keeps s (State.admitChan t a1 a2) := by
  unfold State.admitChan
  iterate 100 all_goals try
    first
    | intro _
    | with_reducible
        first
        | assumption | apply State.emit_keeps | apply State.modChan_keeps | apply Keeps.ite | apply Keeps.foldl
        | (apply Keeps.fst; assumption)
    | simp only [↓Keeps.fields] | split | dsimp only

theorem State.admitLoop_keeps {s a0 a1 a2 a3 t} (h : Keeps s t) : Keeps s (State.admitLoop a0 a1 a2 a3 t) := by
  revert h
  fun_induction State.admitLoop a0 a1 a2 a3 t
  all_goals intro h
  iterate 100 all_goals try
    first
    | intro _
    | with_reducible
        first
        | assumption | apply State.admitChan_keeps | apply Keeps.ite | apply Keeps.foldl
        | (apply Keeps.fst; assumption) | apply_assumption
    | simp only [↓Keeps.fields] | split | dsimp only

theorem State.admission_keeps {s t a1 a2 a3} (h : Keeps s t) : Keeps s (State.admission t a1 a2 a3) := by
  unfold State.admission
  iterate 100 all_goals try
    first
    | intro _
    | with_reducible
        first
        | assumption | apply State.admitLoop_keeps | apply Keeps.ite | apply Keeps.foldl
        | (apply Keeps.fst; assumption)
    | simp only [↓Keeps.fields] | split | dsimp only

theorem State.senseFrom_keeps {s t a1 a2} (h : Keeps s t) : Keeps s (State.senseFrom t a1 a2) := by
  unfold State.senseFrom
  iterate 100 all_goals try
    first
    | intro _
    | with_reducible
        first
        | assumption | apply State.emit_keeps | apply Keeps.ite | apply Keeps.foldl | (apply Keeps.fst; assumption)
    | simp only [↓Keeps.fields] | split | dsimp only

theorem State.atCurrent_keeps {s t a1 a2 a3} (h : Keeps s t) : Keeps s (State.atCurrent t a1 a2 a3) := by
  unfold State.atCurrent
  iterate 100 all_goals try
    first
    | intro _
    | with_reducible
        first
        | assumption | apply State.senseFrom_keeps | apply State.modChan_keeps | apply Keeps.ite | apply Keeps.foldl
        | (apply Keeps.fst; assumption)
    | simp only [↓Keeps.fields] | split | dsimp only

theorem State.averages_keeps {s t a1} (h : Keeps s t) : Keeps s (State.averages t a1) := by
  unfold State.averages
  iterate 100 all_goals try
    first
    | intro _
    | with_reducible
        first
        | assumption | apply State.each_keeps | apply State.seti_keeps | apply State.modChan_keeps | apply Keeps.ite
        | apply Keeps.foldl | (apply Keeps.fst; assumption)
    | simp only [↓Keeps.fields] | split | dsimp only

theorem State.chanErr_keeps {s t a1 a2 a3} (h : Keeps s t) : Keeps s (State.chanErr t a1 a2 a3) := by
  unfold State.chanErr
  iterate 100 all_goals try
    first
    | intro _
    | with_reducible
        first
        | assumption | apply State.err_keeps | apply Keeps.ite | apply Keeps.foldl | (apply Keeps.fst; assumption)
    | simp only [↓Keeps.fields] | split | dsimp only

theorem State.refuseOff_keeps {s t a1 a2} (h : Keeps s t) : Keeps s (State.refuseOff t a1 a2) := by
  unfold State.refuseOff
  iterate 100 all_goals try
    first
    | intro _
    | with_reducible
        first
        | assumption | apply State.chanErr_keeps | apply State.cnt_keeps | apply State.irq_keeps
        | apply State.modChan_keeps | apply Keeps.ite | apply Keeps.foldl | (apply Keeps.fst; assumption)
    | simp only [↓Keeps.fields] | split | dsimp only

theorem State.turnOff_keeps {s t a1 a2 a3} (h : Keeps s t) : Keeps s (State.turnOff t a1 a2 a3) := by
  unfold State.turnOff
  iterate 100 all_goals try
    first
    | intro _
    | with_reducible
        first
        | assumption | apply State.refuseOff_keeps | apply State.chanErr_keeps | apply State.modChan_keeps
        | apply State.emit_keeps | apply Keeps.ite | apply Keeps.foldl | (apply Keeps.fst; assumption)
    | simp only [↓Keeps.fields] | split | dsimp only

theorem State.stepOff_keeps {s t a1 a2} (h : Keeps s t) : Keeps s (State.stepOff t a1 a2) := by
  unfold State.stepOff
  iterate 100 all_goals try
    first
    | intro _
    | with_reducible
        first
        | assumption | apply State.modChan_keeps | apply State.turnOff_keeps | apply Keeps.ite | apply Keeps.foldl
        | (apply Keeps.fst; assumption)
    | simp only [↓Keeps.fields] | split | dsimp only

theorem State.releaseFaults_keeps {s t a1} (h : Keeps s t) : Keeps s (State.releaseFaults t a1) := by
  unfold State.releaseFaults
  iterate 100 all_goals try
    first
    | intro _
    | with_reducible
        first
        | assumption | apply State.irq_keeps | apply State.cnt_keeps | apply State.modDie_keeps | apply Keeps.ite
        | apply Keeps.foldl | (apply Keeps.fst; assumption)
    | simp only [↓Keeps.fields] | split | dsimp only

theorem State.latch_keeps {s t a1 a2 a3} (h : Keeps s t) : Keeps s (State.latch t a1 a2 a3) := by
  unfold State.latch
  iterate 100 all_goals try
    first
    | intro _
    | with_reducible
        first
        | assumption | apply State.modChan_keeps | apply State.turnOff_keeps | apply State.chanErr_keeps
        | apply State.cnt_keeps | apply State.irq_keeps | apply Keeps.ite | apply Keeps.foldl
        | (apply Keeps.fst; assumption)
    | simp only [↓Keeps.fields] | split | dsimp only

theorem State.stepWindow_keeps {s t a1 a2} (h : Keeps s t) : Keeps s (State.stepWindow t a1 a2) := by
  unfold State.stepWindow
  iterate 100 all_goals try
    first
    | intro _
    | with_reducible
        first
        | assumption | apply State.latch_keeps | apply State.irq_keeps | apply State.modChan_keeps | apply Keeps.ite
        | apply Keeps.foldl | (apply Keeps.fst; assumption)
    | simp only [↓Keeps.fields] | split | dsimp only

theorem State.turnOn_keeps {s t a1 a2} (h : Keeps s t) : Keeps s (State.turnOn t a1 a2) := by
  unfold State.turnOn
  iterate 100 all_goals try
    first
    | intro _
    | with_reducible
        first
        | assumption | apply State.emit_keeps | apply State.irq_keeps | apply State.modChan_keeps | apply Keeps.ite
        | apply Keeps.foldl | (apply Keeps.fst; assumption)
    | simp only [↓Keeps.fields] | split | dsimp only

theorem State.channelEdge_keeps {s t a1 a2 a3} (h : Keeps s t) : Keeps s (State.channelEdge t a1 a2 a3) := by
  unfold State.channelEdge
  iterate 100 all_goals try
    first
    | intro _
    | with_reducible
        first
        | assumption | apply State.each_keeps | apply State.stepOff_keeps | apply State.releaseFaults_keeps
        | apply State.stepWindow_keeps | apply State.modChan_keeps | apply State.admission_keeps
        | apply State.turnOn_keeps | apply Keeps.ite | apply Keeps.foldl | (apply Keeps.fst; assumption)
    | simp only [↓Keeps.fields] | split | dsimp only

theorem State.clampStep_keeps {s t a1 a2 a3} (h : Keeps s t) : Keeps s (State.clampStep t a1 a2 a3) := by
  unfold State.clampStep
  iterate 100 all_goals try
    first
    | intro _
    | with_reducible
        first
        | assumption | apply State.modChan_keeps | apply State.chanErr_keeps | apply State.irq_keeps
        | apply Keeps.ite | apply Keeps.foldl | (apply Keeps.fst; assumption)
    | simp only [↓Keeps.fields] | split | dsimp only

theorem State.clearFault_keeps {s t a1 a2} (h : Keeps s t) : Keeps s (State.clearFault t a1 a2).1 := by
  unfold State.clearFault
  iterate 100 all_goals try
    first
    | intro _
    | with_reducible
        first
        | assumption | apply State.modChan_keeps | apply State.chanErr_keeps | apply Keeps.ite | apply Keeps.foldl
        | (apply Keeps.fst; assumption)
    | simp only [↓Keeps.fields] | split | dsimp only

theorem State.clearCmd_keeps {s t a1 a2} (h : Keeps s t) : Keeps s (State.clearCmd t a1 a2) := by
  unfold State.clearCmd
  iterate 100 all_goals try
    first
    | intro _
    | with_reducible
        first
        | assumption | apply State.chanErr_keeps | apply State.clearFault_keeps | apply Keeps.ite | apply Keeps.foldl
        | (apply Keeps.fst; assumption)
    | simp only [↓Keeps.fields] | split | dsimp only

theorem State.wireStep_keeps {s t a1 a2 a3} (h : Keeps s t) : Keeps s (State.wireStep t a1 a2 a3) := by
  unfold State.wireStep
  iterate 100 all_goals try
    first
    | intro _
    | with_reducible
        first
        | assumption | apply State.modChan_keeps | apply State.latch_keeps | apply Keeps.ite | apply Keeps.foldl
        | (apply Keeps.fst; assumption)
    | simp only [↓Keeps.fields] | split | dsimp only

theorem State.converterRestart_keeps {s t a1 a2} (h : Keeps s t) : Keeps s (State.converterRestart t a1 a2) := by
  unfold State.converterRestart
  iterate 100 all_goals try
    first
    | intro _
    | with_reducible
        first
        | assumption | apply State.modDie_keeps | apply State.each_keeps | apply State.wireStep_keeps
        | apply State.clampStep_keeps | apply Keeps.ite | apply Keeps.foldl | (apply Keeps.fst; assumption)
    | simp only [↓Keeps.fields] | split | dsimp only

theorem State.dieLimited_keeps {s t a1 a2 a3 a4 a5} (h : Keeps s t) : Keeps s (State.dieLimited t a1 a2 a3 a4 a5) := by
  unfold State.dieLimited
  iterate 100 all_goals try
    first
    | intro _
    | with_reducible
        first
        | assumption | apply State.err_keeps | apply State.modDie_keeps | apply Keeps.ite | apply Keeps.foldl
        | (apply Keeps.fst; assumption)
    | simp only [↓Keeps.fields] | split | dsimp only

theorem State.noteCmds_keeps {s t a1} (h : Keeps s t) : Keeps s (State.noteCmds t a1) := by
  unfold State.noteCmds
  iterate 100 all_goals try
    first
    | intro _
    | with_reducible
        first
        | assumption | apply State.each_keeps | apply State.modChan_keeps | apply Keeps.ite | apply Keeps.foldl
        | (apply Keeps.fst; assumption)
    | simp only [↓Keeps.fields] | split | dsimp only

theorem lswCtrlEff_keeps {s a0 a1 a2 t} (h : Keeps s t) : Keeps s (lswCtrlEff a0 a1 a2 t) := by
  unfold lswCtrlEff
  iterate 100 all_goals try
    first
    | intro _
    | with_reducible
        first
        | assumption | apply State.plain_keeps | apply State.clearCmd_keeps | apply State.noteCmds_keeps
        | apply Keeps.ite | apply Keeps.foldl | (apply Keeps.fst; assumption)
    | simp only [↓Keeps.fields] | split | dsimp only

theorem State.lswCtrlWrite_keeps {s t a1 a2 a3 a4} (h : Keeps s t) : Keeps s (State.lswCtrlWrite t a1 a2 a3 a4) := by
  unfold State.lswCtrlWrite
  iterate 100 all_goals try
    first
    | intro _
    | with_reducible
        first
        | assumption | apply State.regWrite_keeps | apply lswCtrlEff_keeps | apply Keeps.ite | apply Keeps.foldl
        | (apply Keeps.fst; assumption)
    | simp only [↓Keeps.fields] | split | dsimp only

theorem State.lswSoftReset_keeps {s t a1 a2 g3} (h : Keeps s t) (h3 : ∀ y0, Keeps s y0 → Keeps s (g3 y0)) :
    Keeps s (State.lswSoftReset t a1 a2 g3) := by
  unfold State.lswSoftReset
  dsimp only
  iterate 100 all_goals try
    first
    | intro _
    | with_reducible
        first
        | assumption | apply State.chanState_keeps | apply State.modChan_keeps | apply State.noteCmds_keeps
        | apply State.turnOff_keeps | apply Keeps.ite | apply Keeps.foldl | (apply Keeps.fst; assumption)
    | simp only [↓Keeps.fields] | split | dsimp only
  all_goals exact h3 _ (State.turnOff_keeps h)

theorem State.measureTabs_keeps {s t a1 a2 a3} (h : Keeps s t) : Keeps s (State.measureTabs t a1 a2 a3) := by
  unfold State.measureTabs
  iterate 100 all_goals try
    first
    | intro _
    | with_reducible
        first
        | assumption | apply State.seti_keeps | apply State.set_keeps | apply State.modDie_keeps | apply Keeps.ite
        | apply Keeps.foldl | (apply Keeps.fst; assumption)
    | simp only [↓Keeps.fields] | split | dsimp only

theorem State.showSample_keeps {s t a1 a2 a3 a4} (h : Keeps s t) : Keeps s (State.showSample t a1 a2 a3 a4) := by
  unfold State.showSample
  iterate 100 all_goals try
    first
    | intro _
    | with_reducible
        first
        | assumption | apply State.set_keeps | apply State.seti_keeps | apply State.modChan_keeps | apply Keeps.ite
        | apply Keeps.foldl | (apply Keeps.fst; assumption)
    | simp only [↓Keeps.fields] | split | dsimp only

theorem State.sampleChan_keeps {s t a1 a2 a3 a4 a5} (h : Keeps s t) : Keeps s (State.sampleChan t a1 a2 a3 a4 a5) := by
  unfold State.sampleChan
  iterate 100 all_goals try
    first
    | intro _
    | with_reducible
        first
        | assumption | apply State.showSample_keeps | apply State.modChan_keeps | apply State.wireStep_keeps
        | apply State.clampStep_keeps | apply Keeps.ite | apply Keeps.foldl | (apply Keeps.fst; assumption)
    | simp only [↓Keeps.fields] | split | dsimp only

theorem State.takeRegs_keeps {s t a1} (h : Keeps s t) : Keeps s (State.takeRegs t a1) := by
  unfold State.takeRegs
  iterate 100 all_goals try
    first
    | intro _
    | with_reducible
        first
        | assumption | apply State.each_keeps | apply State.modChan_keeps | apply Keeps.ite | apply Keeps.foldl
        | (apply Keeps.fst; assumption)
    | simp only [↓Keeps.fields] | split | dsimp only

theorem State.turnOffDone_keeps {s t a1 a2 a3} (h : Keeps s t) : Keeps s (State.turnOffDone t a1 a2 a3) := by
  unfold State.turnOffDone
  iterate 100 all_goals try
    first
    | intro _
    | with_reducible
        first
        | assumption | apply State.modChan_keeps | apply State.wrn_keeps | apply State.chanErr_keeps
        | apply State.cnt_keeps | apply State.irq_keeps | apply Keeps.ite | apply Keeps.foldl
        | (apply Keeps.fst; assumption)
    | simp only [↓Keeps.fields] | split | dsimp only

theorem lswCntClrEff_keeps {s a0 a1 a2 t} (h : Keeps s t) : Keeps s (lswCntClrEff a0 a1 a2 t) := by
  unfold lswCntClrEff
  iterate 100 all_goals try
    first
    | intro _
    | with_reducible
        first
        | assumption | apply State.wrn_keeps | apply Keeps.ite | apply Keeps.foldl | (apply Keeps.fst; assumption)
    | simp only [↓Keeps.fields] | split | dsimp only

theorem lswSnsClrEff_keeps {s a0 a1 a2 t} (h : Keeps s t) : Keeps s (lswSnsClrEff a0 a1 a2 t) := by
  unfold lswSnsClrEff
  iterate 100 all_goals try
    first
    | intro _
    | with_reducible
        first
        | assumption | apply State.wrn_keeps | apply Keeps.ite | apply Keeps.foldl | (apply Keeps.fst; assumption)
    | simp only [↓Keeps.fields] | split | dsimp only

theorem pdcOutImgEff_keeps {s a0 a1 t} (h : Keeps s t) : Keeps s (pdcOutImgEff a0 a1 t) := by
  unfold pdcOutImgEff
  iterate 100 all_goals try
    first
    | intro _
    | with_reducible
        first
        | assumption | apply State.noteCmds_keeps | apply State.plain_keeps | apply Keeps.ite | apply Keeps.foldl
        | (apply Keeps.fst; assumption)
    | simp only [↓Keeps.fields] | split | dsimp only

theorem State.driveClaim_keeps {s t a1} (h : Keeps s t) : Keeps s (State.driveClaim t a1) := by
  unfold State.driveClaim
  iterate 100 all_goals try
    first
    | intro _
    | with_reducible
        first
        | assumption | apply State.emit_keeps | apply Keeps.ite | apply Keeps.foldl | (apply Keeps.fst; assumption)
    | simp only [↓Keeps.fields] | split | dsimp only

theorem State.pdcErr_keeps {s t a1 a2} (h : Keeps s t) : Keeps s (State.pdcErr t a1 a2) := by
  unfold State.pdcErr
  iterate 100 all_goals try
    first
    | intro _
    | with_reducible
        first
        | assumption | apply State.err_keeps | apply Keeps.ite | apply Keeps.foldl | (apply Keeps.fst; assumption)
    | simp only [↓Keeps.fields] | split | dsimp only

theorem State.enterSafe_keeps {s t a1} (h : Keeps s t) : Keeps s (State.enterSafe t a1) := by
  unfold State.enterSafe
  iterate 100 all_goals try
    first
    | intro _
    | with_reducible
        first
        | assumption | apply State.modDie_keeps | apply State.noteCmds_keeps | apply State.pdcErr_keeps
        | apply State.cnt_keeps | apply State.irq_keeps | apply Keeps.ite | apply Keeps.foldl
        | (apply Keeps.fst; assumption)
    | simp only [↓Keeps.fields] | split | dsimp only

theorem State.enterHold_keeps {s t a1} (h : Keeps s t) : Keeps s (State.enterHold t a1) := by
  unfold State.enterHold
  iterate 100 all_goals try
    first
    | intro _
    | with_reducible
        first
        | assumption | apply State.modDie_keeps | apply State.set_keeps | apply State.pdcErr_keeps
        | apply State.cnt_keeps | apply State.irq_keeps | apply State.enterSafe_keeps | apply Keeps.ite
        | apply Keeps.foldl | (apply Keeps.fst; assumption)
    | simp only [↓Keeps.fields] | split | dsimp only

theorem State.computeLost_keeps {s t a1} (h : Keeps s t) : Keeps s (State.computeLost t a1) := by
  unfold State.computeLost
  iterate 100 all_goals try
    first
    | intro _
    | with_reducible
        first
        | assumption | apply State.modDie_keeps | apply State.driveClaim_keeps | apply State.enterHold_keeps
        | apply Keeps.ite | apply Keeps.foldl | (apply Keeps.fst; assumption)
    | simp only [↓Keeps.fields] | split | dsimp only

theorem State.resumeEdge_keeps {s t a1} (h : Keeps s t) : Keeps s (State.resumeEdge t a1) := by
  unfold State.resumeEdge
  iterate 100 all_goals try
    first
    | intro _
    | with_reducible
        first
        | assumption | apply State.takeRegs_keeps | apply State.irq_keeps | apply State.modDie_keeps
        | apply State.enterHold_keeps | apply Keeps.ite | apply Keeps.foldl | (apply Keeps.fst; assumption)
    | simp only [↓Keeps.fields] | split | dsimp only

theorem State.dieEdge_keeps {s t a1 a2 a3 a4} (h : Keeps s t) : Keeps s (State.dieEdge t a1 a2 a3 a4) := by
  unfold State.dieEdge
  iterate 100 all_goals try
    first
    | intro _
    | with_reducible
        first
        | assumption | apply State.converterRestart_keeps | apply State.resumeEdge_keeps | apply State.averages_keeps
        | apply State.channelEdge_keeps | apply Keeps.ite | apply Keeps.foldl | (apply Keeps.fst; assumption)
    | simp only [↓Keeps.fields] | split | dsimp only

theorem State.deliverEdge_keeps {s t a1 a2} (h : Keeps s t) : Keeps s (State.deliverEdge t a1 a2) := by
  unfold State.deliverEdge
  iterate 100 all_goals try
    first
    | intro _
    | with_reducible
        first
        | assumption | apply State.modDie_keeps | apply State.dieEdge_keeps | apply Keeps.ite | apply Keeps.foldl
        | (apply Keeps.fst; assumption)
    | simp only [↓Keeps.fields] | split | dsimp only

theorem State.dieRelease_keeps {s t a1} (h : Keeps s t) : Keeps s (State.dieRelease t a1) := by
  unfold State.dieRelease
  extract_lets _ s1 s2
  have h1 : Keeps s s1 := h.and fun x => by unfold s1 State.Sized at *; simpa [setNth] using x
  have h2 : Keeps s s2 := State.modDie_keeps h1
  exact State.each_keeps h2 fun _ _ k => State.wrn_keeps k

theorem State.dieReset_keeps {s t a1} (h : Keeps s t) : Keeps s (State.dieReset t a1) := by
  unfold State.dieReset
  extract_lets s1 _ s2 s3 s4 s5
  have h1 : Keeps s s1 := State.each_keeps h fun x a k => by split; exact State.emit_keeps k; exact k
  have h2 : Keeps s s2 := Keeps.dieNew h1
  have h3 : Keeps s s3 := State.each_keeps h2 fun _ _ k => State.resetPage_keeps k
  have h4 : Keeps s s4 := State.resetPage_keeps h3
  have h5 : Keeps s s5 := State.senseFrom_keeps (Keeps.ite (State.driveClaim_keeps h4) h4)
  exact Keeps.ite h5 (State.restLost_keeps h5)

theorem State.enterTwc_keeps {s t a1} (h : Keeps s t) : Keeps s (State.enterTwc t a1) := by
  unfold State.enterTwc
  iterate 100 all_goals try
    first
    | intro _
    | with_reducible
        first
        | assumption | apply State.pdcErr_keeps | apply State.irq_keeps | apply State.modDie_keeps | apply Keeps.ite
        | apply Keeps.foldl | (apply Keeps.fst; assumption)
    | simp only [↓Keeps.fields] | split | dsimp only

theorem State.groupOff_keeps {s t a1 a2} (h : Keeps s t) : Keeps s (State.groupOff t a1 a2) := by
  unfold State.groupOff
  iterate 100 all_goals try
    first
    | intro _
    | with_reducible
        first
        | assumption | apply State.modDie_keeps | apply State.each_keeps | apply State.turnOff_keeps
        | apply Keeps.ite | apply Keeps.foldl | (apply Keeps.fst; assumption)
    | simp only [↓Keeps.fields] | split | dsimp only

theorem State.limpIn_keeps {s t a1 a2} (h : Keeps s t) : Keeps s (State.limpIn t a1 a2) := by
  unfold State.limpIn
  iterate 100 all_goals try
    first
    | intro _
    | with_reducible
        first
        | assumption | apply State.modChan_keeps | apply State.pdcErr_keeps | apply State.irq_keeps
        | apply State.modDie_keeps | apply Keeps.ite | apply Keeps.foldl | (apply Keeps.fst; assumption)
    | simp only [↓Keeps.fields] | split | dsimp only

theorem State.landChange_keeps {s t a1 a2 a3} (h : Keeps s t) : Keeps s (State.landChange t a1 a2 a3) := by
  unfold State.landChange
  iterate 100 all_goals try
    first
    | intro _
    | with_reducible
        first
        | assumption | apply State.set_keeps | apply State.each_keeps | apply State.clearFault_keeps
        | apply State.limpIn_keeps | apply State.noteCmds_keeps | apply Keeps.ite | apply Keeps.foldl
        | (apply Keeps.fst; assumption)
    | simp only [↓Keeps.fields] | split | dsimp only

theorem State.limpOut_keeps {s t a1 a2} (h : Keeps s t) : Keeps s (State.limpOut t a1 a2) := by
  unfold State.limpOut
  iterate 100 all_goals try
    first
    | intro _
    | with_reducible
        first
        | assumption | apply State.modChan_keeps | apply Keeps.ite | apply Keeps.foldl
        | (apply Keeps.fst; assumption)
    | simp only [↓Keeps.fields] | split | dsimp only

theorem State.limpJudge_keeps {s t a1 a2} (h : Keeps s t) : Keeps s (State.limpJudge t a1 a2) := by
  unfold State.limpJudge
  iterate 100 all_goals try
    first
    | intro _
    | with_reducible
        first
        | assumption | apply State.limpIn_keeps | apply State.limpOut_keeps | apply Keeps.ite | apply Keeps.foldl
        | (apply Keeps.fst; assumption)
    | simp only [↓Keeps.fields] | split | dsimp only

theorem State.limpEval_keeps {s t a1} (h : Keeps s t) : Keeps s (State.limpEval t a1) := by
  unfold State.limpEval
  iterate 100 all_goals try
    first
    | intro _
    | with_reducible
        first
        | assumption | apply State.modDie_keeps | apply State.noteCmds_keeps | apply State.each_keeps
        | apply State.limpJudge_keeps | apply Keeps.ite | apply Keeps.foldl | (apply Keeps.fst; assumption)
    | simp only [↓Keeps.fields] | split | dsimp only

theorem State.pdcSoftReset_keeps {s t o d} (h : Keeps s t) : Keeps s (State.pdcSoftReset t o d) := by
  unfold State.pdcSoftReset
  iterate 100 all_goals try
    first
    | intro _
    | with_reducible
        first
        | assumption | apply State.wr_keeps | apply State.set_keeps | apply State.limpEval_keeps
        | apply State.noteCmds_keeps | apply State.senseFrom_keeps | apply Keeps.ite | apply Keeps.foldl
        | (apply Keeps.fst; assumption)
    | simp only [↓Keeps.fields] | split | dsimp only

theorem State.resumeDie_keeps {s t a1} (h : Keeps s t) : Keeps s (State.resumeDie t a1) := by
  unfold State.resumeDie
  iterate 100 all_goals try
    first
    | intro _
    | with_reducible
        first
        | assumption | apply State.errCause_keeps | apply State.set_keeps | apply State.modDie_keeps
        | apply State.pdcErr_keeps | apply State.irq_keeps | apply Keeps.ite | apply Keeps.foldl
        | (apply Keeps.fst; assumption)
    | simp only [↓Keeps.fields] | split | dsimp only

theorem State.sendStatus_keeps {s t a1} (h : Keeps s t) : Keeps s (State.sendStatus t a1) := by
  unfold State.sendStatus
  iterate 100 all_goals try
    first
    | intro _
    | with_reducible
        first
        | assumption | apply State.emit_keeps | apply State.modDie_keeps | apply Keeps.ite | apply Keeps.foldl
        | (apply Keeps.fst; assumption)
    | simp only [↓Keeps.fields] | split | dsimp only

theorem State.twcDrop_keeps {s t a1} (h : Keeps s t) : Keeps s (State.twcDrop t a1) := by
  unfold State.twcDrop
  iterate 100 all_goals try
    first
    | intro _
    | with_reducible
        first
        | assumption | apply State.each_keeps | apply State.cnt_keeps | apply State.errLimited_keeps
        | apply State.cntWrap_keeps | apply Keeps.ite | apply Keeps.foldl | (apply Keeps.fst; assumption)
    | simp only [↓Keeps.fields] | split | dsimp only

theorem State.twcRefuse_keeps {s t a1} (h : Keeps s t) : Keeps s (State.twcRefuse t a1) := by
  unfold State.twcRefuse
  iterate 100 all_goals try
    first
    | intro _
    | with_reducible
        first
        | assumption | apply State.dieLimited_keeps | apply State.irq_keeps | apply State.cnt_keeps | apply Keeps.ite
        | apply Keeps.foldl | (apply Keeps.fst; assumption)
    | simp only [↓Keeps.fields] | split | dsimp only

theorem State.twcReceive_keeps {s t a1 a2 g3 g4} (h : Keeps s t) (h4 : ∀ y0 y1, Keeps s y1 → Keeps s (g4 y0 y1)) :
    Keeps s (State.twcReceive t a1 a2 g3 g4) := by
  unfold State.twcReceive
  iterate 100 all_goals try
    first
    | intro _
    | with_reducible
        first
        | assumption | apply h4 | apply State.twcDrop_keeps | apply State.each_keeps | apply State.cnt_keeps
        | apply State.twcRefuse_keeps | apply Keeps.ite | apply Keeps.foldl | (apply Keeps.fst; assumption)
    | simp only [↓Keeps.fields] | split | dsimp only

theorem State.twcSetAct_keeps {s a0 a1 t} (h : Keeps s t) : Keeps s (State.twcSetAct a0 a1 t) := by
  unfold State.twcSetAct
  iterate 100 all_goals try
    first
    | intro _
    | with_reducible
        first
        | assumption | apply State.noteCmds_keeps | apply State.enterTwc_keeps | apply State.modDie_keeps
        | apply Keeps.ite | apply Keeps.foldl | (apply Keeps.fst; assumption)
    | simp only [↓Keeps.fields] | split | dsimp only

theorem pdcCntClrEff_keeps {s a0 a1 t} (h : Keeps s t) : Keeps s (pdcCntClrEff a0 a1 t) := by
  unfold pdcCntClrEff
  iterate 100 all_goals try
    first
    | intro _
    | with_reducible
        first
        | assumption | apply State.wrn_keeps | apply Keeps.ite | apply Keeps.foldl | (apply Keeps.fst; assumption)
    | simp only [↓Keeps.fields] | split | dsimp only

theorem pdcHoldEff_keeps {s a0 a1 t} (h : Keeps s t) : Keeps s (pdcHoldEff a0 a1 t) := by
  unfold pdcHoldEff
  iterate 100 all_goals try
    first
    | intro _
    | with_reducible
        first
        | assumption | apply State.plain_keeps | apply State.resumeDie_keeps | apply Keeps.ite | apply Keeps.foldl
        | (apply Keeps.fst; assumption)
    | simp only [↓Keeps.fields] | split | dsimp only

theorem lswHoldEff_keeps {s a0 a1 a2 t} (h : Keeps s t) : Keeps s (lswHoldEff a0 a1 a2 t) := by
  unfold lswHoldEff
  iterate 100 all_goals try
    first
    | intro _
    | with_reducible
        first
        | assumption | apply State.noteCmds_keeps | apply State.limpJudge_keeps | apply State.plain_keeps
        | apply Keeps.ite | apply Keeps.foldl | (apply Keeps.fst; assumption)
    | simp only [↓Keeps.fields] | split | dsimp only

theorem pdcLhEff_keeps {s a0 a1 t} (h : Keeps s t) : Keeps s (pdcLhEff a0 a1 t) := by
  unfold pdcLhEff
  iterate 100 all_goals try
    first
    | intro _
    | with_reducible
        first
        | assumption | apply State.limpEval_keeps | apply State.plain_keeps | apply Keeps.ite | apply Keeps.foldl
        | (apply Keeps.fst; assumption)
    | simp only [↓Keeps.fields] | split | dsimp only

theorem pdcSnsEff_keeps {s a0 a1 t} (h : Keeps s t) : Keeps s (pdcSnsEff a0 a1 t) := by
  unfold pdcSnsEff
  iterate 100 all_goals try
    first
    | intro _
    | with_reducible
        first
        | assumption | apply State.plain_keeps | apply State.emit_keeps | apply Keeps.ite | apply Keeps.foldl
        | (apply Keeps.fst; assumption)
    | simp only [↓Keeps.fields] | split | dsimp only

theorem State.setBit_keeps {s t a1 a2 a3 a4} (h : Keeps s t) : Keeps s (State.setBit t a1 a2 a3 a4) := by
  unfold State.setBit
  iterate 100 all_goals try
    first
    | intro _
    | with_reducible
        first
        | assumption | apply State.set_keeps | apply Keeps.ite | apply Keeps.foldl | (apply Keeps.fst; assumption)
    | simp only [↓Keeps.fields] | split | dsimp only

theorem State.anaFlags_keeps {s t a1} (h : Keeps s t) : Keeps s (State.anaFlags t a1) := by
  unfold State.anaFlags
  iterate 100 all_goals try
    first
    | intro _
    | with_reducible
        first
        | assumption | apply State.setBit_keeps | apply Keeps.ite | apply Keeps.foldl | (apply Keeps.fst; assumption)
    | simp only [↓Keeps.fields] | split | dsimp only

theorem State.modDin_keeps {s t a1 g2} (h : Keeps s t) : Keeps s (State.modDin t a1 g2) := by
  unfold State.modDin
  iterate 100 all_goals try
    first
    | intro _
    | with_reducible
        first
        | assumption | apply Keeps.dinMod | apply Keeps.ite | apply Keeps.foldl | (apply Keeps.fst; assumption)
    | simp only [↓Keeps.fields] | split | dsimp only

theorem State.chatterBoundary_keeps {s t} (h : Keeps s t) : Keeps s (State.chatterBoundary t) := by
  unfold State.chatterBoundary
  iterate 100 all_goals try
    first
    | intro _
    | with_reducible
        first
        | assumption | apply State.each_keeps | apply State.setBit_keeps | apply State.modDin_keeps | apply Keeps.ite
        | apply Keeps.foldl | (apply Keeps.fst; assumption)
    | simp only [↓Keeps.fields] | split | dsimp only

theorem State.chatterRequest_keeps {s t a1 a2 a3} (h : Keeps s t) : Keeps s (State.chatterRequest t a1 a2 a3) := by
  unfold State.chatterRequest
  iterate 100 all_goals try
    first
    | intro _
    | with_reducible
        first
        | assumption | apply State.modDin_keeps | apply State.cnt_keeps | apply Keeps.ite | apply Keeps.foldl
        | (apply Keeps.fst; assumption)
    | simp only [↓Keeps.fields] | split | dsimp only

theorem State.chatterStep_keeps {s t a1} (h : Keeps s t) : Keeps s (State.chatterStep t a1).1 := by
  unfold State.chatterStep
  iterate 100 all_goals try
    first
    | intro _
    | with_reducible
        first
        | assumption | apply State.modDin_keeps | apply State.cnt_keeps | apply State.err_keeps
        | apply State.irq_keeps | apply State.setBit_keeps | apply Keeps.ite | apply Keeps.foldl
        | (apply Keeps.fst; assumption)
    | simp only [↓Keeps.fields] | split | dsimp only

theorem State.debounceStep_keeps {s t a1 a2 a3} (h : Keeps s t) : Keeps s (State.debounceStep t a1 a2 a3) := by
  unfold State.debounceStep
  iterate 100 all_goals try
    first
    | intro _
    | with_reducible
        first
        | assumption | apply State.modDin_keeps | apply State.irq_keeps | apply State.setBit_keeps | apply Keeps.ite
        | apply Keeps.foldl | (apply Keeps.fst; assumption)
    | simp only [↓Keeps.fields] | split | dsimp only

theorem State.diagStep_keeps {s t a1 a2} (h : Keeps s t) : Keeps s (State.diagStep t a1 a2) := by
  unfold State.diagStep
  iterate 100 all_goals try
    first
    | intro _
    | with_reducible
        first
        | assumption | apply State.modDin_keeps | apply State.setBit_keeps | apply State.err_keeps
        | apply State.irq_keeps | apply Keeps.ite | apply Keeps.foldl | (apply Keeps.fst; assumption)
    | simp only [↓Keeps.fields] | split | dsimp only

theorem State.stuckStep_keeps {s t a1} (h : Keeps s t) : Keeps s (State.stuckStep t a1) := by
  unfold State.stuckStep
  iterate 100 all_goals try
    first
    | intro _
    | with_reducible
        first
        | assumption | apply State.err_keeps | apply State.cnt_keeps | apply State.irq_keeps
        | apply State.setBit_keeps | apply Keeps.ite | apply Keeps.foldl | (apply Keeps.fst; assumption)
    | simp only [↓Keeps.fields] | split | dsimp only

theorem State.sampleDin_keeps {s t a1 a2 a3} (h : Keeps s t) : Keeps s (State.sampleDin t a1 a2 a3) := by
  unfold State.sampleDin
  iterate 100 all_goals try
    first
    | intro _
    | with_reducible
        first
        | assumption | apply State.modDin_keeps | apply State.setBit_keeps | apply State.set_keeps
        | apply State.chatterStep_keeps | apply State.stuckStep_keeps | apply State.debounceStep_keeps
        | apply State.diagStep_keeps | apply State.chatterRequest_keeps | apply Keeps.ite | apply Keeps.foldl
        | (apply Keeps.fst; assumption)
    | simp only [↓Keeps.fields] | split | dsimp only

theorem State.sampleAin_keeps {s t a1 a2} (h : Keeps s t) : Keeps s (State.sampleAin t a1 a2) := by
  unfold State.sampleAin
  iterate 100 all_goals try
    first
    | intro _
    | with_reducible
        first
        | assumption | apply State.set_keeps | apply State.irq_keeps | apply State.anaFlags_keeps
        | apply State.err_keeps | apply Keeps.ains | apply Keeps.ite | apply Keeps.foldl
        | (apply Keeps.fst; assumption)
    | simp only [↓Keeps.fields] | split | dsimp only

theorem State.wakeEval_keeps {s t} (h : Keeps s t) : Keeps s (State.wakeEval t).1 := by
  unfold State.wakeEval
  iterate 100 all_goals try
    first
    | intro _
    | with_reducible
        first
        | assumption | apply State.set_keeps | apply State.each_keeps | apply State.irq_keeps | apply State.cnt_keeps
        | apply Keeps.ite | apply Keeps.foldl | (apply Keeps.fst; assumption)
    | simp only [↓Keeps.fields] | split | dsimp only

theorem State.toCores_keeps {s t a1 a2} (h : Keeps s t) : Keeps s (State.toCores t a1 a2) := by
  unfold State.toCores
  iterate 100 all_goals try
    first
    | intro _
    | with_reducible
        first
        | assumption | apply State.each_keeps | apply State.setBytes_keeps | apply Keeps.ite | apply Keeps.foldl
        | (apply Keeps.fst; assumption)
    | simp only [↓Keeps.fields] | split | dsimp only

theorem State.writeImage_keeps {s t a1 a2} (h : Keeps s t) : Keeps s (State.writeImage t a1 a2) := by
  unfold State.writeImage
  iterate 100 all_goals try
    first
    | intro _
    | with_reducible
        first
        | assumption | apply State.set_keeps | apply State.toCores_keeps | apply State.err_keeps
        | apply State.irq_keeps | apply State.cnt_keeps | apply Keeps.ite | apply Keeps.foldl
        | (apply Keeps.fst; assumption)
    | simp only [↓Keeps.fields] | split | dsimp only

theorem State.inputsAtEdge_keeps {s t a1 a2 a3} (h : Keeps s t) : Keeps s (State.inputsAtEdge t a1 a2 a3).1 := by
  have h1 : Keeps s (if a1.boundary then t.chatterBoundary else t) := Keeps.ite (State.chatterBoundary_keeps h) h
  unfold State.inputsAtEdge
  generalize (if a1.boundary then t.chatterBoundary else t) = s1 at h1 ⊢
  have h2 : ∀ l : List Nat, Keeps s (s1.each l fun s i =>
    s.each ((List.range 16).map fun n => 16 * i + n) fun s m => s.sampleDin m (nth a3.dinMv m 0) a3.vbatMv) :=
    fun l => State.each_keeps h1 fun _ _ k => State.each_keeps k fun _ _ k => State.sampleDin_keeps k
  extract_lets _ pages ain s2 s3 w
  have h2 : Keeps s s2 := h2 _
  clear_value s2
  have h3 : Keeps s s3 := Keeps.ite (State.each_keeps h2 fun _ _ k => State.sampleAin_keeps k) h2
  clear_value s3
  have h4 : Keeps s w.1 := State.wakeEval_keeps h3
  clear_value w
  exact Keeps.mk1 (State.writeImage_keeps h4)

theorem digCntClrEff_keeps {s a0 a1 t} (h : Keeps s t) : Keeps s (digCntClrEff a0 a1 t) := by
  unfold digCntClrEff
  iterate 100 all_goals try
    first
    | intro _
    | with_reducible
        first
        | assumption | apply State.each_keeps | apply State.wrn_keeps | apply Keeps.ite | apply Keeps.foldl
        | (apply Keeps.fst; assumption)
    | simp only [↓Keeps.fields] | split | dsimp only

end Sys2Proof.Machine
end

