-- ==== Sys2Proof/Laws/KeepsTwin.lean ====
section
/-!
SUPPORT. What every operation keeps (Laws/Keeps): die bridges, the twin link, migration and Phoask.
-/

set_option linter.all false

namespace Sys2Proof.Machine

theorem State.modBridge_keeps {s t a1 g2} (h : Keeps s t) : Keeps s (State.modBridge t a1 g2) := by
  unfold State.modBridge
  iterate 100 all_goals try
    first
    | intro _
    | with_reducible
        first
        | assumption | apply Keeps.brMod | apply Keeps.ite | apply Keeps.foldl | (apply Keeps.fst; assumption)
    | simp only [↓Keeps.fields] | split | dsimp only

theorem State.showBridge_keeps {s t a1} (h : Keeps s t) : Keeps s (State.showBridge t a1) := by
  unfold State.showBridge
  iterate 100 all_goals try
    first
    | intro _
    | with_reducible
        first
        | assumption | apply State.set_keeps | apply State.each_keeps | apply Keeps.ite | apply Keeps.foldl
        | (apply Keeps.fst; assumption)
    | simp only [↓Keeps.fields] | split | dsimp only

theorem State.writeSide_keeps {s t a1} (h : Keeps s t) : Keeps s (State.writeSide t a1) := by
  unfold State.writeSide
  iterate 100 all_goals try
    first
    | intro _
    | with_reducible
        first
        | assumption | apply State.modDie_keeps | apply Keeps.ite | apply Keeps.foldl | (apply Keeps.fst; assumption)
    | simp only [↓Keeps.fields] | split | dsimp only

theorem State.postQueued_keeps {s t a1} (h : Keeps s t) : Keeps s (State.postQueued t a1) := by
  unfold State.postQueued
  iterate 100 all_goals try
    first
    | intro _
    | with_reducible
        first
        | assumption | apply State.modDie_keeps | apply Keeps.ite | apply Keeps.foldl | (apply Keeps.fst; assumption)
    | simp only [↓Keeps.fields] | split | dsimp only

theorem State.claimStarts_keeps {s t} (h : Keeps s t) : Keeps s (State.claimStarts t) := by
  unfold State.claimStarts
  iterate 100 all_goals try
    first
    | intro _
    | with_reducible
        first
        | assumption | apply Keeps.ite | apply Keeps.foldl | (apply Keeps.fst; assumption)
    | simp only [↓Keeps.fields] | split | dsimp only

theorem State.bridgeComesUp_keeps {s t a1} (h : Keeps s t) : Keeps s (State.bridgeComesUp t a1) := by
  unfold State.bridgeComesUp
  iterate 100 all_goals try
    first
    | intro _
    | with_reducible
        first
        | assumption | apply State.modBridge_keeps | apply State.showBridge_keeps | apply State.irq_keeps
        | apply State.set_keeps | apply State.writeSide_keeps | apply State.postQueued_keeps
        | apply State.modDie_keeps | apply State.each_keeps | apply State.canXcvrBack_keeps
        | apply State.linXcvrBack_keeps | apply State.claimStarts_keeps | apply State.driveClaim_keeps
        | apply Keeps.ite | apply Keeps.foldl | (apply Keeps.fst; assumption)
    | simp only [↓Keeps.fields] | split | dsimp only

theorem State.windowEnds_keeps {s t a1 a2} (h : Keeps s t) : Keeps s (State.windowEnds t a1 a2) := by
  unfold State.windowEnds
  iterate 100 all_goals try
    first
    | intro _
    | with_reducible
        first
        | assumption | apply State.set_keeps | apply State.irq_keeps | apply Keeps.ite | apply Keeps.foldl
        | (apply Keeps.fst; assumption)
    | simp only [↓Keeps.fields] | split | dsimp only

theorem State.packetGoes_keeps {s t a1 a2 a3} (h : Keeps s t) : Keeps s (State.packetGoes t a1 a2 a3) := by
  unfold State.packetGoes
  iterate 100 all_goals try
    first
    | intro _
    | with_reducible
        first
        | assumption | apply State.emit_keeps | apply State.modBridge_keeps | apply Keeps.ite | apply Keeps.foldl
        | (apply Keeps.fst; assumption)
    | simp only [↓Keeps.fields] | split | dsimp only

theorem State.drainVc_keeps {s a0 a1 a2 t} (h : Keeps s t) : Keeps s (State.drainVc a0 a1 a2 t) := by
  revert h
  fun_induction State.drainVc a0 a1 a2 t
  all_goals intro h
  iterate 100 all_goals try
    first
    | intro _
    | with_reducible
        first
        | assumption | apply State.packetGoes_keeps | apply State.modBridge_keeps | apply Keeps.ite
        | apply Keeps.foldl | (apply Keeps.fst; assumption) | apply_assumption
    | simp only [↓Keeps.fields] | split | dsimp only

theorem State.drain_keeps {s t a1} (h : Keeps s t) : Keeps s (State.drain t a1) := by
  unfold State.drain
  iterate 100 all_goals try
    first
    | intro _
    | with_reducible
        first
        | assumption | apply State.showBridge_keeps | apply State.each_keeps | apply State.drainVc_keeps
        | apply Keeps.ite | apply Keeps.foldl | (apply Keeps.fst; assumption)
    | simp only [↓Keeps.fields] | split | dsimp only

theorem State.sendRsv_keeps {s t a1 a2 a3 a4 a5 a6} (h : Keeps s t) : Keeps s (State.sendRsv t a1 a2 a3 a4 a5 a6) := by
  unfold State.sendRsv
  iterate 100 all_goals try
    first
    | intro _
    | with_reducible
        first
        | assumption | apply State.drain_keeps | apply State.modBridge_keeps | apply Keeps.ite | apply Keeps.foldl
        | (apply Keeps.fst; assumption)
    | simp only [↓Keeps.fields] | split | dsimp only

theorem State.issueWindow_keeps {s t} (h : Keeps s t) : Keeps s (State.issueWindow t) := by
  unfold State.issueWindow
  iterate 100 all_goals try
    first
    | intro _
    | with_reducible
        first
        | assumption | apply State.windowEnds_keeps | apply State.sendRsv_keeps | apply State.modBridge_keeps
        | apply Keeps.ite | apply Keeps.foldl | (apply Keeps.fst; assumption)
    | simp only [↓Keeps.fields] | split | dsimp only

theorem State.tagFreed_keeps {s t a1 a2} (h : Keeps s t) : Keeps s (State.tagFreed t a1 a2) := by
  unfold State.tagFreed
  iterate 100 all_goals try
    first
    | intro _
    | with_reducible
        first
        | assumption | apply State.showBridge_keeps | apply State.modBridge_keeps | apply State.issueWindow_keeps
        | apply Keeps.ite | apply Keeps.foldl | (apply Keeps.fst; assumption)
    | simp only [↓Keeps.fields] | split | dsimp only

theorem State.completion_keeps {s t a1 a2 a3 a4} (h : Keeps s t) : Keeps s (State.completion t a1 a2 a3 a4) := by
  unfold State.completion
  iterate 100 all_goals try
    first
    | intro _
    | with_reducible
        first
        | assumption | apply State.tagFreed_keeps | apply State.windowEnds_keeps | apply State.wrn_keeps
        | apply State.cnt_keeps | apply Keeps.ite | apply Keeps.foldl | (apply Keeps.fst; assumption)
    | simp only [↓Keeps.fields] | split | dsimp only

theorem State.powerDieLost_keeps {s t a1} (h : Keeps s t) : Keeps s (State.powerDieLost t a1) := by
  unfold State.powerDieLost
  iterate 100 all_goals try
    first
    | intro _
    | with_reducible
        first
        | assumption | apply State.each_keeps | apply State.canXcvrLost_keeps | apply State.linXcvrLost_keeps
        | apply State.wrn_keeps | apply State.linkLost_keeps | apply Keeps.ite | apply Keeps.foldl
        | (apply Keeps.fst; assumption)
    | simp only [↓Keeps.fields] | split | dsimp only

theorem State.peerDown_keeps {s t a1} (h : Keeps s t) : Keeps s (State.peerDown t a1) := by
  unfold State.peerDown
  iterate 100 all_goals try
    first
    | intro _
    | with_reducible
        first
        | assumption | apply State.each_keeps | apply State.postedError_keeps | apply State.modBridge_keeps
        | apply State.cnt_keeps | apply State.set_keeps | apply State.irq_keeps | apply State.wrn_keeps
        | apply State.powerDieLost_keeps | apply State.err_keeps | apply State.windowEnds_keeps | apply Keeps.ite
        | apply Keeps.foldl | (apply Keeps.fst; assumption)
    | simp only [↓Keeps.fields] | split | dsimp only

theorem State.replayFlits_keeps {s t a1 a2} (h : Keeps s t) : Keeps s (State.replayFlits t a1 a2) := by
  unfold State.replayFlits
  iterate 100 all_goals try
    first
    | intro _
    | with_reducible
        first
        | assumption | apply State.emit_keeps | apply State.irq_keeps | apply State.cnt_keeps
        | apply State.errLimited_keeps | apply Keeps.ite | apply Keeps.foldl | (apply Keeps.fst; assumption)
    | simp only [↓Keeps.fields] | split | dsimp only

theorem brCntClrEff_keeps {s a0 a1 t} (h : Keeps s t) : Keeps s (brCntClrEff a0 a1 t) := by
  unfold brCntClrEff
  iterate 100 all_goals try
    first
    | intro _
    | with_reducible
        first
        | assumption | apply State.each_keeps | apply State.wrn_keeps | apply Keeps.ite | apply Keeps.foldl
        | (apply Keeps.fst; assumption)
    | simp only [↓Keeps.fields] | split | dsimp only

theorem execPostedWriteErrorNotice_keeps {s a0 a1 a2 a3 t} (h : Keeps s t) :
    ∀ u, execPostedWriteErrorNotice a0 a1 a2 a3 t = .next u → Keeps s u := by
  intro u e
  unfold execPostedWriteErrorNotice at e
  cases e
  iterate 100 all_goals try
    first
    | intro _
    | with_reducible
        first
        | assumption | apply State.advance_keeps | apply State.brErr_keeps | apply State.irq_keeps
        | apply State.postedError_keeps | apply Keeps.ite | apply Keeps.foldl | (apply Keeps.fst; assumption)
    | simp only [↓Keeps.fields] | split | dsimp only

theorem execReadCompletion_keeps {s a0 a1 a2 a3 a4 t} (h : Keeps s t) :
    ∀ u, execReadCompletion a0 a1 a2 a3 a4 t = .next u → Keeps s u := by
  intro u e
  unfold execReadCompletion at e
  cases e
  iterate 100 all_goals try
    first
    | intro _
    | with_reducible
        first
        | assumption | apply State.advance_keeps | apply State.completion_keeps | apply Keeps.ite | apply Keeps.foldl
        | (apply Keeps.fst; assumption)
    | simp only [↓Keeps.fields] | split | dsimp only

theorem tbrCmdEff_keeps {s a0 a1 t} (h : Keeps s t) : Keeps s (tbrCmdEff a0 a1 t) := by
  unfold tbrCmdEff
  iterate 100 all_goals try
    first
    | intro _
    | with_reducible
        first
        | assumption | apply State.refused_keeps | apply State.err_keeps | apply State.set_keeps
        | apply State.plain_keeps | apply State.issueWindow_keeps | apply Keeps.ite | apply Keeps.foldl
        | (apply Keeps.fst; assumption)
    | simp only [↓Keeps.fields] | split | dsimp only

theorem execWriteCompletion_keeps {s a0 a1 a2 a3 t} (h : Keeps s t) :
    ∀ u, execWriteCompletion a0 a1 a2 a3 t = .next u → Keeps s u := by
  intro u e
  unfold execWriteCompletion at e
  cases e
  iterate 100 all_goals try
    first
    | intro _
    | with_reducible
        first
        | assumption | apply State.advance_keeps | apply State.completion_keeps | apply Keeps.ite | apply Keeps.foldl
        | (apply Keeps.fst; assumption)
    | simp only [↓Keeps.fields] | split | dsimp only

theorem State.modTwin_keeps {s t g1} (h : Keeps s t) : Keeps s (State.modTwin t g1) := by
  unfold State.modTwin
  iterate 100 all_goals try
    first
    | intro _
    | with_reducible
        first
        | assumption | apply Keeps.ite | apply Keeps.foldl | (apply Keeps.fst; assumption)
    | simp only [↓Keeps.fields] | split | dsimp only

theorem State.oncePerCycle_keeps {s t a1} (h : Keeps s t) : Keeps s (State.oncePerCycle t a1) := by
  unfold State.oncePerCycle
  iterate 100 all_goals try
    first
    | intro _
    | with_reducible
        first
        | assumption | apply State.err_keeps | apply Keeps.ite | apply Keeps.foldl | (apply Keeps.fst; assumption)
    | simp only [↓Keeps.fields] | split | dsimp only

theorem State.writeOutImg_keeps {s t a1 a2} (h : Keeps s t) : Keeps s (State.writeOutImg t a1 a2) := by
  unfold State.writeOutImg
  iterate 100 all_goals try
    first
    | intro _
    | with_reducible
        first
        | assumption | apply State.noteCmds_keeps | apply State.set_keeps | apply Keeps.ite | apply Keeps.foldl
        | (apply Keeps.fst; assumption)
    | simp only [↓Keeps.fields] | split | dsimp only

theorem State.combine_keeps {s t} (h : Keeps s t) : Keeps s (State.combine t) := by
  unfold State.combine
  iterate 100 all_goals try
    first
    | intro _
    | with_reducible
        first
        | assumption | apply State.modTwin_keeps | apply State.oncePerCycle_keeps | apply State.irq_keeps
        | apply State.cnt_keeps | apply State.writeOutImg_keeps | apply Keeps.ite | apply Keeps.foldl
        | (apply Keeps.fst; assumption)
    | simp only [↓Keeps.fields] | split | dsimp only

theorem State.twcSend_keeps {s t a1} (h : Keeps s t) : Keeps s (State.twcSend t a1) := by
  unfold State.twcSend
  iterate 100 all_goals try
    first
    | intro _
    | with_reducible
        first
        | assumption | apply State.emit_keeps | apply Keeps.ite | apply Keeps.foldl | (apply Keeps.fst; assumption)
    | simp only [↓Keeps.fields] | split | dsimp only

theorem State.twcCommand_keeps {s t a1 a2 a3} (h : Keeps s t) : Keeps s (State.twcCommand t a1 a2 a3) := by
  unfold State.twcCommand
  iterate 100 all_goals try
    first
    | intro _
    | with_reducible
        first
        | assumption | apply State.twcSend_keeps | apply State.modTwin_keeps | apply Keeps.ite | apply Keeps.foldl
        | (apply Keeps.fst; assumption)
    | simp only [↓Keeps.fields] | split | dsimp only

theorem State.dualSets_keeps {s t} (h : Keeps s t) : Keeps s (State.dualSets t) := by
  unfold State.dualSets
  iterate 100 all_goals try
    first
    | intro _
    | with_reducible
        first
        | assumption | apply State.each_keeps | apply State.twcCommand_keeps | apply State.modTwin_keeps
        | apply Keeps.ite | apply Keeps.foldl | (apply Keeps.fst; assumption)
    | simp only [↓Keeps.fields] | split | dsimp only

theorem State.setRole_keeps {s t a1} (h : Keeps s t) : Keeps s (State.setRole t a1) := by
  unfold State.setRole
  iterate 100 all_goals try
    first
    | intro _
    | with_reducible
        first
        | assumption | apply State.set_keeps | apply State.driveClaim_keeps | apply State.modTwin_keeps
        | apply State.irq_keeps | apply Keeps.ite | apply Keeps.foldl | (apply Keeps.fst; assumption)
    | simp only [↓Keeps.fields] | split | dsimp only

theorem State.enterClaiming_keeps {s t} (h : Keeps s t) : Keeps s (State.enterClaiming t) := by
  unfold State.enterClaiming
  iterate 100 all_goals try
    first
    | intro _
    | with_reducible
        first
        | assumption | apply State.setRole_keeps | apply State.modTwin_keeps | apply Keeps.ite | apply Keeps.foldl
        | (apply Keeps.fst; assumption)
    | simp only [↓Keeps.fields] | split | dsimp only

theorem State.enterAlone_keeps {s t} (h : Keeps s t) : Keeps s (State.enterAlone t) := by
  unfold State.enterAlone
  iterate 100 all_goals try
    first
    | intro _
    | with_reducible
        first
        | assumption | apply State.setRole_keeps | apply State.enterClaiming_keeps | apply Keeps.ite
        | apply Keeps.foldl | (apply Keeps.fst; assumption)
    | simp only [↓Keeps.fields] | split | dsimp only

theorem State.enterPairing_keeps {s t} (h : Keeps s t) : Keeps s (State.enterPairing t) := by
  unfold State.enterPairing
  iterate 100 all_goals try
    first
    | intro _
    | with_reducible
        first
        | assumption | apply State.modTwin_keeps | apply State.setRole_keeps | apply Keeps.ite | apply Keeps.foldl
        | (apply Keeps.fst; assumption)
    | simp only [↓Keeps.fields] | split | dsimp only

theorem State.enterUnpaired_keeps {s t} (h : Keeps s t) : Keeps s (State.enterUnpaired t) := by
  unfold State.enterUnpaired
  iterate 100 all_goals try
    first
    | intro _
    | with_reducible
        first
        | assumption | apply State.setRole_keeps | apply State.enterPairing_keeps | apply Keeps.ite
        | apply Keeps.foldl | (apply Keeps.fst; assumption)
    | simp only [↓Keeps.fields] | split | dsimp only

theorem State.twPortUp_keeps {s t} (h : Keeps s t) : Keeps s (State.twPortUp t) := by
  unfold State.twPortUp
  iterate 100 all_goals try
    first
    | intro _
    | with_reducible
        first
        | assumption | apply State.set_keeps | apply State.irq_keeps | apply Keeps.ite | apply Keeps.foldl
        | (apply Keeps.fst; assumption)
    | simp only [↓Keeps.fields] | split | dsimp only

theorem State.heard_keeps {s t} (h : Keeps s t) : Keeps s (State.heard t) := by
  unfold State.heard
  iterate 100 all_goals try
    first
    | intro _
    | with_reducible
        first
        | assumption | apply State.enterUnpaired_keeps | apply State.setRole_keeps | apply State.enterPairing_keeps
        | apply State.twPortUp_keeps | apply Keeps.ite | apply Keeps.foldl | (apply Keeps.fst; assumption)
    | simp only [↓Keeps.fields] | split | dsimp only

theorem State.writeImgStatus_keeps {s t a1} (h : Keeps s t) : Keeps s (State.writeImgStatus t a1) := by
  unfold State.writeImgStatus
  iterate 100 all_goals try
    first
    | intro _
    | with_reducible
        first
        | assumption | apply State.toCores_keeps | apply State.modTwin_keeps | apply Keeps.ite | apply Keeps.foldl
        | (apply Keeps.fst; assumption)
    | simp only [↓Keeps.fields] | split | dsimp only

theorem State.imgStale_keeps {s t} (h : Keeps s t) : Keeps s (State.imgStale t) := by
  unfold State.imgStale
  iterate 100 all_goals try
    first
    | intro _
    | with_reducible
        first
        | assumption | apply State.writeImgStatus_keeps | apply Keeps.ite | apply Keeps.foldl
        | (apply Keeps.fst; assumption)
    | simp only [↓Keeps.fields] | split | dsimp only

theorem State.learnTwin_keeps {s t a1} (h : Keeps s t) : Keeps s (State.learnTwin t a1) := by
  unfold State.learnTwin
  iterate 100 all_goals try
    first
    | intro _
    | with_reducible
        first
        | assumption | apply State.modTwin_keeps | apply State.set_keeps | apply State.each_keeps
        | apply State.writeSide_keeps | apply State.twPortUp_keeps | apply Keeps.ite | apply Keeps.foldl
        | (apply Keeps.fst; assumption)
    | simp only [↓Keeps.fields] | split | dsimp only

theorem State.sendMirror_keeps {s t a1 a2 a3} (h : Keeps s t) : Keeps s (State.sendMirror t a1 a2 a3) := by
  unfold State.sendMirror
  iterate 100 all_goals try
    first
    | intro _
    | with_reducible
        first
        | assumption | apply State.sendRsv_keeps | apply Keeps.ite | apply Keeps.foldl
        | (apply Keeps.fst; assumption)
    | simp only [↓Keeps.fields] | split | dsimp only

theorem State.mirrorStore_keeps {s t a1 a2} (h : Keeps s t) : Keeps s (State.mirrorStore t a1 a2) := by
  unfold State.mirrorStore
  iterate 100 all_goals try
    first
    | intro _
    | with_reducible
        first
        | assumption | apply State.sendMirror_keeps | apply Keeps.ite | apply Keeps.foldl
        | (apply Keeps.fst; assumption)
    | simp only [↓Keeps.fields] | split | dsimp only

theorem State.nameBoundary_keeps {s t a1} (h : Keeps s t) : Keeps s (State.nameBoundary t a1) := by
  unfold State.nameBoundary
  iterate 100 all_goals try
    first
    | intro _
    | with_reducible
        first
        | assumption | apply State.modTwin_keeps | apply State.sendRsv_keeps | apply Keeps.ite | apply Keeps.foldl
        | (apply Keeps.fst; assumption)
    | simp only [↓Keeps.fields] | split | dsimp only

theorem State.outputsReleased_keeps {s t} (h : Keeps s t) : Keeps s (State.outputsReleased t) := by
  unfold State.outputsReleased
  iterate 100 all_goals try
    first
    | intro _
    | with_reducible
        first
        | assumption | apply State.sendRsv_keeps | apply State.combine_keeps | apply State.modTwin_keeps
        | apply State.dualSets_keeps | apply Keeps.ite | apply Keeps.foldl | (apply Keeps.fst; assumption)
    | simp only [↓Keeps.fields] | split | dsimp only

theorem State.sendPairing_keeps {s t} (h : Keeps s t) : Keeps s (State.sendPairing t) := by
  unfold State.sendPairing
  iterate 100 all_goals try
    first
    | intro _
    | with_reducible
        first
        | assumption | apply State.sendRsv_keeps | apply State.modTwin_keeps | apply Keeps.ite | apply Keeps.foldl
        | (apply Keeps.fst; assumption)
    | simp only [↓Keeps.fields] | split | dsimp only

theorem State.pairWith_keeps {s t a1} (h : Keeps s t) : Keeps s (State.pairWith t a1) := by
  unfold State.pairWith
  iterate 100 all_goals try
    first
    | intro _
    | with_reducible
        first
        | assumption | apply State.sendPairing_keeps | apply State.each_keeps | apply State.wrn_keeps
        | apply State.modTwin_keeps | apply State.err_keeps | apply State.enterAlone_keeps
        | apply State.learnTwin_keeps | apply State.setRole_keeps | apply State.irq_keeps
        | apply State.enterUnpaired_keeps | apply Keeps.ite | apply Keeps.foldl | (apply Keeps.fst; assumption)
    | simp only [↓Keeps.fields] | split | dsimp only

theorem State.pairsFromMirror_keeps {s t} (h : Keeps s t) : Keeps s (State.pairsFromMirror t) := by
  unfold State.pairsFromMirror
  iterate 100 all_goals try
    first
    | intro _
    | with_reducible
        first
        | assumption | apply State.each_keeps | apply State.set_keeps | apply State.pairRelease_keeps
        | apply State.emit_keeps | apply Keeps.ite | apply Keeps.foldl | (apply Keeps.fst; assumption)
    | simp only [↓Keeps.fields] | split | dsimp only

theorem State.rejoinDropped_keeps {s t} (h : Keeps s t) : Keeps s (State.rejoinDropped t) := by
  unfold State.rejoinDropped
  iterate 100 all_goals try
    first
    | intro _
    | with_reducible
        first
        | assumption | apply State.enterUnpaired_keeps | apply State.err_keeps | apply State.modTwin_keeps
        | apply Keeps.ite | apply Keeps.foldl | (apply Keeps.fst; assumption)
    | simp only [↓Keeps.fields] | split | dsimp only

theorem State.roleBoundary_keeps {s t} (h : Keeps s t) : Keeps s (State.roleBoundary t) := by
  unfold State.roleBoundary
  iterate 100 all_goals try
    first
    | intro _
    | with_reducible
        first
        | assumption | apply State.irq_keeps | apply State.pairsFromMirror_keeps | apply State.setRole_keeps
        | apply Keeps.ite | apply Keeps.foldl | (apply Keeps.fst; assumption)
    | simp only [↓Keeps.fields] | split | dsimp only

theorem State.roleEnable_keeps {s t a1} (h : Keeps s t) : Keeps s (State.roleEnable t a1) := by
  unfold State.roleEnable
  iterate 100 all_goals try
    first
    | intro _
    | with_reducible
        first
        | assumption | apply State.enterUnpaired_keeps | apply State.driveClaim_keeps | apply State.set_keeps
        | apply State.modTwin_keeps | apply Keeps.ite | apply Keeps.foldl | (apply Keeps.fst; assumption)
    | simp only [↓Keeps.fields] | split | dsimp only

theorem State.sendKeep_keeps {s t} (h : Keeps s t) : Keeps s (State.sendKeep t) := by
  unfold State.sendKeep
  iterate 100 all_goals try
    first
    | intro _
    | with_reducible
        first
        | assumption | apply State.twcCommand_keeps | apply Keeps.ite | apply Keeps.foldl
        | (apply Keeps.fst; assumption)
    | simp only [↓Keeps.fields] | split | dsimp only

theorem State.takeControl_keeps {s t} (h : Keeps s t) : Keeps s (State.takeControl t) := by
  unfold State.takeControl
  iterate 100 all_goals try
    first
    | intro _
    | with_reducible
        first
        | assumption | apply State.sendKeep_keeps | apply State.modTwin_keeps | apply Keeps.ite | apply Keeps.foldl
        | (apply Keeps.fst; assumption)
    | simp only [↓Keeps.fields] | split | dsimp only

theorem State.takeRole_keeps {s t a1} (h : Keeps s t) : Keeps s (State.takeRole t a1) := by
  unfold State.takeRole
  iterate 100 all_goals try
    first
    | intro _
    | with_reducible
        first
        | assumption | apply State.err_keeps | apply State.cnt_keeps | apply State.irq_keeps | apply State.set_keeps
        | apply State.setRole_keeps | apply State.takeControl_keeps | apply Keeps.ite | apply Keeps.foldl
        | (apply Keeps.fst; assumption)
    | simp only [↓Keeps.fields] | split | dsimp only

theorem State.twcEnds_keeps {s t a1} (h : Keeps s t) : Keeps s (State.twcEnds t a1) := by
  unfold State.twcEnds
  iterate 100 all_goals try
    first
    | intro _
    | with_reducible
        first
        | assumption | apply State.irq_keeps | apply State.set_keeps | apply State.modTwin_keeps | apply Keeps.ite
        | apply Keeps.foldl | (apply Keeps.fst; assumption)
    | simp only [↓Keeps.fields] | split | dsimp only

theorem State.twcGo_keeps {s t} (h : Keeps s t) : Keeps s (State.twcGo t) := by
  unfold State.twcGo
  iterate 100 all_goals try
    first
    | intro _
    | with_reducible
        first
        | assumption | apply State.twcEnds_keeps | apply State.twcCommand_keeps | apply State.modTwin_keeps
        | apply State.set_keeps | apply Keeps.ite | apply Keeps.foldl | (apply Keeps.fst; assumption)
    | simp only [↓Keeps.fields] | split | dsimp only

theorem State.twinImageAtEdge_keeps {s t a1 a2} (h : Keeps s t) : Keeps s (State.twinImageAtEdge t a1 a2) := by
  unfold State.twinImageAtEdge
  iterate 100 all_goals try
    first
    | intro _
    | with_reducible
        first
        | assumption | apply State.modTwin_keeps | apply State.sendRsv_keeps | apply State.imgStale_keeps
        | apply Keeps.ite | apply Keeps.foldl | (apply Keeps.fst; assumption)
    | simp only [↓Keeps.fields] | split | dsimp only

theorem execCheckpointMirrorPacket_keeps {s a0 a1 a2 a3 t} (h : Keeps s t) :
    ∀ u, execCheckpointMirrorPacket a0 a1 a2 a3 t = .next u → Keeps s u := by
  intro u e
  unfold execCheckpointMirrorPacket at e
  cases e
  iterate 100 all_goals try
    first
    | intro _
    | with_reducible
        first
        | assumption | apply State.advance_keeps | apply State.setBytes_keeps | apply Keeps.ite | apply Keeps.foldl
        | (apply Keeps.fst; assumption)
    | simp only [↓Keeps.fields] | split | dsimp only

theorem twrCtrlEff_keeps {s a0 t} (h : Keeps s t) : Keeps s (twrCtrlEff a0 t) := by
  unfold twrCtrlEff
  iterate 100 all_goals try
    first
    | intro _
    | with_reducible
        first
        | assumption | apply State.roleEnable_keeps | apply State.plain_keeps | apply State.nameBoundary_keeps
        | apply Keeps.ite | apply Keeps.foldl | (apply Keeps.fst; assumption)
    | simp only [↓Keeps.fields] | split | dsimp only

theorem execHandoverPacket_keeps {s a0 a1 a2 t} (h : Keeps s t) :
    ∀ u, execHandoverPacket a0 a1 a2 t = .next u → Keeps s u := by
  intro u e
  unfold execHandoverPacket at e
  cases e
  iterate 100 all_goals try
    first
    | intro _
    | with_reducible
        first
        | assumption | apply State.advance_keeps | apply State.modTwin_keeps | apply Keeps.ite | apply Keeps.foldl
        | (apply Keeps.fst; assumption)
    | simp only [↓Keeps.fields] | split | dsimp only

theorem execInputImagePacket_keeps {s a0 a1 t} (h : Keeps s t) :
    ∀ u, execInputImagePacket a0 a1 t = .next u → Keeps s u := by
  intro u e
  unfold execInputImagePacket at e
  cases e
  iterate 100 all_goals try
    first
    | intro _
    | with_reducible
        first
        | assumption | apply State.advance_keeps | apply State.toCores_keeps | apply State.modTwin_keeps
        | apply State.writeImgStatus_keeps | apply Keeps.ite | apply Keeps.foldl | (apply Keeps.fst; assumption)
    | simp only [↓Keeps.fields] | split | dsimp only

theorem execOutputImagePacket_keeps {s a0 a1 a2 a3 a4 t} (h : Keeps s t) :
    ∀ u, execOutputImagePacket a0 a1 a2 a3 a4 t = .next u → Keeps s u := by
  intro u e
  unfold execOutputImagePacket at e
  cases e
  iterate 100 all_goals try
    first
    | intro _
    | with_reducible
        first
        | assumption | apply State.advance_keeps | apply State.combine_keeps | apply State.modTwin_keeps
        | apply Keeps.ite | apply Keeps.foldl | (apply Keeps.fst; assumption)
    | simp only [↓Keeps.fields] | split | dsimp only

theorem execPairingPacket_keeps {s a0 a1 t} (h : Keeps s t) : ∀ u, execPairingPacket a0 a1 t = .next u → Keeps s u := by
  intro u e
  unfold execPairingPacket at e
  cases e
  iterate 100 all_goals try
    first
    | intro _
    | with_reducible
        first
        | assumption | apply State.advance_keeps | apply State.pairWith_keeps | apply Keeps.ite | apply Keeps.foldl
        | (apply Keeps.fst; assumption)
    | simp only [↓Keeps.fields] | split | dsimp only

theorem twrCntClrEff_keeps {s a0 t} (h : Keeps s t) : Keeps s (twrCntClrEff a0 t) := by
  unfold twrCntClrEff
  iterate 100 all_goals try
    first
    | intro _
    | with_reducible
        first
        | assumption | apply State.each_keeps | apply State.wrn_keeps | apply Keeps.ite | apply Keeps.foldl
        | (apply Keeps.fst; assumption)
    | simp only [↓Keeps.fields] | split | dsimp only

theorem twrTwcCmdEff_keeps {s a0 t} (h : Keeps s t) : Keeps s (twrTwcCmdEff a0 t) := by
  unfold twrTwcCmdEff
  iterate 100 all_goals try
    first
    | intro _
    | with_reducible
        first
        | assumption | apply State.irq_keeps | apply State.set_keeps | apply State.plain_keeps
        | apply State.twcGo_keeps | apply Keeps.ite | apply Keeps.foldl | (apply Keeps.fst; assumption)
    | simp only [↓Keeps.fields] | split | dsimp only

theorem State.sendMigControl_keeps {s t a1 a2 a3} (h : Keeps s t) : Keeps s (State.sendMigControl t a1 a2 a3) := by
  unfold State.sendMigControl
  iterate 100 all_goals try
    first
    | intro _
    | with_reducible
        first
        | assumption | apply State.sendRsv_keeps | apply Keeps.ite | apply Keeps.foldl
        | (apply Keeps.fst; assumption)
    | simp only [↓Keeps.fields] | split | dsimp only

theorem State.migEnds_keeps {s t a1} (h : Keeps s t) : Keeps s (State.migEnds t a1) := by
  unfold State.migEnds
  iterate 100 all_goals try
    first
    | intro _
    | with_reducible
        first
        | assumption | apply State.sendMigControl_keeps | apply State.each_keeps | apply State.freeBytes_keeps
        | apply State.err_keeps | apply State.irq_keeps | apply State.set_keeps | apply Keeps.ite | apply Keeps.foldl
        | (apply Keeps.fst; assumption)
    | simp only [↓Keeps.fields] | split | dsimp only

theorem State.takeRound_keeps {s t a1} (h : Keeps s t) : Keeps s (State.takeRound t a1) := by
  unfold State.takeRound
  iterate 100 all_goals try
    first
    | intro _
    | with_reducible
        first
        | assumption | apply State.each_keeps | apply State.setMemLE_keeps | apply Keeps.ite | apply Keeps.foldl
        | (apply Keeps.fst; assumption)
    | simp only [↓Keeps.fields] | split | dsimp only

theorem State.migBegins_keeps {s t} (h : Keeps s t) : Keeps s (State.migBegins t) := by
  unfold State.migBegins
  iterate 100 all_goals try
    first
    | intro _
    | with_reducible
        first
        | assumption | apply State.set_keeps | apply State.migEnds_keeps | apply State.sendMigControl_keeps
        | apply State.takeRound_keeps | apply State.wrn_keeps | apply Keeps.ite | apply Keeps.foldl
        | (apply Keeps.fst; assumption)
    | simp only [↓Keeps.fields] | split | dsimp only

theorem State.sendPages_keeps {s a0 a1 t} (h : Keeps s t) : Keeps s (State.sendPages a0 a1 t).1 := by
  revert h
  fun_induction State.sendPages a0 a1 t
  all_goals intro h
  iterate 100 all_goals try
    first
    | intro _
    | with_reducible
        first
        | assumption | apply State.translate_keeps | apply State.dmaFaulted_keeps | apply State.readBy_keeps
        | apply State.cnt32_keeps | apply State.sendRsv_keeps | apply Keeps.ite | apply Keeps.foldl
        | (apply Keeps.fst; assumption) | apply_assumption
    | simp only [↓Keeps.fields] | split | dsimp only

theorem migCtrlEff_keeps {s a0 t} (h : Keeps s t) : Keeps s (migCtrlEff a0 t) := by
  unfold migCtrlEff
  iterate 100 all_goals try
    first
    | intro _
    | with_reducible
        first
        | assumption | apply State.plain_keeps | apply State.migEnds_keeps | apply State.migBegins_keeps
        | apply State.set_keeps | apply State.takeRound_keeps | apply Keeps.ite | apply Keeps.foldl
        | (apply Keeps.fst; assumption)
    | simp only [↓Keeps.fields] | split | dsimp only

theorem execMigrationControl_keeps {s a0 a1 a2 a3 t} (h : Keeps s t) :
    ∀ u, execMigrationControl a0 a1 a2 a3 t = .next u → Keeps s u := by
  intro u e
  unfold execMigrationControl at e
  cases e
  iterate 100 all_goals try
    first
    | intro _
    | with_reducible
        first
        | assumption | apply State.advance_keeps | apply State.migEnds_keeps | apply State.irq_keeps
        | apply State.set_keeps | apply Keeps.ite | apply Keeps.foldl | (apply Keeps.fst; assumption)
    | simp only [↓Keeps.fields] | split | dsimp only

theorem execMigrationPage_keeps {s a0 a1 a2 a3 t} (h : Keeps s t) :
    ∀ u, execMigrationPage a0 a1 a2 a3 t = .next u → Keeps s u := by
  intro u e
  unfold execMigrationPage at e
  cases e
  iterate 100 all_goals try
    first
    | intro _
    | with_reducible
        first
        | assumption | apply State.advance_keeps | apply State.translate_keeps | apply State.migEnds_keeps
        | apply State.dmaFaulted_keeps | apply State.ramWrite_keeps | apply Keeps.ite | apply Keeps.foldl
        | (apply Keeps.fst; assumption)
    | simp only [↓Keeps.fields] | split | dsimp only

theorem State.ctlCredits_keeps {s t a1 a2} (h : Keeps s t) : Keeps s (State.ctlCredits t a1 a2) := by
  unfold State.ctlCredits
  iterate 100 all_goals try
    first
    | intro _
    | with_reducible
        first
        | assumption | apply State.drain_keeps | apply State.modBridge_keeps | apply State.replayFlits_keeps
        | apply Keeps.ite | apply Keeps.foldl | (apply Keeps.fst; assumption)
    | simp only [↓Keeps.fields] | split | dsimp only

theorem State.heartbeatIn_keeps {s t a1} (h : Keeps s t) : Keeps s (State.heartbeatIn t a1) := by
  unfold State.heartbeatIn
  iterate 100 all_goals try
    first
    | intro _
    | with_reducible
        first
        | assumption | apply State.cnt_keeps | apply State.set_keeps | apply State.heard_keeps
        | apply State.twinTimeWord_keeps | apply Keeps.ite | apply Keeps.foldl | (apply Keeps.fst; assumption)
    | simp only [↓Keeps.fields] | split | dsimp only

theorem State.nakSent_keeps {s t a1} (h : Keeps s t) : Keeps s (State.nakSent t a1) := by
  unfold State.nakSent
  iterate 100 all_goals try
    first
    | intro _
    | with_reducible
        first
        | assumption | apply State.modBridge_keeps | apply Keeps.ite | apply Keeps.foldl
        | (apply Keeps.fst; assumption)
    | simp only [↓Keeps.fields] | split | dsimp only

theorem State.phoaskComesUp_keeps {s t a1 a2 a3} (h : Keeps s t) : Keeps s (State.phoaskComesUp t a1 a2 a3) := by
  unfold State.phoaskComesUp
  iterate 100 all_goals try
    first
    | intro _
    | with_reducible
        first
        | assumption | apply State.wrn_keeps | apply State.irq_keeps | apply State.set_keeps
        | apply State.enterPairing_keeps | apply State.modTwin_keeps | apply State.twPortUp_keeps | apply Keeps.ite
        | apply Keeps.foldl | (apply Keeps.fst; assumption)
    | simp only [↓Keeps.fields] | split | dsimp only

theorem State.startTraining_keeps {s t} (h : Keeps s t) : Keeps s (State.startTraining t) := by
  unfold State.startTraining
  iterate 100 all_goals try
    first
    | intro _
    | with_reducible
        first
        | assumption | apply State.cnt_keeps | apply State.set_keeps | apply Keeps.ite | apply Keeps.foldl
        | (apply Keeps.fst; assumption)
    | simp only [↓Keeps.fields] | split | dsimp only

theorem State.roleLinkDown_keeps {s t} (h : Keeps s t) : Keeps s (State.roleLinkDown t) := by
  unfold State.roleLinkDown
  iterate 100 all_goals try
    first
    | intro _
    | with_reducible
        first
        | assumption | apply State.setRole_keeps | apply State.rejoinDropped_keeps | apply Keeps.ite
        | apply Keeps.foldl | (apply Keeps.fst; assumption)
    | simp only [↓Keeps.fields] | split | dsimp only

theorem State.phoaskDown_keeps {s t} (h : Keeps s t) : Keeps s (State.phoaskDown t) := by
  unfold State.phoaskDown
  iterate 100 all_goals try
    first
    | intro _
    | with_reducible
        first
        | assumption | apply State.irq_keeps | apply State.cnt_keeps | apply State.set_keeps
        | apply State.startTraining_keeps | apply State.err_keeps | apply State.migEnds_keeps
        | apply State.linkLost_keeps | apply State.peerDown_keeps | apply State.roleLinkDown_keeps
        | apply State.imgStale_keeps | apply State.modTwin_keeps | apply Keeps.ite | apply Keeps.foldl
        | (apply Keeps.fst; assumption)
    | simp only [↓Keeps.fields] | split | dsimp only

theorem State.sendAck_keeps {s t a1} (h : Keeps s t) : Keeps s (State.sendAck t a1) := by
  unfold State.sendAck
  iterate 100 all_goals try
    first
    | intro _
    | with_reducible
        first
        | assumption | apply State.nakSent_keeps | apply State.emit_keeps | apply Keeps.ite | apply Keeps.foldl
        | (apply Keeps.fst; assumption)
    | simp only [↓Keeps.fields] | split | dsimp only

theorem State.rsvGrow_keeps {s t a1 a2 a3} (h : Keeps s t) : Keeps s (State.rsvGrow t a1 a2 a3).1 := by
  unfold State.rsvGrow
  iterate 100 all_goals try
    first
    | intro _
    | with_reducible
        first
        | assumption | apply State.modBridge_keeps | apply Keeps.ite | apply Keeps.foldl
        | (apply Keeps.fst; assumption)
    | simp only [↓Keeps.fields] | split | dsimp only

theorem State.rsvFlit_keeps {s t a1 a2 a3 a4 a5} (h : Keeps s t) : Keeps s (State.rsvFlit t a1 a2 a3 a4 a5).1 := by
  unfold State.rsvFlit
  iterate 100 all_goals try
    first
    | intro _
    | with_reducible
        first
        | assumption | apply State.cnt32_keeps | apply State.sendAck_keeps | apply State.modBridge_keeps
        | apply State.rsvGrow_keeps | apply Keeps.ite | apply Keeps.foldl | (apply Keeps.fst; assumption)
    | simp only [↓Keeps.fields] | split | dsimp only

theorem State.twBad_keeps {s t a1} (h : Keeps s t) : Keeps s (State.twBad t a1) := by
  unfold State.twBad
  iterate 100 all_goals try
    first
    | intro _
    | with_reducible
        first
        | assumption | apply State.cnt32_keeps | apply State.errLimited_keeps | apply Keeps.ite | apply Keeps.foldl
        | (apply Keeps.fst; assumption)
    | simp only [↓Keeps.fields] | split | dsimp only

theorem State.twGrow_keeps {s t a1 a2 a3 a4} (h : Keeps s t) : Keeps s (State.twGrow t a1 a2 a3 a4) := by
  unfold State.twGrow
  iterate 100 all_goals try
    first
    | intro _
    | with_reducible
        first
        | assumption | apply State.receive_keeps | apply Keeps.ite | apply Keeps.foldl
        | (apply Keeps.fst; assumption)
    | simp only [↓Keeps.fields] | split | dsimp only

theorem State.twlWritten_keeps {s t a1} (h : Keeps s t) : Keeps s (State.twlWritten t a1) := by
  unfold State.twlWritten
  iterate 100 all_goals try
    first
    | intro _
    | with_reducible
        first
        | assumption | apply State.startTraining_keeps | apply State.phoaskDown_keeps | apply Keeps.ite
        | apply Keeps.foldl | (apply Keeps.fst; assumption)
    | simp only [↓Keeps.fields] | split | dsimp only

theorem twlCntClrEff_keeps {s a0 t} (h : Keeps s t) : Keeps s (twlCntClrEff a0 t) := by
  unfold twlCntClrEff
  iterate 100 all_goals try
    first
    | intro _
    | with_reducible
        first
        | assumption | apply State.each_keeps | apply State.wrn_keeps | apply Keeps.ite | apply Keeps.foldl
        | (apply Keeps.fst; assumption)
    | simp only [↓Keeps.fields] | split | dsimp only

theorem twlCtrlEff_keeps {s a0 t} (h : Keeps s t) : Keeps s (twlCtrlEff a0 t) := by
  unfold twlCtrlEff
  iterate 100 all_goals try
    first
    | intro _
    | with_reducible
        first
        | assumption | apply State.twlWritten_keeps | apply State.plain_keeps | apply Keeps.ite | apply Keeps.foldl
        | (apply Keeps.fst; assumption)
    | simp only [↓Keeps.fields] | split | dsimp only

end Sys2Proof.Machine
end

