-- ==== Sys2Proof/Laws/KeepsKeys.lean ====
section
/-!
SUPPORT. What every operation keeps (Laws/Keeps): keys, security commands and update.
-/

set_option linter.all false

namespace Sys2Proof.Machine

theorem State.saveDue_keeps {s t a1} (h : Keeps s t) : Keeps s (State.saveDue t a1) := by
  unfold State.saveDue
  iterate 100 all_goals try
    first
    | intro _
    | with_reducible
        first
        | assumption | apply State.irq_keeps | apply Keeps.ite | apply Keeps.foldl | (apply Keeps.fst; assumption)
    | simp only [↓Keeps.fields] | split | dsimp only

theorem State.tagFailed_keeps {s t a1} (h : Keeps s t) : Keeps s (State.tagFailed t a1) := by
  unfold State.tagFailed
  iterate 100 all_goals try
    first
    | intro _
    | with_reducible
        first
        | assumption | apply State.cnt_keeps | apply State.err_keeps | apply State.irq_keeps | apply Keeps.ite
        | apply Keeps.foldl | (apply Keeps.fst; assumption)
    | simp only [↓Keeps.fields] | split | dsimp only

theorem State.capRejected_keeps {s t a1 a2} (h : Keeps s t) : Keeps s (State.capRejected t a1 a2) := by
  unfold State.capRejected
  iterate 100 all_goals try
    first
    | intro _
    | with_reducible
        first
        | assumption | apply State.tagFailed_keeps | apply State.cnt_keeps | apply State.err_keeps
        | apply State.errLimited_keeps | apply Keeps.ite | apply Keeps.foldl | (apply Keeps.fst; assumption)
    | simp only [↓Keeps.fields] | split | dsimp only

theorem State.capEnd_keeps {s t a1 a2 a3 a4} (h : Keeps s t) : Keeps s (State.capEnd t a1 a2 a3 a4) := by
  unfold State.capEnd
  iterate 100 all_goals try
    first
    | intro _
    | with_reducible
        first
        | assumption | apply State.set_keeps | apply State.irq_keeps | apply State.wr_keeps | apply Keeps.ite
        | apply Keeps.foldl | (apply Keeps.fst; assumption)
    | simp only [↓Keeps.fields] | split | dsimp only

theorem State.capCheck_keeps {s t a1 a2} (h : Keeps s t) : Keeps s (State.capCheck t a1 a2) := by
  unfold State.capCheck
  iterate 100 all_goals try
    first
    | intro _
    | with_reducible
        first
        | assumption | apply State.saveDue_keeps | apply State.cnt_keeps | apply State.wrn_keeps
        | apply State.capRejected_keeps | apply State.capEnd_keeps | apply Keeps.ite | apply Keeps.foldl
        | (apply Keeps.fst; assumption)
    | simp only [↓Keeps.fields] | split | dsimp only

theorem State.setRegBytes_keeps {s t a1 g2 a3} (h : Keeps s t) : Keeps s (State.setRegBytes t a1 g2 a3) := by
  unfold State.setRegBytes
  iterate 100 all_goals try
    first
    | intro _
    | with_reducible
        first
        | assumption | apply State.each_keeps | apply State.wrn_keeps | apply Keeps.ite | apply Keeps.foldl
        | (apply Keeps.fst; assumption)
    | simp only [↓Keeps.fields] | split | dsimp only

theorem State.capMake_keeps {s t a1 a2} (h : Keeps s t) : Keeps s (State.capMake t a1 a2) := by
  unfold State.capMake
  iterate 100 all_goals try
    first
    | intro _
    | with_reducible
        first
        | assumption | apply State.capEnd_keeps | apply State.capRejected_keeps | apply State.setRegBytes_keeps
        | apply State.saveDue_keeps | apply State.wrn_keeps | apply Keeps.ite | apply Keeps.foldl
        | (apply Keeps.fst; assumption)
    | simp only [↓Keeps.fields] | split | dsimp only

theorem State.keyErase_keeps {s t a1} (h : Keeps s t) : Keeps s (State.keyErase t a1) := by
  unfold State.keyErase
  iterate 100 all_goals try
    first
    | intro _
    | with_reducible
        first
        | assumption | apply State.each_keeps | apply State.norEraseBlock_keeps | apply Keeps.ite | apply Keeps.foldl
        | (apply Keeps.fst; assumption)
    | simp only [↓Keeps.fields] | split | dsimp only

theorem State.keyProgram_keeps {s t a1 a2} (h : Keeps s t) : Keeps s (State.keyProgram t a1 a2) := by
  unfold State.keyProgram
  iterate 100 all_goals try
    first
    | intro _
    | with_reducible
        first
        | assumption | apply State.norProgram_keeps | apply State.err_keeps | apply State.freeBytes_keeps
        | apply Keeps.ite | apply Keeps.foldl | (apply Keeps.fst; assumption)
    | simp only [↓Keeps.fields] | split | dsimp only

theorem State.keyCompact_keeps {s t} (h : Keeps s t) : Keeps s (State.keyCompact t) := by
  unfold State.keyCompact
  iterate 100 all_goals try
    first
    | intro _
    | with_reducible
        first
        | assumption | apply State.keyErase_keeps | apply State.each_keeps | apply State.keyProgram_keeps
        | apply Keeps.ite | apply Keeps.foldl | (apply Keeps.fst; assumption)
    | simp only [↓Keeps.fields] | split | dsimp only

theorem State.keyStore_keeps {s t a1 a2} (h : Keeps s t) : Keeps s (State.keyStore t a1 a2) := by
  unfold State.keyStore
  iterate 100 all_goals try
    first
    | intro _
    | with_reducible
        first
        | assumption | apply State.keyCompact_keeps | apply State.keyProgram_keeps | apply Keeps.ite
        | apply Keeps.foldl | (apply Keeps.fst; assumption)
    | simp only [↓Keeps.fields] | split | dsimp only

theorem State.chanStore_keeps {s t a1 a2 a3 a4} (h : Keeps s t) : Keeps s (State.chanStore t a1 a2 a3 a4) := by
  unfold State.chanStore
  iterate 100 all_goals try
    first
    | intro _
    | with_reducible
        first
        | assumption | apply State.keyStore_keeps | apply Keeps.ite | apply Keeps.foldl
        | (apply Keeps.fst; assumption)
    | simp only [↓Keeps.fields] | split | dsimp only

theorem State.chanLoad_keeps {s t a1 a2} (h : Keeps s t) : Keeps s (State.chanLoad t a1 a2) := by
  unfold State.chanLoad
  iterate 100 all_goals try
    first
    | intro _
    | with_reducible
        first
        | assumption | apply State.wrn_keeps | apply State.chanStore_keeps | apply Keeps.ite | apply Keeps.foldl
        | (apply Keeps.fst; assumption)
    | simp only [↓Keeps.fields] | split | dsimp only

theorem State.chansExact_keeps {s t} (h : Keeps s t) : Keeps s (State.chansExact t) := by
  unfold State.chansExact
  iterate 100 all_goals try
    first
    | intro _
    | with_reducible
        first
        | assumption | apply State.each_keeps | apply State.chanStore_keeps | apply Keeps.ite | apply Keeps.foldl
        | (apply Keeps.fst; assumption)
    | simp only [↓Keeps.fields] | split | dsimp only

theorem State.chansZero_keeps {s t a1} (h : Keeps s t) : Keeps s (State.chansZero t a1) := by
  unfold State.chansZero
  iterate 100 all_goals try
    first
    | intro _
    | with_reducible
        first
        | assumption | apply State.each_keeps | apply State.wrn_keeps | apply Keeps.ite | apply Keeps.foldl
        | (apply Keeps.fst; assumption)
    | simp only [↓Keeps.fields] | split | dsimp only

theorem State.slotClear_keeps {s t a1} (h : Keeps s t) : Keeps s (State.slotClear t a1) := by
  unfold State.slotClear
  iterate 100 all_goals try
    first
    | intro _
    | with_reducible
        first
        | assumption | apply State.set_keeps | apply State.wrn_keeps | apply Keeps.ite | apply Keeps.foldl
        | (apply Keeps.fst; assumption)
    | simp only [↓Keeps.fields] | split | dsimp only

theorem State.healRange_keeps {s t a1 a2} (h : Keeps s t) : Keeps s (State.healRange t a1 a2) := by
  unfold State.healRange
  iterate 100 all_goals try
    first
    | intro _
    | with_reducible
        first
        | assumption | apply State.each_keeps | apply State.poisonClear_keeps | apply Keeps.ite | apply Keeps.foldl
        | (apply Keeps.fst; assumption)
    | simp only [↓Keeps.fields] | split | dsimp only

theorem State.clearSecrets_keeps {s t} (h : Keeps s t) : Keeps s (State.clearSecrets t) := by
  unfold State.clearSecrets
  iterate 100 all_goals try
    first
    | intro _
    | with_reducible
        first
        | assumption | apply State.each_keeps | apply State.slotClear_keeps | apply State.set_keeps
        | apply State.clearRam_keeps | apply State.healRange_keeps | apply Keeps.ite | apply Keeps.foldl
        | (apply Keeps.fst; assumption)
    | simp only [↓Keeps.fields] | split | dsimp only

theorem State.enterReturn_keeps {s t} (h : Keeps s t) : Keeps s (State.enterReturn t) := by
  unfold State.enterReturn
  iterate 100 all_goals try
    first
    | intro _
    | with_reducible
        first
        | assumption | apply State.keyErase_keeps | apply State.each_keeps | apply State.slotClear_keeps
        | apply State.set_keeps | apply Keeps.ite | apply Keeps.foldl | (apply Keeps.fst; assumption)
    | simp only [↓Keeps.fields] | split | dsimp only

theorem State.exportKeys_keeps {s t} (h : Keeps s t) : Keeps s (State.exportKeys t) := by
  unfold State.exportKeys
  iterate 100 all_goals try
    first
    | intro _
    | with_reducible
        first
        | assumption | apply State.set_keeps | apply State.each_keeps | apply State.wrn_keeps | apply Keeps.ite
        | apply Keeps.foldl | (apply Keeps.fst; assumption)
    | simp only [↓Keeps.fields] | split | dsimp only

theorem State.extend_keeps {s t a1 a2} (h : Keeps s t) : Keeps s (State.extend t a1 a2) := by
  unfold State.extend
  iterate 100 all_goals try
    first
    | intro _
    | with_reducible
        first
        | assumption | apply State.setRegBytes_keeps | apply Keeps.ite | apply Keeps.foldl
        | (apply Keeps.fst; assumption)
    | simp only [↓Keeps.fields] | split | dsimp only

theorem State.keyMend_keeps {s t a1 a2} (h : Keeps s t) : Keeps s (State.keyMend t a1 a2) := by
  unfold State.keyMend
  iterate 100 all_goals try
    first
    | intro _
    | with_reducible
        first
        | assumption | apply State.each_keeps | apply State.err_keeps | apply State.norProgram_keeps
        | apply State.keyStore_keeps | apply Keeps.ite | apply Keeps.foldl | (apply Keeps.fst; assumption)
    | simp only [↓Keeps.fields] | split | dsimp only

theorem State.messageEnd_keeps {s t a1 a2 a3} (h : Keeps s t) : Keeps s (State.messageEnd t a1 a2 a3) := by
  unfold State.messageEnd
  iterate 100 all_goals try
    first
    | intro _
    | with_reducible
        first
        | assumption | apply State.set_keeps | apply State.irq_keeps | apply State.cnt_keeps | apply State.err_keeps
        | apply Keeps.ite | apply Keeps.foldl | (apply Keeps.fst; assumption)
    | simp only [↓Keeps.fields] | split | dsimp only

theorem State.slotPut_keeps {s t a1 a2 a3 a4} (h : Keeps s t) : Keeps s (State.slotPut t a1 a2 a3 a4) := by
  unfold State.slotPut
  iterate 100 all_goals try
    first
    | intro _
    | with_reducible
        first
        | assumption | apply State.wrn_keeps | apply State.set_keeps | apply Keeps.ite | apply Keeps.foldl
        | (apply Keeps.fst; assumption)
    | simp only [↓Keeps.fields] | split | dsimp only

theorem State.slotSet_keeps {s t a1 a2 a3 a4} (h : Keeps s t) : Keeps s (State.slotSet t a1 a2 a3 a4) := by
  unfold State.slotSet
  iterate 100 all_goals try
    first
    | intro _
    | with_reducible
        first
        | assumption | apply State.cntWrap_keeps | apply State.slotPut_keeps | apply Keeps.ite | apply Keeps.foldl
        | (apply Keeps.fst; assumption)
    | simp only [↓Keeps.fields] | split | dsimp only

theorem State.stopCores_keeps {s t} (h : Keeps s t) : Keeps s (State.stopCores t) := by
  unfold State.stopCores
  iterate 100 all_goals try
    first
    | intro _
    | with_reducible
        first
        | assumption | apply State.each_keeps | apply State.set_keeps | apply Keeps.ite | apply Keeps.foldl
        | (apply Keeps.fst; assumption)
    | simp only [↓Keeps.fields] | split | dsimp only

theorem State.messageApply_keeps {s t a1 a2} (h : Keeps s t) : Keeps s (State.messageApply t a1 a2) := by
  unfold State.messageApply
  iterate 100 all_goals try
    first
    | intro _
    | with_reducible
        first
        | assumption | apply State.wrn_keeps | apply State.chansZero_keeps | apply State.slotSet_keeps
        | apply State.slotClear_keeps | apply State.err_keeps | apply State.burn_keeps
        | apply State.enterReturn_keeps | apply State.irq_keeps | apply State.set_keeps | apply State.stopCores_keeps
        | apply Keeps.ite | apply Keeps.foldl | (apply Keeps.fst; assumption)
    | simp only [↓Keeps.fields] | split | dsimp only

theorem State.keyMessage_keeps {s t a1 a2} (h : Keeps s t) : Keeps s (State.keyMessage t a1 a2) := by
  unfold State.keyMessage
  extract_lets addr len
  have h1 := State.ramRead_keeps (a1 := 0) (a2 := false) (a3 := addr) (a4 := max len 1) h
  generalize t.ramRead 0 false addr (max len 1) = p at h1 ⊢
  obtain ⟨s1, got⟩ := p
  dsimp only at h1 ⊢
  refine Keeps.ite h (Keeps.ite h (Keeps.ite (State.messageEnd_keeps h1) (Keeps.ite ?_ ?_)))
  · exact State.messageEnd_keeps (State.keyStore_keeps h1)
  · exact State.messageEnd_keeps (State.messageApply_keeps (State.keyStore_keeps h1))

theorem State.provision_keeps {s t} (h : Keeps s t) : Keeps s (State.provision t) := by
  unfold State.provision
  iterate 100 all_goals try
    first
    | intro _
    | with_reducible
        first
        | assumption | apply State.err_keeps | apply State.burn_keeps | apply Keeps.ite | apply Keeps.foldl
        | (apply Keeps.fst; assumption)
    | simp only [↓Keeps.fields] | split | dsimp only

theorem State.returnStart_keeps {s t} (h : Keeps s t) : Keeps s (State.returnStart t) := by
  unfold State.returnStart
  iterate 100 all_goals try
    first
    | intro _
    | with_reducible
        first
        | assumption | apply State.irq_keeps | apply State.set_keeps | apply State.burn_keeps | apply Keeps.ite
        | apply Keeps.foldl | (apply Keeps.fst; assumption)
    | simp only [↓Keeps.fields] | split | dsimp only

theorem State.slotLoad_keeps {s t a1 a2} (h : Keeps s t) : Keeps s (State.slotLoad t a1 a2) := by
  unfold State.slotLoad
  iterate 100 all_goals try
    first
    | intro _
    | with_reducible
        first
        | assumption | apply State.slotClear_keeps | apply State.slotPut_keeps | apply Keeps.ite | apply Keeps.foldl
        | (apply Keeps.fst; assumption)
    | simp only [↓Keeps.fields] | split | dsimp only

theorem attCtrlEff_keeps {s a0 t} (h : Keeps s t) : Keeps s (attCtrlEff a0 t) := by
  unfold attCtrlEff
  iterate 100 all_goals try
    first
    | intro _
    | with_reducible
        first
        | assumption | apply State.plain_keeps | apply State.err_keeps | apply State.set_keeps
        | apply State.setRegBytes_keeps | apply Keeps.ite | apply Keeps.foldl | (apply Keeps.fst; assumption)
    | simp only [↓Keeps.fields] | split | dsimp only

theorem attExtEff_keeps {s a0 t} (h : Keeps s t) : Keeps s (attExtEff a0 t) := by
  unfold attExtEff
  iterate 100 all_goals try
    first
    | intro _
    | with_reducible
        first
        | assumption | apply State.plain_keeps | apply State.extend_keeps | apply Keeps.ite | apply Keeps.foldl
        | (apply Keeps.fst; assumption)
    | simp only [↓Keeps.fields] | split | dsimp only

theorem capCtrEff_keeps {s a0 a1 a2 t} (h : Keeps s t) : Keeps s (capCtrEff a0 a1 a2 t) := by
  unfold capCtrEff
  iterate 100 all_goals try
    first
    | intro _
    | with_reducible
        first
        | assumption | apply State.saveDue_keeps | apply State.plain_keeps | apply Keeps.ite | apply Keeps.foldl
        | (apply Keeps.fst; assumption)
    | simp only [↓Keeps.fields] | split | dsimp only

theorem capGoEff_keeps {s a0 a1 t} (h : Keeps s t) : Keeps s (capGoEff a0 a1 t) := by
  unfold capGoEff
  iterate 100 all_goals try
    first
    | intro _
    | with_reducible
        first
        | assumption | apply State.capMake_keeps | apply State.capCheck_keeps | apply Keeps.ite | apply Keeps.foldl
        | (apply Keeps.fst; assumption)
    | simp only [↓Keeps.fields] | split | dsimp only

theorem capSaveEff_keeps {s a0 a1 a2 t} (h : Keeps s t) : Keeps s (capSaveEff a0 a1 a2 t) := by
  unfold capSaveEff
  iterate 100 all_goals try
    first
    | intro _
    | with_reducible
        first
        | assumption | apply State.plain_keeps | apply State.chanStore_keeps | apply Keeps.ite | apply Keeps.foldl
        | (apply Keeps.fst; assumption)
    | simp only [↓Keeps.fields] | split | dsimp only

theorem cryCtrlEff_keeps {s a0 a1 t} (h : Keeps s t) : Keeps s (cryCtrlEff a0 a1 t) := by
  unfold cryCtrlEff
  iterate 100 all_goals try
    first
    | intro _
    | with_reducible
        first
        | assumption | apply State.plain_keeps | apply State.set_keeps | apply State.refuse_keeps | apply Keeps.ite
        | apply Keeps.foldl | (apply Keeps.fst; assumption)
    | simp only [↓Keeps.fields] | split | dsimp only

theorem lcsCtrlEff_keeps {s a0 t} (h : Keeps s t) : Keeps s (lcsCtrlEff a0 t) := by
  unfold lcsCtrlEff
  iterate 100 all_goals try
    first
    | intro _
    | with_reducible
        first
        | assumption | apply State.exportKeys_keeps | apply State.provision_keeps | apply Keeps.ite
        | apply Keeps.foldl | (apply Keeps.fst; assumption)
    | simp only [↓Keeps.fields] | split | dsimp only

theorem secGoEff_keeps {s a0 t} (h : Keeps s t) : Keeps s (secGoEff a0 t) := by
  unfold secGoEff
  iterate 100 all_goals try
    first
    | intro _
    | with_reducible
        first
        | assumption | apply State.set_keeps | apply Keeps.ite | apply Keeps.foldl | (apply Keeps.fst; assumption)
    | simp only [↓Keeps.fields] | split | dsimp only

theorem State.abortTo_keeps {s t a1 a2 a3 a4 a5} (h : Keeps s t) : Keeps s (State.abortTo t a1 a2 a3 a4 a5) := by
  unfold State.abortTo
  iterate 100 all_goals try
    first
    | intro _
    | with_reducible
        first
        | assumption | apply State.emit_keeps | apply Keeps.ite | apply Keeps.foldl | (apply Keeps.fst; assumption)
    | simp only [↓Keeps.fields] | split | dsimp only

theorem State.slotProgram_keeps {s t a1 a2 a3} (h : Keeps s t) : Keeps s (State.slotProgram t a1 a2 a3) := by
  unfold State.slotProgram
  iterate 100 all_goals try
    first
    | intro _
    | with_reducible
        first
        | assumption | apply State.norProgram_keeps | apply Keeps.ite | apply Keeps.foldl
        | (apply Keeps.fst; assumption)
    | simp only [↓Keeps.fields] | split | dsimp only

theorem State.slotSpoil_keeps {s t a1 a2 a3} (h : Keeps s t) : Keeps s (State.slotSpoil t a1 a2 a3) := by
  unfold State.slotSpoil
  iterate 100 all_goals try
    first
    | intro _
    | with_reducible
        first
        | assumption | apply State.err_keeps | apply State.freeBytes_keeps | apply Keeps.ite | apply Keeps.foldl
        | (apply Keeps.fst; assumption)
    | simp only [↓Keeps.fields] | split | dsimp only

theorem State.slotRecord_keeps {s t a1 a2 a3 a4 a5} (h : Keeps s t) : Keeps s (State.slotRecord t a1 a2 a3 a4 a5) := by
  unfold State.slotRecord
  iterate 100 all_goals try
    first
    | intro _
    | with_reducible
        first
        | assumption | apply State.slotProgram_keeps | apply State.slotSpoil_keeps | apply Keeps.ite
        | apply Keeps.foldl | (apply Keeps.fst; assumption)
    | simp only [↓Keeps.fields] | split | dsimp only

theorem State.slotTo_keeps {s t a1 a2 a3} (h : Keeps s t) : Keeps s (State.slotTo t a1 a2 a3) := by
  unfold State.slotTo
  iterate 100 all_goals try
    first
    | intro _
    | with_reducible
        first
        | assumption | apply State.slotRecord_keeps | apply Keeps.ite | apply Keeps.foldl
        | (apply Keeps.fst; assumption)
    | simp only [↓Keeps.fields] | split | dsimp only

theorem State.abortRelay_keeps {s t a1 a2 a3 a4 a5} (h : Keeps s t) : Keeps s (State.abortRelay t a1 a2 a3 a4 a5) := by
  unfold State.abortRelay
  iterate 100 all_goals try
    first
    | intro _
    | with_reducible
        first
        | assumption | apply State.abortTo_keeps | apply State.slotTo_keeps | apply State.err_keeps | apply Keeps.ite
        | apply Keeps.foldl | (apply Keeps.fst; assumption)
    | simp only [↓Keeps.fields] | split | dsimp only

theorem State.setRelay_keeps {s t a1} (h : Keeps s t) : Keeps s (State.setRelay t a1) := by
  unfold State.setRelay
  iterate 100 all_goals try
    first
    | intro _
    | with_reducible
        first
        | assumption | apply Keeps.ite | apply Keeps.foldl | (apply Keeps.fst; assumption)
    | simp only [↓Keeps.fields] | split | dsimp only

theorem State.ackUp_keeps {s t a1 a2 a3 a4} (h : Keeps s t) : Keeps s (State.ackUp t a1 a2 a3 a4) := by
  unfold State.ackUp
  iterate 100 all_goals try
    first
    | intro _
    | with_reducible
        first
        | assumption | apply State.setRelay_keeps | apply State.emit_keeps | apply Keeps.ite | apply Keeps.foldl
        | (apply Keeps.fst; assumption)
    | simp only [↓Keeps.fields] | split | dsimp only

theorem State.capsuleWords_keeps {s t a1 a2} (h : Keeps s t) : Keeps s (State.capsuleWords t a1 a2).1 := by
  unfold State.capsuleWords
  iterate 100 all_goals try
    first
    | intro _
    | with_reducible
        first
        | assumption | apply State.capCheck_keeps | apply State.setRegBytes_keeps | apply Keeps.ite
        | apply Keeps.foldl | (apply Keeps.fst; assumption)
    | simp only [↓Keeps.fields] | split | dsimp only

theorem State.raiseCount_keeps {s t a1 a2} (h : Keeps s t) : Keeps s (State.raiseCount t a1 a2) := by
  unfold State.raiseCount
  iterate 100 all_goals try
    first
    | intro _
    | with_reducible
        first
        | assumption | apply State.each_keeps | apply State.burn_keeps | apply Keeps.ite | apply Keeps.foldl
        | (apply Keeps.fst; assumption)
    | simp only [↓Keeps.fields] | split | dsimp only

theorem State.raiseCounts_keeps {s t a1} (h : Keeps s t) : Keeps s (State.raiseCounts t a1) := by
  unfold State.raiseCounts
  iterate 100 all_goals try
    first
    | intro _
    | with_reducible
        first
        | assumption | apply State.raiseCount_keeps | apply Keeps.ite | apply Keeps.foldl
        | (apply Keeps.fst; assumption)
    | simp only [↓Keeps.fields] | split | dsimp only

theorem State.confirmRest_keeps {s t a1} (h : Keeps s t) : Keeps s (State.confirmRest t a1) := by
  unfold State.confirmRest
  iterate 100 all_goals try
    first
    | intro _
    | with_reducible
        first
        | assumption | apply State.slotTo_keeps | apply State.raiseCounts_keeps | apply Keeps.ite | apply Keeps.foldl
        | (apply Keeps.fst; assumption)
    | simp only [↓Keeps.fields] | split | dsimp only

theorem State.manifestArrived_keeps {s t a1} (h : Keeps s t) : Keeps s (State.manifestArrived t a1) := by
  unfold State.manifestArrived
  iterate 100 all_goals try
    first
    | intro _
    | with_reducible
        first
        | assumption | apply State.err_keeps | apply State.abortTo_keeps | apply State.each_keeps
        | apply State.emit_keeps | apply State.setRelay_keeps | apply Keeps.ite | apply Keeps.foldl
        | (apply Keeps.fst; assumption)
    | simp only [↓Keeps.fields] | split | dsimp only

theorem State.patchApply_keeps {s t a1 a2} (h : Keeps s t) : Keeps s (State.patchApply t a1 a2).1 := by
  unfold State.patchApply
  iterate 100 all_goals try
    first
    | intro _
    | with_reducible
        first
        | assumption | apply State.slotProgram_keeps | apply Keeps.ite | apply Keeps.foldl
        | (apply Keeps.fst; assumption)
    | simp only [↓Keeps.fields] | split | dsimp only

theorem relayPush_keeps {s a0 a1 t} (h : Keeps s t) : Keeps s (relayPush a0 a1 t) := by
  revert h
  fun_induction relayPush a0 a1 t
  all_goals intro h
  iterate 100 all_goals try
    first
    | intro _
    | with_reducible
        first
        | assumption | apply State.setRelay_keeps | apply State.emit_keeps | apply Keeps.ite | apply Keeps.foldl
        | (apply Keeps.fst; assumption) | apply_assumption
    | simp only [↓Keeps.fields] | split | dsimp only

theorem State.push_keeps {s t} (h : Keeps s t) : Keeps s (State.push t) := by
  unfold State.push
  iterate 100 all_goals try
    first
    | intro _
    | with_reducible
        first
        | assumption | apply relayPush_keeps | apply Keeps.ite | apply Keeps.foldl | (apply Keeps.fst; assumption)
    | simp only [↓Keeps.fields] | split | dsimp only

theorem State.relayBad_keeps {s t a1} (h : Keeps s t) : Keeps s (State.relayBad t a1) := by
  unfold State.relayBad
  iterate 100 all_goals try
    first
    | intro _
    | with_reducible
        first
        | assumption | apply State.err_keeps | apply Keeps.ite | apply Keeps.foldl | (apply Keeps.fst; assumption)
    | simp only [↓Keeps.fields] | split | dsimp only

theorem State.relayFinish_keeps {s t} (h : Keeps s t) : Keeps s (State.relayFinish t) := by
  unfold State.relayFinish
  iterate 100 all_goals try
    first
    | intro _
    | with_reducible
        first
        | assumption | apply State.ackUp_keeps | apply Keeps.ite | apply Keeps.foldl | (apply Keeps.fst; assumption)
    | simp only [↓Keeps.fields] | split | dsimp only

theorem State.relayReceived_keeps {s t a1} (h : Keeps s t) : Keeps s (State.relayReceived t a1) := by
  unfold State.relayReceived
  iterate 100 all_goals try
    first
    | intro _
    | with_reducible
        first
        | assumption | apply State.slotTo_keeps | apply Keeps.ite | apply Keeps.foldl | (apply Keeps.fst; assumption)
    | simp only [↓Keeps.fields] | split | dsimp only

theorem State.reply_keeps {s t a1 a2 a3} (h : Keeps s t) : Keeps s (State.reply t a1 a2 a3) := by
  unfold State.reply
  iterate 100 all_goals try
    first
    | intro _
    | with_reducible
        first
        | assumption | apply takeEff_keeps | apply State.mailSend_keeps | apply Keeps.ite | apply Keeps.foldl
        | (apply Keeps.fst; assumption)
    | simp only [↓Keeps.fields] | split | dsimp only

theorem State.setProgram_keeps {s t a1 a2} (h : Keeps s t) : Keeps s (State.setProgram t a1 a2) := by
  unfold State.setProgram
  iterate 100 all_goals try
    first
    | intro _
    | with_reducible
        first
        | assumption | apply State.norProgram_keeps | apply State.err_keeps | apply State.freeBytes_keeps
        | apply Keeps.ite | apply Keeps.foldl | (apply Keeps.fst; assumption)
    | simp only [↓Keeps.fields] | split | dsimp only

theorem State.setCompact_keeps {s t} (h : Keeps s t) : Keeps s (State.setCompact t) := by
  unfold State.setCompact
  iterate 100 all_goals try
    first
    | intro _
    | with_reducible
        first
        | assumption | apply State.each_keeps | apply State.norEraseBlock_keeps | apply State.setProgram_keeps
        | apply Keeps.ite | apply Keeps.foldl | (apply Keeps.fst; assumption)
    | simp only [↓Keeps.fields] | split | dsimp only

theorem State.setMend_keeps {s t a1} (h : Keeps s t) : Keeps s (State.setMend t a1) := by
  unfold State.setMend
  iterate 100 all_goals try
    first
    | intro _
    | with_reducible
        first
        | assumption | apply State.each_keeps | apply State.err_keeps | apply State.norProgram_keeps
        | apply Keeps.ite | apply Keeps.foldl | (apply Keeps.fst; assumption)
    | simp only [↓Keeps.fields] | split | dsimp only

theorem State.setStore_keeps {s t a1 a2 a3 a4} (h : Keeps s t) : Keeps s (State.setStore t a1 a2 a3 a4) := by
  unfold State.setStore
  iterate 100 all_goals try
    first
    | intro _
    | with_reducible
        first
        | assumption | apply State.setCompact_keeps | apply State.setProgram_keeps | apply Keeps.ite
        | apply Keeps.foldl | (apply Keeps.fst; assumption)
    | simp only [↓Keeps.fields] | split | dsimp only

theorem State.slotCheck_keeps {s t a1} (h : Keeps s t) : Keeps s (State.slotCheck t a1).1 := by
  unfold State.slotCheck
  iterate 100 all_goals try
    first
    | intro _
    | with_reducible
        first
        | assumption | apply State.patchApply_keeps | apply Keeps.ite | apply Keeps.foldl
        | (apply Keeps.fst; assumption)
    | simp only [↓Keeps.fields] | split | dsimp only

theorem State.slotCompleted_keeps {s t a1 a2} (h : Keeps s t) : Keeps s (State.slotCompleted t a1 a2).1 := by
  unfold State.slotCompleted
  iterate 100 all_goals try
    first
    | intro _
    | with_reducible
        first
        | assumption | apply State.slotCheck_keeps | apply State.err_keeps | apply State.slotTo_keeps
        | apply Keeps.ite | apply Keeps.foldl | (apply Keeps.fst; assumption)
    | simp only [↓Keeps.fields] | split | dsimp only

theorem State.slotErase_keeps {s t a1 a2} (h : Keeps s t) : Keeps s (State.slotErase t a1 a2) := by
  unfold State.slotErase
  iterate 100 all_goals try
    first
    | intro _
    | with_reducible
        first
        | assumption | apply State.each_keeps | apply State.norEraseBlock_keeps | apply Keeps.ite | apply Keeps.foldl
        | (apply Keeps.fst; assumption)
    | simp only [↓Keeps.fields] | split | dsimp only

end Sys2Proof.Machine
end

