-- ==== Sys2Proof/Laws/KeepsModes.lean ====
section
/-!
SUPPORT. What every operation keeps (Laws/Keeps): resets, clocks, modes, health, honing and boot.
-/

set_option linter.all false

namespace Sys2Proof.Machine

theorem State.loadFailures_keeps {s t a1} (h : Keeps s t) : Keeps s (State.loadFailures t a1) := by
  unfold State.loadFailures
  iterate 100 all_goals try
    first
    | intro _
    | with_reducible
        first
        | assumption | apply State.each_keeps | apply State.set_keeps | apply State.wrn_keeps | apply Keeps.ite
        | apply Keeps.foldl | (apply Keeps.fst; assumption)
    | simp only [↓Keeps.fields] | split | dsimp only

theorem State.loadSummary_keeps {s t a1} (h : Keeps s t) : Keeps s (State.loadSummary t a1) := by
  unfold State.loadSummary
  iterate 100 all_goals try
    first
    | intro _
    | with_reducible
        first
        | assumption | apply State.set_keeps | apply State.wrn_keeps | apply Keeps.ite | apply Keeps.foldl
        | (apply Keeps.fst; assumption)
    | simp only [↓Keeps.fields] | split | dsimp only

theorem State.repAppend_keeps {s t a1} (h : Keeps s t) : Keeps s (State.repAppend t a1) := by
  unfold State.repAppend
  iterate 100 all_goals try
    first
    | intro _
    | with_reducible
        first
        | assumption | apply State.norProgram_keeps | apply Keeps.ite | apply Keeps.foldl
        | (apply Keeps.fst; assumption)
    | simp only [↓Keeps.fields] | split | dsimp only

theorem State.repCompact_keeps {s t} (h : Keeps s t) : Keeps s (State.repCompact t) := by
  unfold State.repCompact
  iterate 100 all_goals try
    first
    | intro _
    | with_reducible
        first
        | assumption | apply State.each_keeps | apply State.repAppend_keeps | apply State.norEraseBlock_keeps
        | apply Keeps.ite | apply Keeps.foldl | (apply Keeps.fst; assumption)
    | simp only [↓Keeps.fields] | split | dsimp only

theorem State.repWrite_keeps {s t a1} (h : Keeps s t) : Keeps s (State.repWrite t a1) := by
  unfold State.repWrite
  iterate 100 all_goals try
    first
    | intro _
    | with_reducible
        first
        | assumption | apply State.repCompact_keeps | apply State.each_keeps | apply State.repAppend_keeps
        | apply Keeps.ite | apply Keeps.foldl | (apply Keeps.fst; assumption)
    | simp only [↓Keeps.fields] | split | dsimp only

theorem State.recordRun_keeps {s t a1 a2} (h : Keeps s t) : Keeps s (State.recordRun t a1 a2) := by
  unfold State.recordRun
  iterate 100 all_goals try
    first
    | intro _
    | with_reducible
        first
        | assumption | apply State.set_keeps | apply State.wrn_keeps | apply State.repWrite_keeps
        | apply State.err_keeps | apply Keeps.ite | apply Keeps.foldl | (apply Keeps.fst; assumption)
    | simp only [↓Keeps.fields] | split | dsimp only

theorem State.aoCleared_keeps {s t} (h : Keeps s t) : Keeps s (State.aoCleared t) :=
  State.set_keeps (State.set_keeps ((Keeps.regsFilter h).and id))

theorem State.setDivider_keeps {s t a1} (h : Keeps s t) : Keeps s (State.setDivider t a1) := by
  unfold State.setDivider
  iterate 100 all_goals try
    first
    | intro _
    | with_reducible
        first
        | assumption | apply State.set_keeps | apply Keeps.ite | apply Keeps.foldl | (apply Keeps.fst; assumption)
    | simp only [↓Keeps.fields] | split | dsimp only

theorem State.atOp3_keeps {s t} (h : Keeps s t) : Keeps s (State.atOp3 t) := by
  unfold State.atOp3
  iterate 100 all_goals try
    first
    | intro _
    | with_reducible
        first
        | assumption | apply State.setDivider_keeps | apply State.set_keeps | apply Keeps.ite | apply Keeps.foldl
        | (apply Keeps.fst; assumption)
    | simp only [↓Keeps.fields] | split | dsimp only

theorem State.clusterOff_keeps {s t} (h : Keeps s t) : Keeps s (State.clusterOff t) := by
  unfold State.clusterOff
  iterate 100 all_goals try
    first
    | intro _
    | with_reducible
        first
        | assumption | apply State.each_keeps | apply State.clearCore_keeps | apply State.pairDown_keeps
        | apply Keeps.ite | apply Keeps.foldl | (apply Keeps.fst; assumption)
    | simp only [↓Keeps.fields, ↓Keeps.fieldsUp] | split | dsimp only

theorem State.takePairing_keeps {s t} (h : Keeps s t) : Keeps s (State.takePairing t) := by
  unfold State.takePairing
  iterate 100 all_goals try
    first
    | intro _
    | with_reducible
        first
        | assumption | apply State.set_keeps | apply Keeps.ite | apply Keeps.foldl | (apply Keeps.fst; assumption)
    | simp only [↓Keeps.fields] | split | dsimp only

theorem State.clusterReset_keeps {s t} (h : Keeps s t) : Keeps s (State.clusterReset t) := by
  unfold State.clusterReset
  iterate 100 all_goals try
    first
    | intro _
    | with_reducible
        first
        | assumption | apply State.each_keeps | apply State.resetPage_keeps | apply State.clearCore_keeps
        | apply State.pairDown_keeps | apply State.takePairing_keeps | apply State.atOp3_keeps
        | apply State.cnt_keeps | apply Keeps.ite | apply Keeps.foldl | (apply Keeps.fst; assumption)
    | simp only [↓Keeps.fields] | split | dsimp only

theorem State.computeCleared_keeps {s t} (h : Keeps s t) : Keeps s (State.computeCleared t) := by
  have k : Keeps t ((t.norDone 0 false).norDone 1 false) := State.norDone_keeps (State.norDone_keeps (Keeps.refl t))
  exact State.set_keeps (h.and
    (fun x => ⟨rfl, rfl, rfl, x.2.2.2.1, x.2.2.2.2.1, x.2.2.2.2.2.1, x.2.2.2.2.2.2.1, rfl, rfl, rfl, x.2.2.2.2.2.2.2.2.2.2⟩)
    (fun c => ⟨swf_filter _ c.1, rfl, swf_filter _ (k.good c).1.2.2.1, c.2.2.2⟩))

theorem State.startWake_keeps {s t a1 a2 a3} (h : Keeps s t) : Keeps s (State.startWake t a1 a2 a3) := by
  unfold State.startWake
  iterate 100 all_goals try
    first
    | intro _
    | with_reducible
        first
        | assumption | apply Keeps.ite | apply Keeps.foldl | (apply Keeps.fst; assumption)
    | simp only [↓Keeps.fields] | split | dsimp only

theorem State.enterStandby_keeps {s t} (h : Keeps s t) : Keeps s (State.enterStandby t) := by
  unfold State.enterStandby
  iterate 100 all_goals try
    first
    | intro _
    | with_reducible
        first
        | assumption | apply State.dieReset_keeps | apply State.restLost_keeps | apply State.computeCleared_keeps
        | apply State.set_keeps | apply State.driveClaim_keeps | apply State.modDie_keeps
        | apply State.startWake_keeps | apply Keeps.ite | apply Keeps.foldl | (apply Keeps.fst; assumption)
    | simp only [↓Keeps.fields] | split | dsimp only

theorem State.computeDown_keeps {s t} (h : Keeps s t) : Keeps s (State.computeDown t) := by
  unfold State.computeDown
  iterate 100 all_goals try
    first
    | intro _
    | with_reducible
        first
        | assumption | apply State.enterStandby_keeps | apply State.computeCleared_keeps | apply State.set_keeps
        | apply Keeps.ite | apply Keeps.foldl | (apply Keeps.fst; assumption)
    | simp only [↓Keeps.fields] | split | dsimp only

theorem State.computeReset_keeps {s t a1} (h : Keeps s t) : Keeps s (State.computeReset t a1) := by
  unfold State.computeReset
  iterate 100 all_goals try
    first
    | intro _
    | with_reducible
        first
        | assumption | apply State.set_keeps | apply State.emit_keeps | apply State.computeDown_keeps
        | apply Keeps.ite | apply Keeps.foldl | (apply Keeps.fst; assumption)
    | simp only [↓Keeps.fields] | split | dsimp only

theorem State.setMode_keeps {s t a1} (h : Keeps s t) : Keeps s (State.setMode t a1) := by
  unfold State.setMode
  iterate 100 all_goals try
    first
    | intro _
    | with_reducible
        first
        | assumption | apply State.irq_keeps | apply State.set_keeps | apply State.clusterOff_keeps
        | apply State.each_keeps | apply State.linkLost_keeps | apply Keeps.ite | apply Keeps.foldl
        | (apply Keeps.fst; assumption)
    | simp only [↓Keeps.fields] | split | dsimp only

theorem State.degEval_keeps {s t} (h : Keeps s t) : Keeps s (State.degEval t) := by
  unfold State.degEval
  iterate 100 all_goals try
    first
    | intro _
    | with_reducible
        first
        | assumption | apply State.set_keeps | apply State.err_keeps | apply State.setMode_keeps | apply Keeps.ite
        | apply Keeps.foldl | (apply Keeps.fst; assumption)
    | simp only [↓Keeps.fields] | split | dsimp only

theorem State.fuseLoad_keeps {s t} (h : Keeps s t) : Keeps s (State.fuseLoad t).1 := by
  unfold State.fuseLoad
  iterate 100 all_goals try
    first
    | intro _
    | with_reducible
        first
        | assumption | apply State.set_keeps | apply State.err_keeps | apply Keeps.ite | apply Keeps.foldl
        | (apply Keeps.fst; assumption)
    | simp only [↓Keeps.fields] | split | dsimp only

theorem State.holdCode_keeps {s t a1 a2 a3} (h : Keeps s t) : Keeps s (State.holdCode t a1 a2 a3) := by
  unfold State.holdCode
  iterate 100 all_goals try
    first
    | intro _
    | with_reducible
        first
        | assumption | apply Keeps.ite | apply Keeps.foldl | (apply Keeps.fst; assumption)
    | simp only [↓Keeps.fields] | split | dsimp only

theorem State.lateShown_keeps {s t} (h : Keeps s t) : Keeps s (State.lateShown t) := by
  unfold State.lateShown
  iterate 100 all_goals try
    first
    | intro _
    | with_reducible
        first
        | assumption | apply State.err_keeps | apply State.irq_keeps | apply State.cnt_keeps | apply Keeps.ite
        | apply Keeps.foldl | (apply Keeps.fst; assumption)
    | simp only [↓Keeps.fields] | split | dsimp only

theorem State.wakePulse_keeps {s t} (h : Keeps s t) : Keeps s (State.wakePulse t) := by
  unfold State.wakePulse
  iterate 100 all_goals try
    first
    | intro _
    | with_reducible
        first
        | assumption | apply State.emit_keeps | apply Keeps.ite | apply Keeps.foldl | (apply Keeps.fst; assumption)
    | simp only [↓Keeps.fields] | split | dsimp only

theorem State.localPulse_keeps {s t} (h : Keeps s t) : Keeps s (State.localPulse t) := by
  unfold State.localPulse
  iterate 100 all_goals try
    first
    | intro _
    | with_reducible
        first
        | assumption | apply State.wakePulse_keeps | apply Keeps.ite | apply Keeps.foldl
        | (apply Keeps.fst; assumption)
    | simp only [↓Keeps.fields] | split | dsimp only

theorem State.pathRound_keeps {s t a1} (h : Keeps s t) : Keeps s (State.pathRound t a1) := by
  unfold State.pathRound
  iterate 100 all_goals try
    first
    | intro _
    | with_reducible
        first
        | assumption | apply State.each_keeps | apply State.err_keeps | apply State.irq_keeps | apply State.set_keeps
        | apply Keeps.ite | apply Keeps.foldl | (apply Keeps.fst; assumption)
    | simp only [↓Keeps.fields] | split | dsimp only

theorem State.rpReset_keeps {s t a1} (h : Keeps s t) : Keeps s (State.rpReset t a1) := by
  unfold State.rpReset
  iterate 100 all_goals try
    first
    | intro _
    | with_reducible
        first
        | assumption | apply State.clearCore_keeps | apply State.cnt_keeps | apply State.pairDown_keeps
        | apply State.resetPage_keeps | apply Keeps.ite | apply Keeps.foldl | (apply Keeps.fst; assumption)
    | simp only [↓Keeps.fields] | split | dsimp only

theorem State.rstRefused_keeps {s t a1} (h : Keeps s t) : Keeps s (State.rstRefused t a1) := by
  unfold State.rstRefused
  iterate 100 all_goals try
    first
    | intro _
    | with_reducible
        first
        | assumption | apply State.refused_keeps | apply State.err_keeps | apply Keeps.ite | apply Keeps.foldl
        | (apply Keeps.fst; assumption)
    | simp only [↓Keeps.fields] | split | dsimp only

theorem State.rstDie_keeps {s t a1 a2} (h : Keeps s t) : Keeps s (State.rstDie t a1 a2) := by
  unfold State.rstDie
  iterate 100 all_goals try
    first
    | intro _
    | with_reducible
        first
        | assumption | apply State.rstRefused_keeps | apply State.cnt_keeps | apply State.dieReset_keeps
        | apply Keeps.ite | apply Keeps.foldl | (apply Keeps.fst; assumption)
    | simp only [↓Keeps.fields] | split | dsimp only

theorem State.rstRp_keeps {s t a1 a2} (h : Keeps s t) : Keeps s (State.rstRp t a1 a2) := by
  unfold State.rstRp
  iterate 100 all_goals try
    first
    | intro _
    | with_reducible
        first
        | assumption | apply State.rstRefused_keeps | apply State.rpReset_keeps | apply Keeps.ite | apply Keeps.foldl
        | (apply Keeps.fst; assumption)
    | simp only [↓Keeps.fields] | split | dsimp only

theorem State.startTest_keeps {s t a1 a2} (h : Keeps s t) : Keeps s (State.startTest t a1 a2) := by
  unfold State.startTest
  iterate 100 all_goals try
    first
    | intro _
    | with_reducible
        first
        | assumption | apply State.fuseLoad_keeps | apply State.each_keeps | apply State.poisonAdd_keeps
        | apply State.pathRound_keeps | apply State.set_keeps | apply State.err_keeps | apply Keeps.ite
        | apply Keeps.foldl | (apply Keeps.fst; assumption)
    | simp only [↓Keeps.fields] | split | dsimp only

theorem State.wakeShown_keeps {s t} (h : Keeps s t) : Keeps s (State.wakeShown t) := by
  unfold State.wakeShown
  iterate 100 all_goals try
    first
    | intro _
    | with_reducible
        first
        | assumption | apply State.set_keeps | apply Keeps.ite | apply Keeps.foldl | (apply Keeps.fst; assumption)
    | simp only [↓Keeps.fields] | split | dsimp only

theorem State.wdgExpires_keeps {s t} (h : Keeps s t) : Keeps s (State.wdgExpires t) := by
  unfold State.wdgExpires
  iterate 100 all_goals try
    first
    | intro _
    | with_reducible
        first
        | assumption | apply State.computeReset_keeps | apply State.holdCode_keeps | apply Keeps.ite
        | apply Keeps.foldl | (apply Keeps.fst; assumption)
    | simp only [↓Keeps.fields] | split | dsimp only

theorem rstReqEff_keeps {s a0 t} (h : Keeps s t) : Keeps s (rstReqEff a0 t) := by
  unfold rstReqEff
  iterate 100 all_goals try
    first
    | intro _
    | with_reducible
        first
        | assumption | apply State.rstDie_keeps | apply State.computeReset_keeps | apply State.clusterReset_keeps
        | apply State.rstRp_keeps | apply Keeps.ite | apply Keeps.foldl | (apply Keeps.fst; assumption)
    | simp only [↓Keeps.fields] | split | dsimp only

theorem rstWdgEff_keeps {s a0 t} (h : Keeps s t) : Keeps s (rstWdgEff a0 t) := by
  unfold rstWdgEff
  iterate 100 all_goals try
    first
    | intro _
    | with_reducible
        first
        | assumption | apply State.plain_keeps | apply State.set_keeps | apply Keeps.ite | apply Keeps.foldl
        | (apply Keeps.fst; assumption)
    | simp only [↓Keeps.fields] | split | dsimp only

theorem rstKickEff_keeps {s a0 t} (h : Keeps s t) : Keeps s (rstKickEff a0 t) := by
  unfold rstKickEff
  iterate 100 all_goals try
    first
    | intro _
    | with_reducible
        first
        | assumption | apply State.wdgExpires_keeps | apply Keeps.ite | apply Keeps.foldl
        | (apply Keeps.fst; assumption)
    | simp only [↓Keeps.fields] | split | dsimp only

theorem State.domainLost_keeps {s t a1} (h : Keeps s t) : Keeps s (State.domainLost t a1) := by
  have h5 : Keeps s (t.each (List.range 31) fun s p => s.linkLost p) := State.each_keeps h fun _ _ k => State.linkLost_keeps k
  have h6 : Keeps s (t.each (List.range 4) fun s e => s.agentReset (0x30 + e)) :=
    State.each_keeps h fun _ _ k => State.agentReset_keeps k
  have h9 : Keeps s t.phoaskDown := State.phoaskDown_keeps h
  unfold State.domainLost
  generalize (t.each (List.range 31) fun s p => s.linkLost p) = u at h5 ⊢
  generalize (t.each (List.range 4) fun s e => s.agentReset (0x30 + e)) = v at h6 ⊢
  generalize t.phoaskDown = w at h9 ⊢
  split
  · exact State.pairDown_keeps (State.clearCore_keeps (State.clearCore_keeps h))
  split
  · exact (Keeps.tabsFilter h5).and id
  split
  · exact h6.and fun x => ⟨by simpa using x.1, x.2.1, rfl, x.2.2.2⟩
  split
  · exact (Keeps.memFilter h).and id
  split
  · exact State.each_keeps h fun _ _ k => State.linkLost_keeps k
  split
  · exact Keeps.brSet h9
  · exact h

theorem State.pllFault_keeps {s t a1} (h : Keeps s t) : Keeps s (State.pllFault t a1) := by
  unfold State.pllFault
  iterate 100 all_goals try
    first
    | intro _
    | with_reducible
        first
        | assumption | apply State.err_keeps | apply State.clusterReset_keeps | apply State.computeReset_keeps
        | apply State.holdCode_keeps | apply Keeps.ite | apply Keeps.foldl | (apply Keeps.fst; assumption)
    | simp only [↓Keeps.fields] | split | dsimp only

theorem State.entryFails_keeps {s t a1} (h : Keeps s t) : Keeps s (State.entryFails t a1) := by
  unfold State.entryFails
  iterate 100 all_goals try
    first
    | intro _
    | with_reducible
        first
        | assumption | apply State.irq_keeps | apply State.set_keeps | apply State.pllFault_keeps
        | apply State.err_keeps | apply State.modDie_keeps | apply Keeps.ite | apply Keeps.foldl
        | (apply Keeps.fst; assumption)
    | simp only [↓Keeps.fields] | split | dsimp only

theorem State.entryPasses_keeps {s t a1} (h : Keeps s t) : Keeps s (State.entryPasses t a1) := by
  unfold State.entryPasses
  iterate 100 all_goals try
    first
    | intro _
    | with_reducible
        first
        | assumption | apply State.irq_keeps | apply State.set_keeps | apply State.modDie_keeps | apply Keeps.ite
        | apply Keeps.foldl | (apply Keeps.fst; assumption)
    | simp only [↓Keeps.fields] | split | dsimp only

theorem State.entryWindow_keeps {s t a1 a2} (h : Keeps s t) : Keeps s (State.entryWindow t a1 a2) := by
  unfold State.entryWindow
  iterate 100 all_goals try
    first
    | intro _
    | with_reducible
        first
        | assumption | apply State.set_keeps | apply State.stat_keeps | apply State.cntWrap_keeps
        | apply State.entryFails_keeps | apply State.cnt_keeps | apply State.entryPasses_keeps | apply Keeps.ite
        | apply Keeps.foldl | (apply Keeps.fst; assumption)
    | simp only [↓Keeps.fields] | split | dsimp only

theorem State.followDrift_keeps {s t} (h : Keeps s t) : Keeps s (State.followDrift t) := by
  unfold State.followDrift
  iterate 100 all_goals try
    first
    | intro _
    | with_reducible
        first
        | assumption | apply State.set_keeps | apply Keeps.ite | apply Keeps.foldl | (apply Keeps.fst; assumption)
    | simp only [↓Keeps.fields] | split | dsimp only

theorem State.onRco_keeps {s t} (h : Keeps s t) : Keeps s (State.onRco t) := by
  unfold State.onRco
  iterate 100 all_goals try
    first
    | intro _
    | with_reducible
        first
        | assumption | apply State.each_keeps | apply State.set_keeps | apply State.irq_keeps | apply Keeps.ite
        | apply Keeps.foldl | (apply Keeps.fst; assumption)
    | simp only [↓Keeps.fields] | split | dsimp only

theorem State.oscFault_keeps {s t a1 a2} (h : Keeps s t) : Keeps s (State.oscFault t a1 a2) := by
  unfold State.oscFault
  iterate 100 all_goals try
    first
    | intro _
    | with_reducible
        first
        | assumption | apply State.computeReset_keeps | apply State.holdCode_keeps | apply State.degEval_keeps
        | apply State.err_keeps | apply State.onRco_keeps | apply State.irq_keeps | apply Keeps.ite
        | apply Keeps.foldl | (apply Keeps.fst; assumption)
    | simp only [↓Keeps.fields] | split | dsimp only

theorem State.vfsPlan_keeps {s t} (h : Keeps s t) : Keeps s (State.vfsPlan t) := by
  unfold State.vfsPlan
  iterate 100 all_goals try
    first
    | intro _
    | with_reducible
        first
        | assumption | apply State.set_keeps | apply State.cntWrap_keeps | apply State.irq_keeps | apply Keeps.ite
        | apply Keeps.foldl | (apply Keeps.fst; assumption)
    | simp only [↓Keeps.fields] | split | dsimp only

theorem clkAcDivEff_keeps {s a0 t} (h : Keeps s t) : Keeps s (clkAcDivEff a0 t) := by
  unfold clkAcDivEff
  iterate 100 all_goals try
    first
    | intro _
    | with_reducible
        first
        | assumption | apply State.setDivider_keeps | apply State.plain_keeps | apply Keeps.ite | apply Keeps.foldl
        | (apply Keeps.fst; assumption)
    | simp only [↓Keeps.fields] | split | dsimp only

theorem pwrDomEff_keeps {s a0 a1 t} (h : Keeps s t) : Keeps s (pwrDomEff a0 a1 t) := by
  unfold pwrDomEff
  iterate 100 all_goals try
    first
    | intro _
    | with_reducible
        first
        | assumption | apply State.err_keeps | apply State.refuse_keeps | apply State.plain_keeps | apply Keeps.ite
        | apply Keeps.foldl | (apply Keeps.fst; assumption)
    | simp only [↓Keeps.fields] | split | dsimp only

theorem vfsCtrlEff_keeps {s a0 t} (h : Keeps s t) : Keeps s (vfsCtrlEff a0 t) := by
  unfold vfsCtrlEff
  iterate 100 all_goals try
    first
    | intro _
    | with_reducible
        first
        | assumption | apply State.set_keeps | apply Keeps.ite | apply Keeps.foldl | (apply Keeps.fst; assumption)
    | simp only [↓Keeps.fields] | split | dsimp only

theorem vfsReqEff_keeps {s a0 t} (h : Keeps s t) : Keeps s (vfsReqEff a0 t) := by
  unfold vfsReqEff
  iterate 100 all_goals try
    first
    | intro _
    | with_reducible
        first
        | assumption | apply State.plain_keeps | apply State.set_keeps | apply State.vfsPlan_keeps
        | apply State.err_keeps | apply State.irq_keeps | apply Keeps.ite | apply Keeps.foldl
        | (apply Keeps.fst; assumption)
    | simp only [↓Keeps.fields] | split | dsimp only

theorem State.awakeDrop_keeps {s t a1} (h : Keeps s t) : Keeps s (State.awakeDrop t a1) := by
  unfold State.awakeDrop
  iterate 100 all_goals try
    first
    | intro _
    | with_reducible
        first
        | assumption | apply Keeps.ite | apply Keeps.foldl | (apply Keeps.fst; assumption)
    | simp only [↓Keeps.fields] | split | dsimp only

theorem State.awakePause_keeps {s t a1} (h : Keeps s t) : Keeps s (State.awakePause t a1) := by
  unfold State.awakePause
  iterate 100 all_goals try
    first
    | intro _
    | with_reducible
        first
        | assumption | apply Keeps.ite | apply Keeps.foldl | (apply Keeps.fst; assumption)
    | simp only [↓Keeps.fields] | split | dsimp only

theorem State.awakeRun_keeps {s t a1} (h : Keeps s t) : Keeps s (State.awakeRun t a1) := by
  unfold State.awakeRun
  iterate 100 all_goals try
    first
    | intro _
    | with_reducible
        first
        | assumption | apply Keeps.ite | apply Keeps.foldl | (apply Keeps.fst; assumption)
    | simp only [↓Keeps.fields] | split | dsimp only

theorem State.channelsBack_keeps {s t} (h : Keeps s t) : Keeps s (State.channelsBack t) := by
  unfold State.channelsBack
  iterate 100 all_goals try
    first
    | intro _
    | with_reducible
        first
        | assumption | apply State.each_keeps | apply State.set_keeps | apply State.noteCmds_keeps | apply Keeps.ite
        | apply Keeps.foldl | (apply Keeps.fst; assumption)
    | simp only [↓Keeps.fields] | split | dsimp only

theorem State.channelsOff_keeps {s t a1} (h : Keeps s t) : Keeps s (State.channelsOff t a1) := by
  unfold State.channelsOff
  iterate 100 all_goals try
    first
    | intro _
    | with_reducible
        first
        | assumption | apply State.each_keeps | apply State.set_keeps | apply State.modChan_keeps | apply Keeps.ite
        | apply Keeps.foldl | (apply Keeps.fst; assumption)
    | simp only [↓Keeps.fields] | split | dsimp only

theorem State.setSleep_keeps {s t a1} (h : Keeps s t) : Keeps s (State.setSleep t a1) := by
  unfold State.setSleep
  iterate 100 all_goals try
    first
    | intro _
    | with_reducible
        first
        | assumption | apply State.set_keeps | apply Keeps.ite | apply Keeps.foldl | (apply Keeps.fst; assumption)
    | simp only [↓Keeps.fields] | split | dsimp only

theorem State.sleepAbort_keeps {s t} (h : Keeps s t) : Keeps s (State.sleepAbort t) := by
  unfold State.sleepAbort
  iterate 100 all_goals try
    first
    | intro _
    | with_reducible
        first
        | assumption | apply State.setMode_keeps | apply State.channelsBack_keeps | apply State.localPulse_keeps
        | apply State.err_keeps | apply State.cnt_keeps | apply State.irq_keeps | apply State.setSleep_keeps
        | apply Keeps.ite | apply Keeps.foldl | (apply Keeps.fst; assumption)
    | simp only [↓Keeps.fields] | split | dsimp only

theorem State.coordLook_keeps {s t} (h : Keeps s t) : Keeps s (State.coordLook t) := by
  unfold State.coordLook
  iterate 100 all_goals try
    first
    | intro _
    | with_reducible
        first
        | assumption | apply State.sleepAbort_keeps | apply Keeps.ite | apply Keeps.foldl
        | (apply Keeps.fst; assumption)
    | simp only [↓Keeps.fields] | split | dsimp only

theorem State.wakeIn_keeps {s t a1} (h : Keeps s t) : Keeps s (State.wakeIn t a1) := by
  unfold State.wakeIn
  iterate 100 all_goals try
    first
    | intro _
    | with_reducible
        first
        | assumption | apply State.startWake_keeps | apply State.localPulse_keeps | apply State.sleepAbort_keeps
        | apply Keeps.ite | apply Keeps.foldl | (apply Keeps.fst; assumption)
    | simp only [↓Keeps.fields] | split | dsimp only

theorem State.dinWake_keeps {s t} (h : Keeps s t) : Keeps s (State.dinWake t) := by
  unfold State.dinWake
  iterate 100 all_goals try
    first
    | intro _
    | with_reducible
        first
        | assumption | apply State.wakeEval_keeps | apply State.wakeIn_keeps | apply Keeps.ite | apply Keeps.foldl
        | (apply Keeps.fst; assumption)
    | simp only [↓Keeps.fields] | split | dsimp only

theorem State.enterPrep_keeps {s t a1} (h : Keeps s t) : Keeps s (State.enterPrep t a1) := by
  unfold State.enterPrep
  iterate 100 all_goals try
    first
    | intro _
    | with_reducible
        first
        | assumption | apply State.irq_keeps | apply State.set_keeps | apply State.setSleep_keeps | apply Keeps.ite
        | apply Keeps.foldl | (apply Keeps.fst; assumption)
    | simp only [↓Keeps.fields] | split | dsimp only

theorem State.enterService_keeps {s t a1} (h : Keeps s t) : Keeps s (State.enterService t a1) := by
  unfold State.enterService
  iterate 100 all_goals try
    first
    | intro _
    | with_reducible
        first
        | assumption | apply State.setMode_keeps | apply State.awakeRun_keeps | apply State.sleepAbort_keeps
        | apply Keeps.ite | apply Keeps.foldl | (apply Keeps.fst; assumption)
    | simp only [↓Keeps.fields] | split | dsimp only

theorem State.enterShutdown_keeps {s t} (h : Keeps s t) : Keeps s (State.enterShutdown t) := by
  unfold State.enterShutdown
  iterate 100 all_goals try
    first
    | intro _
    | with_reducible
        first
        | assumption | apply State.irq_keeps | apply State.setSleep_keeps | apply State.setMode_keeps
        | apply Keeps.ite | apply Keeps.foldl | (apply Keeps.fst; assumption)
    | simp only [↓Keeps.fields] | split | dsimp only

theorem State.sleepCheck_keeps {s t} (h : Keeps s t) : Keeps s (State.sleepCheck t) := by
  unfold State.sleepCheck
  iterate 100 all_goals try
    first
    | intro _
    | with_reducible
        first
        | assumption | apply State.enterPrep_keeps | apply Keeps.ite | apply Keeps.foldl
        | (apply Keeps.fst; assumption)
    | simp only [↓Keeps.fields] | split | dsimp only

theorem State.feedOff_keeps {s t a1} (h : Keeps s t) : Keeps s (State.feedOff t a1) := by
  unfold State.feedOff
  iterate 100 all_goals try
    first
    | intro _
    | with_reducible
        first
        | assumption | apply State.noteCmds_keeps | apply State.set_keeps | apply State.irq_keeps
        | apply State.cnt_keeps | apply State.sleepCheck_keeps | apply State.err_keeps | apply Keeps.ite
        | apply Keeps.foldl | (apply Keeps.fst; assumption)
    | simp only [↓Keeps.fields] | split | dsimp only

theorem State.fwkSet_keeps {s t a1 a2} (h : Keeps s t) : Keeps s (State.fwkSet t a1 a2) := by
  unfold State.fwkSet
  iterate 100 all_goals try
    first
    | intro _
    | with_reducible
        first
        | assumption | apply State.set_keeps | apply State.dinWake_keeps | apply Keeps.ite | apply Keeps.foldl
        | (apply Keeps.fst; assumption)
    | simp only [↓Keeps.fields] | split | dsimp only

theorem State.keptOff_keeps {s t} (h : Keeps s t) : Keeps s (State.keptOff t) := by
  unfold State.keptOff
  iterate 100 all_goals try
    first
    | intro _
    | with_reducible
        first
        | assumption | apply State.each_keeps | apply State.channelsOff_keeps | apply State.turnOff_keeps
        | apply Keeps.ite | apply Keeps.foldl | (apply Keeps.fst; assumption)
    | simp only [↓Keeps.fields] | split | dsimp only

theorem State.toRun_keeps {s t} (h : Keeps s t) : Keeps s (State.toRun t) := by
  unfold State.toRun
  iterate 100 all_goals try
    first
    | intro _
    | with_reducible
        first
        | assumption | apply State.set_keeps | apply State.setMode_keeps | apply State.err_keeps | apply Keeps.ite
        | apply Keeps.foldl | (apply Keeps.fst; assumption)
    | simp only [↓Keeps.fields] | split | dsimp only

theorem State.leaveService_keeps {s t} (h : Keeps s t) : Keeps s (State.leaveService t) := by
  unfold State.leaveService
  iterate 100 all_goals try
    first
    | intro _
    | with_reducible
        first
        | assumption | apply State.computeReset_keeps | apply State.toRun_keeps | apply Keeps.ite | apply Keeps.foldl
        | (apply Keeps.fst; assumption)
    | simp only [↓Keeps.fields] | split | dsimp only

theorem State.modeRefused_keeps {s t a1 a2} (h : Keeps s t) : Keeps s (State.modeRefused t a1 a2) := by
  unfold State.modeRefused
  iterate 100 all_goals try
    first
    | intro _
    | with_reducible
        first
        | assumption | apply State.err_keeps | apply State.refuse_keeps | apply Keeps.ite | apply Keeps.foldl
        | (apply Keeps.fst; assumption)
    | simp only [↓Keeps.fields] | split | dsimp only

theorem State.noReturn_keeps {s t} (h : Keeps s t) : Keeps s (State.noReturn t) := by
  unfold State.noReturn
  iterate 100 all_goals try
    first
    | intro _
    | with_reducible
        first
        | assumption | apply State.err_keeps | apply State.setMode_keeps | apply State.set_keeps
        | apply State.setSleep_keeps | apply State.cnt_keeps | apply State.keptOff_keeps | apply Keeps.ite
        | apply Keeps.foldl | (apply Keeps.fst; assumption)
    | simp only [↓Keeps.fields] | split | dsimp only

theorem State.parkedWritten_keeps {s t a1} (h : Keeps s t) : Keeps s (State.parkedWritten t a1) := by
  unfold State.parkedWritten
  iterate 100 all_goals try
    first
    | intro _
    | with_reducible
        first
        | assumption | apply State.each_keeps | apply State.set_keeps | apply State.awakeRun_keeps | apply Keeps.ite
        | apply Keeps.foldl | (apply Keeps.fst; assumption)
    | simp only [↓Keeps.fields] | split | dsimp only

theorem State.validWake_keeps {s t} (h : Keeps s t) : Keeps s (State.validWake t) := by
  unfold State.validWake
  iterate 100 all_goals try
    first
    | intro _
    | with_reducible
        first
        | assumption | apply State.set_keeps | apply Keeps.ite | apply Keeps.foldl | (apply Keeps.fst; assumption)
    | simp only [↓Keeps.fields] | split | dsimp only

theorem State.voteTaken_keeps {s t a1 a2} (h : Keeps s t) : Keeps s (State.voteTaken t a1 a2) := by
  unfold State.voteTaken
  iterate 100 all_goals try
    first
    | intro _
    | with_reducible
        first
        | assumption | apply State.set_keeps | apply State.validWake_keeps | apply State.awakeDrop_keeps
        | apply State.awakeRun_keeps | apply State.awakePause_keeps | apply Keeps.ite | apply Keeps.foldl
        | (apply Keeps.fst; assumption)
    | simp only [↓Keeps.fields] | split | dsimp only

theorem slpCtrlEff_keeps {s a0 t} (h : Keeps s t) : Keeps s (slpCtrlEff a0 t) := by
  unfold slpCtrlEff
  iterate 100 all_goals try
    first
    | intro _
    | with_reducible
        first
        | assumption | apply State.modeRefused_keeps | apply State.plain_keeps | apply State.set_keeps
        | apply State.parkedWritten_keeps | apply State.awakeRun_keeps | apply State.sleepAbort_keeps
        | apply State.awakeDrop_keeps | apply State.coordLook_keeps | apply State.validWake_keeps
        | apply State.enterShutdown_keeps | apply State.noReturn_keeps | apply State.sleepCheck_keeps
        | apply Keeps.ite | apply Keeps.foldl | (apply Keeps.fst; assumption)
    | simp only [↓Keeps.fields] | split | dsimp only

theorem slpCntClrEff_keeps {s a0 t} (h : Keeps s t) : Keeps s (slpCntClrEff a0 t) := by
  unfold slpCntClrEff
  iterate 100 all_goals try
    first
    | intro _
    | with_reducible
        first
        | assumption | apply State.wrn_keeps | apply Keeps.ite | apply Keeps.foldl | (apply Keeps.fst; assumption)
    | simp only [↓Keeps.fields] | split | dsimp only

theorem slpModeReqEff_keeps {s a0 t} (h : Keeps s t) : Keeps s (slpModeReqEff a0 t) := by
  unfold slpModeReqEff
  iterate 100 all_goals try
    first
    | intro _
    | with_reducible
        first
        | assumption | apply State.plain_keeps | apply State.sleepAbort_keeps | apply State.toRun_keeps
        | apply State.leaveService_keeps | apply State.modeRefused_keeps | apply State.setMode_keeps
        | apply Keeps.ite | apply Keeps.foldl | (apply Keeps.fst; assumption)
    | simp only [↓Keeps.fields] | split | dsimp only

theorem slpVoteEff_keeps {s a0 t} (h : Keeps s t) : Keeps s (slpVoteEff a0 t) := by
  unfold slpVoteEff
  iterate 100 all_goals try
    first
    | intro _
    | with_reducible
        first
        | assumption | apply State.voteTaken_keeps | apply State.sleepAbort_keeps | apply State.enterPrep_keeps
        | apply State.irq_keeps | apply State.sleepCheck_keeps | apply Keeps.ite | apply Keeps.foldl
        | (apply Keeps.fst; assumption)
    | simp only [↓Keeps.fields] | split | dsimp only

theorem slpWakeEff_keeps {s a0 t} (h : Keeps s t) : Keeps s (slpWakeEff a0 t) := by
  unfold slpWakeEff
  iterate 100 all_goals try
    first
    | intro _
    | with_reducible
        first
        | assumption | apply State.plain_keeps | apply State.wakePulse_keeps | apply Keeps.ite | apply Keeps.foldl
        | (apply Keeps.fst; assumption)
    | simp only [↓Keeps.fields] | split | dsimp only

theorem slpNodeCfgEff_keeps {s a0 a1 t} (h : Keeps s t) : Keeps s (slpNodeCfgEff a0 a1 t) := by
  unfold slpNodeCfgEff
  iterate 100 all_goals try
    first
    | intro _
    | with_reducible
        first
        | assumption | apply State.plain_keeps | apply State.awakeDrop_keeps | apply State.wrn_keeps
        | apply State.sleepCheck_keeps | apply Keeps.ite | apply Keeps.foldl | (apply Keeps.fst; assumption)
    | simp only [↓Keeps.fields] | split | dsimp only

theorem slpPartPortsEff_keeps {s a0 t} (h : Keeps s t) : Keeps s (slpPartPortsEff a0 t) := by
  unfold slpPartPortsEff
  iterate 100 all_goals try
    first
    | intro _
    | with_reducible
        first
        | assumption | apply State.plain_keeps | apply State.each_keeps | apply State.linkLost_keeps
        | apply Keeps.ite | apply Keeps.foldl | (apply Keeps.fst; assumption)
    | simp only [↓Keeps.fields] | split | dsimp only

theorem State.handle_keeps {s t a1 a2} (h : Keeps s t) : Keeps s (State.handle t a1 a2) := by
  unfold State.handle
  iterate 100 all_goals try
    first
    | intro _
    | with_reducible
        first
        | assumption | apply State.set_keeps | apply Keeps.ite | apply Keeps.foldl | (apply Keeps.fst; assumption)
    | simp only [↓Keeps.fields] | split | dsimp only

theorem State.endHandling_keeps {s t} (h : Keeps s t) : Keeps s (State.endHandling t) := by
  unfold State.endHandling
  iterate 100 all_goals try
    first
    | intro _
    | with_reducible
        first
        | assumption | apply State.handle_keeps | apply State.wr_keeps | apply State.set_keeps
        | apply State.irq_keeps | apply Keeps.ite | apply Keeps.foldl | (apply Keeps.fst; assumption)
    | simp only [↓Keeps.fields] | split | dsimp only

theorem State.fagCounters_keeps {s t} (h : Keeps s t) : Keeps s (State.fagCounters t) := by
  unfold State.fagCounters
  iterate 100 all_goals try
    first
    | intro _
    | with_reducible
        first
        | assumption | apply State.each_keeps | apply State.wr_keeps | apply Keeps.ite | apply Keeps.foldl
        | (apply Keeps.fst; assumption)
    | simp only [↓Keeps.fields] | split | dsimp only

theorem State.pushHandling_keeps {s t} (h : Keeps s t) : Keeps s (State.pushHandling t) := by
  unfold State.pushHandling
  iterate 100 all_goals try
    first
    | intro _
    | with_reducible
        first
        | assumption | apply State.wr_keeps | apply State.set_keeps | apply Keeps.ite | apply Keeps.foldl
        | (apply Keeps.fst; assumption)
    | simp only [↓Keeps.fields] | split | dsimp only

theorem State.faultNotify_keeps {s t a1} (h : Keeps s t) : Keeps s (State.faultNotify t a1) := by
  unfold State.faultNotify
  iterate 100 all_goals try
    first
    | intro _
    | with_reducible
        first
        | assumption | apply State.irq_keeps | apply State.handle_keeps | apply State.cnt_keeps
        | apply State.pushHandling_keeps | apply Keeps.ite | apply Keeps.foldl | (apply Keeps.fst; assumption)
    | simp only [↓Keeps.fields] | split | dsimp only

theorem State.sevCount_keeps {s t a1} (h : Keeps s t) : Keeps s (State.sevCount t a1) := by
  unfold State.sevCount
  iterate 100 all_goals try
    first
    | intro _
    | with_reducible
        first
        | assumption | apply State.cnt32_keeps | apply Keeps.ite | apply Keeps.foldl | (apply Keeps.fst; assumption)
    | simp only [↓Keeps.fields] | split | dsimp only

theorem State.logTake_keeps {s t a1} (h : Keeps s t) : Keeps s (State.logTake t a1).1 := by
  unfold State.logTake
  iterate 100 all_goals try
    first
    | intro _
    | with_reducible
        first
        | assumption | apply State.irq_keeps | apply State.cnt_keeps | apply Keeps.ite | apply Keeps.foldl
        | (apply Keeps.fst; assumption)
    | simp only [↓Keeps.fields] | split | dsimp only

theorem State.logOverflow_keeps {s t} (h : Keeps s t) : Keeps s (State.logOverflow t) := by
  unfold State.logOverflow
  iterate 100 all_goals try
    first
    | intro _
    | with_reducible
        first
        | assumption | apply State.faultNotify_keeps | apply State.sevCount_keeps | apply State.irq_keeps
        | apply State.capture_keeps | apply Keeps.ite | apply Keeps.foldl | (apply Keeps.fst; assumption)
    | simp only [↓Keeps.fields] | split | dsimp only

theorem State.faultTaken_keeps {s t a1} (h : Keeps s t) : Keeps s (State.faultTaken t a1) := by
  unfold State.faultTaken
  iterate 100 all_goals try
    first
    | intro _
    | with_reducible
        first
        | assumption | apply State.sevCount_keeps | apply State.set_keeps | apply State.logTake_keeps
        | apply State.faultNotify_keeps | apply State.logOverflow_keeps | apply Keeps.ite | apply Keeps.foldl
        | (apply Keeps.fst; assumption)
    | simp only [↓Keeps.fields] | split | dsimp only

theorem State.logEmpty_keeps {s t} (h : Keeps s t) : Keeps s (State.logEmpty t) := by
  unfold State.logEmpty
  iterate 100 all_goals try
    first
    | intro _
    | with_reducible
        first
        | assumption | apply State.set_keeps | apply Keeps.ite | apply Keeps.foldl | (apply Keeps.fst; assumption)
    | simp only [↓Keeps.fields] | split | dsimp only

theorem State.logSoftReset_keeps {s t} (h : Keeps s t) : Keeps s (State.logSoftReset t) := by
  unfold State.logSoftReset
  iterate 100 all_goals try
    first
    | intro _
    | with_reducible
        first
        | assumption | apply State.logEmpty_keeps | apply Keeps.ite | apply Keeps.foldl
        | (apply Keeps.fst; assumption)
    | simp only [↓Keeps.fields] | split | dsimp only

theorem fagCntClrEff_keeps {s a0 t} (h : Keeps s t) : Keeps s (fagCntClrEff a0 t) := by
  unfold fagCntClrEff
  iterate 100 all_goals try
    first
    | intro _
    | with_reducible
        first
        | assumption | apply State.fagCounters_keeps | apply Keeps.ite | apply Keeps.foldl
        | (apply Keeps.fst; assumption)
    | simp only [↓Keeps.fields] | split | dsimp only

theorem fagDoneEff_keeps {s a0 t} (h : Keeps s t) : Keeps s (fagDoneEff a0 t) := by
  unfold fagDoneEff
  iterate 100 all_goals try
    first
    | intro _
    | with_reducible
        first
        | assumption | apply State.endHandling_keeps | apply Keeps.ite | apply Keeps.foldl
        | (apply Keeps.fst; assumption)
    | simp only [↓Keeps.fields] | split | dsimp only

theorem logCtrlEff_keeps {s a0 t} (h : Keeps s t) : Keeps s (logCtrlEff a0 t) := by
  unfold logCtrlEff
  iterate 100 all_goals try
    first
    | intro _
    | with_reducible
        first
        | assumption | apply State.plain_keeps | apply State.logEmpty_keeps | apply Keeps.ite | apply Keeps.foldl
        | (apply Keeps.fst; assumption)
    | simp only [↓Keeps.fields] | split | dsimp only

theorem logTakeEff_keeps {s t} (h : Keeps s t) : Keeps s (logTakeEff t) := by
  unfold logTakeEff
  iterate 100 all_goals try
    first
    | intro _
    | with_reducible
        first
        | assumption | apply Keeps.ite | apply Keeps.foldl | (apply Keeps.fst; assumption)
    | simp only [↓Keeps.fields] | split | dsimp only

theorem State.ageAppend_keeps {s t a1} (h : Keeps s t) : Keeps s (State.ageAppend t a1) := by
  unfold State.ageAppend
  iterate 100 all_goals try
    first
    | intro _
    | with_reducible
        first
        | assumption | apply State.norProgram_keeps | apply Keeps.ite | apply Keeps.foldl
        | (apply Keeps.fst; assumption)
    | simp only [↓Keeps.fields] | split | dsimp only

theorem State.ageTrim_keeps {s t a1 a2 a3} (h : Keeps s t) : Keeps s (State.ageTrim t a1 a2 a3) := by
  unfold State.ageTrim
  iterate 100 all_goals try
    first
    | intro _
    | with_reducible
        first
        | assumption | apply State.set_keeps | apply Keeps.ite | apply Keeps.foldl | (apply Keeps.fst; assumption)
    | simp only [↓Keeps.fields] | split | dsimp only

theorem State.ageTurn_keeps {s t} (h : Keeps s t) : Keeps s (State.ageTurn t) := by
  unfold State.ageTurn
  iterate 100 all_goals try
    first
    | intro _
    | with_reducible
        first
        | assumption | apply State.each_keeps | apply State.norEraseBlock_keeps | apply State.ageAppend_keeps
        | apply Keeps.ite | apply Keeps.foldl | (apply Keeps.fst; assumption)
    | simp only [↓Keeps.fields] | split | dsimp only

theorem State.ageWrite_keeps {s t a1} (h : Keeps s t) : Keeps s (State.ageWrite t a1) := by
  unfold State.ageWrite
  iterate 100 all_goals try
    first
    | intro _
    | with_reducible
        first
        | assumption | apply State.ageAppend_keeps | apply State.ageTurn_keeps | apply Keeps.ite | apply Keeps.foldl
        | (apply Keeps.fst; assumption)
    | simp only [↓Keeps.fields] | split | dsimp only

theorem State.blockDue_keeps {s t a1} (h : Keeps s t) : Keeps s (State.blockDue t a1) := by
  unfold State.blockDue
  iterate 100 all_goals try
    first
    | intro _
    | with_reducible
        first
        | assumption | apply State.set_keeps | apply Keeps.ite | apply Keeps.foldl | (apply Keeps.fst; assumption)
    | simp only [↓Keeps.fields] | split | dsimp only

theorem State.ceilings_keeps {s t} (h : Keeps s t) : Keeps s (State.ceilings t) := by
  unfold State.ceilings
  iterate 100 all_goals try
    first
    | intro _
    | with_reducible
        first
        | assumption | apply State.set_keeps | apply Keeps.ite | apply Keeps.foldl | (apply Keeps.fst; assumption)
    | simp only [↓Keeps.fields] | split | dsimp only

theorem State.phaseDue_keeps {s t} (h : Keeps s t) : Keeps s (State.phaseDue t) := by
  unfold State.phaseDue
  iterate 100 all_goals try
    first
    | intro _
    | with_reducible
        first
        | assumption | apply State.set_keeps | apply Keeps.ite | apply Keeps.foldl | (apply Keeps.fst; assumption)
    | simp only [↓Keeps.fields] | split | dsimp only

theorem State.trimDue_keeps {s t a1} (h : Keeps s t) : Keeps s (State.trimDue t a1) := by
  unfold State.trimDue
  iterate 100 all_goals try
    first
    | intro _
    | with_reducible
        first
        | assumption | apply State.wrn_keeps | apply Keeps.ite | apply Keeps.foldl | (apply Keeps.fst; assumption)
    | simp only [↓Keeps.fields] | split | dsimp only

theorem State.honBoundary_keeps {s t} (h : Keeps s t) : Keeps s (State.honBoundary t) := by
  unfold State.honBoundary
  iterate 100 all_goals try
    first
    | intro _
    | with_reducible
        first
        | assumption | apply State.phaseDue_keeps | apply State.each_keeps | apply State.blockDue_keeps
        | apply State.trimDue_keeps | apply Keeps.ite | apply Keeps.foldl | (apply Keeps.fst; assumption)
    | simp only [↓Keeps.fields] | split | dsimp only

theorem State.honStart_keeps {s t a1} (h : Keeps s t) : Keeps s (State.honStart t a1) := by
  unfold State.honStart
  iterate 100 all_goals try
    first
    | intro _
    | with_reducible
        first
        | assumption | apply State.each_keeps | apply State.set_keeps | apply State.wrn_keeps
        | apply State.seti_keeps | apply Keeps.ite | apply Keeps.foldl | (apply Keeps.fst; assumption)
    | simp only [↓Keeps.fields] | split | dsimp only

theorem State.planDue_keeps {s t a1} (h : Keeps s t) : Keeps s (State.planDue t a1) := by
  unfold State.planDue
  iterate 100 all_goals try
    first
    | intro _
    | with_reducible
        first
        | assumption | apply State.set_keeps | apply Keeps.ite | apply Keeps.foldl | (apply Keeps.fst; assumption)
    | simp only [↓Keeps.fields] | split | dsimp only

theorem State.judgeAllowance_keeps {s t a1 a2} (h : Keeps s t) : Keeps s (State.judgeAllowance t a1 a2) := by
  unfold State.judgeAllowance
  iterate 100 all_goals try
    first
    | intro _
    | with_reducible
        first
        | assumption | apply State.set_keeps | apply State.planDue_keeps | apply State.err_keeps
        | apply State.irq_keeps | apply Keeps.ite | apply Keeps.foldl | (apply Keeps.fst; assumption)
    | simp only [↓Keeps.fields] | split | dsimp only

theorem State.planChan_keeps {s t a1 a2 a3} (h : Keeps s t) : Keeps s (State.planChan t a1 a2 a3) := by
  unfold State.planChan
  iterate 100 all_goals try
    first
    | intro _
    | with_reducible
        first
        | assumption | apply State.ageTrim_keeps | apply Keeps.ite | apply Keeps.foldl
        | (apply Keeps.fst; assumption)
    | simp only [↓Keeps.fields] | split | dsimp only

theorem State.planMonitor_keeps {s t a1 a2 a3 a4 a5 a6} (h : Keeps s t) :
    Keeps s (State.planMonitor t a1 a2 a3 a4 a5 a6) := by
  unfold State.planMonitor
  iterate 100 all_goals try
    first
    | intro _
    | with_reducible
        first
        | assumption | apply State.set_keeps | apply State.wrn_keeps | apply State.err_keeps | apply State.irq_keeps
        | apply Keeps.ite | apply Keeps.foldl | (apply Keeps.fst; assumption)
    | simp only [↓Keeps.fields] | split | dsimp only

theorem State.makePlan_keeps {s t a1 a2} (h : Keeps s t) : Keeps s (State.makePlan t a1 a2) := by
  unfold State.makePlan
  iterate 100 all_goals try
    first
    | intro _
    | with_reducible
        first
        | assumption | apply State.honStart_keeps | apply State.each_keeps | apply State.seti_keeps
        | apply State.ceilings_keeps | apply State.set_keeps | apply State.vfsPlan_keeps | apply State.planChan_keeps
        | apply State.ageTrim_keeps | apply State.planMonitor_keeps | apply State.wrn_keeps
        | apply State.ageWrite_keeps | apply State.err_keeps | apply State.irq_keeps | apply State.honBoundary_keeps
        | apply Keeps.ite | apply Keeps.foldl | (apply Keeps.fst; assumption)
    | simp only [↓Keeps.fields] | split | dsimp only

theorem State.showMonitors_keeps {s t a1} (h : Keeps s t) : Keeps s (State.showMonitors t a1) := by
  unfold State.showMonitors
  iterate 100 all_goals try
    first
    | intro _
    | with_reducible
        first
        | assumption | apply State.each_keeps | apply State.set_keeps | apply State.wrn_keeps | apply Keeps.ite
        | apply Keeps.foldl | (apply Keeps.fst; assumption)
    | simp only [↓Keeps.fields] | split | dsimp only

theorem honCtrlEff_keeps {s a0 t} (h : Keeps s t) : Keeps s (honCtrlEff a0 t) := by
  unfold honCtrlEff
  iterate 100 all_goals try
    first
    | intro _
    | with_reducible
        first
        | assumption | apply State.plain_keeps | apply State.planDue_keeps | apply Keeps.ite | apply Keeps.foldl
        | (apply Keeps.fst; assumption)
    | simp only [↓Keeps.fields] | split | dsimp only

theorem State.appLoad_keeps {s t a1} (h : Keeps s t) : Keeps s (State.appLoad t a1) := by
  unfold State.appLoad
  iterate 100 all_goals try
    first
    | intro _
    | with_reducible
        first
        | assumption | apply State.each_keeps | apply State.ramWrite_keeps | apply State.extend_keeps
        | apply Keeps.ite | apply Keeps.foldl | (apply Keeps.fst; assumption)
    | simp only [↓Keeps.fields] | split | dsimp only

theorem State.baseLoad_keeps {s t a1} (h : Keeps s t) : Keeps s (State.baseLoad t a1) := by
  unfold State.baseLoad
  iterate 100 all_goals try
    first
    | intro _
    | with_reducible
        first
        | assumption | apply State.extend_keeps | apply Keeps.ite | apply Keeps.foldl | (apply Keeps.fst; assumption)
    | simp only [↓Keeps.fields] | split | dsimp only

theorem State.jnlWrite_keeps {s t a1} (h : Keeps s t) : Keeps s (State.jnlWrite t a1) := by
  unfold State.jnlWrite
  iterate 100 all_goals try
    first
    | intro _
    | with_reducible
        first
        | assumption | apply State.norProgram_keeps | apply Keeps.ite | apply Keeps.foldl
        | (apply Keeps.fst; assumption)
    | simp only [↓Keeps.fields] | split | dsimp only

theorem State.installBlock_keeps {s t a1 a2 a3 a4} (h : Keeps s t) : Keeps s (State.installBlock t a1 a2 a3 a4) := by
  unfold State.installBlock
  iterate 100 all_goals try
    first
    | intro _
    | with_reducible
        first
        | assumption | apply State.norEraseBlock_keeps | apply State.jnlWrite_keeps | apply State.norProgram_keeps
        | apply State.err_keeps | apply State.freeBytes_keeps | apply Keeps.ite | apply Keeps.foldl
        | (apply Keeps.fst; assumption)
    | simp only [↓Keeps.fields] | split | dsimp only

theorem State.install_keeps {s t a1 a2} (h : Keeps s t) : Keeps s (State.install t a1 a2) := by
  unfold State.install
  iterate 100 all_goals try
    first
    | intro _
    | with_reducible
        first
        | assumption | apply State.jnlWrite_keeps | apply State.each_keeps | apply State.installBlock_keeps
        | apply Keeps.ite | apply Keeps.foldl | (apply Keeps.fst; assumption)
    | simp only [↓Keeps.fields] | split | dsimp only

theorem State.jnlErase_keeps {s t} (h : Keeps s t) : Keeps s (State.jnlErase t) := by
  unfold State.jnlErase
  iterate 100 all_goals try
    first
    | intro _
    | with_reducible
        first
        | assumption | apply State.norEraseBlock_keeps | apply Keeps.ite | apply Keeps.foldl
        | (apply Keeps.fst; assumption)
    | simp only [↓Keeps.fields] | split | dsimp only

theorem State.settingsLoad_keeps {s t a1} (h : Keeps s t) : Keeps s (State.settingsLoad t a1) := by
  unfold State.settingsLoad
  iterate 100 all_goals try
    first
    | intro _
    | with_reducible
        first
        | assumption | apply State.setMend_keeps | apply State.extend_keeps | apply State.wrn_keeps
        | apply State.set_keeps | apply Keeps.ite | apply Keeps.foldl | (apply Keeps.fst; assumption)
    | simp only [↓Keeps.fields] | split | dsimp only

theorem State.slotBoot_keeps {s t a1} (h : Keeps s t) : Keeps s (State.slotBoot t a1) := by
  unfold State.slotBoot
  iterate 100 all_goals try
    first
    | intro _
    | with_reducible
        first
        | assumption | apply State.settingsLoad_keeps | apply Keeps.ite | apply Keeps.foldl
        | (apply Keeps.fst; assumption)
    | simp only [↓Keeps.fields] | split | dsimp only

theorem State.slotRejected_keeps {s t a1 a2} (h : Keeps s t) : Keeps s (State.slotRejected t a1 a2) := by
  unfold State.slotRejected
  iterate 100 all_goals try
    first
    | intro _
    | with_reducible
        first
        | assumption | apply State.err_keeps | apply State.slotTo_keeps | apply Keeps.ite | apply Keeps.foldl
        | (apply Keeps.fst; assumption)
    | simp only [↓Keeps.fields] | split | dsimp only

theorem slotPick_keeps {s a0 t} (h : Keeps s t) : Keeps s (slotPick a0 t) := by
  revert h
  fun_induction slotPick a0 t
  all_goals intro h
  iterate 100 all_goals try
    first
    | intro _
    | with_reducible
        first
        | assumption | apply State.computeReset_keeps | apply State.jnlWrite_keeps | apply State.slotRejected_keeps
        | apply State.slotRecord_keeps | apply State.slotBoot_keeps | apply State.confirmRest_keeps
        | apply State.err_keeps | apply State.settingsLoad_keeps | apply Keeps.ite | apply Keeps.foldl
        | (apply Keeps.fst; assumption) | apply_assumption
    | simp only [↓Keeps.fields] | split | dsimp only

end Sys2Proof.Machine
end

