-- ==== Sys2Proof/Laws/KeepsRoute.lean ====
section
/-!
SUPPORT. What every operation keeps (Laws/Keeps): the caliper, parting, every register write and read, packets and edges.
-/

set_option linter.all false

namespace Sys2Proof.Machine

theorem State.modCal_keeps {s t a1 g2} (h : Keeps s t) : Keeps s (State.modCal t a1 g2) := by
  unfold State.modCal
  iterate 100 all_goals try
    first
    | intro _
    | with_reducible
        first
        | assumption | apply State.setCal_keeps | apply Keeps.ite | apply Keeps.foldl | (apply Keeps.fst; assumption)
    | simp only [↓Keeps.fields] | split | dsimp only

theorem State.calDiscard_keeps {s t a1} (h : Keeps s t) : Keeps s (State.calDiscard t a1) := by
  unfold State.calDiscard
  iterate 100 all_goals try
    first
    | intro _
    | with_reducible
        first
        | assumption | apply State.set_keeps | apply State.modCal_keeps | apply Keeps.ite | apply Keeps.foldl
        | (apply Keeps.fst; assumption)
    | simp only [↓Keeps.fields] | split | dsimp only

theorem State.calPolicy_keeps {s t a1} (h : Keeps s t) : Keeps s (State.calPolicy t a1) := by
  unfold State.calPolicy
  iterate 100 all_goals try
    first
    | intro _
    | with_reducible
        first
        | assumption | apply State.computeReset_keeps | apply State.err_keeps | apply State.set_keeps
        | apply State.setPair_keeps | apply State.calDiscard_keeps | apply State.nameBoundary_keeps | apply Keeps.ite
        | apply Keeps.foldl | (apply Keeps.fst; assumption)
    | simp only [↓Keeps.fields] | split | dsimp only

theorem State.caliperFault_keeps {s t a1} (h : Keeps s t) : Keeps s (State.caliperFault t a1) := by
  unfold State.caliperFault
  iterate 100 all_goals try
    first
    | intro _
    | with_reducible
        first
        | assumption | apply State.set_keeps | apply State.calPolicy_keeps | apply State.irq_keeps | apply Keeps.ite
        | apply Keeps.foldl | (apply Keeps.fst; assumption)
    | simp only [↓Keeps.fields] | split | dsimp only

theorem State.calStorage_keeps {s t a1 a2 a3 a4} (h : Keeps s t) : Keeps s (State.calStorage t a1 a2 a3 a4) := by
  unfold State.calStorage
  iterate 100 all_goals try
    first
    | intro _
    | with_reducible
        first
        | assumption | apply State.err_keeps | apply State.caliperFault_keeps | apply Keeps.ite | apply Keeps.foldl
        | (apply Keeps.fst; assumption)
    | simp only [↓Keeps.fields] | split | dsimp only

theorem State.injDone_keeps {s t a1} (h : Keeps s t) : Keeps s (State.injDone t a1) := by
  unfold State.injDone
  iterate 100 all_goals try
    first
    | intro _
    | with_reducible
        first
        | assumption | apply State.set_keeps | apply Keeps.ite | apply Keeps.foldl | (apply Keeps.fst; assumption)
    | simp only [↓Keeps.fields] | split | dsimp only

theorem State.calInject_keeps {s t a1} (h : Keeps s t) : Keeps s (State.calInject t a1) := by
  unfold State.calInject
  iterate 100 all_goals try
    first
    | intro _
    | with_reducible
        first
        | assumption | apply State.calStorage_keeps | apply State.injDone_keeps | apply Keeps.ite | apply Keeps.foldl
        | (apply Keeps.fst; assumption)
    | simp only [↓Keeps.fields] | split | dsimp only

theorem State.fold_keeps {s t a1 a2} (h : Keeps s t) : Keeps s (State.fold t a1 a2) := by
  unfold State.fold
  iterate 100 all_goals try
    first
    | intro _
    | with_reducible
        first
        | assumption | apply State.modCal_keeps | apply State.stat_keeps | apply Keeps.ite | apply Keeps.foldl
        | (apply Keeps.fst; assumption)
    | simp only [↓Keeps.fields] | split | dsimp only

theorem State.mismatch_keeps {s t a1 a2 a3} (h : Keeps s t) : Keeps s (State.mismatch t a1 a2 a3) := by
  unfold State.mismatch
  iterate 100 all_goals try
    first
    | intro _
    | with_reducible
        first
        | assumption | apply State.irq_keeps | apply State.set_keeps | apply State.wrn_keeps | apply State.cnt_keeps
        | apply State.setPair_keeps | apply State.modCal_keeps | apply State.calDiscard_keeps | apply State.err_keeps
        | apply State.caliperFault_keeps | apply Keeps.ite | apply Keeps.foldl | (apply Keeps.fst; assumption)
    | simp only [↓Keeps.fields] | split | dsimp only

theorem State.compare_keeps {s t a1 a2} (h : Keeps s t) : Keeps s (State.compare t a1 a2).1 := by
  unfold State.compare
  iterate 100 all_goals try
    first
    | intro _
    | with_reducible
        first
        | assumption | apply State.fold_keeps | apply State.caliperFault_keeps | apply State.err_keeps
        | apply State.injDone_keeps | apply State.mismatch_keeps | apply Keeps.ite | apply Keeps.foldl
        | (apply Keeps.fst; assumption)
    | simp only [↓Keeps.fields] | split | dsimp only

theorem calCkptEff_keeps {s a0 a1 t} (h : Keeps s t) : Keeps s (calCkptEff a0 a1 t) := by
  unfold calCkptEff
  iterate 100 all_goals try
    first
    | intro _
    | with_reducible
        first
        | assumption | apply State.plain_keeps | apply State.set_keeps | apply Keeps.ite | apply Keeps.foldl
        | (apply Keeps.fst; assumption)
    | simp only [↓Keeps.fields] | split | dsimp only

theorem calCntClrEff_keeps {s a0 a1 t} (h : Keeps s t) : Keeps s (calCntClrEff a0 a1 t) := by
  unfold calCntClrEff
  iterate 100 all_goals try
    first
    | intro _
    | with_reducible
        first
        | assumption | apply State.wr_keeps | apply State.modCal_keeps | apply State.set_keeps | apply Keeps.ite
        | apply Keeps.foldl | (apply Keeps.fst; assumption)
    | simp only [↓Keeps.fields] | split | dsimp only

theorem State.ainClear_keeps {s t} (h : Keeps s t) : Keeps s (State.ainClear t) := by
  unfold State.ainClear
  iterate 100 all_goals try
    first
    | intro _
    | with_reducible
        first
        | assumption | apply Keeps.ainsReset | apply Keeps.ite | apply Keeps.foldl | (apply Keeps.fst; assumption)
    | simp only [↓Keeps.fields] | split | dsimp only

theorem State.busRelease_keeps {s t a1} (h : Keeps s t) : Keeps s (State.busRelease t a1) := by
  unfold State.busRelease
  iterate 100 all_goals try
    first
    | intro _
    | with_reducible
        first
        | assumption | apply State.emit_keeps | apply Keeps.ite | apply Keeps.foldl | (apply Keeps.fst; assumption)
    | simp only [↓Keeps.fields] | split | dsimp only

theorem State.canRegs_keeps {s t a1} (h : Keeps s t) : Keeps s (State.canRegs t a1) := by
  unfold State.canRegs
  iterate 100 all_goals try
    first
    | intro _
    | with_reducible
        first
        | assumption | apply State.set_keeps | apply State.wrn_keeps | apply Keeps.ite | apply Keeps.foldl
        | (apply Keeps.fst; assumption)
    | simp only [↓Keeps.fields] | split | dsimp only

theorem State.dinClear_keeps {s t a1} (h : Keeps s t) : Keeps s (State.dinClear t a1) := by
  unfold State.dinClear
  iterate 100 all_goals try
    first
    | intro _
    | with_reducible
        first
        | assumption | apply Keeps.dinMap | apply Keeps.ite | apply Keeps.foldl | (apply Keeps.fst; assumption)
    | simp only [↓Keeps.fields] | split | dsimp only

theorem State.dropSource_keeps {s t a1} (h : Keeps s t) : Keeps s (State.dropSource t a1) := by
  unfold State.dropSource
  iterate 100 all_goals try
    first
    | intro _
    | with_reducible
        first
        | assumption | apply State.dropXlats_keeps | apply Keeps.ite | apply Keeps.foldl
        | (apply Keeps.fst; assumption)
    | simp only [↓Keeps.fields] | split | dsimp only

theorem State.hinClear_keeps {s t a1} (h : Keeps s t) : Keeps s (State.hinClear t a1) := by
  unfold State.hinClear
  iterate 100 all_goals try
    first
    | intro _
    | with_reducible
        first
        | assumption | apply Keeps.ite | apply Keeps.foldl | (apply Keeps.fst; assumption)
    | simp only [↓Keeps.fields] | split | dsimp only

theorem State.linRegs_keeps {s t a1} (h : Keeps s t) : Keeps s (State.linRegs t a1) := by
  unfold State.linRegs
  iterate 100 all_goals try
    first
    | intro _
    | with_reducible
        first
        | assumption | apply State.set_keeps | apply State.wrn_keeps | apply Keeps.ite | apply Keeps.foldl
        | (apply Keeps.fst; assumption)
    | simp only [↓Keeps.fields] | split | dsimp only

theorem State.stbRest_keeps {s t a1 a2} (h : Keeps s t) : Keeps s (State.stbRest t a1 a2) := by
  unfold State.stbRest
  iterate 100 all_goals try
    first
    | intro _
    | with_reducible
        first
        | assumption | apply State.emit_keeps | apply Keeps.ite | apply Keeps.foldl | (apply Keeps.fst; assumption)
    | simp only [↓Keeps.fields] | split | dsimp only

theorem State.partClear_keeps {s t a1} (h : Keeps s t) : Keeps s (State.partClear t a1) := by
  unfold State.partClear
  iterate 100 all_goals try
    first
    | intro _
    | with_reducible
        first
        | assumption | apply State.resetPage_keeps | apply State.receiverReset_keeps | apply State.hinClear_keeps
        | apply State.gwClear_keeps | apply State.stbRest_keeps | apply State.canRegs_keeps
        | apply State.canClear_keeps | apply State.linRegs_keeps | apply State.linClear_keeps
        | apply State.lswSoftReset_keeps | apply State.dinWake_keeps | apply State.dinClear_keeps
        | apply State.ainClear_keeps | apply Keeps.ite | apply Keeps.foldl | (apply Keeps.fst; assumption)
    | simp only [↓Keeps.fields] | split | dsimp only

theorem State.partEnd_keeps {s t a1 a2} (h : Keeps s t) : Keeps s (State.partEnd t a1 a2) := by
  unfold State.partEnd
  iterate 100 all_goals try
    first
    | intro _
    | with_reducible
        first
        | assumption | apply State.set_keeps | apply State.partClear_keeps | apply State.dropSource_keeps
        | apply State.irq_keeps | apply State.wrn_keeps | apply Keeps.ite | apply Keeps.foldl
        | (apply Keeps.fst; assumption)
    | simp only [↓Keeps.fields] | split | dsimp only

theorem State.partStop_keeps {s t a1} (h : Keeps s t) : Keeps s (State.partStop t a1) := by
  unfold State.partStop
  iterate 100 all_goals try
    first
    | intro _
    | with_reducible
        first
        | assumption | apply State.receiverReset_keeps | apply State.gwClear_keeps | apply State.cnt32_keeps
        | apply State.turnOff_keeps | apply Keeps.ite | apply Keeps.foldl | (apply Keeps.fst; assumption)
    | simp only [↓Keeps.fields] | split | dsimp only

theorem State.partStart_keeps {s t a1 a2} (h : Keeps s t) : Keeps s (State.partStart t a1 a2) := by
  unfold State.partStart
  iterate 100 all_goals try
    first
    | intro _
    | with_reducible
        first
        | assumption | apply State.refused_keeps | apply State.err_keeps | apply State.set_keeps
        | apply State.ok_keeps | apply State.partStop_keeps | apply Keeps.ite | apply Keeps.foldl
        | (apply Keeps.fst; assumption)
    | simp only [↓Keeps.fields] | split | dsimp only

theorem State.partWrite_keeps {s t a1 a2 a3} (h : Keeps s t) : Keeps s (State.partWrite t a1 a2 a3) := by
  unfold State.partWrite
  iterate 100 all_goals try
    first
    | intro _
    | with_reducible
        first
        | assumption | apply State.refused_keeps | apply State.refuseWrite_keeps | apply State.partStart_keeps
        | apply State.regWrite_keeps | apply State.plain_keeps | apply Keeps.ite | apply Keeps.foldl
        | (apply Keeps.fst; assumption)
    | simp only [↓Keeps.fields] | split | dsimp only

theorem State.softRegs_keeps {s t a1} (h : Keeps s t) : Keeps s (State.softRegs t a1) := by
  unfold State.softRegs
  iterate 100 all_goals try
    first
    | intro _
    | with_reducible
        first
        | assumption | apply State.set_keeps | apply State.resetPage_keeps | apply Keeps.ite | apply Keeps.foldl
        | (apply Keeps.fst; assumption)
    | simp only [↓Keeps.fields] | split | dsimp only

theorem State.softReset_keeps {s t a1} (h : Keeps s t) : Keeps s (State.softReset t a1) := by
  unfold State.softReset
  iterate 100 all_goals try
    first
    | intro _
    | with_reducible
        first
        | assumption | apply State.softRegs_keeps | apply State.set_keeps | apply State.resetCore_keeps
        | apply State.receiverReset_keeps | apply State.countPending_keeps | apply State.lagStat_keeps
        | apply State.copyFill_keeps | apply State.splFill_keeps | apply State.hinClear_keeps
        | apply State.gwClear_keeps | apply State.stbRest_keeps | apply State.canRegs_keeps
        | apply State.canClear_keeps | apply State.linRegs_keeps | apply State.linClear_keeps
        | apply State.lswSoftReset_keeps | apply State.pdcSoftReset_keeps | apply State.dinWake_keeps
        | apply State.dinClear_keeps | apply State.ainClear_keeps | apply State.twlWritten_keeps
        | apply State.roleEnable_keeps | apply State.norDone_keeps | apply State.each_keeps
        | apply State.logSoftReset_keeps | apply State.showFifo_keeps | apply State.plateSoftReset_keeps
        | apply Keeps.ite | apply Keeps.foldl | (apply Keeps.fst; assumption)
    | simp only [↓Keeps.fields, ↓Keeps.fieldsTb] | split | dsimp only

theorem State.softResetDone_keeps {s t a1} (h : Keeps s t) : Keeps s (State.softResetDone t a1) := by
  unfold State.softResetDone
  iterate 100 all_goals try
    first
    | intro _
    | with_reducible
        first
        | assumption | apply State.set_keeps | apply State.softRegs_keeps | apply Keeps.ite | apply Keeps.foldl
        | (apply Keeps.fst; assumption)
    | simp only [↓Keeps.fields, ↓Keeps.fieldsTb] | split | dsimp only

-- hook

theorem rsEff_keeps {s a0 a1 t} (h : Keeps s t) : Keeps s (rsEff a0 a1 t) := by
  unfold rsEff
  iterate 100 all_goals try
    first
    | intro _
    | with_reducible
        first
        | assumption | apply takeEff_keeps | apply objRelEff_keeps | apply psrEff_keeps | apply rxPopEff_keeps
        | apply logTakeEff_keeps | apply ptpPop_keeps | apply Keeps.ite | apply Keeps.foldl
        | (apply Keeps.fst; assumption)
    | simp only [↓Keeps.fields] | split | dsimp only

theorem State.fetchReg_keeps {s t a1 a2 a3} (h : Keeps s t) : Keeps s (State.fetchReg t a1 a2 a3) := by
  unfold State.fetchReg
  refine State.regRead_keeps h fun x k => ?_
  split
  · exact k
  · exact rsEff_keeps k

theorem State.holdMeasures_keeps {s t a1} (h : Keeps s t) : Keeps s (State.holdMeasures t a1) := by
  unfold State.holdMeasures
  iterate 100 all_goals try
    first
    | intro _
    | with_reducible
        first
        | assumption | apply State.set_keeps | apply State.wr_keeps | apply Keeps.ite | apply Keeps.foldl
        | (apply Keeps.fst; assumption)
    | simp only [↓Keeps.fields] | split | dsimp only

theorem blkCtrlEff_keeps {s a0 a1 t} (h : Keeps s t) : Keeps s (blkCtrlEff a0 a1 t) := by
  unfold blkCtrlEff
  iterate 100 all_goals try
    first
    | intro _
    | with_reducible
        first
        | assumption | apply State.plain_keeps | apply State.set_keeps | apply State.armPlate_keeps
        | apply State.twlWritten_keeps | apply State.roleEnable_keeps | apply State.holdMeasures_keeps
        | apply State.softReset_keeps | apply Keeps.ite | apply Keeps.foldl | (apply Keeps.fst; assumption)
    | simp only [↓Keeps.fields] | split | dsimp only

theorem clkReqEff_keeps {s a0 a1 t} (h : Keeps s t) : Keeps s (clkReqEff a0 a1 t) := by
  unfold clkReqEff
  iterate 100 all_goals try
    first
    | intro _
    | with_reducible
        first
        | assumption | apply State.plain_keeps | apply Keeps.ite | apply Keeps.foldl | (apply Keeps.fst; assumption)
    | simp only [↓Keeps.fields] | split | dsimp only

theorem errCapEff_keeps {s a0 a1 t} (h : Keeps s t) : Keeps s (errCapEff a0 a1 t) := by
  unfold errCapEff
  iterate 100 all_goals try
    first
    | intro _
    | with_reducible
        first
        | assumption | apply State.wr_keeps | apply Keeps.ite | apply Keeps.foldl | (apply Keeps.fst; assumption)
    | simp only [↓Keeps.fields] | split | dsimp only

theorem errInjEff_keeps {s a0 a1 t} (h : Keeps s t) : Keeps s (errInjEff a0 a1 t) := by
  unfold errInjEff
  iterate 100 all_goals try
    first
    | intro _
    | with_reducible
        first
        | assumption | apply State.plain_keeps | apply State.calInject_keeps | apply State.err_keeps
        | apply State.set_keeps | apply Keeps.ite | apply Keeps.foldl | (apply Keeps.fst; assumption)
    | simp only [↓Keeps.fields] | split | dsimp only

theorem intSetEff_keeps {s a0 a1 t} (h : Keeps s t) : Keeps s (intSetEff a0 a1 t) := by
  unfold intSetEff
  iterate 100 all_goals try
    first
    | intro _
    | with_reducible
        first
        | assumption | apply State.wr_keeps | apply Keeps.ite | apply Keeps.foldl | (apply Keeps.fst; assumption)
    | simp only [↓Keeps.fields] | split | dsimp only

theorem ownerEff_keeps {s a0 a1 t} (h : Keeps s t) : Keeps s (ownerEff a0 a1 t) := by
  unfold ownerEff
  iterate 100 all_goals try
    first
    | intro _
    | with_reducible
        first
        | assumption | apply State.dropSource_keeps | apply State.plain_keeps | apply State.set_keeps
        | apply Keeps.ite | apply Keeps.foldl | (apply Keeps.fst; assumption)
    | simp only [↓Keeps.fields] | split | dsimp only

theorem Hook.ite_keeps {s t : State} {x y : Hook} {c : Prop} [Decidable c] (hx : Keeps s (x.eff t)) (hy :
    Keeps s (y.eff t)) :
    Keeps s ((if c then x else y).eff t) := by split <;> assumption

theorem headerHook_keeps {s t p off v} (h : Keeps s t) : Keeps s ((headerHook p off v).eff t) := by
  unfold headerHook
  iterate 40 all_goals try
    first
    | with_reducible
        first
        | assumption | apply State.plain_keeps | apply blkCtrlEff_keeps | apply clkReqEff_keeps
        | apply errCapEff_keeps | apply errInjEff_keeps | apply intSetEff_keeps | apply ownerEff_keeps
    | split | dsimp only [does, id]

theorem coreHook_keeps {s t ty p off v} (h : Keeps s t) : Keeps s ((coreHook ty p off v).eff t) := by
  unfold coreHook
  iterate 40 all_goals try
    first
    | with_reducible
        first
        | assumption | apply State.plain_keeps | apply coreCtrlEff_keeps | apply lineEff_keeps
        | apply mbDbgDataEff_keeps | apply mbDbgSendEff_keeps | apply mbxCntClrEff_keeps | apply swraiseEff_keeps
    | split | dsimp only [does, id]

theorem switchHook_keeps {s t ty p off v} (h : Keeps s t) : Keeps s ((switchHook ty p off v).eff t) := by
  unfold switchHook
  iterate 40 all_goals try
    first
    | with_reducible
        first
        | assumption | apply State.plain_keeps | apply splCntClrEff_keeps | apply gclCommitEff_keeps
        | apply taCmdEff_keeps | apply portCntClrEff_keeps | apply portPlain_keeps | apply portPreEff_keeps
        | apply selectionEff_keeps | apply swcCntClrEff_keeps | apply swcCtrlEff_keeps | apply swcCopyEff_keeps
        | apply bufWredSeedEff_keeps | apply splBwEff_keeps
    | split | dsimp only [does, id]

theorem ringHook_keeps {s t p i off v} (h : Keeps s t) : Keeps s ((ringHook p i off v).eff t) := by
  unfold ringHook
  iterate 40 all_goals try
    first
    | with_reducible
        first
        | assumption | apply State.plain_keeps | apply ringCtrlEff_keeps
    | split | dsimp only [does, id]

theorem hostHook_keeps {s t a p off v} (h : Keeps s t) : Keeps s ((hostHook a p off v).eff t) := by
  unfold hostHook
  iterate 40 all_goals try
    first
    | with_reducible
        first
        | assumption | apply State.plain_keeps | apply dplCtrlEff_keeps | apply quiesceEff_keeps | apply tmEff_keeps
        | apply ringHook_keeps | apply hinTxRateEff_keeps
    | split | dsimp only [does, id]

theorem objHook_keeps {s t n off v} (h : Keeps s t) : Keeps s ((objHook n off v).eff t) := by
  unfold objHook
  iterate 40 all_goals try
    first
    | with_reducible
        first
        | assumption | apply State.plain_keeps | apply objCtrlEff_keeps
    | split | dsimp only [does, id]

theorem busHook_keeps {s t ty p off v} (h : Keeps s t) : Keeps s ((busHook ty p off v).eff t) := by
  unfold busHook
  iterate 40 all_goals try
    first
    | with_reducible
        first
        | assumption | apply State.plain_keeps | apply taCmdEff_keeps | apply cxCtrlEff_keeps | apply winSelEff_keeps
        | apply winWriteEff_keeps | apply lnCtrlEff_keeps | apply pegCntClrEff_keeps | apply objHook_keeps
        | apply cxXcvrEff_keeps | apply lnRspEff_keeps
    | split | dsimp only [does, id]

theorem loadHook_keeps {s t ty p off v} (h : Keeps s t) : Keeps s ((loadHook ty p off v).eff t) := by
  unfold loadHook
  iterate 40 all_goals try
    first
    | with_reducible
        first
        | assumption | apply State.plain_keeps | apply lswCtrlEff_keeps | apply lswCntClrEff_keeps
        | apply lswSnsClrEff_keeps | apply pdcOutImgEff_keeps | apply lswHoldEff_keeps | apply pdcCntClrEff_keeps
        | apply pdcHoldEff_keeps | apply pdcLhEff_keeps | apply pdcSnsEff_keeps
    | split | dsimp only [does, id]

theorem inputHook_keeps {s t ty p off v} (h : Keeps s t) : Keeps s ((inputHook ty p off v).eff t) := by
  unfold inputHook
  iterate 40 all_goals try
    first
    | with_reducible
        first
        | assumption | apply State.plain_keeps | apply digCntClrEff_keeps | apply State.dinWake_keeps
    | split | dsimp only [does, id]

theorem twinHook_keeps {s t a ty p off v} (h : Keeps s t) : Keeps s ((twinHook a ty p off v).eff t) := by
  unfold twinHook
  iterate 40 all_goals try
    first
    | with_reducible
        first
        | assumption | apply State.plain_keeps | apply brCntClrEff_keeps | apply tbrCmdEff_keeps
        | apply twrCntClrEff_keeps | apply twrCtrlEff_keeps | apply twrTwcCmdEff_keeps | apply migCtrlEff_keeps
        | apply twlCntClrEff_keeps | apply twlCtrlEff_keeps
    | split | dsimp only [does, id]

theorem guardHook_keeps {s t ty p off v} (h : Keeps s t) : Keeps s ((guardHook ty p off v).eff t) := by
  unfold guardHook
  iterate 40 all_goals try
    first
    | with_reducible
        first
        | assumption | apply State.plain_keeps | apply isoTraceEff_keeps | apply iomInvEff_keeps
        | apply secTtbEff_keeps | apply vmcInvEff_keeps | apply iomFltClrEff_keeps | apply vmcClrEff_keeps
        | apply calCkptEff_keeps | apply calCntClrEff_keeps
    | split | dsimp only [does, id]

theorem memoryHook_keeps {s t a ty p off v} (h : Keeps s t) : Keeps s ((memoryHook a ty p off v).eff t) := by
  unfold memoryHook
  iterate 40 all_goals try
    first
    | with_reducible
        first
        | assumption | apply State.plain_keeps | apply norEff_keeps | apply dmcCntClrEff_keeps
        | apply fusProgEff_keeps | apply norCntClrEff_keeps
    | split | dsimp only [does, id]

theorem capHook_keeps {s t a p off v} (h : Keeps s t) : Keeps s ((capHook a p off v).eff t) := by
  unfold capHook
  iterate 40 all_goals try
    first
    | with_reducible
        first
        | assumption | apply State.plain_keeps | apply capGoEff_keeps | apply capSaveEff_keeps
        | apply capCtrEff_keeps
    | split | dsimp only [does, id]

theorem secureHook_keeps {s t a ty p off v} (h : Keeps s t) : Keeps s ((secureHook a ty p off v).eff t) := by
  unfold secureHook
  iterate 40 all_goals try
    first
    | with_reducible
        first
        | assumption | apply State.plain_keeps | apply attCtrlEff_keeps | apply attExtEff_keeps
        | apply cryCtrlEff_keeps | apply lcsCtrlEff_keeps | apply secGoEff_keeps | apply capHook_keeps
    | split | dsimp only [does, id]

theorem clockHook_keeps {s t a ty p off v} (h : Keeps s t) : Keeps s ((clockHook a ty p off v).eff t) := by
  unfold clockHook
  iterate 40 all_goals try
    first
    | with_reducible
        first
        | assumption | apply State.plain_keeps | apply rstKickEff_keeps | apply rstReqEff_keeps
        | apply rstWdgEff_keeps | apply clkAcDivEff_keeps | apply pwrDomEff_keeps | apply vfsCtrlEff_keeps
        | apply vfsReqEff_keeps | apply slpCntClrEff_keeps | apply slpCtrlEff_keeps | apply slpModeReqEff_keeps
        | apply slpNodeCfgEff_keeps | apply slpPartPortsEff_keeps | apply slpVoteEff_keeps | apply slpWakeEff_keeps
    | split | dsimp only [does, id]

theorem healthHook_keeps {s t ty p off v} (h : Keeps s t) : Keeps s ((healthHook ty p off v).eff t) := by
  unfold healthHook
  iterate 40 all_goals try
    first
    | with_reducible
        first
        | assumption | apply State.plain_keeps | apply tmbSnapEff_keeps | apply tmbStepEff_keeps
        | apply ixpCtrlEff_keeps | apply fagCntClrEff_keeps | apply fagDoneEff_keeps | apply logCtrlEff_keeps
        | apply honCtrlEff_keeps
    | split | dsimp only [does, id]

theorem regHook_keeps {s t a p off v} (h : Keeps s t) : Keeps s ((regHook a p off v).eff t) := by
  unfold regHook
  with_reducible repeat'
    first
    | apply Hook.ite_keeps | exact headerHook_keeps h | exact coreHook_keeps h | exact hostHook_keeps h
    | exact switchHook_keeps h | exact busHook_keeps h | exact loadHook_keeps h | exact inputHook_keeps h
    | exact twinHook_keeps h | exact guardHook_keeps h | exact memoryHook_keeps h | exact secureHook_keeps h
    | exact clockHook_keeps h | exact healthHook_keeps h

theorem State.writeReg_keeps {s t a1 a2 a3 a4} (h : Keeps s t) : Keeps s (State.writeReg t a1 a2 a3 a4) := by
  unfold State.writeReg
  exact Keeps.ite (State.partWrite_keeps h) (State.regWrite_keeps h fun _ k => regHook_keeps k)

theorem State.accessAt_keeps {s t a1 a2 a3 a4} (h : Keeps s t) : Keeps s (State.accessAt t a1 a2 a3 a4) := by
  unfold State.accessAt
  iterate 100 all_goals try
    first
    | intro _
    | with_reducible
        first
        | assumption | apply State.writeReg_keeps | apply State.fetchReg_keeps | apply State.physAccess_keeps
        | apply Keeps.ite | apply Keeps.foldl | (apply Keeps.fst; assumption)
    | simp only [↓Keeps.fields] | split | dsimp only

theorem State.reach_keeps {s t a1 a2 a3} (h : Keeps s t) : Keeps s (State.reach t a1 a2 a3).1 := by
  unfold State.reach
  iterate 100 all_goals try
    first
    | intro _
    | with_reducible
        first
        | assumption | apply State.coreTranslate_keeps | apply Keeps.ite | apply Keeps.foldl
        | (apply Keeps.fst; assumption)
    | simp only [↓Keeps.fields] | split | dsimp only

theorem State.memAccess_keeps {s t a1 a2 a3 a4} (h : Keeps s t) : Keeps s (State.memAccess t a1 a2 a3 a4) := by
  unfold State.memAccess
  iterate 100 all_goals try
    first
    | intro _
    | with_reducible
        first
        | assumption | apply State.refused_keeps | apply State.reach_keeps | apply State.accessAt_keeps
        | apply Keeps.ite | apply Keeps.foldl | (apply Keeps.fst; assumption)
    | simp only [↓Keeps.fields] | split | dsimp only

theorem State.writeOwn_keeps {s t a1 a2} (h : Keeps s t) : Keeps s (State.writeOwn t a1 a2) := by
  unfold State.writeOwn
  iterate 100 all_goals try
    first
    | intro _
    | with_reducible
        first
        | assumption | apply State.refused_keeps | apply State.ok_keeps | apply State.modCore_keeps | apply Keeps.ite
        | apply Keeps.foldl | (apply Keeps.fst; assumption)
    | simp only [↓Keeps.fields] | split | dsimp only

theorem State.serve_keeps {s t a1 a2 a3} (h : Keeps s t) : Keeps s (State.serve t a1 a2 a3).1 := by
  unfold State.serve
  iterate 100 all_goals try
    first
    | intro _
    | with_reducible
        first
        | assumption | apply State.accessAt_keeps | apply State.took_keeps | apply Keeps.ite | apply Keeps.foldl
        | (apply Keeps.fst; assumption)
    | simp only [↓Keeps.fields] | split | dsimp only

theorem State.dieRequest_keeps {s t a1 a2 a3} (h : Keeps s t) : Keeps s (State.dieRequest t a1 a2 a3).1 := by
  unfold State.dieRequest
  iterate 100 all_goals try
    first
    | intro _
    | with_reducible
        first
        | assumption | apply State.serve_keeps | apply State.unmapped_keeps | apply Keeps.ite | apply Keeps.foldl
        | (apply Keeps.fst; assumption)
    | simp only [↓Keeps.fields] | split | dsimp only

theorem State.twinRequest_keeps {s t a1 a2} (h : Keeps s t) : Keeps s (State.twinRequest t a1 a2).1 := by
  unfold State.twinRequest
  iterate 100 all_goals try
    first
    | intro _
    | with_reducible
        first
        | assumption | apply State.refused_keeps | apply State.translate_keeps | apply State.serve_keeps
        | apply State.took_keeps | apply State.dmaFaulted_keeps | apply State.unmapped_keeps | apply Keeps.ite
        | apply Keeps.foldl | (apply Keeps.fst; assumption)
    | simp only [↓Keeps.fields] | split | dsimp only

theorem State.serveFor_keeps {s t a1 a2 a3} (h : Keeps s t) : Keeps s (State.serveFor t a1 a2 a3).1 := by
  unfold State.serveFor
  iterate 100 all_goals try
    first
    | intro _
    | with_reducible
        first
        | assumption | apply State.dieRequest_keeps | apply State.twinRequest_keeps | apply Keeps.ite
        | apply Keeps.foldl | (apply Keeps.fst; assumption)
    | simp only [↓Keeps.fields] | split | dsimp only

theorem State.readIn_keeps {s t a1 a2} (h : Keeps s t) : Keeps s (State.readIn t a1 a2) := by
  unfold State.readIn
  iterate 100 all_goals try
    first
    | intro _
    | with_reducible
        first
        | assumption | apply State.serveFor_keeps | apply State.sendRsv_keeps | apply Keeps.ite | apply Keeps.foldl
        | (apply Keeps.fst; assumption)
    | simp only [↓Keeps.fields] | split | dsimp only

theorem State.writeIn_keeps {s t a1 a2 a3 a4} (h : Keeps s t) : Keeps s (State.writeIn t a1 a2 a3 a4) := by
  unfold State.writeIn
  iterate 100 all_goals try
    first
    | intro _
    | with_reducible
        first
        | assumption | apply State.serveFor_keeps | apply State.sendRsv_keeps | apply Keeps.ite | apply Keeps.foldl
        | (apply Keeps.fst; assumption)
    | simp only [↓Keeps.fields] | split | dsimp only

theorem after_keeps {s t : State} {o : Host.Outcome State Fault Refusal} (h : Keeps s t) (k : ∀ u, o = .next u → Keeps s u) :
    Keeps s (after t o) := by
  cases o with
  | next u => exact k u rfl
  | fault _ => exact h
  | refused _ => exact h

theorem State.accessPacket_keeps {s t a1 a2 a3} (h : Keeps s t) : Keeps s (State.accessPacket t a1 a2 a3) := by
  unfold State.accessPacket
  iterate 100 all_goals try
    first
    | intro _
    | with_reducible
        first
        | assumption | apply State.readIn_keeps | apply State.writeIn_keeps | apply after_keeps | apply Keeps.ite
        | apply Keeps.foldl | (apply Keeps.fst; assumption) | apply after_keeps
        | refine execReadCompletion_keeps ?_ _ (by assumption)
        | refine execWriteCompletion_keeps ?_ _ (by assumption)
        | refine execPostedWriteErrorNotice_keeps ?_ _ (by assumption)
    | simp only [↓Keeps.fields] | split | dsimp only

theorem State.twinPacket_keeps {s t a1 a2} (h : Keeps s t) : Keeps s (State.twinPacket t a1 a2) := by
  unfold State.twinPacket
  iterate 100 all_goals try
    first
    | intro _
    | with_reducible
        first
        | assumption | apply after_keeps | apply Keeps.ite | apply Keeps.foldl | (apply Keeps.fst; assumption)
        | apply after_keeps | refine execInputImagePacket_keeps ?_ _ (by assumption)
        | refine execOutputImagePacket_keeps ?_ _ (by assumption)
        | refine execPlateAnnouncement_keeps ?_ _ (by assumption)
        | refine execPairingPacket_keeps ?_ _ (by assumption) | refine execHandoverPacket_keeps ?_ _ (by assumption)
        | refine execCheckpointMirrorPacket_keeps ?_ _ (by assumption)
        | refine execMigrationPage_keeps ?_ _ (by assumption)
        | refine execMigrationControl_keeps ?_ _ (by assumption)
    | simp only [↓Keeps.fields] | split | dsimp only

theorem State.packetIn_keeps {s t a1 a2} (h : Keeps s t) : Keeps s (State.packetIn t a1 a2) := by
  unfold State.packetIn
  iterate 100 all_goals try
    first
    | intro _
    | with_reducible
        first
        | assumption | apply State.accessPacket_keeps | apply State.twinPacket_keeps | apply Keeps.ite
        | apply Keeps.foldl | (apply Keeps.fst; assumption)
    | simp only [↓Keeps.fields] | split | dsimp only

theorem State.close_keeps {s t a1 a2 a3} (h : Keeps s t) : Keeps s (State.close t a1 a2 a3) := by
  unfold State.close
  iterate 100 all_goals try
    first
    | intro _
    | with_reducible
        first
        | assumption | apply State.trigger_keeps | apply State.modCal_keeps | apply Keeps.ite | apply Keeps.foldl
        | (apply Keeps.fst; assumption)
    | simp only [↓Keeps.fields] | split | dsimp only

theorem State.holdPeriph_keeps {s t a1 a2 a3 a4} (h : Keeps s t) : Keeps s (State.holdPeriph t a1 a2 a3 a4) := by
  unfold State.holdPeriph
  iterate 100 all_goals try
    first
    | intro _
    | with_reducible
        first
        | assumption | apply State.holdEntry_keeps | apply State.ok_keeps | apply State.trigger_keeps
        | apply Keeps.ite | apply Keeps.foldl | (apply Keeps.fst; assumption)
    | simp only [↓Keeps.fields] | split | dsimp only

theorem State.holdWord_keeps {s t a1 a2 a3 a4 a5} (h : Keeps s t) : Keeps s (State.holdWord t a1 a2 a3 a4 a5) := by
  unfold State.holdWord
  iterate 100 all_goals try
    first
    | intro _
    | with_reducible
        first
        | assumption | apply State.modCal_keeps | apply State.holdEntry_keeps | apply Keeps.ite | apply Keeps.foldl
        | (apply Keeps.fst; assumption)
    | simp only [↓Keeps.fields] | split | dsimp only

theorem State.holdStore_keeps {s t a1 a2 a3 a4} (h : Keeps s t) : Keeps s (State.holdStore t a1 a2 a3 a4) := by
  unfold State.holdStore
  iterate 100 all_goals try
    first
    | intro _
    | with_reducible
        first
        | assumption | apply State.ok_keeps | apply State.each_keeps | apply State.holdWord_keeps | apply Keeps.ite
        | apply Keeps.foldl | (apply Keeps.fst; assumption)
    | simp only [↓Keeps.fields] | split | dsimp only

theorem State.issueClosing_keeps {s t a1} (h : Keeps s t) : Keeps s (State.issueClosing t a1) := by
  unfold State.issueClosing
  iterate 100 all_goals try
    first
    | intro _
    | with_reducible
        first
        | assumption | apply State.accessAt_keeps | apply State.ok_keeps | apply Keeps.ite | apply Keeps.foldl
        | (apply Keeps.fst; assumption)
    | simp only [↓Keeps.fields] | split | dsimp only

theorem State.pairLoad_keeps {s t a1 a2 a3} (h : Keeps s t) : Keeps s (State.pairLoad t a1 a2 a3) := by
  unfold State.pairLoad
  iterate 100 all_goals try
    first
    | intro _
    | with_reducible
        first
        | assumption | apply State.reach_keeps | apply State.refused_keeps | apply State.close_keeps
        | apply State.trigger_keeps | apply State.accessAt_keeps | apply State.ok_keeps | apply Keeps.ite
        | apply Keeps.foldl | (apply Keeps.fst; assumption)
    | simp only [↓Keeps.fields] | split | dsimp only

theorem State.pairStore_keeps {s t a1 a2 a3 a4} (h : Keeps s t) : Keeps s (State.pairStore t a1 a2 a3 a4) := by
  unfold State.pairStore
  iterate 100 all_goals try
    first
    | intro _
    | with_reducible
        first
        | assumption | apply State.reach_keeps | apply State.refused_keeps | apply State.holdPeriph_keeps
        | apply State.holdStore_keeps | apply State.regionRefuse_keeps | apply Keeps.ite | apply Keeps.foldl
        | (apply Keeps.fst; assumption)
    | simp only [↓Keeps.fields] | split | dsimp only

theorem State.releaseError_keeps {s t a1 a2} (h : Keeps s t) : Keeps s (State.releaseError t a1 a2) := by
  unfold State.releaseError
  iterate 100 all_goals try
    first
    | intro _
    | with_reducible
        first
        | assumption | apply State.cnt_keeps | apply State.err_keeps | apply State.irq_keeps | apply Keeps.ite
        | apply Keeps.foldl | (apply Keeps.fst; assumption)
    | simp only [↓Keeps.fields] | split | dsimp only

theorem State.releaseRun_keeps {s t a1 a2 a3 a4} (h : Keeps s t) : Keeps s (State.releaseRun t a1 a2 a3 a4) := by
  unfold State.releaseRun
  iterate 100 all_goals try
    first
    | intro _
    | with_reducible
        first
        | assumption | apply State.physAccess_keeps | apply State.mirrorStore_keeps | apply State.releaseError_keeps
        | apply Keeps.ite | apply Keeps.foldl | (apply Keeps.fst; assumption)
    | simp only [↓Keeps.fields] | split | dsimp only

theorem State.releaseEntry_keeps {s t a1 a2} (h : Keeps s t) : Keeps s (State.releaseEntry t a1 a2) := by
  unfold State.releaseEntry
  iterate 100 all_goals try
    first
    | intro _
    | with_reducible
        first
        | assumption | apply State.each_keeps | apply State.releaseRun_keeps | apply State.writeReg_keeps
        | apply State.unmapped_keeps | apply State.releaseError_keeps | apply State.coreSend_keeps | apply Keeps.ite
        | apply Keeps.foldl | (apply Keeps.fst; assumption)
    | simp only [↓Keeps.fields] | split | dsimp only

theorem State.releaseAll_keeps {s t a1} (h : Keeps s t) : Keeps s (State.releaseAll t a1) := by
  unfold State.releaseAll
  iterate 100 all_goals try
    first
    | intro _
    | with_reducible
        first
        | assumption | apply State.set_keeps | apply State.modCal_keeps | apply State.each_keeps
        | apply State.releaseEntry_keeps | apply State.outputsReleased_keeps | apply Keeps.ite | apply Keeps.foldl
        | (apply Keeps.fst; assumption)
    | simp only [↓Keeps.fields] | split | dsimp only

theorem State.writeSlot_keeps {s t a1 a2 a3 a4} (h : Keeps s t) : Keeps s (State.writeSlot t a1 a2 a3 a4) := by
  unfold State.writeSlot
  iterate 100 all_goals try
    first
    | intro _
    | with_reducible
        first
        | assumption | apply State.modCal_keeps | apply State.setBytes_keeps | apply State.set_keeps
        | apply State.cntWrap_keeps | apply State.irq_keeps | apply State.countEvent_keeps | apply Keeps.ite
        | apply Keeps.foldl | (apply Keeps.fst; assumption)
    | simp only [↓Keeps.fields] | split | dsimp only

theorem State.takeCheckpoint_keeps {s t a1 a2} (h : Keeps s t) : Keeps s (State.takeCheckpoint t a1 a2) := by
  unfold State.takeCheckpoint
  iterate 100 all_goals try
    first
    | intro _
    | with_reducible
        first
        | assumption | apply State.releaseAll_keeps | apply State.issueClosing_keeps | apply State.writeSlot_keeps
        | apply Keeps.ite | apply Keeps.foldl | (apply Keeps.fst; assumption)
    | simp only [↓Keeps.fields] | split | dsimp only

theorem State.busEdge_keeps {s t a1 a2} (h : Keeps s t) : Keeps s (State.busEdge t a1 a2) := by
  unfold State.busEdge
  iterate 100 all_goals try
    first
    | intro _
    | with_reducible
        first
        | assumption | apply State.each_keeps | apply State.guardEnds_keeps | apply State.refEdge_keeps
        | apply State.linEdge_keeps | apply Keeps.ite | apply Keeps.foldl | (apply Keeps.fst; assumption)
    | simp only [↓Keeps.fields] | split | dsimp only

theorem State.cycleEdge_keeps {s t a1} (h : Keeps s t) : Keeps s (State.cycleEdge t a1) := by
  unfold State.cycleEdge
  iterate 100 all_goals try
    first
    | intro _
    | with_reducible
        first
        | assumption | apply State.sleepCheck_keeps | apply State.honBoundary_keeps | apply State.coordLook_keeps
        | apply State.roleBoundary_keeps | apply State.cycleTick_keeps | apply Keeps.ite | apply Keeps.foldl
        | (apply Keeps.fst; assumption)
    | simp only [↓Keeps.fields] | split | dsimp only

theorem State.pairEdge_keeps {s t} (h : Keeps s t) : Keeps s (State.pairEdge t) := by
  unfold State.pairEdge
  iterate 100 all_goals try
    first
    | intro _
    | with_reducible
        first
        | assumption | apply State.each_keeps | apply State.trigger_keeps | apply Keeps.ite | apply Keeps.foldl
        | (apply Keeps.fst; assumption)
    | simp only [↓Keeps.fields] | split | dsimp only

theorem State.inputEdge_keeps {s t a1 a2} (h : Keeps s t) : Keeps s (State.inputEdge t a1 a2) := by
  unfold State.inputEdge
  iterate 100 all_goals try
    first
    | intro _
    | with_reducible
        first
        | assumption | apply State.inputsAtEdge_keeps | apply State.twinImageAtEdge_keeps | apply State.wakeIn_keeps
        | apply Keeps.ite | apply Keeps.foldl | (apply Keeps.fst; assumption)
    | simp only [↓Keeps.fields] | split | dsimp only

theorem State.outputEdge_keeps {s t a1} (h : Keeps s t) : Keeps s (State.outputEdge t a1) := by
  unfold State.outputEdge
  iterate 100 all_goals try
    first
    | intro _
    | with_reducible
        first
        | assumption | apply State.channelsOff_keeps | apply State.deliverEdge_keeps | apply Keeps.ite
        | apply Keeps.foldl | (apply Keeps.fst; assumption)
    | simp only [↓Keeps.fields] | split | dsimp only

theorem State.edgeActs_keeps {s t a1 a2 a3} (h : Keeps s t) : Keeps s (State.edgeActs t a1 a2 a3) := by
  unfold State.edgeActs
  iterate 100 all_goals try
    first
    | intro _
    | with_reducible
        first
        | assumption | apply State.busEdge_keeps | apply State.gatesAtEdge_keeps | apply State.plateConsumers_keeps
        | apply State.cycleEdge_keeps | apply State.pairEdge_keeps | apply State.inputEdge_keeps
        | apply State.outputEdge_keeps | apply Keeps.ite | apply Keeps.foldl | (apply Keeps.fst; assumption)
    | simp only [↓Keeps.fields] | split | dsimp only

theorem State.edgesAct_keeps {s a0 a1 a2 t} (h : Keeps s t) : Keeps s (State.edgesAct a0 a1 a2 t) := by
  revert h
  fun_induction State.edgesAct a0 a1 a2 t
  all_goals intro h
  iterate 100 all_goals try
    first
    | intro _
    | with_reducible
        first
        | assumption | apply State.edgeActs_keeps | apply Keeps.ite | apply Keeps.foldl
        | (apply Keeps.fst; assumption) | apply_assumption
    | simp only [↓Keeps.fields] | split | dsimp only

end Sys2Proof.Machine
end

