-- ==== Sys2Proof/Laws/Pages.lean ====
section
/-!
SUPPORT. The block type of each family of pages, and that only the pages of the power dies lie behind a die bridge.
-/

namespace Sys2Proof.Machine

@[simp] theorem tyOf_pDBR (d : Fin 2) : tyOf (pDBR d.val) = 0x0003 := by revert d; decide
@[simp] theorem instOf_pDBR (d : Fin 2) : instOf (pDBR d.val) = d.val := by revert d; decide
@[simp] theorem tyOf_pCORE (c : Fin 13) : tyOf (pCORE c.val) = 0x0004 := by revert c; decide
@[simp] theorem instOf_pCORE (c : Fin 13) : instOf (pCORE c.val) = c.val := by revert c; decide
@[simp] theorem tyOf_pMBC (n : Fin 32) : tyOf (pMBC n.val) = 0x0006 := by revert n; decide
@[simp] theorem instOf_pMBC (n : Fin 32) : instOf (pMBC n.val) = n.val := by revert n; decide
@[simp] theorem tyOf_pFDB (i : Fin 2) : tyOf (pFDB i.val) = 0x1002 := by revert i; decide
@[simp] theorem instOf_pFDB (i : Fin 2) : instOf (pFDB i.val) = i.val := by revert i; decide
@[simp] theorem tyOf_pSTRM (i : Fin 2) : tyOf (pSTRM i.val) = 0x1003 := by revert i; decide
@[simp] theorem instOf_pSTRM (i : Fin 2) : instOf (pSTRM i.val) = i.val := by revert i; decide
@[simp] theorem tyOf_pPORT (p : Fin 34) : tyOf (pPORT p.val) = 0x1006 := by revert p; decide
@[simp] theorem instOf_pPORT (p : Fin 34) : instOf (pPORT p.val) = p.val := by revert p; decide
@[simp] theorem tyOf_pSPL (e : Fin 4) : tyOf (pSPL e.val) = 0x2002 := by revert e; decide
@[simp] theorem instOf_pSPL (e : Fin 4) : instOf (pSPL e.val) = e.val := by revert e; decide
@[simp] theorem tyOf_pHIN (i : Fin 16) : tyOf (pHIN i.val) = 0x2003 := by revert i; decide
@[simp] theorem instOf_pHIN (i : Fin 16) : instOf (pHIN i.val) = i.val := by revert i; decide
@[simp] theorem tyOf_pPEG (e : Fin 4) : tyOf (pPEG e.val) = 0x3002 := by revert e; decide
@[simp] theorem instOf_pPEG (e : Fin 4) : instOf (pPEG e.val) = e.val := by revert e; decide
@[simp] theorem tyOf_pCXC (n : Fin 12) : tyOf (pCXC n.val) = 0x3003 := by revert n; decide
@[simp] theorem instOf_pCXC (n : Fin 12) : instOf (pCXC n.val) = n.val := by revert n; decide
@[simp] theorem tyOf_pLNC (n : Fin 8) : tyOf (pLNC n.val) = 0x3004 := by revert n; decide
@[simp] theorem instOf_pLNC (n : Fin 8) : instOf (pLNC n.val) = n.val := by revert n; decide
@[simp] theorem tyOf_pDIG (i : Fin 3) : tyOf (pDIG i.val) = 0x6002 := by revert i; decide
@[simp] theorem instOf_pDIG (i : Fin 3) : instOf (pDIG i.val) = i.val := by revert i; decide
@[simp] theorem tyOf_pCAL (k : Fin 6) : tyOf (pCAL k.val) = 0x8002 := by revert k; decide
@[simp] theorem instOf_pCAL (k : Fin 6) : instOf (pCAL k.val) = k.val := by revert k; decide
@[simp] theorem tyOf_pVMC (v : Fin 16) : tyOf (pVMC v.val) = 0x9003 := by revert v; decide
@[simp] theorem instOf_pVMC (v : Fin 16) : instOf (pVMC v.val) = v.val := by revert v; decide
@[simp] theorem tyOf_pNOR (n : Fin 2) : tyOf (pNOR n.val) = 0xA003 := by revert n; decide
@[simp] theorem instOf_pNOR (n : Fin 2) : instOf (pNOR n.val) = n.val := by revert n; decide
@[simp] theorem tyOf_pKEY (i : Fin 2) : tyOf (pKEY i.val) = 0xB002 := by revert i; decide
@[simp] theorem instOf_pKEY (i : Fin 2) : instOf (pKEY i.val) = i.val := by revert i; decide
@[simp] theorem tyOf_pCRY (i : Fin 3) : tyOf (pCRY i.val) = 0xB003 := by revert i; decide
@[simp] theorem instOf_pCRY (i : Fin 3) : instOf (pCRY i.val) = i.val := by revert i; decide
@[simp] theorem tyOf_pPLL (i : Fin 5) : tyOf (pPLL i.val) = 0xC002 := by revert i; decide
@[simp] theorem instOf_pPLL (i : Fin 5) : instOf (pPLL i.val) = i.val := by revert i; decide

@[simp] theorem tyOf_pLSW (d : Fin 2) (i : Fin 16) : tyOf (pLSW d.val i.val) = (if d = 0 then 0x4001 else 0x5001) := by
  revert d i; decide

@[simp] theorem instOf_pLSW (d : Fin 2) (i : Fin 16) : instOf (pLSW d.val i.val) = i.val := by revert d i; decide

/-- A page of another block type than those of the power dies lies behind no die bridge. -/
theorem bridgeDie_none {ty : Nat} (h : ty ∉ [0x4001, 0x4002, 0x5001, 0x5002]) : bridgeDie ty = none := by
  simp only [List.mem_cons, List.not_mem_nil, or_false, not_or] at h
  unfold bridgeDie
  simp [h]

end Sys2Proof.Machine
end

