-- ==== Sys2Proof/Tests/Slice0.lean ====
section
/-!
SUPPORT. Tests: ill-formed commands are refused, worked examples of the spec and published vectors come out, and every statement with
hypotheses has a state and operands that meet them, clause by clause.
-/

set_option Elab.async false
set_option linter.unusedVariables false

open Sys2Proof Sys2Proof.Machine

namespace Sys2Proof.Tests

/-! States for the tests. -/

/-- Everything out of reset. -/
def base : State := { State.reset with up := ⟨true, true, [true, true], [true, true], true⟩ }

/-- A monitor access of core AC0. -/
def mon : Access := ⟨0, .monitor, 4⟩


/-- Module time runs: RUN mode. -/
def timed : State := base.set pSLP BLK_STAT_STATE mRUN

/-- Instance 1 runs on port 3, its slave port by external port configuration. -/
def slaved : State :=
  (((timed.set pPTP (INST_CFG_EN 1) 1).set pPTP (INST_CFG_EXT 1) 1).set pPTP (INST_SLAVE_PORT 1) 3).wrn pPTP (INST_PORTS 1) 8

/-- Nothing at the inputs and on the buses. -/
def noEdge : EdgeInputs := ⟨[], [], 12000, false, []⟩

/-- The Tailstock, its plate following the Headstock. -/
def follower : State :=
  (((timed.set pTWR BLK_CTRL_EN 1).set pTWR TWR_CTRL_EN 1).set pTWR BLK_STAT_STATE rTAILSTOCK).set pIXP IXP_CTRL_TWIN_FOLLOW 1

/-- The plate runs; its next edge is that of position 1. -/
def running : State := { timed with plate.started := true, plate.next := 1 }

/-- The plate is in a re-index cycle whose SAFE_IX, 1, comes next. -/
def reindexing : State :=
  { (timed.set pIXP IXP_ACT_SAFE_IX 1) with
    plate.started := true, plate.next := 1, plate.length := 4000000, plate.inReindex := true, plate.reindex := some ⟨0, .own⟩ }

/-- The plate is armed to start free-running. -/
def armedPlate : State := { timed with plate.armed := some 0 }

/-- The plate is armed to start with the Headstock's cycle 5. -/
def followArmed : State := { follower with plate.armed := some 0, plate.startAt := some (9000, 5) }

/-- The plate is armed to start on the gPTP schedule. -/
def gptpArmed : State := { timed.set pIXP IXP_CTRL_SRC 2 with plate.armed := some 0 }

/-- The plate is armed to start at a pulse, which has just come. -/
def pulsedOnce : State :=
  { (timed.set pIXP IXP_CTRL_SRC 1).advance 10 with plate.armed := some 0, plate.lastPulse := some 85, plate.quiet := 0, plate.pulsed := true }

/-- A queued frame for port 3, class 0. -/
def aCopy : Copy := ⟨1, 24, 4, 0, 0, List.replicate 60 7, 64, 1, none, 0, 0, 0, [], none, false, .shared, 0, 0⟩

/-- TX ring 4 of instance 0 holds one frame of 64 octets at 0x10001000, CLASS 3. -/
def ringed : State :=
  ((((base.set (pHIN 0) (RING_CTRL_EN 4) 1).set (pHIN 0) (RING_TAIL_V 4) 1).set (pHIN 0) (RING_BASE_LO_ADDR 4) 0x800000).setMemLE
    0x10000000 8 0x10001000).setMemLE 0x10000008 4 0x83030040 |>.setBytes 0x10001000 (List.replicate 64 7)

/-- Port 3 has its link. -/
def linkedPort : State := (base.set pSWC BLK_CTRL_EN 1).set (pPORT 3) PORT_STAT_LINK 1

/-- A pause frame of 255 quanta. -/
def aPause : List Nat := [1, 0x80, 0xC2, 0, 0, 1] ++ List.replicate 6 7 ++ [0x88, 8, 0, 1, 0, 255] ++ List.replicate 42 0

/-- A bridge protocol frame. -/
def aBpdu : List Nat := [1, 0x80, 0xC2, 0, 0, 0] ++ List.replicate 54 7

/-- The frame of `ringed`, as the DMA reads it. -/
def aTxFrame : TxFrame := ⟨[0x10000000], List.replicate 64 7, 3, false, 0⟩

/-- `ringed` after deficit round robin has drawn the frame. -/
def drawnFrom (s : State) : State :=
  let u := (s.advance 1).ingressTurn 31
  { u with
    sw.drrCur := 0, sw.drrDef := [960, 0, 0, 0, 0, 0, 0, 0, 0, 0, 0, 0, 0, 0, 0, 0], sw.drrRing := setNth u.sw.drrRing 0 5
    sw.txTok := putPair 0 (u.txTokens 0 - 512000000) u.sw.txTok, sw.txTokAt := putPair 0 u.tb.clocks u.sw.txTokAt }

def drawn : State := drawnFrom ringed

/-- The same with a largest frame of 60 octets. -/
def ringedLong : State := ringed.set (pPORT 31) PORT_MAXLEN_LEN 60

def drawnLong : State := drawnFrom ringedLong

/-- A preemptable frame is in transmission on port 3, an express frame waits. -/
def cutting : State :=
  { ((linkedPort.set (pPORT 3) PORT_PRE_STATUS 2).set (pPORT 3) PORT_PRE_EXPRESS 0x80) with
    sw.held := [{ aCopy with sending := 1, len := 200 }, { aCopy with id := 2, q := 31 }] }

/-- One frame of queue 25 may be evicted for a copy of queue 26. -/
def evicting : State := { (linkedPort.set pBUF BUF_CTRL_PUSH_MIN 0).tfSet tQUEUE 25 qMIN 0 with sw.held := [{ aCopy with id := 9, q := 25 }], sw.retry := [⟨{ aCopy with q := 26 }, 5, 0⟩] }

/-- The DRAM holds a frame of queue 24. -/
def spilled : State := { (base.set pDMC DMC_STAT_TRAINED 1).set (pSPL 0) SPL_BW_RD 20 with sw.held := [{ aCopy with place := .dram 0 }] }

/-- A recovery function with an expected number of discarded frames of 0 and a base of 2. -/
def latent : State := { base.tset tREC 3 0 5 with sw.recov := [(3, ⟨false, 5, 1, 2⟩)] }

/-- CX3 is out of INIT. -/
def busOn : State := base.set (pCXC 3) CX_CTRL_INIT 0

/-- CX3 sends the frame of object 4. -/
def sending : State := { busOn with can := modNth base.can 3 fun c => { c with cur := some 4 } }

/-- CX3 sends a reference message. -/
def refSending : State := { busOn with can := modNth base.can 3 fun c => { c with cur := some 128, refOut := some ⟨1, 2, false, false, 3⟩ } }

/-- LN3 has received a header of identifier 0x3D. -/
def hearing : State := { base.set (pLNC 3) LN_CTRL_EN 1 with lin := modNth base.lin 3 fun c => { c with cur := some (0x3D, none, false) } }

/-- Gateway engines on; a bus frame waits at engine 1, a frame of the network at engine 2. -/
def gwUp : State :=
  { ((base.set pGWC GWC_CTRL_EN 15)) with
    gwIn := [[], [.bus false 3 ⟨0, false, false, false, 0x123 * 0x40000, [1, 2], 0, 0, false, 0⟩ 7 8], [.eth [1, 2] 7 8], []] }

/-- A reply of RP1 stands in MB_5, for engine 1. -/
def replying : State :=
  ((((gwUp.set pGWC GWC_CAP_REPLY_ENG 1).set pGWC GWC_CAP_MB_REPLY 5).set (pMBC 5) MB_STAT_FULL 1).set (pMBC 5) MB_CFG_RX_AGENT 0x31).set (pMBC 5) MB_STAMP_V 0x12

/-- A message waits in stream 3. -/
def batched : State := { gwUp with gw.batch := [(3, [[1, 2]])] }

/-- Both die bridges are up. -/
def linked : State := (base.set (pDBR 0) BR_STAT_UP 1).set (pDBR 1) BR_STAT_UP 1

/-- Die A in HOLD, side 0, taking TWC commands. -/
def twcReady : State := (linked.set (pPDC 0) PDC_TWC_EN 1).modDie 0 fun z => { z with st := 1, side := some 0 }

/-- The Phoask link and the twin bridge are up. -/
def phoaskOn : State :=
  (((linked.set pTWL BLK_CTRL_EN 1).set pTWL TWL_CTRL_EN 1).set pTWL TWL_STAT_ST 2).set pTBR BR_STAT_UP 1

/-- The role machine runs in role r. -/
def roleIn (r : Nat) : State := ((phoaskOn.set pTWR BLK_CTRL_EN 1).set pTWR TWR_CTRL_EN 1).set pTWR BLK_STAT_STATE r

/-- The same with the Phoask link down. -/
def roleAlone (r : Nat) : State := ((roleIn r).set pTWL TWL_STAT_ST 0).set pTBR BR_STAT_UP 0

/-- A receiving migration of VM 0, whose tables map IPA 0 to 0x10000000. -/
def mapped : State :=
  ((((((phoaskOn.set pMIG MIG_STAT_ST 1).set pMIG MIG_CTRL_DIR 1).set (pVMC 0) VMC_CTRL_EN 1).set (pVMC 0) VMC_TTB_LO_BASE 0x8008).setMemLE
    0x10010000 8 0x10012003)).setMemLE 0x10012000 8 0x100000C1

theorem pair_of {α : Type} {p : α × Bool} (h : p.2 = true) : p = (p.1, true) := by rw [← h]

/-- Pair 0 runs compared. -/
def compared : State := ((base.set (pCORE 0) CORE_STAT_RUNNING 1).wrn pCALC CALC_ACT 1).setPair 0 cCOMPARED

/-- The debug agent has its access: the test port is open. -/
def dbgOn : State := base.set pLCS LCS_STAT_TEST 3

/-- Channels 3 and 4 are peers, both full, their receivers AC0 and AC1 wait for each other's. -/
def crossing : State :=
  let ch (i j g : Nat) (s : State) : State :=
    (((s.set (pMBC i) MB_CFG_PEER_EN 1).set (pMBC i) MB_CFG_PEER j).set (pMBC i) MB_CFG_RX_AGENT g).set (pMBC i) MB_STAT_FULL 1
  ((ch 3 4 0 (ch 4 3 1 base)).modCore 0 fun k => { k with waitFor := 4 }).modCore 1 fun k => { k with waitFor := 3 }

/-- No pair runs compared. -/
def splitPairs : State := base.wrn pCALC CALC_ACT 0

/-- The DRAM is trained and runs. -/
def dramOn : State := base.set pDMC DMC_STAT_TRAINED 1

/-- Die 0 runs an operation. -/
def norBusy (o : NorOp) : State := { (base.set (pNOR 0) NOR_CMD_BUSY 1).set (pNOR 0) NOR_STAT_BUSY 1 with norOps := [some o, none] }

/-- Lifecycle DEVELOPMENT or later: word 13 holds 1. -/
def provisioned : State := { base with fuses := [(13, 1)] }

/-- DEVELOPMENT, the hash of the public key of 32 zeros fused for authority 0, keys derived; a message lies at 0x10000000. -/
def secMsg (m : List Nat) : State :=
  let s := { base with
    fuses := [(13, 1), (14, 0x66687aad), (15, 0xf862bd77), (16, 0x6c8fc18b), (17, 0x8e9f8e20), (18, 0x08971485), (19, 0x6ee233b3),
      (20, 0x902a591d), (21, 0x0d5f2925), (30, 1)]
    sec.derived := [List.replicate 32 1, List.replicate 32 2, List.replicate 32 3, List.replicate 32 4] }
  ((((s.set pSEC SEC_STAT_KEYS_READY 1).set pSEC SEC_STAT_BUSY 1).set pSEC SEC_MSG_LO_V 0x10000000).set pSEC SEC_MSG_LEN_V 7956).setBytes
    0x10000000 m

/-- Bytes 0-67 of a message of slot j for a blank identity, counter 1. -/
def secHead (b0 j policy : Nat) (wrapped : List Nat) : List Nat :=
  [b0, 0, j, 0] ++ List.replicate 16 0 ++ [0, 0, 0, 1, 0, 0, 0, policy] ++ wrapped

/-- A key of 32 bytes 5, wrapped under 32 bytes 1. -/
def aWrappedKey : List Nat :=
  [151, 251, 169, 57, 236, 188, 105, 175, 21, 220, 241, 13, 192, 189, 213, 231, 174, 228, 198, 167, 69, 87, 215, 98, 239, 63, 17, 7,
   22, 118, 67, 109, 86, 161, 105, 86, 255, 191, 146, 220]

def zeros (n : Nat) : List Nat := List.replicate n 0

/-- Channel 2 on port 0 with a key of 32 bytes 5 in slot 3; l stands in the words of port 0. -/
def capsuleIn (l : List Nat) : State :=
  let s := { base.set pSEC SEC_STAT_KEYS_READY 1 with sec.slots := setNth base.sec.slots 3 (List.replicate 32 5) }
  let s1 := ((s.set (pKEY 0) (SLOT_STAT_VALID 3) 1).wrn (pKEY 0) (SLOT_POL 3) 1).set pCMD (CMD_CH_CFG_EN 2) 1
  (((s1.set pCMD (CMD_CH_CFG_SLOT 2) 3).set pCMD (CMD_CH_CFG_PORTS 2) 1)).setRegBytes pCMD (capData 0) l

/-- The tests of Table 15-4 pass, with a signature as given. -/
theorem messageReason_zero {s : State} {m : List Nat} {len set : Nat} {pk head sig : List Nat}
    (h1 : s.keysReady = true ∧ set = s.authSet (nth m 1 0 % 2) ∧ messageForm m len set = true ∧ slice m 4 16 = s.deviceId ∧
      s.authKey (nth m 1 0 % 2) pk = true ∧ beAt m 20 4 = (s.rd pSEC SEC_KCTR).toNat + 1 ∧
      s.typeAllowed (nth m 0 0 % 16) (nth m 1 0 % 2) (nth m 2 0) = true ∧ s.slotValid (nth m 2 0) = false ∧
      slice m 68 (pkLen set) = pk ∧ slice m 0 68 = head)
    (h2 : m.drop (68 + pkLen set) = sig)
    (h3 : nth m 0 0 % 16 = 1 → (keyUnwrap (s.kek (nth m 1 0 % 2)) (slice m 28 40)).isSome = true ∧ policyOk (beAt m 24 4) = true)
    (h : Config.slhVerify set pk ctxHZKU head sig = true) : s.messageReason m len = 0 := by
  obtain ⟨a, b, c, d, e, f, g, i, j, k⟩ := h1
  subst b
  unfold State.messageReason
  by_cases h1 : nth m 0 0 % 16 = 1
  · obtain ⟨u, v⟩ := h3 h1
    have u : ¬ keyUnwrap (s.kek (nth m 1 0 % 2)) (slice m 28 40) = none := by
      intro x
      rw [x] at u
      simp at u
    rw [h1] at g
    simp [a, c, d, e, f, g, i, j, k, h2, h, h1, u, v]
  · simp [a, c, d, e, f, g, i, j, k, h2, h, h1]

theorem sget_above (d : Byte) (k : Nat) : ∀ l : List Host.Cell, (∀ e ∈ l, e.1 < k) → sget d k l = d
  | [], _ => rfl
  | e :: l, h => by
    have h1 := h e (by simp)
    have h2 := sget_above d k l fun x hx => h x (by simp [hx])
    obtain ⟨a, b⟩ := e
    simp only at h1
    unfold sget
    have : ¬ k < a := by omega
    have h4 : ¬ k = a := by omega
    simp_all

theorem bytes_zero (s : State) : ∀ n a, (∀ e ∈ s.mem, e.1 < a) → a + n ≤ 0x40000000 → s.bytes a n = zeros n
  | 0, _, _, _ => rfl
  | n + 1, a, h, hn => by
    have h1 : s.byte a = 0 := by
      unfold State.byte
      rw [sget_above _ _ _ h]
      unfold memDefault
      rw [if_neg (by omega)]
      rfl
    have h2 := bytes_zero s n (a + 1) (fun e he => Nat.lt_succ_of_lt (h e he)) (by omega)
    simp [State.bytes, h1, h2, zeros, List.replicate_succ]

theorem bytes_split (s : State) (n : Nat) : ∀ m a, s.bytes a (m + n) = s.bytes a m ++ s.bytes (a + m) n
  | 0, a => by simp [State.bytes]
  | m + 1, a => by
    have h := bytes_split s n m (a + 1)
    rw [show m + 1 + n = m + n + 1 by omega]
    simp only [State.bytes, h, List.cons_append, List.cons.injEq, true_and]
    rw [show a + 1 + m = a + (m + 1) by omega]

theorem drop_zeros {m : List Nat} (h : m.length = 68) : (m ++ zeros 7888).drop (68 + 32) = zeros 7856 := by
  unfold zeros
  rw [List.drop_append, h, List.drop_eq_nil_of_le (by omega), List.drop_replicate]
  rfl

/-- A message of 7,956 bytes at 0x10000000 whose bytes after the first 68 are zeros. -/
theorem messageIs_zeros {s : State} {m : List Nat} (h : s.up.compute = true ∧ s.on pSEC SEC_STAT_BUSY = true ∧ s.sec.stopped = false ∧
    (s.rd pSEC SEC_MSG_LO).toNat + s.get pSEC SEC_MSG_HI_V * 2 ^ 32 = 0x10000000 ∧ s.get pSEC SEC_MSG_LEN_V = 7956 ∧
    s.ramStop 0 false false 0x10000000 7956 = none ∧ s.get pSCR SCR_POISON_USED = 0 ∧ s.bytes 0x10000000 68 = m ∧
    s.mem.all (fun e => decide (e.1 < 0x10000000 + 68)) = true) : s.MessageIs (m ++ zeros 7888) := by
  obtain ⟨a, b, c, d, e, f, g, i, j⟩ := h
  have hz := bytes_zero s 7888 (0x10000000 + 68) (by simpa using j) (by omega)
  have hr : s.ramRead 0 false 0x10000000 7956 = (s, some (m ++ zeros 7888)) := by
    unfold State.ramRead
    have hp : s.poisoned 0x10000000 7956 = false := by
      unfold State.poisoned
      rw [List.any_eq_false]
      intro w _
      simp [State.poisonOf, g]
    simp only [f, hp, show ¬ regionOf 0x10000000 = .nor by decide, if_false, Bool.false_eq_true]
    rw [show 7956 = 68 + 7888 by rfl, bytes_split, hz, i]
  have hl : m.length = 68 := by rw [← i]; rfl
  refine ⟨a, b, c, ?_, ?_⟩ <;> simp only [d, e]
  · rw [show max 7956 1 = 7956 by rfl, hr]
  · rw [show max 7956 1 = 7956 by rfl, hr]
    have hz : (m ++ zeros 7888).length = 7956 := by
      unfold zeros
      rw [List.length_append, List.length_replicate, hl]
    exact List.take_of_length_le (Nat.le_of_eq hz)

/-- CRY 0 works: 4 bytes from 0x10000000, result to 0x10000100. -/
def cryBusy : State :=
  (((base.set (pCRY 0) CRY_CTRL_BUSY 1).wrn (pCRY 0) CRY_SRC_LO 0x10000000).wrn (pCRY 0) CRY_DST_LO 0x10000100).wrn (pCRY 0) CRY_LEN 4

/-- A manifest's first 64 bytes: one level, P 100 and so T 2; ROOT is the hash of 1,408 zeros. -/
def aManifest : List Nat :=
  zeros 22 ++ [1, 1, 0, 0, 0, 2, 0, 0, 0, 100] ++
    [191, 254, 235, 45, 18, 186, 97, 8, 128, 106, 80, 128, 130, 222, 226, 245, 206, 35, 209, 237, 234, 248, 26, 205, 79, 235, 140, 13,
     8, 3, 137, 120]

/-- The last module of a chain of one, in a phase. -/
def aRelay (ph : Nat) : Relay :=
  { id := 7, hop := 1, last := 1, table := zeros 24, w := 16, man := [(0, aManifest)], slot := 0, phase := ph, next := 0, queue := []
    prog := 0, acked := 0, down := 0, sent := 0, high := 0, closeSent := false, downEnd := none, resends := 0, result := none }

/-- The transfer in a phase. -/
def relaying (ph : Nat) : State := { base with upd.relay := some (aRelay ph) }

/-- The first module of a chain of two: two blocks programmed, both sent on. -/
def chained : State := { base with upd.relay := some { aRelay 2 with last := 2, next := 2, prog := 2, sent := 2 } }

/-- A slot whose manifest names a version, in a state. -/
def slotIn (k st v : Nat) (s : State) : State := (s.slotProgram k manOff (zeros 8 ++ bytesBE 4 v ++ zeros 84)).slotRecord k st 3 1

/-- A request of words stands in MB_31; its reply goes to channel 3, which AC2 receives. -/
def asked (s : State) (w : List Nat) : State :=
  let s1 := (((s.set (pMBC 31) MB_STAT_FULL 1).set (pMBC 31) MB_CFG_RX_AGENT 0x20).setRegBytes (pMBC 31) MB_DATA
    ((w ++ zeros (16 - w.length)).map (bytesBE 4)).flatten)
  (((s1.set (pCORE 2) CORE_STAT_RUNNING 1).set (pMBC 3) MB_CFG_RX_AGENT 2).wrn (pMBC 3) MB_ALLOW 0xF0000FFF).set (pMBC 3) ⟨MB_ALLOW, 12, 1⟩ 1

/-- Capsules of channel 2 are those of updates. -/
def capSetting : State := { capsuleIn [] with upd.settings := [(0xFF02, [0, 0, 0, 2])] }

/-- The words of MB_31. -/
def reqWords (s : State) : List Nat := (List.range 16).map fun k => (s.rd (pMBC 31) (MB_DATA k)).toNat

/-- CONFIRM for slot 0, version 9, which runs on trial. -/
def confirmed : State :=
  asked { slotIn 0 sTRIAL 9 capSetting with upd.run := some 0 }
    [0x03000300, 0x1002ffc1, 0x8000000, 0x9, 0x0, 0x1, 0xcbef1e82, 0x552237f1]

/-- SERVICE for 30 minutes in RUN. -/
def serviceAsked : State :=
  (asked capSetting [0x08000300, 0x1002ffc2, 0x4000000, 0x1e, 0x1, 0xe33d1055, 0xe5344f0f]).set pSLP BLK_STAT_STATE mRUN

/-- A setting 5 of format 0 with the data 9 is stored. -/
def setHeld : State :=
  { (asked base [0x07000300, 0x00050000, 0x10000000, 0, 1]).set pSEC SEC_STAT_KEYS_READY 1 with
    sec.derived := List.replicate 4 (List.replicate 32 5) }.setProgram (SetRec.octets (List.replicate 32 5) ⟨5, 0, 1, [9]⟩) true

/-- RUN mode with RCO calibrated and XO32 good. -/
def clocked : State := (timed.set pCLK CLK_STAT_RCO_CAL 1).set pCLK CLK_STAT_XO32_OK 1

/-- The core supply of the cluster at OP3. -/
def atPoint3 : State := timed.atOp3

/-- A start under way. -/
def startingUp : State := (State.reset.startWake ⟨4, 0⟩ false 0).modDie 0 id |> fun s => { s with up := { s.up with die := [true, true], alwaysOn := true } }

/-- SC runs slot 0; the DRAM is trained. -/
def bootedUp : State := { dramOn with upd.run := some 0 }

/-- Node 3 is enrolled and has voted SLEEP; the module coordinates and votes SLEEP. -/
def voting : State :=
  (((timed.set pSLP (SLP_NODE_CFG_ENROLLED 3) 1).set pSLP (SLP_NODE_STAT_KIND 3) 2).set pSLP SLP_CTRL_OWN_SLEEP 1).set pSLP SLP_CTRL_COORD 1 |>.set pSLP SLP_CTRL_COORD_HS 0

/-- The sleep state z in a mode. -/
def sleepy (z m : Nat) : State := (timed.set pSLP SLP_STAT_SLEEP z).set pSLP BLK_STAT_STATE m

/-- STANDBY: the compute die in reset, die A kept. -/
def standby : State := { base.set pSLP BLK_STAT_STATE mSTANDBY with up := ⟨false, false, [false, false], [true, false], true⟩ }

/-- Monitors of a new chip. -/
def newChip : Monitors := ⟨List.replicate 6 (some 110), 0, 0, List.replicate 32 4096, List.replicate 26 0, List.replicate 32 0, List.replicate 32 0, 0⟩


/-- STANDBY with input 3 armed and active at the last scan. -/
def scanning : State :=
  { base.set pSLP BLK_STAT_STATE mSTANDBY with
    scan := { base.scan with armed := 8, last := 8, stuckT := List.replicate 48 0, runs := List.replicate 48 0 } }

/-- The scan 5 clocks later finds it active. -/
def scanned : State :=
  { scanning.advance 5 with scan := ({ scanning.scan with scans := scanning.scan.scans + 1 } : ScanState).look (scanning.advance 5).tb.clocks 3 true }

/-! Well-formedness refuses an ill-formed term for each of its checks. -/

theorem test_wf_accepts : Instr.wf (.registerWrite ⟨0, .monitor, 4⟩ (.page 0x20316040 1)) = true := by decide

theorem test_wf_refuses_an_address_of_41_bits : Instr.wf (.softRstDone (2 ^ 40)) = false := by decide

theorem test_wf_refuses_an_octet_of_256 : Instr.wf (.memoryRegionAccess ⟨0, .monitor, 4⟩ .write 0x10000000 [256]) = false := by decide

theorem test_wf_refuses_a_flip_past_the_codeword : Instr.wf (.dramRead 0 ⟨0, .monitor, 4⟩ false 0x800000000 0x800000000 [80]) = false := by
  decide

theorem test_wf_refuses_an_agent_outside_the_table : Access.wf ⟨8, .monitor, 4⟩ = false := by decide

theorem test_wf_refuses_a_width_of_3 : Access.wf ⟨0, .monitor, 3⟩ = false := by decide

theorem test_wf_refuses_a_register_target : RegTarget.wf (.page (2 ^ 40) 0) = false := by decide

theorem test_wf_refuses_a_frame_without_its_type : RxFrame.wf ⟨List.replicate 13 0, true, true, [], 0⟩ = false := by decide

theorem test_wf_refuses_a_bus_frame_of_format_3 : BusFrame.wf ⟨3, false, false, false, 0, [], 0, 0, false, 0⟩ = false := by decide

theorem test_wf_refuses_edge_inputs_of_47 : EdgeInputs.wf ⟨List.replicate 47 0, List.replicate 16 0, 12000, false, []⟩ = false := by decide

theorem test_wf_refuses_a_sample_of_15_currents :
    DieSample.wf ⟨List.replicate 15 0, List.replicate 16 0, List.replicate 16 0, [0, 0, 0], 0⟩ = false := by decide

theorem test_wf_refuses_a_bridge_request_agent : BridgeRequest.wf ⟨0, 0, 0, 0, 256⟩ = false := by decide

theorem test_wf_refuses_a_pairing_role_of_8 : PairPacket.wf ⟨0, 0x40, 0xB0, 8, 0, 0⟩ = false := by decide

theorem test_wf_refuses_a_record_class_of_3 : CompareIn.wf { lead := [.reg 3 0 0], trail := [], retired := 1, distance := 0, disagree := false } = false := by decide

theorem test_wf_refuses_a_store_mask_of_9_bits : CalRecord.wf (.store 256 0 0) = false := by decide

theorem test_wf_refuses_a_waiting_access : WaitingAccess.wf ⟨⟨9, .monitor, 4⟩, 0, none⟩ = false := by decide

/-! Worked examples and tables of the spec; each test names its chapter. -/

/-- The LSW page of OUT_M10 belongs to the secure world; both die bridges are up (spec/02, "a refused write"). -/
def lswOwned : State := linked.wrn (pLSW 1 6) OWNER 0x80000000

/-- VM 3's write to that page. -/
def vmWrite : Instr := .registerWrite ⟨0x10, .vm 3, 4⟩ (.page 0x20316040 1)

def ranOn (i : Instr) (s : State) : State :=
  match exec i s with
  | .next t => t
  | _ => s

/-- spec/02: ERR_CAP reads 0x0001_5001 and ERR_ADDR 0x2031_6040. -/
theorem test_refused_write : ((ranOn vmWrite lswOwned).readReg (pLSW 1 6) ERR_CAP, (ranOn vmWrite lswOwned).readReg (pLSW 1 6) ERR_ADDR) =
    (0x00015001, 0x20316040) := by decide +kernel

/-- spec/02: a second refused write changes ERR_CAP to 0x0002_5001. -/
theorem test_refused_twice : (ranOn vmWrite (ranOn vmWrite lswOwned)).readReg (pLSW 1 6) ERR_CAP = 0x00025001 := by decide +kernel

/-- spec/02: the page's interrupt line is IRQ_193. -/
theorem test_line_of_out_m10 : (pageOf 0x20316040).map (·.irq) = some 193 := by decide +kernel

/-- spec/14, "two flipped bits", D[5] and C[9] at 0x8_1234_5670: ERR_CAP reads 0x0001_A113, ERR_ADDR 0x8123_4567 and DMC_ERR_POS 0x0000_C905. -/
theorem test_two_flipped_bits :
    let t := ranOn (.dramRead 0 mon false 0x812345670 0x812345670 [5, 73]) dramOn
    (t.readReg pDMC ERR_CAP, t.readReg pDMC ERR_ADDR, t.readReg pDMC DMC_ERR_POS, t.resp) = (0x0001A113, 0x81234567, 0x0000C905, ⟨.ok, 0⟩) := by decide +kernel

/-- spec/14: the word stored for 0x8_1234_5678 decodes, disagrees with F and is poisoned. -/
theorem test_misaddressed_read :
    let t := ranOn (.dramRead 0 mon false 0x812345670 0x812345678 []) dramOn
    (t.readReg pDMC ERR_CAP, t.resp.status, (t.poisonOf 0x812345670).isSome) = (0x0001A31A, .error, true) := by decide +kernel

/-- The tables of spec/13, "one walk": VM 3 with dirty tracking. -/
def walkTables : State :=
  (((dramOn.setMemLE 0x800100240 8 0x0000000800102003).setMemLE 0x800102D10 8 0x0000000800103003).setMemLE 0x800103B38 8
    0x00000008456780FF).set (pVMC 3) VMC_CTRL_EN 1 |>.set (pVMC 3) VMC_TTB_LO_BASE 0x80 |>.wrn (pVMC 3) VMC_TTB_HI 8 |>.set (pVMC 3) VMC_CTRL_DIRTY_EN 1

/-- spec/13: the write reaches 0x8_4567_8ABC, and the level-3 entry then reads 0x0000_0008_4567_84FF. -/
theorem test_one_walk :
    let r := walkTables.coreTranslate 3 0 .write 0x1234567ABC
    (r.2, r.1.memLE 0x800103B38 8, r.1.get (pVMC 3) VMC_CNT_DIRTY) = (some 0x845678ABC, 0x00000008456784FF, 1) := by decide +kernel

/-- spec/10: the heartbeat payload of the example under Table 10-3. -/
theorem test_heartbeat :
    let s := (((roleIn rHEADSTOCK).wrn pIXP IXP_CYC 0x1A2B).set pIXP IXP_STAT_CUR_IX 16).modBridge 2 fun z =>
      { z with good := 0x1234, vcFreed := [0x0040, 0x0041, 0x0100, 0x0200] }
    ({ s with phoask.hbSeq := 7, claim := true }).heartbeat (18 * 4000000000 + 250250500 * 4 + 1) =
      [0x17, 0x60, 0x12, 0x34, 0x00, 0x40, 0x00, 0x41, 0x01, 0x00, 0x02, 0x00, 0x00, 0x00, 0x00, 0x00,
       0x00, 0x12, 0x3B, 0xAA, 0x14, 0x11, 0x1A, 0x2B, 0x10, 0x00, 0x00, 0x00, 0x00, 0x00] := by decide +kernel

/-- spec/05: the RX descriptor under Table 05-4, bytes 10 on. -/
theorem test_rx_descriptor :
    rxWriteBack { id := 0, q := 6, inPort := 5, cls := 6, colour := 0, octets := [], len := 1500, vid := 0x64, handle := some 7, hash := 0xB36D
                  sec := 18, ns := 250000000 * 4 + 1, insts := [], lag := none, mirror := false, place := .shared, sending := 0, sent := 0 } 1500 true true =
      [0xDC, 0x05, 0x33, 0x85, 0x64, 0x00, 0x01, 0xCA, 0x9A, 0x3B, 0x12, 0x00, 0x00, 0x00, 0x07, 0x80, 0x6D, 0xB3, 0x00, 0x00, 0x00, 0x00] := by
  decide +kernel

/-- spec/06: the ACF message under Table 06-7. -/
theorem test_acf_can_xl :
    acfOf false false 4 ⟨2, false, false, false, 0x123 * 2 ^ 18, List.range 20, 3, 7, false, 0x12345⟩ 80 0 =
      [0xF0, 0x0B, 0x84, 0x03, 0x00, 0x00, 0x00, 0x12, 0xA0, 0x5F, 0x20, 0x00, 0x01, 0x23, 0x07, 0x00, 0x00, 0x01, 0x23, 0x45, 0x00, 0x13,
       0x00, 0x00] ++ List.range 20 := by decide +kernel

/-- spec/08: 0.300 A on OUT_M3 is code 0x1250 in the low range; 6.000 A is code 0x02EE in the high range. -/
theorem test_reading_out_m3 : (iCode 6 300000, iCode 6 6000000) = ((0x1250, 1), (0x02EE, 0)) := by decide +kernel

/-- spec/09: the image of the example under Table 09-2. -/
theorem test_input_image :
    let s := (((base.wrn pIXP IXP_CYC 0x1A2B).set (pDIG 1) DIG_LVL_FILT 16).set (pDIG 1) DIG_LVL_RAW 16).set pANA (ANA_VAL_CODE 0) 0x1518
    (s.set pANA (ANA_VAL_RANGE 0) 1).inputImage 16 (18 * 4000000000 + 250250000 * 4) true false false =
      [0x2B, 0x1A, 0x50, 0x00, 0x00, 0x00, 0x10, 0x00, 0x00, 0x00, 0x00, 0x00, 0x10, 0x00, 0x00, 0x00] ++ List.replicate 8 0 ++ [0x18, 0x95] ++
        List.replicate 30 0 ++ [0x40, 0x0C, 0xAA, 0x3B, 0x12, 0x00, 0x00, 0x00] := by decide +kernel

/-- spec/16: fields of the manifest of the example under Table 16-2. -/
theorem test_manifest_fields :
    let m := [0x48, 0x5A, 0x4D, 0x46, 0x11, 0x00, 0x40, 0xB0, 0x00, 0x03, 0x01, 0x00, 0x00, 0x05, 0x00, 0x02,
              0x00, 0x02, 0x00, 0x00, 0x00, 0x07, 0x03, 0x03, 0x00, 0x00, 0x3B, 0x8B, 0x01, 0x40, 0x00, 0x00]
    [mVersion m, mSvnApp m, mSvnBase m, mBaseMin m, mFmt m, mLevels m, mComps m, mT m, mP m] ++ mTree m =
      [0x00030100, 5, 2, 0x00020000, 7, 3, 3, 15243, 20971520, 1, 8, 339, 14895] := by decide +kernel

/-- spec/16: hop 3 acknowledges the whole set to hop 2. -/
theorem test_relay_ack :
    ({ aRelay 4 with id := 0x0A51, hop := 3, w := 0x40 } : Relay).frame 3 15243 0 4 0x40 [] =
      [0x13, 0x03, 0x0A, 0x51, 0x00, 0x00, 0x3B, 0x8B, 0x00, 0x04, 0x00, 0x40] := by decide +kernel

/-- spec/16: a patch that copies, adds DE AD BE EF, copies and ends, cut to short copies. -/
theorem test_patch :
    patchRun [1, 2, 3, 4, 5, 6] 9 4 [] ([1, 0, 0, 0, 2, 0, 0, 0, 0] ++ [2, 0, 0, 0, 4, 0xDE, 0xAD, 0xBE, 0xEF] ++ [1, 0, 0, 0, 3, 0, 0, 0, 3, 0]) =
      some [1, 2, 0xDE, 0xAD, 0xBE, 0xEF, 4, 5, 6] := by decide +kernel

/-- spec/19: OUT_H4 after years of service: r = 1.09, T_VBB_2 at 0.86, its tab at 0.56 of the rated charge. -/
theorem test_out_h4_terms : (ronTerm 4465, chargeTerm 4 2150000, chargeTerm 10 1400000) = (339, 308, 0) := by decide +kernel

/-- Its margins (spec/19): on-resistance 55 %, charge 14 %. -/
theorem test_out_h4_margins : (marginRon 4465, marginCharge 4 2150000) = (55, 14) := by decide +kernel

/-- spec/19: BLOCK is 339 and the charge margin of 14 % governs the page (MARGIN reads 15). -/
theorem test_out_h4_plan :
    let m := { newChip with ron := setNth newChip.ron 17 4465, charge := setNth (setNth newChip.charge 4 2150000) 10 1400000 }
    ((base.blockOf 1 1 m).1, lswMargin 1 1 m) = (339, 14) := by decide +kernel

/-- spec/10 Table 10-10: CRCs of the two example frames. -/
theorem test_twc_crc : (twcSeal [0x49], twcSeal [0x72, 0x3C, 0x3C].dropLast) = ([0x49, 0xF8], [0x72, 0x3C, 0x3C]) := by decide +kernel

/-! Standards on which the spec rests: published vectors of FIPS 180-4, FIPS 197, NIST SP 800-38B and RFC 3394. -/

theorem test_sha256_abc : sha256 [0x61, 0x62, 0x63] =
    [0xBA, 0x78, 0x16, 0xBF, 0x8F, 0x01, 0xCF, 0xEA, 0x41, 0x41, 0x40, 0xDE, 0x5D, 0xAE, 0x22, 0x23, 0xB0, 0x03, 0x61, 0xA3, 0x96, 0x17, 0x7A, 0x9C,
     0xB4, 0x10, 0xFF, 0x61, 0xF2, 0x00, 0x15, 0xAD] := by decide +kernel

theorem test_aes_256 : aesEncrypt (List.range 32) ((List.range 16).map (· * 0x11)) =
    [0x8E, 0xA2, 0xB7, 0xCA, 0x51, 0x67, 0x45, 0xBF, 0xEA, 0xFC, 0x49, 0x90, 0x4B, 0x49, 0x60, 0x89] := by decide +kernel

theorem test_aes_decrypts : aesDecrypt (List.range 32) (aesEncrypt (List.range 32) (List.range 16)) = List.range 16 := by decide +kernel

theorem test_cmac :
    aesCmac [0x60, 0x3D, 0xEB, 0x10, 0x15, 0xCA, 0x71, 0xBE, 0x2B, 0x73, 0xAE, 0xF0, 0x85, 0x7D, 0x77, 0x81,
             0x1F, 0x35, 0x2C, 0x07, 0x3B, 0x61, 0x08, 0xD7, 0x2D, 0x98, 0x10, 0xA3, 0x09, 0x14, 0xDF, 0xF4]
      [0x6B, 0xC1, 0xBE, 0xE2, 0x2E, 0x40, 0x9F, 0x96, 0xE9, 0x3D, 0x7E, 0x11, 0x73, 0x93, 0x17, 0x2A] =
      [0x28, 0xA7, 0x02, 0x3F, 0x45, 0x2E, 0x8F, 0x82, 0xBD, 0x4B, 0xF2, 0x8D, 0x8C, 0x37, 0xC3, 0x5C] := by decide +kernel

theorem test_key_wrap :
    keyWrap (List.range 32) ((List.range 16).map (· * 0x11) ++ List.range 16) =
      [0x28, 0xC9, 0xF4, 0x04, 0xC4, 0xB8, 0x10, 0xF4, 0xCB, 0xCC, 0xB3, 0x5C, 0xFB, 0x87, 0xF8, 0x26, 0x3F, 0x57, 0x86, 0xE2,
       0xD8, 0x0E, 0xD3, 0x26, 0xCB, 0xC7, 0xF0, 0xE7, 0x1A, 0x99, 0xF4, 0x3B, 0xFB, 0x98, 0x8B, 0x9B, 0x7A, 0x02, 0xDD, 0x21] := by
  decide +kernel

/-! Hypotheses of the statements are met: one conjunct per clause that has hypotheses. -/

theorem test_meets_TimeBaseCommandsComplete :
    (∃ (a : Access) (v : Word) (s : State), s.Canonical ∧ s.Accepts a pTMB TMB_SNAP v ∧ v.getLsbD 0 = true ∧
      s.frozen pTMB = false) ∧
    (∃ (a : Access) (v : Word) (s : State), s.Canonical ∧ s.Accepts a pTMB TMB_RATE v ∧
      (sext 32 v.toNat).natAbs ≤ 1099511627 ∧ s.timeOwned = false) ∧
    (∃ (a : Access) (v : Word) (s : State), s.Canonical ∧ s.Accepts a pTMB TMB_STEP_GO v ∧ v.getLsbD 0 = true ∧
      s.timeOwned = false) ∧
    (∃ (s : State), s.Canonical ∧ s.tb.stepReq = true ∧ s.timeRuns = true) ∧
    (∃ (delay : Nat) (s : State), s.Canonical ∧ s.timeRuns = true ∧ 2 ≤ s.get pTWL TWL_STAT_ST) :=
  ⟨⟨mon, 1, base, by decide +kernel⟩,
   ⟨mon, 1, base, by decide +kernel⟩,
   ⟨mon, 1, base, by decide +kernel⟩,
   ⟨{ timed with tb.stepReq := true }, by decide +kernel⟩,
   ⟨5, timed.set pTWL TWL_STAT_ST 3, by decide +kernel⟩⟩

theorem test_meets_NetworkTimeCommandsComplete :
    (∃ (inst : Fin 4) (port : Fin 31) (offset : Int) (s : State), s.Canonical ∧ s.timeRuns = true ∧
      s.on pPTP (INST_CFG_EN inst.val) = true ∧ s.get pPTP PTP_CTRL_INST = inst.val ∧ s.slavePort inst.val = some port.val ∧
      s.on pPTP PTP_CTRL_SERVO_EN = true ∧ s.get pTMB TMB_CTRL_SRC = 1 ∧ s.followsTwinTime = false ∧
      s.on pTMB TMB_STAT_HOLDOVER = false ∧ (s.rd pPTP PTP_STEP_THR).toNat < offset.natAbs ∧
      (s.rd pPTP PTP_LOCK_THR).toNat < offset.natAbs) ∧
    (∃ (inst : Fin 4) (port : Fin 31) (delay : Nat) (nrr : Nat) (asCapable : Bool) (s : State), s.Canonical ∧
      s.timeRuns = true ∧ port.val ≠ 2 ∧ port.val < 27 ∧ s.on pPTP (INST_CFG_EN inst.val) = true ∧
      s.instHasPort inst.val port.val = true) ∧
    (∃ (inst : Fin 4) (port : Fin 31) (seq : Nat) (q : Nat) (phase : Fin 8) (s : State), s.Canonical ∧ s.timeRuns = true ∧
      s.masterPort inst.val port.val = true ∧ s.tb.fifo.length < 64 ∧
      q = ((s.nowQ + phase.val : Nat) + s.geti (pPORT port.val) PORT_EGR_LAT_V : Int).toNat) ∧
    (∃ (inst : Fin 4) (port : Fin 31) (seq : Nat) (q : Nat) (phase : Fin 8) (s : State), s.Canonical ∧ s.timeRuns = true ∧
      s.on pPTP (INST_CFG_EN inst.val) = true ∧ s.instHasPort inst.val port.val = true ∧
      s.on (pPORT port.val) PORT_STAT_LINK = true ∧ port.val < 27 ∧ s.tb.fifo.length < 64 ∧
      q = ((s.nowQ + phase.val : Nat) + s.geti (pPORT port.val) PORT_EGR_LAT_V : Int).toNat) ∧
    (∃ (inst : Fin 4) (port : Fin 31) (seq : Nat) (phase : Fin 8) (s : State), s.Canonical ∧ s.timeRuns = true ∧
      s.masterPort inst.val port.val = true) ∧
    (∃ (a : Access) (s : State), s.Canonical ∧ s.Shows a pPTP PTP_TS_NS) ∧
    (∃ (inst : Fin 4) (s : State), s.Canonical ∧ s.timeRuns = true ∧ s.on pPTP (INST_CFG_EN inst.val) = true ∧
      s.get pPTP PTP_CTRL_INST = inst.val ∧ s.on pPTP PTP_CTRL_SERVO_EN = true ∧ s.get pTMB TMB_CTRL_SRC = 1 ∧
      s.followsTwinTime = false) ∧
    (∃ (inst : Fin 4) (port : Fin 31) (vec : PtpVector) (h : List (Nat × Nat × PtpVector)) (s : State), s.Canonical ∧
      s.timeRuns = true ∧ s.on pPTP (INST_CFG_EN inst.val) = true ∧ s.instHasPort inst.val port.val = true ∧ port.val < 27 ∧
      h = (s.tb.heard.filter fun e => !(e.1 == inst.val && e.2.1 == port.val)) ++ [(inst.val, port.val, vec)]) :=
  ⟨⟨1, 3, 200000, ((((((slaved.set pPTP (INST_CFG_EN 1) 1).set pPTP PTP_CTRL_INST 1).set pPTP PTP_CTRL_SERVO_EN 1).set pTMB TMB_CTRL_SRC 1).wrn pPTP PTP_STEP_THR 1000).wrn pPTP PTP_LOCK_THR 1000), by decide +kernel⟩,
   ⟨0, 3, 100, 0, true, (timed.set pPTP (INST_CFG_EN 0) 1).wrn pPTP (INST_PORTS 0) 8, by decide +kernel⟩,
   ⟨1, 4, 7, 5, 5, (slaved.wrn pPTP (INST_PORTS 1) 24).set (pPORT 4) PORT_STAT_LINK 1, by decide +kernel⟩,
   ⟨1, 3, 7, 0, 0, slaved.set (pPORT 3) PORT_STAT_LINK 1, by decide +kernel⟩,
   ⟨1, 4, 7, 0, (slaved.wrn pPTP (INST_PORTS 1) 24).set (pPORT 4) PORT_STAT_LINK 1, by decide +kernel⟩,
   ⟨mon, base, by decide +kernel⟩,
   ⟨1, (((timed.set pPTP (INST_CFG_EN 1) 1).set pPTP PTP_CTRL_INST 1).set pPTP PTP_CTRL_SERVO_EN 1).set pTMB TMB_CTRL_SRC 1, by decide +kernel⟩,
   ⟨1, 3, ⟨1, 2, 3, 4, 5, 6, 7, 8⟩, [(1, 3, ⟨1, 2, 3, 4, 5, 6, 7, 8⟩)], slaved, by decide +kernel⟩⟩

theorem test_meets_HeaderCommandsComplete :
    (∃ (a : Access) (page : Nat) (v : Word) (s : State), s.Canonical ∧ s.Accepts a (pageBase page) OWNER v) ∧
    (∃ (a : Access) (page : Nat) (v : Word) (s : State), s.Canonical ∧ s.Accepts a (pageBase page) BLK_CTRL v ∧
      v.getLsbD 1 = true ∧ s.on (pageBase page) BLK_CTRL_SOFT_RST = false ∧
      tyOf (pageBase page) ∈ [0x1002, 0x1003, 0x1004, 0x1005, 0x2001, 0x3001]) ∧
    (∃ (page : Nat) (s : State), s.Canonical ∧ pageBase page ≠ pTMB ∧ s.pageUp (pageBase page) = true ∧
      s.on (pageBase page) BLK_CTRL_SOFT_RST = true) ∧
    (∃ (a : Access) (page : Nat) (v : Word) (s : State), s.Canonical ∧ s.Accepts a (pageBase page) BLK_CTRL v ∧
      v.getLsbD 1 = false ∧ s.on (pageBase page) BLK_CTRL_SOFT_RST = false ∧
      tyOf (pageBase page) ∉ [0x0004, 0x7001, 0x7003, 0xE003]) ∧
    (∃ (a : Access) (page : Nat) (v : Word) (hw : Word) (s : State), s.Canonical ∧ s.Accepts a (pageBase page) INT_RAW v ∧
      s.pageUp (pageBase page) = true) ∧
    (∃ (a : Access) (page : Nat) (v : Word) (s : State), s.Canonical ∧ s.Accepts a (pageBase page) INT_SET v) ∧
    (∃ (a : Access) (page : Nat) (v : Word) (s : State), s.Canonical ∧ s.Accepts a (pageBase page) ERR_CAP v ∧
      v.getLsbD 31 = true) ∧
    (∃ (a : Access) (page : Nat) (v : Word) (s : State), s.Canonical ∧ s.Accepts a (pageBase page) ERR_INJ v ∧
      pageBase page = pIOM ∧ bitsOf v.toNat 0 8 = 1 ∧ v.getLsbD 16 = true) ∧
    (∃ (a : Access) (page : Nat) (v : Word) (s : State), s.Canonical ∧ s.Accepts a (pageBase page) CLK_REQ v ∧
      bitsOf v.toNat 0 2 = 2) ∧
    (∃ (page : Nat) (addr : Nat) (s : State), s.Canonical ∧ s.shell.draining = [(pageBase page, addr)] ∧
      bridgeDie (tyOf (pageBase page)) = none) :=
  ⟨⟨mon, pFAG, 0x51, base, by decide +kernel⟩,
   ⟨mon, pBUF, 2, base, by decide +kernel⟩,
   ⟨pFAG, base.set pFAG BLK_CTRL_SOFT_RST 1, by decide +kernel⟩,
   ⟨mon, pFAG, 5, base, by decide +kernel⟩,
   ⟨mon, pFAG, 5, 1, base.wrn pFAG INT_RAW 7, by decide +kernel⟩,
   ⟨mon, pFAG, 5, base.wrn pFAG INT_RAW 2, by decide +kernel⟩,
   ⟨mon, pFAG, 0x80000000, (base.wrn pFAG ERR_CAP 0x1D001).wrn pFAG ERR_ADDR 9, by decide +kernel⟩,
   ⟨mon, pIOM, 0x10001, base, by decide +kernel⟩,
   ⟨mon, pHIN 3, 2, base, by decide +kernel⟩,
   ⟨pANA, 7, { base with shell.draining := [(pANA, 7)] }, by decide +kernel⟩⟩

theorem test_meets_AccessCommandsComplete :
    (∃ (a : Access) (addr : Nat) (v : Word) (s : State), s.Canonical ∧ s.Accepts a (pageBase addr) INT_EN v ∧
      pageOff addr = INT_EN ∧ (pageOf addr).isSome = true) ∧
    (∃ (a : Access) (k : Fin 16) (w : Word) (c : Nat) (s : State), s.Canonical ∧ agentCore a.agent = some c ∧
      s.agentUp a.agent = true) ∧
    (∃ (a : Access) (u : RegTarget) (c : Nat) (s : State), s.Canonical ∧ agentCore a.agent = some c ∧
      s.agentUp a.agent = true ∧ (∀ addr v, u ≠ .page addr v) ∧ ownWriteAllowed (s.levelOf a) c u = true) ∧
    (∃ (a : Access) (addr : Nat) (s : State), s.Canonical ∧ s.up.compute = true ∧ pageOf addr = none ∧
      regionOf addr = .none ∧ s.frozen pSYS = false) ∧
    (∃ (a : Access) (addr : Nat) (data : List Nat) (k : Nat) (s : State), s.Canonical ∧ s.up.compute = true ∧ data ≠ [] ∧
      s.levelOf a = .monitor ∧ pageOf addr = none ∧ regionOf addr = .tcm k ∧ smallWidth data.length addr = true) ∧
    (∃ (a : Access) (addr : Nat) (data : List Nat) (k : Nat) (s : State), s.Canonical ∧ s.up.compute = true ∧ data ≠ [] ∧
      s.levelOf a = .monitor ∧ pageOf addr = none ∧ regionOf addr = .tcm k ∧ smallWidth data.length addr = true) ∧
    (∃ (a : Access) (addr : Nat) (c : Nat) (s : State), s.Canonical ∧ s.up.compute = true ∧ strictTy (tyOf addr) = true ∧
      agentCore a.agent = some c ∧ s.frozen (pCORE c) = false) ∧
    (∃ (src : Fin 17) (addr : Nat) (s : State), s.Canonical ∧ s.up.compute = true ∧ strictTy (tyOf addr) = true ∧
      s.owns (ctxLevel (s.srcCtx src.val)) (pageBase addr) = true) ∧
    (∃ (addr : Nat) (s : State), s.Canonical ∧ s.Shows ⟨0x60, .secure, 4⟩ (pageBase addr) (pageOff addr) ∧
      (pageOf addr).isSome = true ∧ s.hidden ⟨0x60, .secure, 4⟩ (pageBase addr) (pageOff addr) = false) :=
  ⟨⟨mon, pFAG + INT_EN, 5, base, by decide +kernel⟩,
   ⟨mon, 3, 5, 0, base.set (pCORE 0) CORE_STAT_RUNNING 1, by decide +kernel⟩,
   ⟨mon, .eventSelect 3 0x83, 0, base.set (pCORE 0) CORE_STAT_RUNNING 1, by decide +kernel, by decide +kernel, by decide +kernel, (fun _ _ h => nomatch h), by decide +kernel⟩,
   ⟨mon, 0x90000000, base, by decide +kernel⟩,
   ⟨mon, 0x12020010, [1, 2, 3, 4], 1, base, by decide +kernel⟩,
   ⟨mon, 0x12020010, [1, 2, 3, 4], 1, base, by decide +kernel⟩,
   ⟨mon, pLOG + 0x40, 0, base, by decide +kernel⟩,
   ⟨16, pLOG + 0x40, base, by decide +kernel⟩,
   ⟨pLOG + 0x40, base, by decide +kernel⟩⟩

theorem test_meets_PlateCommandsComplete :
    (∃ (a : Access) (v : Word) (s : State), s.Canonical ∧ s.Accepts a pIXP IXP_CTRL v ∧ v.getLsbD 16 = true ∧
      PlateTable.valid s.shadowTable = true) ∧
    (∃ (a : Access) (v : Word) (s : State), s.Canonical ∧ s.Accepts a pIXP IXP_CTRL v ∧ v.getLsbD 16 = true ∧
      PlateTable.valid s.shadowTable = false ∧ bitsOf v.toNat 0 2 = s.get pIXP IXP_CTRL_SRC) ∧
    (∃ (a : Access) (v : Word) (s : State), s.Canonical ∧ s.Accepts a pIXP BLK_CTRL v ∧ v.getLsbD 0 = true ∧
      v.getLsbD 1 = false ∧ s.on pIXP BLK_CTRL_SOFT_RST = false ∧ s.plate.started = false ∧ s.plate.armed = none) ∧
    (∃ (io : EdgeInputs) (t0 : Int) (u : State) (s1 : State) (s : State), s.Canonical ∧ s.plate.armed = some t0 ∧
      s.plate.started = false ∧ s.timeRuns = true ∧ s.followsTwinPlate = false ∧ s.get pIXP IXP_CTRL_SRC = 0 ∧
      u = s.advanceTo (t0 + 8000).toNat ∧ s1 = (u.startPlate u.nowQ 0).1) ∧
    (∃ (io : EdgeInputs) (t0 : Int) (q : Nat) (s1 : State) (s : State), s.Canonical ∧ s.plate.armed = some t0 ∧
      s.plate.started = false ∧ s.timeRuns = true ∧ s.followsTwinPlate = false ∧ s.get pIXP IXP_CTRL_SRC = 2 ∧
      q = s.gptpAt (max s.nowQ (t0 + 8000).toNat) ∧ s1 = ((s.advanceTo q).startPlate q 0).1) ∧
    (∃ (io : EdgeInputs) (t0 : Int) (q : Int) (c : Nat) (s1 : State) (s : State), s.Canonical ∧ s.plate.armed = some t0 ∧
      s.plate.started = false ∧ s.timeRuns = true ∧ s.followsTwinPlate = true ∧ s.plate.startAt = some (q, c) ∧
      s1 = ((s.advanceTo q.toNat).startPlate q c).1) ∧
    (∃ (io : EdgeInputs) (k : Nat) (te : Int) (s1 : State) (s : State), s.Canonical ∧ s.plate.started = true ∧
      s.timeRuns = true ∧ s.plate.next = k ∧ k < 64 ∧ s.plate.inReindex = false ∧
      te = s.plate.boundary + (s.edgeOffset k : Nat) ∧
      s1 = ((({ s.advanceTo te.toNat with plate.next := k + 1 } : State).reachPos k te).firstAct k).1) ∧
    (∃ (io : EdgeInputs) (te : Int) (s1 : State) (s : State), s.Canonical ∧ s.plate.started = true ∧ s.timeRuns = true ∧
      64 ≤ s.plate.next ∧ s.plate.inReindex = false ∧ s.plate.reindex = none ∧
      te = s.plate.boundary + (s.plate.length : Nat) ∧
      s1 = (((s.advanceTo te.toNat).beginCycle te ((s.rd pIXP IXP_CYC).toNat + 1) false).firstAct 0).1) ∧
    (∃ (io : EdgeInputs) (k : Nat) (te : Int) (r : Reindex) (s1 : State) (s : State), s.Canonical ∧ s.plate.started = true ∧
      s.timeRuns = true ∧ s.plate.next = k ∧ k < 64 ∧ s.plate.inReindex = true ∧ s.get pIXP IXP_ACT_SAFE_IX = k ∧
      s.plate.reindex = some r ∧ te = s.plate.boundary + (s.edgeOffset k : Nat) ∧
      s1 = ((({ s.advanceTo te.toNat with plate.next := k + 1 } : State).reachPos k te).firstAct k).1) ∧
    (∃ (clocks : Nat) (q : Nat) (phase : Fin 8) (rising : Bool) (io : EdgeInputs) (s : State), s.Canonical ∧
      (s.advance clocks).syncActs = true ∧ rising ≠ s.on pIXP IXP_CTRL_SYNC_POL ∧ s.plate.started = true ∧
      q = (s.advance clocks).nowQ + phase.val ∧ (∀ t, s.plate.lastPulse = some t → (s.plateL : Int) ≤ 2 * (q - t))) ∧
    (∃ (clocks : Nat) (phase : Fin 8) (rising : Bool) (io : EdgeInputs) (t0 : Int) (s : State), s.Canonical ∧
      (s.advance clocks).syncActs = true ∧ rising ≠ s.on pIXP IXP_CTRL_SYNC_POL ∧ s.plate.started = true ∧
      s.plate.lastPulse = some t0 ∧ 2 * (((s.advance clocks).nowQ + phase.val : Nat) - t0) < (s.plateL : Int) ∧
      s.frozen pIXP = false) ∧
    (∃ (clocks : Nat) (phase : Fin 8) (rising : Bool) (io : EdgeInputs) (s : State), s.Canonical ∧
      rising = s.on pIXP IXP_CTRL_SYNC_POL) ∧
    (∃ (clocks : Nat) (q : Nat) (phase : Fin 8) (rising : Bool) (io : EdgeInputs) (t0 : Int) (s1 : State) (s : State), s.Canonical ∧
      (s.advance clocks).syncActs = true ∧ rising ≠ s.on pIXP IXP_CTRL_SYNC_POL ∧ s.plate.started = false ∧
      s.plate.armed = some t0 ∧ s.plate.lastPulse = none ∧ q = (s.advance clocks).nowQ + phase.val ∧
      s1 = (((({ s.advance clocks with plate.lastPulse := some (q : Int), plate.quiet := 0, plate.pulsed := true } : State).wrn pIXP IXP_SYNC_S (stampSec q)).wrn pIXP IXP_SYNC_NS (stampNs q)).startPlate q 0).1) ∧
    (∃ (ref : Nat) (s : State), s.Canonical ∧ s.plate.started = true ∧ s.timeRuns = true ∧ s.get pIXP IXP_CTRL_SRC = 2 ∧
      s.followsTwinPlate = false ∧ s.plate.lastGptp = none ∧ ref = s.gptpAt s.nowQ ∧ s.plate.boundary ≤ ref ∧
      2 * (ref - s.plate.boundary) ≤ s.plate.length ∧ 2 * (ref - s.plate.boundary) ≤ s.plateL ∧ s.plate.reindex = none) ∧
    (∃ (ref : Nat) (l : Nat) (s : State), s.Canonical ∧ s.plate.started = true ∧ s.timeRuns = true ∧
      s.get pIXP IXP_CTRL_SRC = 2 ∧ s.followsTwinPlate = false ∧ s.plate.lastGptp = some l ∧
      ref = s.gptpAt (max s.nowQ (l + 1)) ∧ s.plate.boundary < ref ∧ s.plate.length < 2 * (ref - s.plate.boundary)) ∧
    (∃ (s : State), s.Canonical ∧ s.plate.started = true ∧ s.syncActs = true ∧ 8 ≤ s.plate.quiet ∧
      s.on pIXP IXP_STAT_SYNC_LOST = false ∧ s.frozen pIXP = false) ∧
    (∃ (clocks : Nat) (cycle : Nat) (length : Nat) (crc : Nat) (seconds : Nat) (quarters : Nat) (s : State), s.Canonical ∧
      (s.advance clocks).followsTwinPlate = true ∧ (s.advance clocks).timeRuns = true) ∧
    (∃ (clocks : Nat) (cycle : Nat) (length : Nat) (crc : Nat) (seconds : Nat) (quarters : Nat) (s : State), s.Canonical ∧
      (s.advance clocks).followsTwinPlate = true ∧ (s.advance clocks).timeRuns = true ∧ s.plate.started = true) ∧
    (∃ (clocks : Nat) (cycle : Nat) (length : Nat) (crc : Nat) (seconds : Nat) (quarters : Nat) (s : State), s.Canonical ∧
      (s.advance clocks).followsTwinPlate = true ∧ (s.advance clocks).timeRuns = true) ∧
    (∃ (s : State), s.Canonical ∧ s.followsTwinPlate = true ∧ 2 ≤ s.plate.differ) ∧
    (∃ (s : State), s.Canonical ∧ s.plate.pulse = true) :=
  ⟨⟨mon, 0x10000, base, by decide +kernel⟩,
   ⟨mon, 0x10000, base.set pIXP IXP_TBL_LEN 1, by decide +kernel⟩,
   ⟨mon, 1, base, by decide +kernel⟩,
   ⟨noEdge, 0, armedPlate.advanceTo 8000, ((armedPlate.advanceTo 8000).startPlate (armedPlate.advanceTo 8000).nowQ 0).1, armedPlate, by decide +kernel⟩,
   ⟨noEdge, 0, 4000000, ((gptpArmed.advanceTo 4000000).startPlate 4000000 0).1, gptpArmed, (by first | decide +kernel | exact ⟨by decide +kernel, by decide +kernel, by decide +kernel, by decide +kernel, by decide +kernel, by decide +kernel, by decide +kernel, rfl⟩)⟩,
   ⟨noEdge, 0, 9000, 5, ((followArmed.advanceTo 9000).startPlate 9000 5).1, followArmed, (by first | decide +kernel | exact ⟨by decide +kernel, by decide +kernel, by decide +kernel, by decide +kernel, by decide +kernel, by decide +kernel, by decide +kernel, rfl⟩)⟩,
   ⟨noEdge, 1, 62500, ((({ running.advanceTo 62500 with plate.next := 2 } : State).reachPos 1 62500).firstAct 1).1, running, (by first | decide +kernel | exact ⟨by decide +kernel, by decide +kernel, by decide +kernel, by decide +kernel, by decide +kernel, by decide +kernel, by decide +kernel, rfl⟩)⟩,
   ⟨noEdge, 4000000, (((({ running with plate.next := 64 } : State).advanceTo 4000000).beginCycle 4000000 1 false).firstAct 0).1, { running with plate.next := 64 }, (by first | decide +kernel | exact ⟨by decide +kernel, by decide +kernel, by decide +kernel, by decide +kernel, by decide +kernel, by decide +kernel, by decide +kernel, rfl⟩)⟩,
   ⟨noEdge, 1, 62500, ⟨0, .own⟩, ((({ reindexing.advanceTo 62500 with plate.next := 2 } : State).reachPos 1 62500).firstAct 1).1, reindexing, (by refine ⟨by decide +kernel, by decide +kernel, by decide +kernel, by decide +kernel, by decide +kernel, by decide +kernel, by decide +kernel, by decide +kernel, by decide +kernel, rfl⟩)⟩,
   ⟨10, 85, 5, true, noEdge, { timed.set pIXP IXP_CTRL_SRC 1 with plate.started := true }, (by refine ⟨by decide +kernel, by decide +kernel, by decide +kernel, by decide +kernel, by decide +kernel, fun t h => ?_⟩; cases h)⟩,
   ⟨10, 5, true, noEdge, 0, { timed.set pIXP IXP_CTRL_SRC 1 with plate.started := true, plate.lastPulse := some 0 }, by decide +kernel⟩,
   ⟨10, 5, false, noEdge, timed, by decide +kernel⟩,
   ⟨10, 85, 5, true, noEdge, 0, ((pulsedOnce.wrn pIXP IXP_SYNC_S (stampSec 85)).wrn pIXP IXP_SYNC_NS (stampNs 85) |>.startPlate 85 0).1, { timed.set pIXP IXP_CTRL_SRC 1 with plate.armed := some 0 }, (by first | decide +kernel | exact ⟨by decide +kernel, by decide +kernel, by decide +kernel, by decide +kernel, by decide +kernel, by decide +kernel, by decide +kernel, rfl⟩)⟩,
   ⟨0, { timed.set pIXP IXP_CTRL_SRC 2 with plate.started := true }, by decide +kernel⟩,
   ⟨4000000, 0, { timed.set pIXP IXP_CTRL_SRC 2 with plate.started := true, plate.length := 5000000, plate.lastGptp := some 0 }, by decide +kernel⟩,
   ⟨{ timed.set pIXP IXP_CTRL_SRC 1 with plate.started := true, plate.quiet := 8 }, by decide +kernel⟩,
   ⟨3, 5, 4000000, 0, 0, 0, follower, by decide +kernel⟩,
   ⟨3, 5, 4000000, 0, 0, 0, { follower with plate.started := true }, by decide +kernel⟩,
   ⟨3, 5, 4000000, 0, 0, 0, follower, by decide +kernel⟩,
   ⟨{ follower with plate.differ := 2 }, by decide +kernel⟩,
   ⟨{ base with plate.pulse := true }, by decide +kernel⟩⟩

theorem test_meets_SwitchReceptionCommandsComplete :
    (∃ (clocks : Nat) (port : Fin 33) (rx : RxFrame) (u : State) (s1 : State) (s : State), s.Canonical ∧
      (s.advance clocks).switchUp = true ∧ port.val ≠ 31 ∧ s.linkUp port.val = true ∧
      u = (s.advance clocks).ingressTurn port.val ∧ (port.val < 31 → rx.fcsOk = true ∧ rx.asmOk = true ∧
      60 ≤ rx.octets.length) ∧ rx.octets.length + 4 ≤ s.get (pPORT port.val) PORT_MAXLEN_LEN ∧ macControl rx.octets = none ∧
      isLinkLocal (parseFrame rx.octets).dst = false ∧
      s1 = (u.cnt32 (pPORT port.val) CNT_RX_OK).cnt64 (pPORT port.val) CNT_RX_OCT_L CNT_RX_OCT_H (rx.octets.length + 4)) ∧
    (∃ (clocks : Nat) (port : Fin 33) (rx : RxFrame) (u : State) (s : State), s.Canonical ∧
      (s.advance clocks).switchUp = true ∧ port.val ≠ 31 ∧ s.linkUp port.val = true ∧
      u = (s.advance clocks).ingressTurn port.val ∧ port.val < 31 ∧ rx.asmOk = false) ∧
    (∃ (clocks : Nat) (port : Fin 33) (rx : RxFrame) (u : State) (s : State), s.Canonical ∧
      (s.advance clocks).switchUp = true ∧ port.val ≠ 31 ∧ s.linkUp port.val = true ∧
      u = (s.advance clocks).ingressTurn port.val ∧ port.val < 31 ∧ rx.asmOk = true ∧ rx.fcsOk = false) ∧
    (∃ (clocks : Nat) (port : Fin 33) (rx : RxFrame) (u : State) (s : State), s.Canonical ∧
      (s.advance clocks).switchUp = true ∧ port.val ≠ 31 ∧ s.linkUp port.val = true ∧
      u = (s.advance clocks).ingressTurn port.val ∧ port.val < 31 ∧ rx.asmOk = true ∧ rx.fcsOk = true ∧
      rx.octets.length < 60) ∧
    (∃ (clocks : Nat) (port : Fin 33) (rx : RxFrame) (u : State) (s : State), s.Canonical ∧
      (s.advance clocks).switchUp = true ∧ port.val ≠ 31 ∧ s.linkUp port.val = true ∧
      u = (s.advance clocks).ingressTurn port.val ∧ rx.asmOk = true ∧ rx.fcsOk = true ∧ 60 ≤ rx.octets.length ∧
      s.get (pPORT port.val) PORT_MAXLEN_LEN < rx.octets.length + 4) ∧
    (∃ (clocks : Nat) (port : Fin 33) (rx : RxFrame) (pfc : Bool) (en : Nat) (q : List Nat) (u : State) (s1 : State) (s : State), s.Canonical ∧
      (s.advance clocks).switchUp = true ∧ port.val ≠ 31 ∧ s.linkUp port.val = true ∧
      u = (s.advance clocks).ingressTurn port.val ∧ rx.asmOk = true ∧ rx.fcsOk = true ∧ 60 ≤ rx.octets.length ∧
      rx.octets.length + 4 ≤ s.get (pPORT port.val) PORT_MAXLEN_LEN ∧ macControl rx.octets = some (pfc, en, q) ∧
      s1 = (u.cnt32 (pPORT port.val) CNT_RX_OK).cnt64 (pPORT port.val) CNT_RX_OCT_L CNT_RX_OCT_H (rx.octets.length + 4)) ∧
    (∃ (clocks : Nat) (port : Fin 33) (rx : RxFrame) (q : Nat) (u : State) (s1 : State) (s : State), s.Canonical ∧
      (s.advance clocks).switchUp = true ∧ port.val ≠ 31 ∧ s.linkUp port.val = true ∧
      u = (s.advance clocks).ingressTurn port.val ∧ rx.asmOk = true ∧ rx.fcsOk = true ∧ 60 ≤ rx.octets.length ∧
      rx.octets.length + 4 ≤ s.get (pPORT port.val) PORT_MAXLEN_LEN ∧ macControl rx.octets = none ∧
      isLinkLocal (parseFrame rx.octets).dst = true ∧
      s1 = (u.cnt32 (pPORT port.val) CNT_RX_OK).cnt64 (pPORT port.val) CNT_RX_OCT_L CNT_RX_OCT_H (rx.octets.length + 4) ∧
      q = s1.ingressTime port.val rx.age) ∧
    (∃ (clocks : Nat) (starting : List Nat) (i : Nat) (k : Nat) (f : TxFrame) (d : List Nat) (u : State) (s1 : State) (s2 : State) (s : State), s.Canonical ∧
      u = (s.advance clocks).ingressTurn 31 ∧ u.switchUp = true ∧
      u.drr ((List.range 16).map fun i => u.txCandidate i) 320 u.sw.drrCur u.sw.drrDef = some (i, k, .frame f, d) ∧
      s1 = { u with
      sw.drrCur := i, sw.drrDef := d, sw.drrRing := setNth u.sw.drrRing i (4 + (k - 3) % 4)
      sw.txTok := putPair i (u.txTokens i - (f.octets.length * 8 * 1000000 : Nat)) u.sw.txTok
      sw.txTokAt := putPair i u.tb.clocks u.sw.txTokAt } ∧
      f.octets.length ≤ s.get (pPORT 31) PORT_MAXLEN_LEN ∧ f.direct = false ∧
      s2 = (s1.cnt32 (pPORT 31) CNT_RX_OK).cnt64 (pPORT 31) CNT_RX_OCT_L CNT_RX_OCT_H f.octets.length) ∧
    (∃ (clocks : Nat) (starting : List Nat) (i : Nat) (k : Nat) (f : TxFrame) (d : List Nat) (u : State) (s1 : State) (s : State), s.Canonical ∧
      u = (s.advance clocks).ingressTurn 31 ∧ u.switchUp = true ∧
      u.drr ((List.range 16).map fun i => u.txCandidate i) 320 u.sw.drrCur u.sw.drrDef = some (i, k, .frame f, d) ∧
      s1 = { u with
      sw.drrCur := i, sw.drrDef := d, sw.drrRing := setNth u.sw.drrRing i (4 + (k - 3) % 4)
      sw.txTok := putPair i (u.txTokens i - (f.octets.length * 8 * 1000000 : Nat)) u.sw.txTok
      sw.txTokAt := putPair i u.tb.clocks u.sw.txTokAt } ∧
      s.get (pPORT 31) PORT_MAXLEN_LEN < f.octets.length) ∧
    (∃ (clocks : Nat) (starting : List Nat) (u : State) (s : State), s.Canonical ∧ u = (s.advance clocks).ingressTurn 31 ∧
      u.switchUp = true ∧ u.drr ((List.range 16).map fun i => u.txCandidate i) 320 u.sw.drrCur u.sw.drrDef = none) ∧
    (∃ (ix : Fin 256) (s : State), s.Canonical ∧ s.switchUp = true ∧ s.tfOn tREC ix.val rVALID = true ∧
      (s.recovOf ix.val).takeAny = false ∧ s.frozen pFRER = false) ∧
    (∃ (ix : Fin 256) (s : State), s.Canonical ∧ s.switchUp = true ∧ s.tfOn tREC ix.val rVALID = true ∧
      s.tfOn tREC ix.val rLAT_EN = true ∧ s.frozen pFRER = false ∧
      s.tf tREC ix.val rLAT_DIFF < ((s.recovOf ix.val).base - ((s.tget tREC ix.val 2 * Config.latentPaths ix.val : Nat) - (s.tget tREC ix.val 3 : Nat) : Int)).natAbs) ∧
    (∃ (ix : Fin 16384) (s : State), s.Canonical ∧ s.switchUp = true ∧ s.get pSWC SWC_AGE_SEC ≠ 0 ∧
      s.tfOn tMAC ix.val mVALID = true ∧ s.tfOn tMAC ix.val mSTATIC = false ∧ s.get pSWC SWC_AGE_SEC ≤ s.macAge ix.val) ∧
    (∃ (starting : List Nat) (r : Retry) (l : List Retry) (u : State) (s : State), s.Canonical ∧ s.sw.retry = r :: l ∧
      ({ s with sw.retry := l } : State).pushOut r starting = (u, .placed)) ∧
    (∃ (starting : List Nat) (r : Retry) (l : List Retry) (u : State) (s : State), s.Canonical ∧ s.sw.retry = r :: l ∧
      ({ s with sw.retry := l } : State).pushOut r starting = (u, .waits)) ∧
    (∃ (starting : List Nat) (r : Retry) (l : List Retry) (u : State) (s : State), s.Canonical ∧ s.sw.retry = r :: l ∧
      ({ s with sw.retry := l } : State).pushOut r starting = (u, .dropped)) :=
  ⟨⟨5, 3, ⟨List.replicate 60 7, true, true, [], 0⟩, (linkedPort.advance 5).ingressTurn 3, (((linkedPort.advance 5).ingressTurn 3).cnt32 (pPORT 3) CNT_RX_OK).cnt64 (pPORT 3) CNT_RX_OCT_L CNT_RX_OCT_H 64, linkedPort, by decide +kernel⟩,
   ⟨5, 3, ⟨List.replicate 60 7, true, false, [], 0⟩, (linkedPort.advance 5).ingressTurn 3, linkedPort, by decide +kernel⟩,
   ⟨5, 3, ⟨List.replicate 60 7, false, true, [], 0⟩, (linkedPort.advance 5).ingressTurn 3, linkedPort, by decide +kernel⟩,
   ⟨5, 3, ⟨List.replicate 59 7, true, true, [], 0⟩, (linkedPort.advance 5).ingressTurn 3, linkedPort, by decide +kernel⟩,
   ⟨5, 3, ⟨List.replicate 2000 7, true, true, [], 0⟩, (linkedPort.advance 5).ingressTurn 3, linkedPort, by decide +kernel⟩,
   ⟨5, 3, ⟨aPause, true, true, [], 0⟩, false, 0, [255], (linkedPort.advance 5).ingressTurn 3, (((linkedPort.advance 5).ingressTurn 3).cnt32 (pPORT 3) CNT_RX_OK).cnt64 (pPORT 3) CNT_RX_OCT_L CNT_RX_OCT_H 64, linkedPort, by decide +kernel⟩,
   ⟨5, 3, ⟨aBpdu, true, true, [], 0⟩, 0, (linkedPort.advance 5).ingressTurn 3, (((linkedPort.advance 5).ingressTurn 3).cnt32 (pPORT 3) CNT_RX_OK).cnt64 (pPORT 3) CNT_RX_OCT_L CNT_RX_OCT_H 64, linkedPort, by decide +kernel⟩,
   ⟨1, [], 0, 4, aTxFrame, [960, 0, 0, 0, 0, 0, 0, 0, 0, 0, 0, 0, 0, 0, 0, 0], (ringed.advance 1).ingressTurn 31, drawn, (drawn.cnt32 (pPORT 31) CNT_RX_OK).cnt64 (pPORT 31) CNT_RX_OCT_L CNT_RX_OCT_H 64, ringed, by decide +kernel⟩,
   ⟨1, [], 0, 4, aTxFrame, [960, 0, 0, 0, 0, 0, 0, 0, 0, 0, 0, 0, 0, 0, 0, 0], (ringedLong.advance 1).ingressTurn 31, drawnLong, ringedLong, by decide +kernel⟩,
   ⟨1, [], (base.advance 1).ingressTurn 31, base, by decide +kernel⟩,
   ⟨3, { base.tset tREC 3 0 1 with sw.recov := [(3, ⟨false, 5, 1, 2⟩)] }, by decide +kernel⟩,
   ⟨3, latent, by
    refine ⟨by decide +kernel, by decide +kernel, by decide +kernel, by decide +kernel, by decide +kernel, ?_⟩
    rw [show latent.tget tREC (3 : Fin 256).val 2 = 0 from by decide +kernel, Nat.zero_mul]; decide +kernel⟩,
   ⟨3, { ((base.set pSWC SWC_AGE_SEC 300).tset tMAC 3 0 0x1234).tset tMAC 3 1 0x80000000 with tb.clocks := 200000000000, sw.macSeen := [(3, 1)] }, by decide +kernel⟩,
   ⟨[], ⟨aCopy, 5, 1⟩, [], (({ base.set pBUF BUF_CTRL_PUSH_MIN 0 with sw.retry := [] } : State).pushOut ⟨aCopy, 5, 1⟩ []).1, { base.set pBUF BUF_CTRL_PUSH_MIN 0 with sw.retry := [⟨aCopy, 5, 1⟩] }, by refine ⟨by decide +kernel, by decide +kernel, rfl⟩⟩,
   ⟨[25], ⟨{ aCopy with q := 26 }, 5, 0⟩, [], (({ evicting with sw.retry := [] } : State).pushOut ⟨{ aCopy with q := 26 }, 5, 0⟩ [25]).1, evicting, by refine ⟨by decide +kernel, by decide +kernel, by decide +kernel⟩⟩,
   ⟨[], ⟨aCopy, 5, 0⟩, [], { base with sw.retry := [] }, { base with sw.retry := [⟨aCopy, 5, 0⟩] }, by refine ⟨by decide +kernel, by decide +kernel, by decide +kernel⟩⟩⟩

theorem test_meets_SwitchTransmissionCommandsComplete :
    (∃ (port : Fin 15) (c : Nat) (s : State), s.Canonical ∧ s.sw.pauseDue = [(port.val, c)] ∧ s.pauses port.val = true ∧
      s.sendingOn port.val = none) ∧
    (∃ (port : Fin 15) (cls : Fin 8) (s : State), s.Canonical ∧ s.pauses port.val = true ∧
      s.tfOn tBPORT port.val (bXOFF cls.val) = true ∧ s.sendingOn port.val = none) ∧
    (∃ (port : Fin 15) (cls : Fin 8) (x : Copy) (s : State), s.Canonical ∧ s.pauses port.val = true ∧
      s.tfOn tBPORT port.val (bXOFF cls.val) = true ∧ s.sendingOn port.val = some x ∧
      s.sw.pauseDue.contains (port.val, cls.val) = false) ∧
    (∃ (clocks : Nat) (port : Fin 31) (enable : Nat) (q : Nat) (s : State), s.Canonical ∧
      (s.advance clocks).switchUp = true ∧ s.linkUp port.val = true ∧ fcPort port.val = true ∧
      s.tf tBPORT port.val bFC = 1 ∧ 0 < q) ∧
    (∃ (clocks : Nat) (port : Fin 31) (c : Fin 8) (quanta : List Nat) (s : State), s.Canonical ∧
      (s.advance clocks).switchUp = true ∧ s.linkUp port.val = true ∧ fcPort port.val = true ∧
      s.tf tBPORT port.val bFC = 2 ∧ (s.tf tBPORT port.val bPFC_EN).testBit c.val = true) ∧
    (∃ (port : Fin 15) (cls : Fin 8) (s : State), s.Canonical ∧ s.switchUp = true) ∧
    (∃ (port : Fin 15) (cls : Fin 8) (s : State), s.Canonical ∧ s.switchUp = true ∧ s.tf tBPORT port.val bPFC_WD ≠ 0 ∧
      s.tfOn tBPORT port.val (bPAUSED cls.val) = true ∧ s.tfOn tBPORT port.val (bTRIPPED cls.val) = false) ∧
    (∃ (port : Fin 15) (cls : Fin 8) (s : State), s.Canonical ∧ s.switchUp = true ∧
      s.tfOn tBPORT port.val (bTRIPPED cls.val) = true) ∧
    (∃ (port : Fin 32) (cls : Fin 8) (s : State), s.Canonical ∧ s.switchUp = true ∧ s.tf tBPORT port.val bSTORM ≠ 0 ∧
      s.tfOn tBPORT port.val (bXOFF cls.val) = true ∧ s.tfOn tBPORT port.val bSTORM_ACT = true) ∧
    (∃ (clocks : Nat) (port : Fin 34) (age : Nat) (x : Copy) (u : State) (s : State), s.Canonical ∧ s.switchUp = true ∧
      u = (s.advance clocks).creditRun port.val ∧ u.sendingOn port.val = some x ∧ x.sent = 0) ∧
    (∃ (clocks : Nat) (port : Fin 34) (age : Nat) (x : Copy) (u : State) (s : State), s.Canonical ∧ s.switchUp = true ∧
      u = (s.advance clocks).creditRun port.val ∧ u.sendingOn port.val = some x ∧ 0 < x.sent) ∧
    (∃ (clocks : Nat) (port : Fin 34) (age : Nat) (u : State) (s : State), s.Canonical ∧ s.switchUp = true ∧
      u = (s.advance clocks).creditRun port.val ∧ u.sendingOn port.val = none) ∧
    (∃ (clocks : Nat) (port : Fin 34) (n : Nat) (age : Nat) (x : Copy) (y : Copy) (u : State) (s : State), s.Canonical ∧
      s.switchUp = true ∧ u = (s.advance clocks).creditRun port.val ∧ u.sendingOn port.val = some x ∧
      u.mayCut port.val x n = true ∧ u.choose port.val (fun c => u.expressCls port.val c) = some y) ∧
    (∃ (port : Fin 27) (n : Nat) (s : State), s.Canonical ∧ s.switchUp = true ∧ s.plate.started = true ∧
      s.tfOn tBPORT port.val bTAS_EN = true ∧ s.holding port.val = false ∧ s.holdAhead port.val = some n) ∧
    (∃ (a : Access) (v : Word) (s : State), s.Canonical ∧ s.Accepts a pBUF BUF_GCL v ∧ v.getLsbD 0 = true) ∧
    (∃ (clocks : Nat) (q : Fin 272) (ecc : Bool) (e : Nat) (x : Copy) (u : State) (v : State) (s : State), s.Canonical ∧
      (s.advance clocks).readEngine q.val = some e ∧ u = (s.advance clocks).splFill e ∧
      (u.sw.held.find? fun c => c.q == q.val && c.place == .dram e) = some x ∧ s.switchUp = true ∧ s.dramUp = true ∧
      s.qOn q.val < s.tf tQUEUE q.val qSPILL_THR ∧ x.cells ≤ s.sharedFree ∧ x.cells * 1024 ≤ nth u.sw.splRd e 0 ∧
      v = { u.freeDram x with
      sw.held := u.sw.held.filter fun c => c.id != x.id
      sw.splRd := setNth u.sw.splRd e (nth u.sw.splRd e 0 - x.cells * 1024)
      sw.splTurn := sput 0 q.val (e + 1) u.sw.splTurn }) :=
  ⟨⟨3, 2, { (base.set (pPORT 3) PORT_STAT_LINK 1).tfSet tBPORT 3 bFC 1 with sw.pauseDue := [(3, 2)] }, by decide +kernel⟩,
   ⟨3, 2, ((base.set (pPORT 3) PORT_STAT_LINK 1).tfSet tBPORT 3 bFC 2).tfSet tBPORT 3 (bXOFF 2) 1, by decide +kernel⟩,
   ⟨3, 2, { aCopy with sending := 1 }, { ((base.set (pPORT 3) PORT_STAT_LINK 1).tfSet tBPORT 3 bFC 2).tfSet tBPORT 3 (bXOFF 2) 1 with sw.held := [{ aCopy with sending := 1 }] }, by decide +kernel⟩,
   ⟨1, 3, 0, 5, (base.set (pPORT 3) PORT_STAT_LINK 1).tfSet tBPORT 3 bFC 1, by decide +kernel⟩,
   ⟨1, 3, 2, [0, 0, 9], ((base.set (pPORT 3) PORT_STAT_LINK 1).tfSet tBPORT 3 bFC 2).tfSet tBPORT 3 bPFC_EN 255, by decide +kernel⟩,
   ⟨3, 2, base.tfSet tBPORT 3 (bPAUSED 2) 1, by decide +kernel⟩,
   ⟨3, 2, base.tfSet tBPORT 3 (bPAUSED 2) 1, by decide +kernel⟩,
   ⟨3, 2, base.tfSet tBPORT 3 (bTRIPPED 2) 1, by decide +kernel⟩,
   ⟨3, 2, (base.tfSet tBPORT 3 (bXOFF 2) 1).tfSet tBPORT 3 bSTORM_ACT 1, by decide +kernel⟩,
   ⟨5, 3, 8, { aCopy with sending := 1 }, ({ base with sw.held := [{ aCopy with sending := 1 }] }.advance 5).creditRun 3, { base with sw.held := [{ aCopy with sending := 1 }] }, by decide +kernel⟩,
   ⟨5, 3, 8, { aCopy with sending := 1, sent := 64 }, ({ base with sw.held := [{ aCopy with sending := 1, sent := 64 }] }.advance 5).creditRun 3, { base with sw.held := [{ aCopy with sending := 1, sent := 64 }] }, by decide +kernel⟩,
   ⟨5, 3, 8, (base.advance 5).creditRun 3, base, by decide +kernel⟩,
   ⟨5, 3, 60, 0, { aCopy with sending := 1, len := 200 }, { aCopy with id := 2, q := 31 }, ((cutting.advance 5).creditRun 3), cutting, by decide +kernel⟩,
   ⟨3, 1, { ((base.tfSet tBPORT 3 bTAS_EN 1).tfSet tBPORT 3 bHOLD_ADV 100).tset tGCL (64 * 3 + 1) 1 0x1FF with plate.started := true, tb.time := 60000 * 2 ^ 38 }, by decide +kernel⟩,
   ⟨mon, 1, base, by decide +kernel⟩,
   ⟨100000, 24, false, 0, { aCopy with place := .dram 0 }, (spilled.advance 100000).splFill 0, { ((spilled.advance 100000).splFill 0).freeDram { aCopy with place := .dram 0 } with
      sw.held := [], sw.splRd := setNth ((spilled.advance 100000).splFill 0).sw.splRd 0 (nth ((spilled.advance 100000).splFill 0).sw.splRd 0 0 - 1024)
      sw.splTurn := sput 0 24 1 ((spilled.advance 100000).splFill 0).sw.splTurn }, spilled, by decide +kernel⟩⟩

theorem test_meets_TableWindowCommandsComplete :
    (∃ (a : Access) (page : TaPage) (tbl : Fin 16) (s : State), s.Canonical ∧
      s.Accepts a (taAddr page) TA_CMD (BitVec.ofNat 32 (1 + tbl.val * 16)) ∧ s.on (taAddr page) TA_CMD_BUSY = false) ∧
    (∃ (a : Access) (page : TaPage) (tbl : Fin 16) (s : State), s.Canonical ∧
      s.Accepts a (taAddr page) TA_CMD (BitVec.ofNat 32 (2 + tbl.val * 16)) ∧ s.on (taAddr page) TA_CMD_BUSY = false) ∧
    (∃ (a : Access) (page : TaPage) (tbl : Fin 16) (s : State), s.Canonical ∧
      s.Accepts a (taAddr page) TA_CMD (BitVec.ofNat 32 (3 + tbl.val * 16)) ∧ s.on (taAddr page) TA_CMD_BUSY = false) ∧
    (∃ (a : Access) (page : TaPage) (tbl : Fin 16) (s : State), s.Canonical ∧
      s.Accepts a (taAddr page) TA_CMD (BitVec.ofNat 32 (4 + tbl.val * 16)) ∧ s.on (taAddr page) TA_CMD_BUSY = false) ∧
    (∃ (a : Access) (page : TaPage) (tbl : Fin 16) (s : State), s.Canonical ∧
      s.Accepts a (taAddr page) TA_CMD (BitVec.ofNat 32 (5 + tbl.val * 16)) ∧ s.on (taAddr page) TA_CMD_BUSY = false) ∧
    (∃ (a : Access) (page : TaPage) (tbl : Fin 16) (s : State), s.Canonical ∧
      s.Accepts a (taAddr page) TA_CMD (BitVec.ofNat 32 (6 + tbl.val * 16)) ∧ s.on (taAddr page) TA_CMD_BUSY = false) ∧
    (∃ (a : Access) (page : TaPage) (tbl : Fin 16) (s : State), s.Canonical ∧
      s.Accepts a (taAddr page) TA_CMD (BitVec.ofNat 32 (7 + tbl.val * 16)) ∧ s.on (taAddr page) TA_CMD_BUSY = false) ∧
    (∃ (page : TaPage) (d : TabDesc) (s : State), s.Canonical ∧ s.pageUp (taAddr page) = true ∧
      s.on (taAddr page) TA_CMD_BUSY = true ∧
      tabOf (tyOf (taAddr page)) (instOf (taAddr page)) (s.get (taAddr page) TA_CMD_TBL) = some d ∧
      s.get (taAddr page) TA_CMD_OP = 1 ∧ s.get (taAddr page) TA_IDX_IDX < d.size) :=
  ⟨⟨mon, .buf, 3, base, by decide +kernel⟩,
   ⟨mon, .buf, 3, base, by decide +kernel⟩,
   ⟨mon, .buf, 3, base, by decide +kernel⟩,
   ⟨mon, .buf, 3, base, by decide +kernel⟩,
   ⟨mon, .buf, 3, base, by decide +kernel⟩,
   ⟨mon, .buf, 3, base, by decide +kernel⟩,
   ⟨mon, .buf, 3, base, by decide +kernel⟩,
   ⟨.buf, tabGcl, (base.set pBUF TA_CMD_BUSY 1).set pBUF TA_CMD_OP 1 |>.set pBUF TA_CMD_TBL 4, by decide +kernel⟩⟩

theorem test_meets_SwitchPortCommandsComplete :
    (∃ (port : Fin 31) (s1 : State) (s : State), s.Canonical ∧ s.switchUp = true ∧ 2 ≤ port.val ∧
      s.on (pPORT port.val) PORT_STAT_LINK = true ∧
      s1 = (((s.set (pPORT port.val) PORT_STAT_LINK 0).set (pPORT port.val) PORT_STAT_SPEED 0).set (pPORT port.val) PORT_PHY_STAT_LINK 0).irq (pPORT port.val) INT_PORT_LINK_DOWN) ∧
    (∃ (port : Fin 31) (s : State), s.Canonical ∧ s.switchUp = true ∧ port.val < 2 ∧
      s.on (pPORT port.val) PORT_STAT_LINK = true ∧ s.on pSWC SWC_CTRL_AUTO_FAILOVER = true) ∧
    (∃ (port : Fin 31) (s : State), s.Canonical ∧ s.restPhy port.val = true) ∧
    (∃ (port : Fin 31) (speed : Fin 8) (s : State), s.Canonical ∧ s.switchUp = true ∧ 2 ≤ port.val ∧
      s.linkMay port.val = true ∧ s.on (pPORT port.val) PORT_STAT_LINK = false) ∧
    (∃ (port : Fin 31) (speed : Fin 8) (s : State), s.Canonical ∧ s.restPhy port.val = true ∧
      s.speedCode port.val speed.val ≠ 0) ∧
    (∃ (a : Access) (kind : SelKind) (b : Fin 64) (v : Word) (s : State), s.Canonical ∧
      s.Accepts a pSWC (selOff kind b.val) v ∧
      (s.plain pSWC (selOff kind b.val) v).get pSWC (selWant kind b.val) ≠ s.get pSWC (selActive kind b.val)) ∧
    (∃ (kind : SelKind) (b : Fin 64) (s : State), s.Canonical ∧ s.switchUp = true ∧ s.on pSWC (selPend kind b.val) = true ∧
      s.bucketHeld kind b.val = false) ∧
    (∃ (kind : SelKind) (b : Fin 64) (s : State), s.Canonical ∧ s.switchUp = true ∧ s.on pSWC (selPend kind b.val) = true) ∧
    (∃ (a : Access) (v : Word) (s : State), s.Canonical ∧ s.Accepts a pSWC SWC_CNT_CLR v ∧ v.getLsbD 0 = true) ∧
    (∃ (a : Access) (port : Fin 34) (v : Word) (s : State), s.Canonical ∧ s.Accepts a (pPORT port.val) PORT_CNT_CLR v ∧
      v.getLsbD 0 = true) ∧
    (∃ (a : Access) (port : Fin 34) (v : Word) (s : State), s.Canonical ∧ s.Accepts a (pPORT port.val) PORT_PRE v) ∧
    (∃ (port : Fin 7) (s : State), s.Canonical ∧ s.switchUp = true ∧ s.get (pPORT port.val) PORT_PRE_STATUS = 1) ∧
    (∃ (port : Fin 7) (s : State), s.Canonical ∧ s.switchUp = true ∧ s.get (pPORT port.val) PORT_PRE_STATUS = 1) :=
  ⟨⟨3, (((linkedPort.set (pPORT 3) PORT_STAT_LINK 0).set (pPORT 3) PORT_STAT_SPEED 0).set (pPORT 3) PORT_PHY_STAT_LINK 0).irq (pPORT 3) INT_PORT_LINK_DOWN, linkedPort, by decide +kernel⟩,
   ⟨0, (base.set (pPORT 0) PORT_STAT_LINK 1).set pSWC SWC_CTRL_AUTO_FAILOVER 1, by decide +kernel⟩,
   ⟨16, { base.set pSLP BLK_STAT_STATE mSTEADY_REST with up.compute := false }, by decide +kernel⟩,
   ⟨3, 4, base.set pPWR (PWR_DOM_ON 8) 1, by decide +kernel⟩,
   ⟨16, 0, { base.set pSLP BLK_STAT_STATE mSTEADY_REST with up.compute := false }, by decide +kernel⟩,
   ⟨mon, .lag, 3, 0, base, by decide +kernel⟩,
   ⟨.lag, 3, (base.set pSWC (LAG_SEL_MEMBER 3) 1).set pSWC (LAG_SEL_PENDING 3) 1, by decide +kernel⟩,
   ⟨.lag, 3, (base.set pSWC (LAG_SEL_MEMBER 3) 1).set pSWC (LAG_SEL_PENDING 3) 1, by decide +kernel⟩,
   ⟨mon, 1, base.wrn pSWC CNT_UNK_DROP 5, by decide +kernel⟩,
   ⟨mon, 3, 1, base.wrn (pPORT 3) CNT_RX_OK 5, by decide +kernel⟩,
   ⟨mon, 3, 1, base, by decide +kernel⟩,
   ⟨3, base.set (pPORT 3) PORT_PRE_STATUS 1, by decide +kernel⟩,
   ⟨3, base.set (pPORT 3) PORT_PRE_STATUS 1, by decide +kernel⟩⟩

theorem test_meets_RingCommandsComplete :
    (∃ (a : Access) (inst : Fin 16) (k : Fin 8) (v : Word) (s : State), s.Canonical ∧
      s.Accepts a (pHIN inst.val) (RING_TAIL k.val) v ∧ ringTailPre inst.val k.val v s = none) ∧
    (∃ (a : Access) (inst : Fin 16) (k : Fin 8) (v : Word) (s : State), s.Canonical ∧
      s.Accepts a (pHIN inst.val) (RING_CTRL k.val) v ∧ v.getLsbD 0 = true ∧
      s.on (pHIN inst.val) (RING_CTRL_EN k.val) = false) ∧
    (∃ (inst : Fin 16) (k : Fin 8) (s : State), s.Canonical ∧ 0 < sget 0 (8 * inst.val + k.val) s.sw.ringDone) ∧
    (∃ (a : Access) (inst : Fin 16) (k : Fin 8) (v : Word) (s : State), s.Canonical ∧
      s.Accepts a (pHIN inst.val) (RING_STAT k.val) v ∧ bitsOf v.toNat (RING_STAT_IRQ k.val).lo 1 = 1) ∧
    (∃ (a : Access) (e : Fin 4) (v : Word) (s : State), s.Canonical ∧ s.Accepts a (pSPL e.val) SPL_CNT_CLR v ∧
      v.getLsbD 0 = true) :=
  ⟨⟨mon, 2, 4, 5, base, by decide +kernel⟩,
   ⟨mon, 2, 4, 1, base.set (pHIN 2) (RING_STAT_HALT 4) 1, by decide +kernel⟩,
   ⟨2, 4, { base with sw.ringDone := [(20, 3)] }, by decide +kernel⟩,
   ⟨mon, 2, 4, BitVec.ofNat 32 (2 ^ (RING_STAT_IRQ 4).lo), base.set (pHIN 2) (RING_STAT_IRQ 4) 1, by decide +kernel⟩,
   ⟨mon, 2, 1, base.wrn (pSPL 2) SPL_PEAK 5, by decide +kernel⟩⟩

theorem test_meets_CanTrafficCommandsComplete :
    (∃ (clocks : Nat) (ctl : Fin 12) (f : BusFrame) (age : Nat) (u : State) (s : State), s.Canonical ∧
      u = s.advance clocks ∧ u.canTakes ctl.val age = true ∧ (u.canSt ctl.val).mode ≠ 2 ∧ u.canFmt ctl.val f.fmt = true ∧
      (f.rtr = true → f.fmt = 0)) ∧
    (∃ (clocks : Nat) (ctl : Fin 12) (f : BusFrame) (age : Nat) (u : State) (s : State), s.Canonical ∧
      u = s.advance clocks ∧ u.canTakes ctl.val age = true ∧ (u.canSt ctl.val).mode ≠ 2 ∧ u.canFmt ctl.val f.fmt = true ∧
      f.rtr = true ∧ f.fmt ≠ 0) ∧
    (∃ (a : Access) (ctl : Fin 12) (obj : Fin 128) (v : Word) (s : State), s.Canonical ∧
      s.Accepts a (pCXC ctl.val) (OBJ_CTRL obj.val) v ∧ objCtrlPre ctl.val obj.val v s = none ∧ v.getLsbD 9 = true ∧
      v.getLsbD 10 = false ∧ bitsOf v.toNat 0 2 = 1 ∧ s.objBusy ctl.val obj.val = false) ∧
    (∃ (clocks : Nat) (ctl : Fin 12) (o : Nat) (s : State), s.Canonical ∧ (s.advance clocks).canLive ctl.val = true ∧
      (s.advance clocks).on (pCXC ctl.val) PART_BUSY = false ∧ ((s.advance clocks).canSt ctl.val).cur = none ∧
      ((s.advance clocks).canSt ctl.val).mode ≠ 1 ∧ ((s.advance clocks).canSt ctl.val).ref = none ∧
      (s.advance clocks).guarding ctl.val = false ∧ (s.advance clocks).canPick ctl.val = some o) ∧
    (∃ (clocks : Nat) (ctl : Fin 12) (r : RefMsg) (s : State), s.Canonical ∧ (s.advance clocks).canLive ctl.val = true ∧
      (s.advance clocks).on (pCXC ctl.val) PART_BUSY = false ∧ ((s.advance clocks).canSt ctl.val).cur = none ∧
      ((s.advance clocks).canSt ctl.val).mode ≠ 1 ∧ ((s.advance clocks).canSt ctl.val).ref = some r ∧ r.counted = false) ∧
    (∃ (clocks : Nat) (ctl : Fin 12) (age : Nat) (tdc : Option Nat) (o : Nat) (u : State) (v : State) (s : State), s.Canonical ∧
      u = (s.advance clocks).canMod ctl.val (fun c => { c with cur := none }) ∧ (s.canSt ctl.val).cur = some o ∧ o < 128 ∧
      v = (u.tdcMeasure ctl.val (u.objFrame ctl.val o) tdc).canSent ctl.val (u.objFrame ctl.val o) age) ∧
    (∃ (clocks : Nat) (ctl : Fin 12) (age : Nat) (tdc : Option Nat) (r : RefMsg) (u : State) (v : State) (s : State), s.Canonical ∧
      u = (s.advance clocks).canMod ctl.val (fun c => { c with cur := none }) ∧ (s.canSt ctl.val).cur = some 128 ∧
      (s.canSt ctl.val).refOut = some r ∧
      v = (u.canMod ctl.val fun c => { c with refOut := none }).canSent ctl.val (u.refFrame ctl.val r) age) ∧
    (∃ (a : Access) (ctl : Fin 12) (obj : Fin 128) (v : Word) (won : Bool) (s : State), s.Canonical ∧
      s.Accepts a (pCXC ctl.val) (OBJ_CTRL obj.val) v ∧ objCtrlPre ctl.val obj.val v s = none ∧ v.getLsbD 9 = false ∧
      v.getLsbD 10 = true ∧ s.get (pCXC ctl.val) (OBJ_CTRL_STATUS obj.val) = 1 ∧ (s.canSt ctl.val).gwObj = []) ∧
    (∃ (a : Access) (ctl : Fin 12) (obj : Fin 128) (v : Word) (won : Bool) (s : State), s.Canonical ∧
      s.Accepts a (pCXC ctl.val) (OBJ_CTRL obj.val) v ∧ objCtrlPre ctl.val obj.val v s = none ∧ v.getLsbD 9 = false ∧
      v.getLsbD 10 = true ∧ s.get (pCXC ctl.val) (OBJ_CTRL_STATUS obj.val) = 2) ∧
    (∃ (a : Access) (ctl : Fin 12) (s : State), s.Canonical ∧ s.Shows a (pCXC ctl.val) CX_OBJ_REL ∧
      (s.canSt ctl.val).shadow = none) ∧
    (∃ (a : Access) (ctl : Fin 12) (s : State), s.Canonical ∧ s.Shows a (pCXC ctl.val) CX_PSR) ∧
    (∃ (a : Access) (ctl : Fin 12) (v : Word) (s : State), s.Canonical ∧ s.Accepts a (pCXC ctl.val) CX_WIN_SEL v ∧
      (s.canSt ctl.val).shadow = none) :=
  ⟨⟨5, 3, ⟨0, false, false, false, 0x123 * 0x40000, [1, 2], 0, 0, false, 0⟩, 100, busOn.advance 5, busOn, by decide +kernel⟩,
   ⟨5, 3, ⟨1, false, true, false, 0x123 * 0x40000, [1, 2], 0, 0, false, 0⟩, 100, (busOn.set (pCXC 3) CX_CTRL_FD_EN 1).advance 5, busOn.set (pCXC 3) CX_CTRL_FD_EN 1, by decide +kernel⟩,
   ⟨mon, 3, 4, 0x201, (base.set (pCXC 3) CX_CTRL_INIT 1), by decide +kernel⟩,
   ⟨5, 3, 4, (base.set (pCXC 3) CX_CTRL_INIT 0).wrn (pCXC 3) (OBJ_CTRL 4) 0x1001, by decide +kernel⟩,
   ⟨5, 3, ⟨1, 2, true, false, 3⟩, { busOn with can := modNth base.can 3 fun c => { c with ref := some ⟨1, 2, true, false, 3⟩ } }, by decide +kernel⟩,
   ⟨5, 3, 100, none, 4, (sending.advance 5).canMod 3 fun c => { c with cur := none }, (((sending.advance 5).canMod 3 fun c => { c with cur := none }).tdcMeasure 3 (((sending.advance 5).canMod 3 fun c => { c with cur := none }).objFrame 3 4) none).canSent 3 (((sending.advance 5).canMod 3 fun c => { c with cur := none }).objFrame 3 4) 100, sending, by refine ⟨by decide +kernel, rfl, by decide +kernel, by decide, rfl⟩⟩,
   ⟨5, 3, 100, none, ⟨1, 2, false, false, 3⟩, (refSending.advance 5).canMod 3 fun c => { c with cur := none }, (((refSending.advance 5).canMod 3 fun c => { c with cur := none }).canMod 3 fun c => { c with refOut := none }).canSent 3 (((refSending.advance 5).canMod 3 fun c => { c with cur := none }).refFrame 3 ⟨1, 2, false, false, 3⟩) 100, refSending, by refine ⟨by decide +kernel, rfl, by decide +kernel, by decide +kernel, rfl⟩⟩,
   ⟨mon, 3, 4, 0x401, false, (base.set (pCXC 3) CX_CTRL_INIT 1).wrn (pCXC 3) (OBJ_CTRL 4) 0x1001, by decide +kernel⟩,
   ⟨mon, 3, 4, 0x401, true, (base.set (pCXC 3) CX_CTRL_INIT 1).wrn (pCXC 3) (OBJ_CTRL 4) 0x2001, by decide +kernel⟩,
   ⟨mon, 3, base.set (pCXC 3) (OBJ_CTRL_NEW 0) 1, by decide +kernel⟩,
   ⟨mon, 3, base.set (pCXC 3) CX_PSR_LEC 2, by decide +kernel⟩,
   ⟨mon, 3, 5, base, by decide +kernel⟩⟩

theorem W : ∃ s : State, s.Canonical ∧ 3 < 12 ∧ 4 < 128 := ⟨base, by decide +kernel⟩

theorem test_meets_CanStateCommandsComplete :
    (∃ (ctl : Fin 12) (e : CanError) (s : State), s.Canonical ∧ s.canLive ctl.val = true ∧ (s.canSt ctl.val).mode = 0 ∧
      (s.canSt ctl.val).cur = none ∧ e.transmitting = false ∧ e.dataPhase = false ∧ e.xl = false ∧
      s.get (pCXC ctl.val) CX_ECNT_TEC < 96 ∧ s.get (pCXC ctl.val) CX_ECNT_REC < 80 ∧ s.get (pCXC ctl.val) CX_STAT_ST = 0) ∧
    (∃ (ctl : Fin 12) (e : CanError) (o : Nat) (s : State), s.Canonical ∧ s.canLive ctl.val = true ∧
      (s.canSt ctl.val).mode = 0 ∧ (s.canSt ctl.val).cur = some o ∧ o < 128 ∧ e.transmitting = true ∧ e.dataPhase = false ∧
      e.xl = false ∧ e.tdc = none ∧ s.get (pCXC ctl.val) CX_ECNT_TEC < 88 ∧ s.get (pCXC ctl.val) CX_ECNT_REC < 96 ∧
      s.get (pCXC ctl.val) CX_STAT_ST = 0 ∧ (s.canSt ctl.val).cancel.contains o = false ∧
      s.on (pCXC ctl.val) CX_CTRL_DAR = false ∧ bitsOf (s.rd (pCXC ctl.val) (OBJ_MASK o)).toNat 0 8 = 0) ∧
    (∃ (a : Access) (ctl : Fin 12) (v : Word) (s : State), s.Canonical ∧ s.Accepts a (pCXC ctl.val) CX_CTRL v ∧
      bitsOf v.toNat 1 2 ≠ 3 ∧ v.getLsbD 5 = true ∧ v.getLsbD 0 = false ∧ s.on (pCXC ctl.val) CX_CTRL_INIT = false ∧
      s.get (pCXC ctl.val) CX_STAT_ST = 2) ∧
    (∃ (ctl : Fin 12) (s : State), s.Canonical ∧ s.pageUp (pCXC ctl.val) = true ∧ (s.canSt ctl.val).recovering = true ∧
      s.get (pCXC ctl.val) CX_STAT_ST = 2) ∧
    (∃ (a : Access) (ctl : Fin 12) (v : Word) (s : State), s.Canonical ∧ s.Accepts a (pCXC ctl.val) CX_CTRL v ∧
      bitsOf v.toNat 1 2 ≠ 3 ∧ v.getLsbD 5 = false ∧ v.getLsbD 4 = false ∧ v.getLsbD 0 = false ∧
      s.on (pCXC ctl.val) CX_CTRL_INIT = true) ∧
    (∃ (ctl : Fin 12) (s : State), s.Canonical ∧ s.pageUp (pCXC ctl.val) = true ∧ (s.canSt ctl.val).cur = none) ∧
    (∃ (ctl : Fin 12) (s : State), s.Canonical ∧ s.pageUp (pCXC ctl.val) = true ∧ (s.canSt ctl.val).integrating = true ∧
      s.on (pCXC ctl.val) CX_CTRL_INIT = false ∧ s.on (pCXC ctl.val) CX_STAT_XCVR_LOST = false) ∧
    (∃ (ctl : Fin 12) (s : State), s.Canonical ∧ ctl.val < 8 ∧ s.on (pCXC ctl.val) CX_STAT_XCVR_LOST = false) ∧
    (∃ (ctl : Fin 12) (j : Nat) (s : State), s.Canonical ∧ s.refAhead ctl.val = some j ∧ s.canLive ctl.val = true ∧
      s.refOn ctl.val = true ∧ s.plate.started = true ∧
      s.edgeTime j ≤ s.nowQ + 4000 * (s.rd (pCXC ctl.val) CX_REF_GUARD).toNat) :=
  ⟨⟨3, ⟨2, false, false, true, false, none, 0⟩, base.set (pCXC 3) CX_CTRL_INIT 0, by decide +kernel⟩,
   ⟨3, ⟨2, false, true, true, false, none, 0⟩, 4, sending, by decide +kernel⟩,
   ⟨mon, 3, 0x20, (base.set (pCXC 3) CX_CTRL_INIT 0).set (pCXC 3) CX_STAT_ST 2, by decide +kernel⟩,
   ⟨3, { base.set (pCXC 3) CX_STAT_ST 2 with can := modNth base.can 3 fun c => { c with recovering := true } }, by decide +kernel⟩,
   ⟨mon, 3, 0x4, base.set (pCXC 3) CX_CTRL_INIT 1, by decide +kernel⟩,
   ⟨3, base.set (pCXC 3) CX_CTRL_MODE 1, by decide +kernel⟩,
   ⟨3, { base.set (pCXC 3) CX_CTRL_INIT 0 with can := modNth base.can 3 fun c => { c with integrating := true } }, by decide +kernel⟩,
   ⟨3, base, by decide +kernel⟩,
   ⟨3, 1, { ((busOn.set (pCXC 3) CX_REF_CTRL_EN 1).wrn (pCXC 3) CX_REF_POS_LO 2).wrn (pCXC 3) CX_REF_GUARD 200 with plate.started := true }, by decide +kernel⟩⟩

theorem test_meets_LinCommandsComplete :
    (∃ (ch : Fin 8) (ident : Fin 64) (k : Nat) (s : State), s.Canonical ∧ s.linLive ch.val = true ∧
      s.on (pLNC ch.val) LN_CTRL_MASTER = false ∧ s.on (pLNC ch.val) PART_BUSY = false ∧
      s.linRsp ch.val ident.val = some k) ∧
    (∃ (clocks : Nat) (ch : Fin 8) (data : List Nat) (checksum : Nat) (i : Nat) (k : Option Nat) (age : Nat) (s : State), s.Canonical ∧
      ((s.advance clocks).linSt ch.val).cur = some (i, k, false) ∧ (s.advance clocks).linLive ch.val = true ∧
      (s.advance clocks).linCheck ch.val i k data checksum = true ∧ ((s.advance clocks).linSt ch.val).waiting = [] ∧
      (s.rd pGWC GWC_CTRL).toNat.testBit (ch.val % 4) = false ∧ ((s.advance clocks).linSt ch.val).fifo.length < 16) ∧
    (∃ (clocks : Nat) (ch : Fin 8) (data : List Nat) (checksum : Nat) (i : Nat) (k : Option Nat) (age : Nat) (u : State) (v : State) (s : State), s.Canonical ∧
      u = s.advance clocks ∧ (u.linSt ch.val).cur = some (i, k, false) ∧ u.linLive ch.val = true ∧
      u.linCheck ch.val i k data checksum = true ∧
      v = (u.set (pLNC ch.val) LN_STAT_STUCK 0).linMod ch.val (fun c => { c with cur := none })) ∧
    (∃ (clocks : Nat) (ch : Fin 8) (data : List Nat) (checksum : Nat) (collision : Bool) (age : Nat) (s : State), s.Canonical ∧
      (s.advance clocks).linLive ch.val = true ∧ (s.linSt ch.val).waiting = [] ∧ s.frozen (pLNC ch.val) = false) ∧
    (∃ (clocks : Nat) (ch : Fin 8) (data : List Nat) (checksum : Nat) (i : Nat) (k : Nat) (own : Bool) (age : Nat) (s : State), s.Canonical ∧
      (s.advance clocks).linLive ch.val = true ∧ (s.linSt ch.val).cur = some (i, some k, own) ∧ s.linType ch.val k = 1 ∧
      (s.linSt ch.val).waiting = []) ∧
    (∃ (ch : Fin 8) (x : Nat × Option Nat × Bool) (s : State), s.Canonical ∧ s.linLive ch.val = true ∧
      (s.linSt ch.val).cur = some x ∧ (s.linSt ch.val).waiting = [] ∧ s.frozen (pLNC ch.val) = false) ∧
    (∃ (a : Access) (ch : Fin 8) (s : State), s.Canonical ∧ s.Shows a (pLNC ch.val) LN_RX_POP) ∧
    (∃ (ch : Fin 8) (s : State), s.Canonical ∧ s.linLive ch.val = true ∧ s.on (pLNC ch.val) LN_STAT_STUCK = false) ∧
    (∃ (ch : Fin 8) (s : State), s.Canonical ∧ s.pageUp (pLNC ch.val) = true ∧
      s.on (pLNC ch.val) LN_STAT_XCVR_LOST = false ∧ (s.mode = mPARTIAL ∨ s.mode = mRUN)) ∧
    (∃ (a : Access) (ch : Fin 8) (v : Word) (s : State), s.Canonical ∧ s.Accepts a (pLNC ch.val) LN_CTRL v ∧
      v.getLsbD 2 = true ∧ s.on (pLNC ch.val) LN_STAT_XCVR_LOST = false) :=
  ⟨⟨3, 0x15, 2, ((base.set (pLNC 3) LN_CTRL_EN 1).set (pLNC 3) (LN_RSP_VALID 2) 1).set (pLNC 3) (LN_RSP_ID 2) 0x15, by decide +kernel⟩,
   ⟨5, 3, [1, 2], 252, 0x3D, none, 9, { base.set (pLNC 3) LN_CTRL_EN 1 with lin := modNth base.lin 3 fun c => { c with cur := some (0x3D, none, false) } }, by decide +kernel⟩,
   ⟨5, 3, [1, 2], 252, 0x3D, none, 9, hearing.advance 5, ((hearing.advance 5).set (pLNC 3) LN_STAT_STUCK 0).linMod 3 fun c => { c with cur := none }, hearing, by refine ⟨by decide +kernel, rfl, by decide +kernel, by decide +kernel, by decide +kernel, rfl⟩⟩,
   ⟨5, 3, [], 0, false, 9, hearing, by decide +kernel⟩,
   ⟨5, 3, [], 0, 5, 2, false, 9, { (base.set (pLNC 3) LN_CTRL_EN 1).set (pLNC 3) (LN_SCH_TYPE 2) 1 with lin := modNth base.lin 3 fun c => { c with cur := some (5, some 2, false) } }, by decide +kernel⟩,
   ⟨3, (0x3D, none, false), { base.set (pLNC 3) LN_CTRL_EN 1 with lin := modNth base.lin 3 fun c => { c with cur := some (0x3D, none, false) } }, by decide +kernel⟩,
   ⟨mon, 3, { base with lin := modNth base.lin 3 fun c => { c with fifo := [(1, [2])] } }, by decide +kernel⟩,
   ⟨3, base.set (pLNC 3) LN_CTRL_EN 1, by decide +kernel⟩,
   ⟨3, timed, by decide +kernel⟩,
   ⟨mon, 3, 0xD05, base, by decide +kernel⟩⟩

theorem test_meets_GatewayCommandsComplete :
    (∃ (clocks : Nat) (e : Fin 4) (lin : Bool) (n : Nat) (sec : Nat) (ns : Nat) (f : BusFrame) (q : List GwItem) (u : State) (v : State) (s : State), s.Canonical ∧
      u = s.advance clocks ∧ s.gwIn[e.val]? = some (.bus lin n f sec ns :: q) ∧ u.engineOn e.val = true ∧
      v = u.gwTake e.val sec ns) ∧
    (∃ (clocks : Nat) (e : Fin 4) (octets : List Nat) (sec : Nat) (ns : Nat) (q : List GwItem) (u : State) (v : State) (s : State), s.Canonical ∧
      u = s.advance clocks ∧ s.gwIn[e.val]? = some (.eth octets sec ns :: q) ∧ u.engineOn e.val = true ∧
      v = u.gwTake e.val sec ns) ∧
    (∃ (clocks : Nat) (ctl : Fin 12) (w : GwWait) (o : Nat) (s : State), s.Canonical ∧
      (s.advance clocks).pageUp (pCXC ctl.val) = true ∧ ((s.advance clocks).canSt ctl.val).gwWait = [w] ∧
      ((s.advance clocks).canSt ctl.val).gwObj = [] ∧ (s.advance clocks).pastDeadline w.route w.sec w.ns = false ∧
      (s.advance clocks).gwObject ctl.val w.f.data.length = some o) ∧
    (∃ (clocks : Nat) (ctl : Fin 12) (obj : Fin 128) (g : GwObj) (s : State), s.Canonical ∧
      ((s.advance clocks).canSt ctl.val).gwObj = [g] ∧ g.obj = obj.val ∧ g.expired = false ∧
      (s.advance clocks).pastDeadline g.route g.sec g.ns = true ∧
      (s.advance clocks).get (pCXC ctl.val) (OBJ_CTRL_STATUS obj.val) = 1) ∧
    (∃ (e : Fin 4) (w : CapWait) (s : State), s.Canonical ∧ s.engineOn e.val = true ∧ s.capWaits e.val = [w] ∧ 1 < w.left) ∧
    (∃ (clocks : Nat) (ch : Nat) (e : Nat) (x : Nat) (octets : List Nat) (u : State) (s : State), s.Canonical ∧
      u = s.advance clocks ∧ ch = u.get pGWC GWC_CAP_MB_REPLY ∧ e = u.get pGWC GWC_CAP_REPLY_ENG ∧ u.engineOn e = true ∧
      u.on (pMBC ch) MB_STAT_FULL = true ∧ u.get (pMBC ch) MB_CFG_RX_AGENT = 0x30 + e ∧ x < 2 ∧
      u.get (pMBC ch) MB_STAMP_V % 256 = 0x10 + 2 * x ∧
      octets = (((List.range (u.get (pMBC ch) MB_STAT_LEN)).map fun k => (u.rd (pMBC ch) (MB_DATA k)).toNat).map (bytesLE 4)).flatten) ∧
    (∃ (a : Access) (e : Fin 4) (v : Word) (s : State), s.Canonical ∧ s.Accepts a (pPEG e.val) PEG_CNT_CLR v ∧
      v.getLsbD 0 = true) ∧
    (∃ (clocks : Nat) (stream : Fin 64) (m : List Nat) (l : List (List Nat)) (octets : List Nat) (u : State) (s : State), s.Canonical ∧
      u = s.advance clocks ∧ u.batchOf stream.val = m :: l ∧ u.switchUp = true ∧
      octets = buildFrame (u.entryAddr tSTREAM stream.val 0) Config.gwAddr.toNat (some (u.tf tSTREAM stream.val tPCP, 0, u.tf tSTREAM stream.val tVID)) (bytesBE 2 0x22F0 ++ u.avtpBody stream.val (m :: l).flatten)) :=
  ⟨⟨5, 1, false, 3, 7, 8, ⟨0, false, false, false, 0x123 * 0x40000, [1, 2], 0, 0, false, 0⟩, [], gwUp.advance 5, (gwUp.advance 5).gwTake 1 7 8, gwUp, by decide +kernel⟩,
   ⟨5, 2, [1, 2], 7, 8, [], gwUp.advance 5, (gwUp.advance 5).gwTake 2 7 8, gwUp, by decide +kernel⟩,
   ⟨5, 3, ⟨1, 2, ⟨0, false, false, false, 0x123 * 0x40000, [1, 2], 0, 0, false, 0⟩, 7, 8⟩, 4, { (base.wrn (pCXC 3) (OBJ_CTRL 4) 1).set (pCXC 3) (OBJ_CTRL_GW 4) 1 with can := modNth base.can 3 fun c => { c with gwWait := [⟨1, 2, ⟨0, false, false, false, 0x123 * 0x40000, [1, 2], 0, 0, false, 0⟩, 7, 8⟩] } }, by decide +kernel⟩,
   ⟨5, 3, 4, ⟨4, 1, 2, 0, 0, false⟩, { ((base.tset tROUTE 2 4 0x10000).set (pCXC 3) (OBJ_CTRL_TYPE 4) 1).set (pCXC 3) (OBJ_CTRL_STATUS 4) 1 with can := modNth base.can 3 fun c => { c with gwObj := [⟨4, 1, 2, 0, 0, false⟩] }, tb := { base.tb with time := 9000 * unitsPerQuarter } }, by decide +kernel⟩,
   ⟨1, ⟨0, [1, 2, 3, 4], 20⟩, { gwUp with gw.cap := [[], [⟨0, [1, 2, 3, 4], 20⟩], [], []] }, by decide +kernel⟩,
   ⟨5, 5, 1, 1, [], replying.advance 5, replying, by decide +kernel⟩,
   ⟨mon, 1, 1, base.wrn (pPEG 1) PEG_CNT_IN 5, by decide +kernel⟩,
   ⟨5, 3, [1, 2], [], buildFrame ((batched.advance 5).entryAddr tSTREAM 3 0) Config.gwAddr.toNat (some ((batched.advance 5).tf tSTREAM 3 tPCP, 0, (batched.advance 5).tf tSTREAM 3 tVID)) (bytesBE 2 0x22F0 ++ (batched.advance 5).avtpBody 3 [1, 2]), batched.advance 5, batched, by refine ⟨by decide +kernel, rfl, by decide +kernel, by decide +kernel, rfl⟩⟩⟩

theorem test_meets_ChannelRegisterCommandsComplete :
    (∃ (a : Access) (die : Fin 2) (ch : Fin 16) (v : Word) (s : State), s.Canonical ∧ s.Sized ∧
      s.Accepts a (pLSW die.val ch.val) LSW_CTRL v ∧ v.getLsbD 16 = false) ∧
    (∃ (a : Access) (die : Fin 2) (ch : Fin 16) (v : Word) (s : State), s.Canonical ∧ s.Sized ∧
      s.Accepts a (pLSW die.val ch.val) LSW_CTRL v ∧ v.getLsbD 16 = false) ∧
    (∃ (a : Access) (die : Fin 2) (ch : Fin 16) (v : Word) (s : State), s.Canonical ∧ s.Sized ∧
      s.Accepts a (pLSW die.val ch.val) LSW_CTRL v ∧ v.getLsbD 16 = true ∧ (s.chan die.val ch.val).st = 6 ∧
      s.limpHeld die.val ch.val = false ∧ s.loadCode die.val ch.val ≤ 2048 ∧ (s.chan die.val ch.val).tj ≤ 150000) ∧
    (∃ (a : Access) (die : Fin 2) (ch : Fin 16) (v : Word) (s : State), s.Canonical ∧ s.Sized ∧
      s.Accepts a (pLSW die.val ch.val) LSW_CTRL v ∧ v.getLsbD 16 = true ∧ (s.chan die.val ch.val).st = 6 ∧
      s.limpHeld die.val ch.val = true) ∧
    (∃ (a : Access) (die : Fin 2) (v : Word) (s : State), s.Canonical ∧ s.Sized ∧
      s.Accepts a (pPDC die.val) PDC_OUT_IMG v) ∧
    (∃ (a : Access) (die : Fin 2) (ch : Fin 16) (v : Word) (s : State), s.Canonical ∧
      s.Accepts a (pLSW die.val ch.val) LSW_PROF v ∧ lswProfPre die.val ch.val v s = none) ∧
    (∃ (a : Access) (die : Fin 2) (ch : Fin 16) (v : Word) (s : State), s.Canonical ∧
      s.Accepts a (pLSW die.val ch.val) LSW_PROT v ∧ lswProtPre die.val ch.val v s = none) ∧
    (∃ (a : Access) (die : Fin 2) (ch : Fin 16) (v : Word) (s : State), s.Canonical ∧
      s.Accepts a (pLSW die.val ch.val) LSW_CLAMP v) ∧
    (∃ (a : Access) (die : Fin 2) (ch : Fin 16) (v : Word) (s : State), s.Canonical ∧
      s.Accepts a (pLSW die.val ch.val) LSW_CNT_CLR v ∧ v.getLsbD 0 = true) ∧
    (∃ (a : Access) (die : Fin 2) (ch : Fin 16) (v : Word) (s : State), s.Canonical ∧
      s.Accepts a (pLSW die.val ch.val) LSW_SNS_CLR v ∧ v.getLsbD 0 = true) :=
  ⟨⟨mon, 0, 3, 7, linked, by decide +kernel⟩,
   ⟨mon, 0, 3, 7, linked, by decide +kernel⟩,
   ⟨mon, 0, 3, 0x10000, linked.modChan 0 3 (fun c => { c with st := 6, x := 0 }), by decide +kernel⟩,
   ⟨mon, 0, 3, 0x10000, ((linked.modDie 0 (fun z => { z with limpOn := true })).modChan 0 3 (fun c => { c with st := 6, x := 0 })).set (pLSW 0 3) LSW_HOLD_LH_MAP 1, by decide +kernel⟩,
   ⟨mon, 0, 0x8001, (linked.set (pLSW 0 0) LSW_CTRL_ARM 1).set (pLSW 0 0) LSW_CTRL_SRC 0, by decide +kernel⟩,
   ⟨mon, 0, 3, 0x00640A01, linked, by decide +kernel⟩,
   ⟨mon, 0, 3, 0x0101101B, linked, by decide +kernel⟩,
   ⟨mon, 0, 3, 0x01010100, linked, by decide +kernel⟩,
   ⟨mon, 0, 3, 1, linked.wrn (pLSW 0 3) LSW_CNT 5, by decide +kernel⟩,
   ⟨mon, 0, 3, 1, linked.wrn (pLSW 0 3) LSW_IPEAK 5, by decide +kernel⟩⟩

theorem test_meets_ChannelProtectionCommandsComplete :
    (∃ (clocks : Nat) (die : Fin 2) (ch : Fin 16) (peak : Int) (s : State), s.Canonical ∧ s.Sized ∧
      (s.advance clocks).hasChan die.val = true ∧
      (((s.advance clocks).chan die.val ch.val).st = 2 ∨ ((s.advance clocks).chan die.val ch.val).st = 3 ∨ ((s.advance clocks).chan die.val ch.val).st = 5) ∧
      (s.advance clocks).iscMa die.val ch.val < peak.natAbs * 4096) ∧
    (∃ (clocks : Nat) (die : Fin 2) (ch : Fin 16) (current : Nat) (s : State), s.Canonical ∧ s.Sized ∧
      (s.advance clocks).hasChan die.val = true ∧
      (((s.advance clocks).chan die.val ch.val).st = 2 ∨ ((s.advance clocks).chan die.val ch.val).st = 3 ∨ ((s.advance clocks).chan die.val ch.val).st = 5) ∧
      ((s.advance clocks).chan die.val ch.val).rev = false ∧ (s.advance clocks).ilimMa die.val ch.val < current * 4096 ∧
      ((s.advance clocks).chan die.val ch.val).onAt + (s.advance clocks).get (pLSW die.val ch.val) LSW_PROT_BLANK * 500000 + (s.advance clocks).get (pLSW die.val ch.val) LSW_PROT_TLIM * 50000 ≤ (s.advance clocks).tb.clocks) ∧
    (∃ (die : Fin 2) (ch : Fin 16) (tj : Nat) (s : State), s.Canonical ∧ s.Sized ∧ s.hasChan die.val = true ∧
      ((s.chan die.val ch.val).st = 2 ∨ (s.chan die.val ch.val).st = 3 ∨ (s.chan die.val ch.val).st = 5) ∧ 175000 ≤ tj) ∧
    (∃ (die : Fin 2) (g : Fin 3) (lowest : Nat) (i : Nat) (s : State), s.Canonical ∧ s.Sized ∧ s.dieOn die.val = true ∧
      i ∈ s.chanIxs die.val ∧ groupOf i = g.val ∧ s.chanCode die.val i = 2 ∧
      lowest < s.get (pPDC die.val) (GRP_CFG_UV g.val) * 10) ∧
    (∃ (clocks : Nat) (die : Fin 2) (io : DieSample) (i : Nat) (s : State), s.Canonical ∧ s.Sized ∧
      (s.advance clocks).dieOn die.val = true ∧ i ∈ s.chanIxs die.val) ∧
    (∃ (clocks : Nat) (die : Fin 2) (ch : Fin 16) (energy : Nat) (s : State), s.Canonical ∧ s.Sized ∧
      (s.advance clocks).hasChan die.val = true ∧ ((s.advance clocks).chan die.val ch.val).turning = 1 ∧
      ((s.advance clocks).chan die.val ch.val).st = 4) ∧
    (∃ (clocks : Nat) (die : Fin 2) (ch : Fin 16) (current : Nat) (s : State), s.Canonical ∧ s.Sized ∧
      (s.advance clocks).hasChan die.val = true ∧ ((s.advance clocks).chan die.val ch.val).st = 3 ∧
      ((s.advance clocks).chan die.val ch.val).rev = false ∧ Config.byClass ch.val 1000 400 100 < current) ∧
    (∃ (die : Fin 2) (ch : Fin 16) (s : State), s.Canonical ∧ s.Sized ∧ s.hasChan die.val = true ∧
      (s.chan die.val ch.val).rev = true) ∧
    (∃ (die : Fin 2) (ch : Fin 16) (current : Int) (s : State), s.Canonical ∧ s.Sized ∧ s.hasChan die.val = true ∧
      s.on (pLSW die.val ch.val) LSW_CTRL_OL_EN = true ∧ s.chanCode die.val ch.val = 3 ∧
      current < (s.get (pLSW die.val ch.val) LSW_OL_OL_TH * 10 : Nat) ∧ (s.chan die.val ch.val).openLoad = false) ∧
    (∃ (die : Fin 2) (ch : Fin 16) (s : State), s.Canonical ∧ s.Sized ∧ s.hasChan die.val = true ∧
      s.chanCode die.val ch.val = 0 ∧ s.on (pLSW die.val ch.val) LSW_CTRL_DUAL = false ∧
      (s.chan die.val ch.val).shortBat = false) ∧
    (∃ (die : Fin 2) (ch : Fin 16) (s : State), s.Canonical ∧ s.Sized ∧ s.hasChan die.val = true ∧
      s.chanCode die.val ch.val = 0) :=
  ⟨⟨5, 0, 3, -400000, linked.modChan 0 3 (fun c => { c with st := 3 }), by decide +kernel⟩,
   ⟨200000000, 0, 3, 400000, linked.modChan 0 3 (fun c => { c with st := 3 }), by decide +kernel⟩,
   ⟨0, 3, 180000, linked.modChan 0 3 (fun c => { c with st := 3 }), by decide +kernel⟩,
   ⟨0, 0, 500, 3, linked.modChan 0 3 (fun c => { c with st := 2 }), by decide +kernel⟩,
   ⟨5, 0, ⟨List.replicate 16 1000000, List.replicate 16 12000, List.replicate 16 30000, [12000, 12000, 12000], 0⟩, 3, linked, by decide +kernel⟩,
   ⟨5, 0, 3, 70, linked.modChan 0 3 (fun c => { c with st := 4, turning := 1 }), by decide +kernel⟩,
   ⟨5, 0, 3, 2000, linked.modChan 0 3 (fun c => { c with st := 3 }), by decide +kernel⟩,
   ⟨0, 3, linked.modChan 0 3 (fun c => { c with rev := true }), by decide +kernel⟩,
   ⟨0, 3, 0, ((linked.set (pLSW 0 3) LSW_CTRL_OL_EN 1).set (pLSW 0 3) LSW_OL_OL_TH 9).modChan 0 3 (fun c => { c with st := 3 }), by decide +kernel⟩,
   ⟨0, 3, linked, by decide +kernel⟩,
   ⟨0, 3, linked.modChan 0 3 (fun c => { c with shortBat := true }), by decide +kernel⟩⟩

theorem test_meets_HoldingCommandsComplete :
    (∃ (clocks : Nat) (die : Fin 2) (s : State), s.Canonical ∧ s.Sized ∧ (s.advance clocks).dieOn die.val = true ∧
      ((s.advance clocks).die die.val).lost = false ∧ ((s.advance clocks).die die.val).st = 0 ∧
      (s.advance clocks).holdMs die.val ≠ 0) ∧
    (∃ (clocks : Nat) (die : Fin 2) (s : State), s.Canonical ∧ s.Sized ∧ (s.advance clocks).dieOn die.val = true ∧
      (s.advance clocks).up.compute = false ∧ ((s.advance clocks).die die.val).lost = false ∧
      ((s.advance clocks).die die.val).st = 2) ∧
    (∃ (clocks : Nat) (die : Fin 2) (s : State), s.Canonical ∧ s.Sized ∧ (s.advance clocks).dieOn die.val = true ∧
      ((s.advance clocks).die die.val).st = 1 ∧ ((s.advance clocks).die die.val).resume = none) ∧
    (∃ (clocks : Nat) (die : Fin 2) (s : State), s.Canonical ∧ s.Sized ∧ (s.advance clocks).dieOn die.val = true ∧
      ((s.advance clocks).die die.val).st = 2 ∧ ((s.advance clocks).die die.val).resume = none) ∧
    (∃ (a : Access) (die : Fin 2) (v : Word) (s : State), s.Canonical ∧ s.Sized ∧ s.Accepts a (pPDC die.val) PDC_HOLD v ∧
      v.getLsbD 16 = true ∧ (s.die die.val).st ≠ 0 ∧ (s.die die.val).resume = none ∧
      s.cmdMask die.val (fun i => s.lswCmd die.val i) = s.cmdMask die.val (fun i => (s.die die.val).cmds.testBit i)) ∧
    (∃ (die : Fin 2) (ppm : Int) (s2 : State) (s : State), s.Canonical ∧ s.Sized ∧ s.dieOn die.val = true ∧
      (s.die die.val).st ≠ 0 ∧ (s.die die.val).synced = false ∧
      s2 = (let z := s.die die.val; let base := if z.pos.isNone then s.tb.clocks else z.edgeAt
        let wait := (((z.nextLocal.2 : Int) * (1000000 + clampAbs 5000 ppm) + 7999999) / 8000000).toNat
        (s.advance (base + wait - s.tb.clocks)).modDie die.val fun z =>
          { z with pos := some z.nextLocal.1, edgeAt := base + wait, curLen := if z.nextLocal.1 = 0 then z.nomLen else z.curLen })) ∧
    (∃ (clocks : Nat) (octets : List Nat) (die : Fin 2) (s : State), s.Canonical ∧ s.Sized ∧
      (s.advance clocks).twcFor die.val octets = true ∧ (s.advance clocks).twcFor (1 - die.val) octets = false ∧
      twcGood octets = true ∧ twcCmd octets = 1 ∧ (s.advance clocks).twcOpen die.val = true) ∧
    (∃ (clocks : Nat) (octets : List Nat) (die : Fin 2) (s : State), s.Canonical ∧ s.Sized ∧
      (s.advance clocks).twcFor die.val octets = true ∧ (s.advance clocks).twcFor (1 - die.val) octets = false ∧
      twcGood octets = true ∧ twcCmd octets = 2 ∧ (s.advance clocks).twcOpen die.val = true) ∧
    (∃ (clocks : Nat) (octets : List Nat) (die : Fin 2) (s : State), s.Canonical ∧ s.Sized ∧
      (s.advance clocks).twcFor die.val octets = true ∧ (s.advance clocks).twcFor (1 - die.val) octets = false ∧
      twcGood octets = true ∧ twcCmd octets = 3 ∧ (s.advance clocks).twcOpen die.val = true ∧
      ((s.advance clocks).die die.val).st ≠ 3) ∧
    (∃ (clocks : Nat) (octets : List Nat) (die : Fin 2) (s : State), s.Canonical ∧ s.Sized ∧
      (s.advance clocks).twcFor die.val octets = true ∧ (s.advance clocks).twcFor (1 - die.val) octets = false ∧
      twcGood octets = true ∧ twcCmd octets = 4 ∧ (s.advance clocks).twcOpen die.val = true ∧
      (s.advance clocks).hasChan die.val = true ∧ ((s.advance clocks).chan die.val (nth octets 2 0 % 16)).st = 6 ∧
      (s.advance clocks).limpHeld die.val (nth octets 2 0 % 16) = false ∧
      (s.advance clocks).loadCode die.val (nth octets 2 0 % 16) ≤ 2048 ∧
      ((s.advance clocks).chan die.val (nth octets 2 0 % 16)).tj ≤ 150000) ∧
    (∃ (clocks : Nat) (octets : List Nat) (die : Fin 2) (s : State), s.Canonical ∧ s.Sized ∧
      (s.advance clocks).twcFor die.val octets = true ∧ (s.advance clocks).twcFor (1 - die.val) octets = false ∧
      twcGood octets = true ∧ twcCmd octets = 5 ∧ (s.advance clocks).on (pPDC die.val) PDC_TWC_EN = true ∧
      twcDest octets ≠ 3) :=
  ⟨⟨5, 0, linked.set (pPDC 0) PDC_HOLD_HOLD_TIME 50, by decide +kernel⟩,
   ⟨5, 1, { linked.modDie 1 (fun z => { z with st := 2 }) with up.compute := false }, by decide +kernel⟩,
   ⟨5, 0, linked.modDie 0 (fun z => { z with st := 1 }), by decide +kernel⟩,
   ⟨5, 0, linked.modDie 0 (fun z => { z with st := 2 }), by decide +kernel⟩,
   ⟨mon, 0, 0x10032, linked.modDie 0 (fun z => { z with st := 1 }), by decide +kernel⟩,
   ⟨0, 0, (let s := linked.modDie 0 (fun z => { z with st := 1 }); let z := s.die 0; let base := if z.pos.isNone then s.tb.clocks else z.edgeAt
        let wait := (((z.nextLocal.2 : Int) * (1000000 + clampAbs 5000 0) + 7999999) / 8000000).toNat
        (s.advance (base + wait - s.tb.clocks)).modDie 0 fun z =>
          { z with pos := some z.nextLocal.1, edgeAt := base + wait, curLen := if z.nextLocal.1 = 0 then z.nomLen else z.curLen }), linked.modDie 0 (fun z => { z with st := 1 }), by decide +kernel⟩,
   ⟨5, twcSeal [0x91, 5, 0xFF, 0xFF, 0, 3], 0, twcReady, by decide +kernel⟩,
   ⟨5, twcSeal [0x92, 5], 0, twcReady, by decide +kernel⟩,
   ⟨5, twcSeal [0x93, 5], 0, twcReady, by decide +kernel⟩,
   ⟨5, twcSeal [0x94, 5, 3], 0, twcReady.modChan 0 3 (fun c => { c with st := 6, x := 0 }), by decide +kernel⟩,
   ⟨5, twcSeal [0x95, 5], 0, twcReady, by decide +kernel⟩⟩

theorem test_meets_BoardNetCommandsComplete :
    (∃ (clocks : Nat) (die : Fin 2) (i : Nat) (s : State), s.Canonical ∧ s.Sized ∧ (s.advance clocks).dieOn die.val = true ∧
      (s.advance clocks).on (pPDC die.val) PDC_LH_ARM = true ∧ (s.advance clocks).on (pPDC die.val) PDC_LH_EN_LVL = false ∧
      ((s.advance clocks).die die.val).limpOn = false ∧ i ∈ s.chanIxs die.val ∧
      (s.advance clocks).on (pLSW die.val i) LSW_HOLD_LH_MAP = true ∧ ((s.advance clocks).chan die.val i).st ≠ 6) ∧
    (∃ (clocks : Nat) (die : Fin 2) (i : Nat) (s : State), s.Canonical ∧ s.Sized ∧ (s.advance clocks).dieOn die.val = true ∧
      ((s.advance clocks).die die.val).limpOn = true ∧ i ∈ s.chanIxs die.val) ∧
    (∃ (clocks : Nat) (die : Fin 2) (land : Fin 8) (active : Bool) (s : State), s.Canonical ∧ s.Sized ∧
      (s.advance clocks).dieOn die.val = true ∧ ((s.advance clocks).die die.val).limpOn = false) ∧
    (∃ (clocks : Nat) (die : Fin 2) (ch : Fin 16) (s : State), s.Canonical ∧ s.Sized ∧
      (s.advance clocks).hasChan die.val = true ∧ ((s.advance clocks).die die.val).limpOn = true ∧
      (s.advance clocks).on (pLSW die.val ch.val) LSW_HOLD_LH_MAP = true ∧ ((s.advance clocks).chan die.val ch.val).st = 6 ∧
      (s.advance clocks).loadCode die.val ch.val ≤ 2048 ∧ ((s.advance clocks).chan die.val ch.val).tj ≤ 150000 ∧
      ((s.advance clocks).get (pPDC die.val) PDC_LH_IN_LVL).testBit ((s.advance clocks).get (pLSW die.val ch.val) LSW_HOLD_LH_IN) = false) ∧
    (∃ (clocks : Nat) (die : Fin 2) (g : Fin 3) (i : Nat) (s : State), s.Canonical ∧ s.Sized ∧
      (s.advance clocks).dieOn die.val = true ∧ ((s.advance clocks).die die.val).uv.testBit g.val = false ∧
      i ∈ s.chanIxs die.val ∧ groupOf i = g.val ∧ ((s.advance clocks).chan die.val i).st = 3) ∧
    (∃ (clocks : Nat) (die : Fin 2) (g : Fin 3) (i : Nat) (s : State), s.Canonical ∧ s.Sized ∧
      (s.advance clocks).dieOn die.val = true ∧ ((s.advance clocks).die die.val).ov.testBit g.val = false ∧
      i ∈ s.chanIxs die.val ∧ groupOf i = g.val ∧ ((s.advance clocks).chan die.val i).st = 3) ∧
    (∃ (clocks : Nat) (die : Fin 2) (i : Nat) (s : State), s.Canonical ∧ s.Sized ∧ (s.advance clocks).dieOn die.val = true ∧
      ((s.advance clocks).die die.val).pgnd = false ∧ i ∈ s.chanIxs die.val ∧ ((s.advance clocks).chan die.val i).st = 3) ∧
    (∃ (clocks : Nat) (die : Fin 2) (s : State), s.Canonical ∧ s.Sized ∧ (s.advance clocks).dieOn die.val = true ∧
      ((s.advance clocks).die die.val).lgnd = false) ∧
    (∃ (clocks : Nat) (die : Fin 2) (g : Fin 3) (s : State), s.Canonical ∧ s.Sized ∧
      (s.advance clocks).dieOn die.val = true ∧ ((s.advance clocks).die die.val).blocked.testBit g.val = true) ∧
    (∃ (die : Fin 2) (level : Fin 16) (s : State), s.Canonical ∧ die.val < s.selLands.length) ∧
    (∃ (clocks : Nat) (die : Fin 2) (s : State), s.Canonical ∧ (s.advance clocks).dieOn die.val = true) ∧
    (∃ (clocks : Nat) (die : Fin 2) (s : State), s.Canonical ∧ s.Sized ∧ (s.advance clocks).dieOn die.val = false ∧
      (s.advance clocks).dieHeld die.val = false) ∧
    (∃ (a : Access) (die : Fin 2) (v : Word) (s : State), s.Canonical ∧ s.Accepts a (pPDC die.val) PDC_CNT_CLR v ∧
      v.getLsbD 0 = true) :=
  ⟨⟨5, 0, 3, (linked.set (pPDC 0) PDC_LH_ARM 1).set (pLSW 0 3) LSW_HOLD_LH_MAP 1, by decide +kernel⟩,
   ⟨5, 0, 3, (linked.modDie 0 (fun z => { z with limpOn := true })).modChan 0 3 (fun c => { c with limp := true }), by decide +kernel⟩,
   ⟨5, 0, 3, true, linked, by decide +kernel⟩,
   ⟨5, 0, 3, ((linked.modDie 0 (fun z => { z with limpOn := true })).modChan 0 3 (fun c => { c with st := 6, x := 0 })).set (pLSW 0 3) LSW_HOLD_LH_MAP 1, by decide +kernel⟩,
   ⟨5, 0, 0, 3, linked.modChan 0 3 (fun c => { c with st := 3 }), by decide +kernel⟩,
   ⟨5, 0, 0, 3, linked.modChan 0 3 (fun c => { c with st := 3 }), by decide +kernel⟩,
   ⟨5, 0, 3, linked.modChan 0 3 (fun c => { c with st := 3 }), by decide +kernel⟩,
   ⟨5, 0, linked, by decide +kernel⟩,
   ⟨5, 0, 1, linked.modDie 0 (fun z => { z with blocked := 2 }), by decide +kernel⟩,
   ⟨0, 3, linked, by decide +kernel⟩,
   ⟨5, 0, linked, by decide +kernel⟩,
   ⟨5, 0, { timed with up.die := [false, false] }, by decide +kernel⟩,
   ⟨mon, 0, 1, linked.wrn (pPDC 0) PDC_CNT 5, by decide +kernel⟩⟩

theorem test_meets_InputCommandsComplete :
    (∃ (clocks : Nat) (m : Fin 48) (s : State), s.Canonical ∧ (s.advance clocks).up.compute = true ∧
      (s.advance clocks).dinActive m.val = true ∧ (s.advance clocks).dinStuck m.val = false ∧
      (s.advance clocks).get (dinPage m.val) (DIN_TIME_STUCK_T (dinIx m.val)) ≠ 0 ∧
      ((s.advance clocks).din m.val).activeAt + (s.advance clocks).get (dinPage m.val) (DIN_TIME_STUCK_T (dinIx m.val)) * 50000000 ≤ (s.advance clocks).tb.clocks) ∧
    (∃ (clocks : Nat) (levels : Nat) (m : Nat) (u : State) (v : State) (s : State), s.Canonical ∧
      u = { s.advance clocks with scan := ({ s.scan with scans := s.scan.scans + 1 } : ScanState).look (s.advance clocks).tb.clocks m true } ∧
      v = (u.set pINC INC_WK_LAST_DIN m).set pINC INC_WK_LAST_STANDBY 1 ∧ (s.advance clocks).mode = mSTANDBY ∧
      (s.advance clocks).slp.starting = false ∧ (s.advance clocks).up.alwaysOn = true ∧
      (List.range 48).filter (fun m => s.scan.armed.testBit m && !s.disarmed.testBit m) = [m] ∧
      levels.testBit m ≠ s.scan.inv.testBit m ∧ s.scan.last.testBit m = true ∧ s.scan.stuck.testBit m = false) ∧
    (∃ (a : Access) (i : Fin 3) (v : Word) (s : State), s.Canonical ∧ s.Accepts a (pDIG i.val) DIG_CNT_CLR v ∧
      v.getLsbD 0 = true) ∧
    (∃ (m : Fin 48) (s : State), s.Canonical ∧ s.Sized ∧ s.up.compute = true ∧ (s.din m.val).pulsed = true) ∧
    (∃ (m : Fin 48) (s : State), s.Canonical ∧ s.Sized) ∧
    (∃ (clocks : Nat) (m : Fin 48) (rising : Bool) (s : State), s.Canonical ∧ s.Sized ∧
      (s.advance clocks).up.compute = true ∧ ((s.advance clocks).din m.val).comp ≠ rising ∧
      (s.advance clocks).chatterCounts m.val = true) :=
  ⟨⟨100000000, 3, (base.set (pDIG 0) DIG_LVL_FILT 8).set (pDIG 0) (DIN_TIME_STUCK_T 3) 1, by decide +kernel⟩,
   ⟨5, 8, 3, scanned, (scanned.set pINC INC_WK_LAST_DIN 3).set pINC INC_WK_LAST_STANDBY 1, scanning, by refine ⟨by decide +kernel, rfl, rfl, by decide +kernel, by decide +kernel, by decide +kernel, by decide +kernel, by decide +kernel, by decide +kernel, by decide +kernel⟩⟩,
   ⟨mon, 1, 1, base.wrn (pDIG 1) (DIN_CNT 3) 5, by decide +kernel⟩,
   ⟨3, base.modDin 3 (fun x => { x with cfg := 0x110000 }), by decide +kernel⟩,
   ⟨3, base.modDin 3 (fun x => { x with wet := true }), by decide +kernel⟩,
   ⟨5, 3, true, base, by decide +kernel⟩⟩

theorem test_meets_PhoaskCommandsComplete :
    (∃ (clocks : Nat) (br : Fin 3) (octets : List Nat) (s : State), s.Canonical ∧ s.Sized ∧
      (s.advance clocks).brUp br.val = true ∧ octets.length = 30 ∧ nth octets 0 0 / 16 = 2 ∧
      (nth octets 1 0).testBit 4 = false) ∧
    (∃ (slot : Fin 64) (u : State) (s : State), s.Canonical ∧
      u = (s.advanceTo (max s.phoask.hbNext ((s.nowQ + 7999) / 8000) * 8000)).advance slot.val ∧ s.phoaskUp = true ∧
      s.timeRuns = true) ∧
    (∃ (clocks : Nat) (ty : Fin 16) (octets : List Nat) (s : State), s.Canonical ∧ (s.advance clocks).phoaskUp = true ∧
      (ty.val = 2 ∨ ty.val = 6) ∧ octets.length = 30 ∧ 28 < flitField octets 0 2) ∧
    (∃ (clocks : Nat) (br : Fin 3) (ty : Fin 16) (order : Nat) (octets : List Nat) (s : State), s.Canonical ∧ s.Sized ∧
      (s.advance clocks).brUp br.val = true ∧ (8 ≤ ty.val ∧ ty.val < 12) ∧ octets.length = 30 ∧
      order % 65536 = ((s.advance clocks).bridge br.val).good ∧ 26 < flitField octets 2 2) ∧
    (∃ (clocks : Nat) (s : State), s.Canonical ∧ (s.advance clocks).phoaskUp = true ∧
      (s.advance clocks).twlEnabled = true) ∧
    (∃ (clocks : Nat) (s : State), s.Canonical ∧ (s.advance clocks).phoaskUp = true ∧
      (s.advance clocks).twlEnabled = true) ∧
    (∃ (clocks : Nat) (s : State), s.Canonical ∧ (s.advance clocks).phoaskUp = true ∧
      (s.advance clocks).twlEnabled = true) ∧
    (∃ (a : Access) (v : Word) (s : State), s.Canonical ∧ s.Accepts a pTWL TWL_CTRL v ∧ v.getLsbD 2 = true ∧
      v.getLsbD 0 = true ∧ s.on pTWL BLK_CTRL_EN = true) ∧
    (∃ (clocks : Nat) (lanes : Fin 4) (delay : Nat) (s : State), s.Canonical ∧ (s.advance clocks).twlEnabled = true ∧
      (s.advance clocks).get pTWL TWL_STAT_ST = 1 ∧ lanes.val = 3) ∧
    (∃ (a : Access) (v : Word) (s : State), s.Canonical ∧ s.Accepts a pTWL TWL_CNT_CLR v ∧ v.getLsbD 0 = true) :=
  ⟨⟨5, 2, [0x20, 0, 0, 0, 0, 7] ++ List.replicate 24 0, phoaskOn, by decide +kernel⟩,
   ⟨3, ((phoaskOn.set pSLP BLK_STAT_STATE mRUN).advanceTo (max phoaskOn.phoask.hbNext ((phoaskOn.nowQ + 7999) / 8000) * 8000)).advance 3, phoaskOn.set pSLP BLK_STAT_STATE mRUN, by refine ⟨by decide +kernel, rfl, by decide +kernel, by decide +kernel⟩⟩,
   ⟨5, 2, [0, 64] ++ List.replicate 28 5, phoaskOn, by decide +kernel⟩,
   ⟨5, 2, 10, 0, [0x90, 0, 0, 64] ++ List.replicate 26 5, phoaskOn, by decide +kernel⟩,
   ⟨5, phoaskOn, by decide +kernel⟩,
   ⟨5, phoaskOn, by decide +kernel⟩,
   ⟨5, phoaskOn, by decide +kernel⟩,
   ⟨mon, 7, phoaskOn, by decide +kernel⟩,
   ⟨5, 3, 77, phoaskOn.set pTWL TWL_STAT_ST 1, by decide +kernel⟩,
   ⟨mon, 1, base.wrn pTWL TWL_CNT_CRC 5, by decide +kernel⟩⟩

theorem test_meets_BridgeCommandsComplete :
    (∃ (clocks : Nat) (br : Fin 3) (r : BridgeRequest) (st : Nat) (s : State), s.Canonical ∧
      (s.advance clocks).brUp br.val = true ∧ ((s.advance clocks).serveFor br.val r none).2 = st) ∧
    (∃ (clocks : Nat) (br : Fin 3) (r : BridgeRequest) (posted : Bool) (data : Word) (st : Nat) (s : State), s.Canonical ∧
      (s.advance clocks).brUp br.val = true ∧ ((s.advance clocks).serveFor br.val r (some data)).2 = st) ∧
    (∃ (clocks : Nat) (tag : Fin 64) (data : Word) (addr : Nat) (s : State), s.Canonical ∧ s.Sized ∧
      (s.advance clocks).brUp 2 = true ∧ (tag.val, addr) ∈ ((s.advance clocks).bridge 2).tags ∧ s.phoask.winWait = false) ∧
    (∃ (clocks : Nat) (tag : Fin 64) (addr : Nat) (s : State), s.Canonical ∧ s.Sized ∧ (s.advance clocks).brUp 2 = true ∧
      (tag.val, addr) ∈ ((s.advance clocks).bridge 2).tags ∧ s.phoask.winWait = false) ∧
    (∃ (clocks : Nat) (br : Fin 3) (status : Nat) (addr : Nat) (s : State), s.Canonical ∧
      (s.advance clocks).brUp br.val = true) ∧
    (∃ (clocks : Nat) (tag : Fin 64) (addr : Nat) (s : State), s.Canonical ∧ s.Sized ∧ (s.advance clocks).brUp 2 = true ∧
      ((s.advance clocks).bridge 2).tags = [(tag.val, addr)]) ∧
    (∃ (clocks : Nat) (die : Fin 2) (s : State), s.Canonical ∧ (s.advance clocks).up.compute = true ∧
      (s.advance clocks).on (pDBR die.val) BR_STAT_UP = true) ∧
    (∃ (clocks : Nat) (br : Fin 3) (s : State), s.Canonical ∧ s.Sized ∧ (s.advance clocks).brLink br.val = true ∧
      (s.advance clocks).on (pBR br.val) BR_STAT_UP = false) ∧
    (∃ (a : Access) (v : Word) (n : Nat) (s : State), s.Canonical ∧ s.Sized ∧ s.Accepts a pTBR TBR_CMD v ∧
      v.getLsbD 16 = true ∧ bitsOf v.toNat 0 2 = 1 ∧ s.on pTBR TBR_CMD_BUSY = false ∧ s.brUp 2 = true ∧
      s.freeTag 2 = some n) ∧
    (∃ (a : Access) (v : Word) (s : State), s.Canonical ∧ s.Accepts a pTBR TBR_CMD v ∧ v.getLsbD 16 = true ∧
      s.on pTBR TBR_CMD_BUSY = true) ∧
    (∃ (a : Access) (v : Word) (n : Nat) (s : State), s.Canonical ∧ s.Sized ∧ s.Accepts a pTBR TBR_CMD v ∧
      v.getLsbD 16 = true ∧ bitsOf v.toNat 0 2 = 2 ∧ s.on pTBR TBR_CMD_BUSY = false ∧ s.brUp 2 = true ∧
      s.inBulk 2 s.windowAddr = false ∧ s.freeTag 2 = some n) ∧
    (∃ (a : Access) (br : Fin 3) (w : Fin 8) (reg : Fin 3) (v : Word) (s : State), s.Canonical ∧
      s.Accepts a (pBR br.val) (bulkOff w.val reg.val) v) ∧
    (∃ (a : Access) (br : Fin 3) (v : Word) (s : State), s.Canonical ∧ s.Accepts a (pBR br.val) BR_CNT_CLR v ∧
      v.getLsbD 0 = true) :=
  ⟨⟨5, 2, ⟨3, pLOG, 1, 0, 0⟩, 1, phoaskOn, by decide +kernel⟩,
   ⟨5, 2, ⟨3, pLOG, 1, 0, 0⟩, false, 5, 1, phoaskOn, by decide +kernel⟩,
   ⟨5, 3, 99, 7, (phoaskOn.set pTBR TBR_CMD_BUSY 1).modBridge 2 (fun z => { z with tags := [(3, 7)] }), by decide +kernel⟩,
   ⟨5, 3, 7, (phoaskOn.set pTBR TBR_CMD_BUSY 1).modBridge 2 (fun z => { z with tags := [(3, 7)] }), by decide +kernel⟩,
   ⟨5, 2, 4, 0x1234, phoaskOn, by decide +kernel⟩,
   ⟨5, 3, 7, (phoaskOn.set pTBR TBR_CMD_BUSY 1).modBridge 2 (fun z => { z with tags := [(3, 7)] }), by decide +kernel⟩,
   ⟨5, 0, linked, by decide +kernel⟩,
   ⟨5, 0, base, by decide +kernel⟩,
   ⟨mon, 0x10001, 0, phoaskOn, by decide +kernel⟩,
   ⟨mon, 0x10001, phoaskOn.set pTBR TBR_CMD_BUSY 1, by decide +kernel⟩,
   ⟨mon, 0x10002, 0, phoaskOn, by decide +kernel⟩,
   ⟨mon, 2, 3, 1, 5, phoaskOn, by decide +kernel⟩,
   ⟨mon, 2, 1, phoaskOn.wrn pTBR BR_CNT_TMO 5, by decide +kernel⟩⟩

theorem test_meets_TwinRoleCommandsComplete :
    (∃ (clocks : Nat) (s : State), s.Canonical ∧ (s.advance clocks).role = rPAIRING ∧ (s.advance clocks).phoaskUp = true ∧
      s.twin.gotPair = false) ∧
    (∃ (clocks : Nat) (p : PairPacket) (s : State), s.Canonical ∧ (s.advance clocks).brUp 2 = true ∧
      (s.advance clocks).role = rPAIRING ∧ p.variant = s.variantCode ∧ p.revision = 0xB0 ∧ p.role = rPAIRING ∧
      p.identity % 2 ^ 128 ≤ s.identityNat) ∧
    (∃ (clocks : Nat) (s : State), s.Canonical ∧ (s.advance clocks).roleRuns = true ∧ (s.advance clocks).role = rUNPAIRED ∧
      (s.advance clocks).phoaskUp = false ∧ s.twin.backoff = false ∧ (s.advance clocks).peerAsserted = false) ∧
    (∃ (clocks : Nat) (asserted : Bool) (s : State), s.Canonical ∧ (s.advance clocks).dieUp 0 = true) ∧
    (∃ (clocks : Nat) (s : State), s.Canonical ∧ (s.advance clocks).hbLate = true ∧ (s.advance clocks).aliveLate = true ∧
      (s.advance clocks).role = rHEADSTOCK) ∧
    (∃ (clocks : Nat) (s : State), s.Canonical ∧ (s.advance clocks).role = rCLAIMING ∧ s.twin.claimAt.isSome = true ∧
      (s.advance clocks).peerAsserted = false ∧ s.twin.origin = rUNPAIRED) ∧
    (∃ (clocks : Nat) (s : State), s.Canonical ∧ (s.advance clocks).role = rCLAIMING ∧
      (s.advance clocks).peerAsserted = true ∧ (s.advance clocks).on pTWR TWR_CTRL_OVR_EN = true) ∧
    (∃ (clocks : Nat) (n : Nat) (s : State), s.Canonical ∧ (s.advance clocks).role = rCLAIMING ∧ s.twin.claimAt = some n ∧
      (s.advance clocks).on pTWR TWR_STAT_PEER = true ∧ n ≤ s.twin.peerAt ∧ s.twin.peerAt ≤ n + 1000) ∧
    (∃ (s : State), s.Canonical ∧ s.twin.backoff = true ∧ s.roleRuns = true ∧ s.role = rUNPAIRED ∧ s.peerAsserted = false) ∧
    (∃ (clocks : Nat) (s : State), s.Canonical ∧ (s.advance clocks).role = rTS_ALONE ∧
      (s.advance clocks).peerAsserted = false) ∧
    (∃ (a : Access) (v : Word) (s : State), s.Canonical ∧ s.Accepts a pTWR TWR_CTRL v ∧ v.getLsbD 1 = true ∧
      v.getLsbD 0 = true ∧ s.role = rHEADSTOCK) ∧
    (∃ (clocks : Nat) (cycle : Nat) (rejoinEnds : Bool) (s : State), s.Canonical ∧ (s.advance clocks).brUp 2 = true ∧
      (s.advance clocks).role = (if rejoinEnds then rREJOIN else rTAILSTOCK)) ∧
    (∃ (s : State), s.Canonical ∧ s.role = rHS_ALONE ∧ s.twin.copying = true ∧ s.twin.roleAt = none ∧ s.brUp 2 = true ∧
      (s.bridge 2).waiting.all (fun w => w.1 != 3) = true ∧ (s.bridge 2).acked = (s.bridge 2).sent) ∧
    (∃ (clocks : Nat) (s : State), s.Canonical ∧ (s.advance clocks).role = rHS_ALONE ∧ s.twin.rejoining = true) :=
  ⟨⟨5, roleIn rPAIRING, by decide +kernel⟩,
   ⟨5, ⟨0, 0x40, 0xB0, 1, 3, 0⟩, (roleIn rPAIRING).set (pLSW 0 1) LSW_CTRL_DUAL 1, by decide +kernel⟩,
   ⟨5, roleAlone rUNPAIRED, by decide +kernel⟩,
   ⟨5, true, linked, by decide +kernel⟩,
   ⟨5000, roleIn rHEADSTOCK, by decide +kernel⟩,
   ⟨5, { roleAlone rCLAIMING with twin := { base.twin with claimAt := some 0 } }, by decide +kernel⟩,
   ⟨5, ((roleAlone rCLAIMING).set pTWR TWR_STAT_PEER 1).set pTWR TWR_CTRL_OVR_EN 1, by decide +kernel⟩,
   ⟨5, 100, { (roleAlone rCLAIMING).set pTWR TWR_STAT_PEER 1 with twin := { base.twin with claimAt := some 100, peerAt := 500 }, claim := true }, by decide +kernel⟩,
   ⟨{ roleAlone rUNPAIRED with twin := { base.twin with backoff := true, attempt := 1 } }, by decide +kernel⟩,
   ⟨5, roleAlone rTS_ALONE, by decide +kernel⟩,
   ⟨mon, 3, roleIn rHEADSTOCK, by decide +kernel⟩,
   ⟨5, 77, true, roleIn rREJOIN, by decide +kernel⟩,
   ⟨{ roleIn rHS_ALONE with twin := { base.twin with copying := true } }, by decide +kernel⟩,
   ⟨5, { roleIn rHS_ALONE with twin := { base.twin with rejoining := true } }, by decide +kernel⟩⟩

theorem test_meets_TwinTrafficCommandsComplete :
    (∃ (clocks : Nat) (octets : List Nat) (s : State), s.Canonical ∧ (s.advance clocks).exchanging = true ∧
      s.twin.imgDue.isSome = true ∧ octets.length = 64) ∧
    (∃ (clocks : Nat) (s : State), s.Canonical ∧ (s.advance clocks).exchanging = true ∧ s.twin.imgDue.isSome = true) ∧
    (∃ (clocks : Nat) (cycle : Nat) (pos : Nat) (imgA : Nat) (imgB : Nat) (o : OutImage) (s : State), s.Canonical ∧
      s.Sized ∧ (s.advance clocks).role = rTAILSTOCK ∧ (s.advance clocks).exchanging = true ∧ s.twin.ownImg = some o ∧
      o.cycle = cycle % 0x10000 ∧ o.pos = pos % 64 ∧ (s.advance clocks).dieUp 0 = true) ∧
    (∃ (clocks : Nat) (s : State), s.Canonical ∧ (s.advance clocks).role = rTAILSTOCK ∧ s.twin.ownImg.isSome = true) ∧
    (∃ (area : Fin 4) (off : Nat) (len : Nat) (s : State), s.Canonical ∧ s.role = rHS_ALONE ∧ s.twin.rejoining = true ∧
      s.brUp 2 = true ∧ (4 ≤ len ∧ len ≤ 256) ∧ off + len ≤ (s.mirrorArea area.val).2) ∧
    (∃ (clocks : Nat) (area : Fin 4) (off : Nat) (data : List Nat) (s : State), s.Canonical ∧
      (s.advance clocks).role = rREJOIN ∧ (s.advance clocks).brUp 2 = true ∧
      off + data.length ≤ ((s.advance clocks).mirrorArea area.val).2 ∧ area.val < 2) ∧
    (∃ (clocks : Nat) (d : Nat) (s : State), s.Canonical ∧ (s.advance clocks).role = rHEADSTOCK ∧
      (s.advance clocks).twcDie = some d) ∧
    (∃ (clocks : Nat) (octets : List Nat) (s : State), s.Canonical ∧ twcGood octets = true ∧ twcCmd octets = 9 ∧
      (s.advance clocks).twcMine octets = true ∧ (s.advance clocks).role ≠ rCLAIMING) ∧
    (∃ (clocks : Nat) (s : State), s.Canonical ∧ (s.advance clocks).role = rHEADSTOCK ∧
      (s.advance clocks).aliveLate = true ∧ (s.advance clocks).hbLate = false ∧ s.phoask.aliveLost = false) ∧
    (∃ (clocks : Nat) (d : Nat) (s : State), s.Canonical ∧ s.twin.control = true ∧ (s.advance clocks).role = rHS_ALONE ∧
      (s.advance clocks).twcDie = some d) ∧
    (∃ (a : Access) (v : Word) (d : Nat) (s : State), s.Canonical ∧ s.Accepts a pTWR TWR_TWC_CMD v ∧ v.getLsbD 16 = true ∧
      s.on pTWR TWR_TWC_CMD_BUSY = false ∧ s.role = rHS_ALONE ∧ s.twin.rejoining = false ∧ bitsOf v.toNat 0 4 = 2 ∧
      bitsOf v.toNat 4 2 ≠ 0 ∧ s.twcDie = some d) ∧
    (∃ (a : Access) (v : Word) (s : State), s.Canonical ∧ s.Accepts a pTWR TWR_TWC_CMD v ∧ v.getLsbD 16 = true ∧
      s.on pTWR TWR_TWC_CMD_BUSY = false ∧ (s.role ≠ rHS_ALONE ∨ s.twin.rejoining = true)) ∧
    (∃ (clocks : Nat) (s : State), s.Canonical ∧ (s.advance clocks).on pTWR TWR_TWC_CMD_BUSY = true) ∧
    (∃ (clocks : Nat) (octets : List Nat) (s : State), s.Canonical ∧ twcGood octets = true ∧ twcCmd octets = 8 ∧
      (s.advance clocks).twcMine octets = true ∧ s.twin.want = some (nth octets 1 0)) ∧
    (∃ (a : Access) (v : Word) (s : State), s.Canonical ∧ s.Accepts a pTWR TWR_CNT_CLR v ∧ v.getLsbD 0 = true) :=
  ⟨⟨5, List.replicate 64 9, { roleIn rTAILSTOCK with twin := { base.twin with imgDue := some (3, 4) } }, by decide +kernel⟩,
   ⟨5, { roleIn rTAILSTOCK with twin := { base.twin with imgDue := some (3, 4), imgStatus := 3 } }, by decide +kernel⟩,
   ⟨5, 7, 3, 0x00FF, 0, ⟨7, 3, 0x0F0F, 0⟩, { (roleIn rTAILSTOCK).set pTWR TWR_DUAL_A 0xF with twin := { base.twin with ownImg := some ⟨7, 3, 0x0F0F, 0⟩ } }, by decide +kernel⟩,
   ⟨5, { roleIn rTAILSTOCK with twin := { base.twin with ownImg := some ⟨7, 3, 0x0F0F, 0⟩ } }, by decide +kernel⟩,
   ⟨0, 16, 8, { roleIn rHS_ALONE with twin := { base.twin with rejoining := true } }, by decide +kernel⟩,
   ⟨5, 1, 16, [1, 2, 3, 4], roleIn rREJOIN, by decide +kernel⟩,
   ⟨5, 0, roleIn rHEADSTOCK, by decide +kernel⟩,
   ⟨5, twcSeal [0x89], roleIn rHEADSTOCK, by decide +kernel⟩,
   ⟨5000, { roleIn rHEADSTOCK with phoask := { base.phoask with hbAt := 4000 } }, by decide +kernel⟩,
   ⟨5, 0, { roleIn rHS_ALONE with twin := { base.twin with control := true } }, by decide +kernel⟩,
   ⟨mon, 0x10032, 0, roleIn rHS_ALONE, by decide +kernel⟩,
   ⟨mon, 0x10032, { roleIn rHS_ALONE with twin := { base.twin with rejoining := true } }, by decide +kernel⟩,
   ⟨5, (roleIn rHS_ALONE).set pTWR TWR_TWC_CMD_BUSY 1, by decide +kernel⟩,
   ⟨5, twcSeal [0x88, 5, 1, 2, 3, 4, 5, 6, 7, 8, 9, 10, 11], { (roleIn rHS_ALONE).set pTWR TWR_TWC_CMD_BUSY 1 with twin := { base.twin with want := some 5 } }, by decide +kernel⟩,
   ⟨mon, 1, base.wrn pTWR TWR_CMP 5, by decide +kernel⟩⟩

theorem test_meets_MigrationCommandsComplete :
    (∃ (a : Access) (v : Word) (s : State), s.Canonical ∧ s.Accepts a pMIG MIG_CTRL v ∧ bitsOf v.toNat 8 3 = 1 ∧
      v.getLsbD 4 = true ∧ s.migRuns = false ∧ s.brUp 2 = true) ∧
    (∃ (a : Access) (v : Word) (s : State), s.Canonical ∧ s.Accepts a pMIG MIG_CTRL v ∧ bitsOf v.toNat 8 3 = 1 ∧
      v.getLsbD 4 = false ∧ s.migRuns = false ∧ s.brUp 2 = true) ∧
    (∃ (a : Access) (v : Word) (s : State), s.Canonical ∧ s.Accepts a pMIG MIG_CTRL v ∧ bitsOf v.toNat 8 3 = 2 ∧
      v.getLsbD 4 = false ∧ s.get pMIG MIG_STAT_ST = 1) ∧
    (∃ (a : Access) (v : Word) (s : State), s.Canonical ∧ s.Accepts a pMIG MIG_CTRL v ∧ bitsOf v.toNat 8 3 = 4 ∧
      s.migRuns = true) ∧
    (∃ (clocks : Nat) (ipa : Nat) (vmNo : Fin 16) (data : List Nat) (pa : Nat) (x : Nat) (y : Nat) (z : Nat) (s2 : State) (s3 : State) (s : State), s.Canonical ∧
      (s.advance clocks).migRuns = true ∧ (s.advance clocks).on pMIG MIG_CTRL_DIR = true ∧
      (s.advance clocks).brUp 2 = true ∧ data.length = 0x1000 ∧
      (s.advance clocks).translate 16 (.vm ((s.advance clocks).get pMIG MIG_CTRL_VM)) .write ipa = (s2, .ok pa x y z) ∧
      s2.ramWrite 2 false pa data = (s3, true)) ∧
    (∃ (clocks : Nat) (op : Nat) (round : Nat) (pages : Nat) (s : State), s.Canonical ∧ op = 3 ∧
      (s.advance clocks).migRuns = true ∧ (s.advance clocks).on pMIG MIG_CTRL_DIR = true ∧
      (s.advance clocks).brUp 2 = true) ∧
    (∃ (clocks : Nat) (s2 : State) (s : State), s.Canonical ∧ (s.advance clocks).migRuns = true ∧
      (s.advance clocks).on pMIG MIG_CTRL_DIR = false ∧ (s.advance clocks).brUp 2 = true ∧
      State.sendPages ((s.advance clocks).get pMIG MIG_CTRL_VM) (s.advance clocks).mig.todo (s.advance clocks) = (s2, true) ∧
      s2.get pMIG MIG_STAT_ST = 2) ∧
    (∃ (clocks : Nat) (s2 : State) (s : State), s.Canonical ∧ (s.advance clocks).migRuns = true ∧
      (s.advance clocks).on pMIG MIG_CTRL_DIR = false ∧ (s.advance clocks).brUp 2 = true ∧
      State.sendPages ((s.advance clocks).get pMIG MIG_CTRL_VM) (s.advance clocks).mig.todo (s.advance clocks) = (s2, true) ∧
      s2.get pMIG MIG_STAT_ST = 1) :=
  ⟨⟨mon, 0x110, phoaskOn, by decide +kernel⟩,
   ⟨mon, 0x103, phoaskOn, by decide +kernel⟩,
   ⟨mon, 0x200, phoaskOn.set pMIG MIG_STAT_ST 1, by decide +kernel⟩,
   ⟨mon, 0x400, phoaskOn.set pMIG MIG_STAT_ST 1, by decide +kernel⟩,
   ⟨5, 0, 0, List.replicate 0x1000 0, 0x10000000, 0x10012000, 0x100000C1, 2, (mapped.advance 5).holdXlat 16 (.vm 0) 0 (.ok 0x10000000 0x10012000 0x100000C1 2), (((mapped.advance 5).holdXlat 16 (.vm 0) 0 (.ok 0x10000000 0x10012000 0x100000C1 2)).ramWrite 2 false 0x10000000 (List.replicate 0x1000 0)).1, mapped, by
    refine ⟨by decide +kernel, by decide +kernel, by decide +kernel, by decide +kernel, by decide +kernel, by decide +kernel, pair_of (by decide +kernel)⟩⟩,
   ⟨5, 3, 2, 9, (phoaskOn.set pMIG MIG_STAT_ST 1).set pMIG MIG_CTRL_DIR 1, by decide +kernel⟩,
   ⟨5, (phoaskOn.set pMIG MIG_STAT_ST 2).advance 5, phoaskOn.set pMIG MIG_STAT_ST 2, by decide +kernel⟩,
   ⟨5, (phoaskOn.set pMIG MIG_STAT_ST 1).advance 5, phoaskOn.set pMIG MIG_STAT_ST 1, by decide +kernel⟩⟩

theorem test_meets_CaliperAccessCommandsComplete :
    (∃ (a : Access) (pair : Fin 6) (addr : Nat) (data : List Nat) (pa : Nat) (w : Nat) (s1 : State) (s : State), s.Canonical ∧
      s.Sized ∧ s.ledBy pair.val a = true ∧ data ≠ [] ∧ s.reach a .write addr = (s1, some pa) ∧ isPeriph pa = false ∧
      (regionOf pa = .dram ∨ regionOf pa = .sram) ∧ s1.Sized ∧ s1.Canonical ∧ (s1.calOf pair.val).held = [] ∧
      wordsTouched pa data.length = [w]) ∧
    (∃ (a : Access) (pair : Fin 6) (addr : Nat) (v : Word) (pa : Nat) (s1 : State) (s : State), s.Canonical ∧ s.Sized ∧
      s.ledBy pair.val a = true ∧ a.size = 4 ∧ s.reach a .write addr = (s1, some pa) ∧ isPeriph pa = true ∧ s1.Sized ∧
      s1.Canonical ∧ (s1.calOf pair.val).held = [] ∧ s1.on (pCAL pair.val) CAL_CTRL_PER_CKPT = false) ∧
    (∃ (a : Access) (pair : Fin 6) (addr : Nat) (pa : Nat) (s1 : State) (s : State), s.Canonical ∧
      s.ledBy pair.val a = true ∧ 0 < a.size ∧ s.reach a .read addr = (s1, some pa) ∧ isPeriph pa = false ∧
      (s1.calOf pair.val).held = []) ∧
    (∃ (a : Access) (pair : Fin 6) (addr : Nat) (pa : Nat) (s1 : State) (s : State), s.Canonical ∧ s1.Sized ∧
      s.ledBy pair.val a = true ∧ s.reach a .read addr = (s1, some pa) ∧ isPeriph pa = true ∧
      isRs (pageBase pa) (pageOff pa) = true ∧ (s1.calOf pair.val).closing = none) ∧
    (∃ (a : Access) (pair : Fin 6) (addr : Nat) (op : AtomicOp) (operand : Nat) (pa : Nat) (s1 : State) (s : State), s.Canonical ∧
      s1.Sized ∧ s.ledBy pair.val a = true ∧ s.reach a .write addr = (s1, some pa) ∧ (s1.calOf pair.val).closing = none) ∧
    (∃ (pair : Fin 6) (s : State), s.Canonical ∧ s.Sized ∧ s.pairRuns pair.val = true) ∧
    (∃ (a : Access) (pair : Fin 6) (addr : Nat) (pa : Nat) (s1 : State) (s : State), s.Canonical ∧ s1.Sized ∧
      s.ledBy pair.val a = true ∧ s.reach a .read addr = (s1, some pa) ∧ (s1.calOf pair.val).held.any (heldTo pa) = true) ∧
    (∃ (pair : Fin 6) (s : State), s.Canonical ∧ s.Sized ∧ s.pairRuns pair.val = true ∧ pair.val < 4) ∧
    (∃ (pair : Fin 6) (s : State), s.Canonical ∧ s.Sized ∧ s.pairRuns pair.val = true ∧
      s.get (pCAL pair.val) CAL_CKPT_WH_HIGH ≤ (s.calOf pair.val).held.length) ∧
    (∃ (clocks : Nat) (pair : Fin 6) (c : CompareIn) (arch : List Nat) (s2 : State) (s : State), s.Canonical ∧
      (s.advance clocks).pairRuns pair.val = true ∧ ((s.advance clocks).calOf pair.val).due ≠ [] ∧
      (s.advance clocks).compare pair.val c = (s2, true)) ∧
    (∃ (clocks : Nat) (pair : Fin 6) (c : CompareIn) (arch : List Nat) (s2 : State) (s : State), s.Canonical ∧ s2.Sized ∧
      s2.Canonical ∧ (s.advance clocks).pairRuns pair.val = true ∧ s2.pairRuns pair.val = true ∧
      ((s.advance clocks).calOf pair.val).due ≠ [] ∧ (s.advance clocks).compare pair.val c = (s2, true) ∧ pair.val < 4 ∧
      (s2.calOf pair.val).held = [] ∧ (s2.calOf pair.val).closing = none) ∧
    (∃ (pair : Fin 6) (addr : Nat) (s : State), s.Canonical ∧ s.pairRuns pair.val = true) ∧
    (∃ (a : Access) (addr : Nat) (s : State), s.Canonical ∧ (agentCore a.agent).bind s.leads = none) :=
  ⟨⟨⟨0, .monitor, 4⟩, 0, 0x10000010, [1, 2, 3, 4], 0x10000010, 0x10000010, compared, compared, by decide +kernel⟩,
   ⟨⟨0, .monitor, 4⟩, 0, pBUF, 5, pBUF, compared.set (pCAL 0) CAL_CTRL_PER_CKPT 0, compared.set (pCAL 0) CAL_CTRL_PER_CKPT 0, by decide +kernel⟩,
   ⟨⟨0, .monitor, 4⟩, 0, 0x10000010, 0x10000010, compared, compared, by decide +kernel⟩,
   ⟨⟨0, .monitor, 4⟩, 0, pLOG + LOG_TAKE, pLOG + LOG_TAKE, compared, compared, by decide +kernel⟩,
   ⟨⟨0, .monitor, 4⟩, 0, 0x10000010, .add, 3, 0x10000010, compared, compared, by decide +kernel⟩,
   ⟨0, compared, by decide +kernel⟩,
   ⟨⟨0, .monitor, 4⟩, 0, pBUF, pBUF, compared.holdEntry 0 (.periph ⟨0, .monitor, 4⟩ (pBUF + 4) 5), compared.holdEntry 0 (.periph ⟨0, .monitor, 4⟩ (pBUF + 4) 5), by decide +kernel⟩,
   ⟨0, compared, by decide +kernel⟩,
   ⟨0, compared.set (pCAL 0) CAL_CKPT_WH_HIGH 0, by decide +kernel⟩,
   ⟨5, 0, ⟨[], [], 10, 3, false⟩, [], ((compared.trigger 0 6).advance 5).compare 0 ⟨[], [], 10, 3, false⟩ |>.1, compared.trigger 0 6, by decide +kernel⟩,
   ⟨5, 0, ⟨[], [], 10, 3, false⟩, [], ((compared.trigger 0 6).advance 5).compare 0 ⟨[], [], 10, 3, false⟩ |>.1, compared.trigger 0 6, by decide +kernel⟩,
   ⟨0, 0x1234, compared, by decide +kernel⟩,
   ⟨⟨0x20, .secure, 4⟩, 0x10000010, base, by decide +kernel⟩⟩

theorem test_meets_CaliperPairCommandsComplete :
    (∃ (clocks : Nat) (pair : Fin 6) (c : CompareIn) (waiting : Bool) (s : State), s.Canonical ∧ s.Sized ∧
      (s.advance clocks).pairRuns pair.val = true ∧ (s.advance clocks).pairState pair.val = cCOMPARED ∧ c.lead = c.trail ∧
      ((s.advance clocks).calOf pair.val).sigLead = ((s.advance clocks).calOf pair.val).sigTrail ∧ c.disagree = false ∧
      (s.advance clocks).on (pCAL pair.val) ERR_INJ_ARM = false) ∧
    (∃ (clocks : Nat) (pair : Fin 6) (s : State), s.Canonical ∧ s.Sized ∧ (s.advance clocks).pairRuns pair.val = true ∧
      (s.advance clocks).pairState pair.val = cCOMPARED ∧
      ¬ (s.advance clocks).get (pCAL pair.val) CAL_CTRL_RETRY_MAX ≤ (((s.advance clocks).calOf pair.val).recent.filter (fun c => decide ((s.advance clocks).tb.clocks < c + (s.advance clocks).retryWin pair.val))).length + 1) ∧
    (∃ (clocks : Nat) (pair : Fin 6) (s : State), s.Canonical ∧ s.Sized ∧ (s.advance clocks).pairRuns pair.val = true ∧
      (s.advance clocks).pairState pair.val = cCOMPARED ∧
      (s.advance clocks).on (pCORE (leadOf pair.val)) CORE_STAT_WAITING = false ∧
      ¬ (s.advance clocks).get (pCAL pair.val) CAL_CTRL_RETRY_MAX ≤ (((s.advance clocks).calOf pair.val).recent.filter (fun c => decide ((s.advance clocks).tb.clocks < c + (s.advance clocks).retryWin pair.val))).length + 1) ∧
    (∃ (clocks : Nat) (pair : Fin 6) (s : State), s.Canonical ∧ s.Sized ∧ (s.advance clocks).pairState pair.val = cRESTART ∧
      (s.advance clocks).up.compute = true ∧ pair.val ∉ (s.advance clocks).slotBad) ∧
    (∃ (pair : Fin 6) (s : State), s.Canonical ∧ s.pairState pair.val = cCOMPARED ∧ s.up.compute = true ∧
      s.frozen pCALC = false) ∧
    (∃ (pair : Fin 6) (entry : Nat) (s : State), s.Canonical ∧ s.pairRuns pair.val = true) ∧
    (∃ (pair : Fin 6) (n : Nat) (l : Nat) (s : State), s.Canonical ∧ s.Sized ∧ s.pairRuns pair.val = true ∧
      s.pairState pair.val = cCOMPARED ∧ (s.core (leadOf pair.val)).delivered.head? = some l) ∧
    (∃ (a : Access) (pair : Fin 6) (v : Word) (s : State), s.Canonical ∧ s.Sized ∧
      s.Accepts a (pCAL pair.val) CAL_CNT_CLR v ∧ v.getLsbD 0 = true) :=
  ⟨⟨5, 0, ⟨[.reg 1 2 3], [.reg 1 2 3], 10, 3, false⟩, true, compared, by decide +kernel⟩,
   ⟨5, 0, compared.set (pCAL 0) CAL_CTRL_RETRY_MAX 3, by decide +kernel⟩,
   ⟨5, 0, compared.set (pCAL 0) CAL_CTRL_RETRY_MAX 3, by decide +kernel⟩,
   ⟨5, 0, compared.setPair 0 cRESTART, by decide +kernel⟩,
   ⟨0, compared, by decide +kernel⟩,
   ⟨0, 5, compared, by decide +kernel⟩,
   ⟨0, 77, 33, compared.modCore 0 (fun c => { c with delivered := [33] }), by decide +kernel⟩,
   ⟨mon, 0, 1, compared.wrn (pCAL 0) CAL_CNT_CKPT 5, by decide +kernel⟩⟩

theorem test_meets_CoreCommandsComplete :
    (∃ (a : Access) (core : Fin 13) (v : Word) (k : Nat) (s : State), s.Canonical ∧
      s.Accepts a (pCORE core.val) CORE_CTRL v ∧ coreCtrlPre core.val s = none ∧ v.getLsbD 0 = true ∧ v.getLsbD 1 = false ∧
      s.coreReleased core.val = true ∧ s.on (pCORE core.val) CORE_STAT_RUNNING = false ∧ pairOf core.val = some k ∧
      s.pairState k = cSPLIT ∧ s.inPair core.val = false) ∧
    (∃ (a : Access) (core : Fin 13) (v : Word) (k : Nat) (s : State), s.Canonical ∧
      s.Accepts a (pCORE core.val) CORE_CTRL v ∧ coreCtrlPre core.val s = none ∧ v.getLsbD 0 = true ∧ v.getLsbD 1 = false ∧
      s.coreReleased core.val = true ∧ s.on (pCORE core.val) CORE_STAT_RUNNING = false ∧ pairOf core.val = some k ∧
      s.pairState k = cDOWN ∧ s.inPair core.val = true ∧ (s.get pCALC CALC_STAT_CFAULT).testBit k = false) ∧
    (∃ (a : Access) (core : Fin 13) (v : Word) (k : Nat) (s : State), s.Canonical ∧
      s.Accepts a (pCORE core.val) CORE_CTRL v ∧ coreCtrlPre core.val s = none ∧ v.getLsbD 0 = false ∧ v.getLsbD 1 = true ∧
      pairOf core.val = some k) ∧
    (∃ (a : Access) (line : Fin 512) (v : Word) (s : State), s.Canonical ∧ s.Accepts a pINTC (LINE line.val) v ∧
      linePre line.val v s = none ∧ 32 ≤ line.val) ∧
    (∃ (a : Access) (v : Word) (s : State), s.Canonical ∧ s.Accepts a pINTC INTC_SWRAISE v ∧ (480 ≤ v.toNat ∧
      v.toNat ≤ 511)) ∧
    (∃ (core : Fin 13) (l : Nat) (s : State), s.Canonical ∧ s.Sized ∧ s.takesLines core.val = true ∧
      s.nextLine core.val = some l) ∧
    (∃ (core : Fin 13) (l : Nat) (s : State), s.Canonical ∧ s.Sized ∧ s.takesLines core.val = true ∧
      s.presented core.val = some l) ∧
    (∃ (clocks : Nat) (core : Fin 13) (s : State), s.Canonical ∧ s.Sized ∧
      (s.advance clocks).agentUp (coreAgent core.val) = true ∧ (s.advance clocks).trailing core.val = false ∧
      (s.advance clocks).deadlineDue ((s.advance clocks).core core.val).secDeadline = true) ∧
    (∃ (core : Fin 13) (k : Fin 7) (s : State), s.Canonical ∧ s.Sized ∧ s.counts core.val = true) ∧
    (∃ (addr : Nat) (s : State), s.Canonical ∧ s.up.compute = true) :=
  ⟨⟨mon, 1, 1, 0, { splitPairs.setPair 0 cSPLIT with up.cluster := true }, by decide +kernel⟩,
   ⟨mon, 0, 1, 0, { (base.setPair 0 cDOWN).wrn pCALC CALC_ACT 1 with up.cluster := true }, by decide +kernel⟩,
   ⟨mon, 0, 2, 0, base.set (pCORE 0) CORE_STAT_RUNNING 1, by decide +kernel⟩,
   ⟨mon, 40, 0x10003, splitPairs.modCore 3 (fun k => { k with delivered := [40] }), by decide +kernel⟩,
   ⟨mon, 490, base, by decide +kernel⟩,
   ⟨0, 3, ((splitPairs.set (pCORE 0) CORE_STAT_RUNNING 1).set pINTC (LINE_EN 3) 1).coreLocal 0 3, by decide +kernel⟩,
   ⟨0, 3, (((splitPairs.set (pCORE 0) CORE_STAT_RUNNING 1).set pINTC (LINE_EN 3) 1).coreLocal 0 3).modCore 0 (fun k => { k with delivered := [3] }), by decide +kernel⟩,
   ⟨5, 0, (base.set (pCORE 0) CORE_STAT_RUNNING 1).modCore 0 (fun k => { k with secDeadline := some 0 }), by decide +kernel⟩,
   ⟨0, 3, (base.set (pCORE 0) CORE_STAT_RUNNING 1).modCore 0 (fun k => { k with latch := true }), by decide +kernel⟩,
   ⟨0x12345, base, by decide +kernel⟩⟩

theorem test_meets_MailboxCommandsComplete :
    (∃ (a : Access) (v : Word) (c : Nat) (s : State), s.Canonical ∧ s.Sized ∧ agentCore a.agent = some c ∧
      s.agentUp a.agent = true ∧ s.leads c = none ∧
      s.sendTest a.agent (lvWorld (s.levelOf a)) (bitsOf v.toNat 0 5) (bitsOf v.toNat 16 5) = 0) ∧
    (∃ (a : Access) (ch : Fin 32) (v : Word) (s : State), s.Canonical ∧ s.Accepts a (pMBC ch.val) MB_DBG_SEND v ∧
      s.sendTest 0x60 0 ch.val (bitsOf v.toNat 16 5) = 0) ∧
    (∃ (a : Access) (ch : Fin 32) (s : State), s.Canonical ∧ s.Shows a (pMBC ch.val) MB_TAKE ∧
      s.on (pMBC ch.val) MB_STAT_FULL = true) ∧
    (∃ (core : Fin 13) (v : Word) (s : State), s.Canonical ∧ s.Sized ∧ s.agentUp (coreAgent core.val) = true ∧
      v.toNat < 32) ∧
    (∃ (core : Fin 13) (v : Word) (s : State), s.Canonical ∧ s.Sized ∧ s.agentUp (coreAgent core.val) = true) ∧
    (∃ (i : Fin 32) (j : Fin 32) (s : State), s.Canonical ∧ s.crossed i.val j.val = true ∧
      s.on (pMBC i.val) MB_STAT_CROSS = false) ∧
    (∃ (a : Access) (v : Word) (s : State), s.Canonical ∧ s.Accepts a pMBX MBX_CNT_CLR v ∧ v.getLsbD 0 = true) :=
  ⟨⟨mon, 0x00020003, 0, ((((splitPairs.set (pCORE 0) CORE_STAT_RUNNING 1).set (pCORE 2) CORE_STAT_RUNNING 1).set (pMBC 3) MB_CFG_RX_AGENT 2).wrn (pMBC 3) MB_ALLOW 0xF0000FFF).modCore 0 (fun k => { k with sendWords := List.replicate 16 7 }), by decide +kernel⟩,
   ⟨⟨0x60, .monitor, 4⟩, 3, 0x00020000, (((dbgOn.set (pCORE 2) CORE_STAT_RUNNING 1).set (pMBC 3) MB_CFG_RX_AGENT 2).wrn (pMBC 3) MB_ALLOW 0xFFFFFFFF).wrn (pMBC 3) (MB_DBG_DATA 0) 9, by decide +kernel⟩,
   ⟨mon, 3, base.set (pMBC 3) MB_STAT_FULL 1, by decide +kernel⟩,
   ⟨0, 5, base.set (pCORE 0) CORE_STAT_RUNNING 1, by decide +kernel⟩,
   ⟨0, 1, (base.set (pCORE 0) CORE_STAT_RUNNING 1).modCore 0 (fun k => { k with aborted := 3 }), by decide +kernel⟩,
   ⟨3, 4, crossing, by decide +kernel⟩,
   ⟨mon, 1, base.wrn pMBX MBX_CNT_REF 5, by decide +kernel⟩⟩

theorem test_meets_IsolationCommandsComplete :
    (∃ (a : Access) (vmNo : Fin 16) (s : State), s.Canonical ∧ s.Accepts a (pVMC vmNo.val) VMC_INV 65538 ∧
      s.on (pVMC vmNo.val) VMC_INV_BUSY = false) ∧
    (∃ (a : Access) (vmNo : Fin 16) (s : State), s.Canonical ∧ s.Accepts a (pVMC vmNo.val) VMC_INV 65537 ∧
      s.on (pVMC vmNo.val) VMC_INV_BUSY = false) ∧
    (∃ (vmNo : Fin 16) (s : State), s.Canonical ∧ s.on (pVMC vmNo.val) VMC_INV_BUSY = true) ∧
    (∃ (a : Access) (s : State), s.Canonical ∧ s.Accepts a pIOM IOM_INV 65537 ∧ s.on pIOM IOM_INV_BUSY = false) ∧
    (∃ (a : Access) (s : State), s.Canonical ∧ s.Accepts a pIOM IOM_INV 65538 ∧ s.on pIOM IOM_INV_BUSY = false) ∧
    (∃ (a : Access) (s : State), s.Canonical ∧ s.Accepts a pIOM IOM_INV 65539 ∧ s.on pIOM IOM_INV_BUSY = false) ∧
    (∃ (s : State), s.Canonical ∧ s.on pIOM IOM_INV_BUSY = true) ∧
    (∃ (a : Access) (high : Bool) (v : Word) (s : State), s.Canonical ∧
      s.Accepts a pISO (if high then ISO_SEC_TTB_HI else ISO_SEC_TTB_LO) v) ∧
    (∃ (src : Fin 17) (ipa : Nat) (write : Bool) (s1 : State) (k : Nat) (l : Nat) (s : State), s.Canonical ∧ s1.Canonical ∧
      s.translate src.val (s.srcCtx src.val) (if write then .write else .read) ipa = (s1, .fault k l) ∧
      s1.on pIOM IOM_FLT_INFO_VALID = false ∧ k ≠ 4) ∧
    (∃ (a : Access) (s : State), s.Canonical ∧ s.Accepts a pIOM IOM_FLT_CLR 1) ∧
    (∃ (a : Access) (vmNo : Fin 16) (s : State), s.Canonical ∧ s.Accepts a (pVMC vmNo.val) VMC_CLR 1) ∧
    (∃ (a : Access) (inst : Fin 16) (toManager : Bool) (v : Word) (s : State), s.Canonical ∧
      s.Accepts a (pHIN inst.val) (tmCtrl toManager) v ∧ tmPre inst.val toManager a v s = none ∧ v.getLsbD 8 = true ∧
      v.getLsbD 9 = false ∧ s.on (pHIN inst.val) (tmFULL toManager) = false) ∧
    (∃ (a : Access) (inst : Fin 16) (toManager : Bool) (v : Word) (s : State), s.Canonical ∧
      s.Accepts a (pHIN inst.val) (tmCtrl toManager) v ∧ tmPre inst.val toManager a v s = none ∧ v.getLsbD 8 = false ∧
      v.getLsbD 9 = true) ∧
    (∃ (a : Access) (inst : Fin 16) (s : State), s.Canonical ∧
      s.Accepts a (pHIN inst.val) DPL_CTRL (BitVec.ofNat 32 (0x100 + s.get (pHIN inst.val) DPL_CTRL_EN)) ∧
      s.managerRole inst.val a = true) ∧
    (∃ (a : Access) (inst : Fin 16) (v : Word) (s : State), s.Canonical ∧ s.Accepts a (pHIN inst.val) HIN_QUIESCE v ∧
      s.managerRole inst.val a = true ∧ v.getLsbD 0 = true) ∧
    (∃ (inst : Fin 16) (s : State), s.Canonical ∧ s.on (pHIN inst.val) HIN_QUIESCE_REQ = true ∧
      s.on (pHIN inst.val) HIN_QUIESCE_DONE = false) ∧
    (∃ (a : Access) (page : Nat) (v : Word) (s : State), s.Canonical ∧ s.up.compute = true ∧
      s.accessCause a (pageBase page) PART_REQ true = none ∧ v.getLsbD 16 = true ∧ s.partRefused (pageBase page) v = false ∧
      tyOf (pageBase page) ∉ [0x0006, 0x3002, 0x4001, 0x5001]) ∧
    (∃ (page : Nat) (s : State), s.Canonical ∧ s.up.compute = true ∧ s.on (pageBase page) PART_BUSY = true ∧
      (tyOf (pageBase page) = 0x3001 ∨ tyOf (pageBase page) = 0x0006 ∧ s.on (pageBase page) MB_STAT_FULL = false)) ∧
    (∃ (page : Nat) (s : State), s.Canonical ∧ s.up.compute = true ∧ s.on (pageBase page) PART_BUSY = true ∧
      s.partIdle (pageBase page) = true) ∧
    (∃ (page : Nat) (s : State), s.Canonical ∧ s.up.compute = true ∧ s.on (pageBase page) PART_BUSY = true ∧
      (tyOf (pageBase page) = 0x3001 ∨ tyOf (pageBase page) = 0x0006)) :=
  ⟨⟨mon, 3, base, by decide +kernel⟩,
   ⟨mon, 3, base, by decide +kernel⟩,
   ⟨3, (base.set (pVMC 3) VMC_INV_BUSY 1).holdXlat 4 (.vm 3) 0 (.ok 0 0 0 0), by decide +kernel⟩,
   ⟨mon, base, by decide +kernel⟩,
   ⟨mon, base, by decide +kernel⟩,
   ⟨mon, base, by decide +kernel⟩,
   ⟨((base.set pIOM IOM_INV_BUSY 1).set pIOM IOM_INV_OP 1).holdXlat 4 .hyp 0 (.ok 0 0 0 0), by decide +kernel⟩,
   ⟨mon, true, 0x80000001, base, by decide +kernel⟩,
   ⟨16, 2 ^ 41, true, base, 3, 0, base, by decide +kernel⟩,
   ⟨mon, base.wrn pIOM IOM_FLT_IPA 5, by decide +kernel⟩,
   ⟨mon, 3, base.wrn (pVMC 3) VMC_CNT 5, by decide +kernel⟩,
   ⟨mon, 3, true, 0x104, base, by decide +kernel⟩,
   ⟨mon, 3, true, 0x200, base.set (pHIN 3) (tmFULL true) 1, by decide +kernel⟩,
   ⟨mon, 3, (base.set (pHIN 3) DPL_CTRL_OVF 1).set (pHIN 3) DPL_CTRL_EN 1, by decide +kernel⟩,
   ⟨mon, 3, 1, base, by decide +kernel⟩,
   ⟨3, base.set (pHIN 3) HIN_QUIESCE_REQ 1, by decide +kernel⟩,
   ⟨mon, pHIN 3, 0x10022, base, by decide +kernel⟩,
   ⟨pMBC 3, ((base.set (pMBC 3) PART_BUSY 1).set (pMBC 3) PART_NEW_WORLD 2).wrn (pMBC 3) MB_ALLOW 77, by decide +kernel⟩,
   ⟨pHIN 3, (base.set (pHIN 3) PART_BUSY 1).set (pHIN 3) PART_NEW_WORLD 2, by decide +kernel⟩,
   ⟨pMBC 3, ((base.set (pMBC 3) PART_BUSY 1).set (pMBC 3) PART_NEW_WORLD 2).wrn (pMBC 3) MB_ALLOW 77, by decide +kernel⟩⟩

theorem test_meets_DramCommandsComplete :
    (∃ (clocks : Nat) (a : Access) (isSpill : Bool) (addr : Nat) (s : State), s.Canonical ∧
      (s.advance clocks).up.compute = true ∧ (s.advance clocks).dramStopped a isSpill false (addr / 8 * 8) 8 = none ∧
      (s.advance clocks).poisonOf (addr / 8 * 8) = none) ∧
    (∃ (clocks : Nat) (a : Access) (isSpill : Bool) (addr : Nat) (p : Fin 80) (s : State), s.Canonical ∧
      (s.advance clocks).up.compute = true ∧ (s.advance clocks).dramStopped a isSpill false (addr / 8 * 8) 8 = none ∧
      (s.advance clocks).poisonOf (addr / 8 * 8) = none) ∧
    (∃ (clocks : Nat) (a : Access) (isSpill : Bool) (addr : Nat) (actual : Nat) (s : State), s.Canonical ∧
      (s.advance clocks).up.compute = true ∧ (s.advance clocks).dramStopped a isSpill false (addr / 8 * 8) 8 = none ∧
      (s.advance clocks).poisonOf (addr / 8 * 8) = none ∧ foldOf (actual / 8 * 8) ≠ foldOf (addr / 8 * 8)) ∧
    (∃ (clocks : Nat) (a : Access) (isSpill : Bool) (addr : Nat) (data : List Nat) (flips : List Nat) (s : State), s.Canonical ∧
      (s.advance clocks).up.compute = true ∧ (s.advance clocks).dramStopped a isSpill true addr data.length = none ∧
      addr % 8 = 0 ∧ data.length % 8 = 0 ∧ 0 < data.length ∧ data.all (fun b => decide (b < 256)) = true) ∧
    (∃ (s : State), s.Canonical ∧ s.pageUp pDMC = true) ∧
    (∃ (s : State), s.Canonical ∧ s.pageUp pDMC = true ∧ s.on pDMC DMC_STAT_TRAINED = false) ∧
    (∃ (n : Nat) (s : State), s.Canonical ∧ s.hon.refi = some n ∧ s.pageUp pDMC = true ∧ n < 2 ^ 32) ∧
    (∃ (s : State), s.Canonical ∧ s.hon.refi = none) ∧
    (∃ (clocks : Nat) (temps : List Int) (rate : Fin 8) (s : State), s.Canonical ∧ (s.advance clocks).pageUp pDMC = true ∧
      temps.any (fun x => decide (85 < x)) = true ∧ (s.advance clocks).on pDMC DMC_STAT_HOT = false ∧ s.refiBase < 2 ^ 32) ∧
    (∃ (clocks : Nat) (temps : List Int) (rate : Fin 8) (s : State), s.Canonical ∧ (s.advance clocks).pageUp pDMC = true ∧
      temps.any (fun x => decide (85 < x)) = false ∧ (s.advance clocks).on pDMC DMC_STAT_HOT = true ∧ s.refiBase < 2 ^ 32) ∧
    (∃ (word : Fin 16) (p : Fin 80) (check : SlotCheck) (s : State), s.Canonical ∧ s.pageUp pSCR = true ∧
      s.on pSCR SCR_CTRL_EN = true ∧ s.dramUp = true ∧ s.poisonOf (s.scrubBurst + word.val * 8) = none ∧
      s.scrubBurst + 128 ≠ 0x900000000) ∧
    (∃ (word : Fin 16) (check : SlotCheck) (s : State), s.Canonical ∧ s.pageUp pSCR = true ∧ s.on pSCR SCR_CTRL_EN = true ∧
      s.dramUp = true ∧ s.scrubBurst + 128 = 0x900000000) ∧
    (∃ (word : Fin 16) (flips : List Nat) (s : State), s.Canonical ∧ s.pageUp pSCR = true ∧ s.on pSCR SCR_CTRL_EN = true ∧
      s.scrSram + 8 ≠ 0x1000000) ∧
    (∃ (addr : Nat) (s : State), s.Canonical ∧ s.up.compute = true) ∧
    (∃ (addr : Nat) (s : State), s.Canonical ∧ s.up.compute = true ∧ addr < 0x1000000000 ∧
      s.get pSCR SCR_POISON_USED < 256 ∧ s.on pSCR (POISON_HI_VALID 0) = false) ∧
    (∃ (n : Fin 64) (s : State), s.Canonical ∧ s.up.compute = true) ∧
    (∃ (index : Nat) (s : State), s.Canonical ∧ s.up.compute = true ∧ index < 16384) ∧
    (∃ (n : Fin 12) (o : Fin 128) (s : State), s.Canonical ∧ s.up.compute = true) ∧
    (∃ (a : Access) (v : Word) (s : State), s.Canonical ∧ s.Accepts a pDMC DMC_CNT_CLR v ∧ v.getLsbD 0 = true) :=
  ⟨⟨5, mon, false, 0x800000008, dramOn.setByte 0x800000009 7, by decide +kernel⟩,
   ⟨5, mon, false, 0x800000008, 17, dramOn.setByte 0x800000009 7, by decide +kernel⟩,
   ⟨5, mon, false, 0x800000008, 0x800000010 + 8, dramOn, by decide +kernel⟩,
   ⟨5, mon, false, 0x800000008, List.replicate 8 7, [], dramOn, by decide +kernel⟩,
   ⟨base, by decide +kernel⟩,
   ⟨base, by decide +kernel⟩,
   ⟨3000, { base with hon.refi := some 3000 }, by decide +kernel⟩,
   ⟨base, by decide +kernel⟩,
   ⟨5, [86], 3, dramOn, by decide +kernel⟩,
   ⟨5, [85], 3, dramOn.set pDMC DMC_STAT_HOT 1, by decide +kernel⟩,
   ⟨3, 79, .good, dramOn.set pSCR SCR_CTRL_EN 1, by decide +kernel⟩,
   ⟨3, .good, (dramOn.set pSCR SCR_CTRL_EN 1).set pSCR SCR_POS_V (0x900000000 / 128 - 1), by decide +kernel⟩,
   ⟨3, [], dramOn.set pSCR SCR_CTRL_EN 1, by decide +kernel⟩,
   ⟨0x10000008, base, by decide +kernel⟩,
   ⟨0x10000008, base, by decide +kernel⟩,
   ⟨40, base.set (pKEY 1) (SLOT_STAT_VALID 8) 1, by decide +kernel⟩,
   ⟨77, base, by decide +kernel⟩,
   ⟨4, 9, base, by decide +kernel⟩,
   ⟨mon, 1, dramOn.wrn pDMC DMC_CNT 5, by decide +kernel⟩⟩

theorem test_meets_FlashAndFuseCommandsComplete :
    (∃ (a : Access) (die : Fin 2) (v : Word) (s : State), s.Canonical ∧ s.Accepts a (pNOR die.val) NOR_CMD v ∧
      v.getLsbD 16 = true ∧ bitsOf v.toNat 0 3 = 1 ∧
      s.norRefused die.val 1 (s.get (pNOR die.val) NOR_ADDR_V) (bitsOf v.toNat 24 8) = false) ∧
    (∃ (a : Access) (die : Fin 2) (v : Word) (s : State), s.Canonical ∧ s.Accepts a (pNOR die.val) NOR_CMD v ∧
      v.getLsbD 16 = true ∧ bitsOf v.toNat 0 3 = 2 ∧
      s.norRefused die.val 2 (s.get (pNOR die.val) NOR_ADDR_V) (bitsOf v.toNat 24 8) = false) ∧
    (∃ (a : Access) (die : Fin 2) (v : Word) (s : State), s.Canonical ∧ s.Accepts a (pNOR die.val) NOR_CMD v ∧
      v.getLsbD 16 = true ∧ bitsOf v.toNat 0 3 = 3 ∧
      s.norRefused die.val 3 (s.get (pNOR die.val) NOR_ADDR_V) (bitsOf v.toNat 24 8) = false) ∧
    (∃ (die : Fin 2) (o : NorOp) (s : State), s.Canonical ∧ nth s.norOps die.val none = some o ∧ o.op = 1 ∧
      o.off + o.data.length ≤ 0x8000000 ∧ o.data.all (fun b => decide (b < 256)) = true) ∧
    (∃ (die : Fin 2) (o : NorOp) (s : State), s.Canonical ∧ nth s.norOps die.val none = some o ∧ (o.op = 2 ∨ o.op = 3) ∧
      o.off + (norSpan o.op 0) ≤ 0x8000000) ∧
    (∃ (die : Fin 2) (o : NorOp) (s : State), s.Canonical ∧ nth s.norOps die.val none = some o) ∧
    (∃ (a : Access) (addr : Nat) (n : Nat) (s : State), s.Canonical ∧ s.up.compute = true ∧ regionOf addr = .nor ∧
      lvWorld (s.levelOf a) = 0 ∧ s.shell.crossed.contains .NOR = false ∧
      nth s.norOps ((addr - 0x40000000) / 0x8000000) none = none) ∧
    (∃ (a : Access) (die : Fin 2) (v : Word) (s : State), s.Canonical ∧ s.Accepts a (pNOR die.val) NOR_CNT_CLR v ∧
      v.getLsbD 0 = true) ∧
    (∃ (a : Access) (v : Word) (s : State), s.Canonical ∧ s.Accepts a pFUS FUS_PROG_GO v ∧ v.getLsbD 0 = true ∧
      s.fuseAllowed a.agent (s.get pFUS FUS_PROG_W_W) = true ∧ s.fuseOp = none) ∧
    (∃ (a : Access) (v : Word) (s : State), s.Canonical ∧ s.Accepts a pFUS FUS_PROG_GO v ∧ v.getLsbD 0 = true ∧
      s.fuseAllowed a.agent (s.get pFUS FUS_PROG_W_W) = false) ∧
    (∃ (w : Nat) (bits : Nat) (s : State), s.Canonical ∧ s.fuseOp = some (w, bits)) ∧
    (∃ (w : Nat) (bits : Nat) (s : State), s.Canonical ∧ s.fuseOp = some (w, bits)) :=
  ⟨⟨mon, 1, 0x03010001, base.wrn (pNOR 1) NOR_ADDR 0x200000, by decide +kernel⟩,
   ⟨mon, 1, 0x00010002, base.wrn (pNOR 1) NOR_ADDR 0x200000, by decide +kernel⟩,
   ⟨mon, 1, 0x00010003, base.wrn (pNOR 1) NOR_ADDR 0x200000, by decide +kernel⟩,
   ⟨0, ⟨1, 0x100, [3, 5]⟩, (norBusy ⟨1, 0x100, [3, 5]⟩).setByte 0x40000100 1, by decide +kernel⟩,
   ⟨0, ⟨2, 0x1000, []⟩, (norBusy ⟨2, 0x1000, []⟩).setByte 0x40001100 1, by decide +kernel⟩,
   ⟨0, ⟨1, 0x100, [3, 5]⟩, norBusy ⟨1, 0x100, [3, 5]⟩, by decide +kernel⟩,
   ⟨mon, 0x40000100, 4, base.setByte 0x40000100 1, by decide +kernel⟩,
   ⟨mon, 1, 1, base.wrn (pNOR 1) NOR_CNT 5, by decide +kernel⟩,
   ⟨⟨0x20, .monitor, 4⟩, 1, provisioned.wrn pFUS FUS_PROG_W 32, by decide +kernel⟩,
   ⟨mon, 1, provisioned.wrn pFUS FUS_PROG_W 32, by decide +kernel⟩,
   ⟨40, 3, { base with fuses := [(40, 4)], fuseOp := some (40, 3) }, by decide +kernel⟩,
   ⟨40, 3, { base with fuses := [(40, 4)], fuseOp := some (40, 3) }, by decide +kernel⟩⟩

theorem test_meets_KeyMessages :
    (∃ (l : List Nat) (s : State), s.Canonical ∧ s.MessageIs l ∧ nth l 0 0 % 16 = 1 ∧
      s.messageReason l (s.get pSEC SEC_MSG_LEN_V) ≠ 0) ∧
    (∃ (l : List Nat) (s : State), s.Canonical ∧ s.MessageIs l ∧ nth l 0 0 % 16 = 2 ∧
      s.messageReason l (s.get pSEC SEC_MSG_LEN_V) ≠ 0) ∧
    (∃ (l : List Nat) (s : State), s.Canonical ∧ s.MessageIs l ∧ nth l 0 0 % 16 = 3 ∧
      s.messageReason l (s.get pSEC SEC_MSG_LEN_V) ≠ 0) ∧
    (∃ (l : List Nat) (s : State), s.Canonical ∧ s.MessageIs l ∧ nth l 0 0 % 16 = 4 ∧
      s.messageReason l (s.get pSEC SEC_MSG_LEN_V) ≠ 0) :=
  ⟨⟨[17], ((base.set pSEC SEC_STAT_BUSY 1).set pSEC SEC_MSG_LO_V 0x10000000).set pSEC SEC_MSG_LEN_V 1 |>.setBytes 0x10000000 [17], by decide +kernel⟩,
   ⟨[18], ((base.set pSEC SEC_STAT_BUSY 1).set pSEC SEC_MSG_LO_V 0x10000000).set pSEC SEC_MSG_LEN_V 1 |>.setBytes 0x10000000 [18], by decide +kernel⟩,
   ⟨[19], ((base.set pSEC SEC_STAT_BUSY 1).set pSEC SEC_MSG_LO_V 0x10000000).set pSEC SEC_MSG_LEN_V 1 |>.setBytes 0x10000000 [19], by decide +kernel⟩,
   ⟨[20], ((base.set pSEC SEC_STAT_BUSY 1).set pSEC SEC_MSG_LO_V 0x10000000).set pSEC SEC_MSG_LEN_V 1 |>.setBytes 0x10000000 [20], by decide +kernel⟩⟩

/-- Whether the signature of zeros is good is not known to Lean (Config.slhVerify): the rest is. -/
theorem test_meets_keyWrite_accepted (h : Config.slhVerify 0 (zeros 32) ctxHZKU (secHead 0x11 3 1 aWrappedKey ++ zeros 0) (zeros 7856) = true) :
    ∃ (l : List Nat) (s : State), (s.Canonical) ∧ (s.MessageIs l) ∧ (nth l 0 0 % 16 = 1) ∧ (s.messageReason l (s.get pSEC SEC_MSG_LEN_V) = 0) := by
  exact ⟨((secHead 0x11 3 1 aWrappedKey ++ zeros 0) ++ zeros 7888), secMsg (secHead 0x11 3 1 aWrappedKey), by decide +kernel, messageIs_zeros (by decide +kernel), by decide +kernel,
    messageReason_zero (set := 0) (by decide +kernel) (drop_zeros (by decide +kernel)) (by decide +kernel) h⟩

/-- Whether the signature of zeros is good is not known to Lean (Config.slhVerify): the rest is. -/
theorem test_meets_keyErase_accepted (h : Config.slhVerify 0 (zeros 32) ctxHZKU (secHead 0x12 3 0 [] ++ zeros 40) (zeros 7856) = true) :
    ∃ (l : List Nat) (s : State), (s.Canonical) ∧ (s.MessageIs l) ∧ (nth l 0 0 % 16 = 2) ∧ (s.messageReason l (s.get pSEC SEC_MSG_LEN_V) = 0) := by
  exact ⟨((secHead 0x12 3 0 [] ++ zeros 40) ++ zeros 7888), secMsg (secHead 0x12 3 0 []), by decide +kernel, messageIs_zeros (by decide +kernel), by decide +kernel,
    messageReason_zero (set := 0) (by decide +kernel) (drop_zeros (by decide +kernel)) (by decide +kernel) h⟩

/-- Whether the signature of zeros is good is not known to Lean (Config.slhVerify): the rest is. -/
theorem test_meets_lifecycleAdvance_accepted (h : Config.slhVerify 0 (zeros 32) ctxHZKU (secHead 0x13 7 0 [] ++ zeros 40) (zeros 7856) = true) :
    ∃ (l : List Nat) (s : State), (s.Canonical) ∧ (s.MessageIs l) ∧ (nth l 0 0 % 16 = 3) ∧ (s.messageReason l (s.get pSEC SEC_MSG_LEN_V) = 0) := by
  exact ⟨((secHead 0x13 7 0 [] ++ zeros 40) ++ zeros 7888), secMsg (secHead 0x13 7 0 []), by decide +kernel, messageIs_zeros (by decide +kernel), by decide +kernel,
    messageReason_zero (set := 0) (by decide +kernel) (drop_zeros (by decide +kernel)) (by decide +kernel) h⟩

/-- Whether the signature of zeros is good is not known to Lean (Config.slhVerify): the rest is. -/
theorem test_meets_testPortUnlock_accepted (h : Config.slhVerify 0 (zeros 32) ctxHZKU (secHead 0x14 0 0 [] ++ zeros 40) (zeros 7856) = true) :
    ∃ (l : List Nat) (s : State), (s.Canonical) ∧ (s.MessageIs l) ∧ (nth l 0 0 % 16 = 4) ∧ (s.messageReason l (s.get pSEC SEC_MSG_LEN_V) = 0) := by
  exact ⟨((secHead 0x14 0 0 [] ++ zeros 40) ++ zeros 7888), (secMsg (secHead 0x14 0 0 [])).set pSLP BLK_STAT_STATE mSERVICE, by decide +kernel, messageIs_zeros (by decide +kernel), by decide +kernel,
    messageReason_zero (set := 0) (by decide +kernel) (drop_zeros (by decide +kernel)) (by decide +kernel) h⟩

theorem test_meets_SecurityCommandsComplete :
    (∃ (s : State), s.Canonical ∧ s.up.compute = true ∧ s.keysReady = false ∧ s.sec.stopped = false ∧ s.lifecycle ≠ 7 ∧
      s.on pFUS FUS_STAT_CHECK_OK = true) ∧
    (∃ (s : State), s.Canonical ∧ s.up.compute = true ∧ s.keysReady = false ∧ s.sec.stopped = false ∧ s.lifecycle = 7 ∧
      s.get pLCS LCS_STAT_TEST = 0) ∧
    (∃ (s : State), s.Canonical ∧ s.get pLCS LCS_STAT_TEST = 1) ∧
    (∃ (s : State), s.Canonical ∧ s.get pLCS LCS_STAT_TEST = 2) ∧
    (∃ (x : Nat) (s : State), s.Canonical ∧ s.get pLCS LCS_STAT_TEST = 2) ∧
    (∃ (a : Access) (v : Word) (s : State), s.Canonical ∧ s.Accepts a pLCS LCS_CTRL v ∧ a.agent = 0x20 ∧
      v.getLsbD 0 = true ∧ v.getLsbD 1 = false ∧ s.lifecycle = 0 ∧ s.on pFUS FUS_STAT_CHECK_OK = true ∧
      (s.fuse 30).testBit 0 = true) ∧
    (∃ (a : Access) (v : Word) (s : State), s.Canonical ∧ s.Accepts a pLCS LCS_CTRL v ∧ a.agent = 0x20 ∧
      v.getLsbD 0 = false ∧ v.getLsbD 1 = true ∧ s.lifecycle = 0 ∧ s.keysReady = true) ∧
    (∃ (a : Access) (v : Word) (s : State), s.Canonical ∧ s.Accepts a pATT ATT_EXT v ∧ attExtPre a v s = none ∧
      v.getLsbD 8 = true) ∧
    (∃ (a : Access) (v : Word) (s : State), s.Canonical ∧ s.Accepts a pATT ATT_CTRL v ∧ v.getLsbD 0 = true ∧
      s.keysReady = true) ∧
    (∃ (a : Access) (v : Word) (s : State), s.Canonical ∧ s.Accepts a pATT ATT_CTRL v ∧ v.getLsbD 0 = true ∧
      s.keysReady = false) ∧
    (∃ (clocks : Nat) (a : Access) (port : Fin 2) (v : Word) (s : State), s.Canonical ∧
      (s.advance clocks).Accepts a pCMD (CMD_P_GO port.val) v ∧ v.getLsbD 0 = true ∧ v.getLsbD 1 = false ∧
      (s.advance clocks).capReason port.val (bitsOf v.toNat 16 5) ((s.advance clocks).regBytes pCMD (capData port.val) 16) = 0) ∧
    (∃ (clocks : Nat) (a : Access) (port : Fin 2) (v : Word) (s : State), s.Canonical ∧
      (s.advance clocks).Accepts a pCMD (CMD_P_GO port.val) v ∧ v.getLsbD 0 = true ∧ v.getLsbD 1 = false ∧
      (s.advance clocks).capReason port.val (bitsOf v.toNat 16 5) ((s.advance clocks).regBytes pCMD (capData port.val) 16) ∉ [0, 6]) ∧
    (∃ (clocks : Nat) (a : Access) (port : Fin 2) (v : Word) (s : State), s.Canonical ∧
      (s.advance clocks).Accepts a pCMD (CMD_P_GO port.val) v ∧ v.getLsbD 0 = true ∧ v.getLsbD 1 = true ∧
      (s.advance clocks).capForm port.val (bitsOf v.toNat 16 5) 8 ((s.advance clocks).regBytes pCMD (capData port.val) 16) = 0 ∧
      (s.rd pCMD (CMD_CH_TX (nth ((s.advance clocks).regBytes pCMD (capData port.val) 16) 1 0 % 16))).toNat + 1 ≤ (s.rd pCMD (CMD_CH_SVT (nth ((s.advance clocks).regBytes pCMD (capData port.val) 16) 1 0 % 16))).toNat + 131072) ∧
    (∃ (ch : Fin 16) (s : State), s.Canonical) ∧
    (∃ (s : State), s.Canonical ∧ s.up.compute = true ∧ s.sleep = zQUIESCE ∧ s.slp.scDone = false ∧ s.slp.ack = false) ∧
    (∃ (a : Access) (inst : Fin 3) (v : Word) (s : State), s.Canonical ∧ s.Accepts a (pCRY inst.val) CRY_CTRL v ∧
      v.getLsbD 16 = true ∧ s.on (pCRY inst.val) CRY_CTRL_BUSY = false) ∧
    (∃ (inst : Fin 3) (result : List Nat) (l : List Nat) (s1 : State) (s2 : State) (s : State), s.Canonical ∧ s1.Canonical ∧
      s2.Canonical ∧ s.on (pCRY inst.val) CRY_CTRL_BUSY = true ∧
      s.dmaRead (17 + inst.val) ((s.rd (pCRY inst.val) CRY_SRC_LO).toNat + (s.rd (pCRY inst.val) CRY_SRC_HI).toNat * 2 ^ 32) (s.rd (pCRY inst.val) CRY_LEN).toNat = (s1, some l) ∧
      s1.dmaWrite (17 + inst.val) 0 false ((s.rd (pCRY inst.val) CRY_DST_LO).toNat + (s.rd (pCRY inst.val) CRY_DST_HI).toNat * 2 ^ 32) result = (s2, true)) ∧
    (∃ (inst : Fin 3) (result : List Nat) (l : List Nat) (s1 : State) (s : State), s.Canonical ∧ s1.Canonical ∧
      s.on (pCRY inst.val) CRY_CTRL_BUSY = true ∧
      s.dmaRead (17 + inst.val) ((s.rd (pCRY inst.val) CRY_SRC_LO).toNat + (s.rd (pCRY inst.val) CRY_SRC_HI).toNat * 2 ^ 32) (s.rd (pCRY inst.val) CRY_LEN).toNat = (s1, some l)) :=
  ⟨⟨provisioned.set pFUS FUS_STAT_CHECK_OK 1, by decide +kernel⟩,
   ⟨{ base with fuses := [(13, 5)] }, by decide +kernel⟩,
   ⟨base.set pLCS LCS_STAT_TEST 1, by decide +kernel⟩,
   ⟨base.set pLCS LCS_STAT_TEST 2, by decide +kernel⟩,
   ⟨7, base.set pLCS LCS_STAT_TEST 2, by decide +kernel⟩,
   ⟨⟨0x20, .monitor, 4⟩, 1, { base with fuses := [(30, 1)] }.set pFUS FUS_STAT_CHECK_OK 1, by decide +kernel⟩,
   ⟨⟨0x20, .monitor, 4⟩, 2, { base.set pSEC SEC_STAT_KEYS_READY 1 with sec.derived := [List.replicate 32 9] }, by decide +kernel⟩,
   ⟨mon, 0x104, base, by decide +kernel⟩,
   ⟨mon, 1, base.set pSEC SEC_STAT_KEYS_READY 1, by decide +kernel⟩,
   ⟨mon, 1, base, by decide +kernel⟩,
   ⟨5, mon, 0, 0x00050001, capsuleIn [16, 2, 0, 0, 0, 0, 0, 0, 0, 0, 0, 1, 158, 65, 33, 2, 247, 162, 107, 203], by decide +kernel⟩,
   ⟨5, mon, 0, 0x00050001, capsuleIn [16, 1, 0, 0], by decide +kernel⟩,
   ⟨5, mon, 0, 0x00020003, capsuleIn [16, 2, 0, 0], by decide +kernel⟩,
   ⟨3, { base with sec.blocked := List.replicate 16 true }, by decide +kernel⟩,
   ⟨base.set pSLP SLP_STAT_SLEEP zQUIESCE, by decide +kernel⟩,
   ⟨mon, 1, 0x10301, base, by decide +kernel⟩,
   ⟨0, [7], zeros 4, (cryBusy.dmaRead 17 0x10000000 4).1, ((cryBusy.dmaRead 17 0x10000000 4).1.dmaWrite 17 0 false 0x10000100 [7]).1, cryBusy, by decide +kernel⟩,
   ⟨0, [7], zeros 4, (cryBusy.dmaRead 17 0x10000000 4).1, cryBusy, by decide +kernel⟩⟩

theorem test_meets_RelayCommandsComplete :
    (∃ (octets : List Nat) (k : Nat) (s : State), s.Canonical ∧ s.scUp = true ∧ relayHead 1 octets = true ∧
      allZero (slice octets 4 4) = true ∧ nth octets 9 0 = 0 ∧ (1 ≤ beAt octets 10 2 ∧ beAt octets 10 2 ≤ 256) ∧
      (1 ≤ nth octets 8 0 ∧ nth octets 8 0 ≤ 16) ∧ octets.length = 12 + 24 * nth octets 8 0 ∧ s.writableSlot = some k ∧
      slice (octets.drop 12) (24 * nth octets 1 0) 16 = s.deviceId ∧ nth octets 1 0 < nth octets 8 0 ∧
      s.relayEnabled = true ∧ s.upd.relay = none) ∧
    (∃ (octets : List Nat) (s : State), s.Canonical ∧ s.scUp = true ∧ relayHead 1 octets = true ∧
      allZero (slice octets 4 4) = true ∧ nth octets 9 0 = 0 ∧ (1 ≤ beAt octets 10 2 ∧ beAt octets 10 2 ≤ 256) ∧
      (1 ≤ nth octets 8 0 ∧ nth octets 8 0 ≤ 16) ∧ octets.length = 12 + 24 * nth octets 8 0 ∧ s.writableSlot = none) ∧
    (∃ (octets : List Nat) (r : Relay) (s : State), s.Canonical ∧ s.scUp = true ∧ relayBlockOk 0 octets = true ∧
      (s.relayFrom true octets) = some r ∧ r.phase = 0 ∧ r.man = [] ∧ beAt octets 4 4 < 13 ∧
      2 ≤ s.manBlocks { r with man := [(beAt octets 4 4, octets.drop 12)] }) ∧
    (∃ (octets : List Nat) (r : Relay) (m : List (Nat × List Nat)) (s : State), s.Canonical ∧ s.scUp = true ∧
      relayBlockOk 0 octets = true ∧ (s.relayFrom true octets) = some r ∧ r.phase = 0 ∧ beAt octets 4 4 < 13 ∧
      (r.man.lookup (beAt octets 4 4)).isSome = false ∧
      m = sortBy (fun x y => decide (x.1 ≤ y.1)) (r.man ++ [(beAt octets 4 4, octets.drop 12)]) ∧
      ((List.range (s.manBlocks { r with man := m })).all fun i => (m.lookup i).isSome) = true ∧
      m.length = s.manBlocks { r with man := m } ∧ r.hop = r.last) ∧
    (∃ (r : Relay) (s : State), s.Canonical ∧ s.upd.relay = some r ∧ r.phase = 1 ∧ r.slot < 2 ∧ r.manifest.length ≤ 0x8000 ∧
      r.manifest.all (fun b => decide (b < 256)) = true) ∧
    (∃ (r : Relay) (s : State), s.Canonical ∧ s.upd.relay = some r ∧ r.phase = 1) ∧
    (∃ (octets : List Nat) (r : Relay) (s : State), s.Canonical ∧ s.scUp = true ∧ relayBlockOk 1 octets = true ∧
      octets.length = 12 + blockLen ∧ (s.relayFrom true octets) = some r ∧ r.phase = 2 ∧ beAt octets 4 4 = r.next ∧
      r.next < (mT r.manifest) ∧ s.blockOk r r.next (octets.drop 12) = true) ∧
    (∃ (octets : List Nat) (r : Relay) (s : State), s.Canonical ∧ s.scUp = true ∧ relayBlockOk 1 octets = true ∧
      octets.length = 12 + blockLen ∧ (s.relayFrom true octets) = some r ∧ r.phase = 2 ∧ beAt octets 4 4 = r.next ∧
      r.next < (mT r.manifest) ∧ s.blockOk r r.next (octets.drop 12) = false) ∧
    (∃ (r : Relay) (b : Nat) (l : List Nat) (q : List (Nat × List Nat)) (s : State), s.Canonical ∧ s.upd.relay = some r ∧
      r.queue = (b, l) :: q ∧ l.all (fun x => decide (x < 256)) = true) ∧
    (∃ (r : Relay) (b : Nat) (l : List Nat) (q : List (Nat × List Nat)) (s : State), s.Canonical ∧ s.upd.relay = some r ∧
      r.queue = (b, l) :: q) ∧
    (∃ (octets : List Nat) (r : Relay) (s : State), s.Canonical ∧ s.scUp = true ∧ relayHead 3 octets = true ∧
      (s.relayFrom false octets) = some r ∧ r.closeSent = false ∧ nth octets 8 0 = 0) ∧
    (∃ (r : Relay) (s : State), s.Canonical ∧ s.upd.relay = some r ∧ r.phase = 2 ∧ r.acked < r.prog ∧
      r.prog < (mT r.manifest)) ∧
    (∃ (r : Relay) (s : State), s.Canonical ∧ s.upd.relay = some r ∧ r.hop < r.last ∧ 2 ≤ r.phase ∧ r.downEnd = none ∧
      r.sent ≠ r.down ∧ r.resends < 5) ∧
    (∃ (r : Relay) (s : State), s.Canonical ∧ s.upd.relay = some r ∧ r.hop < r.last ∧ 2 ≤ r.phase ∧ r.downEnd = none ∧
      r.sent ≠ r.down ∧ 5 ≤ r.resends) ∧
    (∃ (octets : List Nat) (r : Relay) (s : State), s.Canonical ∧ s.scUp = true ∧ relayHead 4 octets = true ∧
      allZero (octets.drop 4) = true ∧ (s.relayFrom true octets) = some r ∧ r.phase = 2 ∧ (mT r.manifest) ≤ r.next) ∧
    (∃ (octets : List Nat) (r : Relay) (s : State), s.Canonical ∧ s.scUp = true ∧ relayHead 5 octets = true ∧
      (s.relayFrom true octets) = some r) :=
  ⟨⟨[0x11, 0, 0, 7, 0, 0, 0, 0, 1, 0, 0, 16] ++ zeros 24, 0, { base with upd.settings := [(0xFF00, [0, 0, 0, 1])] }, by decide +kernel⟩,
   ⟨[0x11, 0, 0, 7, 0, 0, 0, 0, 1, 0, 0, 16] ++ zeros 24, { slotIn 0 sTRIAL 9 base with upd.run := some 0 }, by decide +kernel⟩,
   ⟨[0x12, 0, 0, 7, 0, 0, 0, 3, 0, 0, 0, 1, 5], { aRelay 0 with man := [] }, { base with upd.relay := some { aRelay 0 with man := [] } }, by decide +kernel⟩,
   ⟨[0x12, 0, 0, 7, 0, 0, 0, 6, 0, 0, 0, 1, 5], { aRelay 0 with man := (List.range 6).map fun i => (i, [0]) }, (List.range 6).map (fun i => (i, [0])) ++ [(6, [5])], { base with upd.relay := some { aRelay 0 with man := (List.range 6).map fun i => (i, [0]) } }, by decide +kernel⟩,
   ⟨aRelay 1, relaying 1, by decide +kernel⟩,
   ⟨aRelay 1, relaying 1, by decide +kernel⟩,
   ⟨[0x12, 0, 0, 7, 0, 0, 0, 0, 1, 0, 5, 0x80] ++ zeros 1408, aRelay 2, relaying 2, by decide +kernel⟩,
   ⟨[0x12, 0, 0, 7, 0, 0, 0, 0, 1, 0, 5, 0x80, 1] ++ zeros 1407, aRelay 2, relaying 2, by decide +kernel⟩,
   ⟨{ aRelay 2 with queue := [(0, [1, 2])] }, 0, [1, 2], [], { base with upd.relay := some { aRelay 2 with queue := [(0, [1, 2])] } }, by decide +kernel⟩,
   ⟨{ aRelay 2 with queue := [(0, [1, 2])] }, 0, [1, 2], [], { base with upd.relay := some { aRelay 2 with queue := [(0, [1, 2])] } }, by decide +kernel⟩,
   ⟨[0x13, 2, 0, 7, 0, 0, 0, 1, 0, 0, 0, 16], { aRelay 2 with last := 2, next := 2, prog := 2, sent := 2 }, chained, by decide +kernel⟩,
   ⟨{ aRelay 2 with prog := 1 }, { base with upd.relay := some { aRelay 2 with prog := 1 } }, by decide +kernel⟩,
   ⟨{ aRelay 2 with last := 2, next := 2, prog := 2, sent := 2 }, chained, by decide +kernel⟩,
   ⟨{ aRelay 2 with last := 2, next := 2, prog := 2, sent := 2, resends := 5 }, { base with upd.relay := some { aRelay 2 with last := 2, next := 2, prog := 2, sent := 2, resends := 5 } }, by decide +kernel⟩,
   ⟨[0x14, 0, 0, 7] ++ zeros 8, { aRelay 2 with next := 2 }, { base with upd.relay := some { aRelay 2 with next := 2 } }, by decide +kernel⟩,
   ⟨[0x15, 0, 0, 7, 0, 0, 0, 0, 14, 1, 0, 0], aRelay 2, relaying 2, by decide +kernel⟩⟩

theorem test_meets_UpdateCommandsComplete :
    (∃ (slot : Fin 2) (s1 : State) (s : State), s.Canonical ∧ s1.Canonical ∧ s.scUp = true ∧
      s.slotState slot.val = sRECEIVED ∧ s.slotCheck slot.val = (s1, 0) ∧ s1.statusNext slot.val < 1024 ∧
      s1.upd.relay = none) ∧
    (∃ (slot : Fin 2) (s1 : State) (r : Nat) (s : State), s.Canonical ∧ s1.Canonical ∧ s.scUp = true ∧
      s.slotState slot.val = sRECEIVED ∧ s.slotCheck slot.val = (s1, r) ∧ r ≠ 0 ∧ s1.statusNext slot.val < 1024 ∧
      s1.upd.relay = none) ∧
    (∃ (w : List Nat) (s : State), s.Canonical ∧ s.request 1 = some w ∧ s.CanReply w 7) ∧
    (∃ (w : List Nat) (k : Nat) (s : State), s.Canonical ∧ s.request 2 = some w ∧ s.CanReply w 1 ∧ (1 ≤ nth w 0 0 % 256 ∧
      nth w 0 0 % 256 ≤ 7) ∧ s.idleSlot (fun st => st == sCOMPLETE) = some k ∧ s.statusNext k < 1024) ∧
    (∃ (w : List Nat) (b : List Nat) (s1 : State) (k : Fin 2) (s : State), s.Canonical ∧ s1.Canonical ∧
      s.request 3 = some w ∧ s.capsuleWords (slice w 1 7) (s.settingVal 0xFF02) = (s1, 0, b) ∧ s1.CanReply w 2 ∧
      beAt b 2 2 = 0xFFC1 ∧ nth b 4 0 = 8 ∧ allZero (slice b 13 3) = true ∧ s1.upd.run = some k.val ∧
      s1.slotState k.val = sTRIAL ∧ beAt b 8 4 = mVersion (s1.manifest k.val) ∧ nth b 12 0 = k.val ∧
      (s1.statusNext 0 < 1024 ∧ s1.statusNext 1 < 1024) ∧ ((s1.slotInfo 0).count + 1 < 2 ^ 32 ∧
      (s1.slotInfo 1).count + 1 < 2 ^ 32)) ∧
    (∃ (w : List Nat) (k : Nat) (s : State), s.Canonical ∧ s.request 4 = some w ∧ s.CanReply w 1 ∧
      s.idleSlot (fun st => st == sCOMPLETE || st == sTRIAL) = some k ∧ s.statusNext k < 1024) ∧
    (∃ (w : List Nat) (r : Relay) (s : State), s.Canonical ∧ s.request 5 = some w ∧ s.CanReply w 1 ∧ s.upd.relay = some r) ∧
    (∃ (w : List Nat) (l : List Nat) (d : Fin 2) (o : Nat) (s : State), s.Canonical ∧ s.request 6 = some w ∧
      s.CanReply w 1 ∧ nth w 4 0 ≤ 4072 ∧ nth w 1 0 % 2 ^ 16 = 0 ∧ s.keysReady = true ∧
      s.ramRead 0 false (nth w 2 0 + nth w 3 0 % 16 * 2 ^ 32) (max (nth w 4 0) 1) = (s, some l) ∧
      o = max (s.setUsed 0 s.upd.half) (s.setUsed 1 s.upd.half) ∧
      16 * o + (SetRec.octets s.kSto ⟨nth w 1 0 / 2 ^ 16, 0, s.setAll.foldl (fun m x => max m x.seq) 0 + 1, l.take (nth w 4 0)⟩).length ≤ setHalfSize ∧
      s.upd.half < 2) ∧
    (∃ (w : List Nat) (s : State), s.Canonical ∧ s.request 7 = some w ∧ s.CanReply w 2 ∧ s.keysReady = true ∧
      newestSet (fun r => r.key == nth w 1 0 / 2 ^ 16 && r.fmt == nth w 1 0 % 2 ^ 16) s.setAll = none) ∧
    (∃ (w : List Nat) (r : SetRec) (s1 : State) (s : State), s.Canonical ∧ s1.Canonical ∧ s.request 7 = some w ∧
      s1.CanReply w 2 ∧ s.keysReady = true ∧
      newestSet (fun r => r.key == nth w 1 0 / 2 ^ 16 && r.fmt == nth w 1 0 % 2 ^ 16) s.setAll = some r ∧
      s.ramWrite 0 false (nth w 2 0 + nth w 3 0 % 16 * 2 ^ 32) (r.data.take (nth w 4 0)) = (s1, true)) :=
  ⟨⟨0, (base.slotProgram 0 manOff (zeros 64 ++ sha256 [])).slotRecord 0 sRECEIVED 0 0, (base.slotProgram 0 manOff (zeros 64 ++ sha256 [])).slotRecord 0 sRECEIVED 0 0, by decide +kernel⟩,
   ⟨0, slotIn 0 sRECEIVED 9 base, 10, slotIn 0 sRECEIVED 9 base, by decide +kernel⟩,
   ⟨[0x01000300] ++ zeros 15, asked (slotIn 1 sCONFIRMED 9 base) [0x01000300], by decide +kernel⟩,
   ⟨[0x02000303] ++ zeros 15, 1, asked (slotIn 1 sCOMPLETE 9 base) [0x02000303], by decide +kernel⟩,
   ⟨[0x03000300, 0x1002ffc1, 0x8000000, 0x9, 0x0, 0x1, 0xcbef1e82, 0x552237f1] ++ zeros 8, (slice (reqWords confirmed) 1 7 |>.map (bytesBE 4)).flatten, (confirmed.capsuleWords (slice (reqWords confirmed) 1 7) 2).1, 0, confirmed, by decide +kernel⟩,
   ⟨[0x04000300] ++ zeros 15, 1, asked (slotIn 1 sCOMPLETE 9 base) [0x04000300], by decide +kernel⟩,
   ⟨[0x05000300] ++ zeros 15, aRelay 2, asked (relaying 2) [0x05000300], by decide +kernel⟩,
   ⟨[0x06000300, 0x00050000, 0x10000000, 0, 1] ++ zeros 11, [0], 0, 0, (asked base [0x06000300, 0x00050000, 0x10000000, 0, 1]).set pSEC SEC_STAT_KEYS_READY 1, by decide +kernel⟩,
   ⟨[0x07000300, 0x00050000, 0x10000000, 0, 1] ++ zeros 11, (asked base [0x07000300, 0x00050000, 0x10000000, 0, 1]).set pSEC SEC_STAT_KEYS_READY 1, by decide +kernel⟩,
   ⟨[0x07000300, 0x00050000, 0x10000000, 0, 1] ++ zeros 11, ⟨5, 0, 1, [9]⟩, (setHeld.ramWrite 0 false 0x10000000 [9]).1, setHeld, by decide +kernel⟩⟩

theorem test_meets_BootCommandsComplete :
    (∃ (s : State), s.Canonical ∧ s.up.compute = true ∧ s.upd.base = none ∧ s.journal = []) ∧
    (∃ (slot : Nat) (s : State), s.Canonical ∧ s.up.compute = true ∧ s.upd.base = none ∧ s.installing = some slot ∧
      (s.jnlNext 0 ≤ 1024 ∧ s.jnlNext 1 ≤ 1024)) ∧
    (∃ (slot : Nat) (k : Nat) (j : Nat) (q : List (Nat × Nat)) (s : State), s.Canonical ∧ s.up.compute = true ∧
      s.upd.base = none ∧ s.installing = some slot ∧ s.blocksLeft = (k, j) :: q) ∧
    (∃ (s : State), s.Canonical ∧ s.scUp = true ∧ s.upd.base ≠ none ∧ s.upd.chosen = false ∧ s.slotState 0 ≠ sRECEIVED ∧
      s.slotState 1 ≠ sRECEIVED ∧ s.slotFound = .none) ∧
    (∃ (k : Nat) (s : State), s.Canonical ∧ s.scUp = true ∧ s.upd.base ≠ none ∧ s.upd.chosen = false ∧
      s.slotState 0 ≠ sRECEIVED ∧ s.slotState 1 ≠ sRECEIVED ∧ s.slotFound = .confirmed k) ∧
    (∃ (w : List Nat) (b : List Nat) (s1 : State) (s : State), s.Canonical ∧ s1.Canonical ∧ s.request 8 = some w ∧
      s.capsuleWords (slice w 1 6) (s.settingVal 0xFF02) = (s1, 0, b) ∧ s1.CanReply w 2 ∧ beAt b 2 2 = 0xFFC2 ∧
      nth b 4 0 = 4 ∧ (1 ≤ beAt b 8 4 ∧ beAt b 8 4 ≤ 255) ∧ (s1.mode = mRUN ∨ s1.mode = mDEGRADED)) :=
  ⟨⟨base, by decide +kernel⟩,
   ⟨0, base.jnlWrite ⟨1, 0, 0, 0⟩, by decide +kernel⟩,
   ⟨0, 0, 0, base.blocksLeft.tail, base.jnlWrite ⟨1, 0, 0, 0⟩, by decide +kernel⟩,
   ⟨{ base with upd.base := some 0 }, by decide +kernel⟩,
   ⟨1, { slotIn 1 sCONFIRMED 9 base with upd.base := some 0 }, by decide +kernel⟩,
   ⟨[0x08000300, 0x1002ffc2, 0x4000000, 0x1e, 0x1, 0xe33d1055, 0xe5344f0f] ++ zeros 9, (slice (reqWords serviceAsked) 1 6 |>.map (bytesBE 4)).flatten, (serviceAsked.capsuleWords (slice (reqWords serviceAsked) 1 6) 2).1, serviceAsked, by decide +kernel⟩⟩

theorem test_meets_ClockCommandsComplete :
    (∃ (clocks : Nat) (count : Nat) (s : State), s.Canonical ∧ (s.advance clocks).up.compute = true ∧
      (s.advance clocks).on pCLK CLK_STAT_XO_STABLE = false) ∧
    (∃ (clocks : Nat) (s : State), s.Canonical ∧ (s.advance clocks).up.compute = true ∧
      (s.advance clocks).on pCLK CLK_STAT_XO_STABLE = false ∧ (s.advance clocks).on pCLK CLK_STAT_ON_RCO = false) ∧
    (∃ (clocks : Nat) (s : State), s.Canonical ∧ (s.advance clocks).up.compute = true ∧ (s.advance clocks).dieOn 0 = true) ∧
    (∃ (clocks : Nat) (die : Fin 2) (count : Nat) (s : State), s.Canonical ∧ (s.advance clocks).dieUp die.val = true ∧
      ((s.advance clocks).die die.val).rcFault = false) ∧
    (∃ (clocks : Nat) (e : Fin 10) (c : Nat) (x : Nat) (s : State), s.Canonical ∧ (s.advance clocks).up.compute = true ∧
      (s.advance clocks).windowDiscarded e.val (some c) = false ∧ 3 ≤ e.val ∧
      (s.advance clocks).get pCSV (CSV_EXP_E e.val) = x ∧ ¬ (x / 500 < absInt ((c : Int) - (x : Int))) ∧ c < 2 ^ 24 ∧
      (s.advance clocks).on pCSV ⟨CSV_FAULT, e.val, 1⟩ = false) ∧
    (∃ (clocks : Nat) (e : Fin 10) (c : Nat) (x : Nat) (s : State), s.Canonical ∧ (s.advance clocks).up.compute = true ∧
      (s.advance clocks).windowDiscarded e.val (some c) = false ∧ 8 ≤ e.val ∧
      (s.advance clocks).get pCSV (CSV_EXP_E e.val) = x ∧ (x / 500 < absInt ((c : Int) - (x : Int))) ∧ c < 2 ^ 24 ∧
      (s.advance clocks).on pCSV ⟨CSV_FAULT, e.val, 1⟩ = false) ∧
    (∃ (clocks : Nat) (c : Nat) (x : Nat) (s : State), s.Canonical ∧ (s.advance clocks).up.compute = true ∧
      (s.advance clocks).windowDiscarded 1 (some c) = false ∧ (s.advance clocks).get pCSV (CSV_EXP_E 1) = x ∧
      (x / 500 < absInt ((c : Int) - (x : Int))) ∧ c < 2 ^ 24 ∧ (s.advance clocks).on pCSV ⟨CSV_FAULT, 1, 1⟩ = false ∧
      (s.advance clocks).clk.verdict = [some true, some true, some false] ∧
      (s.advance clocks).clk.faulty.testBit 1 = false) ∧
    (∃ (clocks : Nat) (s : State), s.Canonical ∧ (s.advance clocks).up.compute = true) ∧
    (∃ (clocks : Nat) (pll : Fin 5) (s : State), s.Canonical ∧ (s.advance clocks).up.compute = true ∧ pll.val ≠ 0 ∧
      (s.advance clocks).cutting = false) ∧
    (∃ (domain : ClockDomain) (s : State), s.Canonical ∧ s.up.compute = true ∧ s.shell.crossed.contains domain = false) ∧
    (∃ (domain : ClockDomain) (x : Nat) (s : State), s.Canonical ∧ s.up.compute = true ∧
      s.shell.crossed.contains domain = false ∧ (pageOf x).isSome = true) ∧
    (∃ (domain : ClockDomain) (s : State), s.Canonical ∧ s.up.compute = true ∧ s.shell.crossed.contains domain = true) ∧
    (∃ (page : Nat) (s : State), s.Canonical ∧ s.pageUp (pageBase page) = true ∧ s.get (pageBase page) CLK_REQ_POLICY = 0 ∧
      ungatedTy (tyOf (pageBase page)) = false ∧ s.shell.idle.contains (pageBase page) = false ∧ s.shell.draining = []) ∧
    (∃ (page : Nat) (s : State), s.Canonical) :=
  ⟨⟨5, 25000, base, by decide +kernel⟩,
   ⟨5, base, by decide +kernel⟩,
   ⟨5, base, by decide +kernel⟩,
   ⟨5, 1, 19999, linked, by decide +kernel⟩,
   ⟨5, 4, 10000, 10000, clocked.set pCSV (CSV_EXP_E 4) 10000, by decide +kernel⟩,
   ⟨5, 8, 20100, 20000, (linked.set pCSV (CSV_EXP_E 8) 20000).set pSLP BLK_STAT_STATE mRUN, by decide +kernel⟩,
   ⟨5, 900, 1000, { clocked.set pCSV (CSV_EXP_E 1) 1000 with clk.verdict := [some true, some true, some false] }, by decide +kernel⟩,
   ⟨5, timed, by decide +kernel⟩,
   ⟨5, 2, timed, by decide +kernel⟩,
   ⟨.DDR, base, by decide +kernel⟩,
   ⟨.DDR, pMBC 3 + 0x40, base, by decide +kernel⟩,
   ⟨.DDR, { base with shell.crossed := [.DDR] }, by decide +kernel⟩,
   ⟨pMBC 3, base, by decide +kernel⟩,
   ⟨pMBC 3, { base with shell.idle := [pMBC 3] }, by decide +kernel⟩⟩

theorem test_meets_PowerDomainCommands :
    (∃ (a : Access) (d : Fin 10) (v : Word) (s : State), s.Canonical ∧ s.Accepts a pPWR (PWR_DOM d.val) v ∧
      pwrDomPre d.val s = none ∧ bitsOf v.toNat 0 2 = 0) ∧
    (∃ (a : Access) (d : Fin 10) (v : Word) (s : State), s.Canonical ∧ s.Accepts a pPWR (PWR_DOM d.val) v ∧
      pwrDomPre d.val s = none ∧ bitsOf v.toNat 0 2 = 1 ∧ s.domainNeeded d.val = false) ∧
    (∃ (a : Access) (d : Fin 10) (v : Word) (s : State), s.Canonical ∧ s.Accepts a pPWR (PWR_DOM d.val) v ∧
      pwrDomPre d.val s = none ∧ bitsOf v.toNat 0 2 = 2 ∧ s.domainNeeded d.val = false) ∧
    (∃ (a : Access) (d : Fin 10) (v : Word) (s : State), s.Canonical ∧ s.Accepts a pPWR (PWR_DOM d.val) v ∧
      pwrDomPre d.val s = none ∧ bitsOf v.toNat 0 2 ≠ 0 ∧ s.domainNeeded d.val = true) ∧
    (∃ (clocks : Nat) (d : Fin 10) (s : State), s.Canonical ∧ (s.advance clocks).up.compute = true ∧
      (s.advance clocks).on pPWR (PWR_DOM_ON d.val) = true ∧ (s.advance clocks).domainWanted d.val = false) ∧
    (∃ (clocks : Nat) (d : Fin 10) (left : Nat) (s : State), s.Canonical ∧ (s.advance clocks).up.compute = true ∧
      (s.advance clocks).on pPWR (PWR_DOM_ON d.val) = true ∧ (s.advance clocks).domainWanted d.val = false ∧ left ≠ 0) ∧
    (∃ (clocks : Nat) (d : Fin 10) (s : State), s.Canonical ∧ (s.advance clocks).up.compute = true ∧
      (s.advance clocks).on pPWR (PWR_DOM_ON d.val) = false ∧ (s.advance clocks).domainWanted d.val = true ∧ d.val ≠ 9) ∧
    (∃ (a : Access) (v : Word) (x : VfsStep) (s : State), s.Canonical ∧ s.Accepts a pVFS VFS_REQ v ∧
      s.on pVFS VFS_STAT_VFAIL = false ∧ s.get pVFS VFS_CEIL_OP ≤ (bitsOf v.toNat 0 3) ∧ s.clk.step = none ∧
      s.vfsNext (bitsOf v.toNat 0 3) = some x) ∧
    (∃ (a : Access) (v : Word) (s : State), s.Canonical ∧ s.Accepts a pVFS VFS_REQ v ∧ s.on pVFS VFS_STAT_VFAIL = false ∧
      (bitsOf v.toNat 0 3) < s.get pVFS VFS_CEIL_OP) ∧
    (∃ (clocks : Nat) (mv : Nat) (s : State), s.Canonical ∧ (s.advance clocks).up.compute = true ∧
      (s.advance clocks).clk.step = some (.ramp mv)) ∧
    (∃ (clocks : Nat) (c : Nat) (s : State), s.Canonical ∧ (s.advance clocks).up.compute = true ∧
      (s.advance clocks).clk.step = some (.divider c) ∧ (s.advance clocks).on pVFS VFS_STAT_VFAIL = false ∧
      (s.advance clocks).on pVFS VFS_STAT_BUSY = true ∧
      max ((s.advance clocks).get pVFS VFS_REQ_OP) ((s.advance clocks).get pVFS VFS_CEIL_OP) = c ∧
      (s.advance clocks).clk.rail = (s.advance clocks).opVolts c) ∧
    (∃ (clocks : Nat) (mv : Nat) (x : Nat) (s : State), s.Canonical ∧ (s.advance clocks).up.compute = true ∧
      (s.advance clocks).clk.step = some (.ramp x) ∧ 10 < absInt ((mv : Int) - (x : Int))) ∧
    (∃ (a : Access) (v : Word) (s : State), s.Canonical ∧ s.Accepts a pVFS VFS_CTRL v ∧ v.getLsbD 0 = true) ∧
    (∃ (s : State), s.Canonical ∧ s.up.compute = true ∧ s.hz9620 = true ∧ s.clk.div < s.get pVFS VFS_CEIL_OP) ∧
    (∃ (s : State), s.Canonical ∧ s.up.compute = true ∧ s.hz9620 = false ∧ s.on pVFS VFS_STAT_VFAIL = false) ∧
    (∃ (a : Access) (v : Word) (s : State), s.Canonical ∧ s.Accepts a pCLK CLK_AC_DIV v ∧ clkAcDivPre v s = none) :=
  ⟨⟨mon, 6, 0, base, by decide +kernel⟩,
   ⟨mon, 6, 1, base, by decide +kernel⟩,
   ⟨mon, 6, 2, base, by decide +kernel⟩,
   ⟨mon, 4, 2, base, by decide +kernel⟩,
   ⟨5, 6, timed.set pPWR (PWR_DOM_POLICY 6) 2, by decide +kernel⟩,
   ⟨5, 6, 3, timed.set pPWR (PWR_DOM_POLICY 6) 2, by decide +kernel⟩,
   ⟨5, 6, timed.set pPWR (PWR_DOM_ON 6) 0, by decide +kernel⟩,
   ⟨mon, 4, (atPoint3.vfsNext 4).getD (.ramp 0), atPoint3, by decide +kernel⟩,
   ⟨mon, 2, atPoint3.set pVFS VFS_CEIL_OP 3, by decide +kernel⟩,
   ⟨5, 800, { atPoint3 with clk.step := some (.ramp 800) }, by decide +kernel⟩,
   ⟨5, 3, { (atPoint3.set pVFS VFS_REQ_OP 3).set pVFS VFS_STAT_BUSY 1 with clk.step := some (.divider 3) }, by decide +kernel⟩,
   ⟨5, 780, 800, { atPoint3 with clk.step := some (.ramp 800) }, by decide +kernel⟩,
   ⟨mon, 1, base.set pVFS VFS_STAT_VFAIL 1, by decide +kernel⟩,
   ⟨{ (timed.set pVFS VFS_CEIL_OP 4) with hz9620 := true, clk.div := 3 }, by decide +kernel⟩,
   ⟨atPoint3.set pVFS VFS_CEIL_OP 4, by decide +kernel⟩,
   ⟨mon, 4, { timed with hz9620 := true }, by decide +kernel⟩⟩

theorem test_meets_ResetCommandsComplete :
    (∃ (a : Access) (v : Word) (s : State), s.Canonical ∧ s.Accepts a pRST RST_REQ v ∧ rstReqPre a v s = none ∧
      bitsOf v.toNat 16 16 = 0xA55A ∧ (v.getLsbD 0 = true ∧ v.getLsbD 8 = false ∧ v.getLsbD 9 = false) ∧
      s.cutting = false) ∧
    (∃ (a : Access) (v : Word) (s : State), s.Canonical ∧ s.Accepts a pRST RST_REQ v ∧ lvMonitor (s.levelOf a) = true ∧
      bitsOf v.toNat 16 16 ≠ 0xA55A) ∧
    (∃ (a : Access) (v : Word) (s : State), s.Canonical ∧ s.Accepts a pRST RST_REQ v ∧ rstReqPre a v s = none ∧
      bitsOf v.toNat 16 16 = 0xA55A ∧ (v.getLsbD 0 = false ∧ v.getLsbD 1 = true ∧ v.getLsbD 2 = false ∧
      v.getLsbD 3 = false ∧ v.getLsbD 8 = false ∧ v.getLsbD 9 = false)) ∧
    (∃ (a : Access) (v : Word) (s : State), s.Canonical ∧ s.Accepts a pRST RST_REQ v ∧ rstReqPre a v s = none ∧
      bitsOf v.toNat 16 16 = 0xA55A ∧ (v.getLsbD 0 = false ∧ v.getLsbD 1 = false ∧ v.getLsbD 2 = true ∧
      v.getLsbD 3 = false ∧ v.getLsbD 8 = false ∧ v.getLsbD 9 = false) ∧ (¬ (s.pairState 4 = cCOMPARED ∧
      s.isHeadstock = true))) ∧
    (∃ (a : Access) (v : Word) (s : State), s.Canonical ∧ s.Accepts a pRST RST_REQ v ∧ rstReqPre a v s = none ∧
      bitsOf v.toNat 16 16 = 0xA55A ∧ (v.getLsbD 0 = false ∧ v.getLsbD 1 = false ∧ v.getLsbD 2 = true ∧
      v.getLsbD 3 = false ∧ v.getLsbD 8 = false ∧ v.getLsbD 9 = false) ∧ s.pairState 4 = cCOMPARED ∧ s.isHeadstock = true) ∧
    (∃ (a : Access) (v : Word) (s : State), s.Canonical ∧ s.Sized ∧ s.Accepts a pRST RST_REQ v ∧ rstReqPre a v s = none ∧
      bitsOf v.toNat 16 16 = 0xA55A ∧ (v.getLsbD 0 = false ∧ v.getLsbD 1 = false ∧ v.getLsbD 2 = false ∧
      v.getLsbD 3 = false ∧ v.getLsbD 8 = false ∧ v.getLsbD 9 = true) ∧
      (s.chanIxs 1).any (fun i => s.chanCode 1 i != 0) = false ∧ s.dieOn 1 = true) ∧
    (∃ (a : Access) (v : Word) (s : State), s.Canonical ∧ s.Accepts a pRST RST_REQ v ∧ rstReqPre a v s = none ∧
      bitsOf v.toNat 16 16 = 0xA55A ∧ (v.getLsbD 0 = false ∧ v.getLsbD 1 = false ∧ v.getLsbD 2 = false ∧
      v.getLsbD 3 = false ∧ v.getLsbD 8 = false ∧ v.getLsbD 9 = true) ∧
      (s.chanIxs 1).any (fun i => s.chanCode 1 i != 0) = true) ∧
    (∃ (a : Access) (v : Word) (s : State), s.Canonical ∧ s.Accepts a pRST RST_WDG v ∧ v.getLsbD 16 = true ∧
      s.on pRST RST_WDG_EN = false) ∧
    (∃ (a : Access) (v : Word) (s : State), s.Canonical ∧ s.Accepts a pRST RST_WDG v ∧ s.on pRST RST_WDG_EN = true) ∧
    (∃ (a : Access) (v : Word) (s : State), s.Canonical ∧ s.Accepts a pRST RST_WDG_KICK v ∧ s.on pRST RST_WDG_EN = true ∧
      v = 0x5AA5) ∧
    (∃ (a : Access) (v : Word) (s : State), s.Canonical ∧ s.Accepts a pRST RST_WDG_KICK v ∧ s.on pRST RST_WDG_EN = true ∧
      v ≠ 0x5AA5 ∧ s.cutting = false) ∧
    (∃ (clocks : Nat) (s : State), s.Canonical ∧ (s.advance clocks).wdgPast 1 = true) ∧
    (∃ (clocks : Nat) (s : State), s.Canonical ∧ (s.advance clocks).wdgPast 2 = true ∧ (s.advance clocks).cutting = false) ∧
    (∃ (clocks : Nat) (cause : ResetCause) (s : State), s.Canonical ∧ (s.advance clocks).up.compute = true ∧
      (s.advance clocks).cutting = false) ∧
    (∃ (clocks : Nat) (io : StartTest) (s : State), s.Canonical ∧ (s.advance clocks).up.compute = false ∧
      ((s.advance clocks).slp.starting = true ∨ (s.advance clocks).mode = mSTEADY_REST)) ∧
    (∃ (clocks : Nat) (s : State), s.Canonical ∧ s.Sized) ∧
    (∃ (clocks : Nat) (s : State), s.Canonical ∧ (s.advance clocks).mode = mOFF ∧ (s.advance clocks).slp.starting = false ∧
      (s.advance clocks).up.compute = false) ∧
    (∃ (clocks : Nat) (program : List (List Nat)) (s : State), s.Canonical ∧ (s.advance clocks).scUp = true ∧
      (s.advance clocks).slp.starting = true ∧ (s.advance clocks).upd.run.isSome = true) ∧
    (∃ (clocks : Nat) (k : Nat) (s : State), s.Canonical ∧ (s.advance clocks).upd.run = some k ∧
      (s.advance clocks).scUp = true ∧ (s.advance clocks).up.cluster = false ∧ (s.advance clocks).slp.starting = false ∧
      (s.advance clocks).on pDMC DMC_STAT_TRAINED = true ∧ (s.advance clocks).mode = mPARTIAL ∧
      (s.advance clocks).slp.goRun = true) :=
  ⟨⟨mon, 0xA55A0001, timed, by decide +kernel⟩,
   ⟨mon, 0x1234, timed, by decide +kernel⟩,
   ⟨mon, 0xA55A0002, timed.set (pCORE 3) CORE_STAT_RUNNING 1, by decide +kernel⟩,
   ⟨mon, 0xA55A0004, timed.set (pCORE 8) CORE_STAT_RUNNING 1, by decide +kernel⟩,
   ⟨mon, 0xA55A0004, (roleIn rHEADSTOCK).setPair 4 cCOMPARED, by decide +kernel⟩,
   ⟨mon, 0xA55A0200, timed, by decide +kernel⟩,
   ⟨mon, 0xA55A0200, timed.modChan 1 3 fun z => { z with st := 2 }, by decide +kernel⟩,
   ⟨mon, 0x10010, timed, by decide +kernel⟩,
   ⟨mon, 0x10, timed.set pRST RST_WDG_EN 1, by decide +kernel⟩,
   ⟨mon, 0x5AA5, timed.set pRST RST_WDG_EN 1, by decide +kernel⟩,
   ⟨mon, 1, timed.set pRST RST_WDG_EN 1, by decide +kernel⟩,
   ⟨5000000, (timed.set pRST RST_WDG_EN 1).set pRST RST_WDG_TMO 10, by decide +kernel⟩,
   ⟨5000000, (timed.set pRST RST_WDG_EN 1).set pRST RST_WDG_TMO 10, by decide +kernel⟩,
   ⟨5, .vlogLow, timed, by decide +kernel⟩,
   ⟨5, ⟨[], []⟩, startingUp, by decide +kernel⟩,
   ⟨5, timed, by decide +kernel⟩,
   ⟨5, State.reset, by decide +kernel⟩,
   ⟨5, [[1, 2]], { bootedUp with slp.starting := true }, by decide +kernel⟩,
   ⟨5, 0, { bootedUp.set pSLP BLK_STAT_STATE mPARTIAL with slp.goRun := true, up.cluster := false }, by decide +kernel⟩⟩

theorem test_meets_ModeCommandsComplete :
    (∃ (a : Access) (v : Word) (s : State), s.Canonical ∧ s.Accepts a pSLP SLP_MODE_REQ v ∧ bitsOf v.toNat 0 3 = mRUN ∧
      (s.sleep ≠ zPREP ∧ s.sleep ≠ zQUIESCE) ∧ s.mode = mPARTIAL) ∧
    (∃ (a : Access) (v : Word) (s : State), s.Canonical ∧ s.Accepts a pSLP SLP_MODE_REQ v ∧ bitsOf v.toNat 0 3 = mRUN ∧
      s.sleep = zPREP) ∧
    (∃ (a : Access) (v : Word) (s : State), s.Canonical ∧ s.Accepts a pSLP SLP_MODE_REQ v ∧ bitsOf v.toNat 0 3 = mRUN ∧
      (s.sleep ≠ zPREP ∧ s.sleep ≠ zQUIESCE) ∧ s.mode ≠ mPARTIAL ∧ s.mode ≠ mSERVICE) ∧
    (∃ (a : Access) (v : Word) (s : State), s.Canonical ∧ s.Accepts a pSLP SLP_MODE_REQ v ∧ bitsOf v.toNat 0 3 = mPARTIAL ∧
      (s.mode = mRUN ∨ s.mode = mDEGRADED) ∧ (List.range 8).any (fun c => s.on (pCORE c) CORE_STAT_RUNNING) = false) ∧
    (∃ (s : State), s.Canonical ∧ s.up.compute = true ∧ s.mode = mRUN ∧ s.degNow ≠ 0) ∧
    (∃ (s : State), s.Canonical ∧ s.up.compute = true ∧ s.mode = mDEGRADED ∧ s.degNow = 0) ∧
    (∃ (clocks : Nat) (s : State), s.Canonical ∧ (s.advance clocks).up.compute = true ∧ (s.advance clocks).mode = mSERVICE ∧
      (s.advance clocks).slp.serviceEnd ≤ (s.advance clocks).tb.clocks ∧ (s.advance clocks).testState = 0) ∧
    (∃ (clocks : Nat) (s : State), s.Canonical ∧ (s.advance clocks).up.compute = true ∧ (s.advance clocks).mode = mSERVICE ∧
      (s.advance clocks).slp.serviceEnd ≤ (s.advance clocks).tb.clocks ∧ (s.advance clocks).testState ≠ 0) ∧
    (∃ (a : Access) (v : Word) (s : State), s.Canonical ∧ s.Accepts a pSLP SLP_VOTE_IN v ∧ slpVotePre v s = none) ∧
    (∃ (a : Access) (v : Word) (s : State), s.Canonical ∧ s.Accepts a pSLP SLP_VOTE_IN v ∧ slpVotePre v s = none ∧
      (bitsOf v.toNat 8 4) = 1 ∧ s.sleep = zPREP ∧ s.ownSleep = false) ∧
    (∃ (clocks : Nat) (node : Fin 64) (s : State), s.Canonical ∧ (s.advance clocks).up.compute = true ∧
      (s.advance clocks).nodeIn node.val = true ∧
      nth (s.advance clocks).slp.votes node.val 0 + (s.advance clocks).get pSLP SLP_TIME_VOTE_TMO * tenMs ≤ (s.advance clocks).tb.clocks) ∧
    (∃ (a : Access) (v : Word) (s : State), s.Canonical ∧ s.Accepts a pSLP SLP_CTRL v ∧ v.getLsbD 8 = false ∧
      v.getLsbD 9 = false ∧ v.getLsbD 10 = false ∧ s.sleep = zAWAKE) ∧
    (∃ (clocks : Nat) (s : State), s.Canonical ∧ (s.advance clocks).up.compute = true ∧ (s.advance clocks).sleep = zPREP ∧
      (s.advance clocks).awakeMode = true ∧
      (s.advance clocks).slp.phaseAt + (s.advance clocks).get pSLP SLP_TIME_PREP_T * tenMs ≤ (s.advance clocks).tb.clocks) ∧
    (∃ (a : Access) (v : Word) (s : State), s.Canonical ∧ s.Accepts a pSLP SLP_CTRL v ∧ v.getLsbD 9 = true ∧
      s.awakeMode = true) ∧
    (∃ (a : Access) (v : Word) (s : State), s.Canonical ∧ s.Accepts a pSLP SLP_CTRL v ∧ v.getLsbD 9 = true ∧
      s.awakeMode = false) ∧
    (∃ (a : Access) (v : Word) (s : State), s.Canonical ∧ s.Accepts a pSLP SLP_CTRL v ∧ v.getLsbD 9 = false ∧
      v.getLsbD 10 = true ∧ s.mode = mSHUTDOWN ∧ s.sleep = zQUIESCE ∧ s.slp.scDone = true ∧ s.dieOn 0 = true ∧
      s.on (pDBR 0) BR_STAT_PEER_DOWN = false) ∧
    (∃ (a : Access) (v : Word) (s : State), s.Canonical ∧ s.Accepts a pSLP SLP_CTRL v ∧ v.getLsbD 9 = false ∧
      v.getLsbD 10 = true ∧ s.mode = mSHUTDOWN ∧ s.sleep = zQUIESCE ∧ s.slp.scDone = true ∧ s.dieOn 0 = false) ∧
    (∃ (a : Access) (v : Word) (s : State), s.Canonical ∧ s.Accepts a pSLP SLP_CTRL v ∧ v.getLsbD 9 = false ∧
      v.getLsbD 10 = true ∧ s.mode = mSHUTDOWN ∧ s.sleep = zQUIESCE ∧ s.slp.scDone = false) ∧
    (∃ (clocks : Nat) (s : State), s.Canonical ∧ (s.advance clocks).up.compute = true ∧
      (s.advance clocks).sleep = zQUIESCE ∧
      (s.advance clocks).slp.phaseAt + (s.advance clocks).get pSLP SLP_TIME_SHDN_TMO * tenMs ≤ (s.advance clocks).tb.clocks ∧
      (s.advance clocks).dieOn 0 = true ∧ (s.advance clocks).on (pDBR 0) BR_STAT_PEER_DOWN = false) ∧
    (∃ (clocks : Nat) (tj : Int) (s : State), s.Canonical ∧ (s.advance clocks).cutting = true ∧
      (s.advance clocks).slp.test = 0 ∧ (s.advance clocks).skipReason tj = none) ∧
    (∃ (clocks : Nat) (tj : Int) (r : Nat) (s : State), s.Canonical ∧ (s.advance clocks).cutting = true ∧
      (s.advance clocks).slp.test = 0 ∧ (s.advance clocks).skipReason tj = some r) ∧
    (∃ (clocks : Nat) (io : SelfTest) (s : State), s.Canonical ∧ (s.advance clocks).cutting = true ∧
      (s.advance clocks).slp.test = 1 ∧ (s.advance clocks).slp.latch = none ∧ io.vbatLeft = false ∧ io.failed.val = 0 ∧
      io.failures = []) ∧
    (∃ (clocks : Nat) (s : State), s.Canonical ∧ s.Sized ∧ (s.advance clocks).cutting = true ∧
      (s.advance clocks).slp.test = 2 ∧ (s.advance clocks).slp.latch = none) :=
  ⟨⟨mon, 3, sleepy zAWAKE mPARTIAL, by decide +kernel⟩,
   ⟨mon, 3, sleepy zPREP mRUN, by decide +kernel⟩,
   ⟨mon, 3, timed, by decide +kernel⟩,
   ⟨mon, 2, timed, by decide +kernel⟩,
   ⟨timed.setPair 1 cUNCOMPARED, by decide +kernel⟩,
   ⟨sleepy zAWAKE mDEGRADED, by decide +kernel⟩,
   ⟨5, { sleepy zAWAKE mSERVICE with fuses := [(13, 3)] }, by decide +kernel⟩,
   ⟨5, sleepy zAWAKE mSERVICE, by decide +kernel⟩,
   ⟨mon, 0x203, voting, by decide +kernel⟩,
   ⟨mon, 0x103, (voting.set pSLP SLP_CTRL_OWN_SLEEP 0).set pSLP SLP_STAT_SLEEP zPREP, by decide +kernel⟩,
   ⟨5000000000, 3, voting, by decide +kernel⟩,
   ⟨mon, 3, timed, by decide +kernel⟩,
   ⟨5000000000, sleepy zPREP mRUN, by decide +kernel⟩,
   ⟨mon, 0x200, timed, by decide +kernel⟩,
   ⟨mon, 0x200, sleepy zAWAKE mSERVICE, by decide +kernel⟩,
   ⟨mon, 0x400, { sleepy zQUIESCE mSHUTDOWN with slp.scDone := true }, by decide +kernel⟩,
   ⟨mon, 0x400, { sleepy zQUIESCE mSHUTDOWN with slp.scDone := true, up.die := [false, true] }, by decide +kernel⟩,
   ⟨mon, 0x400, sleepy zQUIESCE mSHUTDOWN, by decide +kernel⟩,
   ⟨5000000000, sleepy zQUIESCE mSHUTDOWN, by decide +kernel⟩,
   ⟨5, 20, ((sleepy zCUTTING mSHUTDOWN).set pSTS STS_CTRL_EN 1).set pCLK CLK_STAT_XO_STABLE 1 |>.set (pPDC 0) PDC_VBAT_V 4800, by decide +kernel⟩,
   ⟨5, 20, 0, (sleepy zCUTTING mSHUTDOWN).set pSTS STS_CTRL_EN 0, by decide +kernel⟩,
   ⟨5, ⟨false, 0, [], false, 0, 0, 0, 60, 10⟩, { sleepy zCUTTING mSHUTDOWN with slp.test := 1 }, by decide +kernel⟩,
   ⟨5, { sleepy zCUTTING mSHUTDOWN with slp.test := 2 }, by decide +kernel⟩⟩

theorem test_meets_WakeCommandsComplete :
    (∃ (clocks : Nat) (s : State), s.Canonical ∧ (s.advance clocks).mode = mSTANDBY ∧
      (s.advance clocks).slp.starting = false ∧ (s.advance clocks).up.alwaysOn = true ∧
      (s.advance clocks).slp.driving = false ∧ (s.advance clocks).slp.low = false ∧ (s.advance clocks).dieOn 0 = true ∧
      (s.advance clocks).on pSLP SLP_WAKE_WAKEL_ARM = true ∧ (s.advance clocks).fwkDisarmed 0 = false) ∧
    (∃ (clocks : Nat) (c : Fin 2) (w : CanWake) (s : State), s.Canonical ∧ (s.advance clocks).mode = mSTANDBY ∧
      (s.advance clocks).slp.starting = false ∧ (s.advance clocks).up.alwaysOn = true ∧ (s.advance clocks).dieOn 0 = true ∧
      (s.advance clocks).wakeArmed c.val = true ∧ (s.advance clocks).wakeDetected c.val w = true) ∧
    (∃ (a : Access) (v : Word) (s : State), s.Canonical ∧ s.Accepts a pSLP SLP_WAKE v ∧ v.getLsbD 17 = true ∧
      s.dieOn 0 = true ∧ s.slp.driving = false) ∧
    (∃ (clocks : Nat) (s : State), s.Canonical ∧ (s.advance clocks).slp.driving = true) ∧
    (∃ (clocks : Nat) (s : State), s.Canonical ∧ (s.advance clocks).slp.driving = false ∧
      (s.advance clocks).dieOn 0 = true ∧ (s.advance clocks).up.compute = true ∧
      (s.advance clocks).on pSLP SLP_STAT_WAKEL_STUCK = false) ∧
    (∃ (clocks : Nat) (s : State), s.Canonical ∧
      ({ s.advance clocks with slp.low := false }.set pSLP SLP_STAT_WAKEL_STUCK 0).agreed = true) ∧
    (∃ (clocks : Nat) (n : Fin 64) (s : State), s.Canonical ∧ (s.advance clocks).up.compute = true ∧
      (s.advance clocks).on pSLP SLP_CTRL_PARKED = true ∧ (s.advance clocks).get pSLP SLP_TIME_MAX_AWAKE ≠ 0 ∧
      (s.advance clocks).get pSLP SLP_TIME_MAX_AWAKE * 30000000000 ≤ (s.advance clocks).awakeFor n.val ∧
      (s.advance clocks).on pSLP (SLP_NODE_STAT_OVERDUE n.val) = false) ∧
    (∃ (clocks : Nat) (s : State), s.Canonical ∧ (s.advance clocks).up.compute = true ∧
      (s.advance clocks).on pSLP SLP_CTRL_PARKED = true ∧ (s.advance clocks).get pSLP SLP_TIME_MAX_AWAKE ≠ 0 ∧
      (s.advance clocks).get pSLP SLP_TIME_MAX_AWAKE * 30000000000 ≤ (s.advance clocks).awakeFor 64) ∧
    (∃ (a : Access) (v : Word) (src : Nat) (s : State), s.Canonical ∧ s.Accepts a pSLP SLP_CTRL v ∧ v.getLsbD 8 = true ∧
      v.getLsbD 9 = false ∧ v.getLsbD 10 = false ∧ s.slp.window = some src ∧ src < 51) ∧
    (∃ (clocks : Nat) (src : Nat) (s : State), s.Canonical ∧ (s.advance clocks).up.compute = true ∧
      (s.advance clocks).slp.window = some src ∧ src < 3 ∧
      (s.advance clocks).slp.relAt + (s.advance clocks).get pSLP SLP_FWK_CFG_FW_WIN * tenMs ≤ (s.advance clocks).tb.clocks ∧
      min ((s.advance clocks).get pSLP (fwkField src) + 1) 15 < (s.advance clocks).get pSLP SLP_FWK_CFG_FWK_MAX) ∧
    (∃ (clocks : Nat) (src : Nat) (s : State), s.Canonical ∧ (s.advance clocks).up.compute = true ∧
      (s.advance clocks).slp.window = some src ∧ src < 3 ∧
      (s.advance clocks).slp.relAt + (s.advance clocks).get pSLP SLP_FWK_CFG_FW_WIN * tenMs ≤ (s.advance clocks).tb.clocks ∧
      (s.advance clocks).get pSLP SLP_FWK_CFG_FWK_MAX ≤ min ((s.advance clocks).get pSLP (fwkField src) + 1) 15) ∧
    (∃ (clocks : Nat) (source : Fin 51) (s : State), s.Canonical ∧ (s.advance clocks).fwkDisarmed source.val = true ∧
      source.val < 3) ∧
    (∃ (a : Access) (v : Word) (s : State), s.Canonical ∧ s.Accepts a pSLP SLP_CNT_CLR v ∧ v.getLsbD 0 = true) :=
  ⟨⟨5, standby.set pSLP SLP_WAKE_WAKEL_ARM 1, by decide +kernel⟩,
   ⟨5, 1, .pattern, { standby.set pSLP (SLP_CWK_CFG_WUP_EN 1) 1 with slp.cxArmed := [false, true] }, by decide +kernel⟩,
   ⟨mon, 0x20A05, timed, by decide +kernel⟩,
   ⟨5, { timed with slp.driving := true }, by decide +kernel⟩,
   ⟨5, timed, by decide +kernel⟩,
   ⟨5, { voting with slp.low := true }, by decide +kernel⟩,
   ⟨30000000000, 3, { ((voting.set pSLP SLP_CTRL_PARKED 1).set pSLP SLP_TIME_MAX_AWAKE 1) with slp.awake := [⟨3, 0, some 0⟩] }, by decide +kernel⟩,
   ⟨30000000000, { ((voting.set pSLP SLP_CTRL_PARKED 1).set pSLP SLP_TIME_MAX_AWAKE 1) with slp.awake := [⟨64, 0, some 0⟩] }, by decide +kernel⟩,
   ⟨mon, 0x100, 1, { timed.set pSLP (fwkField 1) 3 with slp.window := some 1 }, by decide +kernel⟩,
   ⟨5000000000, 1, { timed.set pSLP SLP_FWK_CFG_FWK_MAX 4 with slp.window := some 1 }, by decide +kernel⟩,
   ⟨5000000000, 1, { (timed.set pSLP SLP_FWK_CFG_FWK_MAX 4).set pSLP (fwkField 1) 3 with slp.window := some 1 }, by decide +kernel⟩,
   ⟨5, 2, timed.set pSLP SLP_FWK_CNT_DIS_CX1 1, by decide +kernel⟩,
   ⟨mon, 1, timed.wrn pSLP SLP_CNT 5, by decide +kernel⟩⟩

theorem test_meets_HealthCommandsComplete :
    (∃ (clocks : Nat) (i : Nat) (x : Post) (s : State), s.Canonical ∧ (s.advance clocks).up.compute = true ∧
      (s.advance clocks).on pFAG BLK_CTRL_SOFT_RST = false ∧ (s.advance clocks).on pLOG BLK_CTRL_SOFT_RST = false ∧
      firstPost (s.advance clocks).posts 0 = some (i, x) ∧ (s.advance clocks).health.log.length < 64 ∧
      ((s.advance clocks).health.log.getLast?.map fun e => e.takes x (s.advance clocks).tb.clocks) ≠ some true ∧
      (s.advance clocks).get pLOG LOG_CTRL_LOG_MIN ≤ codeSev x.code ∧
      (s.advance clocks).get pFAG FAG_CTRL_NOTIFY_MIN ≤ codeSev x.code ∧
      (s.advance clocks).on pFAG FAG_ACT_ACTIVE = false) ∧
    (∃ (clocks : Nat) (i : Nat) (x : Post) (s : State), s.Canonical ∧ (s.advance clocks).up.compute = true ∧
      (s.advance clocks).on pFAG BLK_CTRL_SOFT_RST = false ∧ (s.advance clocks).on pLOG BLK_CTRL_SOFT_RST = false ∧
      firstPost (s.advance clocks).posts 0 = some (i, x) ∧ (s.advance clocks).health.log.length < 64 ∧
      ((s.advance clocks).health.log.getLast?.map fun e => e.takes x (s.advance clocks).tb.clocks) ≠ some true ∧
      (s.advance clocks).get pLOG LOG_CTRL_LOG_MIN ≤ codeSev x.code ∧
      (s.advance clocks).get pFAG FAG_CTRL_NOTIFY_MIN ≤ codeSev x.code ∧ (s.advance clocks).on pFAG FAG_ACT_ACTIVE = true ∧
      (s.advance clocks).get pFAG FAG_ACT_SEV < codeSev x.code ∧ (s.advance clocks).get pFAG FAG_ACT_DEPTH < 3) ∧
    (∃ (clocks : Nat) (i : Nat) (x : Post) (s : State), s.Canonical ∧ (s.advance clocks).up.compute = true ∧
      (s.advance clocks).on pFAG BLK_CTRL_SOFT_RST = false ∧ (s.advance clocks).on pLOG BLK_CTRL_SOFT_RST = false ∧
      firstPost (s.advance clocks).posts 0 = some (i, x) ∧ (s.advance clocks).health.log.length < 64 ∧
      ((s.advance clocks).health.log.getLast?.map fun e => e.takes x (s.advance clocks).tb.clocks) ≠ some true ∧
      (s.advance clocks).get pLOG LOG_CTRL_LOG_MIN ≤ codeSev x.code ∧
      (s.advance clocks).get pFAG FAG_CTRL_NOTIFY_MIN ≤ codeSev x.code ∧ (s.advance clocks).on pFAG FAG_ACT_ACTIVE = true ∧
      codeSev x.code ≤ (s.advance clocks).get pFAG FAG_ACT_SEV) ∧
    (∃ (clocks : Nat) (i : Nat) (x : Post) (s : State), s.Canonical ∧ (s.advance clocks).up.compute = true ∧
      (s.advance clocks).on pFAG BLK_CTRL_SOFT_RST = false ∧ (s.advance clocks).on pLOG BLK_CTRL_SOFT_RST = false ∧
      firstPost (s.advance clocks).posts 0 = some (i, x) ∧ codeSev x.code < (s.advance clocks).get pLOG LOG_CTRL_LOG_MIN ∧
      codeSev x.code ≤ 2) ∧
    (∃ (a : Access) (s : State), s.Canonical ∧ s.Shows a pLOG LOG_TAKE) ∧
    (∃ (a : Access) (v : Word) (s : State), s.Canonical ∧ s.Accepts a pLOG LOG_CTRL v ∧ v.getLsbD 8 = true) ∧
    (∃ (a : Access) (v : Word) (s : State), s.Canonical ∧ s.Accepts a pFAG FAG_DONE v ∧ v.getLsbD 0 = true ∧
      s.on pFAG FAG_ACT_ACTIVE = true ∧ s.on pFAG (FAG_STACK_VALID 0) = false) ∧
    (∃ (a : Access) (v : Word) (s : State), s.Canonical ∧ s.Accepts a pFAG FAG_DONE v ∧ v.getLsbD 0 = true ∧
      s.on pFAG FAG_ACT_ACTIVE = true ∧ s.on pFAG (FAG_STACK_VALID 0) = true) ∧
    (∃ (a : Access) (v : Word) (s : State), s.Canonical ∧ s.Accepts a pFAG FAG_DONE v ∧ s.on pFAG FAG_ACT_ACTIVE = false) ∧
    (∃ (a : Access) (v : Word) (s : State), s.Canonical ∧ s.Accepts a pFAG FAG_CNT_CLR v ∧ v.getLsbD 0 = true) ∧
    (∃ (clocks : Nat) (s : State), s.Canonical ∧ (s.advance clocks).escPast 1 = true) ∧
    (∃ (clocks : Nat) (s : State), s.Canonical ∧ (s.advance clocks).escPast 2 = true ∧ (s.advance clocks).cutting = false) ∧
    (∃ (clocks : Nat) (k : Fin 16) (s : State), s.Canonical ∧ (s.advance clocks).up.compute = true ∧ (k.val ≠ 4 ∧
      k.val ≠ 5)) ∧
    (∃ (clocks : Nat) (die : Fin 2) (s : State), s.Canonical ∧ s.Sized ∧ (s.advance clocks).dieUp die.val = true ∧
      ((s.advance clocks).die die.val).differ = false) ∧
    (∃ (clocks : Nat) (die : Fin 2) (ch : Fin 16) (kind : Implausible) (s : State), s.Canonical ∧
      (s.advance clocks).dieUp die.val = true ∧ (s.advance clocks).hasChan die.val = true ∧
      (s.advance clocks).implausible die.val ch.val kind = true) ∧
    (∃ (s : State), s.Canonical ∧ s.scUp = true ∧ s.on pSTS ⟨INT_RAW, INT_STS_LOADED, 1⟩ = false ∧ s.repNewest < 4096) :=
  ⟨⟨5, 1, ⟨0xC41A, 7, 3, 0, false⟩, { linked with posts := [⟨0x0212, 7, 2, 0, false⟩, ⟨0xC41A, 7, 3, 0, false⟩] }, by decide +kernel⟩,
   ⟨5, 1, ⟨0xC41A, 7, 3, 0, false⟩, ((({ linked with posts := [⟨0x0212, 7, 2, 0, false⟩, ⟨0xC41A, 7, 3, 0, false⟩] }).set pFAG FAG_ACT_ACTIVE 1).set pFAG FAG_ACT_SEV 2).set pFAG FAG_ACT_CODE 0x0212, by decide +kernel⟩,
   ⟨5, 1, ⟨0xC41A, 7, 3, 0, false⟩, (({ linked with posts := [⟨0x0212, 7, 2, 0, false⟩, ⟨0xC41A, 7, 3, 0, false⟩] }).set pFAG FAG_ACT_ACTIVE 1).set pFAG FAG_ACT_SEV 4, by decide +kernel⟩,
   ⟨5, 0, ⟨0x0212, 7, 2, 0, false⟩, { linked.set pLOG LOG_CTRL_LOG_MIN 3 with posts := [⟨0x0212, 7, 2, 0, false⟩] }, by decide +kernel⟩,
   ⟨mon, { base with health.log := [⟨1, 1, false, false, 0, 0, 0, 0, 0, 0, 0⟩] }, by decide +kernel⟩,
   ⟨mon, 0x101, { base with health.log := [⟨1, 1, false, false, 0, 0, 0, 0, 0, 0, 0⟩] }, by decide +kernel⟩,
   ⟨mon, 1, base.set pFAG FAG_ACT_ACTIVE 1, by decide +kernel⟩,
   ⟨mon, 1, ((base.set pFAG FAG_ACT_ACTIVE 1).set pFAG FAG_ACT_DEPTH 1).wrn pFAG (FAG_STACK 0) 0x80020212, by decide +kernel⟩,
   ⟨mon, 1, base, by decide +kernel⟩,
   ⟨mon, 1, base.wrn pFAG FAG_CNT 5, by decide +kernel⟩,
   ⟨100000000, (((timed.set pFAG FAG_CTRL_ESC_EN 1).set pFAG FAG_CTRL_ESC_TMO 10).set pFAG FAG_ACT_ACTIVE 1).set pFAG FAG_ACT_SEV 4, by decide +kernel⟩,
   ⟨100000000, (((timed.set pFAG FAG_CTRL_ESC_EN 1).set pFAG FAG_CTRL_ESC_TMO 10).set pFAG FAG_ACT_ACTIVE 1).set pFAG FAG_ACT_SEV 4, by decide +kernel⟩,
   ⟨5, 3, base, by decide +kernel⟩,
   ⟨5, 1, linked, by decide +kernel⟩,
   ⟨5, 1, 3, .stuckOn, linked, by decide +kernel⟩,
   ⟨base, by decide +kernel⟩⟩

theorem test_meets_HoningCommandsComplete :
    (∃ (io : PlanIn) (kind : Nat) (q : List Nat) (s : State), s.Canonical ∧ s.scUp = true ∧ s.hon.due = kind :: q) ∧
    (∃ (a : Access) (v : Word) (s : State), s.Canonical ∧ s.Accepts a pHON HON_CTRL v ∧ honCtrlPre v s = none ∧
      v.getLsbD 16 = true ∧ s.hon.due = []) ∧
    (∃ (clocks : Nat) (s : State), s.Canonical ∧ (s.advance clocks).operating = true ∧
      (s.advance clocks).on pHON HON_STAT_IN_FORCE = true ∧ (s.advance clocks).get pHON HON_STAT_NEXT = 0 ∧
      (s.advance clocks).hon.due = []) ∧
    (∃ (clocks : Nat) (m : Monitors) (s : State), s.Canonical ∧ (s.advance clocks).operating = true ∧
      (s.advance clocks).hon.base = none) ∧
    (∃ (clocks : Nat) (m : Monitors) (b : Monitors) (s : State), s.Canonical ∧ (s.advance clocks).operating = true ∧
      (s.advance clocks).hon.base = some b ∧ 100 ≤ (allowUsed 4 b m).1 ∧
      (s.advance clocks).on pHON (HON_MON_OVERRUN 4) = false) ∧
    (∃ (clocks : Nat) (tj : Int) (s : State), s.Canonical ∧ (s.advance clocks).up.compute = true ∧
      (s.advance clocks).hon.hot.length = 3 ∧ 125 < tj) ∧
    (∃ (clocks : Nat) (tj : Int) (s : State), s.Canonical ∧ (s.advance clocks).up.compute = true ∧
      (s.advance clocks).hon.hot = [(false, 0), (false, 0), (false, 0)] ∧ tj ≤ 105) :=
  ⟨⟨⟨newChip, List.replicate 6 10, 0⟩, 0, [], { linked with hon.due := [0] }, by decide +kernel⟩,
   ⟨mon, 0x15A18, sleepy zAWAKE mSERVICE, by decide +kernel⟩,
   ⟨5, timed.set pHON HON_STAT_IN_FORCE 1, by decide +kernel⟩,
   ⟨5, newChip, timed.set pHON HON_STAT_NEXT 7, by decide +kernel⟩,
   ⟨5, { newChip with phase := 200 }, newChip, { timed with hon.base := some newChip }, by decide +kernel⟩,
   ⟨5, 126, timed, by decide +kernel⟩,
   ⟨5, 105, timed, by decide +kernel⟩⟩

theorem test_meets_EmptyQueueLetsOneClockPass : ∃ s : State, s.pending = [] := ⟨State.reset, rfl⟩

theorem test_meets_CommandsLeaveTheQueue : ∃ (i : Instr) (s t : State), exec i s = .next t := ⟨.stepDone, base, _, rfl⟩

theorem test_meets_CanonicalFormIsKept : ∃ s t : State, s.Canonical ∧ step s = .next t := ⟨base, base.advance 1, by decide +kernel, rfl⟩

theorem test_meets_UnitListsKeepTheirSizes : ∃ s t : State, s.Sized ∧ step s = .next t := ⟨base, base.advance 1, by decide +kernel, rfl⟩

theorem test_meets_ProgrammedFusesStay : ∃ (s t : State) (w bit : Nat), s.Canonical ∧ s.FuseSet w bit ∧ step s = .next t :=
  ⟨{ base with fuses := [(13, 3)] }, _, 13, 1, by decide +kernel, by decide +kernel, rfl⟩

theorem test_meets_LifecycleNeverGoesBack : ∃ s t : State, s.Canonical ∧ step s = .next t ∧ s.lifecycle = 7 :=
  ⟨{ base with fuses := [(13, 4)] }, _, by decide +kernel, rfl, by decide +kernel⟩

theorem test_meets_ClocksNeverRunBack : ∃ s t : State, step s = .next t := ⟨base, base.advance 1, rfl⟩

theorem test_meets_DramCodeCorrectsTwoAndDetectsThree : (∃ d : Nat, d < 2 ^ 64) ∧ (∃ p q r : Fin 80, p < q ∧ q < r) ∧ ∃ f : Nat, f < 2 :=
  ⟨⟨0, by decide⟩, ⟨0, 1, 79, by decide, by decide⟩, 0, by decide⟩

theorem test_meets_OwnershipDecidesAccess :
    (∃ (s : State) (a : Access) (p off : Nat), s.owns (s.levelOf a) p = true ∧ a.size = 4 ∧ off % 4 = 0 ∧ 8 ≤ off ∧ off < 0xF00 ∧
      s.absent p = false ∧ s.pageUp p = true ∧ s.ready p = true ∧ s.on p PART_BUSY = false ∧ (fieldsOf (tyOf p) off).isSome = true ∧ hasReg p off = true ∧
      off ∉ [OWNER, PART_REQ, ERR_INJ] ∧ s.secureEntry p off = false) ∧
    (∃ (s : State) (a : Access) (addr : Nat) (data : List Nat), s.Canonical ∧ s.up.compute = true ∧ (pageOf addr).isSome = true ∧ 8 ≤ pageOff addr ∧
      s.owns (s.levelOf a) (pageBase addr) = false ∧ s.postedTo (pageBase addr) addr = none ∧ data ≠ [] ∧ s.reach a .read addr = (s, some addr)) ∧
    (∃ (s : State) (a : Access) (addr : Nat), s.Canonical ∧ s.up.compute = true ∧ (pageOf addr).isSome = true ∧ 8 ≤ pageOff addr ∧
      s.owns (s.levelOf a) (pageBase addr) = false ∧ s.postedTo (pageBase addr) addr = some 0) :=
  ⟨⟨base, mon, pFAG, INT_EN, by decide +kernel⟩, ⟨base, ⟨0x10, .hypervisor, 4⟩, pFAG + INT_EN, [0, 0, 0, 0], by decide +kernel⟩,
    ((linked.set (pDBR 0) (BULK_BASE_LO_ADDR 0) 0x20300).set (pDBR 0) (BULK_BASE_HI_ADDR 0) 0).set (pDBR 0) (BULK_SIZE_PAGES 0) 16, ⟨0x10, .hypervisor, 4⟩, pLSW 0 0 + LSW_CTRL, by decide +kernel⟩

theorem test_meets_UnmappedAccessIsRecorded :
    ∃ (s u : State) (addr : Nat), (s.Canonical ∧ s.up.compute = true ∧ pageOf addr = none ∧ regionOf addr = .none ∧ s.on pSYS PART_BUSY = false ∧
      s.get pSYS ERR_CAP_COUNT = 0) ∧ (u.Canonical ∧ u.up.compute = true ∧ u.on pSYS PART_BUSY = false ∧ u.get pSYS ERR_CAP_COUNT ≠ 0) :=
  ⟨base, base.wrn pSYS ERR_CAP 0x10004, 0x90000000, by decide +kernel, by decide +kernel⟩

theorem test_meets_KeyFuseWordsReadZero : ∃ (s : State) (a : Access) (w x : Fin 512), s.Canonical ∧ s.levelOf a = .monitor ∧
    s.Shows { a with size := 4 } pFUS (FUSE w.val) ∧ s.Shows { a with size := 4 } pFUS (FUSE x.val) ∧ w.val < 8 ∧ 8 ≤ x.val :=
  ⟨{ base with fuses := [(3, 5), (13, 3)] }, mon, 3, 13, by decide +kernel⟩

end Sys2Proof.Tests
end

/-!
## Every command answers a next state, and keeps what every step keeps

`Keeps s t` says what no command may touch: the queue, the variant of the chip, canonical form, programmed fuses, unit
counts and the direction of time. The model has one `_keeps` lemma per operation; here they are composed once per
command (`execX_nextKeeps`), and `exec_keeps` gathers the commands, so that statements about all commands follow from
it without looking at any one of them.
-/

namespace Sys2Proof.Machine

section

open State

/-- The outcome is a next state that keeps what every step keeps of `s`. -/
def NextKeeps (s : State) (o : Host.Outcome State Fault Refusal) : Prop := ∃ t, o = .next t ∧ Keeps s t

theorem NextKeeps.intro {s t : State} (h : Keeps s t) : NextKeeps s (.next t) := ⟨t, rfl, h⟩

/-! ### Pages and accesses (spec/02) -/

theorem execRegisterWrite_nextKeeps {s t a target} (h : Keeps s t) : NextKeeps s (execRegisterWrite a target t) := by
  refine .intro ?_
  split
  · exact .ite (refused_keeps h) (.ite (writeReg_keeps h) (unmapped_keeps h))
  · exact writeOwn_keeps h

theorem execAccessUnmapped_nextKeeps {s t a addr} (h : Keeps s t) : NextKeeps s (execAccessUnmapped a addr t) := by
  refine .intro (.ite (refused_keeps h) (.ite h ?_))
  split
  · exact unmapped_keeps h
  · exact unmapped_keeps h
  · exact h

theorem execErrCapClr_nextKeeps {s t a page v same} (h : Keeps s t) :
    NextKeeps s (execErrCapClr a page v same t) := by
  refine .intro ?_
  dsimp only
  split
  · exact .ite (err_keeps (writeReg_keeps h)) (writeReg_keeps h)
  · exact writeReg_keeps h

theorem execClkReqForceOff_nextKeeps {s t a page v waiting} (h : Keeps s t) :
    NextKeeps s (execClkReqForceOff a page v waiting t) := by
  refine .intro ?_
  dsimp only
  split
  · exact .ite (.fields.2 (writeReg_keeps h)) (writeReg_keeps h)
  · exact writeReg_keeps h

theorem execForceOffDrainTimeout_nextKeeps {s t page} (h : Keeps s t) :
    NextKeeps s (execForceOffDrainTimeout page t) := by
  refine .intro ?_
  dsimp only
  split
  · exact refused_keeps (set_keeps (errCause_keeps (.fields.2 h)))
  · exact h

theorem execSpeculativeReadRefused_nextKeeps {s t a addr} (h : Keeps s t) :
    NextKeeps s (execSpeculativeReadRefused a addr t) := by
  refine .intro (.ite h (answer_keeps ?_))
  split
  · exact countEvent_keeps (cnt_keeps h)
  · exact h

/-! ### Time base, PTP and plate -/

theorem execSyncReceive_nextKeeps {s t pp offset} (h : Keeps s t) : NextKeeps s (execSyncReceive pp offset t) :=
  .intro (.ite (.ite (servoLock_keeps (servoSteer_keeps (.ite (irq_keeps (set_keeps (took_keeps (wrn_keeps
      (seti_keeps h))))) (took_keeps (wrn_keeps (seti_keeps h)))))) (took_keeps (wrn_keeps (seti_keeps h)))) h)

theorem execPtpMessageTransmit_nextKeeps {s t pp kind seq phase} (h : Keeps s t) :
    NextKeeps s (execPtpMessageTransmit pp kind seq phase t) := by
  refine .intro (.ite ?_ h)
  dsimp only
  split
  · exact pushStamp_keeps (emit_keeps h)
  · exact pushStamp_keeps (emit_keeps h)
  · exact emit_keeps h

theorem execPlateStart_nextKeeps {s t io} (h : Keeps s t) : NextKeeps s (execPlateStart io t) := by
  refine .intro ?_
  split
  · next e1 => exact edgesAct_keeps (plateStarting_keeps h _ _ e1)
  · exact h

/-! ### Ethernet switch -/

theorem execPushOutRetry_nextKeeps {s t starting} (h : Keeps s t) : NextKeeps s (execPushOutRetry starting t) := by
  refine .intro ?_
  dsimp only
  split
  · exact h
  · split
    · next e2 => exact settle_keeps (mirrorEgress_keeps (drawTokens_keeps (.fst e2 (pushOut_keeps (.fields.2 h)))))
    · next e2 => exact settle_keeps (.fst e2 (pushOut_keeps (.fields.2 h)))
    · next e2 => exact settle_keeps (tailDrop_keeps (.fst e2 (pushOut_keeps (.fields.2 h))))

theorem execPauseFrameSend_nextKeeps {s t port} (h : Keeps s t) : NextKeeps s (execPauseFrameSend port t) := by
  refine .intro ?_
  dsimp only
  split
  · exact h
  · exact .ite (sendPause_keeps (.fields.2 h)) h

theorem execFrameTransmitEnd_nextKeeps {s t tm port fragment} (h : Keeps s t) :
    NextKeeps s (execFrameTransmitEnd tm port fragment t) := by
  replace h := advance_keeps (n := tm.clocks) h
  refine .intro (.ite (creditRun_keeps h) ?_)
  split
  · exact frameEnd_keeps (creditRun_keeps h)
  · exact creditRun_keeps h
  · exact settle_keeps (preemptAt_keeps (creditRun_keeps h))

theorem execHoldRequest_nextKeeps {s t port} (h : Keeps s t) : NextKeeps s (execHoldRequest port t) := by
  refine .intro (.ite ?_ h)
  dsimp only
  split
  · exact .fields.2 h
  · exact h

theorem execSpillReadback_nextKeeps {s t clocks q ecc} (h : Keeps s t) :
    NextKeeps s (execSpillReadback clocks q ecc t) := by
  replace h := advance_keeps (n := clocks) h
  refine .intro ?_
  dsimp only
  split
  · exact h
  · split
    · exact splFill_keeps h
    · exact .ite (.ite (settle_keeps (err_keeps (irq_keeps (cnt32_keeps (.fields.2 (freeDram_keeps (splFill_keeps
          h))))))) (settle_keeps (cnt32_keeps (.fields.2 (.fields.2 (freeDram_keeps (splFill_keeps h)))))))
          (splFill_keeps h)

theorem execPortLinkUp_nextKeeps {s t port speed} (h : Keeps s t) : NextKeeps s (execPortLinkUp port speed t) :=
  .intro (.ite (restLink_keeps h) (.ite (.ite (irq_keeps (phyUp_keeps (set_keeps (set_keeps h))))
      (lagStat_keeps (each_keeps (irq_keeps (phyUp_keeps (set_keeps (set_keeps h)))) (fun _ _ k => requestMove_keeps
      k)))) h))

theorem execTxDescriptorFetch_nextKeeps {s t clocks starting} (h : Keeps s t) :
    NextKeeps s (execTxDescriptorFetch clocks starting t) := by
  replace h := advance_keeps (n := clocks) h
  refine .intro (.ite (ingressTurn_keeps h) ?_)
  dsimp only
  split
  · exact ingressTurn_keeps h
  · split
    · exact .fields.2 (ingressTurn_keeps h)
    · exact ringHalt_keeps (dmaRead_keeps (.fields.2 (ingressTurn_keeps h)))
    · exact .ite (txDone_keeps (cnt32_keeps (.fields.2 (ingressTurn_keeps h)))) (.ite (.ite (txDone_keeps
          (cnt64_keeps (cnt32_keeps (.fields.2 (ingressTurn_keeps h))))) (.ite (txDone_keeps (cnt32_keeps
          (cnt64_keeps (cnt32_keeps (.fields.2 (ingressTurn_keeps h)))))) (txDone_keeps (copies_keeps (cnt64_keeps
          (cnt32_keeps (.fields.2 (ingressTurn_keeps h)))))))) (txDone_keeps (pipeFrom3_keeps (cnt64_keeps
          (cnt32_keeps (.fields.2 (ingressTurn_keeps h)))))))

/-! ### CAN, LIN and the gateway -/

theorem execCanTxChoice_nextKeeps {s t clocks ctl} (h : Keeps s t) : NextKeeps s (execCanTxChoice clocks ctl t) := by
  replace h := advance_keeps (n := clocks) h
  refine .intro (.ite h ?_)
  split
  · exact refLateStart_keeps h
  · refine .ite h ?_
    split
    · exact h
    · exact set_keeps (canMod_keeps (objStatus_keeps h))

theorem execCanFrameTransmitted_nextKeeps {s t clocks ctl age tdc} (h : Keeps s t) :
    NextKeeps s (execCanFrameTransmitted clocks ctl age tdc t) := by
  replace h := advance_keeps (n := clocks) h
  refine .intro ?_
  dsimp only
  split
  · exact h
  · refine .ite ?_ (irq_keeps (canMod_keeps (objStatus_keeps (canSent_keeps (tdcMeasure_keeps (canMod_keeps h))))))
    split
    · exact canMod_keeps h
    · exact .ite (canSent_keeps (canMod_keeps (canMod_keeps h))) (cnt_keeps (canSent_keeps (canMod_keeps
          (canMod_keeps h))))

theorem execCanBusError_nextKeeps {s t ctl e} (h : Keeps s t) : NextKeeps s (execCanBusError ctl e t) := by
  refine .intro (.ite h (.ite (canStates_keeps (txFailed_keeps (.ite (canLec_keeps ?_) (set_keeps (canLec_keeps
      ?_))))) (canRxError_keeps h)))
  all_goals
    split
    · exact tdcMeasure_keeps h
    · exact h

theorem execRefGuardStart_nextKeeps {s t ctl} (h : Keeps s t) : NextKeeps s (execRefGuardStart ctl t) := by
  refine .intro ?_
  dsimp only
  split
  · exact .ite (canMod_keeps h) h
  · exact h

theorem execLinHeaderReceive_nextKeeps {s t ch ident} (h : Keeps s t) :
    NextKeeps s (execLinHeaderReceive ch ident t) := by
  refine .intro (.ite h ?_)
  dsimp only
  split
  · exact linMod_keeps (linAnswer_keeps (set_keeps h))
  · exact linMod_keeps (set_keeps h)

theorem execLinFrameComplete_nextKeeps {s t tm ch data checksum e collision} (h : Keeps s t) :
    NextKeeps s (execLinFrameComplete tm ch data checksum e collision t) := by
  replace h := advance_keeps (n := tm.clocks) h
  refine .intro ?_
  dsimp only
  split
  · refine .ite h ?_
    split
    · exact linErr_keeps h
    · exact linErr_keeps h
    · exact h
  · refine .ite h (linNext_keeps ?_)
    split
    · exact linErr_keeps (linMod_keeps (set_keeps h))
    · exact linErr_keeps (linMod_keeps (set_keeps h))
    · split
      · exact .ite (irq_keeps (set_keeps (linMod_keeps (set_keeps h)))) (linMod_keeps (set_keeps h))
      · exact .ite (linMod_keeps (set_keeps h)) (.ite (linErr_keeps (linMod_keeps (set_keeps h))) (linToGateway_keeps
            (linStore_keeps (linMod_keeps (set_keeps h)))))

theorem execGatewayFrameFromBus_nextKeeps {s t clocks e} (h : Keeps s t) :
    NextKeeps s (execGatewayFrameFromBus clocks e t) := by
  replace h := advance_keeps (n := clocks) h
  refine .intro ?_
  dsimp only
  split
  · exact .ite (gwRoute_keeps (gwTake_keeps h)) h
  · exact h

theorem execGatewayFrameFromEthernet_nextKeeps {s t clocks e} (h : Keeps s t) :
    NextKeeps s (execGatewayFrameFromEthernet clocks e t) := by
  replace h := advance_keeps (n := clocks) h
  refine .intro ?_
  dsimp only
  split
  · exact .ite (avtpReceive_keeps (gwTake_keeps h)) h
  · exact h

theorem execGatewayDeadlineExpiry_nextKeeps {s t clocks ctl obj} (h : Keeps s t) :
    NextKeeps s (execGatewayDeadlineExpiry clocks ctl obj t) := by
  replace h := advance_keeps (n := clocks) h
  refine .intro ?_
  dsimp only
  split
  · exact .ite (objCancel_keeps (canMod_keeps h)) h
  · exact h

/-! ### Load channels, power dies and inputs -/

theorem execLswProtWrite_nextKeeps {s t a die ch r v} (h : Keeps s t) :
    NextKeeps s (execLswProtWrite a die ch r v t) := by
  refine .intro ?_
  dsimp only
  split <;> exact regWrite_keeps h fun _ k => plain_keeps k

theorem execTwcStatusReply_nextKeeps {s t clocks r} (h : Keeps s t) :
    NextKeeps s (execTwcStatusReply clocks r t) := by
  replace h := advance_keeps (n := clocks) h
  refine .intro ?_
  dsimp only
  split
  · exact sendStatus_keeps h
  · exact .ite (twcDrop_keeps h) (.ite (twcEnds_keeps (each_keeps h (fun _ _ k => wrn_keeps k))) h)

theorem execStandbyScan_nextKeeps {s t clocks levels} (h : Keeps s t) :
    NextKeeps s (execStandbyScan clocks levels t) := by
  replace h := advance_keeps (n := clocks) h
  refine .intro (.ite h ?_)
  dsimp only
  split
  · exact .fields.2 h
  · exact localPulse_keeps (startWake_keeps (set_keeps (set_keeps (set_keeps (.fields.2 h)))))

/-! ### Links and bridges -/

theorem execCtlFlitReceive_nextKeeps {s t clocks br octets} (h : Keeps s t) :
    NextKeeps s (execCtlFlitReceive clocks br octets t) := by
  replace h := advance_keeps (n := clocks) h
  exact .intro (.ite h (.ite (peerDown_keeps (ctlCredits_keeps h)) (.ite (heartbeatIn_keeps (ctlCredits_keeps h))
      (ctlCredits_keeps h))))

theorem execTwFlitReceive_nextKeeps {s t clocks ty octets good} (h : Keeps s t) :
    NextKeeps s (execTwFlitReceive clocks ty octets good t) := by
  replace h := advance_keeps (n := clocks) h
  refine .intro (.ite h (.ite (twBad_keeps h) (.ite (twGrow_keeps h) ?_)))
  split
  · exact twGrow_keeps h
  · exact h

theorem execRsvFlitReceive_nextKeeps {s t clocks br ty order octets good} (h : Keeps s t) :
    NextKeeps s (execRsvFlitReceive clocks br ty order octets good t) := by
  replace h := advance_keeps (n := clocks) h
  refine .intro ?_
  split
  · next e1 => exact packetIn_keeps (.fst e1 (rsvFlit_keeps h))
  · next e1 => exact .fst e1 (rsvFlit_keeps h)

theorem execLaneTrainingDone_nextKeeps {s t clocks lanes delay} (h : Keeps s t) :
    NextKeeps s (execLaneTrainingDone clocks lanes delay t) := by
  replace h := advance_keeps (n := clocks) h
  exact .intro (.ite h (.ite (phoaskComesUp_keeps h) (.ite (err_keeps (irq_keeps (phoaskComesUp_keeps h)))
      (startTraining_keeps h))))

theorem execBridgeRequestTimeout_nextKeeps {s t clocks br tag addr} (h : Keeps s t) :
    NextKeeps s (execBridgeRequestTimeout clocks br tag addr t) := by
  replace h := advance_keeps (n := clocks) h
  exact .intro (.ite (.ite (refused_keeps (brErr_keeps (irq_keeps (cnt_keeps (showBridge_keeps (modBridge_keeps
      h)))))) (windowEnds_keeps (brErr_keeps (irq_keeps (cnt_keeps (showBridge_keeps (modBridge_keeps h))))))) h)

/-! ### Twin and migration -/

theorem execClaimContention_nextKeeps {s t clocks} (h : Keeps s t) : NextKeeps s (execClaimContention clocks t) := by
  replace h := advance_keeps (n := clocks) h
  refine .intro ?_
  dsimp only
  split
  · exact .ite (modTwin_keeps (setRole_keeps h)) h
  · exact h

theorem execMigRoundDone_nextKeeps {s t clocks} (h : Keeps s t) : NextKeeps s (execMigRoundDone clocks t) := by
  replace h := advance_keeps (n := clocks) h
  refine .intro (.ite h ?_)
  dsimp only
  split
  · next e1 => exact migEnds_keeps (.fst e1 (sendPages_keeps h))
  · next e1 =>
      exact .ite (irq_keeps (set_keeps (sendMigControl_keeps (.fields.2 (.fst e1 (sendPages_keeps h)))))) (irq_keeps
          (set_keeps (set_keeps (takeRound_keeps (sendMigControl_keeps (.fst e1 (sendPages_keeps h)))))))

/-! ### Caliper pairs and cores -/

theorem execRsRead_nextKeeps {s t a pair addr} (h : Keeps s t) : NextKeeps s (execRsRead a pair addr t) := by
  refine .intro (.ite ?_ h)
  split
  · next e1 => exact .ite (close_keeps (.fst e1 (reach_keeps h))) (.fst e1 (reach_keeps h))
  · next e1 => exact refused_keeps (.fst e1 (reach_keeps h))

theorem execAtomic_nextKeeps {s t a pair addr op operand} (h : Keeps s t) :
    NextKeeps s (execAtomic a pair addr op operand t) := by
  refine .intro (.ite ?_ h)
  split
  · next e1 => exact close_keeps (.fst e1 (reach_keeps h))
  · next e1 => exact refused_keeps (.fst e1 (reach_keeps h))

theorem execPeripheralReadCheckpoint_nextKeeps {s t a pair addr} (h : Keeps s t) :
    NextKeeps s (execPeripheralReadCheckpoint a pair addr t) := by
  refine .intro (.ite ?_ h)
  split
  · next e1 => exact .ite (trigger_keeps (.fst e1 (reach_keeps h))) (.fst e1 (reach_keeps h))
  · next e1 => exact refused_keeps (.fst e1 (reach_keeps h))

theorem execComparePoint_nextKeeps {s t clocks pair c waiting} (h : Keeps s t) :
    NextKeeps s (execComparePoint clocks pair c waiting t) := by
  replace h := advance_keeps (n := clocks) h
  refine .intro (.ite h ?_)
  split
  · next e1 => exact .ite (set_keeps (.fst e1 (compare_keeps h))) (.fst e1 (compare_keeps h))
  · next e1 => exact .fst e1 (compare_keeps h)

theorem execCheckpoint_nextKeeps {s t clocks pair c arch} (h : Keeps s t) :
    NextKeeps s (execCheckpoint clocks pair c arch t) := by
  replace h := advance_keeps (n := clocks) h
  refine .intro (.ite h ?_)
  split
  · next e1 => exact takeCheckpoint_keeps (.fst e1 (compare_keeps h))
  · next e1 => exact .fst e1 (compare_keeps h)

theorem execRestartDone_nextKeeps {s t clocks pair slot} (h : Keeps s t) :
    NextKeeps s (execRestartDone clocks pair slot t) := by
  replace h := advance_keeps (n := clocks) h
  exact .intro (.ite h (.ite (caliperFault_keeps (err_keeps h)) (irq_keeps (setPair_keeps (modCal_keeps (stat_keeps
      (stat_keeps (.ite (err_keeps h) h))))))))

theorem execPairInterrupt_nextKeeps {s t pair n} (h : Keeps s t) : NextKeeps s (execPairInterrupt pair n t) := by
  refine .intro ?_
  dsimp only
  split
  · exact .ite (modCal_keeps h) h
  · exact h

theorem execInterruptDelivery_nextKeeps {s t core} (h : Keeps s t) : NextKeeps s (execInterruptDelivery core t) := by
  refine .intro (.ite ?_ h)
  split
  · exact modCore_keeps h
  · exact h

theorem execInterruptAck_nextKeeps {s t core ends} (h : Keeps s t) : NextKeeps s (execInterruptAck core ends t) := by
  refine .intro (.ite h (.ite (modCore_keeps h) ?_))
  split
  · exact ackLine_keeps h
  · exact modCore_keeps h

theorem execCoreTimerExpiry_nextKeeps {s t clocks core target} (h : Keeps s t) :
    NextKeeps s (execCoreTimerExpiry clocks core target t) := by
  replace h := advance_keeps (n := clocks) h
  refine .intro (.ite h ?_)
  split
  · exact .ite (coreLocal_keeps (modCore_keeps h)) h
  · exact .ite (coreLocal_keeps (modCore_keeps h)) h
  · exact .ite (coreLocal_keeps h) h
  · exact .ite (coreLocal_keeps h) h

theorem execCounterOverflow_nextKeeps {s t core k} (h : Keeps s t) :
    NextKeeps s (execCounterOverflow core k t) := by
  unfold execCounterOverflow
  split
  · exact .intro (coreLocal_keeps (modCore_keeps h))
  · exact .intro h

theorem execCacheError_nextKeeps {s t e addr} (h : Keeps s t) : NextKeeps s (execCacheError e addr t) := by
  refine .intro (.ite h ?_)
  dsimp only
  split
  · exact err_keeps h
  · exact err_keeps h
  · exact err_keeps h
  · exact .fields.2 (err_keeps h)

theorem execSpeculativeLoadReissue_nextKeeps {s t a addr} (h : Keeps s t) :
    NextKeeps s (execSpeculativeLoadReissue a addr t) := by
  refine .intro ?_
  split
  · exact .ite (pairLoad_keeps h) h
  · exact memAccess_keeps h

theorem execMbsGo_nextKeeps {s t a v} (h : Keeps s t) : NextKeeps s (execMbsGo a v t) := by
  refine .intro ?_
  dsimp only
  split
  · exact h
  · refine .ite h ?_
    split
    · exact coreSend_keeps h
    · exact .ite (.ite h (.ite (trigger_keeps (modCore_keeps (holdEntry_keeps h))) (modCore_keeps (holdEntry_keeps
          h)))) h

/-! ### DMA, memory and fuses -/

theorem execDmaFault_nextKeeps {s t src log ipa write} (h : Keeps s t) :
    NextKeeps s (execDmaFault src log ipa write t) := by
  refine .intro ?_
  dsimp only
  split
  · next e1 =>
      exact .ite (dplStop_keeps (dmaFaulted_keeps (.fst e1 (translate_keeps h)))) (dmaFaulted_keeps (.fst e1
          (translate_keeps h)))
  · exact h

theorem execDramRead_nextKeeps {s t clocks a isSpill addr actual flips} (h : Keeps s t) :
    NextKeeps s (execDramRead clocks a isSpill addr actual flips t) := by
  replace h := advance_keeps (n := clocks) h
  refine .intro (.ite (refused_keeps h) ?_)
  split
  · next e1 => exact refused_keeps (dramStopped_keeps h _ e1)
  · refine .ite (refused_keeps (poisonRead_keeps h)) ?_
    split
    · next e2 => exact ok_keeps (.fst e2 (decodeWord_keeps h))
    · next e2 => exact refused_keeps (.fst e2 (decodeWord_keeps h))

theorem execDramWrite_nextKeeps {s t clocks a isSpill addr data flips} (h : Keeps s t) :
    NextKeeps s (execDramWrite clocks a isSpill addr data flips t) := by
  replace h := advance_keeps (n := clocks) h
  refine .intro (.ite (refused_keeps h) ?_)
  dsimp only
  split
  · next e1 => exact refused_keeps (dramStopped_keeps h _ e1)
  · split
    · next e2 =>
        refine ok_keeps (.fst e2 (ramWrite_keeps ?_))
        split
        · exact .ite h (decodeWord_keeps h)
        · exact h
    · next e2 =>
        refine refused_keeps (.fst e2 (ramWrite_keeps ?_))
        split
        · exact .ite h (decodeWord_keeps h)
        · exact h

theorem execDramRefresh_nextKeeps {s t} (h : Keeps s t) : NextKeeps s (execDramRefresh t) := by
  refine .intro ?_
  dsimp only
  split
  · exact .ite (.fields.2 (setRefi_keeps h)) h
  · exact h

theorem execDramTemperatureReport_nextKeeps {s t clocks temps rate} (h : Keeps s t) :
    NextKeeps s (execDramTemperatureReport clocks temps rate t) := by
  replace h := advance_keeps (n := clocks) h
  exact .intro (.ite h (.ite (errLimited_keeps (irq_keeps (wrn_keeps (set_keeps (set_keeps h))))) (.ite (wrn_keeps
      (set_keeps (set_keeps h))) (set_keeps h))))

theorem execScrubStep_nextKeeps {s t array word flips check} (h : Keeps s t) :
    NextKeeps s (execScrubStep array word flips check t) := by
  refine .intro (.ite h ?_)
  dsimp only
  split
  · exact .ite h (.ite (scrubPassed_keeps (set_keeps (.ite h (decodeWord_keeps h)))) (set_keeps (.ite h
        (decodeWord_keeps h))))
  · refine .ite (scrubPassed_keeps (.fields.2 ?_)) (.fields.2 ?_)
    all_goals
      split
      · exact h
      · exact sramFault_keeps h
      · exact poisonAdd_keeps (sramFault_keeps h)
  · refine .fields.2 ?_
    split
    · exact h
    · exact ckptFault_keeps h
    · exact ckptFault_keeps h

theorem execSramError_nextKeeps {s t array corrected} (h : Keeps s t) :
    NextKeeps s (execSramError array corrected t) := by
  refine .intro (.ite h ?_)
  dsimp only
  split
  · exact .ite (sramFault_keeps h) (poisonAdd_keeps (sramFault_keeps h))
  · exact sramFault_keeps h
  · exact ckptFault_keeps h
  · exact .ite (err_keeps h) (err_keeps (set_keeps h))
  · split
    · exact entryFault_keeps h
    · exact h
  · exact entryFault_keeps h
  · refine .ite (err_keeps h) ?_
    split
    · exact settle_keeps (err_keeps (cnt32_keeps (release_keeps h)))
    · exact h

theorem execFuseProgramDone_nextKeeps {s t good} (h : Keeps s t) : NextKeeps s (execFuseProgramDone good t) := by
  refine .intro ?_
  dsimp only
  split
  · exact h
  · exact .ite (set_keeps (burn_keeps (set_keeps (.fields.2 h)))) (set_keeps (took_keeps (burn_keeps (set_keeps
        (.fields.2 h)))))

theorem execTestPortVerifyDone_nextKeeps {s t bad} (h : Keeps s t) : NextKeeps s (execTestPortVerifyDone bad t) := by
  refine .intro (.ite h ?_)
  split
  · exact err_keeps (irq_keeps (set_keeps h))
  · exact err_keeps (irq_keeps (wrn_keeps (set_keeps h)))

/-! ### Image relay, updates and start -/

theorem execRelayOpen_nextKeeps {s t octets} (h : Keeps s t) : NextKeeps s (execRelayOpen octets t) := by
  refine .intro (.ite h (.ite (relayBad_keeps h) ?_))
  dsimp only
  split
  · exact .ite (.ite (emit_keeps (setRelay_keeps h)) (setRelay_keeps h)) (abortTo_keeps h)
  · exact abortTo_keeps h

theorem execRelayManifestBlock_nextKeeps {s t octets} (h : Keeps s t) :
    NextKeeps s (execRelayManifestBlock octets t) := by
  refine .intro (.ite h (.ite (relayBad_keeps h) ?_))
  dsimp only
  split
  · exact h
  · exact .ite h (.ite (manifestArrived_keeps h) (setRelay_keeps h))

theorem execSlotPrepared_nextKeeps {s t good} (h : Keeps s t) : NextKeeps s (execSlotPrepared good t) := by
  refine .intro ?_
  dsimp only
  split
  · exact h
  · exact .ite h (.ite (ackUp_keeps (slotRecord_keeps (slotProgram_keeps (slotErase_keeps h)))) (abortRelay_keeps
        (slotRecord_keeps (slotProgram_keeps (slotErase_keeps h)))))

theorem execRelayTransportBlock_nextKeeps {s t octets} (h : Keeps s t) :
    NextKeeps s (execRelayTransportBlock octets t) := by
  refine .intro (.ite h (.ite (relayBad_keeps h) ?_))
  dsimp only
  split
  · exact h
  · exact .ite h (.ite (ackUp_keeps h) (.ite (ackUp_keeps (err_keeps h)) (push_keeps (setRelay_keeps h))))

theorem execBlockProgrammed_nextKeeps {s t good} (h : Keeps s t) : NextKeeps s (execBlockProgrammed good t) := by
  refine .intro ?_
  dsimp only
  split
  · exact h
  · split
    · exact h
    · exact .ite (abortRelay_keeps (slotSpoil_keeps h)) (push_keeps (relayReceived_keeps (.ite (ackUp_keeps
          (setRelay_keeps (slotProgram_keeps h))) (setRelay_keeps (slotProgram_keeps h)))))

theorem execRelayAck_nextKeeps {s t octets} (h : Keeps s t) : NextKeeps s (execRelayAck octets t) := by
  refine .intro (.ite h (.ite (relayBad_keeps h) ?_))
  dsimp only
  split
  · exact h
  · exact .ite (relayFinish_keeps (setRelay_keeps h)) (push_keeps (setRelay_keeps h))

theorem execAckTimer_nextKeeps {s t} (h : Keeps s t) : NextKeeps s (execAckTimer t) := by
  refine .intro ?_
  split
  · exact h
  · exact .ite (ackUp_keeps h) h

theorem execRelayNoProgress_nextKeeps {s t} (h : Keeps s t) : NextKeeps s (execRelayNoProgress t) := by
  refine .intro ?_
  split
  · exact h
  · exact .ite h (.ite (abortRelay_keeps h) (push_keeps (setRelay_keeps h)))

theorem execRelayClose_nextKeeps {s t octets} (h : Keeps s t) : NextKeeps s (execRelayClose octets t) := by
  refine .intro (.ite h (.ite (relayBad_keeps h) ?_))
  dsimp only
  split
  · exact h
  · exact .ite h (.ite (ackUp_keeps h) (push_keeps (relayReceived_keeps (setRelay_keeps h))))

theorem execRelayAbort_nextKeeps {s t octets} (h : Keeps s t) : NextKeeps s (execRelayAbort octets t) := by
  refine .intro (.ite h (.ite (relayBad_keeps h) ?_))
  split
  · exact abortRelay_keeps h
  · exact abortRelay_keeps h
  · exact h

theorem execSlotComplete_nextKeeps {s t slot good} (h : Keeps s t) : NextKeeps s (execSlotComplete slot good t) := by
  refine .intro (.ite h ?_)
  dsimp only
  split
  · exact .ite (relayFinish_keeps (setRelay_keeps (slotCompleted_keeps h))) (slotCompleted_keeps h)
  · exact slotCompleted_keeps h

theorem execUpdateStatus_nextKeeps {s t} (h : Keeps s t) : NextKeeps s (execUpdateStatus t) := by
  refine .intro ?_
  dsimp only
  split
  · exact h
  · exact reply_keeps h

theorem execUpdateTrial_nextKeeps {s t good} (h : Keeps s t) : NextKeeps s (execUpdateTrial good t) := by
  refine .intro ?_
  dsimp only
  split
  · exact h
  · refine .ite (reply_keeps h) ?_
    split
    · exact reply_keeps h
    · exact reply_keeps (slotRecord_keeps h)

theorem execUpdateConfirm_nextKeeps {s t good} (h : Keeps s t) : NextKeeps s (execUpdateConfirm good t) := by
  refine .intro ?_
  dsimp only
  split
  · exact h
  · refine .ite (reply_keeps (capsuleWords_keeps h)) (.ite (reply_keeps (capsuleWords_keeps h)) ?_)
    split
    · exact reply_keeps (capsuleWords_keeps h)
    · exact .ite (reply_keeps (capsuleWords_keeps h)) (.ite (reply_keeps (capsuleWords_keeps h)) (.ite (reply_keeps
          (confirmRest_keeps (slotRecord_keeps (capsuleWords_keeps h)))) (reply_keeps (slotRecord_keeps
          (capsuleWords_keeps h)))))

theorem execUpdateReject_nextKeeps {s t good} (h : Keeps s t) : NextKeeps s (execUpdateReject good t) := by
  refine .intro ?_
  split
  · exact h
  · split
    · exact reply_keeps h
    · exact reply_keeps (slotTo_keeps h)

theorem execUpdateAbort_nextKeeps {s t} (h : Keeps s t) : NextKeeps s (execUpdateAbort t) := by
  refine .intro ?_
  split
  · exact h
  · split
    · exact reply_keeps h
    · exact reply_keeps (abortRelay_keeps h)

theorem execSetWrite_nextKeeps {s t good} (h : Keeps s t) : NextKeeps s (execSetWrite good t) := by
  refine .intro ?_
  dsimp only
  split
  · exact h
  · refine .ite (reply_keeps h) (.ite (reply_keeps h) ?_)
    split
    · next e2 => exact reply_keeps (.fst e2 (ramRead_keeps h))
    · next e2 => exact reply_keeps (setStore_keeps (.fst e2 (ramRead_keeps h)))

theorem execSetRead_nextKeeps {s t} (h : Keeps s t) : NextKeeps s (execSetRead t) := by
  refine .intro ?_
  dsimp only
  split
  · exact h
  · refine .ite (reply_keeps h) ?_
    split
    · exact reply_keeps h
    · split
      · next e3 => exact reply_keeps (.fst e3 (ramWrite_keeps h))
      · next e3 => exact reply_keeps (.fst e3 (ramWrite_keeps h))

theorem execServiceRequest_nextKeeps {s t} (h : Keeps s t) : NextKeeps s (execServiceRequest t) := by
  refine .intro ?_
  dsimp only
  split
  · exact h
  · exact .ite (reply_keeps (capsuleWords_keeps h)) (.ite (reply_keeps (capsuleWords_keeps h)) (.ite (reply_keeps
        (capsuleWords_keeps h)) (reply_keeps (enterService_keeps (capsuleWords_keeps h)))))

theorem execLoaderStart_nextKeeps {s t} (h : Keeps s t) : NextKeeps s (execLoaderStart t) := by
  refine .intro (.ite (.ite (baseLoad_keeps (.ite (jnlErase_keeps h) ?_)) (baseLoad_keeps (err_keeps (.ite
      (jnlErase_keeps h) ?_)))) h)
  all_goals
    split
    · exact install_keeps h
    · exact h

theorem execBaseInstall_nextKeeps {s t good} (h : Keeps s t) : NextKeeps s (execBaseInstall good t) := by
  refine .intro (.ite ?_ h)
  split
  · exact install_keeps h
  · exact h

theorem execKeysDerive_nextKeeps {s t} (h : Keeps s t) : NextKeeps s (execKeysDerive t) :=
  .intro (.ite h (.ite (returnStart_keeps h) (set_keeps (each_keeps (each_keeps (wrn_keeps (each_keeps
      (.fields.2 (returnStart_keeps h)) (fun _ _ k => each_keeps k (fun _ _ k => keyMend_keeps k)))) (fun _ _ k =>
      slotLoad_keeps k)) (fun _ _ k => chanLoad_keeps k)))))

/-! ### Clocks, power and sleep -/

theorem execSupervisionWindow_nextKeeps {s t clocks ends} (h : Keeps s t) :
    NextKeeps s (execSupervisionWindow clocks ends t) := by
  replace h := advance_keeps (n := clocks) h
  refine .intro (.ite h (.ite (each_keeps h (fun _ _ k => .ite (entryWindow_keeps k) k)) ?_))
  split
  · exact oscFault_keeps (each_keeps h (fun _ _ k => .ite (entryWindow_keeps k) k))
  · exact followDrift_keeps (each_keeps h (fun _ _ k => .ite (entryWindow_keeps k) k))

theorem execCrossingRehandshake_nextKeeps {s t domain waiting} (h : Keeps s t) :
    NextKeeps s (execCrossingRehandshake domain waiting t) := by
  refine .intro (.ite h (each_keeps (.fields.2 h) (fun _ _ k => ?_)))
  split <;> exact memAccess_keeps k

theorem execDomainOffDone_nextKeeps {s t clocks d left} (h : Keeps s t) :
    NextKeeps s (execDomainOffDone clocks d left t) := by
  replace h := advance_keeps (n := clocks) h
  exact .intro (.ite (.ite (set_keeps (set_keeps (each_keeps (domainLost_keeps h) (fun _ _ k => resetPage_keeps k))))
      (errCause_keeps (irq_keeps (set_keeps (set_keeps (set_keeps (each_keeps (domainLost_keeps h) (fun _ _ k =>
      resetPage_keeps k)))))))) h)

theorem execDomainOnDone_nextKeeps {s t clocks d} (h : Keeps s t) : NextKeeps s (execDomainOnDone clocks d t) := by
  replace h := advance_keeps (n := clocks) h
  exact .intro (.ite (.ite (twlWritten_keeps (irq_keeps (set_keeps (set_keeps h)))) (irq_keeps (set_keeps (set_keeps
      h)))) h)

theorem execVfsStepDone_nextKeeps {s t clocks} (h : Keeps s t) : NextKeeps s (execVfsStepDone clocks t) := by
  replace h := advance_keeps (n := clocks) h
  refine .intro (.ite h ?_)
  dsimp only
  split
  · exact h
  · exact vfsPlan_keeps (.fields.2 h)
  · exact vfsPlan_keeps (.fields.2 (setDivider_keeps h))

theorem execVfsRailFail_nextKeeps {s t clocks mv} (h : Keeps s t) : NextKeeps s (execVfsRailFail clocks mv t) := by
  replace h := advance_keeps (n := clocks) h
  refine .intro ?_
  dsimp only
  split
  · exact .ite (err_keeps (irq_keeps (set_keeps (set_keeps (set_keeps (.fields.2 (setDivider_keeps h))))))) h
  · exact h

theorem execComputeDieRelease_nextKeeps {s t clocks io} (h : Keeps s t) :
    NextKeeps s (execComputeDieRelease clocks io t) := by
  replace h := advance_keeps (n := clocks) h
  exact .intro (.ite h (each_keeps (.fields.2 (returnStart_keeps (wakeShown_keeps (set_keeps (each_keeps
      (startTest_keeps (set_keeps (.fieldsUp.2 (.ite (set_keeps (set_keeps (.ite h (startWake_keeps h)))) (.ite h
      (startWake_keeps h)))))) (fun _ _ k => set_keeps k)))))) (fun _ _ k => err_keeps k)))

theorem execAlwaysOnReset_nextKeeps {s t clocks off} (h : Keeps s t) :
    NextKeeps s (execAlwaysOnReset clocks off t) := by
  replace h := advance_keeps (n := clocks) h
  exact .intro (.ite (.fieldsUp.2 (set_keeps (dieReset_keeps (dieReset_keeps (aoCleared_keeps (.ite
      (computeCleared_keeps h) h)))))) (.fieldsUp.2 (set_keeps (dieReset_keeps (aoCleared_keeps h)))))

theorem execClusterRelease_nextKeeps {s t clocks} (h : Keeps s t) : NextKeeps s (execClusterRelease clocks t) := by
  replace h := advance_keeps (n := clocks) h
  refine .intro ?_
  dsimp only
  split
  · exact h
  · exact .ite (.ite (toRun_keeps (takePairing_keeps (atOp3_keeps (.fieldsUp.2 (appLoad_keeps h))))) (.ite
        (takePairing_keeps (atOp3_keeps (.fieldsUp.2 (appLoad_keeps h)))) h)) h

theorem execShutdownSelfTest_nextKeeps {s t clocks tj} (h : Keeps s t) :
    NextKeeps s (execShutdownSelfTest clocks tj t) := by
  replace h := advance_keeps (n := clocks) h
  refine .intro (.ite ?_ h)
  dsimp only
  split
  · exact recordRun_keeps (.fields.2 h)
  · exact .fields.2 (each_keeps h (fun _ _ k => set_keeps k))

theorem execMaxAwakeExpiry_nextKeeps {s t clocks node} (h : Keeps s t) :
    NextKeeps s (execMaxAwakeExpiry clocks node t) := by
  replace h := advance_keeps (n := clocks) h
  exact .intro (.ite h (.ite (err_keeps (irq_keeps (awakeDrop_keeps h))) (.ite h (feedOff_keeps (err_keeps (irq_keeps
      (set_keeps h)))))))

theorem execFalseWakeWindowEnd_nextKeeps {s t clocks} (h : Keeps s t) :
    NextKeeps s (execFalseWakeWindowEnd clocks t) := by
  replace h := advance_keeps (n := clocks) h
  refine .intro ?_
  dsimp only
  split
  · exact .ite h (.ite (.fields.2 (set_keeps h)) (err_keeps (irq_keeps (fwkSet_keeps (.fields.2 (set_keeps h))))))
  · exact h

/-! ### Fault codes, repair and honing -/

theorem execFaultCodePost_nextKeeps {s t clocks} (h : Keeps s t) : NextKeeps s (execFaultCodePost clocks t) := by
  replace h := advance_keeps (n := clocks) h
  refine .intro (.ite h ?_)
  split
  · exact faultTaken_keeps (.fields.2 h)
  · exact h

theorem execPowerDieLogicDiffer_nextKeeps {s t clocks die} (h : Keeps s t) :
    NextKeeps s (execPowerDieLogicDiffer clocks die t) := by
  replace h := advance_keeps (n := clocks) h
  exact .intro (.ite h (.ite (err_keeps (each_keeps (modDie_keeps h) (fun _ _ k => modChan_keeps (turnOff_keeps k))))
      (.ite (modDie_keeps (each_keeps (modDie_keeps h) (fun _ _ k => modChan_keeps (turnOff_keeps k)))) (cnt_keeps
      (each_keeps (modDie_keeps h) (fun _ _ k => modChan_keeps (turnOff_keeps k)))))))

theorem execRepairLogLoad_nextKeeps {s t} (h : Keeps s t) : NextKeeps s (execRepairLogLoad t) := by
  refine .intro (.ite h (each_keeps (.fields.2 (.ite (irq_keeps (loadFailures_keeps (set_keeps ?_))) (each_keeps
      (irq_keeps (loadFailures_keeps (set_keeps ?_))) (fun _ _ k => err_keeps k)))) (fun _ _ k => err_keeps k)))
  all_goals
    dsimp only
    split
    · exact set_keeps (loadSummary_keeps h)
    · exact h

theorem execHoningPlan_nextKeeps {s t io} (h : Keeps s t) : NextKeeps s (execHoningPlan io t) := by
  refine .intro ?_
  dsimp only
  split
  · exact makePlan_keeps (.fields.2 h)
  · exact h

theorem execHoningSample_nextKeeps {s t clocks m} (h : Keeps s t) : NextKeeps s (execHoningSample clocks m t) := by
  replace h := advance_keeps (n := clocks) h
  refine .intro (.ite h ?_)
  dsimp only
  split
  · exact showMonitors_keeps (set_keeps (cnt32_keeps h))
  · exact each_keeps (showMonitors_keeps (set_keeps (cnt32_keeps h))) fun _ _ k => judgeAllowance_keeps k

theorem execCryJobDone_nextKeeps {s t inst good result} (h : Keeps s t) :
    NextKeeps s (execCryJobDone inst good result t) := by
  refine .intro (.ite h ?_)
  dsimp only
  refine set_keeps (set_keeps ?_)
  split
  · exact dmaWrite_keeps (dmaRead_keeps h)
  · exact dmaRead_keeps h

/-! ### All commands -/

/-- Every command answers a next state that keeps what every step keeps. -/
theorem exec_keeps (i : Instr) (s : State) : Completes i s (Keeps s) := by
  have h := Keeps.refl s
  show NextKeeps s (exec i s)
  cases i with
  | registerWrite => exact execRegisterWrite_nextKeeps h
  | accessUnmapped a => exact execAccessUnmapped_nextKeeps (a := a) h
  | memoryRegionAccess => exact .intro (memAccess_keeps h)
  | ownerWrite | softRst | freezeWrite | intSet | errInjArm | ixpEnable => exact .intro (writeReg_keeps h)
  | softRstDone => exact .intro (.ite (softResetDone_keeps h) h)
  | intRawClear => exact .intro (.ite (wr_keeps (writeReg_keeps h)) (writeReg_keeps h))
  | errCapClr => exact execErrCapClr_nextKeeps h
  | clkReqForceOff => exact execClkReqForceOff_nextKeeps h
  | forceOffDrainTimeout => exact execForceOffDrainTimeout_nextKeeps h
  | speculativeReadRefused => exact execSpeculativeReadRefused_nextKeeps h
  | strictPageDmaRead =>
    exact .intro (.ite h (.ite (refused_keeps (errCause_keeps h)) (refused_keeps (errCause_keeps h))))
  | debugRsRead => exact .intro (.ite (refused_keeps h) (.ite (fetchReg_keeps h) (unmapped_keeps h)))
  | tmbSnap => exact .intro (regWrite_keeps h fun _ k => tmbSnapEff_keeps k)
  | tmbRateWrite | ringTailWrite | ringIrqClear | lswProfWrite | bulkWindowWrite =>
    exact .intro (regWrite_keeps h fun _ k => plain_keeps k)
  | tmbStepGo => exact .intro (regWrite_keeps h fun _ k => tmbStepEff_keeps k)
  | stepDone => exact .intro (.ite (irq_keeps (.fieldsTb.2 (moveTime_keeps h))) h)
  | syncReceive => exact execSyncReceive_nextKeeps h
  | pdelayExchange =>
    exact .intro (.ite (each_keeps (set_keeps (set_keeps (set_keeps h))) (fun _ _ k => refreshAsCap_keeps k)) h)
  | ptpMessageTransmit => exact execPtpMessageTransmit_nextKeeps h
  | syncReceiptTimeout =>
    exact .intro (.ite (err_keeps (irq_keeps (set_keeps (set_keeps (.fieldsTb.2 (irq_keeps (set_keeps h))))))) h)
  | ptpTsNsRead => exact .intro (regRead_keeps h fun _ k => ptpPop_keeps k)
  | twinLinkDelayMeasure => exact .intro (.ite (wrn_keeps h) h)
  | ixpCommit => exact .intro (regWrite_keeps h fun _ k => ixpCtrlEff_keeps k)
  | plateStart => exact execPlateStart_nextKeeps h
  | indexEdge => exact .intro (edgesAct_keeps (plateEdge_keeps h))
  | cycSyncPulse => exact .intro (.ite (edgesAct_keeps (cycSync_keeps (advance_keeps h))) (advance_keeps h))
  | gptpReferenceInstant => exact .intro (.ite (reference_keeps (.fields.2 (advanceTo_keeps h))) h)
  | syncLostFreerun => exact .intro (.ite (err_keeps (cnt_keeps (set_keeps (irq_keeps h)))) h)
  | plateAnnouncement => exact ⟨_, rfl, execPlateAnnouncement_keeps h _ rfl⟩
  | twinTableMismatch => exact .intro (.ite (err_keeps (irq_keeps (.fields.2 h))) h)
  | cycOutPulseEnd => exact .intro (.ite (emit_keeps (.fields.2 h)) h)
  | frameReceive => exact .intro (.ite (receive_keeps (advance_keeps h)) (advance_keeps h))
  | recoveryTimeout => exact .intro (.ite (tcnt_keeps (.fields.2 h)) h)
  | latentErrorCheck => exact .intro (.ite (.ite (err_keeps (tcnt_keeps h)) h) h)
  | macEntryAgeOut => exact .intro (.ite (clearEntry_keeps h) h)
  | pushOutRetry => exact execPushOutRetry_nextKeeps h
  | pauseFrameSend => exact execPauseFrameSend_nextKeeps h
  | xoffRepeat => exact .intro (.ite (.ite (sendPause_keeps h) (.ite h (.fields.2 h))) h)
  | pauseFrameReceive => exact .intro (.ite (pauseReceived_keeps (advance_keeps h)) (advance_keeps h))
  | pauseExpiry => exact .intro (.ite (tfSet_keeps h) h)
  | pfcWatchdogTrip => exact .intro (.ite (err_keeps (tfSet_keeps h)) h)
  | pfcWatchdogRecover => exact .intro (.ite (tfSet_keeps (tfSet_keeps h)) h)
  | xoffStorm => exact .intro (.ite (.ite (setXoff_keeps (.fields.2 (err_keeps h))) (err_keeps h)) h)
  | frameTransmitEnd => exact execFrameTransmitEnd_nextKeeps h
  | holdRequest => exact execHoldRequest_nextKeeps h
  | bufGclCommit => exact .intro (regWrite_keeps h fun _ k => gclCommitEff_keeps k)
  | spillReadback => exact execSpillReadback_nextKeeps h
  | portLinkDown => exact .intro (.ite (linkLost_keeps h) (.ite (restLink_keeps h) h))
  | portLinkUp => exact execPortLinkUp_nextKeeps h
  | selectionWrite => exact .intro (regWrite_keeps h fun _ k => selectionEff_keeps k)
  | selectionMoveDone => exact .intro (.ite (moveTakes_keeps h) h)
  | selectionMoveTimeout => exact .intro (.ite (err_keeps (irq_keeps (moveTakes_keeps h))) h)
  | taRead | taWrite | taLookup | taInsert | taDelete | taFlush | taClearCounters => exact .intro (taStart_keeps h)
  | taOpDone => exact .intro (.ite (taRun_keeps h) h)
  | swcCntClr => exact .intro (regWrite_keeps h fun _ k => swcCntClrEff_keeps k)
  | portCntClr => exact .intro (regWrite_keeps h fun _ k => portCntClrEff_keeps k)
  | preemptionEnable => exact .intro (regWrite_keeps h fun _ k => portPreEff_keeps k)
  | preemptionVerifyFail | linStuckDominant => exact .intro (.ite (err_keeps (irq_keeps (set_keeps h))) h)
  | txDescriptorFetch => exact execTxDescriptorFetch_nextKeeps h
  | ringEnable => exact .intro (regWrite_keeps h fun _ k => ringCtrlEff_keeps k)
  | ringIrqTimer => exact .intro (.ite (set_keeps (.fields.2 h)) h)
  | splCntClr => exact .intro (regWrite_keeps h fun _ k => splCntClrEff_keeps k)
  | canFrameReceive =>
    exact .intro (.ite (advance_keeps h) (.ite (canRxError_keeps (advance_keeps h)) (canOffer_keeps (canHeard_keeps
        (advance_keeps h)))))
  | canTxrq | canCancel => exact .intro (regWrite_keeps h fun _ k => objCtrlEff_keeps k)
  | canTxChoice => exact execCanTxChoice_nextKeeps h
  | canFrameTransmitted => exact execCanFrameTransmitted_nextKeeps h
  | canBusError => exact execCanBusError_nextKeeps h
  | canBoRecover | canInit => exact .intro (regWrite_keeps h fun _ k => cxCtrlEff_keeps k)
  | canRecoveryDone =>
    exact .intro (.ite (irq_keeps (set_keeps (canMod_keeps (wrn_keeps (set_keeps (set_keeps h)))))) h)
  | canModeApply => exact .intro (.ite (canMod_keeps h) h)
  | cxObjRelRead => exact .intro (regRead_keeps h fun _ k => objRelEff_keeps k)
  | cxPsrRead => exact .intro (regRead_keeps h fun _ k => psrEff_keeps k)
  | cxWinSelWrite => exact .intro (regWrite_keeps h fun _ k => winSelEff_keeps k)
  | refGuardStart => exact execRefGuardStart_nextKeeps h
  | linHeaderReceive => exact execLinHeaderReceive_nextKeeps h
  | linFrameComplete => exact execLinFrameComplete_nextKeeps h
  | linFrameTimeout => exact .intro (.ite (linNext_keeps (linErr_keeps (linMod_keeps h))) h)
  | lnRxPopRead => exact .intro (regRead_keeps h fun _ k => rxPopEff_keeps k)
  | linWakePulse => exact .intro (.ite (irq_keeps h) h)
  | linWakeTx => exact .intro (regWrite_keeps h fun _ k => lnCtrlEff_keeps k)
  | gatewayFrameFromBus => exact execGatewayFrameFromBus_nextKeeps h
  | gatewayFrameFromEthernet => exact execGatewayFrameFromEthernet_nextKeeps h
  | gatewayTxPlace => exact .intro (.ite (gwPlace_keeps (advance_keeps h)) (advance_keeps h))
  | gatewayDeadlineExpiry => exact execGatewayDeadlineExpiry_nextKeeps h
  | ethernetBatchSend => exact .intro (batchSend_keeps (advance_keeps h))
  | capsulePostRetry => exact .intro (.ite (capRetry_keeps h) h)
  | capsuleReply =>
    exact .intro (.ite (batchAdd_keeps (cnt32_keeps (takeEff_keeps (advance_keeps h)))) (advance_keeps h))
  | pegCntClr => exact .intro (regWrite_keeps h fun _ k => pegCntClrEff_keeps k)
  | lswArm | lswOnReq | lswClrFault => exact .intro (lswCtrlWrite_keeps h)
  | pdcOutImgWrite => exact .intro (regWrite_keeps h fun _ k => pdcOutImgEff_keeps k)
  | groupUndervoltage =>
    exact .intro (.ite (err_keeps (irq_keeps (cnt_keeps (each_keeps h (fun _ _ k => turnOff_keeps k))))) h)
  | hardShort =>
    exact .intro (.ite (modDie_keeps (latch_keeps (atCurrent_keeps (advance_keeps h)))) (advance_keeps h))
  | overcurrentTrip => exact .intro (.ite (latch_keeps (atCurrent_keeps (advance_keeps h))) (advance_keeps h))
  | overTemperature => exact .intro (.ite (latch_keeps (modChan_keeps h)) h)
  | currentSample =>
    exact .intro (.ite (senseFrom_keeps (each_keeps (modDie_keeps (measureTabs_keeps (advance_keeps h))) (fun _ _ k
        => sampleChan_keeps k))) (advance_keeps h))
  | turnOffComplete => exact .intro (.ite (turnOffDone_keeps (advance_keeps h)) (advance_keeps h))
  | lswProtWrite => exact execLswProtWrite_nextKeeps h
  | reverseCurrentBlock =>
    exact .intro (.ite (dieLimited_keeps (cnt_keeps (irq_keeps (modChan_keeps (atCurrent_keeps (advance_keeps h))))))
        (advance_keeps h))
  | reverseBlockRelease | shortToBatteryClear => exact .intro (.ite (modChan_keeps h) h)
  | openLoadDetect => exact .intro (.ite (chanErr_keeps (irq_keeps (modChan_keeps (atCurrent_keeps h)))) h)
  | shortToBatteryDetect => exact .intro (.ite (chanErr_keeps (irq_keeps (modChan_keeps h))) h)
  | lswCntClr => exact .intro (regWrite_keeps h fun _ k => lswCntClrEff_keeps k)
  | lswSnsClr => exact .intro (regWrite_keeps h fun _ k => lswSnsClrEff_keeps k)
  | bridgeSilence | computeResetSignal => exact .intro (.ite (computeLost_keeps (advance_keeps h)) (advance_keeps h))
  | localEdge => exact .intro (.ite (dieEdge_keeps (modDie_keeps (advance_keeps h))) h)
  | holdTimeExpiry | twcTimeout => exact .intro (.ite (enterSafe_keeps (advance_keeps h)) (advance_keeps h))
  | pdcResume => exact .intro (regWrite_keeps h fun _ k => pdcHoldEff_keeps k)
  | twcSet => exact .intro (twcReceive_keeps (advance_keeps h) fun _ _ k => twcSetAct_keeps k)
  | twcKeep => exact .intro (twcReceive_keeps (advance_keeps h) fun _ _ k => enterTwc_keeps k)
  | twcSafe => exact .intro (twcReceive_keeps (advance_keeps h) fun _ _ k => enterSafe_keeps k)
  | twcClear =>
    exact .intro (twcReceive_keeps (advance_keeps h) (fun _ _ k => .ite (noteCmds_keeps (clearCmd_keeps k)) k))
  | twcStatus => exact .intro (twcReceive_keeps (advance_keeps h) fun _ _ k => modDie_keeps k)
  | twcStatusReply => exact execTwcStatusReply_nextKeeps h
  | limpEntry => exact .intro (.ite (limpEval_keeps (set_keeps (modDie_keeps (advance_keeps h)))) (advance_keeps h))
  | limpInputChange | limpLatchedClear => exact .intro (.ite (landChange_keeps (advance_keeps h)) (advance_keeps h))
  | limpExit => exact .intro (.ite (limpEval_keeps (set_keeps (advance_keeps h))) (advance_keeps h))
  | tabUndervoltage =>
    exact .intro (.ite (pdcErr_keeps (irq_keeps (groupOff_keeps (modDie_keeps (advance_keeps h))))) (advance_keeps h))
  | tabOvervoltage =>
    exact .intro (.ite (pdcErr_keeps (cnt_keeps (irq_keeps (groupOff_keeps (modDie_keeps (advance_keeps h))))))
        (advance_keeps h))
  | pgndLoss =>
    exact .intro (.ite (pdcErr_keeps (cnt_keeps (irq_keeps (each_keeps (modDie_keeps (advance_keeps h)) (fun _ _ k =>
        groupOff_keeps k))))) (advance_keeps h))
  | lgndLoss => exact .intro (.ite (pdcErr_keeps (irq_keeps (modDie_keeps (advance_keeps h)))) (advance_keeps h))
  | boardNetRecovery =>
    exact .intro (.ite (each_keeps (modDie_keeps (advance_keeps h)) (fun _ _ k => modChan_keeps k)) (advance_keeps h))
  | powerDieReset =>
    exact .intro (.ite (.ite (cnt_keeps (dieReset_keeps (advance_keeps h))) (dieReset_keeps (advance_keeps h)))
        (advance_keeps h))
  | powerDieRelease => exact .intro (.ite (dieRelease_keeps (advance_keeps h)) (advance_keeps h))
  | pdcCntClr => exact .intro (regWrite_keeps h fun _ k => pdcCntClrEff_keeps k)
  | dinStuck => exact .intro (.ite (wakeEval_keeps (stuckStep_keeps (advance_keeps h))) (advance_keeps h))
  | standbyScan => exact execStandbyScan_nextKeeps h
  | digCntClr => exact .intro (regWrite_keeps h fun _ k => digCntClrEff_keeps k)
  | ctlFlitReceive => exact execCtlFlitReceive_nextKeeps h
  | heartbeatSend =>
    exact .intro (.ite (.fields.2 (nakSent_keeps (emit_keeps (advance_keeps (advanceTo_keeps h))))) h)
  | twFlitReceive => exact execTwFlitReceive_nextKeeps h
  | rsvFlitReceive => exact execRsvFlitReceive_nextKeeps h
  | ctlFlitTimeout | badFlitLimit | laneLockLoss => exact .intro (phoaskDown_keeps (advance_keeps h))
  | twlRetrain => exact .intro (regWrite_keeps h fun _ k => twlCtrlEff_keeps k)
  | laneTrainingDone => exact execLaneTrainingDone_nextKeeps h
  | twlCntClr => exact .intro (regWrite_keeps h fun _ k => twlCntClrEff_keeps k)
  | readRequest => exact .intro (readIn_keeps (advance_keeps h))
  | writeRequest => exact .intro (writeIn_keeps (advance_keeps h))
  | readCompletion => exact ⟨_, rfl, execReadCompletion_keeps h _ rfl⟩
  | writeCompletion => exact ⟨_, rfl, execWriteCompletion_keeps h _ rfl⟩
  | postedWriteErrorNotice => exact ⟨_, rfl, execPostedWriteErrorNotice_keeps h _ rfl⟩
  | bridgeRequestTimeout => exact execBridgeRequestTimeout_nextKeeps h
  | dieBridgePeerTimeout => exact .intro (.ite (peerDown_keeps (advance_keeps h)) (advance_keeps h))
  | bridgeUp => exact .intro (bridgeComesUp_keeps (advance_keeps h))
  | tbrRead | tbrWrite => exact .intro (regWrite_keeps h fun _ k => tbrCmdEff_keeps k)
  | brCntClr => exact .intro (regWrite_keeps h fun _ k => brCntClrEff_keeps k)
  | inputImagePacket => exact ⟨_, rfl, execInputImagePacket_keeps h _ rfl⟩
  | twinImageLate =>
    exact .intro (.ite (oncePerCycle_keeps (cnt_keeps (imgStale_keeps (modTwin_keeps (advance_keeps h)))))
        (advance_keeps h))
  | outputImagePacket => exact ⟨_, rfl, execOutputImagePacket_keeps h _ rfl⟩
  | outputImageCut =>
    exact .intro (.ite (oncePerCycle_keeps (irq_keeps (cnt_keeps (modTwin_keeps (advance_keeps h))))) (advance_keeps
        h))
  | pairingPacketSend => exact .intro (.ite (sendPairing_keeps (advance_keeps h)) (advance_keeps h))
  | pairingPacket => exact ⟨_, rfl, execPairingPacket_keeps h _ rfl⟩
  | pairTimeout => exact .intro (.ite (enterAlone_keeps (advance_keeps h)) (advance_keeps h))
  | twinPeerChange =>
    exact .intro (.ite (.ite (modTwin_keeps (set_keeps (advance_keeps h))) (set_keeps (advance_keeps h)))
        (advance_keeps h))
  | twinLossDeclare =>
    exact .intro (.ite (.ite (setRole_keeps (err_keeps (advance_keeps h))) (.ite (enterClaiming_keeps (advance_keeps
        h)) (advance_keeps h))) (advance_keeps h))
  | claimSample | claimOverride => exact .intro (.ite (takeRole_keeps (advance_keeps h)) (advance_keeps h))
  | claimContention => exact execClaimContention_nextKeeps h
  | claimBackoffEnd => exact .intro (.ite (enterAlone_keeps (advance_keeps h)) h)
  | tsAlonePeerTimeout => exact .intro (.ite (enterClaiming_keeps (advance_keeps h)) (advance_keeps h))
  | handover => exact .intro (regWrite_keeps h fun _ k => twrCtrlEff_keeps k)
  | handoverPacket => exact ⟨_, rfl, execHandoverPacket_keeps h _ rfl⟩
  | rejoinCopy => exact .intro (.ite (sendMirror_keeps (modTwin_keeps h)) h)
  | checkpointMirrorPacket => exact ⟨_, rfl, execCheckpointMirrorPacket_keeps h _ rfl⟩
  | rejoinEnd => exact .intro (.ite (nameBoundary_keeps h) h)
  | rejoinTimeout => exact .intro (.ite (rejoinDropped_keeps (advance_keeps h)) (advance_keeps h))
  | aliveSend => exact .intro (.ite (twcSend_keeps (advance_keeps h)) (advance_keeps h))
  | aliveReceive =>
    exact .intro (.ite (twcDrop_keeps (advance_keeps h)) (.ite (heard_keeps (cntWrap_keeps (.fields.2 (advance_keeps
        h)))) (advance_keeps h)))
  | keepRepeat => exact .intro (.ite (sendKeep_keeps (advance_keeps h)) (advance_keeps h))
  | twrTwcCmd => exact .intro (regWrite_keeps h fun _ k => twrTwcCmdEff_keeps k)
  | twcReplyTimeout => exact .intro (.ite (twcEnds_keeps (advance_keeps h)) (advance_keeps h))
  | twrCntClr => exact .intro (regWrite_keeps h fun _ k => twrCntClrEff_keeps k)
  | migGo | migFinal | migAbort => exact .intro (regWrite_keeps h fun _ k => migCtrlEff_keeps k)
  | migrationPage => exact ⟨_, rfl, execMigrationPage_keeps h _ rfl⟩
  | migrationControl => exact ⟨_, rfl, execMigrationControl_keeps h _ rfl⟩
  | migRoundDone => exact execMigRoundDone_nextKeeps h
  | coreLoad => exact .intro (.ite h (.ite (mismatch_keeps (pairLoad_keeps h)) (pairLoad_keeps h)))
  | coreStore | peripheralWrite => exact .intro (.ite (pairStore_keeps h) h)
  | rsRead => exact execRsRead_nextKeeps h
  | atomic => exact execAtomic_nextKeeps h
  | barrier | checkpointPeriod | writeHoldHigh => exact .intro (.ite (trigger_keeps h) h)
  | peripheralReadCheckpoint => exact execPeripheralReadCheckpoint_nextKeeps h
  | comparePoint => exact execComparePoint_nextKeeps h
  | checkpoint => exact execCheckpoint_nextKeeps h
  | releasedWriteError => exact .intro (.ite (releaseError_keeps h) h)
  | trailTimeout | pairStallTimeout => exact .intro (.ite (mismatch_keeps (advance_keeps h)) (advance_keeps h))
  | restartDone => exact execRestartDone_nextKeeps h
  | comparatorTest =>
    exact .intro (.ite h (.ite (caliperFault_keeps (err_keeps (irq_keeps (cnt_keeps h)))) (cntWrap_keeps h)))
  | caliperStorageError => exact .intro (.ite (calStorage_keeps h) h)
  | pairInterrupt => exact execPairInterrupt_nextKeeps h
  | calCntClr => exact .intro (regWrite_keeps h fun _ k => calCntClrEff_keeps k)
  | coreRun | coreRst => exact .intro (regWrite_keeps h fun _ k => coreCtrlEff_keeps k)
  | intcLineWrite => exact .intro (regWrite_keeps h fun _ k => lineEff_keeps k)
  | intcSwraise => exact .intro (regWrite_keeps h fun _ k => swraiseEff_keeps k)
  | interruptDelivery core =>
    show NextKeeps s (execInterruptDelivery core s)
    exact execInterruptDelivery_nextKeeps h
  | interruptAck => exact execInterruptAck_nextKeeps h
  | coreTimerExpiry => exact execCoreTimerExpiry_nextKeeps h
  | counterOverflow => exact execCounterOverflow_nextKeeps h
  | cacheError => exact execCacheError_nextKeeps h
  | speculativeLoadReissue => exact execSpeculativeLoadReissue_nextKeeps h
  | mbsGo => exact execMbsGo_nextKeeps h
  | mbDbgSend => exact .intro (regWrite_keeps h fun _ k => mbDbgSendEff_keeps k)
  | mbTakeRead => exact .intro (regRead_keeps h fun _ k => takeEff_keeps k)
  | mbsWait => exact .intro (.ite h (.ite (set_keeps (modCore_keeps h)) (.ite (set_keeps (modCore_keeps h)) h)))
  | mbsAbortClear => exact .intro (.ite h (modCore_keeps h))
  | crossedWait => exact .intro (.ite (err_keeps (crossOne_keeps (crossOne_keeps h))) h)
  | mbxCntClr => exact .intro (regWrite_keeps h fun _ k => mbxCntClrEff_keeps k)
  | vmcInvPage | vmcInvVm => exact .intro (vmcInv_keeps h)
  | vmcInvDone | iomInvDone => exact .intro (.ite (irq_keeps (set_keeps (dropXlats_keeps h))) h)
  | iomInvHyp | iomInvSecure | iomInvAll => exact .intro (iomInv_keeps h)
  | isoSecTtbWrite => exact .intro (regWrite_keeps h fun _ k => secTtbEff_keeps k)
  | dmaFault => exact execDmaFault_nextKeeps h
  | iomFltClr => exact .intro (regWrite_keeps h fun _ k => iomFltClrEff_keeps k)
  | vmcClr => exact .intro (regWrite_keeps h fun _ k => vmcClrEff_keeps k)
  | partReqGo => exact .intro (partWrite_keeps h)
  | partingDrained => exact .intro (.ite (partEnd_keeps h) h)
  | partingTimeout => exact .intro (.ite (err_keeps (partEnd_keeps (busRelease_keeps h))) h)
  | tmSend | tmAck => exact .intro (regWrite_keeps h fun _ k => tmEff_keeps k)
  | dplOvfClear => exact .intro (regWrite_keeps h fun _ k => dplCtrlEff_keeps k)
  | hinQuiesceReq => exact .intro (regWrite_keeps h fun _ k => quiesceEff_keeps k)
  | quiesceDone => exact .intro (.ite (irq_keeps (set_keeps h)) h)
  | dramRead => exact execDramRead_nextKeeps h
  | dramWrite => exact execDramWrite_nextKeeps h
  | dramTrainingDone => exact .intro (.ite h (.ite (set_keeps h) (err_keeps h)))
  | dramRefresh => exact execDramRefresh_nextKeeps h
  | dramTemperatureReport => exact execDramTemperatureReport_nextKeeps h
  | scrubStep => exact execScrubStep_nextKeeps h
  | sramError => exact execSramError_nextKeeps h
  | dmcCntClr => exact .intro (regWrite_keeps h fun _ k => dmcCntClrEff_keeps k)
  | norProgram | norErase4k | norErase64k => exact .intro (norWrite_keeps h)
  | norCmdDone => exact .intro (norDone_keeps h)
  | norRead => exact .intro (.ite (refused_keeps h) (.ite (norReadAt_keeps h) (regionRefuse_keeps h)))
  | norCntClr => exact .intro (regWrite_keeps h fun _ k => norCntClrEff_keeps k)
  | fusProgGo => exact .intro (regWrite_keeps h fun _ k => fusProgEff_keeps k)
  | fuseProgramDone => exact execFuseProgramDone_nextKeeps h
  | keyWrite | keyErase | lifecycleAdvance | testPortUnlock => exact .intro (keyMessage_keeps h)
  | testPortClearDone => exact .intro (.ite (irq_keeps (set_keeps (clearSecrets_keeps h))) h)
  | testPortVerifyDone => exact execTestPortVerifyDone_nextKeeps h
  | lcsProvision | lcsExport => exact .intro (regWrite_keeps h fun _ k => lcsCtrlEff_keeps k)
  | attExtend => exact .intro (regWrite_keeps h fun _ k => attExtEff_keeps k)
  | attGo => exact .intro (regWrite_keeps h fun _ k => attCtrlEff_keeps k)
  | capsuleCheck | capsuleMake => exact .intro (regWrite_keeps (advance_keeps h) fun _ k => capGoEff_keeps k)
  | channelUnblock | clockGateWake => exact .intro (.fields.2 h)
  | relayOpen => exact execRelayOpen_nextKeeps h
  | relayManifestBlock => exact execRelayManifestBlock_nextKeeps h
  | slotPrepared => exact execSlotPrepared_nextKeeps h
  | relayTransportBlock => exact execRelayTransportBlock_nextKeeps h
  | blockProgrammed => exact execBlockProgrammed_nextKeeps h
  | relayAck => exact execRelayAck_nextKeeps h
  | ackTimer => exact execAckTimer_nextKeeps h
  | relayNoProgress => exact execRelayNoProgress_nextKeeps h
  | relayClose => exact execRelayClose_nextKeeps h
  | relayAbort => exact execRelayAbort_nextKeeps h
  | slotComplete => exact execSlotComplete_nextKeeps h
  | updateStatus => exact execUpdateStatus_nextKeeps h
  | updateTrial => exact execUpdateTrial_nextKeeps h
  | updateConfirm => exact execUpdateConfirm_nextKeeps h
  | updateReject => exact execUpdateReject_nextKeeps h
  | updateAbort => exact execUpdateAbort_nextKeeps h
  | setWrite => exact execSetWrite_nextKeeps h
  | setRead => exact execSetRead_nextKeeps h
  | serviceRequest => exact execServiceRequest_nextKeeps h
  | loaderStart => exact execLoaderStart_nextKeeps h
  | baseInstall => exact execBaseInstall_nextKeeps h
  | slotChoose => exact .intro (.ite (slotPick_keeps (each_keeps h (fun _ _ k => .ite (slotCompleted_keeps k) k))) h)
  | keysDerive => exact execKeysDerive_nextKeeps h
  | xoStable =>
    exact .intro (.ite (set_keeps (set_keeps (set_keeps (set_keeps (advance_keeps h))))) (advance_keeps h))
  | xoStartTimeout => exact .intro (.ite (err_keeps (onRco_keeps (advance_keeps h))) (advance_keeps h))
  | xo32Stable => exact .intro (.ite (set_keeps (advance_keeps h)) (advance_keeps h))
  | rcTimingMark => exact .intro (.ite (.fields.2 (advance_keeps h)) (advance_keeps h))
  | supervisionWindow => exact execSupervisionWindow_nextKeeps h
  | pllLockLoss => exact .intro (.ite (pllFault_keeps (irq_keeps (cnt_keeps (advance_keeps h)))) (advance_keeps h))
  | crossingReset =>
    exact .intro (.ite h (each_keeps (.fields.2 h) (fun _ _ k => .ite (refuse_keeps k) (regionRefuse_keeps k))))
  | crossingRehandshake => exact execCrossingRehandshake_nextKeeps h
  | clockGateIdle => exact .intro (.ite (.fields.2 h) h)
  | pwrDomFollow | pwrDomWakeOn | pwrDomOff => exact .intro (regWrite_keeps h fun _ k => pwrDomEff_keeps k)
  | domainOffDone => exact execDomainOffDone_nextKeeps h
  | domainOnDone => exact execDomainOnDone_nextKeeps h
  | vfsReq => exact .intro (regWrite_keeps h fun _ k => vfsReqEff_keeps k)
  | vfsStepDone => exact execVfsStepDone_nextKeeps h
  | vfsRailFail => exact execVfsRailFail_nextKeeps h
  | vfsClrFail => exact .intro (regWrite_keeps h fun _ k => vfsCtrlEff_keeps k)
  | vfsCeilingChange =>
    exact .intro (.ite h (.ite (.ite (set_keeps (setDivider_keeps h)) h) (vfsPlan_keeps (.ite (set_keeps h) h))))
  | clkAcDivWrite => exact .intro (regWrite_keeps h fun _ k => clkAcDivEff_keeps k)
  | rstReqCompute | rstReqCluster | rstReqRp | rstReqDie =>
    exact .intro (regWrite_keeps h fun _ k => rstReqEff_keeps k)
  | watchdogEnable => exact .intro (regWrite_keeps h fun _ k => rstWdgEff_keeps k)
  | watchdogKick => exact .intro (regWrite_keeps h fun _ k => rstKickEff_keeps k)
  | watchdogWarn | escalationWarn => exact .intro (.ite (irq_keeps (advance_keeps h)) (advance_keeps h))
  | watchdogExpiry => exact .intro (.ite (wdgExpires_keeps (advance_keeps h)) (advance_keeps h))
  | computeDieReset => exact .intro (.ite (computeReset_keeps (advance_keeps h)) (advance_keeps h))
  | computeDieRelease => exact execComputeDieRelease_nextKeeps h
  | alwaysOnReset => exact execAlwaysOnReset_nextKeeps h
  | powerOn => exact .intro (.ite (startWake_keeps (advance_keeps h)) (advance_keeps h))
  | realtimeRelease =>
    exact .intro (.ite (lateShown_keeps (setMode_keeps (.fieldsUp.2 (each_keeps (advance_keeps h) (fun _ _ k =>
        setBytes_keeps k))))) (advance_keeps h))
  | clusterRelease => exact execClusterRelease_nextKeeps h
  | slpModeReqRun | slpModeReqPartial => exact .intro (regWrite_keeps h fun _ k => slpModeReqEff_keeps k)
  | degCauseChange => exact .intro (.ite (degEval_keeps h) h)
  | serviceLimitExpiry => exact .intro (.ite (leaveService_keeps (err_keeps (advance_keeps h))) (advance_keeps h))
  | slpVoteIn => exact .intro (regWrite_keeps h fun _ k => slpVoteEff_keeps k)
  | voteTimeout => exact .intro (.ite (sleepCheck_keeps (set_keeps (advance_keeps h))) (advance_keeps h))
  | ownSleepWrite | shdnReq | shdnAck | commOk => exact .intro (regWrite_keeps h fun _ k => slpCtrlEff_keeps k)
  | prepExpiry => exact .intro (.ite (enterShutdown_keeps (advance_keeps h)) (advance_keeps h))
  | shdnTimeout => exact .intro (.ite (noReturn_keeps (err_keeps (advance_keeps h))) (advance_keeps h))
  | shutdownSelfTest => exact execShutdownSelfTest_nextKeeps h
  | selfTestDone => exact .intro (.ite (recordRun_keeps (.fields.2 (set_keeps (advance_keeps h)))) (advance_keeps h))
  | computeRailsCut => exact .intro (.ite (enterStandby_keeps (advance_keeps h)) (advance_keeps h))
  | wakeLWake =>
    exact .intro (.ite (advance_keeps h) (.ite (wakeIn_keeps (.fields.2 (advance_keeps h))) (.fields.2 (advance_keeps
        h))))
  | canWakePattern => exact .intro (.ite (wakeIn_keeps (advance_keeps h)) (advance_keeps h))
  | wakeLPulse => exact .intro (regWrite_keeps h fun _ k => slpWakeEff_keeps k)
  | wakeLPulseEnd =>
    exact .intro (.ite (sleepCheck_keeps (emit_keeps (.fields.2 (advance_keeps h)))) (advance_keeps h))
  | wakeLStuck =>
    exact .intro (.ite (advance_keeps h) (.ite (err_keeps (irq_keeps (set_keeps (.fields.2 (advance_keeps h)))))
        (.fields.2 (advance_keeps h))))
  | maxAwakeExpiry => exact execMaxAwakeExpiry_nextKeeps h
  | falseWakeWindowEnd => exact execFalseWakeWindowEnd_nextKeeps h
  | falseWakeHoldEnd => exact .intro (.ite (fwkSet_keeps (set_keeps (advance_keeps h))) (advance_keeps h))
  | slpCntClr => exact .intro (regWrite_keeps h fun _ k => slpCntClrEff_keeps k)
  | faultCodePost => exact execFaultCodePost_nextKeeps h
  | logTakeRead => exact .intro (regRead_keeps h fun _ k => logTakeEff_keeps k)
  | logClr => exact .intro (regWrite_keeps h fun _ k => logCtrlEff_keeps k)
  | fagDone => exact .intro (regWrite_keeps h fun _ k => fagDoneEff_keeps k)
  | fagCntClr => exact .intro (regWrite_keeps h fun _ k => fagCntClrEff_keeps k)
  | escalation => exact .intro (.ite (computeReset_keeps (holdCode_keeps (advance_keeps h))) (advance_keeps h))
  | pathTest => exact .intro (.ite (pathRound_keeps (advance_keeps h)) (advance_keeps h))
  | powerDieLogicDiffer => exact execPowerDieLogicDiffer_nextKeeps h
  | plausibilityFail => exact .intro (.ite (err_keeps (advance_keeps h)) (advance_keeps h))
  | repairLogLoad => exact execRepairLogLoad_nextKeeps h
  | honingPlan => exact execHoningPlan_nextKeeps h
  | honPlanNow => exact .intro (regWrite_keeps h fun _ k => honCtrlEff_keeps k)
  | honingPeriod => exact .intro (.ite (planDue_keeps (advance_keeps h)) (advance_keeps h))
  | honingSample => exact execHoningSample_nextKeeps h
  | temperatureCeiling =>
    exact .intro (.ite (advance_keeps h) (ceilings_keeps (set_keeps (seti_keeps (.fields.2 (advance_keeps h))))))
  | wettingPulseStart => exact .intro (.ite (modDin_keeps h) h)
  | wettingPulseEnd => exact .intro (modDin_keeps h)
  | comparatorTransition => exact .intro (.ite (advance_keeps h) (modDin_keeps (advance_keeps h)))
  | selLandChange => exact .intro (.ite (emit_keeps (.fields.2 h)) (.fields.2 h))
  | txdDominantTimeout => exact .intro (.ite (emit_keeps h) h)
  | canIntegrationDone => exact .intro (.ite (set_keeps (canMod_keeps h)) h)
  | announceReceive => exact .intro (.ite (showGm_keeps (.fieldsTb.2 h)) h)
  | preemptionVerifyResponse => exact .intro (.ite (set_keeps h) h)
  | aliveTimeout => exact .intro (.ite (.fields.2 (err_keeps (advance_keeps h))) (advance_keeps h))
  | wakeLHigh => exact .intro (sleepCheck_keeps (set_keeps (.fields.2 (advance_keeps h))))
  | channelRecordsWritten =>
    exact .intro (.ite (.ite (noReturn_keeps (.fields.2 (chansExact_keeps h))) (.fields.2 (chansExact_keeps h))) h)
  | cryGo => exact .intro (regWrite_keeps h fun _ k => cryCtrlEff_keeps k)
  | cryJobDone => exact execCryJobDone_nextKeeps h

/-- A step answers a next state whose queue has lost its first command (spec/02 R36); with no command, time goes on. -/
theorem step_pending (s : State) : ∃ t, step s = .next t ∧ t.pending = s.pending.tail := by
  unfold step
  split
  case h_1 empty =>
    have time := advance_keeps (n := 1) (Keeps.refl s)
    exact ⟨_, rfl, by rw [time.pending, empty, List.tail_nil]⟩
  case h_2 c rest queued =>
    obtain ⟨t, next, kept⟩ := exec_keeps c { s with pending := rest }
    exact ⟨t, next, by rw [kept.pending, queued, List.tail_cons]⟩

end

/-- Settles O50, by induction on the number of steps: each step serves the first command of the queue. -/
theorem queueIsServedInOrder : Obligations.QueueIsServedInOrder := by
  intro n
  induction n with
  | zero => exact fun s => ⟨s, rfl, rfl⟩
  | succ n ih =>
    intro s
    obtain ⟨t, next, popped⟩ := step_pending s
    obtain ⟨u, run, served⟩ := ih t
    refine ⟨u, ?_, ?_⟩
    · simpa only [steps, next] using run
    · rw [served, popped, List.drop_tail]

end Sys2Proof.Machine

/-!
## Error records (spec/02 R45, R57)

What `State.capture` and `State.err` leave on the page that detects an error: the first code and its address, the count,
and INT_RAW.ERR.
-/

section

namespace Sys2Proof.Machine

variable {s : State} {p : Nat}

/-- Registers at different offsets of a page are different registers. -/
theorem offset_ne {x y : Nat} (h : x ≠ y) : p + x ≠ p + y :=
  fun same => h (Nat.add_left_cancel same)

/-! ### What a captured error leaves on its page -/

theorem State.capture_first {code loc : Nat} (h : s.RegsOk) (first : s.get p ERR_CAP_COUNT = 0) :
    s.capture p code loc = (((s.set p ERR_CAP_CODE code).wrn p ERR_ADDR loc).set p ERR_CAP_COUNT 1).irq p 31 := by
  unfold State.capture
  dsimp only
  rw [if_pos first, State.get_wrn_other (State.regsOk_set h) (offset_ne (by decide)),
    State.get_set_beside p ERR_CAP_CODE ERR_CAP_COUNT _ h rfl (by decide) (by decide), first]
  rfl

theorem State.capture_again {code loc : Nat} (again : s.get p ERR_CAP_COUNT ≠ 0) :
    s.capture p code loc = (s.set p ERR_CAP_COUNT (satAdd 8 (s.get p ERR_CAP_COUNT) 1)).irq p 31 := by
  unfold State.capture
  rw [if_neg again]

/-- An error that is captured sets INT_RAW.ERR. -/
theorem State.irq_capture {code loc : Nat} (h : s.RegsOk) : (s.capture p code loc).Irq p 31 := by
  by_cases first : s.get p ERR_CAP_COUNT = 0
  · rw [State.capture_first h first]
    exact State.irq_on p 31 (State.regsOk_set (State.regsOk_wrn (State.regsOk_set h))) (by decide)
  · rw [State.capture_again first]
    exact State.irq_on p 31 (State.regsOk_set h) (by decide)

theorem State.get_capture_count {code loc : Nat} (h : s.RegsOk) :
    (s.capture p code loc).get p ERR_CAP_COUNT = min 255 (s.get p ERR_CAP_COUNT + 1) := by
  by_cases first : s.get p ERR_CAP_COUNT = 0
  · have h' : ((s.set p ERR_CAP_CODE code).wrn p ERR_ADDR loc).RegsOk := State.regsOk_wrn (State.regsOk_set h)
    rw [State.capture_first h first, State.get_irq_other (State.regsOk_set h') (offset_ne (by decide)),
      State.get_set_same _ _ _ h' (by decide), first]
    rfl
  · rw [State.capture_again first, State.get_irq_other (State.regsOk_set h) (offset_ne (by decide)),
      State.get_set_same _ _ _ h (by decide)]
    show satAdd 8 (s.get p ERR_CAP_COUNT) 1 % 2 ^ 8 = min 255 (s.get p ERR_CAP_COUNT + 1)
    unfold satAdd
    omega

theorem State.get_capture_code_first {code loc : Nat} (h : s.RegsOk) (first : s.get p ERR_CAP_COUNT = 0) :
    (s.capture p code loc).get p ERR_CAP_CODE = code % 2 ^ 16 := by
  have h1 : (s.set p ERR_CAP_CODE code).RegsOk := State.regsOk_set h
  have h2 : ((s.set p ERR_CAP_CODE code).wrn p ERR_ADDR loc).RegsOk := State.regsOk_wrn h1
  rw [State.capture_first h first, State.get_irq_other (State.regsOk_set h2) (offset_ne (by decide)),
    State.get_set_beside p ERR_CAP_COUNT ERR_CAP_CODE _ h2 rfl (by decide) (by decide),
    State.get_wrn_other h1 (offset_ne (by decide)), State.get_set_same _ _ _ h (by decide)]

theorem State.rd_capture_addr_first {code loc : Nat} (h : s.RegsOk) (first : s.get p ERR_CAP_COUNT = 0) :
    (s.capture p code loc).rd p ERR_ADDR = BitVec.ofNat 32 loc := by
  have h1 : (s.set p ERR_CAP_CODE code).RegsOk := State.regsOk_set h
  have h2 : ((s.set p ERR_CAP_CODE code).wrn p ERR_ADDR loc).RegsOk := State.regsOk_wrn h1
  rw [State.capture_first h first, State.rd_irq_other (State.regsOk_set h2) (offset_ne (by decide)),
    State.rd_set_other _ _ _ _ _ h2 (offset_ne (by decide)), State.rd_wrn_same _ _ _ h1]

theorem State.get_capture_code_again {code loc : Nat} (h : s.RegsOk) (again : s.get p ERR_CAP_COUNT ≠ 0) :
    (s.capture p code loc).get p ERR_CAP_CODE = s.get p ERR_CAP_CODE := by
  rw [State.capture_again again, State.get_irq_other (State.regsOk_set h) (offset_ne (by decide)),
    State.get_set_beside p ERR_CAP_COUNT ERR_CAP_CODE _ h rfl (by decide) (by decide)]

theorem State.rd_capture_addr_again {code loc : Nat} (h : s.RegsOk) (again : s.get p ERR_CAP_COUNT ≠ 0) :
    (s.capture p code loc).rd p ERR_ADDR = s.rd p ERR_ADDR := by
  rw [State.capture_again again, State.rd_irq_other (State.regsOk_set h) (offset_ne (by decide)),
    State.rd_set_other _ _ _ _ _ h (offset_ne (by decide))]

/-- Outside a parting an error is posted and captured (R45, R410). -/
theorem State.err_eq_capture {code loc : Nat} {j : Bool} (k : s.on p PART_BUSY = false) :
    s.err p code loc j = (s.post p code loc j).capture p code loc := by
  unfold State.err
  rw [k]
  rfl

/-- Of the fields besides registers and answer, an error of a page that is not behind a die bridge writes the
posted codes only. -/
theorem State.rest_err_posted {code loc : Nat} {j : Bool} (k : bridgeDie (tyOf p) = none) :
    (s.err p code loc j).rest = ({ s with posts := (s.err p code loc j).posts } : State).rest := by
  rw [State.rest_err, State.rest_post _ k, State.err_posts k]

/-! ### The error record of an access to no page and no region -/

theorem bridgeDie_sys : bridgeDie (tyOf pSYS) = none := by decide

theorem execAccessUnmapped_eq (a : Access) {addr : Nat} (up : s.up.compute = true) (nopage : pageOf addr = none)
    (noregion : regionOf addr = .none) : execAccessUnmapped a addr s = .next (s.unmapped addr) := by
  unfold execAccessUnmapped
  simp only [up, nopage, noregion]
  rfl

/-- Outside a parting of the SYS page, the record of such an access is captured there with code 0x0004. -/
theorem State.unmapped_eq {addr : Nat} (k : s.on pSYS PART_BUSY = false) :
    s.unmapped addr =
      (((s.post pSYS 4 (addr % 2 ^ 32)).capture pSYS 4 (addr % 2 ^ 32)).cnt pSYS SYS_CNT_UNMAP_V).refused := by
  unfold State.unmapped State.errCause
  rw [State.err_eq_capture k]
  rfl

theorem State.frame_unmapped {addr : Nat} (h : s.RegsOk) :
    Frame (Offs pSYS (SYS_CNT_UNMAP :: errRegs)) { s with posts := (s.unmapped addr).posts } s (s.unmapped addr) := by
  have framed : Framed (Offs pSYS (SYS_CNT_UNMAP :: errRegs)) s
      ((s.errCause pSYS 4 addr).cnt pSYS SYS_CNT_UNMAP_V) :=
    .cnt (.err (.refl h) bridgeDie_sys (by decide) (by decide) (by decide)) (by decide)
  refine ⟨(framed.of_eq rfl).regs, ?_⟩
  have posts : (s.unmapped addr).posts = (s.errCause pSYS 4 addr).posts := State.cnt_posts ..
  rw [posts]
  exact (State.rest_cnt ..).trans (State.rest_err_posted bridgeDie_sys)

end Sys2Proof.Machine

end

section

namespace Sys2Proof.Machine

/-- Settles O58: outside a parting the SYS page captures code 0x0004 with the address, and counts the access. -/
theorem unmappedAccessIsRecorded : Obligations.UnmappedAccessIsRecorded := by
  intro s a addr canonical up nopage noregion parting
  have h := canonical.regsOk
  have h' : (s.post pSYS 4 (addr % 2 ^ 32)).RegsOk := State.regsOk_post h
  have hc : ((s.post pSYS 4 (addr % 2 ^ 32)).capture pSYS 4 (addr % 2 ^ 32)).RegsOk := State.regsOk_capture h'
  have count : (s.post pSYS 4 (addr % 2 ^ 32)).get pSYS ERR_CAP_COUNT = s.get pSYS ERR_CAP_COUNT :=
    State.get_post bridgeDie_sys
  refine ⟨s.unmapped addr, execAccessUnmapped_eq a up nopage noregion, rfl, ?_, ?_, ?_, ?_, State.frame_unmapped h⟩
  · rw [State.unmapped_eq parting]
    exact (State.on_cnt_other hc (by decide)).trans (State.irq_capture h')
  · rw [State.unmapped_eq parting, ← count, ← State.get_capture_count h']
    exact State.get_cnt_other hc (by decide)
  · intro first
    rw [State.unmapped_eq parting]
    constructor
    · exact (State.get_cnt_other hc (by decide)).trans (State.get_capture_code_first h' (count.trans first))
    · refine (congrArg BitVec.toNat (State.rd_cnt_other hc (by decide))).trans ?_
      rw [State.rd_capture_addr_first h' (count.trans first), BitVec.toNat_ofNat, Nat.mod_mod]
  · intro again
    rw [← count] at again
    rw [State.unmapped_eq parting]
    constructor
    · refine (State.get_cnt_other hc (by decide)).trans ?_
      rw [State.get_capture_code_again h' again, State.get_post bridgeDie_sys]
    · refine (State.rd_cnt_other hc (by decide)).trans ?_
      rw [State.rd_capture_addr_again h' again, State.rd_post bridgeDie_sys]

end Sys2Proof.Machine

end

/-!
## Refused accesses (spec/02 R39, R45, R50, R61, R62; spec/10 R308, R310)

An access without ownership has a cause for refusal, and a refusal leaves nothing but error records and posted codes. What
happens to codes and records on the way is said for every page once, behind a die bridge or not.
-/

section

namespace Sys2Proof.Machine

/-! ### Ownership -/

theorem ownerAllows_iff (lv : Level) (world vm : Nat) : ownerAllows lv world vm = true ↔
    lv = .monitor ∨ (lv = .secure ∧ world = 0) ∨ (lv = .hypervisor ∧ (world = 1 ∨ world = 2)) ∨
      ∃ v, lv = .vm v ∧ world = 2 ∧ vm = v.val := by
  cases lv <;> simp [ownerAllows]

/-- An access by the owner that the other rules allow is not refused; of writes, OWNER, PART_REQ and ERR_INJ are the
monitor's, and R50 keeps the clock and power control of a secure-owned block. -/
theorem State.accessCause_none {s : State} {a : Access} {p off : Nat} {write : Bool}
    (owns : s.owns (s.levelOf a) p = true) (size : a.size = 4) (aligned : off % 4 = 0) (area : off < 0xF00)
    (present : s.absent p = false) (up : s.pageUp p = true) (ready : s.ready p = true) (parting : s.on p PART_BUSY = false)
    (fields : (fieldsOf (tyOf p) off).isSome = true) (reg : hasReg p off = true)
    (free : write = true → off ∉ [OWNER, PART_REQ, ERR_INJ] ∧ s.secureEntry p off = false) :
    s.accessCause a p off write = none := by
  have fields' : (fieldsOf (tyOf p) off).isNone = false := by simpa using fields
  have area' : decide (0xF00 ≤ off) = false := by simpa using area
  have misfit : ¬(a.size ≠ 4 ∨ off % 4 ≠ 0) := by simp [size, aligned]
  have mine : (write && (off == OWNER || off == PART_REQ || off == ERR_INJ)) = false := by
    cases write with
    | false => rfl
    | true => simpa [and_assoc] using (free rfl).1
  have kept : (write && (lvWorld (s.levelOf a) != 0) && s.secureEntry p off) = false := by
    cases write with
    | false => rfl
    | true => simp only [(free rfl).2, Bool.and_false]
  unfold State.accessCause
  simp only [present, up, misfit, kept, area', mine, owns, ready, parting, fields', reg, if_false, Bool.false_eq_true,
    Bool.not_true, Bool.and_false, Bool.false_and, Bool.or_self]

/-- A cause that comes later in the order is found, or one before it. -/
theorem exists_some_of_ite {b : Prop} [Decidable b] {c : Nat} {later : Option Nat} (h : ∃ d, later = some d) :
    ∃ d, (if b then some c else later) = some d := by
  split
  · exact ⟨c, rfl⟩
  · exact h

/-- Beyond BLK_ID and BLK_CAP an access without ownership has a cause for refusal. -/
theorem State.accessCause_some {s : State} {a : Access} {p off : Nat} (write : Bool)
    (owns : s.owns (s.levelOf a) p = false) (beyond : 8 ≤ off) : ∃ c, s.accessCause a p off write = some c := by
  unfold State.accessCause
  iterate 6 apply exists_some_of_ite
  have unowned : (!s.owns (s.levelOf a) p && !(decide (off < 0x008) && !write)) = true := by
    simp [owns, Nat.not_lt.mpr beyond]
  rw [if_pos unowned]
  exact ⟨_, rfl⟩

/-! ### What a refusal leaves -/

/-- The registers that a refused access to page p may write: error records of the page and of those that keep its record, the
count of codes that a power die has lost, and the counts of R50. -/
abbrev RefusalRegs (p : Nat) : Nat → Prop := fun x =>
  (∃ q ∈ [p, pSYS, pDBR 0, pDBR 1], x ∈ errRegs.map (q + ·)) ∨
    x ∈ [pPDC 0 + PDC_QOVF, pPDC 1 + PDC_QOVF, pPWR + PWR_CNT_SECREF, pCLK + CLK_CNT_SECREF]

/-- From s to t, of the fields besides registers and answer, only posted codes and the queues of the dies change. -/
def OnlyPosted (s t : State) : Prop := t.rest = ({ s with posts := t.posts, dies := t.dies } : State).rest

namespace OnlyPosted

variable {s t u : State}

theorem refl : OnlyPosted s s := rfl

theorem of_rest (h : OnlyPosted s t) (e : u.rest = t.rest) : OnlyPosted s u := by
  have posts : u.rest.posts = t.rest.posts := congrArg State.posts e
  have dies : u.rest.dies = t.rest.dies := congrArg State.dies e
  unfold OnlyPosted
  rw [e, show u.posts = t.posts from posts, show u.dies = t.dies from dies]
  exact h

theorem posted {x : List Post} (h : OnlyPosted s t) : OnlyPosted s { t with posts := x } := by
  have same := congrArg (fun w : State => { w with posts := x }) (show t.rest = _ from h)
  exact same

theorem queued {x : List DieState} (h : OnlyPosted s t) : OnlyPosted s { t with dies := x } := by
  have same := congrArg (fun w : State => { w with dies := x }) (show t.rest = _ from h)
  exact same

theorem post {p code loc : Nat} {j : Bool} (h : OnlyPosted s t) : OnlyPosted s (t.post p code loc j) := by
  unfold State.post
  dsimp only
  split
  · exact h.posted
  · split
    · exact h.posted
    · split
      · exact h.queued
      · exact h.of_rest (State.rest_cnt ..)

theorem err {p code loc : Nat} {j : Bool} (h : OnlyPosted s t) : OnlyPosted s (t.err p code loc j) :=
  h.post.of_rest (State.rest_err ..)

theorem refuse {p off c : Nat} (h : OnlyPosted s t) : OnlyPosted s (t.refuse p off c) := by
  have recorded : OnlyPosted s (t.errCause (t.recordPage p c) c (p + off)) := h.err
  refine recorded.of_rest ?_
  unfold State.refuse
  dsimp only
  rw [State.rest_refused]
  split
  · split
    · exact State.rest_cnt ..
    · exact State.rest_cnt ..
  · rfl

end OnlyPosted

theorem bridgeDie_lt_two {ty d : Nat} (h : bridgeDie ty = some d) : d < 2 := by
  unfold bridgeDie at h
  grind

/-- The page that keeps the record of a refused access is the page itself, the SYS page or a die-bridge page. -/
theorem State.recordPage_mem (s : State) (p c : Nat) : s.recordPage p c ∈ [p, pSYS, pDBR 0, pDBR 1] := by
  unfold State.recordPage
  split
  · simp
  · split
    · split
      · next d behind =>
        have : d = 0 ∨ d = 1 := by have := bridgeDie_lt_two behind; omega
        split
        · simp
        · rcases this with rfl | rfl <;> simp
      · simp
    · simp

namespace Framed

variable {m : Nat → Prop} {s t : State}

/-- An error of any page, behind a die bridge or not. -/
theorem errAny {p code loc : Nat} {j : Bool} (h : Framed m s t) (record : ∀ x ∈ errRegs, m (p + x))
    (lost : ∀ d < 2, m (pPDC d + PDC_QOVF)) : Framed m s (t.err p code loc j) := by
  have posted : Framed m s (t.post p code loc j) := by
    cases behind : bridgeDie (tyOf p) with
    | none => exact h.post behind
    | some d => exact h.postDie behind (lost d (bridgeDie_lt_two behind))
  exact .ite posted (posted.capture (record _ (by decide)) (record _ (by decide)) (record _ (by decide)))

theorem refuse {p off c : Nat} (h : Framed m s t) (k : ∀ x, RefusalRegs p x → m x) : Framed m s (t.refuse p off c) := by
  have recorded : Framed m s (t.errCause (t.recordPage p c) c (p + off)) := by
    refine h.errAny (fun x hx => k _ (.inl ⟨_, t.recordPage_mem p c, List.mem_map_of_mem hx⟩)) fun d hd => ?_
    have : d = 0 ∨ d = 1 := by omega
    rcases this with rfl | rfl <;> exact k _ (.inr (by decide))
  have counted := Framed.ite (c := c = 0x07) (Framed.ite (c := p = pPWR)
    (recorded.cnt (p := pPWR) (d := 1) (f := PWR_CNT_SECREF_CNT) (k _ (.inr (by decide))))
    (recorded.cnt (p := pCLK) (d := 1) (f := CLK_CNT_SECREF_CNT) (k _ (.inr (by decide))))) recorded
  exact counted.of_eq rfl

end Framed

/-- A refused access leaves nothing but error records, counts and posted codes. -/
theorem State.frame_refuse {s : State} {p off c : Nat} (h : s.RegsOk) :
    Frame (RefusalRegs p) { s with posts := (s.refuse p off c).posts, dies := (s.refuse p off c).dies } s
      (s.refuse p off c) :=
  ⟨((Framed.refl h).refuse fun _ k => k).regs, OnlyPosted.refl.refuse⟩

/-! ### A posted write that is refused -/

theorem State.postedTo_lt_two {s : State} {p addr d : Nat} (h : s.postedTo p addr = some d) : d < 2 := by
  unfold State.postedTo at h
  split at h
  · next behind =>
    split at h
    · cases h; exact bridgeDie_lt_two behind
    · cases h
  · cases h

theorem State.refuseWrite_posted {s : State} {p off c d : Nat} (h : s.postedTo p (p + off) = some d) :
    s.refuseWrite p off c = ((((s.refuse p off c).postedError d c (p + off)).irq (pBR d) INT_BR_PERR).brErr d 0x0232
      0x7219 (p + off)).ok := by
  simp only [State.refuseWrite, h]

theorem State.rest_postedError (s : State) (b status addr : Nat) : (s.postedError b status addr).rest = s.rest := by
  unfold State.postedError
  dsimp only
  rw [State.rest_cnt]
  split <;> rfl

theorem Framed.postedError {m : Nat → Prop} {s t : State} {b status addr : Nat} (h : Framed m s t)
    (k : ∀ x ∈ [BR_CNT_PERR, BR_PERR_ADDR, BR_PERR_INFO], m (pBR b + x)) : Framed m s (t.postedError b status addr) := by
  have info : m (pBR b + BR_PERR_INFO) := k _ (by decide)
  refine .cnt (.ite (.set (.set (.wrn h ?_) info) info) h) ?_
  · exact k _ (by decide)
  · exact k _ (by decide)

/-- The notice of a posted write stands on the bridge page: its interrupt, and nothing but error records beside it. -/
theorem State.refuseWrite_notice {s : State} {p off c d : Nat} (h : s.RegsOk) (posted : s.postedTo p (p + off) = some d) :
    (s.refuseWrite p off c).Irq (pBR d) INT_BR_PERR ∧
      Frame (fun x => x ∈ [BR_CNT_PERR, BR_PERR_ADDR, BR_PERR_INFO].map (pBR d + ·) ∨ RefusalRegs p x)
        { s with posts := (s.refuseWrite p off c).posts, dies := (s.refuseWrite p off c).dies } s
        (s.refuseWrite p off c) := by
  have die : d = 0 ∨ d = 1 := by have := postedTo_lt_two posted; omega
  have direct : bridgeDie (tyOf (pBR d)) = none := by rcases die with rfl | rfl <;> decide
  have records : ∀ x ∈ errRegs, RefusalRegs p (pBR d + x) := by
    intro x hx
    refine .inl ⟨pBR d, ?_, List.mem_map_of_mem hx⟩
    rcases die with rfl | rfl <;> simp [pBR]
  rw [State.refuseWrite_posted posted]
  have noticed : Framed (fun x => x ∈ [BR_CNT_PERR, BR_PERR_ADDR, BR_PERR_INFO].map (pBR d + ·) ∨ RefusalRegs p x) s
      ((s.refuse p off c).postedError d c (p + off)) :=
    .postedError ((Framed.refl h).refuse fun _ k => .inr k) fun x hx => .inl (List.mem_map_of_mem hx)
  have raised := noticed.irq (p := pBR d) (b := INT_BR_PERR) (.inr (records _ (by decide)))
  have framed := raised.err (code := if d < 2 then 0x0232 else 0x7219) (loc := p + off) (j := false) direct
    (.inr (records _ (by decide))) (.inr (records _ (by decide))) (.inr (records _ (by decide)))
  refine ⟨?_, framed.regs, ?_⟩
  · exact State.on_err_kept raised.ok (by decide) direct (State.irq_on _ _ noticed.ok (by decide))
  · have rest : OnlyPosted s (((s.refuse p off c).postedError d c (p + off)).irq (pBR d) INT_BR_PERR) :=
      (OnlyPosted.refl.refuse).of_rest (State.rest_postedError ..)
    exact rest.err

/-! ### The commands that reach a page -/

theorem pageBase_add_pageOff (addr : Nat) : pageBase addr + pageOff addr = addr := by
  unfold pageBase pageOff
  omega

/-- A cause for refusal refuses a write, whatever the register's own rule. -/
theorem State.writeReg_refused {s : State} {a : Access} {p off c : Nat} {v : Word} (up : s.up.compute = true)
    (cause : s.accessCause a p off true = some c) : s.writeReg a p off v = s.refuseWrite p off c := by
  unfold State.writeReg
  split
  · next part =>
    subst part
    unfold State.partWrite
    split
    · simp only [up, cause, Bool.not_true, Bool.false_eq_true, if_false]
    · exact State.regWrite_refused up cause
  · exact State.regWrite_refused up cause

theorem execRegisterWrite_page {s : State} {a : Access} {addr : Nat} {v : Word} (up : s.up.compute = true)
    (page : (pageOf addr).isSome = true) :
    execRegisterWrite a (.page addr v) s = .next (s.writeReg a (pageBase addr) (pageOff addr) v) := by
  simp only [execRegisterWrite, up, page, Bool.not_true, Bool.false_eq_true, if_false, if_true]

/-- A read that reaches a page is a read of the page's register. -/
theorem State.memAccess_read {s : State} {a : Access} {addr : Nat} {data : List Nat} (up : s.up.compute = true)
    (nonempty : data ≠ []) (reach : s.reach a .read addr = (s, some addr)) (page : (pageOf addr).isSome = true) :
    s.memAccess a .read addr data = s.fetchReg { a with size := data.length } (pageBase addr) (pageOff addr) := by
  have full : data.isEmpty = false := by simpa using nonempty
  unfold State.memAccess
  simp only [up, full, reach, Bool.not_true, Bool.or_false, Bool.false_eq_true, if_false]
  unfold State.accessAt
  rw [if_pos page]
  rfl

theorem State.fetchReg_refused {s : State} {a : Access} {p off c : Nat} (up : s.up.compute = true)
    (cause : s.accessCause a p off false = some c) : s.fetchReg a p off = s.refuse p off c := by
  simp only [State.fetchReg, State.regRead, up, cause, Bool.not_true, Bool.false_eq_true, if_false]

end Sys2Proof.Machine

end

section

namespace Sys2Proof.Machine

/-- Settles O57: an access without ownership has a cause, and its refusal leaves error records and posted codes only. -/
theorem ownershipDecidesAccess : Obligations.OwnershipDecidesAccess := by
  refine ⟨fun s lv p => ownerAllows_iff lv _ _, ?_, ?_⟩
  · intro s a p off owns size aligned _ area present up ready parting fields reg
    exact ⟨State.accessCause_none owns size aligned area present up ready parting fields reg (by simp),
      fun plain entry => State.accessCause_none owns size aligned area present up ready parting fields reg
        fun _ => ⟨plain, entry⟩⟩
  · intro s a addr canonical up page beyond unowned
    have h := canonical.regsOk
    have whole := pageBase_add_pageOff addr
    obtain ⟨c, cause⟩ := State.accessCause_some true unowned beyond
    have write (v : Word) : execRegisterWrite a (.page addr v) s =
        .next (s.refuseWrite (pageBase addr) (pageOff addr) c) := by
      rw [execRegisterWrite_page up page, State.writeReg_refused up cause]
    refine ⟨fun v direct => ?_, fun v d posted => ?_, fun data nonempty reach => ?_⟩
    · rw [← whole] at direct
      refine ⟨_, write v, ?_⟩
      rw [State.refuseWrite_off_bridge (by rw [whole] at direct ⊢; exact direct)]
      exact ⟨State.refuse_resp .., State.frame_refuse h⟩
    · have posted' : s.postedTo (pageBase addr) (pageBase addr + pageOff addr) = some d := by rw [whole]; exact posted
      obtain ⟨irq, frame⟩ := State.refuseWrite_notice (c := c) h posted'
      exact ⟨_, write v, by rw [State.refuseWrite_posted posted']; rfl, irq, frame⟩
    · obtain ⟨r, refusal⟩ := State.accessCause_some (a := { a with size := data.length }) false unowned beyond
      refine ⟨s.refuse (pageBase addr) (pageOff addr) r, ?_, State.refuse_resp .., State.frame_refuse h⟩
      show execMemoryRegionAccess a .read addr data s = _
      rw [execMemoryRegionAccess, State.memAccess_read up nonempty reach page, State.fetchReg_refused up refusal]

end Sys2Proof.Machine

end

/-!
## The common header (spec/02 R40-R48)

What an accepted write of a header register does, register by register.
-/

section

namespace Sys2Proof.Machine

variable {s : State} {p : Nat} {v : Word}

/-- An accepted write of a header register but PART_REQ does what the header's own rule says. -/
theorem State.writeReg_header {a : Access} {off : Nat} (h : s.Accepts a p off v) (header : off < 0x040)
    (hp : off ≠ PART_REQ) (k : (headerHook p off v).pre s = none) :
    s.writeReg a p off v = (headerHook p off v).eff s.ok := by
  have rule : regHook a p off v = headerHook p off v := if_pos header
  rw [State.writeReg_accepted h hp (by rw [rule]; exact k), rule]

/-! ### Plain writes of single bits -/

theorem bitsOf_one_ne_zero (v : Word) (k : Nat) : (bitsOf v.toNat k 1 != 0) = v.getLsbD k := by
  simp [bitsOf, BitVec.getLsbD, Nat.testBit, Nat.one_and_eq_mod_two]

/-- A writable bit takes its bit of the word (R34). -/
theorem State.on_plain {f : Fld} (h : s.RegsOk) (k : ((fieldsOf (tyOf p) f.off).map (takesField f)) = some true)
    (hf : f.lo < 32) (bit : f.len = 1) : (s.plain p f.off v).on p f = v.getLsbD f.lo := by
  unfold State.on
  rw [State.get_plain h k (by omega), bit, bitsOf_one_ne_zero]

theorem fieldsOf_header {ty off : Nat} {l : List FieldSpec} (h : headerFields ty off = some l) :
    fieldsOf ty off = some l := by
  unfold fieldsOf
  rw [h]

/-- A header register's field is writable where the header's own table says so. -/
theorem takes_of_header {ty : Nat} {f : Fld} {l : List FieldSpec} (h : headerFields ty f.off = some l)
    (k : takesField f l = true) : ((fieldsOf ty f.off).map (takesField f)) = some true := by
  rw [fieldsOf_header h, Option.map_some, k]

/-! ### OWNER (R40, R41) -/

theorem headerFields_owner (ty : Nat) : headerFields ty OWNER =
    some [⟨0, 2, .rwl, .ranges [(0, 2)]⟩, ⟨4, 6, .rwl, .ranges [(0, 15)]⟩, ⟨31, 1, .rwl, .any⟩] := rfl

theorem State.rest_dropSource : (s.dropSource p).rest = s.rest.dropSource p := rfl

/-- Dropping held translations touches no register. -/
theorem State.get_dropSource (q : Nat) (f : Fld) : (s.dropSource p).get q f = s.get q f := rfl

theorem ownerEff_of_secOnly (k : secOnlyTy (tyOf p) = true) :
    ownerEff p v s = ((s.plain p OWNER v).dropSource p).set p OWNER_WORLD 0 := if_pos k

theorem ownerEff_of_not_secOnly (k : secOnlyTy (tyOf p) = false) :
    ownerEff p v s = (s.plain p OWNER v).dropSource p := if_neg (by simp [k])

theorem get_ownerEff_world (h : s.RegsOk) :
    (ownerEff p v s).get p OWNER_WORLD = if secOnlyTy (tyOf p) then 0 else bitsOf v.toNat 0 2 := by
  cases k : secOnlyTy (tyOf p) with
  | true =>
    rw [ownerEff_of_secOnly k]
    exact State.get_set_same p OWNER_WORLD 0 (State.regsOk_plain h) (by decide)
  | false =>
    rw [ownerEff_of_not_secOnly k]
    rw [State.get_dropSource, if_neg (by decide)]
    exact State.get_plain (f := OWNER_WORLD) h (takes_of_header (headerFields_owner _) (by decide)) (by decide)

/-- VM and LOCK take their bits of the word, whoever can own the page. -/
theorem get_ownerEff_beside {f : Fld} (h : s.RegsOk) (o : f.off = OWNER)
    (k : ((fieldsOf (tyOf p) f.off).map (takesField f)) = some true) (lo : 2 ≤ f.lo) (hi : f.lo + f.len ≤ 32) :
    (ownerEff p v s).get p f = bitsOf v.toNat f.lo f.len := by
  have taken := State.get_plain (v := v) h k hi
  rw [o] at taken
  cases sec : secOnlyTy (tyOf p) with
  | true =>
    rw [ownerEff_of_secOnly sec]
    exact (State.get_set_beside p OWNER_WORLD f 0 (State.regsOk_plain h) o hi (.inr lo)).trans
      ((State.get_dropSource (p := p) p f).trans taken)
  | false =>
    rw [ownerEff_of_not_secOnly sec, State.get_dropSource]
    exact taken

theorem frame_ownerEff (h : s.RegsOk) : Frame (Offs p [OWNER]) (s.dropSource p) s (ownerEff p v s) := by
  have plain : Framed (Offs p [OWNER]) s (s.plain p OWNER v) := .plain (.refl h) (by simp)
  have dropped : Framed (Offs p [OWNER]) s ((s.plain p OWNER v).dropSource p) := plain.of_eq rfl
  have rest : ((s.plain p OWNER v).dropSource p).rest = (s.dropSource p).rest := by
    rw [State.rest_dropSource, State.rest_plain, ← State.rest_dropSource]
  cases k : secOnlyTy (tyOf p) with
  | true =>
    rw [ownerEff_of_secOnly k]
    exact ⟨(dropped.set (by simp)).regs, (State.rest_set ..).trans rest⟩
  | false =>
    rw [ownerEff_of_not_secOnly k]
    exact ⟨dropped.regs, rest⟩

/-! ### BLK_CTRL (R42, R43) -/

/-- What a write of BLK_CTRL without a soft reset does on a page with no rule of its own: the plain effect, and the measured
registers held when FREEZE is set. -/
def State.blkCtrlHeld (s : State) (p : Nat) (v : Word) : State :=
  if (s.plain p BLK_CTRL v).frozen p ∧ !s.frozen p then (s.plain p BLK_CTRL v).holdMeasures p else s.plain p BLK_CTRL v

theorem ne_of_tyOf_ne {q : Nat} (h : tyOf p ≠ tyOf q) : p ≠ q := fun e => h (congrArg tyOf e)

theorem blkCtrlEff_eq (own : tyOf p ∉ [0xE003, 0x7001, 0x7003]) (idle : s.on p BLK_CTRL_SOFT_RST = false) :
    blkCtrlEff p v s = if v.getLsbD 1 then (s.blkCtrlHeld p v).softReset p else s.blkCtrlHeld p v := by
  have types : tyOf pIXP = 0xE003 ∧ tyOf pTWL = 0x7001 ∧ tyOf pTWR = 0x7003 := by decide
  obtain ⟨ixp, twl, twr⟩ := types
  simp only [List.mem_cons, List.not_mem_nil, or_false, not_or] at own
  obtain ⟨own1, own2, own3⟩ := own
  have notIxp : p ≠ pIXP := ne_of_tyOf_ne (by rw [ixp]; exact own1)
  have notTwl : p ≠ pTWL := ne_of_tyOf_ne (by rw [twl]; exact own2)
  have notTwr : p ≠ pTWR := ne_of_tyOf_ne (by rw [twr]; exact own3)
  unfold blkCtrlEff State.blkCtrlHeld
  simp only [idle, notIxp, notTwl, notTwr, if_false, false_and, Bool.false_eq_true, Bool.not_false, Bool.and_true]

theorem blkCtrlPre_none (own : tyOf p ∉ [0xE003, 0x0004]) : blkCtrlPre p v s = none := by
  simp only [List.mem_cons, List.not_mem_nil, or_false, not_or] at own
  have notIxp : p ≠ pIXP := ne_of_tyOf_ne (by rw [show tyOf pIXP = 0xE003 by decide]; exact own.1)
  unfold blkCtrlPre
  rw [if_neg notIxp, if_neg own.2]

/-- The registers that hold what a page measures when FREEZE is set. -/
abbrev heldRegs (p : Nat) : List Nat :=
  (if tyOf p = 0x8002 then [CAL_CNT_MISM] else []) ++ if p = pDMC then [DMC_USE_SPILL, DMC_USE_HOST, DMC_USE_OTHER] else []

theorem ne_blkCtrl_of_mem_heldRegs {off : Nat} (held : off ∈ heldRegs p) : off ≠ BLK_CTRL := by
  have all : ∀ x ∈ [CAL_CNT_MISM, DMC_USE_SPILL, DMC_USE_HOST, DMC_USE_OTHER], x ≠ BLK_CTRL := by decide
  refine all off ?_
  rcases List.mem_append.mp held with cal | dmc
  · split at cal
    · exact List.mem_append_left _ cal
    · exact absurd cal List.not_mem_nil
  · split at dmc
    · exact List.mem_cons_of_mem _ dmc
    · exact absurd dmc List.not_mem_nil

theorem State.holdMeasures_none (cal : tyOf p ≠ 0x8002) (dmc : p ≠ pDMC) : s.holdMeasures p = s := by
  unfold State.holdMeasures
  rw [if_pos dmc, if_neg cal]

theorem Framed.holdMeasures {m : Nat → Prop} {t : State} (h : Framed m s t) (k : ∀ x ∈ heldRegs p, m (p + x)) :
    Framed m s (t.holdMeasures p) := by
  unfold State.holdMeasures
  split
  · split
    · next cal => exact h.set (k _ (by simp [heldRegs, cal]))
    · exact h
  · next dmc =>
    have e : p = pDMC := Decidable.not_not.mp dmc
    subst e
    exact ((h.wr (k _ (by simp [heldRegs]))).wr (k _ (by simp [heldRegs]))).wr (k _ (by simp [heldRegs]))

theorem State.rest_holdMeasures : (s.holdMeasures p).rest = s.rest := by
  unfold State.holdMeasures
  split
  · split <;> rfl
  · rfl

theorem Framed.blkCtrlHeld (h : s.RegsOk) : Framed (Offs p (BLK_CTRL :: heldRegs p)) s (s.blkCtrlHeld p v) := by
  have plain : Framed (Offs p (BLK_CTRL :: heldRegs p)) s (s.plain p BLK_CTRL v) := .plain (.refl h) (by simp)
  exact .ite (plain.holdMeasures fun x hx => List.mem_map_of_mem (List.mem_cons_of_mem _ hx)) plain

theorem State.rest_blkCtrlHeld : (s.blkCtrlHeld p v).rest = s.rest := by
  unfold State.blkCtrlHeld
  split
  · rw [State.rest_holdMeasures, State.rest_plain]
  · exact State.rest_plain ..

/-- Holding the measures leaves BLK_CTRL as written. -/
theorem State.on_blkCtrlHeld {f : Fld} (h : s.RegsOk) (o : f.off = BLK_CTRL) :
    (s.blkCtrlHeld p v).on p f = (s.plain p BLK_CTRL v).on p f := by
  have apart : ∀ x ∈ heldRegs p, p + x ≠ p + BLK_CTRL := fun _ hx => offset_ne (ne_blkCtrl_of_mem_heldRegs hx)
  have held : Framed (fun addr => addr ≠ p + BLK_CTRL) (s.plain p BLK_CTRL v) ((s.plain p BLK_CTRL v).holdMeasures p) :=
    .holdMeasures (.refl (State.regsOk_plain h)) apart
  unfold State.blkCtrlHeld
  split
  · unfold State.on
    rw [State.get_congr (s := s.plain p BLK_CTRL v) (q := p)]
    rw [o]
    exact held.regs (p + BLK_CTRL) (by simp)
  · rfl

/-! ### Soft reset (R42) -/

theorem State.regsOk_resetPage {keep : Nat → Bool} (h : s.RegsOk) : (s.resetPage p keep).RegsOk := swf_filter _ h

theorem State.rd_resetPage {keep : Nat → Bool} {off : Nat} (h : s.RegsOk) (inside : off < 0x1000) :
    (s.resetPage p keep).rd p off = if keep off then s.rd p off else resetVal (p + off) := by
  have own : (decide (p ≤ p + off) && decide (p + off < p + 0x1000)) = true := by simp; omega
  split
  · next k => exact sget_filter_keep _ _ (fun _ => by simp only [Nat.add_sub_cancel_left, k, Bool.or_true]) h
  · next k =>
    exact sget_filter_drop _ _ (fun _ => by simp only [own, Nat.add_sub_cancel_left, k, Bool.not_true, Bool.or_false]) h

theorem State.rd_resetPage_outside {keep : Nat → Bool} {addr : Nat} (h : s.RegsOk) (page : p % 0x1000 = 0)
    (outside : pageBase addr ≠ p) : (s.resetPage p keep).rd addr 0 = s.rd addr 0 := by
  have apart : (decide (p ≤ addr) && decide (addr < p + 0x1000)) = false := by
    unfold pageBase at outside
    simp only [Bool.and_eq_false_iff, decide_eq_false_iff_not]
    omega
  exact sget_filter_keep _ _ (fun _ => by simp only [Nat.add_zero, apart, Bool.not_false, Bool.true_or]) h

theorem State.rd_softRegs {off : Nat} (h : s.RegsOk) (inside : off < 0x1000) (other : off ≠ BLK_CTRL) :
    (s.softRegs p).rd p off =
      if headerKept off || shownOutside (tyOf p) off then s.rd p off else resetVal (p + off) :=
  (State.rd_set_other _ _ _ _ _ (State.regsOk_resetPage h) (offset_ne other)).trans (State.rd_resetPage h inside)

theorem State.on_softRegs (h : s.RegsOk) : (s.softRegs p).on p BLK_CTRL_SOFT_RST = true :=
  State.on_set_one p BLK_CTRL_SOFT_RST (State.regsOk_resetPage h) (by decide) rfl

theorem Framed.softRegs {t : State} (h : Framed (Pages [p]) s t) (page : p % 0x1000 = 0) :
    Framed (Pages [p]) s (t.softRegs p) := by
  have reset : Framed (Pages [p]) s (t.resetPage p fun off => headerKept off || shownOutside (tyOf p) off) :=
    ⟨fun addr n => (State.rd_resetPage_outside h.ok page (by simpa using n)).trans (h.regs addr n),
      State.regsOk_resetPage h.ok⟩
  exact reset.set (by simpa using pageBase_add page (by decide : BLK_CTRL < 0x1000))

/-- The page types whose soft reset is that of their registers, and of the selection's random state. -/
abbrev softTypes : List Nat := [0x1002, 0x1003, 0x1004, 0x1005, 0x2001, 0x3001]

theorem State.softReset_eq (soft : tyOf p ∈ softTypes) :
    s.softReset p = if tyOf p = 0x2001 then { s.softRegs p with sw.lfsr := 1 } else s.softRegs p := by
  simp only [List.mem_cons, List.not_mem_nil, or_false] at soft
  rcases soft with e | e | e | e | e | e <;> simp only [State.softReset, e] <;> rfl

theorem State.softReset_regs (soft : tyOf p ∈ softTypes) : (s.softReset p).regs = (s.softRegs p).regs := by
  rw [State.softReset_eq soft]
  split <;> rfl

theorem State.rest_softReset {t : State} (soft : tyOf p ∈ softTypes) (e : t.rest = s.rest) :
    (t.softReset p).rest = (if tyOf p = 0x2001 then { s with sw.lfsr := 1 } else s).rest := by
  rw [State.softReset_eq soft]
  split
  · have same := congrArg (fun w : State => { w with sw.lfsr := 1 }) e
    exact same
  · exact e

/-! ### INT_RAW and INT_SET (R44) -/

theorem headerFields_intRaw (ty : Nat) : headerFields ty INT_RAW = some [⟨0, 32, .w1c, .any⟩] := rfl

theorem mergeFields_w1c (old w : Word) :
    BitVec.ofNat 32 (mergeFields old.toNat w.toNat [⟨0, 32, .w1c, .any⟩]) = old &&& ~~~w := by
  have cut (x : Word) : bitsOf x.toNat 0 32 = x.toNat := by rw [bitsOf_eq]; simpa using Nat.mod_eq_of_lt x.isLt
  have whole (n x : Word) : BitVec.ofNat 32 (putBits n.toNat 0 32 x.toNat) = x := by
    have high : n.toNat >>> 32 = 0 := by rw [Nat.shiftRight_eq_div_pow]; exact Nat.div_eq_of_lt n.isLt
    apply BitVec.eq_of_toNat_eq
    simpa [putBits, high, Nat.mod_one] using x.isLt
  have cleared : (old &&& ~~~w).toNat = old.toNat &&& (2 ^ 32 - 1 - w.toNat) := by
    rw [BitVec.toNat_and, BitVec.toNat_not]
  unfold mergeFields
  rw [List.foldl_cons, List.foldl_nil]
  show BitVec.ofNat 32 (putBits old.toNat 0 32 (bitsOf old.toNat 0 32 &&& (2 ^ 32 - 1 - bitsOf w.toNat 0 32))) = _
  rw [cut, cut, ← cleared, whole]

/-- A write of ones clears those bits. -/
theorem State.rd_plain_intRaw (h : s.RegsOk) : (s.plain p INT_RAW v).rd p INT_RAW = s.rd p INT_RAW &&& ~~~v := by
  rw [State.rd_plain_same h (fieldsOf_header (headerFields_intRaw _)), mergeFields_w1c]

theorem domainOf_lt_ten {ty inst d : Nat} (h : domainOf ty inst = some d) : d < 10 := by
  unfold domainOf at h
  grind

/-- A plain write of INT_RAW powers no page off: whether a page is up stands in other registers. -/
theorem State.pageUp_plain_intRaw {q : Nat} (h : s.RegsOk) (page : p % 0x1000 = 0) :
    (s.plain p INT_RAW v).pageUp q = s.pageUp q := by
  have up : (s.plain p INT_RAW v).up = s.up := State.plain_up ..
  have bridge (d : Nat) : (s.plain p INT_RAW v).on (pDBR d) BR_STAT_UP = s.on (pDBR d) BR_STAT_UP :=
    State.on_plain_other h (by show 0x20004000 + 0x1000 * d + 0x044 ≠ p + 0x018; omega)
  unfold State.pageUp
  rw [up]
  split
  · rfl
  · next r _ =>
    congr 1
    · congr 1
      split
      · rw [bridge]
      · rfl
    · split
      · next d domain =>
        have := domainOf_lt_ten domain
        exact State.on_plain_other h (by show 0x20A0A000 + (0x100 + 4 * d) ≠ p + 0x018; omega)
      · rfl

/-! ### ERR_INJ (R47) -/

theorem headerFields_errInj (ty : Nat) :
    headerFields ty ERR_INJ = some [⟨0, 8, .rw, .any⟩, ⟨16, 1, .rw, .any⟩, ⟨17, 1, .w1c, .any⟩] := rfl

/-- Point 1 of the IOM page, armed, is an error of the page with code 0x9113 that is marked as injected. -/
theorem errInjEff_iom (h : s.RegsOk) (point : bitsOf v.toNat 0 8 = 1) (armed : v.getLsbD 16 = true) :
    errInjEff pIOM v s =
      (((s.plain pIOM ERR_INJ v).set pIOM ERR_INJ_ARM 0).set pIOM ERR_INJ_DONE 1).err pIOM 0x9113 0 true := by
  have arm : (s.plain pIOM ERR_INJ v).on pIOM ERR_INJ_ARM = true :=
    (State.on_plain (f := ERR_INJ_ARM) h (takes_of_header (headerFields_errInj _) (by decide)) (by decide) rfl).trans armed
  have at1 : (s.plain pIOM ERR_INJ v).get pIOM ERR_INJ_POINT = 1 :=
    (State.get_plain (f := ERR_INJ_POINT) h (takes_of_header (headerFields_errInj _) (by decide)) (by decide)).trans point
  have points : injTy (tyOf pIOM) = true := by decide
  have iom : tyOf pIOM ≠ 0x8002 := by decide
  unfold errInjEff
  simp only [points, arm, at1, iom, Bool.not_true, Bool.false_eq_true, if_false, if_true]

/-! ### CLK_REQ (R48) -/

theorem headerFields_clkReq (ty : Nat) : headerFields ty CLK_REQ =
    some [⟨0, 2, .rw, .ranges [(0, 2)]⟩, ⟨8, 1, .w1c, .any⟩, ⟨9, 1, .ro, .any⟩] := rfl

/-- A force-off is a plain write: it ends no force-off and lets an idle clock be. -/
theorem clkReqEff_off (off : (s.plain p CLK_REQ v).get p CLK_REQ_POLICY = 2) : clkReqEff p v s = s.plain p CLK_REQ v := by
  unfold clkReqEff
  simp only [off, if_true]
  rw [if_neg (by decide)]

/-- What a drain time-out does for the access that waits: its error, the mark of R48, an error response. -/
def State.drainError (s : State) (p addr : Nat) : State :=
  ((s.errCause p 0x06 addr).set p CLK_REQ_DRAIN_ERR 1).refused

theorem execForceOffDrainTimeout_eq {page addr : Nat} (waits : s.shell.draining = [(pageBase page, addr)]) :
    execForceOffDrainTimeout page s =
      .next (({ s with shell.draining := [] } : State).drainError (pageBase page) addr) := by
  unfold execForceOffDrainTimeout State.drainError
  simp [waits]

end Sys2Proof.Machine

end

section

namespace Sys2Proof.Machine

variable {s : State} {p : Nat} {v : Word}

/-! ### What the header's rules do to an accepted write -/

section

variable {a : Access}

theorem State.writeReg_owner (h : s.Accepts a p OWNER v) : s.writeReg a p OWNER v = ownerEff p v s.ok :=
  State.writeReg_header h (by decide) (by decide) rfl

theorem State.writeReg_blkCtrl (h : s.Accepts a p BLK_CTRL v) (k : blkCtrlPre p v s = none) :
    s.writeReg a p BLK_CTRL v = blkCtrlEff p v s.ok :=
  State.writeReg_header h (by decide) (by decide) k

theorem State.writeReg_intRaw (h : s.Accepts a p INT_RAW v) : s.writeReg a p INT_RAW v = s.ok.plain p INT_RAW v :=
  State.writeReg_header h (by decide) (by decide) rfl

theorem State.writeReg_intSet (h : s.Accepts a p INT_SET v) : s.writeReg a p INT_SET v = intSetEff p v s.ok :=
  State.writeReg_header h (by decide) (by decide) rfl

theorem State.writeReg_errCap (h : s.Accepts a p ERR_CAP v) : s.writeReg a p ERR_CAP v = errCapEff p v s.ok :=
  State.writeReg_header h (by decide) (by decide) rfl

theorem State.writeReg_errInj (h : s.Accepts a p ERR_INJ v) : s.writeReg a p ERR_INJ v = errInjEff p v s.ok :=
  State.writeReg_header h (by decide) (by decide) rfl

theorem State.writeReg_clkReq (h : s.Accepts a p CLK_REQ v) : s.writeReg a p CLK_REQ v = clkReqEff p v s.ok :=
  State.writeReg_header h (by decide) (by decide) rfl

end

/-! ### The drain time-out (R48) -/

theorem State.draining_drainError {addr : Nat} (drained : s.shell.draining = []) :
    (s.drainError p addr).shell.draining = [] := by
  have kept : (s.drainError p addr).shell = s.shell := State.err_shell ..
  rw [kept, drained]

theorem State.posted_drainError {addr : Nat} (direct : bridgeDie (tyOf p) = none) :
    (s.drainError p addr).Posted p (commonCode (subsystemOf p) 0x06) (addr % 2 ^ 32) := by
  have posts : (s.drainError p addr).posts = (s.errCause p 0x06 addr).posts := rfl
  unfold State.Posted
  rw [posts, State.errCause, State.err_posts direct]
  exact List.mem_append_right _ (List.mem_singleton_self _)

theorem State.frame_drainError {addr : Nat} (h : s.RegsOk) (direct : bridgeDie (tyOf p) = none) :
    Frame (Offs p (CLK_REQ :: errRegs)) { s with posts := (s.drainError p addr).posts } s (s.drainError p addr) := by
  have marked : Framed (Offs p (CLK_REQ :: errRegs)) s ((s.errCause p 0x06 addr).set p CLK_REQ_DRAIN_ERR 1) :=
    .set (.err (.refl h) direct (by simp) (by simp) (by simp)) (by simp)
  have posts : (s.drainError p addr).posts = (s.errCause p 0x06 addr).posts := rfl
  have rest : (s.drainError p addr).rest = (s.errCause p 0x06 addr).rest := rfl
  refine ⟨(marked.of_eq rfl).regs, ?_⟩
  rw [rest, posts, State.errCause, State.rest_err_posted direct]

/-- The answer to an access is outside every frame. -/
theorem Frame.of_ok {m : Nat → Prop} {u w t : State} (h : Frame m u s.ok t) (e : u.rest = w.rest) : Frame m w s t :=
  ⟨h.regs, h.rest.trans e⟩

/-! ### The effects as the statement names them -/

theorem on_ownerEff_lock (h : s.RegsOk) : (ownerEff p v s).on p OWNER_LOCK = v.getLsbD 31 := by
  have lock := get_ownerEff_beside (v := v) (f := OWNER_LOCK) h rfl
    (takes_of_header (headerFields_owner (tyOf p)) (by decide)) (by decide) (by decide)
  exact (congrArg (· != 0) lock).trans (bitsOf_one_ne_zero v 31)

theorem headerFields_blkCtrl (ty : Nat) : headerFields ty BLK_CTRL =
    some [⟨0, 1, .rw, .any⟩, ⟨1, 1, .rw, .any⟩, ⟨2, 1, if Config.freezable ty then .rw else .ro, .any⟩] := rfl

theorem State.on_blkCtrlHeld_en (h : s.RegsOk) : (s.blkCtrlHeld p v).on p BLK_CTRL_EN = v.getLsbD 0 := by
  rw [State.on_blkCtrlHeld h rfl]
  exact State.on_plain (f := BLK_CTRL_EN) h (takes_of_header (headerFields_blkCtrl _) (by simp [takesField])) (by decide) rfl

theorem State.on_blkCtrlHeld_freeze (h : s.RegsOk) (k : Config.freezable (tyOf p) = true) :
    (s.blkCtrlHeld p v).on p BLK_CTRL_FREEZE = v.getLsbD 2 := by
  rw [State.on_blkCtrlHeld h rfl]
  exact State.on_plain (f := BLK_CTRL_FREEZE) h (takes_of_header (headerFields_blkCtrl _) (by simp [takesField, k]))
    (by decide) rfl

/-- A page with registers to hold is not of the types whose soft reset is that of their registers. -/
theorem State.blkCtrlHeld_of_soft (soft : tyOf p ∈ softTypes) : s.blkCtrlHeld p v = s.plain p BLK_CTRL v := by
  have cal : tyOf p ≠ 0x8002 := by rintro e; rw [e] at soft; exact absurd soft (by decide)
  have dmc : p ≠ pDMC := by rintro rfl; exact absurd soft (by decide)
  unfold State.blkCtrlHeld
  rw [State.holdMeasures_none cal dmc]
  exact ite_self _

theorem blkCtrlEff_soft (soft : tyOf p ∈ softTypes) (reset : v.getLsbD 1 = true)
    (idle : s.on p BLK_CTRL_SOFT_RST = false) : blkCtrlEff p v s = (s.plain p BLK_CTRL v).softReset p := by
  have own : ∀ ty ∈ softTypes, ty ∉ [0xE003, 0x7001, 0x7003] := by decide
  rw [blkCtrlEff_eq (own _ soft) idle, if_pos reset, State.blkCtrlHeld_of_soft soft]

theorem State.rd_softReset_plain {off : Nat} (h : s.RegsOk) (soft : tyOf p ∈ softTypes) (inside : off < 0x1000)
    (other : off ≠ BLK_CTRL) : ((s.plain p BLK_CTRL v).softReset p).rd p off =
      if headerKept off || shownOutside (tyOf p) off then s.rd p off else resetVal (p + off) := by
  have same : ((s.plain p BLK_CTRL v).softReset p).rd p off = ((s.plain p BLK_CTRL v).softRegs p).rd p off := by
    unfold State.rd
    rw [State.softReset_regs soft]
  rw [same, State.rd_softRegs (State.regsOk_plain h) inside other, State.rd_plain_other h (offset_ne other)]

theorem State.on_softReset_plain (h : s.RegsOk) (soft : tyOf p ∈ softTypes) :
    ((s.plain p BLK_CTRL v).softReset p).on p BLK_CTRL_SOFT_RST = true := by
  have same : ((s.plain p BLK_CTRL v).softReset p).on p BLK_CTRL_SOFT_RST =
      ((s.plain p BLK_CTRL v).softRegs p).on p BLK_CTRL_SOFT_RST := by
    unfold State.on State.get State.rd
    rw [State.softReset_regs soft]
  rw [same, State.on_softRegs (State.regsOk_plain h)]

theorem frame_softReset_plain (h : s.RegsOk) (page : p % 0x1000 = 0) (soft : tyOf p ∈ softTypes) :
    Frame (Pages [p]) (if tyOf p = 0x2001 then { s with sw.lfsr := 1 } else s) s
      ((s.plain p BLK_CTRL v).softReset p) := by
  have written : Framed (Pages [p]) s (s.plain p BLK_CTRL v) :=
    .plain (.refl h) (by simpa using pageBase_add page (by decide : BLK_CTRL < 0x1000))
  exact ⟨((written.softRegs page).of_eq (State.softReset_regs soft)).regs, State.rest_softReset soft (State.rest_plain ..)⟩

theorem bridgeDie_iom : bridgeDie (tyOf pIOM) = none := by decide

section

variable (h : s.RegsOk) (point : bitsOf v.toNat 0 8 = 1) (armed : v.getLsbD 16 = true)

include h point armed

theorem on_errInj_iom_arm : (errInjEff pIOM v s).on pIOM ERR_INJ_ARM = false := by
  have h1 : ((s.plain pIOM ERR_INJ v).set pIOM ERR_INJ_ARM 0).RegsOk := State.regsOk_set (State.regsOk_plain h)
  rw [errInjEff_iom h point armed,
    State.on_err_other (State.regsOk_set h1) bridgeDie_iom (by decide) (by decide) (by decide),
    State.on_set_beside pIOM ERR_INJ_DONE ERR_INJ_ARM 1 h1 rfl (by decide) (by decide)]
  exact State.on_set_zero _ _ (State.regsOk_plain h) (by decide)

theorem on_errInj_iom_done : (errInjEff pIOM v s).on pIOM ERR_INJ_DONE = true := by
  have h1 : ((s.plain pIOM ERR_INJ v).set pIOM ERR_INJ_ARM 0).RegsOk := State.regsOk_set (State.regsOk_plain h)
  rw [errInjEff_iom h point armed,
    State.on_err_other (State.regsOk_set h1) bridgeDie_iom (by decide) (by decide) (by decide)]
  exact State.on_set_one _ _ h1 (by decide) rfl

theorem posts_errInj_iom : ⟨0x9113, 0, 0x9002, 1, true⟩ ∈ (errInjEff pIOM v s).posts := by
  rw [errInjEff_iom h point armed, State.err_posts bridgeDie_iom]
  exact List.mem_append_right _ (by decide)

theorem frame_errInj_iom :
    Frame (Offs pIOM (ERR_INJ :: errRegs)) { s with posts := (errInjEff pIOM v s).posts } s (errInjEff pIOM v s) := by
  rw [errInjEff_iom h point armed]
  have done : Framed (Offs pIOM (ERR_INJ :: errRegs)) s
      (((s.plain pIOM ERR_INJ v).set pIOM ERR_INJ_ARM 0).set pIOM ERR_INJ_DONE 1) :=
    .set (.set (.plain (.refl h) (by decide)) (by decide)) (by decide)
  refine ⟨(done.err bridgeDie_iom (by decide) (by decide) (by decide)).regs, ?_⟩
  rw [State.rest_err_posted bridgeDie_iom]
  have rest : (((s.plain pIOM ERR_INJ v).set pIOM ERR_INJ_ARM 0).set pIOM ERR_INJ_DONE 1).rest = s.rest := by
    rw [State.rest_set, State.rest_set, State.rest_plain]
  have same := congrArg (fun w : State => { w with posts := ((((s.plain pIOM ERR_INJ v).set pIOM ERR_INJ_ARM 0).set pIOM
    ERR_INJ_DONE 1).err pIOM 0x9113 0 true).posts }) rest
  exact same

end

end Sys2Proof.Machine

end

section

namespace Sys2Proof.Machine

/-! ### What the accepted commands answer -/

theorem pageBase_mod (addr : Nat) : pageBase addr % 0x1000 = 0 := Nat.mul_mod_left ..

section

variable {s : State} {a : Access} {page : Nat} {v : Word}

theorem execSoftRst_eq (accepts : s.Accepts a (pageBase page) BLK_CTRL v) (reset : v.getLsbD 1 = true)
    (idle : s.on (pageBase page) BLK_CTRL_SOFT_RST = false) (soft : tyOf (pageBase page) ∈ softTypes) :
    execSoftRst a page v s = .next ((s.ok.plain (pageBase page) BLK_CTRL v).softReset (pageBase page)) := by
  have own : ∀ ty ∈ softTypes, ty ∉ [0xE003, 0x0004] := by decide
  have eff : blkCtrlEff (pageBase page) v s.ok = _ := blkCtrlEff_soft soft reset idle
  rw [execSoftRst, State.writeReg_blkCtrl accepts (blkCtrlPre_none (own _ soft)), eff]

theorem execSoftRstDone_eq (notTmb : pageBase page ≠ pTMB) (up : s.pageUp (pageBase page) = true)
    (running : s.on (pageBase page) BLK_CTRL_SOFT_RST = true) :
    execSoftRstDone page s = .next (s.set (pageBase page) BLK_CTRL_SOFT_RST 0) := by
  simp only [execSoftRstDone, State.softResetDone, up, running, notTmb, Bool.and_self, if_true, if_false]

theorem execFreezeWrite_eq (accepts : s.Accepts a (pageBase page) BLK_CTRL v) (noReset : v.getLsbD 1 = false)
    (idle : s.on (pageBase page) BLK_CTRL_SOFT_RST = false)
    (own : tyOf (pageBase page) ∉ [0x0004, 0x7001, 0x7003, 0xE003]) :
    execFreezeWrite a page v s = .next (s.ok.blkCtrlHeld (pageBase page) v) := by
  simp only [List.mem_cons, List.not_mem_nil, or_false, not_or] at own
  obtain ⟨core, twl, twr, ixp⟩ := own
  have eff : blkCtrlEff (pageBase page) v s.ok = _ := blkCtrlEff_eq (by simp [twl, twr, ixp]) idle
  rw [execFreezeWrite, State.writeReg_blkCtrl accepts (blkCtrlPre_none (by simp [core, ixp])), eff, noReset,
    if_neg Bool.false_ne_true]

theorem execIntRawClear_eq {hw : Word} (h : s.ok.RegsOk) (accepts : s.Accepts a (pageBase page) INT_RAW v)
    (up : s.pageUp (pageBase page) = true) :
    execIntRawClear a page v hw s = .next ((s.ok.plain (pageBase page) INT_RAW v).wr (pageBase page) INT_RAW
      ((s.rd (pageBase page) INT_RAW &&& ~~~v) ||| hw)) := by
  have still : (s.ok.plain (pageBase page) INT_RAW v).pageUp (pageBase page) = true :=
    (State.pageUp_plain_intRaw h (pageBase_mod page)).trans up
  unfold execIntRawClear
  dsimp only
  rw [State.writeReg_intRaw accepts, if_pos still, State.rd_plain_intRaw h]
  rfl

theorem execErrCapClr_eq (accepts : s.Accepts a (pageBase page) ERR_CAP v) (clr : v.getLsbD 31 = true) :
    execErrCapClr a page v none s = .next ((s.ok.wr (pageBase page) ERR_CAP 0).wr (pageBase page) ERR_ADDR 0) := by
  unfold execErrCapClr
  dsimp only
  rw [State.writeReg_errCap accepts, errCapEff, if_pos clr]

theorem execErrInjArm_eq (iom : pageBase page = pIOM) (accepts : s.Accepts a (pageBase page) ERR_INJ v) :
    execErrInjArm a page v s = .next (errInjEff pIOM v s.ok) := by
  rw [execErrInjArm, State.writeReg_errInj accepts, iom]

theorem get_plain_clkReq {p : Nat} (h : s.RegsOk) : (s.plain p CLK_REQ v).get p CLK_REQ_POLICY = bitsOf v.toNat 0 2 :=
  State.get_plain (f := CLK_REQ_POLICY) h (takes_of_header (headerFields_clkReq _) (by decide)) (by decide)

theorem execClkReqForceOff_eq (h : s.ok.RegsOk) (accepts : s.Accepts a (pageBase page) CLK_REQ v)
    (force : bitsOf v.toNat 0 2 = 2) :
    execClkReqForceOff a page v none s = .next (s.ok.plain (pageBase page) CLK_REQ v) := by
  unfold execClkReqForceOff
  dsimp only
  rw [State.writeReg_clkReq accepts, clkReqEff_off ((get_plain_clkReq h).trans force)]

end

/-- Settles O3, command by command: each accepted write does its register's rule and nothing else. -/
theorem headerCommandsComplete : Obligations.HeaderCommandsComplete := by
  refine ⟨?owner, ?softRst, ?softRstDone, ?freeze, ?intRaw, ?intSet, ?errCap, ?errInj, ?forceOff, ?drain⟩
  case owner =>
    intro a page v s canonical accepts
    have h : s.ok.RegsOk := canonical.regsOk
    refine ⟨_, congrArg Host.Outcome.next (State.writeReg_owner accepts), get_ownerEff_world h, ?_, ?_,
      (frame_ownerEff h).of_ok rfl⟩
    · exact get_ownerEff_beside (f := OWNER_VM) h rfl (takes_of_header (headerFields_owner _) (by decide)) (by decide)
        (by decide)
    · exact on_ownerEff_lock h
  case softRst =>
    intro a page v s canonical accepts reset idle soft
    have h : s.ok.RegsOk := canonical.regsOk
    have outside : ∀ ty ∈ softTypes, shownOutside ty BLK_CTRL = false := by decide
    refine ⟨_, execSoftRst_eq accepts reset idle soft, State.on_softReset_plain h soft, ?_, ?_,
      (frame_softReset_plain h (pageBase_mod page) soft).of_ok (by split <;> rfl)⟩
    · intro off inside kept
      have other : off ≠ BLK_CTRL := by
        rintro rfl
        rcases kept with header | shown
        · exact absurd header (by decide)
        · exact absurd shown (by rw [outside _ soft]; exact Bool.false_ne_true)
      rw [State.rd_softReset_plain h soft inside other, if_pos (Bool.or_eq_true_iff.mpr kept)]
      rfl
    · intro off inside header shown other
      rw [State.rd_softReset_plain h soft inside other, if_neg (by simp [header, shown])]
  case softRstDone =>
    intro page s canonical notTmb up running
    have h := canonical.regsOk
    exact ⟨_, execSoftRstDone_eq notTmb up running, State.on_set_zero _ _ h (by decide),
      (Framed.set (.refl h) (by simp)).regs, State.rest_set ..⟩
  case freeze =>
    intro a page v s canonical accepts noReset idle own
    have h : s.ok.RegsOk := canonical.regsOk
    exact ⟨_, execFreezeWrite_eq accepts noReset idle own, State.on_blkCtrlHeld_en h, State.on_blkCtrlHeld_freeze h,
      (Framed.blkCtrlHeld h).regs, State.rest_blkCtrlHeld⟩
  case intRaw =>
    intro a page v hw s canonical accepts up
    have h : s.ok.RegsOk := canonical.regsOk
    exact ⟨_, execIntRawClear_eq h accepts up, State.rd_wr_same _ _ _ (State.regsOk_plain h),
      (Framed.wr (s := s.ok) (.plain (.refl h) (by simp)) (by simp)).regs, (State.rest_wr ..).trans (State.rest_plain ..)⟩
  case intSet =>
    intro a page v s canonical accepts
    have h : s.ok.RegsOk := canonical.regsOk
    exact ⟨_, congrArg Host.Outcome.next (State.writeReg_intSet accepts), State.rd_wr_same _ _ _ h,
      (Framed.wr (.refl h) (by simp)).regs, State.rest_wr ..⟩
  case errCap =>
    intro a page v s canonical accepts clr
    have h : s.ok.RegsOk := canonical.regsOk
    have h' : (s.ok.wr (pageBase page) ERR_CAP 0).RegsOk := State.regsOk_wr h
    refine ⟨_, execErrCapClr_eq accepts clr, ?_, State.rd_wr_same _ _ _ h', ?_, rfl⟩
    · rw [State.rd_wr_other _ h' (offset_ne (by decide)), State.rd_wr_same _ _ _ h]
    · exact (Framed.wr (.wr (.refl h) (by simp)) (by simp)).regs
  case errInj =>
    intro a page v s canonical accepts iom point armed
    have h : s.ok.RegsOk := canonical.regsOk
    exact ⟨_, execErrInjArm_eq iom accepts, on_errInj_iom_arm h point armed, on_errInj_iom_done h point armed,
      posts_errInj_iom h point armed, (frame_errInj_iom h point armed).of_ok rfl⟩
  case forceOff =>
    intro a page v s canonical accepts force
    have h : s.ok.RegsOk := canonical.regsOk
    exact ⟨_, execClkReqForceOff_eq h accepts force, (get_plain_clkReq h).trans force,
      (Framed.plain (.refl h) (by simp)).regs, State.rest_plain ..⟩
  case drain =>
    intro page addr s canonical waits direct
    have h : ({ s with shell.draining := [] } : State).RegsOk := canonical.regsOk
    have frame := State.frame_drainError (addr := addr) h direct
    exact ⟨_, execForceOffDrainTimeout_eq waits, rfl, State.draining_drainError rfl,
      State.on_set_one _ _ (State.regsOk_err h) (by decide) rfl, State.posted_drainError direct, frame.regs, frame.rest⟩

end Sys2Proof.Machine

end

/-!
## Host rings and spill counters (spec/05 R184, R186, Tables 05-7, 05-8)

A ring register is written plainly but for the halt that a rising EN clears; the spill counters are registers set to 0.
-/

section

namespace Sys2Proof.Machine

variable {s : State} {p : Nat} {v : Word}

/-! ### Bits that a write of ones clears -/

/-- A field that a write of ones clears reads 0 when all its ones are written, whatever stands before it in its register
and apart from it behind (R34). -/
theorem merge_clears {old w : Nat} {g : FieldSpec} {front back : List FieldSpec} (acc : g.acc = .w1c)
    (ones : bitsOf w g.lo g.len = 2 ^ g.len - 1) (apart : ∀ x ∈ back, g.lo + g.len ≤ x.lo ∨ x.lo + x.len ≤ g.lo)
    (m : Nat) : bitsOf ((front ++ g :: back).foldl (mergeStep old w) m) g.lo g.len = 0 := by
  obtain ⟨lo, len, kind, ok⟩ := g
  cases acc
  have zero (n : Nat) : bitsOf (mergeStep old w n ⟨lo, len, .w1c, ok⟩) lo len = 0 := by
    show bitsOf (putBits n lo len (bitsOf old lo len &&& (2 ^ len - 1 - bitsOf w lo len))) lo len = 0
    rw [ones, Nat.sub_self, Nat.and_zero, bitsOf_putBits_same, Nat.zero_mod]
  rw [List.foldl_append, List.foldl_cons, merge_apart (f := ⟨0, lo, len⟩) apart, zero]

/-- A bit that a write of 1 clears reads 0 after one. -/
theorem State.on_plain_cleared {f : Fld} {ok : Valid} {front back : List FieldSpec} (h : s.RegsOk)
    (fields : fieldsOf (tyOf p) f.off = some (front ++ ⟨f.lo, f.len, .w1c, ok⟩ :: back))
    (ones : bitsOf v.toNat f.lo f.len = 2 ^ f.len - 1)
    (apart : ∀ x ∈ back, f.lo + f.len ≤ x.lo ∨ x.lo + x.len ≤ f.lo) (inside : f.lo + f.len ≤ 32) :
    (s.plain p f.off v).on p f = false := by
  have cleared : (s.plain p f.off v).get p f = 0 := by
    unfold State.get
    rw [State.rd_plain_same h fields, BitVec.toNat_ofNat, bitsOf_mod (k := 32) (Nat.mod_mod _ _) inside, mergeFields_eq]
    exact merge_clears (g := ⟨f.lo, f.len, .w1c, ok⟩) rfl ones apart _
  simp [State.on, cleared]

/-! ### The ring registers of a HIN page (Table 05-8) -/

theorem fieldsOf_ringTail (i : Fin 16) (k : Fin 8) :
    fieldsOf (tyOf (pHIN i.val)) (RING_TAIL k.val) = some [⟨0, 12, .rw, .any⟩] := by
  rw [tyOf_pHIN]; revert k; decide

theorem fieldsOf_ringCtrl (i : Fin 16) (k : Fin 8) :
    fieldsOf (tyOf (pHIN i.val)) (RING_CTRL k.val) = some [⟨0, 1, .rw, .any⟩] := by
  rw [tyOf_pHIN]; revert k; decide

theorem fieldsOf_ringStat (i : Fin 16) (k : Fin 8) :
    fieldsOf (tyOf (pHIN i.val)) (RING_STAT k.val) =
      some [⟨0, 1, .ro, .any⟩, ⟨1, 1, .w1c, .any⟩, ⟨16, 16, .ro, .any⟩] := by
  rw [tyOf_pHIN]; revert k; decide

theorem State.get_plain_ringTail (i : Fin 16) (k : Fin 8) (h : s.RegsOk) :
    (s.plain (pHIN i.val) (RING_TAIL k.val) v).get (pHIN i.val) (RING_TAIL_V k.val) = bitsOf v.toNat 0 12 :=
  State.get_plain (f := RING_TAIL_V k.val) h (by rw [fieldsOf_ringTail]; rfl) (by simp)

theorem State.on_plain_ringCtrl (i : Fin 16) (k : Fin 8) (h : s.RegsOk) :
    (s.plain (pHIN i.val) (RING_CTRL k.val) v).on (pHIN i.val) (RING_CTRL_EN k.val) = v.getLsbD 0 :=
  State.on_plain (f := RING_CTRL_EN k.val) h (by rw [fieldsOf_ringCtrl]; rfl) (by simp) rfl

theorem State.on_plain_ringIrq (i : Fin 16) (k : Fin 8) (h : s.RegsOk) (one : bitsOf v.toNat 1 1 = 1) :
    (s.plain (pHIN i.val) (RING_STAT k.val) v).on (pHIN i.val) (RING_STAT_IRQ k.val) = false :=
  State.on_plain_cleared (f := RING_STAT_IRQ k.val) (front := [⟨0, 1, .ro, .any⟩]) (back := [⟨16, 16, .ro, .any⟩]) h
    (fieldsOf_ringStat i k) one (by simp) (by simp)

/-- What an EN that rises does beside the plain write: the ring's halt is cleared, and with it its bit of HIN_STAT (R184). -/
def State.ringUnhalt (s : State) (p k : Nat) : State :=
  (s.set p (RING_STAT_HALT k) 0).set p HIN_STAT_HALT (maskOf ((setBits 8 (s.get p HIN_STAT_HALT)).filter fun j => j != k))

theorem ringCtrlEff_rising {i k : Nat} (en : v.getLsbD 0 = true) (off : s.on (pHIN i) (RING_CTRL_EN k) = false) :
    ringCtrlEff i k v s = (s.plain (pHIN i) (RING_CTRL k) v).ringUnhalt (pHIN i) k := by
  unfold ringCtrlEff
  simp only [en, off, Bool.not_false, Bool.and_self, if_true]
  rfl

theorem execRingEnable_eq {a : Access} {inst : Fin 16} {k : Fin 8}
    (accepts : s.Accepts a (pHIN inst.val) (RING_CTRL k.val) v) (en : v.getLsbD 0 = true)
    (off : s.on (pHIN inst.val) (RING_CTRL_EN k.val) = false) : execRingEnable a inst k v s =
      .next ((s.ok.plain (pHIN inst.val) (RING_CTRL k.val) v).ringUnhalt (pHIN inst.val) k.val) := by
  rw [execRingEnable, State.regWrite_accepted accepts rfl, ringCtrlEff_rising (s := s.ok) en off]

theorem State.on_ringUnhalt_halt {k : Nat} (h : s.RegsOk) : (s.ringUnhalt p k).on p (RING_STAT_HALT k) = false := by
  unfold State.ringUnhalt
  rw [State.on_set_other _ _ _ _ _ (State.regsOk_set h) (offset_ne (by show 0x11C + 0x20 * k ≠ 0x04C; omega))]
  exact State.on_set_zero _ _ h (by simp)

theorem State.on_ringUnhalt_en {k : Nat} (h : s.RegsOk) :
    (s.ringUnhalt p k).on p (RING_CTRL_EN k) = s.on p (RING_CTRL_EN k) := by
  unfold State.ringUnhalt
  rw [State.on_set_other _ _ _ _ _ (State.regsOk_set h) (offset_ne (by show 0x114 + 0x20 * k ≠ 0x04C; omega)),
    State.on_set_other _ _ _ _ _ h (offset_ne (by show 0x114 + 0x20 * k ≠ 0x11C + 0x20 * k; omega))]

theorem Framed.ringUnhalt {m : Nat → Prop} {t : State} {k : Nat} (h : Framed m s t) (stat : m (p + RING_STAT k))
    (halts : m (p + HIN_STAT)) : Framed m s (t.ringUnhalt p k) := (h.set stat).set halts

theorem State.rest_ringUnhalt {k : Nat} : (s.ringUnhalt p k).rest = s.rest := rfl

theorem execRingIrqTimer_eq {inst : Fin 16} {k : Fin 8} (done : 0 < sget 0 (8 * inst.val + k.val) s.sw.ringDone) :
    execRingIrqTimer inst k s =
      .next (({ s with sw.ringDone := sput 0 (8 * inst.val + k.val) 0 s.sw.ringDone } : State).set (pHIN inst.val)
        (RING_STAT_IRQ k.val) 1) := by
  unfold execRingIrqTimer
  simp only [done, if_true]

/-! ### Registers of a page set to 0 -/

/-- The registers at some offsets of page p set to 0. -/
def State.zeroRegs (s : State) (p : Nat) (os : List Nat) : State := s.each os fun s o => s.wr p o 0

theorem State.rd_zeroRegs {os : List Nat} {off : Nat} (h : s.RegsOk) :
    (s.zeroRegs p os).rd p off = if off ∈ os then 0 else s.rd p off := by
  unfold State.zeroRegs State.each
  induction os generalizing s with
  | nil => rfl
  | cons o os ih =>
    rw [List.foldl_cons, ih (State.regsOk_wr h)]
    by_cases same : off = o
    · rw [same, State.rd_wr_same p o 0 h]
      simp
    · rw [State.rd_wr_other 0 h (offset_ne same)]
      simp [same]

theorem State.rd_zeroRegs_mem {os : List Nat} {off : Nat} (h : s.RegsOk) (mem : off ∈ os) :
    (s.zeroRegs p os).rd p off = 0 := by rw [State.rd_zeroRegs h, if_pos mem]

theorem Framed.zeroRegs {m : Nat → Prop} {t : State} {os : List Nat} (h : Framed m s t) (k : ∀ o ∈ os, m (p + o)) :
    Framed m s (t.zeroRegs p os) := h.each fun _ o mem framed => framed.wr (k o mem)

theorem State.rest_zeroRegs {os : List Nat} : (s.zeroRegs p os).rest = s.rest :=
  State.rest_each (fun _ _ => State.rest_wr ..) s

/-- The counters of a spill engine and its peak (Table 05-7). -/
abbrev spillCounters : List Nat := [SPL_PEAK, SPL_CNT_WR, SPL_CNT_RD, SPL_CNT_BWREF, SPL_CNT_FULL, SPL_CNT_ECC]

theorem splCntClrEff_set {e : Nat} (clr : v.getLsbD 0 = true) : splCntClrEff e v s = s.zeroRegs (pSPL e) spillCounters := by
  unfold splCntClrEff
  rw [if_pos clr]
  rfl

theorem execSplCntClr_eq {a : Access} {e : Fin 4} (accepts : s.Accepts a (pSPL e.val) SPL_CNT_CLR v)
    (clr : v.getLsbD 0 = true) : execSplCntClr a e v s = .next (s.ok.zeroRegs (pSPL e.val) spillCounters) := by
  rw [execSplCntClr, State.regWrite_accepted accepts rfl, splCntClrEff_set clr]

/-- Settles O10, command by command: plain writes, the halt that EN clears, the completions that the timer signals, and the
counters set to 0. -/
theorem ringCommandsComplete : Obligations.RingCommandsComplete := by
  refine ⟨?tail, ?enable, ?timer, ?clear, ?counters⟩
  case tail =>
    intro a inst k v s canonical accepts fits
    have h : s.ok.RegsOk := canonical.regsOk
    exact ⟨_, congrArg Host.Outcome.next (State.regWrite_accepted accepts fits), State.get_plain_ringTail inst k h,
      (Framed.plain (s := s.ok) (.refl h) (by simp)).regs, State.rest_plain ..⟩
  case enable =>
    intro a inst k v s canonical accepts en off
    have h : s.ok.RegsOk := canonical.regsOk
    have h' := State.regsOk_plain (p := pHIN inst.val) (off := RING_CTRL k.val) (v := v) h
    refine ⟨_, execRingEnable_eq accepts en off, ?_, State.on_ringUnhalt_halt h', ?_, ?_⟩
    · rw [State.on_ringUnhalt_en h', State.on_plain_ringCtrl inst k h, en]
    · exact (Framed.ringUnhalt (s := s.ok) (.plain (.refl h) (by simp)) (by simp) (by simp)).regs
    · exact State.rest_ringUnhalt.trans (State.rest_plain ..)
  case timer =>
    intro inst k s canonical done
    have h : ({ s with sw.ringDone := sput 0 (8 * inst.val + k.val) 0 s.sw.ringDone } : State).RegsOk := canonical.regsOk
    exact ⟨_, execRingIrqTimer_eq done, State.on_set_one _ _ h (by simp) rfl, (Framed.set (.refl h) (by simp)).regs,
      State.rest_set ..⟩
  case clear =>
    intro a inst k v s canonical accepts one
    have h : s.ok.RegsOk := canonical.regsOk
    exact ⟨_, congrArg Host.Outcome.next (State.regWrite_accepted accepts rfl), State.on_plain_ringIrq inst k h one,
      (Framed.plain (s := s.ok) (.refl h) (by simp)).regs, State.rest_plain ..⟩
  case counters =>
    intro a e v s canonical accepts clr
    have h : s.ok.RegsOk := canonical.regsOk
    exact ⟨_, execSplCntClr_eq accepts clr, State.rd_zeroRegs_mem h (by simp), State.rd_zeroRegs_mem h (by simp),
      State.rd_zeroRegs_mem h (by simp), (Framed.zeroRegs (s := s.ok) (.refl h) fun o mem => List.mem_map_of_mem mem).regs,
      State.rest_zeroRegs⟩

end Sys2Proof.Machine

end

/-!
## The words of the tables (spec/05 Table 05-6)

What a table word and a field of it read after a write, and steps that write nothing but tables.
-/

section

namespace Sys2Proof.Machine

variable {s t : State} {tab i w n : Nat}

/-! ### Words and fields -/

/-- The tables are in canonical form. -/
abbrev State.TabsOk (s : State) : Prop := tabsWf s.tabs = true

theorem State.Canonical.tabsOk (h : s.Canonical) : s.TabsOk := h.2.1

theorem State.tabsOk_tset (h : s.TabsOk) : (s.tset tab i w n).TabsOk := swf_sput _ (Nat.zero_le _) h

theorem State.tabsOk_tfSet {f : TFld} (h : s.TabsOk) : (s.tfSet tab i f n).TabsOk := State.tabsOk_tset h

theorem State.tabsOk_tcnt {p d : Nat} (h : s.TabsOk) : (s.tcnt p tab i w d).TabsOk := by
  unfold State.tcnt
  split
  · exact h
  · exact State.tabsOk_tset h

theorem State.tget_tset_same (h : s.TabsOk) : (s.tset tab i w n).tget tab i w = n % 2 ^ 32 :=
  (congrArg BitVec.toNat (sget_sput_same _ _ _ h)).trans (BitVec.toNat_ofNat ..)

/-- Another word of the same entry. -/
theorem State.tget_tset_beside {w' : Nat} (h : s.TabsOk) (ne : w' ≠ w) :
    (s.tset tab i w n).tget tab i w' = s.tget tab i w' :=
  congrArg BitVec.toNat (sget_sput_other _ _ _ (by unfold tabKey; omega) h)

theorem State.tf_tset_beside {g : TFld} (h : s.TabsOk) (ne : g.w ≠ w) : (s.tset tab i w n).tf tab i g = s.tf tab i g := by
  unfold State.tf
  rw [State.tget_tset_beside h ne]

/-- A counter word leaves the fields of the other words alone. -/
theorem State.tf_tcnt_beside {p d : Nat} {g : TFld} (h : s.TabsOk) (ne : g.w ≠ w) :
    (s.tcnt p tab i w d).tf tab i g = s.tf tab i g := by
  unfold State.tcnt
  split
  · rfl
  · exact State.tf_tset_beside h ne

theorem State.tfOn_tcnt_beside {p d : Nat} {g : TFld} (h : s.TabsOk) (ne : g.w ≠ w) :
    (s.tcnt p tab i w d).tfOn tab i g = s.tfOn tab i g := by
  unfold State.tfOn
  rw [State.tf_tcnt_beside h ne]

/-- What a set field of a table entry reads: the value cut to its width. -/
theorem State.tf_tfSet_same {f : TFld} (h : s.TabsOk) (fits : f.lo + f.len ≤ 32) :
    (s.tfSet tab i f n).tf tab i f = n % 2 ^ f.len := by
  unfold State.tf State.tfSet
  rw [State.tget_tset_same h, bitsOf_mod (k := 32) (Nat.mod_mod _ _) fits, bitsOf_putBits_same]

/-- Another field of the same word. -/
theorem State.tf_tfSet_beside {f g : TFld} (h : s.TabsOk) (word : g.w = f.w) (fits : g.lo + g.len ≤ 32)
    (apart : g.lo + g.len ≤ f.lo ∨ f.lo + f.len ≤ g.lo) : (s.tfSet tab i f n).tf tab i g = s.tf tab i g := by
  unfold State.tf State.tfSet
  rw [word, State.tget_tset_same h, bitsOf_mod (k := 32) (Nat.mod_mod _ _) fits, bitsOf_putBits_other apart]

theorem State.tfOn_tfSet_same {f : TFld} (h : s.TabsOk) (fits : f.lo + f.len ≤ 32) :
    (s.tfSet tab i f n).tfOn tab i f = (n % 2 ^ f.len != 0) := by
  unfold State.tfOn
  rw [State.tf_tfSet_same h fits]

theorem State.tfOn_tfSet_beside {f g : TFld} (h : s.TabsOk) (word : g.w = f.w) (fits : g.lo + g.len ≤ 32)
    (apart : g.lo + g.len ≤ f.lo ∨ f.lo + f.len ≤ g.lo) : (s.tfSet tab i f n).tfOn tab i g = s.tfOn tab i g := by
  unfold State.tfOn
  rw [State.tf_tfSet_beside h word fits apart]

/-- An error record touches no table. -/
theorem State.tfOn_err {p code loc : Nat} {j : Bool} {f : TFld} :
    (s.err p code loc j).tfOn tab i f = s.tfOn tab i f := by
  unfold State.tfOn State.tf State.tget
  rw [State.err_tabs]

/-! ### Steps that write tables only -/

/-- From s to t nothing changes but words of tables. -/
def TabsOnly (s t : State) : Prop := t = { s with tabs := t.tabs }

namespace TabsOnly

theorem refl : TabsOnly s s := rfl

theorem of_tabs {x : List (Nat × Word)} (h : TabsOnly s t) : TabsOnly s { t with tabs := x } := by
  have same := congrArg (fun u : State => { u with tabs := x }) h
  exact same

theorem tset (h : TabsOnly s t) : TabsOnly s (t.tset tab i w n) := h.of_tabs

theorem tfSet {f : TFld} (h : TabsOnly s t) : TabsOnly s (t.tfSet tab i f n) := h.of_tabs

theorem ite {u : State} {c : Prop} [Decidable c] (ht : TabsOnly s t) (hu : TabsOnly s u) :
    TabsOnly s (if c then t else u) := by split <;> assumption

theorem tcnt {p d : Nat} (h : TabsOnly s t) : TabsOnly s (t.tcnt p tab i w d) := ite h h.tset

theorem each {α : Type} {l : List α} {f : State → α → State} (h : TabsOnly s t)
    (step : ∀ x a, TabsOnly s x → TabsOnly s (f x a)) : TabsOnly s (t.each l f) := by
  unfold State.each
  induction l generalizing t with
  | nil => exact h
  | cons a l ih => exact ih (step t a h)

theorem frame {m : Nat → Prop} (h : TabsOnly s t) : Frame m { s with tabs := t.tabs } s t := by
  have regs : t.regs = s.regs := (congrArg State.regs h).trans rfl
  exact ⟨fun addr _ => by unfold State.rd; rw [regs], congrArg State.rest h⟩

end TabsOnly

end Sys2Proof.Machine

end

/-!
## Pause frames and their watchdogs (spec/05 R173-R179)

The frames that a port sends and receives, the marks they leave in the port's entry, and the two watchdogs.
-/

section

namespace Sys2Proof.Machine

variable {s : State} {p c : Nat}

/-! ### The marks of a class in the port's entry -/

theorem paused_fits (hc : c < 8) : (bPAUSED c).lo + (bPAUSED c).len ≤ 32 := by show c + 1 ≤ 32; omega

theorem xoff_fits (hc : c < 8) : (bXOFF c).lo + (bXOFF c).len ≤ 32 := by show 8 + c + 1 ≤ 32; omega

theorem tripped_fits (hc : c < 8) : (bTRIPPED c).lo + (bTRIPPED c).len ≤ 32 := by show 16 + c + 1 ≤ 32; omega

/-! ### Sent pause frames (R175) -/

/-- The pause or PFC frame that a port sends for a class: its quanta while the class is in XOFF, 0 for release. -/
def State.pauseOf (s : State) (p c : Nat) : Out :=
  .pause p (s.tf tBPORT p bFC == 2) (if s.tf tBPORT p bFC = 2 then 2 ^ c else 0)
    (if s.tfOn tBPORT p (bXOFF c) = true then s.tf tBPORT p bQUANTA else 0)

/-- Beside the frame only counters of the BUF tables are written. -/
theorem State.sendPause_tabsOnly : TabsOnly (s.emit (s.pauseOf p c)) (s.sendPause p c) := by
  have counted : TabsOnly (s.emit (s.pauseOf p c)) ((s.emit (s.pauseOf p c)).tcnt pBUF tBPORT p 6) := .tcnt .refl
  unfold State.sendPause
  simp only [beq_iff_eq]
  exact .ite counted counted.tcnt

theorem State.sendPause_out : (s.sendPause p c).out = s.out ++ [s.pauseOf p c] :=
  congrArg State.out State.sendPause_tabsOnly

theorem State.sendPause_sw : (s.sendPause p c).sw = s.sw := (congrArg State.sw State.sendPause_tabsOnly).trans rfl

theorem State.frame_sendPause {m : Nat → Prop} :
    Frame m { s with out := (s.sendPause p c).out, tabs := (s.sendPause p c).tabs } s (s.sendPause p c) := by
  have frame : Frame m _ _ (s.sendPause p c) := State.sendPause_tabsOnly.frame
  refine ⟨frame.regs, frame.rest.trans ?_⟩
  rw [State.sendPause_out]
  rfl

section

variable {port : Fin 15}

theorem execPauseFrameSend_eq (due : s.sw.pauseDue = [(port.val, c)]) (pauses : s.pauses port.val = true)
    (idle : s.sendingOn port.val = none) :
    execPauseFrameSend port s = .next (({ s with sw.pauseDue := [] } : State).sendPause port.val c) := by
  unfold execPauseFrameSend
  simp [due, pauses, idle]

variable {cls : Fin 8} (pauses : s.pauses port.val = true) (xoff : s.tfOn tBPORT port.val (bXOFF cls.val) = true)

include pauses xoff

theorem execXoffRepeat_idle (idle : s.sendingOn port.val = none) :
    execXoffRepeat port cls s = .next (s.sendPause port.val cls.val) := by
  unfold execXoffRepeat
  simp only [pauses, xoff, idle, Bool.and_self, Option.isNone_none, if_true]

theorem execXoffRepeat_behind {x : Copy} (busy : s.sendingOn port.val = some x)
    (new : s.sw.pauseDue.contains (port.val, cls.val) = false) :
    execXoffRepeat port cls s = .next { s with sw.pauseDue := s.sw.pauseDue ++ [(port.val, cls.val)] } := by
  unfold execXoffRepeat
  simp only [pauses, xoff, busy, new, Bool.and_self, Option.isNone_some, Bool.false_eq_true, if_true, if_false]

end

/-! ### Received pause frames (R177) -/

/-- What a received frame does to one class that it names, with the quanta for it. -/
def State.pauseStep (p : Nat) (pfc : Bool) (s : State) (cq : Nat × Nat) : State :=
  if pfc && !(s.tf tBPORT p bPFC_EN).testBit cq.1 then s
  else s.tfSet tBPORT p (bPAUSED cq.1) (if cq.2 = 0 then 0 else 1)

/-- What a received frame does on a port that honours it: it is counted, and each class that it names takes its quanta. -/
def State.pauseTaken (s : State) (p : Nat) (pfc : Bool) (enable : Nat) (quanta : List Nat) : State :=
  (s.tcnt pBUF tBPORT p 7).each (pausedClasses pfc enable quanta) (State.pauseStep p pfc)

theorem State.pauseReceived_honoured {pfc : Bool} {enable : Nat} {quanta : List Nat} (fc : fcPort p = true)
    (kind : s.tf tBPORT p bFC = if pfc then 2 else 1) :
    s.pauseReceived p pfc enable quanta = s.pauseTaken p pfc enable quanta := by
  unfold State.pauseReceived
  simp only [fc, kind, beq_self_eq_true, Bool.and_self, if_true]
  rfl

theorem execPauseFrameReceive_eq {clocks enable : Nat} {port : Fin 31} {pfc : Bool} {quanta : List Nat}
    (up : (s.advance clocks).switchUp = true) (link : s.linkUp port.val = true) (fc : fcPort port.val = true)
    (kind : s.tf tBPORT port.val bFC = if pfc then 2 else 1) :
    execPauseFrameReceive clocks port pfc enable quanta s =
      .next ((s.advance clocks).pauseTaken port.val pfc enable quanta) := by
  have link' : (s.advance clocks).linkUp port.val = true := link
  unfold execPauseFrameReceive
  simp only [up, link', Bool.and_self, if_true]
  rw [State.pauseReceived_honoured (s := s.advance clocks) fc kind]

theorem State.pauseStep_honoured {pfc : Bool} {cq : Nat × Nat}
    (named : pfc = true → (s.tf tBPORT p bPFC_EN).testBit cq.1 = true) :
    State.pauseStep p pfc s cq = s.tfSet tBPORT p (bPAUSED cq.1) (if cq.2 = 0 then 0 else 1) := by
  unfold State.pauseStep
  rw [if_neg]
  cases pfc with
  | false => simp
  | true => simp [named rfl]

/-- A class that is named pauses unless its quanta are 0; the others stay as they are. -/
theorem State.tfOn_pauseStep {pfc : Bool} {cq : Nat × Nat} (h : s.TabsOk) (hc : c < 8) (hq : cq.1 < 8)
    (named : pfc = true → (s.tf tBPORT p bPFC_EN).testBit cq.1 = true) :
    (State.pauseStep p pfc s cq).tfOn tBPORT p (bPAUSED c) =
      if c = cq.1 then cq.2 != 0 else s.tfOn tBPORT p (bPAUSED c) := by
  rw [State.pauseStep_honoured named]
  by_cases same : c = cq.1
  · subst same
    rw [if_pos rfl, State.tfOn_tfSet_same h (paused_fits hq)]
    by_cases zero : cq.2 = 0 <;> simp [zero]
  · rw [if_neg same]
    exact State.tfOn_tfSet_beside h rfl (paused_fits hc) (by show c + 1 ≤ cq.1 ∨ cq.1 + 1 ≤ c; omega)

theorem TabsOnly.pauseStep {t : State} {pfc : Bool} {cq : Nat × Nat} (h : TabsOnly s t) :
    TabsOnly s (State.pauseStep p pfc t cq) := .ite h h.tfSet

theorem State.tabsOk_pauseStep {pfc : Bool} {cq : Nat × Nat} (h : s.TabsOk) : (State.pauseStep p pfc s cq).TabsOk := by
  unfold State.pauseStep
  split
  · exact h
  · exact State.tabsOk_tfSet h

/-- After a pause frame with quanta for each class it names, a class that it names, or that had paused, pauses. -/
theorem State.tfOn_each_pauseStep {l : List (Nat × Nat)} (h : s.TabsOk) (hc : c < 8)
    (quanta : ∀ cq ∈ l, cq.1 < 8 ∧ cq.2 ≠ 0) (pauses : c ∈ l.map Prod.fst ∨ s.tfOn tBPORT p (bPAUSED c) = true) :
    (s.each l (State.pauseStep p false)).tfOn tBPORT p (bPAUSED c) = true := by
  unfold State.each
  induction l generalizing s with
  | nil => exact pauses.resolve_left List.not_mem_nil
  | cons cq l ih =>
    obtain ⟨small, nonzero⟩ := quanta cq (List.mem_cons_self ..)
    refine ih (State.tabsOk_pauseStep h) (fun x mem => quanta x (List.mem_cons_of_mem _ mem)) ?_
    rw [State.tfOn_pauseStep h hc small (by simp)]
    by_cases same : c = cq.1
    · simp [same, nonzero]
    · simpa [same] using pauses

/-- A pause frame names all classes. -/
theorem pausedClasses_pause (enable q : Nat) : pausedClasses false enable [q] = (List.range 8).map fun c => (c, q) := rfl

/-- A PFC frame that enables one class names it alone. -/
theorem pausedClasses_pfc (c : Fin 8) (quanta : List Nat) :
    pausedClasses true (2 ^ c.val) quanta = [(c.val, nth quanta c.val 0)] := by
  have alone : setBits 8 (2 ^ c.val) = [c.val] := by revert c; decide
  unfold pausedClasses
  rw [if_pos rfl, alone]
  rfl

theorem State.pauseTaken_tabsOnly {pfc : Bool} {enable : Nat} {quanta : List Nat} :
    TabsOnly s (s.pauseTaken p pfc enable quanta) := .each (.tcnt .refl) fun _ _ only => only.pauseStep

theorem State.tfOn_pauseTaken_pause {enable q : Nat} (h : s.TabsOk) (hc : c < 8) (positive : 0 < q) :
    (s.pauseTaken p false enable [q]).tfOn tBPORT p (bPAUSED c) = true := by
  unfold State.pauseTaken
  rw [pausedClasses_pause]
  refine State.tfOn_each_pauseStep (State.tabsOk_tcnt h) hc (fun cq mem => ?_) (.inl ?_)
  · obtain ⟨d, small, rfl⟩ := List.mem_map.mp mem
    exact ⟨List.mem_range.mp small, Nat.ne_of_gt positive⟩
  · simpa using hc

/-- The class that a PFC frame enables takes its quanta; the others stay as they are. -/
theorem State.tfOn_pauseTaken_pfc {d : Fin 8} {quanta : List Nat} (h : s.TabsOk) (hc : c < 8)
    (enabled : (s.tf tBPORT p bPFC_EN).testBit d.val = true) :
    (s.pauseTaken p true (2 ^ d.val) quanta).tfOn tBPORT p (bPAUSED c) =
      if c = d.val then nth quanta d.val 0 != 0 else s.tfOn tBPORT p (bPAUSED c) := by
  have counted : ((s.tcnt pBUF tBPORT p 7).tf tBPORT p bPFC_EN).testBit d.val = true := by
    rw [State.tf_tcnt_beside h (by decide), enabled]
  have before : (s.tcnt pBUF tBPORT p 7).tfOn tBPORT p (bPAUSED c) = s.tfOn tBPORT p (bPAUSED c) :=
    State.tfOn_tcnt_beside h (by simp)
  unfold State.pauseTaken
  rw [pausedClasses_pfc, ← before]
  exact State.tfOn_pauseStep (State.tabsOk_tcnt h) hc d.isLt fun _ => counted

/-! ### The flow control watchdogs (R178, R179) -/

theorem bridgeDie_buf : bridgeDie (tyOf pBUF) = none := by decide

/-- An error of the BUF page with its code and locator. -/
theorem State.posted_err {code loc : Nat} (direct : bridgeDie (tyOf p) = none) : (s.err p code loc).Posted p code loc := by
  unfold State.Posted
  rw [State.err_posts direct]
  exact List.mem_append_right _ (List.mem_singleton_self _)

theorem State.frame_err {code loc : Nat} (h : s.RegsOk) (direct : bridgeDie (tyOf p) = none) :
    Frame (Offs p errRegs) { s with posts := (s.err p code loc).posts } s (s.err p code loc) :=
  ⟨((Framed.refl h).err direct (by simp) (by simp) (by simp)).regs, State.rest_err_posted direct⟩

theorem execPfcWatchdogTrip_eq {port : Fin 15} {cls : Fin 8} (up : s.switchUp = true)
    (wd : s.tf tBPORT port.val bPFC_WD ≠ 0) (paused : s.tfOn tBPORT port.val (bPAUSED cls.val) = true)
    (first : s.tfOn tBPORT port.val (bTRIPPED cls.val) = false) :
    execPfcWatchdogTrip port cls s = .next ((s.tfSet tBPORT port.val (bTRIPPED cls.val) 1).err pBUF 0x2216
      (0x10000 + 8 * port.val + cls.val)) := by
  unfold execPfcWatchdogTrip
  simp only [up, bne_iff_ne.mpr wd, paused, first, Bool.not_false, Bool.and_self, if_true]

theorem execPfcWatchdogRecover_eq {port : Fin 15} {cls : Fin 8} (up : s.switchUp = true)
    (tripped : s.tfOn tBPORT port.val (bTRIPPED cls.val) = true) : execPfcWatchdogRecover port cls s =
      .next ((s.tfSet tBPORT port.val (bTRIPPED cls.val) 0).tfSet tBPORT port.val (bPAUSED cls.val) 0) := by
  unfold execPfcWatchdogRecover
  simp only [up, tripped, Bool.and_self, if_true]

/-! ### The XOFF state of a group (R174, R175) -/

theorem State.setXoff_change {x : Bool} (change : s.tfOn tBPORT p (bXOFF c) = !x) : s.setXoff p c x =
    if p = 31 then s.tfSet tBPORT p (bXOFF c) x.toNat
    else { s.tfSet tBPORT p (bXOFF c) x.toNat with
      sw.pauseDue := (s.sw.pauseDue.filter fun e => e != (p, c)) ++ [(p, c)] } := by
  unfold State.setXoff
  rw [if_neg (by simp [change])]
  rfl

/-- A change of XOFF writes the group's mark, and what pause frames are owed. -/
theorem State.setXoff_eq {x : Bool} :
    s.setXoff p c x = { s with sw := (s.setXoff p c x).sw, tabs := (s.setXoff p c x).tabs } := by
  unfold State.setXoff
  dsimp only
  split
  · rfl
  · split <;> rfl

theorem State.setXoff_posts {x : Bool} : (s.setXoff p c x).posts = s.posts :=
  (congrArg State.posts State.setXoff_eq).trans rfl

theorem State.setXoff_regs {x : Bool} : (s.setXoff p c x).regs = s.regs :=
  (congrArg State.regs State.setXoff_eq).trans rfl

section

variable {x : Bool} (change : s.tfOn tBPORT p (bXOFF c) = !x)

include change

theorem State.setXoff_stormed : (s.setXoff p c x).sw.stormed = s.sw.stormed := by
  rw [State.setXoff_change change]
  split <;> rfl

/-- Ports that send pause frames owe one for the change. -/
theorem State.setXoff_owes (port : p ≠ 31) : (p, c) ∈ (s.setXoff p c x).sw.pauseDue := by
  rw [State.setXoff_change change, if_neg port]
  exact List.mem_append_right _ (List.mem_singleton_self _)

theorem State.tfOn_setXoff (h : s.TabsOk) (hc : c < 8) : (s.setXoff p c x).tfOn tBPORT p (bXOFF c) = x := by
  have set : (s.tfSet tBPORT p (bXOFF c) x.toNat).tfOn tBPORT p (bXOFF c) = x := by
    rw [State.tfOn_tfSet_same h (xoff_fits hc)]
    cases x <;> rfl
  rw [State.setXoff_change change]
  split
  · exact set
  · exact set

end

/-- What an XOFF storm does where STORM_ACT is set: its error, the mark that holds off XOFF, the release. -/
def State.stormEnded (s : State) (p c : Nat) : State :=
  ({ s.err pBUF 0x2217 (0x10000 + 8 * p + c) with sw.stormed := s.sw.stormed ++ [(p, c)] } : State).setXoff p c false

theorem execXoffStorm_eq {port : Fin 32} {cls : Fin 8} (up : s.switchUp = true) (limit : s.tf tBPORT port.val bSTORM ≠ 0)
    (xoff : s.tfOn tBPORT port.val (bXOFF cls.val) = true) (act : s.tfOn tBPORT port.val bSTORM_ACT = true) :
    execXoffStorm port cls s = .next (s.stormEnded port.val cls.val) := by
  unfold execXoffStorm State.stormEnded
  simp only [up, bne_iff_ne.mpr limit, xoff, State.tfOn_err, act, Bool.and_self, if_true, State.err_sw]

/-- Where the storm is found the group is in XOFF, so that its release is a change. -/
theorem State.stormEnded_change (xoff : s.tfOn tBPORT p (bXOFF c) = true) :
    ({ s.err pBUF 0x2217 (0x10000 + 8 * p + c) with sw.stormed := s.sw.stormed ++ [(p, c)] } : State).tfOn tBPORT p
      (bXOFF c) = !false := State.tfOn_err.trans xoff

theorem State.posted_stormEnded : (s.stormEnded p c).Posted pBUF 0x2217 (0x10000 + 8 * p + c) := by
  have posts : (s.stormEnded p c).posts = (s.err pBUF 0x2217 (0x10000 + 8 * p + c)).posts := State.setXoff_posts
  unfold State.Posted
  rw [posts]
  exact State.posted_err bridgeDie_buf

theorem State.frame_stormEnded (h : s.RegsOk) : Frame (Offs pBUF errRegs)
    { s with posts := (s.stormEnded p c).posts, sw := (s.stormEnded p c).sw, tabs := (s.stormEnded p c).tabs } s
    (s.stormEnded p c) := by
  have recorded : Frame (Offs pBUF errRegs) _ s (s.err pBUF 0x2217 (0x10000 + 8 * p + c)) := State.frame_err h bridgeDie_buf
  refine ⟨fun addr outside => ?_, ?_⟩
  · refine Eq.trans ?_ (recorded.regs addr outside)
    unfold State.rd State.stormEnded
    rw [State.setXoff_regs]
  · have posts : (s.stormEnded p c).posts = (s.err pBUF 0x2217 (0x10000 + 8 * p + c)).posts := State.setXoff_posts
    have released : (s.stormEnded p c).rest = _ := congrArg State.rest State.setXoff_eq
    have same := congrArg (fun u : State => { u with sw := (s.stormEnded p c).sw, tabs := (s.stormEnded p c).tabs })
      recorded.rest
    rw [posts]
    exact released.trans same

end Sys2Proof.Machine

end

/-!
## Transmission, hold and spill (spec/05 R164-R171)

The frame boundary and the preemption point of a port, the hold request, and the frame that returns from DRAM.
-/

section

namespace Sys2Proof.Machine

variable {s : State} {p : Nat}

/-! ### The end of a frame and the preemption point (R168, R137) -/

theorem State.frameEnd_whole {age : Nat} {x : Copy} (sending : s.sendingOn p = some x) (whole : x.sent = 0) :
    s.frameEnd p age = (((s.sent x (s.nowQ - age)).pausesDue p).selectNext p).settle := by
  unfold State.frameEnd
  simp only [sending, whole, Nat.lt_irrefl, if_false]

theorem State.frameEnd_lastFragment {age : Nat} {x : Copy} (sending : s.sendingOn p = some x) (cut : 0 < x.sent) :
    s.frameEnd p age =
      ((((s.sent x (s.nowQ - age)).cnt32 (pPORT p) CNT_TX_FRAG).pausesDue p).selectNext p).settle := by
  unfold State.frameEnd
  simp only [sending, cut, if_true]

theorem State.frameEnd_idle {age : Nat} (idle : s.sendingOn p = none) :
    s.frameEnd p age = ((s.pausesDue p).selectNext p).settle := by
  unfold State.frameEnd
  simp only [idle]

theorem State.preemptAt_express {n : Nat} {x y : Copy} (may : s.mayCut p x n = true)
    (express : s.choose p (fun c => s.expressCls p c) = some y) :
    s.preemptAt p x n = ((s.cutFrame p x n).pausesDue p).startFrame y := by
  unfold State.preemptAt
  simp only [may, express, Bool.not_true, Bool.false_eq_true, if_false]

section

variable {clocks age : Nat} {port : Fin 34} (up : s.switchUp = true)

include up

theorem execFrameTransmitEnd_boundary : execFrameTransmitEnd ⟨clocks, age⟩ port none s =
    .next (((s.advance clocks).creditRun port.val).frameEnd port.val age) := by
  unfold execFrameTransmitEnd
  simp only [up, Bool.not_true, Bool.false_eq_true, if_false]

theorem execFrameTransmitEnd_fragment {n : Nat} {x : Copy}
    (sending : ((s.advance clocks).creditRun port.val).sendingOn port.val = some x) :
    execFrameTransmitEnd ⟨clocks, age⟩ port (some n) s =
      .next ((((s.advance clocks).creditRun port.val).preemptAt port.val x n).settle) := by
  unfold execFrameTransmitEnd
  simp only [up, sending, Bool.not_true, Bool.false_eq_true, if_false]

end

/-! ### Hold and gate lists (R169, R171) -/

theorem execHoldRequest_eq {port : Fin 27} {n : Nat} (up : s.switchUp = true) (started : s.plate.started = true)
    (tas : s.tfOn tBPORT port.val bTAS_EN = true) (free : s.holding port.val = false)
    (ahead : s.holdAhead port.val = some n) :
    execHoldRequest port s = .next { s with sw.hold := s.sw.hold ++ [(port.val, n)] } := by
  unfold execHoldRequest
  simp only [up, started, tas, free, ahead, Bool.not_false, Bool.and_self, if_true]

theorem execBufGclCommit_eq {a : Access} {v : Word} (accepts : s.Accepts a pBUF BUF_GCL v) (commit : v.getLsbD 0 = true) :
    execBufGclCommit a v s = .next { s.ok with sw.gclPend := true } := by
  rw [execBufGclCommit, State.regWrite_accepted accepts rfl, gclCommitEff, if_pos commit]

/-! ### The readings that follow post nothing (R150, R174) -/

theorem State.posts_each {α : Type} {l : List α} {f : State → α → State} (h : ∀ x a, (f x a).posts = x.posts)
    (s : State) : (s.each l f).posts = s.posts := by
  unfold State.each
  induction l generalizing s with
  | nil => rfl
  | cons a l ih => exact (ih _).trans (h s a)

theorem State.judgeGroup_posts (s : State) (g : Nat × Nat) : (s.judgeGroup g).posts = s.posts := by
  unfold State.judgeGroup
  simp only [apply_ite State.posts, State.setXoff_posts, ite_self]

theorem State.settle_posts : s.settle.posts = s.posts :=
  State.posts_each State.judgeGroup_posts (s.set pBUF BUF_FREE_V s.sharedFree)

/-! ### The frame that returns from DRAM (R164, R166) -/

theorem State.readEngine_lt {q e : Nat} (h : s.readEngine q = some e) : e < 4 := by
  have turn := List.mem_of_find?_eq_some h
  obtain ⟨j, _, rfl⟩ := List.mem_map.mp turn
  exact Nat.mod_lt _ (by decide)

theorem bridgeDie_spl {e : Nat} (h : e < 4) : bridgeDie (tyOf (pSPL e)) = none := by
  rw [tyOf_pSPL ⟨e, h⟩]
  decide

/-- What the read-back of copy x of queue q takes from engine e: its cells, its share of the engine's read rate, the
turn. -/
def State.readBack (s : State) (q e : Nat) (x : Copy) : State :=
  { s.freeDram x with
    sw.held := s.sw.held.filter fun c => c.id != x.id
    sw.splRd := setNth s.sw.splRd e (nth s.sw.splRd e 0 - x.cells * 1024)
    sw.splTurn := sput 0 q (e + 1) s.sw.splTurn }

/-- The frame cannot be corrected: it is counted and recorded with code 0x231B, and dropped. -/
def State.eccDrop (s : State) (e : Nat) : State :=
  (((s.cnt32 (pSPL e) SPL_CNT_ECC).irq (pSPL e) INT_SPL_ECC_DROP).err (pSPL e) 0x231B 0).settle

/-- The frame stands in the shared pool, at the tail of its queue. -/
def State.returned (s : State) (e : Nat) (x : Copy) : State :=
  (({ s with sw.held := s.sw.held ++ [{ x with place := .shared }] } : State).cnt32 (pSPL e) SPL_CNT_RD).settle

theorem State.posted_eccDrop {e : Nat} (engine : e < 4) : (s.eccDrop e).Posted (pSPL e) 0x231B 0 := by
  unfold State.Posted State.eccDrop
  rw [State.settle_posts]
  exact State.posted_err (bridgeDie_spl engine)

section

variable {clocks e : Nat} {q : Fin 272} {x : Copy} {u : State} (fill : u = (s.advance clocks).splFill e)
  (up : s.switchUp = true) (dram : s.dramUp = true) (below : s.qOn q.val < s.tf tQUEUE q.val qSPILL_THR)
  (free : x.cells ≤ s.sharedFree) (rate : x.cells * 1024 ≤ nth u.sw.splRd e 0)

include fill up dram below free rate

/-- Filling the engine's buckets leaves what the read-back asks for as it is. -/
theorem State.readBack_allowed : (u.switchUp && u.dramUp && decide (u.qOn q.val < u.tf tQUEUE q.val qSPILL_THR)
    && decide (x.cells ≤ u.sharedFree) && decide (x.cells * 1024 ≤ nth u.sw.splRd e 0)) = true := by
  subst fill
  have up' : ((s.advance clocks).splFill e).switchUp = true := up
  have dram' : ((s.advance clocks).splFill e).dramUp = true := dram
  have below' : ((s.advance clocks).splFill e).qOn q.val < ((s.advance clocks).splFill e).tf tQUEUE q.val qSPILL_THR := below
  have free' : x.cells ≤ ((s.advance clocks).splFill e).sharedFree := free
  simp only [up', dram', below', free', rate, decide_true, Bool.and_self]

theorem execSpillReadback_eq {ecc : Bool} (engine : (s.advance clocks).readEngine q.val = some e)
    (next : (u.sw.held.find? fun c => c.q == q.val && c.place == .dram e) = some x) :
    execSpillReadback clocks q ecc s = .next (if ecc then (u.readBack q.val e x).eccDrop e
      else (u.readBack q.val e x).returned e x) := by
  have allowed := State.readBack_allowed fill up dram below free rate
  subst fill
  unfold execSpillReadback
  simp only [engine, next, allowed, if_true]
  rfl

end

/-- Settles O7, command by command: the pause frames a port sends and receives, its watchdogs, the frame boundary and the
preemption point, hold, gate lists and the return from DRAM. -/
theorem switchTransmissionCommandsComplete : Obligations.SwitchTransmissionCommandsComplete := by
  refine ⟨?send, ?repeatIdle, ?repeatBehind, ?receivePause, ?receivePfc, ?expiry, ?trip, ?recover, ?storm, ?endWhole,
    ?endFragment, ?endIdle, ?preempt, ?hold, ?commit, ?readback⟩
  case send =>
    intro port c s canonical due pauses idle
    have frame : Frame (Offs 0 []) _ ({ s with sw.pauseDue := [] } : State) _ :=
      State.frame_sendPause (p := port.val) (c := c)
    exact ⟨_, execPauseFrameSend_eq due pauses idle, State.sendPause_out, by rw [State.sendPause_sw], frame.regs,
      frame.rest⟩
  case repeatIdle =>
    intro port cls s canonical pauses xoff idle
    refine ⟨_, execXoffRepeat_idle pauses xoff idle, ?_, State.frame_sendPause⟩
    rw [State.sendPause_out, State.pauseOf, if_pos xoff]
  case repeatBehind =>
    intro port cls x s canonical pauses xoff busy new
    exact ⟨_, execXoffRepeat_behind pauses xoff busy new, rfl⟩
  case receivePause =>
    intro clocks port enable q s canonical up link fc kind positive
    have h : (s.advance clocks).TabsOk := canonical.tabsOk
    have tables : TabsOnly (s.advance clocks) ((s.advance clocks).pauseTaken port.val false enable [q]) :=
      State.pauseTaken_tabsOnly
    have frame : Frame (Offs 0 []) _ (s.advance clocks) _ := tables.frame
    have time := (congrArg State.tb tables).trans rfl
    refine ⟨_, execPauseFrameReceive_eq up link fc kind, fun c => State.tfOn_pauseTaken_pause h c.isLt positive,
      congrArg TimeState.clocks time, frame.regs, frame.rest.trans ?_⟩
    rw [time]
    rfl
  case receivePfc =>
    intro clocks port c quanta s canonical up link fc kind enabled
    have h : (s.advance clocks).TabsOk := canonical.tabsOk
    have frame : Frame (Offs 0 []) _ (s.advance clocks) ((s.advance clocks).pauseTaken port.val true (2 ^ c.val) quanta) :=
      State.pauseTaken_tabsOnly.frame
    refine ⟨_, execPauseFrameReceive_eq up link fc kind, ?_, fun e other => ?_, frame.regs, frame.rest⟩
    · exact (State.tfOn_pauseTaken_pfc h c.isLt enabled).trans (if_pos rfl)
    · exact (State.tfOn_pauseTaken_pfc h e.isLt enabled).trans (if_neg (Fin.val_ne_of_ne other))
  case expiry =>
    intro port cls s canonical up
    refine ⟨_, congrArg Host.Outcome.next (if_pos up), ?_, fun _ _ => rfl, rfl⟩
    rw [State.tfOn_tfSet_same canonical.tabsOk (paused_fits cls.isLt), Nat.zero_mod]
    rfl
  case trip =>
    intro port cls s canonical up wd paused first
    have h : (s.tfSet tBPORT port.val (bTRIPPED cls.val) 1).RegsOk := canonical.regsOk
    refine ⟨_, execPfcWatchdogTrip_eq up wd paused first, ?_, State.posted_err bridgeDie_buf, ?_⟩
    · rw [State.tfOn_err, State.tfOn_tfSet_same canonical.tabsOk (tripped_fits cls.isLt)]
      rfl
    · have frame := State.frame_err (code := 0x2216) (loc := 0x10000 + 8 * port.val + cls.val) h bridgeDie_buf
      exact ⟨frame.regs, frame.rest⟩
  case recover =>
    intro port cls s canonical up tripped
    have h := canonical.tabsOk
    have h' : (s.tfSet tBPORT port.val (bTRIPPED cls.val) 0).TabsOk := State.tabsOk_tfSet h
    have apart : 16 + cls.val + 1 ≤ cls.val ∨ cls.val + 1 ≤ 16 + cls.val := by omega
    refine ⟨_, execPfcWatchdogRecover_eq up tripped, ?_, ?_, TabsOnly.frame (.tfSet (.tfSet .refl))⟩
    · rw [State.tfOn_tfSet_beside (f := bPAUSED cls.val) (g := bTRIPPED cls.val) h' rfl
        (tripped_fits cls.isLt) apart,
        State.tfOn_tfSet_same h (tripped_fits cls.isLt)]
      rfl
    · rw [State.tfOn_tfSet_same h' (paused_fits cls.isLt)]
      rfl
  case storm =>
    intro port cls s canonical up limit xoff act
    have change := State.stormEnded_change xoff
    have h : ({ s.err pBUF 0x2217 (0x10000 + 8 * port.val + cls.val) with
        sw.stormed := s.sw.stormed ++ [(port.val, cls.val)] } : State).TabsOk := by
      unfold State.TabsOk
      rw [State.err_tabs]
      exact canonical.tabsOk
    refine ⟨_, execXoffStorm_eq up limit xoff act, State.posted_stormEnded, State.tfOn_setXoff change h cls.isLt,
      State.setXoff_owes change, ?_, State.frame_stormEnded canonical.regsOk⟩
    unfold State.stormEnded
    rw [State.setXoff_stormed change]
    exact List.mem_append_right _ (List.mem_singleton_self _)
  case endWhole =>
    rintro clocks port age x _ s canonical up rfl sending whole
    exact ⟨_, execFrameTransmitEnd_boundary up, State.frameEnd_whole sending whole⟩
  case endFragment =>
    rintro clocks port age x _ s canonical up rfl sending cut
    exact ⟨_, execFrameTransmitEnd_boundary up, State.frameEnd_lastFragment sending cut⟩
  case endIdle =>
    rintro clocks port age _ s canonical up rfl idle
    exact ⟨_, execFrameTransmitEnd_boundary up, State.frameEnd_idle idle⟩
  case preempt =>
    rintro clocks port n age x y _ s canonical up rfl sending may express
    exact ⟨_, execFrameTransmitEnd_fragment up sending, congrArg State.settle (State.preemptAt_express may express)⟩
  case hold =>
    intro port n s canonical up started tas free ahead
    exact ⟨_, execHoldRequest_eq up started tas free ahead, rfl, fun _ _ => rfl, rfl⟩
  case commit =>
    intro a v s canonical accepts commit
    exact ⟨_, execBufGclCommit_eq accepts commit, rfl, fun _ _ => rfl, rfl⟩
  case readback =>
    rintro clocks q ecc e x u _ s canonical engine fill next up dram below free rate rfl
    refine ⟨_, execSpillReadback_eq fill up dram below free rate engine next, rfl, fun lost => ?_⟩
    rw [if_pos lost]
    exact State.posted_eccDrop (State.readEngine_lt engine)

end Sys2Proof.Machine

end

/-!
## Discrete inputs (spec/09 R282-R296)

What a flag bit of a DIG page and an entry of the inputs read after a change, what the forming of INC_WK_REQ writes, the
stuck timer, and the scan in STANDBY.
-/

section

namespace Sys2Proof.Machine

variable {s : State} {m : Nat}

/-! ### Flag bits and entries -/

theorem testBit_putFlag_same (n i : Nat) (b : Bool) : (putFlag n i b).testBit i = b := by
  unfold putFlag
  split
  · assumption
  · next differs =>
    rw [Nat.testBit_xor, Nat.testBit_two_pow_self]
    cases b <;> simpa using differs

/-- A bit of a mask field reads what it is set to. -/
theorem State.bit_setBit_same {p n : Nat} {f : Fld} {b : Bool} (h : s.RegsOk) (fits : f.lo + f.len ≤ 32) (hn : n < f.len) :
    (s.setBit p f n b).bit p f n = b := by
  unfold State.bit State.setBit
  rw [State.get_set_same _ _ _ h fits, Nat.testBit_mod_two_pow, testBit_putFlag_same]
  simp [hn]

theorem nth_modNth_same {α : Type} {l : List α} {i : Nat} {f : α → α} {d : α} (h : i < l.length) :
    nth (modNth l i f) i d = f (nth l i d) := by
  simp [nth, modNth, h]

theorem State.din_modDin_same {f : DinState → DinState} (h : m < s.dins.length) : (s.modDin m f).din m = f (s.din m) :=
  nth_modNth_same h

/-- A change of one input's entry touches no register. -/
theorem State.frame_modDin {r : Nat → Prop} {f : DinState → DinState} :
    Frame r { s with dins := (s.modDin m f).dins } s (s.modDin m f) := ⟨fun _ _ => rfl, rfl⟩

theorem State.Sized.dins_length (h : s.Sized) : s.dins.length = 48 := by
  obtain ⟨_, _, _, _, _, dins, _⟩ := h
  exact dins

/-! ### The pages of the inputs (R281) -/

theorem div_sixteen_lt_three (hm : m < 48) : m / 16 < 3 := by omega

theorem bridgeDie_dinPage (hm : m < 48) : bridgeDie (tyOf (dinPage m)) = none := by
  rw [tyOf_pDIG ⟨m / 16, div_sixteen_lt_three hm⟩]
  decide

/-- The pages that the inputs and their controller write. -/
abbrev inputPages : List Nat := [pINC, pDIG 0, pDIG 1, pDIG 2]

theorem pageBase_dinPage (hm : m < 48) {off : Nat} (inside : off < 0x1000) : pageBase (dinPage m + off) ∈ inputPages := by
  have page : dinPage m % 0x1000 = 0 := by show (0x20401000 + 0x1000 * (m / 16)) % 0x1000 = 0; omega
  have pages : ∀ i : Fin 3, pDIG i.val ∈ inputPages := by decide
  rw [pageBase_add page inside]
  exact pages ⟨m / 16, div_sixteen_lt_three hm⟩

/-! ### INC_WK_REQ (R294) -/

/-- The registers that the forming of INC_WK_REQ may write: those of the INC page and the wake counts of the inputs. -/
abbrev WakeRegs : Nat → Prop := fun addr =>
  Offs pINC [INC_WK_REQ_LO, INC_WK_REQ_HI, INT_RAW, INC_WK_LAST] addr ∨ ∃ m < 48, addr = dinPage m + DIN_CNT (dinIx m)

theorem lt_of_mem_setBits {n v : Nat} (h : m ∈ setBits n v) : m < n := List.mem_range.mp (List.mem_filter.mp h).1

/-- INC_WK_REQ shows a mask of requests. -/
def State.reqShown (s : State) (new : Nat) : State :=
  (s.set pINC INC_WK_REQ_LO_V (new % 2 ^ 32)).set pINC INC_WK_REQ_HI_V (new / 2 ^ 32)

/-- A change from 0: WAKE is set, a wake of each input concerned counted, and INC_WK_LAST names the lowest of them. -/
def State.reqTaken (s : State) (new : Nat) : State :=
  let s1 := (s.irq pINC INT_INC_WAKE).each (setBits 48 new) fun s m => s.cnt (dinPage m) (DIN_CNT_WAKE (dinIx m))
  let s2 := (s1.set pINC INC_WK_LAST_DIN ((setBits 48 new).headD 0)).set pINC INC_WK_LAST_STANDBY 0
  s2.set pINC INC_WK_LAST_WAKES (wrapAdd 16 (s2.get pINC INC_WK_LAST_WAKES) 1)

/-- The forming of INC_WK_REQ shows some mask of requests, and no more unless that is a change from 0. -/
theorem State.wakeEval_cases (s : State) :
    ∃ new, s.wakeEval.1 = s.reqShown new ∨ s.wakeEval.1 = (s.reqShown new).reqTaken new := by
  refine ⟨maskOf ((List.range 48).filter fun m => s.dinRequests m), ?_⟩
  by_cases change : s.wakeReq = 0 ∧ maskOf ((List.range 48).filter fun m => s.dinRequests m) ≠ 0
  · exact .inr (congrArg Prod.fst (if_pos change))
  · exact .inl (congrArg Prod.fst (if_neg change))

/-- Each mask of requests that is shown or taken writes registers of `WakeRegs` only. -/
theorem Framed.wakeEval {r : Nat → Prop} {t : State} (h : Framed r s t) (k : ∀ x, WakeRegs x → r x) :
    Framed r s t.wakeEval.1 := by
  have own : ∀ off ∈ [INC_WK_REQ_LO, INC_WK_REQ_HI, INT_RAW, INC_WK_LAST], r (pINC + off) :=
    fun off mem => k _ (.inl (List.mem_map_of_mem mem))
  obtain ⟨new, shown | taken⟩ := t.wakeEval_cases
  · rw [shown]
    exact (h.set (own _ (by decide))).set (own _ (by decide))
  · rw [taken]
    have raised : Framed r s ((t.reqShown new).irq pINC INT_INC_WAKE) :=
      ((h.set (own _ (by decide))).set (own _ (by decide))).irq (own _ (by decide))
    have counted := raised.each (l := setBits 48 new) (f := fun s m => s.cnt (dinPage m) (DIN_CNT_WAKE (dinIx m)))
      fun _ m mem framed => framed.cnt (k _ (.inr ⟨m, lt_of_mem_setBits mem, rfl⟩))
    exact ((counted.set (own _ (by decide))).set (own _ (by decide))).set (own _ (by decide))

theorem State.rest_reqTaken {new : Nat} : (s.reqTaken new).rest = s.rest := by
  unfold State.reqTaken
  dsimp only
  rw [State.rest_set, State.rest_set, State.rest_set, State.rest_each fun _ _ => State.rest_cnt .., State.rest_irq]

theorem State.rest_wakeEval (s : State) : s.wakeEval.1.rest = s.rest := by
  obtain ⟨new, shown | taken⟩ := s.wakeEval_cases
  · rw [shown, State.reqShown, State.rest_set, State.rest_set]
  · rw [taken, State.rest_reqTaken, State.reqShown, State.rest_set, State.rest_set]

theorem WakeRegs.page {addr : Nat} (h : WakeRegs addr) : Pages inputPages addr := by
  rcases h with own | ⟨m, hm, rfl⟩
  · have pages : ∀ x ∈ [INC_WK_REQ_LO, INC_WK_REQ_HI, INT_RAW, INC_WK_LAST].map (pINC + ·), pageBase x ∈ inputPages := by
      decide
    exact pages _ own
  · exact pageBase_dinPage hm (by show 0x10C + 0x10 * (m % 16) < 0x1000; omega)

/-- The registers of a DIG page below the inputs' own keep what they read. -/
theorem not_wakeRegs_dinPage {off : Nat} (below : off < 0x100) : ¬ WakeRegs (dinPage m + off) := by
  rintro (own | ⟨n, _, same⟩)
  · have low : ∀ x ∈ [INC_WK_REQ_LO, INC_WK_REQ_HI, INT_RAW, INC_WK_LAST].map (pINC + ·), x < pDIG 0 := by decide
    have below_dig : dinPage m + off < 0x20401000 := low _ own
    have : 0x20401000 + 0x1000 * (m / 16) + off < 0x20401000 := below_dig
    omega
  · have : 0x20401000 + 0x1000 * (m / 16) + off = 0x20401000 + 0x1000 * (n / 16) + (0x10C + 0x10 * (n % 16)) := same
    omega

theorem State.get_wakeEval_dinPage {f : Fld} (h : s.RegsOk) (below : f.off < 0x100) :
    s.wakeEval.1.get (dinPage m) f = s.get (dinPage m) f :=
  State.get_congr (((Framed.refl h).wakeEval fun _ k => k).regs _ (not_wakeRegs_dinPage below))

/-! ### The stuck timer (R292) -/

/-- An input becomes STUCK: its flag, the interrupt of its page, its count, and code 0x6210. -/
def State.stuckMarked (s : State) (m : Nat) : State :=
  (((s.setBit (dinPage m) DIG_FLAG_STUCK (dinIx m) true).irq (dinPage m) INT_DIG_STUCK).cnt (dinPage m)
    (DIN_CNT_STUCK (dinIx m))).err (dinPage m) 0x6210 m

theorem State.stuckStep_expired (active : s.dinActive m = true) (free : s.dinStuck m = false)
    (timed : s.get (dinPage m) (DIN_TIME_STUCK_T (dinIx m)) ≠ 0)
    (expired : (s.din m).activeAt + s.get (dinPage m) (DIN_TIME_STUCK_T (dinIx m)) * 50000000 ≤ s.tb.clocks) :
    s.stuckStep m = s.stuckMarked m := by
  unfold State.stuckStep State.stuckMarked
  simp only [active, bne_iff_ne.mpr timed, free, expired, Bool.not_false, Bool.and_self, decide_true, if_true]

theorem execDinStuck_eq {clocks : Nat} {m : Fin 48} (up : (s.advance clocks).up.compute = true)
    (step : (s.advance clocks).stuckStep m.val = (s.advance clocks).stuckMarked m.val) :
    execDinStuck clocks m s = .next ((s.advance clocks).stuckMarked m.val).wakeEval.1 := by
  unfold execDinStuck
  dsimp only
  rw [if_pos up, step]

section

variable (h : s.RegsOk)

include h

theorem Framed.stuckMarked (hm : m < 48) : Framed (Pages inputPages) s (s.stuckMarked m) := by
  have own {off : Nat} (inside : off < 0x1000) : Pages inputPages (dinPage m + off) := pageBase_dinPage hm inside
  have flagged : Framed (Pages inputPages) s (s.setBit (dinPage m) DIG_FLAG_STUCK (dinIx m) true) :=
    (Framed.refl h).set (own (by decide))
  have counted := (flagged.irq (b := INT_DIG_STUCK) (own (by decide))).cnt (d := 1) (f := DIN_CNT_STUCK (dinIx m))
    (own (by show 0x10C + 0x10 * (m % 16) < 0x1000; omega))
  exact counted.err (bridgeDie_dinPage hm) (own (by decide)) (own (by decide)) (own (by decide))

theorem State.dinStuck_stuckMarked (hm : m < 48) : (s.stuckMarked m).dinStuck m = true := by
  have flagged : (s.setBit (dinPage m) DIG_FLAG_STUCK (dinIx m) true).RegsOk := State.regsOk_set h
  have raised := State.regsOk_irq (p := dinPage m) (b := INT_DIG_STUCK) flagged
  unfold State.dinStuck State.bit State.stuckMarked
  rw [State.get_err_other (State.regsOk_cnt raised) (bridgeDie_dinPage hm) (offset_ne (by decide)) (offset_ne (by decide))
      (offset_ne (by decide)),
    State.get_cnt_other raised (offset_ne (by show 0x04C ≠ 0x10C + 0x10 * (m % 16); omega)),
    State.get_irq_other flagged (offset_ne (by decide))]
  exact State.bit_setBit_same h (by decide) (Nat.mod_lt _ (by decide))

theorem State.irq_stuckMarked (hm : m < 48) : (s.stuckMarked m).Irq (dinPage m) INT_DIG_STUCK := by
  have flagged : (s.setBit (dinPage m) DIG_FLAG_STUCK (dinIx m) true).RegsOk := State.regsOk_set h
  have raised := State.regsOk_irq (p := dinPage m) (b := INT_DIG_STUCK) flagged
  refine State.on_err_kept (State.regsOk_cnt raised) (by decide) (bridgeDie_dinPage hm) ?_
  rw [State.on_cnt_other raised (offset_ne (by show 0x018 ≠ 0x10C + 0x10 * (m % 16); omega))]
  exact State.irq_on _ _ flagged (by decide)

end

/-- Of the fields besides registers an input that becomes STUCK writes the posted codes only. -/
theorem State.rest_stuckMarked (hm : m < 48) :
    (s.stuckMarked m).rest = ({ s with posts := (s.stuckMarked m).posts } : State).rest := by
  have counted : (((s.setBit (dinPage m) DIG_FLAG_STUCK (dinIx m) true).irq (dinPage m) INT_DIG_STUCK).cnt (dinPage m)
      (DIN_CNT_STUCK (dinIx m))).rest = s.rest := State.rest_cnt ..
  have same := congrArg (fun w : State => { w with posts := (s.stuckMarked m).posts }) counted
  exact (State.rest_err_posted (bridgeDie_dinPage hm)).trans same

theorem State.posts_of_rest {t u : State} (e : t.rest = u.rest) : t.posts = u.posts := by
  have posts : t.rest.posts = u.rest.posts := congrArg State.posts e
  exact posts

/-- A step whose other fields are those of u leaves fuses, tables and memory where u does. -/
theorem RegFrame.of_rest {r : Nat → Prop} {t u : State} (h : Framed r s t) (e : t.rest = u.rest) (fuses : u.fuses = s.fuses)
    (tabs : u.tabs = s.tabs) (mem : u.mem = s.mem) : RegFrame r s t := by
  have fuses' : t.rest.fuses = u.rest.fuses := congrArg State.fuses e
  have tabs' : t.rest.tabs = u.rest.tabs := congrArg State.tabs e
  have mem' : t.rest.mem = u.rest.mem := congrArg State.mem e
  exact ⟨h.regs, fuses'.trans fuses, tabs'.trans tabs, mem'.trans mem⟩

/-! ### The scan in STANDBY (R296) -/

/-- The scan's own state after a scan that finds input m, the only one it looks at, active. -/
def State.scanLooked (s : State) (m : Nat) : State :=
  { s with scan := ({ s.scan with scans := s.scan.scans + 1 } : ScanState).look s.tb.clocks m true }

/-- What a scan that finds input m active again records in INC_WK_LAST. -/
def State.scanRecorded (s : State) (m : Nat) : State :=
  ((s.scanLooked m).set pINC INC_WK_LAST_DIN m).set pINC INC_WK_LAST_STANDBY 1

/-- What the hit does then: the wake is counted, the start requested, and WAKE_L pulses. -/
def State.scanWake (s : State) (m : Nat) : State :=
  ((s.set pINC INC_WK_LAST_WAKES (wrapAdd 16 (s.get pINC INC_WK_LAST_WAKES) 1)).startWake ⟨3, m⟩ false
    s.tb.clocks).localPulse

theorem execStandbyScan_hit {clocks levels : Nat} {u : State} (time : s.advance clocks = u) (standby : u.mode = mSTANDBY)
    (idle : u.slp.starting = false) (on : u.up.alwaysOn = true)
    (armed : (List.range 48).filter (fun m => u.scan.armed.testBit m && !u.disarmed.testBit m) = [m])
    (active : levels.testBit m ≠ u.scan.inv.testBit m) (before : u.scan.last.testBit m = true)
    (free : u.scan.stuck.testBit m = false) :
    execStandbyScan clocks levels s = .next ((u.scanRecorded m).scanWake m) := by
  have seen : (levels.testBit m != u.scan.inv.testBit m) = true := bne_iff_ne.mpr active
  have hit : [m].filter (fun m => (levels.testBit m != u.scan.inv.testBit m) && u.scan.last.testBit m &&
      !u.scan.stuck.testBit m) = [m] := by simp only [List.filter_cons, seen, before, free]; rfl
  unfold execStandbyScan State.scanRecorded State.scanLooked State.scanWake
  simp only [time, standby, idle, on, armed, hit, List.foldl_cons, List.foldl_nil, seen, bne_self_eq_false,
    Bool.not_true, Bool.or_self, Bool.false_eq_true, if_false, State.set_tb]

/-! ### The counters of a page and the state of one input (R283, R288, R289) -/

theorem digCntClrEff_set {i : Nat} {v : Word} (clr : v.getLsbD 0 = true) :
    digCntClrEff i v s = s.zeroRegs (pDIG i) ((List.range 16).map DIN_CNT) := by
  unfold digCntClrEff
  rw [if_pos clr]
  unfold State.zeroRegs State.each
  rw [List.foldl_map]
  rfl

theorem execDigCntClr_eq {a : Access} {i : Fin 3} {v : Word} (accepts : s.Accepts a (pDIG i.val) DIG_CNT_CLR v)
    (clr : v.getLsbD 0 = true) :
    execDigCntClr a i v s = .next (s.ok.zeroRegs (pDIG i.val) ((List.range 16).map DIN_CNT)) := by
  rw [execDigCntClr, State.regWrite_accepted accepts rfl, digCntClrEff_set clr]

theorem execWettingPulseStart_eq {m : Fin 48} (up : s.up.compute = true) (pulsed : (s.din m.val).pulsed = true) :
    execWettingPulseStart m s = .next (s.modDin m.val fun x => { x with wet := true }) := by
  unfold execWettingPulseStart
  rw [up, pulsed]
  rfl

theorem execComparatorTransition_counted {clocks : Nat} {m : Fin 48} {rising : Bool}
    (up : (s.advance clocks).up.compute = true) (changes : ((s.advance clocks).din m.val).comp ≠ rising)
    (counts : (s.advance clocks).chatterCounts m.val = true) :
    execComparatorTransition clocks m rising s =
      .next ((s.advance clocks).modDin m.val fun x => { x with comp := rising, trans := x.trans + 1 }) := by
  unfold execComparatorTransition
  dsimp only
  rw [if_neg changes, up, counts]
  rfl

/-- Settles O19, command by command: the stuck timer, the scan in STANDBY, the counters set to 0, and the entries of the
inputs that wetting pulses and comparator transitions write. -/
theorem inputCommandsComplete : Obligations.InputCommandsComplete := by
  refine ⟨?stuck, ?scan, ?counters, ?pulseStart, ?pulseEnd, ?transition⟩
  case stuck =>
    intro clocks m s canonical up active free timed expired
    have h : (s.advance clocks).RegsOk := canonical.regsOk
    have marked := Framed.stuckMarked h m.isLt
    have rest := ((s.advance clocks).stuckMarked m.val).rest_wakeEval
    refine ⟨_, execDinStuck_eq up (State.stuckStep_expired active free timed expired), ?_, ?_, ?_, ?_⟩
    · unfold State.dinStuck State.bit
      rw [State.get_wakeEval_dinPage marked.ok (by decide)]
      exact State.dinStuck_stuckMarked h m.isLt
    · unfold State.Irq State.on
      rw [State.get_wakeEval_dinPage marked.ok (by decide)]
      exact State.irq_stuckMarked h m.isLt
    · unfold State.Posted
      rw [State.posts_of_rest rest]
      exact State.posted_err (bridgeDie_dinPage m.isLt)
    · have framed : Framed (Pages inputPages) s ((s.advance clocks).stuckMarked m.val) := ⟨marked.regs, marked.ok⟩
      exact .of_rest (framed.wakeEval fun _ k => k.page) (rest.trans (State.rest_stuckMarked m.isLt)) rfl rfl rfl
  case scan =>
    intro clocks levels m u v s canonical looked recorded standby idle on armed active before free
    have last : v = (s.advance clocks).scanRecorded m := by rw [recorded, looked]; rfl
    refine ⟨_, execStandbyScan_hit rfl standby idle on armed active before free, ?_⟩
    rw [last]
    rfl
  case counters =>
    intro a i v s canonical accepts clr
    have h : s.ok.RegsOk := canonical.regsOk
    exact ⟨_, execDigCntClr_eq accepts clr,
      fun n => State.rd_zeroRegs_mem h (List.mem_map_of_mem (List.mem_range.mpr n.isLt)),
      (Framed.zeroRegs (s := s.ok) (.refl h) fun o mem => List.mem_map_of_mem mem).regs, State.rest_zeroRegs⟩
  case pulseStart =>
    intro m s canonical sized up pulsed
    refine ⟨_, execWettingPulseStart_eq up pulsed, ?_, State.frame_modDin⟩
    rw [State.din_modDin_same (by rw [sized.dins_length]; exact m.isLt)]
  case pulseEnd =>
    intro m s canonical sized
    refine ⟨_, rfl, ?_, State.frame_modDin⟩
    rw [State.din_modDin_same (by rw [sized.dins_length]; exact m.isLt)]
  case transition =>
    intro clocks m rising s canonical sized up changes counts
    have entry : m.val < (s.advance clocks).dins.length := by rw [State.advance_dins, sized.dins_length]; exact m.isLt
    refine ⟨_, execComparatorTransition_counted up changes counts, ?_, ?_, State.frame_modDin⟩
    · rw [State.din_modDin_same entry]
    · rw [State.din_modDin_same entry]

end Sys2Proof.Machine

end

/-!
## A window access without an operation (spec/10 Table 10-12)

GO asks for a valid operation before it looks at BUSY: with OP = 0 the write is refused with cause 0x0B, and code 0x7010 of an
access under way is not posted.
-/

section

namespace Sys2Proof.Machine

variable {s : State} {a : Access} {v : Word}

theorem bridgeDie_tbr : bridgeDie (tyOf pTBR) = none := by decide

/-- An allowed write that the register's own rule refuses. -/
theorem State.regWrite_ruledOut {p off c : Nat} {pre : State → Option Nat} {eff : State → State}
    (accepts : s.Accepts a p off v) (rule : pre s = some c) : s.regWrite a p off v pre eff = s.refuseWrite p off c := by
  obtain ⟨up, access, value⟩ := accepts
  unfold State.regWrite
  simp only [up, access, value, rule, Bool.not_true, Bool.false_eq_true, if_false]

theorem tbrCmdPre_noOperation (go : v.getLsbD 16 = true) (noOp : bitsOf v.toNat 0 2 = 0) : tbrCmdPre v s = some 0x0B := by
  simp [tbrCmdPre, go, noOp]

/-- Whether or not an access is under way, GO without an operation is refused. -/
theorem execTbrRead_noOperation (accepts : s.Accepts a pTBR TBR_CMD v) (go : v.getLsbD 16 = true)
    (noOp : bitsOf v.toNat 0 2 = 0) : execTbrRead a v s = .next (s.refuse pTBR TBR_CMD 0x0B) := by
  have direct : s.postedTo pTBR (pTBR + TBR_CMD) = none := by simp only [State.postedTo, bridgeDie_tbr]
  rw [execTbrRead, State.regWrite_ruledOut accepts (tbrCmdPre_noOperation go noOp),
    State.refuseWrite_off_bridge direct]

/-- The refusal posts the common code of its cause. -/
theorem State.posts_refuse_tbr (present : s.absent pTBR = false) : (s.refuse pTBR TBR_CMD 0x0B).posts =
    s.posts ++ [⟨0x700B, pTBR + TBR_CMD, 0x7002, instOf pTBR, false⟩] := by
  have own : s.recordPage pTBR 0x0B = pTBR := by simp [State.recordPage, present]
  have posts : (s.refuse pTBR TBR_CMD 0x0B).posts = (s.errCause pTBR 0x0B (pTBR + TBR_CMD)).posts := by
    unfold State.refuse
    rw [own]
    rfl
  rw [posts, State.errCause, State.err_posts bridgeDie_tbr]
  rfl

/-- The module out of reset, a window access under way. -/
def windowBusy : State :=
  ({ State.reset with up := ⟨true, true, [true, true], [true, true], true⟩ } : State).set pTBR TBR_CMD_BUSY 1

theorem windowBusy_canonical : windowBusy.Canonical := by decide +kernel

theorem windowBusy_accepts : windowBusy.Accepts ⟨0, .monitor, 4⟩ pTBR TBR_CMD 0x10000 := by decide +kernel

/-- Refutes O21: a write of 0x10000 to TBR_CMD, GO with OP = 0, while BUSY = 1 posts 0x700B and not 0x7010. -/
theorem not_bridgeCommandsComplete : ¬ Obligations.BridgeCommandsComplete := by
  rintro ⟨-, -, -, -, -, -, -, -, -, busy, -⟩
  obtain ⟨t, run, -, posted, -⟩ := busy ⟨0, .monitor, 4⟩ 0x10000 windowBusy windowBusy_canonical windowBusy_accepts
    (by decide) (by decide +kernel)
  have refused : exec (.tbrRead ⟨0, .monitor, 4⟩ 0x10000) windowBusy = .next (windowBusy.refuse pTBR TBR_CMD 0x0B) :=
    execTbrRead_noOperation windowBusy_accepts (by decide) (by decide)
  rw [refused] at run
  cases run
  have only : (windowBusy.refuse pTBR TBR_CMD 0x0B).posts = [⟨0x700B, pTBR + TBR_CMD, 0x7002, instOf pTBR, false⟩] :=
    State.posts_refuse_tbr (by decide +kernel)
  unfold State.Posted at posted
  rw [only, List.mem_singleton] at posted
  exact absurd (congrArg Post.code posted) (by decide)

end Sys2Proof.Machine

end

/-!
## The loss of the Phoask link with a stray frame in DRAM (spec/10 R303, spec/05 R162)

The loss of the link drops the frames queued on port TW, and a frame that lies in DRAM gives its cells back to its engine's
page. The chip has four engines, but a canonical state may hold a copy that names any number: the page of number 895 would
be the TWL page, and its register of cells TWL_STAT.
-/

section

namespace Sys2Proof.Machine

/-- The page of an engine numbered 895 would be the TWL page. -/
theorem pSPL_895 : pSPL 895 = pTWL ∧ SPL_STAT = TWL_STAT := by decide

/-- A frame of two cells, queued on port TW, that lies in DRAM behind an engine numbered 895. -/
def strayCopy : Copy :=
  { id := 1, q := 16, inPort := 4, cls := 0, colour := 0, octets := [], len := 200, vid := 1, handle := none, hash := 0
    sec := 0, ns := 0, insts := [], lag := none, mirror := false, place := .dram 895, sending := 0, sent := 0 }

/-- The module out of reset with both links up, the Phoask link and that of port TW, and the stray frame queued. -/
def strayQueued : State :=
  { (({ State.reset with up := ⟨true, true, [true, true], [true, true], true⟩ } : State).set pTWL BLK_CTRL_EN 1
      |>.set pTWL TWL_CTRL_EN 1 |>.set pTWL TWL_STAT_ST 2 |>.set (pPORT 2) PORT_STAT_LINK 1) with sw.held := [strayCopy] }

theorem strayQueued_canonical : strayQueued.Canonical := by decide +kernel

/-- Training begins as the link goes down, and the stray frame's two cells are then taken from what TWL_STAT shows. -/
theorem get_phoaskDown_strayQueued : (strayQueued.advance 0).phoaskDown.get pTWL TWL_STAT_ST = 0 := by decide +kernel

/-- Refutes O20: with a canonical state that holds a frame of engine 895 on port TW, the loss of the link leaves TWL_STAT.ST
at 0 and not at 1. -/
theorem not_phoaskCommandsComplete : ¬ Obligations.PhoaskCommandsComplete := by
  rintro ⟨-, -, -, -, timeout, -⟩
  obtain ⟨t, run, trains, -⟩ := timeout 0 strayQueued strayQueued_canonical (by decide +kernel) (by decide +kernel)
  have down : exec (.ctlFlitTimeout 0) strayQueued = .next (strayQueued.advance 0).phoaskDown := rfl
  rw [down] at run
  cases run
  rw [get_phoaskDown_strayQueued] at trains
  exact absurd trains (by decide)

end Sys2Proof.Machine

end

/-!
## Packets on a bridge (spec/10 R302, R306)

What sending a packet writes: the credits and tags that its page shows, the entry of the bridge, and the outputs.
-/

section

namespace Sys2Proof.Machine

variable {s t : State} {m : Nat → Prop}

/-! ### Reads across a frame -/

theorem Framed.rd_eq (h : Framed m s t) {p off : Nat} (n : ¬ m (p + off)) : t.rd p off = s.rd p off := h.regs _ n

theorem Framed.get_eq (h : Framed m s t) {p : Nat} {f : Fld} (n : ¬ m (p + f.off)) : t.get p f = s.get p f :=
  State.get_congr (h.rd_eq n)

theorem Framed.on_eq (h : Framed m s t) {p : Nat} {f : Fld} (n : ¬ m (p + f.off)) : t.on p f = s.on p f := by
  unfold State.on
  rw [h.get_eq n]

/-- A set field reads its value where the value fits. -/
theorem State.get_set_fits (p : Nat) (f : Fld) (n : Nat) (h : s.RegsOk) (inside : f.lo + f.len ≤ 32)
    (fits : n < 2 ^ f.len) : (s.set p f n).get p f = n := by
  rw [State.get_set_same p f n h inside, Nat.mod_eq_of_lt fits]

/-! ### Steps that touch nothing but registers, bridges and outputs -/

/-- From s to t, of the fields besides registers and answer, only the bridges and the outputs change. -/
def BridgesOnly (s t : State) : Prop := t.rest = ({ s with bridges := t.bridges, out := t.out } : State).rest

namespace BridgesOnly

variable {u : State}

theorem refl : BridgesOnly s s := rfl

theorem of_rest (h : BridgesOnly s t) (e : u.rest = t.rest) : BridgesOnly s u := by
  have bridges : u.rest.bridges = t.rest.bridges := congrArg State.bridges e
  have out : u.rest.out = t.rest.out := congrArg State.out e
  unfold BridgesOnly
  rw [e, show u.bridges = t.bridges from bridges, show u.out = t.out from out]
  exact h

theorem modBridge {b : Nat} {f : BridgeState → BridgeState} (h : BridgesOnly s t) : BridgesOnly s (t.modBridge b f) := by
  have same := congrArg (fun w : State => { w with bridges := modNth t.bridges b f }) (show t.rest = _ from h)
  exact same

theorem emit {o : Out} (h : BridgesOnly s t) : BridgesOnly s (t.emit o) := by
  have same := congrArg (fun w : State => { w with out := t.out ++ [o] }) (show t.rest = _ from h)
  exact same

theorem each {α : Type} {l : List α} {f : State → α → State} (h : BridgesOnly s t)
    (step : ∀ x a, BridgesOnly s x → BridgesOnly s (f x a)) : BridgesOnly s (t.each l f) := by
  unfold State.each
  induction l generalizing t with
  | nil => exact h
  | cons a l ih => exact ih (step t a h)

theorem showBridge {b : Nat} (h : BridgesOnly s t) : BridgesOnly s (t.showBridge b) :=
  h.of_rest ((State.rest_set ..).trans (State.rest_each (fun _ _ => State.rest_set ..) t))

theorem drainVc {b vc n : Nat} (h : BridgesOnly s t) : BridgesOnly s (State.drainVc b vc n t) := by
  induction n generalizing t with
  | zero => exact h
  | succ n ih =>
    unfold State.drainVc
    split
    · exact h
    · split
      · exact ih h.modBridge.modBridge.emit
      · exact h

theorem drain {b : Nat} (h : BridgesOnly s t) : BridgesOnly s (t.drain b) := (h.each fun _ _ k => k.drainVc).showBridge

theorem sendRsv {b vc kind tag : Nat} {body : List Nat} {posted : Bool} (h : BridgesOnly s t) :
    BridgesOnly s (t.sendRsv b vc kind body posted tag) := by
  unfold State.sendRsv
  split
  · exact h.modBridge.drain
  · exact h

/-- A field that is neither a register nor a bridge nor an output stays. -/
theorem field {α : Type} (h : BridgesOnly s t) (f : State → α) (own : ∀ x : State, f x.rest = f x := by exact fun _ => rfl)
    (apart : ∀ x y : State, f { x with bridges := y.bridges, out := y.out } = f x := by exact fun _ _ => rfl) :
    f t = f s := by
  rw [← own t, show t.rest = _ from h, own, apart]

theorem mig (h : BridgesOnly s t) : t.mig = s.mig := h.field State.mig

theorem twin (h : BridgesOnly s t) : t.twin = s.twin := h.field State.twin

end BridgesOnly

/-! ### The registers that sending writes -/

theorem State.regs_drainVc {b vc n : Nat} : (State.drainVc b vc n s).regs = s.regs := by
  induction n generalizing s with
  | zero => rfl
  | succ n ih =>
    unfold State.drainVc
    split
    · rfl
    · split
      · exact ih
      · rfl

namespace Framed

variable {b : Nat}

theorem showBridge (h : Framed m s t) (k : ∀ x ∈ [BR_CRED, BR_STAT], m (pBR b + x)) : Framed m s (t.showBridge b) :=
  (h.each fun _ _ _ framed => framed.set (k BR_CRED (by decide))).set (k BR_STAT (by decide))

theorem drain (h : Framed m s t) (k : ∀ x ∈ [BR_CRED, BR_STAT], m (pBR b + x)) : Framed m s (t.drain b) :=
  .showBridge (h.each fun _ _ _ framed => framed.of_eq State.regs_drainVc) k

theorem sendRsv {vc kind tag : Nat} {body : List Nat} {posted : Bool} (h : Framed m s t)
    (k : ∀ x ∈ [BR_CRED, BR_STAT], m (pBR b + x)) : Framed m s (t.sendRsv b vc kind body posted tag) := by
  have queued {f : BridgeState → BridgeState} : Framed m s (t.modBridge b f) := h.of_eq rfl
  exact .ite (queued.drain k) h

end Framed

/-- The registers that a packet of the twin bridge writes. -/
abbrev SendRegs : Nat → Prop := Offs pTBR [BR_CRED, BR_STAT]

theorem sendRegs_twin : ∀ x ∈ [BR_CRED, BR_STAT], SendRegs (pBR 2 + x) := by decide

theorem State.framed_sendRsv {vc kind tag : Nat} {body : List Nat} {posted : Bool} (h : s.RegsOk) :
    Framed SendRegs s (s.sendRsv 2 vc kind body posted tag) := (Framed.refl h).sendRsv sendRegs_twin

end Sys2Proof.Machine

end

/-!
## Migration (spec/10 R336)

What a write of MIG_CTRL does for each of its three bits, and what pages, control packets and rounds leave.
-/

section

namespace Sys2Proof.Machine

variable {s t : State} {m : Nat → Prop} {v : Word}

/-! ### The parts of a write of MIG_CTRL -/

/-- A bit of a word that lies in a field of known value. -/
theorem getLsbD_of_bitsOf {lo len c i : Nat} (field : bitsOf v.toNat lo len = c) (inside : i < len) :
    v.getLsbD (lo + i) = c.testBit i := by
  rw [← field, testBit_bitsOf, BitVec.getLsbD]
  simp [inside]

theorem migCtrlEff_go (go : bitsOf v.toNat 8 3 = 1) : migCtrlEff v s = (s.plain pMIG MIG_CTRL v).migBegins := by
  have begins : v.getLsbD 8 = true := getLsbD_of_bitsOf (i := 0) go (by decide)
  have copies : v.getLsbD 9 = false := getLsbD_of_bitsOf (i := 1) go (by decide)
  have goes : v.getLsbD 10 = false := getLsbD_of_bitsOf (i := 2) go (by decide)
  unfold migCtrlEff
  simp only [begins, copies, goes, Bool.false_and, Bool.false_eq_true, if_false, if_true]

theorem migCtrlEff_abort (abort : bitsOf v.toNat 8 3 = 4) :
    migCtrlEff v s = (s.plain pMIG MIG_CTRL v).migEnds true := by
  have waits : v.getLsbD 8 = false := getLsbD_of_bitsOf (i := 0) abort (by decide)
  have copies : v.getLsbD 9 = false := getLsbD_of_bitsOf (i := 1) abort (by decide)
  have ends : v.getLsbD 10 = true := getLsbD_of_bitsOf (i := 2) abort (by decide)
  unfold migCtrlEff
  simp only [waits, copies, ends, Bool.false_and, Bool.false_eq_true, if_false, if_true]

/-- The final round takes what is left of the round before and what has become dirty since. -/
def State.migFinalRound (s : State) : State :=
  (s.takeRound (s.mig.todo ++ s.dirtyPages.filter fun pg => !s.mig.todo.contains pg)).set pMIG MIG_STAT_ST 2

theorem migCtrlEff_final (final : bitsOf v.toNat 8 3 = 2)
    (copying : (s.plain pMIG MIG_CTRL v).get pMIG MIG_STAT_ST = 1)
    (sender : (s.plain pMIG MIG_CTRL v).on pMIG MIG_CTRL_DIR = false) :
    migCtrlEff v s = (s.plain pMIG MIG_CTRL v).migFinalRound := by
  have waits : v.getLsbD 8 = false := getLsbD_of_bitsOf (i := 0) final (by decide)
  have finishes : v.getLsbD 9 = true := getLsbD_of_bitsOf (i := 1) final (by decide)
  have goes : v.getLsbD 10 = false := getLsbD_of_bitsOf (i := 2) final (by decide)
  unfold migCtrlEff State.migFinalRound
  simp only [waits, finishes, goes, copying, sender, Bool.false_eq_true, beq_self_eq_true, Bool.not_false, Bool.and_self,
    if_false, if_true]

theorem get_plain_migCtrl_vm (h : s.RegsOk) : (s.plain pMIG MIG_CTRL v).get pMIG MIG_CTRL_VM = bitsOf v.toNat 0 4 :=
  State.get_plain (f := MIG_CTRL_VM) h (by decide) (by decide)

theorem on_plain_migCtrl_dir (h : s.RegsOk) : (s.plain pMIG MIG_CTRL v).on pMIG MIG_CTRL_DIR = v.getLsbD 4 :=
  State.on_plain (f := MIG_CTRL_DIR) h (by decide) (by decide) rfl

/-! ### What the steps of a migration read -/

theorem Framed.migRuns_eq (h : Framed m s t) (n : ¬ m (pMIG + MIG_STAT)) : t.migRuns = s.migRuns := by
  unfold State.migRuns
  rw [h.get_eq n]

/-- The handshake of the twin bridge stands in two registers. -/
theorem Framed.brUp_eq (h : Framed m s t) (up : t.up = s.up) (n : ∀ x ∈ [pTWL + TWL_STAT, pTBR + BR_STAT], ¬ m x) :
    t.brUp 2 = s.brUp 2 := by
  have link : t.get pTWL TWL_STAT_ST = s.get pTWL TWL_STAT_ST := h.get_eq (n _ (by decide))
  have peer : t.on (pBR 2) BR_STAT_UP = s.on (pBR 2) BR_STAT_UP := h.on_eq (n (pTBR + BR_STAT) (by decide))
  unfold State.brUp State.brLink
  rw [up, link, peer]
  rfl

theorem State.bytes_of_mem (same : t.mem = s.mem) (addr n : Nat) : t.bytes addr n = s.bytes addr n := by
  induction n generalizing addr with
  | zero => rfl
  | succ n ih =>
    unfold State.bytes State.byte
    rw [same, ih]

/-- The leaves below a table depend on memory only. -/
theorem State.leavesOf_of_mem (same : t.mem = s.mem) (fuel level table page : Nat) :
    t.leavesOf fuel level table page = s.leavesOf fuel level table page := by
  induction fuel generalizing level table page with
  | zero => rfl
  | succ fuel ih =>
    unfold State.leavesOf State.memLE
    simp only [State.bytes_of_mem same, ih]

theorem Framed.leaves_eq (h : Framed m s t) (same : t.mem = s.mem) (vm : Nat)
    (n : ∀ off < 0x1000, ¬ m (pVMC vm + off)) : t.leaves vm = s.leaves vm := by
  unfold State.leaves
  rw [h.on_eq (n _ (by decide)), h.get_eq (n _ (by decide)), h.get_eq (n _ (by decide)), State.leavesOf_of_mem same]

/-- The answer to an access is outside the tables. -/
theorem State.leaves_ok (h : s.RegsOk) (vm : Nat) : s.ok.leaves vm = s.leaves vm := by
  have answered : Framed (fun _ => False) s s.ok := (Framed.refl h).of_eq rfl
  exact answered.leaves_eq rfl vm fun _ _ => id

/-! ### Memory that a round and an end write -/

theorem State.regs_setBytes {addr : Nat} {l : List Nat} : (s.setBytes addr l).regs = s.regs := by
  induction l generalizing s addr with
  | nil => rfl
  | cons b bs ih => exact ih.trans rfl

theorem State.regs_freeBytes {addr n : Nat} : (State.freeBytes addr n s).regs = s.regs := by
  induction n generalizing s addr with
  | zero => rfl
  | succ n ih => exact ih.trans rfl

/-- An operation on each element that leaves the registers alone leaves them alone altogether. -/
theorem State.regs_each {α : Type} {l : List α} {f : State → α → State} (step : ∀ x a, (f x a).regs = x.regs) :
    (s.each l f).regs = s.regs := by
  unfold State.each
  induction l generalizing s with
  | nil => rfl
  | cons a l ih => exact ih.trans (step s a)

theorem State.regs_takeRound {pages : List Nat} : (s.takeRound pages).regs = s.regs :=
  State.regs_each fun _ _ => State.regs_setBytes

theorem Framed.takeRound {pages : List Nat} (h : Framed m s t) : Framed m s (t.takeRound pages) :=
  h.of_eq State.regs_takeRound

theorem Framed.sendMigControl {op round pages : Nat} (h : Framed m s t) (k : ∀ x, SendRegs x → m x) :
    Framed m s (t.sendMigControl op round pages) :=
  h.sendRsv fun x mem => k _ (sendRegs_twin x mem)

theorem State.sendMigControl_mig {op round pages : Nat} : (s.sendMigControl op round pages).mig = s.mig :=
  BridgesOnly.refl.sendRsv.mig

/-! ### GO -/

/-- A migration begins: it is copying, in round 0. -/
def State.migOpened (s : State) : State := ({ s with mig := MigState.init }.set pMIG MIG_STAT_ST 1).set pMIG MIG_STAT_ROUND 0

theorem Framed.migOpened (h : Framed m s t) (k : m (pMIG + MIG_STAT)) : Framed m s t.migOpened :=
  .set (.set (h.of_eq rfl) k) k

theorem State.framed_migOpened (h : s.RegsOk) : Framed (Offs pMIG [MIG_STAT]) s s.migOpened :=
  (Framed.refl h).migOpened (by decide)

theorem State.get_migOpened_st (h : s.RegsOk) : s.migOpened.get pMIG MIG_STAT_ST = 1 := by
  have h' : ({ s with mig := MigState.init } : State).RegsOk := h
  unfold State.migOpened
  rw [State.get_set_beside pMIG MIG_STAT_ROUND MIG_STAT_ST _ (State.regsOk_set h') rfl (by decide) (by decide),
    State.get_set_fits _ _ _ h' (by decide) (by decide)]

theorem State.get_migOpened_round (h : s.RegsOk) : s.migOpened.get pMIG MIG_STAT_ROUND = 0 := by
  have h' : ({ s with mig := MigState.init } : State).RegsOk := h
  exact State.get_set_fits _ _ _ (State.regsOk_set h') (by decide) (by decide)

/-- The sender's first round: every page of the VM, and the packet that tells the receiver. -/
def State.migSends (s : State) (pages : List Nat) : State :=
  (((s.wrn pMIG MIG_SENT 0).wrn pMIG MIG_DIRTY 0).takeRound pages).sendMigControl 1 0 pages.length

section

variable (h : s.RegsOk) (idle : s.migRuns = false) (up : s.brUp 2 = true)

include h idle up

theorem State.migBegins_receiver (receiver : s.on pMIG MIG_CTRL_DIR = true) : s.migBegins = s.migOpened := by
  have opened := State.framed_migOpened h
  have up' : s.migOpened.brUp 2 = true := (opened.brUp_eq rfl (by decide)).trans up
  have receiver' : s.migOpened.on pMIG MIG_CTRL_DIR = true := (opened.on_eq (by decide)).trans receiver
  unfold State.migOpened at up' receiver'
  unfold State.migBegins
  simp only [idle, up', receiver', Bool.not_true, Bool.false_eq_true, if_false, if_true]
  rfl

theorem State.migBegins_sender (sender : s.on pMIG MIG_CTRL_DIR = false) : s.migBegins =
    s.migOpened.migSends ((s.leaves (s.get pMIG MIG_CTRL_VM)).map Leaf.pages).flatten := by
  have opened := State.framed_migOpened h
  have up' : s.migOpened.brUp 2 = true := (opened.brUp_eq rfl (by decide)).trans up
  have sender' : s.migOpened.on pMIG MIG_CTRL_DIR = false := (opened.on_eq (by decide)).trans sender
  have vm : s.migOpened.get pMIG MIG_CTRL_VM = s.get pMIG MIG_CTRL_VM := opened.get_eq (by decide)
  have leaves (n : Nat) : s.migOpened.leaves n = s.leaves n := by
    refine opened.leaves_eq rfl n fun off inside mem => ?_
    have same : 0x20704000 + 0x1000 * n + off = 0x20503044 := List.mem_singleton.mp mem
    omega
  rw [← vm, ← leaves]
  unfold State.migOpened at up' sender' ⊢
  unfold State.migBegins State.migSends
  simp only [idle, up', sender', Bool.not_true, Bool.false_eq_true, if_false]

end

theorem State.framed_migSends {pages : List Nat} (h : s.RegsOk) :
    Framed (fun x => SendRegs x ∨ Offs pMIG [MIG_SENT, MIG_DIRTY] x) s (s.migSends pages) :=
  (Framed.takeRound (.wrn (.wrn (.refl h) (.inr (by decide))) (.inr (by decide)))).sendMigControl fun _ k => .inl k

theorem State.migSends_todo {pages : List Nat} : (s.migSends pages).mig.todo = pages := by
  unfold State.migSends
  rw [State.sendMigControl_mig]
  rfl

/-! ### Ends -/

/-- What an end leaves of the unfinished copy: the twin may be told, and what the pages hold is not known. -/
def State.migDiscarded (s : State) (tell : Bool) : State :=
  let s1 := if tell then s.sendMigControl 4 (s.get pMIG MIG_STAT_ROUND) 0 else s
  s1.each s1.mig.written fun s pg => State.freeBytes (pg * 0x1000) 0x1000 s

/-- A migration has ended with an error. -/
def State.migAborted (s : State) : State :=
  (({ s with mig := MigState.init }.set pMIG MIG_STAT_ST 4).irq pMIG INT_MIG_ABORTED).err pMIG 0x721E 0

/-- A migration has ended well. -/
def State.migDone (s : State) : State := (s.set pMIG MIG_STAT_ST 3).irq pMIG INT_MIG_DONE

theorem Framed.migDone (h : Framed m s t) (stat : m (pMIG + MIG_STAT)) (raw : m (pMIG + INT_RAW)) :
    Framed m s t.migDone := (h.set stat).irq raw

theorem State.migEnds_running {tell : Bool} (runs : s.migRuns = true) :
    s.migEnds tell = (s.migDiscarded tell).migAborted := by
  unfold State.migEnds
  rw [if_neg (by simp [runs])]
  rfl

theorem State.regsOk_migDiscarded {tell : Bool} (h : s.RegsOk) : (s.migDiscarded tell).RegsOk := by
  have told : Framed SendRegs s (if tell then s.sendMigControl 4 (s.get pMIG MIG_STAT_ROUND) 0 else s) :=
    .ite ((Framed.refl h).sendMigControl fun _ k => k) (.refl h)
  have freed := told.of_eq (u := s.migDiscarded tell) (State.regs_each fun _ _ => State.regs_freeBytes)
  exact freed.ok

theorem bridgeDie_mig : bridgeDie (tyOf pMIG) = none := by decide

section

variable (h : s.RegsOk)

include h

theorem State.get_migAborted_st : s.migAborted.get pMIG MIG_STAT_ST = 4 := by
  have h' : ({ s with mig := MigState.init } : State).RegsOk := h
  have h1 := State.regsOk_set (p := pMIG) (f := MIG_STAT_ST) (n := 4) h'
  unfold State.migAborted
  rw [State.get_err_other (State.regsOk_irq h1) bridgeDie_mig (by decide) (by decide) (by decide),
    State.get_irq_other h1 (by decide), State.get_set_fits _ _ _ h' (by decide) (by decide)]

theorem State.irq_migAborted : s.migAborted.Irq pMIG INT_MIG_ABORTED := by
  have h1 : ({ s with mig := MigState.init }.set pMIG MIG_STAT_ST 4).RegsOk := State.regsOk_set h
  exact State.on_err_kept (State.regsOk_irq h1) (by decide) bridgeDie_mig (State.irq_on _ _ h1 (by decide))

theorem State.get_migDone_st : s.migDone.get pMIG MIG_STAT_ST = 3 := by
  unfold State.migDone
  rw [State.get_irq_other (State.regsOk_set h) (by decide), State.get_set_fits _ _ _ h (by decide) (by decide)]

theorem State.irq_migDone : s.migDone.Irq pMIG INT_MIG_DONE := State.irq_on _ _ (State.regsOk_set h) (by decide)

end

theorem State.posted_migAborted : s.migAborted.Posted pMIG 0x721E 0 := State.posted_err bridgeDie_mig

theorem State.migAborted_mig : s.migAborted.mig = MigState.init := State.err_mig ..

/-! ### The three writes of MIG_CTRL -/

section

variable (h : s.RegsOk)

include h

theorem framed_plain_migCtrl : Framed (Offs pMIG [MIG_CTRL]) s (s.plain pMIG MIG_CTRL v) := .plain (.refl h) (by decide)

theorem migCtrlEff_receive (go : bitsOf v.toNat 8 3 = 1) (receiver : v.getLsbD 4 = true) (idle : s.migRuns = false)
    (up : s.brUp 2 = true) : migCtrlEff v s = (s.plain pMIG MIG_CTRL v).migOpened := by
  have written := framed_plain_migCtrl (v := v) h
  have idle' := (written.migRuns_eq (by decide)).trans idle
  have up' := (written.brUp_eq (State.plain_up ..) (by decide)).trans up
  rw [migCtrlEff_go go, State.migBegins_receiver written.ok idle' up' ((on_plain_migCtrl_dir h).trans receiver)]

theorem migCtrlEff_send (go : bitsOf v.toNat 8 3 = 1) (sender : v.getLsbD 4 = false) (idle : s.migRuns = false)
    (up : s.brUp 2 = true) : migCtrlEff v s =
      (s.plain pMIG MIG_CTRL v).migOpened.migSends ((s.leaves (bitsOf v.toNat 0 4)).map Leaf.pages).flatten := by
  have written := framed_plain_migCtrl (v := v) h
  have idle' := (written.migRuns_eq (by decide)).trans idle
  have up' := (written.brUp_eq (State.plain_up ..) (by decide)).trans up
  have leaves (vm : Nat) : (s.plain pMIG MIG_CTRL v).leaves vm = s.leaves vm := by
    refine written.leaves_eq (State.plain_mem ..) vm fun off inside mem => ?_
    have same : 0x20704000 + 0x1000 * vm + off = 0x20503040 := List.mem_singleton.mp mem
    omega
  rw [migCtrlEff_go go, State.migBegins_sender written.ok idle' up' ((on_plain_migCtrl_dir h).trans sender),
    get_plain_migCtrl_vm h, leaves]

theorem migCtrlEff_finish (final : bitsOf v.toNat 8 3 = 2) (sender : v.getLsbD 4 = false)
    (copying : s.get pMIG MIG_STAT_ST = 1) : migCtrlEff v s = (s.plain pMIG MIG_CTRL v).migFinalRound :=
  migCtrlEff_final final (((framed_plain_migCtrl h).get_eq (by decide)).trans copying)
    ((on_plain_migCtrl_dir h).trans sender)

theorem migCtrlEff_aborted (abort : bitsOf v.toNat 8 3 = 4) (runs : s.migRuns = true) :
    migCtrlEff v s = ((s.plain pMIG MIG_CTRL v).migDiscarded true).migAborted := by
  have runs' := ((framed_plain_migCtrl (v := v) h).migRuns_eq (by decide)).trans runs
  rw [migCtrlEff_abort abort, State.migEnds_running runs']

theorem State.get_migFinalRound_st : s.migFinalRound.get pMIG MIG_STAT_ST = 2 := by
  have taken : Framed SendRegs s (s.takeRound (s.mig.todo ++ s.dirtyPages.filter fun pg => !s.mig.todo.contains pg)) :=
    (Framed.refl h).takeRound
  exact State.get_set_fits _ _ _ taken.ok (by decide) (by decide)

end

/-! ### Pages, control packets and rounds -/

section

variable {clocks : Nat} (runs : (s.advance clocks).migRuns = true) (up : (s.advance clocks).brUp 2 = true)

include runs up

theorem execMigrationPage_eq {ipa pa x y z : Nat} {vmNo : Fin 16} {data : List Nat} {s2 s3 : State}
    (receiver : (s.advance clocks).on pMIG MIG_CTRL_DIR = true) (page : data.length = 0x1000)
    (maps : (s.advance clocks).translate 16 (.vm ((s.advance clocks).get pMIG MIG_CTRL_VM)) .write ipa = (s2, .ok pa x y z))
    (stores : s2.ramWrite 2 false pa data = (s3, true)) : execMigrationPage clocks ipa vmNo data s =
      .next { s3 with mig.written := s3.mig.written ++ [pa / 0x1000] } := by
  unfold execMigrationPage
  simp only [runs, receiver, up, page, vmNo.isLt, maps, stores, beq_self_eq_true, decide_true, Bool.and_self, if_true]

theorem execMigrationControl_end {round pages : Nat} (receiver : (s.advance clocks).on pMIG MIG_CTRL_DIR = true) :
    execMigrationControl clocks 3 round pages s =
      .next ({ s.advance clocks with mig := MigState.init } : State).migDone := by
  unfold execMigrationControl
  dsimp only
  rw [if_neg (by simp [runs, up]), if_neg (by decide), if_neg (by simp [receiver]), if_pos rfl]
  rfl

variable {s2 : State} (sender : (s.advance clocks).on pMIG MIG_CTRL_DIR = false)
  (sends : State.sendPages ((s.advance clocks).get pMIG MIG_CTRL_VM) (s.advance clocks).mig.todo (s.advance clocks) = (s2, true))

include sender sends

theorem execMigRoundDone_final (final : s2.get pMIG MIG_STAT_ST = 2) : execMigRoundDone clocks s =
    .next (({ s2 with mig := MigState.init } : State).sendMigControl 3 ((s.advance clocks).get pMIG MIG_STAT_ROUND)
      (s.advance clocks).mig.todo.length).migDone := by
  unfold execMigRoundDone
  dsimp only
  rw [if_neg (by simp [runs, up, sender])]
  simp only [sends, final, if_true]
  rfl

/-- After a round that is not the final one the next takes the pages that have become dirty. -/
def State.migNextRound (s : State) (round n : Nat) : State :=
  let s1 := ((s.sendMigControl 2 round n).takeRound s.dirtyPages).set pMIG MIG_DIRTY_V (min s.dirtyPages.length 0xFFFFFF)
  (s1.set pMIG MIG_STAT_ROUND (min 255 (round + 1))).irq pMIG INT_MIG_ROUND_DONE

theorem execMigRoundDone_round (copying : s2.get pMIG MIG_STAT_ST = 1) : execMigRoundDone clocks s =
    .next (s2.migNextRound ((s.advance clocks).get pMIG MIG_STAT_ROUND) (s.advance clocks).mig.todo.length) := by
  unfold execMigRoundDone
  dsimp only
  rw [if_neg (by simp [runs, up, sender])]
  simp only [sends, copying]
  rfl

end

section

variable {round n : Nat} (h : s.RegsOk)

include h

theorem State.framed_migTaken : Framed (fun x => SendRegs x ∨ x = pMIG + MIG_DIRTY) s
    (((s.sendMigControl 2 round n).takeRound s.dirtyPages).set pMIG MIG_DIRTY_V (min s.dirtyPages.length 0xFFFFFF)) :=
  (Framed.takeRound ((Framed.refl h).sendMigControl fun _ k => .inl k)).set (.inr rfl)

theorem State.get_migNextRound_round : (s.migNextRound round n).get pMIG MIG_STAT_ROUND = min 255 (round + 1) := by
  have taken := (State.framed_migTaken (round := round) (n := n) h).ok
  unfold State.migNextRound
  rw [State.get_irq_other (State.regsOk_set taken) (by decide), State.get_set_fits _ _ _ taken (by decide)]
  show min 255 (round + 1) < 256
  omega

theorem State.get_migNextRound_st : (s.migNextRound round n).get pMIG MIG_STAT_ST = s.get pMIG MIG_STAT_ST := by
  have taken := State.framed_migTaken (round := round) (n := n) h
  unfold State.migNextRound
  rw [State.get_irq_other (State.regsOk_set taken.ok) (by decide),
    State.get_set_beside pMIG MIG_STAT_ROUND MIG_STAT_ST _ taken.ok rfl (by decide) (by decide), taken.get_eq (by decide)]

theorem State.irq_migNextRound : (s.migNextRound round n).Irq pMIG INT_MIG_ROUND_DONE :=
  State.irq_on _ _ (State.regsOk_set (State.framed_migTaken h).ok) (by decide)

end

/-- Settles O24, command by command: GO for the receiver and for the sender, FINAL, ABORT, a page, the final end, and the rounds
of the sender. -/
theorem migrationCommandsComplete : Obligations.MigrationCommandsComplete := by
  refine ⟨?receive, ?send, ?final, ?abort, ?page, ?control, ?finalRound, ?round⟩
  case receive =>
    intro a v s canonical accepts go dir idle up
    have h : s.ok.RegsOk := canonical.regsOk
    have written := (framed_plain_migCtrl (v := v) h).ok
    have framed : Framed (Offs pMIG [MIG_CTRL, MIG_STAT]) s.ok (s.ok.plain pMIG MIG_CTRL v).migOpened :=
      .migOpened (.plain (.refl h) (by decide)) (by decide)
    refine ⟨_, congrArg Host.Outcome.next ((State.regWrite_accepted accepts rfl).trans
      (migCtrlEff_receive h go dir idle up)), State.get_migOpened_st written, State.get_migOpened_round written, rfl,
      framed.regs, ?_⟩
    have same := congrArg (fun w : State => { w with mig := MigState.init }) (State.rest_plain s.ok pMIG MIG_CTRL v)
    exact same
  case send =>
    intro a v s canonical accepts go dir idle up
    have h : s.ok.RegsOk := canonical.regsOk
    have written := (framed_plain_migCtrl (v := v) h).ok
    have opened := (State.framed_migOpened written).ok
    refine ⟨_, congrArg Host.Outcome.next ((State.regWrite_accepted accepts rfl).trans
      (migCtrlEff_send h go dir idle up)), ?_, ?_, ?_⟩
    · exact ((State.framed_migSends opened).get_eq (by decide)).trans (State.get_migOpened_st written)
    · exact ((State.framed_migSends opened).get_eq (by decide)).trans (State.get_migOpened_round written)
    · rw [State.migSends_todo, State.leaves_ok canonical.regsOk]
  case final =>
    intro a v s canonical accepts final dir copying
    have h : s.ok.RegsOk := canonical.regsOk
    exact ⟨_, congrArg Host.Outcome.next ((State.regWrite_accepted accepts rfl).trans
      (migCtrlEff_finish h final dir copying)), State.get_migFinalRound_st (framed_plain_migCtrl h).ok⟩
  case abort =>
    intro a v s canonical accepts abort runs
    have h : s.ok.RegsOk := canonical.regsOk
    have discarded := State.regsOk_migDiscarded (tell := true) (framed_plain_migCtrl (v := v) h).ok
    exact ⟨_, congrArg Host.Outcome.next ((State.regWrite_accepted accepts rfl).trans (migCtrlEff_aborted h abort runs)),
      State.get_migAborted_st discarded, State.irq_migAborted discarded, State.posted_migAborted, State.migAborted_mig⟩
  case page =>
    intro clocks ipa vmNo data pa x y z s2 s3 s canonical runs receiver up page maps stores
    exact ⟨_, execMigrationPage_eq runs up receiver page maps stores, rfl⟩
  case control =>
    rintro clocks _ round pages s canonical rfl runs receiver up
    have h : ({ s.advance clocks with mig := MigState.init } : State).RegsOk := canonical.regsOk
    have framed : Framed (Offs pMIG [MIG_STAT, INT_RAW]) { s.advance clocks with mig := MigState.init } _ :=
      (Framed.refl h).migDone (by decide) (by decide)
    exact ⟨_, execMigrationControl_end runs up receiver, State.get_migDone_st h, State.irq_migDone h, rfl, framed.regs, rfl⟩
  case finalRound =>
    intro clocks s2 s canonical runs sender up sends final
    have kept : Keeps (s.advance clocks) s2 := .fst sends (State.sendPages_keeps (.refl _))
    have h2 : ({ s2 with mig := MigState.init } : State).RegsOk := (kept.good canonical).1.regsOk
    have told := (Framed.refl h2).sendMigControl (m := SendRegs) (op := 3)
      (round := (s.advance clocks).get pMIG MIG_STAT_ROUND) (pages := (s.advance clocks).mig.todo.length) fun _ k => k
    exact ⟨_, execMigRoundDone_final runs up sender sends final, State.get_migDone_st told.ok, State.irq_migDone told.ok,
      State.sendMigControl_mig⟩
  case round =>
    intro clocks s2 s canonical runs sender up sends copying
    have kept : Keeps (s.advance clocks) s2 := .fst sends (State.sendPages_keeps (.refl _))
    have h2 : s2.RegsOk := (kept.good canonical).1.regsOk
    exact ⟨_, execMigRoundDone_round runs up sender sends copying, State.get_migNextRound_round h2,
      State.irq_migNextRound h2, (State.get_migNextRound_st h2).trans copying⟩

end Sys2Proof.Machine

end

/-!
## Images, mirroring and TWC between the twins (spec/10 R322-R324, R331-R335)

What reaches the tightly coupled memories and the power dies, what is posted once in a cycle, and the frames and results of TWC.
-/

section

namespace Sys2Proof.Machine

variable {s t : State} {m : Nat → Prop}

/-! ### The role across a frame -/

theorem Framed.roleRuns_eq (h : Framed m s t) (up : t.up = s.up) (n : ∀ x ∈ [BLK_CTRL, TWR_CTRL], ¬ m (pTWR + x)) :
    t.roleRuns = s.roleRuns := by
  unfold State.roleRuns
  rw [up, h.on_eq (n BLK_CTRL (by decide)), h.on_eq (n TWR_CTRL (by decide))]

theorem Framed.role_eq (h : Framed m s t) (up : t.up = s.up) (n : ∀ x ∈ [BLK_CTRL, TWR_CTRL, BLK_STAT], ¬ m (pTWR + x)) :
    t.role = s.role := by
  unfold State.role
  rw [h.roleRuns_eq up fun x mem => n x (List.mem_append_left [BLK_STAT] mem), h.get_eq (n BLK_STAT (by decide))]

/-! ### Steps that write memory only -/

/-- What holds before and through each step of a list holds after it. -/
theorem State.each_induct {α : Type} {l : List α} {f : State → α → State} {P : State → Prop} (start : P s)
    (step : ∀ x a, P x → P (f x a)) : P (s.each l f) := by
  unfold State.each
  induction l generalizing s with
  | nil => exact start
  | cons a l ih => exact ih (step s a start)

/-- From s to t nothing changes but memory. -/
def MemOnly (s t : State) : Prop := ∃ mem, t = { s with mem := mem }

namespace MemOnly

theorem refl : MemOnly s s := ⟨s.mem, rfl⟩

theorem setBytes {addr : Nat} {l : List Nat} (h : MemOnly s t) : MemOnly s (t.setBytes addr l) := by
  induction l generalizing t addr with
  | nil => exact h
  | cons b bs ih =>
    obtain ⟨mem, rfl⟩ := h
    exact ih ⟨_, rfl⟩

theorem toCores {off : Nat} {l : List Nat} (h : MemOnly s t) : MemOnly s (t.toCores off l) :=
  State.each_induct h fun _ _ k => k.setBytes

theorem regs (h : MemOnly s t) : t.regs = s.regs := by
  obtain ⟨mem, rfl⟩ := h
  rfl

theorem rest (h : MemOnly s t) : t.rest = ({ s with mem := t.mem } : State).rest := by
  obtain ⟨mem, rfl⟩ := h
  rfl

/-- A change of memory is the whole change. -/
theorem frame (h : MemOnly s t) : Frame (Offs 0 []) { s with mem := t.mem } s t := by
  obtain ⟨mem, rfl⟩ := h
  exact ⟨fun _ _ => rfl, rfl⟩

/-- A change of memory and then of the role machine's own state. -/
theorem frame_modTwin {f : TwinState → TwinState} (h : MemOnly s t) : Frame (Offs 0 [])
    { s with twin := (t.modTwin f).twin, mem := (t.modTwin f).mem } s (t.modTwin f) := by
  obtain ⟨mem, rfl⟩ := h
  exact ⟨fun _ _ => rfl, rfl⟩

theorem modTwin_twin {f : TwinState → TwinState} (h : MemOnly s t) : (t.modTwin f).twin = f s.twin := by
  obtain ⟨mem, rfl⟩ := h
  rfl

end MemOnly

/-! ### The twin's input image (R322) -/

theorem State.setBytes_modTwin {f : TwinState → TwinState} {addr : Nat} {l : List Nat} :
    (s.modTwin f).setBytes addr l = (s.setBytes addr l).modTwin f := by
  induction l generalizing s addr with
  | nil => rfl
  | cons b bs ih => exact ih (s := s.setByte addr b)

/-- A change of the role machine's own state does not reach the tightly coupled memories. -/
theorem State.toCores_modTwin {f : TwinState → TwinState} {off : Nat} {l : List Nat} :
    (s.modTwin f).toCores off l = (s.toCores off l).modTwin f := by
  have step (x : State) (n : Nat) : (x.modTwin f).setBytes ((x.modTwin f).imageAddr n + off) l =
      (x.setBytes (x.imageAddr n + off) l).modTwin f := State.setBytes_modTwin
  unfold State.toCores State.each
  generalize [0, 1, 2, 3] = cores
  induction cores generalizing s with
  | nil => rfl
  | cons n cores ih => exact (congrArg (fun x => cores.foldl _ x) (step s n)).trans ih

/-- The twin's image and its status word stand beside the own image. -/
def State.imageTaken (s : State) (octets : List Nat) (status : Nat) : State :=
  ((s.toCores 0x40 octets).toCores 0x80 (bytesLE 4 status)).modTwin fun z => { z with imgDue := none, imgStatus := status }

theorem State.memOnly_images {octets l : List Nat} : MemOnly s ((s.toCores 0x40 octets).toCores 0x80 l) :=
  MemOnly.refl.toCores.toCores

theorem State.get_toCores {off : Nat} {l : List Nat} {p : Nat} {f : Fld} : (s.toCores off l).get p f = s.get p f := by
  unfold State.get State.rd
  rw [(MemOnly.refl.toCores : MemOnly s (s.toCores off l)).regs]

theorem State.inputImageTaken {octets : List Nat} {status : Nat} :
    ((s.modTwin fun z => { z with imgDue := none }).toCores 0x40 octets).writeImgStatus status =
      s.imageTaken octets status := by
  unfold State.writeImgStatus State.imageTaken
  rw [State.toCores_modTwin, State.toCores_modTwin, State.toCores_modTwin]
  generalize (s.toCores 0x40 octets).toCores 0x80 (bytesLE 4 status) = x
  rfl

theorem execInputImagePacket_eq {clocks : Nat} {octets : List Nat} (exchanging : (s.advance clocks).exchanging = true)
    (due : s.twin.imgDue.isSome = true) (whole : octets.length = 64) : execInputImagePacket clocks octets s =
      .next ((s.advance clocks).imageTaken octets (1 + 2 * (1 - s.side) + 0x10000 * ofBytesLE (octets.take 2))) := by
  have due' : (s.advance clocks).twin.imgDue.isSome = true := due
  have side : (((s.advance clocks).modTwin fun z => { z with imgDue := none }).toCores 0x40 octets).side = s.side :=
    State.get_toCores
  unfold execInputImagePacket
  simp only [exchanging, due', whole, side, beq_self_eq_true, Bool.and_self, if_true, State.inputImageTaken]

theorem State.imageTaken_twin {octets : List Nat} {status : Nat} :
    (s.imageTaken octets status).twin = { s.twin with imgDue := none, imgStatus := status } :=
  State.memOnly_images.modTwin_twin

theorem State.imageTaken_mem {octets : List Nat} {status : Nat} :
    (s.imageTaken octets status).mem = ((s.toCores 0x40 octets).toCores 0x80 (bytesLE 4 status)).mem := State.modTwin_mem ..

theorem State.frame_imageTaken {octets : List Nat} {status : Nat} : Frame (Offs 0 [])
    { s with twin := (s.imageTaken octets status).twin, mem := (s.imageTaken octets status).mem } s
    (s.imageTaken octets status) := State.memOnly_images.frame_modTwin

/-! ### Codes that are posted at most once in a cycle -/

theorem bridgeDie_twr : bridgeDie (tyOf pTWR) = none := by decide

section

variable {code : Nat}

theorem Framed.oncePerCycle (h : Framed m s t) (k : ∀ x ∈ errRegs, m (pTWR + x)) : Framed m s (t.oncePerCycle code) := by
  unfold State.oncePerCycle
  have noted {l : List (Nat × Nat)} : Framed m s { t with twin.posted := l } := h.of_eq rfl
  exact .ite h (noted.err bridgeDie_twr (k _ (by decide)) (k _ (by decide)) (k _ (by decide)))

/-- Of the role machine's own state only the note of the cycle changes. -/
theorem State.oncePerCycle_twin :
    (s.oncePerCycle code).twin = { s.twin with posted := (s.oncePerCycle code).twin.posted } := by
  unfold State.oncePerCycle
  dsimp only
  split
  · rfl
  · rw [State.err_twin]

theorem State.rest_oncePerCycle : (s.oncePerCycle code).rest =
    ({ s with twin := (s.oncePerCycle code).twin, posts := (s.oncePerCycle code).posts } : State).rest := by
  unfold State.oncePerCycle
  dsimp only
  split
  · rfl
  · rw [State.rest_err_posted bridgeDie_twr, State.err_twin]

theorem State.irq_oncePerCycle {b : Nat} (h : s.RegsOk) (small : b < 32) (irq : s.Irq pTWR b) :
    (s.oncePerCycle code).Irq pTWR b := by
  unfold State.oncePerCycle
  dsimp only
  split
  · exact irq
  · exact State.on_err_kept (s := { s with twin.posted := _ }) h small bridgeDie_twr irq

end

/-! ### A late input image (R322) -/

theorem State.writeImgStatus_eq {v : Nat} :
    s.writeImgStatus v = (s.toCores 0x80 (bytesLE 4 v)).modTwin fun z => { z with imgStatus := v } := State.toCores_modTwin

theorem State.imgStale_only : MemOnly { s with twin := s.imgStale.twin } s.imgStale := by
  unfold State.imgStale
  split
  · rw [State.writeImgStatus_eq]
    obtain ⟨mem, written⟩ : MemOnly s (s.toCores 0x80 (bytesLE 4 (putBits s.twin.imgStatus 0 1 0))) := MemOnly.refl.toCores
    rw [written]
    exact ⟨_, rfl⟩
  · exact .refl

/-- FRESH reads 0, and what is due stays. -/
theorem State.imgStale_twin : s.imgStale.twin.imgDue = s.twin.imgDue ∧ s.imgStale.twin.imgStatus.testBit 0 = false := by
  unfold State.imgStale
  split
  · rw [State.writeImgStatus_eq, MemOnly.refl.toCores.modTwin_twin]
    have cleared := bitsOf_putBits_same s.twin.imgStatus 0 1 0
    have bit := testBit_bitsOf (putBits s.twin.imgStatus 0 1 0) 0 1 0
    rw [cleared] at bit
    refine ⟨rfl, ?_⟩
    simpa using bit.symm
  · next stale => exact ⟨rfl, by simpa using stale⟩

/-- What a late image leaves: it is no longer due and not fresh, counted, and posted once in the cycle. -/
def State.imageLate (s : State) : State :=
  ((s.modTwin fun z => { z with imgDue := none }).imgStale.cnt pTWR TWR_IMG_LATE).oncePerCycle 0x7215

theorem execTwinImageLate_eq {clocks : Nat} (exchanging : (s.advance clocks).exchanging = true)
    (due : s.twin.imgDue.isSome = true) : execTwinImageLate clocks s = .next (s.advance clocks).imageLate := by
  have due' : (s.advance clocks).twin.imgDue.isSome = true := due
  unfold execTwinImageLate
  simp only [exchanging, due', Bool.and_self, if_true]
  rfl

theorem State.imageLate_twin : s.imageLate.twin.imgDue = none ∧ s.imageLate.twin.imgStatus.testBit 0 = false := by
  obtain ⟨due, fresh⟩ := State.imgStale_twin (s := s.modTwin fun z => { z with imgDue := none })
  unfold State.imageLate
  rw [State.oncePerCycle_twin, State.cnt_twin]
  exact ⟨due, fresh⟩

theorem State.frame_imageLate (h : s.RegsOk) : Frame (Offs pTWR (TWR_IMG :: errRegs))
    { s with twin := s.imageLate.twin, mem := s.imageLate.mem, posts := s.imageLate.posts } s s.imageLate := by
  have only := State.imgStale_only (s := s.modTwin fun z => { z with imgDue := none })
  have stale : Framed (Offs pTWR (TWR_IMG :: errRegs)) s (s.modTwin fun z => { z with imgDue := none }).imgStale :=
    (Framed.refl h).of_eq only.regs
  have counted : Framed (Offs pTWR (TWR_IMG :: errRegs)) s
      ((s.modTwin fun z => { z with imgDue := none }).imgStale.cnt pTWR TWR_IMG_LATE) := stale.cnt (by decide)
  refine ⟨(counted.oncePerCycle (by decide)).regs, ?_⟩
  have mem : s.imageLate.mem = (s.modTwin fun z => { z with imgDue := none }).imgStale.mem := by
    have posted := congrArg State.mem (State.rest_oncePerCycle (code := 0x7215)
      (s := (s.modTwin fun z => { z with imgDue := none }).imgStale.cnt pTWR TWR_IMG_LATE))
    exact posted.trans (State.cnt_mem ..)
  have before := (State.rest_cnt _ pTWR 1 TWR_IMG_LATE).trans only.rest
  have same := congrArg (fun w : State => { w with twin := s.imageLate.twin, posts := s.imageLate.posts }) before
  rw [mem]
  exact (State.rest_oncePerCycle (code := 0x7215)).trans same

end Sys2Proof.Machine

end

/-!
## The output images of the twins (spec/10 R323)

Comparison, combination into PDC_OUT_IMG, and the image that is cut.
-/

section

namespace Sys2Proof.Machine

variable {s t : State} {m : Nat → Prop}

/-! ### The combined image on a die -/

/-- Looking at the commands of a die again leaves registers, role machine, fuses, tables and memory. -/
theorem State.noteCmds_chans {d : Nat} : ∃ chans, s.noteCmds d = { s with chans := chans } :=
  State.each_induct (P := fun x => ∃ chans, x = { s with chans := chans }) ⟨s.chans, rfl⟩
    fun _ _ ⟨_, same⟩ => same ▸ ⟨_, rfl⟩

/-- Writing the combined image sets the image register of a die that is up, and changes channels beside it. -/
theorem State.writeOutImg_chans {d img : Nat} :
    ∃ chans, s.writeOutImg d img = { (if s.dieUp d then s.set (pPDC d) PDC_OUT_IMG_IMG img else s) with chans := chans } := by
  unfold State.writeOutImg
  split
  · exact State.noteCmds_chans
  · exact ⟨s.chans, rfl⟩

theorem Framed.writeOutImg {d img : Nat} (h : Framed m s t) (k : m (pPDC d + PDC_OUT_IMG)) :
    Framed m s (t.writeOutImg d img) := by
  obtain ⟨chans, same⟩ := State.writeOutImg_chans (s := t) (d := d) (img := img)
  rw [same]
  exact (h.set k).ite h |>.of_eq rfl

theorem State.get_writeOutImg {d img : Nat} (h : s.RegsOk) (up : s.dieUp d = true) :
    (s.writeOutImg d img).get (pPDC d) PDC_OUT_IMG_IMG = img % 2 ^ 16 := by
  obtain ⟨chans, same⟩ := State.writeOutImg_chans (s := s) (d := d) (img := img)
  rw [same, if_pos up]
  exact State.get_set_same (pPDC d) PDC_OUT_IMG_IMG img h (by decide)

/-- What is neither a register nor a channel is not touched by writing an image. -/
theorem State.writeOutImg_field {α : Type} {d img : Nat} (f : State → α)
    (apart : ∀ (x : State) regs chans, f { x with regs := regs, chans := chans } = f x := by exact fun _ _ _ => rfl) :
    f (s.writeOutImg d img) = f s := by
  obtain ⟨chans, same⟩ := State.writeOutImg_chans (s := s) (d := d) (img := img)
  rw [same]
  split
  · exact apart s _ chans
  · exact apart s s.regs chans

/-! ### Comparison -/

/-- Images that differ where both modules drive are counted and posted once in the cycle. -/
def State.compared (s : State) (own hs : OutImage) : State :=
  if (own.a ^^^ hs.a) &&& s.dualMask 0 ≠ 0 ∨ (own.b ^^^ hs.b) &&& s.dualMask 1 ≠ 0 then
    ((s.cnt pTWR TWR_CMP_MISM).irq pTWR INT_TWR_MISMATCH).oncePerCycle 0x7213
  else s

variable {own hs : OutImage}

theorem Framed.compared (h : Framed m s t) (k : ∀ x ∈ TWR_CMP :: errRegs, m (pTWR + x)) :
    Framed m s (t.compared own hs) := by
  have counted : Framed m s (t.cnt pTWR TWR_CMP_MISM) := h.cnt (k _ (by decide))
  have raised : Framed m s ((t.cnt pTWR TWR_CMP_MISM).irq pTWR INT_TWR_MISMATCH) := counted.irq (k _ (by decide))
  exact .ite (raised.oncePerCycle fun x mem => k x (List.mem_cons_of_mem _ mem)) h

theorem State.rest_compared : (s.compared own hs).rest =
    ({ s with twin := (s.compared own hs).twin, posts := (s.compared own hs).posts } : State).rest := by
  unfold State.compared
  split
  · have before : ((s.cnt pTWR TWR_CMP_MISM).irq pTWR INT_TWR_MISMATCH).rest = s.rest := State.rest_cnt ..
    have same := congrArg (fun w : State => { w with
      twin := (((s.cnt pTWR TWR_CMP_MISM).irq pTWR INT_TWR_MISMATCH).oncePerCycle 0x7213).twin
      posts := (((s.cnt pTWR TWR_CMP_MISM).irq pTWR INT_TWR_MISMATCH).oncePerCycle 0x7213).posts }) before
    exact State.rest_oncePerCycle.trans same
  · rfl

theorem State.compared_images : (s.compared own hs).twin.ownImg = s.twin.ownImg ∧
    (s.compared own hs).twin.hsImg = s.twin.hsImg := by
  unfold State.compared
  split
  · rw [State.oncePerCycle_twin, State.irq_twin, State.cnt_twin]
    exact ⟨rfl, rfl⟩
  · exact ⟨rfl, rfl⟩

/-- What a comparison leaves: everything but registers, the role machine's own state and the posted codes. -/
theorem State.compared_field {α : Type} (f : State → α) (own' : ∀ x : State, f x.rest = f x := by exact fun _ => rfl)
    (apart : ∀ x y : State, f { x with twin := y.twin, posts := y.posts } = f x := by exact fun _ _ => rfl) :
    f (s.compared own hs) = f s := by
  rw [← own' (s.compared own hs), State.rest_compared, own', apart]

/-! ### Combination -/

/-- Both images are used up, compared, and combined on each die. -/
def State.combined (s : State) (own hs : OutImage) : State :=
  (((s.modTwin fun z => { z with ownImg := none, hsImg := none }).compared own hs).writeOutImg 0
    (combineImg own.a hs.a (s.dualMask 0))).writeOutImg 1 (combineImg own.b hs.b (s.dualMask 1))

theorem execOutputImagePacket_eq {clocks cycle pos imgA imgB : Nat} {o : OutImage}
    (tailstock : (s.advance clocks).role = rTAILSTOCK) (exchanging : (s.advance clocks).exchanging = true)
    (waits : s.twin.ownImg = some o) (cycles : o.cycle = cycle % 0x10000) (places : o.pos = pos % 64) :
    execOutputImagePacket clocks cycle pos imgA imgB s = .next (((s.advance clocks).modTwin fun z =>
      { z with hsImg := some ⟨cycle % 0x10000, pos % 64, imgA % 0x10000, imgB % 0x10000⟩ }).combined o
        ⟨cycle % 0x10000, pos % 64, imgA % 0x10000, imgB % 0x10000⟩) := by
  unfold execOutputImagePacket
  simp only [tailstock, exchanging, and_self, if_true]
  unfold State.combine State.modTwin
  simp only [State.advance_twin, waits, cycles, places, and_self, if_true]
  rfl

/-- The registers that a pair of images writes. -/
abbrev ImageRegs : Nat → Prop :=
  fun addr => Offs pTWR (TWR_CMP :: errRegs) addr ∨ Regs [pPDC 0 + PDC_OUT_IMG, pPDC 1 + PDC_OUT_IMG] addr

theorem State.framed_imagesCompared (h : s.RegsOk) : Framed ImageRegs s
    ((s.modTwin fun z => { z with ownImg := none, hsImg := none }).compared own hs) :=
  Framed.compared ((Framed.refl h).of_eq rfl) (by decide)

theorem State.framed_combined (h : s.RegsOk) : Framed ImageRegs s (s.combined own hs) :=
  ((State.framed_imagesCompared h).writeOutImg (by decide)).writeOutImg (by decide)

/-- A field that neither comparing nor writing images touches. -/
theorem State.combined_field {α : Type} (f : State → α) (own' : ∀ x : State, f x.rest = f x := by exact fun _ => rfl)
    (apart : ∀ x y : State, f { x with twin := y.twin, posts := y.posts } = f x := by exact fun _ _ => rfl)
    (chans : ∀ (x : State) regs chans, f { x with regs := regs, chans := chans } = f x := by exact fun _ _ _ => rfl)
    (twin : ∀ (x : State) g, f (x.modTwin g) = f x := by exact fun _ _ => rfl) :
    f (s.combined own hs) = f s := by
  unfold State.combined
  rw [State.writeOutImg_field f chans, State.writeOutImg_field f chans, State.compared_field f own' apart, twin]

theorem State.combined_images : (s.combined own hs).twin.ownImg = none ∧ (s.combined own hs).twin.hsImg = none := by
  unfold State.combined
  rw [State.writeOutImg_field State.twin, State.writeOutImg_field State.twin]
  exact State.compared_images

theorem Framed.dieUp_eq {d : Nat} (h : Framed m s t) (up : t.up = s.up) (n : ¬ m (pDBR d + BR_STAT)) :
    t.dieUp d = s.dieUp d := by
  unfold State.dieUp
  rw [up, h.on_eq n]

theorem State.get_combined (h : s.RegsOk) (up : s.dieUp 0 = true) :
    (s.combined own hs).get (pPDC 0) PDC_OUT_IMG_IMG = combineImg own.a hs.a (s.dualMask 0) % 2 ^ 16 := by
  have before := State.framed_imagesCompared (own := own) (hs := hs) h
  have up' : ((s.modTwin fun z => { z with ownImg := none, hsImg := none }).compared own hs).dieUp 0 = true :=
    (before.dieUp_eq (State.compared_field State.up) (by decide)).trans up
  have other (x : State) (ok : x.RegsOk) (img : Nat) : Framed (Regs [pPDC 1 + PDC_OUT_IMG]) x (x.writeOutImg 1 img) :=
    (Framed.refl ok).writeOutImg (by decide)
  unfold State.combined
  rw [(other _ (before.writeOutImg (by decide)).ok _).get_eq (by decide), State.get_writeOutImg before.ok up']

/-! ### The image that is cut -/

/-- The own image stands: it no longer waits, and the missing one is counted and posted once in the cycle. -/
def State.imageCut (s : State) : State :=
  (((s.modTwin fun z => { z with ownImg := none }).cnt pTWR TWR_CMP_MISS).irq pTWR INT_TWR_IMG_MISS).oncePerCycle 0x7214

theorem execOutputImageCut_eq {clocks : Nat} (tailstock : (s.advance clocks).role = rTAILSTOCK)
    (waits : s.twin.ownImg.isSome = true) : execOutputImageCut clocks s = .next (s.advance clocks).imageCut := by
  have waits' : (s.advance clocks).twin.ownImg.isSome = true := waits
  unfold execOutputImageCut
  simp only [tailstock, waits', and_self, if_true]
  rfl

theorem State.imageCut_ownImg : s.imageCut.twin.ownImg = none := by
  unfold State.imageCut
  rw [State.oncePerCycle_twin, State.irq_twin, State.cnt_twin]
  rfl

theorem State.irq_imageCut (h : s.RegsOk) : s.imageCut.Irq pTWR INT_TWR_IMG_MISS := by
  have counted : ((s.modTwin fun z => { z with ownImg := none }).cnt pTWR TWR_CMP_MISS).RegsOk :=
    State.regsOk_cnt (s := s.modTwin _) h
  exact State.irq_oncePerCycle (State.regsOk_irq counted) (by decide) (State.irq_on _ _ counted (by decide))

theorem State.frame_imageCut (h : s.RegsOk) : Frame (Offs pTWR (TWR_CMP :: errRegs))
    { s with twin := s.imageCut.twin, posts := s.imageCut.posts } s s.imageCut := by
  have opened : Framed (Offs pTWR (TWR_CMP :: errRegs)) s (s.modTwin fun z => { z with ownImg := none }) :=
    (Framed.refl h).of_eq rfl
  have counted : Framed (Offs pTWR (TWR_CMP :: errRegs)) s
      (((s.modTwin fun z => { z with ownImg := none }).cnt pTWR TWR_CMP_MISS).irq pTWR INT_TWR_IMG_MISS) :=
    (opened.cnt (by decide)).irq (by decide)
  refine ⟨(counted.oncePerCycle (by decide)).regs, ?_⟩
  have before : (((s.modTwin fun z => { z with ownImg := none }).cnt pTWR TWR_CMP_MISS).irq pTWR INT_TWR_IMG_MISS).rest =
      (s.modTwin fun z => { z with ownImg := none }).rest := State.rest_cnt ..
  have same := congrArg (fun w : State => { w with twin := s.imageCut.twin, posts := s.imageCut.posts }) before
  exact (State.rest_oncePerCycle (code := 0x7214)).trans same

end Sys2Proof.Machine

end

/-!
## TWC, mirroring and the counters of the twin page (spec/10 R324, R331-R334)

Frames and commands of TWC, the results of a software command, and the pieces of the rejoin copy.
-/

section

namespace Sys2Proof.Machine

variable {s t : State} {m : Nat → Prop} {clocks : Nat}

/-! ### Frames that go out -/

theorem State.twcSend_eq {d : Nat} {l : List Nat} (die : s.twcDie = some d) :
    s.twcSend l = s.emit (.twc true d (twcSeal l)) := by
  unfold State.twcSend
  rw [die]

/-- A command goes out with the next sequence number. -/
theorem State.twcCommand_eq {d dest cmd : Nat} {body : List Nat} (die : s.twcDie = some d) :
    s.twcCommand dest cmd body = (s.modTwin fun z => { z with seq := (s.twin.seq + 1) % 256 }).emit
      (.twc true d (twcSeal ([s.twcHead dest cmd, (s.twin.seq + 1) % 256] ++ body))) :=
  State.twcSend_eq (s := s.modTwin _) die

theorem Framed.twcDie_eq (h : Framed m s t) (up : t.up = s.up) (n : ∀ d < 2, ¬ m (pDBR d + BR_STAT)) :
    t.twcDie = s.twcDie := by
  unfold State.twcDie
  rw [h.dieUp_eq up (n 0 (by decide)), h.dieUp_eq up (n 1 (by decide))]

theorem Framed.twcHead_eq {dest cmd : Nat} (h : Framed m s t) (n : ¬ m (pTWR + TWR_STAT)) :
    t.twcHead dest cmd = s.twcHead dest cmd := by
  unfold State.twcHead State.side
  rw [h.get_eq n]

theorem execAliveSend_eq {d : Nat} (headstock : (s.advance clocks).role = rHEADSTOCK)
    (die : (s.advance clocks).twcDie = some d) :
    execAliveSend clocks s = .next ((s.advance clocks).emit (.twc true d (twcSeal [s.twcHead 0 9]))) := by
  unfold execAliveSend
  simp only [headstock]
  exact congrArg Host.Outcome.next (State.twcSend_eq die)

theorem execKeepRepeat_eq {d : Nat} (control : s.twin.control = true) (alone : (s.advance clocks).role = rHS_ALONE)
    (die : (s.advance clocks).twcDie = some d) : execKeepRepeat clocks s =
      .next (((s.advance clocks).modTwin fun z => { z with seq := (s.twin.seq + 1) % 256 }).emit
        (.twc true d (twcSeal [s.twcHead 3 2, (s.twin.seq + 1) % 256]))) := by
  have control' : (s.advance clocks).twin.control = true := control
  unfold execKeepRepeat
  simp only [control', alone, beq_self_eq_true, Bool.and_self, if_true]
  exact congrArg Host.Outcome.next (State.twcCommand_eq die)

/-! ### ALIVE frames -/

/-- What an ALIVE frame leaves outside CLAIMING: its time, the end of its loss, and a count. -/
def State.aliveSeen (s : State) : State :=
  ({ s with phoask.aliveAt := s.tb.clocks, phoask.aliveLost := false } : State).cntWrap pTWR TWR_TWC_ALIVE

theorem State.framed_aliveSeen (h : s.RegsOk) : Framed (Offs pTWR [TWR_TWC]) s s.aliveSeen := by
  have seen : Framed (Offs pTWR [TWR_TWC]) s { s with phoask.aliveAt := s.tb.clocks, phoask.aliveLost := false } :=
    (Framed.refl h).of_eq rfl
  exact seen.cntWrap (by decide)

theorem State.heard_of_not_claiming (other : s.role ≠ rCLAIMING) : s.heard = s := by
  unfold State.heard
  rw [if_neg fun claiming => other claiming.1]

theorem execAliveReceive_eq {octets : List Nat} (h : s.RegsOk) (good : twcGood octets = true) (alive : twcCmd octets = 9)
    (mine : (s.advance clocks).twcMine octets = true) (other : (s.advance clocks).role ≠ rCLAIMING) :
    execAliveReceive clocks octets s = .next (s.advance clocks).aliveSeen := by
  have seen := State.framed_aliveSeen (s := s.advance clocks) h
  have up : (s.advance clocks).aliveSeen.up = (s.advance clocks).up := by
    unfold State.aliveSeen
    rw [State.cntWrap_up]
  have other' : (s.advance clocks).aliveSeen.role ≠ rCLAIMING := by
    rw [seen.role_eq up (by decide)]
    exact other
  unfold execAliveReceive
  simp only [good, alive, mine, Bool.not_true, Bool.false_eq_true, and_self, if_false, if_true]
  exact congrArg Host.Outcome.next (State.heard_of_not_claiming other')

/-- The missing ALIVE frames are noted and posted. -/
def State.aliveMissed (s : State) : State := { s.err pTWR 0x7221 0 with phoask.aliveLost := true }

theorem execAliveTimeout_eq (headstock : (s.advance clocks).role = rHEADSTOCK)
    (late : (s.advance clocks).aliveLate = true) (beats : (s.advance clocks).hbLate = false)
    (first : s.phoask.aliveLost = false) : execAliveTimeout clocks s = .next (s.advance clocks).aliveMissed := by
  have first' : (s.advance clocks).phoask.aliveLost = false := first
  unfold execAliveTimeout
  simp only [headstock, late, beats, first']
  rfl

theorem State.frame_aliveMissed (h : s.RegsOk) : Frame (Offs pTWR errRegs)
    { s with phoask := s.aliveMissed.phoask, posts := s.aliveMissed.posts } s s.aliveMissed := by
  have frame := State.frame_err (code := 0x7221) (loc := 0) h bridgeDie_twr
  have same := congrArg (fun w : State => { w with phoask := s.aliveMissed.phoask }) frame.rest
  exact ⟨frame.regs, same⟩

/-! ### Software commands of TWC -/

/-- The registers in which a software command ends. -/
abbrev TwcRegs : Nat → Prop := Offs pTWR [TWR_TWC_CMD, INT_RAW]

section

variable {result : Nat}

theorem Framed.twcEnds (h : Framed m s t) (k : ∀ x ∈ [TWR_TWC_CMD, INT_RAW], m (pTWR + x)) :
    Framed m s (t.twcEnds result) := by
  have command : m (pTWR + TWR_TWC_CMD) := k _ (by decide)
  have raised : Framed m s
      (((t.set pTWR TWR_TWC_CMD_BUSY 0).set pTWR TWR_TWC_CMD_RESULT result).irq pTWR INT_TWR_TWC_DONE) :=
    ((h.set command).set command).irq (k _ (by decide))
  exact raised.of_eq rfl

theorem State.on_twcEnds_busy (h : s.RegsOk) : (s.twcEnds result).on pTWR TWR_TWC_CMD_BUSY = false := by
  have ends : (s.set pTWR TWR_TWC_CMD_BUSY 0).RegsOk := State.regsOk_set h
  unfold State.twcEnds
  rw [State.on_modTwin, State.on_irq_other (State.regsOk_set ends) (by decide),
    State.on_set_beside pTWR TWR_TWC_CMD_RESULT TWR_TWC_CMD_BUSY _ ends rfl (by decide) (by decide),
    State.on_set_zero _ _ h (by decide)]

theorem State.get_twcEnds_result (h : s.RegsOk) (fits : result < 4) :
    (s.twcEnds result).get pTWR TWR_TWC_CMD_RESULT = result := by
  have ends : (s.set pTWR TWR_TWC_CMD_BUSY 0).RegsOk := State.regsOk_set h
  unfold State.twcEnds
  rw [State.get_modTwin, State.get_irq_other (State.regsOk_set ends) (by decide),
    State.get_set_fits _ _ _ ends (by decide) fits]

theorem State.irq_twcEnds (h : s.RegsOk) : (s.twcEnds result).Irq pTWR INT_TWR_TWC_DONE := by
  unfold State.Irq State.twcEnds
  rw [State.on_modTwin, State.irq_on _ _ (State.regsOk_set (State.regsOk_set h)) (by decide)]

theorem State.rest_twcEnds : (s.twcEnds result).rest = (s.modTwin fun z => { z with want := none }).rest := rfl

theorem State.twcEnds_twin : (s.twcEnds result).twin = { s.twin with want := none } := rfl

/-- The end of a command after nothing but registers have changed. -/
theorem State.rest_twcEnds_of (same : t.rest = s.rest) : (t.twcEnds result).rest =
    ({ s with twin := (t.twcEnds result).twin } : State).rest := by
  rw [State.rest_twcEnds, State.twcEnds_twin]
  exact congrArg (fun w : State => { w with twin := { t.twin with want := none } }) same

theorem State.twcEnds_out : (s.twcEnds result).out = s.out := rfl

end

theorem framed_plain_twcCmd {v : Word} (h : s.RegsOk) : Framed TwcRegs s (s.plain pTWR TWR_TWC_CMD v) :=
  (Framed.refl h).plain (by decide)

theorem twrTwcCmdEff_go {v : Word} (go : v.getLsbD 16 = true) (idle : s.on pTWR TWR_TWC_CMD_BUSY = false) :
    twrTwcCmdEff v s = (s.plain pTWR TWR_TWC_CMD v).twcGo := by
  unfold twrTwcCmdEff
  simp only [go, idle, Bool.false_eq_true, if_false, if_true]

/-- Outside HS_ALONE, and once the twin rejoins, a command ends with RESULT 2 (R332). -/
theorem State.twcGo_refused (apart : s.role ≠ rHS_ALONE ∨ s.twin.rejoining = true) : s.twcGo = s.twcEnds 2 := by
  unfold State.twcGo
  exact if_pos (apart.imp_right .inl)

/-- KEEP goes out, and its command ends. -/
theorem State.twcGo_keep {d : Nat} (alone : s.role = rHS_ALONE) (parted : s.twin.rejoining = false)
    (keep : s.get pTWR TWR_TWC_CMD_CMD = 2) (dest : s.get pTWR TWR_TWC_CMD_DIE ≠ 0) (die : s.twcDie = some d) :
    s.twcGo = (s.twcCommand (s.get pTWR TWR_TWC_CMD_DIE) 2 []).twcEnds 1 := by
  unfold State.twcGo
  simp [alone, parted, keep, dest, die]

/-- The state in which KEEP to the named dies has gone out with the next sequence number. -/
def State.keepSent (s : State) (v : Word) (d : Nat) : State :=
  ((s.plain pTWR TWR_TWC_CMD v).modTwin fun z => { z with seq := (s.twin.seq + 1) % 256 }).emit
    (.twc true d (twcSeal [s.twcHead (bitsOf v.toNat 4 2) 2, (s.twin.seq + 1) % 256]))

theorem State.framed_keepSent {v : Word} {d : Nat} (h : s.RegsOk) : Framed TwcRegs s (s.keepSent v d) :=
  (framed_plain_twcCmd h).of_eq rfl

theorem twrTwcCmdEff_keep {v : Word} {d : Nat} (h : s.RegsOk) (go : v.getLsbD 16 = true)
    (idle : s.on pTWR TWR_TWC_CMD_BUSY = false) (alone : s.role = rHS_ALONE) (parted : s.twin.rejoining = false)
    (keep : bitsOf v.toNat 0 4 = 2) (dest : bitsOf v.toNat 4 2 ≠ 0) (die : s.twcDie = some d) :
    twrTwcCmdEff v s = (s.keepSent v d).twcEnds 1 := by
  have plain := framed_plain_twcCmd (v := v) h
  have up : (s.plain pTWR TWR_TWC_CMD v).up = s.up := State.plain_up ..
  have twin : (s.plain pTWR TWR_TWC_CMD v).twin = s.twin := State.plain_twin ..
  have command : (s.plain pTWR TWR_TWC_CMD v).get pTWR TWR_TWC_CMD_CMD = bitsOf v.toNat 0 4 :=
    State.get_plain (f := TWR_TWC_CMD_CMD) h (by decide) (by decide)
  have dies : (s.plain pTWR TWR_TWC_CMD v).get pTWR TWR_TWC_CMD_DIE = bitsOf v.toNat 4 2 :=
    State.get_plain (f := TWR_TWC_CMD_DIE) h (by decide) (by decide)
  have die' : (s.plain pTWR TWR_TWC_CMD v).twcDie = some d := (plain.twcDie_eq up (by decide)).trans die
  rw [twrTwcCmdEff_go go idle, State.twcGo_keep ((plain.role_eq up (by decide)).trans alone) (by rw [twin, parted])
    (command.trans keep) (by rw [dies]; exact dest) die', State.twcCommand_eq die', plain.twcHead_eq (by decide), twin, dies]
  rfl

theorem State.rest_keepSent {v : Word} {d : Nat} : ((s.keepSent v d).modTwin fun z => { z with want := none }).rest =
    ({ s with out := (s.keepSent v d).out, twin := { (s.keepSent v d).twin with want := none } } : State).rest :=
  congrArg (fun w : State => { w with out := (s.keepSent v d).out, twin := { (s.keepSent v d).twin with want := none } })
    (State.rest_plain s pTWR TWR_TWC_CMD v)

theorem execTwcReplyTimeout_eq (busy : (s.advance clocks).on pTWR TWR_TWC_CMD_BUSY = true) :
    execTwcReplyTimeout clocks s = .next ((s.advance clocks).twcEnds 3) := by
  unfold execTwcReplyTimeout
  simp only [busy, if_true]

/-! ### The reply to STATUS -/

/-- The reply's three words. -/
def State.replyKept (s : State) (octets : List Nat) : State :=
  s.each [0, 1, 2] fun s k => s.wrn pTWR (TWR_TWC_RSP k) (ofBytesBE ((octets.drop (2 + 4 * k)).take 4))

/-- The registers in which a reply to STATUS ends. -/
abbrev ReplyRegs : Nat → Prop := Offs pTWR [TWR_TWC_RSP 0, TWR_TWC_RSP 1, TWR_TWC_RSP 2, TWR_TWC_CMD, INT_RAW]

theorem State.framed_replyKept {octets : List Nat} (h : s.RegsOk) : Framed ReplyRegs s (s.replyKept octets) :=
  (((Framed.refl h).wrn (by decide)).wrn (by decide)).wrn (by decide)

theorem State.rd_replyKept {octets : List Nat} (h : s.RegsOk) : (s.replyKept octets).rd pTWR (TWR_TWC_RSP 0) =
    BitVec.ofNat 32 (ofBytesBE ((octets.drop 2).take 4)) := by
  show (((s.wrn pTWR (TWR_TWC_RSP 0) _).wrn pTWR (TWR_TWC_RSP 1) _).wrn pTWR (TWR_TWC_RSP 2) _).rd pTWR (TWR_TWC_RSP 0) = _
  rw [State.rd_wrn_other (State.regsOk_wrn (State.regsOk_wrn h)) (by decide),
    State.rd_wrn_other (State.regsOk_wrn h) (by decide), State.rd_wrn_same _ _ _ h]

theorem State.rest_replyEnded {octets : List Nat} : ((s.replyKept octets).twcEnds 1).rest =
    ({ s with twin := ((s.replyKept octets).twcEnds 1).twin } : State).rest := by
  have kept : (s.replyKept octets).rest = s.rest := State.rest_each (fun _ _ => State.rest_wrn ..) s
  exact State.rest_twcEnds_of kept

theorem execTwcStatusReply_eq {octets : List Nat} (good : twcGood octets = true) (status : twcCmd octets = 8)
    (mine : (s.advance clocks).twcMine octets = true) (awaited : s.twin.want = some (nth octets 1 0)) :
    execTwcStatusReply clocks (.receive octets) s = .next (((s.advance clocks).replyKept octets).twcEnds 1) := by
  have awaited' : (s.advance clocks).twin.want = some (nth octets 1 0) := awaited
  unfold execTwcStatusReply
  simp only [good, status, mine, awaited', Bool.not_true, Bool.false_eq_true, and_self, if_false, if_true]
  rfl

/-! ### The rejoin copy (R334) -/

theorem execRejoinCopy_eq {area : Fin 4} {off len : Nat} (alone : s.role = rHS_ALONE) (rejoining : s.twin.rejoining = true)
    (up : s.brUp 2 = true) (sized : 4 ≤ len ∧ len ≤ 256) (inside : off + len ≤ (s.mirrorArea area.val).2) :
    execRejoinCopy area off len s = .next ((s.modTwin fun z => { z with copying := true }).sendMirror area.val off
      (s.bytes ((s.mirrorArea area.val).1 + off) len)) := by
  unfold execRejoinCopy
  simp only [alone, rejoining, up, sized, inside, and_self, if_true]

/-- A piece of the copy of a memory that both cores of a pair hold is stored twice. -/
theorem execCheckpointMirrorPacket_eq {area : Fin 4} {off : Nat} {data : List Nat}
    (rejoins : (s.advance clocks).role = rREJOIN) (up : (s.advance clocks).brUp 2 = true)
    (inside : off + data.length ≤ ((s.advance clocks).mirrorArea area.val).2) (paired : area.val < 2) :
    execCheckpointMirrorPacket clocks area off data s =
      .next (((s.advance clocks).setBytes (((s.advance clocks).mirrorArea area.val).1 + off) data).setBytes
        (((s.advance clocks).mirrorArea area.val).1 + 0x20000 + off) data) := by
  have apart : (area.val != 3) = true := bne_iff_ne.mpr (by omega)
  unfold execCheckpointMirrorPacket
  simp only [rejoins, up, inside, paired, apart, Bool.true_or, and_self, if_true]

/-! ### The counters (R322-R331) -/

abbrev twinCounters : List Nat := [TWR_CMP, TWR_IMG, TWR_TAKE, TWR_TWC]

theorem twrCntClrEff_set {v : Word} (clr : v.getLsbD 0 = true) : twrCntClrEff v s = s.zeroRegs pTWR twinCounters := by
  unfold twrCntClrEff
  rw [if_pos clr]
  rfl

/-! ### O23 -/

/-- Settles O23, command by command: images and their comparison, the rejoin copy, ALIVE and KEEP frames, software commands of TWC,
and the counters. -/
theorem twinTrafficCommandsComplete : Obligations.TwinTrafficCommandsComplete := by
  refine ⟨?image, ?late, ?output, ?cut, ?copy, ?mirror, ?aliveSend, ?aliveReceive, ?aliveTimeout, ?keep, ?command, ?refused,
    ?replyTimeout, ?reply, ?clear⟩
  case image =>
    intro clocks octets s canonical exchanging due whole
    refine ⟨_, execInputImagePacket_eq exchanging due whole, ?_, ?_, ?_, State.frame_imageTaken⟩
    · rw [State.imageTaken_twin]
    · rw [State.imageTaken_twin]
    · rw [State.imageTaken_mem, State.imageTaken_twin]
  case late =>
    intro clocks s canonical exchanging due
    have h : (s.advance clocks).RegsOk := canonical.regsOk
    exact ⟨_, execTwinImageLate_eq exchanging due, State.imageLate_twin.1, State.imageLate_twin.2, State.frame_imageLate h⟩
  case output =>
    intro clocks cycle pos imgA imgB o s canonical sized tailstock exchanging waits cycles places up
    have h : ((s.advance clocks).modTwin fun z =>
        { z with hsImg := some ⟨cycle % 0x10000, pos % 64, imgA % 0x10000, imgB % 0x10000⟩ }).RegsOk := canonical.regsOk
    exact ⟨_, execOutputImagePacket_eq tailstock exchanging waits cycles places, State.get_combined h up,
      State.combined_images.1, State.combined_images.2, (State.framed_combined h).regs, State.combined_field State.fuses,
      State.combined_field State.tabs, State.combined_field State.mem⟩
  case cut =>
    intro clocks s canonical tailstock waits
    have h : (s.advance clocks).RegsOk := canonical.regsOk
    exact ⟨_, execOutputImageCut_eq tailstock waits, State.imageCut_ownImg, State.irq_imageCut h, State.frame_imageCut h⟩
  case copy =>
    intro area off len s canonical alone rejoining up sized inside
    exact ⟨_, execRejoinCopy_eq alone rejoining up ⟨sized.1, sized.2⟩ inside, rfl⟩
  case mirror =>
    intro clocks area off data s canonical rejoins up inside paired
    exact ⟨_, execCheckpointMirrorPacket_eq rejoins up inside paired, rfl, MemOnly.refl.setBytes.setBytes.frame⟩
  case aliveSend =>
    intro clocks d s canonical headstock die
    exact ⟨_, execAliveSend_eq headstock die, rfl, fun _ _ => rfl, rfl⟩
  case aliveReceive =>
    intro clocks octets s canonical good alive mine other
    have h : s.RegsOk := canonical.regsOk
    have phoask : (s.advance clocks).aliveSeen.phoask =
        { s.phoask with aliveAt := (s.advance clocks).tb.clocks, aliveLost := false } := State.cntWrap_phoask ..
    refine ⟨_, execAliveReceive_eq h good alive mine other, ?_, ?_, (State.framed_aliveSeen (s := s.advance clocks) h).regs, ?_⟩
    · rw [phoask]
    · rw [phoask]
    · rw [phoask]
      exact State.rest_cntWrap ..
  case aliveTimeout =>
    intro clocks s canonical headstock late beats first
    have h : (s.advance clocks).RegsOk := canonical.regsOk
    exact ⟨_, execAliveTimeout_eq headstock late beats first, rfl, State.posted_err bridgeDie_twr,
      State.frame_aliveMissed h⟩
  case keep =>
    intro clocks d s canonical control alone die
    exact ⟨_, execKeepRepeat_eq control alone die, rfl, rfl, fun _ _ => rfl, rfl⟩
  case command =>
    intro a v d s canonical accepts go idle alone parted keep dest die
    have h : s.ok.RegsOk := canonical.regsOk
    have sent := State.framed_keepSent (v := v) (d := d) h
    refine ⟨_, congrArg Host.Outcome.next ((State.regWrite_accepted accepts rfl).trans
      (twrTwcCmdEff_keep h go idle alone parted keep dest die)), ?_, ?_, State.get_twcEnds_result sent.ok (by decide),
      State.on_twcEnds_busy sent.ok, State.irq_twcEnds sent.ok, (sent.twcEnds (by decide)).regs, ?_⟩
    · rw [State.twcEnds_out, State.twcEnds_twin]
      exact congrArg (· ++ [_]) (State.plain_out ..)
    · rw [State.twcEnds_twin]
      rfl
    · rw [State.rest_twcEnds, State.twcEnds_out, State.twcEnds_twin]
      exact State.rest_keepSent
  case refused =>
    intro a v s canonical accepts go idle apart
    have h : s.ok.RegsOk := canonical.regsOk
    have plain := framed_plain_twcCmd (v := v) h
    have apart' : (s.ok.plain pTWR TWR_TWC_CMD v).role ≠ rHS_ALONE ∨
        (s.ok.plain pTWR TWR_TWC_CMD v).twin.rejoining = true := by
      rw [plain.role_eq (State.plain_up ..) (by decide), State.plain_twin]
      exact apart
    have effEq : twrTwcCmdEff v s.ok = (s.ok.plain pTWR TWR_TWC_CMD v).twcEnds 2 :=
      (twrTwcCmdEff_go (s := s.ok) go idle).trans (State.twcGo_refused apart')
    refine ⟨_, congrArg Host.Outcome.next ((State.regWrite_accepted accepts rfl).trans effEq),
      State.get_twcEnds_result plain.ok (by decide), State.on_twcEnds_busy plain.ok, State.irq_twcEnds plain.ok, ?_,
      (plain.twcEnds (by decide)).regs, State.rest_twcEnds_of (State.rest_plain ..)⟩
    rw [State.twcEnds_out, State.plain_out]
    rfl
  case replyTimeout =>
    intro clocks s canonical busy
    have h : (s.advance clocks).RegsOk := canonical.regsOk
    exact ⟨_, execTwcReplyTimeout_eq busy, State.on_twcEnds_busy h, State.get_twcEnds_result h (by decide),
      State.irq_twcEnds h, rfl, ((Framed.refl h).twcEnds (m := TwcRegs) (by decide)).regs, rfl⟩
  case reply =>
    intro clocks octets s canonical good status mine awaited
    have h : (s.advance clocks).RegsOk := canonical.regsOk
    have kept := State.framed_replyKept (octets := octets) h
    have ended : Framed TwcRegs ((s.advance clocks).replyKept octets) (((s.advance clocks).replyKept octets).twcEnds 1) :=
      (Framed.refl kept.ok).twcEnds (by decide)
    exact ⟨_, execTwcStatusReply_eq good status mine awaited, (ended.rd_eq (by decide)).trans (State.rd_replyKept h),
      State.on_twcEnds_busy kept.ok, State.get_twcEnds_result kept.ok (by decide), State.irq_twcEnds kept.ok,
      (kept.twcEnds (by decide)).regs, State.rest_replyEnded⟩
  case clear =>
    intro a v s canonical accepts clr
    have h : s.ok.RegsOk := canonical.regsOk
    refine ⟨_, congrArg Host.Outcome.next ((State.regWrite_accepted accepts rfl).trans (twrCntClrEff_set clr)),
      State.rd_zeroRegs_mem h (by decide), State.rd_zeroRegs_mem h (by decide), State.rd_zeroRegs_mem h (by decide),
      State.rd_zeroRegs_mem h (by decide), ((Framed.refl h).zeroRegs (by decide)).regs, State.rest_zeroRegs⟩

end Sys2Proof.Machine

end

/-!
## Role states of the twins (spec/10 R316-R320, Table 10-7)

What entering a role state leaves: its state, the claim, the interrupt, and what else of the role machine.
-/

section

namespace Sys2Proof.Machine

variable {s t : State} {m : Nat → Prop} {r : Nat}

/-! ### The role that a state holds -/

/-- Any role but UNPAIRED is that of a role machine that runs. -/
theorem State.runs_of_role (role : s.role = r) (other : r ≠ rUNPAIRED) :
    s.roleRuns = true ∧ s.get pTWR BLK_STAT_STATE = r := by
  unfold State.role at role
  split at role
  · next runs => exact ⟨runs, role⟩
  · exact absurd role.symm other

theorem State.role_of_runs (runs : s.roleRuns = true) (state : s.get pTWR BLK_STAT_STATE = r) : s.role = r := by
  unfold State.role
  rw [if_pos runs, state]

theorem State.isHeadstock_of_role (runs : s.roleRuns = true) (role : s.role = r) :
    s.isHeadstock = (r == rHEADSTOCK || r == rHS_ALONE) := by
  unfold State.isHeadstock
  rw [runs, role, Bool.true_and]

/-- Only HEADSTOCK, HS_ALONE and CLAIMING want the claim (R316). -/
theorem State.claimWanted_of_unpaired (role : s.role = rUNPAIRED) : s.claimWanted = false := by
  unfold State.claimWanted State.isHeadstock
  rw [role]
  simp

/-! ### Driving the claim -/

theorem State.driveClaim_parts {on : Bool} : ∃ claim out, s.driveClaim on = { s with claim := claim, out := out } := by
  unfold State.driveClaim
  dsimp only
  split
  · exact ⟨s.claim, s.out, rfl⟩
  · exact ⟨_, _, rfl⟩

/-- A claim that is released is not driven. -/
theorem State.driveClaim_off : (s.driveClaim false).claim = false := by
  unfold State.driveClaim
  rw [Bool.false_and]
  dsimp only
  split
  · assumption
  · rfl

/-! ### A role state is entered -/

/-- The role state before ROLE is posted: it is shown, and the claim follows it (R316). -/
def State.roleShown (s : State) (r : Nat) : State :=
  (s.set pTWR BLK_STAT_STATE r).driveClaim
    ((s.set pTWR BLK_STAT_STATE r).claimWanted && (s.set pTWR BLK_STAT_STATE r).dieUp 0)

theorem State.roleShown_parts :
    ∃ claim out, s.roleShown r = { s.set pTWR BLK_STAT_STATE r with claim := claim, out := out } := State.driveClaim_parts

theorem State.framed_roleShown (h : s.RegsOk) : Framed (Offs pTWR [BLK_STAT]) s (s.roleShown r) := by
  obtain ⟨claim, out, shown⟩ := State.roleShown_parts (s := s) (r := r)
  rw [shown]
  exact ((Framed.refl h).set (by decide)).of_eq rfl

theorem State.get_roleShown (h : s.RegsOk) (fits : r < 256) : (s.roleShown r).get pTWR BLK_STAT_STATE = r := by
  obtain ⟨claim, out, shown⟩ := State.roleShown_parts (s := s) (r := r)
  rw [shown]
  exact State.get_set_fits _ _ _ h (by decide) fits

theorem State.roleShown_up : (s.roleShown r).up = s.up := by
  obtain ⟨claim, out, shown⟩ := State.roleShown_parts (s := s) (r := r)
  rw [shown]
  rfl

theorem State.roleShown_twin : (s.roleShown r).twin = s.twin := by
  obtain ⟨claim, out, shown⟩ := State.roleShown_parts (s := s) (r := r)
  rw [shown]
  rfl

/-- Entering a role state shows it, changes the role machine's own state, and sets ROLE where the Headstock role is taken or
left (R328). -/
theorem State.setRole_eq : ∃ f : TwinState → TwinState,
    (∀ z, (f z).origin = z.origin ∧ (f z).sideSet = z.sideSet ∧ (r ≠ rCLAIMING → (f z).claimAt = none)) ∧
    s.setRole r = if (((s.roleShown r).modTwin f).isHeadstock != s.isHeadstock) = true then
      ((s.roleShown r).modTwin f).irq pTWR INT_TWR_ROLE else (s.roleShown r).modTwin f := by
  refine ⟨_, ?_, rfl⟩
  exact fun _ => ⟨rfl, rfl, fun other => if_neg fun claiming => other claiming.1⟩

/-- Beside registers, entering a role state touches the claim, the outputs and the role machine's own state. -/
theorem State.setRole_parts : ∃ regs claim out twin,
    s.setRole r = { s with regs := regs, claim := claim, out := out, twin := twin } := by
  obtain ⟨f, -, entered⟩ := State.setRole_eq (s := s) (r := r)
  obtain ⟨claim, out, shown⟩ := State.roleShown_parts (s := s) (r := r)
  rw [entered, shown]
  split
  · exact ⟨_, _, _, _, rfl⟩
  · exact ⟨_, _, _, _, rfl⟩

theorem State.setRole_posts : (s.setRole r).posts = s.posts := by
  obtain ⟨regs, claim, out, twin, entered⟩ := State.setRole_parts (s := s) (r := r)
  rw [entered]

theorem State.setRole_tb : (s.setRole r).tb = s.tb := by
  obtain ⟨regs, claim, out, twin, entered⟩ := State.setRole_parts (s := s) (r := r)
  rw [entered]

/-- The registers in which a role state is shown. -/
abbrev RoleRegs : Nat → Prop := Offs pTWR [BLK_STAT, INT_RAW]

theorem State.framed_setRole (h : s.RegsOk) : Framed RoleRegs s (s.setRole r) := by
  obtain ⟨f, -, entered⟩ := State.setRole_eq (s := s) (r := r)
  have shown : Framed RoleRegs s ((s.roleShown r).modTwin f) :=
    ⟨fun addr other => (State.framed_roleShown h).regs addr fun mem => other (List.mem_append_left [pTWR + INT_RAW] mem),
      (State.framed_roleShown h).ok⟩
  rw [entered]
  exact .ite (shown.irq (by decide)) shown

theorem State.get_setRole (h : s.RegsOk) (fits : r < 256) : (s.setRole r).get pTWR BLK_STAT_STATE = r := by
  obtain ⟨f, -, entered⟩ := State.setRole_eq (s := s) (r := r)
  have ok : ((s.roleShown r).modTwin f).RegsOk := (State.framed_roleShown h).ok
  rw [entered]
  split
  · rw [State.get_irq_other ok (by decide), State.get_modTwin, State.get_roleShown h fits]
  · rw [State.get_modTwin, State.get_roleShown h fits]

theorem State.setRole_twin : (s.setRole r).twin.origin = s.twin.origin ∧ (s.setRole r).twin.sideSet = s.twin.sideSet ∧
    (r ≠ rCLAIMING → (s.setRole r).twin.claimAt = none) := by
  obtain ⟨f, own, entered⟩ := State.setRole_eq (s := s) (r := r)
  have twin : (s.setRole r).twin = f s.twin := by
    rw [entered, ← State.roleShown_twin (s := s) (r := r)]
    split <;> rfl
  rw [twin]
  exact own s.twin

/-- An interrupt of the TWR page that reads 1 does so in the role state entered. -/
theorem State.irq_setRole {b : Nat} (h : s.RegsOk) (small : b < 32) (irq : s.Irq pTWR b) : (s.setRole r).Irq pTWR b := by
  obtain ⟨f, -, entered⟩ := State.setRole_eq (s := s) (r := r)
  have shown : ((s.roleShown r).modTwin f).Irq pTWR b := ((State.framed_roleShown h).on_eq (by
    show ¬ pTWR + INT_RAW ∈ [pTWR + BLK_STAT]
    decide)).trans irq
  rw [entered]
  split
  · exact State.on_irq_kept (State.framed_roleShown h).ok small (by decide) shown
  · exact shown

/-- UNPAIRED releases the claim (R316). -/
theorem State.claim_setRole_unpaired (h : s.RegsOk) : (s.setRole rUNPAIRED).claim = false := by
  obtain ⟨f, -, entered⟩ := State.setRole_eq (s := s) (r := rUNPAIRED)
  have role : (s.set pTWR BLK_STAT_STATE rUNPAIRED).role = rUNPAIRED := by
    unfold State.role
    rw [State.get_set_fits _ _ _ h (by decide) (by decide), ite_self]
  have shown : (s.roleShown rUNPAIRED).claim = false := by
    unfold State.roleShown
    rw [State.claimWanted_of_unpaired role, Bool.false_and]
    exact State.driveClaim_off
  rw [entered]
  split <;> exact shown

/-- ROLE is set where a module that does not hold the Headstock role enters HS_ALONE (R328). -/
theorem State.irq_setRole_alone (h : s.RegsOk) (runs : s.roleRuns = true) (other : s.isHeadstock = false) :
    (s.setRole rHS_ALONE).Irq pTWR INT_TWR_ROLE := by
  obtain ⟨f, -, entered⟩ := State.setRole_eq (s := s) (r := rHS_ALONE)
  have runs' : ((s.roleShown rHS_ALONE).modTwin f).roleRuns = true :=
    ((State.framed_roleShown h).roleRuns_eq State.roleShown_up (by decide)).trans runs
  have role : ((s.roleShown rHS_ALONE).modTwin f).role = rHS_ALONE :=
    State.role_of_runs runs' (State.get_roleShown h (by decide))
  rw [entered, State.isHeadstock_of_role runs' role, other]
  exact State.irq_on _ _ (State.framed_roleShown h).ok (by decide)

/-! ### CLAIMING -/

theorem State.get_enterClaiming (h : s.RegsOk) : s.enterClaiming.get pTWR BLK_STAT_STATE = rCLAIMING :=
  State.get_setRole (s := s.modTwin _) h (by decide)

theorem State.enterClaiming_origin : s.enterClaiming.twin.origin = s.role :=
  (State.setRole_twin (s := s.modTwin fun z => { z with origin := s.role })).1

theorem State.enterClaiming_tb : s.enterClaiming.tb = s.tb := State.setRole_tb

theorem State.enterAlone_free (free : s.peerAsserted = false) : s.enterAlone = s.enterClaiming := by
  unfold State.enterAlone
  rw [free]
  rfl

end Sys2Proof.Machine

end

/-!
## Takeover and pairing of the twins (spec/10 R314, R325-R328, R333)

The Headstock role that is taken by the override, and what a pairing packet of an equal twin leaves.
-/

section

namespace Sys2Proof.Machine

variable {s t : State} {m : Nat → Prop} {clocks : Nat}

/-! ### The override -/

/-- The claim override stands in the interrupt register, and its code waits (R326). -/
structure State.OverrideShown (s : State) : Prop where
  ok : s.RegsOk
  irq : s.Irq pTWR INT_TWR_OVERRIDE
  posted : s.Posted pTWR 0x7218 0

namespace State.OverrideShown

/-- A step that writes neither the interrupt register nor the posted codes. -/
theorem of_framed (shown : s.OverrideShown) (framed : Framed m s t) (other : ¬ m (pTWR + INT_RAW))
    (posts : t.posts = s.posts) : t.OverrideShown :=
  ⟨framed.ok, (framed.on_eq other).trans shown.irq, by unfold State.Posted; rw [posts]; exact shown.posted⟩

theorem raise {b : Nat} (shown : s.OverrideShown) (small : b < 32) : (s.irq pTWR b).OverrideShown :=
  ⟨State.regsOk_irq shown.ok, State.on_irq_kept shown.ok (by decide) small shown.irq, shown.posted⟩

theorem err {code : Nat} (shown : s.OverrideShown) : (s.err pTWR code 0).OverrideShown :=
  ⟨State.regsOk_err shown.ok, State.on_err_kept shown.ok (by decide) bridgeDie_twr shown.irq, by
    unfold State.Posted
    rw [State.err_posts bridgeDie_twr]
    exact List.mem_append_left _ shown.posted⟩

theorem setRole {r : Nat} (shown : s.OverrideShown) : (s.setRole r).OverrideShown :=
  ⟨(State.framed_setRole shown.ok).ok, State.irq_setRole shown.ok (by decide) shown.irq, by
    unfold State.Posted
    rw [State.setRole_posts]
    exact shown.posted⟩

end State.OverrideShown

/-- The override as it begins. -/
def State.overridden (s : State) : State := ((s.irq pTWR INT_TWR_OVERRIDE).cnt pTWR TWR_TAKE_OVR).err pTWR 0x7218 0

theorem State.overrideShown_overridden (h : s.RegsOk) : s.overridden.OverrideShown := by
  have raised : (s.irq pTWR INT_TWR_OVERRIDE).RegsOk := State.regsOk_irq h
  have counted : ((s.irq pTWR INT_TWR_OVERRIDE).cnt pTWR TWR_TAKE_OVR).Irq pTWR INT_TWR_OVERRIDE := by
    unfold State.Irq
    rw [State.on_cnt_other raised (by decide), State.irq_on _ _ h (by decide)]
  exact ⟨State.regsOk_err (State.regsOk_cnt raised),
    State.on_err_kept (State.regsOk_cnt raised) (by decide) bridgeDie_twr counted, State.posted_err bridgeDie_twr⟩

/-- The records of a takeover: the interrupt, the count, its time and its code (R328). -/
def State.takenOver (s : State) : State :=
  let s1 := (s.irq pTWR INT_TWR_TWIN_LOST).cnt pTWR TWR_TAKE_TAKE
  (if s1.frozen pTWR then s1 else s1.set pTWR TWR_TAKE_TIME (min 0xFFFF ((s.tb.clocks - s.phoask.hbAt) / 50))).err pTWR
    0x7217 0

theorem State.OverrideShown.takenOver (shown : s.OverrideShown) : s.takenOver.OverrideShown := by
  have raised := shown.raise (b := INT_TWR_TWIN_LOST) (by decide)
  have counted : ((s.irq pTWR INT_TWR_TWIN_LOST).cnt pTWR TWR_TAKE_TAKE).OverrideShown :=
    raised.of_framed (m := Offs pTWR [TWR_TAKE]) ((Framed.refl raised.ok).cnt (by decide)) (by decide) (State.cnt_posts ..)
  unfold State.takenOver
  dsimp only
  split
  · exact counted.err
  · exact (counted.of_framed (m := Offs pTWR [TWR_TAKE]) ((Framed.refl counted.ok).set (by decide)) (by decide) rfl).err

/-- A frame of TWC changes neither registers nor posted codes. -/
theorem State.sendKeep_same : s.sendKeep.regs = s.regs ∧ s.sendKeep.posts = s.posts := by
  unfold State.sendKeep State.twcCommand State.twcSend
  dsimp only
  split
  · exact ⟨rfl, rfl⟩
  · exact ⟨rfl, rfl⟩

theorem State.takeControl_same : s.takeControl.regs = s.regs ∧ s.takeControl.posts = s.posts := by
  unfold State.takeControl
  split
  · exact State.sendKeep_same
  · exact ⟨rfl, rfl⟩

/-- By the override the module enters HS_ALONE, and its records stand. -/
theorem State.takeRole_override (h : s.RegsOk) :
    (s.takeRole true).OverrideShown ∧ (s.takeRole true).get pTWR BLK_STAT_STATE = rHS_ALONE := by
  have shown := State.overrideShown_overridden h
  have taken : s.takeRole true =
      if (s.twin.origin == rTAILSTOCK || s.twin.origin == rREJOIN) = true then
        (s.overridden.takenOver.setRole rHS_ALONE).takeControl
      else s.overridden.setRole rHS_ALONE := by
    unfold State.takeRole
    dsimp only
    split <;> rfl
  rw [taken]
  split
  · have entered := shown.takenOver.setRole (r := rHS_ALONE)
    obtain ⟨regs, posts⟩ := State.takeControl_same (s := s.overridden.takenOver.setRole rHS_ALONE)
    have framed : Framed (fun _ => False) (s.overridden.takenOver.setRole rHS_ALONE)
        (s.overridden.takenOver.setRole rHS_ALONE).takeControl := (Framed.refl entered.ok).of_eq regs
    exact ⟨entered.of_framed framed id posts,
      (framed.get_eq id).trans (State.get_setRole shown.takenOver.ok (by decide))⟩
  · exact ⟨shown.setRole, State.get_setRole shown.ok (by decide)⟩

/-- From UNPAIRED nothing is taken over: the role is entered (R326). -/
theorem State.takeRole_unpaired (origin : s.twin.origin = rUNPAIRED) : s.takeRole false = s.setRole rHS_ALONE := by
  unfold State.takeRole
  rw [origin]
  rfl

/-! ### What pairing reads across a frame -/

theorem State.fuse_of_fuses (same : t.fuses = s.fuses) (w : Nat) : t.fuse w = s.fuse w := by
  unfold State.fuse
  rw [same]

theorem State.variantCode_of_fuses (same : t.fuses = s.fuses) : t.variantCode = s.variantCode := by
  unfold State.variantCode
  rw [State.fuse_of_fuses same]

theorem State.identityNat_of_fuses (same : t.fuses = s.fuses) : t.identityNat = s.identityNat := by
  unfold State.identityNat
  simp only [State.fuse_of_fuses same]

theorem Framed.ownDual_eq {d : Nat} (h : Framed m s t) (module : t.hz9620 = s.hz9620)
    (n : ∀ i < 16, ¬ m (pLSW d i + LSW_CTRL)) : t.ownDual d = s.ownDual d := by
  have channels : t.chanIxs d = s.chanIxs d := by
    unfold State.chanIxs
    rw [module]
  have sixteen : ∀ i ∈ s.chanIxs d, i < 16 := by
    unfold State.chanIxs
    intro i mem
    split at mem
    · exact absurd mem List.not_mem_nil
    · exact List.mem_range.mp mem
  unfold State.ownDual State.cmdMask
  rw [channels, List.filter_congr fun i mem => h.on_eq (n i (sixteen i mem))]

/-! ### The packet of this module -/

/-- The packets of the bridge and the role machine's own state are all that a pairing packet of this module touches. -/
theorem State.sendPairing_field {α : Type} (f : State → α) (own : ∀ x : State, f x.rest = f x := by exact fun _ => rfl)
    (apart : ∀ x y : State, f { x with bridges := y.bridges, out := y.out } = f x := by exact fun _ _ => rfl)
    (twin : ∀ (x : State) g, f (x.modTwin g) = f x := by exact fun _ _ => rfl) : f s.sendPairing = f s := by
  have sent : BridgesOnly (s.modTwin fun z => { z with sentPair := true }) s.sendPairing := BridgesOnly.refl.sendRsv
  rw [sent.field f own apart, twin]

theorem State.framed_sendPairing (h : s.RegsOk) : Framed SendRegs s s.sendPairing := by
  have noted : Framed SendRegs s (s.modTwin fun z => { z with sentPair := true }) := (Framed.refl h).of_eq rfl
  exact noted.sendRsv sendRegs_twin

/-! ### What the twin's packet tells -/

theorem State.writeSide_parts {d : Nat} : ∃ dies, s.writeSide d = { s with dies := dies } := by
  unfold State.writeSide
  split
  · exact ⟨_, rfl⟩
  · exact ⟨s.dies, rfl⟩

theorem State.writeSides_parts : ∃ dies, s.each [0, 1] (fun s d => s.writeSide d) = { s with dies := dies } :=
  State.each_induct (P := fun x => ∃ dies, x = { s with dies := dies }) ⟨s.dies, rfl⟩ fun x d ⟨_, same⟩ => by
    obtain ⟨dies, written⟩ := State.writeSide_parts (s := x) (d := d)
    exact ⟨dies, by rw [written, same]⟩

theorem State.twPortUp_parts : ∃ regs, s.twPortUp = { s with regs := regs } := by
  unfold State.twPortUp
  split
  · exact ⟨_, rfl⟩
  · exact ⟨s.regs, rfl⟩

theorem Framed.twPortUp (h : Framed m s t) (k : ∀ x ∈ [PORT_STAT, INT_RAW], m (pPORT 2 + x)) : Framed m s t.twPortUp := by
  have stat : m (pPORT 2 + PORT_STAT) := k _ (by decide)
  exact .ite (.irq (.set (.set h stat) stat) (k _ (by decide))) h

/-- The side that a twin of the lower identity leaves to this module. -/
def State.sideTold (s : State) : State :=
  (s.set pTWR TWR_STAT_SIDE 1).modTwin fun z => { z with sideSet := true, differs := false }

theorem State.framed_sideTold (h : s.RegsOk) : Framed (Offs pTWR [TWR_STAT]) s s.sideTold :=
  ((Framed.refl h).set (p := pTWR) (n := 1) (f := TWR_STAT_SIDE) (by decide)).of_eq rfl

/-- Side and DUAL masks as a twin of the lower identity tells them. -/
def State.twinTold (s : State) (p : PairPacket) : State :=
  (s.sideTold.set pTWR TWR_DUAL_A (s.sideTold.ownDual 0 &&& p.dualA)).set pTWR TWR_DUAL_B (s.sideTold.ownDual 1 &&& p.dualB)

theorem State.learnTwin_eq {p : PairPacket} (lower : p.identity % 2 ^ 128 ≤ s.identityNat) : s.learnTwin p =
    (if s.side = 1 ∧ s.twin.sideSet then s.twinTold p else (s.twinTold p).each [0, 1] fun s d => s.writeSide d).twPortUp := by
  have side : (if s.identityNat < p.identity % 2 ^ 128 then 0 else 1) = 1 := if_neg (Nat.not_lt.mpr lower)
  unfold State.learnTwin State.twinTold State.sideTold
  simp only [side]

theorem State.sidesWritten_parts {c : Prop} [Decidable c] :
    ∃ dies, (if c then s else s.each [0, 1] fun s d => s.writeSide d) = { s with dies := dies } := by
  split
  · exact ⟨s.dies, rfl⟩
  · exact State.writeSides_parts

/-- Beside registers and dies, a packet that was acted on leaves what the twin has told. -/
theorem State.learnTwin_parts {p : PairPacket} (lower : p.identity % 2 ^ 128 ≤ s.identityNat) :
    ∃ dies, s.learnTwin p = ({ s.twinTold p with dies := dies } : State).twPortUp := by
  obtain ⟨dies, written⟩ := State.sidesWritten_parts (s := s.twinTold p) (c := s.side = 1 ∧ s.twin.sideSet)
  exact ⟨dies, by rw [State.learnTwin_eq lower, written]⟩

/-- The registers that a pairing packet writes before a role state is entered. -/
abbrev PairRegs : Nat → Prop := Regs ([pTBR + BR_CRED, pTBR + BR_STAT, pPORT 2 + PORT_STAT, pPORT 2 + INT_RAW] ++
  [TWR_ID 0, TWR_ID 1, TWR_ID 2, TWR_ID 3, TWR_STAT, TWR_DUAL].map (pTWR + ·))

section

variable {p : PairPacket}

theorem Framed.twinTold (h : Framed PairRegs s t) : Framed PairRegs s (t.twinTold p) := by
  have side : Framed PairRegs s (t.set pTWR TWR_STAT_SIDE 1) := h.set (by decide)
  have told : Framed PairRegs s t.sideTold := side.of_eq rfl
  exact (told.set (by decide)).set (by decide)

theorem Framed.learnTwin (h : Framed PairRegs s t) (lower : p.identity % 2 ^ 128 ≤ t.identityNat) :
    Framed PairRegs s (t.learnTwin p) := by
  obtain ⟨dies, learned⟩ := State.learnTwin_parts lower
  have told : Framed PairRegs s { t.twinTold p with dies := dies } := h.twinTold.of_eq rfl
  rw [learned]
  exact told.twPortUp (by decide)

theorem State.learnTwin_twin (lower : p.identity % 2 ^ 128 ≤ s.identityNat) : (s.learnTwin p).twin.sideSet = true := by
  obtain ⟨dies, learned⟩ := State.learnTwin_parts lower
  obtain ⟨regs, risen⟩ := State.twPortUp_parts (s := { s.twinTold p with dies := dies })
  rw [learned, risen]
  rfl

theorem State.learnTwin_up (lower : p.identity % 2 ^ 128 ≤ s.identityNat) : (s.learnTwin p).up = s.up := by
  obtain ⟨dies, learned⟩ := State.learnTwin_parts lower
  obtain ⟨regs, risen⟩ := State.twPortUp_parts (s := { s.twinTold p with dies := dies })
  rw [learned, risen]
  rfl

/-- The port of the twins is apart from the page of the role machine. -/
theorem State.get_twPortUp (h : s.RegsOk) {f : Fld} (other : pTWR + f.off ∉ [pPORT 2 + PORT_STAT, pPORT 2 + INT_RAW]) :
    s.twPortUp.get pTWR f = s.get pTWR f := by
  have framed : Framed (Offs (pPORT 2) [PORT_STAT, INT_RAW]) s s.twPortUp := (Framed.refl h).twPortUp (by decide)
  exact framed.get_eq other

theorem State.regsOk_twinTold (h : s.RegsOk) : (s.twinTold p).RegsOk :=
  State.regsOk_set (State.regsOk_set (State.framed_sideTold h).ok)

/-- What the twin has told stays on the page of the role machine. -/
theorem State.get_learnTwin (h : s.RegsOk) (lower : p.identity % 2 ^ 128 ≤ s.identityNat) {f : Fld}
    (other : pTWR + f.off ∉ [pPORT 2 + PORT_STAT, pPORT 2 + INT_RAW]) :
    (s.learnTwin p).get pTWR f = (s.twinTold p).get pTWR f := by
  obtain ⟨dies, learned⟩ := State.learnTwin_parts lower
  have told : ({ s.twinTold p with dies := dies } : State).RegsOk := State.regsOk_twinTold (p := p) h
  rw [learned, State.get_twPortUp told other, State.get_fields]

theorem State.get_learnTwin_side (h : s.RegsOk) (lower : p.identity % 2 ^ 128 ≤ s.identityNat) :
    (s.learnTwin p).get pTWR TWR_STAT_SIDE = 1 := by
  have side := (State.framed_sideTold h).ok
  rw [State.get_learnTwin h lower (by decide)]
  unfold State.twinTold
  rw [State.get_set_other _ _ _ _ _ (State.regsOk_set side) (by decide), State.get_set_other _ _ _ _ _ side (by decide)]
  unfold State.sideTold
  rw [State.get_modTwin, State.get_set_fits _ _ _ h (by decide) (by decide)]

theorem State.get_learnTwin_dual (h : s.RegsOk) (lower : p.identity % 2 ^ 128 ≤ s.identityNat) :
    (s.learnTwin p).get pTWR TWR_DUAL_A = (s.ownDual 0 &&& p.dualA) % 2 ^ 16 := by
  have side := State.framed_sideTold h
  have own : s.sideTold.ownDual 0 = s.ownDual 0 := side.ownDual_eq rfl (by decide)
  rw [State.get_learnTwin h lower (by decide)]
  unfold State.twinTold
  rw [State.get_set_beside pTWR TWR_DUAL_B TWR_DUAL_A _ (State.regsOk_set side.ok) rfl (by decide) (by decide),
    State.get_set_same pTWR TWR_DUAL_A _ side.ok (by decide), own]

end

end Sys2Proof.Machine

end

/-!
## The commands of the role machine (spec/10 R314-R328, R335, Table 10-7)

Pairing, twin loss, claim and its override, contention and back-off, handover and the end of a rejoin.
-/

section

namespace Sys2Proof.Machine

variable {s t : State} {m : Nat → Prop} {clocks : Nat}

/-! ### A pairing packet of the twin -/

section

variable {p : PairPacket}

/-- The twin's packet has arrived and its identity stands; the own packet has gone out. -/
def State.packetKept (s : State) (p : PairPacket) : State :=
  ((if s.twin.sentPair then s else s.sendPairing).each [0, 1, 2, 3] fun s k =>
    s.wrn pTWR (TWR_ID k) (p.identity / 2 ^ (32 * (3 - k)) % 2 ^ 32)).modTwin fun z =>
      { z with gotPair := true, control := z.control && p.role != rPAIRING }

theorem State.framed_packetKept (h : s.RegsOk) : Framed PairRegs s (s.packetKept p) := by
  have sent : Framed PairRegs s s.sendPairing :=
    ⟨fun addr other => (State.framed_sendPairing h).regs addr fun mem => other (List.mem_append_left
      ([pPORT 2 + PORT_STAT, pPORT 2 + INT_RAW] ++ [TWR_ID 0, TWR_ID 1, TWR_ID 2, TWR_ID 3, TWR_STAT, TWR_DUAL].map (pTWR + ·))
      mem), (State.framed_sendPairing h).ok⟩
  have named : ∀ k ∈ [0, 1, 2, 3], PairRegs (pTWR + TWR_ID k) := by decide
  have before : Framed PairRegs s (if s.twin.sentPair then s else s.sendPairing) := .ite (.refl h) sent
  have written : Framed PairRegs s ((if s.twin.sentPair then s else s.sendPairing).each [0, 1, 2, 3] fun s k =>
      s.wrn pTWR (TWR_ID k) (p.identity / 2 ^ (32 * (3 - k)) % 2 ^ 32)) :=
    before.each fun _ k mem framed => framed.wrn (named k mem)
  exact written.of_eq rfl

/-- A field that neither sending nor keeping a packet touches. -/
theorem State.packetKept_field {α : Type} (f : State → α) (own : ∀ x : State, f x.rest = f x := by exact fun _ => rfl)
    (apart : ∀ x y : State, f { x with bridges := y.bridges, out := y.out } = f x := by exact fun _ _ => rfl)
    (twin : ∀ (x : State) g, f (x.modTwin g) = f x := by exact fun _ _ => rfl) : f (s.packetKept p) = f s := by
  have sent : f (if s.twin.sentPair then s else s.sendPairing) = f s := by
    split
    · rfl
    · exact State.sendPairing_field f own apart twin
  unfold State.packetKept
  rw [twin, ← own, State.rest_each (fun _ _ => State.rest_wrn ..), own, sent]

/-- In PAIRING, a packet in PAIRING of an equal twin with the lower identity leads to REJOIN on side 1 (R314, R321). -/
theorem State.pairWith_equal (h : s.RegsOk) (role : s.role = rPAIRING) (variant : p.variant = s.variantCode)
    (revision : p.revision = revisionCode) (twin : p.role = rPAIRING) (lower : p.identity % 2 ^ 128 ≤ s.identityNat) :
    s.pairWith p = (((s.packetKept p).learnTwin p).irq pTWR INT_TWR_PAIRED).setRole rREJOIN := by
  have kept := State.framed_packetKept (p := p) h
  have fuses : (s.packetKept p).fuses = s.fuses := State.packetKept_field State.fuses
  have lower' : p.identity % 2 ^ 128 ≤ (s.packetKept p).identityNat := by
    rw [State.identityNat_of_fuses fuses]
    exact lower
  have equal : ¬(p.variant ≠ (s.packetKept p).variantCode ∨ p.revision ≠ revisionCode) := by
    rw [State.variantCode_of_fuses fuses]
    exact fun differs => differs.elim (· variant) (· revision)
  have up : ((s.packetKept p).learnTwin p).up = s.up :=
    (State.learnTwin_up lower').trans (State.packetKept_field State.up)
  have role' : ((s.packetKept p).learnTwin p).role = rPAIRING :=
    ((kept.learnTwin lower').role_eq up (by decide)).trans role
  have side : ((s.packetKept p).learnTwin p).side = 1 := State.get_learnTwin_side kept.ok lower'
  unfold State.packetKept at equal role' side ⊢
  unfold State.pairWith
  dsimp only
  rw [if_neg equal, if_pos role', if_pos]
  rw [side, twin]
  rfl

theorem execPairingPacket_eq (up : (s.advance clocks).brUp 2 = true) (role : (s.advance clocks).role = rPAIRING) :
    execPairingPacket clocks p s = .next ((s.advance clocks).pairWith p) := by
  unfold execPairingPacket
  simp only [up, role, beq_self_eq_true, Bool.true_or, Bool.and_self, if_true]

end

theorem execPairingPacketSend_eq (role : (s.advance clocks).role = rPAIRING) (up : (s.advance clocks).phoaskUp = true)
    (first : s.twin.gotPair = false) : execPairingPacketSend clocks s = .next (s.advance clocks).sendPairing := by
  have first' : (s.advance clocks).twin.gotPair = false := first
  unfold execPairingPacketSend
  simp only [role, up, first', beq_self_eq_true, Bool.true_or, Bool.not_false, Bool.and_self, if_true]

/-! ### Claim lines and twin loss -/

theorem execPairTimeout_eq (runs : (s.advance clocks).roleRuns = true) (role : (s.advance clocks).role = rUNPAIRED)
    (down : (s.advance clocks).phoaskUp = false) (backoff : s.twin.backoff = false)
    (free : (s.advance clocks).peerAsserted = false) :
    execPairTimeout clocks s = .next (s.advance clocks).enterClaiming := by
  have backoff' : (s.advance clocks).twin.backoff = false := backoff
  unfold execPairTimeout
  simp only [runs, role, down, backoff', beq_self_eq_true, Bool.not_false, Bool.and_self, if_true, State.enterAlone_free free]

/-- TWIN_PEER as it is sensed, and the clock of its last assertion. -/
def State.peerSensed (s : State) (asserted : Bool) : State :=
  (s.set pTWR TWR_STAT_PEER asserted.toNat).modTwin fun z => { z with peerAt := if asserted then s.tb.clocks else z.peerAt }

theorem execTwinPeerChange_eq {asserted : Bool} (up : (s.advance clocks).dieUp 0 = true) :
    execTwinPeerChange clocks asserted s = .next ((s.advance clocks).peerSensed asserted) := by
  unfold execTwinPeerChange
  simp only [up, if_true]
  cases asserted <;> rfl

theorem State.on_peerSensed {asserted : Bool} (h : s.RegsOk) :
    (s.peerSensed asserted).on pTWR TWR_STAT_PEER = asserted := by
  unfold State.peerSensed
  rw [State.on_modTwin]
  cases asserted with
  | false => exact State.on_set_zero _ _ h (by decide)
  | true => exact State.on_set_one _ _ h (by decide) rfl

theorem State.framed_peerSensed {asserted : Bool} (h : s.RegsOk) :
    Framed (Offs pTWR [TWR_STAT]) s (s.peerSensed asserted) :=
  ((Framed.refl h).set (p := pTWR) (n := asserted.toNat) (f := TWR_STAT_PEER) (by decide)).of_eq rfl

theorem execTwinLossDeclare_eq (beats : (s.advance clocks).hbLate = true) (alive : (s.advance clocks).aliveLate = true)
    (role : (s.advance clocks).role = rHEADSTOCK) :
    execTwinLossDeclare clocks s = .next (((s.advance clocks).err pTWR 0x7222 0).setRole rHS_ALONE) := by
  unfold execTwinLossDeclare
  simp only [beats, alive, role, Bool.and_self, if_true]

theorem execClaimSample_eq (role : (s.advance clocks).role = rCLAIMING) (claimed : s.twin.claimAt.isSome = true)
    (free : (s.advance clocks).peerAsserted = false) :
    execClaimSample clocks s = .next ((s.advance clocks).takeRole false) := by
  have claimed' : (s.advance clocks).twin.claimAt.isSome = true := claimed
  unfold execClaimSample
  simp only [role, claimed', free, Bool.not_false, and_self, if_true]

theorem execClaimOverride_eq (role : (s.advance clocks).role = rCLAIMING) (peer : (s.advance clocks).peerAsserted = true)
    (override : (s.advance clocks).on pTWR TWR_CTRL_OVR_EN = true) :
    execClaimOverride clocks s = .next ((s.advance clocks).takeRole true) := by
  unfold execClaimOverride
  simp only [role, peer, override, and_self, if_true]

/-- Both claim: the line is released and a back-off runs (R319). -/
def State.contended (s : State) : State :=
  (s.setRole rUNPAIRED).modTwin fun z => { z with attempt := s.twin.attempt + 1, backoff := true }

theorem execClaimContention_eq {n : Nat} (role : (s.advance clocks).role = rCLAIMING) (claimed : s.twin.claimAt = some n)
    (peer : (s.advance clocks).on pTWR TWR_STAT_PEER = true) (after : n ≤ s.twin.peerAt)
    (soon : s.twin.peerAt ≤ n + 1000) : execClaimContention clocks s = .next (s.advance clocks).contended := by
  have claimed' : (s.advance clocks).twin.claimAt = some n := claimed
  have after' : n ≤ (s.advance clocks).twin.peerAt := after
  have soon' : (s.advance clocks).twin.peerAt ≤ n + 1000 := soon
  unfold execClaimContention
  simp only [claimed', role, peer, after', soon', and_self, if_true]
  rfl

theorem execClaimBackoffEnd_eq (backoff : s.twin.backoff = true) (runs : s.roleRuns = true) (role : s.role = rUNPAIRED)
    (free : s.peerAsserted = false) :
    execClaimBackoffEnd s = .next (s.advance (s.backoffClocks (s.twin.attempt - 1))).enterClaiming := by
  have free' : (s.advance (s.backoffClocks (s.twin.attempt - 1))).peerAsserted = false := free
  unfold execClaimBackoffEnd
  simp only [backoff, runs, role, beq_self_eq_true, Bool.and_self, if_true, State.enterAlone_free free']

theorem execTsAlonePeerTimeout_eq (role : (s.advance clocks).role = rTS_ALONE)
    (free : (s.advance clocks).peerAsserted = false) :
    execTsAlonePeerTimeout clocks s = .next (s.advance clocks).enterClaiming := by
  unfold execTsAlonePeerTimeout
  simp only [role, free, Bool.not_false, and_self, if_true]

/-! ### Handover and rejoin -/

theorem State.framed_nameBoundary {ends : Bool} (h : s.RegsOk) : Framed SendRegs s (s.nameBoundary ends) :=
  (State.framed_sendRsv h).of_eq rfl

theorem State.nameBoundary_roleAt {ends : Bool} :
    (s.nameBoundary ends).twin.roleAt = some (((s.rd pIXP IXP_CYC).toNat + 2) % 2 ^ 32, ends) := rfl

/-- HANDOVER is accepted in HEADSTOCK. -/
theorem twrCtrlPre_headstock {v : Word} (role : s.role = rHEADSTOCK) : twrCtrlPre v s = none := by
  unfold twrCtrlPre
  rw [role, bne_self_eq_false, Bool.and_false]
  rfl

theorem framed_plain_twrCtrl {v : Word} (h : s.RegsOk) : Framed (Offs pTWR [TWR_CTRL]) s (s.plain pTWR TWR_CTRL v) :=
  (Framed.refl h).plain (by decide)

/-- While EN stays 1 the role machine goes on. -/
theorem State.roleRuns_plain_twrCtrl {v : Word} (h : s.RegsOk) (runs : s.roleRuns = true) (enable : v.getLsbD 0 = true) :
    (s.plain pTWR TWR_CTRL v).roleRuns = true := by
  have plain := framed_plain_twrCtrl (v := v) h
  have up : (s.plain pTWR TWR_CTRL v).up = s.up := State.plain_up ..
  have block : (s.plain pTWR TWR_CTRL v).on pTWR BLK_CTRL_EN = s.on pTWR BLK_CTRL_EN := plain.on_eq (by decide)
  have control : (s.plain pTWR TWR_CTRL v).on pTWR TWR_CTRL_EN = true :=
    (State.on_plain (f := TWR_CTRL_EN) h (by decide) (by decide) rfl).trans enable
  unfold State.roleRuns at runs ⊢
  rw [up, block, control]
  exact (Bool.and_true _).trans (Bool.and_eq_true_iff.mp runs).1

theorem State.roleEnable_same (runs : s.roleRuns = true) : s.roleEnable true = s := by
  unfold State.roleEnable
  rw [runs]
  rfl

theorem twrCtrlEff_handover {v : Word} (h : s.RegsOk) (role : s.role = rHEADSTOCK) (handover : v.getLsbD 1 = true)
    (enable : v.getLsbD 0 = true) : twrCtrlEff v s = (s.plain pTWR TWR_CTRL v).nameBoundary false := by
  obtain ⟨runs, state⟩ := State.runs_of_role role (by decide)
  have runs' := State.roleRuns_plain_twrCtrl (v := v) h runs enable
  have role' : (s.plain pTWR TWR_CTRL v).role = rHEADSTOCK :=
    State.role_of_runs runs' (((framed_plain_twrCtrl h).get_eq (by decide)).trans state)
  unfold twrCtrlEff
  simp only [runs, State.roleEnable_same runs', handover, role', beq_self_eq_true, Bool.and_self, if_true]

theorem execHandoverPacket_eq {cycle : Nat} {ends : Bool} (up : (s.advance clocks).brUp 2 = true)
    (role : (s.advance clocks).role = (if ends then rREJOIN else rTAILSTOCK)) : execHandoverPacket clocks cycle ends s =
      .next ((s.advance clocks).modTwin fun z => { z with roleAt := some (cycle % 2 ^ 32, ends) }) := by
  unfold execHandoverPacket
  simp only [up, role, beq_self_eq_true, Bool.and_self, if_true]

theorem execRejoinEnd_eq (role : s.role = rHS_ALONE) (copying : s.twin.copying = true) (open' : s.twin.roleAt = none)
    (up : s.brUp 2 = true) (idle : ((s.bridge 2).waiting.all fun w => w.1 != 3) = true)
    (acked : (s.bridge 2).acked = (s.bridge 2).sent) : execRejoinEnd s = .next (s.nameBoundary true) := by
  unfold execRejoinEnd
  simp only [role, copying, open', up, idle, acked, Option.isNone_none, and_self, if_true]

theorem execRejoinTimeout_eq (role : (s.advance clocks).role = rHS_ALONE) (rejoining : s.twin.rejoining = true) :
    execRejoinTimeout clocks s = .next ((s.advance clocks).modTwin fun z =>
      { z with rejoining := false, copying := false
               roleAt := match z.roleAt with | some (_, true) => none | r => r }) := by
  have rejoining' : (s.advance clocks).twin.rejoining = true := rejoining
  unfold execRejoinTimeout State.rejoinDropped
  simp only [role, rejoining', or_true, if_true]
  rfl

/-! ### O22 -/

/-- Settles O22, command by command: pairing, time-outs, twin loss, claim, override, contention and back-off, handover, and the
end of a rejoin. -/
theorem twinRoleCommandsComplete : Obligations.TwinRoleCommandsComplete := by
  refine ⟨?packetSend, ?packet, ?pairTimeout, ?peer, ?loss, ?sample, ?override, ?contention, ?backoff, ?silent, ?handover,
    ?handoverPacket, ?rejoinEnd, ?rejoinTimeout⟩
  case packetSend =>
    intro clocks s canonical role up first
    exact ⟨_, execPairingPacketSend_eq role up first, rfl⟩
  case packet =>
    intro clocks p s canonical up role variant revision twin lower
    have h : (s.advance clocks).RegsOk := canonical.regsOk
    have kept := State.framed_packetKept (p := p) h
    have fuses : ((s.advance clocks).packetKept p).fuses = (s.advance clocks).fuses := State.packetKept_field State.fuses
    have lower' : p.identity % 2 ^ 128 ≤ ((s.advance clocks).packetKept p).identityNat := by
      rw [State.identityNat_of_fuses fuses]
      exact lower
    have learned := kept.learnTwin lower'
    have paired := State.regsOk_irq (p := pTWR) (b := INT_TWR_PAIRED) learned.ok
    have own : ((s.advance clocks).packetKept p).ownDual 0 = (s.advance clocks).ownDual 0 :=
      kept.ownDual_eq (State.packetKept_field State.hz9620) (by decide)
    have entered := State.framed_setRole (r := rREJOIN) paired
    refine ⟨_, (execPairingPacket_eq up role).trans
      (congrArg Host.Outcome.next (State.pairWith_equal h role variant revision twin lower)), State.get_setRole paired (by decide),
      State.irq_setRole paired (by decide) (State.irq_on _ _ learned.ok (by decide)), ?_, ?_, ?_⟩
    · rw [entered.get_eq (by decide), State.get_irq_other learned.ok (by decide), State.get_learnTwin_side kept.ok lower']
    · rw [State.setRole_twin.2.1, State.irq_twin, State.learnTwin_twin lower']
    · rw [entered.get_eq (by decide), State.get_irq_other learned.ok (by decide), State.get_learnTwin_dual kept.ok lower', own]
  case pairTimeout =>
    intro clocks s canonical runs role down backoff free
    have h : (s.advance clocks).RegsOk := canonical.regsOk
    exact ⟨_, execPairTimeout_eq runs role down backoff free, State.get_enterClaiming h, State.enterClaiming_origin.trans role⟩
  case peer =>
    intro clocks asserted s canonical up
    have h : (s.advance clocks).RegsOk := canonical.regsOk
    exact ⟨_, execTwinPeerChange_eq up, State.on_peerSensed h, fun on => if_pos on, (State.framed_peerSensed h).regs, rfl⟩
  case loss =>
    intro clocks s canonical beats alive role
    have h : ((s.advance clocks).err pTWR 0x7222 0).RegsOk := State.regsOk_err (s := s.advance clocks) canonical.regsOk
    refine ⟨_, execTwinLossDeclare_eq beats alive role, State.get_setRole h (by decide), ?_⟩
    unfold State.Posted
    rw [State.setRole_posts]
    exact State.posted_err bridgeDie_twr
  case sample =>
    intro clocks s canonical role claimed free origin
    have h : (s.advance clocks).RegsOk := canonical.regsOk
    obtain ⟨runs, -⟩ := State.runs_of_role role (by decide)
    refine ⟨_, (execClaimSample_eq role claimed free).trans (congrArg Host.Outcome.next (State.takeRole_unpaired origin)),
      State.get_setRole h (by decide), State.irq_setRole_alone h runs (State.isHeadstock_of_role runs role),
      State.setRole_twin.2.2 (by decide)⟩
  case override =>
    intro clocks s canonical role peer override
    obtain ⟨shown, state⟩ := State.takeRole_override (s := s.advance clocks) canonical.regsOk
    exact ⟨_, execClaimOverride_eq role peer override, state, shown.irq, shown.posted⟩
  case contention =>
    intro clocks n s canonical role claimed peer after soon
    have h : (s.advance clocks).RegsOk := canonical.regsOk
    exact ⟨_, execClaimContention_eq role claimed peer after soon, State.get_setRole h (by decide), rfl, rfl,
      State.claim_setRole_unpaired h⟩
  case backoff =>
    intro s canonical backoff runs role free
    have h : (s.advance (s.backoffClocks (s.twin.attempt - 1))).RegsOk := canonical.regsOk
    refine ⟨_, execClaimBackoffEnd_eq backoff runs role free, State.get_enterClaiming h,
      State.enterClaiming_origin.trans role, ?_⟩
    rw [State.enterClaiming_tb]
    rfl
  case silent =>
    intro clocks s canonical role free
    have h : (s.advance clocks).RegsOk := canonical.regsOk
    exact ⟨_, execTsAlonePeerTimeout_eq role free, State.get_enterClaiming h, State.enterClaiming_origin.trans role⟩
  case handover =>
    intro a v s canonical accepts handover enable role
    have h : s.ok.RegsOk := canonical.regsOk
    have plain := framed_plain_twrCtrl (v := v) h
    obtain ⟨-, state⟩ := State.runs_of_role role (by decide)
    have cycle : (s.ok.plain pTWR TWR_CTRL v).rd pIXP IXP_CYC = s.rd pIXP IXP_CYC := plain.rd_eq (by decide)
    have state' : (s.ok.plain pTWR TWR_CTRL v).get pTWR BLK_STAT_STATE = rHEADSTOCK :=
      (plain.get_eq (by decide)).trans state
    refine ⟨_, congrArg Host.Outcome.next ((State.regWrite_accepted accepts (twrCtrlPre_headstock role)).trans
      (twrCtrlEff_handover h role handover enable)), ?_, ?_⟩
    · rw [State.nameBoundary_roleAt, cycle]
    · exact ((State.framed_nameBoundary plain.ok).get_eq (by decide)).trans state'
  case handoverPacket =>
    intro clocks cycle ends s canonical up role
    exact ⟨_, execHandoverPacket_eq up role, rfl, fun _ _ => rfl, rfl⟩
  case rejoinEnd =>
    intro s canonical role copying open' up idle acked
    exact ⟨_, execRejoinEnd_eq role copying open' up idle acked, State.nameBoundary_roleAt⟩
  case rejoinTimeout =>
    intro clocks s canonical role rejoining
    exact ⟨_, execRejoinTimeout_eq role rejoining, rfl, rfl, fun _ _ => rfl, rfl⟩

end Sys2Proof.Machine

end
